-- ==== Sys2Proof/Word.lean ====
section
/-!
DEFINITION. The word types and their plainest arithmetic: bits, bit ranges, sign, saturation, little-endian bytes (R3).
-/

namespace Sys2Proof

abbrev Byte := BitVec 8
abbrev Word := BitVec 32
/-- A raw postmark: 64 bits, one LSB is 2^-24 s (00, Table 0.3). -/
abbrev Postmark := BitVec 64

/-- Bits `[lo+w-1:lo]` of a number. -/
def bits (n lo w : Nat) : Nat := n / 2 ^ lo % 2 ^ w

/-- Bit `i` of a number. -/
def bit (n i : Nat) : Bool := n / 2 ^ i % 2 == 1

/-- `n` with bits `[lo+w-1:lo]` replaced by `v` (taken modulo 2^w). -/
def setBits (n lo w v : Nat) : Nat := n - bits n lo w * 2 ^ lo + v % 2 ^ w * 2 ^ lo

/-- A Bool as a bit. -/
def b2n (b : Bool) : Nat := if b then 1 else 0

/-- The signed value of the low `w` bits. -/
def toSigned (w n : Nat) : Int := let m := n % 2 ^ w; if m * 2 < 2 ^ w then m else (m : Int) - 2 ^ w

/-- The low `w` bits that stand for a signed number. -/
def ofSigned (w : Nat) (z : Int) : Nat := (z % (2 ^ w : Int)).toNat

/-- A number held to at most `m` (a saturating counter's ceiling). -/
def satTo (m n : Nat) : Nat := if n ≤ m then n else m

/-- A signed number held to the range of `w` bits. -/
def clampS (w : Nat) (z : Int) : Int := if z < -(2 ^ (w - 1) : Int) then -(2 ^ (w - 1) : Int) else if z ≥ 2 ^ (w - 1) then 2 ^ (w - 1) - 1 else z

/-- Division rounding half away from zero, of a signed number by a positive one. -/
def divRoundAway (z : Int) (d : Nat) : Int :=
  if 0 ≤ z then (2 * z + d) / (2 * d) else -((2 * (-z) + d) / (2 * d))

/-- The `n` bytes of a number, least significant first (R3). -/
def leBytes : Nat → Nat → List Byte
  | 0, _ => []
  | n + 1, v => BitVec.ofNat 8 v :: leBytes n (v / 256)

/-- The number a list of bytes spells, least significant first (R3). -/
def ofLe : List Byte → Nat
  | [] => 0
  | b :: t => b.toNat + 256 * ofLe t

/-- A list of bytes cut or filled with zeros to `n` bytes. -/
def padTo (n : Nat) (l : List Byte) : List Byte := (l ++ List.replicate n 0#8).take n

/-- Apply `f` for each index below `n`, in rising order. -/
def forUpTo {σ : Type} : Nat → (Nat → σ → σ) → σ → σ
  | 0, _, s => s
  | n + 1, f, s => f n (forUpTo n f s)

/-- The least index below `n` that meets `p`. -/
def findBelow (n : Nat) (p : Nat → Bool) : Option Nat := (List.range n).find? p

/-- Element `i` of a list with a default. -/
def nth {α : Type} (l : List α) (i : Nat) (d : α) : α := l.getD i d

/-- The list with element `i` replaced (unchanged where there is none). -/
def upd {α : Type} (l : List α) (i : Nat) (f : α → α) : List α := l.modify i f

/-- A number put into a rising list, once. -/
def insNat (n : Nat) : List Nat → List Nat
  | [] => [n]
  | a :: t => if n < a then n :: a :: t else if a = n then a :: t else a :: insNat n t

/-- The numbers of a list, rising, each once. -/
def sortNat (l : List Nat) : List Nat := l.foldl (fun r n => insNat n r) []

end Sys2Proof
end

