-- ==== Sys2Proof/Syntax.lean ====
section
/-!
DEFINITION. The commands: one constructor for each row of the opcode table, and the data its operands are made of.
-/
namespace Sys2Proof

/-- A storage cell whose bit has turned (R63, R65): the host address of its 64-bit word, and the bit of the word's 72-bit code; in
the first word of a ledger line, bits 72 to 103 are those of the line CRC. -/
structure Flip where
  addr : Nat
  bit  : Nat
  deriving DecidableEq, Repr

/-- What the verify of a line program finds (R68): good, good after the one retry, or bad twice. -/
inductive Verify where
  | good | retried | failed
  deriving DecidableEq, Repr

/-- What a requester does on a bank (R77): reads beats of 16 bytes, or writes bytes. -/
inductive BusAccess where
  | read (beats : Nat)
  | write (data : List Byte)
  deriving DecidableEq, Repr

/-- The programs that complete (R62, R67): the oldest line of a bank's buffer; the oldest pending record of the system records; the
next step of the move of a block in progress; the next line of the commit, the retirement or the flush in progress, whose own command
then follows. Each with what its verify found. -/
inductive Program where
  | line (bank : Fin 8) (verify : Verify)
  | record (verify : Verify)
  | move (verify : Verify)
  | part (verify : Verify)
  deriving DecidableEq, Repr

/-- Samples of FLnn_RXD that a burst of line activity gives (R96, R429), in runs of one level with their lengths in reference periods;
for a burst that begins with them, the reference periods from E of R110 to its first sample. -/
structure Burst where
  after : Nat
  runs  : List (Bool × Nat)
  deriving DecidableEq, Repr

/-- A received cascade frame (R279): whether it held a code violation or disparity error, and its bytes from TYPE to CRC. -/
structure RxFrame where
  codeErr : Bool
  data    : List Byte
  deriving DecidableEq, Repr

/-- A budget register (R217): GATE_QUOTAc, GATE_SHAREc, GATE_OPEN.LIMIT, GATE_FRBnn; the classes count from A as 0. -/
inductive Budget where
  | quota (cls : Fin 3)
  | share (cls : Fin 3)
  | openLimit
  | rate (port : Fin 32)
  deriving DecidableEq, Repr

/-- A preload of a timer unit (R327). -/
inductive Preload where
  | top | cmpA | cmpB
  deriving DecidableEq, Repr

/-- The commands: one constructor for each row of the table, in its order. `writer` and `reader` are unit IDs (0xFF is the test
access port); `core` is a unit ID up to 0x40; `chB` tells channel B of a timer unit from channel A; `frac` is the fraction of a
reference period, in 2^-24, that has passed since the timebase's last step; `flips` are the cells that have turned since the last such
command. -/
inductive Instr where
  | registerWrite (writer : Fin 256) (addr : Word) (val : Word) (other : Option (Fin 256 × Word × Word))
  | rmapApply (writer : Fin 256)
  | rmapCheck (writer : Fin 256)
  | rmapCheckA (writer : Fin 256)
  | rmapCheckB (writer : Fin 256)
  | rmapLoadA (writer : Fin 256)
  | rmapLoadB (writer : Fin 256)
  | applyPoint
  | rmapCommandDone
  | measurementWindowEnd (count : Nat)
  | temperatureUpdate (reading : Int)
  | postmarkRead (reader : Fin 256)
  | bankRequest (unit : Fin 128) (ahead : Bool) (addr : Word) (access : BusAccess) (flips : List Flip)
  | arbitrationPhase (bank : Fin 24)
  | grantWithdrawal (bank : Fin 24)
  | arbConfigWrite (writer : Fin 256) (unit : Fin 128) (mask : Bool) (val : Word)
  | patrolScrub (flips : List Flip)
  | lineProgramComplete (program : Program)
  | txnOpen (writer : Fin 256)
  | txnCommit (writer : Fin 256)
  | txnAbort (writer : Fin 256)
  | commitPoint (owner : Fin 128)
  | retireRecord (owner : Fin 128)
  | framePrebuild (port : Fin 32)
  | frameSend (port : Fin 32)
  | frameTxEnd (port : Fin 32)
  | deLagExpiry (port : Fin 32)
  | rxBlankExpiry (port : Fin 32)
  | portEnable (writer : Fin 256) (port : Fin 32)
  | portDisable (writer : Fin 256) (port : Fin 32)
  | burstReceived (port : Fin 32) (burst : Burst)
  | lineQuiet (port : Fin 32)
  | nodeMissing (port : Fin 32)
  | exchangeEnd (port : Fin 32)
  | exchangeCutOff (port : Fin 32)
  | lineFault (port : Fin 32)
  | lineFaultCleared (port : Fin 32)
  | roundConvert (port : Fin 32)
  | roundRead (port : Fin 32)
  | roundLetterbox (port : Fin 32)
  | roundEnrol (port : Fin 32)
  | roundMaint (port : Fin 32)
  | roundBoundary (port : Fin 32)
  | commandWaitEnd (port : Fin 32)
  | autoRestartExpiry (port : Fin 32)
  | portRestart (writer : Fin 256) (port : Fin 32)
  | closeWaitExpiry (port : Fin 32)
  | fenceWrite (writer : Fin 256) (port : Fin 32) (fence : Fin 8) (val : Word)
  | mailboxWrite (writer : Fin 256) (port : Fin 32) (val : Word)
  | passGateOpen (port : Fin 32)
  | ttRunSet (writer : Fin 256)
  | ttRunClear (writer : Fin 256)
  | ttAheadWrite (writer : Fin 256) (ahead : Fin 16)
  | slotWrite (writer : Fin 256) (hi : Word)
  | slotRead (reader : Fin 256)
  | timetableCopy (writer : Fin 256)
  | copyComplete
  | timetableSwap (writer : Fin 256)
  | slotEdit (writer : Fin 256) (hi : Word)
  | trendReading (port : Fin 32)
  | fieldReport (port : Fin 32)
  | chainOutput (chain : Fin 16) (bits : List (Bool × Nat))
  | sampleHandoff (chain : Fin 16)
  | sourceOverload (source : Fin 16)
  | overloadEnd (source : Fin 16)
  | chainStart (writer : Fin 256) (chain : Fin 16)
  | chainStop (writer : Fin 256) (chain : Fin 16)
  | coefWrite (writer : Fin 256) (chain : Fin 16) (val : Word)
  | coefRead (reader : Fin 256) (chain : Fin 16)
  | sourceModWrite (writer : Fin 256) (source : Fin 16) (val : Word)
  | chainSourceWrite (writer : Fin 256) (chain : Fin 16) (val : Word)
  | lastOutputRead (reader : Fin 256) (chain : Fin 16)
  | letterOffer
  | budgetWrite (writer : Fin 256) (budget : Budget) (val : Word)
  | outboxPop (writer : Fin 256) (count : Word)
  | bellEnableWrite (writer : Fin 256) (on : Bool)
  | redelivery
  | nop (core : Fin 65)
  | wait (core : Fin 65)
  | waitResume (core : Fin 65)
  | ret (core : Fin 65)
  | rti (core : Fin 65)
  | setf (core : Fin 65)
  | clrf (core : Fin 65)
  | add (core : Fin 65)
  | adc (core : Fin 65)
  | sub (core : Fin 65)
  | sbc (core : Fin 65)
  | and (core : Fin 65)
  | or (core : Fin 65)
  | xor (core : Fin 65)
  | cmp (core : Fin 65)
  | lda (core : Fin 65)
  | sta (core : Fin 65)
  | ldx (core : Fin 65)
  | stx (core : Fin 65)
  | ldy (core : Fin 65)
  | sty (core : Fin 65)
  | tax (core : Fin 65)
  | tay (core : Fin 65)
  | tya (core : Fin 65)
  | txy (core : Fin 65)
  | tyx (core : Fin 65)
  | inc (core : Fin 65)
  | dec (core : Fin 65)
  | shl (core : Fin 65)
  | shr (core : Fin 65)
  | sar (core : Fin 65)
  | rol (core : Fin 65)
  | ror (core : Fin 65)
  | not (core : Fin 65)
  | neg (core : Fin 65)
  | mul (core : Fin 65)
  | cpx (core : Fin 65)
  | cpy (core : Fin 65)
  | tst (core : Fin 65)
  | incw (core : Fin 65)
  | decw (core : Fin 65)
  | ldp (core : Fin 65)
  | ldq (core : Fin 65)
  | stp (core : Fin 65)
  | stq (core : Fin 65)
  | addp (core : Fin 65)
  | addq (core : Fin 65)
  | xpq (core : Fin 65)
  | ldsp (core : Fin 65)
  | tsp (core : Fin 65)
  | tps (core : Fin 65)
  | txap (core : Fin 65)
  | tpxa (core : Fin 65)
  | ldc (core : Fin 65)
  | txac (core : Fin 65)
  | loop (core : Fin 65)
  | tcxa (core : Fin 65)
  | push (core : Fin 65)
  | pull (core : Fin 65)
  | cpp (core : Fin 65)
  | cpq (core : Fin 65)
  | branch (core : Fin 65)
  | jmp (core : Fin 65)
  | call (core : Fin 65)
  | movb (core : Fin 65)
  | fill (core : Fin 65)
  | scan (core : Fin 65)
  | cmpb (core : Fin 65)
  | lodb (core : Fin 65)
  | adcb (core : Fin 65)
  | sbcb (core : Fin 65)
  | rpt (core : Fin 65) (reps : Nat)
  | undefinedOpcode (core : Fin 65)
  | eventInterrupt (core : Fin 65)
  | eventRecordArrival (core : Fin 65) (record : List Byte)
  | coreStart (writer : Fin 256) (core : Fin 65)
  | coreStop (writer : Fin 256) (core : Fin 65)
  | coreFresh (writer : Fin 256) (core : Fin 65)
  | coreMemoryWrite (writer : Fin 256) (core : Fin 65) (val : Byte)
  | coreMemoryRead (reader : Fin 256) (core : Fin 65)
  | coreSel (unit : Byte)
  | coreHalt
  | coreStep
  | coreResume
  | coreRegs (regs : Option (BitVec 128))
  | presenceDetected (link : Fin 4)
  | presenceLost (link : Fin 4)
  | trainingComplete (link : Fin 4) (uid : BitVec 64)
  | trainingTimeout (link : Fin 4)
  | wordLockLoss (link : Fin 4)
  | linkFrameBoundary (link : Fin 4) (frac : BitVec 24)
  | letter (link : Fin 4) (frame : RxFrame)
  | ack (link : Fin 4) (frame : RxFrame)
  | hello (link : Fin 4) (frame : RxFrame)
  | enrol (link : Fin 4) (frame : RxFrame)
  | welcome (link : Fin 4) (frame : RxFrame)
  | leave (link : Fin 4) (frame : RxFrame)
  | pathLost (link : Fin 4) (frame : RxFrame)
  | pathStands (link : Fin 4) (frame : RxFrame)
  | pathRestored (link : Fin 4) (frame : RxFrame)
  | pathNewhead (link : Fin 4) (frame : RxFrame)
  | syncTimer (link : Fin 4)
  | sync (link : Fin 4) (frac : BitVec 24) (frame : RxFrame)
  | dreq (link : Fin 4) (frac : BitVec 24) (frame : RxFrame)
  | dresp (link : Fin 4) (frame : RxFrame)
  | raReq (link : Fin 4) (frame : RxFrame)
  | raResp (link : Fin 4) (frame : RxFrame)
  | idmir (link : Fin 4) (complete : Bool) (frame : RxFrame)
  | syncTimeout
  | outageHoldExpiry (link : Fin 4)
  | enrolTimeout
  | enrolRetry
  | reenrol (writer : Fin 256)
  | resync (writer : Fin 256)
  | linkDownWrite (writer : Fin 256) (link : Fin 4) (down : Bool)
  | raRead (writer : Fin 256) (wordsM1 : Fin 8)
  | raWrite (writer : Fin 256) (wordsM1 : Fin 8)
  | raTimeout (channel : Fin 3)
  | rdsr
  | readId
  | read (addr : Word) (count : Nat) (late : Option Nat)
  | readQ (addr : Word) (count : Nat) (late : Option Nat)
  | write (addr : Word) (data : List Byte)
  | writeQ (addr : Word) (data : List Byte)
  | enterQuad
  | exitQuad
  | resetEn
  | reset
  | badcmd
  | hcsNRise
  | postedWriteComplete (count : Nat)
  | twpStart (misplaced : Bool)
  | twpAddress (byte : Byte)
  | alertResponse (others : List (Byte × Byte))
  | twpWriteByte (byte : Byte)
  | twpReadByte (ready : Bool) (ack : Bool)
  | twpStop (misplaced : Bool)
  | twpTimeout
  | timerMatch (unit : Fin 16) (chB : Bool)
  | timerWrap (unit : Fin 16)
  | captureEdge (unit : Fin 16) (chB : Bool) (rising : Bool)
  | captureRead (reader : Fin 256) (unit : Fin 16) (chB : Bool)
  | comparePreloadWrite (writer : Fin 256) (unit : Fin 16) (preload : Preload) (val : Word)
  | cmpLoad (writer : Fin 256) (unit : Fin 16) (chB : Bool)
  | outputForce (writer : Fin 256) (unit : Fin 16) (chB : Bool) (code : Fin 4)
  | timerStart (writer : Fin 256) (unit : Fin 16)
  | timerStop (writer : Fin 256) (unit : Fin 16)
  | entryAbort (busy : Option (Fin 128))
  | powerDown
  | comparatorTrip (comparator : Fin 4)
  | powerOnReset
  | powerUp
  | resetPin
  | resetRelease
  | softReset (writer : Fin 256)
  | tapReset
  | regulatorReady
  | oscillatorReady
  | strapSample (boot : Fin 8) (head : Bool) (standby : Bool) (adr0 : Fin 3) (adr1 : Fin 3) (adr2 : Fin 3)
  | memoryReady
  | systemRecordsReady
  | logicReady
  | powerStageTimeout
  | xloStable
  | checkFault (unit : Fin 128) (code : Byte)
  | unitResetComplete (unit : Fin 128)
  | faultSlotClear (writer : Fin 256) (unit : Fin 128) (secondary : Bool)
  | unitRelease (writer : Fin 256) (unit : Fin 128)
  | powerFail
  | flushComplete
  | powerRestored
  | dayBookWrite
  | idcode
  | samplePreload (levels : List Bool) (load : Option (List Bool))
  | extest (levels : List Bool) (load : Option (List Bool))
  | highz
  | clamp
  | bypass
  | hcsNFall
  | trainingPauseEnd (link : Fin 4)
  | wordLockGained (link : Fin 4)
  | classWindowOpen (cls : Fin 3)
  | comparatorWakeSideLeft (comparator : Fin 4)
  | holdUpdate (vhold : Nat) (vio33 : Nat)
  deriving DecidableEq, Repr

end Sys2Proof
end

