-- ==== Sys2Proof/WellFormed.lean ====
section
/-!
DEFINITION. Which commands the spec's interfaces can present: a check for each operand whose type admits more than the hardware does.
-/

namespace Sys2Proof

/-- An address of the ledger or of the pigeonhole memory (21, R422). -/
def memoryAddress (a : Word) : Bool := decide (a.toNat < 0x06000000) || (decide (0x08000000 ≤ a.toNat) && decide (a.toNat < 0x09000000))

/-- The address of a word that is a register's or no one's (21, R422). -/
def registerAddress (a : Word) : Bool := !memoryAddress a && a.toNat % 4 == 0

/-- What a requester asks of a bank: 1 to 2,048 bytes, in beats of 16 (R77). -/
def BusAccess.ok (a : BusAccess) : Bool :=
  match a with
  | .read n => decide (1 ≤ n) && decide (n ≤ 128)
  | .write d => decide (1 ≤ d.length) && decide (d.length ≤ 2048)

/-- A cell: a word of one of the memories and a bit of its code, or a bit of a ledger line's CRC (R63, R65). -/
def Flip.ok (f : Flip) : Bool :=
  f.addr % 8 == 0 && (decide (f.addr < 0x06000000) || (decide (0x08000000 ≤ f.addr) && decide (f.addr < 0x09000000))) &&
  (decide (f.bit < 72) || (decide (f.bit < 104) && decide (f.addr < 0x06000000) && f.addr % 64 == 0))

/-- A received frame: TYPE, LEN, DST, up to 255 bytes and the CRC (R279). -/
def RxFrame.ok (f : RxFrame) : Bool := decide (f.data.length ≤ 263)

/-- Runs of equal source bits are not empty (R183). -/
def runsOk (l : List (Bool × Nat)) : Bool := l.all (fun r => decide (1 ≤ r.2))

/-- A well-formed command. -/
def Instr.wf (i : Instr) : Bool :=
  match i with
  | .registerWrite _ a _ o => registerAddress a && (match o with | some (_, b, _) => registerAddress b | none => true)
  | .bankRequest _ _ a acc e => memoryAddress a && acc.ok && e.all Flip.ok
  | .patrolScrub l => l.all Flip.ok
  | .chainOutput _ l => runsOk l
  | .rpt _ n => decide (1 ≤ n)
  | .eventRecordArrival _ r => r.length == 32
  | .letter _ f | .ack _ f | .hello _ f | .enrol _ f | .welcome _ f | .leave _ f | .pathLost _ f | .pathStands _ f | .pathRestored _ f
  | .pathNewhead _ f | .sync _ _ f | .dreq _ _ f | .dresp _ f | .raReq _ f | .raResp _ f | .idmir _ _ f => f.ok
  | .postedWriteComplete n => decide (1 ≤ n)
  | .outboxPop _ n => decide (n.toNat < 0x100000)
  | .holdUpdate mv _ => decide (mv ≤ 1023)
  | _ => true

end Sys2Proof
end

