-- ==== Sys2Proof/Decode.lean ====
section
/-!
DEFINITION. The decoder of the table's words. The table gives none of its rows bits: the commands are register accesses, bus and
protocol operations and events, so that no word spells one of them.
-/

namespace Sys2Proof

/-- The command that a word spells by the table's bits: none does. -/
def decodeTableWord (_nbits _w : Nat) : Option Instr := none

end Sys2Proof
end

