-- ==== Sys2Proof/Machine/Flags.lean ====
section
/-!
DEFINITION. The flag register FL (Table 11.2) and the flag classes of Table 12.3 (R260), for 8 and 16 bits.
-/

namespace Sys2Proof.Machine

/-! Bits of FL. -/
def flC : Nat := 0
def flZ : Nat := 1
def flN : Nat := 2
def flV : Nat := 3
def flD : Nat := 4
def flI : Nat := 5

/-- A flag of FL. -/
def getFl (fl : Byte) (i : Nat) : Bool := fl.getLsbD i

/-- FL with one flag written. -/
def setFl (fl : Byte) (i : Nat) (b : Bool) : Byte :=
  if b then fl ||| BitVec.ofNat 8 (2 ^ i) else fl &&& ~~~(BitVec.ofNat 8 (2 ^ i))

/-- N and Z from a result of `w` bits. -/
def flagsNZ {w : Nat} (fl : Byte) (r : BitVec w) : Byte := setFl (setFl fl flN r.msb) flZ (r == 0#w)

/-- The ADD class: r := a + b + k, with its flags. -/
def addClass {w : Nat} (fl : Byte) (a b : BitVec w) (k : Bool) : BitVec w × Byte :=
  let sum := a.toNat + b.toNat + b2n k
  let r := BitVec.ofNat w sum
  (r, setFl (setFl (flagsNZ fl r) flC (decide (2 ^ w ≤ sum))) flV (a.msb == b.msb && r.msb != a.msb))

/-- The SUB class: r := a − b − k; C is 1 when there is no borrow. -/
def subClass {w : Nat} (fl : Byte) (a b : BitVec w) (k : Bool) : BitVec w × Byte :=
  let r := a - b - BitVec.ofNat w (b2n k)
  (r, setFl (setFl (flagsNZ fl r) flC (decide (b.toNat + b2n k ≤ a.toNat))) flV (a.msb != b.msb && r.msb != a.msb))

/-- The LOG class: N, Z, and V := 0. -/
def logFlags (fl : Byte) (r : Byte) : Byte := setFl (flagsNZ fl r) flV false

/-- The LD class: N and Z. -/
def ldFlags (fl : Byte) (r : Byte) : Byte := flagsNZ fl r

/-- The CNT class for an increment (`up`) or a decrement of `a`. -/
def cntClass (fl : Byte) (a : Byte) (up : Bool) : Byte × Byte :=
  let r := if up then a + 1 else a - 1
  (r, setFl (flagsNZ fl r) flV (if up then a == 0x7F#8 else a == 0x80#8))

/-- The SHF class: the result and the bit shifted out. -/
def shfFlags (fl : Byte) (r : Byte) (out : Bool) : Byte := setFl (setFl (flagsNZ fl r) flC out) flV false

/-- INCW and DECW: N and Z on 16 bits, C on a wrap (Table 12.6). -/
def wordFlags (fl : Byte) (r : BitVec 16) (wrapped : Bool) : Byte := setFl (flagsNZ fl r) flC wrapped

/-- Whether the branch 0xA0 + `i` is taken (Table 12.9). -/
def branchTaken (i : Nat) (fl : Byte) : Bool :=
  let c := getFl fl flC; let z := getFl fl flZ; let n := getFl fl flN; let v := getFl fl flV
  match i with
  | 0 => true
  | 1 => z
  | 2 => !z
  | 3 => c
  | 4 => !c
  | 5 => n
  | 6 => !n
  | 7 => v
  | 8 => !v
  | 9 => !z && n == v
  | 10 => n == v
  | 11 => n != v
  | 12 => z || n != v
  | 13 => c && !z
  | 14 => !c || z
  | _ => false

end Sys2Proof.Machine
end

