-- ==== Sys2Proof/Machine/Crc.lean ====
section
/-!
DEFINITION. The checks over bytes: CRC-32 (R24), CRC-16/CCITT-FALSE (R102), CRC-8 of the packet error code (R316).
-/

namespace Sys2Proof.Machine

/-- One shift of a reflected CRC register by the reversed polynomial. -/
def crcShiftR (poly : Nat) (c : Nat) : Nat := if c % 2 = 1 then (c / 2) ^^^ poly else c / 2

/-- One shift of an unreflected CRC register of `w` bits. -/
def crcShiftL (w poly : Nat) (c : Nat) : Nat := if 2 ^ (w - 1) ≤ c then (2 * c % 2 ^ w) ^^^ poly else 2 * c

/-- `f` applied `n` times. -/
def iter {α : Type} (n : Nat) (f : α → α) (a : α) : α := Nat.rec a (fun _ x => f x) n

/-- CRC-32 of a list of bytes (R24): reflected, initial value and final XOR all ones. -/
def crc32 (l : List Byte) : Nat :=
  (l.foldl (fun c b => iter 8 (crcShiftR 0xEDB88320) (c ^^^ b.toNat)) 0xFFFFFFFF) ^^^ 0xFFFFFFFF

/-- CRC-16/CCITT-FALSE (R102): polynomial 0x1021, initial value 0xFFFF, no reflection, no final XOR. -/
def crc16 (l : List Byte) : Nat :=
  l.foldl (fun c b => iter 8 (crcShiftL 16 0x1021) (c ^^^ (b.toNat * 256))) 0xFFFF

/-- CRC-8 with polynomial 0x07 and initial value 0 (R316). -/
def crc8 (l : List Byte) : Nat :=
  l.foldl (fun c b => iter 8 (crcShiftL 8 0x07) (c ^^^ b.toNat)) 0

end Sys2Proof.Machine
end

