-- ==== Sys2Proof/Config.lean ====
section
/-!
DEFINITION. What an implementation or a chip fixes: the shape of the register tables, and the values the spec leaves
open (fused, factory or unstated), each an opaque constant with no body, so that no proof can see a value.
-/

namespace Sys2Proof

/-- Access codes of Table 0.2 (R2). -/
inductive Access where
  | rw | ro | wo | w1c | rwl
  deriving DecidableEq, Repr

/-- The legal encodings of a field; a write of any other is refused (R5). -/
inductive Enc where
  | any
  | rng (lo hi : Nat)
  | oneOf (l : List Nat)
  | outside (lo hi : Nat)
  deriving DecidableEq, Repr

/-- A register field: bits `[hi:lo]`, access code, reset value, legal encodings. -/
structure FieldDef where
  hi : Nat
  lo : Nat
  acc : Access
  reset : Nat
  enc : Enc
  deriving DecidableEq, Repr

/-- One row of the register tables: `n` instances `stride` apart, each of `n2` words `stride2` apart. -/
structure RegDef where
  name : String
  base : Nat
  n : Nat
  stride : Nat
  n2 : Nat
  stride2 : Nat
  fields : List FieldDef
  deriving DecidableEq, Repr

/-- A field of one register: its address, low bit and width. -/
structure Fd where
  addr : Nat
  lo : Nat
  w : Nat
  deriving DecidableEq, Repr

/-- Whether an encoding is legal. -/
def Enc.ok (e : Enc) (v : Nat) : Bool :=
  match e with
  | .any => true
  | .rng lo hi => decide (lo ≤ v) && decide (v ≤ hi)
  | .oneOf l => l.contains v
  | .outside lo hi => decide (v < lo) || decide (hi < v)

/-- The instance of the row at an address, if it covers it. The instance index counts the outer instances. -/
def RegDef.index (d : RegDef) (a : Nat) : Option Nat :=
  if a < d.base then none
  else
    let off := a - d.base
    let i := if d.n ≤ 1 then 0 else off / d.stride
    let r := if d.n ≤ 1 then off else off % d.stride
    let j := if d.n2 ≤ 1 then 0 else r / d.stride2
    let r2 := if d.n2 ≤ 1 then r else r % d.stride2
    if r2 = 0 ∧ j < (if d.n2 = 0 then 1 else d.n2) ∧ i < (if d.n = 0 then 1 else d.n) then
      some (if d.n ≤ 1 then j else i)
    else none

/-- The units whose ARB_MASK is all ones and read-only (R80). -/
def isFixedMask (u : Nat) : Bool := u == 0x75 || u == 0x76 || u == 0x7A || u == 0x7B || u == 0x7F

/-! Values the spec leaves to the chip or leaves open. -/

/-- Silicon stepping (21, SYS_ID; fused). -/
opaque Config.stepping : BitVec 8
/-- SYS_RMAP_FUSE.SIG_REQUIRED (02, R34; fused). -/
opaque Config.sigRequired : BitVec 1
/-- SYS_RMAP_FUSE.KEY_PRESENT (02, R34; fused). -/
opaque Config.keyPresent : BitVec 1
/-- The fused 256-bit hash of the signing key, as 32 bytes in order (02, R26). -/
opaque Config.keyHash : Nat → BitVec 8
/-- PACE_FCURVEk.HI and LO (03, R43, R59; fused). -/
opaque Config.fcurveHi : Nat → BitVec 16
opaque Config.fcurveLo : Nat → BitVec 16
/-- PACE_FLOOR.FLOOR: the value at 1.05 V is fused in both (03, R43, R59). -/
def Config.floorPace : BitVec 16 := Config.fcurveHi 4
/-- The 64-bit unique chip identifier (13; fused). -/
opaque Config.uidLo : BitVec 32
opaque Config.uidHi : BitVec 32
/-- The factory calibration OTP (08, R164), by byte offset. -/
opaque Config.otpByte : Nat → BitVec 8
/-- A fresh unstated value for each reading of the counter `freeCtr` of State. -/
opaque Config.freeValue : Nat → BitVec 64
/-- A host read of a byte of the system records or journal areas whose layout the spec does not give: by version and address. -/
opaque Config.recordByte : Nat → Nat → BitVec 8
/-- The place of a record in the system records (R427), by its index. -/
opaque Config.recordPlace : Nat → Nat
/-- Cells of an image slot that turn between its checks and its application (02, R431), by the counter `freeCtr`: byte offset and bit. -/
opaque Config.cellsTurn : Nat → List (Nat × Nat)
/-- Whether a program can offer letters of a kind, by the bytes of its image (02, R27): the spec leaves the meaning of kinds to the
programs (10, R203). -/
opaque Config.programOffers : List (BitVec 8) → Nat → Bool
/-- The cell of the boundary register that a pin has (19, R398), by 22 times the row of its ball and the column: the spec does not give the register's order. -/
opaque Config.boundaryCell : Nat → Nat
/-- Whether VIO18 (`true`) or VIO33 (`false`) is at its threshold while the rails rise (19, R391), by the counter `freeCtr`: until REG_OK the
spec gives the order of the rails to the board. -/
opaque Config.railUp : Nat → Bool → Bool
/-- The time of one beat of a post-bus bank, in 2^-48 s (04, R75; at most 4 ns at floor pace). -/
opaque Config.beatTime : Nat

/-- CRC-32 over the reset FIR table of one tap, 0x40_0000 (R196). -/
def Config.resetCoefCrc : Nat := 0x899d9882

end Sys2Proof
end

