-- ==== Sys2Proof/Machine/RegTable.lean ====
section
/-!
DEFINITION. The register tables of the spec: one row per register template, with its host address, its instances
(R425, Table 21.4; Table 21.5), and its fields with access code, reset value and legal encodings (R2, R4, R5).
-/

namespace Sys2Proof.Machine

/-- The SYS registers (02 R34, 03 R55, 17 R363, 18 R386, 19 R400, 20 R408, 21 R424). -/
def regDefsSYS : List RegDef := [
  ⟨"SYS_DIAG", 0x10100000, 1, 0x0, 1, 0, [⟨15, 8, .ro, 0, .any⟩, ⟨1, 1, .w1c, 0, .any⟩, ⟨0, 0, .w1c, 0, .any⟩]⟩,
  ⟨"SYS_RSVD_ADDR", 0x10100004, 1, 0x0, 1, 0, [⟨31, 2, .ro, 0, .any⟩]⟩,
  ⟨"SYS_ID", 0x10100008, 1, 0x0, 1, 0, [⟨31, 16, .ro, 0x9620, .any⟩, ⟨7, 0, .ro, 0, .any⟩]⟩,
  ⟨"SYS_PM_LO", 0x10100040, 1, 0x0, 1, 0, [⟨31, 0, .ro, 0, .any⟩]⟩,
  ⟨"SYS_PM_HI", 0x10100044, 1, 0x0, 1, 0, [⟨31, 0, .ro, 0, .any⟩]⟩,
  ⟨"SYS_RMAP_CTRL", 0x10100100, 1, 0x0, 1, 0, [⟨2, 0, .wo, 0, .rng 0 6⟩]⟩,
  ⟨"SYS_RMAP_STAT", 0x10100104, 1, 0x0, 1, 0, [⟨31, 24, .ro, 0xff, .any⟩, ⟨23, 16, .ro, 0, .any⟩, ⟨9, 8, .ro, 0, .any⟩, ⟨7, 7, .ro, 0, .any⟩, ⟨6, 6, .ro, 0, .any⟩, ⟨5, 5, .w1c, 0, .any⟩, ⟨4, 4, .w1c, 0, .any⟩, ⟨3, 3, .w1c, 0, .any⟩, ⟨2, 2, .w1c, 0, .any⟩, ⟨1, 1, .ro, 0, .any⟩, ⟨0, 0, .ro, 0, .any⟩]⟩,
  ⟨"SYS_RMAP_BOOT", 0x10100108, 1, 0x0, 1, 0, [⟨18, 16, .ro, 0, .any⟩, ⟨15, 8, .ro, 0xff, .any⟩, ⟨7, 0, .ro, 0xff, .any⟩]⟩,
  ⟨"SYS_RMAP_VER", 0x1010010c, 1, 0x0, 1, 0, [⟨31, 0, .ro, 0, .any⟩]⟩,
  ⟨"SYS_RMAP_LIVE", 0x10100110, 1, 0x0, 1, 0, [⟨15, 0, .ro, 0, .any⟩]⟩,
  ⟨"SYS_RMAP_STAGE", 0x10100114, 1, 0x0, 1, 0, [⟨11, 8, .ro, 0, .any⟩, ⟨7, 0, .ro, 0, .any⟩]⟩,
  ⟨"SYS_RMAP_APPLY_LO", 0x10100118, 1, 0x0, 1, 0, [⟨31, 0, .ro, 0, .any⟩]⟩,
  ⟨"SYS_RMAP_APPLY_HI", 0x1010011c, 1, 0x0, 1, 0, [⟨31, 0, .ro, 0, .any⟩]⟩,
  ⟨"SYS_RMAP_FUSE", 0x10100120, 1, 0x0, 1, 0, [⟨1, 1, .ro, 0, .any⟩, ⟨0, 0, .ro, 0, .any⟩]⟩,
  ⟨"SYS_RST", 0x10100400, 1, 0x0, 1, 0, [⟨15, 0, .wo, 0, .oneOf [0, 0xC0DE]⟩]⟩,
  ⟨"SYS_RST_STAT", 0x10100404, 1, 0x0, 1, 0, [⟨7, 7, .ro, 0, .any⟩, ⟨4, 4, .w1c, 0, .any⟩, ⟨3, 3, .w1c, 0, .any⟩, ⟨2, 2, .w1c, 0, .any⟩, ⟨1, 1, .w1c, 0, .any⟩, ⟨0, 0, .w1c, 1, .any⟩]⟩,
  ⟨"SYS_STRAP", 0x10100408, 1, 0x0, 1, 0, [⟨9, 9, .ro, 0, .any⟩, ⟨8, 8, .ro, 0, .any⟩, ⟨7, 7, .ro, 0, .any⟩, ⟨5, 4, .ro, 0, .any⟩, ⟨3, 2, .ro, 0, .any⟩, ⟨1, 0, .ro, 0, .any⟩]⟩,
  ⟨"SYS_BOOT_TIME", 0x1010040c, 1, 0x0, 1, 0, [⟨23, 0, .ro, 0, .any⟩]⟩,
  ⟨"SYS_FAULT", 0x10100500, 1, 0x0, 1, 0, [⟨23, 16, .ro, 0, .any⟩, ⟨15, 12, .ro, 0, .any⟩, ⟨4, 4, .w1c, 0, .any⟩, ⟨3, 3, .ro, 0, .any⟩, ⟨2, 2, .w1c, 0, .any⟩, ⟨1, 1, .ro, 0, .any⟩, ⟨0, 0, .ro, 0, .any⟩]⟩,
  ⟨"SYS_FSTORM", 0x10100504, 1, 0x0, 1, 0, [⟨23, 16, .ro, 0, .any⟩, ⟨15, 0, .rw, 0, .any⟩]⟩,
  ⟨"SYS_FHELD", 0x10100510, 4, 0x4, 1, 0, [⟨31, 0, .w1c, 0, .any⟩]⟩,
  ⟨"SYS_FLT_PRI", 0x10103000, 128, 0x10, 1, 0, [⟨31, 31, .w1c, 0, .any⟩, ⟨27, 24, .ro, 0, .any⟩, ⟨23, 16, .ro, 0, .any⟩, ⟨15, 0, .ro, 0, .any⟩]⟩,
  ⟨"SYS_FLT_PRIPM", 0x10103004, 128, 0x10, 1, 0, [⟨31, 0, .ro, 0, .any⟩]⟩,
  ⟨"SYS_FLT_SEC", 0x10103008, 128, 0x10, 1, 0, [⟨31, 31, .w1c, 0, .any⟩, ⟨27, 24, .ro, 0, .any⟩, ⟨23, 16, .ro, 0, .any⟩, ⟨15, 0, .ro, 0, .any⟩]⟩,
  ⟨"SYS_FLT_SECPM", 0x1010300c, 128, 0x10, 1, 0, [⟨31, 0, .ro, 0, .any⟩]⟩,
  ⟨"SYS_PIN_TMEN", 0x10100600, 1, 0x0, 1, 0, [⟨31, 0, .ro, 0, .any⟩]⟩,
  ⟨"SYS_PIN_TMPULL", 0x10100604, 1, 0x0, 1, 0, [⟨31, 0, .ro, 0, .any⟩]⟩,
  ⟨"SYS_PIN_CFG", 0x10100608, 1, 0x0, 1, 0, [⟨7, 0, .ro, 0, .any⟩]⟩,
  ⟨"SYS_HOLD", 0x10100700, 1, 0x0, 1, 0, [⟨16, 16, .ro, 0, .any⟩, ⟨9, 0, .ro, 0, .any⟩]⟩]

/-- The PACE registers (03 R59). -/
def regDefsPACE : List RegDef := [
  ⟨"PACE_NOW", 0x1007c000, 1, 0x0, 1, 0, [⟨15, 0, .ro, 0, .any⟩]⟩,
  ⟨"PACE_FLOOR", 0x1007c004, 1, 0x0, 1, 0, [⟨15, 0, .ro, 0, .any⟩]⟩,
  ⟨"PACE_NEED", 0x1007c008, 1, 0x0, 1, 0, [⟨15, 0, .ro, 0, .any⟩]⟩,
  ⟨"PACE_POLICY", 0x1007c00c, 1, 0x0, 1, 0, [⟨21, 16, .rw, 4, .rng 4 0x3F⟩, ⟨15, 8, .rw, 0x5a, .rng 0 0x5A⟩, ⟨1, 0, .rw, 0, .rng 0 1⟩]⟩,
  ⟨"PACE_VCORE", 0x1007c010, 1, 0x0, 1, 0, [⟨23, 16, .ro, 0, .any⟩, ⟨15, 8, .ro, 0x5a, .any⟩, ⟨7, 0, .ro, 0x5a, .any⟩]⟩,
  ⟨"PACE_STAT", 0x1007c014, 1, 0x0, 1, 0, [⟨4, 4, .ro, 0, .any⟩, ⟨3, 3, .w1c, 0, .any⟩, ⟨2, 2, .w1c, 0, .any⟩, ⟨1, 1, .w1c, 0, .any⟩, ⟨0, 0, .ro, 0, .any⟩]⟩,
  ⟨"PACE_TEMP", 0x1007c018, 1, 0x0, 1, 0, [⟨15, 0, .ro, 0, .any⟩]⟩,
  ⟨"PACE_TEMP_HI", 0x1007c01c, 1, 0x0, 1, 0, [⟨15, 0, .rw, 0x190, .any⟩]⟩,
  ⟨"PACE_FCURVE", 0x1007c020, 5, 0x4, 1, 0, [⟨31, 16, .ro, 0, .any⟩, ⟨15, 0, .ro, 0, .any⟩]⟩]

/-- The LEDG registers (04 R86). -/
def regDefsLEDG : List RegDef := [
  ⟨"LEDG_STAT", 0x1007a000, 1, 0x0, 1, 0, [⟨6, 6, .w1c, 0, .any⟩, ⟨5, 5, .ro, 0, .any⟩, ⟨4, 4, .w1c, 0, .any⟩, ⟨3, 3, .w1c, 0, .any⟩, ⟨2, 2, .w1c, 0, .any⟩, ⟨1, 1, .w1c, 0, .any⟩, ⟨0, 0, .ro, 0, .any⟩]⟩,
  ⟨"LEDG_ECC", 0x1007a004, 1, 0x0, 1, 0, [⟨31, 16, .rw, 0, .any⟩, ⟨15, 0, .rw, 0, .any⟩]⟩,
  ⟨"LEDG_CE_ADDR", 0x1007a008, 1, 0x0, 1, 0, [⟨31, 0, .ro, 0, .any⟩]⟩,
  ⟨"LEDG_UE_ADDR", 0x1007a00c, 1, 0x0, 1, 0, [⟨31, 0, .ro, 0, .any⟩]⟩,
  ⟨"LEDG_WEAR", 0x1007a010, 1, 0x0, 1, 0, [⟨31, 16, .ro, 0, .any⟩, ⟨10, 0, .ro, 0x400, .any⟩]⟩,
  ⟨"LEDG_TXN", 0x1007a014, 1, 0x0, 1, 0, [⟨16, 16, .w1c, 0, .any⟩, ⟨15, 15, .w1c, 0, .any⟩, ⟨14, 14, .w1c, 0, .any⟩, ⟨9, 8, .ro, 0, .any⟩, ⟨7, 4, .ro, 0, .any⟩, ⟨1, 0, .wo, 0, .any⟩]⟩,
  ⟨"LEDG_JRNL", 0x1007a018, 1, 0x0, 1, 0, [⟨31, 16, .ro, 0, .any⟩, ⟨4, 0, .ro, 0, .any⟩]⟩]

/-- The PIGN registers (04 R86). -/
def regDefsPIGN : List RegDef := [
  ⟨"PIGN_STAT", 0x1007b000, 1, 0x0, 1, 0, [⟨2, 2, .w1c, 0, .any⟩, ⟨1, 1, .w1c, 0, .any⟩, ⟨0, 0, .ro, 0, .any⟩]⟩,
  ⟨"PIGN_ECC", 0x1007b004, 1, 0x0, 1, 0, [⟨31, 16, .rw, 0, .any⟩, ⟨15, 0, .rw, 0, .any⟩]⟩,
  ⟨"PIGN_UE_ADDR", 0x1007b008, 1, 0x0, 1, 0, [⟨31, 0, .ro, 0, .any⟩]⟩,
  ⟨"PIGN_SCRUB", 0x1007b00c, 1, 0x0, 1, 0, [⟨7, 0, .rw, 1, .any⟩]⟩]

/-- The ARB registers (04 R87). -/
def regDefsARB : List RegDef := [
  ⟨"ARB_CFG", 0x10102000, 128, 0x8, 1, 0, [⟨14, 8, .rw, 1, .rng 1 64⟩, ⟨2, 0, .rw, 1, .rng 1 7⟩]⟩,
  ⟨"ARB_MASK", 0x10102004, 128, 0x8, 1, 0, [⟨23, 0, .rw, 0, .any⟩]⟩,
  ⟨"ARB_BANK_STAT", 0x10102400, 24, 0x4, 1, 0, [⟨31, 31, .ro, 1, .any⟩, ⟨30, 24, .ro, 0, .any⟩, ⟨23, 16, .ro, 0, .any⟩, ⟨15, 0, .ro, 0, .any⟩]⟩]

/-- The FL registers (05 R115, 06 R142). -/
def regDefsFL : List RegDef := [
  ⟨"FL_CTRL", 0x10041000, 32, 0x1000, 1, 0, [⟨6, 4, .rwl, 3, .rng 0 5⟩, ⟨1, 1, .ro, 0, .any⟩, ⟨0, 0, .rw, 0, .any⟩]⟩,
  ⟨"FL_CPL", 0x10041004, 32, 0x1000, 1, 0, [⟨27, 24, .rwl, 4, .any⟩, ⟨21, 16, .rwl, 0x10, .any⟩, ⟨13, 8, .rwl, 0xa, .rng 1 63⟩, ⟨5, 0, .rwl, 0xa, .rng 1 63⟩]⟩,
  ⟨"FL_FLTCFG", 0x10041008, 32, 0x1000, 1, 0, [⟨7, 0, .rw, 0x32, .rng 1 255⟩]⟩,
  ⟨"FL_STAT", 0x1004100c, 32, 0x1000, 1, 0, [⟨5, 5, .w1c, 0, .any⟩, ⟨4, 4, .w1c, 0, .any⟩, ⟨3, 3, .ro, 0, .any⟩, ⟨2, 2, .ro, 1, .any⟩, ⟨1, 1, .ro, 0, .any⟩, ⟨0, 0, .ro, 0, .any⟩]⟩,
  ⟨"FL_FRESH", 0x10041010, 32, 0x1000, 1, 0, [⟨31, 0, .ro, 0, .any⟩]⟩,
  ⟨"FL_CNT_GOOD", 0x10041014, 32, 0x1000, 1, 0, [⟨31, 0, .rw, 0, .any⟩]⟩,
  ⟨"FL_CNT_ERR", 0x10041018, 32, 0x1000, 1, 0, [⟨31, 16, .rw, 0, .any⟩, ⟨15, 0, .rw, 0, .any⟩]⟩,
  ⟨"FL_CNT_CLS", 0x1004101c, 32, 0x1000, 1, 0, [⟨31, 16, .rw, 0, .any⟩, ⟨15, 0, .rw, 0, .any⟩]⟩,
  ⟨"FL_CNT_LINE", 0x10041020, 32, 0x1000, 1, 0, [⟨31, 16, .rw, 0, .any⟩, ⟨15, 0, .rw, 0, .any⟩]⟩,
  ⟨"FL_RCNT", 0x10041040, 32, 0x1000, 1, 0, [⟨31, 16, .rw, 0, .any⟩, ⟨15, 0, .rw, 0, .any⟩]⟩,
  ⟨"FL_LBCFG", 0x10041044, 32, 0x1000, 1, 0, [⟨23, 16, .rw, 4, .rng 1 64⟩, ⟨9, 0, .rw, 0x40, .rng 1 1023⟩]⟩,
  ⟨"FL_LBSTAT", 0x10041048, 32, 0x1000, 1, 0, [⟨31, 31, .ro, 0, .any⟩, ⟨30, 30, .w1c, 0, .any⟩, ⟨29, 20, .ro, 0x3b, .any⟩, ⟨19, 10, .ro, 0, .any⟩, ⟨5, 0, .ro, 0, .any⟩]⟩,
  ⟨"FL_ENR", 0x1004104c, 32, 0x1000, 1, 0, [⟨31, 31, .rw, 0, .any⟩, ⟨29, 16, .rw, 0, .any⟩, ⟨13, 0, .rw, 0x3fff, .any⟩]⟩,
  ⟨"FL_ENRLIM", 0x10041050, 32, 0x1000, 1, 0, [⟨9, 0, .rw, 0x40, .rng 1 1023⟩]⟩,
  ⟨"FL_NDIR", 0x10041054, 32, 0x1000, 1, 0, [⟨31, 31, .rwl, 0, .any⟩, ⟨6, 0, .rwl, 0, .rng 0 107⟩]⟩,
  ⟨"FL_STRCFG", 0x10041058, 32, 0x1000, 1, 0, [⟨31, 30, .rw, 0, .rng 0 2⟩, ⟨27, 24, .rw, 3, .rng 1 15⟩, ⟨23, 20, .rw, 3, .rng 1 15⟩, ⟨19, 16, .rw, 3, .rng 1 15⟩, ⟨15, 12, .rw, 4, .rng 1 15⟩, ⟨7, 0, .rw, 0x20, .any⟩]⟩,
  ⟨"FL_STRTIME", 0x1004105c, 32, 0x1000, 1, 0, [⟨31, 16, .rw, 0x3c, .any⟩, ⟨7, 0, .rw, 0x32, .rng 1 255⟩]⟩,
  ⟨"FL_STR_PEND", 0x10041060, 32, 0x1000, 1, 0, [⟨4, 0, .w1c, 0, .any⟩]⟩,
  ⟨"FL_STR_LAST", 0x10041064, 32, 0x1000, 1, 0, [⟨27, 24, .ro, 0, .any⟩, ⟨21, 8, .ro, 0, .any⟩, ⟨7, 0, .ro, 0, .any⟩]⟩,
  ⟨"FL_CNT_STR", 0x10041068, 32, 0x1000, 1, 0, [⟨31, 16, .rw, 0, .any⟩, ⟨15, 0, .rw, 0, .any⟩]⟩,
  ⟨"FL_CNT_DROP", 0x1004106c, 32, 0x1000, 1, 0, [⟨31, 16, .rw, 0, .any⟩, ⟨15, 0, .rw, 0, .any⟩]⟩,
  ⟨"FL_CNT_HOLD", 0x10041070, 32, 0x1000, 1, 0, [⟨31, 16, .rw, 0, .any⟩, ⟨15, 0, .rw, 0, .any⟩]⟩,
  ⟨"FL_FENCECFG", 0x10041074, 32, 0x1000, 1, 0, [⟨23, 16, .rw, 0xa, .rng 1 255⟩, ⟨15, 8, .rw, 5, .rng 1 255⟩, ⟨1, 1, .rw, 0, .any⟩, ⟨0, 0, .rw, 0, .any⟩]⟩,
  ⟨"FL_RSTAT", 0x10041078, 32, 0x1000, 1, 0, [⟨7, 7, .w1c, 0, .any⟩, ⟨6, 6, .w1c, 0, .any⟩, ⟨5, 5, .w1c, 0, .any⟩, ⟨4, 4, .w1c, 0, .any⟩, ⟨3, 3, .w1c, 0, .any⟩, ⟨2, 2, .ro, 0, .any⟩, ⟨1, 1, .ro, 0, .any⟩, ⟨0, 0, .ro, 0, .any⟩]⟩,
  ⟨"FL_RCTRL", 0x1004107c, 32, 0x1000, 1, 0, [⟨0, 0, .wo, 0, .any⟩]⟩,
  ⟨"FL_MBOX", 0x10041080, 32, 0x1000, 1, 0, [⟨31, 30, .ro, 0, .any⟩, ⟨27, 24, .rw, 0, .oneOf [5, 0xA, 0xB, 0xC]⟩, ⟨21, 8, .rw, 0, .any⟩, ⟨7, 0, .rw, 0, .rng 0 0xEF⟩]⟩,
  ⟨"FL_MBOXD", 0x10041084, 32, 0x1000, 1, 0, [⟨15, 0, .rw, 0, .any⟩]⟩,
  ⟨"FL_FENCE", 0x100410a0, 32, 0x1000, 8, 4, [⟨31, 31, .rw, 0, .any⟩, ⟨30, 29, .ro, 0, .any⟩, ⟨27, 14, .rw, 0, .any⟩, ⟨13, 0, .rw, 0, .any⟩]⟩]

/-- The TT registers (07 R158). -/
def regDefsTT : List RegDef := [
  ⟨"TT_CTRL", 0x10079000, 1, 0x0, 1, 0, [⟨16, 16, .rw, 0, .any⟩, ⟨11, 8, .rw, 4, .rng 0 8⟩]⟩,
  ⟨"TT_CMD", 0x10079004, 1, 0x0, 1, 0, [⟨1, 0, .wo, 0, .rng 0 2⟩]⟩,
  ⟨"TT_STAT", 0x10079008, 1, 0x0, 1, 0, [⟨7, 7, .ro, 0, .any⟩, ⟨6, 6, .ro, 0, .any⟩, ⟨5, 5, .ro, 0, .any⟩, ⟨4, 4, .ro, 0, .any⟩, ⟨3, 3, .ro, 1, .any⟩, ⟨2, 2, .w1c, 0, .any⟩, ⟨1, 1, .w1c, 0, .any⟩, ⟨0, 0, .w1c, 0, .any⟩]⟩,
  ⟨"TT_SWAPPEND", 0x1007900c, 1, 0x0, 1, 0, [⟨31, 0, .ro, 0, .any⟩]⟩,
  ⟨"TT_GATE", 0x10079010, 1, 0x0, 1, 0, [⟨15, 0, .rw, 0x3f, .rng 0x3F 0xFFFF⟩]⟩,
  ⟨"TT_SWEEP", 0x10079014, 1, 0x0, 1, 0, [⟨28, 24, .ro, 0, .any⟩, ⟨23, 0, .ro, 0, .any⟩]⟩,
  ⟨"TT_WADDR", 0x10079018, 1, 0x0, 1, 0, [⟨12, 0, .rw, 0, .rng 0 0x17FF⟩]⟩,
  ⟨"TT_WDATA_LO", 0x1007901c, 1, 0x0, 1, 0, [⟨31, 0, .rw, 0, .any⟩]⟩,
  ⟨"TT_WDATA_HI", 0x10079020, 1, 0x0, 1, 0, [⟨31, 0, .wo, 0, .any⟩]⟩,
  ⟨"TT_RADDR", 0x10079024, 1, 0x0, 1, 0, [⟨31, 31, .rw, 0, .any⟩, ⟨12, 0, .rw, 0, .rng 0 0x17FF⟩]⟩,
  ⟨"TT_RDATA_LO", 0x10079028, 1, 0x0, 1, 0, [⟨31, 0, .ro, 0, .any⟩]⟩,
  ⟨"TT_RDATA_HI", 0x1007902c, 1, 0x0, 1, 0, [⟨31, 0, .ro, 0, .any⟩]⟩,
  ⟨"TT_EDIT_IDX", 0x10079030, 1, 0x0, 1, 0, [⟨12, 0, .rw, 0, .rng 0 0x17FF⟩]⟩,
  ⟨"TT_EDIT_LO", 0x10079034, 1, 0x0, 1, 0, [⟨31, 0, .rw, 0, .any⟩]⟩,
  ⟨"TT_EDIT_HI", 0x10079038, 1, 0x0, 1, 0, [⟨31, 0, .wo, 0, .any⟩]⟩]

/-- The TTP registers (07 R158). -/
def regDefsTTP : List RegDef := [
  ⟨"TTP_POS", 0x10079100, 32, 0x20, 1, 0, [⟨31, 31, .ro, 0, .any⟩, ⟨30, 30, .ro, 0, .any⟩, ⟨29, 29, .ro, 0, .any⟩, ⟨12, 0, .ro, 0x1fff, .any⟩]⟩,
  ⟨"TTP_PASS", 0x10079104, 32, 0x20, 1, 0, [⟨31, 0, .ro, 0, .any⟩]⟩,
  ⟨"TTP_LAST", 0x10079108, 32, 0x20, 1, 0, [⟨23, 0, .ro, 0, .any⟩]⟩,
  ⟨"TTP_BUSY", 0x1007910c, 32, 0x20, 1, 0, [⟨23, 0, .ro, 0, .any⟩]⟩,
  ⟨"TTP_MAX", 0x10079110, 32, 0x20, 1, 0, [⟨23, 0, .rw, 0, .any⟩]⟩,
  ⟨"TTP_HOLD", 0x10079114, 32, 0x20, 1, 0, [⟨31, 0, .ro, 0, .any⟩]⟩,
  ⟨"TTP_YIELD", 0x10079118, 32, 0x20, 1, 0, [⟨31, 0, .ro, 0, .any⟩]⟩,
  ⟨"TTP_CNT", 0x1007911c, 32, 0x20, 1, 0, [⟨31, 16, .rw, 0, .any⟩, ⟨15, 0, .rw, 0, .any⟩]⟩]

/-- The TREND registers (08 R180). -/
def regDefsTREND : List RegDef := [
  ⟨"TREND_CTRL", 0x10078000, 1, 0x0, 1, 0, [⟨0, 0, .rw, 1, .any⟩]⟩,
  ⟨"TREND_STAT", 0x10078004, 1, 0x0, 1, 0, [⟨3, 3, .w1c, 0, .any⟩, ⟨2, 2, .w1c, 0, .any⟩, ⟨1, 1, .w1c, 0, .any⟩, ⟨0, 0, .ro, 0, .any⟩]⟩,
  ⟨"TREND_BINERR", 0x10078008, 1, 0x0, 1, 0, [⟨15, 12, .ro, 0, .any⟩, ⟨11, 0, .ro, 0, .any⟩]⟩,
  ⟨"TREND_CURVEERR", 0x1007800c, 1, 0x0, 1, 0, [⟨7, 0, .ro, 0, .any⟩]⟩,
  ⟨"TREND_NBIN", 0x10078010, 1, 0x0, 1, 0, [⟨12, 0, .ro, 0, .any⟩]⟩,
  ⟨"TREND_CNT_RD", 0x10078014, 1, 0x0, 1, 0, [⟨31, 0, .rw, 0, .any⟩]⟩,
  ⟨"TREND_CNT_EV", 0x10078018, 1, 0x0, 1, 0, [⟨31, 16, .rw, 0, .any⟩, ⟨15, 0, .rw, 0, .any⟩]⟩,
  ⟨"TREND_CNT_LOSS", 0x1007801c, 1, 0x0, 1, 0, [⟨31, 16, .rw, 0, .any⟩, ⟨15, 0, .rw, 0, .any⟩]⟩,
  ⟨"TREND_CNT_ERR", 0x10078020, 1, 0x0, 1, 0, [⟨31, 16, .rw, 0, .any⟩, ⟨15, 0, .rw, 0, .any⟩]⟩,
  ⟨"TREND_CNT_WB", 0x10078024, 1, 0x0, 1, 0, [⟨31, 16, .rw, 0, .any⟩, ⟨15, 0, .rw, 0, .any⟩]⟩]

/-- The FC registers (09 R200). -/
def regDefsFC : List RegDef := [
  ⟨"FC_CTRL", 0x10061000, 16, 0x1000, 1, 0, [⟨8, 8, .rwl, 0, .any⟩, ⟨0, 0, .rw, 0, .any⟩]⟩,
  ⟨"FC_STAT", 0x10061004, 16, 0x1000, 1, 0, [⟨15, 12, .ro, 0, .any⟩, ⟨9, 9, .w1c, 0, .any⟩, ⟨8, 8, .w1c, 0, .any⟩, ⟨7, 7, .w1c, 0, .any⟩, ⟨6, 6, .w1c, 0, .any⟩, ⟨5, 5, .w1c, 0, .any⟩, ⟨4, 4, .w1c, 0, .any⟩, ⟨3, 3, .ro, 0, .any⟩, ⟨2, 2, .ro, 0, .any⟩, ⟨1, 1, .ro, 0, .any⟩, ⟨0, 0, .ro, 0, .any⟩]⟩,
  ⟨"FC_SRC", 0x10061008, 16, 0x1000, 1, 0, [⟨15, 8, .rw, 0, .any⟩, ⟨3, 0, .rw, 0, .any⟩]⟩,
  ⟨"FC_MOD", 0x1006100c, 16, 0x1000, 1, 0, [⟨15, 8, .rw, 8, .any⟩, ⟨3, 3, .rw, 0, .any⟩, ⟨2, 1, .rw, 0, .any⟩, ⟨0, 0, .rw, 0, .any⟩]⟩,
  ⟨"FC_CFG", 0x10061010, 16, 0x1000, 1, 0, [⟨29, 29, .rwl, 0, .any⟩, ⟨28, 28, .rwl, 1, .any⟩, ⟨26, 20, .rwl, 0, .any⟩, ⟨19, 16, .rwl, 1, .any⟩, ⟨15, 8, .rwl, 0xff, .rng 3 255⟩, ⟨2, 0, .rwl, 3, .rng 3 5⟩]⟩,
  ⟨"FC_RATE", 0x10061014, 16, 0x1000, 1, 0, [⟨31, 0, .rwl, 0x80000, .rng 0x147B 0xFA000000⟩]⟩,
  ⟨"FC_SETTLE", 0x10061018, 16, 0x1000, 1, 0, [⟨31, 16, .ro, 0, .any⟩, ⟨15, 0, .ro, 1, .any⟩]⟩,
  ⟨"FC_GDELAY", 0x1006101c, 16, 0x1000, 1, 0, [⟨31, 0, .ro, 0xbf4, .any⟩]⟩,
  ⟨"FC_CADDR", 0x10061020, 16, 0x1000, 1, 0, [⟨11, 11, .rw, 0, .any⟩, ⟨10, 0, .rw, 0, .any⟩]⟩,
  ⟨"FC_CDATA", 0x10061024, 16, 0x1000, 1, 0, [⟨23, 0, .rw, 0, .any⟩]⟩,
  ⟨"FC_CCRC", 0x10061028, 16, 0x1000, 1, 0, [⟨31, 0, .ro, 0, .any⟩]⟩,
  ⟨"FC_LASTV", 0x1006102c, 16, 0x1000, 1, 0, [⟨31, 24, .ro, 0, .any⟩, ⟨23, 0, .ro, 0, .any⟩]⟩,
  ⟨"FC_LASTPM_LO", 0x10061030, 16, 0x1000, 1, 0, [⟨31, 0, .ro, 0, .any⟩]⟩,
  ⟨"FC_LASTPM_HI", 0x10061034, 16, 0x1000, 1, 0, [⟨31, 0, .ro, 0, .any⟩]⟩,
  ⟨"FC_CNT", 0x10061038, 16, 0x1000, 1, 0, [⟨31, 16, .rw, 0, .any⟩, ⟨15, 0, .rw, 0, .any⟩]⟩,
  ⟨"FC_SEQ", 0x1006103c, 16, 0x1000, 1, 0, [⟨31, 0, .ro, 0, .any⟩]⟩]

/-- The GATE registers (10 R226). -/
def regDefsGATE : List RegDef := [
  ⟨"GATE_STAT", 0x10077000, 1, 0x0, 1, 0, [⟨6, 6, .w1c, 0, .any⟩, ⟨5, 5, .w1c, 0, .any⟩, ⟨4, 4, .w1c, 0, .any⟩, ⟨3, 3, .w1c, 0, .any⟩, ⟨2, 2, .w1c, 0, .any⟩, ⟨1, 1, .ro, 0, .any⟩, ⟨0, 0, .ro, 0, .any⟩]⟩,
  ⟨"GATE_HOPS", 0x10077004, 1, 0x0, 1, 0, [⟨16, 16, .ro, 0, .any⟩, ⟨5, 0, .ro, 0, .any⟩]⟩,
  ⟨"GATE_OPEN", 0x10077008, 1, 0x0, 1, 0, [⟨27, 16, .rw, 0xf00, .rng 1 0xF00⟩, ⟨11, 0, .ro, 0, .any⟩]⟩,
  ⟨"GATE_SERIAL", 0x1007700c, 1, 0x0, 1, 0, [⟨31, 0, .ro, 1, .any⟩]⟩,
  ⟨"GATE_QUOTA", 0x10077010, 3, 0x8, 1, 0, [⟨31, 16, .rw, 0, .any⟩, ⟨15, 0, .rw, 0, .any⟩]⟩,
  ⟨"GATE_SHARE", 0x10077014, 3, 0x8, 1, 0, [⟨15, 0, .rw, 0, .any⟩]⟩,
  ⟨"GATE_USE", 0x10077028, 3, 0x4, 1, 0, [⟨31, 16, .ro, 0, .any⟩, ⟨15, 0, .ro, 0, .any⟩]⟩,
  ⟨"GATE_RET", 0x10077034, 1, 0x0, 1, 0, [⟨23, 16, .ro, 0, .any⟩, ⟨15, 8, .ro, 0, .any⟩, ⟨7, 0, .ro, 0, .any⟩]⟩,
  ⟨"GATE_CHK", 0x10077038, 1, 0x0, 1, 0, [⟨11, 8, .ro, 0, .any⟩, ⟨7, 0, .ro, 0, .any⟩]⟩,
  ⟨"GATE_CHK_ADDR", 0x1007703c, 1, 0x0, 1, 0, [⟨31, 0, .ro, 0, .any⟩]⟩,
  ⟨"GATE_CNT_FRANK", 0x10077040, 1, 0x0, 1, 0, [⟨31, 0, .rw, 0, .any⟩]⟩,
  ⟨"GATE_CNT_RET", 0x10077044, 1, 0x0, 1, 0, [⟨31, 16, .rw, 0, .any⟩, ⟨15, 0, .rw, 0, .any⟩]⟩,
  ⟨"GATE_CNT_DUP", 0x10077048, 1, 0x0, 1, 0, [⟨31, 16, .rw, 0, .any⟩, ⟨15, 0, .rw, 0, .any⟩]⟩,
  ⟨"GATE_OBX_CTRL", 0x10077050, 1, 0x0, 1, 0, [⟨0, 0, .rw, 1, .any⟩]⟩,
  ⟨"GATE_OBX_BASE", 0x10077054, 1, 0x0, 1, 0, [⟨31, 0, .ro, 0, .any⟩]⟩,
  ⟨"GATE_OBX_LEN", 0x10077058, 1, 0x0, 1, 0, [⟨19, 0, .ro, 0, .any⟩]⟩,
  ⟨"GATE_OBX_RD", 0x1007705c, 1, 0x0, 1, 0, [⟨19, 0, .ro, 0, .any⟩]⟩,
  ⟨"GATE_OBX_WR", 0x10077060, 1, 0x0, 1, 0, [⟨19, 0, .ro, 0, .any⟩]⟩,
  ⟨"GATE_OBX_POP", 0x10077064, 1, 0x0, 1, 0, [⟨19, 0, .wo, 0, .any⟩]⟩,
  ⟨"GATE_FRB", 0x10077100, 32, 0x4, 1, 0, [⟨31, 31, .rw, 0, .any⟩, ⟨15, 0, .rw, 0, .any⟩]⟩]

/-- The SRT registers (11 R254). -/
def regDefsSRT : List RegDef := [
  ⟨"SRT_CTRL", 0x10000000, 65, 0x1000, 1, 0, [⟨2, 2, .rw, 1, .any⟩, ⟨1, 1, .wo, 0, .any⟩, ⟨0, 0, .rw, 0, .any⟩]⟩,
  ⟨"SRT_STAT", 0x10000004, 65, 0x1000, 1, 0, [⟨11, 9, .ro, 0, .any⟩, ⟨8, 7, .ro, 0, .any⟩, ⟨6, 6, .ro, 0, .any⟩, ⟨5, 5, .ro, 0, .any⟩, ⟨4, 4, .w1c, 0, .any⟩, ⟨3, 3, .w1c, 0, .any⟩, ⟨2, 2, .w1c, 0, .any⟩, ⟨1, 1, .w1c, 0, .any⟩]⟩,
  ⟨"SRT_PC", 0x10000008, 65, 0x1000, 1, 0, [⟨15, 0, .ro, 0, .any⟩]⟩,
  ⟨"SRT_TRAP", 0x1000000c, 65, 0x1000, 1, 0, [⟨31, 28, .ro, 0, .any⟩, ⟨27, 24, .ro, 0, .any⟩, ⟨15, 0, .ro, 0, .any⟩]⟩,
  ⟨"SRT_TRAP2", 0x10000010, 65, 0x1000, 1, 0, [⟨15, 0, .ro, 0, .any⟩]⟩,
  ⟨"SRT_BUDGET", 0x10000014, 65, 0x1000, 1, 0, [⟨23, 0, .ro, 0, .any⟩]⟩,
  ⟨"SRT_STEPS", 0x10000018, 65, 0x1000, 1, 0, [⟨23, 0, .rw, 0, .any⟩]⟩,
  ⟨"SRT_EVQ", 0x1000001c, 65, 0x1000, 1, 0, [⟨12, 8, .ro, 0, .any⟩, ⟨4, 0, .ro, 0, .any⟩]⟩,
  ⟨"SRT_WIN", 0x10000020, 65, 0x1000, 1, 0, [⟨31, 14, .ro, 0, .any⟩]⟩,
  ⟨"SRT_MADDR", 0x10000024, 65, 0x1000, 1, 0, [⟨15, 0, .rw, 0, .outside 0x8000 0xFEFF⟩]⟩,
  ⟨"SRT_MDATA", 0x10000028, 65, 0x1000, 1, 0, [⟨7, 0, .rw, 0, .any⟩]⟩,
  ⟨"SRT_CNT", 0x1000002c, 65, 0x1000, 1, 0, [⟨31, 16, .rw, 0, .any⟩, ⟨15, 0, .rw, 0, .any⟩]⟩]

/-- The CAS registers (13 R302). -/
def regDefsCAS : List RegDef := [
  ⟨"CAS_L_CTRL", 0x10071000, 4, 0x1000, 1, 0, [⟨0, 0, .rw, 0, .any⟩]⟩,
  ⟨"CAS_L_STAT", 0x10071004, 4, 0x1000, 1, 0, [⟨7, 7, .w1c, 0, .any⟩, ⟨6, 6, .w1c, 0, .any⟩, ⟨5, 5, .ro, 0, .any⟩, ⟨2, 0, .ro, 0, .any⟩]⟩,
  ⟨"CAS_L_PEER", 0x10071008, 4, 0x1000, 1, 0, [⟨16, 16, .ro, 0, .any⟩, ⟨15, 0, .ro, 0, .any⟩]⟩,
  ⟨"CAS_L_ERR", 0x1007100c, 4, 0x1000, 1, 0, [⟨31, 16, .rw, 0, .any⟩, ⟨15, 0, .rw, 0, .any⟩]⟩,
  ⟨"CAS_L_CNT", 0x10071010, 4, 0x1000, 1, 0, [⟨31, 16, .rw, 0, .any⟩, ⟨15, 0, .rw, 0, .any⟩]⟩,
  ⟨"CAS_STAT", 0x10071800, 1, 0x0, 1, 0, [⟨23, 16, .ro, 0xff, .any⟩, ⟨11, 11, .w1c, 0, .any⟩, ⟨10, 10, .w1c, 0, .any⟩, ⟨9, 9, .w1c, 0, .any⟩, ⟨8, 8, .ro, 0, .any⟩, ⟨7, 6, .ro, 0, .any⟩, ⟨5, 5, .ro, 0, .any⟩, ⟨4, 3, .ro, 0, .any⟩]⟩,
  ⟨"CAS_ID", 0x10071804, 1, 0x0, 1, 0, [⟨16, 16, .ro, 0, .any⟩, ⟨15, 0, .ro, 0, .any⟩]⟩,
  ⟨"CAS_CMD", 0x10071810, 1, 0x0, 1, 0, [⟨1, 0, .wo, 0, .rng 0 2⟩]⟩,
  ⟨"CAS_CFG", 0x10071814, 1, 0x0, 1, 0, [⟨31, 16, .ro, 0, .any⟩, ⟨15, 8, .ro, 0, .any⟩, ⟨3, 0, .ro, 0, .any⟩]⟩,
  ⟨"CAS_IDTAB", 0x10071818, 1, 0x0, 1, 0, [⟨15, 0, .ro, 0xffff, .any⟩]⟩,
  ⟨"CAS_TIME", 0x1007181c, 1, 0x0, 1, 0, [⟨31, 16, .ro, 0, .any⟩, ⟨15, 0, .ro, 0, .any⟩]⟩,
  ⟨"CAS_TRIM", 0x10071820, 1, 0x0, 1, 0, [⟨15, 0, .ro, 0, .any⟩]⟩,
  ⟨"CAS_DEVS", 0x10071860, 1, 0x0, 1, 0, [⟨16, 0, .ro, 0, .any⟩]⟩,
  ⟨"CAS_ENR", 0x10071864, 1, 0x0, 1, 0, [⟨31, 16, .rw, 0, .any⟩, ⟨15, 0, .rw, 0, .any⟩]⟩,
  ⟨"CAS_UID_LO", 0x10071808, 1, 0x0, 1, 0, [⟨31, 0, .ro, 0, .any⟩]⟩,
  ⟨"CAS_UID_HI", 0x1007180c, 1, 0x0, 1, 0, [⟨31, 0, .ro, 0, .any⟩]⟩,
  ⟨"CAS_UPLIM", 0x10071824, 3, 0x4, 1, 0, [⟨31, 16, .ro, 0, .any⟩, ⟨15, 0, .ro, 0, .any⟩]⟩,
  ⟨"CAS_SUB", 0x10071830, 3, 0xc, 3, 4, [⟨31, 16, .ro, 0, .any⟩, ⟨15, 0, .ro, 0, .any⟩]⟩,
  ⟨"CAS_RA_DST", 0x10071880, 1, 0x0, 1, 0, [⟨15, 0, .rw, 0, .any⟩]⟩,
  ⟨"CAS_RA_ADDR", 0x10071884, 1, 0x0, 1, 0, [⟨31, 2, .rw, 0, .any⟩]⟩,
  ⟨"CAS_RA_CMD", 0x10071888, 1, 0x0, 1, 0, [⟨7, 5, .wo, 0, .rng 0 5⟩, ⟨1, 0, .wo, 0, .rng 0 2⟩]⟩,
  ⟨"CAS_RA_STAT", 0x1007188c, 1, 0x0, 1, 0, [⟨7, 4, .ro, 0, .any⟩, ⟨2, 2, .w1c, 0, .any⟩, ⟨1, 1, .w1c, 0, .any⟩, ⟨0, 0, .ro, 0, .any⟩]⟩,
  ⟨"CAS_RA_DATA", 0x10071890, 6, 0x4, 1, 0, [⟨31, 0, .rw, 0, .any⟩]⟩]

/-- The HOST registers (14 R323). -/
def regDefsHOST : List RegDef := [
  ⟨"HOST_STAT", 0x10075000, 1, 0x0, 1, 0, [⟨7, 7, .ro, 0, .any⟩, ⟨6, 6, .ro, 0, .any⟩, ⟨5, 5, .w1c, 0, .any⟩, ⟨4, 4, .w1c, 0, .any⟩, ⟨3, 3, .w1c, 0, .any⟩, ⟨2, 2, .w1c, 0, .any⟩, ⟨1, 1, .w1c, 0, .any⟩]⟩,
  ⟨"HOST_ERRADDR", 0x10075004, 1, 0x0, 1, 0, [⟨31, 0, .ro, 0, .any⟩]⟩,
  ⟨"HOST_CNT", 0x10075008, 1, 0x0, 1, 0, [⟨31, 16, .rw, 0, .any⟩, ⟨15, 0, .rw, 0, .any⟩]⟩]

/-- The TWP registers (14 R323). -/
def regDefsTWP : List RegDef := [
  ⟨"TWP_CFG", 0x10076000, 1, 0x0, 1, 0, [⟨23, 16, .rw, 0x20, .rng 1 32⟩, ⟨13, 8, .rw, 5, .rng 1 63⟩, ⟨5, 4, .rw, 1, .rng 1 3⟩, ⟨1, 1, .rw, 1, .any⟩, ⟨0, 0, .rw, 0, .any⟩]⟩,
  ⟨"TWP_STAT", 0x10076004, 1, 0x0, 1, 0, [⟨14, 8, .ro, 0, .any⟩, ⟨6, 6, .w1c, 0, .any⟩, ⟨5, 5, .w1c, 0, .any⟩, ⟨4, 4, .w1c, 0, .any⟩, ⟨3, 3, .w1c, 0, .any⟩, ⟨2, 2, .w1c, 0, .any⟩, ⟨1, 1, .w1c, 0, .any⟩, ⟨0, 0, .ro, 0, .any⟩]⟩,
  ⟨"TWP_ALERT", 0x10076008, 1, 0x0, 1, 0, [⟨11, 11, .ro, 0, .any⟩, ⟨10, 10, .ro, 0, .any⟩, ⟨9, 9, .ro, 0, .any⟩, ⟨8, 8, .rw, 0, .any⟩, ⟨5, 0, .rw, 0, .any⟩]⟩,
  ⟨"TWP_PAGE", 0x1007600c, 1, 0x0, 1, 0, [⟨7, 0, .rw, 0, .rng 0 2⟩]⟩,
  ⟨"TWP_WBASE", 0x10076010, 1, 0x0, 1, 0, [⟨31, 2, .rw, 0, .any⟩]⟩,
  ⟨"TWP_CNT", 0x10076014, 1, 0x0, 1, 0, [⟨31, 16, .rw, 0, .any⟩, ⟨15, 0, .rw, 0, .any⟩]⟩]

/-- The TMR registers (15 R337). -/
def regDefsTMR : List RegDef := [
  ⟨"TMR_CTRL", 0x1007d000, 16, 0x40, 1, 0, [⟨13, 8, .rw, 0, .any⟩, ⟨7, 4, .rwl, 0, .any⟩, ⟨1, 1, .rw, 1, .any⟩, ⟨0, 0, .rw, 0, .any⟩]⟩,
  ⟨"TMR_STAT", 0x1007d004, 16, 0x40, 1, 0, [⟨14, 14, .w1c, 0, .any⟩, ⟨13, 13, .ro, 0, .any⟩, ⟨12, 12, .ro, 0, .any⟩, ⟨11, 11, .ro, 0, .any⟩, ⟨10, 10, .ro, 0, .any⟩, ⟨9, 9, .ro, 0, .any⟩, ⟨8, 8, .ro, 0, .any⟩, ⟨7, 7, .ro, 0, .any⟩, ⟨6, 6, .ro, 0, .any⟩, ⟨5, 5, .w1c, 0, .any⟩, ⟨4, 4, .w1c, 0, .any⟩, ⟨3, 3, .ro, 0, .any⟩, ⟨2, 2, .ro, 0, .any⟩, ⟨1, 1, .w1c, 0, .any⟩, ⟨0, 0, .w1c, 0, .any⟩]⟩,
  ⟨"TMR_COUNT", 0x1007d008, 16, 0x40, 1, 0, [⟨31, 0, .rwl, 0, .any⟩]⟩,
  ⟨"TMR_TOP", 0x1007d00c, 16, 0x40, 1, 0, [⟨31, 0, .rw, 0xffffffff, .any⟩]⟩,
  ⟨"TMR_CMPA", 0x1007d010, 16, 0x40, 1, 0, [⟨31, 0, .rw, 0xffffffff, .any⟩]⟩,
  ⟨"TMR_CMPB", 0x1007d014, 16, 0x40, 1, 0, [⟨31, 0, .rw, 0xffffffff, .any⟩]⟩,
  ⟨"TMR_CAPA", 0x1007d018, 16, 0x40, 1, 0, [⟨31, 0, .ro, 0, .any⟩]⟩,
  ⟨"TMR_CAPB", 0x1007d01c, 16, 0x40, 1, 0, [⟨31, 0, .ro, 0, .any⟩]⟩,
  ⟨"TMR_CHCFG", 0x1007d020, 16, 0x40, 1, 0, [⟨23, 20, .rw, 0, .any⟩, ⟨19, 16, .rw, 0, .any⟩, ⟨13, 12, .rw, 0, .any⟩, ⟨11, 10, .rw, 0, .any⟩, ⟨9, 8, .rwl, 0, .rng 0 2⟩, ⟨5, 4, .rw, 0, .any⟩, ⟨3, 2, .rw, 0, .any⟩, ⟨1, 0, .rwl, 0, .rng 0 2⟩]⟩,
  ⟨"TMR_CMD", 0x1007d024, 16, 0x40, 1, 0, [⟨7, 6, .wo, 0, .rng 0 2⟩, ⟨5, 4, .wo, 0, .rng 0 2⟩, ⟨1, 1, .wo, 0, .any⟩, ⟨0, 0, .wo, 0, .any⟩]⟩]

/-- The PWR registers (16 R352). -/
def regDefsPWR : List RegDef := [
  ⟨"PWR_MODE", 0x10100200, 1, 0x0, 1, 0, [⟨1, 0, .rw, 0, .any⟩]⟩,
  ⟨"PWR_STAT", 0x10100204, 1, 0x0, 1, 0, [⟨9, 8, .ro, 0, .any⟩, ⟨7, 7, .ro, 0, .any⟩, ⟨6, 6, .ro, 0, .any⟩, ⟨5, 5, .ro, 0, .any⟩, ⟨4, 4, .ro, 0, .any⟩, ⟨3, 3, .ro, 0, .any⟩]⟩,
  ⟨"PWR_LASTENT", 0x10100208, 1, 0x0, 1, 0, [⟨23, 16, .ro, 0, .any⟩, ⟨15, 15, .ro, 0, .any⟩, ⟨11, 8, .ro, 0, .any⟩, ⟨1, 0, .ro, 0, .any⟩]⟩,
  ⟨"PWR_CNT", 0x1010020c, 1, 0x0, 1, 0, [⟨31, 16, .rw, 0, .any⟩, ⟨15, 0, .rw, 0, .any⟩]⟩,
  ⟨"PWR_WAKE", 0x10100210, 1, 0x0, 1, 0, [⟨8, 8, .rw, 0, .any⟩, ⟨7, 7, .rw, 0, .any⟩, ⟨6, 6, .rw, 0, .any⟩, ⟨5, 5, .rw, 0, .any⟩, ⟨4, 4, .rw, 0, .any⟩, ⟨3, 0, .rw, 0, .any⟩]⟩,
  ⟨"PWR_WAKESRC", 0x10100214, 1, 0x0, 1, 0, [⟨8, 0, .w1c, 0, .any⟩]⟩,
  ⟨"PWR_TWAKE", 0x10100218, 1, 0x0, 1, 0, [⟨15, 0, .rw, 0, .any⟩]⟩,
  ⟨"PWR_RETAIN", 0x1010021c, 1, 0x0, 1, 0, [⟨31, 30, .ro, 1, .any⟩, ⟨25, 16, .ro, 0, .any⟩, ⟨15, 0, .ro, 0, .any⟩]⟩]

/-- The CMP registers (16 R352). -/
def regDefsCMP : List RegDef := [
  ⟨"CMP_CTRL", 0x10100300, 4, 0x4, 1, 0, [⟨31, 31, .rw, 0, .any⟩, ⟨30, 30, .rw, 0, .any⟩, ⟨29, 28, .rw, 0, .any⟩, ⟨27, 24, .rw, 0, .any⟩, ⟨9, 0, .rw, 0, .any⟩]⟩,
  ⟨"CMP_STAT", 0x10100310, 1, 0x0, 1, 0, [⟨7, 4, .ro, 0, .any⟩, ⟨3, 0, .w1c, 0, .any⟩]⟩]

/-- The DAYB registers (18 R387). -/
def regDefsDAYB : List RegDef := [
  ⟨"DAYB_STAT", 0x1007e000, 1, 0x0, 1, 0, [⟨1, 1, .w1c, 0, .any⟩, ⟨0, 0, .ro, 0, .any⟩]⟩,
  ⟨"DAYB_BASE", 0x1007e004, 1, 0x0, 1, 0, [⟨31, 0, .ro, 0, .any⟩]⟩,
  ⟨"DAYB_WR", 0x1007e008, 1, 0x0, 1, 0, [⟨15, 0, .ro, 0, .any⟩]⟩,
  ⟨"DAYB_SEQ", 0x1007e00c, 1, 0x0, 1, 0, [⟨31, 0, .ro, 0, .any⟩]⟩,
  ⟨"DAYB_CNT", 0x1007e010, 1, 0x0, 1, 0, [⟨31, 16, .rw, 0, .any⟩, ⟨15, 0, .rw, 0, .any⟩]⟩]

/-- The DLF registers (18 R387). -/
def regDefsDLF : List RegDef := [
  ⟨"DLF_STAT", 0x1007f000, 1, 0x0, 1, 0, [⟨3, 3, .ro, 0, .any⟩, ⟨2, 2, .w1c, 0, .any⟩, ⟨1, 1, .ro, 0, .any⟩, ⟨0, 0, .ro, 0, .any⟩]⟩,
  ⟨"DLF_SEQ", 0x1007f004, 1, 0x0, 1, 0, [⟨31, 0, .ro, 0, .any⟩]⟩,
  ⟨"DLF_REASON", 0x1007f008, 1, 0x0, 1, 0, [⟨7, 0, .ro, 0, .any⟩]⟩,
  ⟨"DLF_PM_LO", 0x1007f00c, 1, 0x0, 1, 0, [⟨31, 0, .ro, 0, .any⟩]⟩,
  ⟨"DLF_PM_HI", 0x1007f010, 1, 0x0, 1, 0, [⟨31, 0, .ro, 0, .any⟩]⟩,
  ⟨"DLF_CNT", 0x1007f014, 1, 0x0, 1, 0, [⟨31, 16, .rw, 0, .any⟩, ⟨15, 0, .ro, 0, .any⟩]⟩]

/-! Addresses of the registers (instances take their index). -/
namespace A
@[reducible] def SYS_DIAG : Nat := 0x10100000
@[reducible] def SYS_RSVD_ADDR : Nat := 0x10100004
@[reducible] def SYS_ID : Nat := 0x10100008
@[reducible] def SYS_PM_LO : Nat := 0x10100040
@[reducible] def SYS_PM_HI : Nat := 0x10100044
@[reducible] def SYS_RMAP_CTRL : Nat := 0x10100100
@[reducible] def SYS_RMAP_STAT : Nat := 0x10100104
@[reducible] def SYS_RMAP_BOOT : Nat := 0x10100108
@[reducible] def SYS_RMAP_VER : Nat := 0x1010010c
@[reducible] def SYS_RMAP_LIVE : Nat := 0x10100110
@[reducible] def SYS_RMAP_STAGE : Nat := 0x10100114
@[reducible] def SYS_RMAP_APPLY_LO : Nat := 0x10100118
@[reducible] def SYS_RMAP_APPLY_HI : Nat := 0x1010011c
@[reducible] def SYS_RMAP_FUSE : Nat := 0x10100120
@[reducible] def PACE_NOW : Nat := 0x1007c000
@[reducible] def PACE_FLOOR : Nat := 0x1007c004
@[reducible] def PACE_NEED : Nat := 0x1007c008
@[reducible] def PACE_POLICY : Nat := 0x1007c00c
@[reducible] def PACE_VCORE : Nat := 0x1007c010
@[reducible] def PACE_STAT : Nat := 0x1007c014
@[reducible] def PACE_TEMP : Nat := 0x1007c018
@[reducible] def PACE_TEMP_HI : Nat := 0x1007c01c
@[reducible] def PACE_FCURVE (i : Nat) : Nat := 0x1007c020 + 0x4 * i
@[reducible] def LEDG_STAT : Nat := 0x1007a000
@[reducible] def LEDG_ECC : Nat := 0x1007a004
@[reducible] def LEDG_CE_ADDR : Nat := 0x1007a008
@[reducible] def LEDG_UE_ADDR : Nat := 0x1007a00c
@[reducible] def LEDG_WEAR : Nat := 0x1007a010
@[reducible] def LEDG_TXN : Nat := 0x1007a014
@[reducible] def LEDG_JRNL : Nat := 0x1007a018
@[reducible] def PIGN_STAT : Nat := 0x1007b000
@[reducible] def PIGN_ECC : Nat := 0x1007b004
@[reducible] def PIGN_UE_ADDR : Nat := 0x1007b008
@[reducible] def PIGN_SCRUB : Nat := 0x1007b00c
@[reducible] def ARB_CFG (i : Nat) : Nat := 0x10102000 + 0x8 * i
@[reducible] def ARB_MASK (i : Nat) : Nat := 0x10102004 + 0x8 * i
@[reducible] def ARB_BANK_STAT (i : Nat) : Nat := 0x10102400 + 0x4 * i
@[reducible] def FL_CTRL (i : Nat) : Nat := 0x10041000 + 0x1000 * i
@[reducible] def FL_CPL (i : Nat) : Nat := 0x10041004 + 0x1000 * i
@[reducible] def FL_FLTCFG (i : Nat) : Nat := 0x10041008 + 0x1000 * i
@[reducible] def FL_STAT (i : Nat) : Nat := 0x1004100c + 0x1000 * i
@[reducible] def FL_FRESH (i : Nat) : Nat := 0x10041010 + 0x1000 * i
@[reducible] def FL_CNT_GOOD (i : Nat) : Nat := 0x10041014 + 0x1000 * i
@[reducible] def FL_CNT_ERR (i : Nat) : Nat := 0x10041018 + 0x1000 * i
@[reducible] def FL_CNT_CLS (i : Nat) : Nat := 0x1004101c + 0x1000 * i
@[reducible] def FL_CNT_LINE (i : Nat) : Nat := 0x10041020 + 0x1000 * i
@[reducible] def FL_RCNT (i : Nat) : Nat := 0x10041040 + 0x1000 * i
@[reducible] def FL_LBCFG (i : Nat) : Nat := 0x10041044 + 0x1000 * i
@[reducible] def FL_LBSTAT (i : Nat) : Nat := 0x10041048 + 0x1000 * i
@[reducible] def FL_ENR (i : Nat) : Nat := 0x1004104c + 0x1000 * i
@[reducible] def FL_ENRLIM (i : Nat) : Nat := 0x10041050 + 0x1000 * i
@[reducible] def FL_NDIR (i : Nat) : Nat := 0x10041054 + 0x1000 * i
@[reducible] def FL_STRCFG (i : Nat) : Nat := 0x10041058 + 0x1000 * i
@[reducible] def FL_STRTIME (i : Nat) : Nat := 0x1004105c + 0x1000 * i
@[reducible] def FL_STR_PEND (i : Nat) : Nat := 0x10041060 + 0x1000 * i
@[reducible] def FL_STR_LAST (i : Nat) : Nat := 0x10041064 + 0x1000 * i
@[reducible] def FL_CNT_STR (i : Nat) : Nat := 0x10041068 + 0x1000 * i
@[reducible] def FL_CNT_DROP (i : Nat) : Nat := 0x1004106c + 0x1000 * i
@[reducible] def FL_CNT_HOLD (i : Nat) : Nat := 0x10041070 + 0x1000 * i
@[reducible] def FL_FENCECFG (i : Nat) : Nat := 0x10041074 + 0x1000 * i
@[reducible] def FL_RSTAT (i : Nat) : Nat := 0x10041078 + 0x1000 * i
@[reducible] def FL_RCTRL (i : Nat) : Nat := 0x1004107c + 0x1000 * i
@[reducible] def FL_MBOX (i : Nat) : Nat := 0x10041080 + 0x1000 * i
@[reducible] def FL_MBOXD (i : Nat) : Nat := 0x10041084 + 0x1000 * i
@[reducible] def FL_FENCE (i : Nat) (j : Nat) : Nat := 0x100410a0 + 0x1000 * i + 4 * j
@[reducible] def TT_CTRL : Nat := 0x10079000
@[reducible] def TT_CMD : Nat := 0x10079004
@[reducible] def TT_STAT : Nat := 0x10079008
@[reducible] def TT_SWAPPEND : Nat := 0x1007900c
@[reducible] def TT_GATE : Nat := 0x10079010
@[reducible] def TT_SWEEP : Nat := 0x10079014
@[reducible] def TT_WADDR : Nat := 0x10079018
@[reducible] def TT_WDATA_LO : Nat := 0x1007901c
@[reducible] def TT_WDATA_HI : Nat := 0x10079020
@[reducible] def TT_RADDR : Nat := 0x10079024
@[reducible] def TT_RDATA_LO : Nat := 0x10079028
@[reducible] def TT_RDATA_HI : Nat := 0x1007902c
@[reducible] def TT_EDIT_IDX : Nat := 0x10079030
@[reducible] def TT_EDIT_LO : Nat := 0x10079034
@[reducible] def TT_EDIT_HI : Nat := 0x10079038
@[reducible] def TTP_POS (i : Nat) : Nat := 0x10079100 + 0x20 * i
@[reducible] def TTP_PASS (i : Nat) : Nat := 0x10079104 + 0x20 * i
@[reducible] def TTP_LAST (i : Nat) : Nat := 0x10079108 + 0x20 * i
@[reducible] def TTP_BUSY (i : Nat) : Nat := 0x1007910c + 0x20 * i
@[reducible] def TTP_MAX (i : Nat) : Nat := 0x10079110 + 0x20 * i
@[reducible] def TTP_HOLD (i : Nat) : Nat := 0x10079114 + 0x20 * i
@[reducible] def TTP_YIELD (i : Nat) : Nat := 0x10079118 + 0x20 * i
@[reducible] def TTP_CNT (i : Nat) : Nat := 0x1007911c + 0x20 * i
@[reducible] def TREND_CTRL : Nat := 0x10078000
@[reducible] def TREND_STAT : Nat := 0x10078004
@[reducible] def TREND_BINERR : Nat := 0x10078008
@[reducible] def TREND_CURVEERR : Nat := 0x1007800c
@[reducible] def TREND_NBIN : Nat := 0x10078010
@[reducible] def TREND_CNT_RD : Nat := 0x10078014
@[reducible] def TREND_CNT_EV : Nat := 0x10078018
@[reducible] def TREND_CNT_LOSS : Nat := 0x1007801c
@[reducible] def TREND_CNT_ERR : Nat := 0x10078020
@[reducible] def TREND_CNT_WB : Nat := 0x10078024
@[reducible] def FC_CTRL (i : Nat) : Nat := 0x10061000 + 0x1000 * i
@[reducible] def FC_STAT (i : Nat) : Nat := 0x10061004 + 0x1000 * i
@[reducible] def FC_SRC (i : Nat) : Nat := 0x10061008 + 0x1000 * i
@[reducible] def FC_MOD (i : Nat) : Nat := 0x1006100c + 0x1000 * i
@[reducible] def FC_CFG (i : Nat) : Nat := 0x10061010 + 0x1000 * i
@[reducible] def FC_RATE (i : Nat) : Nat := 0x10061014 + 0x1000 * i
@[reducible] def FC_SETTLE (i : Nat) : Nat := 0x10061018 + 0x1000 * i
@[reducible] def FC_GDELAY (i : Nat) : Nat := 0x1006101c + 0x1000 * i
@[reducible] def FC_CADDR (i : Nat) : Nat := 0x10061020 + 0x1000 * i
@[reducible] def FC_CDATA (i : Nat) : Nat := 0x10061024 + 0x1000 * i
@[reducible] def FC_CCRC (i : Nat) : Nat := 0x10061028 + 0x1000 * i
@[reducible] def FC_LASTV (i : Nat) : Nat := 0x1006102c + 0x1000 * i
@[reducible] def FC_LASTPM_LO (i : Nat) : Nat := 0x10061030 + 0x1000 * i
@[reducible] def FC_LASTPM_HI (i : Nat) : Nat := 0x10061034 + 0x1000 * i
@[reducible] def FC_CNT (i : Nat) : Nat := 0x10061038 + 0x1000 * i
@[reducible] def FC_SEQ (i : Nat) : Nat := 0x1006103c + 0x1000 * i
@[reducible] def GATE_STAT : Nat := 0x10077000
@[reducible] def GATE_HOPS : Nat := 0x10077004
@[reducible] def GATE_OPEN : Nat := 0x10077008
@[reducible] def GATE_SERIAL : Nat := 0x1007700c
@[reducible] def GATE_QUOTA (i : Nat) : Nat := 0x10077010 + 0x8 * i
@[reducible] def GATE_SHARE (i : Nat) : Nat := 0x10077014 + 0x8 * i
@[reducible] def GATE_USE (i : Nat) : Nat := 0x10077028 + 0x4 * i
@[reducible] def GATE_RET : Nat := 0x10077034
@[reducible] def GATE_CHK : Nat := 0x10077038
@[reducible] def GATE_CHK_ADDR : Nat := 0x1007703c
@[reducible] def GATE_CNT_FRANK : Nat := 0x10077040
@[reducible] def GATE_CNT_RET : Nat := 0x10077044
@[reducible] def GATE_CNT_DUP : Nat := 0x10077048
@[reducible] def GATE_OBX_CTRL : Nat := 0x10077050
@[reducible] def GATE_OBX_BASE : Nat := 0x10077054
@[reducible] def GATE_OBX_LEN : Nat := 0x10077058
@[reducible] def GATE_OBX_RD : Nat := 0x1007705c
@[reducible] def GATE_OBX_WR : Nat := 0x10077060
@[reducible] def GATE_OBX_POP : Nat := 0x10077064
@[reducible] def GATE_FRB (i : Nat) : Nat := 0x10077100 + 0x4 * i
@[reducible] def SRT_CTRL (i : Nat) : Nat := 0x10000000 + 0x1000 * i
@[reducible] def SRT_STAT (i : Nat) : Nat := 0x10000004 + 0x1000 * i
@[reducible] def SRT_PC (i : Nat) : Nat := 0x10000008 + 0x1000 * i
@[reducible] def SRT_TRAP (i : Nat) : Nat := 0x1000000c + 0x1000 * i
@[reducible] def SRT_TRAP2 (i : Nat) : Nat := 0x10000010 + 0x1000 * i
@[reducible] def SRT_BUDGET (i : Nat) : Nat := 0x10000014 + 0x1000 * i
@[reducible] def SRT_STEPS (i : Nat) : Nat := 0x10000018 + 0x1000 * i
@[reducible] def SRT_EVQ (i : Nat) : Nat := 0x1000001c + 0x1000 * i
@[reducible] def SRT_WIN (i : Nat) : Nat := 0x10000020 + 0x1000 * i
@[reducible] def SRT_MADDR (i : Nat) : Nat := 0x10000024 + 0x1000 * i
@[reducible] def SRT_MDATA (i : Nat) : Nat := 0x10000028 + 0x1000 * i
@[reducible] def SRT_CNT (i : Nat) : Nat := 0x1000002c + 0x1000 * i
@[reducible] def CAS_L_CTRL (i : Nat) : Nat := 0x10071000 + 0x1000 * i
@[reducible] def CAS_L_STAT (i : Nat) : Nat := 0x10071004 + 0x1000 * i
@[reducible] def CAS_L_PEER (i : Nat) : Nat := 0x10071008 + 0x1000 * i
@[reducible] def CAS_L_ERR (i : Nat) : Nat := 0x1007100c + 0x1000 * i
@[reducible] def CAS_L_CNT (i : Nat) : Nat := 0x10071010 + 0x1000 * i
@[reducible] def CAS_STAT : Nat := 0x10071800
@[reducible] def CAS_ID : Nat := 0x10071804
@[reducible] def CAS_CMD : Nat := 0x10071810
@[reducible] def CAS_CFG : Nat := 0x10071814
@[reducible] def CAS_IDTAB : Nat := 0x10071818
@[reducible] def CAS_TIME : Nat := 0x1007181c
@[reducible] def CAS_TRIM : Nat := 0x10071820
@[reducible] def CAS_DEVS : Nat := 0x10071860
@[reducible] def CAS_ENR : Nat := 0x10071864
@[reducible] def CAS_UID_LO : Nat := 0x10071808
@[reducible] def CAS_UID_HI : Nat := 0x1007180c
@[reducible] def CAS_UPLIM (i : Nat) : Nat := 0x10071824 + 0x4 * i
@[reducible] def CAS_SUB (i : Nat) (j : Nat) : Nat := 0x10071830 + 0xc * i + 4 * j
@[reducible] def CAS_RA_DST : Nat := 0x10071880
@[reducible] def CAS_RA_ADDR : Nat := 0x10071884
@[reducible] def CAS_RA_CMD : Nat := 0x10071888
@[reducible] def CAS_RA_STAT : Nat := 0x1007188c
@[reducible] def CAS_RA_DATA (i : Nat) : Nat := 0x10071890 + 0x4 * i
@[reducible] def HOST_STAT : Nat := 0x10075000
@[reducible] def HOST_ERRADDR : Nat := 0x10075004
@[reducible] def HOST_CNT : Nat := 0x10075008
@[reducible] def TWP_CFG : Nat := 0x10076000
@[reducible] def TWP_STAT : Nat := 0x10076004
@[reducible] def TWP_ALERT : Nat := 0x10076008
@[reducible] def TWP_PAGE : Nat := 0x1007600c
@[reducible] def TWP_WBASE : Nat := 0x10076010
@[reducible] def TWP_CNT : Nat := 0x10076014
@[reducible] def TMR_CTRL (i : Nat) : Nat := 0x1007d000 + 0x40 * i
@[reducible] def TMR_STAT (i : Nat) : Nat := 0x1007d004 + 0x40 * i
@[reducible] def TMR_COUNT (i : Nat) : Nat := 0x1007d008 + 0x40 * i
@[reducible] def TMR_TOP (i : Nat) : Nat := 0x1007d00c + 0x40 * i
@[reducible] def TMR_CMPA (i : Nat) : Nat := 0x1007d010 + 0x40 * i
@[reducible] def TMR_CMPB (i : Nat) : Nat := 0x1007d014 + 0x40 * i
@[reducible] def TMR_CAPA (i : Nat) : Nat := 0x1007d018 + 0x40 * i
@[reducible] def TMR_CAPB (i : Nat) : Nat := 0x1007d01c + 0x40 * i
@[reducible] def TMR_CHCFG (i : Nat) : Nat := 0x1007d020 + 0x40 * i
@[reducible] def TMR_CMD (i : Nat) : Nat := 0x1007d024 + 0x40 * i
@[reducible] def PWR_MODE : Nat := 0x10100200
@[reducible] def PWR_STAT : Nat := 0x10100204
@[reducible] def PWR_LASTENT : Nat := 0x10100208
@[reducible] def PWR_CNT : Nat := 0x1010020c
@[reducible] def PWR_WAKE : Nat := 0x10100210
@[reducible] def PWR_WAKESRC : Nat := 0x10100214
@[reducible] def PWR_TWAKE : Nat := 0x10100218
@[reducible] def PWR_RETAIN : Nat := 0x1010021c
@[reducible] def CMP_CTRL (i : Nat) : Nat := 0x10100300 + 0x4 * i
@[reducible] def CMP_STAT : Nat := 0x10100310
@[reducible] def SYS_RST : Nat := 0x10100400
@[reducible] def SYS_RST_STAT : Nat := 0x10100404
@[reducible] def SYS_STRAP : Nat := 0x10100408
@[reducible] def SYS_BOOT_TIME : Nat := 0x1010040c
@[reducible] def SYS_FAULT : Nat := 0x10100500
@[reducible] def SYS_FSTORM : Nat := 0x10100504
@[reducible] def SYS_FHELD (i : Nat) : Nat := 0x10100510 + 0x4 * i
@[reducible] def SYS_FLT_PRI (i : Nat) : Nat := 0x10103000 + 0x10 * i
@[reducible] def SYS_FLT_PRIPM (i : Nat) : Nat := 0x10103004 + 0x10 * i
@[reducible] def SYS_FLT_SEC (i : Nat) : Nat := 0x10103008 + 0x10 * i
@[reducible] def SYS_FLT_SECPM (i : Nat) : Nat := 0x1010300c + 0x10 * i
@[reducible] def DAYB_STAT : Nat := 0x1007e000
@[reducible] def DAYB_BASE : Nat := 0x1007e004
@[reducible] def DAYB_WR : Nat := 0x1007e008
@[reducible] def DAYB_SEQ : Nat := 0x1007e00c
@[reducible] def DAYB_CNT : Nat := 0x1007e010
@[reducible] def DLF_STAT : Nat := 0x1007f000
@[reducible] def DLF_SEQ : Nat := 0x1007f004
@[reducible] def DLF_REASON : Nat := 0x1007f008
@[reducible] def DLF_PM_LO : Nat := 0x1007f00c
@[reducible] def DLF_PM_HI : Nat := 0x1007f010
@[reducible] def DLF_CNT : Nat := 0x1007f014
@[reducible] def SYS_PIN_TMEN : Nat := 0x10100600
@[reducible] def SYS_PIN_TMPULL : Nat := 0x10100604
@[reducible] def SYS_PIN_CFG : Nat := 0x10100608
@[reducible] def SYS_HOLD : Nat := 0x10100700
end A

/-! Field descriptors, named REGISTER_FIELD. -/
namespace F
def SYS_DIAG_RSVD_SRC : Fd := ⟨A.SYS_DIAG, 8, 8⟩
def SYS_DIAG_RSVD_MULT : Fd := ⟨A.SYS_DIAG, 1, 1⟩
def SYS_DIAG_RSVD_WR : Fd := ⟨A.SYS_DIAG, 0, 1⟩
def SYS_RSVD_ADDR_ADDR : Fd := ⟨A.SYS_RSVD_ADDR, 2, 30⟩
def SYS_ID_PART : Fd := ⟨A.SYS_ID, 16, 16⟩
def SYS_ID_STEPPING : Fd := ⟨A.SYS_ID, 0, 8⟩
def SYS_PM_LO_PM : Fd := ⟨A.SYS_PM_LO, 0, 32⟩
def SYS_PM_HI_PM : Fd := ⟨A.SYS_PM_HI, 0, 32⟩
def SYS_RMAP_CTRL_CMD : Fd := ⟨A.SYS_RMAP_CTRL, 0, 3⟩
def SYS_RMAP_STAT_RESULT_SECT : Fd := ⟨A.SYS_RMAP_STAT, 24, 8⟩
def SYS_RMAP_STAT_RESULT : Fd := ⟨A.SYS_RMAP_STAT, 16, 8⟩
def SYS_RMAP_STAT_SIG_STATE : Fd := ⟨A.SYS_RMAP_STAT, 8, 2⟩
def SYS_RMAP_STAT_BOOTED_SLOT : Fd := ⟨A.SYS_RMAP_STAT, 7, 1⟩
def SYS_RMAP_STAT_STRAP_BAD : Fd := ⟨A.SYS_RMAP_STAT, 6, 1⟩
def SYS_RMAP_STAT_CMD_LOST : Fd := ⟨A.SYS_RMAP_STAT, 5, 1⟩
def SYS_RMAP_STAT_SLOT_WR : Fd := ⟨A.SYS_RMAP_STAT, 4, 1⟩
def SYS_RMAP_STAT_STAGE_WR : Fd := ⟨A.SYS_RMAP_STAT, 3, 1⟩
def SYS_RMAP_STAT_DONE : Fd := ⟨A.SYS_RMAP_STAT, 2, 1⟩
def SYS_RMAP_STAT_WAITING : Fd := ⟨A.SYS_RMAP_STAT, 1, 1⟩
def SYS_RMAP_STAT_BUSY : Fd := ⟨A.SYS_RMAP_STAT, 0, 1⟩
def SYS_RMAP_BOOT_STRAPS : Fd := ⟨A.SYS_RMAP_BOOT, 16, 3⟩
def SYS_RMAP_BOOT_B_REASON : Fd := ⟨A.SYS_RMAP_BOOT, 8, 8⟩
def SYS_RMAP_BOOT_A_REASON : Fd := ⟨A.SYS_RMAP_BOOT, 0, 8⟩
def SYS_RMAP_VER_BOOTED_VER : Fd := ⟨A.SYS_RMAP_VER, 0, 32⟩
def SYS_RMAP_LIVE_LIVE_SEQ : Fd := ⟨A.SYS_RMAP_LIVE, 0, 16⟩
def SYS_RMAP_STAGE_SIZE : Fd := ⟨A.SYS_RMAP_STAGE, 8, 4⟩
def SYS_RMAP_STAGE_BASE : Fd := ⟨A.SYS_RMAP_STAGE, 0, 8⟩
def SYS_RMAP_APPLY_LO_PM_LO : Fd := ⟨A.SYS_RMAP_APPLY_LO, 0, 32⟩
def SYS_RMAP_APPLY_HI_PM_HI : Fd := ⟨A.SYS_RMAP_APPLY_HI, 0, 32⟩
def SYS_RMAP_FUSE_SIG_REQUIRED : Fd := ⟨A.SYS_RMAP_FUSE, 1, 1⟩
def SYS_RMAP_FUSE_KEY_PRESENT : Fd := ⟨A.SYS_RMAP_FUSE, 0, 1⟩
def PACE_NOW_NOW : Fd := ⟨A.PACE_NOW, 0, 16⟩
def PACE_FLOOR_FLOOR : Fd := ⟨A.PACE_FLOOR, 0, 16⟩
def PACE_NEED_NEED : Fd := ⟨A.PACE_NEED, 0, 16⟩
def PACE_POLICY_GUARD : Fd := ⟨A.PACE_POLICY, 16, 6⟩
def PACE_POLICY_VCAP : Fd := ⟨A.PACE_POLICY, 8, 8⟩
def PACE_POLICY_POLICY : Fd := ⟨A.PACE_POLICY, 0, 2⟩
def PACE_VCORE_NEED_CODE : Fd := ⟨A.PACE_VCORE, 16, 8⟩
def PACE_VCORE_EFF_CAP : Fd := ⟨A.PACE_VCORE, 8, 8⟩
def PACE_VCORE_SETPOINT : Fd := ⟨A.PACE_VCORE, 0, 8⟩
def PACE_STAT_RAMPING : Fd := ⟨A.PACE_STAT, 4, 1⟩
def PACE_STAT_TRIP : Fd := ⟨A.PACE_STAT, 3, 1⟩
def PACE_STAT_TJ_HI : Fd := ⟨A.PACE_STAT, 2, 1⟩
def PACE_STAT_SHORT : Fd := ⟨A.PACE_STAT, 1, 1⟩
def PACE_STAT_CAP_HELD : Fd := ⟨A.PACE_STAT, 0, 1⟩
def PACE_TEMP_TEMP : Fd := ⟨A.PACE_TEMP, 0, 16⟩
def PACE_TEMP_HI_LIMIT : Fd := ⟨A.PACE_TEMP_HI, 0, 16⟩
def PACE_FCURVE_HI (i : Nat) : Fd := ⟨A.PACE_FCURVE i, 16, 16⟩
def PACE_FCURVE_LO (i : Nat) : Fd := ⟨A.PACE_FCURVE i, 0, 16⟩
def LEDG_STAT_NO_SPARE : Fd := ⟨A.LEDG_STAT, 6, 1⟩
def LEDG_STAT_REPLAYED : Fd := ⟨A.LEDG_STAT, 5, 1⟩
def LEDG_STAT_SPARE_LOW : Fd := ⟨A.LEDG_STAT, 4, 1⟩
def LEDG_STAT_UE : Fd := ⟨A.LEDG_STAT, 3, 1⟩
def LEDG_STAT_CE : Fd := ⟨A.LEDG_STAT, 2, 1⟩
def LEDG_STAT_PROT_WR : Fd := ⟨A.LEDG_STAT, 1, 1⟩
def LEDG_STAT_READY : Fd := ⟨A.LEDG_STAT, 0, 1⟩
def LEDG_ECC_CE_COUNT : Fd := ⟨A.LEDG_ECC, 16, 16⟩
def LEDG_ECC_UE_COUNT : Fd := ⟨A.LEDG_ECC, 0, 16⟩
def LEDG_CE_ADDR_ADDR : Fd := ⟨A.LEDG_CE_ADDR, 0, 32⟩
def LEDG_UE_ADDR_ADDR : Fd := ⟨A.LEDG_UE_ADDR, 0, 32⟩
def LEDG_WEAR_MAXWEAR : Fd := ⟨A.LEDG_WEAR, 16, 16⟩
def LEDG_WEAR_SPARES : Fd := ⟨A.LEDG_WEAR, 0, 11⟩
def LEDG_TXN_CONFLICT : Fd := ⟨A.LEDG_TXN, 16, 1⟩
def LEDG_TXN_OVERFLOW : Fd := ⟨A.LEDG_TXN, 15, 1⟩
def LEDG_TXN_REFUSED : Fd := ⟨A.LEDG_TXN, 14, 1⟩
def LEDG_TXN_STATE : Fd := ⟨A.LEDG_TXN, 8, 2⟩
def LEDG_TXN_LINES : Fd := ⟨A.LEDG_TXN, 4, 4⟩
def LEDG_TXN_CMD : Fd := ⟨A.LEDG_TXN, 0, 2⟩
def LEDG_JRNL_REPLAY_TXN : Fd := ⟨A.LEDG_JRNL, 16, 16⟩
def LEDG_JRNL_OPEN_TXN : Fd := ⟨A.LEDG_JRNL, 0, 5⟩
def PIGN_STAT_UE : Fd := ⟨A.PIGN_STAT, 2, 1⟩
def PIGN_STAT_CE : Fd := ⟨A.PIGN_STAT, 1, 1⟩
def PIGN_STAT_READY : Fd := ⟨A.PIGN_STAT, 0, 1⟩
def PIGN_ECC_CE_COUNT : Fd := ⟨A.PIGN_ECC, 16, 16⟩
def PIGN_ECC_UE_COUNT : Fd := ⟨A.PIGN_ECC, 0, 16⟩
def PIGN_UE_ADDR_ADDR : Fd := ⟨A.PIGN_UE_ADDR, 0, 32⟩
def PIGN_SCRUB_INTERVAL : Fd := ⟨A.PIGN_SCRUB, 0, 8⟩
def ARB_CFG_BURST (i : Nat) : Fd := ⟨A.ARB_CFG i, 8, 7⟩
def ARB_CFG_PRIO (i : Nat) : Fd := ⟨A.ARB_CFG i, 0, 3⟩
def ARB_MASK_BANKS (i : Nat) : Fd := ⟨A.ARB_MASK i, 0, 24⟩
def ARB_BANK_STAT_IDLE (i : Nat) : Fd := ⟨A.ARB_BANK_STAT i, 31, 1⟩
def ARB_BANK_STAT_OWNER (i : Nat) : Fd := ⟨A.ARB_BANK_STAT i, 24, 7⟩
def ARB_BANK_STAT_DEAD (i : Nat) : Fd := ⟨A.ARB_BANK_STAT i, 16, 8⟩
def ARB_BANK_STAT_GRANTS (i : Nat) : Fd := ⟨A.ARB_BANK_STAT i, 0, 16⟩
def FL_CTRL_RATE (i : Nat) : Fd := ⟨A.FL_CTRL i, 4, 3⟩
def FL_CTRL_KEYED (i : Nat) : Fd := ⟨A.FL_CTRL i, 1, 1⟩
def FL_CTRL_EN (i : Nat) : Fd := ⟨A.FL_CTRL i, 0, 1⟩
def FL_CPL_GLITCH (i : Nat) : Fd := ⟨A.FL_CPL i, 24, 4⟩
def FL_CPL_RX_BLANK (i : Nat) : Fd := ⟨A.FL_CPL i, 16, 6⟩
def FL_CPL_DE_LAG (i : Nat) : Fd := ⟨A.FL_CPL i, 8, 6⟩
def FL_CPL_DE_LEAD (i : Nat) : Fd := ⟨A.FL_CPL i, 0, 6⟩
def FL_FLTCFG_FILT (i : Nat) : Fd := ⟨A.FL_FLTCFG i, 0, 8⟩
def FL_STAT_CPL_BAD (i : Nat) : Fd := ⟨A.FL_STAT i, 5, 1⟩
def FL_STAT_FLT_LATCH (i : Nat) : Fd := ⟨A.FL_STAT i, 4, 1⟩
def FL_STAT_FLT (i : Nat) : Fd := ⟨A.FL_STAT i, 3, 1⟩
def FL_STAT_QUIET (i : Nat) : Fd := ⟨A.FL_STAT i, 2, 1⟩
def FL_STAT_RX (i : Nat) : Fd := ⟨A.FL_STAT i, 1, 1⟩
def FL_STAT_ACTIVE (i : Nat) : Fd := ⟨A.FL_STAT i, 0, 1⟩
def FL_FRESH_FRESH (i : Nat) : Fd := ⟨A.FL_FRESH i, 0, 32⟩
def FL_CNT_GOOD_GOOD (i : Nat) : Fd := ⟨A.FL_CNT_GOOD i, 0, 32⟩
def FL_CNT_ERR_CRC_BAD (i : Nat) : Fd := ⟨A.FL_CNT_ERR i, 16, 16⟩
def FL_CNT_ERR_MAC_BAD (i : Nat) : Fd := ⟨A.FL_CNT_ERR i, 0, 16⟩
def FL_CNT_CLS_MALFORMED (i : Nat) : Fd := ⟨A.FL_CNT_CLS i, 16, 16⟩
def FL_CNT_CLS_FOREIGN (i : Nat) : Fd := ⟨A.FL_CNT_CLS i, 0, 16⟩
def FL_CNT_LINE_NOISE (i : Nat) : Fd := ⟨A.FL_CNT_LINE i, 16, 16⟩
def FL_CNT_LINE_MISSING (i : Nat) : Fd := ⟨A.FL_CNT_LINE i, 0, 16⟩
def FL_RCNT_ROUNDS (i : Nat) : Fd := ⟨A.FL_RCNT i, 16, 16⟩
def FL_RCNT_DISCARD (i : Nat) : Fd := ⟨A.FL_RCNT i, 0, 16⟩
def FL_LBCFG_KMAX (i : Nat) : Fd := ⟨A.FL_LBCFG i, 16, 8⟩
def FL_LBCFG_MAXEX (i : Nat) : Fd := ⟨A.FL_LBCFG i, 0, 10⟩
def FL_LBSTAT_UNBOUND (i : Nat) : Fd := ⟨A.FL_LBSTAT i, 31, 1⟩
def FL_LBSTAT_OVER (i : Nat) : Fd := ⟨A.FL_LBSTAT i, 30, 1⟩
def FL_LBSTAT_NEED (i : Nat) : Fd := ⟨A.FL_LBSTAT i, 20, 10⟩
def FL_LBSTAT_LAST (i : Nat) : Fd := ⟨A.FL_LBSTAT i, 10, 10⟩
def FL_LBSTAT_CARRY (i : Nat) : Fd := ⟨A.FL_LBSTAT i, 0, 6⟩
def FL_ENR_EN (i : Nat) : Fd := ⟨A.FL_ENR i, 31, 1⟩
def FL_ENR_LO (i : Nat) : Fd := ⟨A.FL_ENR i, 16, 14⟩
def FL_ENR_HI (i : Nat) : Fd := ⟨A.FL_ENR i, 0, 14⟩
def FL_ENRLIM_MAXEX (i : Nat) : Fd := ⟨A.FL_ENRLIM i, 0, 10⟩
def FL_NDIR_VALID (i : Nat) : Fd := ⟨A.FL_NDIR i, 31, 1⟩
def FL_NDIR_BASE (i : Nat) : Fd := ⟨A.FL_NDIR i, 0, 7⟩
def FL_STRCFG_UNK_ACT (i : Nat) : Fd := ⟨A.FL_STRCFG i, 30, 2⟩
def FL_STRCFG_AUTH_LIM (i : Nat) : Fd := ⟨A.FL_STRCFG i, 24, 4⟩
def FL_STRCFG_DUP_LIM (i : Nat) : Fd := ⟨A.FL_STRCFG i, 20, 4⟩
def FL_STRCFG_MISS_LIM (i : Nat) : Fd := ⟨A.FL_STRCFG i, 16, 4⟩
def FL_STRCFG_NOISE_LIM (i : Nat) : Fd := ⟨A.FL_STRCFG i, 12, 4⟩
def FL_STRCFG_YIELD (i : Nat) : Fd := ⟨A.FL_STRCFG i, 0, 8⟩
def FL_STRTIME_MUTE_S (i : Nat) : Fd := ⟨A.FL_STRTIME i, 16, 16⟩
def FL_STRTIME_BACKOFF (i : Nat) : Fd := ⟨A.FL_STRTIME i, 0, 8⟩
def FL_STR_PEND_PEND (i : Nat) : Fd := ⟨A.FL_STR_PEND i, 0, 5⟩
def FL_STR_LAST_CLASS (i : Nat) : Fd := ⟨A.FL_STR_LAST i, 24, 4⟩
def FL_STR_LAST_NODE (i : Nat) : Fd := ⟨A.FL_STR_LAST i, 8, 14⟩
def FL_STR_LAST_DATA (i : Nat) : Fd := ⟨A.FL_STR_LAST i, 0, 8⟩
def FL_CNT_STR_UNKNOWN (i : Nat) : Fd := ⟨A.FL_CNT_STR i, 16, 16⟩
def FL_CNT_STR_IMPOSTOR (i : Nat) : Fd := ⟨A.FL_CNT_STR i, 0, 16⟩
def FL_CNT_DROP_QUAR_DROP (i : Nat) : Fd := ⟨A.FL_CNT_DROP i, 16, 16⟩
def FL_CNT_DROP_LATE (i : Nat) : Fd := ⟨A.FL_CNT_DROP i, 0, 16⟩
def FL_CNT_HOLD_NO_EP (i : Nat) : Fd := ⟨A.FL_CNT_HOLD i, 16, 16⟩
def FL_CNT_HOLD_IDCHK (i : Nat) : Fd := ⟨A.FL_CNT_HOLD i, 0, 16⟩
def FL_FENCECFG_RESTART_DLY (i : Nat) : Fd := ⟨A.FL_FENCECFG i, 16, 8⟩
def FL_FENCECFG_CLOSE_WAIT (i : Nat) : Fd := ⟨A.FL_FENCECFG i, 8, 8⟩
def FL_FENCECFG_AUTO_FENCE (i : Nat) : Fd := ⟨A.FL_FENCECFG i, 1, 1⟩
def FL_FENCECFG_AUTO_RESTART (i : Nat) : Fd := ⟨A.FL_FENCECFG i, 0, 1⟩
def FL_RSTAT_ENR_FULL (i : Nat) : Fd := ⟨A.FL_RSTAT i, 7, 1⟩
def FL_RSTAT_NDIR_BAD (i : Nat) : Fd := ⟨A.FL_RSTAT i, 6, 1⟩
def FL_RSTAT_MBOX_LOST (i : Nat) : Fd := ⟨A.FL_RSTAT i, 5, 1⟩
def FL_RSTAT_FENCE_FULL (i : Nat) : Fd := ⟨A.FL_RSTAT i, 4, 1⟩
def FL_RSTAT_ABSENT (i : Nat) : Fd := ⟨A.FL_RSTAT i, 3, 1⟩
def FL_RSTAT_WALKING (i : Nat) : Fd := ⟨A.FL_RSTAT i, 2, 1⟩
def FL_RSTAT_BACKOFF (i : Nat) : Fd := ⟨A.FL_RSTAT i, 1, 1⟩
def FL_RSTAT_HELD (i : Nat) : Fd := ⟨A.FL_RSTAT i, 0, 1⟩
def FL_RCTRL_RESTART (i : Nat) : Fd := ⟨A.FL_RCTRL i, 0, 1⟩
def FL_MBOX_STATE (i : Nat) : Fd := ⟨A.FL_MBOX i, 30, 2⟩
def FL_MBOX_CMD (i : Nat) : Fd := ⟨A.FL_MBOX i, 24, 4⟩
def FL_MBOX_NODE (i : Nat) : Fd := ⟨A.FL_MBOX i, 8, 14⟩
def FL_MBOX_CFGREG (i : Nat) : Fd := ⟨A.FL_MBOX i, 0, 8⟩
def FL_MBOXD_VALUE (i : Nat) : Fd := ⟨A.FL_MBOXD i, 0, 16⟩
def FL_FENCE_EN (i : Nat) (j : Nat) : Fd := ⟨A.FL_FENCE i j, 31, 1⟩
def FL_FENCE_REASON (i : Nat) (j : Nat) : Fd := ⟨A.FL_FENCE i j, 29, 2⟩
def FL_FENCE_HI (i : Nat) (j : Nat) : Fd := ⟨A.FL_FENCE i j, 14, 14⟩
def FL_FENCE_LO (i : Nat) (j : Nat) : Fd := ⟨A.FL_FENCE i j, 0, 14⟩
def TT_CTRL_RUN : Fd := ⟨A.TT_CTRL, 16, 1⟩
def TT_CTRL_AHEAD : Fd := ⟨A.TT_CTRL, 8, 4⟩
def TT_CMD_CMD : Fd := ⟨A.TT_CMD, 0, 2⟩
def TT_STAT_ACTIVE : Fd := ⟨A.TT_STAT, 7, 1⟩
def TT_STAT_SWAP_PEND : Fd := ⟨A.TT_STAT, 6, 1⟩
def TT_STAT_EDIT_PEND : Fd := ⟨A.TT_STAT, 5, 1⟩
def TT_STAT_COPY_BUSY : Fd := ⟨A.TT_STAT, 4, 1⟩
def TT_STAT_STOPPED : Fd := ⟨A.TT_STAT, 3, 1⟩
def TT_STAT_SWAP_REF : Fd := ⟨A.TT_STAT, 2, 1⟩
def TT_STAT_EDIT_REF : Fd := ⟨A.TT_STAT, 1, 1⟩
def TT_STAT_WR_REF : Fd := ⟨A.TT_STAT, 0, 1⟩
def TT_SWAPPEND_PORTS : Fd := ⟨A.TT_SWAPPEND, 0, 32⟩
def TT_GATE_MIN : Fd := ⟨A.TT_GATE, 0, 16⟩
def TT_SWEEP_PORT : Fd := ⟨A.TT_SWEEP, 24, 5⟩
def TT_SWEEP_MS : Fd := ⟨A.TT_SWEEP, 0, 24⟩
def TT_WADDR_IDX : Fd := ⟨A.TT_WADDR, 0, 13⟩
def TT_WDATA_LO_LO : Fd := ⟨A.TT_WDATA_LO, 0, 32⟩
def TT_WDATA_HI_HI : Fd := ⟨A.TT_WDATA_HI, 0, 32⟩
def TT_RADDR_BANK : Fd := ⟨A.TT_RADDR, 31, 1⟩
def TT_RADDR_IDX : Fd := ⟨A.TT_RADDR, 0, 13⟩
def TT_RDATA_LO_LO : Fd := ⟨A.TT_RDATA_LO, 0, 32⟩
def TT_RDATA_HI_HI : Fd := ⟨A.TT_RDATA_HI, 0, 32⟩
def TT_EDIT_IDX_IDX : Fd := ⟨A.TT_EDIT_IDX, 0, 13⟩
def TT_EDIT_LO_LO : Fd := ⟨A.TT_EDIT_LO, 0, 32⟩
def TT_EDIT_HI_HI : Fd := ⟨A.TT_EDIT_HI, 0, 32⟩
def TTP_POS_BANK (i : Nat) : Fd := ⟨A.TTP_POS i, 31, 1⟩
def TTP_POS_GATE (i : Nat) : Fd := ⟨A.TTP_POS i, 30, 1⟩
def TTP_POS_ROUND (i : Nat) : Fd := ⟨A.TTP_POS i, 29, 1⟩
def TTP_POS_SLOT (i : Nat) : Fd := ⟨A.TTP_POS i, 0, 13⟩
def TTP_PASS_PASS (i : Nat) : Fd := ⟨A.TTP_PASS i, 0, 32⟩
def TTP_LAST_MS (i : Nat) : Fd := ⟨A.TTP_LAST i, 0, 24⟩
def TTP_BUSY_MS (i : Nat) : Fd := ⟨A.TTP_BUSY i, 0, 24⟩
def TTP_MAX_MS (i : Nat) : Fd := ⟨A.TTP_MAX i, 0, 24⟩
def TTP_HOLD_US (i : Nat) : Fd := ⟨A.TTP_HOLD i, 0, 32⟩
def TTP_YIELD_US (i : Nat) : Fd := ⟨A.TTP_YIELD i, 0, 32⟩
def TTP_CNT_SKIP (i : Nat) : Fd := ⟨A.TTP_CNT i, 16, 16⟩
def TTP_CNT_FILL (i : Nat) : Fd := ⟨A.TTP_CNT i, 0, 16⟩
def TREND_CTRL_TEST : Fd := ⟨A.TREND_CTRL, 0, 1⟩
def TREND_STAT_CURVE_BAD : Fd := ⟨A.TREND_STAT, 3, 1⟩
def TREND_STAT_BIN_BAD : Fd := ⟨A.TREND_STAT, 2, 1⟩
def TREND_STAT_POISON : Fd := ⟨A.TREND_STAT, 1, 1⟩
def TREND_STAT_BUSY : Fd := ⟨A.TREND_STAT, 0, 1⟩
def TREND_BINERR_CAUSE : Fd := ⟨A.TREND_BINERR, 12, 4⟩
def TREND_BINERR_BIN : Fd := ⟨A.TREND_BINERR, 0, 12⟩
def TREND_CURVEERR_CURVE : Fd := ⟨A.TREND_CURVEERR, 0, 8⟩
def TREND_NBIN_VALID : Fd := ⟨A.TREND_NBIN, 0, 13⟩
def TREND_CNT_RD_READINGS : Fd := ⟨A.TREND_CNT_RD, 0, 32⟩
def TREND_CNT_EV_EVENTS : Fd := ⟨A.TREND_CNT_EV, 16, 16⟩
def TREND_CNT_EV_LETTERS : Fd := ⟨A.TREND_CNT_EV, 0, 16⟩
def TREND_CNT_LOSS_EVDROP : Fd := ⟨A.TREND_CNT_LOSS, 16, 16⟩
def TREND_CNT_LOSS_RETURNED : Fd := ⟨A.TREND_CNT_LOSS, 0, 16⟩
def TREND_CNT_ERR_RANGE : Fd := ⟨A.TREND_CNT_ERR, 16, 16⟩
def TREND_CNT_ERR_POISON : Fd := ⟨A.TREND_CNT_ERR, 0, 16⟩
def TREND_CNT_WB_REWRITE : Fd := ⟨A.TREND_CNT_WB, 16, 16⟩
def TREND_CNT_WB_CANCEL : Fd := ⟨A.TREND_CNT_WB, 0, 16⟩
def FC_CTRL_OPEN (i : Nat) : Fd := ⟨A.FC_CTRL i, 8, 1⟩
def FC_CTRL_RUN (i : Nat) : Fd := ⟨A.FC_CTRL i, 0, 1⟩
def FC_STAT_CAUSE (i : Nat) : Fd := ⟨A.FC_STAT i, 12, 4⟩
def FC_STAT_GRID_STEP (i : Nat) : Fd := ⟨A.FC_STAT i, 9, 1⟩
def FC_STAT_CLIP (i : Nat) : Fd := ⟨A.FC_STAT i, 8, 1⟩
def FC_STAT_DROP (i : Nat) : Fd := ⟨A.FC_STAT i, 7, 1⟩
def FC_STAT_MOD_REF (i : Nat) : Fd := ⟨A.FC_STAT i, 6, 1⟩
def FC_STAT_START_REF (i : Nat) : Fd := ⟨A.FC_STAT i, 5, 1⟩
def FC_STAT_COEF_REF (i : Nat) : Fd := ⟨A.FC_STAT i, 4, 1⟩
def FC_STAT_OVL (i : Nat) : Fd := ⟨A.FC_STAT i, 3, 1⟩
def FC_STAT_SETTLING (i : Nat) : Fd := ⟨A.FC_STAT i, 2, 1⟩
def FC_STAT_LOADING (i : Nat) : Fd := ⟨A.FC_STAT i, 1, 1⟩
def FC_STAT_ACTIVE (i : Nat) : Fd := ⟨A.FC_STAT i, 0, 1⟩
def FC_SRC_SCALE (i : Nat) : Fd := ⟨A.FC_SRC i, 8, 8⟩
def FC_SRC_SRC (i : Nat) : Fd := ⟨A.FC_SRC i, 0, 4⟩
def FC_MOD_MSETTLE (i : Nat) : Fd := ⟨A.FC_MOD i, 8, 8⟩
def FC_MOD_EDGE (i : Nat) : Fd := ⟨A.FC_MOD i, 3, 1⟩
def FC_MOD_GAIN (i : Nat) : Fd := ⟨A.FC_MOD i, 1, 2⟩
def FC_MOD_EN (i : Nat) : Fd := ⟨A.FC_MOD i, 0, 1⟩
def FC_CFG_PROTO (i : Nat) : Fd := ⟨A.FC_CFG i, 29, 1⟩
def FC_CFG_MODE (i : Nat) : Fd := ⟨A.FC_CFG i, 28, 1⟩
def FC_CFG_TM1 (i : Nat) : Fd := ⟨A.FC_CFG i, 20, 7⟩
def FC_CFG_MM1 (i : Nat) : Fd := ⟨A.FC_CFG i, 16, 4⟩
def FC_CFG_RM1 (i : Nat) : Fd := ⟨A.FC_CFG i, 8, 8⟩
def FC_CFG_K (i : Nat) : Fd := ⟨A.FC_CFG i, 0, 3⟩
def FC_RATE_INC (i : Nat) : Fd := ⟨A.FC_RATE i, 0, 32⟩
def FC_SETTLE_REMAIN (i : Nat) : Fd := ⟨A.FC_SETTLE i, 16, 16⟩
def FC_SETTLE_N (i : Nat) : Fd := ⟨A.FC_SETTLE i, 0, 16⟩
def FC_GDELAY_GDELAY (i : Nat) : Fd := ⟨A.FC_GDELAY i, 0, 32⟩
def FC_CADDR_TABLE (i : Nat) : Fd := ⟨A.FC_CADDR i, 11, 1⟩
def FC_CADDR_IDX (i : Nat) : Fd := ⟨A.FC_CADDR i, 0, 11⟩
def FC_CDATA_COEF (i : Nat) : Fd := ⟨A.FC_CDATA i, 0, 24⟩
def FC_CCRC_CRC (i : Nat) : Fd := ⟨A.FC_CCRC i, 0, 32⟩
def FC_LASTV_QUAL (i : Nat) : Fd := ⟨A.FC_LASTV i, 24, 8⟩
def FC_LASTV_VALUE (i : Nat) : Fd := ⟨A.FC_LASTV i, 0, 24⟩
def FC_LASTPM_LO_PM_LO (i : Nat) : Fd := ⟨A.FC_LASTPM_LO i, 0, 32⟩
def FC_LASTPM_HI_PM_HI (i : Nat) : Fd := ⟨A.FC_LASTPM_HI i, 0, 32⟩
def FC_CNT_DROP (i : Nat) : Fd := ⟨A.FC_CNT i, 16, 16⟩
def FC_CNT_CLIP (i : Nat) : Fd := ⟨A.FC_CNT i, 0, 16⟩
def FC_SEQ_SEQ (i : Nat) : Fd := ⟨A.FC_SEQ i, 0, 32⟩
def GATE_STAT_DUP : Fd := ⟨A.GATE_STAT, 6, 1⟩
def GATE_STAT_RELEASED : Fd := ⟨A.GATE_STAT, 5, 1⟩
def GATE_STAT_RETURNED : Fd := ⟨A.GATE_STAT, 4, 1⟩
def GATE_STAT_OBX_REF : Fd := ⟨A.GATE_STAT, 3, 1⟩
def GATE_STAT_CHK_REF : Fd := ⟨A.GATE_STAT, 2, 1⟩
def GATE_STAT_DUAL : Fd := ⟨A.GATE_STAT, 1, 1⟩
def GATE_STAT_HALTED : Fd := ⟨A.GATE_STAT, 0, 1⟩
def GATE_HOPS_HEAD : Fd := ⟨A.GATE_HOPS, 16, 1⟩
def GATE_HOPS_HOPS : Fd := ⟨A.GATE_HOPS, 0, 6⟩
def GATE_OPEN_LIMIT : Fd := ⟨A.GATE_OPEN, 16, 12⟩
def GATE_OPEN_COUNT : Fd := ⟨A.GATE_OPEN, 0, 12⟩
def GATE_SERIAL_NEXT : Fd := ⟨A.GATE_SERIAL, 0, 32⟩
def GATE_QUOTA_CRED (i : Nat) : Fd := ⟨A.GATE_QUOTA i, 16, 16⟩
def GATE_QUOTA_OBXQ (i : Nat) : Fd := ⟨A.GATE_QUOTA i, 0, 16⟩
def GATE_SHARE_SHARE (i : Nat) : Fd := ⟨A.GATE_SHARE i, 0, 16⟩
def GATE_USE_CRED_FREE (i : Nat) : Fd := ⟨A.GATE_USE i, 16, 16⟩
def GATE_USE_OBX_USED (i : Nat) : Fd := ⟨A.GATE_USE i, 0, 16⟩
def GATE_RET_REASON : Fd := ⟨A.GATE_RET, 16, 8⟩
def GATE_RET_KIND : Fd := ⟨A.GATE_RET, 8, 8⟩
def GATE_RET_ORIGIN : Fd := ⟨A.GATE_RET, 0, 8⟩
def GATE_CHK_TEST : Fd := ⟨A.GATE_CHK, 8, 4⟩
def GATE_CHK_WRITER : Fd := ⟨A.GATE_CHK, 0, 8⟩
def GATE_CHK_ADDR_ADDR : Fd := ⟨A.GATE_CHK_ADDR, 0, 32⟩
def GATE_CNT_FRANK_FRANKED : Fd := ⟨A.GATE_CNT_FRANK, 0, 32⟩
def GATE_CNT_RET_RETURNED : Fd := ⟨A.GATE_CNT_RET, 16, 16⟩
def GATE_CNT_RET_RELEASED : Fd := ⟨A.GATE_CNT_RET, 0, 16⟩
def GATE_CNT_DUP_DUP_DROP : Fd := ⟨A.GATE_CNT_DUP, 16, 16⟩
def GATE_CNT_DUP_REDELIVERED : Fd := ⟨A.GATE_CNT_DUP, 0, 16⟩
def GATE_OBX_CTRL_BELL_EN : Fd := ⟨A.GATE_OBX_CTRL, 0, 1⟩
def GATE_OBX_BASE_ADDR : Fd := ⟨A.GATE_OBX_BASE, 0, 32⟩
def GATE_OBX_LEN_LETTERS : Fd := ⟨A.GATE_OBX_LEN, 0, 20⟩
def GATE_OBX_RD_IDX : Fd := ⟨A.GATE_OBX_RD, 0, 20⟩
def GATE_OBX_WR_IDX : Fd := ⟨A.GATE_OBX_WR, 0, 20⟩
def GATE_OBX_POP_COUNT : Fd := ⟨A.GATE_OBX_POP, 0, 20⟩
def GATE_FRB_EN (i : Nat) : Fd := ⟨A.GATE_FRB i, 31, 1⟩
def GATE_FRB_MS (i : Nat) : Fd := ⟨A.GATE_FRB i, 0, 16⟩
def SRT_CTRL_SPEC (i : Nat) : Fd := ⟨A.SRT_CTRL i, 2, 1⟩
def SRT_CTRL_FRESH (i : Nat) : Fd := ⟨A.SRT_CTRL i, 1, 1⟩
def SRT_CTRL_RUN (i : Nat) : Fd := ⟨A.SRT_CTRL i, 0, 1⟩
def SRT_STAT_STATE (i : Nat) : Fd := ⟨A.SRT_STAT i, 9, 3⟩
def SRT_STAT_TDEPTH (i : Nat) : Fd := ⟨A.SRT_STAT i, 7, 2⟩
def SRT_STAT_SEALED (i : Nat) : Fd := ⟨A.SRT_STAT i, 6, 1⟩
def SRT_STAT_SPEC_ON (i : Nat) : Fd := ⟨A.SRT_STAT i, 5, 1⟩
def SRT_STAT_MEM_REF (i : Nat) : Fd := ⟨A.SRT_STAT i, 4, 1⟩
def SRT_STAT_HDR_BAD (i : Nat) : Fd := ⟨A.SRT_STAT i, 3, 1⟩
def SRT_STAT_SLOW (i : Nat) : Fd := ⟨A.SRT_STAT i, 2, 1⟩
def SRT_STAT_RESUMED (i : Nat) : Fd := ⟨A.SRT_STAT i, 1, 1⟩
def SRT_PC_PC (i : Nat) : Fd := ⟨A.SRT_PC i, 0, 16⟩
def SRT_TRAP_CAUSE1 (i : Nat) : Fd := ⟨A.SRT_TRAP i, 28, 4⟩
def SRT_TRAP_CAUSE2 (i : Nat) : Fd := ⟨A.SRT_TRAP i, 24, 4⟩
def SRT_TRAP_PC1 (i : Nat) : Fd := ⟨A.SRT_TRAP i, 0, 16⟩
def SRT_TRAP2_PC2 (i : Nat) : Fd := ⟨A.SRT_TRAP2 i, 0, 16⟩
def SRT_BUDGET_BUDGET (i : Nat) : Fd := ⟨A.SRT_BUDGET i, 0, 24⟩
def SRT_STEPS_MAX (i : Nat) : Fd := ⟨A.SRT_STEPS i, 0, 24⟩
def SRT_EVQ_TAKEN (i : Nat) : Fd := ⟨A.SRT_EVQ i, 8, 5⟩
def SRT_EVQ_QUEUED (i : Nat) : Fd := ⟨A.SRT_EVQ i, 0, 5⟩
def SRT_WIN_BASE (i : Nat) : Fd := ⟨A.SRT_WIN i, 14, 18⟩
def SRT_MADDR_ADDR (i : Nat) : Fd := ⟨A.SRT_MADDR i, 0, 16⟩
def SRT_MDATA_BYTE (i : Nat) : Fd := ⟨A.SRT_MDATA i, 0, 8⟩
def SRT_CNT_SEALS (i : Nat) : Fd := ⟨A.SRT_CNT i, 16, 16⟩
def SRT_CNT_SLOWWIN (i : Nat) : Fd := ⟨A.SRT_CNT i, 0, 16⟩
def CAS_L_CTRL_DOWN (i : Nat) : Fd := ⟨A.CAS_L_CTRL i, 0, 1⟩
def CAS_L_STAT_SHORT (i : Nat) : Fd := ⟨A.CAS_L_STAT i, 7, 1⟩
def CAS_L_STAT_LOST (i : Nat) : Fd := ⟨A.CAS_L_STAT i, 6, 1⟩
def CAS_L_STAT_PRS (i : Nat) : Fd := ⟨A.CAS_L_STAT i, 5, 1⟩
def CAS_L_STAT_LSTATE (i : Nat) : Fd := ⟨A.CAS_L_STAT i, 0, 3⟩
def CAS_L_PEER_VALID (i : Nat) : Fd := ⟨A.CAS_L_PEER i, 16, 1⟩
def CAS_L_PEER_ID (i : Nat) : Fd := ⟨A.CAS_L_PEER i, 0, 16⟩
def CAS_L_ERR_CODE (i : Nat) : Fd := ⟨A.CAS_L_ERR i, 16, 16⟩
def CAS_L_ERR_CRC (i : Nat) : Fd := ⟨A.CAS_L_ERR i, 0, 16⟩
def CAS_L_CNT_RETRAIN (i : Nat) : Fd := ⟨A.CAS_L_CNT i, 16, 16⟩
def CAS_L_CNT_DROP (i : Nat) : Fd := ⟨A.CAS_L_CNT i, 0, 16⟩
def CAS_STAT_ENR_RESULT : Fd := ⟨A.CAS_STAT, 16, 8⟩
def CAS_STAT_RIVAL : Fd := ⟨A.CAS_STAT, 11, 1⟩
def CAS_STAT_STEPPED : Fd := ⟨A.CAS_STAT, 10, 1⟩
def CAS_STAT_TAKEOVER : Fd := ⟨A.CAS_STAT, 9, 1⟩
def CAS_STAT_SB_ARMED : Fd := ⟨A.CAS_STAT, 8, 1⟩
def CAS_STAT_TSTATE : Fd := ⟨A.CAS_STAT, 6, 2⟩
def CAS_STAT_PATH : Fd := ⟨A.CAS_STAT, 5, 1⟩
def CAS_STAT_ROLE : Fd := ⟨A.CAS_STAT, 3, 2⟩
def CAS_ID_VALID : Fd := ⟨A.CAS_ID, 16, 1⟩
def CAS_ID_ID : Fd := ⟨A.CAS_ID, 0, 16⟩
def CAS_CMD_CMD : Fd := ⟨A.CAS_CMD, 0, 2⟩
def CAS_CFG_STEP_US : Fd := ⟨A.CAS_CFG, 16, 16⟩
def CAS_CFG_HOLD_MS : Fd := ⟨A.CAS_CFG, 8, 8⟩
def CAS_CFG_PORTS : Fd := ⟨A.CAS_CFG, 0, 4⟩
def CAS_IDTAB_BASE : Fd := ⟨A.CAS_IDTAB, 0, 16⟩
def CAS_TIME_DELAY : Fd := ⟨A.CAS_TIME, 16, 16⟩
def CAS_TIME_OFFSET : Fd := ⟨A.CAS_TIME, 0, 16⟩
def CAS_TRIM_TRIM : Fd := ⟨A.CAS_TRIM, 0, 16⟩
def CAS_DEVS_PRESENT : Fd := ⟨A.CAS_DEVS, 0, 17⟩
def CAS_ENR_ACCEPTED : Fd := ⟨A.CAS_ENR, 16, 16⟩
def CAS_ENR_REFUSED : Fd := ⟨A.CAS_ENR, 0, 16⟩
def CAS_UID_LO_UID : Fd := ⟨A.CAS_UID_LO, 0, 32⟩
def CAS_UID_HI_UID : Fd := ⟨A.CAS_UID_HI, 0, 32⟩
def CAS_UPLIM_CRED (i : Nat) : Fd := ⟨A.CAS_UPLIM i, 16, 16⟩
def CAS_UPLIM_SHARE (i : Nat) : Fd := ⟨A.CAS_UPLIM i, 0, 16⟩
def CAS_SUB_CRED (i : Nat) (j : Nat) : Fd := ⟨A.CAS_SUB i j, 16, 16⟩
def CAS_SUB_SHARE (i : Nat) (j : Nat) : Fd := ⟨A.CAS_SUB i j, 0, 16⟩
def CAS_RA_DST_ID : Fd := ⟨A.CAS_RA_DST, 0, 16⟩
def CAS_RA_ADDR_ADDR : Fd := ⟨A.CAS_RA_ADDR, 2, 30⟩
def CAS_RA_CMD_WORDS : Fd := ⟨A.CAS_RA_CMD, 5, 3⟩
def CAS_RA_CMD_OP : Fd := ⟨A.CAS_RA_CMD, 0, 2⟩
def CAS_RA_STAT_RESULT : Fd := ⟨A.CAS_RA_STAT, 4, 4⟩
def CAS_RA_STAT_CMD_LOST : Fd := ⟨A.CAS_RA_STAT, 2, 1⟩
def CAS_RA_STAT_DONE : Fd := ⟨A.CAS_RA_STAT, 1, 1⟩
def CAS_RA_STAT_BUSY : Fd := ⟨A.CAS_RA_STAT, 0, 1⟩
def CAS_RA_DATA_DATA (i : Nat) : Fd := ⟨A.CAS_RA_DATA i, 0, 32⟩
def HOST_STAT_FORM4 : Fd := ⟨A.HOST_STAT, 7, 1⟩
def HOST_STAT_WIP : Fd := ⟨A.HOST_STAT, 6, 1⟩
def HOST_STAT_BUSY_WR : Fd := ⟨A.HOST_STAT, 5, 1⟩
def HOST_STAT_PARTIAL : Fd := ⟨A.HOST_STAT, 4, 1⟩
def HOST_STAT_OVERRUN : Fd := ⟨A.HOST_STAT, 3, 1⟩
def HOST_STAT_UNDERRUN : Fd := ⟨A.HOST_STAT, 2, 1⟩
def HOST_STAT_BADCMD : Fd := ⟨A.HOST_STAT, 1, 1⟩
def HOST_ERRADDR_ADDR : Fd := ⟨A.HOST_ERRADDR, 0, 32⟩
def HOST_CNT_CMDS : Fd := ⟨A.HOST_CNT, 16, 16⟩
def HOST_CNT_ERRS : Fd := ⟨A.HOST_CNT, 0, 16⟩
def TWP_CFG_RDLEN : Fd := ⟨A.TWP_CFG, 16, 8⟩
def TWP_CFG_HOLD : Fd := ⟨A.TWP_CFG, 8, 6⟩
def TWP_CFG_FILT : Fd := ⟨A.TWP_CFG, 4, 2⟩
def TWP_CFG_STRETCH : Fd := ⟨A.TWP_CFG, 1, 1⟩
def TWP_CFG_PEC : Fd := ⟨A.TWP_CFG, 0, 1⟩
def TWP_STAT_ADDR : Fd := ⟨A.TWP_STAT, 8, 7⟩
def TWP_STAT_LATE : Fd := ⟨A.TWP_STAT, 6, 1⟩
def TWP_STAT_PARTIAL : Fd := ⟨A.TWP_STAT, 5, 1⟩
def TWP_STAT_PEC_ERR : Fd := ⟨A.TWP_STAT, 4, 1⟩
def TWP_STAT_TIMEOUT : Fd := ⟨A.TWP_STAT, 3, 1⟩
def TWP_STAT_MISSTOP : Fd := ⟨A.TWP_STAT, 2, 1⟩
def TWP_STAT_MISSTART : Fd := ⟨A.TWP_STAT, 1, 1⟩
def TWP_STAT_BUSY : Fd := ⟨A.TWP_STAT, 0, 1⟩
def TWP_ALERT_REQ : Fd := ⟨A.TWP_ALERT, 11, 1⟩
def TWP_ALERT_DRIVE : Fd := ⟨A.TWP_ALERT, 10, 1⟩
def TWP_ALERT_ANSWERED : Fd := ⟨A.TWP_ALERT, 9, 1⟩
def TWP_ALERT_PRIO_MODE : Fd := ⟨A.TWP_ALERT, 8, 1⟩
def TWP_ALERT_PRIO : Fd := ⟨A.TWP_ALERT, 0, 6⟩
def TWP_PAGE_PAGE : Fd := ⟨A.TWP_PAGE, 0, 8⟩
def TWP_WBASE_BASE : Fd := ⟨A.TWP_WBASE, 2, 30⟩
def TWP_CNT_XFERS : Fd := ⟨A.TWP_CNT, 16, 16⟩
def TWP_CNT_ARA_WON : Fd := ⟨A.TWP_CNT, 0, 16⟩
def TMR_CTRL_EVEN (i : Nat) : Fd := ⟨A.TMR_CTRL i, 8, 6⟩
def TMR_CTRL_PS (i : Nat) : Fd := ⟨A.TMR_CTRL i, 4, 4⟩
def TMR_CTRL_DBGLF (i : Nat) : Fd := ⟨A.TMR_CTRL i, 1, 1⟩
def TMR_CTRL_RUN (i : Nat) : Fd := ⟨A.TMR_CTRL i, 0, 1⟩
def TMR_STAT_EVLOST (i : Nat) : Fd := ⟨A.TMR_STAT i, 14, 1⟩
def TMR_STAT_LF (i : Nat) : Fd := ⟨A.TMR_STAT i, 13, 1⟩
def TMR_STAT_PEND_TOP (i : Nat) : Fd := ⟨A.TMR_STAT i, 12, 1⟩
def TMR_STAT_PEND_B (i : Nat) : Fd := ⟨A.TMR_STAT i, 11, 1⟩
def TMR_STAT_PEND_A (i : Nat) : Fd := ⟨A.TMR_STAT i, 10, 1⟩
def TMR_STAT_INB (i : Nat) : Fd := ⟨A.TMR_STAT i, 9, 1⟩
def TMR_STAT_INA (i : Nat) : Fd := ⟨A.TMR_STAT i, 8, 1⟩
def TMR_STAT_OUTB (i : Nat) : Fd := ⟨A.TMR_STAT i, 7, 1⟩
def TMR_STAT_OUTA (i : Nat) : Fd := ⟨A.TMR_STAT i, 6, 1⟩
def TMR_STAT_OVRB (i : Nat) : Fd := ⟨A.TMR_STAT i, 5, 1⟩
def TMR_STAT_OVRA (i : Nat) : Fd := ⟨A.TMR_STAT i, 4, 1⟩
def TMR_STAT_FULLB (i : Nat) : Fd := ⟨A.TMR_STAT i, 3, 1⟩
def TMR_STAT_FULLA (i : Nat) : Fd := ⟨A.TMR_STAT i, 2, 1⟩
def TMR_STAT_MATCH (i : Nat) : Fd := ⟨A.TMR_STAT i, 1, 1⟩
def TMR_STAT_WRAP (i : Nat) : Fd := ⟨A.TMR_STAT i, 0, 1⟩
def TMR_COUNT_COUNT (i : Nat) : Fd := ⟨A.TMR_COUNT i, 0, 32⟩
def TMR_TOP_TOP (i : Nat) : Fd := ⟨A.TMR_TOP i, 0, 32⟩
def TMR_CMPA_CMP (i : Nat) : Fd := ⟨A.TMR_CMPA i, 0, 32⟩
def TMR_CMPB_CMP (i : Nat) : Fd := ⟨A.TMR_CMPB i, 0, 32⟩
def TMR_CAPA_CAP (i : Nat) : Fd := ⟨A.TMR_CAPA i, 0, 32⟩
def TMR_CAPB_CAP (i : Nat) : Fd := ⟨A.TMR_CAPB i, 0, 32⟩
def TMR_CHCFG_FILTB (i : Nat) : Fd := ⟨A.TMR_CHCFG i, 20, 4⟩
def TMR_CHCFG_FILTA (i : Nat) : Fd := ⟨A.TMR_CHCFG i, 16, 4⟩
def TMR_CHCFG_WACTB (i : Nat) : Fd := ⟨A.TMR_CHCFG i, 12, 2⟩
def TMR_CHCFG_WACTA (i : Nat) : Fd := ⟨A.TMR_CHCFG i, 4, 2⟩
def TMR_CHCFG_ACTB (i : Nat) : Fd := ⟨A.TMR_CHCFG i, 10, 2⟩
def TMR_CHCFG_ACTA (i : Nat) : Fd := ⟨A.TMR_CHCFG i, 2, 2⟩
def TMR_CHCFG_MODEB (i : Nat) : Fd := ⟨A.TMR_CHCFG i, 8, 2⟩
def TMR_CHCFG_MODEA (i : Nat) : Fd := ⟨A.TMR_CHCFG i, 0, 2⟩
def TMR_CMD_FORCE_B (i : Nat) : Fd := ⟨A.TMR_CMD i, 6, 2⟩
def TMR_CMD_FORCE_A (i : Nat) : Fd := ⟨A.TMR_CMD i, 4, 2⟩
def TMR_CMD_LOAD_B (i : Nat) : Fd := ⟨A.TMR_CMD i, 1, 1⟩
def TMR_CMD_LOAD_A (i : Nat) : Fd := ⟨A.TMR_CMD i, 0, 1⟩
def PWR_MODE_MODE : Fd := ⟨A.PWR_MODE, 0, 2⟩
def PWR_STAT_STATE : Fd := ⟨A.PWR_STAT, 8, 2⟩
def PWR_STAT_LOGIC_OK : Fd := ⟨A.PWR_STAT, 7, 1⟩
def PWR_STAT_MEM_OK : Fd := ⟨A.PWR_STAT, 6, 1⟩
def PWR_STAT_OSC_OK : Fd := ⟨A.PWR_STAT, 5, 1⟩
def PWR_STAT_REG_OK : Fd := ⟨A.PWR_STAT, 4, 1⟩
def PWR_STAT_ENTERING : Fd := ⟨A.PWR_STAT, 3, 1⟩
def PWR_LASTENT_UNIT : Fd := ⟨A.PWR_LASTENT, 16, 8⟩
def PWR_LASTENT_UNIT_VALID : Fd := ⟨A.PWR_LASTENT, 15, 1⟩
def PWR_LASTENT_CAUSE : Fd := ⟨A.PWR_LASTENT, 8, 4⟩
def PWR_LASTENT_MODE : Fd := ⟨A.PWR_LASTENT, 0, 2⟩
def PWR_CNT_REFUSED : Fd := ⟨A.PWR_CNT, 16, 16⟩
def PWR_CNT_ABORTED : Fd := ⟨A.PWR_CNT, 0, 16⟩
def PWR_WAKE_PMEV : Fd := ⟨A.PWR_WAKE, 8, 1⟩
def PWR_WAKE_LINK : Fd := ⟨A.PWR_WAKE, 7, 1⟩
def PWR_WAKE_HOST : Fd := ⟨A.PWR_WAKE, 6, 1⟩
def PWR_WAKE_TWP : Fd := ⟨A.PWR_WAKE, 5, 1⟩
def PWR_WAKE_TIMER : Fd := ⟨A.PWR_WAKE, 4, 1⟩
def PWR_WAKE_CMP : Fd := ⟨A.PWR_WAKE, 0, 4⟩
def PWR_WAKESRC_SRC : Fd := ⟨A.PWR_WAKESRC, 0, 9⟩
def PWR_TWAKE_UNITS : Fd := ⟨A.PWR_TWAKE, 0, 16⟩
def PWR_RETAIN_MODE : Fd := ⟨A.PWR_RETAIN, 30, 2⟩
def PWR_RETAIN_COUNT : Fd := ⟨A.PWR_RETAIN, 16, 10⟩
def PWR_RETAIN_BANKS : Fd := ⟨A.PWR_RETAIN, 0, 16⟩
def CMP_CTRL_EN (i : Nat) : Fd := ⟨A.CMP_CTRL i, 31, 1⟩
def CMP_CTRL_POL (i : Nat) : Fd := ⟨A.CMP_CTRL i, 30, 1⟩
def CMP_CTRL_HYST (i : Nat) : Fd := ⟨A.CMP_CTRL i, 28, 2⟩
def CMP_CTRL_FILT (i : Nat) : Fd := ⟨A.CMP_CTRL i, 24, 4⟩
def CMP_CTRL_THR (i : Nat) : Fd := ⟨A.CMP_CTRL i, 0, 10⟩
def CMP_STAT_OUT : Fd := ⟨A.CMP_STAT, 4, 4⟩
def CMP_STAT_TRIP : Fd := ⟨A.CMP_STAT, 0, 4⟩
def SYS_RST_CMD : Fd := ⟨A.SYS_RST, 0, 16⟩
def SYS_RST_STAT_XLO_OK : Fd := ⟨A.SYS_RST_STAT, 7, 1⟩
def SYS_RST_STAT_EARLY_WR : Fd := ⟨A.SYS_RST_STAT, 4, 1⟩
def SYS_RST_STAT_DEEP : Fd := ⟨A.SYS_RST_STAT, 3, 1⟩
def SYS_RST_STAT_SOFT : Fd := ⟨A.SYS_RST_STAT, 2, 1⟩
def SYS_RST_STAT_PIN : Fd := ⟨A.SYS_RST_STAT, 1, 1⟩
def SYS_RST_STAT_POR : Fd := ⟨A.SYS_RST_STAT, 0, 1⟩
def SYS_STRAP_HEAD : Fd := ⟨A.SYS_STRAP, 9, 1⟩
def SYS_STRAP_STANDBY : Fd := ⟨A.SYS_STRAP, 8, 1⟩
def SYS_STRAP_ROLE_BAD : Fd := ⟨A.SYS_STRAP, 7, 1⟩
def SYS_STRAP_ADR2 : Fd := ⟨A.SYS_STRAP, 4, 2⟩
def SYS_STRAP_ADR1 : Fd := ⟨A.SYS_STRAP, 2, 2⟩
def SYS_STRAP_ADR0 : Fd := ⟨A.SYS_STRAP, 0, 2⟩
def SYS_BOOT_TIME_US : Fd := ⟨A.SYS_BOOT_TIME, 0, 24⟩
def SYS_FAULT_SAFE_UNIT : Fd := ⟨A.SYS_FAULT, 16, 8⟩
def SYS_FAULT_SAFE_CLASS : Fd := ⟨A.SYS_FAULT, 12, 4⟩
def SYS_FAULT_PF_RESTART : Fd := ⟨A.SYS_FAULT, 4, 1⟩
def SYS_FAULT_PFAIL : Fd := ⟨A.SYS_FAULT, 3, 1⟩
def SYS_FAULT_STORM : Fd := ⟨A.SYS_FAULT, 2, 1⟩
def SYS_FAULT_RECOVERING : Fd := ⟨A.SYS_FAULT, 1, 1⟩
def SYS_FAULT_SAFE : Fd := ⟨A.SYS_FAULT, 0, 1⟩
def SYS_FSTORM_UNIT : Fd := ⟨A.SYS_FSTORM, 16, 8⟩
def SYS_FSTORM_COUNT : Fd := ⟨A.SYS_FSTORM, 0, 16⟩
def SYS_FHELD_HELD (i : Nat) : Fd := ⟨A.SYS_FHELD i, 0, 32⟩
def SYS_FLT_PRI_VALID (i : Nat) : Fd := ⟨A.SYS_FLT_PRI i, 31, 1⟩
def SYS_FLT_PRI_CLASS (i : Nat) : Fd := ⟨A.SYS_FLT_PRI i, 24, 4⟩
def SYS_FLT_PRI_CODE (i : Nat) : Fd := ⟨A.SYS_FLT_PRI i, 16, 8⟩
def SYS_FLT_PRI_DATA (i : Nat) : Fd := ⟨A.SYS_FLT_PRI i, 0, 16⟩
def SYS_FLT_PRIPM_PM (i : Nat) : Fd := ⟨A.SYS_FLT_PRIPM i, 0, 32⟩
def SYS_FLT_SEC_VALID (i : Nat) : Fd := ⟨A.SYS_FLT_SEC i, 31, 1⟩
def SYS_FLT_SEC_CLASS (i : Nat) : Fd := ⟨A.SYS_FLT_SEC i, 24, 4⟩
def SYS_FLT_SEC_CODE (i : Nat) : Fd := ⟨A.SYS_FLT_SEC i, 16, 8⟩
def SYS_FLT_SEC_DATA (i : Nat) : Fd := ⟨A.SYS_FLT_SEC i, 0, 16⟩
def SYS_FLT_SECPM_PM (i : Nat) : Fd := ⟨A.SYS_FLT_SECPM i, 0, 32⟩
def DAYB_STAT_LOST : Fd := ⟨A.DAYB_STAT, 1, 1⟩
def DAYB_STAT_READY : Fd := ⟨A.DAYB_STAT, 0, 1⟩
def DAYB_BASE_ADDR : Fd := ⟨A.DAYB_BASE, 0, 32⟩
def DAYB_WR_IDX : Fd := ⟨A.DAYB_WR, 0, 16⟩
def DAYB_SEQ_SEQ : Fd := ⟨A.DAYB_SEQ, 0, 32⟩
def DAYB_CNT_LOST : Fd := ⟨A.DAYB_CNT, 16, 16⟩
def DAYB_CNT_WRAPS : Fd := ⟨A.DAYB_CNT, 0, 16⟩
def DLF_STAT_FLUSHING : Fd := ⟨A.DLF_STAT, 3, 1⟩
def DLF_STAT_FLUSH_BAD : Fd := ⟨A.DLF_STAT, 2, 1⟩
def DLF_STAT_RELOADED : Fd := ⟨A.DLF_STAT, 1, 1⟩
def DLF_STAT_FROZEN : Fd := ⟨A.DLF_STAT, 0, 1⟩
def DLF_SEQ_FLUSHSEQ : Fd := ⟨A.DLF_SEQ, 0, 32⟩
def DLF_REASON_REASON : Fd := ⟨A.DLF_REASON, 0, 8⟩
def DLF_PM_LO_PM : Fd := ⟨A.DLF_PM_LO, 0, 32⟩
def DLF_PM_HI_PM : Fd := ⟨A.DLF_PM_HI, 0, 32⟩
def DLF_CNT_FLUSHES : Fd := ⟨A.DLF_CNT, 16, 16⟩
def DLF_CNT_RELOADED : Fd := ⟨A.DLF_CNT, 0, 16⟩
def SYS_PIN_TMEN_TMEN : Fd := ⟨A.SYS_PIN_TMEN, 0, 32⟩
def SYS_PIN_TMPULL_TMPULL : Fd := ⟨A.SYS_PIN_TMPULL, 0, 32⟩
def SYS_PIN_CFG_MEN : Fd := ⟨A.SYS_PIN_CFG, 0, 8⟩
def SYS_HOLD_CHARGED : Fd := ⟨A.SYS_HOLD, 16, 1⟩
def SYS_HOLD_MV : Fd := ⟨A.SYS_HOLD, 0, 10⟩
end F

/-- The value a field has at reset where the spec gives a fused or instance-dependent one in place of a number
(R80, R164, R184, R196; fused values are free constants of Config). -/
def specialReset (base lo i : Nat) (dflt : Nat) : Nat :=
  match base, lo with
  | 0x10100008, 0 => (Config.stepping).toNat  -- SYS_ID
  | 0x10100120, 1 => (Config.sigRequired).toNat  -- SYS_RMAP_FUSE
  | 0x10100120, 0 => (Config.keyPresent).toNat  -- SYS_RMAP_FUSE
  | 0x1007c004, 0 => (Config.floorPace).toNat  -- PACE_FLOOR
  | 0x1007c020, 16 => (Config.fcurveHi i).toNat  -- PACE_FCURVE
  | 0x1007c020, 0 => (Config.fcurveLo i).toNat  -- PACE_FCURVE
  | 0x10071808, 0 => (Config.uidLo).toNat  -- CAS_UID_LO
  | 0x1007180c, 0 => (Config.uidHi).toNat  -- CAS_UID_HI
  | 0x10102004, 0 => if isFixedMask i then 0xFFFFFF else 0
  | 0x10061008, 0 => i
  | 0x10000000, 2 => if i = 0 then 0 else dflt  -- PMC_CTRL: [2] is reserved
  | 0x10061028, 0 => Config.resetCoefCrc
  | _, _ => dflt

/-- The table rows that may lie in the 4 KiB block of an address (R8, R425): a coarse index of the table. -/
def blockDefs (a : Nat) : List RegDef :=
  if 0x10100000 ≤ a then
    if a < 0x10102000 then regDefsSYS ++ regDefsPWR ++ regDefsCMP
    else if a < 0x10103000 then regDefsARB else regDefsSYS
  else
    let u := (a - 0x10000000) / 0x1000
    if u ≤ 0x40 then regDefsSRT else if u ≤ 0x60 then regDefsFL else if u ≤ 0x70 then regDefsFC
    else if u ≤ 0x74 then regDefsCAS else if u = 0x75 then regDefsHOST else if u = 0x76 then regDefsTWP
    else if u = 0x77 then regDefsGATE else if u = 0x78 then regDefsTREND else if u = 0x79 then regDefsTT ++ regDefsTTP
    else if u = 0x7A then regDefsLEDG else if u = 0x7B then regDefsPIGN else if u = 0x7C then regDefsPACE
    else if u = 0x7D then regDefsTMR else if u = 0x7E then regDefsDAYB else if u = 0x7F then regDefsDLF else []

/-- The table row and the instance index of the register at host address `a`; none where R7 holds (R422, R426). -/
def findReg (a : Nat) : Option (RegDef × Nat) :=
  if a < 0x10000000 ∨ 0x10110000 ≤ a then none
  else (blockDefs a).findSome? (fun d => (d.index a).map (fun i => (d, i)))

/-- The reset value of the register at host address `a` (0 where there is none). A banked copy lies 2^32 above (R86, R296). -/
def resetWord (a : Nat) : BitVec 32 :=
  match findReg (a % 0x100000000) with
  | none => 0
  | some (d, i) => BitVec.ofNat 32 (d.fields.foldl (fun w f => w + specialReset d.base f.lo i f.reset * 2 ^ f.lo) 0)

end Sys2Proof.Machine
end

