-- ==== Sys2Proof/Machine/State.lean ====
section
/-!
DEFINITION. The state of the CX9620: every register (one sparse register file under the tables of RegTable.lean), the two
memories, the queue of commands that wait, and what each unit holds beside its registers; and the state right after reset.
-/

namespace Sys2Proof.Machine

/-- What the pace governor and the sensor keep beside their registers (03, R46, R48, R50, R52, R53). -/
structure Pace where
  lowCount  : Nat    -- low_count of R46
  prevShort : Bool   -- the last window was short (R48)
  polUsed   : Nat    -- POLICY as it stood at the last loop step (R50)
  vcapUsed  : Nat    -- VCAP as it stood at the last loop step (R50)
  hotRun    : Nat    -- successive readings at +135 °C or above, counted to 3 (R53)
  below     : Bool   -- the last reading lay below LIMIT, or there is none since OSC_OK (R52)
  armed     : Bool   -- a reading has lain below LIMIT − 8 since the last temperature event, or there is none since OSC_OK (R52)
  deriving DecidableEq, Repr

/-- What one request carries to one place on its bank: the first address, the length in bytes, the bytes of a write (none for a read),
beats still to carry. -/
structure BusPiece where
  addr  : Nat
  len   : Nat
  data  : Option (List Byte)
  beats : Nat
  deriving DecidableEq, Repr

/-- A request that stands on a post-bus bank (R76, R77): its unit, whether it is priority-0 work, what it carries, oldest first, and
the timebase when it was raised, kept until its first beat (R232). -/
structure BusReq where
  unit   : Nat
  ahead  : Bool
  pieces : List BusPiece
  since  : Option Nat
  deriving DecidableEq, Repr

/-- A grant delivered and not yet begun (R76): the request it goes to, and the burst limit in force (R84). -/
structure Grant where
  unit  : Nat
  ahead : Bool
  burst : Nat
  deriving DecidableEq, Repr

/-- One bank arbiter (R75 to R79). -/
structure Arb where
  reqs    : List BusReq
  turn    : List Nat      -- units granted in the current turn
  owner   : Option Nat    -- present owner of the bank
  granted : Option Grant
  deriving DecidableEq, Repr

/-- What the cells of a line hold until a program replaces it: its address, its bytes, its turned cells. -/
structure OldLine where
  line  : Nat
  data  : List Byte
  flips : List Flip
  deriving DecidableEq, Repr

/-- A line in a ledger bank's write buffer (R62): what stays in the cells until its program ends, and its writer. -/
structure BufLine where
  cells  : OldLine
  writer : Nat
  deriving DecidableEq, Repr

inductive TxnPhase where
  | opened      -- open, lines gathered (R69)
  | committing  -- phase 1 (R70)
  | committed   -- past the commit point, not retired (R70, R71)
  deriving DecidableEq, Repr

/-- What a commit brings about beside its lines. -/
inductive TxnThen where
  | none
  | seal (core : Nat)                                       -- R246
  | node (port : Nat)                                       -- R129, R140, Table 6.3
  deriving DecidableEq, Repr

/-- A ledger transaction (R69, R70): its owner's unit ID, the whole image of each line it wrote, whether another writer wrote one; past
the commit point, what the lines' home cells still hold. -/
structure Txn where
  owner    : Nat
  serial   : Nat
  phase    : TxnPhase
  lines    : List (Nat × List Byte)
  conflict : Bool
  act      : TxnThen
  homes    : List OldLine
  deriving DecidableEq, Repr

/-- What is held (R71, R72): a write, with the serial of the transaction it is to enter, if any; or the COMMIT that follows such writes. -/
inductive HeldOp where
  | write (writer addr : Nat) (data : List Byte) (txn : Option Nat)
  | commit (writer : Nat)
  deriving DecidableEq, Repr

/-- A line of the journal (R67, R70). -/
inductive JrnlEntry where
  | image (serial line : Nat) (data : List Byte)
  | commit (serial owner : Nat) (lines : List Nat)
  | retire (serial : Nat)
  | move (block old new : Nat)
  | moveRetire (block : Nat)
  deriving DecidableEq, Repr

/-- How far the move of a block has come (R67): its lines are being copied, its move record programmed, the block map in the system records,
its retire record. -/
inductive MoveStage where
  | copy | record | map | retire
  deriving DecidableEq, Repr

/-- A move of a logical block to a physical block (R67); `retired` tells that the old block leaves service (R68). -/
structure Move where
  block   : Nat
  old     : Nat
  new     : Nat
  retired : Bool
  stage   : MoveStage
  deriving DecidableEq, Repr

/-- A record of the system records area still being programmed (R427). -/
inductive RecordKind where
  | fresh (port value : Nat)   -- R104
  | serial (value : Nat)        -- R207
  | cascadeId (value : Nat)     -- R286
  deriving DecidableEq, Repr

/-- The ledger controller and the pigeonhole controller beside their registers (04). -/
structure Ledger where
  bufs      : List (List BufLine)   -- eight write buffers, oldest first (R62)
  flips     : List Flip             -- cells whose bit has turned since they were programmed (R63, R65)
  txns      : List Txn              -- R69, R70
  nextTxn   : Nat                   -- next 32-bit transaction serial (R70)
  held      : List HeldOp           -- R71, R72
  verify    : List Verify           -- what the verifies of the commit, retirement or flush in progress have found, oldest first (R68)
  failed    : List Nat              -- writers of failed writes, oldest first: their report (R68)
  wear      : List (Nat × Nat)      -- program count of each physical line, 0 where unlisted (R67)
  maxWear   : Nat                   -- highest line program count (R67)
  blockMap  : List (Nat × Nat)      -- logical to physical block, itself where unlisted (R67)
  spares    : List Nat              -- free physical blocks (R67, R68)
  moves     : List Move             -- the move in progress, then those that wait for it (R67, R68)
  jrnlPos   : Nat                   -- next line of the journal ring (R70)
  journal   : List (Nat × JrnlEntry) -- by place in the ring, never written where unlisted (R70)
  recPend   : List RecordKind       -- records being programmed (R427)
  scrubPtr  : Nat                   -- next beat of the patrol (R65)
  deriving DecidableEq, Repr

/-- The device's own records that outlive power (R427): contents, not their layout. -/
structure Records where
  serial   : Option Nat                    -- serial block boundary stored (R207)
  fresh    : List (Option Nat)             -- FRESH stored for each port (R104)
  casId    : Option Nat                    -- cascade ID (R286)
  flush    : Option (Nat × Nat × Nat × Nat)  -- FLUSHSEQ, REASON, PM, CRC-32 of the flush (R379)
  map      : Option (List (Nat × Nat))     -- the wear-leveller's block map as last stored (R67, R427)
  deriving DecidableEq, Repr

/-- A day-book entry that waits in the writer's queue (R381, R382); its SEQ is given when it is written. -/
structure DayEntry where
  pm   : Nat
  unit : Nat
  code : Nat
  aux  : Nat
  data : Nat
  deriving DecidableEq, Repr

/-- Fault handling, the day-book writer and the dead-letter engine beside their registers (18). -/
structure Faults where
  dayQ     : List DayEntry      -- at most 32 (R381)
  dayLost  : Nat                -- entries lost since the last LOST entry (R381)
  tailIdx  : Nat                -- TAILIDX, 0 to 495 (R377)
  stormAt  : List (Nat × Nat)   -- postmark of the last storm of a unit (R368)
  resets   : List Nat           -- units whose reset is in progress (R366, R371)
  check    : List Nat           -- of these, units recovering from a CHECK fault (R366)
  recov    : List Nat           -- units with an open recovery interval; 0x100 for the device, 0x110 + n for link n (R372)
  pmTaken  : Bool               -- the postmaster has taken a FAULT or STORM record since its last SEAL or WAIT (R369)
  flushSeq : Nat                -- FLUSHSEQ of the freeze in force (R378)
  deriving DecidableEq, Repr

/-- An offer that awaits the gatekeeper's decision (R204): the offerer's unit ID, the 32 bytes composed, the follow-on demand F. -/
structure Offer where
  unit : Nat
  body : List Byte
  f    : Nat
  deriving DecidableEq, Repr

/-- An open letter (R210): its 32 bytes as franked, its slot in the dead-letter ring, F, whether it was reloaded (R380), whether it is to be re-delivered (R215). -/
structure OpenLetter where
  body     : List Byte
  slot     : Nat
  f        : Nat
  reloaded : Bool
  due      : Bool
  deriving DecidableEq, Repr

/-- The gatekeeper beside its registers (10). -/
structure Gate where
  offers   : List Offer               -- in order of arrival (R204)
  opened   : List OpenLetter          -- in franking order (R210)
  log      : List (Nat × Nat)         -- class and postmark of head-office frankings, newest first (R209)
  up       : List (List (List Byte))  -- up-link pigeonholes of classes 1, 2, 3, oldest first (R212)
  kCount   : List Nat                 -- k for cores 0x00 to 0x40 (R247)
  kSkip    : List Nat                 -- offers still to be answered without franking (R247)
  fsum     : List Nat                 -- reloaded follow-on demand of each core (R380)
  upAt     : List Nat                 -- the place in each up-link pigeonhole at which the next letter is written (R212)
  stood    : Bool                     -- a path has come to stand since reset, so CRED_FREE has been set (R214)
  deriving DecidableEq, Repr

/-- What has been entered and not yet returned from (R266). -/
inductive Entry where
  | trap (depth : Nat)
  | event
  deriving DecidableEq, Repr

/-- A series of a block instruction under RPT in progress (R269, R270, R271): the block opcode it decoded. -/
inductive Series where
  | idle
  | running (b : Byte)
  deriving DecidableEq, Repr

/-- The registers of Table 11.1. -/
structure CoreRegs where
  a : Byte
  x : Byte
  y : Byte
  p : BitVec 16
  q : BitVec 16
  sp : BitVec 16
  pc : BitVec 16
  cnt : BitVec 16
  fl : Byte
  deriving DecidableEq, Repr

/-- What run-ahead may have changed and a cancellation brings back (R248). -/
structure Snap where
  r       : CoreRegs
  mem     : List (Nat × Byte)
  memBad  : List Nat
  series  : Series
  entries : List Entry
  deriving DecidableEq, Repr

/-- Run-ahead in progress (R248): the core before the read of EV_NEXT, with its EVBUF and step count, and after it; the predicted
record; private-memory writes made. -/
structure Spec where
  before : Snap
  evbuf  : List Byte
  steps  : Int
  after  : Snap
  pred   : List Byte
  writes : Nat
  deriving DecidableEq, Repr

/-- A sorter or the postmaster (11). -/
structure Core where
  r         : CoreRegs
  mem       : List (Nat × Byte)      -- private memory and vector page, 0 where unlisted (R228, R242)
  memBad    : List Nat               -- 32-bit words of private memory with a double-bit error (R228)
  steps     : Int                    -- step count (R241)
  trapSteps : Nat                    -- TRAP_STEPS of the program started (R240)
  series    : Series                 -- R269 to R271
  entries   : List Entry             -- the entry list of R266, newest first
  winBase   : Nat                    -- window base B (R229)
  stage0    : Byte                   -- staged WIN0 (R229)
  stage1    : Byte                   -- staged WIN1 (R229)
  pmLatch   : Nat                    -- value latched by PM0 (R233)
  txnConf   : Bool                   -- TXN [4] (R245)
  txnOver   : Bool                   -- TXN [5] (R245)
  txnRef    : Bool                   -- TXN [6] (R245)
  sealRes   : Bool                   -- SEAL_STAT.RESUMED (R233, R247)
  sealFail  : Bool                   -- SEAL_STAT.FAIL (R246)
  sealConf  : Bool                   -- SEAL_STAT.CONFLICT (R246)
  ltrF      : Nat                    -- LTR_F (R233)
  ltrOut    : Bool                   -- an offer awaits its decision (R238)
  ltrRes    : Nat                    -- LTR_RES (R238)
  ltrSer    : Nat                    -- LTR_SER (R238)
  evbuf     : List Byte              -- EVBUF (R233)
  ltrbuf    : List Byte              -- LTRBUF (R233)
  rbAddr    : Nat                    -- RB_ADDR (R239)
  rbLatch   : Nat                    -- value latched by a read of 0xC064 (R239)
  rbStage   : List Byte              -- bytes staged at 0xC064 to 0xC066 (R239)
  rbRef     : Bool                   -- RB_STAT (R233)
  queue     : List (List Byte)       -- records queued and not taken (R236)
  taken     : List (List Byte)       -- records taken and not sealed (R236)
  lastTaken : Option (List Byte)     -- the record last taken (R248)
  prevVals  : List (Nat × Nat)       -- value of the sample before the last, by chain (R248)
  commitHold : Bool                  -- a COMMIT or SEAL holds the core (R245, R246)
  haltPend  : Bool                   -- a halt is due (R252)
  wasWaiting : Bool                  -- the core waited when it was halted (R252, R265)
  spec      : Option Spec            -- R248
  deriving DecidableEq, Repr

/-- A reading a port engine has made and the trend unit has not yet accepted (R11, R120). -/
structure Reading where
  ep  : Nat
  raw : Nat     -- 16 bits, signed
  pm  : Nat
  deriving DecidableEq, Repr

/-- A field report taken under R126, with the node's KIND for the reason byte (R177). -/
structure Report where
  ep   : Nat
  raw  : Nat
  pm   : Nat
  kind : Nat
  deriving DecidableEq, Repr

/-- An event to be raised once its reading has committed (R174, R176): its record, and the bin when EVSORT names its sorter. -/
structure TrendEv where
  body : List Byte
  bin  : Option Nat
  deriving DecidableEq, Repr

/-- A reading accepted and not yet committed: its endpoint and postmark, the new entry, its events and what they do to LATCH, and the
addresses it read: poisoned, and not (R56). -/
structure PendRead where
  ep    : Nat
  pm    : Nat
  lo    : Nat
  hi    : Nat
  evs   : List TrendEv
  clear : Bool
  bad   : List Nat
  met   : List Nat
  deriving DecidableEq, Repr

/-- The write-back buffer of one port (R178): the readings of the line being merged, and the lines written this round. -/
structure WriteBack where
  reads : List PendRead
  done  : List Nat
  deriving DecidableEq, Repr

/-- Letters offered and not yet decided for one reading or report (R174): the endpoint whose LATCH they settle, how many
remain, whether all so far were accepted, whether LATCH is to clear. -/
structure Await where
  ep    : Option Nat
  need  : Nat
  ok    : Bool
  clear : Bool
  deriving DecidableEq, Repr

/-- The trend unit beside its registers (08). -/
structure Trend where
  backs  : List WriteBack   -- by port
  awaits : List Await       -- in the order their letters were offered
  valid  : List Nat         -- the index of valid bins (R170)
  unread : List Nat         -- bins whose line read uncorrectable and has not been written since (R170)
  deriving DecidableEq, Repr

/-- A GOOD reply: NODE, STATUS and payload (Tables 5.6, 5.8), and its postmark (R109). -/
structure HeardReply where
  node    : Nat
  status  : Nat
  payload : List Byte
  pm      : Nat
  deriving DecidableEq, Repr

/-- The commands of Table 5.9 a port engine sends. -/
inductive LineCmd where
  | readChain (first count pfirst pnum : Nat)
  | convert
  | identify (node : Nat)
  | writeCfg (node reg val : Nat)
  | search (plen pre : Nat)
  | assign (serial node : Nat)
  | letterbox (plen pre : Nat)
  | ackReport (node kind point value : Nat)
  | retire (node : Nat)
  | mute (node seconds : Nat)
  | ping (node : Nat)
  deriving DecidableEq, Repr

/-- What an exchange is for, so that its end is acted on (06). -/
inductive LineUse where
  | round                      -- the round's own exchange: CONVERT, READ_CHAIN, LETTERBOX, SEARCH
  | report (plen pre : Nat)    -- the ACK_REPORT after a LETTERBOX single (R123)
  | enrol (plen pre serial : Nat) (assigned : Bool) (kept : Option (Nat × Nat))   -- ASSIGN and IDENTIFY of an ENROL single; TYPE and POINTS of a record enrolled or quarantined before (R129)
  | check                      -- an identity check (R122)
  | follow                     -- an exchange an action asks for: PING, WRITE_CFG, MUTE, RETIRE (Tables 6.3, 6.8)
  | mailbox                    -- R140
  | probe (fence : Nat)        -- R139
  | walk                       -- R138
  deriving DecidableEq, Repr

/-- Signals of Table 5.3. -/
inductive LineStage where
  | idle | sending | lag | blank | listening
  deriving DecidableEq, Repr

/-- What the window of a node held (R119, R122). -/
inductive Window where
  | good | bad | other
  deriving DecidableEq, Repr

/-- An exchange in progress (R110, R111). -/
structure Exchange where
  cmd     : LineCmd
  use     : LineUse
  frame   : List Byte            -- bytes sent, CTRL to CRC or MAC
  fresh   : Nat                  -- FRESH of the command
  keyed   : Bool                 -- the command carried FRESH
  next    : Nat                  -- nodes of the exchange heard or declared missing
  base    : Nat                  -- index after the last node heard: k − m − 1 is next − base
  heard   : Bool                 -- E is a reply's end
  bursts  : Nat
  sds     : Nat
  single  : Option HeardReply    -- the GOOD burst of a LETTERBOX or SEARCH exchange
  reply   : Option HeardReply    -- the GOOD reply of the node of a unicast exchange
  bad     : Bool                 -- its window held a CRC_BAD or MALFORMED burst
  windows : List (Nat × Window)  -- by node, windows that held an SD
  deriving DecidableEq, Repr

/-- Kinds of round (Table 6.1). -/
inductive RoundKind where
  | read | convert | letterbox | enrol | maint
  deriving DecidableEq, Repr

/-- A round in progress (R116, R117). -/
structure Round where
  kind     : RoundKind
  bank     : Bool               -- false bank A
  slot     : Nat
  fill     : Bool
  begun    : Bool
  frames   : List LineCmd       -- frames built for the round and not yet sent (R118)
  ex       : Nat                -- LETTERBOX or SEARCH exchanges so far (R123)
  noise    : Nat                -- NOISE bursts so far (R134)
  missing  : List Nat           -- nodes whose READ window held no SD
  checks   : List Nat           -- identity checks of this round still to serve (R122)
  boxed    : Bool               -- the mailbox command has had its turn
  probes   : List Nat           -- LOST fences still to probe (R139)
  done     : Option Nat         -- postmark of the end of the last exchange
  deriving DecidableEq, Repr

/-- A queued identity check (R122): its node, DUP mark, whether RESTARTED raised it. -/
structure IdCheck where
  node      : Nat
  dup       : Bool
  restarted : Bool
  deriving DecidableEq, Repr

/-- Where a walk-out stands (R138). -/
inductive WalkStage where
  | ping | close | wait | shorted
  deriving DecidableEq, Repr

structure Walk where
  node  : Nat        -- switch node s
  stage : WalkStage
  deriving DecidableEq, Repr

/-- What a node transaction does with the address-book entries of its node (R129, R162). -/
inductive EntryEdit where
  | keep | init | retire
  deriving DecidableEq, Repr

/-- What a node transaction is still to write (R178): the node's record, and its endpoints from the first on. -/
structure NodeTodo where
  data  : List Byte
  edit  : EntryEdit
  first : Nat
  count : Nat
  deriving DecidableEq, Repr

/-- A node transaction in progress (R129, R140, Table 6.3): node, and the event its commit brings, if any: kind and endpoint; what it is to
write, while it waits for earlier readings of the node's endpoints (R178). -/
structure NodeTxn where
  node  : Nat
  event : Option (Nat × Nat)
  todo  : Option NodeTodo
  deriving DecidableEq, Repr

/-- Frames built ahead for one slot (R118, R148). -/
structure Built where
  bank   : Bool
  slot   : Nat
  fill   : Bool
  frames : List LineCmd
  deriving DecidableEq, Repr

/-- A port engine beside its registers (05, 06). -/
structure Port where
  stage    : LineStage
  lead     : Nat                        -- reference periods of DE_LEAD passed since DE rose (R90)
  acc      : Nat                        -- 32-bit phase accumulator (R95)
  half     : Nat                        -- half-bits of the frame sent since its preamble began (R92)
  rx       : Option Burst               -- samples of a burst that is not classed yet (R96, R429)
  deaf     : Bool                       -- a FOREIGN or MALFORMED burst goes on until the line is quiet (R108, R429)
  stop     : Bool                       -- EN was cleared: the port stops when the exchange in progress ends (R149)
  xchg     : Option Exchange
  want     : List (LineCmd × LineUse)   -- exchanges to run next, in order
  wait     : Option Nat                 -- since when a yield or back-off wait has run (R134)
  yieldDue : Bool                       -- a FOREIGN burst was received since the last command (R134)
  round    : Option Round
  built    : List Built
  lbStack  : List (Nat × Nat)           -- R123
  lbTotal  : Nat                        -- LETTERBOX exchanges of the resolution
  enStack  : List (Nat × Nat)           -- R129
  checks   : List IdCheck               -- R122
  repeats  : List (Nat × Nat × Nat × Nat)  -- node, KIND, POINT, VALUE (R126)
  miss     : List (Nat × Nat)           -- consecutive READ rounds without an SD (R121)
  absent   : List Nat                   -- R121
  dup      : List (Nat × Nat)           -- consecutive READ rounds of the duplicate watch (R122)
  readings : List Reading               -- not yet accepted by the trend unit (R11)
  reports  : List Report
  txn      : Option NodeTxn
  walk     : Option Walk
  fltClear : Bool                       -- FLT has been low for FILT since the last fault (R137)
  restart  : Bool                       -- a RESTART is held (R137)
  probeAt  : Nat                        -- fence after the one probed last (R139)
  key      : Option (List Byte × List Byte)   -- K_PORT and KEYED in force (R103, R106)
  deriving DecidableEq, Repr


/-- Where a port's pass stands (R145, R146). -/
inductive PassMode where
  | idle   -- no pass in progress
  | pass
  | gate   -- waiting at the pass gate
  deriving DecidableEq, Repr

structure Pass where
  mode    : PassMode
  ran     : Bool          -- a pass has started since reset
  report  : Bool          -- the figures of the pass are to be loaded (R156)
  start   : Nat           -- postmark of the start of the present or last pass
  last    : Nat           -- postmark of the boundary of its last slot's round
  pos     : Option Nat    -- slot last started in the pass
  fillPos : Option Nat    -- FILL slot last started in the wait
  opened  : Bool          -- MIN has elapsed (R146)
  holdT   : Nat           -- R156, in postmark LSB
  yieldT  : Nat
  deriving DecidableEq, Repr

/-- The timetable sequencer beside its registers (07): both banks by 6144 × bank + slot, 0 where unlisted; the held edit. -/
structure Sequencer where
  slots  : List (Nat × Nat)
  edit   : Option (Nat × Nat)   -- slot of the active bank, new contents
  passes : List Pass            -- by port
  pick   : Bool                 -- while a COPY runs, the selected slot is returned with its copied contents (R150)
  deriving DecidableEq, Repr


/-- An overload of a source: its first tick and, once over, its last (R183, R191). -/
structure Ovl where
  first : Nat
  last  : Option Nat
  deriving DecidableEq, Repr

/-- A source (R182, R183): its bits in runs, newest first, up to a tick; whether it is in overload; the overloads it has met. -/
structure Source where
  tick : Nat
  hist : List (Bool × Nat)
  ovl  : Bool
  ovls : List Ovl
  deriving DecidableEq, Repr

/-- A filter chain beside its registers (09). -/
structure Chain where
  run     : Bool                    -- the pipeline computes (R194, R195)
  start   : Nat                     -- tick n0 of the start (R184, R194)
  reads   : List (Nat × Nat)        -- the sources read since, newest first: from a tick, a source (R197)
  nextQ   : Nat                     -- index q of the next output instant (R185, R186)
  skips   : List (Nat × Nat)        -- instants passed over: from an index to before another (R198)
  fir     : List (Nat × Nat)        -- FIR coefficients, the reset table where unlisted (R196)
  res     : List (Nat × Nat)        -- resampler coefficients, 0 where unlisted (R196)
  fifo    : List (List Byte)        -- output FIFO, oldest first (R192)
  gap     : Bool                    -- the next record that enters the FIFO carries GAP (R192, R198)
  lastPm  : Nat                     -- postmark of the last output (R193)
  deriving DecidableEq, Repr


/-- A Birmo link port beside its registers (13). -/
structure Link where
  tx      : List (List Byte)   -- frames waiting, TYPE to the end of the payload, in order of arrival (R282)
  wire    : List Byte          -- the frame in progress, TYPE to CRC, none after an idle boundary
  since   : Nat                -- symbols sent since the last SKIP (R277)
  skip    : Bool               -- a SKIP goes before what is being sent (R277)
  partner : Option Nat         -- UID of the partner last met in training (R293)
  lock    : Bool               -- word lock gained in training (R278)
  paused  : Bool               -- the pause of 100 ms between training attempts (R278)
  outage  : Option Nat         -- postmark at which the outage in progress began (R293)
  silent  : Bool               -- LK0: a loss came of missing SYNC while the port stayed ACTIVE (R293)
  hello   : Option Nat         -- down port: UID whose HELLO went up as an ENROL (R285, R287)
  deriving DecidableEq, Repr

/-- An entry of the ID table beside its number (R286). -/
structure IdEntry where
  uid   : Nat
  st    : Nat
  depth : Nat
  deriving DecidableEq, Repr

/-- The cascade beside its registers (13). -/
structure Estate where
  route    : List (Nat × Nat)       -- route table, 0 where unlisted (R284)
  fixed    : Option Nat             -- the ID that the CASCADE section fixes (R280)
  lastId   : Option Nat             -- the ID offered with HAVE_ID (R286, R287)
  waiting  : Bool                   -- a HELLO awaits its WELCOME (R287)
  welcomed : Bool                   -- the last WELCOME was OK (R287)
  exch     : Bool                   -- a time exchange has completed since LK0 became ACTIVE (R287)
  integ    : Int                    -- f (R290)
  goodRun  : Nat                    -- exchanges in a row within 20 ns (R290)
  stepped  : Bool                   -- the timebase has stepped since the last link-up or RESYNC (R291)
  sync     : Option (Nat × Nat)     -- T1, T2
  dreq     : Option Nat             -- T3
  mirror   : List (Nat × IdEntry)   -- the standby's copy of the ID table, by ID (R297)
  copied   : Bool                   -- it holds every non-free entry (R297)
  takeover : Bool                   -- the standby was armed when its LK0 failed (R297)
  standbys : List Nat               -- head office: IDs of the standbys enrolled at DEPTH 1 (R297)
  tag      : Nat                    -- TAG of the last RA_REQ sent (R296)
  raOpen   : List (Option Nat)      -- TAG of the open request of the host port, the management port, the postmaster
  deriving DecidableEq, Repr



/-- A posted access of the host port (R308): a byte of memory, or a whole register word. -/
inductive Posted where
  | byte (addr : Nat) (b : Byte)
  | word (addr : Nat) (v : Word)
  deriving DecidableEq, Repr

/-- What the device sends behind the bytes of a command (Table 14.1): nothing, the status byte as it stands, or 0x00. -/
inductive HostMore where
  | none | status | zero
  deriving DecidableEq, Repr

/-- The host port beside its registers (14). -/
structure HostPort where
  low     : Bool           -- HCS_N is low
  busy    : Bool           -- the opcode of the command in progress has been taken
  discard : Bool           -- the command in progress only woke the device (Table 16.5)
  armed   : Bool           -- the next command may be RESET (Table 14.1)
  posted  : List Posted    -- posted accesses not yet applied, oldest first
  partAt  : Option Nat     -- a register word whose bytes are incomplete so far: the address of its first byte sent
  erred   : Bool           -- the command in progress has set an error flag
  out     : List Byte      -- data bytes the last command sent
  more    : HostMore       -- what it goes on sending until HCS_N rises
  wide    : Bool           -- the phases after its opcode use four lines (R304)
  stream  : Option Nat     -- the address at which its read stream began (R306)
  deriving DecidableEq, Repr

/-- What the management port awaits (R311 to R320). -/
inductive TwpStage where
  | idle      -- a START
  | address   -- an address byte
  | write     -- a byte to be written
  | read      -- a byte to be sent
  | lost      -- the rest of the transaction is not for this port
  deriving DecidableEq, Repr

/-- A data byte that PEC still guards, with the window base and the page in force when it came (R316, R322). -/
structure HeldByte where
  data : Byte
  base : Nat
  page : Nat
  deriving DecidableEq, Repr

/-- The management port beside its registers (14). -/
structure Twp where
  stage   : TwpStage
  seen    : List Byte         -- bytes the next PEC covers (R316)
  first   : Bool              -- the next written byte sets the pointer
  ptr     : Nat               -- R312
  held    : List HeldByte     -- PEC in use: data bytes of the write segment not yet applied
  staged  : List (Nat × Byte) -- memory bytes of the present 16-byte group (R313)
  word    : List Byte         -- bytes of the register word being written, from its offset 0
  wordAt  : Nat               -- its host address
  latchAt : Option Nat        -- the word or letter read once: host address of a window word, 2^32 for the outbox letter, else 2^33 and more
  latch   : List Byte
  count   : Nat               -- data bytes sent since the last PEC
  drive   : Bool              -- DRIVE stood at 1 at the START (R318)
  rank    : Nat               -- RANK of the letters held at the START (R319, Table 14.5)
  counted : Bool              -- the transaction has counted in XFERS
  stretch : Bool              -- SCL is held low until LOGIC_OK (Table 16.7)
  out     : List Byte         -- bytes sent since the START
  deriving DecidableEq, Repr

/-- A timer unit beside its registers (R324): residue, active TOP and active compare values; what its pins bring (R330). -/
structure TimerUnit where
  residue : Nat
  top     : Nat
  cmpA    : Nat
  cmpB    : Nat
  pinA    : Bool    -- level on TMuuA
  pinB    : Bool
  runA    : Nat     -- samples in a row at which TMuuA stood away from its filtered level
  runB    : Nat
  deriving DecidableEq, Repr

/-- The timers block: its units, the place in a period of the 32.768 kHz crystal, 0 to 511 reference periods (R325), and the pins that have taken
their safe levels (R333). -/
structure Timers where
  units    : List TimerUnit
  lfPhase  : Nat
  safePins : List Nat
  deriving DecidableEq, Repr


/-- How far start-up or an exit has come (R349, R356), or what holds the device in reset (R353, R354, R374). -/
inductive Phase where
  | coldHold     -- a rail is below its threshold (R353)
  | resetHold    -- held in reset: RST_N low, or PFAIL_N low after its flush (R354, R374)
  | regulator    -- stage 1 in progress
  | oscillator   -- stage 2 in progress
  | straps       -- 16 reference periods to the strap sample (R357); the memory stage runs meanwhile
  | memory       -- stage 3 in progress
  | records      -- step 6 of Table 17.3 in progress
  | logic        -- stage 4 in progress: the loader works
  | up           -- LOGIC_OK; the state of PWR_STAT.STATE is in force
  deriving DecidableEq, Repr

/-- What a start is for (AUX of the START entry, Table 18.8). -/
inductive StartKind where
  | cold | warm | deep | hush
  deriving DecidableEq, Repr

/-- What follows the flush in progress (R341, R354, R370, R374). -/
inductive FlushThen where
  | none            -- no flush in progress
  | powerEntry      -- entry to HUSH or DEEP
  | reset (pin : Bool)  -- warm reset
  | powerFail
  | safeHold
  deriving DecidableEq, Repr

/-- Power control, reset and start-up beside their registers (16, 17, 20). -/
structure Power where
  phase     : Phase
  start     : StartKind
  flush     : FlushThen
  flushed   : Bool              -- step 3 of Table 16.4 is done
  entryMode : Nat               -- the mode sampled by WAIT (R345)
  wakeSeen  : Bool              -- a wake source was recognised before stage 5: the entry is to be aborted (R346)
  wakeLate  : Bool              -- one was recognised during stage 5 (R346)
  missed    : Bool              -- the stage in progress has missed its limit, and the device stays in it (R349, Table 17.4)
  tbDue     : Bool              -- the timebase starts from 0 at OSC_OK (Table 17.2)
  rstLow    : Bool              -- RST_N level
  pfailLow  : Bool              -- PFAIL_N level
  charged   : Bool              -- SYS_HOLD.CHARGED as it stood when PFAIL_N was recognised (R407, R421)
  railLow   : Bool              -- a rail has fallen below its monitor while a flush runs from VHOLD (R407, R421)
  keepBox   : List (Nat × Nat)  -- address and value, in list order (R343)
  booted    : Nat               -- postmark of step 6 of Table 17.3 (R359)
  lowFreq   : Bool              -- the timebase steps from the 32.768 kHz crystal (R54)
  holdGood  : Nat               -- milliseconds VHOLD has stood within 100 mV of its target (R408)
  deriving DecidableEq, Repr

/-- A MEMPART partition in force (R73): type, owner, first host address, length in bytes, class of a letter pigeonhole. -/
structure Part where
  ptype : Nat
  owner : Nat
  base  : Nat
  len   : Nat
  cls   : Nat
  deriving DecidableEq, Repr

/-- A ROUTE record in force (R27, Table 2.5). -/
structure Route where
  rtype  : Nat
  source : Nat
  target : Nat
  deriving DecidableEq, Repr

/-- A section of an envelope (R23). -/
structure Section where
  typ  : Nat
  inst : Nat
  body : List Byte
  deriving DecidableEq, Repr

/-- The loader and what the booted image fixes that no register shows (02). -/
structure RMap where
  cmd        : Nat             -- command in progress (Table 2.11), 0 none
  reason     : Nat             -- the reason code its checks gave
  sect       : Nat             -- the section index they gave
  staged     : List Section    -- sections of the APPLY whose window is open (R36)
  routes     : List Route      -- the ROUTE table in force (R27)
  safeLevels : List Byte       -- SAFE_LEVELS (R333)
  pins       : List Byte       -- PINS (Table 19.5)
  retain     : List Nat        -- addresses RETAIN lists, in order (R342)
  deriving DecidableEq, Repr


/-- Registers of the test access port an instruction selects (R398, Table 11.8). -/
inductive TapSel where
  | idcode | boundary | bypass | core | regs
  deriving DecidableEq, Repr

/-- The test access port (R252, R398). -/
structure Tap where
  ir   : Nat           -- instruction in force
  dr   : TapSel        -- the register it selects
  out  : Nat           -- what the selected register captured last
  bsr  : List Bool     -- the boundary register
  core : Nat           -- unit ID selected by CORE_SEL
  deriving DecidableEq, Repr

/-- The faults of a step. There is none: every command has its effect in every state, and an event the state does not admit
leaves the state as it is. -/
inductive Fault where
  deriving DecidableEq, Repr

/-- The refusals of a step. `notModelled` is raised by an arm of exec whose command has no meaning yet (safe). -/
inductive Refusal where
  | notModelled (mnemonic : String)
  deriving DecidableEq, Repr

/-- The whole machine. -/
structure State where
  pending : List Instr
  regs    : List (Nat × BitVec 32)
  mem     : List (Nat × Byte)
  tb      : Nat
  freeCtr : Nat
  rdata   : Nat                     -- the word the last register read by command returned
  pace    : Pace
  arbs    : List Arb
  ledg    : Ledger
  recs    : Records
  flt     : Faults
  gate    : Gate
  cores   : List Core
  chains  : List Chain
  sources : List Source             -- R182
  trend   : Trend
  ports   : List Port
  seq     : Sequencer
  tmr     : Timers
  links   : List Link               -- LK0 to LK3
  est     : Estate
  host    : HostPort
  twp     : Twp
  tap     : Tap
  parts   : List Part
  rmap    : RMap
  pow     : Power
  deriving DecidableEq, Repr

/-! The state right after a cold reset (R353, R355, R361): the rails have not all crossed their thresholds, every register holds
its reset value, and the ledger is one that has never been written. -/

def noRegs : CoreRegs := ⟨0, 0, 0, 0, 0, 0x8000, 0, 0, 0⟩
def idleCore : Core :=
  { r := noRegs, mem := [], memBad := [], steps := 0, trapSteps := 0, series := .idle, entries := [], winBase := 0, stage0 := 0, stage1 := 0,
    pmLatch := 0, txnConf := false, txnOver := false, txnRef := false, sealRes := false, sealFail := false, sealConf := false,
    ltrF := 0, ltrOut := false, ltrRes := 0, ltrSer := 0, evbuf := List.replicate 32 0, ltrbuf := List.replicate 32 0,
    rbAddr := 0, rbLatch := 0, rbStage := [0, 0, 0], rbRef := false, queue := [], taken := [], lastTaken := none, prevVals := [],
    commitHold := false, haltPend := false, wasWaiting := false, spec := none }
def idleChain : Chain :=
  { run := false, start := 0, reads := [], nextQ := 0, skips := [], fir := [], res := [], fifo := [], gap := false, lastPm := 0 }
def idleSource : Source := ⟨0, [], false, []⟩
def idlePort : Port :=
  { stage := .idle, lead := 0, acc := 0, half := 0, rx := none, deaf := false, stop := false, xchg := none, want := [], wait := none, yieldDue := false, round := none, built := [], lbStack := [], lbTotal := 0,
    enStack := [], checks := [], repeats := [], miss := [], absent := [], dup := [], readings := [], reports := [], txn := none,
    walk := none, fltClear := false, restart := false, probeAt := 0, key := none }
def idlePass : Pass :=
  { mode := .idle, ran := false, report := false, start := 0, last := 0, pos := none, fillPos := none, opened := false, holdT := 0, yieldT := 0 }
def idleTimer : TimerUnit := ⟨0, 0xFFFFFFFF, 0xFFFFFFFF, 0xFFFFFFFF, false, false, 0, 0⟩
def idleLink : Link := ⟨[], [], 0, false, none, false, false, none, false, none⟩
def idlePace : Pace := { lowCount := 0, prevShort := false, polUsed := 0, vcapUsed := 0x5A, hotRun := 0, below := true, armed := true }
def idleLedger : Ledger :=
  { bufs := List.replicate 8 [], flips := [], txns := [], nextTxn := 1, held := [], verify := [], failed := [], wear := [], maxWear := 0, blockMap := [],
    spares := (List.range 1024).map (24576 + ·), moves := [], jrnlPos := 0, journal := [], recPend := [], scrubPtr := 0 }
def noRecords : Records := { serial := none, fresh := List.replicate 32 none, casId := none, flush := none, map := none }
def idleFaults : Faults :=
  { dayQ := [], dayLost := 0, tailIdx := 0, stormAt := [], resets := [], check := [], recov := [], pmTaken := false, flushSeq := 0 }
def idleGate : Gate :=
  { offers := [], opened := [], log := [], up := [[], [], []], kCount := List.replicate 65 0, kSkip := List.replicate 65 0,
    fsum := List.replicate 65 0, upAt := [0, 0, 0], stood := false }
def idleTrend : Trend := { backs := List.replicate 32 ⟨[], []⟩, awaits := [], valid := [], unread := [] }
def idleEstate : Estate :=
  { route := [], fixed := none, lastId := none, waiting := false, welcomed := false, exch := false, integ := 0, goodRun := 0, stepped := false, sync := none,
    dreq := none, mirror := [], copied := false, takeover := false, standbys := [], tag := 0, raOpen := [none, none, none] }
def idleHost : HostPort := { low := false, busy := false, discard := false, armed := false, posted := [], partAt := none, erred := false, out := [], more := .none, wide := false, stream := none }
def idleTwp : Twp :=
  { stage := .idle, seen := [], first := false, ptr := 0, held := [], staged := [], word := [], wordAt := 0, latchAt := none, latch := [],
    count := 0, drive := false, rank := 0, counted := false, stretch := false, out := [] }
def idleTap : Tap := { ir := 1, dr := .idcode, out := 0, bsr := [], core := 0xFF }
def idleRmap : RMap := { cmd := 0, reason := 0, sect := 0xFF, staged := [], routes := [], safeLevels := [], pins := [], retain := [] }
def coldPower : Power :=
  { phase := .coldHold, start := .cold, flush := .none, flushed := false, entryMode := 0, wakeSeen := false, wakeLate := false, missed := false, tbDue := true,
    rstLow := false, pfailLow := false, charged := false, railLow := false, keepBox := [], booted := 0, lowFreq := false, holdGood := 0 }

def State.reset : State :=
  { pending := [], regs := [], mem := [], tb := 0, freeCtr := 0, rdata := 0, pace := idlePace
    arbs := List.replicate 24 ⟨[], [], none, none⟩, ledg := idleLedger, recs := noRecords, flt := idleFaults, gate := idleGate
    cores := List.replicate 65 idleCore, chains := List.replicate 16 idleChain, sources := List.replicate 16 idleSource, trend := idleTrend
    ports := List.replicate 32 idlePort, seq := ⟨[], none, List.replicate 32 idlePass, false⟩, tmr := ⟨List.replicate 16 idleTimer, 0, []⟩
    links := List.replicate 4 idleLink, est := idleEstate, host := idleHost, twp := idleTwp, tap := idleTap, parts := [], rmap := idleRmap
    pow := coldPower }


end Sys2Proof.Machine
end

