-- ==== Sys2Proof/Machine/Ops.lean ====
section
/-!
DEFINITION. The named operations over registers, memory, the timebase, the day book, event queues and fault slots that
every unit's commands are built from.
-/

namespace Sys2Proof.Machine

/-! Sparse maps: a list of (key, value) pairs, keys strictly rising, no entry equal to the default. -/

/-- The value at a key. -/
def mapGet {α : Type} (d : Nat → α) : List (Nat × α) → Nat → α
  | [], k => d k
  | (a, v) :: t, k => if a = k then v else mapGet d t k

/-- Put an entry at its place. -/
def mapIns {α : Type} (k : Nat) (v : α) : List (Nat × α) → List (Nat × α)
  | [] => [(k, v)]
  | (a, w) :: t => if k < a then (k, v) :: (a, w) :: t else if a = k then (k, v) :: t else (a, w) :: mapIns k v t

/-- Take an entry out. -/
def mapDel {α : Type} (k : Nat) (m : List (Nat × α)) : List (Nat × α) := m.filter (fun p => p.1 != k)

/-- Write a value; writing the default removes the entry. -/
def mapSet {α : Type} [DecidableEq α] (d : Nat → α) (m : List (Nat × α)) (k : Nat) (v : α) : List (Nat × α) :=
  if v = d k then mapDel k m else mapIns k v m

/-- The canonical form of a sparse map. -/
def mapWf {α : Type} [DecidableEq α] (d : Nat → α) : List (Nat × α) → Bool
  | [] => true
  | [(a, v)] => decide (v ≠ d a)
  | (a, v) :: (b, w) :: t => decide (a < b) && decide (v ≠ d a) && mapWf d ((b, w) :: t)

/-! Registers. -/

/-- The word a register holds. -/
def State.reg (s : State) (a : Nat) : Word := mapGet resetWord s.regs a

/-- Put a word into a register. -/
def State.setReg (s : State) (a : Nat) (v : Word) : State := { s with regs := mapSet resetWord s.regs a v }

/-- Block of a register address: the unit ID, or 0x100 for SYS. -/
def blockOf (a : Nat) : Nat := if a < 0x10080000 then (a - 0x10000000) / 0x1000 else 0x100
def offOf (a : Nat) : Nat := if a < 0x10080000 then a % 0x1000 else a - 0x10100000

/-- A register field. -/
def State.get (s : State) (f : Fd) : Nat := bits (s.reg f.addr).toNat f.lo f.w

/-- A one-bit field. -/
def State.flag (s : State) (f : Fd) : Bool := s.get f != 0

/-- Put a value into a field. -/
def State.put (s : State) (f : Fd) (v : Nat) : State :=
  s.setReg f.addr (BitVec.ofNat 32 (setBits (s.reg f.addr).toNat f.lo f.w v))

/-- Set a flag. -/
def State.mark (s : State) (f : Fd) : State := s.put f 1

/-- Write a flag. -/
def State.putB (s : State) (f : Fd) (b : Bool) : State := s.put f (b2n b)

/-- Add to a saturating counter field. -/
def State.incSat (s : State) (f : Fd) (n : Nat := 1) : State := s.put f (satTo (2 ^ f.w - 1) (s.get f + n))

/-- Add to a wrapping counter field. -/
def State.incWrap (s : State) (f : Fd) (n : Nat := 1) : State := s.put f ((s.get f + n) % 2 ^ f.w)

/-! The timebase (R54): `tb` counts 2^-24 of a postmark LSB. -/

def State.pm (s : State) : Nat := s.tb / 2 ^ 24 % 2 ^ 64

/-- The postmark as it stands, for a difference of two. -/
def pmDiff (later earlier : Nat) : Nat := (later + 2 ^ 64 - earlier) % 2 ^ 64

/-! Free values. -/

/-- A value nothing constrains, and the state in which the next one is fresh. -/
def State.free (s : State) : Nat × State := ((Config.freeValue s.freeCtr).toNat, { s with freeCtr := s.freeCtr + 1 })

/-! Refusals (R4 to R7). -/

/-- Record a refused write (R5, R6). -/
def refuse (writer addr : Nat) (s : State) : State :=
  if s.flag F.SYS_DIAG_RSVD_WR then s.mark F.SYS_DIAG_RSVD_MULT
  else ((s.mark F.SYS_DIAG_RSVD_WR).put F.SYS_RSVD_ADDR_ADDR (addr / 4)).put F.SYS_DIAG_RSVD_SRC writer

/-- A refusal that coincides with the write-1-to-clear of RSVD_WR (R6): the refusal wins. -/
def refuseColliding (writer addr : Nat) (s : State) : State :=
  (((s.mark F.SYS_DIAG_RSVD_WR).put F.SYS_RSVD_ADDR_ADDR (addr / 4)).put F.SYS_DIAG_RSVD_SRC writer).put F.SYS_DIAG_RSVD_MULT 0

/-! Bytes of the two memories. An unlisted byte reads 0x00 (R355, R361). -/

def memDefault : Nat → Byte := fun _ => 0#8

/-- The device's memories hold bytes at these host addresses (R422). -/
def inLedger (a : Nat) : Bool := a < 0x06000000
def inPigeon (a : Nat) : Bool := 0x08000000 ≤ a && a < 0x09000000

def State.byte (s : State) (a : Nat) : Byte := mapGet memDefault s.mem a
def State.setByte (s : State) (a : Nat) (b : Byte) : State := { s with mem := mapSet memDefault s.mem a b }

/-- `n` bytes from an address. -/
def State.bytes (s : State) (a n : Nat) : List Byte := (List.range n).map (fun i => s.byte (a + i))

/-- Put bytes from an address upward. -/
def putBytes (a : Nat) : List Byte → State → State
  | [], s => s
  | b :: t, s => putBytes (a + 1) t (s.setByte a b)

/-- A little-endian number of `n` bytes in memory (R3). -/
def State.num (s : State) (a n : Nat) : Nat := ofLe (s.bytes a n)

/-- The 64-byte line an address lies in. -/
def lineOf (a : Nat) : Nat := a / 64 * 64

/-! Writes to pigeonhole memory (R65, R73, R80); a cell whose bit has turned stands in `flips`. -/

def State.modLedg (s : State) (f : Ledger → Ledger) : State := { s with ledg := f s.ledg }

/-- Ledger bank of a line (R62). -/
def ledgBank (a : Nat) : Nat := a / 64 % 8
/-- Post-bus bank of an address (R73, R75). -/
def busBank (a : Nat) : Nat := if inLedger a then ledgBank a else 8 + a / 2 ^ 20 % 16

/-- Whether a unit's ARB_MASK enables a bank (R80). -/
def maskOk (s : State) (u b : Nat) : Bool := bit (s.get (F.ARB_MASK_BANKS u)) b

/-- The line, or the word of pigeonhole memory, whose check an access at `a` meets. -/
def checkUnit (a : Nat) : Nat := if inLedger a then lineOf a else a / 8 * 8

/-- A write replaces what stood at `a` (R64). -/
def heal (a : Nat) (s : State) : State := s.modLedg (fun l => { l with flips := l.flips.filter (fun f => checkUnit f.addr != checkUnit a) })

/-- A write to one pigeonhole bank: the words it touches are replaced (R65). -/
def bankWrite (u a : Nat) (b : List Byte) (s : State) : State :=
  if b.isEmpty || !maskOk s u (busBank a) then s
  else putBytes a b (iter (b.length / 8 + 2) (fun p : Nat × State => (p.1 + 8, if p.1 < a + b.length then heal p.1 p.2 else p.2)) (a / 8 * 8, s)).2

/-- A write by unit `u` to pigeonhole memory, bank by bank. -/
def pigeonWrite (u a : Nat) (b : List Byte) (s : State) : State :=
  let k := 2 ^ 20 - a % 2 ^ 20
  bankWrite u (a + k) (b.drop k) (bankWrite u a (b.take k) s)

/-! Partitions. -/

def State.part (s : State) (t : Nat) : Option Part := s.parts.find? (fun p => p.ptype == t)
/-- First host address of the partition of a type, 0 when there is none. -/
def State.partBase (s : State) (t : Nat) : Nat := ((s.part t).map (·.base)).getD 0

/-! Records in the letter layout (Table 10.1). -/

/-- The device ID a record carries. -/
def State.devId (s : State) : Nat := s.get F.CAS_ID_ID

/-- A record of 32 bytes with the fields a composer sets; class, serial, deadline and CRC are 0. -/
def mkRecord (pm dev ep kind qual value scale origin reason : Nat) : List Byte :=
  leBytes 8 pm ++ leBytes 2 dev ++ leBytes 3 ep ++ leBytes 1 kind ++ leBytes 1 0 ++ leBytes 1 qual ++
  leBytes 3 value ++ leBytes 1 scale ++ leBytes 4 0 ++ leBytes 4 0 ++ leBytes 1 origin ++ leBytes 1 reason ++ leBytes 2 0

/-! Fields of a record. -/
def recNum (r : List Byte) (off n : Nat) : Nat := ofLe ((r.drop off).take n)
def recPm (r : List Byte) : Nat := recNum r 0 8
def recKind (r : List Byte) : Nat := recNum r 13 1
def recByte14 (r : List Byte) : Nat := recNum r 14 1
def recClass (r : List Byte) : Nat := recByte14 r % 4
def recDest (r : List Byte) : Bool := bit (recByte14 r) 3
def recRe (r : List Byte) : Bool := bit (recByte14 r) 2
def recSerial (r : List Byte) : Nat := recNum r 20 4
def recDev (r : List Byte) : Nat := recNum r 8 2
def recOrigin (r : List Byte) : Nat := recNum r 28 1
/-- A record with the bytes from `off` replaced. -/
def recPut (r : List Byte) (off : Nat) (b : List Byte) : List Byte := r.take off ++ b ++ r.drop (off + b.length)

/-! Cores. -/


def State.core (s : State) (c : Nat) : Option Core := s.cores[c]?
def State.modCore (s : State) (c : Nat) (f : Core → Core) : State := { s with cores := upd s.cores c f }

/-! STATE codes of SRTnn_STAT (Table 11.11). -/
def stStopped : Nat := 0
def stRunning : Nat := 1
def stWaiting : Nat := 2
def stHalted : Nat := 3
def stHolding : Nat := 4

/-- Whether a unit is held (R368). -/
def State.isHeld (s : State) (u : Nat) : Bool := bit (s.get (F.SYS_FHELD_HELD (u / 32))) (u % 32)

/-! The power state. -/
def State.pwr (s : State) : Nat := s.get F.PWR_STAT_STATE
def State.safe (s : State) : Bool := s.flag F.SYS_FAULT_SAFE

/-- An entry to HUSH or DEEP has stopped the units, or such a state is in force (R341, R346), or the device is not up. -/
def State.quiet (s : State) : Bool :=
  s.pow.phase != .up || 2 ≤ s.pwr || (s.flag F.PWR_STAT_ENTERING && 2 ≤ s.pow.entryMode) || s.pow.flush == .powerFail
    || s.pow.flush == .reset true || s.pow.flush == .reset false

/-- The states a wake source ends (Table 16.5), by bit of PWR_WAKE and mode. -/
def wakeEnds (bitNo mode : Nat) : Bool :=
  if bitNo ≤ 4 then 1 ≤ mode else if bitNo ≤ 7 then mode == 2 else mode == 1

/-- The exit from HUSH or DEEP begins (R349): its stages run from the regulator on, and the sensor counts as below LIMIT until its first
reading (R52). -/
def beginExit (mode : Nat) (s : State) : State :=
  let s1 := ((s.put F.PWR_STAT_REG_OK 0).put F.PWR_STAT_MEM_OK 0).put F.PWR_STAT_LOGIC_OK 0
  { s1 with pow := { s1.pow with phase := .regulator, start := if mode = 2 then .hush else .deep, missed := false }
            pace := { s1.pace with below := true, armed := true } }

/-- An exit from HUSH or DEEP is in progress. -/
def State.exiting (s : State) : Bool :=
  (s.pow.start == .hush || s.pow.start == .deep) && [Phase.regulator, .oscillator, .straps, .memory, .records, .logic].contains s.pow.phase

/-- The lower state a wake source is met in: that of an entry in progress, else the one in force (R346, R347). -/
def State.wakeMode (s : State) : Nat := if s.flag F.PWR_STAT_ENTERING then s.pow.entryMode else s.pwr

/-- A wake source is recognised (R347): its bit is set, and the state is one that it ends. -/
def wakeEnabled (s : State) (bitNo : Nat) : Bool :=
  bit (s.reg A.PWR_WAKE).toNat bitNo && wakeEnds bitNo s.wakeMode && (4 ≤ bitNo || s.flag (F.CMP_CTRL_EN bitNo)) && (s.pow.phase == .up || s.exiting)

/-- PWR_WAKESRC shows a source that is recognised. -/
def wakeNoted (bitNo : Nat) (s : State) : State :=
  if wakeEnabled s bitNo then s.put F.PWR_WAKESRC_SRC (s.get F.PWR_WAKESRC_SRC ||| 2 ^ bitNo) else s

/-- WAIT ends in the postmaster: it goes on at the next instruction with its step count at 0 (R241, R350); one that was halted while it waited
does so once it is resumed. -/
def wakePostmaster (s : State) : State :=
  if s.get (F.SRT_STAT_STATE 0) = stWaiting then (s.put (F.SRT_STAT_STATE 0) stRunning).modCore 0 (fun k => { k with steps := 0 })
  else if s.get (F.SRT_STAT_STATE 0) = stHalted then s.modCore 0 (fun k => if k.wasWaiting then { k with wasWaiting := false, steps := 0 } else k)
  else s

/-- What a wake source that is recognised does (R346, R347): it ends DOZE at once, starts the exit from HUSH or DEEP, is noted against an
entry in progress, to abort it or to start the exit once it is over, or only shows during an exit. -/
def wakeRecognised (bitNo : Nat) (s : State) : State :=
  if !wakeEnabled s bitNo then s
  else
    let s1 := wakeNoted bitNo s
    if s.pow.phase != .up then s1
    else if s.flag F.PWR_STAT_ENTERING then
      { s1 with pow := if s.pow.flushed then { s1.pow with wakeLate := true } else { s1.pow with wakeSeen := true } }
    else if s.pwr = 1 then wakePostmaster (s1.put F.PWR_STAT_STATE 0)
    else beginExit s.pwr s1

/-! Event queues (R236, R248). -/

/-- Whether a core's queue has room: a record occupies it until it is taken and sealed. -/
def Core.full (c : Core) : Bool := 16 ≤ c.queue.length + c.taken.length

/-- The record is the predicted chain's sample, and agrees with the prediction in value, postmark and settle mark (R56, Table 3.3). -/
def predicted (p r : List Byte) : Bool :=
  (recOrigin p == recOrigin r) && (p.take 8 == r.take 8) && (recNum p 16 3 == recNum r 16 3) && (recNum p 13 1 == recNum r 13 1) && (recNum p 15 1 == recNum r 15 1)

/-- A record is taken (R236, R237): EVBUF holds it, the step count restarts, and it stays in the queue until the next seal
when the core holds a seal record. -/
def takeRecord (sealed : Bool) (r : List Byte) (c : Core) : Core :=
  { c with
    evbuf := r
    taken := if sealed then c.taken ++ [r] else c.taken
    lastTaken := some r
    prevVals := match c.lastTaken with
      | some p => if recKind p = 0x20 then mapIns (recOrigin p) (recNum p 16 3) c.prevVals else c.prevVals
      | none => c.prevVals }

/-- A core as a snapshot held it. -/
def Core.snap (k : Core) : Snap := ⟨k.r, k.mem, k.memBad, k.series, k.entries⟩
def Core.restore (n : Snap) (k : Core) : Core := { k with r := n.r, mem := n.mem, memBad := n.memBad, series := n.series, entries := n.entries }

/-- A core as it has committed: what run-ahead has done does not show (R57, R248). -/
def Core.committed (k : Core) : Core := match k.spec with
  | none => k
  | some p => { k.restore p.before with evbuf := p.evbuf, steps := p.steps }

/-- STEPS.MAX keeps the highest count (R241). -/
def noteSteps (c : Nat) (s : State) : State :=
  match s.core c with
  | none => s
  | some k => if (s.get (F.SRT_STEPS_MAX c) : Int) < k.steps then s.put (F.SRT_STEPS_MAX c) (satTo 0xFFFFFF k.steps.toNat) else s

/-- A unit's accesses ahead are withdrawn with the work they were for, without a trace (R56, R58). -/
def dropAhead (u : Nat) (s : State) : State :=
  { s with arbs := s.arbs.map (fun a => { a with
    reqs := a.reqs.filter (fun r => !(r.unit == u && r.ahead))
    granted := match a.granted with
      | some g => if g.unit = u ∧ g.ahead then none else some g
      | none => none }) }

/-- A unit's accesses ahead become committed ones with the work they are for (R56). -/
def commitAhead (u : Nat) (s : State) : State :=
  { s with arbs := s.arbs.map (fun a =>
    let mine := (a.reqs.filter (fun r => r.unit == u && r.ahead)).flatMap (·.pieces)
    if mine.isEmpty then a
    else if a.reqs.any (fun r => r.unit == u && !r.ahead) then { a with
      reqs := (a.reqs.filter (fun r => !(r.unit == u && r.ahead))).map (fun r => if r.unit == u then { r with pieces := r.pieces ++ mine } else r) }
    else { a with reqs := a.reqs.map (fun r => if r.unit == u then { r with ahead := false } else r) }) }

/-- Run-ahead is over: a core that held goes on. -/
def endSpec (c : Nat) (s : State) : State :=
  let s1 := s.putB (F.SRT_STAT_SPEC_ON c) false
  if s1.get (F.SRT_STAT_STATE c) = stHolding then s1.put (F.SRT_STAT_STATE c) stRunning else s1

/-- Run-ahead is discarded and nothing arrived: the core executes EV_NEXT again (R248). -/
def cancelSpec (c : Nat) (s : State) : State :=
  match (s.core c).bind (·.spec) with
  | none => s
  | some sp => endSpec c (dropAhead c (s.modCore c (fun k => { k.restore sp.before with evbuf := sp.evbuf, steps := sp.steps, spec := none })))

/-- The arrival settles run-ahead (R248): it commits when the record is as predicted, and the steps run count; else the core
resumes after the intake with the actual record. -/
def settleSpec (c : Nat) (r : List Byte) (s : State) : State :=
  match (s.core c).bind (·.spec) with
  | none => s.modCore c (fun k => { k with queue := k.queue ++ [r] })
  | some sp =>
    let sealed := s.flag (F.SRT_STAT_SEALED c)
    let s1 :=
      if predicted sp.pred r then commitAhead c (s.modCore c (fun k => { takeRecord sealed r { k with spec := none } with evbuf := k.evbuf }))
      else dropAhead c (s.modCore c (fun k => { takeRecord sealed r { k.restore sp.after with spec := none } with steps := 0 }))
    endSpec c (noteSteps c s1)

/-- The cores' logic holds what enters a queue: not in DEEP, and not before OSC_OK of a start-up or of an exit from it (R52, R338, R356). -/
def State.logicOn (s : State) : Bool :=
  if s.pow.phase = .up then s.pwr != 3 else s.pow.start == .hush || [Phase.straps, .memory, .records, .logic].contains s.pow.phase

/-- Whether a core's event queue takes a record (R236, R368). -/
def coreAccepts (c : Nat) (s : State) : Bool :=
  match s.core c with
  | none => false
  | some k => !k.full && !s.isHeld c && s.logicOn

/-- A record enters a core's queue, if it is accepted; in the postmaster it is a wake source (Table 16.5). -/
def enqueue (c : Nat) (r : List Byte) (s : State) : State :=
  if coreAccepts c s then
    let s1 := settleSpec c r s
    if c = 0 then wakeRecognised 8 s1 else s1
  else s

/-- A unit's event record to the postmaster (R384, Table 18.9). -/
def pmEvent (kind value scale reason origin : Nat) (s : State) (ep : Nat := 0x7FFFFF) : State :=
  enqueue 0 (mkRecord s.pm s.devId ep kind 0 value scale origin reason) s

/-! The day book (R381, R382). -/

/-- A happening is offered to the day-book writer's queue; a full queue loses it. -/
def dayPush (unit code aux data : Nat) (s : State) : State :=
  if s.flt.dayQ.length < 32 then
    { s with flt := { s.flt with dayQ := s.flt.dayQ ++ [⟨s.pm, unit, code, aux, data⟩] } }
  else
    let s1 := (s.incSat F.DAYB_CNT_LOST).mark F.DAYB_STAT_LOST
    { s1 with flt := { s1.flt with dayLost := s1.flt.dayLost + 1 } }

/-- The 16 bytes of an entry (Table 18.7). -/
def dayBytes (e : DayEntry) (seq : Nat) : List Byte :=
  leBytes 8 e.pm ++ leBytes 1 e.unit ++ leBytes 1 e.code ++ leBytes 1 e.aux ++ leBytes 1 seq ++ leBytes 4 e.data

/-- Put an entry into the tail of the dead-letter ring (R377). -/
def tailPut (b : List Byte) (s : State) : State :=
  match s.part 5 with
  | none => s
  | some p =>
    let s1 := pigeonWrite 0x7F (p.base + 0x1E100 + 16 * s.flt.tailIdx) b s
    { s1 with flt := { s1.flt with tailIdx := (s1.flt.tailIdx + 1) % 496 } }

/-- SEQ of the next entry (R381, Table 18.14): 0 for START, and from there on the number of entries written since it. -/
def daySeq (e : DayEntry) (s : State) : Nat := if e.code = 1 then 0 else (s.get F.DAYB_SEQ_SEQ + 1) % 2 ^ 32

/-- Write one entry at DAYB_WR and, while the ring is not frozen, into the tail (R377, R381). -/
def dayWrite (e : DayEntry) (s : State) : State :=
  let wr := s.get F.DAYB_WR_IDX
  let seq := daySeq e s
  let b := dayBytes e seq
  let s1 := match s.part 4 with
    | none => s
    | some p => pigeonWrite 0x7E (p.base + 16 * wr) b s
  let s2 := s1.put F.DAYB_WR_IDX (wr + 1)
  let s3 := if wr = 65535 then s2.incWrap F.DAYB_CNT_WRAPS else s2
  let s4 := s3.put F.DAYB_SEQ_SEQ seq
  if s4.flag F.DLF_STAT_FROZEN then s4 else tailPut b s4

/-- The next entry is written: a LOST entry after a loss, else the head of the queue. -/
def dayNext (s : State) : State :=
  if !s.flag F.DAYB_STAT_READY then s
  else if 0 < s.flt.dayLost then
    dayWrite ⟨s.pm, 0x7E, 0x02, 0, s.flt.dayLost⟩ { s with flt := { s.flt with dayLost := 0 } }
  else match s.flt.dayQ with
    | [] => s
    | e :: q => dayWrite e { s with flt := { s.flt with dayQ := q } }

/-- The day-book writer takes no work while it is held or in its reset (R368, R371). -/
def dayHeld (s : State) : Bool := s.flt.resets.contains 0x7E || s.isHeld 0x7E

/-- Every entry that waits is written. -/
def dayDrain (s : State) : State := if dayHeld s then s else iter 33 dayNext s

/-! The dead-letter ring (R376 to R379). -/

/-- Follow-on demand of a core's open letters, the reloaded sum included (R380). -/
def followOn (s : State) (u : Nat) : Nat :=
  nth s.gate.fsum u 0 + ((s.gate.opened.filter (fun l => recOrigin l.body == u)).map (·.f)).sum

/-- The state block at the freeze (Table 18.6). -/
def stateBlock (reason : Nat) (s : State) : List Byte :=
  leBytes 4 s.flt.flushSeq ++ leBytes 1 reason ++ leBytes 1 (b2n s.safe) ++ leBytes 2 s.gate.opened.length ++ leBytes 8 s.pm ++
  ((List.range 65).map (fun u => leBytes 2 (nth s.gate.kCount u 0))).flatten ++
  leBytes 2 s.flt.tailIdx ++ leBytes 4 (s.get F.DAYB_SEQ_SEQ) ++
  leBytes 4 (s.reg (A.SYS_FLT_PRI 0)).toNat ++ leBytes 4 (s.reg (A.SYS_FLT_PRIPM 0)).toNat ++
  leBytes 4 (s.reg (A.SYS_FLT_SEC 0)).toNat ++ leBytes 4 (s.reg (A.SYS_FLT_SECPM 0)).toNat ++
  (List.range 65).map (fun u => BitVec.ofNat 8 (followOn s u)) ++ List.replicate 23 0#8

/-- Freeze the ring and start its flush (R378, R379): the FLUSH entry, which the engine writes into the tail even while the day-book writer is
held, then the state block. -/
def freeze (reason : Nat) (what : FlushThen) (s : State) : State :=
  let next := match s.recs.flush with | some (n, _) => n + 1 | none => 1
  let s1 := dayDrain { s with flt := { s.flt with flushSeq := next % 2 ^ 32 } }
  let e : DayEntry := ⟨s1.pm, 0x7F, 0x0C, reason, next % 2 ^ 32⟩
  let s2 := if dayHeld s1 then tailPut (dayBytes e (daySeq e s1)) s1 else dayWrite e s1
  let s3 := match s2.part 5 with
    | none => s2
    | some p => pigeonWrite 0x7F (p.base + 0x1E000) (stateBlock reason s2) s2
  let s4 := (s3.mark F.DLF_STAT_FROZEN).mark F.DLF_STAT_FLUSHING
  { s4 with pow := { s4.pow with flush := what } }

/-! Faults (R365 to R370). -/

/-- Units whose second storm ends in safe hold (R368). -/
def essential (u : Nat) : Bool := u == 0 || (0x77 ≤ u && u ≤ 0x7D) || u == 0x7F

/-- A chain that has stopped (R195): its pipeline is discarded, and the records in its FIFO stay. -/
def Chain.halted (c : Chain) : Chain := { c with run := false, reads := [] }

/-- Timer pins whose channel is in compare mode: pin 2u is TMuuA, 2u + 1 TMuuB. -/
def comparePins (s : State) : List Nat :=
  (List.range 32).filter (fun k => s.get (if k % 2 = 0 then F.TMR_CHCFG_MODEA (k / 2) else F.TMR_CHCFG_MODEB (k / 2)) == 1)

/-- In safe hold a pin whose channel is in compare mode takes its safe level, and keeps it until reset (R333). -/
def takeSafe (s : State) : State :=
  if s.safe then { s with tmr := { s.tmr with safePins := s.tmr.safePins ++ (comparePins s).filter (fun k => !s.tmr.safePins.contains k) } } else s

/-- Enter safe hold (R370, Table 18.2), once. -/
def enterSafe (u cls : Nat) (s : State) : State :=
  if s.safe then s
  else
    let s1 := ((takeSafe (s.mark F.SYS_FAULT_SAFE)).put F.SYS_FAULT_SAFE_UNIT u).put F.SYS_FAULT_SAFE_CLASS cls
    let s2 := dayPush 0x00 0x0B u cls s1
    let s3 := forUpTo 65 (fun c s => (cancelSpec c s).put (F.SRT_STAT_STATE c) stStopped) s2
    let s4 := forUpTo 16 (fun i s => s.put (F.FC_CTRL_RUN i) 0) { s3 with chains := s3.chains.map Chain.halted }
    let s5 := s4.put F.PWR_STAT_ENTERING 0
    if s5.flag F.DLF_STAT_FROZEN then s5 else freeze 0x04 .safeHold s5

/-- Load a fault slot (R365): its registers, the day-book entry, and the FAULT record for any class but TRAP. -/
def loadSlot (u : Nat) (sec : Bool) (cls code data : Nat) (s : State) : State :=
  let w := BitVec.ofNat 32 (2 ^ 31 + cls * 2 ^ 24 + code * 2 ^ 16 + data)
  let pmw := BitVec.ofNat 32 s.pm
  let s1 := if sec then (s.setReg (A.SYS_FLT_SEC u) w).setReg (A.SYS_FLT_SECPM u) pmw
            else (s.setReg (A.SYS_FLT_PRI u) w).setReg (A.SYS_FLT_PRIPM u) pmw
  if cls = 2 then s1
  else
    let s2 := dayPush u 0x08 code (cls + 16 * b2n sec + data * 2 ^ 16) s1
    pmEvent 0x30 (code + cls * 2 ^ 8 + b2n sec * 2 ^ 12) 0 0 u s2

/-- Both slots of a unit. -/
def priValid (s : State) (u : Nat) : Bool := s.flag (F.SYS_FLT_PRI_VALID u)
def secValid (s : State) (u : Nat) : Bool := s.flag (F.SYS_FLT_SEC_VALID u)

/-- The end of a slot's handling (R366): VALID clears, and a valid secondary moves up when the primary clears. -/
def clearSlot (u : Nat) (sec : Bool) (s : State) : State :=
  if sec then s.put (F.SYS_FLT_SEC_VALID u) 0
  else
    let s1 := s.put (F.SYS_FLT_PRI_VALID u) 0
    if secValid s1 u then
      ((s1.setReg (A.SYS_FLT_PRI u) (s1.reg (A.SYS_FLT_SEC u))).setReg (A.SYS_FLT_PRIPM u) (s1.reg (A.SYS_FLT_SECPM u))).put (F.SYS_FLT_SEC_VALID u) 0
    else s1

/-- Whether the postmaster is handling a fault (R369). -/
def pmHandling (s : State) : Bool := s.get (F.SRT_STAT_TDEPTH 0) != 0 || priValid s 0 || s.flt.pmTaken

/-- A unit's reset begins; the unit does no work until it completes, and a core's run-ahead is cancelled (R56, R248). -/
def beginReset (u : Nat) (s0 : State) : State :=
  let s := if u ≤ 0x40 then cancelSpec u s0 else s0
  if s.flt.resets.contains u then s else { s with flt := { s.flt with resets := s.flt.resets ++ [u] } }

/-- A third fault (R367, R368). -/
def storm (u cls code : Nat) (s : State) : State :=
  let again := s.flt.stormAt.any (fun e => e.1 == u && pmDiff s.pm e.2 ≤ 2 ^ 24)
  let hold := again && !essential u
  let s1 := ((s.mark F.SYS_FAULT_STORM).put F.SYS_FSTORM_UNIT u).incSat F.SYS_FSTORM_COUNT
  let n := s1.get F.SYS_FSTORM_COUNT
  let s2 := dayPush u 0x0A code (cls + 16 * b2n hold + n * 2 ^ 16) s1
  let s3 := pmEvent 0x31 (n + b2n hold * 2 ^ 16) 0x0A cls u s2
  let s4 := (s3.put (F.SYS_FLT_PRI_VALID u) 0).put (F.SYS_FLT_SEC_VALID u) 0
  let s5 := { s4 with flt := { s4.flt with stormAt := mapIns u s4.pm s4.flt.stormAt } }
  if again && essential u then enterSafe u cls s5
  else
    let s6 := beginReset u s5
    if hold then
      let s7 := s6.put (F.SYS_FHELD_HELD (u / 32)) (s6.get (F.SYS_FHELD_HELD (u / 32)) ||| 2 ^ (u % 32))
      if u ≤ 0x40 then (cancelSpec u s7).put (F.SRT_STAT_STATE u) stStopped else s7
    else s6

/-- A fault of a postmaster that is handling one (R369, R370): its secondary slot is loaded as part of the entry to safe hold. In safe hold the
slots are kept (Table 18.2). -/
def pmSecond (cls code data : Nat) (s : State) : State :=
  if s.safe && secValid s 0 then s else enterSafe 0 cls (loadSlot 0 true cls code data s)

/-- A unit raises a fault (R364, R365, R367, R369, R370). -/
def raiseFault (u cls code data : Nat) (s : State) : State :=
  if u = 0 ∧ pmHandling s then pmSecond cls code data s
  else
    let s1 :=
      if !priValid s u then loadSlot u false cls code data s
      else if !secValid s u then loadSlot u true cls code data s
      else storm u cls code s
    if cls = 5 ∨ (u = 0x7D ∧ cls = 3) then enterSafe u cls s1 else s1

/-- Update the mark that a recovery interval is open (R372). -/
def recovering (s : State) : State := s.putB F.SYS_FAULT_RECOVERING (!s.flt.recov.isEmpty)
def openRecovery (k : Nat) (s : State) : State :=
  recovering (if s.flt.recov.contains k then s else { s with flt := { s.flt with recov := s.flt.recov ++ [k] } })
def closeRecovery (k : Nat) (s : State) : State :=
  recovering { s with flt := { s.flt with recov := s.flt.recov.filter (· != k) } }

/-! Frames of the cascade that wait (R279, R280, R282, R284). -/

def State.modLink (s : State) (n : Nat) (f : Link → Link) : State := { s with links := upd s.links n f }
def State.link (s : State) (n : Nat) : Link := s.links.getD n idleLink

/-! Codes of LSTATE (Table 13.10). -/
def lsDown : Nat := 0
def lsDetect : Nat := 1
def lsTrain : Nat := 2
def lsActive : Nat := 3
def lsEnrolled : Nat := 4

def lstate (s : State) (n : Nat) : Nat := s.get (F.CAS_L_STAT_LSTATE n)
/-- The link carries frames. -/
def linkUp (s : State) (n : Nat) : Bool := lsActive ≤ lstate s n

/-! Frames (R279, R280). -/

def ftLetter : Nat := 1
def ftAck : Nat := 2
def ftHello : Nat := 3
def ftEnrol : Nat := 4
def ftWelcome : Nat := 5
def ftLeave : Nat := 6
def ftPath : Nat := 7
def ftSync : Nat := 8
def ftDreq : Nat := 9
def ftDresp : Nat := 10
def ftRaReq : Nat := 11
def ftRaResp : Nat := 12
def ftIdmir : Nat := 13

/-- A frame from TYPE to the end of its payload. -/
def mkFrame (typ dst : Nat) (payload : List Byte) : List Byte :=
  leBytes 1 typ ++ leBytes 1 payload.length ++ leBytes 2 dst ++ payload
def frType (f : List Byte) : Nat := recNum f 0 1
def frDst (f : List Byte) : Nat := recNum f 2 2
def frBody (f : List Byte) : List Byte := f.drop 4

/-- A frame waits on a port that is up, or in an outage that may end short (R282, R294). -/
def sendOn (n : Nat) (f : List Byte) (s : State) : State :=
  if linkUp s n || (s.link n).outage.isSome then s.modLink n (fun l => { l with tx := l.tx ++ [f] }) else s

/-! Routing (R284). -/

def routeDefault : Nat → Nat := fun _ => 0
def routeAt (s : State) (id : Nat) : Nat := mapGet routeDefault s.est.route id

end Sys2Proof.Machine
end

