-- ==== Sys2Proof/Machine/Ledger.lean ====
section
/-!
DEFINITION. The ledger controller and the pigeonhole controller (04): write buffers, error handling, wear-levelling,
transactions, and the steps of those.
-/

namespace Sys2Proof.Machine

/-! Errors (R63 to R65). The memory holds what was written; a cell whose bit has turned stands in `flips`. One turned bit in the 72-bit
code of a word is corrected; two or more, or one in the line's CRC, are uncorrectable. -/

/-- Turned bits in the code of the word at `w`. -/
def wordFlips (l : List Flip) (w : Nat) : Nat := (l.filter (fun f => f.addr == w && decide (f.bit < 72))).length

/-- Turned cells that make what holds them uncorrectable (R64, R65). -/
def badFlips (s : State) : List Flip := s.ledg.flips.filter (fun f => decide (72 ≤ f.bit) || decide (2 ≤ wordFlips s.ledg.flips f.addr))

/-- The lines and words that read uncorrectable. -/
def badKeys (s : State) : List Nat := (badFlips s).map (fun f => checkUnit f.addr)

/-- Whether a read at `a` meets an uncorrectable error. -/
def poisonAt (s : State) (a : Nat) : Bool := (badKeys s).contains (checkUnit a)

/-- A cell turns; turning it again brings its bit back. -/
def turnCell (f : Flip) (s : State) : State :=
  s.modLedg (fun l => { l with flips := if l.flips.contains f then l.flips.filter (· != f) else l.flips ++ [f] })

/-- What an uncorrectable read records (R64, R65, R373). -/
def uncorrectable (a : Nat) (s : State) : State :=
  if inLedger a then
    let s1 := s.incSat F.LEDG_ECC_UE_COUNT
    let s2 := if s1.flag F.LEDG_STAT_UE then s1 else (s1.mark F.LEDG_STAT_UE).put F.LEDG_UE_ADDR_ADDR (lineOf a)
    raiseFault 0x7A 1 0x01 (ledgBank a) s2
  else
    let s1 := s.incSat F.PIGN_ECC_UE_COUNT
    let s2 := if s1.flag F.PIGN_STAT_UE then s1 else (s1.mark F.PIGN_STAT_UE).put F.PIGN_UE_ADDR_ADDR (a / 8 * 8)
    raiseFault 0x7B 1 0x02 (a / 2 ^ 20 % 16) s2

/-- Turned cells of the line or word an access at `a` meets. -/
def flipsAt (s : State) (a : Nat) : List Flip := s.ledg.flips.filter (fun f => checkUnit f.addr == checkUnit a)

/-- A ledger line read with words corrected (R63). -/
def noteCorrected (a : Nat) (s : State) : State := ((s.incSat F.LEDG_ECC_CE_COUNT).put F.LEDG_CE_ADDR_ADDR (lineOf a)).mark F.LEDG_STAT_CE

/-- A read of the cells of a ledger line that nothing rewrites (R63, R64). -/
def meetLine (a : Nat) (s : State) : State :=
  if poisonAt s a then uncorrectable a s else if (flipsAt s a).isEmpty then s else noteCorrected a s

/-- What the cells of the line at `a` hold. -/
def cellsOf (s : State) (a : Nat) : OldLine := ⟨lineOf a, s.bytes (lineOf a) 64, flipsAt s a⟩

/-- The cells of a line hold again what they held. -/
def restoreCells (o : OldLine) (s : State) : State :=
  (putBytes o.line o.data (heal o.line s)).modLedg (fun l => { l with flips := l.flips ++ o.flips })

/-! Programs, wear and moves (R66 to R68). -/

def wearDefault : Nat → Nat := fun _ => 0
/-- Physical block of a logical block. -/
def physBlock (s : State) (b : Nat) : Nat := mapGet id s.ledg.blockMap b

/-- One program of physical line `p`. -/
def wearLine (p : Nat) (s : State) : State :=
  let n := mapGet wearDefault s.ledg.wear p + 1
  let m := max n s.ledg.maxWear
  (s.modLedg (fun l => { l with wear := mapSet wearDefault l.wear p n, maxWear := m })).put F.LEDG_WEAR_MAXWEAR (satTo 0xFFFF (m / 4096))

/-- The most-written line of a physical block. -/
def blockWear (s : State) (p : Nat) : Nat :=
  (s.ledg.wear.filter (fun e => e.1 / 64 == p)).foldl (fun m e => max m e.2) 0

/-- The least-worn of the free blocks. -/
def leastWorn (s : State) : Option Nat :=
  s.ledg.spares.foldl (fun best p => match best with
    | none => some p
    | some q => if blockWear s p < blockWear s q then some p else some q) none

/-- A move of block `b` to the free block `p` is to be made: at once, or when the moves before it are over (R67). -/
def startMove (b p : Nat) (retired : Bool) (s : State) : State :=
  s.modLedg (fun l => { l with
    moves := l.moves ++ [⟨b, mapGet id l.blockMap b, p, retired, .copy⟩]
    spares := l.spares.filter (· != p) })

/-- A block whose most-written line exceeds the least-worn free block by 65,536 is moved (R67); one move runs at a time. -/
def wearLevel (b : Nat) (s : State) : State :=
  if s.ledg.maxWear < 65536 || !s.ledg.moves.isEmpty then s
  else match leastWorn s with
    | none => s
    | some p => if blockWear s p + 65536 ≤ blockWear s (physBlock s b) then startMove b p false s else s

/-- One program of the line at host address `a`. -/
def programLine (a : Nat) (s : State) : State := wearLevel (a / 4096) (wearLine (physBlock s (a / 4096) * 64 + a / 64 % 64) s)

/-- One spare less (R68). -/
def spareLess (s : State) : State :=
  let n := s.get F.LEDG_WEAR_SPARES - 1
  let s1 := s.put F.LEDG_WEAR_SPARES n
  if n = 63 then pmEvent 0x3D n 0x0A 0 0x7A (s1.mark F.LEDG_STAT_SPARE_LOW) else if n < 64 then s1.mark F.LEDG_STAT_SPARE_LOW else s1

/-- A retirement finds no spare (R68). -/
def noSpare (a : Nat) (s : State) : State := raiseFault 0x7A 1 0x03 (ledgBank a) (s.mark F.LEDG_STAT_NO_SPARE)

/-- A move has not reached its commit point. -/
def Move.early (m : Move) : Bool := m.stage == .copy || m.stage == .record

/-- A second failed verify (R68): the block is retired, by a move to a spare; false when there is none. A move of the block that has not
reached its commit point becomes the retirement. -/
def retireBlock (a : Nat) (s : State) : Bool × State :=
  let b := a / 4096
  if s.ledg.moves.any (fun m => m.block == b && m.early) then
    (true, if s.ledg.moves.any (fun m => m.block == b && m.early && m.retired) then s
      else spareLess (s.modLedg (fun l => { l with moves := l.moves.map (fun m => if m.block == b && m.early then { m with retired := true } else m) })))
  else match leastWorn s with
    | some p => (true, spareLess (startMove b p true s))
    | none => (false, noSpare a s)

/-- A program of the line at `a` with what its verify finds; true once the line stands programmed, in the spare block where its own was
retired. -/
def programAs (v : Verify) (a : Nat) (s : State) : Bool × State :=
  match v with
  | .good => (true, programLine a s)
  | .retried => (true, programLine a (programLine a s))
  | .failed => retireBlock a (programLine a (programLine a s))

/-- The write that failed is reported to its writer as failed (R68). -/
def reportFailed (u : Nat) (s : State) : State := s.modLedg (fun l => { l with failed := l.failed ++ [u] })

/-- Host address of a place in the journal ring (Table 4.1). -/
def jrnlAddr (p : Nat) : Nat := 0x03C40000 + 64 * p

/-- A line is programmed into the journal ring (R67, R70). -/
def programJournal (v : Verify) (e : JrnlEntry) (s : State) : Bool × State :=
  let p := s.ledg.jrnlPos
  let (ok, s1) := programAs v (jrnlAddr p) s
  (ok, (if ok then heal (jrnlAddr p) s1 else s1).modLedg (fun l => { l with
    jrnlPos := (p + 1) % 4096
    journal := if ok then mapIns p e l.journal else l.journal }))

/-- Lines programmed into the journal one after another; the first that fails ends it. -/
def programJournals : List Verify → List JrnlEntry → State → Bool × State
  | _, [], s => (true, s)
  | vs, e :: es, s =>
    let (ok, s1) := programJournal (vs.headD .good) e s
    if ok then programJournals (vs.drop 1) es s1 else (false, s1)

/-! System records (R427). -/

/-- Index of a record in the system records: serial, cascade ID, flush, block map, then FRESH by port. -/
def recSerialIx : Nat := 0
def recCascadeIx : Nat := 1
def recFlushIx : Nat := 2
def recMapIx : Nat := 3
def recFreshIx (p : Nat) : Nat := 4 + p

/-- The line a record of the system records lies in: a place below the seal slots that the device chooses. -/
def recLine (i : Nat) : Nat := 0x03CA0000 + 64 * (Config.recordPlace i % 1024)

/-- A record that stands: it has been written, and its line reads without error; else it fails its CRC (R427). -/
def recordValid {α : Type} (s : State) (i : Nat) (r : Option α) : Option α := if poisonAt s (recLine i) then none else r

/-- A record is programmed into its line; false when it keeps its old contents (R68). -/
def programRecord (v : Verify) (i : Nat) (s : State) : Bool × State :=
  let (ok, s1) := programAs v (recLine i) s
  (ok, if ok then heal (recLine i) s1 else s1)

/-- The block map is programmed into the system records (R67); false when the record keeps its old contents. -/
def storeMap (v : Verify) (s : State) : Bool × State :=
  let (ok, s1) := programRecord v recMapIx s
  (ok, if ok then { s1 with recs := { s1.recs with map := some s1.ledg.blockMap } } else reportFailed 0x7A s1)

/-! The steps of a move (R67). -/

/-- Writes to a block are held while its move has not passed its commit point (R67, Table 4.2). -/
def blockMoving (s : State) (a : Nat) : Bool := match s.ledg.moves with
  | m :: _ => m.block == a / 4096 && m.early
  | [] => false

/-- A buffered line waits for the move of its block; so does one whose block is to be retired (R68). -/
def lineWaits (s : State) (a : Nat) : Bool := blockMoving s a || s.ledg.moves.any (fun m => m.block == a / 4096 && m.early && m.retired)

/-- A move of a block that has not reached its commit point is given up; its spare is free again. -/
def dropMove (m : Move) (s : State) : State :=
  let s1 := s.modLedg (fun l => { l with moves := l.moves.filter (· != m), spares := l.spares ++ [m.new] })
  if m.retired then s1.put F.LEDG_WEAR_SPARES (s1.get F.LEDG_WEAR_SPARES + 1) else s1

/-- A line of the new block fails its verify twice (R68): that block is retired, and the copy is made into another spare; without one the move
is given up. -/
def copyFailed (m : Move) (q : List Move) (s : State) : State :=
  match leastWorn s with
  | some p => spareLess (s.modLedg (fun l => { l with moves := { m with new := p } :: q, spares := l.spares.filter (· != p) }))
  | none =>
    let s1 := noSpare (4096 * m.block) (s.modLedg (fun l => { l with moves := q }))
    if m.retired then s1 else spareLess s1

/-- The cells of a block that has been copied hold their lines corrected; a line that reads uncorrectable is copied as it is. -/
def copiedCells (b : Nat) (s : State) : State :=
  s.modLedg (fun l => { l with flips := l.flips.filter (fun f => f.addr / 4096 != b || (badKeys s).contains (checkUnit f.addr)) })

/-- The next step of the move in progress ends (R67): the copy of the 64 lines, which are read and programmed; the program of the move
record, the commit point; that of the block map; that of the retire record. -/
def moveStep (v : Verify) (s : State) : State :=
  match s.ledg.moves with
  | [] => s
  | m :: q => match m.stage with
    | .copy =>
      let s1 := forUpTo 64 (fun i s => wearLine (m.new * 64 + i) (meetLine (m.block * 4096 + 64 * i) s)) s
      let s2 := if v = .good then s1 else wearLine (m.new * 64) s1
      if v = .failed then copyFailed m q s2 else s2.modLedg (fun l => { l with moves := { m with stage := .record } :: q })
    | .record =>
      let (ok, s1) := programJournal v (.move m.block m.old m.new) s
      if ok then copiedCells m.block (s1.modLedg (fun l => { l with
        moves := { m with stage := .map } :: l.moves.drop 1
        blockMap := mapSet id l.blockMap m.block m.new
        spares := l.spares ++ (if m.retired then [] else [m.old]) }))
      else dropMove m s1
    | .map =>
      let (ok, s1) := storeMap v s
      s1.modLedg (fun l => { l with moves := (if ok then [{ m with stage := .retire }] else []) ++ l.moves.drop 1 })
    | .retire => (programJournal v (.moveRetire m.block) s).2.modLedg (fun l => { l with moves := l.moves.drop 1 })

/-- What the verify of a program finds that no command reports. -/
def State.freeVerify (s : State) : Verify × State :=
  let (n, s1) := s.free
  (if n % 3 = 0 then .good else if n % 3 = 1 then .retried else .failed, s1)

/-- Steps of moves until none is left; each goes on with its move, uses up a spare or gives the move up. -/
def finishSome : Nat → State → State
  | 0, s => s
  | n + 1, s =>
    if s.ledg.moves.isEmpty then s
    else
      let (v, s1) := s.freeVerify
      finishSome n (moveStep v s1)

/-- Every move is carried to its end. -/
def finishMoves (s : State) : State := finishSome 4096 s

/-! Write buffers (R62). -/

/-- The oldest line of a bank's buffer whose program can take place. -/
def nextLine (s : State) (b : Nat) : Option BufLine := (nth s.ledg.bufs b []).find? (fun e => !lineWaits s e.cells.line)

/-- A line leaves its bank's buffer. -/
def dropBuf (b : Nat) (e : BufLine) (s : State) : State := s.modLedg (fun l => { l with bufs := upd l.bufs b (·.erase e) })

/-- The program of a bank's oldest buffered line ends (R62, R67, R68). A line of a block that is being moved waits for the move; so does
the line whose block is retired, which is then programmed in the spare. Without a spare it keeps its old contents. -/
def lineDone (b : Nat) (v : Verify) (s : State) : State :=
  match nextLine s b with
  | none => s
  | some e =>
    let (ok, s1) := programAs v e.cells.line s
    if !ok then reportFailed e.writer (restoreCells e.cells (dropBuf b e s1))
    else if v = .failed then s1
    else dropBuf b e s1

/-- Lines of a bank's buffer are programmed until no more than `m` are left. -/
def drainBank (m b : Nat) : Nat → State → State
  | 0, s => s
  | n + 1, s =>
    if (nth s.ledg.bufs b []).length ≤ m then s
    else drainBank m b n (match nextLine s b with
      | none => finishMoves s
      | some _ => let (v, s1) := s.freeVerify; lineDone b v s1)

/-! Records that are being programmed (R427). -/

/-- A system record has been programmed, or keeps its old contents and is programmed again behind the others (R68). -/
def recordTried (r : RecordKind) (u : Nat) (p : Bool × State) (f : Records → Records) : State :=
  if p.1 then { p.2 with recs := f p.2.recs } else reportFailed u (p.2.modLedg (fun l => { l with recPend := l.recPend ++ [r] }))

/-- Index of the line in which a record of the queue lies. -/
def RecordKind.ix : RecordKind → Nat
  | .fresh p _ => recFreshIx p
  | .serial _ => recSerialIx
  | .cascadeId _ => recCascadeIx

/-- A record of the system records is durable (R104, R207, R286). A program into a block that is being moved is held (Table 4.2). -/
def recordDone (v : Verify) (s : State) : State :=
  match s.ledg.recPend with
  | [] => s
  | r :: q =>
    if blockMoving s (recLine r.ix) then s
    else
      let p := programRecord v r.ix (s.modLedg (fun l => { l with recPend := q }))
      match r with
      | .fresh n x => recordTried r 0x7A p (fun c => { c with fresh := upd c.fresh n (fun _ => some x) })
      | .serial x => recordTried r 0x77 p (fun c => { c with serial := some x })
      | .cascadeId x => recordTried r 0x71 p (fun c => { c with casId := some x })

/-- A record is to be programmed. -/
def storeRecord (r : RecordKind) (s : State) : State := s.modLedg (fun l => { l with recPend := l.recPend ++ [r] })

/-! Transactions (R69 to R71). -/

def isPortUnit (u : Nat) : Bool := 0x41 ≤ u && u ≤ 0x60

/-- Transactions open device-wide, those of port engines apart (R69, LEDG_JRNL.OPEN_TXN). -/
def openTxns (s : State) : Nat := (s.ledg.txns.filter (fun t => !isPortUnit t.owner && t.phase != .committed)).length

/-- The transaction an owner is gathering or committing. -/
def txnOf (s : State) (u : Nat) : Option Txn := s.ledg.txns.find? (fun t => t.owner == u && t.phase != .committed)

/-- LEDG_TXN of a port: banked, so the management port's copy lies apart (R86). -/
def txnReg (u : Nat) : Nat := if u = 0x76 then A.LEDG_TXN + 2 ^ 32 else A.LEDG_TXN

/-- A flag of the owner's interface: CONFLICT, OVERFLOW or REFUSED (R69, R70, R245). -/
inductive TxnFlag where
  | conflict | overflow | refused
  deriving DecidableEq, Repr

def setTxnFlag (u : Nat) (f : TxnFlag) (s : State) : State :=
  if u ≤ 0x40 then s.modCore u (fun c => match f with
    | .conflict => { c with txnConf := true }
    | .overflow => { c with txnOver := true }
    | .refused => { c with txnRef := true })
  else if u = 0x75 ∨ u = 0x76 then
    s.mark ⟨txnReg u, (match f with | .conflict => 16 | .overflow => 15 | .refused => 14), 1⟩
  else s

/-- Take an owner's transaction that is not past its commit point out. -/
def dropTxn (u : Nat) (s : State) : State :=
  s.modLedg (fun l => { l with txns := l.txns.filter (fun t => t.owner != u || t.phase == .committed) })

/-- Change an owner's transaction that is not past its commit point. -/
def modTxn (u : Nat) (f : Txn → Txn) (s : State) : State :=
  s.modLedg (fun l => { l with txns := l.txns.map (fun t => if t.owner == u && t.phase != .committed then f t else t) })

/-- OPEN (R69): refused beyond 16, ignored when one is open. -/
def txnOpen (u : Nat) (s : State) : State :=
  if (txnOf s u).isSome then s
  else if !isPortUnit u && 16 ≤ openTxns s then setTxnFlag u .refused s
  else s.modLedg (fun l => { l with
    txns := l.txns ++ [⟨u, l.nextTxn, .opened, [], false, .none, []⟩], nextTxn := (l.nextTxn + 1) % 2 ^ 32 })

/-- Writes of an open transaction that are held (R71). -/
def heldIn (s : State) (t : Txn) : Bool := s.ledg.held.any (fun h => match h with | .write _ _ _ n => n == some t.serial | .commit _ => false)

/-- COMMIT (R70): fails by conflict, or starts phase 1; behind a held write of the transaction it waits with it. -/
def txnCommit (u : Nat) (s : State) : State :=
  match txnOf s u with
  | none => s
  | some t =>
    if t.phase ≠ .opened || s.ledg.held.contains (.commit u) then s
    else if heldIn s t then s.modLedg (fun l => { l with held := l.held ++ [.commit u] })
    else if t.conflict then (match t.act with | .none => setTxnFlag u .conflict (dropTxn u s) | _ => dropTxn u s)
    else modTxn u (fun t => { t with phase := .committing }) s

/-- ABORT (R69). -/
def txnAbort (u : Nat) (s : State) : State :=
  match txnOf s u with
  | none => s
  | some t => if t.phase = .opened then (dropTxn u s).modLedg (fun l => { l with held := l.held.filter (· != .commit u) }) else s

/-- Place the lines of a transaction, all at once (R70). -/
def placeLines (ls : List (Nat × List Byte)) (s : State) : State :=
  ls.foldl (fun s e =>
    let s1 := putBytes e.1 e.2 (heal e.1 s)
    s1.modLedg (fun l => { l with bufs := upd l.bufs (ledgBank e.1) (·.filter (fun b => b.cells.line != e.1)) })) s

/-! Reads and writes. -/

/-- A byte as an owner sees it: its own open transaction's contents, else the memory (R69). -/
def viewByte (s : State) (u a : Nat) : Byte :=
  match (txnOf s u).bind (fun t => t.lines.find? (fun e => e.1 == lineOf a)) with
  | some e => e.2.getD (a % 64) 0#8
  | none => s.byte a

/-- A read by `u` at `a` is answered by its own open transaction, not from the cells (R69). -/
def ownLine (s : State) (u a : Nat) : Bool := ((txnOf s u).map (fun t => t.lines.any (fun e => e.1 == lineOf a))).getD false

/-- A read by `u` at `a` meets an uncorrectable error of the cells (R64, R69). -/
def cellsBad (s : State) (u a : Nat) : Bool := poisonAt s a && !ownLine s u a

/-- A read by `u` at `a` is answered with poisoned beats: by the cells, or by an arbiter whose bank the unit's mask leaves out (R64, R80). -/
def poisonFor (s : State) (u a : Nat) : Bool := !maskOk s u (busBank a) || cellsBad s u a

/-- A line with bytes merged at an offset (R62). -/
def mergeLine (old : List Byte) (off : Nat) (b : List Byte) : List Byte := old.take off ++ b ++ old.drop (off + b.length)

/-- A full buffer has room again once a line of it is programmed (R62). -/
def makeRoom (k : Nat) (s : State) : State := drainBank 15 k 2048 s

/-- A direct write to part of one line: into the bank's buffer (R62). A line that waits there takes the write with it; else a full buffer
makes room first, and a write of part of the line reads the rest. -/
def bufferWrite (u a : Nat) (b : List Byte) (s : State) : State :=
  let l := lineOf a
  let k := ledgBank a
  if (nth s.ledg.bufs k []).any (fun e => e.cells.line == l) then putBytes a b (heal a s)
  else
    let s0 := makeRoom k (if b.length < 64 then meetLine l s else s)
    let s1 := s0.modLedg (fun g => { g with bufs := upd g.bufs k (· ++ [⟨cellsOf s0 l, u⟩]) })
    putBytes a b (heal a s1)

/-- Lines that `u` has written: an open transaction of another owner that holds one of them will fail (R70, Table 4.2). -/
def doomOthers (u : Nat) (ls : List Nat) (s : State) : State :=
  s.modLedg (fun g => { g with txns := g.txns.map (fun t =>
    if t.owner != u && t.phase == .opened && t.lines.any (fun e => ls.contains e.1) then { t with conflict := true } else t) })

/-- A line of a transaction past its commit point and not yet retired (R71). -/
def lineHeld (s : State) (a : Nat) : Bool := s.ledg.txns.any (fun t => t.phase == .committed && t.lines.any (fun e => e.1 == lineOf a))

/-- A write is held. -/
def holdWrite (u a : Nat) (b : List Byte) (n : Option Nat) (s : State) : State :=
  s.modLedg (fun g => { g with held := g.held ++ [.write u a b n] })

/-- A write outside a transaction (R62, R71, Table 4.2): held while its line belongs to a transaction not yet retired, or to a block
that is being moved. -/
def directWrite (u a : Nat) (b : List Byte) (s : State) : State :=
  if lineHeld s a || blockMoving s a then holdWrite u a b none s
  else bufferWrite u a b (doomOthers u [lineOf a] s)

/-- A write to part of one line enters the transaction its unit has open (R69). -/
def txnWrite (u : Nat) (t : Txn) (a : Nat) (b : List Byte) (s : State) : State :=
  let l := lineOf a
  if lineHeld s a then holdWrite u a b (some t.serial) s
  else if t.lines.any (fun e => e.1 == l) then
    modTxn u (fun t => { t with lines := t.lines.map (fun e => if e.1 == l then (l, mergeLine e.2 (a % 64) b) else e) }) s
  else if 12 ≤ t.lines.length then setTxnFlag u .overflow (dropTxn u s)
  else modTxn u (fun t => { t with lines := t.lines ++ [(l, mergeLine (s.bytes l 64) (a % 64) b)] }) (if b.length < 64 then meetLine l s else s)

/-- A write to part of one line by unit `u` (R62, R69, R80): into its open transaction, or direct; none outside its mask. DESIGN CHOICE: a write
by an owner whose COMMIT is in progress is a direct one, over which the image of the line is placed at the commit point; R69 speaks of an
open transaction only. -/
def writeInLine (u a : Nat) (b : List Byte) (s : State) : State :=
  if !maskOk s u (busBank a) then s
  else match txnOf s u with
    | some t => if t.phase = .opened then txnWrite u t a b s else directWrite u a b s
    | none => directWrite u a b s

/-- What was held is done again (R71, R72): a write of a transaction that is gone is dropped with it; what is still held is held again. -/
def redoHeld (s : State) : State :=
  s.ledg.held.foldl (fun s h => match h with
    | .write u a b none => directWrite u a b s
    | .write u a b (some n) => (match txnOf s u with
      | some t => if t.serial = n ∧ t.phase = .opened then txnWrite u t a b s else s
      | none => s)
    | .commit u => txnCommit u s) (s.modLedg (fun g => { g with held := [] }))

/-- A write to the ledger, line by line. -/
def ledgerWrite : Nat → Nat → Nat → List Byte → State → State
  | 0, _, _, _, s => s
  | n + 1, u, a, b, s =>
    if b.isEmpty then s
    else
      let k := 64 - a % 64
      ledgerWrite n u (a + k) (b.drop k) (writeInLine u a (b.take k) s)

/-- A write by unit `u` of bytes that lie in one memory. -/
def memWrite (u a : Nat) (b : List Byte) (s : State) : State :=
  if inLedger a then ledgerWrite (b.length / 64 + 2) u a b s
  else if inPigeon a then pigeonWrite u a b s
  else s

/-- The next `n` lines of the journal can be programmed: none lies in a block that is being moved (Table 4.2). -/
def journalFree (s : State) (n : Nat) : Bool := (List.range n).all (fun i => !blockMoving s (jrnlAddr ((s.ledg.jrnlPos + i) % 4096)))

/-- Commit point of an owner's transaction (R70): its images and its commit record are programmed, and every line becomes visible; a
program that fails without a spare fails the transaction (R68). The flag tells which. -/
def commitLines (u : Nat) (vs : List Verify) (s : State) : Bool × State :=
  match txnOf s u with
  | none => (false, s)
  | some t =>
    if t.phase ≠ .committing then (false, s)
    else
      let (ok, s1) := programJournals vs (t.lines.map (fun e => .image t.serial e.1 e.2) ++ [.commit t.serial u (t.lines.map (·.1))]) s
      if !ok then (false, reportFailed u (dropTxn u s1))
      else
        let homes := t.lines.map (fun e => cellsOf s1 e.1)
        let s2 := placeLines t.lines s1
        (true, doomOthers u (t.lines.map (·.1)) ((dropTxn u s2).modLedg (fun l => { l with
          txns := l.txns ++ [{ t with phase := .committed, homes := homes }] })))

/-- A transaction's lines are programmed at home, each with what its verify finds; one that fails keeps its old contents (R68, R70). -/
def programHomes (u : Nat) : List Verify → List OldLine → State → State
  | _, [], s => s
  | vs, h :: hs, s =>
    let (ok, s1) := programAs (vs.headD .good) h.line s
    programHomes u (vs.drop 1) hs (if ok then s1 else reportFailed u (restoreCells h s1))

/-- An owner's committed transaction may be retired: no transaction committed before it holds a line of it, and neither one of its lines nor
the next of the journal lies in a block being moved (R67, R71). -/
def mayRetire (s : State) (t : Txn) : Bool :=
  !((s.ledg.txns.filter (·.phase == .committed)).takeWhile (· != t)).any (fun o => o.lines.any (fun e => t.lines.any (fun d => d.1 == e.1))) &&
  !t.lines.any (fun e => blockMoving s e.1) && journalFree s 1

/-- The retire record of an owner's committed transaction (R70, R71): the lines are home, and the held writes proceed. A record whose program
fails without a spare is not durable: the transaction is not retired, and its writes stay held. -/
def retireTxn (u : Nat) (vs : List Verify) (s : State) : State :=
  match s.ledg.txns.find? (fun t => t.owner == u && t.phase == .committed) with
  | none => s
  | some t =>
    if !mayRetire s t then s
    else
      let s1 := (programHomes u vs t.homes s).modLedg (fun l => { l with verify := [] })
      let (ok, s2) := programJournal ((vs.drop t.homes.length).headD .good) (.retire t.serial) s1
      if ok then redoHeld (s2.modLedg (fun l => { l with txns := l.txns.filter (fun x => x.serial != t.serial) })) else reportFailed 0x7A s2

/-- What a reset finds in the cells (R62, R67, R70, R72): lines not yet programmed at home hold what they held, and a move before its commit
point has not taken place. What the journal holds is for the replay. -/
def losePower (s : State) : State :=
  let s1 := s.ledg.bufs.foldl (fun s q => q.reverse.foldl (fun s e => restoreCells e.cells s) s) s
  let s2 := (s1.ledg.txns.filter (fun t => t.phase == .committed)).reverse.foldl (fun s t => t.homes.foldl (fun s h => restoreCells h s) s) s1
  let s3 := (s2.ledg.moves.filter Move.early).foldl (fun s m => dropMove m s) s2
  s3.modLedg (fun l => { l with bufs := List.replicate 8 [], recPend := [], held := [], failed := [], verify := [], txns := [], moves := [] })

/-- Every buffered line and pending record is programmed (Table 18.4, step 4; Table 18.3). -/
def drainBuffers (s : State) : State :=
  let s1 := forUpTo 8 (fun b s => drainBank 0 b 2048 s) (finishMoves s)
  iter s1.ledg.recPend.length (fun s => let (v, s2) := (finishMoves s).freeVerify; recordDone v s2) s1

/-! The journal as it is read (R70). -/

/-- The bytes of a commit record: header, addresses and CRC-32. -/
def commitBytes (serial owner : Nat) (ls : List Nat) : List Byte :=
  let b := leBytes 4 serial ++ leBytes 1 ls.length ++ leBytes 1 owner ++ [0, 0] ++ (ls.map (leBytes 4)).flatten
  b ++ leBytes 4 (crc32 b)

/-- Journal lines from the oldest to the newest. -/
def journalInOrder (s : State) : List (Nat × JrnlEntry) :=
  s.ledg.journal.filter (fun e => decide (s.ledg.jrnlPos ≤ e.1)) ++ s.ledg.journal.filter (fun e => decide (e.1 < s.ledg.jrnlPos))

/-! The checks of one access (R63, R65). -/

/-- A ledger line read with `w` words corrected; it is rewritten in place when they are two or more. A line that is to be programmed at
home after its commit, or that is being copied, is not written a second time. -/
def ledgerCorrected (a w : Nat) (s : State) : State :=
  let s1 := noteCorrected a s
  if 2 ≤ w && !lineHeld s1 a && !blockMoving s1 a then bufferWrite 0x7A (lineOf a) (s1.bytes (lineOf a) 64) s1 else s1

/-- A pigeonhole word corrected and written back. -/
def pigeonCorrected (a : Nat) (s : State) : State := heal a ((s.incSat F.PIGN_ECC_CE_COUNT).mark F.PIGN_STAT_CE)

/-- What a read of the cells at `a` meets: nothing, an error it corrects, or an error it cannot correct. -/
def readEffect (a : Nat) (s : State) : State :=
  if poisonAt s a then uncorrectable a s
  else
    let w := (sortNat ((flipsAt s a).map (·.addr))).length
    if w = 0 then s else if inLedger a then ledgerCorrected a w s else pigeonCorrected a s

/-- Every line or word of an area is read, in order; only one that holds a turned cell meets anything. -/
def readArea (a n : Nat) (s : State) : State :=
  (sortNat ((s.ledg.flips.map (fun f => checkUnit f.addr)).filter (fun x => decide (a < x + (if inLedger x then 64 else 8)) && decide (x < a + n)))).foldl
    (fun s x => readEffect x s) s

/-- A read at `a` by unit `u`: outside its mask the arbiter answers, and a line of its own transaction is not read from the cells. -/
def readAs (u a : Nat) (s : State) : State := if !maskOk s u (busBank a) || ownLine s u a then s else readEffect a s

/-- Lines or words a read of `n` bytes from `a` meets, each once. -/
def unitsOf (a n : Nat) : List Nat :=
  let k := if inLedger a then 64 else 8
  (List.range ((a % k + n + k - 1) / k)).map (fun i => a / k * k + k * i)

/-- A read of `n` bytes from `a` by unit `u`. -/
def readSpan (u a n : Nat) (s : State) : State := (unitsOf a n).foldl (fun s x => readAs u x s) s

/-- The bytes a read by `u` of `n` from `a` gives, after the checks of the lines and words it meets; the value of a poisoned byte is not stated. -/
def bytesAs (u n a : Nat) (s0 : State) : List Byte × State :=
  let s := readSpan u a n s0
  if (unitsOf a n).any (fun x => poisonFor s u x) then
    (List.range n).foldl (fun p i =>
      if poisonFor s u (a + i) then let (v, s1) := p.2.free; (p.1 ++ [BitVec.ofNat 8 v], s1) else (p.1 ++ [s.byte (a + i)], p.2)) ([], s)
  else (s.bytes a n, s)

end Sys2Proof.Machine
end

