-- ==== Sys2Proof/Machine/Trap.lean ====
section
/-!
DEFINITION. Taking a trap or the EVENT interrupt in a core, and the return from it (11, R241, R243, R244, R247, R266, R267).
-/

namespace Sys2Proof.Machine

/-- Private memory and the vector page. -/
def Core.priv (k : Core) (a : Nat) : Byte := mapGet memDefault k.mem a
def Core.setPriv (k : Core) (a : Nat) (b : Byte) : Core :=
  { k with mem := mapSet memDefault k.mem a b, memBad := if k.memBad.contains (a / 4 * 4) then k.memBad.filter (· != a / 4 * 4) else k.memBad }
def Core.word (k : Core) (a : Nat) : BitVec 16 := k.priv (a + 1) ++ k.priv a

/-- Steps charged to a core (R241); those of run-ahead show only once it has committed (R56). -/
def chargeCore (c n : Nat) (s : State) : State :=
  let s1 := s.modCore c (fun k => { k with steps := k.steps + n })
  if ((s.core c).bind (·.spec)).isSome then s1 else noteSteps c s1

/-- Push PC high, PC low and FL, clear I, and load PC from a vector (R244). None when a push would fall outside private memory. -/
def enterVector (vec : Nat) (k : Core) : Option Core :=
  let sp := k.r.sp
  let a1 := (sp - 1).toNat
  let a2 := (sp - 2).toNat
  let a3 := (sp - 3).toNat
  if 0x7FFF < a1 ∨ 0x7FFF < a2 ∨ 0x7FFF < a3 then none
  else
    let k1 := ((k.setPriv a1 ((k.r.pc >>> 8).setWidth 8)).setPriv a2 (k.r.pc.setWidth 8)).setPriv a3 k.r.fl
    some { k1 with r := { k1.r with sp := sp - 3, fl := setFl k1.r.fl flI false, pc := k.word vec }, series := .idle }

/-- The TRAP entry of the day book (Table 18.8). -/
def trapEntry (c cause pc : Nat) (s : State) : State :=
  dayPush c 0x09 (((s.core c).map (fun k => (k.priv pc).toNat)).getD 0) (pc + cause * 2 ^ 16 + s.get (F.SRT_STAT_TDEPTH c) * 2 ^ 20) s

/-- A third fault of a core (R244, R266, R367), with the PC at which it was met; of a postmaster that is handling a fault, safe hold, where its
secondary slot takes this fault (R369). -/
def coreThird (c code pc : Nat) (s : State) : State :=
  let s1 := s.modCore c (fun k => { k with series := .idle })
  if c = 0 ∧ pmHandling s1 then pmSecond 2 code pc (trapEntry 0 code pc s1) else storm c 2 code s1

/-- A core takes the trap of a cause (Table 11.7); PC already stands at the instruction. A trap of a postmaster that is handling a fault is
taken too, and enters safe hold (R266, R369). -/
def coreTrap (c cause : Nat) (s : State) : State :=
  match s.core c with
  | none => s
  | some k =>
    let depth := s.get (F.SRT_STAT_TDEPTH c)
    let pc := k.r.pc.toNat
    if 2 ≤ depth ∨ 4 ≤ k.entries.length then coreThird c cause pc s
    else match enterVector (0xFF00 + 2 * (cause - 1)) k with
      | none => coreThird c 4 pc s
      | some k1 =>
        let again := decide (c = 0) && pmHandling s
        let s1 := trapEntry c cause pc s
        let s2 := s1.modCore c (fun _ => { k1 with entries := .trap depth :: k1.entries })
        let s3 := loadSlot c (depth == 1 || again) 2 cause pc s2
        let s4 := if depth = 0 then (s3.put (F.SRT_TRAP_CAUSE1 c) cause).put (F.SRT_TRAP_PC1 c) pc
                  else (s3.put (F.SRT_TRAP_CAUSE2 c) cause).put (F.SRT_TRAP2_PC2 c) pc
        let s5 := chargeCore c 4 (s4.put (F.SRT_STAT_TDEPTH c) (depth + 1))
        if again then enterSafe 0 2 s5 else s5

/-- The BUDGET trap (R241): the count is then BUDGET − TRAP_STEPS. -/
def budgetTrap (c : Nat) (s : State) : State :=
  coreTrap c 3 (s.modCore c (fun k => { k with steps := (s.get (F.SRT_BUDGET_BUDGET c) : Int) - k.trapSteps }))

/-- The EVENT interrupt is due at a boundary (R237, R244, R266). -/
def eventDue (k : Core) : Bool := getFl k.r.fl flI && !k.queue.isEmpty && decide (k.entries.length < 4)

/-- Enter the EVENT vector (R244). -/
def eventEntry (c : Nat) (s : State) : State :=
  match s.core c with
  | none => s
  | some k =>
    match enterVector 0xFF0A k with
    | none => coreThird c 4 k.r.pc.toNat s
    | some k1 => chargeCore c 4 (s.modCore c (fun _ => { k1 with entries := .event :: k1.entries }))

/-- What RTI does beside its pulls (R266, R366): the most recent entry ends; a trap's fault slot clears. -/
def endEntry (c : Nat) (s : State) : State :=
  match ((s.core c).map (fun k => k.entries)).getD [] with
  | Entry.trap d :: rest =>
    let s1 := s.modCore c (fun k => { k with entries := rest })
    let s2 := s1.put (F.SRT_STAT_TDEPTH c) (s1.get (F.SRT_STAT_TDEPTH c) - 1)
    clearSlot c (d == 1) s2
  | Entry.event :: rest => s.modCore c (fun k => { k with entries := rest })
  | [] => s

end Sys2Proof.Machine
end

