-- ==== Sys2Proof/Machine/Bus.lean ====
section
/-!
DEFINITION. The post bus (04, R75 to R81): requests, the order of grants, withdrawn grants. Phases and what the beats carry are in
BusPhase.lean.
-/

namespace Sys2Proof.Machine

def State.modArb (s : State) (b : Nat) (f : Arb → Arb) : State := { s with arbs := upd s.arbs b f }

/-- Order of grants in a turn (R77): committed work before work done ahead (R78), then higher priority, then lower unit ID. -/
def before (s : State) (p q : BusReq) : Bool :=
  if p.ahead != q.ahead then !p.ahead
  else
    let a := s.get (F.ARB_CFG_PRIO p.unit)
    let b := s.get (F.ARB_CFG_PRIO q.unit)
    if a != b then decide (b < a) else decide (p.unit < q.unit)

/-- The request a phase chooses among those sampled. -/
def choose (s : State) (l : List BusReq) : Option BusReq :=
  l.foldl (fun best r => match best with
    | none => some r
    | some q => if before s r q then some r else some q) none

/-- A request of a unit's committed work, or of its priority-0 work. -/
def BusReq.isOf (u : Nat) (ahead : Bool) (r : BusReq) : Bool := r.unit == u && r.ahead == ahead

/-- A request is raised on a bank (R77), or the one of the same unit and kind that stands there takes on what is to be carried. -/
def raiseReq (b u : Nat) (ahead : Bool) (p : BusPiece) (s : State) : State :=
  s.modArb b (fun a =>
    if a.reqs.any (·.isOf u ahead) then { a with reqs := a.reqs.map (fun r => if r.isOf u ahead then { r with pieces := r.pieces ++ [p] } else r) }
    else { a with reqs := a.reqs ++ [⟨u, ahead, [p], some s.tb⟩] })

/-- Beats of 16 bytes that a span touches (R75). -/
def beatsOf (a n : Nat) : Nat := (a + n - 1) / 16 - a / 16 + 1

/-- A span cut where a step of `k` bytes ends: first address and length of each part. -/
def cutSpan (k : Nat) : Nat → Nat → Nat → List (Nat × Nat)
  | 0, _, _ => []
  | f + 1, a, n => if n = 0 then [] else let m := min n (k - a % k); (a, m) :: cutSpan k f (a + m) (n - m)

/-- What an access of `n` bytes from `a` carries (R62, R75): in the ledger line by line, in pigeonhole memory beat by beat. -/
def piecesOf (a n : Nat) (data : Option (List Byte)) : List BusPiece :=
  ((cutSpan (if inLedger a then 64 else 16) (n / 16 + 2) a n).filter (fun p => inLedger p.1 || inPigeon p.1)).map (fun p =>
    ⟨p.1, p.2, data.map (fun d => (d.drop (p.1 - a)).take p.2), beatsOf p.1 p.2⟩)

/-- BANK_REQUEST (R75, R77): each part of the access joins the requests of its bank. A part outside the unit's mask is answered at once
with poisoned beats (R80), for which a core takes WINDOW; work done ahead takes no trap (R56). -/
def bankRequest (u : Nat) (ahead : Bool) (a : Nat) (acc : BusAccess) (s : State) : State :=
  let ps := match acc with
    | .read n => piecesOf (a / 16 * 16) (16 * n) none
    | .write d => piecesOf a d.length (some d)
  let s1 := (ps.filter (fun p => maskOk s u (busBank p.addr))).foldl (fun s p => raiseReq (busBank p.addr) u ahead p s) s
  if ps.any (fun p => !maskOk s u (busBank p.addr)) && u ≤ 0x40 && !ahead then coreTrap u 4 s1 else s1

/-- GRANT_WITHDRAWAL (R79): the requester granted and not yet begun lowers its request: one dead cycle, and nothing else. DESIGN CHOICE: until
the bank's next phase OWNER and IDLE go on showing the owner that has carried its last beat. -/
def grantWithdrawal (b : Nat) (s : State) : State :=
  match (s.arbs[b]?).bind (·.granted) with
  | none => s
  | some g =>
    (s.modArb b (fun a => { a with granted := none, reqs := a.reqs.filter (fun r => !r.isOf g.unit g.ahead) })).incWrap (F.ARB_BANK_STAT_DEAD b)

/-- The wait of R81 in beat times, of requester `r` on bank `b`: over every other unit enabled on the bank. -/
def busWait (mask burst : Nat → Nat) (r b : Nat) : Nat :=
  2 * ((List.range 128).filter (fun q => q != r && bit (mask q) b)).foldl (fun n q => n + burst q + 1) 0

end Sys2Proof.Machine
end

