-- ==== Sys2Proof/Machine/Gate.lean ====
section
/-!
DEFINITION. The gatekeeper (10): letters, the outbox, open letters and their copies, release, re-delivery, consumption.
The franking decision itself is with the load arithmetic in Franking.lean.
-/

namespace Sys2Proof.Machine

def State.modGate (s : State) (f : Gate → Gate) : State := { s with gate := f s.gate }

/-- The head office, or an acting one: CAS_STAT.ROLE (13). -/
def State.isHead (s : State) : Bool := s.get F.CAS_STAT_ROLE == 1 || s.get F.CAS_STAT_ROLE == 3

/-- Class figures of Table 1.6 in µs: local and per hop (R14). -/
def classLocal (c : Nat) : Nat := if c = 1 then 5000 else if c = 2 then 100000 else 10000000
def classHop (c : Nat) : Nat := if c = 1 then 200 else if c = 2 then 2000 else 20000
/-- Share windows of Table 10.5 in µs. -/
def classWindow (c : Nat) : Nat := if c = 1 then 200 else if c = 2 then 2000 else 20000

/-- A number of µs in whole postmark LSB, rounded down. -/
def usToLsb (us : Nat) : Nat := us * 2 ^ 24 / 1000000

/-- The deadline of a letter franked at `pf` (R206). -/
def deadline (c hops pf : Nat) : Nat := (pf + usToLsb (classLocal c + hops * classHop c)) % 2 ^ 64

/-- The letter with its CRC (Table 10.1). -/
def sealLetter (r : List Byte) : List Byte := let b := r.take 30; b ++ leBytes 2 (crc16 b)

/-- The letter as it is re-sent: RE is 1 and the CRC recomputed (R215). -/
def markRe (r : List Byte) : List Byte := sealLetter (recPut r 14 [BitVec.ofNat 8 (recByte14 r ||| 4)])

/-- The route of a kind: destination (1 head office) and class (R27, R205). -/
def routeOf (s : State) (kind : Nat) : Option (Nat × Nat) :=
  (s.rmap.routes.find? (fun r => r.rtype == 3 && r.source == kind)).map (fun r => (r.target % 256, r.target / 256))

/-! Open letters (R210). -/

/-- Open head-office letters of a class: the credits in use (R209). -/
def creditsHeld (s : State) (c : Nat) : Nat :=
  (s.gate.opened.filter (fun l => recDest l.body && recClass l.body == c)).length
/-- The credits less those open letters hold, at least 0 (R209, R214, R221). -/
def credFree (s : State) (c : Nat) : Nat := s.get (F.GATE_QUOTA_CRED (c - 1)) - creditsHeld s c
/-- CRED_FREE as it reads: 0 from reset until a path first stands (R214, Table 10.10). -/
def credFreeRead (s : State) (c : Nat) : Nat := if s.gate.stood then credFree s c else 0

/-- The lowest free slot of the ring (R377). -/
def freeSlot (s : State) : Nat :=
  ((List.range 3840).find? (fun i => !(s.gate.opened.any (fun l => l.slot == i)))).getD 3839

/-- Put a letter's copy into its ring slot, unless the ring is frozen (R377, R378). -/
def ringPut (slot : Nat) (b : List Byte) (s : State) : State :=
  if s.flag F.DLF_STAT_FROZEN then s
  else match s.part 5 with
    | none => s
    | some p => pigeonWrite 0x7F (p.base + 32 * slot) b s

/-- A core's reloaded demand ends with its last reloaded open letter (R380). -/
def dropFsum (u : Nat) (s : State) : State :=
  if s.gate.opened.any (fun l => l.reloaded && recOrigin l.body == u) then s
  else s.modGate (fun g => { g with fsum := upd g.fsum u (fun _ => 0) })

/-- An open letter closes or is released: its copy and its demand go (R210, R214, R377). -/
def closeOpen (l : OpenLetter) (s : State) : State :=
  let s1 := s.modGate (fun g => { g with opened := g.opened.filter (fun x => recSerial x.body != recSerial l.body) })
  dropFsum (recOrigin l.body) (ringPut l.slot (List.replicate 32 0#8) s1)

/-- Close the open letter of a serial, if it is still open (Table 10.7). -/
def closeSerial (serial : Nat) (s : State) : State :=
  match s.gate.opened.find? (fun l => recSerial l.body == serial) with
  | none => s
  | some l => closeOpen l s

/-- Whether an outage of LK0 is in progress (R293). -/
def lk0Outage (s : State) : Bool := ((s.links[0]?).bind (·.outage)).isSome

/-- Re-deliveries remain: letters due, or re-sent and not yet sent on LK0 (R215, R372). -/
def redeliveryLeft (s : State) : Bool :=
  s.gate.opened.any (·.due) || s.gate.up.any (fun l => l.any (fun b =>
    recRe b && s.gate.opened.any (fun o => recDev o.body == recDev b && recSerial o.body == recSerial b)))

/-- The recovery intervals of the device and of LK0 end with the last re-delivery (R372). -/
def redeliveryDone (s : State) : State :=
  if s.quiet || redeliveryLeft s then s
  else
    let s1 := closeRecovery 0x100 s
    if lk0Outage s1 then s1 else closeRecovery 0x110 s1

/-! The bell (R223, R317). -/

/-- Letters held in the outbox. -/
def obxHeld (s : State) : Nat :=
  let n := s.get F.GATE_OBX_LEN_LETTERS
  if n = 0 then 0 else (s.get F.GATE_OBX_WR_IDX + n - s.get F.GATE_OBX_RD_IDX) % n

/-- The outbox's bell request (R223). -/
def bellRequest (s : State) : Bool := s.flag F.GATE_OBX_CTRL_BELL_EN && obxHeld s != 0

/-- BELL_UPDATE (R317): DRIVE rises with the request and falls with it. A new letter, or a POP that leaves letters held, clears ANSWERED while the
request stands, and DRIVE returns. -/
def bellUpdate (fresh : Bool) (s : State) : State :=
  let req := bellRequest s
  let s1 := if fresh && req then s.put F.TWP_ALERT_ANSWERED 0 else s
  (s1.putB F.TWP_ALERT_REQ req).putB F.TWP_ALERT_DRIVE (req && (fresh || !s.flag F.TWP_ALERT_REQ || s.flag F.TWP_ALERT_DRIVE))

/-! The host outbox (R222). -/

/-- A letter of pigeonhole memory at `a` reads uncorrectable for unit `u` (R65, R80). -/
def letterBad (s : State) (u a : Nat) : Bool := (List.range 4).any (fun i => poisonFor s u (a + 8 * i))

/-- Where the letter at an index of the outbox lies. -/
def obxPlace (s : State) (i : Nat) : Nat := s.get F.GATE_OBX_BASE_ADDR + 32 * i

/-- The letter at an index of the outbox. -/
def obxLetter (s : State) (i : Nat) : List Byte := s.bytes (obxPlace s i) 32

/-- Indexes of the unconsumed letters, oldest first. -/
def obxHeldAt (s : State) : List Nat :=
  (List.range (obxHeld s)).map (fun i => (s.get F.GATE_OBX_RD_IDX + i) % s.get F.GATE_OBX_LEN_LETTERS)

/-- The gatekeeper reads letters of the outbox (R65). -/
def readLetters (is : List Nat) (s : State) : State := is.foldl (fun s i => readSpan 0x77 (obxPlace s i) 32 s) s

/-- The letters of these indexes that the gatekeeper can read (R80, R373). -/
def soundLetters (s : State) (is : List Nat) : List (List Byte) :=
  (is.filter (fun i => !letterBad s 0x77 (obxPlace s i))).map (obxLetter s)

/-- The unconsumed letters that can be read, oldest first. -/
def obxLetters (s : State) : List (List Byte) := soundLetters s (obxHeldAt s)

/-- Write a letter into the outbox. -/
def obxWrite (b : List Byte) (s : State) : State :=
  let n := s.get F.GATE_OBX_LEN_LETTERS
  let w := s.get F.GATE_OBX_WR_IDX
  if n = 0 then s
  else bellUpdate true ((pigeonWrite 0x77 (s.get F.GATE_OBX_BASE_ADDR + 32 * w) b s).put F.GATE_OBX_WR_IDX ((w + 1) % n))

/-- A re-delivered letter whose original waits unconsumed (R216). -/
def obxDuplicate (b : List Byte) (s : State) : Bool :=
  recRe b && (obxLetters s).any (fun l => recDev l == recDev b && recSerial l == recSerial b)

/-- DUPLICATE_DROP (R216), else the letter enters the outbox. -/
def obxReceive (b : List Byte) (s0 : State) : State :=
  let s := if recRe b then readLetters (obxHeldAt s0) s0 else s0
  if obxDuplicate b s then
    (s.incSat F.GATE_CNT_DUP_DUP_DROP).mark F.GATE_STAT_DUP
  else obxWrite b s

/-- Up-link pigeonhole of a class (R73, R212). -/
def upPart (s : State) (c : Nat) : Option Part := s.parts.find? (fun p => p.ptype == 3 && p.owner == 0x71 && p.cls == c)

/-- Letters that a partition holds (R74). -/
def Part.letters (p : Part) : Nat := p.len / 32

/-- Where the next letter of class `c` + 1 is written in its pigeonhole. -/
def upPlace (s : State) (c : Nat) : Option Nat := (upPart s (c + 1)).map (fun p => p.base + 32 * (nth s.gate.upAt c 0 % p.letters))

/-- Where the oldest letter of class `c` + 1 stands in its pigeonhole. -/
def upHead (s : State) (c : Nat) : Option Nat := (upPart s (c + 1)).map (fun p =>
  p.base + 32 * ((nth s.gate.upAt c 0 + p.letters - (nth s.gate.up c []).length) % p.letters))

/-- A letter enters the up-link pigeonhole of its class (R212). -/
def upWrite (b : List Byte) (s : State) : State :=
  let c := recClass b - 1
  let s1 := match upPlace s c with
    | none => s
    | some a => pigeonWrite 0x77 a b s
  let n := ((upPart s (c + 1)).map Part.letters).getD 1
  s1.modGate (fun g => { g with up := upd g.up c (· ++ [b]), upAt := upd g.upAt c (fun i => (i + 1) % n) })

/-- The copy of an open letter in the ring reads uncorrectable (R373). -/
def copyBad (s : State) (slot : Nat) : Bool := (s.part 5).any (fun p => letterBad s 0x7F (p.base + 32 * slot))

/-- The gatekeeper reads the copy of an open letter in the ring (R215). -/
def readCopy (slot : Nat) (s : State) : State :=
  match s.part 5 with
  | none => s
  | some p => readSpan 0x7F (p.base + 32 * slot) 32 s

/-- An acknowledgement towards a device: it joins the newest waiting ACK frame bound there while that holds fewer than five, else it waits
in a frame of its own (R284). -/
def ackOnto (d : Nat) (pair : List Byte) (tx : List (List Byte)) : List (List Byte) :=
  match tx.reverse.span (fun f => !(frType f == ftAck && frDst f == d && decide (f.length < 34))) with
  | (later, f :: older) => (later ++ mkFrame ftAck d (frBody f ++ pair) :: older).reverse
  | (_, []) => tx ++ [mkFrame ftAck d pair]

/-- The head office acknowledges a letter's consumption towards the device that franked it (R222, R284); without a route the
acknowledgement is dropped and counted (Table 13.6): by the port of its route, or, where no route is left, by LK0 (DESIGN CHOICE). -/
def sendAck (d serial : Nat) (s : State) : State :=
  let k := routeAt s d
  if k = 0 ∨ !(linkUp s k || (s.link k).outage.isSome) then s.incSat (F.CAS_L_CNT_DROP k)
  else s.modLink k (fun l => { l with tx := ackOnto d (leBytes 2 d ++ leBytes 4 serial) l.tx })

/-- A letter's consumption (R222). A letter for the local outbox is this device's own, whatever ID the device has since taken; one for the
head office was franked elsewhere (Table 10.2, R205). -/
def consume (b : List Byte) (s : State) : State :=
  if !recDest b then
    let f := F.GATE_USE_OBX_USED (recClass b - 1)
    closeSerial (recSerial b) (s.put f (s.get f - 1))
  else sendAck (recDev b) (recSerial b) s

/-- OUTBOX_POP (R222). A letter that reads uncorrectable is dropped: it stays open where it was franked (R373). -/
def outboxPop (k : Nat) (s0 : State) : State :=
  if k = 0 then s0
  else if obxHeld s0 < k then s0.mark F.GATE_STAT_OBX_REF
  else
    let is := (obxHeldAt s0).take k
    let s := readLetters is s0
    let ls := soundLetters s is
    let s1 := s.put F.GATE_OBX_RD_IDX ((s.get F.GATE_OBX_RD_IDX + k) % s.get F.GATE_OBX_LEN_LETTERS)
    let s2 := ls.foldl (fun s b => consume b s) s1
    redeliveryDone (bellUpdate true s2)

/-- BELL_ENABLE_WRITE (R223). -/
def bellEnable (b : Bool) (s : State) : State := bellUpdate false (s.putB F.GATE_OBX_CTRL_BELL_EN b)

/-! Franking and return (R206 to R208). -/

/-- The serial after `n`; 0 is skipped (R207). -/
def nextSerial (n : Nat) : Nat := let m := (n + 1) % 2 ^ 32; if m = 0 then 1 else m

/-- SERIAL_STORE (R207). -/
def storeSerial (s : State) : State :=
  let n := s.get F.GATE_SERIAL_NEXT
  if n % 2 ^ 16 = 0x8000 then storeRecord (.serial ((n / 2 ^ 16 + 1) * 2 ^ 16 % 2 ^ 32)) s else s

/-- The answer a core reads in LTR_RES and LTR_SER (R238). -/
def answer (u reason serial : Nat) (franked : Bool) (s : State) : State :=
  if u ≤ 0x40 then
    s.modCore u (fun k => { k with ltrOut := false, ltrRes := reason, ltrSer := if franked then serial else k.ltrSer })
  else s

/-- FRANKING (R206): the letter gets its serial and deadline; its copy enters the ring, and the letter its pigeonhole. -/
def frank (o : Offer) (dest cls : Nat) (s : State) : State :=
  let far := dest = 1 ∧ !s.isHead
  let serial := s.get F.GATE_SERIAL_NEXT
  let hops := if far then s.get F.GATE_HOPS_HOPS else 0
  let b := recPut (recPut (recPut (recPut (recPut o.body 8 (leBytes 2 s.devId)) 14 (leBytes 1 (cls + if far then 8 else 0)))
    20 (leBytes 4 serial)) 24 (leBytes 4 (deadline cls hops s.pm))) 28 (leBytes 1 o.unit)
  let letter := sealLetter b
  let slot := freeSlot s
  let s1 := storeSerial (s.put F.GATE_SERIAL_NEXT (nextSerial serial))
  let s2 := (ringPut slot letter s1).incWrap F.GATE_CNT_FRANK_FRANKED
  let s3 := s2.modGate (fun g => { g with
    opened := g.opened ++ [⟨letter, slot, o.f, false, false⟩]
    kCount := if o.unit ≤ 0x40 then upd g.kCount o.unit (· + 1) else g.kCount })
  let s4 :=
    if far then upWrite letter (s3.modGate (fun g => { g with log := (cls, s3.pm) :: g.log }))
    else obxWrite letter (s3.incSat (F.GATE_USE_OBX_USED (cls - 1)))
  let s5 := if o.unit = 0x78 then s4.incSat F.TREND_CNT_EV_LETTERS else s4
  answer o.unit 0 serial true s5

/-- LETTER_RETURN (R208). -/
def returnLetter (o : Offer) (reason : Nat) (s : State) : State :=
  let s1 := ((s.put F.GATE_RET_REASON reason).put F.GATE_RET_KIND (recKind o.body)).put F.GATE_RET_ORIGIN o.unit
  let s2 := (s1.incSat F.GATE_CNT_RET_RETURNED).mark F.GATE_STAT_RETURNED
  let s3 := if o.unit = 0x78 then s2.incSat F.TREND_CNT_LOSS_RETURNED else s2
  answer o.unit reason 0 false s3

/-- A unit offers a letter (R204); the gatekeeper decides offers in order of arrival. -/
def offer (o : Offer) (s : State) : State := s.modGate (fun g => { g with offers := g.offers ++ [o] })

/-- Letters of a class franked for the head office in the window that ends now (R209). -/
def inWindow (s : State) (c : Nat) : Nat :=
  (s.gate.log.filter (fun e => e.1 == c && pmDiff s.pm e.2 * 1000000 < classWindow c * 2 ^ 24)).length

/-- Entries that have left every window are forgotten. -/
def pruneLog (s : State) : State :=
  s.modGate (fun g => { g with log := g.log.filter (fun e => pmDiff s.pm e.2 * 1000000 < classWindow e.1 * 2 ^ 24) })

/-! Release and re-delivery (R214, R215). -/

/-- RELEASE_ON_PATH_LOSS (R214): every open head-office letter is released, and letters only carried are discarded. -/
def releaseOnLoss (s : State) : State :=
  let ls := s.gate.opened.filter (fun l => recDest l.body)
  let s1 := ls.foldl (fun s l =>
    let s1 := ((closeOpen l s).incSat F.GATE_CNT_RET_RELEASED).mark F.GATE_STAT_RELEASED
    dayPush 0x77 0x13 (recKind l.body) (recSerial l.body) s1) s
  redeliveryDone (s1.modGate (fun g => { g with up := [[], [], []] }))

/-- Open letters are to be re-delivered: the local ones, or those for the head office (R215). -/
def markDue (far : Bool) (s : State) : State :=
  s.modGate (fun g => { g with opened := g.opened.map (fun l => if recDest l.body == far then { l with due := true } else l) })

/-- The next letter due of a series, in serial order (R215): local letters, or a class of head-office letters. -/
def nextDue (s : State) (far : Bool) (c : Nat) : Option OpenLetter :=
  s.gate.opened.find? (fun l => l.due && recDest l.body == far && (!far || recClass l.body == c))

def clearDue (serial : Nat) (s : State) : State :=
  s.modGate (fun g => { g with opened := g.opened.map (fun l => if recSerial l.body == serial then { l with due := false } else l) })

/-- Re-send the next letter of a series as far as it may be sent now (R215). One whose copy reads uncorrectable is not sent; it stays open
until it is due again or released (R373). -/
def redeliverOne (far : Bool) (c : Nat) (s : State) : State :=
  match nextDue s far c with
  | none => s
  | some l =>
    let b := markRe l.body
    if copyBad s l.slot then clearDue (recSerial l.body) (readCopy l.slot s)
    else if far then
      if s.flag F.CAS_STAT_PATH && !lk0Outage s && inWindow s c < s.get (F.GATE_SHARE_SHARE (c - 1)) then
        let s1 := upWrite b ((clearDue (recSerial b) (readCopy l.slot s)).incSat F.GATE_CNT_DUP_REDELIVERED)
        s1.modGate (fun g => { g with log := (c, s1.pm) :: g.log })
      else s
    else
      let s1 := (clearDue (recSerial b) (readCopy l.slot s)).incSat F.GATE_CNT_DUP_REDELIVERED
      if obxDuplicate b s1 then obxReceive b s1 else obxReceive b (s1.incSat (F.GATE_USE_OBX_USED (recClass b - 1)))

/-- A series is re-sent as far as its window allows. -/
def redeliverSeries (far : Bool) (c : Nat) (s : State) : State :=
  redeliveryDone (iter s.gate.opened.length (redeliverOne far c) s)

/-- REDELIVERY (R215): every series. -/
def redeliver (s : State) : State :=
  if s.quiet then s
  else redeliverSeries true 3 (redeliverSeries true 2 (redeliverSeries true 1 (redeliverSeries false 0 (pruneLog s))))

/-- CLASS_WINDOW_OPEN (R215): the series of one class goes on. -/
def classWindowOpen (c : Nat) (s : State) : State :=
  if s.quiet || c == 0 then s else redeliverSeries true c (pruneLog s)

end Sys2Proof.Machine
end

