-- ==== Sys2Proof/Machine/Chain.lean ====
section
/-!
DEFINITION. Filter chains (09): the pipeline as R184 to R187 define it, settling, records, FIFO and hand-over.
Starting a chain, which passes the configuration-write check, is in Load.lean.
-/

namespace Sys2Proof.Machine

def State.chain (s : State) (i : Nat) : Option Chain := s.chains[i]?
def State.modChain (s : State) (i : Nat) (f : Chain → Chain) : State := { s with chains := upd s.chains i f }
def State.source (s : State) (x : Nat) : Source := (s.sources[x]?).getD idleSource
def State.modSource (s : State) (x : Nat) (f : Source → Source) : State := { s with sources := upd s.sources x f }

/-! Configuration of a chain (Table 9.8). -/
def fcK (s : State) (i : Nat) : Nat := s.get (F.FC_CFG_K i)
def fcR (s : State) (i : Nat) : Nat := s.get (F.FC_CFG_RM1 i) + 1
def fcM (s : State) (i : Nat) : Nat := s.get (F.FC_CFG_MM1 i) + 1
def fcT (s : State) (i : Nat) : Nat := s.get (F.FC_CFG_TM1 i) + 1
/-- p = r × m. -/
def fcP (s : State) (i : Nat) : Nat := fcR s i * fcM s i
def fcGrid (s : State) (i : Nat) : Bool := s.flag (F.FC_CFG_MODE i)
def fcInc (s : State) (i : Nat) : Nat := s.get (F.FC_RATE_INC i)
def fcSrc (s : State) (i : Nat) : Nat := s.get (F.FC_SRC_SRC i)

/-! Coefficients (R196). -/
def firDefault : Nat → Nat := fun j => if j = 0 then 0x400000 else 0
def resDefault : Nat → Nat := fun _ => 0
def Chain.firAt (c : Chain) (j : Nat) : Nat := mapGet firDefault c.fir j
def Chain.resAt (c : Chain) (j : Nat) : Nat := mapGet resDefault c.res j
/-- FCnn_CCRC (R196). -/
def coefCrc (s : State) (i : Nat) : Nat :=
  match s.chain i with
  | none => 0
  | some c => crc32 (((List.range (fcT s i)).map (fun j => leBytes 3 (c.firAt j))).flatten ++
      (if s.flag (F.FC_CFG_PROTO i) then ((List.range 2048).map (fun j => leBytes 3 (c.resAt j))).flatten else []))

/-! The stages (R184). -/

/-- The k-fold convolution of r ones. -/
def cicKernel (r : Nat) : Nat → List Nat
  | 0 => [1]
  | k + 1 =>
    let h := cicKernel r k
    (List.range (h.length + r - 1)).map (fun j => ((List.range r).map (fun i => if i ≤ j then h.getD (j - i) 0 else 0)).sum)

/-- The bit `back` ticks before the newest of a history: +1, −1, or 0 where it does not reach. -/
def histAt : List (Bool × Nat) → Nat → Int
  | [], _ => 0
  | (b, n) :: t, back => if back < n then (if b then 1 else -1) else histAt t (back - n)

/-- What a chain read up to a tick: source, first and last tick, newest first. -/
def spansTo : Nat → List (Nat × Nat) → List (Nat × Nat × Nat)
  | _, [] => []
  | hi, (f, x) :: t => if hi < f then spansTo hi t else (x, f, hi) :: spansTo (f - 1) t

/-- What a chain read before its present source, oldest first. -/
def closedSpans (c : Chain) : List (Nat × Nat × Nat) := match c.reads with
  | [] => []
  | (f, _) :: t => (spansTo (f - 1) t).reverse

/-- b(n): the bit of tick n of the source the chain then read; 0 before the start (R184). -/
def bitAt (s : State) (c : Chain) (n : Int) : Int :=
  if n < c.start then 0
  else match c.reads.find? (fun r => decide ((r.1 : Int) ≤ n)) with
    | none => 0
    | some r => let x := s.source r.2; if (x.tick : Int) < n then 0 else histAt x.hist (x.tick - n.toNat)

/-- Every bit the chain uses up to a tick has arrived. -/
def bitsKnown (s : State) (c : Chain) (hi : Nat) : Bool := (spansTo hi c.reads).all (fun x => x.2.2 ≤ (s.source x.1).tick)

/-- sat24, and whether it changed its argument. -/
def sat24 (z : Int) : Int × Bool := (clampS 24 z, decide (clampS 24 z ≠ z))

/-- xc at tick n. -/
def cicOut (s : State) (c : Chain) (k r : Nat) (n : Int) : Int × Bool :=
  let h := cicKernel r k
  let sum := ((List.range h.length).map (fun j => (h.getD j 0 : Int) * bitAt s c (n - j))).sum
  sat24 (divRoundAway (sum * 2 ^ 23) (r ^ k))

/-- xf at FIR tick n, with the CLIP mark of every value that reaches it. -/
def firOut (s : State) (c : Chain) (k r t : Nat) (n : Int) : Int × Bool :=
  let xs := (List.range t).map (fun (i : Nat) => cicOut s c k r (n - (i : Int) * r))
  let sum := ((List.range t).map (fun i => toSigned 24 (c.firAt i) * (xs.getD i (0, false)).1)).sum
  let y := sat24 (divRoundAway sum (2 ^ 22))
  (y.1, y.2 || xs.any (·.2))

/-- Resampler coefficient rc[ph][i] (R188). -/
def rcoef (c : Chain) (proto : Bool) (ph i : Nat) : Int :=
  if proto then toSigned 24 (c.resAt (16 * ph + i))
  else if i = 7 then 32768 * (128 - ph) else if i = 8 then 32768 * ph else 0

/-! Output instants (R185, R186). -/

/-- The tick of instant q. -/
def instTick (grid : Bool) (inc p q : Nat) : Nat := if grid then (q * 2 ^ 40 + inc - 1) / inc else q * p

/-- The first instant at or after tick n. -/
def firstInst (grid : Bool) (inc p n : Nat) : Nat :=
  if grid then (if n = 0 then 0 else (n - 1) * inc / 2 ^ 40 + 1) else (n + p - 1) / p

/-- j0 and ph of a grid instant (R187). -/
def gridPhase (p n : Nat) : Nat × Nat :=
  let j0 := n / p
  let ph := (2 * 128 * (n - j0 * p) + p) / (2 * p)
  if ph = 128 then (j0 + 1, 0) else (j0, ph)

/-- The value of instant q with its CLIP mark, the first and last tick it uses. -/
def outputAt (s : State) (i : Nat) (c : Chain) (q : Nat) : (Int × Bool) × Int × Nat :=
  let k := fcK s i; let r := fcR s i; let t := fcT s i; let p := fcP s i
  let n := instTick (fcGrid s i) (fcInc s i) p q
  let span : Int := (t - 1) * r + k * (r - 1)
  if fcGrid s i then
    let (j0, ph) := gridPhase p n
    let xs := (List.range 16).map (fun (a : Nat) => firOut s c k r t (((j0 : Int) + (a : Int) - 7) * p))
    let sum := ((List.range 16).map (fun a => rcoef c (s.flag (F.FC_CFG_PROTO i)) ph a * (xs.getD a (0, false)).1)).sum
    let y := sat24 (divRoundAway sum (2 ^ 22))
    ((y.1, y.2 || xs.any (·.2)), ((j0 : Int) - 7) * p - span, (j0 + 8) * p)
  else (firOut s c k r t n, n - span, n)

/-- The next instant of a running chain, as a postmark (R185, R186, R248). -/
def chainNextPm (s : State) (i : Nat) : Nat :=
  match s.chain i with
  | none => 0
  | some c => 8 * instTick (fcGrid s i) (fcInc s i) (fcP s i) c.nextQ % 2 ^ 64

/-! Settling (R190). -/

/-- The settle length N for the present configuration. -/
def settleLen (s : State) (i : Nat) : Nat :=
  let r := fcR s i; let p := fcP s i
  let x := 8 * s.get (F.FC_MOD_MSETTLE (fcSrc s i)) + r * (fcK s i + fcT s i - 1)
  satTo 65535 ((if fcGrid s i then (x + 8 * p) * fcInc s i / 2 ^ 40 else x / p) + 1)

/-- SETTLE_EVENT (R190). -/
def settle (i : Nat) (s : State) : State := s.put (F.FC_SETTLE_REMAIN i) (settleLen s i)

/-- GDELAY (R189). -/
def groupDelay (s : State) (i : Nat) : Nat := 4 * (fcK s i * (fcR s i - 1) + (fcT s i - 1) * fcR s i)

/-- Whether a chain is active (STAT.ACTIVE, R195). -/
def fcActive (s : State) (i : Nat) : Bool :=
  match s.chain i with | none => false | some c => c.run || s.flag (F.FC_CTRL_RUN i) || !c.fifo.isEmpty
/-- Whether it counts as stopped for RWL (R195). -/
def fcStopped (s : State) (i : Nat) : Bool := !s.flag (F.FC_CTRL_RUN i) && !fcActive s i
/-- STAT.LOADING (R196): a session is open, or a FILTER section is being applied to the chain. -/
def fcLoading (s : State) (i : Nat) : Bool :=
  s.flag (F.FC_CTRL_OPEN i) || s.rmap.staged.any (fun x => x.typ == 0x0D && x.inst == i)

/-- A running chain still takes bits of a source. -/
def awaited (s : State) (x : Nat) : Bool :=
  s.chains.any (fun c => c.run && ((c.reads.head?).any (·.2 == x) || (closedSpans c).any (fun p => p.1 == x && decide ((s.source x).tick < p.2.2))))

/-- A chain is to read a source from tick `n`. Bits of a source no chain was reading are not kept. -/
def joinSource (x n : Nat) (s : State) : State :=
  if awaited s x then s
  else s.modSource x (fun o => if o.tick + 1 < n then { o with tick := n - 1, hist := (false, n - 1 - o.tick) :: o.hist } else o)

/-- The chain starts at the next tick (R194): pipeline cleared, settle event. -/
def chainBegin (i : Nat) (s : State) : State :=
  let n0 := s.pm / 8 + 1
  settle i ((joinSource (fcSrc s i) n0 s).modChain i (fun c => { c with
    run := true, start := n0, reads := [(n0, fcSrc s i)], skips := [], nextQ := firstInst (fcGrid s i) (fcInc s i) (fcP s i) n0 }))

/-- CHAIN_STOP (R195): the pipeline is discarded; records in the FIFO stay. A sorter's run-ahead on its records ends (R248). -/
def chainHalt (i : Nat) (s : State) : State := s.modChain i Chain.halted

/-- The sorter a chain's records go to (R27, R192). -/
def chainRoute (s : State) (i : Nat) : Option Nat :=
  (s.rmap.routes.find? (fun r => r.rtype == 2 && r.source == i)).map (fun r => r.target + 1)

def chainStop (i : Nat) (s : State) : State :=
  forUpTo 65 (fun u s => if ((s.core u).bind (·.spec)).any (fun p => recOrigin p.pred == 0x61 + i) then cancelSpec u s else s)
    (chainHalt i (s.put (F.FC_CTRL_RUN i) 0))

/-- A chain computes now: it runs, and the device is in RUN or DOZE with nothing holding it (R181, R198, Table 18.2, R368). -/
def chainLive (s : State) (i : Nat) (c : Chain) : Bool :=
  c.run && s.flag (F.FC_CTRL_RUN i) && !s.quiet && !s.pow.lowFreq && !s.flt.resets.contains (0x61 + i)

/-- A drop of an output (R192). -/
def chainDrop (i : Nat) (s : State) : State :=
  ((s.incSat (F.FC_CNT_DROP i)).mark (F.FC_STAT_DROP i)).modChain i (fun c => { c with gap := true })

/-- Whether the source was in overload at a tick from `lo` to `hi`. -/
def ovlIn (l : List Ovl) (lo : Int) (hi : Nat) : Bool :=
  l.any (fun o => o.first ≤ hi && (match o.last with | none => true | some e => lo ≤ (e : Int)))

/-- Whether what the chain read from tick `lo` to `hi` was in overload (R191). -/
def overloaded (s : State) (c : Chain) (lo : Int) (hi : Nat) : Bool :=
  (spansTo hi c.reads).any (fun x => decide (lo ≤ x.2.2) && ovlIn (s.source x.1).ovls (max lo x.2.1) x.2.2)

/-- The first `n` bits of runs, and the rest. -/
def splitRuns : Nat → List (Bool × Nat) → List (Bool × Nat) × List (Bool × Nat)
  | _, [] => ([], [])
  | n, (b, k) :: t =>
    if n = 0 then ([], (b, k) :: t)
    else if k ≤ n then let r := splitRuns (n - k) t; ((b, k) :: r.1, r.2)
    else ([(b, n)], (b, k - n) :: t)

/-- The next bits of a source. -/
def takeBits (x : Nat) (bs : List (Bool × Nat)) (s : State) : State :=
  s.modSource x (fun o => { o with tick := o.tick + (bs.map (·.2)).sum, hist := bs.reverse ++ o.hist })

/-- The bits that follow those held of the sources a chain reads: what is still to come of a source it read before goes there, and the
rest to its present source. Every chain that reads a source sees these bits (R182). -/
def feed (i : Nat) (c : Chain) (bs : List (Bool × Nat)) (s : State) : State :=
  let (rest, s1) := (closedSpans c).foldl (fun a x =>
    let p := splitRuns (x.2.2 - (a.2.source x.1).tick) a.1
    (p.2, takeBits x.1 p.1 a.2)) (bs, s)
  takeBits (fcSrc s i) rest s1

/-- The instant after one: instants passed over are not produced (R198). -/
def nextInst (c : Chain) (q : Nat) : Nat := match c.skips.find? (fun k => k.1 ≤ q + 1 && q + 1 < k.2) with
  | some k => k.2
  | none => q + 1

/-- An output (R187, R190 to R193): marked, shown, counted, and placed in the FIFO or dropped. -/
def deliver (i : Nat) (c : Chain) (y : Int) (clip ovl : Bool) (s : State) : State :=
  let remain := s.get (F.FC_SETTLE_REMAIN i)
  let qual := b2n (0 < remain) + (if c.gap then 2 else 0) + (if clip then 4 else 0) + (if ovl then 8 else 0)
  let pm := 8 * instTick (fcGrid s i) (fcInc s i) (fcP s i) c.nextQ % 2 ^ 64
  let val := ofSigned 24 y
  let s2 := s.put (F.FC_SETTLE_REMAIN i) (remain - 1)
  let s3 := if clip then (s2.incSat (F.FC_CNT_CLIP i)).mark (F.FC_STAT_CLIP i) else s2
  let s4 := ((s3.put (F.FC_LASTV_VALUE i) val).put (F.FC_LASTV_QUAL i) qual).incWrap (F.FC_SEQ_SEQ i)
  let s5 := s4.modChain i (fun c => { c with nextQ := nextInst c c.nextQ, lastPm := pm })
  if 8 ≤ c.fifo.length || (chainRoute s i).isNone || s.isHeld (0x61 + i) then chainDrop i s5
  else s5.modChain i (fun c => { c with gap := false, fifo := c.fifo ++
    [mkRecord pm s5.devId 0x7FFFFF 0x20 qual val (s5.get (F.FC_SRC_SCALE i)) (0x61 + i) 0] })

/-- CHAIN_OUTPUT (R187): the next bits are taken; when they reach the tick the next instant needs, its sample is computed. -/
def chainOutput (i : Nat) (bs : List (Bool × Nat)) (s : State) : State :=
  match s.chain i with
  | none => s
  | some c =>
    if !chainLive s i c then s
    else
      let s1 := feed i c bs s
      let ((y, clip), lo, hi) := outputAt s1 i c c.nextQ
      if bitsKnown s1 c hi then deliver i c y clip (overloaded s1 c lo hi) s1 else s1

/-- SAMPLE_HANDOFF (R192): the sorter's queue accepts the next record, if it has room. -/
def sampleHandoff (i : Nat) (s : State) : State :=
  match s.chain i with
  | none => s
  | some c =>
    match c.fifo, chainRoute s i with
    | r :: rest, some u =>
      if coreAccepts u s && !s.quiet then enqueue u r (s.modChain i (fun c => { c with fifo := rest })) else s
    | _, _ => s

/-- Running chains that read a source. -/
def readers (s : State) (src : Nat) : List Nat :=
  (List.range 16).filter (fun i => fcSrc s i == src && ((s.chain i).map (·.run)).getD false && s.flag (F.FC_CTRL_RUN i))

/-- SOURCE_OVERLOAD (R183): the 64th consecutive equal bit. -/
def sourceOverload (x : Nat) (s : State) : State :=
  if (s.source x).ovl then s else s.modSource x (fun o => { o with ovl := true, ovls := o.ovls ++ [⟨o.tick, none⟩] })

/-- OVERLOAD_END (R183, R190): the first differing bit; a settle event in each running chain that reads the source. -/
def overloadEnd (x : Nat) (s : State) : State :=
  if !(s.source x).ovl then s
  else (readers s x).foldl (fun s i => settle i s) (s.modSource x (fun o => { o with
    ovl := false, ovls := o.ovls.map (fun v => if v.last.isNone then { v with last := some o.tick } else v) }))

/-- A tick number after the timebase has gone from tick `t0` to `t1`. -/
def shiftTick (t0 t1 n : Nat) : Nat := n + t1 - t0

/-- A running chain after a grid step (R198): instants passed over are not produced, those before it still are, and those that come again
are produced again. -/
def regrid (g : Bool) (inc p t0 t1 : Nat) (c : Chain) : Chain :=
  let a := firstInst g inc p (t0 + 1)
  let b := firstInst g inc p (t1 + 1)
  { c with
    gap := true
    start := shiftTick t0 t1 c.start
    reads := c.reads.map (fun r => (shiftTick t0 t1 r.1, r.2))
    skips := if b ≤ a then c.skips.map (fun k => (k.1, min k.2 b)) else c.skips ++ [(a, b)]
    nextQ := if b ≤ a then min c.nextQ b else if c.nextQ < a then c.nextQ else max c.nextQ b }

/-- GRID_STEP (R198): the timebase has gone from postmark `old` to its present one, other than by its normal step; the bits held stand at
the new tick numbers, and each running chain goes on from there with a settle event. -/
def gridStep (old : Nat) (s : State) : State :=
  let t0 := old / 8
  let t1 := s.pm / 8
  let s1 := { s with sources := s.sources.map (fun o => { o with
    tick := shiftTick t0 t1 o.tick
    ovls := o.ovls.map (fun v => ⟨shiftTick t0 t1 v.first, v.last.map (shiftTick t0 t1)⟩) }) }
  forUpTo 16 (fun i s =>
    if ((s.chain i).map (·.run)).getD false && s.flag (F.FC_CTRL_RUN i) then
      settle i ((s.modChain i (regrid (fcGrid s i) (fcInc s i) (fcP s i) t0 t1)).mark (F.FC_STAT_GRID_STEP i))
    else s) s1

/-! Coefficient access (R196). -/

/-- CADDR.IDX after an access: it wraps within its table. -/
def stepIdx (i : Nat) (s : State) : State :=
  let n := s.get (F.FC_CADDR_IDX i)
  let last := if s.flag (F.FC_CADDR_TABLE i) then 2047 else 127
  s.put (F.FC_CADDR_IDX i) (if last ≤ n then 0 else n + 1)

/-- The coefficient CADDR selects. -/
def coefNow (s : State) (i : Nat) : Nat :=
  match s.chain i with
  | none => 0
  | some c => if s.flag (F.FC_CADDR_TABLE i) then c.resAt (s.get (F.FC_CADDR_IDX i)) else c.firAt (s.get (F.FC_CADDR_IDX i))

/-- Store a coefficient. -/
def setCoef (i : Nat) (res : Bool) (j v : Nat) (s : State) : State :=
  s.modChain i (fun c => if res then { c with res := mapSet resDefault c.res j v } else { c with fir := mapSet firDefault c.fir j v })

/-- COEF_WRITE: refused while the chain is not stopped. -/
def coefWrite (i v : Nat) (s : State) : State :=
  if !fcStopped s i then s.mark (F.FC_STAT_COEF_REF i)
  else stepIdx i (setCoef i (s.flag (F.FC_CADDR_TABLE i)) (s.get (F.FC_CADDR_IDX i)) (v % 2 ^ 24) s)

/-- COEF_READ: the value and the state after. -/
def coefRead (i : Nat) (s : State) : Nat × State := (coefNow s i, stepIdx i s)

/-- LAST_OUTPUT_READ (R193): the postmark of the same output is latched. -/
def lastOutputRead (i : Nat) (s : State) : State :=
  match s.chain i with
  | none => s
  | some c => (s.put (F.FC_LASTPM_LO_PM_LO i) c.lastPm).put (F.FC_LASTPM_HI_PM_HI i) (c.lastPm / 2 ^ 32)

/-- SOURCE_MOD_WRITE (R190, R197): the word is already free of reserved values; it writes GAIN and MSETTLE, which is a settle event in
each running chain that reads the source. -/
def modWrite (i : Nat) (v : Word) (s : State) : State :=
  if s.flag (F.FC_MOD_EN i) && !v.getLsbD 0 && !(readers s i).isEmpty then s.mark (F.FC_STAT_MOD_REF i)
  else (readers s i).foldl (fun s j => settle j s) (s.setReg (A.FC_MOD i) v)

/-- CHAIN_SOURCE_WRITE (R190, R197): the source from the next tick, with a settle event while the chain runs. -/
def srcWrite (i : Nat) (v : Word) (s : State) : State :=
  let s1 := s.setReg (A.FC_SRC i) v
  if ((s1.chain i).map (·.run)).getD false && s1.flag (F.FC_CTRL_RUN i) then
    let n := s.pm / 8 + 1
    let x := v.toNat % 16
    settle i (if x = fcSrc s i then s1 else (joinSource x n s1).modChain i (fun c => { c with reads := (n, x) :: c.reads.filter (fun r => decide (r.1 < n)) }))
  else s1

end Sys2Proof.Machine
end

