-- ==== Sys2Proof/Machine/Cascade.lean ====
section
/-!
DEFINITION. The cascade (13): link states and training, frames and their drop, routing, enrolment and the ID table, time
alignment, outages and losses, the standby. Remote access is in RemoteAccess.lean.
-/

namespace Sys2Proof.Machine

def State.modEst (s : State) (f : Estate → Estate) : State := { s with est := f s.est }

/-! Codes of TSTATE and ROLE (Tables 13.9, 13.10). -/
def tsFree : Nat := 0
def tsAcquire : Nat := 1
def tsLocked : Nat := 2

def linkEnabled (s : State) (n : Nat) : Bool := bit (s.get F.CAS_CFG_PORTS) n && !s.flag (F.CAS_L_CTRL_DOWN n) && !s.isHeld (0x71 + n)
/-- This device's UID. -/
def ownUid : Nat := (Config.uidHi ++ Config.uidLo : BitVec 64).toNat
theorem ownUid_lt : ownUid < 2 ^ 64 := (Config.uidHi ++ Config.uidLo : BitVec 64).isLt
/-- Unit ID of a link port. -/
def linkUnit (n : Nat) : Nat := 0x71 + n
def pathStandsNow (s : State) : Bool := s.flag F.CAS_STAT_PATH

/-- Whether a LEN fits a TYPE (Table 13.2). -/
def lenFits (typ n : Nat) : Bool :=
  match typ with
  | 1 => n == 32
  | 2 => n % 6 == 0 && 6 ≤ n && n ≤ 30
  | 3 => n == 24
  | 4 => n == 16
  | 5 => n == 24
  | 6 => n % 2 == 0 && 2 ≤ n && n ≤ 30
  | 7 => n == 2
  | 8 => n == 12
  | 9 => n == 0
  | 10 => n == 11
  | 11 => n % 4 == 0 && 8 ≤ n && n ≤ 32
  | 12 => n % 4 == 0 && 4 ≤ n && n ≤ 28
  | 13 => n == 12 || n == 24
  | _ => false

/-- Whether Table 13.2 sends a TYPE towards this port: up frames arrive on the down ports, down frames on LK0. -/
def directionFits (typ n : Nat) : Bool :=
  match typ with
  | 1 | 3 | 4 | 6 | 9 => n != 0
  | 2 | 5 | 7 | 8 | 10 | 13 => n == 0
  | _ => true

/-- A frame for every ACTIVE down port. -/
def sendDown (f : List Byte) (s : State) : State :=
  forUpTo 3 (fun i s => if linkUp s (i + 1) then sendOn (i + 1) f s else s) s

def pathFrame (s : State) (st : Nat) : List Byte := mkFrame ftPath 0 (leBytes 1 st ++ leBytes 1 (s.get F.GATE_HOPS_HOPS))

/-- DROP of a port counts one more (R281, R284). -/
def countDrop (n : Nat) (s : State) : State := s.incSat (F.CAS_L_CNT_DROP n)

/-! Routing (R284). -/

def setRoute (id k : Nat) (s : State) : State := s.modEst (fun e => { e with route := mapSet routeDefault e.route id k })

inductive Hop where
  | self
  | port (n : Nat)
  | nowhere
  deriving DecidableEq, Repr

/-- Where a frame for a DST goes: its own device, a down port, LK0 of a branch, nowhere at the head office. -/
def hopOf (s : State) (dst : Nat) : Hop :=
  if s.flag F.CAS_ID_VALID && s.devId == dst then .self
  else match routeAt s dst with
    | 0 => if s.isHead then .nowhere else .port 0
    | k => .port k

/-- A frame that only travels down: without a route it is dropped (Table 13.6). -/
def forwardDown (n : Nat) (f : List Byte) (s : State) : State :=
  match routeAt s (frDst f) with
  | 0 => countDrop n s
  | k => sendOn k f s

/-! The ID table (R286). -/

def idBase (s : State) : Nat := 0x03D00000 + s.get F.CAS_IDTAB_BASE * 0x10000
def idEntryAt (s : State) (id : Nat) : IdEntry :=
  let a := idBase s + 16 * id
  ⟨s.num a 8, s.num (a + 8) 1, s.num (a + 9) 1⟩
def idBytes (e : IdEntry) : List Byte := leBytes 8 e.uid ++ leBytes 1 e.st ++ leBytes 1 e.depth ++ List.replicate 6 0#8

/-- An entry that this engine reads poisoned (R64, R80). -/
def idBad (s : State) (id : Nat) : Bool := poisonFor s 0x71 (idBase s + 16 * id)

/-- The ID table is read: each of its lines that holds a turned cell meets its check (R63, R64). -/
def scanIds (s : State) : State :=
  (sortNat ((s.ledg.flips.filter (fun f => idBase s ≤ f.addr && f.addr < idBase s + 0x100000)).map (fun f => checkUnit f.addr))).foldl
    (fun s a => readAs 0x71 a s) s

/-- IDs whose STATE is not free, ascending. -/
def idUsed (s : State) : List Nat :=
  let b := idBase s
  (s.mem.filter (fun e => b ≤ e.1 && e.1 < b + 0x100000 && (e.1 - b) % 16 == 8)).map (fun e => (e.1 - b) / 16)

/-- CAS_DEVS.PRESENT (Table 13.10). -/
def devsPresent (s : State) : Nat :=
  if s.isHead then ((idUsed s).filter (fun i => (idEntryAt s i).st == 1)).length else 0

/-- The lowest of the IDs from `i` on, `n` of them, that is not used and whose entry reads without error. -/
def lowestFree (s : State) (used : List Nat) : Nat → Nat → Option Nat
  | 0, _ => none
  | n + 1, i => if used.contains i || idBad s i then lowestFree s used n (i + 1) else some i

/-- IDMIR frames of entries for the standbys (R297), two entries to a frame. -/
def mirrorFrames (dst : Nat) : List (Nat × IdEntry) → List (List Byte)
  | [] => []
  | [(i, e)] => [mkFrame ftIdmir dst (leBytes 2 i ++ leBytes 8 e.uid ++ leBytes 1 e.st ++ leBytes 1 e.depth)]
  | (i, e) :: (j, g) :: t =>
    mkFrame ftIdmir dst (leBytes 2 i ++ leBytes 8 e.uid ++ leBytes 1 e.st ++ leBytes 1 e.depth ++
      leBytes 2 j ++ leBytes 8 g.uid ++ leBytes 1 g.st ++ leBytes 1 g.depth) :: mirrorFrames dst t

/-- Entries go to the standby of an ID. -/
def mirrorTo (dst : Nat) (l : List (Nat × IdEntry)) (s : State) : State :=
  match routeAt s dst with
  | 0 => s
  | k => (mirrorFrames dst l).foldl (fun s f => sendOn k f s) s

/-- Entries of the ID table that a write of `n` bytes at `a` touches. -/
def idsIn (s : State) (a n : Nat) : List Nat :=
  if a < idBase s + 0x100000 ∧ idBase s < a + n then
    let lo := (a - idBase s) / 16
    (List.range (min 65536 ((a + n - idBase s + 15) / 16) - lo)).map (lo + ·)
  else []

/-- What a write of `n` bytes at `a` has changed in the head office's table since `s0` goes to each standby (R297). -/
def mirrorWrite (a n : Nat) (s0 s : State) : State :=
  if !s.isHead || s.est.standbys.isEmpty then s
  else
    let es := ((idsIn s a n).filter (fun i => idEntryAt s0 i != idEntryAt s i)).map (fun i => (i, idEntryAt s i))
    s.est.standbys.foldl (fun s d => mirrorTo d es s) s

/-- The head office changes an entry: one ledger line write, and a copy to each standby (R286, R297). -/
def setIdEntry (id : Nat) (e : IdEntry) (s : State) : State :=
  let a := idBase s + 16 * id
  mirrorWrite a 16 s (memWrite 0x71 a (idBytes e) s)

/-- The head office marks IDs absent (R295), as far as their entries read without error. -/
def markAbsent (ids : List Nat) (s : State) : State :=
  ids.foldl (fun s0 i =>
    let s := readAs 0x71 (idBase s0 + 16 * i) s0
    let e := idEntryAt s i
    let s1 := s.modEst (fun t => { t with standbys := t.standbys.filter (· != i) })
    if !idBad s i && e.st = 1 then setIdEntry i { e with st := 2 } s1 else s1) s

/-! Path and losses (R293 to R295). -/

/-- A remote-access request open when the path ends (R296, Table 13.6). Channel c has its registers at + c · 2^32. -/
def raBank (f : Fd) (c : Nat) : Fd := { f with addr := f.addr + c * 2 ^ 32 }
def raFinish (c result : Nat) (s : State) : State :=
  let s1 := ((s.put (raBank F.CAS_RA_STAT_RESULT c) result).put (raBank F.CAS_RA_STAT_DONE c) 1).put (raBank F.CAS_RA_STAT_BUSY c) 0
  s1.modEst (fun e => { e with raOpen := upd e.raOpen c (fun _ => none) })
def raPathLost (s : State) : State :=
  forUpTo 3 (fun c s => if (nth s.est.raOpen c none).isSome then raFinish c 5 s else s) s

/-- The device's path ends (R294). -/
def pathEnd (s : State) : State :=
  let s0 := s.modEst (fun e => { e with welcomed := false })
  let s1 := if lstate s0 0 = lsEnrolled then s0.put (F.CAS_L_STAT_LSTATE 0) lsActive else s0
  let s2 := if pathStandsNow s1 then raPathLost (releaseOnLoss (s1.put F.CAS_STAT_PATH 0)) else s1
  sendDown (pathFrame s2 1) s2

/-- LEAVE frames for IDs, fifteen to a frame. -/
def leaveFrames : Nat → List Nat → List (List Byte)
  | 0, _ => []
  | _, [] => []
  | n + 1, ids => mkFrame ftLeave 0 ((ids.take 15).map (leBytes 2)).flatten :: leaveFrames n (ids.drop 15)

def clearRoutes (ids : List Nat) (s : State) : State := ids.foldl (fun s i => setRoute i 0 s) s

/-- DOWN_PORT_LOSS (R295). -/
def downPortLoss (k : Nat) (s : State) : State :=
  let ids := (s.est.route.filter (fun e => e.2 == k)).map (·.1)
  let s1 := clearRoutes ids ((s.put (F.CAS_L_PEER_VALID k) 0).put (F.CAS_L_PEER_ID k) 0)
  if s1.isHead then markAbsent ids s1
  else (leaveFrames 4400 ids).foldl (fun s f => sendOn 0 f s) s1

/-- A standby that is armed (R297). -/
def standbyArmed (s : State) : Bool :=
  s.get F.CAS_STAT_ROLE == 2 && s.get F.GATE_HOPS_HOPS == 1 && pathStandsNow s && s.get F.CAS_IDTAB_BASE != 0xFFFF && s.est.copied

/-- An outage becomes a loss (R293 to R295). -/
def lossAt (n : Nat) (s : State) : State :=
  let s1 := closeRecovery (0x110 + n) ((s.mark (F.CAS_L_STAT_LOST n)).modLink n (fun l => { l with outage := none, tx := [], hello := none }))
  if n = 0 then pathEnd (s1.modEst (fun e => { e with takeover := e.takeover || standbyArmed s, waiting := false }))
  else downPortLoss n s1

/-- An outage begins (R293); it opens a recovery interval (R371, R372). -/
def beginOutage (n : Nat) (s : State) : State :=
  if (s.link n).outage.isSome then s
  else
    let s1 := openRecovery (0x110 + n) (s.modLink n (fun l => { l with outage := some s.pm }))
    if n = 0 then s1.modEst (fun e => { e with takeover := standbyArmed s }) else s1

/-- TSTATE of a device whose LK0 is not ACTIVE (R290). -/
def freeTime (s : State) : State :=
  if s.isHead then s
  else (s.put F.CAS_STAT_TSTATE tsFree).modEst (fun e => { e with goodRun := 0, sync := none, dreq := none, exch := false })

/-- A port leaves ACTIVE for another state of R278. -/
def leaveActive (n st : Nat) (s : State) : State :=
  let s1 := if linkUp s n then beginOutage n s else s
  let s2 := (s1.put (F.CAS_L_STAT_LSTATE n) st).modLink n (fun l => { l with lock := false, paused := false, wire := [], silent := false })
  if n = 0 then freeTime s2 else s2

/-- A short outage ends (R293): the path was covered. -/
def shortEnd (n : Nat) (s : State) : State :=
  let s1 := (s.mark (F.CAS_L_STAT_SHORT n)).modLink n (fun l => { l with outage := none })
  if n = 0 then
    let s2 := s1.modEst (fun e => { e with takeover := false })
    if pathStandsNow s2 then
      let s3 := s2.put (F.CAS_L_STAT_LSTATE 0) lsEnrolled
      redeliveryDone (markDue true (sendDown (pathFrame s3 3) s3))
    else closeRecovery 0x110 s2
  else
    let s2 := if s1.flag (F.CAS_L_PEER_VALID n) then s1.put (F.CAS_L_STAT_LSTATE n) lsEnrolled else s1
    closeRecovery (0x110 + n) s2

/-! Enrolment (R285 to R287). -/

/-- S_c or C_c of R280: the sender's own figure and its SUB figures on all its down ports. -/
def sumShare (s : State) (c : Nat) : Nat :=
  s.get (F.GATE_SHARE_SHARE (c - 1)) + ((List.range 3).map (fun k => s.get (F.CAS_SUB_SHARE k (c - 1)))).sum
def sumCred (s : State) (c : Nat) : Nat :=
  s.get (F.GATE_QUOTA_CRED (c - 1)) + ((List.range 3).map (fun k => s.get (F.CAS_SUB_CRED k (c - 1)))).sum

/-- HELLO of this device, on an ACTIVE LK0; a head office sends none (R285, R298). -/
def sendHello (s : State) : State :=
  if s.isHead || !linkUp s 0 then s
  else
    let id := if s.est.fixed.isSome then s.est.fixed else s.est.lastId
    let flags := b2n (s.get F.CAS_STAT_ROLE == 2) * 2 + b2n id.isSome * 4 + b2n s.est.fixed.isSome * 8
    let body := leBytes 8 ownUid ++ leBytes 2 (id.getD 0) ++ leBytes 1 flags ++ leBytes 1 0 ++
      leBytes 2 (sumShare s 1) ++ leBytes 2 (sumShare s 2) ++ leBytes 2 (sumShare s 3) ++
      leBytes 2 (sumCred s 1) ++ leBytes 2 (sumCred s 2) ++ leBytes 2 (sumCred s 3)
    (sendOn 0 (mkFrame ftHello 0 body) s).modEst (fun e => { e with waiting := true })

/-- The path comes to stand (R287). -/
def pathBegins (s : State) : State :=
  if s.est.welcomed && s.est.exch && !pathStandsNow s && linkUp s 0 then
    let s1 := ((s.put F.CAS_STAT_PATH 1).put (F.CAS_L_STAT_LSTATE 0) lsEnrolled).modGate (fun g => { g with stood := true })
    sendDown (pathFrame s1 2) s1
  else s

/-- The bytes of a WELCOME (Table 13.2). -/
def welcomeBody (uid id depth result : Nat) (limits : List Byte) : List Byte :=
  leBytes 8 uid ++ leBytes 2 id ++ leBytes 1 depth ++ leBytes 1 result ++ padTo 12 limits

/-- The limits a device V grants on its down port k (R285, R287). -/
def portLimits (s : State) (k : Nat) : List Byte :=
  ((List.range 3).map (fun c => leBytes 2 (s.get (F.CAS_SUB_SHARE (k - 1) c)))).flatten ++
  ((List.range 3).map (fun c => leBytes 2 (s.get (F.CAS_SUB_CRED (k - 1) c)))).flatten

/-- VIA receives the WELCOME of a HELLO it forwarded (R287). -/
def welcomeAtVia (n : Nat) (f : List Byte) (s : State) : State :=
  let b := frBody f
  let uid := recNum b 0 8
  let id := recNum b 8 2
  let depth := recNum b 10 1
  let result := recNum b 11 1
  match [1, 2, 3].find? (fun k => (s.link k).hello == some uid) with
  | none => countDrop n s
  | some k =>
    let s1 := s.modLink k (fun l => { l with hello := none })
    let s1 := setRoute id k s1
    let s2 := if result = 0 then
        ((s1.put (F.CAS_L_PEER_ID k) id).put (F.CAS_L_PEER_VALID k) 1).put (F.CAS_L_STAT_LSTATE k)
          (if linkUp s1 k then lsEnrolled else lstate s1 k)
      else s1
    sendOn k (mkFrame ftWelcome (frDst f) (welcomeBody uid id depth result (portLimits s k))) s2

/-- The branch receives its own WELCOME (R287). -/
def welcomeHere (f : List Byte) (s : State) : State :=
  let b := frBody f
  let id := recNum b 8 2
  let result := recNum b 11 1
  let s0 := (s.modEst (fun e => { e with waiting := false })).put F.CAS_STAT_ENR_RESULT result
  let s1 := (s0.put (F.CAS_L_PEER_ID 0) (frDst f)).put (F.CAS_L_PEER_VALID 0) 1
  if result = 0 then
    let s2 := ((s1.put F.CAS_ID_ID id).put F.CAS_ID_VALID 1).put F.GATE_HOPS_HOPS (recNum b 10 1)
    let s3 := forUpTo 3 (fun c s =>
      (s.put (F.CAS_UPLIM_SHARE c) (recNum b (12 + 2 * c) 2)).put (F.CAS_UPLIM_CRED c) (recNum b (18 + 2 * c) 2)) s2
    let s4 := storeRecord (.cascadeId id) (s3.modEst (fun e => { e with lastId := some id, welcomed := true, copied := false }))
    pathBegins s4
  else pathEnd s1

/-- A WELCOME at a device of the way down (R287). -/
def takeWelcome (n : Nat) (f : List Byte) (s : State) : State :=
  let b := frBody f
  if recNum b 0 8 = ownUid then (if s.isHead || 7 < recNum b 11 1 then s else welcomeHere f s)
  else match hopOf s (frDst f) with
    | .self => welcomeAtVia n f s
    | _ =>
      match routeAt s (frDst f) with
      | 0 => countDrop n s
      | k => sendOn k f (setRoute (recNum b 8 2) k s)

/-- The head office answers an ENROL (R286): the ID it chooses and the result. An entry that reads poisoned shows no UID and is not free. -/
def chooseId (s : State) (uid id : Nat) (haveId fixed : Bool) : Nat × Nat :=
  if fixed then
    let e := idEntryAt s id
    if !idBad s id ∧ e.st = 1 ∧ e.uid ≠ uid then (id, 1) else (id, 0)
  else
    let used := idUsed s
    match used.find? (fun i => !idBad s i && (idEntryAt s i).uid == uid) with
    | some i => (i, 0)
    | none =>
      if haveId && !idBad s id && (idEntryAt s id).st == 0 then (id, 0)
      else match lowestFree s used 65535 1 with
        | some i => (i, 0)
        | none => (id, 2)

def takeEnrol (n : Nat) (f : List Byte) (s0 : State) : State :=
  if !s0.isHead then sendOn 0 f s0
  else
    let s := scanIds s0
    let b := frBody f
    let uid := recNum b 0 8
    let flags := recNum b 10 1
    let depth := recNum b 11 1
    let via := recNum b 12 2
    let (id, result) := chooseId s uid (recNum b 8 2) (bit flags 2) (bit flags 3)
    let s1 := if result = 0 then setIdEntry id ⟨uid, 1, depth⟩ (s.incSat F.CAS_ENR_ACCEPTED) else s.incSat F.CAS_ENR_REFUSED
    let w := mkFrame ftWelcome via (welcomeBody uid id depth result [])
    let s2 := if via = s1.devId then welcomeAtVia n w s1
      else match routeAt s1 via with
        | 0 => countDrop n s1
        | k => sendOn k w (setRoute id k s1)
    if result = 0 ∧ bit flags 1 ∧ depth = 1 then
      let s3 := s2.modEst (fun e => { e with standbys := (e.standbys.filter (· != id)) ++ [id] })
      mirrorTo id (((idUsed s3).filter (fun i => !idBad s3 i)).map (fun i => (i, idEntryAt s3 i))) s3
    else s2

/-- A HELLO on down port k (R285). -/
def takeHello (k : Nat) (f : List Byte) (s : State) : State :=
  let b := frBody f
  let uid := recNum b 0 8
  let id := recNum b 8 2
  let flags := recNum b 10 1
  let depth := s.get F.GATE_HOPS_HOPS + 1
  let above_ := (List.range 3).any (fun c =>
    decide (s.get (F.CAS_SUB_SHARE (k - 1) c) < recNum b (12 + 2 * c) 2) || decide (s.get (F.CAS_SUB_CRED (k - 1) c) < recNum b (18 + 2 * c) 2))
  let result := if !s.isHead && !pathStandsNow s then 6 else if bit flags 0 then 5 else if 32 < depth then 3 else if above_ then 4 else 0
  let s1 := s.modLink k (fun l => { l with hello := if result = 0 then some uid else none })
  if result = 0 then
    takeEnrol k (mkFrame ftEnrol 0 (leBytes 8 uid ++ leBytes 2 id ++ leBytes 1 flags ++ leBytes 1 depth ++ leBytes 2 s.devId ++ leBytes 1 k ++ leBytes 1 0)) s1
  else
    let s2 := s1.incSat F.CAS_ENR_REFUSED
    let s3 := if result = 5 then s2.mark F.CAS_STAT_RIVAL else s2
    sendOn k (mkFrame ftWelcome s.devId (welcomeBody uid id depth result [])) s3

/-- ENROL_TIMEOUT (R287). -/
def enrolTimeout (s : State) : State :=
  if s.est.waiting && !s.quiet then
    pathEnd ((s.modEst (fun e => { e with waiting := false })).put F.CAS_STAT_ENR_RESULT 7)
  else s

/-- ENROL_RETRY (R287): results FULL, NO_HEAD and TIMEOUT. -/
def enrolRetry (s : State) : State :=
  let r := s.get F.CAS_STAT_ENR_RESULT
  if (r == 2 || r == 6 || r == 7) && !s.est.waiting && !s.quiet then sendHello s else s

/-- A LEAVE (R295): IDs in its payload. -/
def takeLeave (f : List Byte) (s : State) : State :=
  let b := frBody f
  let ids := (List.range (b.length / 2)).map (fun i => recNum b (2 * i) 2)
  let s1 := clearRoutes ids s
  if s1.isHead then markAbsent ids s1 else sendOn 0 f s1

/-- An ACK frame (R222, R284): at the franking device its pairs close letters. -/
def takeAck (n : Nat) (f : List Byte) (s : State) : State :=
  match hopOf s (frDst f) with
  | .self =>
    let b := frBody f
    redeliveryDone ((List.range (b.length / 6)).foldl (fun s i =>
      if recNum b (6 * i) 2 = s.devId then closeSerial (recNum b (6 * i + 2) 4) s else s) s)
  | _ => forwardDown n f s

/-- A LETTER frame (R212). -/
def takeLetter (k : Nat) (f : List Byte) (s : State) : State :=
  let b := frBody f
  if recClass b = 0 then countDrop k s
  else if s.isHead then obxReceive b s
  else upWrite b s

/-! PATH frames (R287, R294, R297). -/

/-- The last enrolment failed with a result that only REENROL or a retrain tries again (Table 13.3). -/
def waitsForRetrain (s : State) : Bool := [1, 3, 4, 5].contains (s.get F.CAS_STAT_ENR_RESULT)

def takePath (st : Nat) (s : State) : State :=
  if s.isHead then s
  else match st with
    | 1 => pathEnd s
    | 2 => if pathStandsNow s || waitsForRetrain s then s else sendHello s
    | 3 => if pathStandsNow s then redeliveryDone (markDue true (sendDown (pathFrame s 3) s)) else s
    | _ => if waitsForRetrain s then s else sendHello s

/-! Time alignment (R289 to R291). -/

def tsMod : Nat := 2 ^ 88
/-- The instant `frac` 2^-24 of a reference period after the timebase's last step. -/
def stamp (s : State) (frac : Nat) : Nat := (s.tb + frac % 2 ^ 24) % tsMod
/-- The signed difference of two timestamps. -/
def stampDiff (a b : Nat) : Int := toSigned 88 (a + tsMod - b)

def clampTrim (z : Int) : Int := if z < -16384 then -16384 else if 16384 < z then 16384 else z
/-- `d` 2^-48 s halved, in ns (rounded away from zero). -/
def halfNs (d : Int) : Int := divRoundAway (d * 1953125) (2 ^ 40)
def satS (w : Nat) (z : Int) : Nat := ofSigned w (clampS w z)

/-- The timebase moves by −d/2, once after a link-up or a RESYNC (R291). -/
def stepTimebase (d : Int) (s : State) : State :=
  let half := divRoundAway d 2
  let s1 := { s with tb := (((s.tb : Int) - half) % (tsMod : Int)).toNat }
  let s2 := (s1.mark F.CAS_STAT_STEPPED).modEst (fun e => { e with goodRun := 0, stepped := true })
  dayPush 0x71 0x28 0 (satS 32 (-(halfNs d))) (gridStep s.pm s2)

/-- The child's computation when an exchange completes (R290). -/
def exchangeDone (t1 t2 t3 t4 : Nat) (s : State) : State :=
  let d := stampDiff t2 t1 - stampDiff t4 t3
  let m := stampDiff t2 t1 + stampDiff t4 t3
  let dly := halfNs m
  let s0 := (s.put F.CAS_TIME_OFFSET (satS 16 (halfNs d))).put F.CAS_TIME_DELAY (if dly < 0 then 0 else satTo 0xFFFF dly.toNat)
  let s1 := s0.modEst (fun e => { e with exch := true, sync := none, dreq := none })
  let big (ns : Nat) : Bool := (ns : Int) * 2 ^ 49 < d.natAbs * 1000000000
  let s2 :=
    if s1.get F.CAS_STAT_TSTATE = tsAcquire ∧ !s1.est.stepped ∧ big (1000 * s1.get F.CAS_CFG_STEP_US) then stepTimebase d s1
    else
      let f := clampTrim (s1.est.integ + divRoundAway (-(d * 125)) (2 ^ 28))
      let trim := clampTrim (f + divRoundAway (-(d * 125)) (2 ^ 24))
      let run := if big 20 then 0 else s1.est.goodRun + 1
      let s3 := (s1.put F.CAS_TRIM_TRIM (ofSigned 16 trim)).modEst (fun e => { e with integ := f, goodRun := satTo 8 run })
      if big 200 then s3.put F.CAS_STAT_TSTATE tsAcquire
      else if 8 ≤ run then s3.put F.CAS_STAT_TSTATE tsLocked else s3
  pathBegins s2

/-- SYNC_TIMER (R290): a parent sends SYNC, a child DREQ. T1 and TSTATE are filled in as the frame is sent. -/
def syncTimer (n : Nat) (s : State) : State :=
  if s.quiet || !linkUp s n then s
  else if n = 0 then (if s.isHead then s else sendOn 0 (mkFrame ftDreq 0 []) s)
  else sendOn n (mkFrame ftSync 0 (leBytes 12 0)) s

/-- A SYNC on LK0 (R290, R293, R298). -/
def takeSync (frac : Nat) (f : List Byte) (s : State) : State :=
  if s.isHead then s.mark F.CAS_STAT_RIVAL
  else
    let s1 := s.modEst (fun e => { e with sync := some (recNum (frBody f) 0 11, stamp s frac) })
    if lk0Outage s1 then shortEnd 0 s1
    else if (s1.link 0).silent then sendHello (s1.modLink 0 (fun l => { l with silent := false }))
    else s1

/-- A DREQ on a down port (R290). -/
def takeDreq (k frac : Nat) (s : State) : State := sendOn k (mkFrame ftDresp 0 (leBytes 11 (stamp s frac))) s

/-- A DRESP on LK0 (R290). -/
def takeDresp (f : List Byte) (s : State) : State :=
  if s.isHead then s
  else match s.est.sync, s.est.dreq with
    | some (t1, t2), some t3 => exchangeDone t1 t2 t3 (recNum (frBody f) 0 11) s
    | _, _ => s

/-- CAS_CMD RESYNC (R290). -/
def resync (s : State) : State :=
  if s.isHead || !linkUp s 0 then s else (s.put F.CAS_STAT_TSTATE tsAcquire).modEst (fun e => { e with goodRun := 0, stepped := false })

/-! The standby (R297). -/

/-- An IDMIR frame (R297): entries of the head office's table; `complete` tells that every non-free entry has now come. -/
def takeIdmir (n : Nat) (complete : Bool) (f : List Byte) (s : State) : State :=
  match hopOf s (frDst f) with
  | .self =>
    let b := frBody f
    let ents := (List.range (b.length / 12)).map (fun i =>
      (recNum b (12 * i) 2, IdEntry.mk (recNum b (12 * i + 2) 8) (recNum b (12 * i + 10) 1) (recNum b (12 * i + 11) 1)))
    s.modEst (fun e => { e with
      mirror := ents.foldl (fun m p => if p.2.st = 0 then mapDel p.1 m else mapIns p.1 p.2 m) e.mirror
      copied := e.copied || complete })
  | _ => forwardDown n f s

/-- STANDBY_TAKEOVER (Table 13.4, steps 3 and 4). -/
def takeover (s : State) : State :=
  let former := s.devId
  let b := idBase s
  let m := mapIns 0 ⟨ownUid, 1, 0⟩ (mapDel former s.est.mirror)
  let old := sortNat ((s.mem.filter (fun e => b ≤ e.1 && e.1 < b + 0x100000)).map (fun e => (e.1 - b) / 16))
  let s0 := (old.filter (fun i => !m.any (fun p => p.1 == i))).foldl (fun s i => memWrite 0x71 (b + 16 * i) (List.replicate 16 0#8) s) s
  let s1 := m.foldl (fun s p => memWrite 0x71 (b + 16 * p.1) (idBytes p.2) s) s0
  let s2 := ((s1.put F.CAS_ID_ID 0).put F.CAS_ID_VALID 1).put F.GATE_HOPS_HOPS 0
  let s3 := ((s2.put F.CAS_STAT_ROLE 3).mark F.CAS_STAT_TAKEOVER).put F.CAS_STAT_TSTATE tsLocked
  let s4 := (s3.put F.CAS_TRIM_TRIM 0).modEst (fun e => { e with
    integ := 0, takeover := false, waiting := false, welcomed := false, standbys := [], mirror := [], copied := false })
  let s5 := dayPush 0x71 0x29 0 former s4
  sendDown (pathFrame s5 4) s5

/-- SYNC_TIMEOUT (R293, R297). -/
def syncTimeout (s : State) : State :=
  if s.quiet || s.isHead then s
  else
    let due := s.est.takeover || (standbyArmed s && linkUp s 0)
    if due then
      let s1 := if linkUp s 0 then beginOutage 0 s else s
      let s2 := if lk0Outage s1 then lossAt 0 s1 else s1
      takeover s2
    else if linkUp s 0 then beginOutage 0 s
    else s

/-! Link states (R278, R293, R299). -/

/-- A port starts to train, with TS1 until it has word lock; when it does so from DETECT, which word-lock loss left it in, that is a restart
(R278). -/
def beginTraining (n : Nat) (s : State) : State :=
  let s1 := if lstate s n = lsDetect then s.incSat (F.CAS_L_CNT_RETRAIN n) else s
  (s1.put (F.CAS_L_STAT_LSTATE n) lsTrain).modLink n (fun l => { l with lock := false, paused := false })

/-- PRESENCE_DETECTED (R278, R396): in HUSH it is a wake source (Table 16.5). -/
def presenceDetected (n : Nat) (s : State) : State :=
  let s1 := s.mark (F.CAS_L_STAT_PRS n)
  if s1.quiet then (if linkEnabled s1 n then wakeRecognised 7 s1 else s1)
  else if linkEnabled s1 n && decide (lstate s1 n ≤ lsDetect) then beginTraining n s1
  else s1

/-- PRESENCE_LOST (R278, R293): the port goes down; an outage, or a training in progress, becomes a loss (R399). -/
def presenceLost (n : Nat) (s : State) : State :=
  let s1 := leaveActive n lsDown (s.put (F.CAS_L_STAT_PRS n) 0)
  if (s1.link n).outage.isSome || decide (lsTrain ≤ lstate s n) then lossAt n s1 else s1

/-- A port that word-lock loss left in DETECT trains again with the next reference period: PRS is high, its debounce long past (R278). -/
def linkTick (n : Nat) (s : State) : State :=
  if !s.quiet && lstate s n == lsDetect && s.flag (F.CAS_L_STAT_PRS n) && linkEnabled s n then beginTraining n s else s

/-- WORD_LOCK_GAINED (R278): the port sends TS2 from now on. The lock of a port still in DETECT ends the training that has begun meanwhile. -/
def wordLockGained (n : Nat) (s : State) : State :=
  if s.quiet then s
  else
    let s1 := if lstate s n = lsDetect ∧ s.flag (F.CAS_L_STAT_PRS n) ∧ linkEnabled s n then beginTraining n s else s
    if lstate s1 n = lsTrain ∧ !(s1.link n).paused then s1.modLink n (fun l => { l with lock := true }) else s1

def wordLockLoss (n : Nat) (s : State) : State :=
  if s.quiet || lstate s n < lsTrain then s
  else leaveActive n lsDetect s

/-- Frames that belong to the link as it was before an outage are not sent after it. -/
def pruneTx (l : Link) : Link := { l with tx := l.tx.filter (fun f => !([ftHello, ftSync, ftDreq, ftDresp].contains (frType f))) }

/-- TRAINING_COMPLETE (R278, R293): the port is ACTIVE with a partner of this UID. -/
def trainingComplete (n uid : Nat) (s : State) : State :=
  if s.quiet || lstate s n != lsTrain || !(s.link n).lock then s
  else
    let same := (s.link n).partner == some uid
    let s0 := (s.put (F.CAS_L_STAT_LSTATE n) lsActive).modLink n (fun l => { pruneTx l with partner := some uid, since := 0, skip := false })
    let s1 := if n = 0 ∧ !s0.isHead then
        (s0.put F.CAS_STAT_TSTATE tsAcquire).modEst (fun e => { e with exch := false, goodRun := 0, stepped := false, sync := none, dreq := none })
      else s0
    let s2 := if n = 0 ∧ same then s1.modEst (fun e => { e with takeover := false }) else s1
    match (s2.link n).outage with
    | some _ =>
      if same then
        let s3 := shortEnd n s2
        if n = 0 ∧ !pathStandsNow s3 then sendHello s3 else s3
      else
        let s3 := lossAt n s2
        if n = 0 then sendHello s3 else s3
    | none => if n = 0 then sendHello s2 else s2

def trainingTimeout (n : Nat) (s : State) : State :=
  if s.quiet || lstate s n != lsTrain || (s.link n).paused then s
  else s.modLink n (fun l => { l with paused := true, lock := false })

def trainingPauseEnd (n : Nat) (s : State) : State :=
  if s.quiet || lstate s n != lsTrain || !(s.link n).paused then s
  else (s.modLink n (fun l => { l with paused := false })).incSat (F.CAS_L_CNT_RETRAIN n)

/-- OUTAGE_HOLD_EXPIRY (R293). -/
def outageHoldExpiry (n : Nat) (s : State) : State :=
  if s.quiet || (s.link n).outage.isNone then s
  else
    let s1 := if n = 0 ∧ linkUp s 0 then s.modLink 0 (fun l => { l with silent := true }) else s
    lossAt n s1

/-- LINK_DOWN_WRITE (R299). -/
def linkDownWrite (n : Nat) (b : Bool) (s : State) : State :=
  let s1 := s.putB (F.CAS_L_CTRL_DOWN n) b
  if b then
    let s2 := leaveActive n lsDown s1
    if (s2.link n).outage.isSome then lossAt n s2 else s2
  else if !s1.quiet && s1.flag (F.CAS_L_STAT_PRS n) && linkEnabled s1 n && lstate s1 n == lsDown then beginTraining n s1
  else s1

/-- A retrain after a damaged frame, or a unit reset of the port (R281, Table 18.3). -/
def retrain (n : Nat) (s : State) : State :=
  if linkUp s n then (leaveActive n lsTrain s).incSat (F.CAS_L_CNT_RETRAIN n) else s

/-- A port goes down with the device's logic (Table 13.6). -/
def linkPowerDown (n : Nat) (s : State) : State := leaveActive n lsDown s

/-! Reception (R281). -/

/-- A received frame is dropped and counted, or, when it is of the row's TYPE, acted on. -/
def receiveFrame (n typ : Nat) (f : RxFrame) (act : List Byte → State → State) (s : State) : State :=
  let k := f.data.length - 4
  let body := f.data.take k
  if s.quiet || !linkUp s n then s
  else if f.codeErr then retrain n (s.incSat (F.CAS_L_ERR_CODE n))
  else if f.data.length < 8 || crc32 body != ofLe (f.data.drop k) then retrain n (s.incSat (F.CAS_L_ERR_CRC n))
  else if frType body = 0 ∨ 13 < frType body ∨ recNum body 1 1 ≠ k - 4 then countDrop n s
  else if !lenFits (frType body) (k - 4) || !directionFits (frType body) n then countDrop n s
  else if frType body = typ then act body s
  else s

/-! Sending (R212, R282). -/

/-- The pigeonhole letter to be sent next on LK0. -/
def nextLetter (s : State) : Option (Nat × List Byte) :=
  if pathStandsNow s && !lk0Outage s then
    [0, 1, 2].findSome? (fun c => (nth s.gate.up c []).head?.map (fun b => (c, b)))
  else none

/-- Group of R282 of a waiting frame. -/
def frGroup (f : List Byte) : Nat :=
  if frType f ≤ ftPath then 2 else if frType f ≤ ftDresp then 3 else 4

/-- The frame of the least group, first of its group, and the rest of the queue. -/
def pickFrame (l : List (List Byte)) : Option (List Byte × List (List Byte)) :=
  [2, 3, 4].findSome? (fun g => (l.findIdx? (fun f => frGroup f == g)).map (fun i => (l.getD i [], l.eraseIdx i)))

/-- The frame as it goes out on the pins: SYNC takes T1 and TSTATE, and the CRC closes it (R279, R290). -/
def onPins (s : State) (frac : Nat) (f : List Byte) : List Byte :=
  let g := if frType f = ftSync then mkFrame ftSync 0 (leBytes 11 (stamp s frac) ++ leBytes 1 (s.get F.CAS_STAT_TSTATE)) else f
  g ++ leBytes 4 (crc32 g)

/-! Symbols of a link (R277, Table 13.1). -/

/-- A symbol as 8b/10b codes it: a control or a data symbol, by its byte. -/
structure LinkSym where
  ctl  : Bool
  byte : Byte
  deriving DecidableEq, Repr

/-- Kx.y and a data symbol. -/
def symK (x y : Nat) : LinkSym := ⟨true, BitVec.ofNat 8 (32 * y + x)⟩
def symD (b : Byte) : LinkSym := ⟨false, b⟩

def setIdle : List LinkSym := [symK 28 5, symD 0xC5#8]
def setSkip : List LinkSym := [symK 28 5, symK 28 0]
/-- TS1 or TS2 with this device's UID. -/
def setTraining (second : Bool) : List LinkSym := [symK 28 5, symK 28 (if second then 2 else 1)] ++ (leBytes 8 ownUid).map symD
/-- A frame between its delimiters, and the IDLE that follows it (R279). -/
def frameSyms (w : List Byte) : List LinkSym := symK 27 7 :: w.map symD ++ [symK 29 7] ++ setIdle

/-- What stands on the pins from one frame boundary to the next: a frame or an IDLE. -/
def wireSyms (w : List Byte) : List LinkSym := if w.isEmpty then setIdle else frameSyms w

/-- What a port sends (R277, R278): training sets until it is ACTIVE, TS2 once it has word lock; then frames, IDLE between them, and a SKIP
before what would pass 1,024 symbols without one. -/
def linkSent (s : State) (n : Nat) : List LinkSym :=
  let l := s.link n
  if linkUp s n then (if l.skip then setSkip else []) ++ wireSyms l.wire
  else if lstate s n = lsTrain ∧ !l.paused then setTraining l.lock
  else []

/-- The port goes on to send `w`. -/
def putWire (w : List Byte) (l : Link) : Link :=
  let k := (wireSyms w).length
  let skip := decide (1024 < l.since + k + 2)
  { l with wire := w, skip := skip, since := (if skip then 0 else l.since) + k }

/-- The link port reads the letter it sends next, the oldest of class `c` + 1; none where it reads uncorrectable (R373). -/
def readUp (c : Nat) (b : List Byte) (s : State) : Option (List Byte) × State :=
  match upHead s c with
  | none => (some b, s)
  | some a => (if letterBad s 0x71 a then none else some (s.bytes a 32), readSpan 0x71 a 32 s)

/-- LINK_FRAME_BOUNDARY (R282): the first waiting frame is sent. A letter that reads uncorrectable is dropped (R373). -/
def linkFrameBoundary (n frac : Nat) (s : State) : State :=
  if s.quiet || !linkUp s n then s
  else match (if n = 0 then nextLetter s else none) with
    | some (c, b) =>
      let (l, s0) := readUp c b s
      let s1 := s0.modGate (fun g => { g with up := upd g.up c (·.drop 1) })
      redeliveryDone (s1.modLink 0 (putWire (match l with | some x => onPins s frac (mkFrame ftLetter 0 x) | none => [])))
    | none =>
      match pickFrame (s.link n).tx with
      | none => s.modLink n (putWire [])
      | some (f, rest) =>
        let s1 := s.modLink n (fun l => putWire (onPins s frac f) { l with tx := rest })
        if frType f = ftDreq then s1.modEst (fun e => { e with dreq := some (stamp s frac) }) else s1

end Sys2Proof.Machine
end

