-- ==== Sys2Proof/Machine/Aes.lean ====
section
/-!
DEFINITION. AES-128 and its CMAC, the message check of keyed field lines (05, R105).
-/

namespace Sys2Proof.Machine

/-- The 256 bytes of the S-box, byte i at bits 8 × i. -/
def aesBox : Nat :=
  0x16bb54b00f2d99416842e6bf0d89a18cdf2855cee9871e9b948ed9691198f8e19e1dc186b95735610ef6034866b53e708a8bbd4b1f74dde8c6b4a61c2e2578ba08ae7a65eaf4566ca94ed58d6d37c8e779e4959162acd3c25c2406490a3a32e0db0b5ede14b8ee4688902a22dc4f816073195d643d7ea7c41744975fec130ccdd2f3ff1021dab6bcf5389d928f40a351a89f3c507f02f94585334d43fbaaefd0cf584c4a39becb6a5bb1fc20ed00d153842fe329b3d63b52a05a6e1b1a2c830975b227ebe28012079a059618c323c7041531d871f1e5a534ccf73f362693fdb7c072a49cafa2d4adf04759fa7dc982ca76abd7fe2b670130c56f6bf27b777c63

def subByte (b : Nat) : Nat := bits aesBox (8 * b) 8

/-- Doubling in GF(2^8). -/
def xtime (b : Nat) : Nat := if b < 128 then 2 * b else (2 * b - 256) ^^^ 0x1B

def xorL (a b : List Nat) : List Nat := List.zipWith (· ^^^ ·) a b

/-- The next round key from one of 16 bytes. -/
def nextKey (rc : Nat) (k : List Nat) : List Nat :=
  let t := [subByte (k.getD 13 0) ^^^ rc, subByte (k.getD 14 0), subByte (k.getD 15 0), subByte (k.getD 12 0)]
  let w0 := xorL (k.take 4) t
  let w1 := xorL ((k.drop 4).take 4) w0
  let w2 := xorL ((k.drop 8).take 4) w1
  let w3 := xorL (k.drop 12) w2
  w0 ++ w1 ++ w2 ++ w3

/-- SubBytes and ShiftRows of a state held column by column. -/
def subShift (s : List Nat) : List Nat :=
  [0, 5, 10, 15, 4, 9, 14, 3, 8, 13, 2, 7, 12, 1, 6, 11].map (fun i => subByte (s.getD i 0))

def mixColumn (a b c d : Nat) : List Nat :=
  let t := a ^^^ b ^^^ c ^^^ d
  [a ^^^ t ^^^ xtime (a ^^^ b), b ^^^ t ^^^ xtime (b ^^^ c), c ^^^ t ^^^ xtime (c ^^^ d), d ^^^ t ^^^ xtime (d ^^^ a)]

def mixColumns : List Nat → List Nat
  | a :: b :: c :: d :: t => mixColumn a b c d ++ mixColumns t
  | l => l

/-- Rounds 1 to 9 with the round constants given, then the last. -/
def aesRounds : List Nat → List Nat → List Nat → List Nat
  | [], _, s => s
  | [rc], k, s => xorL (subShift s) (nextKey rc k)
  | rc :: rcs, k, s => let k1 := nextKey rc k; aesRounds rcs k1 (xorL (mixColumns (subShift s)) k1)

/-- aes128_encrypt of R105. -/
def aesEncrypt (key block : List Byte) : List Byte :=
  let k := (padTo 16 key).map BitVec.toNat
  (aesRounds [1, 2, 4, 8, 16, 32, 64, 128, 0x1B, 0x36] k (xorL ((padTo 16 block).map BitVec.toNat) k)).map (BitVec.ofNat 8)

/-- A block as a number, first byte most significant, and back. -/
def ofBe (l : List Byte) : Nat := l.foldl (fun n b => 256 * n + b.toNat) 0
def beBytes (n v : Nat) : List Byte := (leBytes n v).reverse

/-- A subkey of CMAC: doubling in GF(2^128). -/
def cmacDouble (v : Nat) : Nat := if v < 2 ^ 127 then 2 * v else (2 * v - 2 ^ 128) ^^^ 0x87

def xorBytes (a b : List Byte) : List Byte := List.zipWith (· ^^^ ·) a b

/-- The chain of CMAC over whole blocks, `n` of them at most. -/
def cmacChain (key : List Byte) : Nat → List Byte → List Byte → List Byte
  | 0, x, _ => x
  | n + 1, x, m => cmacChain key n (aesEncrypt key (xorBytes x (m.take 16))) (m.drop 16)

/-- AES-128-CMAC of NIST SP 800-38B. -/
def aesCmac (key msg : List Byte) : List Byte :=
  let k1 := cmacDouble (ofBe (aesEncrypt key (List.replicate 16 0#8)))
  let n := if msg.isEmpty then 1 else (msg.length + 15) / 16
  let head := msg.take (16 * (n - 1))
  let tail := msg.drop (16 * (n - 1))
  let last := if tail.length = 16 then xorBytes tail (beBytes 16 k1)
              else xorBytes (padTo 16 (tail ++ [0x80#8])) (beBytes 16 (cmacDouble k1))
  aesEncrypt key (xorBytes (cmacChain key (n - 1) (List.replicate 16 0#8) head) last)

end Sys2Proof.Machine
end

