-- ==== Sys2Proof/Machine/Trend.lean ====
section
/-!
DEFINITION. The address book, the calibration layers and the trend unit (08).
-/

namespace Sys2Proof.Machine

def State.modTrend (s : State) (f : Trend → Trend) : State := { s with trend := f s.trend }

/-! Factory curves (R164, R165). -/

/-- C1 and limits of the standard curves of Table 8.5. -/
def stdCurve (c : Nat) : Nat × Int × Int × Nat :=   -- SCALE, RAWMIN, RAWMAX, C1
  match c with
  | 0 => (0, -32767, 32767, 0x01000000)
  | 1 => (1, -5120, 16000, 0x00C80000)
  | 2 => (2, 0, 25600, 0x00640000)
  | 3 => (3, 0, 12800, 0x00640000)
  | _ => (4, 0, 32767, 0x01000000)

/-- Bytes 0 to 27 of a standard curve; its LOT is the chip's own. -/
def stdCurveBytes (c : Nat) : List Byte :=
  let (sc, lo, hi, c1) := stdCurve c
  leBytes 1 1 ++ leBytes 1 sc ++ leBytes 2 (ofSigned 16 lo) ++ leBytes 2 (ofSigned 16 hi) ++ leBytes 2 0 ++ leBytes 4 0 ++
  leBytes 4 c1 ++ leBytes 4 0 ++ (List.range 8).map (fun i => Config.otpByte (32 * c + 20 + i))

/-- The 32 bytes of curve c. -/
def curveBytes (c : Nat) : List Byte :=
  if c < 5 then stdCurveBytes c ++ leBytes 4 (crc32 (stdCurveBytes c))
  else (List.range 32).map (fun i => Config.otpByte (32 * c + i))

/-- A byte of the OTP area by offset. -/
def otpRead (off : Nat) : Byte := (curveBytes (off / 32)).getD (off % 32) 0#8

/-- Whether a curve counts as programmed (R164). -/
def curveOk (c : Nat) : Bool :=
  if c < 5 then true
  else let b := curveBytes c; ofLe (b.take 1) == 1 && crc32 (b.take 28) == ofLe (b.drop 28)

/-- Whether the start-up check finds a curve bad: a VALID other than 0 and 1, or a failed CRC (R164). -/
def curveBad (c : Nat) : Bool := !curveOk c && ofLe ((curveBytes c).take 1) != 0

def curveScale (c : Nat) : Nat := ofLe (((curveBytes c).drop 1).take 1)
def curveField (c off n : Nat) : Int := toSigned (8 * n) (ofLe (((curveBytes c).drop off).take n))

/-- The curve checks of start-up: the lowest bad curve is recorded. -/
def checkCurves (s : State) : State :=
  match (List.range 256).find? curveBad with
  | none => s
  | some c => (s.mark F.TREND_STAT_CURVE_BAD).put F.TREND_CURVEERR_CURVE c

/-! Bins (R168 to R171). -/

def binBase : Nat := 0x03C00000
def binLine (b : Nat) : Nat := binBase + 64 * b
def binNum (s : State) (b off n : Nat) : Nat := s.num (binLine b + off) n
def binKind (s : State) (b : Nat) : Nat := binNum s b 0 1
def binCurve (s : State) (b : Nat) : Nat := binNum s b 1 1
def binAlpha (s : State) (b : Nat) : Nat := binNum s b 2 1
def binSurface (s : State) (b : Nat) : Nat := binNum s b 3 1
def binFirst (s : State) (b : Nat) : Nat := binNum s b 4 4
def binCables (s : State) (b : Nat) : Nat := binNum s b 8 2
def binDepth (s : State) (b : Nat) : Nat := binNum s b 10 1
def binCols (s : State) (b : Nat) : Nat := binNum s b 12 2
def binEven (s : State) (b : Nat) : Nat := binNum s b 14 1
def binEvsort (s : State) (b : Nat) : Nat := binNum s b 15 1
def binHigh (s : State) (b : Nat) : Int := toSigned 16 (binNum s b 16 2)
def binDiff (s : State) (b : Nat) : Int := binNum s b 18 2
def binRise (s : State) (b : Nat) : Int := toSigned 16 (binNum s b 20 2)
def binHyst (s : State) (b : Nat) : Int := binNum s b 22 2
def binRhyst (s : State) (b : Nat) : Int := binNum s b 24 2
def binGapMax (s : State) (b : Nat) : Nat := binNum s b 26 2

/-- Endpoints of a bin. -/
def binSpan (s : State) (b : Nat) : Nat := binCables s b * binDepth s b
def overlaps (a n c m : Nat) : Bool := a < c + m && c < a + n

/-- Reserved bits and encodings of an entry of 32 bytes, read by offset and size (Table 8.6). DESIGN CHOICE: a value
of CABLES or DEPTH outside the range the table gives it is taken as reserved, though the table does not say so beside these two. -/
def binReserved (g : Nat → Nat → Nat) : Bool :=
  3 < g 0 1 || g 2 1 == 0 || 15 < g 2 1 || 0x7FFFFF < g 4 4 || g 8 2 == 0 || 16384 < g 8 2 || g 10 1 == 0 || 64 < g 10 1 ||
  g 11 1 != 0 || 0x3F < g 14 1 || 0x3F < g 15 1 || g 26 2 == 0 || g 28 4 != 0
def binShape (g : Nat → Nat → Nat) : Bool :=
  g 3 1 ≤ g 10 1 && (if g 0 1 = 3 then 1 ≤ g 12 2 && g 12 2 ≤ g 8 2 && g 8 2 % (max (g 12 2) 1) == 0 else g 12 2 == 0)

/-- The first condition of R170 that bin b misses, overlap apart, as BINERR.CAUSE; 0 when it meets them. Cause 6 is an error of the line
(R64); beats that the arbiter poisons under R80 are none. -/
def binFlaw (s : State) (b : Nat) : Nat :=
  let g := binNum s b
  if s.trend.unread.contains b || cellsBad s 0x78 (binLine b) then 6
  else if binReserved g then 1
  else if !binShape g then 2
  else if 0x500000 < binFirst s b + binSpan s b then 3
  else if !curveOk (binCurve s b) then 5
  else 0

/-- The cause for which bin b is invalid, 0 when it is valid (R170, BINERR.CAUSE), given the lower bins that meet the other conditions. -/
def binCause (s : State) (below : List Nat) (b : Nat) : Nat :=
  let c := binFlaw s b
  if c = 0 ∧ below.any (fun c => overlaps (binFirst s b) (binSpan s b) (binFirst s c) (binSpan s c)) then 4 else c

/-- Bins that can be other than unused: their line holds a byte other than 0, or a turned cell. -/
def binCandidates (s : State) : List Nat :=
  sortNat (((s.mem.map (·.1) ++ s.ledg.flips.map (·.addr)).filter (fun a => binBase ≤ a && a < 0x03C40000)).map (fun a => (a - binBase) / 64))

/-- Whether a bin is unused: KIND 0x00, read without error. -/
def binUnused (s : State) (b : Nat) : Bool := binFlaw s b != 6 && binKind s b == 0

/-- The index of valid bins, and the bins found invalid with their causes. -/
def judgeBins (s : State) : List Nat × List (Nat × Nat) :=
  let bs := (binCandidates s).filter (fun b => !binUnused s b)
  let met := bs.filter (fun b => binFlaw s b == 0)
  let cs := bs.map (fun b => (b, binCause s (met.filter (· < b)) b))
  ((cs.filter (·.2 == 0)).map (·.1), cs.filter (·.2 != 0))

/-- The lines of the bin table are read, those found uncorrectable before apart (R64, R170). -/
def readBins (s : State) : State :=
  let bs := (binCandidates s).filter (fun b => !s.trend.unread.contains b)
  let s1 := s.modTrend (fun t => { t with unread := sortNat (t.unread ++ bs.filter (fun b => cellsBad s 0x78 (binLine b))) })
  bs.foldl (fun s b => readAs 0x78 (binLine b) s) s1

/-- BIN_REEVALUATE (R170): the index, and the first bin found invalid since BIN_BAD was cleared. -/
def reevaluate (s0 : State) : State :=
  let s := readBins s0
  let (valid, bad) := judgeBins s
  let s1 := s.modTrend (fun t => { t with valid := valid })
  match bad with
  | [] => s1
  | (b, c) :: _ =>
    if s1.flag F.TREND_STAT_BIN_BAD then s1
    else ((s1.mark F.TREND_STAT_BIN_BAD).put F.TREND_BINERR_BIN b).put F.TREND_BINERR_CAUSE c

/-- A write that touched lines of the bin table is taken up by the index of bins: those lines are evaluated afresh (R169, R170). -/
def rebin (a n : Nat) (s : State) : State :=
  if a < 0x03C40000 && binBase < a + n then
    reevaluate (s.modTrend (fun t => { t with unread := t.unread.filter (fun b => poisonAt s (binLine b) || !overlaps (binLine b) 64 a n) }))
  else s

/-- The bin an endpoint lies in (R169). -/
def binOf (s : State) (e : Nat) : Option Nat :=
  s.trend.valid.find? (fun b => binFirst s b ≤ e && e < binFirst s b + binSpan s b)

/-- A bin whose line has come to read uncorrectable is found so when a reading needs it (R170). -/
def meetBin (e : Nat) (s : State) : State :=
  if (binOf s e).any (fun b => cellsBad s 0x78 (binLine b)) then reevaluate s else s

/-- The sorter of a bin (R27, R176), as a unit ID. -/
def binSorter (s : State) (b : Nat) : Option Nat :=
  (s.rmap.routes.find? (fun r => r.rtype == 1 && r.source == b)).map (fun r => r.target + 1)

/-! Entries (R160 to R162). -/

structure BookEntry where
  latch : Bool
  qual  : Nat
  rate  : Int
  value : Int
  stamp : Nat
  deriving DecidableEq, Repr

def qEmpty : Nat := 0
def qGood : Nat := 1
def qSeeded : Nat := 2
def qFailed : Nat := 3
def qClipped : Nat := 4
def qRetired : Nat := 5

def decodeEntry (lo hi : Nat) : BookEntry :=
  { latch := bit lo 31, qual := bits lo 28 3, rate := toSigned 12 (bits lo 16 12), value := toSigned 16 lo, stamp := hi }
def encodeLo (e : BookEntry) : Nat :=
  (b2n e.latch) * 2 ^ 31 + e.qual * 2 ^ 28 + ofSigned 12 e.rate * 2 ^ 16 + ofSigned 16 e.value

/-- The newest update of an endpoint in the write-back buffers, in postmark order (R178). -/
def pendOf (s : State) (e : Nat) : Option PendRead :=
  ((s.trend.backs.flatMap (·.reads)).filter (·.ep == e)).foldl (fun b p => match b with
    | none => some p
    | some q => if q.pm ≤ p.pm then some p else some q) none

/-- LO and HI of an entry as last written: the last write held for it (R71), else the ledger. -/
def bookWords (s : State) (e : Nat) : Nat × Nat :=
  match s.ledg.held.foldl (fun b h => match h with
    | .write 0x78 a d none => if a = 8 * e ∧ d.length = 8 then some d else b
    | _ => b) none with
  | some d => (ofLe (d.take 4), ofLe (d.drop 4))
  | none => (s.num (8 * e) 4, s.num (8 * e + 4) 4)

/-- An entry as it stands, any update in the buffers included (R169). -/
def entryNow (s : State) (e : Nat) : BookEntry :=
  match pendOf s e with
  | some p => decodeEntry p.lo p.hi
  | none => decodeEntry (bookWords s e).1 (bookWords s e).2

/-- A poisoned read met by the trend unit (Table 8.9). -/
def trendPoison (a : Nat) (s : State) : State := ((readAs 0x78 a s).incSat F.TREND_CNT_ERR_POISON).mark F.TREND_STAT_POISON

/-! Calibration (R166, R167). -/

def calAddr (e : Nat) : Nat := 0x02800000 + 4 * e

/-- A raw code through its curve and a gain and offset: the value and its quality. -/
def calibrate (curve raw : Nat) (gain off : Int) : Int × Nat :=
  let r := toSigned 16 raw
  let lo := curveField curve 2 2
  let hi := curveField curve 4 2
  let x := min (max r lo) hi
  let q := if r < lo ∨ hi < max r lo then qClipped else qGood
  -- f × 2^32, exact
  let f := curveField curve 8 4 * 2 ^ 16 + curveField curve 12 4 * x * 2 ^ 8 + curveField curve 16 4 * x * x
  let v := divRoundAway (f * (65536 + gain) + off * 2 ^ 48) (2 ^ 48)
  if v < -32768 then (-32768, qClipped) else if 32767 < v then (32767, qClipped) else (v, q)

/-- The calibrated value of an endpoint's raw code (R167), and the poisoned address it read, if any. -/
def calibrateAt (s : State) (e raw : Nat) : (Int × Nat) × List Nat :=
  if raw % 2 ^ 16 = 0x8000 then ((0, qFailed), [])
  else if poisonFor s 0x78 (calAddr e) then ((0, qFailed), [calAddr e])
  else
    let c := ((binOf s e).map (binCurve s)).getD 0
    let w := s.num (calAddr e) 4
    (calibrate c raw (toSigned 16 w) (toSigned 16 (w / 2 ^ 16)), [])

/-! Trend arithmetic (R173, R174). -/

def updateEntry (old : BookEntry) (alpha gapMax : Nat) (v : Int) (q pm : Nat) : BookEntry :=
  let st := pm / 2 ^ 18 % 2 ^ 32
  if q = qFailed then { old with qual := qFailed }
  else
    let dt := (st + 2 ^ 32 - old.stamp) % 2 ^ 32
    if q = qGood ∧ (old.qual = qGood ∨ old.qual = qSeeded) ∧ 0 < dt ∧ dt ≤ 64 * gapMax then
      let r := divRoundAway (3686400 * (v - old.value)) dt
      let d := r - old.rate
      { old with rate := clampS 12 (old.rate + (d + 2 ^ (alpha - 1)) / 2 ^ alpha), qual := qGood, value := v, stamp := st }
    else { old with qual := if q = qGood then qSeeded else qClipped, value := v, stamp := st }

/-- Endpoints beside `e` in its bin (R169), before the tests of level, quality and poison. -/
def neighbours (s : State) (b e : Nat) : List Nat :=
  let depth := binDepth s b; let n := binCables s b; let first := binFirst s b
  let cable := (e - first) / depth; let level := (e - first) % depth
  let at_ := fun (c l : Nat) => first + c * depth + l
  let vert := (if 0 < level then [at_ cable (level - 1)] else []) ++ (if level + 1 < depth then [at_ cable (level + 1)] else [])
  match binKind s b with
  | 2 =>
    let a := (cable + n - 1) % n; let c := (cable + 1) % n
    vert ++ (([a, c].filter (· != cable)).eraseDups).map (fun x => at_ x level)
  | 3 =>
    let cols := binCols s b; let row := cable / cols; let col := cable % cols
    vert ++ (((if 0 < col then [cable - 1] else []) ++ (if col + 1 < cols then [cable + 1] else []) ++
      (if 0 < row then [cable - cols] else []) ++ (if (row + 1) * cols + col < n then [cable + cols] else [])).map (fun x => at_ x level))
  | _ => []

/-- Whether a neighbour's entry reads poisoned: it is not in a buffer and its line holds an error. -/
def bookPoison (s : State) (e : Nat) : Bool := (pendOf s e).isNone && poisonFor s 0x78 (8 * e)

/-- Usable neighbours of an endpoint (R169). -/
def usable (s : State) (b e : Nat) : List Nat :=
  (neighbours s b e).filter (fun x =>
    binSurface s b ≤ (x - binFirst s b) % binDepth s b && !bookPoison s x &&
    ((entryNow s x).qual == qGood || (entryNow s x).qual == qSeeded))

/-- The record of a trend event (R176). -/
def trendRecord (s : State) (pm e kind qual : Nat) (value : Int) (scale reason : Nat) : List Byte :=
  mkRecord pm s.devId e kind qual (ofSigned 24 value) scale 0x78 reason

/-- The tests of R174 on a reading: its events, and whether they are to clear LATCH. `new` has LATCH as it was. -/
def trendTest (s : State) (b e : Nat) (old new : BookEntry) (q pm : Nat) : List TrendEv × Bool × Bool :=
  let even := binEven s b; let srt := binEvsort s b
  let sc := curveScale (binCurve s b)
  let gs := new.qual == qGood || new.qual == qSeeded
  let nb := usable s b e
  let dmax := (nb.map (fun x => new.value - (entryNow s x).value)).foldl (fun (m : Option Int) d => some (match m with | none => d | some k => max k d)) none
  let high := (gs || new.qual == qClipped) && decide (binHigh s b < new.value)
  let rise := new.qual == qGood && decide (binRise s b < new.rate)
  let diff := gs && (match dmax with | none => false | some d => decide (binDiff s b < d))
  let fail := q == qFailed
  let ev := fun (k bitNo : Nat) (v : Int) (scale : Nat) =>
    (⟨trendRecord s pm e k new.qual v scale 0, if bit srt bitNo then some b else none⟩ : TrendEv)
  if !old.latch then
    let evs := (if bit even 0 && high then [ev 0x10 0 new.value sc] else []) ++
      (if bit even 1 && rise then [ev 0x11 1 new.rate (sc % 128 + 128)] else []) ++
      (if bit even 2 && diff then [ev 0x12 2 (dmax.getD 0) sc] else []) ++
      (if bit even 4 && fail then [ev 0x14 4 new.value sc] else [])
    (evs, false, false)
  else if new.qual == qGood && (!bit even 0 || decide (new.value ≤ binHigh s b - binHyst s b))
      && (!bit even 1 || decide (new.rate ≤ binRise s b - binRhyst s b))
      && (!bit even 2 || (match dmax with | none => true | some d => decide (d ≤ binDiff s b - binHyst s b))) then
    if bit even 3 then ([ev 0x13 3 new.value sc], true, false) else ([], true, true)
  else ([], false, false)

/-! Write-back (R178). -/

def backOf (s : State) (p : Nat) : WriteBack := nth s.trend.backs p ⟨[], []⟩
def modBack (p : Nat) (f : WriteBack → WriteBack) (s : State) : State :=
  s.modTrend (fun t => { t with backs := upd t.backs p f })

/-- LATCH of an endpoint, in the ledger and in the updates of it that wait. -/
def setLatch (e : Nat) (b : Bool) (s : State) : State :=
  let (lo, hi) := bookWords s e
  memWrite 0x78 (8 * e) (leBytes 4 (setBits lo 31 1 (b2n b)) ++ leBytes 4 hi) (s.modTrend (fun t => { t with
    backs := t.backs.map (fun w => { w with reads := w.reads.map (fun r => if r.ep == e then { r with lo := setBits r.lo 31 1 (b2n b) } else r) }) }))

/-- An event's record enters the queue of the sorter its bin is routed to, or is lost (R174, R176); the flag tells which. -/
def eventToSorter (b : Nat) (body : List Byte) (s : State) : Bool × State :=
  match binSorter s b with
  | some u => if coreAccepts u s then (true, (enqueue u body s).incSat F.TREND_CNT_EV_EVENTS) else (false, s.incSat F.TREND_CNT_LOSS_EVDROP)
  | none => (false, s.incSat F.TREND_CNT_LOSS_EVDROP)

/-- Raise the events of a committed reading (R174, R176): records to the sorter are accepted or lost at once, letters are
offered to the gatekeeper. `ep` is the endpoint whose LATCH they settle. -/
def raiseEvents (ep : Option Nat) (clear : Bool) (evs : List TrendEv) (s : State) : State :=
  let (s1, ok, letters) := evs.foldl (fun (acc : State × Bool × Nat) ev =>
    let (s, ok, n) := acc
    match ev.bin with
    | some b => let (k, s1) := eventToSorter b ev.body s; (s1, ok && k, n)
    | none => (offer ⟨0x78, ev.body, 0⟩ s, ok, n + 1)) (s, true, 0)
  if 0 < letters then s1.modTrend (fun t => { t with awaits := t.awaits ++ [⟨ep, letters, ok, clear⟩] })
  else match ep with
    | some e => if ok && !evs.isEmpty then setLatch e (!clear) s1 else s1
    | none => s1

/-- The gatekeeper has decided a letter of the trend unit: LATCH follows the last of its reading (R174). -/
def trendDecided (accepted : Bool) (s : State) : State :=
  match s.trend.awaits with
  | [] => s
  | a :: rest =>
    let ok := a.ok && accepted
    if 1 < a.need then s.modTrend (fun t => { t with awaits := { a with need := a.need - 1, ok := ok } :: rest })
    else
      let s1 := s.modTrend (fun t => { t with awaits := rest })
      match a.ep with
      | some e => if ok then setLatch e (!a.clear) s1 else s1
      | none => s1

/-- The trend unit takes no work and commits none: not up, in reset, or franking has stopped for a flush (R179, R428). -/
def trendIdle (s : State) : Bool := s.quiet || s.flt.resets.contains 0x78

/-- What a reading met counts once it has committed (R56), and its entry is written. -/
def commitRead (r : PendRead) (s : State) : State :=
  let s1 := r.met.foldl (fun s a => readAs 0x78 a s) (r.bad.foldl (fun s a => trendPoison a s) (meetBin r.ep s))
  memWrite 0x78 (8 * r.ep) (leBytes 4 r.lo ++ leBytes 4 r.hi) s1

/-- Ports whose lines are issued with that of port `p`: its own, and, where another port's buffer holds a reading of an endpoint of it, every
port whose buffer holds the same line, so that the readings of one endpoint are applied in postmark order (R178). -/
def issuedWith (s : State) (p : Nat) : List Nat :=
  let mine := (backOf s p).reads
  let ls := mine.map (fun r => lineOf (8 * r.ep))
  if (List.range 32).any (fun q => q != p && (backOf s q).reads.any (fun r => mine.any (·.ep == r.ep)))
  then (List.range 32).filter (fun q => (backOf s q).reads.any (fun r => ls.contains (lineOf (8 * r.ep)))) else [p]

/-- Readings in postmark order. -/
def byPostmark (l : List PendRead) : List PendRead :=
  l.foldl (fun o r => o.takeWhile (fun x => x.pm ≤ r.pm) ++ r :: o.dropWhile (fun x => x.pm ≤ r.pm)) []

/-- A port's line counts as written in its round; one written before is a rewrite (R178). -/
def noteIssued (p : Nat) (s : State) : State :=
  match (backOf s p).reads with
  | [] => s
  | r :: _ =>
    let l := lineOf (8 * r.ep)
    let again := (backOf s p).done.contains l
    let s1 := modBack p (fun w => { reads := [], done := if again then w.done else w.done ++ [l] }) s
    if again then s1.incSat F.TREND_CNT_WB_REWRITE else s1

/-- WRITE_BACK_ISSUE (R178): the merged line of a port is written; its readings have committed and their events are raised. -/
def issueBack (p : Nat) (s : State) : State :=
  if trendIdle s || (backOf s p).reads.isEmpty then s
  else
    let ps := issuedWith s p
    let rs := byPostmark (ps.flatMap (fun q => (backOf s q).reads))
    let s1 := ps.foldl (fun s q => noteIssued q s) (rs.foldl (fun s r => commitRead r s) s)
    rs.foldl (fun s r => raiseEvents (some r.ep) r.clear r.evs s) (s1.incSat F.TREND_CNT_RD_READINGS rs.length)

/-- A round of the port is over: its line is issued and the next round starts with no line written (R178). -/
def endBack (p : Nat) (s : State) : State := modBack p (fun w => { w with done := [] }) (issueBack p s)

/-- A port's uncommitted write-back is cancelled (R56). -/
def cancelBack (p : Nat) (s : State) : State :=
  if (backOf s p).reads.isEmpty then s
  else (modBack p (fun w => { w with reads := [] }) s).incSat F.TREND_CNT_WB_CANCEL

/-- Neighbours of the level tests of R169, and of them those whose entry reads poisoned. -/
def deepNeighbours (s : State) (b e : Nat) : List Nat :=
  (neighbours s b e).filter (fun x => binSurface s b ≤ (x - binFirst s b) % binDepth s b)

/-- What a reading makes of its endpoint's entry (R173, R174): the update to wait in the buffer. -/
def judgeReading (s : State) (r : Reading) : PendRead :=
  let ((v, q), cal) := calibrateAt s r.ep r.raw
  let lost := bookPoison s r.ep
  let old := if lost then (⟨false, 0, 0, 0, 0⟩ : BookEntry) else entryNow s r.ep
  let bad := cal ++ (if lost then [8 * r.ep] else [])
  let met := (if cal.isEmpty && r.raw % 2 ^ 16 != 0x8000 then [calAddr r.ep] else []) ++ (if lost || (pendOf s r.ep).isSome then [] else [8 * r.ep]) ++
    (binOf s r.ep).toList.map binLine
  match binOf s r.ep with
  | none => let new := updateEntry old 4 600 v q r.pm; ⟨r.ep, r.pm, encodeLo new, new.stamp, [], false, bad, met⟩
  | some b =>
    let new := updateEntry old (binAlpha s b) (binGapMax s b) v q r.pm
    if binSurface s b ≤ (r.ep - binFirst s b) % binDepth s b ∧ s.flag F.TREND_CTRL_TEST then
      let (evs, clear, now) := trendTest s b r.ep old new q r.pm
      let near := deepNeighbours s b r.ep
      ⟨r.ep, r.pm, encodeLo (if now then { new with latch := false } else new), new.stamp, evs, clear,
        bad ++ ((near.filter (bookPoison s)).map (8 * ·)), met ++ ((near.filter (fun x => (pendOf s x).isNone && !bookPoison s x)).map (8 * ·))⟩
    else ⟨r.ep, r.pm, encodeLo new, new.stamp, [], false, bad, met⟩

/-- A reading accepted by the trend unit (R173): its entry is updated in the port's buffer, whose line is issued first when the reading
belongs to another (R178). An error that it meets shows once the reading commits (R56). -/
def acceptReading (p : Nat) (r : Reading) (s : State) : State :=
  if 0x500000 ≤ r.ep then s.incSat F.TREND_CNT_ERR_RANGE
  else
    let s0 := match (backOf s p).reads with
      | [] => s
      | q :: _ => if lineOf (8 * q.ep) = lineOf (8 * r.ep) then s else issueBack p s
    modBack p (fun w => { w with reads := w.reads ++ [judgeReading (meetBin r.ep s0) r] }) s0

/-- A field report (R177): calibrated, raised when the bin's REPORT bit is set or the endpoint lies in no valid bin. -/
def fieldReport (r : Report) (s : State) : State :=
  if 0x500000 ≤ r.ep then s.incSat F.TREND_CNT_ERR_RANGE
  else
    let s0 := meetBin r.ep s
    let ((v, q), bad) := calibrateAt s0 r.ep r.raw
    let s1 := if bad.isEmpty then readAs 0x78 (calAddr r.ep) s0 else bad.foldl (fun s a => trendPoison a s) s0
    let body := fun c => trendRecord s1 r.pm r.ep 0x15 q v (curveScale c) r.kind
    match binOf s1 r.ep with
    | none => raiseEvents none false [⟨body 0, none⟩] s1
    | some b =>
      if bit (binEven s1 b) 5 then raiseEvents none false [⟨body (binCurve s1 b), if bit (binEvsort s1 b) 5 then some b else none⟩] s1
      else s1

/-- Franking has stopped for a flush (R428): readings not committed are cancelled, and events not franked count as returned. -/
def trendFlush (s : State) : State :=
  let s1 := forUpTo 32 cancelBack s
  let n := (s1.gate.offers.filter (fun o => o.unit == 0x78)).length
  let s2 := (s1.incSat F.TREND_CNT_LOSS_RETURNED n).modGate (fun g => { g with offers := [] })
  s2.modTrend (fun t => { t with awaits := [] })

/-- Every pending line that holds an endpoint of a range is issued (R178). -/
def issueRange (first n : Nat) (s : State) : State :=
  forUpTo 32 (fun p s => if (backOf s p).reads.any (fun r => first ≤ r.ep && r.ep < first + n) then issueBack p s else s) s

end Sys2Proof.Machine
end

