-- ==== Sys2Proof/Machine/Signal.lean ====
section
/-!
DEFINITION. Signals of a field line (05): the half-bit levels of a frame, their timing, and what the samples of a burst spell.
-/

namespace Sys2Proof.Machine

/-! Sending (R92, R93, R95, R97). -/

/-- A bit's two half-bits: 0 is high then low, 1 low then high (R92). -/
def bitLevels (b : Bool) : List Bool := [!b, b]
/-- A byte, least significant bit first. -/
def byteLevels (b : Byte) : List Bool := (List.range 8).flatMap (fun i => bitLevels (b.getLsbD i))
/-- The start delimiter: high for one bit time, low for one (R93). -/
def sdLevels : List Bool := [true, true, false, false]
/-- The end delimiter: low for one bit time, high for one (R93). -/
def edLevels : List Bool := [false, false, true, true]

/-- The half-bits of a frame whose preamble is `pre` bytes of 0x55: five in a command, two in a reply (R93, Table 5.5). -/
def frameLevels (pre : Nat) (bytes : List Byte) : List Bool :=
  (List.replicate pre 0x55#8).flatMap byteLevels ++ sdLevels ++ bytes.flatMap byteLevels ++ edLevels

/-- The phase increment of a rate (Table 5.4). -/
def phaseInc (rate : Nat) : Nat := 0x3D0900 * 2 ^ rate

/-! Receiving (R96). A run is a level of FLnn_RXD and how many reference periods it lasted; the last run goes on. -/

/-- A pulse shorter than `g` periods does not change the level; the first element is the level before any edge. -/
def deglitch (g : Nat) : Bool × Nat → List (Bool × Nat) → List (Bool × Nat)
  | c, [] => [c]
  | c, r :: t => if r.1 = c.1 ∨ r.2 < g ∨ r.2 = 0 then deglitch g (c.1, c.2 + r.2) t else c :: deglitch g r t

/-- Runs of one level that follow one another are one run: samples may come in pieces. -/
def joinRuns : List (Bool × Nat) → List (Bool × Nat)
  | [] => []
  | r :: t =>
    match joinRuns t with
    | [] => [r]
    | q :: u => if q.1 = r.1 then (r.1, r.2 + q.2) :: u else r :: q :: u

/-- Runs past the glitch filter: what comes before the first edge, in periods, and the runs from there. -/
def edges (g : Nat) (runs : List (Bool × Nat)) : Nat × List (Bool × Nat) :=
  match deglitch g (false, 0) (joinRuns runs) with
  | [] => (0, [])
  | r :: t => (r.2, t)

/-- What is left of runs after `n` periods. -/
def dropPeriods : Nat → List (Bool × Nat) → List (Bool × Nat)
  | _, [] => []
  | n, r :: t => if n < r.2 then (r.1, r.2 - n) :: t else dropPeriods (n - r.2) t

def periods (runs : List (Bool × Nat)) : Nat := (runs.map (·.2)).sum

/-! Bit timing (R96). It is locked on the preamble: the mean instant of the eight edges of its last eight bits is the seventh half-bit after
the first of them, and the half-bits go on from there at one rate, which lies within 3 % of nominal. Every edge has to lie within 15 % of a
bit time of its instant; the rates that no edge has ruled out are kept as bounds. Times are in reference periods from the first of the
eight edges; `n` periods are n · r / 2^24 half-bits at the nominal rate, with r = 15625 · 2^RATE. -/

/-- A rate against the nominal one, as a fraction. -/
abbrev RateFrac := Nat × Nat
def rateFracLe (a b : RateFrac) : Bool := decide (a.1 * b.2 ≤ b.1 * a.2)

structure Timing where
  sum : Nat     -- of the instants of the eight edges
  lo  : RateFrac   -- the lowest rate that no edge has ruled out
  hi  : RateFrac   -- the highest
  at_ : Nat     -- instant of the last edge
  len : Nat     -- half-bits from the first edge to the last one

/-- An edge after `t` periods is the end of half-bit `c`: the rates are kept under which it lies in its place, if there are any. -/
def Timing.edge (r t c : Nat) (k : Timing) : Option Timing :=
  let x : Int := ((8 * t : Nat) - (k.sum : Int)) * r
  let y : Int := ((8 * c : Nat) - 56) * 2 ^ 24
  let d := if x < 0 then -y else y
  let lo : RateFrac := ((10 * d - 24 * 2 ^ 24).toNat, 10 * x.natAbs)
  let hi : RateFrac := ((10 * d + 24 * 2 ^ 24).toNat, 10 * x.natAbs)
  let k1 := { k with lo := if rateFracLe lo k.lo then k.lo else lo, hi := if rateFracLe k.hi hi then k.hi else hi, at_ := t, len := c }
  if 0 ≤ 10 * d + 24 * 2 ^ 24 ∧ rateFracLe k1.lo k1.hi then some k1 else none

/-- Half-bits that lie before an instant, `slack` tenths of one added, at the mean of the rates that are left. -/
def Timing.halves (r t slack : Nat) (k : Timing) : Nat :=
  let num := k.lo.1 * k.hi.2 + k.hi.1 * k.lo.2
  let den := 2 * k.lo.2 * k.hi.2
  7 + (10 * num * ((8 * t - k.sum) * r) + slack * den * 2 ^ 27) / (10 * den * 2 ^ 27)

/-- Eight bits of preamble and the high half of an SD, in half-bits from the first rising edge. -/
def lockPattern : List Nat := [2, 2, 2, 2, 2, 2, 2, 1, 2]

/-- Instants of the edges that begin and end runs. -/
def instants : Nat → List (Bool × Nat) → List Nat
  | t, [] => [t]
  | t, e :: l => t :: instants (t + e.2) l
/-- The half-bits at which the edges of the lock pattern lie. -/
def lockEdges : List Nat := [0, 2, 4, 6, 8, 10, 12, 14, 15, 17]

/-- The timing of runs that begin with eight bits of preamble and an SD (R93, R96), up to the SD's low half. -/
def lockAt (r : Nat) (runs : List (Bool × Nat)) : Option Timing :=
  let ts := instants 0 (runs.take 9)
  if ts.length ≠ 10 then none
  else
    let k := (ts.zip lockEdges).foldl (fun k e => k.bind (Timing.edge r e.1 e.2)) (some ⟨(ts.take 8).sum, (97, 100), (103, 100), 0, 0⟩)
    match k, runs.drop 9 with
    | some k, e :: _ => if k.len + 2 ≤ k.halves r (k.at_ + e.2) 3 then some k else none
    | _, _ => none

/-- The first preamble and SD: periods up to the end of the SD, their timing, and the runs from the SD's low half on. -/
def findSd (r : Nat) : Nat → List (Bool × Nat) → Option (Nat × Timing × List (Bool × Nat))
  | _, [] => none
  | t, e :: rest =>
    match (if e.1 then lockAt r (e :: rest) else none) with
    | some k => some (t + periods ((e :: rest).take 9) + 2 ^ 25 / r, k, (e :: rest).drop 9)
    | none => findSd r (t + e.2) rest

/-- Half-bits with the runs that follow each; one whose end lies out of its place stands as none, and nothing is read after it. Of the run
that goes on, those that it fills whatever the tolerance makes of its end. -/
def halfBits (r : Nat) : Timing → List (Bool × Nat) → List (Option Bool × List (Bool × Nat))
  | _, [] => []
  | k, [e] => List.replicate (min 5 (k.halves r (k.at_ + e.2) 3 - k.len)) (some e.1, [])
  | k, e :: f :: t =>
    let c := max (k.len + 1) (k.halves r (k.at_ + e.2) 5)
    match k.edge r (k.at_ + e.2) c with
    | some k1 => List.replicate (min 5 (c - k.len)) (some e.1, f :: t) ++ halfBits r k1 (f :: t)
    | none => List.replicate (min 4 (c - k.len - 1)) (some e.1, f :: t) ++ [(none, [])]

/-- How what follows an SD stands: going on, ended by an ED, or with a transition missing or out of its place. -/
inductive FrameEnd where
  | goesOn | ed | broken
  deriving DecidableEq, Repr

/-- Half-bits that can still become a bit or an ED. -/
def mayGoOn : List (Option Bool) → Bool
  | [] | [some _] | [some false, some false] | [some false, some false, some true] | [some false, some false, some true, some true] => true
  | _ => false

/-- The bits the half-bits spell, `n` before them, how they end, and the runs after an ED, which lies between bytes and is known by the edge
that ends it (R92, R93, R96). -/
def readBits : Nat → List (Option Bool × List (Bool × Nat)) → List Bool × FrameEnd × List (Bool × Nat)
  | n, (some false, _) :: (some true, _) :: t => let x := readBits (n + 1) t; (true :: x.1, x.2)
  | n, (some true, _) :: (some false, _) :: t => let x := readBits (n + 1) t; (false :: x.1, x.2)
  | n, (some false, _) :: (some false, _) :: (some true, _) :: (some true, e :: l) :: t =>
    if n % 8 = 0 ∧ (t.head?.map (·.1)) ≠ some (some true) then ([], .ed, e :: l) else ([], .broken, [])
  | _, l => ([], if mayGoOn (l.map (·.1)) then .goesOn else .broken, [])

/-- Whole bytes, least significant bit first. -/
def bitsToBytes : List Bool → List Byte
  | a :: b :: c :: d :: e :: f :: g :: h :: t =>
    BitVec.ofNat 8 (b2n a + 2 * b2n b + 4 * b2n c + 8 * b2n d + 16 * b2n e + 32 * b2n f + 64 * b2n g + 128 * b2n h) :: bitsToBytes t
  | _ => []

/-- What a burst's samples spell: reference periods from E to the end of its SD, if it has one; its bytes; its end; the samples after its ED. -/
structure Heard where
  sd   : Option Nat
  data : List Byte
  fin  : FrameEnd
  rest : Burst
  deriving DecidableEq, Repr

/-- The samples of a burst decoded, with a glitch filter of `g` periods. -/
def decodeBurst (g r : Nat) (b : Burst) : Heard :=
  let (lead, runs) := edges g b.runs
  match findSd r lead runs with
  | none => ⟨none, [], .goesOn, ⟨0, []⟩⟩
  | some (t, k, tail) =>
    let (bs, fin, left) := readBits 0 ((halfBits r k tail).drop 2)
    let n := lead + (periods runs - periods left)
    ⟨some (b.after + t), bitsToBytes bs, fin, ⟨b.after + n, dropPeriods n b.runs⟩⟩

/-- Samples of a line that has gone quiet: its level has stayed for 2 bit times more (R96). -/
def quietRuns (r : Nat) (runs : List (Bool × Nat)) : List (Bool × Nat) := runs ++ ((runs.getLast?.map (fun e => (e.1, 2 ^ 26 / r))).toList)

end Sys2Proof.Machine
end

