-- ==== Sys2Proof/Machine/Line.lean ====
section
/-!
DEFINITION. Field-line frames, keys, receive classes, node records and fences (05; 06, R128, R135, R136).
-/

namespace Sys2Proof.Machine

def State.port (s : State) (p : Nat) : Option Port := s.ports[p]?
def State.modPort (s : State) (p : Nat) (f : Port → Port) : State := { s with ports := upd s.ports p f }
/-- Unit ID of a port engine (R8). -/
def portUnit (p : Nat) : Nat := 0x41 + p

/-- `t` reference periods are at least `n` bit times at the port's rate (Table 5.4). -/
def bitsLe (s : State) (p n t : Nat) : Bool := n * 2 ^ 25 ≤ t * 15625 * 2 ^ s.get (F.FL_CTRL_RATE p)

/-! Node records (R128, Table 6.7). -/

structure NodeRec where
  serial  : Nat
  typ     : Nat
  version : Nat
  points  : Nat
  state   : Nat
  strikes : Nat
  epbase  : Nat
  deriving DecidableEq, Repr

def nsEmpty : Nat := 0
def nsPrebound : Nat := 1
def nsAssigning : Nat := 2
def nsEnrolled : Nat := 3
def nsQuarantined : Nat := 4
def nsRetired : Nat := 5
def noEp : Nat := 0x7FFFFF
def emptyNode : NodeRec := ⟨0, 0, 0, 0, 0, 0, noEp⟩

def dirBase (s : State) (p : Nat) : Nat := 0x03D00000 + s.get (F.FL_NDIR_BASE p) * 0x40000
def nodeAddr (s : State) (p n : Nat) : Nat := dirBase s p + 16 * n

/-- A record's bytes read as a record; a reserved STATE or bit reads as empty. -/
def decodeNode (b : List Byte) : NodeRec :=
  let st := recNum b 10 1
  let ep := recNum b 12 4
  if 5 < st ∨ noEp < ep then emptyNode
  else ⟨recNum b 0 6, recNum b 6 2, recNum b 8 1, recNum b 9 1, st, recNum b 11 1, ep⟩
def encodeNode (r : NodeRec) : List Byte :=
  leBytes 6 r.serial ++ leBytes 2 r.typ ++ leBytes 1 r.version ++ leBytes 1 r.points ++ leBytes 1 r.state ++
  leBytes 1 r.strikes ++ leBytes 4 r.epbase

/-- The record of node n as its port reads it; one that reads uncorrectable counts as empty. -/
def nodeRec (s : State) (p n : Nat) : NodeRec :=
  if poisonFor s (portUnit p) (nodeAddr s p n) then emptyNode
  else decodeNode ((List.range 16).map (fun i => viewByte s (portUnit p) (nodeAddr s p n + i)))
/-- What the read of a record meets (R64, R128). -/
def readNode (p n : Nat) (s : State) : State := readAs (portUnit p) (nodeAddr s p n) s
def writeNode (p n : Nat) (r : NodeRec) (s : State) : State := memWrite (portUnit p) (nodeAddr s p n) (encodeNode r) s

/-- Nodes whose records can be other than empty, ascending. -/
def dirNodes (s : State) (p : Nat) : List Nat :=
  let b := dirBase s p
  (s.mem.filter (fun e => b ≤ e.1 && e.1 < b + 0x40000 && (e.1 - b) % 16 == 10)).map (fun e => (e.1 - b) / 16)
def nodesIn (s : State) (p st : Nat) : List Nat := (dirNodes s p).filter (fun n => (nodeRec s p n).state == st)
def enrolledNodes (s : State) (p : Nat) : List Nat := nodesIn s p nsEnrolled
/-- Enrolled switch nodes, ascending (R136). -/
def switchNodes (s : State) (p : Nat) : List Nat := (enrolledNodes s p).filter (fun n => bit (nodeRec s p n).typ 15)
/-- What a read of the whole directory meets (R64). -/
def scanDir (p : Nat) (s : State) : State :=
  (sortNat ((s.ledg.flips.filter (fun f => dirBase s p ≤ f.addr && f.addr < dirBase s p + 0x40000)).map (fun f => checkUnit f.addr))).foldl
    (fun s a => readAs (portUnit p) a s) s

/-! Fences (R135). -/

/-- Fence k covers node n. -/
def fenceHas (s : State) (p k n : Nat) : Bool :=
  s.flag (F.FL_FENCE_EN p k) && decide (s.get (F.FL_FENCE_LO p k) ≤ n) && decide (n ≤ s.get (F.FL_FENCE_HI p k))
def fenced (s : State) (p n : Nat) : Bool := (List.range 8).any (fun k => fenceHas s p k n)

/-- Drop the queued identity checks of nodes that have none (R122). -/
def pruneChecks (p : Nat) (s : State) : State :=
  s.modPort p (fun q => { q with checks := q.checks.filter (fun c =>
    !fenced s p c.node && (nodeRec s p c.node).state != nsQuarantined) })

/-- fence() of R138 and R139: the lowest free FENCEk; none sets FENCE_FULL. -/
def setFence (p lo hi reason : Nat) (s : State) : Option Nat × State :=
  match (List.range 8).find? (fun k => !s.flag (F.FL_FENCE_EN p k)) with
  | none => (none, s.mark (F.FL_RSTAT_FENCE_FULL p))
  | some k => (some k, pruneChecks p (s.setReg (A.FL_FENCE p k) (BitVec.ofNat 32 (2 ^ 31 + reason * 2 ^ 29 + hi * 2 ^ 14 + lo))))

/-- Take a range of nodes out of ascending runs. -/
def cutRun (lo hi : Nat) (r : Nat × Nat) : List (Nat × Nat) :=
  if hi < r.1 || r.2 < lo then [r]
  else (if r.1 < lo then [(r.1, lo - 1)] else []) ++ (if hi < r.2 then [(hi + 1, r.2)] else [])
/-- Cut a run into commands of at most 256 nodes. -/
def splitRun : Nat → Nat × Nat → List (Nat × Nat)
  | 0, _ => []
  | f + 1, (a, b) => if b < a then [] else if b < a + 256 then [(a, b)] else (a, a + 255) :: splitRun f (a + 256, b)
/-- The READ_CHAIN commands of a READ round (Table 6.1). -/
def readFrames (s : State) (p first last pf pn : Nat) : List LineCmd :=
  let cut := (List.range 8).foldl (fun rs k =>
    if s.flag (F.FL_FENCE_EN p k) then rs.flatMap (cutRun (s.get (F.FL_FENCE_LO p k)) (s.get (F.FL_FENCE_HI p k))) else rs) [(first, last)]
  (cut.flatMap (splitRun 65)).map (fun r => .readChain r.1 (r.2 + 1 - r.1) pf pn)

/-! Commands (Table 5.9). -/

/-- ADDR with its MODE (Table 5.6), CMD and payload. -/
def cmdParts (c : LineCmd) : Nat × Nat × List Byte :=
  match c with
  | .readChain f n pf pn => (f + 0x4000, 0x01, leBytes 1 (n - 1) ++ leBytes 1 pf ++ leBytes 1 (pn - 1))
  | .convert => (0x8000, 0x03, [])
  | .identify n => (n, 0x04, [])
  | .writeCfg n r v => (n, 0x05, leBytes 1 r ++ leBytes 2 v)
  | .search l pre => (0x8000, 0x06, leBytes 1 l ++ leBytes 6 pre)
  | .assign ser n => (0xC000, 0x07, leBytes 6 ser ++ leBytes 2 n)
  | .letterbox l pre => (0x8000, 0x08, leBytes 1 l ++ leBytes 2 pre)
  | .ackReport n k _ _ => (n, 0x09, leBytes 1 k)
  | .retire n => (n, 0x0A, [])
  | .mute n t => (n, 0x0B, leBytes 2 t)
  | .ping n => (n, 0x0C, [])

/-- First node and number of nodes whose windows an exchange has; a command without such replies has none. -/
def cmdNodes (c : LineCmd) : Nat × Nat :=
  match c with
  | .readChain f n _ _ => (f, n)
  | .identify n | .writeCfg n _ _ | .assign _ n | .ackReport n _ _ _ | .retire n | .ping n => (n, 1)
  | .convert | .search _ _ | .letterbox _ _ | .mute _ _ => (0, 0)

def isSearch (c : LineCmd) : Bool := match c with | .search _ _ => true | _ => false
def isLetterbox (c : LineCmd) : Bool := match c with | .letterbox _ _ => true | _ => false

/-- Whether a port is keyed, and a node of it (R103). -/
def portKeyed (s : State) (p : Nat) : Bool := ((s.port p).bind (·.key)).isSome
def nodeKeyed (s : State) (p n : Nat) : Bool :=
  match (s.port p).bind (·.key) with
  | none => false
  | some (_, m) => bit (m.getD (n / 8) 0#8).toNat (n % 8)
/-- k_node of R105. -/
def nodeKey (s : State) (p n : Nat) : List Byte :=
  match (s.port p).bind (·.key) with
  | none => []
  | some (k, _) => aesEncrypt k (leBytes 6 (nodeRec s p n).serial ++ leBytes 2 n ++ List.replicate 8 0#8)

/-- The unicast commands, which carry a MAC to a keyed node (R103). -/
def unicastTo (c : LineCmd) : Option Nat :=
  match c with
  | .identify n | .writeCfg n _ _ | .ackReport n _ _ _ | .retire n | .mute n _ | .ping n => some n
  | _ => none

/-- The bytes of a command frame, CTRL to CRC or MAC (R97, R98, R102 to R105). -/
def cmdFrame (s : State) (p : Nat) (c : LineCmd) (fresh : Nat) : List Byte :=
  let (addr, code, pay) := cmdParts c
  let frs := portKeyed s p
  let mac := (unicastTo c).filter (nodeKeyed s p)
  let body := leBytes 1 (0xA0 + 4 * b2n frs + 2 * b2n mac.isSome) ++ leBytes 2 addr ++ leBytes 1 code ++ leBytes 1 pay.length ++
    pay ++ (if frs then leBytes 4 fresh else [])
  let crc := body ++ leBytes 2 (crc16 body)
  match mac with
  | none => crc
  | some n => crc ++ (aesCmac (nodeKey s p n) crc).take 4

/-! Receiving (R107). -/

inductive RxClass where
  | noise | foreign | malformed | crcBad | macBad | good
  deriving DecidableEq, Repr

/-- Samples in reference periods, against half-bits, at the port's rate (Table 5.4): n periods are n · r / 2^24 half-bits. -/
def rateNum (s : State) (p : Nat) : Nat := 15625 * 2 ^ s.get (F.FL_CTRL_RATE p)
/-- The glitch filter in reference periods. -/
def glitchLen (s : State) (p : Nat) : Nat := 4 * s.get (F.FL_CPL_GLITCH p)

/-- FAMILY is not 0xA. -/
def foreignFrame (b : Heard) : Bool := !b.data.isEmpty && recNum b.data 0 1 / 16 != 0xA
/-- The bytes that a frame's header gives it, header to CRC or MAC (Table 5.5). -/
def frameSpan (b : Heard) : Nat := 7 + recNum b.data 4 1 + 4 * b2n (bit (recNum b.data 0 1) 1)

/-- A burst can be classed: it has an ED or has gone wrong, its FAMILY is another, or bytes go on where its length places the ED. -/
def Heard.decided (b : Heard) : Bool :=
  b.sd.isSome && (b.fin != .goesOn || foreignFrame b || (decide (5 ≤ b.data.length) && decide (frameSpan b < b.data.length)))

/-- The reply a burst's bytes spell, with its postmark. -/
def burstReply (b : Heard) (pm : Nat) : HeardReply :=
  ⟨recNum b.data 1 2 % 2 ^ 14, recNum b.data 3 1, (b.data.drop 5).take (recNum b.data 4 1), pm⟩

/-- The class of a burst (Table 5.11), given FRESH of the command and whether a SEARCH exchange is in progress, whose replies name node
0x0000 before they hold a number, and carry no MAC (Table 5.9). -/
def classOf (s : State) (p fresh : Nat) (search : Bool) (b : Heard) : RxClass :=
  match b.sd with
  | none => .noise
  | some _ =>
    let ctrl := recNum b.data 0 1
    let len := recNum b.data 4 1
    let node := recNum b.data 1 2
    let mac := bit ctrl 1
    let keyed := nodeKeyed s p (node % 2 ^ 14) && !(search && node % 2 ^ 14 == 0)
    if foreignFrame b then .foreign
    else if b.fin != .ed || b.data.length != frameSpan b || !bit ctrl 3 || bit ctrl 2 || bit ctrl 0 || node / 2 ^ 14 != 0
        || recNum b.data 3 1 / 32 != 0 || 128 < len || mac != keyed then .malformed
    else if crc16 (b.data.take (5 + len)) != recNum b.data (5 + len) 2 then .crcBad
    else if mac && (aesCmac (nodeKey s p node) (leBytes 4 fresh ++ b.data.take (7 + len))).take 4 != b.data.drop (7 + len) then .macBad
    else .good

/-- Count a burst in its class (R107). -/
def countClass (p : Nat) (c : RxClass) (s : State) : State :=
  match c with
  | .noise => s.incSat (F.FL_CNT_LINE_NOISE p)
  | .foreign => s.incSat (F.FL_CNT_CLS_FOREIGN p)
  | .malformed => s.incSat (F.FL_CNT_CLS_MALFORMED p)
  | .crcBad => s.incSat (F.FL_CNT_ERR_CRC_BAD p)
  | .macBad => s.incSat (F.FL_CNT_ERR_MAC_BAD p)
  | .good => s.incSat (F.FL_CNT_GOOD_GOOD p)

/-! The resolution bounds (R127) and exchange times (Table 6.4). -/

/-- E(K). -/
def needE (k : Nat) : Nat := k + 1 + 2 * ((List.range 14).map (fun d => min (2 ^ d) (k / 2))).sum
/-- LBSTAT.NEED and UNBOUND. -/
def lbNeed (s : State) (p : Nat) : Nat := needE (s.get (F.FL_LBCFG_KMAX p))
def lbUnbound (s : State) (p : Nat) : Bool := s.get (F.FL_LBCFG_MAXEX p) < lbNeed s p

/-- FLnn_CPL at the configured rate meets R91. -/
def couplerOk (s : State) (p : Nat) : Bool :=
  let r := 15625 * 2 ^ s.get (F.FL_CTRL_RATE p)
  (s.get (F.FL_CPL_DE_LAG p) + s.get (F.FL_CPL_RX_BLANK p)) * r ≤ 32000000 && s.get (F.FL_CPL_GLITCH p) * 16 * r ≤ 2 ^ 25

/-- The directory lies wholly inside a user partition of owner 0x00 (R128). -/
def dirOk (s : State) (p : Nat) : Bool :=
  s.flag (F.FL_NDIR_VALID p) && s.parts.any (fun q => q.ptype == 7 && q.owner == 0 && q.base ≤ dirBase s p && dirBase s p + 0x40000 ≤ q.base + q.len)

/-- The balls of port 24 + k serve a modulator (R394). -/
def portUnpinned (s : State) (p : Nat) : Bool := 24 ≤ p && bit (s.get F.SYS_PIN_CFG_MEN) (p - 24)

end Sys2Proof.Machine
end

