-- ==== Sys2Proof/Machine/Timetable.lean ====
section
/-!
DEFINITION. The round timetable (07): slots, passes and the gate, run-ahead, swaps, edits and sweep figures. The SWAP and
edit commands themselves, which pass the configuration-write check, are in Load.lean.
-/

namespace Sys2Proof.Machine

def State.modSeq (s : State) (f : Sequencer → Sequencer) : State := { s with seq := f s.seq }
def State.pass (s : State) (p : Nat) : Pass := nth s.seq.passes p idlePass
def State.modPass (s : State) (p : Nat) (f : Pass → Pass) : State := s.modSeq (fun q => { q with passes := upd q.passes p f })

/-! Slots (Table 7.1, R144). A slot is its 64-bit number HI:LO. -/

def slotDefault : Nat → Nat := fun _ => 0
def slotKey (bank : Bool) (i : Nat) : Nat := 6144 * b2n bank + i
def slotAt (s : State) (bank : Bool) (i : Nat) : Nat := mapGet slotDefault s.seq.slots (slotKey bank i)
def setSlot (bank : Bool) (i v : Nat) (s : State) : State :=
  s.modSeq (fun q => { q with slots := mapSet slotDefault q.slots (slotKey bank i) v })

def slotFirst (v : Nat) : Nat := bits v 16 14
def slotPeriod (v : Nat) : Nat := bits v 10 6 + 1
def slotPort (v : Nat) : Nat := bits v 4 5
def slotFill (v : Nat) : Bool := bit v 3
def slotKind (v : Nat) : Nat := bits v 0 3
def slotPhase (v : Nat) : Nat := bits v 58 6
def slotPnum (v : Nat) : Nat := bits v 52 6 + 1
def slotPfirst (v : Nat) : Nat := bits v 46 6
def slotLast (v : Nat) : Nat := bits v 32 14

/-- A reserved encoding (R144). -/
def slotReserved (v : Nat) : Bool :=
  let k := slotKind v
  6 ≤ k || bits v 30 2 != 0 || bit v 9 || (slotFill v && k < 3) ||
  (k != 1 && (slotFirst v != 0 || slotLast v != 0 || slotPfirst v != 0 || bits v 52 6 != 0)) ||
  (k == 0 && v != 0) || (k == 1 && (slotLast v < slotFirst v || 63 < slotPfirst v + bits v 52 6)) || slotPeriod v ≤ slotPhase v

/-- A slot that the present pin assignment refuses as well (R394). -/
def slotRefused (s : State) (v : Nat) : Bool := slotReserved v || (slotKind v != 0 && portUnpinned s (slotPort v))

/-- Non-empty slots of a bank for a port, ascending, with their contents. -/
def bankSlots (l : List (Nat × Nat)) (bank : Bool) (p : Nat) : List (Nat × Nat) :=
  ((l.filter (fun e => e.1 / 6144 == b2n bank && slotKind e.2 != 0 && slotPort e.2 == p)).map (fun e => (e.1 % 6144, e.2)))

/-- Bank of a port (TT_Pnn_POS.BANK) and the active bank. -/
def runBank (s : State) (p : Nat) : Bool := s.flag (F.TTP_POS_BANK p)
def activeBank (s : State) : Bool := s.flag F.TT_STAT_ACTIVE

/-- A slot runs in pass number n (R145). -/
def runsIn (v n : Nat) : Bool := n % slotPeriod v == slotPhase v
/-- Slots of the running bank that run in pass n. -/
def passSlots (s : State) (p n : Nat) : List (Nat × Nat) := (bankSlots s.seq.slots (runBank s p) p).filter (fun e => runsIn e.2 n)
def fillSlots (s : State) (p : Nat) : List (Nat × Nat) := (bankSlots s.seq.slots (runBank s p) p).filter (fun e => slotFill e.2)
/-- Those above the slot last started. -/
def above (o : Option Nat) (l : List (Nat × Nat)) : List (Nat × Nat) := match o with | none => l | some i => l.filter (fun e => i < e.1)

def roundKind (k : Nat) : RoundKind :=
  if k = 1 then .read else if k = 2 then .convert else if k = 3 then .letterbox else if k = 4 then .enrol else .maint

/-! Run-ahead (R118, R148). -/

/-- The mailbox's command (R140). -/
def boxCmd (s : State) (p : Nat) : LineCmd :=
  let n := s.get (F.FL_MBOX_NODE p)
  let v := s.get (F.FL_MBOXD_VALUE p)
  match s.get (F.FL_MBOX_CMD p) with
  | 0x5 => .writeCfg n (s.get (F.FL_MBOX_CFGREG p)) v
  | 0xA => .retire n
  | 0xB => .mute n v
  | _ => .ping n

/-- Whether a queued mailbox command is sent (R140). -/
def boxSends (s : State) (p : Nat) : Bool :=
  let n := s.get (F.FL_MBOX_NODE p)
  s.get (F.FL_MBOX_STATE p) == 1 && !fenced s p n && !((nodeRec s p n).state == nsQuarantined && s.get (F.FL_MBOX_CMD p) != 0xA)

/-- Lost fences to probe in a MAINT round: two at most, from the one after the last probed (R139). -/
def lostFences (s : State) (p at_ : Nat) : List Nat :=
  (((List.range 8).map (fun k => (k + at_) % 8)).filter (fun k => s.flag (F.FL_FENCE_EN p k) && s.get (F.FL_FENCE_REASON p k) == 3)).take 2

/-- The node a fence is probed through: the lowest enrolled one behind it (R139). -/
def probeNode (s : State) (p k : Nat) : Option Nat := (enrolledNodes s p).find? (fun n => fenceHas s p k n)

/-- Frames of a slot as they stand when it is built: the first exchange of a LETTERBOX or ENROL round; the checks, the mailbox command and the
probes of a MAINT round. -/
def slotFrames (s : State) (p v : Nat) : List LineCmd :=
  match s.port p with
  | none => []
  | some q =>
    match roundKind (slotKind v) with
    | .read => readFrames s p (slotFirst v) (slotLast v) (slotPfirst v) (slotPnum v)
    | .convert => [.convert]
    | .letterbox => let t := q.lbStack.headD (0, 0); [.letterbox t.1 t.2]
    | .enrol => if s.flag (F.FL_ENR_EN p) then (let t := q.enStack.headD (0, 0); [.search t.1 t.2]) else []
    | .maint =>
      (q.checks.take 4).map (fun c => .identify c.node) ++ (if boxSends s p then [boxCmd s p] else []) ++
      ((lostFences s p q.probeAt).filterMap (probeNode s p)).map .ping

/-- MIN × 0.1 s have passed since the start of the present pass (R146). -/
def gateElapsed (s : State) (p : Nat) : Bool :=
  let q := s.pass p
  !q.ran || q.opened || s.get F.TT_GATE_MIN * 2 ^ 24 ≤ pmDiff s.pm q.start * 10

/-- The slots a port will run next, with whether as FILL rounds (R145, R146, R148). -/
def comingSlots (s : State) (p n : Nat) : List (Nat × Nat × Bool) :=
  let q := s.pass p
  let num := s.get (F.TTP_PASS_PASS p)
  let rest := if q.mode = .pass then (above q.pos (passSlots s p num)).map (fun e => (e.1, e.2, false)) else []
  let fills := (fillSlots s p).map (fun e => (e.1, e.2, true))
  let cycle := ((above q.fillPos (fillSlots s p)).map (fun e => (e.1, e.2, true))) ++ (List.replicate n fills).flatten
  let nextPass := (passSlots s p (if q.ran then (num + 1) % 2 ^ 32 else num)).map (fun e => (e.1, e.2, false))
  ((rest ++ (if gateElapsed s p then nextPass else cycle)).take n)

/-- Discard frames built ahead, counting each (R118). -/
def discardBuilt (p : Nat) (drop : Built → Bool) (s : State) : State :=
  match s.port p with
  | none => s
  | some q =>
    let n := ((q.built.filter drop).map (·.frames.length)).sum
    (s.modPort p (fun q => { q with built := q.built.filter (fun b => !drop b) })).incSat (F.FL_RCNT_DISCARD p) n

/-- The port engine does its work: not in a quiet state, safe hold, reset or hold. -/
def portWorks (s : State) (p : Nat) : Bool :=
  !s.quiet && !s.flag F.SYS_RMAP_STAT_WAITING && !s.flt.resets.contains (portUnit p) && !s.isHeld (portUnit p)

/-- Slots fired at the port are skipped (R137, R138, R368). -/
def portSkips (s : State) (p : Nat) : Bool :=
  s.flag (F.FL_RSTAT_HELD p) || s.flag (F.FL_RSTAT_WALKING p) || s.isHeld (portUnit p)

/-- FRAME_PREBUILD (R118, R148): the frames of the coming slots not yet built, up to AHEAD slots ahead; a port that skips its slots has none. -/
def prebuild (p : Nat) (s : State) : State :=
  match s.port p with
  | none => s
  | some q =>
    if !portWorks s p || !s.flag (F.FL_CTRL_EN p) || !s.flag F.TT_CTRL_RUN || s.safe || portSkips s p then s
    else
      let want := comingSlots s p (s.get F.TT_CTRL_AHEAD)
      let have_ := q.built.map (fun b => (b.slot, b.fill))
      if have_ != (want.take q.built.length).map (fun e => (e.1, e.2.2)) then s
      else
        let more := (want.drop q.built.length).map (fun e => (⟨runBank s p, e.1, e.2.2, slotFrames s p e.2.1⟩ : Built))
        s.modPort p (fun q => { q with built := q.built ++ more })

/-- A write that lowers AHEAD discards what lies beyond the new depth (R148). -/
def trimBuilt (p : Nat) (s : State) : State :=
  match s.port p with
  | none => s
  | some q =>
    let n := s.get F.TT_CTRL_AHEAD
    let extra := ((q.built.drop n).map (·.frames.length)).sum
    (s.modPort p (fun q => { q with built := q.built.take n })).incSat (F.FL_RCNT_DISCARD p) extra

/-! Sweep figures (R156). -/

def lsbToMs (t : Nat) : Nat := satTo 0xFFFFFF (t * 1000 / 2 ^ 24)
def lsbToUs (t : Nat) : Nat := satTo 0xFFFFFFFF (t * 1000000 / 2 ^ 24)

/-- The figures of the pass just ended. -/
def loadFigures (p : Nat) (s : State) : State :=
  let q := s.pass p
  if !q.report then s
  else
    let iv := lsbToMs (pmDiff s.pm q.start)
    let s1 := (s.put (F.TTP_LAST_MS p) iv).put (F.TTP_BUSY_MS p) (lsbToMs (pmDiff q.last q.start))
    let s2 := s1.put (F.TTP_MAX_MS p) (max iv (s1.get (F.TTP_MAX_MS p)))
    (s2.put (F.TTP_HOLD_US p) (lsbToUs q.holdT)).put (F.TTP_YIELD_US p) (lsbToUs q.yieldT)

/-- TT_SWEEP: the largest LAST among the enabled ports, the lower port on equals (R156). -/
def sweepWord (s : State) : Nat :=
  match (List.range 32).filter (fun p => s.flag (F.FL_CTRL_EN p)) with
  | [] => 0
  | p :: rest =>
    let best := rest.foldl (fun b p => if s.get (F.TTP_LAST_MS b) < s.get (F.TTP_LAST_MS p) then p else b) p
    best * 2 ^ 24 + s.get (F.TTP_LAST_MS best)

/-! Passes (R145, R146). -/

/-- The sequencer fires slots at the port. -/
def seqRuns (s : State) (p : Nat) : Bool :=
  s.flag F.TT_CTRL_RUN && s.flag (F.FL_CTRL_EN p) && !s.quiet && !s.safe && !s.flag F.SYS_RMAP_STAT_WAITING && !s.flt.resets.contains 0x79 &&
  !s.flt.resets.contains (portUnit p) && ((s.port p).map (fun q => q.round.isNone && (q.xchg.isNone || q.walk.isSome))).getD false

/-- A slot is fired: its round is in progress (R145). -/
def fireSlot (p i v : Nat) (fill : Bool) (s : State) : State :=
  match s.port p with
  | none => s
  | some q =>
    let match_ := fun (b : Built) => b.slot == i && b.fill == fill && b.bank == runBank s p
    let frames := match q.built.head? with
      | some b => if match_ b then b.frames else slotFrames s p v
      | none => slotFrames s p v
    let built := match q.built with
      | b :: t => if match_ b then t else q.built
      | [] => []
    let r : Round := ⟨roundKind (slotKind v), runBank s p, i, fill, false, frames, 0, 0, [], [], false, [], none⟩
    let s1 := s.modPort p (fun q => { q with built := built, round := some r })
    let s2 := (s1.put (F.TTP_POS_SLOT p) i).mark (F.TTP_POS_ROUND p)
    if fill then (s2.incSat (F.TTP_CNT_FILL p)).modPass p (fun q => { q with fillPos := some i })
    else s2.modPass p (fun q => { q with pos := some i })

/-- A yield or back-off wait is accounted for up to now (R156). -/
def countWait (p : Nat) (s : State) : State :=
  match (s.port p).bind (·.wait) with
  | none => s
  | some t => (s.modPort p (fun q => { q with wait := some s.pm })).modPass p (fun q => { q with yieldT := q.yieldT + pmDiff s.pm t })

/-- It is over. -/
def endWait (p : Nat) (s : State) : State := (countWait p s).modPort p (fun q => { q with wait := none, yieldDue := false })

/-- A pass begins: its number, the figures of the one before, its start (R146, R149, R156). -/
def beginPass (p : Nat) (s0 : State) : State :=
  let s := countWait p s0
  let q := s.pass p
  let s1 := loadFigures p s
  let s2 := if q.ran then s1.incWrap (F.TTP_PASS_PASS p) else s1
  let s3 := discardBuilt p (·.fill) (s2.put (F.TTP_POS_GATE p) 0)
  s3.modPass p (fun _ => { mode := .pass, ran := true, report := true, start := s3.pm, last := s3.pm, pos := none, fillPos := none, opened := false, holdT := 0, yieldT := 0 })

/-- One move of a port's pass while no round is in progress: a slot is fired or skipped, the pass ends, the gate opens, a
FILL round comes due. The flag tells whether to look further. -/
def advanceOne (p : Nat) (a : Bool × State) : Bool × State :=
  let s := a.2
  if !a.1 || !seqRuns s p then (false, s)
  else
    let q := s.pass p
    if q.mode = .pass then
      match above q.pos (passSlots s p (s.get (F.TTP_PASS_PASS p))) with
      | [] => (true, (s.mark (F.TTP_POS_GATE p)).modPass p (fun q => { q with mode := .gate, fillPos := none }))
      | (i, v) :: _ =>
        if portSkips s p then (true, (s.incSat (F.TTP_CNT_SKIP p)).modPass p (fun q => { q with pos := some i }))
        else (false, fireSlot p i v false s)
    else if gateElapsed s p then (true, beginPass p s)
    else if portSkips s p then (false, s.mark (F.TTP_POS_GATE p))
    else
      let s1 := (s.mark (F.TTP_POS_GATE p)).modPass p (fun q => { q with mode := .gate })
      match above q.fillPos (fillSlots s p) ++ fillSlots s p with
      | [] => (false, s1)
      | (i, v) :: _ => (false, fireSlot p i v true s1)

/-- Up to `n` moves of a port's pass, until one of them says that there is nothing further. -/
def advanceN : Nat → Nat → State → State
  | 0, _, s => s
  | n + 1, p, s => if (advanceOne p (true, s)).1 then advanceN n p (advanceOne p (true, s)).2 else (advanceOne p (true, s)).2

/-- The sequencer moves the port on (R145, R146). At one instant no more comes due than the rest of a pass and the whole of the next one,
which begins at that instant; a pass has at most 6,144 slots (R143), so the bound is never what ends it. -/
def advance (p : Nat) (s : State) : State := advanceN 12300 p s

/-- Move every port on. -/
def advanceAll (s : State) : State := forUpTo 32 advance s

/-- The pass in progress is abandoned (R149). -/
def abandonPass (p : Nat) (s : State) : State :=
  (s.put (F.TTP_POS_GATE p) 0).modPass p (fun q => { q with mode := .idle, report := false, fillPos := none })

/-! Swap and edit (R151 to R153). -/

/-- PORT_SWAP: the port takes the new bank; after the last, ACTIVE changes. -/
def portSwap (p : Nat) (s : State) : State :=
  if !bit (s.get F.TT_SWAPPEND_PORTS) p then s
  else
    let s1 := discardBuilt p (fun _ => true) s
    let s2 := s1.putB (F.TTP_POS_BANK p) (!activeBank s1)
    let s3 := s2.put F.TT_SWAPPEND_PORTS (setBits (s2.get F.TT_SWAPPEND_PORTS) p 1 0)
    let s4 := s3.modPass p (fun q => { q with fillPos := none })
    if s4.get F.TT_SWAPPEND_PORTS = 0 then
      let s5 := (s4.putB F.TT_STAT_ACTIVE (!activeBank s4)).put F.TT_STAT_SWAP_PEND 0
      dayPush 0x79 0x11 (s5.get F.TT_STAT_ACTIVE) 0 s5
    else s4

/-- A round is in progress on the port. -/
def inRound (s : State) (p : Nat) : Bool := ((s.port p).bind (·.round)).isSome

/-- A swap accepted (R151): each port without a round in progress swaps at once. -/
def startSwap (s : State) : State :=
  let s1 := (s.mark F.TT_STAT_SWAP_PEND).put F.TT_SWAPPEND_PORTS 0xFFFFFFFF
  let s2 := forUpTo 32 (fun p s => if inRound s p then s else portSwap p s) s1
  advanceAll s2

/-- A round of a slot of the active bank is in progress. -/
def slotBusy (s : State) (i : Nat) : Bool :=
  s.ports.any (fun q => match q.round with | none => false | some r => r.slot == i && r.bank == activeBank s)

/-- An edit applies (R153). -/
def applyEdit (i v : Nat) (s : State) : State :=
  let bank := activeBank s
  let s1 := forUpTo 32 (fun p s => discardBuilt p (fun b => b.slot == i && b.bank == bank) s) s
  ((setSlot bank i v s1).put F.TT_STAT_EDIT_PEND 0).modSeq (fun q => { q with edit := none })

/-- An edit accepted: held while its slot's round is in progress, else applied (R153). -/
def startEdit (i v : Nat) (s : State) : State :=
  if slotBusy s i then (s.mark F.TT_STAT_EDIT_PEND).modSeq (fun q => { q with edit := some (i, v) })
  else advanceAll (applyEdit i v s)

/-- A held edit whose slot's round has ended. -/
def settleEdit (s : State) : State :=
  match s.seq.edit with
  | none => s
  | some (i, v) => if slotBusy s i then s else applyEdit i v s

/-! Commands of the sequencer's registers. -/

/-- SLOT_WRITE (R150). -/
def slotWrite (writer : Nat) (hi : Word) (s : State) : State :=
  let v := hi.toNat * 2 ^ 32 + s.get F.TT_WDATA_LO_LO
  if slotRefused s v then refuse writer A.TT_WDATA_HI s
  else if s.flag F.TT_STAT_SWAP_PEND || s.flag F.TT_STAT_COPY_BUSY then s.mark F.TT_STAT_WR_REF
  else
    let i := s.get F.TT_WADDR_IDX
    (setSlot (!activeBank s) i v s).put F.TT_WADDR_IDX (if i = 6143 then 0 else i + 1)

/-- Which contents the slot selected has while a COPY runs (R150): a free value, taken anew for each slot. -/
def pickSlot (s : State) : State :=
  let (v, s1) := s.free
  s1.modSeq (fun q => { q with pick := v % 2 == 1 })

/-- The slot TT_RADDR selects; of the inactive bank while a COPY runs, its old or its copied contents (R150). -/
def slotSelected (s : State) : Nat :=
  let i := s.get F.TT_RADDR_IDX
  let bank := s.flag F.TT_RADDR_BANK
  if s.flag F.TT_STAT_COPY_BUSY && bank != activeBank s && s.seq.pick then slotAt s (activeBank s) i
  else slotAt s bank i

/-- SLOT_READ (R150): a read of TT_RDATA_HI steps RADDR.IDX. -/
def slotRead (s : State) : Nat × State :=
  let i := s.get F.TT_RADDR_IDX
  (slotSelected s / 2 ^ 32, pickSlot (s.put F.TT_RADDR_IDX (if i = 6143 then 0 else i + 1)))

/-- TIMETABLE_COPY (R150). -/
def ttCopy (s : State) : State :=
  if s.flag F.TT_STAT_SWAP_PEND || s.flag F.TT_STAT_COPY_BUSY then s.mark F.TT_STAT_WR_REF else pickSlot (s.mark F.TT_STAT_COPY_BUSY)

/-- COPY_COMPLETE (R150). -/
def copyComplete (s : State) : State :=
  if !s.flag F.TT_STAT_COPY_BUSY then s
  else
    let a := activeBank s
    let keep := s.seq.slots.filter (fun e => e.1 / 6144 == b2n a)
    let copy := keep.map (fun e => (e.1 % 6144 + 6144 * b2n (!a), e.2))
    (s.modSeq (fun q => { q with slots := if a then copy ++ keep else keep ++ copy })).put F.TT_STAT_COPY_BUSY 0

/-- TT_RUN_SET (R149). -/
def ttRunSet (s : State) : State := advanceAll (s.mark F.TT_CTRL_RUN)

/-- TT_RUN_CLEAR (R149). -/
def ttRunClear (s : State) : State :=
  forUpTo 32 (fun p s => abandonPass p (discardBuilt p (fun _ => true) s)) (s.put F.TT_CTRL_RUN 0)

/-- A new MIN: the gate of every port is measured anew against the start of its present pass (R155). -/
def gateAnew (s : State) : State := forUpTo 32 (fun p s => s.modPass p (fun q => { q with opened := false })) s

/-- A write of TT_GATE (R155). -/
def gateWrite (s : State) : State := advanceAll (gateAnew s)

/-- PASS_GATE_OPEN (R146): MIN has elapsed; the next pass starts at once, or when nothing keeps the port from it any more: at the boundary
of the round in progress, or at the end of the exchange. -/
def gateOpen (p : Nat) (s : State) : State :=
  if !(s.pass p).ran then s
  else advance p (s.modPass p (fun q => { q with opened := true }))

/-- TT_STAT.STOPPED (R149). -/
def ttStopped (s : State) : Bool := !s.flag F.TT_CTRL_RUN && !s.ports.any (fun q => q.round.isSome)

end Sys2Proof.Machine
end

