-- ==== Sys2Proof/Machine/Port.lean ====
section
/-!
DEFINITION. The port engines (05, 06): exchanges, received bursts, rounds, enrolment, strangers, walk-outs and fences.
-/

namespace Sys2Proof.Machine

def State.modXchg (s : State) (p : Nat) (f : Exchange → Exchange) : State := s.modPort p (fun q => { q with xchg := q.xchg.map f })
def State.modRound (s : State) (p : Nat) (f : Round → Round) : State := s.modPort p (fun q => { q with round := q.round.map f })
def State.xchg (s : State) (p : Nat) : Option Exchange := (s.port p).bind (·.xchg)
def State.round (s : State) (p : Nat) : Option Round := (s.port p).bind (·.round)

/-! Events of a port engine (Tables 18.8, 18.9). -/
def nodeEvent (p kind node : Nat) (s : State) (ep : Nat := 0x7FFFFF) : State := pmEvent kind node 0 0 (portUnit p) s ep

/-! Strangers (R131, R132). -/

/-- STRANGER_DETECTED: counted, and logged while the class's bit is 0. -/
def stranger (p cls node data : Nat) (s : State) : State :=
  let s1 := if cls = 1 then s.incSat (F.FL_CNT_STR_UNKNOWN p) else if cls = 3 then s.incSat (F.FL_CNT_STR_IMPOSTOR p) else s
  let pend := s1.get (F.FL_STR_PEND_PEND p)
  if bit pend (cls - 1) then s1
  else
    let s2 := s1.put (F.FL_STR_PEND_PEND p) (setBits pend (cls - 1) 1 1)
    let s3 := ((s2.put (F.FL_STR_LAST_CLASS p) cls).put (F.FL_STR_LAST_NODE p) node).put (F.FL_STR_LAST_DATA p) data
    pmEvent 0x33 (node + data * 2 ^ 14) 0 cls (portUnit p) (dayPush (portUnit p) 0x18 cls (node + data * 2 ^ 16) s3)

/-- Frames of the round in progress that were built and not sent are discarded (R118, Table 5.13). -/
def discardRound (p : Nat) (s : State) : State :=
  match s.round p with
  | none => s
  | some r => (s.incSat (F.FL_RCNT_DISCARD p) r.frames.length).modRound p (fun r => { r with frames := [] })

/-- Frames of the round in progress that were built and not sent are discarded, and built anew without the unicast commands to a node (R118). -/
def rebuildRound (p : Nat) (n : Option Nat) (s : State) : State :=
  match s.round p with
  | none => s
  | some r =>
    let s1 := discardRound p s
    match r.kind, r.frames.head?, r.frames.getLast? with
    | .read, some (.readChain a _ pf pn), some (.readChain b m _ _) =>
      (s1.modRound p (fun r => { r with frames := readFrames s p a (b + m - 1) pf pn })).modPort p (fun q => { q with
        want := q.want.filter (fun w => w.2 != .round) })
    | _, _, _ => s1.modRound p (fun x => { x with frames := r.frames.filter (fun c => n.isNone || unicastTo c != n) })

/-- Unicast commands to a node that wait are given up (R133); a mailbox command ends unsent (R140). -/
def dropUnicasts (p n : Nat) (s : State) : State :=
  let gone := fun (w : LineCmd × LineUse) =>
    unicastTo w.1 == some n && (match w.2 with | .follow | .check | .probe _ => true | .mailbox => (match w.1 with | .retire _ => false | _ => true) | _ => false)
  let boxed := ((s.port p).map (fun q => q.want.any (fun w => gone w && w.2 == .mailbox))).getD false
  let s1 := s.modPort p (fun q => { q with want := q.want.filter (fun w => !gone w) })
  if boxed then s1.put (F.FL_MBOX_STATE p) 3 else s1

/-- QUARANTINE (R133, R118): STATE quarantined; frames built ahead are cancelled, as is the node's uncommitted write-back (R56). -/
def quarantine (p n : Nat) (s : State) : State :=
  let r := nodeRec s p n
  let s1 := writeNode p n { r with state := nsQuarantined } s
  let s2 := rebuildRound p (some n) (discardBuilt p (fun _ => true) s1)
  let s3 := dropUnicasts p n (pruneChecks p s2)
  if (backOf s3 p).reads.any (fun x => r.epbase ≤ x.ep && x.ep < r.epbase + r.points) then
    (modBack p (fun w => { w with reads := w.reads.filter (fun x => !(r.epbase ≤ x.ep && x.ep < r.epbase + r.points)) }) s3).incSat F.TREND_CNT_WB_CANCEL
  else s3

/-- Queue an identity check (R122). -/
def raiseCheck (p n : Nat) (dup restarted : Bool) (s : State) : State :=
  if fenced s p n || (nodeRec s p n).state == nsQuarantined then s
  else s.modPort p (fun q =>
    if q.checks.any (fun c => c.node == n) then
      { q with checks := q.checks.map (fun c => if c.node == n then { c with dup := c.dup || dup, restarted := c.restarted || restarted } else c) }
    else if 16 ≤ q.checks.length then q
    else { q with checks := q.checks ++ [⟨n, dup, restarted⟩] })

/-- An exchange asked for by an action: it runs before the round goes on. No fenced or quarantined node gets one (R133, R135). -/
def followUp (p : Nat) (c : LineCmd) (s : State) : State :=
  if ((unicastTo c).map (fun n => fenced s p n || (nodeRec s p n).state == nsQuarantined)).getD false then s
  else s.modPort p (fun q => { q with want := q.want ++ [(c, .follow)] })

/-- UNKNOWN (Table 6.8): UNK_ACT, which sends nothing to a keyed number. R132 gives this class no DATA: it is 0 (DESIGN CHOICE). -/
def unknownStranger (p n : Nat) (s : State) : State :=
  let s1 := stranger p 1 n 0 s
  if nodeKeyed s1 p n then s1
  else match s1.get (F.FL_STRCFG_UNK_ACT p) with
    | 1 => followUp p (.mute n (s1.get (F.FL_STRTIME_MUTE_S p))) s1
    | 2 => followUp p (.retire n) s1
    | _ => s1

/-- IMPOSTOR (Table 6.8) with its DATA. -/
def impostor (p n data : Nat) (s : State) : State :=
  let s1 := stranger p 3 n data s
  if data = 1 then quarantine p n s1
  else if data = 2 then
    let r := nodeRec s1 p n
    followUp p (.retire n) (writeNode p n { r with state := nsPrebound, points := 0 } s1)
  else s1

/-- AUTH (Table 6.8): STRIKES, and quarantine at AUTH_LIM. -/
def authStranger (p n : Nat) (s : State) : State :=
  let r := nodeRec s p n
  let k := satTo 255 (r.strikes + 1)
  let s1 := stranger p 4 n k (writeNode p n { r with strikes := k } s)
  if s1.get (F.FL_STRCFG_AUTH_LIM p) ≤ k ∧ r.state ≠ nsQuarantined then quarantine p n s1 else s1

/-- ENERGY (R131, R132): DATA is the number of NOISE bursts so far in the round. -/
def energyStranger (p : Nat) (s : State) : State :=
  stranger p 5 0 (satTo 255 (((s.round p).map (·.noise)).getD 0)) s

/-- A GOOD burst from a node behind a LOST fence disables the fence, whatever window it lies in (R135). -/
def fenceReturn (p n : Nat) (s : State) : State :=
  (List.range 8).foldl (fun s k =>
    if fenceHas s p k n && s.get (F.FL_FENCE_REASON p k) == 3 then nodeEvent p 0x35 n (s.put (F.FL_FENCE_EN p k) 0) else s) s

/-- What a GOOD burst from a node does whatever it answers (R131, R135): STRIKES clears, and a LOST fence before it is disabled. -/
def goodFrom (p n : Nat) (s : State) : State :=
  let r := nodeRec s p n
  fenceReturn p n (if r.strikes = 0 then s else writeNode p n { r with strikes := 0 } s)

/-! Commits of node records (R129, R140, Table 6.3). -/

/-- The bytes of an entry initialised or retired (R162). -/
def editEntry (e : EntryEdit) (b : List Byte) : List Byte :=
  match e with
  | .keep => b
  | .init => List.replicate 8 0#8
  | .retire => leBytes 4 (ofSigned 16 (decodeEntry (ofLe (b.take 4)) 0).value + qRetired * 2 ^ 28) ++ b.drop 4

/-- Every reading made of endpoints from `first` on has been written back (R178): none waits in a port or in a write-back buffer, and no write
of such an entry is held. -/
def nodeSettled (s : State) (first n : Nat) : Bool :=
  let has (e : Nat) : Bool := first ≤ e && e < first + n
  !s.trend.backs.any (fun w => w.reads.any (fun r => has r.ep)) && !s.ports.any (fun q => q.readings.any (fun r => has r.ep)) &&
  !s.ledg.held.any (fun h => match h with | .write 0x78 a _ none => has (a / 8) | _ => false)

/-- A node transaction enters the journal: the record, and the address-book entries of its endpoints. -/
def beginNode (p : Nat) (t : NodeTxn) (w : NodeTodo) (s : State) : State :=
  let u := portUnit p
  let s1 := memWrite u (nodeAddr s p t.node) w.data (txnOpen u s)
  let s2 := if w.edit = .keep then s1 else forUpTo w.count (fun i s =>
    let a := 8 * (w.first + i)
    memWrite u a (editEntry w.edit (s.bytes a 8)) s) s1
  let s3 := modTxn u (fun x => { x with act := .node p }) s2
  (txnCommit u s3).modPort p (fun q => { q with txn := some { t with todo := none } })

/-- A node transaction that waits begins once every earlier reading of the node's endpoints has been written back; their pending lines are
issued at once (R178). -/
def tryNode (p : Nat) (s : State) : State :=
  match (s.port p).bind (·.txn) with
  | none => s
  | some t => match t.todo with
    | none => s
    | some w =>
      let s1 := issueRange w.first w.count s
      if nodeSettled s1 w.first w.count then beginNode p t w s1 else s1

/-- The node transactions that wait. -/
def retryNodes (s : State) : State := forUpTo 32 tryNode s

/-- One journalled transaction is asked for: the record, and what becomes of the address-book entries of its endpoints. -/
def nodeTxn (p n : Nat) (r : NodeRec) (edit : EntryEdit) (count : Nat) (event : Option Nat) (s : State) : State :=
  let eps := if r.epbase = noEp then 0 else min count (0x500000 - r.epbase)
  tryNode p (s.modPort p (fun q => { q with txn := some ⟨n, event.map (fun k => (k, r.epbase)), some ⟨encodeNode r, edit, r.epbase, eps⟩⟩ }))

/-- The node transaction has committed: its day-book entry and event (R129, Table 6.3). -/
def nodeCommitted (p : Nat) (s : State) : State :=
  match (s.port p).bind (·.txn) with
  | none => s
  | some t =>
    let s1 := s.modPort p (fun q => { q with txn := none })
    match t.event with
    | none => s1
    | some (kind, ep) =>
      let s2 := if kind = 0x36 then dayPush (portUnit p) 0x1A 0 t.node s1 else s1
      nodeEvent p kind t.node s2 (if kind = 0x36 then ep else 0x7FFFFF)

/-- Enrolment completes (R129, step 5) with what IDENTIFY reported; `kept` is TYPE and POINTS of a record enrolled or quarantined before. -/
def enrolDone (p n typ ver points : Nat) (kept : Option (Nat × Nat)) (s : State) : State :=
  let r := nodeRec s p n
  let new := { r with typ := typ, version := ver, points := points, state := if r.state = nsQuarantined then nsQuarantined else nsEnrolled }
  nodeTxn p n new (if kept = some (typ, points) then .keep else .init) points (some 0x36) s

/-! IDENTIFY payload (Table 5.9). -/
def idSerial (r : HeardReply) : Nat := recNum r.payload 0 6
def idType (r : HeardReply) : Nat := recNum r.payload 6 2
def idVersion (r : HeardReply) : Nat := recNum r.payload 8 1
def idPoints (r : HeardReply) : Nat := recNum r.payload 9 1
def idWhole (r : HeardReply) : Bool := r.payload.length == 10

/-! Rounds. -/

/-- A yield or back-off before the next command (R134). -/
def setWait (p : Nat) (s : State) : State :=
  s.modPort p (fun q =>
    if q.wait.isSome then q
    else if q.yieldDue || (s.flag (F.FL_RSTAT_BACKOFF p) && !q.want.isEmpty) then { q with wait := some s.pm, yieldDue := false } else q)

/-- The round's exchanges are over. -/
def finishRound (p : Nat) (s : State) : State :=
  match s.round p with
  | some r => if r.done.isSome then s else s.modRound p (fun r => { r with done := some s.pm })
  | none => s

/-- A LETTERBOX round ends with `n` entries left and `total` exchanges in its resolution (R123): a completed one loads LAST. -/
def letterboxOver (p n total : Nat) (s : State) : State :=
  let s1 := s.put (F.FL_LBSTAT_CARRY p) n
  finishRound p (if n = 0 then s1.put (F.FL_LBSTAT_LAST p) (satTo 1023 total) else s1.mark (F.FL_LBSTAT_OVER p))

/-- Both stacks are cleared, and no resolution completes (Table 6.9). -/
def clearStacks (p : Nat) (s : State) : State :=
  (s.put (F.FL_LBSTAT_CARRY p) 0).modPort p (fun q => { q with lbStack := [], enStack := [] })

/-- One choice of a MAINT round's next exchange (Table 6.1). -/
def maintStep (p : Nat) (r : Round) (s0 : State) : State :=
  let s := pruneChecks p s0
  match r.checks with
  | n :: rest =>
    let s1 := s.modRound p (fun r => { r with checks := rest })
    if ((s.port p).map (fun q => q.checks.any (fun c => c.node == n))).getD false then s1.modPort p (fun q => { q with want := [(.identify n, .check)] }) else s1
  | [] =>
    if !r.boxed then
      let s1 := s.modRound p (fun r => { r with boxed := true })
      if s.get (F.FL_MBOX_STATE p) ≠ 1 then s1
      else
        let s2 := readNode p (s.get (F.FL_MBOX_NODE p)) s1
        if boxSends s2 p then s2.modPort p (fun q => { q with want := [(boxCmd s2 p, .mailbox)] }) else s2.put (F.FL_MBOX_STATE p) 3
    else match r.probes with
      | k :: rest =>
        let s1 := scanDir p ((s.modRound p (fun r => { r with probes := rest })).modPort p (fun q => { q with probeAt := (k + 1) % 8 }))
        match probeNode s1 p k with
        | some n => s1.modPort p (fun q => { q with want := [(.ping n, .probe k)] })
        | none => s1
      | [] => finishRound p s

/-- One step of choosing what the port does next: nothing while an exchange is wanted, in progress or a walk-out runs. -/
def proceedOne (p : Nat) (s : State) : State :=
  match s.port p with
  | none => s
  | some q =>
    match q.round with
    | none => s
    | some r =>
      if !q.want.isEmpty || q.xchg.isSome || q.walk.isSome || !r.begun || r.done.isSome then s
      else match r.kind with
        | .convert | .read => match r.frames with
          | [] => finishRound p s
          | f :: _ => s.modPort p (fun q => { q with want := [(f, .round)] })
        | .letterbox =>
          match q.lbStack with
          | [] => letterboxOver p 0 q.lbTotal s
          | (l, pre) :: rest =>
            if s.get (F.FL_LBCFG_MAXEX p) ≤ r.ex then letterboxOver p q.lbStack.length q.lbTotal s
            else s.modPort p (fun q => { q with lbStack := rest, want := [(.letterbox l pre, .round)] })
        | .enrol =>
          match q.enStack with
          | [] => finishRound p s
          | (l, pre) :: rest =>
            if s.get (F.FL_ENRLIM_MAXEX p) ≤ r.ex then finishRound p s
            else s.modPort p (fun q => { q with enStack := rest, want := [(.search l pre, .round)] })
        | .maint => maintStep p r s

/-- The prefix that a wanted exchange of an ENROL round works on, to be asked again. -/
def enrolPrefix (w : LineCmd × LineUse) : List (Nat × Nat) :=
  match w with
  | (.search l pre, .round) => [(l, pre)]
  | (_, .enrol l pre _ _ _) => if l < 48 then [(l, pre)] else []
  | _ => []

/-- An ENROL round ends once ENR.EN is 0 and the exchange in progress is over (Table 6.1); what it had not asked stays on the stack. -/
def enrolStop (p : Nat) (s : State) : State :=
  match s.port p with
  | none => s
  | some q =>
    match q.round with
    | none => s
    | some r =>
      if r.kind = .enrol ∧ r.begun ∧ r.done.isNone ∧ q.xchg.isNone ∧ !s.flag (F.FL_ENR_EN p) then
        finishRound p (s.modPort p (fun q => { q with
          enStack := q.want.flatMap enrolPrefix ++ q.enStack
          want := q.want.filter (fun w => match w.2 with | .round | .enrol _ _ _ _ _ => false | _ => true) }))
      else s

/-- The port goes on until it wants an exchange or its round's exchanges are over. -/
def proceed (p : Nat) (s : State) : State := setWait p (iter 24 (proceedOne p) (enrolStop p s))

/-- A round of a kind begins on a port (R116): the kind fired and not begun. -/
def beginRound (p : Nat) (k : RoundKind) (s : State) : State :=
  match s.port p with
  | none => s
  | some q =>
    match q.round with
    | none => s
    | some r =>
      if r.kind ≠ k || r.begun || r.done.isSome || !portWorks s p || q.walk.isSome then s
      else
        let s1 := s.modRound p (fun r => { r with begun := true })
        let s2 := match k with
          | .letterbox => if q.lbStack.isEmpty then s1.modPort p (fun q => { q with lbStack := [(0, 0)], lbTotal := 0 }) else s1
          | .enrol => if q.enStack.isEmpty && s.flag (F.FL_ENR_EN p) then s1.modPort p (fun q => { q with enStack := [(0, 0)] }) else s1
          | .maint => s1.modRound p (fun r => { r with checks := (q.checks.take 4).map (·.node), probes := lostFences s p q.probeAt })
          | _ => s1
        proceed p s2

/-! Walk-outs (R138). -/

/-- The exchanges that wait, those of the walk-out apart. -/
def notWalk (l : List (LineCmd × LineUse)) : List (LineCmd × LineUse) := l.filter (fun w => w.2 != .walk)

/-- The walk-out ends, and the sequencer goes on. -/
def walkEnd (p : Nat) (s : State) : State :=
  advance p (proceed p ((s.put (F.FL_RSTAT_WALKING p) 0).modPort p (fun q => { q with walk := none, want := notWalk q.want })))

/-- A step of the walk-out at switch node n, with its exchange. -/
def walkStep (p n : Nat) (stage : WalkStage) (c : LineCmd) (s : State) : State :=
  setWait p (s.modPort p (fun q => { q with walk := some ⟨n, stage⟩, want := notWalk q.want ++ [(c, .walk)] }))

/-- Go to the next switch node at or above `from_` of the directory as it has been read; slots that come due are skipped (R145). -/
def walkFrom (p from_ : Nat) (s : State) : State :=
  match (switchNodes s p).find? (fun n => from_ ≤ n) with
  | none => walkEnd p s
  | some n =>
    if fenced s p n then walkEnd p s
    else advance p (walkStep p n .ping (.ping n) (s.mark (F.FL_RSTAT_WALKING p)))

/-- The directory is read, and the walk goes on. -/
def walkTo (p from_ : Nat) (s : State) : State := walkFrom p from_ (scanDir p s)

/-- WALK_OUT begins when the port has an enrolled switch node. -/
def walkOut (p : Nat) (s0 : State) : State :=
  let s := scanDir p s0
  if (switchNodes s p).isEmpty then advance p (proceed p s) else walkFrom p 0 s

/-- The PING of switch node n has ended. -/
def walkPinged (p n : Nat) (good : Bool) (s : State) : State :=
  if !good then walkEnd p (setFence p n 0x3FFF 2 s).2
  else if (List.range 8).any (fun k => s.flag (F.FL_FENCE_EN p k) && s.get (F.FL_FENCE_REASON p k) == 1 && s.get (F.FL_FENCE_LO p k) == n + 1) then walkEnd p s
  else walkStep p n .close (.writeCfg n 0xF0 1) s

/-- CLOSE_WAIT_EXPIRY (R138). -/
def closeWaitExpiry (p : Nat) (s : State) : State :=
  match (s.port p).bind (·.walk) with
  | some ⟨n, .wait⟩ =>
    if s.flag (F.FL_STAT_FLT p) then
      if n = 0x3FFF then walkEnd p s
      else match setFence p (n + 1) 0x3FFF 1 s with
        | (none, s1) => walkEnd p s1
        | (some _, s1) => s1.modPort p (fun q => { q with walk := some ⟨n, .shorted⟩ })
    else walkTo p (n + 1) s
  | _ => s

/-! Exchanges. -/

/-- The line the record of an ASSIGN lies in has been programmed (R129, step 2; R62). -/
def durable (s : State) (a : Nat) : Bool :=
  !(nth s.ledg.bufs (ledgBank a) []).any (fun b => b.cells.line == lineOf a) &&
  !s.ledg.held.any (fun h => match h with | .write _ b _ _ => lineOf b == lineOf a | .commit _ => false)

/-- The next command may be sent now. -/
def maySend (s : State) (p : Nat) (q : Port) (c : LineCmd) : Bool :=
  portWorks s p && !s.safe && q.xchg.isNone && q.wait.isNone && q.txn.isNone && !s.flag (F.FL_STAT_FLT p) && !s.flag (F.FL_RSTAT_HELD p) &&
  s.flag (F.FL_CTRL_EN p) &&
  !(portKeyed s p && s.ledg.recPend.any (fun r => match r with | .fresh i _ => i == p | _ => false)) &&
  (match c with | .assign _ n => durable s (nodeAddr s p n) | _ => true)

/-- FRAME_SEND (R90, R104, R118): DE rises; the frame is committed with FRESH, CRC and MAC. -/
def frameSend (p : Nat) (s0 : State) : State :=
  let s := tryNode p s0
  match s.port p with
  | none => s
  | some q =>
    match q.want with
    | [] => s
    | (c, use) :: rest =>
      if !maySend s p q c then s
      else
        let keyed := portKeyed s p
        let fresh := if keyed then (s.get (F.FL_FRESH_FRESH p) + 1) % 2 ^ 32 else s.get (F.FL_FRESH_FRESH p)
        let s1 := s.put (F.FL_FRESH_FRESH p) fresh
        let s2 := if keyed && fresh % 2 ^ 16 == 0 then storeRecord (.fresh p fresh) s1 else s1
        let x : Exchange := ⟨c, use, cmdFrame s p c fresh, fresh, keyed, 0, 0, false, 0, 0, none, none, false, []⟩
        let s3 := match use with
          | .round | .check | .mailbox | .probe _ => s2.modRound p (fun r => { r with frames := r.frames.drop 1 })
          | _ => s2
        ((s3.mark (F.FL_STAT_ACTIVE p)).put (F.FL_STAT_RX p) 0).modPort p (fun q => { q with
          want := rest, xchg := some x, stage := .sending, lead := 0, acc := 0, half := 0, rx := none })

/-- DE_LEAD has passed since DE rose (R90). -/
def leadPast (s : State) (p n : Nat) : Bool := decide (s.get (F.FL_CPL_DE_LEAD p) * 2 ^ 24 ≤ n * 1000000)

/-- One reference period of a port that sends (R90, R95): DE_LEAD passes with the accumulator clear; then it adds the increment of the rate,
and a half-bit ends where it overflows. -/
def lineTick (p : Nat) (s : State) : State :=
  match s.port p with
  | none => s
  | some q =>
    if q.stage ≠ .sending then s
    else if !leadPast s p q.lead then s.modPort p (fun q => { q with lead := q.lead + 1 })
    else
      let n := q.acc + phaseInc (s.get (F.FL_CTRL_RATE p))
      s.modPort p (fun q => { q with acc := n % 2 ^ 32, half := q.half + n / 2 ^ 32 })

/-- Every port that sends. -/
def linesTick (s : State) : State := if s.ports.any (fun q => q.stage == .sending) then forUpTo 32 lineTick s else s

/-- The half-bits of the frame being sent: five bytes of preamble, SD, the bytes, ED (R93, Table 5.5). -/
def sentLevels (x : Exchange) : List Bool := frameLevels 5 x.frame

/-- FLpp_TXD is high (R88, R90): the half-bit of the frame while it is sent; low before the preamble, after the ED and whenever DE is low. -/
def txdHigh (s : State) (p : Nat) : Bool :=
  match s.port p with
  | none => false
  | some q => q.stage == .sending && leadPast s p q.lead && ((q.xchg.map (fun x => (sentLevels x).getD q.half false)).getD false)

/-- The steps of Table 5.3 after the first. -/
def lineStep (p : Nat) (from_ to_ : LineStage) (s : State) : State :=
  match s.port p with
  | none => s
  | some q => if q.stage = from_ then s.modPort p (fun q => { q with stage := to_ }) else s

/-- NODE_MISSING (R111). -/
def nodeMissing (p : Nat) (s : State) : State :=
  match s.port p, s.xchg p with
  | some q, some x =>
    if q.stage ≠ .listening || (cmdNodes x.cmd).2 ≤ x.next then s
    else (s.incSat (F.FL_CNT_LINE_MISSING p)).modXchg p (fun x => { x with next := x.next + 1 })
  | _, _ => s

/-- A burst's SD lies in the window of the node the exchange expects (R110, R119). -/
def inNodeWindow (s : State) (p : Nat) (x : Exchange) (sd : Nat) : Bool :=
  let lo := (if x.heard then 24 else 32) + (x.next - x.base) * 48
  decide (x.next < (cmdNodes x.cmd).2) && bitsLe s p lo sd && !bitsLe s p (lo + 24) sd

/-- The points a READ_CHAIN reply is to hold (R120). -/
def pointsExpected (r : NodeRec) (pf pn : Nat) : Nat := min (pf + pn) r.points - pf

/-- Checks 3 to 6 of Table 6.2 on a reply of node k to a READ_CHAIN. -/
def acceptReply (p k pf pn : Nat) (h : HeardReply) (pm : Nat) (s : State) : State :=
  let r := nodeRec s p k
  if r.state ≠ nsEnrolled then
    if r.state = nsQuarantined then s.incSat (F.FL_CNT_DROP_QUAR_DROP p)
    else if r.state = nsAssigning then raiseCheck p k false false s
    else unknownStranger p k s
  else if bit h.status 4 then (raiseCheck p k false true s).incSat (F.FL_CNT_HOLD_IDCHK p)
  else if h.payload.length ≠ 2 * pointsExpected r pf pn then (raiseCheck p k false false s).incSat (F.FL_CNT_HOLD_IDCHK p)
  else if r.epbase = noEp then s.incSat (F.FL_CNT_HOLD_NO_EP p)
  else
    let rs := (List.range (pointsExpected r pf pn)).map (fun i => (⟨r.epbase + pf + i, recNum h.payload (2 * i) 2, pm⟩ : Reading))
    s.modPort p (fun q => { q with readings := q.readings ++ rs })

/-- A burst in the window of node k (R120, Table 6.2). -/
def matchReply (p k : Nat) (x : Exchange) (cls : RxClass) (h : HeardReply) (pm : Nat) (s : State) : State :=
  let s0 := readNode p k s
  match cls with
  | .good =>
    let s1 := goodFrom p h.node (if h.node = k then s0 else readNode p h.node s0)
    if h.node ≠ k then
      let r := nodeRec s1 p h.node
      if r.state = nsEnrolled ∨ r.state = nsAssigning then raiseCheck p h.node false false s1
      else if r.state = nsQuarantined then s1.incSat (F.FL_CNT_DROP_QUAR_DROP p)
      else unknownStranger p h.node s1
    else
      let gone := ((s1.port p).map (fun q => q.absent.contains k)).getD false
      let s2 := if gone then nodeEvent p 0x35 k (s1.modPort p (fun q => { q with absent := q.absent.filter (· != k) })) else s1
      match x.cmd with
      | .readChain _ _ pf pn => acceptReply p k pf pn h pm s2
      | _ => s2.modXchg p (fun x => { x with reply := some h })
  | .macBad => if nodeKeyed s0 p k then authStranger p k s0 else s0
  | .crcBad | .malformed => s0.modXchg p (fun x => { x with bad := true })
  | _ => s0

def windowOf (c : RxClass) : Window := match c with | .good => .good | .crcBad | .malformed => .bad | _ => .other

/-- A burst out of every window (R119): counted; a GOOD one can still end a LOST fence (R135). -/
def outOfWindow (p : Nat) (cls : RxClass) (n : Nat) (s : State) : State :=
  let s1 := s.incSat (F.FL_CNT_DROP_LATE p)
  if cls = .good then fenceReturn p n s1 else s1

/-- What a burst means for the exchange in progress (R110, R119, R124). -/
def burstInExchange (p : Nat) (x : Exchange) (cls : RxClass) (b : Heard) (pm : Nat) (s : State) : State :=
  let h := burstReply b pm
  if isSearch x.cmd || isLetterbox x.cmd then
    let s1 := s.modXchg p (fun x => { x with
      bursts := x.bursts + 1, sds := x.sds + b2n b.sd.isSome, single := if x.bursts = 0 ∧ cls = .good then some h else none })
    match cls with
    | .macBad => if isLetterbox x.cmd then authStranger p h.node (readNode p h.node s1) else s1
    | .good => if isLetterbox x.cmd then goodFrom p h.node (readNode p h.node s1) else s1
    | _ => s1
  else match b.sd with
    | none => s
    | some t =>
      if inNodeWindow s p x t then
        let k := (cmdNodes x.cmd).1 + x.next
        let s1 := s.modXchg p (fun x => { x with next := x.next + 1, base := x.next + 1, heard := true, windows := x.windows ++ [(k, windowOf cls)] })
        matchReply p k x cls h pm s1
      else outOfWindow p cls h.node s

/-- A burst takes its class: it is counted and passed to the rounds logic (R107, R110, R131). Its postmark is that of now, when its ED is
recognised, less the glitch filter's delay (R109). A port that is disabled and has no exchange only counts it. -/
def takeBurst (p : Nat) (q : Port) (b : Heard) (s : State) : RxClass × State :=
  let search := (q.xchg.map (fun x => isSearch x.cmd)).getD false
  let fresh := (q.xchg.map (·.fresh)).getD (s.get (F.FL_FRESH_FRESH p))
  let cls := classOf s p fresh search b
  let s1 := countClass p cls s
  if q.xchg.isNone && !s.flag (F.FL_CTRL_EN p) then (cls, s1)
  else
    let s2 := match cls with
      | .noise =>
        let s2 := energyStranger p (s1.modRound p (fun r => { r with noise := r.noise + 1 }))
        if s.get (F.FL_STRCFG_NOISE_LIM p) ≤ ((s2.round p).map (·.noise)).getD 0 then s2.mark (F.FL_RSTAT_BACKOFF p) else s2
      | .foreign => (stranger p 2 0 (recNum b.data 0 1) s1).modPort p (fun q => { q with yieldDue := true })
      | _ => s1
    let s3 := match q.xchg with
      | some x => burstInExchange p x cls b ((s.pm + 2 ^ 64 - glitchLen s p) % 2 ^ 64) s2
      | none => if b.sd.isSome then outOfWindow p cls (burstReply b s.pm).node s2 else s2
    (cls, if q.xchg.isNone then proceed p s3 else s3)

/-- Whether a burst was heard in a node's window: the exchange counts on from its end (R110). -/
def movedOn (p : Nat) (s t : State) : Bool := decide ((s.xchg p).map (·.base) ≠ (t.xchg p).map (·.base))

/-- The burst in hand is classed when what has come of it tells its class (R429). After an ED that ends it the receiver looks on at once: what
follows begins a further burst. After a FOREIGN or MALFORMED burst everything up to a quiet line belongs to it. The flag tells whether a
further burst is in hand. -/
def classPending (p : Nat) (s : State) : Bool × State :=
  match s.port p with
  | none => (false, s)
  | some q =>
    match q.rx with
    | none => (false, s)
    | some b =>
      let d := decodeBurst (glitchLen s p) (rateNum s p) b
      if !d.decided then (false, s)
      else
        let (cls, s1) := takeBurst p q d s
        if cls = .foreign ∨ cls = .malformed then (false, s1.modPort p (fun q => { q with rx := none, deaf := true }))
        else if (edges (glitchLen s p) d.rest.runs).2.isEmpty then (false, (s1.put (F.FL_STAT_RX p) 0).modPort p (fun q => { q with rx := none }))
        else (true, s1.modPort p (fun q => { q with rx := some (if movedOn p s s1 then { d.rest with after := 0 } else d.rest) }))

/-- Every burst in hand that can be classed is. -/
def classBursts : Nat → Nat → State → State
  | 0, _, s => s
  | n + 1, p, s => if (classPending p s).1 then classBursts n p (classPending p s).2 else (classPending p s).2

/-- BURST_RECEIVED (R96, R107, R429): samples of FLnn_RXD join the burst in hand, or begin one with the first edge that passes the glitch
filter. While DE is high or the receiver is blanked they are ignored; while a FOREIGN or MALFORMED burst goes on they belong to it. -/
def burstReceived (p : Nat) (b : Burst) (s : State) : State :=
  match s.port p with
  | none => s
  | some q =>
    if !portWorks s p || !(q.stage = .idle || q.stage = .listening) || q.deaf then s
    else
      let rx : Burst := match q.rx with | none => b | some o => ⟨o.after, o.runs ++ b.runs⟩
      if (edges (glitchLen s p) rx.runs).2.isEmpty then s
      else classBursts (rx.runs.length + 1) p (((s.put (F.FL_STAT_QUIET p) 0).mark (F.FL_STAT_RX p)).modPort p (fun q => { q with rx := some rx }))

/-- The line's level has stayed for 2 bit times: what that ends of the burst in hand is classed (R96). -/
def quietEnds (p : Nat) (s : State) : State :=
  match (s.port p).bind (·.rx) with
  | none => s
  | some b => classBursts (b.runs.length + 2) p (s.modPort p (fun q => { q with rx := some { b with runs := quietRuns (rateNum s p) b.runs } }))

/-- LINE_QUIET (R96, R108, R429): a burst in hand ends without an ED, and the receiver looks for the next preamble. -/
def lineQuiet (p : Nat) (s0 : State) : State :=
  let s := quietEnds p s0
  let s1 := match s.port p with
    | none => s
    | some q => match q.rx with
      | none => s
      | some b => (takeBurst p q { decodeBurst (glitchLen s p) (rateNum s p) b with fin := .broken } s).2
  ((s1.modPort p (fun q => { q with rx := none, deaf := false })).mark (F.FL_STAT_QUIET p)).put (F.FL_STAT_RX p) 0

/-! What the end of an exchange brings. -/

/-- Outcome of a LETTERBOX or SEARCH exchange (R124). -/
inductive Outcome where
  | empty
  | single (h : HeardReply)
  | collision
  deriving DecidableEq, Repr

def outcomeOf (x : Exchange) (cut : Bool) : Outcome :=
  if cut then .collision
  else if x.sds = 0 then .empty
  else match x.single with
    | none => .collision
    | some h =>
      if x.bursts ≠ 1 then .collision
      else match x.cmd with
        | .letterbox l pre => if h.node % 2 ^ l = pre % 2 ^ l then .single h else .collision
        | .search l pre => if h.payload.length = 6 ∧ idSerial h % 2 ^ l = pre % 2 ^ l then .single h else .collision
        | _ => .collision

/-- KIND, POINT and VALUE of a single's report (Table 5.9); bytes that its payload lacks are free values. -/
def reportOf (h : HeardReply) (s : State) : (Nat × Nat × Nat) × State :=
  let b := (h.payload ++ leBytes 4 (s.free.1)).take 4
  ((recNum b 0 1, recNum b 1 1, recNum b 2 2), if 4 ≤ h.payload.length then s else s.free.2)

/-- TAKE_REPORT (R126): passed to the trend unit unless it is a repeat, or its node is not enrolled, or fenced. -/
def takeReport (p : Nat) (h : HeardReply) (kind point v : Nat) (s0 : State) : State :=
  let s := readNode p h.node s0
  let r := nodeRec s p h.node
  let s1 := if r.state = nsEnrolled ∨ r.state = nsAssigning ∨ r.state = nsQuarantined then s else unknownStranger p h.node s
  let again := ((s.port p).map (fun q => q.repeats.contains (h.node, kind, point, v))).getD false
  if r.state ≠ nsEnrolled || fenced s p h.node || again then s1
  else s1.modPort p (fun q => { q with reports := q.reports ++ [⟨r.epbase + point, v, h.pm, kind⟩] })

/-- A LETTERBOX exchange has ended (R123). -/
def letterboxEnd (p l pre : Nat) (o : Outcome) (s : State) : State :=
  let s0 := (s.modRound p (fun r => { r with ex := r.ex + 1 })).modPort p (fun q => { q with lbTotal := q.lbTotal + 1 })
  match o with
  | .empty => s0
  | .single h =>
    let ((kind, point, v), s1) := reportOf h s0
    (takeReport p h kind point v s1).modPort p (fun q => { q with want := (.ackReport h.node kind point v, .report l pre) :: q.want })
  | .collision =>
    if l < 14 then s0.modPort p (fun q => { q with lbStack := (l + 1, pre) :: (l + 1, pre + 2 ^ l) :: q.lbStack })
    else raiseCheck p pre true false (readNode p pre s0)

/-- A report whose ACK_REPORT got no GOOD reply enters the repeat list (R126). -/
def addRepeat (e : Nat × Nat × Nat × Nat) (l : List (Nat × Nat × Nat × Nat)) : List (Nat × Nat × Nat × Nat) :=
  if l.contains e then l else (if 16 ≤ l.length then l.drop 1 else l) ++ [e]

/-- The reports of ACK_REPORT commands that are given up, in progress or still to be sent. -/
def cutAcks (q : Port) : List (Nat × Nat × Nat × Nat) :=
  ((q.xchg.map (·.cmd)).toList ++ q.want.map (·.1)).filterMap (fun c => match c with | .ackReport n k pt v => some (n, k, pt, v) | _ => none)

/-- Commands that are given up leave their reports in the repeat list. -/
def cutReports (p : Nat) (s : State) : State := s.modPort p (fun q => { q with repeats := (cutAcks q).foldl (fun l e => addRepeat e l) q.repeats })

/-- The ACK_REPORT after a single has ended (R123, R126). -/
def ackEnd (p l pre n kind point v : Nat) (good : Bool) (s : State) : State :=
  let s1 := s.modPort p (fun q => { q with
    repeats := if good then q.repeats.filter (fun e => e.1 != n) else addRepeat (n, kind, point, v) q.repeats })
  if l < 14 then s1.modPort p (fun q => { q with lbStack := (l, pre) :: q.lbStack }) else s1

/-- The node number for a serial (R130). -/
def chooseNode (s : State) (p ser : Nat) : Option (Nat × Bool) :=
  let dir := dirNodes s p
  let held := fun n => let r := nodeRec s p n; r.serial == ser && (r.state == nsPrebound || r.state == nsAssigning || r.state == nsEnrolled || r.state == nsQuarantined)
  match dir.find? held with
  | some n => some (n, true)
  | none =>
    let lo := s.get (F.FL_ENR_LO p); let hi := s.get (F.FL_ENR_HI p)
    let free := fun n => !poisonFor s (portUnit p) (nodeAddr s p n) && (let st := (nodeRec s p n).state; st == nsEmpty || st == nsRetired)
    ((((List.range (hi + 1 - lo)).map (· + lo)).find? free)).map (fun n => (n, false))

/-- ENROL_SINGLE (R129, steps 1 to 3). -/
def enrolSingle (p l pre ser : Nat) (s : State) : State :=
  let s0 := scanDir p s
  match chooseNode s0 p ser with
  | none => finishRound p ((s0.mark (F.FL_RSTAT_ENR_FULL p)).modPort p (fun q => { q with enStack := [] }))
  | some (n, held) =>
    let r := nodeRec s0 p n
    let s1 := writeNode p n { r with
      serial := ser, state := if r.state = nsQuarantined then nsQuarantined else nsAssigning
      epbase := if held then r.epbase else noEp
      points := if r.state = nsQuarantined then r.points else 0 } s0
    let kept := if r.state = nsEnrolled ∨ r.state = nsQuarantined then some (r.typ, r.points) else none
    s1.modPort p (fun q => { q with want := (.assign ser n, .enrol l pre ser false kept) :: q.want })

/-- A SEARCH exchange has ended (R129). -/
def searchEnd (p l pre : Nat) (o : Outcome) (s : State) : State :=
  let s0 := s.modRound p (fun r => { r with ex := r.ex + 1 })
  match o with
  | .empty => s0
  | .single h => enrolSingle p l pre (idSerial h) s0
  | .collision =>
    if l < 48 then s0.modPort p (fun q => { q with enStack := (l + 1, pre) :: (l + 1, pre + 2 ^ l) :: q.enStack })
    else impostor p 0 3 s0

/-- ASSIGN or IDENTIFY of an enrolment has ended (R129, steps 3 to 6). -/
def enrolEnd (p l pre ser : Nat) (assigned : Bool) (kept : Option (Nat × Nat)) (x : Exchange) (s : State) : State :=
  match x.cmd with
  | .assign _ n =>
    if fenced s p n then (if l < 48 then s.modPort p (fun q => { q with enStack := (l, pre) :: q.enStack }) else s)
    else s.modPort p (fun q => { q with want := (.identify n, .enrol l pre ser x.reply.isSome kept) :: q.want })
  | .identify n =>
    let s0 := readNode p n s
    let s1 := match x.reply with
      | none => s
      | some h =>
        if !idWhole h then s
        else if idSerial h ≠ ser then impostor p n 2 s0
        else if assigned then enrolDone p n (idType h) (idVersion h) (idPoints h) kept s0
        else s
    if l < 48 then s1.modPort p (fun q => { q with enStack := (l, pre) :: q.enStack }) else s1
  | _ => s

/-- IDENTITY_CHECK (Table 6.3). A GOOD reply whose LEN is not 10 has no row of that table: the check stays queued, and the node, which
answered, is not counted as missing (DESIGN CHOICE). -/
def checkEnd (p n : Nat) (x : Exchange) (s0 : State) : State :=
  let s := readNode p n s0
  let c := ((s.port p).bind (fun q => q.checks.find? (fun c => c.node == n))).getD ⟨n, false, false⟩
  let served := fun (s : State) => s.modPort p (fun q => { q with checks := q.checks.filter (fun c => c.node != n) })
  let r := nodeRec s p n
  match x.reply with
  | some h =>
    if !idWhole h then s
    else if idSerial h ≠ r.serial then served (impostor p n 1 s)
    else if r.state = nsAssigning then served (enrolDone p n (idType h) (idVersion h) (idPoints h) none s)
    else if idType h = r.typ ∧ idPoints h = r.points then
      let s1 := served s
      let s2 := if c.restarted then nodeEvent p 0x37 n (followUp p (.ping n) s1) else s1
      let blocked := (List.range 8).any (fun k => s2.flag (F.FL_FENCE_EN p k) && (s2.get (F.FL_FENCE_REASON p k) == 1 || s2.get (F.FL_FENCE_REASON p k) == 2) && s2.get (F.FL_FENCE_LO p k) == n + 1)
      if bit r.typ 15 && !blocked then followUp p (.writeCfg n 0xF0 1) s2 else s2
    else
      served (nodeTxn p n { r with typ := idType h, version := idVersion h, points := idPoints h } .init (max r.points (idPoints h)) (some 0x38) s)
  | none =>
    if x.bad && c.dup then served (impostor p n 2 s)
    else if x.windows.isEmpty then s else s.incSat (F.FL_CNT_LINE_MISSING p)

/-- The mailbox command has ended (R140). -/
def boxEnd (p : Nat) (x : Exchange) (s : State) : State :=
  match x.cmd with
  | .mute _ _ => s.put (F.FL_MBOX_STATE p) 2
  | .retire n =>
    if x.reply.isSome then
      let s1 := readNode p n s
      let r := nodeRec s1 p n
      (nodeTxn p n { r with state := nsRetired, points := 0 } .retire r.points none s1).put (F.FL_MBOX_STATE p) 2
    else s.put (F.FL_MBOX_STATE p) 3
  | _ => s.put (F.FL_MBOX_STATE p) (if x.reply.isSome then 2 else 3)

/-- The duplicate watch over one READ_CHAIN exchange (R122). -/
def dupWatch (p : Nat) (x : Exchange) (s : State) : State :=
  let (f, n) := cmdNodes x.cmd
  let odd := x.windows.filter (fun w => w.2 != .good)
  let zero : Nat → Nat := fun _ => 0
  let s1 := s.modPort p (fun q => { q with dup := q.dup.filter (fun e => e.1 < f || f + n ≤ e.1 || odd == [(e.1, Window.bad)]) })
  match odd with
  | [(k, .bad)] =>
    let c := mapGet zero (((s1.port p).map (·.dup)).getD []) k + 1
    let s2 := s1.modPort p (fun q => { q with dup := mapSet zero q.dup k (satTo 15 c) })
    if s2.get (F.FL_STRCFG_DUP_LIM p) ≤ c then raiseCheck p k true false (readNode p k s2) else s2
  | _ => s1

/-- Windows of a READ_CHAIN exchange that held no SD, and those that did (R121). -/
def noteMissing (p : Nat) (x : Exchange) (s : State) : State :=
  let (f, n) := cmdNodes x.cmd
  let heard := x.windows.map (·.1)
  let gone := ((List.range n).map (· + f)).filter (fun k => !heard.contains k)
  (s.modRound p (fun r => { r with missing := r.missing ++ gone })).modPort p (fun q => { q with miss := q.miss.filter (fun e => !heard.contains e.1) })

/-- The ended exchange is acted on. -/
def exchangeAfter (p : Nat) (x : Exchange) (cut : Bool) (s : State) : State :=
  match x.use, x.cmd with
  | .round, .readChain _ _ _ _ => dupWatch p x (noteMissing p x s)
  | .round, .letterbox l pre => letterboxEnd p l pre (outcomeOf x cut) s
  | .round, .search l pre => searchEnd p l pre (outcomeOf x cut) s
  | .report l pre, .ackReport n k pt v => ackEnd p l pre n k pt v x.reply.isSome s
  | .enrol l pre ser a k, _ => enrolEnd p l pre ser a k x s
  | .check, .identify n => checkEnd p n x s
  | .mailbox, _ => boxEnd p x s
  | .walk, .ping n => walkPinged p n x.reply.isSome s
  | .walk, .writeCfg n _ _ => s.modPort p (fun q => { q with walk := some ⟨n, .wait⟩ })
  | _, _ => s

/-- The port stops: both stacks are cleared and the round's exchanges are over (Table 6.9, R149). A yield that is due, or in progress, comes
before the next command all the same (R134). -/
def stopPort (p : Nat) (s : State) : State :=
  finishRound p ((clearStacks p (cutReports p (s.put (F.FL_RSTAT_WALKING p) 0))).modPort p (fun q => { q with
    want := [], walk := none, stop := false }))

/-- An exchange ends (R111, R125): EXCHANGE_END, or EXCHANGE_CUT_OFF at its limit. A port whose EN was cleared stops; set again since, it then
starts with a walk-out (R137, R149). -/
def endExchange (p : Nat) (cut : Bool) (s : State) : State :=
  match s.port p, s.xchg p with
  | some q, some x =>
    let s0 := (s.put (F.FL_STAT_ACTIVE p) 0).modPort p (fun q => { q with xchg := none, stage := .idle })
    let s1 := if cut then (energyStranger p s0).incSat (F.FL_CNT_LINE_NOISE p) else s0
    let s2 := exchangeAfter p x cut s1
    if q.stop || !s2.flag (F.FL_CTRL_EN p) then (let s3 := stopPort p s2; if s3.flag (F.FL_CTRL_EN p) then walkOut p s3 else s3) else advance p (proceed p s2)
  | _, _ => s

/-- EXCHANGE_END (R111). -/
def exchangeEnd (p : Nat) (s : State) : State :=
  match s.port p, s.xchg p with
  | some q, some x => if q.stage = .listening && (cmdNodes x.cmd).2 ≤ x.next then endExchange p false s else s
  | _, _ => s

/-- EXCHANGE_CUT_OFF (R125). -/
def exchangeCutOff (p : Nat) (s : State) : State :=
  match s.port p, s.xchg p with
  | some q, some x => if q.stage = .listening && (isSearch x.cmd || isLetterbox x.cmd) then endExchange p true s else s
  | _, _ => s

/-- COMMAND_WAIT_END (R134, R156). -/
def commandWaitEnd (p : Nat) (s : State) : State :=
  if ((s.port p).bind (·.wait)).isNone then s else endWait p s

/-! Line faults and restart (R113, R137). -/

/-- The exchange in progress is abandoned (R113, Table 6.9). A yield stays due (R134). -/
def abandonExchange (p : Nat) (s : State) : State :=
  match s.port p with
  | none => s
  | some q =>
    let s1 := match q.xchg with
      | some x => if x.use = LineUse.mailbox then s.put (F.FL_MBOX_STATE p) 3 else s
      | none => s
    let s2 := discardRound p (discardBuilt p (fun _ => true) ((s1.put (F.FL_STAT_ACTIVE p) 0).put (F.FL_STAT_RX p) 0))
    (clearStacks p (cutReports p s2)).modPort p (fun q => { q with xchg := none, stage := .idle, want := [], rx := none, deaf := false, stop := false })

/-- LINE_FAULT (R113, R137). A RESTART written before FLT has been low for FILT is held until then. -/
def lineFault (p : Nat) (s : State) : State :=
  match s.port p with
  | none => s
  | some q =>
    let s1 := ((abandonExchange p s).mark (F.FL_STAT_FLT p)).mark (F.FL_STAT_FLT_LATCH p)
    let s2 := pmEvent 0x32 0 0 0 (portUnit p) (s1.modPort p (fun q => { q with fltClear := false }))
    match q.walk with
    | some ⟨n, .ping⟩ => walkPinged p n false s2
    | some ⟨n, .close⟩ => s2.modPort p (fun q => { q with walk := some ⟨n, .wait⟩ })
    | some _ => s2
    | none => finishRound p (s2.mark (F.FL_RSTAT_HELD p))

/-- HELD clears (R137); a walk-out follows on an enabled port with an enrolled switch node. -/
def releaseHeld (p : Nat) (s : State) : State :=
  let s1 := (s.put (F.FL_RSTAT_HELD p) 0).modPort p (fun q => { q with restart := false })
  if s1.flag (F.FL_CTRL_EN p) then walkOut p s1 else s1

/-- LINE_FAULT_CLEARED (R137, R138). -/
def lineFaultCleared (p : Nat) (s : State) : State :=
  match s.port p with
  | none => s
  | some q =>
    let s1 := (s.put (F.FL_STAT_FLT p) 0).modPort p (fun q => { q with fltClear := true })
    match q.walk with
    | some ⟨_, .shorted⟩ => walkTo p 0 s1
    | _ => if s1.flag (F.FL_RSTAT_HELD p) && q.restart then releaseHeld p s1 else s1

/-- AUTO_RESTART_EXPIRY (R137). -/
def autoRestart (p : Nat) (s : State) : State :=
  if s.flag (F.FL_RSTAT_HELD p) && s.flag (F.FL_FENCECFG_AUTO_RESTART p) && ((s.port p).map (·.fltClear)).getD false then releaseHeld p s else s

/-- PORT_RESTART (R137). -/
def portRestart (p : Nat) (s : State) : State :=
  if !s.flag (F.FL_RSTAT_HELD p) then s
  else if ((s.port p).map (·.fltClear)).getD false then releaseHeld p s
  else s.modPort p (fun q => { q with restart := true })

/-! Enable and disable (R91, R128, R149, R394). -/

/-- PORT_ENABLE; the word's other fields are in place. A port whose last exchange still runs to its end starts after it. -/
def portEnable (p : Nat) (s : State) : State :=
  let s1 := if couplerOk s p then s else s.mark (F.FL_STAT_CPL_BAD p)
  let s2 := if dirOk s p then s1 else s1.mark (F.FL_RSTAT_NDIR_BAD p)
  if !couplerOk s p || !dirOk s p then s2
  else
    let s3 := s2.mark (F.FL_CTRL_EN p)
    if ((s.port p).map (·.stop)).getD false then s3 else walkOut p s3

/-- PORT_DISABLE (R149): the exchange in progress runs to its end. -/
def portDisable (p : Nat) (s : State) : State :=
  let s1 := abandonPass p (discardRound p (discardBuilt p (fun _ => true) (s.put (F.FL_CTRL_EN p) 0)))
  if (s1.xchg p).isSome then (clearStacks p s1).modPort p (fun q => { q with
    want := [], stop := true, repeats := (cutAcks { q with xchg := none }).foldl (fun l e => addRepeat e l) q.repeats }) else stopPort p s1

/-- FENCE_WRITE: refused where LO exceeds HI with EN 1; REASON reads 0b00 (R135, Table 6.9). -/
def fenceWrite (writer p k : Nat) (v : Word) (s : State) : State :=
  let n := v.toNat
  if bit n 31 && bits n 14 14 < bits n 0 14 then refuse writer (A.FL_FENCE p k) s
  else pruneChecks p (s.setReg (A.FL_FENCE p k) (BitVec.ofNat 32 (setBits n 29 2 0)))

/-- MAILBOX_WRITE (R140). -/
def mailboxWrite (p : Nat) (v : Word) (s : State) : State :=
  if s.get (F.FL_MBOX_STATE p) = 1 then s.mark (F.FL_RSTAT_MBOX_LOST p)
  else s.setReg (A.FL_MBOX p) (BitVec.ofNat 32 (setBits v.toNat 30 2 1))

/-! The round boundary (R117). -/

/-- NODE_ABSENT (R121). -/
def noteAbsent (p n : Nat) (s0 : State) : State :=
  let s := readNode p n s0
  let zero : Nat → Nat := fun _ => 0
  match s.port p with
  | none => s
  | some q =>
    if (nodeRec s p n).state ≠ nsEnrolled then s.modPort p (fun q => { q with miss := q.miss.filter (fun e => e.1 != n) })
    else
      let c := satTo 15 (mapGet zero q.miss n + 1)
      let s1 := s.modPort p (fun q => { q with miss := mapSet zero q.miss n c })
      if s.get (F.FL_STRCFG_MISS_LIM p) ≤ c && !q.absent.contains n then
        nodeEvent p 0x34 n (dayPush (portUnit p) 0x19 0 n ((s1.mark (F.FL_RSTAT_ABSENT p)).modPort p (fun q => { q with absent := q.absent ++ [n] })))
      else s1

/-- The sections of the port: from above a switch node to the next one (R136). -/
def sections : List Nat → List (Nat × Nat)
  | [] => []
  | [a] => [(a + 1, 0x3FFF)]
  | a :: b :: t => (a + 1, b) :: sections (b :: t)

/-- AUTO_FENCE (R139). -/
def autoFence (p : Nat) (s0 : State) : State :=
  let s := scanDir p s0
  if !s.flag (F.FL_FENCECFG_AUTO_FENCE p) then s0
  else (sections (switchNodes s p)).foldl (fun s r =>
    let nodes := (enrolledNodes s p).filter (fun n => r.1 ≤ n && n ≤ r.2)
    let absent := ((s.port p).map (·.absent)).getD []
    if nodes.isEmpty || !nodes.all (fun n => absent.contains n) || nodes.all (fun n => fenced s p n) then s
    else match setFence p r.1 r.2 3 s with
      | (some k, s1) => pmEvent 0x39 r.1 0 k (portUnit p) s1
      | (none, s1) => s1) s

/-- ROUND_BOUNDARY (R117): the trend unit has accepted the round's readings. -/
def roundBoundary (p : Nat) (s : State) : State :=
  match s.port p, s.round p with
  | some q, some r =>
    match r.done with
    | none => s
    | some t =>
      if !q.readings.isEmpty then s
      else
        let s1 := retryNodes (endBack p s)
        let s2 := if r.kind = .read then autoFence p (r.missing.foldl (fun s n => noteAbsent p n s) s1) else s1
        let s3 := if r.noise < s2.get (F.FL_STRCFG_NOISE_LIM p) then s2.put (F.FL_RSTAT_BACKOFF p) 0 else s2
        let s4 := (s3.incWrap (F.FL_RCNT_ROUNDS p)).put (F.TTP_POS_ROUND p) 0
        let s5 := (s4.modPort p (fun q => { q with round := none })).modPass p (fun q =>
          if q.mode = .idle then q else { q with holdT := q.holdT + pmDiff s.pm t, last := if r.fill then q.last else s.pm })
        advanceAll (portSwap p (settleEdit s5))
  | _, _ => s

/-- Another port holds an earlier reading of an endpoint (R11, R178). -/
def earlierElsewhere (s : State) (p : Nat) (r : Reading) : Bool :=
  (List.range 32).any (fun k => k != p && ((s.port k).map (fun q => q.readings.any (fun x => x.ep == r.ep && decide (x.pm < r.pm)))).getD false)

/-- TREND_READING (R173): the trend unit accepts the port's oldest reading; of two ports' readings of one endpoint the earlier comes first
(R11). -/
def trendReading (p : Nat) (s : State) : State :=
  match s.port p with
  | none => s
  | some q =>
    match q.readings with
    | [] => s
    | r :: rest =>
      if trendIdle s || earlierElsewhere s p r then s else retryNodes (acceptReading p r (s.modPort p (fun q => { q with readings := rest })))

/-- FIELD_REPORT (R177). -/
def trendReport (p : Nat) (s : State) : State :=
  match s.port p with
  | none => s
  | some q =>
    match q.reports with
    | [] => s
    | r :: rest => if trendIdle s then s else fieldReport r (s.modPort p (fun q => { q with reports := rest }))

end Sys2Proof.Machine
end

