-- ==== Sys2Proof/Machine/Load.lean ====
section
/-!
DEFINITION. The admission arithmetic (10): standing demands (R45, R218), the conditions of Table 10.6 over a state as it
would stand after a change, the interval bound of R430, and the configuration-write check (R217, R219).
-/

namespace Sys2Proof.Machine

/-! Exact rates: a numerator and a positive denominator. -/

structure Ratio where
  num : Nat
  den : Nat
  deriving DecidableEq, Repr

def Ratio.zero : Ratio := ⟨0, 1⟩
def Ratio.add (a b : Ratio) : Ratio := if a.den = b.den then ⟨a.num + b.num, a.den⟩ else ⟨a.num * b.den + b.num * a.den, a.den * b.den⟩
def Ratio.sum (l : List Ratio) : Ratio := l.foldl Ratio.add Ratio.zero
def Ratio.le (a b : Ratio) : Bool := a.num * b.den ≤ b.num * a.den
/-- A rate times a number. -/
def Ratio.mul (a : Ratio) (n : Nat) : Ratio := ⟨a.num * n, a.den⟩
/-- A rate divided by a rated throughput. -/
def Ratio.per (a : Ratio) (n : Nat) : Ratio := ⟨a.num, a.den * n⟩

/-- Output rate of a chain per second (R185, R186). -/
def chainRate (s : State) (i : Nat) : Ratio := if fcGrid s i then ⟨fcInc s i, 2 ^ 19⟩ else ⟨2 ^ 21, fcP s i⟩

def popCount (w n : Nat) : Nat := ((List.range w).filter (fun i => bit n i)).length

/-- A port carries endpoints of a bin (R218). -/
def portCarries (s : State) (b p : Nat) : Bool :=
  s.flag (F.FL_CTRL_EN p) && s.flag (F.FL_NDIR_VALID p) &&
  (dirNodes s p).any (fun n =>
    let r := nodeRec s p n
    1 ≤ r.state && r.state ≤ 4 && r.epbase != noEp && overlaps r.epbase (max r.points 1) (binFirst s b) (binSpan s b))

/-- Events per second of a bin (R218), TT_GATE.MIN in units of 0.1 s. -/
def binRate (s : State) (b : Nat) : Ratio :=
  let both := binEven s b &&& binEvsort s b
  let base : Ratio := ⟨binSpan s b * popCount 5 both * 10, max (s.get F.TT_GATE_MIN) 1⟩
  if bit both 5 then
    base.add ⟨((List.range 32).map (fun p => if portCarries s b p then 10 * s.get (F.FL_LBCFG_KMAX p) else 0)).sum, 1⟩
  else base

/-- Events per second of a core, standing (R218). -/
def coreEvents (s : State) (u : Nat) : Ratio :=
  (Ratio.sum ((List.range 16).map (fun i =>
    if s.flag (F.FC_CTRL_RUN i) && chainRoute s i == some u then chainRate s i else Ratio.zero))).add
  (Ratio.sum (s.trend.valid.map (fun b => if binSorter s b == some u then binRate s b else Ratio.zero)))

/-- Utilisation of a core with `extra` M steps/s beside its standing and follow-on demand. -/
def coreUse (s : State) (u extra : Nat) : Ratio :=
  (((coreEvents s u).mul (s.get (F.SRT_BUDGET_BUDGET u))).add ⟨(followOn s u + extra) * 1000000, 1⟩).per 100000000

/-- Points of the READ slots of the running bank of each enabled port (R218). -/
def readPoints (s : State) : Nat :=
  ((List.range 32).map (fun p =>
    if s.flag (F.FL_CTRL_EN p) then
      ((bankSlots s.seq.slots (runBank s p) p).map (fun e =>
        if roundKind (slotKind e.2) = .read then (slotLast e.2 + 1 - slotFirst e.2) * slotPnum e.2 else 0)).sum
    else 0)).sum
def trendUse (s : State) : Ratio := ⟨readPoints s * 10, max (s.get F.TT_GATE_MIN) 1 * 4000000⟩

/-- Decisions per second of the gatekeeper against 2 M (R218). -/
def gateUse (s : State) : Ratio :=
  let sum (c : Nat) : Nat := sumShare s c + s.get (F.GATE_QUOTA_OBXQ (c - 1))
  ⟨sum 1 * 5000 + sum 2 * 500 + sum 3 * 50, 2000000⟩

/-- Utilisations of the resources of Table 3.1 that enter u; core `who` carries `extra` M steps/s more. -/
def uses (s : State) (who : Option Nat) (extra : Nat) : List Ratio :=
  trendUse s :: gateUse s :: (List.range 65).map (fun u => coreUse s u (if who = some u then extra else 0))

/-- u ≤ 1 (TEST 0x1). -/
def loadOk (s : State) (who : Option Nat) (extra : Nat) : Bool := (uses s who extra).all (fun r => r.le ⟨1, 1⟩)

/-- PACE_NEED (R45): PACE_FLOOR × u, rounded up, held at PACE_FLOOR (R218). -/
def paceNeed (s : State) (who : Option Nat) (extra : Nat) : Nat :=
  let f := Config.floorPace.toNat
  (uses s who extra).foldl (fun m r => max m (min f ((f * r.num + r.den - 1) / r.den))) 0

/-- Value of a fused point 0 to 9 (R43, Table 3.8), code 10 × point. -/
def fusedPace (k : Nat) : Nat := (if k % 2 = 0 then Config.fcurveLo (k / 2) else Config.fcurveHi (k / 2)).toNat

/-! Partitions. -/

/-- Post-bus banks a pigeonhole partition lies in. -/
def partBanks (p : Part) : List Nat :=
  let lo := (p.base - 0x08000000) / 2 ^ 20
  let hi := (p.base + p.len - 1 - 0x08000000) / 2 ^ 20
  (List.range (hi + 1 - lo)).map (fun i => 8 + lo + i)

/-! Conditions of Table 10.6. -/

def burstOf (s : State) (u : Nat) : Nat := s.get (F.ARB_CFG_BURST u)
def maskOf (s : State) (u : Nat) : Nat := s.get (F.ARB_MASK_BANKS u)
/-- TEST 0x5 for a unit on the banks of a partition: wait × 4 ns + 8 ns ≤ 2 µs. -/
def bankOk (s : State) (u : Nat) (p : Option Part) : Bool :=
  match p with
  | none => true
  | some p => (partBanks p).all (fun b => busWait (maskOf s) (burstOf s) u b * 4 + 8 ≤ 2000)

/-- HOP conditions (TEST 0x2 to 0x4), times in 0.1 µs; limits accepted at enrolment apply while the path stands (R288). -/
def hopOk (s : State) (c : Nat) : Bool :=
  if s.isHead || !bit (s.get F.CAS_CFG_PORTS) 0 then true
  else
    let sa := sumShare s 1
    let sn := sumShare s 2
    let sr := sumShare s 3
    let n := if c = 1 then sa else if c = 2 then 10 * sa + sn else 100 * sa + 10 * sn + sr
    let lim := if c = 1 then 1000 else if c = 2 then 10000 else 100000
    decide ((n + 1) * 12 + 80 ≤ lim) && (!pathStandsNow s || decide (sumShare s c ≤ s.get (F.CAS_UPLIM_SHARE (c - 1))))

/-- SUB credits of every class on every down port. -/
def subCredits (s : State) : Nat :=
  ((List.range 3).map (fun k => ((List.range 3).map (fun c => s.get (F.CAS_SUB_CRED k c))).sum)).sum
def obxqSum (s : State) : Nat := ((List.range 3).map (fun c => s.get (F.GATE_QUOTA_OBXQ c))).sum
def credSum (s : State) : Nat := ((List.range 3).map (fun c => s.get (F.GATE_QUOTA_CRED c))).sum

/-- SPACE (R211, R288), for the device as a head office or as a branch. -/
def spaceAs (s : State) (head : Bool) : Bool :=
  decide (obxqSum s + (if head then subCredits s else 0) ≤ s.get F.GATE_OBX_LEN_LETTERS - 1) &&
  decide (obxqSum s + credSum s ≤ s.get F.GATE_OPEN_LIMIT) &&
  (head || (List.range 3).all (fun i =>
    let c := i + 1
    let need := sumCred s c
    (decide (need ≤ ((upPart s c).map (fun p => p.len / 32)).getD 0)) &&
    (!pathStandsNow s || decide (need ≤ s.get (F.CAS_UPLIM_CRED i)))))

/-! The interval bound (R430). Times in ns. -/

/-- `n` bit times of a port and `d` DE_LEADs. -/
def lineTime (s : State) (p n d : Nat) : Nat := n * (128000 / 2 ^ s.get (F.FL_CTRL_RATE p)) + d * s.get (F.FL_CPL_DE_LEAD p) * 1000
/-- A figure of Table 6.4 by whether the port is keyed. -/
def x64 (s : State) (p un ky : Nat) : Nat := if portKeyed s p then ky else un

/-- D of R127. -/
def roundBound (s : State) (p : Nat) : Nat :=
  let ex := s.get (F.FL_LBCFG_MAXEX p)
  let k := s.get (F.FL_LBCFG_KMAX p)
  lineTime s p (ex * x64 s p 292 356 + k * x64 s p 240 336) (ex + k)

/-- b of Table 10.16. -/
def boundDuration (s : State) (p v : Nat) : Nat :=
  match roundKind (slotKind v) with
  | .convert => lineTime s p (x64 s p 124 156) 1
  | .read =>
    let n := slotLast v + 1 - slotFirst v
    let runs := (n + 255) / 256
    lineTime s p ((runs + 8) * x64 s p 156 188 + n * (x64 s p 100 132 + 16 * slotPnum v)) (runs + 8)
  | .letterbox => roundBound s p
  | .enrol =>
    let ex := s.get (F.FL_ENRLIM_MAXEX p)
    lineTime s p (ex * (x64 s p 340 372 + x64 s p 296 360 + x64 s p 312 408)) (3 * ex)
  | .maint => lineTime s p (4 * x64 s p 312 408 + x64 s p 256 352 + 2 * x64 s p 232 328) 7

def isAnchor (v : Nat) : Bool := roundKind (slotKind v) == .letterbox && slotPeriod v == 1

/-- Spans within the pass: the sum of b from each anchor to the one before the next. -/
def innerSpans (s : State) (p : Nat) : Option Nat → List (Nat × Nat) → List Nat
  | _, [] => []
  | acc, (_, v) :: t =>
    let b := boundDuration s p v
    match acc, isAnchor v with
    | some n, true => n :: innerSpans s p (some b) t
    | none, true => innerSpans s p (some b) t
    | some n, false => innerSpans s p (some (n + b)) t
    | none, false => innerSpans s p none t

def sumB (s : State) (p : Nat) (l : List (Nat × Nat)) : Nat := (l.map (fun e => boundDuration s p e.2)).sum

/-- I of R430, none where it is unbounded. -/
def letterInterval (s : State) (p : Nat) : Option Nat :=
  let l := bankSlots s.seq.slots (runBank s p) p
  match l.filter (fun e => isAnchor e.2) with
  | [] => none
  | first :: rest =>
    let last := (first :: rest).getLast?.getD first
    let a := sumB s p (l.filter (fun e => last.1 ≤ e.1))
    let f := sumB s p (l.filter (fun e => e.1 < first.1))
    let fills := l.filter (fun e => slotFill e.2)
    let c := sumB s p fills
    let across := match fills.find? (fun e => roundKind (slotKind e.2) == .letterbox) with
      | some g => max (a + sumB s p (fills.filter (fun e => e.1 < g.1))) c + f
      | none => max a (s.get F.TT_GATE_MIN * 100000000) + c + f
    some ((innerSpans s p none l).foldl max across)

/-- TEST 0x7 for one port. -/
def letterboxOk (s : State) (p : Nat) : Bool :=
  !s.flag (F.GATE_FRB_EN p) ||
  (!lbUnbound s p && (match letterInterval s p with
    | none => false
    | some i => decide (i + roundBound s p ≤ s.get (F.GATE_FRB_MS p) * 1000000)))

/-- The first condition of Table 10.6 that the state fails; `asStandby` has TEST 0x6 evaluated as a head office too (R297). -/
def firstFailing (asStandby : Bool) (s : State) : Option Nat :=
  if !loadOk s none 0 then some 1
  else if !hopOk s 1 then some 2
  else if !hopOk s 2 then some 3
  else if !hopOk s 3 then some 4
  else if !(bankOk s 0x77 (s.part 2) && [1, 2, 3].all (fun c => bankOk s 0x71 (upPart s c) && bankOk s 0x77 (upPart s c))) then some 5
  else if !(spaceAs s s.isHead && (!asStandby || spaceAs s true)) then some 6
  else if !(List.range 32).all (letterboxOk s) then some 7
  else none

/-- The first condition of Table 10.6 that the state fails. -/
def failingTest (s : State) : Option Nat := firstFailing false s

/-- The unit ID a refused change shows as its writer (R219): the test access port has none of R8, and 0xFF stands in SYS_DIAG alone; which
of the IDs 0x00 to 0x7F GATE_CHK shows for it is a free value. -/
def chkWriter (writer : Nat) (s : State) : Nat × State :=
  if writer < 0x80 then (writer, s) else let (n, s1) := s.free; (n % 128, s1)

/-- A refused change is recorded (R219). -/
def checkRefused (test writer addr : Nat) (s0 : State) : State :=
  let (w, s) := chkWriter writer s0
  let s1 := ((s.mark F.GATE_STAT_CHK_REF).put F.GATE_CHK_TEST test).put F.GATE_CHK_WRITER w
  dayPush 0x77 0x12 test addr (s1.put F.GATE_CHK_ADDR_ADDR addr)

/-- The configuration-write check (R217): the change `after` stands when every condition holds with it; else it has no
effect and `refused` sets the unit's own flag. -/
def checked (writer addr : Nat) (after : State) (commit refused : State → State) (s : State) : State :=
  match failingTest after with
  | none => commit s
  | some t => refused (checkRefused t writer addr s)

/-! Changes under the check. -/

/-- A write of an arbiter register, budget, LIMIT, field-report bound or LBCFG: `after` is the register file with the word. -/
def checkedWrite (writer addr : Nat) (v : Word) (s : State) : State :=
  checked writer addr (s.setReg addr v) (fun s => s.setReg addr v) id s

/-- The state with the other bank active and run by every port, for the check of a SWAP (R154). -/
def swapped (s : State) : State := forUpTo 32 (fun p t => t.putB (F.TTP_POS_BANK p) (!activeBank s)) (s.putB F.TT_STAT_ACTIVE (!activeBank s))

/-- TIMETABLE_SWAP (R151, R154). -/
def ttSwap (writer : Nat) (s : State) : State :=
  if s.flag F.TT_STAT_SWAP_PEND || s.flag F.TT_STAT_COPY_BUSY then s.mark F.TT_STAT_SWAP_REF
  else checked writer A.TT_CMD (swapped s) startSwap (fun s => s.mark F.TT_STAT_SWAP_REF) s

/-- SLOT_EDIT (R153, R154): TT_EDIT_LO and the written HI, into slot TT_EDIT_IDX of the active bank. -/
def slotEdit (writer : Nat) (hi : Word) (s : State) : State :=
  let v := (s.reg A.TT_EDIT_LO).toNat + hi.toNat * 2 ^ 32
  let i := s.get F.TT_EDIT_IDX_IDX
  if slotRefused s v then refuse writer A.TT_EDIT_HI s
  else
    if s.flag F.TT_STAT_EDIT_PEND || s.flag F.TT_STAT_SWAP_PEND then s.mark F.TT_STAT_EDIT_REF
    else checked writer A.TT_EDIT_HI (setSlot (activeBank s) i v s) (fun _ => startEdit i v s) (fun s => s.mark F.TT_STAT_EDIT_REF) s

/-- The first of causes 0x1 to 0x3 of Table 9.3 that keeps a chain from starting. -/
def startCause (s : State) (i : Nat) : Option Nat :=
  if s.flag (F.FC_CTRL_OPEN i) then some 1
  else if !s.flag (F.FC_MOD_EN (fcSrc s i)) then some 2
  else if !fcGrid s i && fcP s i < 263 then some 3
  else none

/-- A start is refused with a cause (Table 9.3). -/
def startRefused (i c : Nat) (s : State) : State := (s.mark (F.FC_STAT_START_REF i)).put (F.FC_STAT_CAUSE i) c

/-- A chain whose start passes runs at once, or once the device is up again. -/
def chainRun (i : Nat) (s : State) : State :=
  let s1 := s.mark (F.FC_CTRL_RUN i)
  if s1.quiet then s1 else chainBegin i s1

/-- CHAIN_START (R194): the first cause of Table 9.3 that holds refuses it. DESIGN CHOICE: in safe hold the write is ignored, and no cause is
shown, as the table has none for it. -/
def chainStart (writer i : Nat) (s : State) : State :=
  if s.flag (F.FC_CTRL_RUN i) || s.safe then s
  else match startCause s i with
    | some c => startRefused i c s
    | none => checked writer (A.FC_CTRL i) (s.mark (F.FC_CTRL_RUN i)) (chainRun i) (startRefused i 4) s

end Sys2Proof.Machine
end

