-- ==== Sys2Proof/Machine/Pace.lean ====
section
/-!
DEFINITION. The pace governor, the temperature sensor and the postmark read (03).
-/

namespace Sys2Proof.Machine

/-- The governor's unit ID. -/
def paceUnit : Nat := 0x7C

/-- The governor's PACE fault slot is valid (R48). -/
def paceFault (s : State) : Bool :=
  (priValid s paceUnit && s.get (F.SYS_FLT_PRI_CLASS paceUnit) == 4) || (secValid s paceUnit && s.get (F.SYS_FLT_SEC_CLASS paceUnit) == 4)

/-- The need code (R49): the lowest fused point whose value covers a need. -/
def needCode (need : Nat) : Nat := ((List.range 10).find? (fun k => need ≤ fusedPace k)).getD 9 * 10

/-- EFF_CAP (R48, R49). -/
def effCap (s : State) (need : Nat) : Nat :=
  if paceFault s || s.get F.PACE_POLICY_POLICY == 0 then 0x5A else max (s.get F.PACE_POLICY_VCAP) (needCode need)

/-- A loop step of R46: the new set-point and low_count. -/
def loopStep (setpoint low eff guard now need : Nat) : Nat × Nat :=
  let sp := min setpoint eff
  let target := need + (need * guard + 63) / 64
  if now < target then (min (sp + 8) eff, 0)
  else if target * 17 ≤ now * 16 then (if low + 1 = 64 then (sp - 1, 0) else (sp, low + 1))
  else (sp, 0)

/-- The governor's loop runs: RUN or DOZE, after LOGIC_OK, and the unit not in its reset (R46, R339). -/
def paceRuns (s : State) : Bool := s.pow.phase == .up && decide (s.pwr ≤ 1) && !s.flt.resets.contains paceUnit

/-- MEASUREMENT_WINDOW_END (R42, R46, R48, R49): a window of 256 periods ends with `count` handshakes. DESIGN CHOICE: a window is short by the
set-point it ran at against the need and the EFF_CAP of the step that ends it, and the fault of its onset lifts EFF_CAP from the next step on;
the spec does not say which step's figures it means. -/
def windowEnd (count : Nat) (s : State) : State :=
  if !paceRuns s then s
  else
    let now := satTo 0xFFFF (count * 65536 / 1000000)
    let need := paceNeed s none 0
    let old := s.get F.PACE_VCORE_SETPOINT
    let eff := effCap s need
    let cap := s.get F.PACE_POLICY_POLICY == 1
    let (sp, low) := loopStep old s.pace.lowCount eff (s.get F.PACE_POLICY_GUARD) now need
    let short := decide (now < need) && old == eff
    let onset := short && !s.pace.prevShort
    let s1 := (((s.put F.PACE_NOW_NOW now).put F.PACE_VCORE_NEED_CODE (needCode need)).put F.PACE_VCORE_EFF_CAP eff).put F.PACE_VCORE_SETPOINT sp
    let s2 := (s1.putB F.PACE_STAT_CAP_HELD (cap && (paceFault s || decide (s.get F.PACE_POLICY_VCAP < needCode need)))).putB F.PACE_STAT_RAMPING (decide (old < sp))
    let s3 := if short then s2.mark F.PACE_STAT_SHORT else s2
    let s4 := { s3 with pace := { s3.pace with
      lowCount := low, prevShort := short, polUsed := s.get F.PACE_POLICY_POLICY, vcapUsed := s.get F.PACE_POLICY_VCAP } }
    if onset then raiseFault paceUnit 4 1 0 s4 else s4

/-- The sensor reads (R52): from OSC_OK on, in RUN, DOZE and during an exit. -/
def sensorRuns (s : State) : Bool :=
  s.flag F.PWR_STAT_OSC_OK && (s.pow.phase != .up || decide (s.pwr ≤ 1)) &&
  [Phase.straps, .memory, .records, .logic, .up].contains s.pow.phase

/-- A reading rises to or above LIMIT (R52): TJ_HI is set, and the event goes once for each fall below LIMIT − 8. -/
def crossed (code : Int) (s : State) : State :=
  let s1 := s.mark F.PACE_STAT_TJ_HI
  if s.pace.armed then pmEvent 0x3A (ofSigned 24 (code * 25)) 0x01 0 paceUnit s1 else s1

/-- TEMPERATURE_UPDATE (R52, R53): a reading of the sensor in units of 0.25 °C. DESIGN CHOICE: of a streak of readings at +135 °C or above the
second alone sets TRIP and raises the fault, even where software clears TRIP while the streak lasts. -/
def temperatureUpdate (t : Int) (s : State) : State :=
  if !sensorRuns s then s
  else
    let code : Int := if t < -220 then -220 else if 600 < t then 600 else t
    let lim := toSigned 16 (s.get F.PACE_TEMP_HI_LIMIT)
    let s1 := s.put F.PACE_TEMP_TEMP (ofSigned 16 code)
    let s2 := { (if lim ≤ code ∧ s1.pace.below then crossed code s1 else s1) with pace := { s1.pace with
      below := decide (code < lim)
      armed := decide (code < lim - 8) || (s1.pace.armed && decide (code < lim)) } }
    let run := if 540 ≤ code then satTo 3 (s2.pace.hotRun + 1) else 0
    let s3 := { s2 with pace := { s2.pace with hotRun := run } }
    if run = 2 then raiseFault paceUnit 5 1 0 (s3.mark F.PACE_STAT_TRIP) else s3

/-- A read of SYS_PM_LO (R55) latches the high half. -/
def postmarkRead (s : State) : Nat × State := (s.pm % 2 ^ 32, s.setReg A.SYS_PM_HI (BitVec.ofNat 32 (s.pm / 2 ^ 32)))

end Sys2Proof.Machine
end

