-- ==== Sys2Proof/Machine/Cores.lean ====
section
/-!
DEFINITION. Programs, seal records, starting and stopping a core, and access to its private memory (11, R240, R242, R246,
R247, R249, R250).
-/

namespace Sys2Proof.Machine

/-! Program headers (Table 11.6), read through a view of private memory. -/

def viewNum (m : Nat → Byte) (a n : Nat) : Nat := ofLe ((List.range n).map (fun i => m (a + i)))

structure Header where
  magic     : Nat
  entry     : Nat
  budget    : Nat
  trapSteps : Nat
  length    : Nat
  sealBase  : Nat
  sealLines : Nat
  crc       : Nat
  deriving DecidableEq, Repr

def headerOf (m : Nat → Byte) : Header :=
  ⟨viewNum m 0 2, viewNum m 2 2, viewNum m 4 4, viewNum m 8 2, viewNum m 10 2, viewNum m 12 2, viewNum m 14 1, viewNum m 16 4⟩

/-- Bits the header reserves (Table 11.6). -/
def headerReserved (m : Nat → Byte) : Bool := m 7 != 0 || m 15 != 0

/-- Bytes the vector page reserves (R242). -/
def vectorReserved (m : Nat → Byte) : Bool := (List.range 244).any (fun i => m (0xFF0C + i) != 0)

/-- A valid header (R240). -/
def headerOk (m : Nat → Byte) : Bool :=
  let h := headerOf m
  h.magic == 0x5053 && !headerReserved m &&
  decide (20 ≤ h.length ∧ h.length ≤ 32768) && decide (0x14 ≤ h.entry ∧ h.entry < h.length) &&
  decide (1 ≤ h.budget) && decide (1 ≤ h.trapSteps) && decide (h.sealLines ≤ 4) &&
  decide (h.length ≤ h.sealBase ∧ h.sealBase + 64 * h.sealLines ≤ 0x8000) &&
  (List.range 6).all (fun v => decide (0x14 ≤ viewNum m (0xFF00 + 2 * v) 2 ∧ viewNum m (0xFF00 + 2 * v) 2 < h.length)) &&
  crc32 ((List.range (h.length - 20)).map (fun i => m (20 + i))) == h.crc

/-- The registers at a program's ENTRY (R227). -/
def entryRegs (h : Header) : CoreRegs := { noRegs with pc := BitVec.ofNat 16 h.entry }

/-! Seal records (R246). The byte layout is the model's (R427 leaves it to the device). -/

def sealSlot (c : Nat) : Nat := 0x03CB0000 + 0x1000 * c

/-- The fields of the record: registers, window base, PC, records taken, the program's CRC. -/
def sealFields (k : Core) : List Byte :=
  [k.r.a, k.r.x, k.r.y, k.r.fl] ++ leBytes 2 k.r.p.toNat ++ leBytes 2 k.r.q.toNat ++ leBytes 2 k.r.sp.toNat ++
  leBytes 2 k.r.cnt.toNat ++ leBytes 4 k.winBase ++ leBytes 2 k.r.pc.toNat ++ leBytes 2 k.taken.length ++
  leBytes 4 (headerOf k.priv).crc

/-- The record's lines: the first with its check, then the seal region. -/
def sealLines (c : Nat) (k : Core) : List (Nat × List Byte) :=
  let h := headerOf k.priv
  let region := (List.range (64 * h.sealLines)).map (fun i => k.priv (h.sealBase + i))
  let f := sealFields k
  let first := padTo 64 (f ++ leBytes 4 (crc32 (f ++ region)))
  (sealSlot c, first) :: (List.range h.sealLines).map (fun j => (sealSlot c + 64 * (j + 1), (region.drop (64 * j)).take 64))

/-- A write that makes the record not valid is held (R71). -/
def sealVoided (s : State) (c : Nat) : Bool := s.ledg.held.any (fun h => match h with | .write u a _ _ => u == 0x7A && a == sealSlot c | .commit _ => false)

/-- A valid seal record (R247): readable, with its own check, made under the program now in private memory. -/
def sealValid (s : State) (c : Nat) (k : Core) : Bool :=
  let h := headerOf k.priv
  let b := s.bytes (sealSlot c) (64 * (1 + h.sealLines))
  !sealVoided s c && !((List.range (1 + h.sealLines)).any (fun j => poisonAt s (sealSlot c + 64 * j))) &&
  recNum b 22 4 == h.crc && crc32 (b.take 26 ++ b.drop 64) == recNum b 26 4

/-- A poisoned line of the record raises the ledger controller's fault (R247, R64). -/
def sealRead (c n : Nat) (s : State) : State := forUpTo n (fun j s => readEffect (sealSlot c + 64 * j) s) s

/-- Restore what a seal record holds (R247). -/
def restoreSeal (b : List Byte) (k : Core) : Core :=
  let h := headerOf k.priv
  let k1 := forUpTo (64 * h.sealLines) (fun i k => k.setPriv (h.sealBase + i) (b.getD (64 + i) 0#8)) k
  { k1 with
    r := ⟨b.getD 0 0#8, b.getD 1 0#8, b.getD 2 0#8, BitVec.ofNat 16 (recNum b 4 2), BitVec.ofNat 16 (recNum b 6 2),
      BitVec.ofNat 16 (recNum b 8 2), BitVec.ofNat 16 (recNum b 16 2), BitVec.ofNat 16 (recNum b 10 2), b.getD 3 0#8⟩
    winBase := recNum b 12 4
    stage0 := BitVec.ofNat 8 (recNum b 12 4 / 2 ^ 14)
    stage1 := BitVec.ofNat 8 (recNum b 12 4 / 2 ^ 22) }

/-- SEALED follows the record and the program (R242, Table 11.11). -/
def refreshSealed (c : Nat) (s : State) : State :=
  match s.core c with
  | none => s
  | some k => s.putB (F.SRT_STAT_SEALED c) (sealValid s c k)

/-- A core's seal record is made not valid (R242, R249): its first line is written with zeros, which R71 may hold. -/
def voidSeal (c : Nat) (s : State) : State := (directWrite 0x7A (sealSlot c) (List.replicate 64 0#8) s).put (F.SRT_STAT_SEALED c) 0

/-- Discard a core's seal record, and the count k (R249). -/
def discardSeal (c : Nat) (s : State) : State :=
  let s1 := voidSeal c s
  { s1 with gate := { s1.gate with kCount := upd s1.gate.kCount c (fun _ => 0), kSkip := upd s1.gate.kSkip c (fun _ => 0) } }

/-! Starting and stopping. -/

/-- A core whose program is running afresh: what every start sets (R227, R229, R241). -/
def freshRun (h : Header) (k : Core) : Core :=
  { k with
    r := entryRegs h, steps := 0, trapSteps := h.trapSteps, series := .idle, entries := [], winBase := 0, stage0 := 0, stage1 := 0
    queue := k.taken ++ k.queue, taken := [], ltrOut := false, commitHold := false, spec := none }

/-- The core starts under R247; a pending halt holds it before its first instruction (R252). -/
def startCore (c : Nat) (s : State) : State :=
  match s.core c with
  | none => s
  | some k =>
    let h := headerOf k.priv
    let ok := sealValid s c k
    let n := 1 + h.sealLines
    let b := s.bytes (sealSlot c) (64 * n)
    let s1 := sealRead c n s
    let k1 := freshRun h k
    let k2 := if ok then { restoreSeal b k1 with sealRes := true } else k1
    let s2 := s1.modCore c (fun _ => { k2 with haltPend := false, wasWaiting := false })
    let s3 := (((s2.putB (F.SRT_STAT_SEALED c) ok).put (F.SRT_STAT_TDEPTH c) 0).put (F.SRT_STAT_SPEC_ON c) 0).put (F.SRT_BUDGET_BUDGET c) h.budget
    let s4 := s3.put (F.SRT_STAT_STATE c) (if k.haltPend then stHalted else stRunning)
    let s5 := s4.mark (F.SRT_CTRL_RUN c)
    if ok then
      let s6 := s5.mark (F.SRT_STAT_RESUMED c)
      { s6 with gate := { s6.gate with kSkip := upd s6.gate.kSkip c (fun _ => nth s6.gate.kCount c 0) } }
    else
      { s5 with gate := { s5.gate with kCount := upd s5.gate.kCount c (fun _ => 0), kSkip := upd s5.gate.kSkip c (fun _ => 0) } }

/-- Nothing keeps a core from starting: the device is up, not in safe hold, and the core neither held nor in its reset. -/
def coreMayStart (s : State) (c : Nat) : Bool :=
  s.pow.phase == .up && !s.safe && !s.isHeld c && !s.flt.resets.contains c && !s.flag F.SYS_RMAP_STAT_WAITING

/-- CORE_START (R249): refused for a header that is not valid. While something keeps the core from starting, RUN alone is set. -/
def coreStart (c : Nat) (s : State) : State :=
  match s.core c with
  | none => s
  | some k =>
    if s.flag (F.SRT_CTRL_RUN c) then s
    else if !headerOk k.priv then s.mark (F.SRT_STAT_HDR_BAD c)
    else if !coreMayStart s c || s.get (F.SRT_STAT_STATE c) != stStopped then s.mark (F.SRT_CTRL_RUN c)
    else startCore c s

/-- The core stops: STATE reads stopped. -/
def haltRun (c : Nat) (s : State) : State := (cancelSpec c s).put (F.SRT_STAT_STATE c) stStopped

/-- A stop asked for takes place once nothing of R249 is in progress. -/
def settleStop (c : Nat) (s : State) : State :=
  match s.core c with
  | none => s
  | some k =>
    if s.flag (F.SRT_CTRL_RUN c) || s.get (F.SRT_STAT_STATE c) == stStopped || k.ltrOut || k.commitHold then s else haltRun c s

/-- CORE_STOP (R249). -/
def coreStop (c : Nat) (s : State) : State := settleStop c (cancelSpec c (s.put (F.SRT_CTRL_RUN c) 0))

/-- CORE_FRESH (R249). -/
def coreFresh (c : Nat) (s : State) : State :=
  if s.get (F.SRT_STAT_STATE c) = stStopped then discardSeal c s else s

/-- A core's reset (Table 18.3): what it had begun is gone, then it starts from its seal if RUN is 1. -/
def coreReset (c : Nat) (s : State) : State :=
  match s.core c with
  | none => s
  | some k =>
    let s1 := (dropTxn c (cancelSpec c s)).put (F.SRT_STAT_STATE c) stStopped
    let s2 := { s1 with gate := { s1.gate with offers := s1.gate.offers.filter (fun o => o.unit != c) } }
    let s3 := s2.modCore c (fun k => { k with ltrOut := false, commitHold := false })
    if !headerOk k.priv then s3.put (F.SRT_CTRL_RUN c) 0
    else if s3.flag (F.SRT_CTRL_RUN c) && coreMayStart s3 c then startCore c s3 else s3

/-! Loading (R242, R250). -/

/-- A program payload as private memory and vector page. -/
def programView (b : List Byte) (a : Nat) : Byte :=
  if a < 0x8000 then (if a < viewNum (fun i => b.getD (256 + i) 0#8) 10 2 then b.getD (256 + a) 0#8 else 0#8)
  else if 0xFF00 ≤ a then b.getD (a - 0xFF00) 0#8 else 0#8

/-- Load a program section into a core (R242): private memory beyond the image is 0, and a seal record made under another program is
not valid from then on. -/
def loadProgram (c : Nat) (b : List Byte) (s : State) : State :=
  let n := viewNum (fun i => b.getD (256 + i) 0#8) 10 2
  let cells (a0 : Nat) (l : List Byte) : List (Nat × Byte) :=
    ((List.range l.length).map (fun i => (a0 + i, l.getD i 0#8))).filter (fun e => e.2 != 0#8)
  let mem := cells 0 ((b.drop 256).take n) ++ cells 0xFF00 (b.take 256)
  let crc := (headerOf (programView b)).crc
  let other := (s.core c).any (fun k => !k.mem.isEmpty && (headerOf k.priv).crc != crc)
  let line := s.bytes (sealSlot c) 64
  let s0 := if line.any (· != 0#8) && (other || recNum line 22 4 != crc) then voidSeal c s else s
  let s1 := s0.modCore c (fun k => { k with mem := mem, memBad := [] })
  refreshSealed c (s1.put (F.SRT_BUDGET_BUDGET c) (headerOf (programView b)).budget)

/-- The next MADDR (R250). -/
def nextMaddr (a : Nat) : Nat := if a = 0x7FFF then 0xFF00 else if a = 0xFFFF then 0 else a + 1

/-- CORE_MEMORY_WRITE (R250). -/
def coreMemWrite (c : Nat) (v : Byte) (s : State) : State :=
  if s.get (F.SRT_STAT_STATE c) ≠ stStopped then s.mark (F.SRT_STAT_MEM_REF c)
  else
    let a := s.get (F.SRT_MADDR_ADDR c)
    (s.modCore c (fun k => k.setPriv a v)).put (F.SRT_MADDR_ADDR c) (nextMaddr a)

/-- CORE_MEMORY_READ (R250): the byte, and the state with ADDR advanced. -/
def coreMemRead (c : Nat) (s : State) : Nat × State :=
  match s.core c with
  | none => (0, s)
  | some k =>
    let a := s.get (F.SRT_MADDR_ADDR c)
    ((k.committed.priv a).toNat, s.put (F.SRT_MADDR_ADDR c) (nextMaddr a))

end Sys2Proof.Machine
end

