-- ==== Sys2Proof/Machine/Sha256.lean ====
section
/-!
DEFINITION. SHA-256 (02, R28), the digest of a signed envelope and of its public key. Its constants are computed from the first primes.
-/

namespace Sys2Proof.Machine

/-- The largest number below 2^n, beyond `r`, whose k-th power does not exceed `x`: bit by bit from the top. -/
def rootBits (k x : Nat) : Nat → Nat → Nat
  | 0, r => r
  | n + 1, r => rootBits k x n (if (r + 2 ^ n) ^ k ≤ x then r + 2 ^ n else r)

/-- 32 bits of the fraction of a prime's k-th root. -/
def rootFraction (k q : Nat) : Nat := rootBits k (q * 2 ^ (32 * k)) 40 0 % 2 ^ 32

def isPrime (q : Nat) : Bool := decide (2 ≤ q) && (List.range 16).all (fun d => d + 2 == q || q % (d + 2) != 0)
/-- The 64 primes up to 311. -/
def shaPrimes : List Nat := (List.range 312).filter isPrime

/-- `x` rotations right in 32 bits by each of the distances, the results added bitwise. -/
def rotations (ds : List Nat) (x : Nat) : Nat := ds.foldl (fun y d => y ^^^ (x * 0x100000001 / 2 ^ d % 2 ^ 32)) 0

def sum32 (l : List Nat) : Nat := l.sum % 2 ^ 32

/-- The message schedule, newest word first, grown by `n` words. -/
def shaSchedule : Nat → List Nat → List Nat
  | 0, w => w
  | n + 1, w =>
    let at_ (i : Nat) := w.getD (i - 1) 0
    shaSchedule n (sum32 [at_ 16, rotations [7, 18] (at_ 15) ^^^ at_ 15 / 8, at_ 7, rotations [17, 19] (at_ 2) ^^^ at_ 2 / 1024] :: w)

/-- One round on the eight working words; `kw` is its constant and its schedule word added. -/
def shaRound (v : List Nat) (kw : Nat) : List Nat :=
  match v with
  | [a, b, c, d, e, f, g, h] =>
    let t := h + rotations [6, 11, 25] e + (g ^^^ (e &&& (f ^^^ g))) + kw
    [sum32 [t, rotations [2, 13, 22] a, (a &&& b) ||| (c &&& (a ||| b))], a, b, c, sum32 [d, t], e, f, g]
  | _ => v

/-- Words of four bytes, most significant first. -/
def beWords : List Byte → List Nat
  | a :: b :: c :: d :: t => (((a.toNat * 256 + b.toNat) * 256 + c.toNat) * 256 + d.toNat) :: beWords t
  | _ => []

/-- The digest so far, with blocks of 64 bytes to come. -/
def shaBlocks : Nat → List Byte → List Nat → List Nat
  | 0, _, v => v
  | n + 1, m, v =>
    let ws := (shaSchedule 48 (beWords (m.take 64)).reverse).reverse
    let r := (List.zipWith (fun q w => rootFraction 3 q + w) shaPrimes ws).foldl shaRound v
    shaBlocks n (m.drop 64) (List.zipWith (fun x y => sum32 [x, y]) v r)

/-- The message with its end mark and its length in bits, in whole blocks. -/
def shaPad (m : List Byte) : List Byte :=
  m ++ [0x80#8] ++ List.replicate ((119 - m.length % 64) % 64) 0#8 ++ (leBytes 8 (8 * m.length)).reverse

/-- The 32-byte digest as a number, most significant byte first. -/
def sha256 (m : List Byte) : Nat :=
  (shaBlocks ((shaPad m).length / 64) (shaPad m) ((shaPrimes.take 8).map (rootFraction 2))).foldl (fun x w => x * 2 ^ 32 + w) 0

end Sys2Proof.Machine
end

