-- ==== Sys2Proof/Machine/Ecdsa.lean ====
section
/-!
DEFINITION. ECDSA verification over curve P-256 on a SHA-256 digest (02, R28). The curve's parameters are its published
standard ones, which R28 names by the curve's name.
-/

namespace Sys2Proof.Machine

/-- The field prime, the group order, the coefficient b and the base point of P-256. -/
def ecP : Nat := 0xFFFFFFFF00000001000000000000000000000000FFFFFFFFFFFFFFFFFFFFFFFF
def ecN : Nat := 0xFFFFFFFF00000000FFFFFFFFFFFFFFFFBCE6FAADA7179E84F3B9CAC2FC632551
def ecB : Nat := 0x5AC635D8AA3A93E7B3EBBD55769886BC651D06B0CC53B0F63BCE3C3E27D2604B
def ecGx : Nat := 0x6B17D1F2E12C4247F8BCE6E563A440F277037D812DEB33A0F4A13945D898C296
def ecGy : Nat := 0x4FE342E2FE1A7F9B8EE7EB4A7C0F9E162BCE33576B315ECECBB6406837BF51F5

/-- A power modulo `m`, over the low `n` bits of the exponent. -/
def powMod (m : Nat) : Nat → Nat → Nat → Nat
  | 0, _, _ => 1 % m
  | n + 1, b, e =>
    let r := powMod m n (b * b % m) (e / 2)
    if e % 2 = 1 then r * b % m else r

/-- The inverse modulo a prime. -/
def invMod (m a : Nat) : Nat := powMod m 256 (a % m) (m - 2)

/-- A difference in the field. -/
def fSub (a b : Nat) : Nat := (a + ecP - b % ecP) % ecP

/-- A point of the curve in Jacobian coordinates; z = 0 is the point at infinity. -/
structure EcPt where
  x : Nat
  y : Nat
  z : Nat

def ecInf : EcPt := ⟨1, 1, 0⟩

/-- Twice a point. -/
def ecDbl (p : EcPt) : EcPt :=
  if p.z = 0 ∨ p.y = 0 then ecInf
  else
    let z2 := p.z * p.z % ecP
    let m := 3 * fSub p.x z2 * (p.x + z2) % ecP
    let y2 := p.y * p.y % ecP
    let s := 4 * p.x * y2 % ecP
    let x := fSub (m * m) (2 * s)
    ⟨x, fSub (m * fSub s x) (8 * y2 * y2), 2 * p.y * p.z % ecP⟩

/-- The sum of two points. -/
def ecAdd (p q : EcPt) : EcPt :=
  if p.z = 0 then q
  else if q.z = 0 then p
  else
    let pz := p.z * p.z % ecP
    let qz := q.z * q.z % ecP
    let u1 := p.x * qz % ecP
    let u2 := q.x * pz % ecP
    let s1 := p.y * qz * q.z % ecP
    let s2 := q.y * pz * p.z % ecP
    if u1 = u2 then (if s1 = s2 then ecDbl p else ecInf)
    else
      let h := fSub u2 u1
      let r := fSub s2 s1
      let h2 := h * h % ecP
      let h3 := h2 * h % ecP
      let v := u1 * h2 % ecP
      let x := fSub (fSub (r * r) h3) (2 * v)
      ⟨x, fSub (r * fSub v x) (s1 * h3), p.z * q.z * h % ecP⟩

/-- A multiple of a point, over the low `n` bits of the factor. -/
def ecMul : Nat → Nat → EcPt → EcPt
  | 0, _, _ => ecInf
  | n + 1, k, p =>
    let r := ecMul n (k / 2) (ecDbl p)
    if k % 2 = 1 then ecAdd r p else r

/-- A public key is a point of the curve. -/
def onCurve (x y : Nat) : Bool := x < ecP && y < ecP && y * y % ecP == fSub (x * x * x + ecB) (3 * x)

/-- Whether (r, s) is a valid signature of the digest `e` under the key (x, y). -/
def ecdsaOk (x y e r s : Nat) : Bool :=
  if r = 0 ∨ ecN ≤ r ∨ s = 0 ∨ ecN ≤ s ∨ !onCurve x y then false
  else
    let w := invMod ecN s
    let p := ecAdd (ecMul 256 (e * w % ecN) ⟨ecGx, ecGy, 1⟩) (ecMul 256 (r * w % ecN) ⟨x, y, 1⟩)
    if p.z = 0 then false
    else
      let zi := invMod ecP p.z
      p.x * zi % ecP * zi % ecP % ecN == r

end Sys2Proof.Machine
end

