-- ==== Sys2Proof/Machine/Timer.lean ====
section
/-!
DEFINITION. The timers block (15): stepping, matches, wraps, captures, preloads and forces.
-/

namespace Sys2Proof.Machine

def State.timer (s : State) (u : Nat) : TimerUnit := nth s.tmr.units u idleTimer
def State.modTimer (s : State) (u : Nat) (f : TimerUnit → TimerUnit) : State := { s with tmr := { s.tmr with units := upd s.tmr.units u f } }

/-- Fields of a channel: true is channel B. -/
def tmrMode (s : State) (u : Nat) (b : Bool) : Nat := s.get (if b then F.TMR_CHCFG_MODEB u else F.TMR_CHCFG_MODEA u)
def tmrAct (s : State) (u : Nat) (b : Bool) : Nat := s.get (if b then F.TMR_CHCFG_ACTB u else F.TMR_CHCFG_ACTA u)
def tmrWact (s : State) (u : Nat) (b : Bool) : Nat := s.get (if b then F.TMR_CHCFG_WACTB u else F.TMR_CHCFG_WACTA u)
def tmrOut (u : Nat) (b : Bool) : Fd := if b then F.TMR_STAT_OUTB u else F.TMR_STAT_OUTA u
def tmrCmp (s : State) (u : Nat) (b : Bool) : Nat := if b then (s.timer u).cmpB else (s.timer u).cmpA
def tmrRuns (s : State) (u : Nat) : Bool := s.flag (F.TMR_CTRL_RUN u)

/-- TIMER_EVENT (R334, Table 16.7): the condition's bit of EVEN, moved to [5:0]. -/
def tmrEvent (u cond : Nat) (s : State) : State :=
  if !bit (s.get (F.TMR_CTRL_EVEN u)) cond then s
  else if coreAccepts 0 s then pmEvent 0x3C (2 ^ cond) 0 u 0x7D s
  else s.mark (F.TMR_STAT_EVLOST u)

/-- An action code on a latch (R329): 1 high, 2 low, 3 toggle. -/
def latchAct (u : Nat) (b : Bool) (code : Nat) (s : State) : State :=
  if code = 1 then s.put (tmrOut u b) 1
  else if code = 2 then s.put (tmrOut u b) 0
  else if code = 3 then s.put (tmrOut u b) (1 - s.get (tmrOut u b))
  else s

/-- match(ch) of R325: in compare mode the channel's latch acts (R329); the flag and the event follow. -/
def tmrMatch (u : Nat) (b : Bool) (s : State) : State :=
  tmrEvent u (b2n b) ((if tmrMode s u b = 1 then latchAct u b (tmrAct s u b) s else s).mark (F.TMR_STAT_MATCH u))

/-- wrap() of R326; a wrap of a unit PWR_TWAKE names is a wake source (Table 16.5). -/
def tmrWrap (u : Nat) (s : State) : State :=
  let s1 := s.modTimer u (fun t => { t with top := s.get (F.TMR_TOP_TOP u), cmpA := s.get (F.TMR_CMPA_CMP u), cmpB := s.get (F.TMR_CMPB_CMP u) })
  let s2 := s1.mark (F.TMR_STAT_WRAP u)
  let wact := fun (b : Bool) (s : State) => if tmrMode s u b = 1 then latchAct u b (tmrWact s u b) s else s
  let wakes := bit (s.get F.PWR_TWAKE_UNITS) u
  let s3 := wact true (wact false s2)
  let s4 := tmrEvent u 5 (if wakes then wakeNoted 4 s3 else s3)
  if wakes then wakeRecognised 4 s4 else s4

/-- Both channels in order, each under its condition. -/
def bothCh (f : Bool → State → State) (s : State) : State := f true (f false s)

/-- `n` counts gained by a unit (R325). -/
def tmrGain (u n : Nat) (s : State) : State :=
  let top := (s.timer u).top
  let c := min (s.get (F.TMR_COUNT_COUNT u)) top
  let v := c + n
  let s1 := bothCh (fun b s => if c < tmrCmp s u b ∧ tmrCmp s u b ≤ min v top then tmrMatch u b s else s) s
  if top < v then
    let k := (v - top - 1) % (top + 1)
    let s2 := tmrWrap u (s1.put (F.TMR_COUNT_COUNT u) k)
    bothCh (fun b s => if tmrCmp s u b ≤ k then tmrMatch u b s else s) s2
  else s1.put (F.TMR_COUNT_COUNT u) v

/-- step(d) of R325. -/
def tmrStep (u d : Nat) (s : State) : State :=
  let ps := 2 ^ s.get (F.TMR_CTRL_PS u)
  let t := (s.timer u).residue + d
  let s1 := s.modTimer u (fun x => { x with residue := t % ps })
  if t / ps = 0 then s1 else tmrGain u (t / ps) s1

/-- Low-frequency stepping (R325, R356): the timebase's own, or a debug halt of the postmaster with DBGLF 1 once XLO_OK. -/
def tmrLf (s : State) (u : Nat) : Bool :=
  s.pow.lowFreq || (s.get (F.SRT_STAT_STATE 0) == stHalted && s.flag (F.TMR_CTRL_DBGLF u) && s.flag F.SYS_RST_STAT_XLO_OK)

/-- TIMER_MATCH: a running unit's count reaches the active compare value of a channel before the next wrap (R325). -/
def timerMatch (u : Nat) (b : Bool) (s : State) : State :=
  let c := min (s.get (F.TMR_COUNT_COUNT u)) (s.timer u).top
  let v := tmrCmp s u b
  if 16 ≤ u || !tmrRuns s u || v ≤ c || (s.timer u).top < v then s
  else tmrGain u (v - c) (s.modTimer u (fun x => { x with residue := 0 }))

/-- TIMER_WRAP: a running unit's count passes TOP (R325, R326). -/
def timerWrap (u : Nat) (s : State) : State :=
  let t := (s.timer u).top
  if 16 ≤ u || !tmrRuns s u then s
  else tmrGain u (t + 1 - min (s.get (F.TMR_COUNT_COUNT u)) t) (s.modTimer u (fun x => { x with residue := 0 }))

/-! The timer pins (19, R395, Table 19.4). -/

/-- What a pin does: it is driven to a level, with a clock, with a link's symbols or with the bytes of a command, a link's pair stands at common
mode or terminated, a line of the two-wire bus is low or released as the bus asks, or the pin is released with a pull or without one. -/
inductive Drive where
  | low | high | clock | symbols | common | bus | openDrain | terminated | pullDown | pullUp | highZ
  deriving DecidableEq, Repr

def driven (b : Bool) : Drive := if b then .high else .low

/-- PINS gives timer pin k to the timers block (R393, R395); the pads keep it in DEEP (Table 19.4). -/
def pinGiven (s : State) (k : Nat) : Bool := bit (recNum s.rmap.pins 0 4) k

/-- TMPULL of pin k (Table 19.5): true is a pull-up. -/
def pinPull (s : State) (k : Nat) : Bool := bit (recNum s.rmap.pins 4 4) k

/-- The timer pins are under their units' control: from LOGIC_OK until the next logic reset, DEEP included (Table 19.4). -/
def pinsLive (s : State) : Bool :=
  (s.pow.phase == .up || s.pow.start == .deep || s.pow.start == .hush) && !s.flag F.SYS_RMAP_STAT_WAITING

/-- Timer pin k (R333, R393, R395): its pull stands while the block does not drive it. -/
def timerPin (s : State) (k : Nat) : Drive :=
  let pull : Drive := if pinPull s k then .pullUp else .pullDown
  if !pinsLive s then .pullDown
  else if !pinGiven s k then pull
  else if s.tmr.safePins.contains k then
    match bits (ofLe s.rmap.safeLevels) (2 * k) 2 with
    | 1 => .high
    | 2 => pull
    | _ => .low
  else if tmrMode s (k / 2) (bit k 0) = 1 then driven (s.flag (tmrOut (k / 2) (bit k 0)))
  else pull

/-! Capture (R330, R331). -/

def tmrFilt (s : State) (u : Nat) (b : Bool) : Nat := s.get (if b then F.TMR_CHCFG_FILTB u else F.TMR_CHCFG_FILTA u)
/-- INx: the filtered level. -/
def tmrIn (u : Nat) (b : Bool) : Fd := if b then F.TMR_STAT_INB u else F.TMR_STAT_INA u
def TimerUnit.pin (t : TimerUnit) (b : Bool) : Bool := if b then t.pinB else t.pinA
def TimerUnit.run (t : TimerUnit) (b : Bool) : Nat := if b then t.runB else t.runA
def TimerUnit.setPin (t : TimerUnit) (b v : Bool) : TimerUnit := if b then { t with pinB := v } else { t with pinA := v }
def TimerUnit.setRun (t : TimerUnit) (b : Bool) (n : Nat) : TimerUnit := if b then { t with runB := n } else { t with runA := n }

/-- The filtered level of a pin moves (R330, R331): a selected edge of a running unit in capture mode is stored. -/
def levelMoves (u : Nat) (b rising : Bool) (s : State) : State :=
  let full := if b then F.TMR_STAT_FULLB u else F.TMR_STAT_FULLA u
  let ovr := if b then F.TMR_STAT_OVRB u else F.TMR_STAT_OVRA u
  let cap := if b then F.TMR_CAPB_CAP u else F.TMR_CAPA_CAP u
  let s1 := (s.putB (tmrIn u b) rising).modTimer u (fun t => t.setRun b 0)
  if tmrMode s u b ≠ 2 ∨ !tmrRuns s u ∨ !bit (tmrAct s u b) (if rising then 0 else 1) then s1
  else
    let s2 := s1.put cap (s.get (F.TMR_COUNT_COUNT u))
    let s3 := tmrEvent u (2 + b2n b) (s2.mark full)
    if s.flag full then tmrEvent u 4 (s3.mark ovr) else s3

/-- CAPTURE_EDGE (R330): the level of a pin moves. With FILTx 0 the channel recognises it; else it does once the level has stood for FILTx samples. -/
def captureEdge (u : Nat) (b rising : Bool) (s : State) : State :=
  if 16 ≤ u || !pinGiven s (2 * u + b2n b) then s
  else
    let s1 := s.modTimer u (fun t => t.setPin b rising)
    if tmrMode s u b = 2 ∧ tmrFilt s u b ≠ 0 then s1 else levelMoves u b rising s1

/-- A channel in capture mode samples its pin (R330): a level that has stood away from the filtered one for FILTx periods is recognised; a shorter
pulse is discarded. -/
def samplePin (u : Nat) (b : Bool) (s : State) : State :=
  let f := tmrFilt s u b
  if tmrMode s u b ≠ 2 ∨ f = 0 then s
  else
    let t := s.timer u
    if t.pin b = s.flag (tmrIn u b) then s.modTimer u (fun t => t.setRun b 0)
    else if f ≤ t.run b + 1 then levelMoves u b (t.pin b) s
    else s.modTimer u (fun t => t.setRun b (t.run b + 1))

/-- A period of a unit's stepping clock: a running unit steps by `d`, and then its pins are sampled (R325, R330). -/
def tmrPeriod (u d : Nat) (s : State) : State := bothCh (samplePin u) (if tmrRuns s u then tmrStep u d s else s)

/-- One period of the reference, or of the crystal in low-frequency mode, for every unit. -/
def timersTick (s : State) : State :=
  if s.pow.lowFreq then forUpTo 16 (fun u s => tmrPeriod u 512 s) s
  else
    let n := s.tmr.lfPhase + 1
    let s1 := { s with tmr := { s.tmr with lfPhase := n % 512 } }
    forUpTo 16 (fun u s => if tmrLf s u then (if n = 512 then tmrPeriod u 512 s else s) else tmrPeriod u 1 s) s1

/-- The level a channel shows of its pin (R337, R395): its pull where PINS does not give it, what the block drives, or the filtered level. -/
def pinSeen (s : State) (u : Nat) (b : Bool) : Bool :=
  let k := 2 * u + b2n b
  if !pinGiven s k then pinPull s k
  else match timerPin s k with
    | .low => false
    | .high => true
    | _ => s.flag (tmrIn u b)

/-- STAT.LF, the PEND flags and the pin levels as they stand (R325, R327, R395). -/
def tmrStatView (s : State) (u : Nat) (w : Nat) : Nat :=
  let t := s.timer u
  let v := setBits (setBits w 8 1 (b2n (pinSeen s u false))) 9 1 (b2n (pinSeen s u true))
  setBits (setBits (setBits (setBits v 13 1 (b2n (tmrLf s u)))
    12 1 (b2n (t.top != s.get (F.TMR_TOP_TOP u)))) 11 1 (b2n (t.cmpB != s.get (F.TMR_CMPB_CMP u)))) 10 1 (b2n (t.cmpA != s.get (F.TMR_CMPA_CMP u)))

/-- CAPTURE_READ (R330, R331): the value, and the state with FULLx cleared. -/
def captureRead (u : Nat) (b : Bool) (s : State) : Nat × State :=
  (s.get (if b then F.TMR_CAPB_CAP u else F.TMR_CAPA_CAP u), s.put (if b then F.TMR_STAT_FULLB u else F.TMR_STAT_FULLA u) 0)

/-- COMPARE_PRELOAD_WRITE (R327). -/
def preloadWrite (a : Nat) (v : Word) (s : State) : State := s.setReg a v

/-- CMP_LOAD (R328, Table 15.2). -/
def cmpLoad (u : Nat) (b : Bool) (s : State) : State :=
  let v := s.get (if b then F.TMR_CMPB_CMP u else F.TMR_CMPA_CMP u)
  let s1 := s.modTimer u (fun t => if b then { t with cmpB := v } else { t with cmpA := v })
  if tmrRuns s u && v == s.get (F.TMR_COUNT_COUNT u) && decide (v ≤ (s.timer u).top) then tmrMatch u b s1 else s1

/-- OUTPUT_FORCE (R329). -/
def outputForce (u : Nat) (b : Bool) (code : Nat) (s : State) : State :=
  if code = 1 then s.put (tmrOut u b) 1 else if code = 2 then s.put (tmrOut u b) 0 else s

/-- TIMER_START (R332). -/
def timerStart (u : Nat) (s : State) : State :=
  (s.modTimer u (fun t => { t with top := s.get (F.TMR_TOP_TOP u), cmpA := s.get (F.TMR_CMPA_CMP u), cmpB := s.get (F.TMR_CMPB_CMP u) })).mark (F.TMR_CTRL_RUN u)

/-- TIMER_STOP (R332). -/
def timerStop (u : Nat) (s : State) : State := s.put (F.TMR_CTRL_RUN u) 0

/-- A write of CMD: loads, then forces (R328, R329, R336). -/
def timerCmd (u : Nat) (v : Nat) (s : State) : State :=
  let s1 := if bit v 0 then cmpLoad u false s else s
  let s2 := if bit v 1 then cmpLoad u true s1 else s1
  outputForce u true (bits v 6 2) (outputForce u false (bits v 4 2) s2)

/-- A residue has PS bits (R324). -/
def trimResidue (u : Nat) (s : State) : State := s.modTimer u (fun t => { t with residue := t.residue % 2 ^ s.get (F.TMR_CTRL_PS u) })

/-- A CHCFG word that Table 15.6 reserves. -/
def chcfgReserved (v : Nat) : Bool :=
  let ch := fun (mode act wact filt : Nat) =>
    mode == 3 || (mode != 2 && filt != 0) || (mode != 1 && wact != 0) || (mode == 2 && act == 0) || (mode == 0 && act != 0)
  bits v 24 8 != 0 || bits v 14 2 != 0 || bits v 6 2 != 0 ||
  ch (bits v 0 2) (bits v 2 2) (bits v 4 2) (bits v 16 4) || ch (bits v 8 2) (bits v 10 2) (bits v 12 2) (bits v 20 4)

end Sys2Proof.Machine
end

