-- ==== Sys2Proof/Machine/Reserved.lean ====
section
/-!
DEFINITION. Reserved bits and reserved encodings of a register word (R4, R5, R26), the ones the tables state and the ones
that depend on the block or on another field.
-/

namespace Sys2Proof.Machine

/-- Width of a field. -/
def fieldWidth (f : FieldDef) : Nat := f.hi + 1 - f.lo

/-- Bits of a word that no field of the row covers. -/
def rowUncovered (d : RegDef) (w : Nat) : Nat := d.fields.foldl (fun r f => setBits r f.lo (fieldWidth f) 0) w

/-- A word that sets a reserved bit or places a reserved encoding, by the row's own table. -/
def rowRefuses (d : RegDef) (w : Nat) : Bool :=
  rowUncovered d w != 0 || d.fields.any (fun f => f.acc != .ro && !f.enc.ok (bits w f.lo (fieldWidth f)))

/-- The same by address; an address without a register takes no write (R7). -/
def wordReserved (a w : Nat) : Bool :=
  match findReg a with
  | none => true
  | some (d, _) => rowRefuses d w

/-- FCnn_MOD by block (Table 9.7) and pins (R394): `men` is PINS.MEN. -/
def modReserved (men i w : Nat) : Bool :=
  if i < 8 then bit w 3 else bits w 1 2 != 0 || (bit w 0 && !bit men (i - 8))

/-- A reserved scale code (R163). -/
def scaleReserved (c : Nat) : Bool := 0x0B ≤ c % 128

/-- GATE_FRBnn (Table 10.11): MS 0 while EN is 1. -/
def frbReserved (w : Nat) : Bool := bit w 31 && bits w 0 16 == 0

end Sys2Proof.Machine
end

