-- ==== Sys2Proof/Machine/Envelope.lean ====
section
/-!
DEFINITION. Route-map envelopes (02): reading and walking one, applying its sections, and the checks of Table 2.9.
-/

namespace Sys2Proof.Machine

/-! Reason codes (Table 2.9). -/
def rmOk : Nat := 0
def rmState : Nat := 1
def rmMagic : Nat := 2
def rmHdrCrc : Nat := 3
def rmFormat : Nat := 4
def rmPart : Nat := 5
def rmBase : Nat := 6
def rmLength : Nat := 7
def rmEnvCrc : Nat := 8
def rmSigMissing : Nat := 9
def rmKey : Nat := 10
def rmSig : Nat := 11
def rmSectCrc : Nat := 12
def rmSectType : Nat := 13
def rmSectOrder : Nat := 14
def rmSectRsvd : Nat := 15
def rmFixed : Nat := 16
def rmMissing : Nat := 17
def rmConsistency : Nat := 18
def rmCapacity : Nat := 19
def rmBusy : Nat := 20
def rmPromise : Nat := 21

/-- A section with its header's check fields (Table 2.2). -/
structure RawSection where
  sec   : Section
  flags : Nat
  scrc  : Nat
  rsvd  : Nat
  deriving DecidableEq, Repr

/-- An envelope in memory: its first host address, the room it may fill, whether it is to be a LIVE one. -/
structure EnvAt where
  base : Nat
  room : Nat
  live : Bool
  deriving DecidableEq, Repr

/-- Slot A or B (R20). -/
def slotEnv (b : Bool) : EnvAt := ⟨if b then 0x05C00000 else 0x05800000, 0x400000, false⟩
/-- The staging region (R21). -/
def stageEnv (s : State) : EnvAt := ⟨s.partBase 1, ((s.part 1).map (·.len)).getD 0, true⟩

def envNum (s : State) (e : EnvAt) (off n : Nat) : Nat := s.num (e.base + off) n
def envLen (s : State) (e : EnvAt) : Nat := envNum s e 12 4
def envSigned (s : State) (e : EnvAt) : Bool := bit (envNum s e 7 1) 0

/-- The first address from `a` over `n` bytes whose line or word reads uncorrectable. -/
def firstPoison (s : State) (a n : Nat) : Option Nat :=
  (sortNat (badKeys s)).find? (fun p => a < p + (if inLedger p then 64 else 8) && p < a + n)

/-- What a walk over the section headers found: the sections and the end of the last, or the sections before a header that reads
uncorrectable. -/
inductive EnvWalk where
  | sections (l : List RawSection) (stop : Nat)
  | poisoned (l : List RawSection)
  | misfit

/-- Walk `n` sections from an offset (R23). -/
def walkSections (s : State) (e : EnvAt) : Nat → Nat → List RawSection → EnvWalk
  | 0, off, acc => .sections acc off
  | n + 1, off, acc =>
    if envLen s e < off + 16 then .misfit
    else if (firstPoison s (e.base + off) 16).isSome then .poisoned acc
    else
      let len := envNum s e (off + 4) 4
      if len % 4 ≠ 0 ∨ envLen s e < off + 16 + len then .misfit
      else
        let b := s.bytes (e.base + off + 16) len
        walkSections s e n (off + 16 + len) (acc ++ [⟨⟨envNum s e off 1, envNum s e (off + 2) 2, b⟩,
          envNum s e (off + 1) 1, envNum s e (off + 8) 4, envNum s e (off + 12) 4⟩])

def walkAll (s : State) (e : EnvAt) : EnvWalk := walkSections s e (envNum s e 16 2) 64 []
/-- The sections of an envelope that passed its LENGTH check, as far as they are read. -/
def envSections (s : State) (e : EnvAt) : List Section :=
  match walkAll s e with
  | .sections l _ | .poisoned l => l.map (·.sec)
  | .misfit => []

/-- Of sections from an offset on, those that end at or before another. -/
def sectionsUpTo (stop : Nat) : Nat → List Section → List Section
  | _, [] => []
  | off, x :: l => if off + 16 + x.body.length ≤ stop then x :: sectionsUpTo stop (off + 16 + x.body.length) l else []

/-! Applying sections (R25, Table 2.3). `boot` tells a BOOT envelope; `dry` an evaluation on a copy, which writes the bin
table without the ledger's own steps. -/

def wordAt (b : List Byte) (off : Nat) : Word := BitVec.ofNat 32 (recNum b off 4)
/-- Records of `n` bytes of a payload. -/
def recordsOf (n : Nat) (b : List Byte) : List (List Byte) := (List.range (b.length / n)).map (fun i => (b.drop (n * i)).take n)

/-- MEMPART (Table 4.3): a partition. -/
def partOf (r : List Byte) : Part :=
  let t := recNum r 0 1
  ⟨t, recNum r 1 1, (if t = 7 then 0x03D00000 else 0x08000000) + recNum r 2 2 * 0x10000, (recNum r 4 2 + 1) * 0x10000, recNum r 6 1 % 4⟩

def applyParts (b : List Byte) (s : State) : State :=
  let s1 := { s with parts := (recordsOf 8 b).map partOf }
  let units (t : Nat) : Nat := ((s1.part t).map (·.len)).getD 0
  let s2 := (s1.put F.SYS_RMAP_STAGE_BASE ((s1.partBase 1 - 0x08000000) / 0x10000)).put F.SYS_RMAP_STAGE_SIZE (units 1 / 0x10000 - 1)
  let s3 := (s2.put F.GATE_OBX_BASE_ADDR (s1.partBase 2)).put F.GATE_OBX_LEN_LETTERS (units 2 / 32)
  s3.put F.DAYB_BASE_ADDR (s1.partBase 4)

/-- CASCADE (Table 13.7). -/
def applyCascade (b : List Byte) (s : State) : State :=
  let assign := bit (recNum b 2 1) 4
  let s1 := ((s.put F.CAS_CFG_PORTS (recNum b 2 1)).put F.CAS_CFG_HOLD_MS (recNum b 3 1)).put F.CAS_CFG_STEP_US (recNum b 4 2)
  let s2 := s1.put F.CAS_IDTAB_BASE (recNum b 6 2)
  let s3 := forUpTo 3 (fun k s => forUpTo 3 (fun c s => s.setReg (A.CAS_SUB k c) (wordAt b (8 + 12 * k + 4 * c))) s) s2
  let s4 := { s3 with est := { s3.est with fixed := if assign then none else some (recNum b 0 2) } }
  if assign then s4 else s4.put F.CAS_ID_ID (recNum b 0 2)

def applyArb (b : List Byte) (s : State) : State :=
  (recordsOf 8 b).foldl (fun s r =>
    let u := recNum r 0 1
    ((s.put (F.ARB_CFG_PRIO u) (recNum r 1 1)).put (F.ARB_CFG_BURST u) (recNum r 2 1)).put (F.ARB_MASK_BANKS u) (recNum r 4 3)) s

def applyClass (b : List Byte) (s : State) : State :=
  let s1 := forUpTo 3 (fun c s => (s.setReg (A.GATE_QUOTA c) (wordAt b (8 * c))).put (F.GATE_SHARE_SHARE c) (recNum b (8 * c + 4) 2)) s
  forUpTo 32 (fun p s => s.setReg (A.GATE_FRB p) (wordAt b (28 + 4 * p))) (s1.put F.GATE_OPEN_LIMIT (recNum b 24 2))

def routeRec (r : List Byte) : Route := ⟨recNum r 0 1, recNum r 2 2, recNum r 4 2⟩
def applyRoute (b : List Byte) (s : State) : State :=
  let new := (recordsOf 8 b).map routeRec
  { s with rmap := { s.rmap with routes := (s.rmap.routes.filter (fun r => !new.any (fun n => n.rtype == r.rtype && n.source == r.source))) ++ new } }

/-- BINS (R172): each listed entry is written when it differs from the line there. -/
def applyBins (dry : Bool) (b : List Byte) (s : State) : State :=
  reevaluate ((recordsOf 68 b).foldl (fun s r =>
    let a := binLine (recNum r 0 2)
    let e := r.drop 4
    if s.bytes a 64 = e ∧ !poisonAt s a then s
    else rebin a 64 (if dry then putBytes a e (heal a s) else memWrite 0x78 a e s)) s)

/-- No slots in either bank, and bank A active on every port (R25). -/
def clearSlots (s : State) : State :=
  let s1 := ((s.put F.TT_STAT_ACTIVE 0).put F.TT_STAT_SWAP_PEND 0).put F.TT_SWAPPEND_PORTS 0
  (forUpTo 32 (fun p s => s.put (F.TTP_POS_BANK p) 0) s1).modSeq (fun q => { q with slots := [] })

/-- TIMETABLE (R157): bank A in a BOOT envelope, which becomes active while bank B is left empty (R25); else the inactive bank; MIN and
AHEAD. -/
def applyTimetable (boot : Bool) (b : List Byte) (s : State) : State :=
  let n := recNum b 0 2
  let bank := if boot then false else !activeBank s
  let s1 := if boot then clearSlots s else s.modSeq (fun q => { q with slots := q.slots.filter (fun e => e.1 / 6144 != b2n bank) })
  let s2 := forUpTo n (fun i s => setSlot bank i (recNum b (8 + 8 * i) 8) s) s1
  let s3 := (s2.put F.TT_GATE_MIN (recNum b 2 2)).put F.TT_CTRL_AHEAD (recNum b 4 1)
  forUpTo 32 trimBuilt (gateAnew s3)

/-- t of Table 9.5. -/
def filterTaps (b : List Byte) : Nat := bits (recNum b 0 4) 20 7 + 1
def filterProto (b : List Byte) : Bool := bit (recNum b 0 4) 29
def applyFilter (i : Nat) (b : List Byte) (s : State) : State :=
  let s1 := ((s.setReg (A.FC_CFG i) (wordAt b 0)).setReg (A.FC_RATE i) (wordAt b 4)).setReg (A.FC_SRC i) (wordAt b 8)
  let s2 := modWrite i (wordAt b 12) s1
  let t := filterTaps b
  let s3 := forUpTo t (fun j s => setCoef i false j (recNum b (20 + 4 * j) 3) s) s2
  if filterProto b then forUpTo 2048 (fun j s => setCoef i true j (recNum b (20 + 4 * t + 4 * j) 3) s) s3 else s3

/-- TIMER_CFG (R335): COUNT, the preloads and CHCFG, then CTRL with RUN at 0. -/
def applyTimer (u : Nat) (b : List Byte) (s : State) : State :=
  let s1 := (s.setReg (A.TMR_COUNT u) (wordAt b 20)).setReg (A.TMR_TOP u) (wordAt b 8)
  let s2 := (s1.setReg (A.TMR_CMPA u) (wordAt b 12)).setReg (A.TMR_CMPB u) (wordAt b 16)
  takeSafe (trimResidue u ((s2.setReg (A.TMR_CHCFG u) (wordAt b 4)).setReg (A.TMR_CTRL u) (wordAt b 0)))

/-- FIELD_KEYS (R106): frames built before are discarded unsent, those of the round in progress too, which are built anew (Tables 2.3, 2.16). -/
def applyKeys (p : Nat) (b : List Byte) (s : State) : State :=
  let s1 := rebuildRound p none (discardBuilt p (fun _ => true) s)
  (s1.modPort p (fun q => { q with key := some (b.take 16, b.drop 16) })).mark (F.FL_CTRL_KEYED p)

def applyRetain (b : List Byte) (s : State) : State :=
  let n := recNum b 4 2
  let s1 := ((s.put F.PWR_RETAIN_MODE (recNum b 0 1)).put F.PWR_RETAIN_COUNT n).put F.PWR_RETAIN_BANKS (recNum b 2 2)
  { s1 with rmap := { s1.rmap with retain := (List.range n).map (fun i => recNum b (8 + 4 * i) 4) } }

def applyPace (b : List Byte) (s : State) : State :=
  (((s.put F.PACE_POLICY_POLICY (recNum b 0 1)).put F.PACE_POLICY_VCAP (recNum b 1 1)).put F.PACE_POLICY_GUARD (recNum b 2 1)).put
    F.PACE_TEMP_HI_LIMIT (recNum b 4 2)

def applyWake (b : List Byte) (s : State) : State :=
  forUpTo 4 (fun n s => s.setReg (A.CMP_CTRL n) (wordAt b (8 + 4 * n))) ((s.setReg A.PWR_WAKE (wordAt b 0)).setReg A.PWR_TWAKE (wordAt b 4))

def applyPins (b : List Byte) (s : State) : State :=
  let s1 := ((s.setReg A.SYS_PIN_TMEN (wordAt b 0)).setReg A.SYS_PIN_TMPULL (wordAt b 4)).put F.SYS_PIN_CFG_MEN (recNum b 8 1)
  { s1 with rmap := { s1.rmap with pins := b } }

/-- One section takes hold. -/
def applySection (boot dry : Bool) (x : Section) (s : State) : State :=
  match x.typ with
  | 0x01 => s  -- IDENT configures nothing beside its check
  | 0x02 => applyPins x.body s
  | 0x03 => applyParts x.body s
  | 0x04 => applyCascade x.body s
  | 0x05 => { s with rmap := { s.rmap with safeLevels := x.body } }
  | 0x06 => loadProgram 0 x.body s
  | 0x07 => applyArb x.body s
  | 0x08 => applyClass x.body s
  | 0x09 => applyRoute x.body s
  | 0x0A => applyBins dry x.body s
  | 0x0B => applyTimetable boot x.body s
  | 0x0C => loadProgram (x.inst + 1) x.body s
  | 0x0D => applyFilter x.inst x.body s
  | 0x0E => applyTimer x.inst x.body s
  | 0x0F => applyKeys x.inst x.body s
  | 0x10 => applyRetain x.body s
  | 0x11 => applyPace x.body s
  | 0x12 => applyWake x.body s
  | _ => s

def applySections (boot dry : Bool) (l : List Section) (s : State) : State := l.foldl (fun s x => applySection boot dry x s) s

/-- Chains the sections mark START 1. -/
def startChains (l : List Section) : List Nat := (l.filter (fun x => x.typ == 0x0D && recNum x.body 16 1 == 1)).map (·.inst)
def startTimers (l : List Section) : List Nat := (l.filter (fun x => x.typ == 0x0E && recNum x.body 24 1 == 1)).map (·.inst)

/-- A register's words go back to their reset values. -/
def dropRegs (f : Nat → Bool) (s : State) : State := { s with regs := s.regs.filter (fun e => !f e.1) }

/-- The units whose optional sections a BOOT image lacks are left unconfigured (R25): no slots, stopped cores, chains and timer units, no
field keys, no retention, the PACE defaults, and no wake sources. -/
def unconfigure (l : List Section) (s : State) : State :=
  let has (t i : Nat) : Bool := l.any (fun x => x.typ == t && x.inst == i)
  let s1 := forUpTo 64 (fun c s => if has 0x0C c then s else (haltRun (c + 1) s).put (F.SRT_CTRL_RUN (c + 1)) 0) s
  let s2 := forUpTo 16 (fun i s => if has 0x0D i then s else (dropRegs (fun a => blockOf a == 0x61 + i) s).modChain i (fun _ => idleChain)) s1
  let s3 := forUpTo 16 (fun u s =>
    if has 0x0E u then s
    else (dropRegs (fun a => blockOf a == 0x7D && offOf a / 64 == u) s).modTimer u (fun _ => idleTimer)) s2
  let s4 := forUpTo 32 (fun p s => if has 0x0F p then s else (s.modPort p (fun q => { q with key := none })).put (F.FL_CTRL_KEYED p) 0) s3
  let s5 := if has 0x0B 0 then s4 else clearSlots s4
  let s6 := if has 0x10 0 then s5 else (dropRegs (· == A.PWR_RETAIN) { s5 with rmap := { s5.rmap with retain := [] } })
  let s7 := if has 0x11 0 then s6 else dropRegs (fun a => a == A.PACE_POLICY || a == A.PACE_TEMP_HI) s6
  if has 0x12 0 then s7
  else dropRegs (fun a => a == A.PWR_WAKE || a == A.PWR_TWAKE || (List.range 4).any (fun n => a == A.CMP_CTRL n)) s7

/-- Registers and units as they stand before any image, over the memories and the sampled straps: what a BOOT image is
evaluated on (R220). -/
def bareState (s : State) : State :=
  let kept := s.regs.filter (fun e => e.1 == A.SYS_STRAP || (A.SYS_RMAP_STAT ≤ e.1 && e.1 ≤ A.SYS_RMAP_FUSE))
  let s1 : State := { s with
    regs := kept, parts := [], chains := s.chains.map (fun c => { c with run := false, fir := [], res := [] })
    seq := { s.seq with slots := [], edit := none }
    gate := { s.gate with opened := [], fsum := s.gate.fsum.map (fun _ => 0) }
    cores := s.cores.map (fun k => { k with mem := [] })
    ports := s.ports.map (fun q => { q with key := none })
    rmap := { s.rmap with routes := [], staged := [], retain := [] } }
  reevaluate (s1.put F.CAS_STAT_ROLE (if s.flag F.SYS_STRAP_HEAD then 1 else if s.flag F.SYS_STRAP_STANDBY then 2 else 0))

/-- The policy and the cap of a live PACE section govern, as they will from the governor's next step (R36, R50). -/
def paceTaken (l : List Section) (s : State) : State :=
  if l.any (fun x => x.typ == 0x11) then { s with pace := { s.pace with polUsed := s.get F.PACE_POLICY_POLICY, vcapUsed := s.get F.PACE_POLICY_VCAP } } else s

/-- The state as it would stand with the sections in force (R36, R217, R220). -/
def candidate (live : Bool) (l : List Section) (s : State) : State :=
  let s1 := paceTaken l (applySections (!live) true l (if live then s else bareState s))
  let s2 := (startChains l).foldl (fun s i => s.mark (F.FC_CTRL_RUN i)) s1
  if live && l.any (fun x => x.typ == 0x0B) then swapped s2 else s2

/-! Reserved content (SECT_RSVD, R26), with PINS.MEN of the image in question. -/

/-- An INSTANCE out of range. -/
def instBad (men : Nat) (x : Section) : Bool :=
  if x.typ = 0x0C then 63 < x.inst
  else if x.typ = 0x0D ∨ x.typ = 0x0E then 15 < x.inst
  else if x.typ = 0x0F then 31 < x.inst || (24 ≤ x.inst && bit men (x.inst - 24))
  else x.inst != 0

def partReserved (r : List Byte) : Bool :=
  let t := recNum r 0 1
  let o := recNum r 1 1
  let at_ := recNum r 6 1
  t == 0 || 7 < t || recNum r 7 1 != 0 ||
  (if t = 3 then !(o == 0x77 || (0x71 ≤ o && o ≤ 0x74)) || at_ == 0 || 3 < at_
   else if t = 6 ∨ t = 7 then 0x40 < o || at_ != 0
   else o != 0 || at_ != 0)

def routeReserved (r : List Byte) : Bool :=
  let t := recNum r 0 1
  let src := recNum r 2 2
  recNum r 1 1 != 0 || recNum r 6 2 != 0 ||
  (match t with
   | 1 => 4095 < src || 63 < recNum r 4 2
   | 2 => 15 < src || 63 < recNum r 4 2
   | 3 => 255 < src || 1 < recNum r 4 1 || recNum r 5 1 == 0 || 3 < recNum r 5 1
   | _ => true)

def binRecReserved (r : List Byte) : Bool :=
  4095 < recNum r 0 2 || recNum r 2 2 != 0 || (recNum r 4 1 != 0 && binReserved (fun off n => recNum r (4 + off) n))

/-- Reserved content of a section. A payload that stops short of a field holds nothing reserved in it: its length is judged under
CONSISTENCY (R26). -/
def sectReserved (men : Nat) (x : Section) : Bool :=
  let b := x.body
  let g := recNum b
  let fld (off n : Nat) (bad : Nat → Bool) : Bool := decide (off + n ≤ b.length) && bad (g off n)
  instBad men x ||
  (match x.typ with
   | 0x01 => 3 < g 6 1 || g 7 1 != 0
   | 0x02 => g 9 7 != 0
   | 0x03 => (recordsOf 8 b).any partReserved
   | 0x04 => fld 2 1 (fun v => bits v 5 3 != 0) || fld 3 1 (· < 5) || fld 4 2 (· == 0) || fld 6 2 (fun v => 416 < v && v != 0xFFFF)
   | 0x05 => (List.range 32).any (fun k => bits (g 0 8) (2 * k) 2 == 3)
   | 0x06 | 0x0C =>
     let n := viewNum (fun i => b.getD (256 + i) 0#8) 10 2
     headerReserved (programView b) || vectorReserved (programView b) || (((b.drop (256 + n)).take ((n + 3) / 4 * 4 - n)).any (· != 0#8))
   | 0x07 => (recordsOf 8 b).any (fun r => 0x80 ≤ recNum r 0 1 || recNum r 1 1 == 0 || 7 < recNum r 1 1 || recNum r 2 1 == 0 ||
       64 < recNum r 2 1 || recNum r 3 1 != 0 || recNum r 7 1 != 0)
   | 0x08 => g 6 2 != 0 || g 14 2 != 0 || g 22 2 != 0 || g 26 2 != 0 || fld 24 2 (fun v => wordReserved A.GATE_OPEN (v * 2 ^ 16)) ||
       (List.range 32).any (fun p => fld (28 + 4 * p) 4 (fun v => wordReserved (A.GATE_FRB p) v || frbReserved v))
   | 0x09 => (recordsOf 8 b).any routeReserved
   | 0x0A => (recordsOf 68 b).any binRecReserved
   | 0x0B => fld 0 2 (fun v => v == 0 || 6144 < v) || fld 2 2 (wordReserved A.TT_GATE) || fld 4 1 (8 < ·) || g 5 3 != 0 ||
       (List.range ((b.length - 8) / 8)).any (fun i =>
         let v := g (8 + 8 * i) 8
         slotReserved v || (slotKind v != 0 && 24 ≤ slotPort v && bit men (slotPort v - 24)))
   | 0x0D => fld 0 4 (wordReserved (A.FC_CFG x.inst)) || fld 4 4 (wordReserved (A.FC_RATE x.inst)) ||
       fld 8 4 (fun v => wordReserved (A.FC_SRC x.inst) v || scaleReserved (bits v 8 8)) ||
       fld 12 4 (fun v => wordReserved (A.FC_MOD x.inst) v || modReserved men x.inst v) || fld 16 1 (1 < ·) || g 17 3 != 0 ||
       (List.range ((b.length - 20) / 4)).any (fun j => g (20 + 4 * j + 3) 1 != 0)
   | 0x0E => fld 0 4 (fun v => wordReserved (A.TMR_CTRL x.inst) v || bit v 0) || fld 4 4 chcfgReserved || fld 24 1 (1 < ·) || g 25 3 != 0
   | 0x10 => fld 0 1 (fun v => !(v == 1 || v == 2)) || g 1 1 != 0 || g 6 2 != 0 || fld 2 2 (fun v => g 0 1 == 2 && v != 0) ||
       fld 4 2 (fun v => 512 < v || (g 0 1 == 1 && v != 0))
   | 0x11 => fld 0 3 (fun v => 3 < v % 2 ^ 8 || 0x3F < v / 2 ^ 16 || wordReserved A.PACE_POLICY v) || g 3 1 != 0 || g 6 2 != 0
   | 0x12 => fld 0 4 (wordReserved A.PWR_WAKE) || fld 4 4 (wordReserved A.PWR_TWAKE) ||
       (List.range 4).any (fun n => fld (8 + 4 * n) 4 (wordReserved (A.CMP_CTRL n)))
   | _ => false)

/-! Consistency (check 0x12). -/

/-- The payload length fits the type (R26). -/
def lengthFits (x : Section) : Bool :=
  let n := x.body.length
  let g := recNum x.body
  match x.typ with
  | 0x01 => n == 8
  | 0x02 => n == 16
  | 0x05 => n == 8
  | 0x04 => n == 44
  | 0x08 => n == 156
  | 0x11 => n == 8
  | 0x0F => n == 2064
  | 0x12 => n == 24
  | 0x0E => n == 28
  | 0x03 | 0x07 | 0x09 => n % 8 == 0
  | 0x0A => n % 68 == 0
  | 0x0B => n == 8 + 8 * g 0 2
  | 0x0D => n == 20 + 4 * filterTaps x.body + (if filterProto x.body then 8192 else 0)
  | 0x06 | 0x0C => n == 256 + (viewNum (fun i => x.body.getD (256 + i) 0#8) 10 2 + 3) / 4 * 4
  | 0x10 => n == 8 + 4 * g 4 2
  | _ => true

/-- R74. -/
def partsOk (b : List Byte) : Bool :=
  let ps := (recordsOf 8 b).map partOf
  let cnt (t : Nat) : Nat := (ps.filter (fun p => p.ptype == t)).length
  let one (t : Nat) (f : Part → Bool) : Bool := cnt t == 1 && (ps.filter (fun p => p.ptype == t)).all f
  let idx := List.range ps.length
  let at_ (i : Nat) : Part := ps.getD i ⟨0, 0, 0, 0, 0⟩
  idx.all (fun i => idx.all (fun j => i == j || !overlaps (at_ i).base (at_ i).len (at_ j).base (at_ j).len)) &&
  ps.all (fun p => if p.ptype = 7 then p.base + p.len ≤ 0x05800000 else p.base + p.len ≤ 0x09000000) &&
  one 1 (fun p => p.len ≤ 0x100000) && one 2 (fun _ => true) &&
  one 4 (fun p => p.len == 0x100000 && p.base % 0x100000 == 0) && one 5 (fun p => p.len == 0x20000) &&
  idx.all (fun i => idx.all (fun j => i == j || (at_ i).ptype != 3 || (at_ j).ptype != 3 || (at_ i).owner != (at_ j).owner || (at_ i).cls != (at_ j).cls))

/-- R301. -/
def cascadeOk (s c : State) (b : List Byte) : Bool :=
  let id := recNum b 0 2
  let ports := recNum b 2 1
  let assign := bit ports 4
  let tab := recNum b 6 2
  let head := s.flag F.SYS_STRAP_HEAD
  let stand := s.flag F.SYS_STRAP_STANDBY
  let a := 0x03D00000 + tab * 0x10000
  (if head then id == 0 && !assign && !bit ports 0 else bit ports 0 && (assign == (id == 0))) &&
  (if head || stand then tab != 0xFFFF && c.parts.any (fun p => p.ptype == 7 && p.owner == 0 && p.base ≤ a && a + 0x100000 ≤ p.base + p.len)
   else tab == 0xFFFF) &&
  (List.range 3).all (fun k => bit ports (k + 1) || (List.range 3).all (fun i => recNum b (8 + 12 * k + 4 * i) 4 == 0))

/-- A register that RETAIN may list (R342): it has a writable field and no read side effect. -/
def retainable (a : Nat) : Bool :=
  a % 4 == 0 && 0x10000000 ≤ a && a ≤ 0x1011FFFF &&
  (match findReg a with
   | none => false
   | some (d, _) => d.fields.any (fun f => f.acc != .ro) &&
     !(["SRT_MDATA", "FC_CDATA", "FC_LASTV", "TMR_CAPA", "TMR_CAPB", "TT_RDATA_HI", "SYS_PM_LO"].contains d.name))

/-- Whether Table 10.3 lets a unit offer a kind. -/
def kindAllowed (unit kind : Nat) : Bool :=
  let sorter := 1 ≤ unit && unit ≤ 0x40
  if 1 ≤ kind ∧ kind ≤ 0x0F then unit == 0
  else if 0x10 ≤ kind ∧ kind ≤ 0x15 then unit == 0x78 || sorter
  else if kind = 0x20 ∨ 0x40 ≤ kind then sorter
  else false

/-- The trend unit composes letters of a kind under the image: by a listed bin that does not sort it (R174), and a field report, for an
endpoint in no bin, wherever a slot collects letterboxes (R176, R177). -/
def trendMakes (l : List Section) (kind : Nat) : Bool :=
  l.any (fun x => match x.typ with
    | 0x0A => (recordsOf 68 x.body).any (fun r => recNum r 4 1 != 0 && bit (recNum r 18 1) (kind - 0x10) && !bit (recNum r 19 1) (kind - 0x10))
    | 0x0B => kind == 0x15 && (recordsOf 8 (x.body.drop 8)).any (fun r => roundKind (slotKind (ofLe r)) == .letterbox)
    | _ => false)

/-- A program of the image offers letters of a kind: one that Table 10.3 lets its core offer, as the program has it. -/
def programMakes (l : List Section) (kind : Nat) : Bool :=
  l.any (fun x => (x.typ == 0x06 || x.typ == 0x0C) && kindAllowed (if x.typ = 0x06 then 0 else x.inst + 1) kind &&
    Config.programOffers (x.body.drop 256) kind)

/-- Kinds of letter the image can produce (R27). -/
def imageKinds (l : List Section) : List Nat :=
  (List.range 256).filter (fun k => (0x10 ≤ k && k ≤ 0x15 && trendMakes l k) || programMakes l k)

/-- Bins a BINS section lists, and those it lists as in use. -/
def binsListed (b : List Byte) : List Nat := (recordsOf 68 b).map (fun r => recNum r 0 2)
def binsUsed (b : List Byte) : List Nat := ((recordsOf 68 b).filter (fun r => recNum r 4 1 != 0)).map (fun r => recNum r 0 2)

/-- R27. -/
def routesOk (live : Bool) (c : State) (l : List Section) (b : List Byte) : Bool :=
  let rs := (recordsOf 8 b).map routeRec
  let count (t src : Nat) : Nat := (rs.filter (fun r => r.rtype == t && r.source == src)).length
  let holds (n : Nat) : Bool := ((c.core (n + 1)).map (fun k => headerOk k.priv)).getD false
  rs.all (fun r => count r.rtype r.source == 1) &&
  rs.all (fun r => r.rtype == 3 || holds r.target) &&
  (live ||
    (((l.filter (fun x => x.typ == 0x0A)).all (fun x => (binsListed x.body).all (fun n => count 1 n == 1))) &&
     ((l.filter (fun x => x.typ == 0x0D)).all (fun x => count 2 x.inst == 1)) &&
     (imageKinds l).all (fun k => count 3 k == 1)))

/-- R172. -/
def binsOk (c : State) (b : List Byte) : Bool :=
  let ns := binsListed b
  (ns.zip (ns.drop 1)).all (fun p => p.1 < p.2) && (binsUsed b).all (fun n => c.trend.valid.contains n)

/-- R199, over the state with every section applied. -/
def filterOk (s c : State) (live : Bool) (x : Section) : Bool :=
  let b := x.body
  (recNum b 16 1 == 0 || (c.flag (F.FC_MOD_EN (fcSrc c x.inst)) && (fcGrid c x.inst || 263 ≤ fcP c x.inst))) &&
  (bit (recNum b 12 4) 0 || !(live && s.flag (F.FC_MOD_EN x.inst) && !(readers s x.inst).isEmpty))

/-- One section is consistent with the straps, the others and the booted image. -/
def sectionOk (s c : State) (live : Bool) (l : List Section) (x : Section) : Bool :=
  lengthFits x &&
  (match x.typ with
   | 0x01 =>
     let r := recNum x.body 6 1
     let h := s.flag F.SYS_STRAP_HEAD
     let t := s.flag F.SYS_STRAP_STANDBY
     r == 0 || (r == 1 && h) || (r == 2 && !h && !t) || (r == 3 && t)
   | 0x03 => partsOk x.body
   | 0x04 => cascadeOk s c x.body
   | 0x06 | 0x0C => headerOk (programView x.body)
   | 0x07 =>
     let rs := recordsOf 8 x.body
     let us := rs.map (fun r => recNum r 0 1)
     us.all (fun u => us.count u == 1) && rs.all (fun r => !isFixedMask (recNum r 0 1) || recNum r 4 3 == 0xFFFFFF)
   | 0x09 => routesOk live c l x.body
   | 0x0A => binsOk c x.body
   | 0x0D => filterOk s c live x
   | 0x10 =>
     let as := (List.range (recNum x.body 4 2)).map (fun i => recNum x.body (8 + 4 * i) 4)
     as.all (fun a => retainable a && as.count a == 1)
   | _ => true)

/-- A live section meets a unit that is not stopped, or a TIMETABLE section a pending swap (check 0x14). DESIGN CHOICE: a copy in progress does
not make it busy, as Table 2.9 names a pending swap alone; the copy then goes to the bank that is inactive when it completes. -/
def sectionBusy (s : State) (x : Section) : Bool :=
  match x.typ with
  | 0x0C => s.get (F.SRT_STAT_STATE (x.inst + 1)) != stStopped
  | 0x0D => !fcStopped s x.inst
  | 0x0E => tmrRuns s x.inst
  | 0x0B => s.flag F.TT_STAT_SWAP_PEND
  | _ => false

/-! The checks in order (R33). -/

def isFixed (t : Nat) : Bool := 1 ≤ t && t ≤ 6
def requiredTypes : List Nat := [1, 2, 3, 4, 5, 6, 7, 8, 9]

/-- Strictly ascending order of type, then instance. -/
def orderBad (l : List Section) (i : Nat) : Bool :=
  match l[i - 1]?, l[i]? with
  | some a, some b => 0 < i && !(a.typ < b.typ || (a.typ == b.typ && a.inst < b.inst))
  | _, _ => false

/-- A core has a standing demand of the image `c`: a chain that is to run, or a valid bin, is routed to it (R218). -/
def coreFed (c : State) (l : List Section) (u : Nat) : Bool :=
  (startChains l).any (fun i => chainRoute c i == some u) || c.trend.valid.any (fun b => binSorter c b == some u)

/-- A section supplies a value that a condition of Table 10.6 uses for the image, evaluated as `c` (R218, R220, R430). -/
def suppliesValue (c : State) (l : List Section) (t : Nat) (x : Section) : Bool :=
  if t = 1 then
    x.typ == 0x04 || x.typ == 0x08 || x.typ == 0x0B ||
    (x.typ == 0x09 && (!(startChains l).isEmpty || !c.trend.valid.isEmpty)) ||
    (x.typ == 0x0A && !(binsUsed x.body).isEmpty) ||
    (x.typ == 0x0C && coreFed c l (x.inst + 1)) ||
    (x.typ == 0x0D && (startChains l).contains x.inst)
  else if t ≤ 4 then x.typ == 0x04 || x.typ == 0x08
  else if t = 5 then x.typ == 0x03 || x.typ == 0x07
  else if t = 6 then x.typ == 0x03 || x.typ == 0x04 || x.typ == 0x08
  else x.typ == 0x08 || x.typ == 0x0B || (x.typ == 0x0F && c.flag (F.GATE_FRB_EN x.inst))

/-- PINS.MEN the envelope is checked against: its own in a BOOT image, else the one in force (R394). -/
def menOf (s : State) (live : Bool) (l : List Section) : Nat :=
  if live then s.get F.SYS_PIN_CFG_MEN else ((l.find? (fun x => x.typ == 2)).map (fun x => recNum x.body 8 1)).getD 0

/-- What the checks answer: the reason, the section index, the failing condition, the first address that read uncorrectable. -/
structure Verdict where
  reason : Nat
  sect   : Nat
  test   : Nat
  poison : Option Nat
  deriving DecidableEq, Repr

def verdict (reason : Nat) (sect : Nat := 0xFF) : Verdict := ⟨reason, sect, 0, none⟩

/-- The capacity check (R220): TEST 0x6 of a standby is evaluated as a branch and as a head office (R211, R297). -/
def capacityTest (c : State) : Option Nat := firstFailing (c.get F.CAS_STAT_ROLE == 2) c

/-- Checks 0x0C to 0x15 over the walked sections. -/
def checkSections (s : State) (e : EnvAt) (raw : List RawSection) : Verdict :=
  let l := raw.map (·.sec)
  let idx := List.range raw.length
  let men := menOf s e.live l
  let sec (i : Nat) : Section := l.getD i ⟨0, 0, []⟩
  let rw (i : Nat) : RawSection := raw.getD i ⟨⟨0, 0, []⟩, 0, 0, 0⟩
  match idx.find? (fun i => crc32 (sec i).body != (rw i).scrc) with
  | some i => verdict rmSectCrc i
  | none =>
  match idx.find? (fun i => (sec i).typ == 0 || 0x12 < (sec i).typ) with
  | some i => verdict rmSectType i
  | none =>
  match idx.find? (orderBad l) with
  | some i => verdict rmSectOrder i
  | none =>
  match idx.find? (fun i => (rw i).flags != 0 || (rw i).rsvd != 0 || sectReserved men (sec i)) with
  | some i => verdict rmSectRsvd i
  | none =>
  match (if e.live then idx.find? (fun i => isFixed (sec i).typ) else none) with
  | some i => verdict rmFixed i
  | none =>
  if !e.live && !requiredTypes.all (fun t => l.any (fun x => x.typ == t)) then verdict rmMissing
  else
    let c := candidate e.live l s
    match idx.find? (fun i => !sectionOk s c e.live l (sec i)) with
    | some i => verdict rmConsistency i
    | none =>
      if !e.live then
        match capacityTest c with
        | some t => { verdict rmCapacity ((idx.filter (fun i => suppliesValue c l t (sec i))).getLast?.getD 0xFF) with test := t }
        | none => verdict rmOk
      else match idx.find? (fun i => sectionBusy s (sec i)) with
        | some i => verdict rmBusy i
        | none =>
          match failingTest c with
          | some t => { verdict rmPromise with test := t }
          | none => verdict rmOk

/-- The signature checks (R28, R29): none when the envelope may go on. -/
def checkSignature (s : State) (e : EnvAt) (stop : Nat) : Option Nat :=
  let need := Config.sigRequired.toNat = 1
  let key := Config.keyPresent.toNat = 1
  if !envSigned s e then (if need then some rmSigMissing else none)
  else if !key then (if need then some rmKey else none)
  else
    let g := fun off n => envNum s e (stop + 4 + off) n
    let x := g 8 32
    let y := g 40 32
    let hash := (List.range 32).foldl (fun n i => n * 256 + (Config.keyHash i).toNat) 0
    if sha256 (4#8 :: ((leBytes 32 x).reverse ++ (leBytes 32 y).reverse)) ≠ hash then some rmKey
    else if g 0 4 ≠ 0x31474953 ∨ g 4 1 ≠ 1 ∨ g 5 3 ≠ 0 then some rmSig
    else if ecdsaOk x y (sha256 (s.bytes e.base (stop + 4))) (g 72 32) (g 104 32) then none else some rmSig

/-- SIG_STATE of an accepted envelope (Table 2.7). -/
def sigState (s : State) (e : EnvAt) : Nat :=
  if Config.keyPresent.toNat = 0 then 0 else if envSigned s e then 1 else 2

/-- Every check on an envelope (Table 2.9, R431). -/
def checkEnvelope (s : State) (e : EnvAt) : Verdict :=
  let g := envNum s e
  match firstPoison s e.base 64 with
  | some p => { verdict rmHdrCrc with poison := some p }
  | none =>
  if g 0 4 ≠ 0x4D525843 then verdict rmMagic
  else if crc32 (s.bytes e.base 60) ≠ g 60 4 then verdict rmHdrCrc
  else if g 4 2 ≠ 1 ∨ g 6 1 ≠ (if e.live then 2 else 1) ∨ 1 < g 7 1 ∨ g 16 2 = 0 ∨ 254 < g 16 2 ∨ g 18 2 ≠ 0 ∨ g 23 1 ≠ 0 ∨
      (!e.live ∧ (g 8 4 = 0 ∨ g 8 4 = 0xFFFFFFFF)) then verdict rmFormat
  else if g 20 2 ≠ 0x9620 ∨ Config.stepping.toNat < g 22 1 then verdict rmPart
  else if g 24 4 ≠ (if e.live then s.get F.SYS_RMAP_VER_BOOTED_VER else 0) then verdict rmBase
  else
    let len := envLen s e
    if len % 4 ≠ 0 ∨ e.room < len then verdict rmLength
    else match walkAll s e with
      | .misfit => verdict rmLength
      | .poisoned _ => { verdict rmEnvCrc with poison := firstPoison s (e.base + 64) (len - 64) }
      | .sections raw stop =>
        if len ≠ stop + 4 + (if envSigned s e then 136 else 0) then verdict rmLength
        else match firstPoison s (e.base + 64) (len - 64) with
          | some p => { verdict rmEnvCrc with poison := some p }
          | none =>
            if crc32 (s.bytes e.base stop) ≠ g stop 4 then verdict rmEnvCrc
            else match checkSignature s e stop with
              | some r => verdict r
              | none => checkSections s e raw

end Sys2Proof.Machine
end

