-- ==== Sys2Proof/Machine/RouteMap.lean ====
section
/-!
DEFINITION. The loader (02, 17): route-map commands, the apply point of a live envelope, choosing and applying the boot image.
-/

namespace Sys2Proof.Machine

def State.modRmap (s : State) (f : RMap → RMap) : State := { s with rmap := f s.rmap }

/-- `n` bytes from `a` are read by the loader, up to the first line or word that reads uncorrectable, which raises its controller's fault
(R63 to R65, R431). -/
def loaderReads (a n : Nat) (s : State) : State :=
  readArea a (match firstPoison s a n with | some p => p + 1 - a | none => n) s

/-- What the checks of an envelope read: its header where they end with it, else all of it. -/
def checksRead (e : EnvAt) (v : Verdict) (s : State) : State :=
  loaderReads e.base (if v.reason ≤ rmLength ∧ v.reason ≠ rmOk then 64 else envLen s e) s

/-! Commands of Table 2.11. -/
def cmdApply : Nat := 1
def cmdCheck : Nat := 2
def cmdCheckA : Nat := 3
def cmdCheckB : Nat := 4
def cmdLoadA : Nat := 5
def cmdLoadB : Nat := 6

/-- The envelope a command acts on. -/
def commandEnv (s : State) (cmd : Nat) : EnvAt :=
  if cmd ≤ cmdCheck then stageEnv s else slotEnv (cmd == cmdCheckB || cmd == cmdLoadB)

/-- A command its present state does not allow (Table 2.11, R358, R360). -/
def commandBarred (s : State) (cmd : Nat) : Bool :=
  let waiting := s.flag F.SYS_RMAP_STAT_WAITING
  s.pow.phase != .up ||
  (if cmd ≤ cmdCheck then waiting
   else if cmd ≤ cmdCheckB then !waiting && (s.flag F.SYS_RMAP_STAT_BOOTED_SLOT == (cmd == cmdCheckB))
   else !waiting || s.flag F.SYS_STRAP_ROLE_BAD)

/-- A command is written (R33 to R36, R219): while BUSY it is lost; else its checks are made, and an APPLY that passes them
waits for its apply point. -/
def rmapCommand (cmd writer : Nat) (s : State) : State :=
  if cmd = 0 then s
  else if s.flag F.SYS_RMAP_STAT_BUSY then s.mark F.SYS_RMAP_STAT_CMD_LOST
  else
    let e := commandEnv s cmd
    let v := if commandBarred s cmd then verdict rmState else checkEnvelope s e
    let staged := if cmd = cmdApply ∧ v.reason = rmOk then envSections s e else []
    let s1 := (if v.reason = rmState then s else checksRead e v s).mark F.SYS_RMAP_STAT_BUSY
    let s2 := if cmd = cmdApply ∧ v.reason = rmPromise then checkRefused v.test writer A.SYS_RMAP_CTRL s1 else s1
    s2.modRmap (fun r => { r with cmd := cmd, reason := v.reason, sect := v.sect, staged := staged })

/-- What the sections start: chains marked START, where Table 9.3 does not refuse them, and timer units; in a BOOT image, the links whose
partner is present, the cores that received a program, and, after a TIMETABLE, the sequencer (R149). -/
def startUnits (boot : Bool) (l : List Section) (s : State) : State :=
  let s1 := (startChains l).foldl (fun s i => match startCause s i with
    | some c => startRefused i c s
    | none => chainRun i s) s
  let s2 := (startTimers l).foldl (fun s u => timerStart u s) s1
  if boot then
    let s3 := forUpTo 4 (fun n s => if s.flag (F.CAS_L_STAT_PRS n) && linkEnabled s n && lstate s n == lsDown then beginTraining n s else s) s2
    let s4 := (l.filter (fun x => x.typ == 0x06 || x.typ == 0x0C)).foldl (fun s x => coreStart (if x.typ = 0x06 then 0 else x.inst + 1) s) s3
    if l.any (fun x => x.typ == 0x0B) then ttRunSet s4 else s4
  else s2

/-- A reset or a power failure has begun: the loader does no more (Table 2.16). -/
def resetBegun (s : State) : Bool := match s.pow.flush with
  | .reset _ | .powerFail => true
  | _ => false

/-- APPLY_POINT (R35): every section takes hold at one postmark. DESIGN CHOICE: a unit started, or a swap accepted, since check 0x14 is not looked
at again: the section goes into the unit as it stands, and a TIMETABLE section into the bank that is inactive now. -/
def applyPoint (s : State) : State :=
  if s.rmap.cmd ≠ cmdApply ∨ s.rmap.staged.isEmpty ∨ resetBegun s then s
  else
    let l := s.rmap.staged
    let s1 := (s.put F.SYS_RMAP_APPLY_LO_PM_LO s.pm).put F.SYS_RMAP_APPLY_HI_PM_HI (s.pm / 2 ^ 32)
    let s2 := (s1.incWrap F.SYS_RMAP_LIVE_LIVE_SEQ).modRmap (fun r => { r with staged := [] })
    let s3 := startUnits false l (applySections false false l s2)
    if l.any (fun x => x.typ == 0x0B) then startSwap s3 else s3

/-! What a start brings into the partitions (R377, R380, R381). -/

def flushBase : Nat := 0x03C80000
def ringBytes : Nat := 131072

/-- `n` bytes copied from one place to another. -/
def copyArea (src dst n : Nat) (s : State) : State :=
  let src_ := s.mem.filter (fun e => src ≤ e.1 && e.1 < src + n)
  let rest := s.mem.filter (fun e => !(dst ≤ e.1 && e.1 < dst + n))
  { s with mem := src_.foldl (fun m e => mapIns (e.1 - src + dst) e.2 m) rest
           ledg := { s.ledg with flips := s.ledg.flips.filter (fun f => !(dst ≤ f.addr && f.addr < dst + n)) } }

/-- The ring takes the flush area's copy after a valid check, or starts empty (R380). -/
def ringFill (s : State) : State :=
  match s.part 5 with
  | none => s
  | some p =>
    if s.flag F.DLF_STAT_RELOADED then copyArea flushBase p.base ringBytes s
    else { s with mem := s.mem.filter (fun e => !(p.base ≤ e.1 && e.1 < p.base + ringBytes)) }

/-- AUX of the START entry (Table 18.8). -/
def startAux (k : StartKind) : Nat := match k with | .cold => 1 | .warm => 2 | .deep => 3 | .hush => 4

/-- The day-book writer begins at index 0 with a START entry of SEQ 0 (R381). -/
def startBook (s : State) : State :=
  match s.part 4 with
  | none => s
  | some _ =>
    let s1 := (s.put F.DAYB_WR_IDX 0).put F.DAYB_SEQ_SEQ 0
    (dayWrite ⟨s1.pm, 0x7E, 0x01, startAux s1.pow.start, (s1.reg A.SYS_RST_STAT).toNat⟩ s1).mark F.DAYB_STAT_READY

/-- Sections that write what lies in the always-on domain alone: TIMER_CFG, RETAIN and WAKE. -/
def alwaysOnSection (x : Section) : Bool := x.typ == 0x0E || x.typ == 0x10 || x.typ == 0x12

/-- The sections a boot applies: on an exit from DEEP the always-on domain keeps its values (R336, R339, Table 17.2). -/
def bootSections (deep : Bool) (l : List Section) : List Section := if deep then l.filter (fun x => !alwaysOnSection x) else l

/-- The image in a slot is applied and its units start (R25, R32, R359). On an exit from DEEP the units beside the always-on domain are at
their reset values (Table 17.2). -/
def bootImage (deep b : Bool) (s : State) : State :=
  let e := slotEnv b
  let l := bootSections deep (envSections s e)
  let ver := envNum s e 8 4
  let sig := sigState s e
  let s1 := startBook (ringFill (applySections true false l (if deep then s else unconfigure l s)))
  let s2 := ((s1.put F.SYS_RMAP_VER_BOOTED_VER ver).putB F.SYS_RMAP_STAT_BOOTED_SLOT b).put F.SYS_RMAP_STAT_SIG_STATE sig
  let s3 := s2.put F.SYS_RMAP_STAT_WAITING 0
  let s4 := if s3.isHead && s3.get F.CAS_IDTAB_BASE != 0xFFFF then setIdEntry 0 ⟨ownUid, 1, 0⟩ s3 else s3
  startUnits true l s4

/-- What an attempt leaves that met a line reading uncorrectable at `a` while its sections were applied (R431): the units are as they
were before any image, and what the earlier sections wrote into the ledger stands. -/
def bootUndone (deep b : Bool) (a : Nat) (s : State) : State :=
  let e := slotEnv b
  let t := applySections true false (bootSections deep (sectionsUpTo (a - e.base) 64 (envSections s e))) s
  let s1 := if deep then s else unconfigure [] s
  rebin binBase 0x40000 { s1 with mem := t.mem, ledg := t.ledg }

/-- A slot that passed its checks is applied, line by line; the flag tells that no line read uncorrectable meanwhile (R431). -/
def applyImage (deep b : Bool) (s : State) : Bool × State :=
  let e := slotEnv b
  let n := envLen s e
  match firstPoison s e.base n with
  | some a => (false, loaderReads e.base n (bootUndone deep b a s))
  | none => (true, bootImage deep b (loaderReads e.base n s))

/-- RMAP_COMMAND_DONE (R33, R34): a LOAD that passed its checks boots its slot. DESIGN CHOICE: the slot is read anew as it is applied, and what
has been written into it since its checks, which Table 2.16 does not bar, is applied unchecked. -/
def rmapDone (s : State) : State :=
  let r := s.rmap
  if !s.flag F.SYS_RMAP_STAT_BUSY || !r.staged.isEmpty || resetBegun s then s
  else
    let (ok, s0) := if cmdLoadA ≤ r.cmd ∧ r.reason = rmOk then applyImage false (r.cmd == cmdLoadB) s else (true, s)
    let reason := if ok then r.reason else rmEnvCrc
    let s1 := ((s0.put F.SYS_RMAP_STAT_BUSY 0).mark F.SYS_RMAP_STAT_DONE).put F.SYS_RMAP_STAT_RESULT reason
    let s2 := (s1.put F.SYS_RMAP_STAT_RESULT_SECT r.sect).modRmap (fun r => { r with cmd := 0 })
    dayPush 0x00 0x10 r.cmd (reason + r.sect * 2 ^ 8) s2

/-! Choosing the boot image (R30, R31, R344, R358). -/

/-- VERSION for the order of NEWEST: 0 where MAGIC or HDR_CRC fails. -/
def slotVersion (s : State) (b : Bool) : Nat :=
  let e := slotEnv b
  if (firstPoison s e.base 64).isSome || envNum s e 0 4 != 0x4D525843 || crc32 (s.bytes e.base 60) != envNum s e 60 4 then 0
  else envNum s e 8 4

/-- Slots in the order Table 2.8 tries them. -/
def bootOrder (s : State) (straps : Nat) : List Bool :=
  match straps with
  | 0 => if slotVersion s false < slotVersion s true then [true, false] else [false, true]
  | 1 => [false, true]
  | 2 => [true, false]
  | 3 => [false]
  | 4 => [true]
  | _ => []

/-- A_REASON or B_REASON of SYS_RMAP_BOOT. -/
def slotReason (b : Bool) : Fd := if b then F.SYS_RMAP_BOOT_B_REASON else F.SYS_RMAP_BOOT_A_REASON

/-- Cells of a slot that turn between its checks and its application: free values, since a cell may turn at any time (R431). -/
def turnSlot (b : Bool) (s : State) : State :=
  let e := slotEnv b
  (Config.cellsTurn s.freeCtr).foldl (fun s f => if f.1 < e.room then turnCell ⟨e.base + f.1 / 8 * 8, f.2 % 72⟩ s else s)
    { s with freeCtr := s.freeCtr + 1 }

/-- One slot is tried: its result is recorded, and a slot that passes is applied. The flag tells that a slot has been booted. -/
def trySlot (deep : Bool) (a : Bool × State) (b : Bool) : Bool × State :=
  if a.1 then a
  else
    let s := a.2
    let v := checkEnvelope s (slotEnv b)
    let s1 := (checksRead (slotEnv b) v s).put (slotReason b) v.reason
    if v.reason ≠ rmOk then (false, s1)
    else
      let (ok, s2) := applyImage deep b (turnSlot b s1)
      (ok, if ok then s2 else s2.put (slotReason b) rmEnvCrc)

/-- Under NEWEST both headers are read for their VERSION first (R30). -/
def readVersions (s : State) : State := loaderReads (slotEnv true).base 64 (loaderReads (slotEnv false).base 64 s)

/-- The loader's part of step 7 (Table 17.3) or of an exit from DEEP: an image is booted, or route-map wait is entered. -/
def loadImage (deep : Bool) (s : State) : State :=
  let straps := s.get F.SYS_RMAP_BOOT_STRAPS
  let order :=
    if deep then [s.flag F.SYS_RMAP_STAT_BOOTED_SLOT]
    else if s.flag F.SYS_STRAP_ROLE_BAD then [] else bootOrder s straps
  let s0 := if !deep && 6 ≤ straps then s.mark F.SYS_RMAP_STAT_STRAP_BAD else s
  let s0 := if !deep && straps = 0 && !s.flag F.SYS_STRAP_ROLE_BAD then readVersions s0 else s0
  let (ok, s1) := order.foldl (trySlot deep) (false, s0)
  if ok then s1 else s1.mark F.SYS_RMAP_STAT_WAITING

end Sys2Proof.Machine
end

