-- ==== Sys2Proof/Machine/Franking.lean ====
section
/-!
DEFINITION. The gatekeeper's decision on an offer (10, R203 to R208, Table 10.4; R36, R48, R50, R247).
-/

namespace Sys2Proof.Machine

/-- Check 1: the letter is malformed or not the offerer's to offer. -/
def badLetter (o : Offer) : Bool :=
  !kindAllowed o.unit (recKind o.body) || bit (recNum o.body 10 3) 23 || scaleReserved (recNum o.body 19 1)

/-- Checks 3 to 10 of Table 10.4 on a configuration: the code of the first that fails. -/
def budgetCode (s : State) (o : Offer) : Option Nat :=
  match routeOf s (recKind o.body) with
  | none => some 3
  | some (dest, c) =>
    let far := dest == 1 && !s.isHead
    if far && !(s.flag F.CAS_STAT_PATH && !lk0Outage s) then some 4
    else if s.get F.GATE_OPEN_LIMIT ≤ s.gate.opened.length then some 5
    else if !far && decide (s.get (F.GATE_QUOTA_OBXQ (c - 1)) ≤ s.get (F.GATE_USE_OBX_USED (c - 1))) then some 6
    else if far && credFree s c == 0 then some 7
    else if far && decide (s.get (F.GATE_SHARE_SHARE (c - 1)) ≤ inWindow s c) then some 8
    else if !loadOk s (some o.unit) o.f then some 9
    else if s.pace.polUsed == 1 && decide (fusedPace (s.pace.vcapUsed / 10) < paceNeed s (some o.unit) o.f) then some 10
    else none

/-- The reason with which an offer is returned, none when it is franked. While an APPLY waits for its apply point the letter has to fit the
new configuration and the old one, and the reason is the new one's where it has one (R36). -/
def returnCode (s : State) (o : Offer) : Option Nat :=
  if paceFault s then some 10
  else if badLetter o then some 1
  else if s.safe then some 2
  else if s.rmap.staged.isEmpty then budgetCode s o
  else match budgetCode (candidate true s.rmap.staged s) o with
    | some r => some r
    | none => budgetCode s o

/-- The offerer learns the decision. -/
def decided (u : Nat) (accepted : Bool) (s : State) : State :=
  if u = 0x78 then trendDecided accepted s else settleStop u s

/-- LETTER_OFFER: the gatekeeper decides the offer that has waited longest (R204). It decides none while it is stopped (R31,
R341, R346, R428) or in its reset (Table 18.3). -/
def letterOffer (s : State) : State :=
  if s.quiet || s.flag F.SYS_RMAP_STAT_WAITING || s.flt.resets.contains 0x77 then s
  else match s.gate.offers with
    | [] => s
    | o :: rest =>
      let s1 := pruneLog (s.modGate (fun g => { g with offers := rest }))
      if o.unit ≤ 0x40 ∧ nth s1.gate.kSkip o.unit 0 ≠ 0 then
        let s2 := s1.modGate (fun g => { g with kSkip := upd g.kSkip o.unit (· - 1) })
        decided o.unit true (answer o.unit 0 0 true s2)
      else match returnCode s1 o with
        | some r => decided o.unit false (returnLetter o r s1)
        | none =>
          match routeOf s1 (recKind o.body) with
          | some (dest, c) => decided o.unit true (frank o dest c s1)
          | none => s1

end Sys2Proof.Machine
end

