-- ==== Sys2Proof/Machine/Power.lean ====
section
/-!
DEFINITION. Entry into the lower power states, flushes, resets, power failure and comparators (16, 17, 18).
-/

namespace Sys2Proof.Machine

def State.modPow (s : State) (f : Power → Power) : State := { s with pow := f s.pow }

/-! Requests for a lower state (R345, Table 16.3). -/

/-- TREND_STAT.BUSY: a reading has been accepted and not yet committed. -/
def trendBusy (s : State) : Bool := s.trend.backs.any (fun w => !w.reads.isEmpty)

/-- TWP_STAT.BUSY: a transaction is in progress. -/
def twpBusy (s : State) : Bool := s.twp.stage == .write || s.twp.stage == .read

/-- Whether a unit of Table 16.3 refuses a mode. -/
def unitRefuses (s : State) (mode u : Nat) : Bool :=
  if isPortUnit u then 2 ≤ mode && (match s.port (u - 0x41) with | some q => q.round.isSome || q.walk.isSome | none => false)
  else if 0x61 ≤ u ∧ u ≤ 0x70 then fcLoading s (u - 0x61)
  else if u = 0x71 then 2 ≤ mode && (s.gate.up.any (fun l => !l.isEmpty) || frType (s.link 0).wire == ftLetter)
  else if u = 0x75 then 2 ≤ mode && (s.host.low || s.flag F.HOST_STAT_WIP)
  else if u = 0x76 then mode == 3 && twpBusy s
  else if u = 0x77 then s.flag F.SYS_RMAP_STAT_BUSY && s.rmap.cmd == cmdApply
  else if u = 0x78 then 2 ≤ mode && trendBusy s
  else if u = 0x79 then 2 ≤ mode && (s.flag F.TT_STAT_SWAP_PEND || s.flag F.TT_STAT_EDIT_PEND || s.flag F.TT_STAT_COPY_BUSY)
  else if u = 0x7A then 2 ≤ mode && (s.ledg.txns.any (fun t => t.phase != .opened) || !s.ledg.moves.isEmpty || s.ledg.bufs.any (fun b => !b.isEmpty))
  else if u = 0x7D then mode == 3 && !s.flag F.SYS_RST_STAT_XLO_OK
  else false

/-- The lowest unit that refuses. -/
def refuser (s : State) (mode : Nat) : Option Nat := findBelow 0x80 (unitRefuses s mode)

/-- A wake source of Table 16.5 is enabled for a mode. -/
def anyWake (s : State) (mode : Nat) : Bool :=
  (List.range 9).any (fun b => bit (s.reg A.PWR_WAKE).toNat b && wakeEnds b mode && (4 ≤ b || s.flag (F.CMP_CTRL_EN b)))

/-- PWR_LASTENT and the POWER day-book entry (R345, Table 18.8). -/
def noteEntry (cause mode : Nat) (unit : Option Nat) (s : State) : State :=
  let w := (match unit with | some u => u * 2 ^ 16 + 2 ^ 15 | none => 0) + cause * 2 ^ 8 + mode
  dayPush 0x00 0x20 cause w (s.setReg A.PWR_LASTENT (BitVec.ofNat 32 w))

/-- A start of a flush (R378), or what follows one that is running or has been made. -/
def flushThen (reason : Nat) (what : FlushThen) (finish : State → State) (s : State) : State :=
  if s.flag F.DLF_STAT_FLUSHING then
    s.modPow (fun p => if p.flush = .powerFail then p else { p with flush := what })
  else if s.flag F.DLF_STAT_FROZEN then finish s
  else freeze reason what s

/-- The postmaster's WAIT with a lower mode (R345, R346): refused, or DOZE is entered, or an entry begins. The flag tells that
the postmaster goes on at once. -/
def requestEntry (s : State) : Bool × State :=
  let mode := s.get F.PWR_MODE_MODE
  match refuser s mode with
  | some u => (true, noteEntry 2 mode (some u) (s.incSat F.PWR_CNT_REFUSED))
  | none =>
    if !anyWake s mode then (true, noteEntry 3 mode none (s.incSat F.PWR_CNT_REFUSED))
    else
      let s1 := forUpTo 64 (fun n s => cancelSpec (n + 1) s) s
      if mode = 1 then (false, noteEntry 1 1 none (s1.put F.PWR_STAT_STATE 1))
      else
        let s2 := (s1.mark F.PWR_STAT_ENTERING).modPow (fun p => { p with entryMode := mode, wakeSeen := false, wakeLate := false, flushed := false })
        (false, freeze 0x03 .powerEntry s2)

/-- The ring takes writes again after an entry that was aborted: slots of letters that closed meanwhile are freed. -/
def unfreeze (s : State) : State :=
  let s1 := ((s.put F.DLF_STAT_FROZEN 0).put F.DLF_STAT_FLUSHING 0).modPow (fun p => { p with flush := .none, flushed := false })
  forUpTo 3840 (fun i s => if s.gate.opened.any (fun l => l.slot == i) then s else ringPut i (List.replicate 32 0#8) s) s1

/-- Units take up what stopped in step 2 of an entry, and what was started meanwhile (R346): chains, links and the sequencer. -/
def resumeUnits (s : State) : State :=
  let s1 := forUpTo 16 (fun i s => if s.flag (F.FC_CTRL_RUN i) && !((s.chain i).map (·.run)).getD true then chainBegin i s else s) s
  advanceAll (forUpTo 4 (fun n s => if s.flag (F.CAS_L_STAT_PRS n) && linkEnabled s n && lstate s n == lsDown then beginTraining n s else s) s1)

/-- ENTRY_ABORT (R346): by an enabled wake source met since the entry began, else by a unit that became busy. Nothing aborts an entry once stage 5
has begun. -/
def entryAbort (unit : Option Nat) (s : State) : State :=
  if !s.flag F.PWR_STAT_ENTERING || s.pow.flushed then s
  else
    let mode := s.pow.entryMode
    let abort (cause : Nat) (u : Option Nat) :=
      wakePostmaster (noteEntry cause mode u ((resumeUnits (unfreeze (s.put F.PWR_STAT_ENTERING 0))).incSat F.PWR_CNT_ABORTED))
    if s.pow.wakeSeen then abort 5 none
    else match unit with
      | some u => abort 4 (some u)
      | none => s

/-! What a reset keeps (Table 17.2). -/

inductive ResetKind where
  | cold | warm | deep
  deriving DecidableEq, Repr

/-- The always-on registers beside the timers block: PWR and CMP (R339). -/
def alwaysOn (a : Nat) : Bool := (0x10100200 ≤ a && a < 0x10100220) || (0x10100300 ≤ a && a < 0x10100314) || (0x1007D000 ≤ a && a < 0x1007E000)

/-- Registers that show what the cells keep (R67, R68). -/
def keepWear (old : State) (s : State) : State :=
  (s.put F.LEDG_WEAR_SPARES (old.get F.LEDG_WEAR_SPARES)).put F.LEDG_WEAR_MAXWEAR (old.get F.LEDG_WEAR_MAXWEAR)

/-- DLF_CNT.FLUSHES counts since the last cold reset (Table 18.14). -/
def keepFlushes (old : State) (s : State) : State := s.put F.DLF_CNT_FLUSHES (old.get F.DLF_CNT_FLUSHES)

/-- What an exit from DEEP keeps of registers beside PWR, CMP and the timers block (R339). -/
def keepStraps (old : State) (s : State) : State :=
  ((((s.setReg A.SYS_STRAP (old.reg A.SYS_STRAP)).put F.SYS_RMAP_BOOT_STRAPS (old.get F.SYS_RMAP_BOOT_STRAPS)).put F.TWP_STAT_ADDR (old.get F.TWP_STAT_ADDR)).put
    F.SYS_RMAP_STAT_BOOTED_SLOT (old.get F.SYS_RMAP_STAT_BOOTED_SLOT)).put F.SYS_RMAP_VER_BOOTED_VER (old.get F.SYS_RMAP_VER_BOOTED_VER)

/-- The state of Table 17.2 after a reset or an entry into DEEP. -/
def resetTo (k : ResetKind) (s0 : State) : State :=
  let s := losePower s0
  let always := k = .deep
  let base : State := { State.reset with
    pending := s.pending, mem := s.mem, tb := s.tb, freeCtr := s.freeCtr, rdata := s.rdata, recs := s.recs
    regs := if always then s.regs.filter (fun e => alwaysOn e.1) else []
    ledg := { s.ledg with scrubPtr := 0 }
    flt := { idleFaults with recov := s.flt.recov.filter (· == 0x100) }
    tmr := if always then s.tmr else State.reset.tmr
    tap := if k = .warm then s.tap else idleTap
    rmap := if always then { idleRmap with retain := s.rmap.retain, safeLevels := s.rmap.safeLevels, pins := s.rmap.pins } else idleRmap
    pow := { coldPower with
      rstLow := s.pow.rstLow, pfailLow := s.pow.pfailLow, lowFreq := k != .cold && s.pow.lowFreq
      tbDue := k == .cold || (k == .warm && s.pow.tbDue)
      keepBox := if always then s.pow.keepBox else []
      phase := if always then s.pow.phase else .coldHold
      start := if k = .cold then .cold else if always then .deep else .warm } }
  let s1 := recovering (keepWear s base)
  if k = .cold then s1
  else
    let s2 := keepFlushes s (s1.setReg A.SYS_RST_STAT (s.reg A.SYS_RST_STAT))
    if always then keepStraps s s2 else s2.put F.PWR_STAT_OSC_OK (s.get F.PWR_STAT_OSC_OK)

/-- The device's logic is reset; it stays in reset while a pin holds it (R354, R374), else the regulator stage begins. -/
def warmReset (s : State) : State :=
  (resetTo .warm s).modPow (fun p => { p with phase := if p.rstLow || p.pfailLow then .resetHold else .regulator })

/-- A warm reset that RST_N or SYS_RST brings (R354, R362); `pin` tells which. -/
def doWarm (pin : Bool) (s : State) : State :=
  warmReset ((if pin then s.mark F.SYS_RST_STAT_PIN else s.mark F.SYS_RST_STAT_SOFT))

/-- The end of a power failure's flush (Table 18.4, step 6; R375): held in reset, or restarted if PFAIL_N has risen. -/
def holdFail (s : State) : State :=
  let s1 := warmReset (if s.pow.rstLow then s.mark F.SYS_RST_STAT_PIN else s)
  if s1.pow.pfailLow then s1.mark F.SYS_FAULT_PFAIL else s1.mark F.SYS_FAULT_PF_RESTART

/-- A flush is made before this reset (R354). -/
def flushFirst (s : State) : Bool := s.pow.phase == .up && s.pwr ≤ 1 && (!s.safe || s.flag F.DLF_STAT_FLUSHING)

/-- RESET_PIN and SOFT_RESET (R353, R354). -/
def warmRequest (pin : Bool) (s0 : State) : State :=
  let s := if pin then s0.modPow (fun p => { p with rstLow := true }) else s0
  if s.pow.phase = .coldHold then s
  else if s.pow.phase = .resetHold then (if pin then s.mark F.SYS_RST_STAT_PIN else s)
  else
    let s1 := openRecovery 0x100 s
    if !flushFirst s then doWarm pin s1
    else match s.pow.flush, pin with
      | .reset was, true => (if was then s1 else s1.mark F.SYS_RST_STAT_SOFT).modPow (fun p => { p with flush := .reset true })
      | .reset _, false => s1
      | _, _ =>
        let s2 := if s.safe then s1 else trendFlush s1
        flushThen 0x02 (.reset pin) (doWarm pin) (s2.put F.PWR_STAT_ENTERING 0)

def resetPin (s : State) : State := warmRequest true s
def softReset (s : State) : State := warmRequest false s

/-- RESET_RELEASE (R354): RST_N rises. -/
def resetRelease (s : State) : State :=
  let s1 := s.modPow (fun p => { p with rstLow := false })
  if s1.pow.phase = .resetHold ∧ !s1.pow.pfailLow then s1.modPow (fun p => { p with phase := .regulator }) else s1


/-- POWER_UP (R353, R356): the last rail has crossed its threshold. -/
def powerUp (s : State) : State :=
  if s.pow.phase ≠ .coldHold then s
  else s.modPow (fun p => { p with phase := if p.rstLow || p.pfailLow then .resetHold else .regulator })

/-- POWER_FAIL (R374, R375, Table 18.10). -/
def powerFail (s0 : State) : State :=
  let s := (s0.mark F.SYS_FAULT_PFAIL).modPow (fun p => { p with pfailLow := true, charged := s0.flag F.SYS_HOLD_CHARGED })
  if s0.pow.pfailLow then s0
  else if s0.pow.phase = .coldHold then s0.modPow (fun p => { p with pfailLow := true })
  else if s0.pow.phase = .resetHold then s
  else
    let s1 := openRecovery 0x100 s
    if !flushFirst s then holdFail s1
    else
      let s2 := forUpTo 65 cancelSpec (if s.safe then s1 else trendFlush s1)
      let s3 := (forUpTo 32 abandonExchange s2).put F.PWR_STAT_ENTERING 0
      flushThen 0x01 .powerFail holdFail s3

/-- POWER_RESTORED (R375): at once in reset; during the flush, once it is complete. -/
def powerRestored (s : State) : State :=
  if !s.pow.pfailLow then s
  else
    let s1 := s.modPow (fun p => { p with pfailLow := false })
    if s.pow.phase = .resetHold then
      ((s1.put F.SYS_FAULT_PFAIL 0).mark F.SYS_FAULT_PF_RESTART).modPow (fun p => { p with phase := if p.rstLow then .resetHold else .regulator })
    else if s.pow.phase = .coldHold then s1
    else s1.put F.SYS_FAULT_PFAIL 0

/-- TAP_RESET (R353): the test access port alone. -/
def tapReset (s : State) : State := { s with tap := idleTap }

/-! The flush (R379). -/

/-- Line `i` of the ring as it was read is programmed into the flush area, behind a move of its block (Table 4.2); where its program fails and
no spare is left, the line there keeps its old contents (R68). -/
def flushLine (ring : List Byte) (i : Nat) (v : Verify) (s0 : State) : State :=
  let a := flushBase + 64 * i
  let s := if lineWaits s0 a then finishMoves s0 else s0
  let (ok, s1) := programAs v a s
  if ok then putBytes a ((ring.drop (64 * i)).take 64) (heal a s1) else reportFailed 0x7F s1

/-- The record of a flush of `ring` has been programmed (R379, Table 18.14). -/
def flushNoted (ring : List Byte) (s : State) : State :=
  let n := s.flt.flushSeq
  let reason := recNum (ring.drop 0x1E000) 4 1
  let pm := recNum (ring.drop 0x1E000) 8 8
  let s1 := { s with recs := { s.recs with flush := some (n, reason, pm, crc32 ring) } }
  (((s1.put F.DLF_SEQ_FLUSHSEQ n).put F.DLF_REASON_REASON reason).put F.DLF_PM_LO_PM pm).put F.DLF_PM_HI_PM (pm / 2 ^ 32)

/-- The dead-letter engine reads the ring (R65), programs it into the flush area and then programs the flush record, each line with what its
verify finds. Without a ring there is nothing to program. -/
def flushRing (vs : List Verify) (s0 : State) : State :=
  match s0.part 5 with
  | none => s0
  | some p =>
    let (ring, s) := bytesAs 0x7F ringBytes p.base s0
    let s1 := finishMoves (forUpTo 2048 (fun i s => flushLine ring i (vs.getD i .good) s) s)
    let (ok, s2) := programRecord (vs.getD 2048 .good) recFlushIx s1
    if ok then flushNoted ring s2 else reportFailed 0x7F s2

/-- The energy of VHOLD runs out in the middle of a flush (Table 20.11): the write buffers have completed (Table 18.4, step 4), the line of the state
block, and how many others is not stated, have been programmed, and no flush record. -/
def flushCut (s0 : State) : State :=
  match s0.part 5 with
  | none => s0
  | some p =>
    let (ring, s) := bytesAs 0x7F ringBytes p.base (drainBuffers s0)
    let (n, s1) := s.free
    forUpTo 2048 (fun i s => if i = 1920 ∨ i < n % 2048 then flushLine ring i .good s else s) s1

/-- The flush that PFAIL_N began runs from VHOLD (R407). -/
def onHoldUp (s : State) : Bool := s.flag F.DLF_STAT_FLUSHING && s.pow.flush == .powerFail

/-- POWER_ON_RESET (R353): a cold reset; it resets the test access port and clears the keep box. While a flush runs from VHOLD it is ignored until
the flush record has been programmed; where VHOLD was not charged when PFAIL_N was recognised the spec leaves open whether its energy lasts until then (R407, R421). -/
def powerOnReset (s : State) : State :=
  if !onHoldUp s then resetTo .cold s
  else if s.pow.charged then s.modPow (fun p => { p with railLow := true })
  else
    let (v, s1) := s.free
    if v % 2 = 0 then s1.modPow (fun p => { p with railLow := true }) else resetTo .cold (flushCut s1)

/-! Comparators (R348). -/

/-- COMPARATOR_TRIP: the output has stood on the wake side for FILT. -/
def comparatorTrip (n : Nat) (s : State) : State :=
  if 4 ≤ n || !s.flag (F.CMP_CTRL_EN n) || s.pow.phase == .coldHold || bit (s.get F.CMP_STAT_OUT) n then s
  else
    let s1 := s.put F.CMP_STAT_OUT (s.get F.CMP_STAT_OUT ||| 2 ^ n)
    let s2 := s1.put F.CMP_STAT_TRIP (s1.get F.CMP_STAT_TRIP ||| 2 ^ n)
    let s3 := wakeNoted n s2
    wakeRecognised n (if s3.pow.phase == .up && s3.pwr ≤ 1 then pmEvent 0x3B (s3.get F.CMP_STAT_OUT) 0 n 0x00 s3 else s3)

/-- COMPARATOR_WAKE_SIDE_LEFT. -/
def comparatorLeft (n : Nat) (s : State) : State :=
  if 4 ≤ n || !s.flag (F.CMP_CTRL_EN n) then s
  else s.put F.CMP_STAT_OUT (s.get F.CMP_STAT_OUT &&& (0xF ^^^ 2 ^ n))

end Sys2Proof.Machine
end

