-- ==== Sys2Proof/Machine/Commit.lean ====
section
/-!
DEFINITION. The commit point and the retire record (04, R70, R71; 11, R245, R246), and debug halts (11, R252).
-/

namespace Sys2Proof.Machine

/-- The identity checks of a port whose nodes are no longer to be checked are dropped, queued or about to be sent (R122). -/
def dropChecks (p : Nat) (s : State) : State :=
  (pruneChecks p s).modPort p (fun q => { q with want := q.want.filter (fun w => w.2 != .check || q.checks.any (fun c => unicastTo w.1 == some c.node)) })

/-- What follows a write of `n` bytes at `a` once it stands over `s0`: the index of bins takes up a bin line (R170), a port whose node
directory it lies in looks at its identity checks anew (R122), and a change of the ID table goes to the standbys (R297). -/
def noteWrite (a n : Nat) (s0 s : State) : State :=
  if a < 0x03D00000 || 0x05800000 ≤ a then rebin a n s
  else mirrorWrite a n s0 (forUpTo 32 (fun p s => if overlaps (dirBase s p) 0x40000 a n then dropChecks p s else s) s)

/-- A core halts now (R252): run-ahead is cancelled, and a series of repetitions is left as R270 lays down. -/
def haltCore (c : Nat) (s : State) : State :=
  let s1 := cancelSpec c s
  let w := s1.get (F.SRT_STAT_STATE c) = stWaiting
  (s1.put (F.SRT_STAT_STATE c) stHalted).modCore c (fun k => { k with haltPend := false, wasWaiting := w, series := .idle })

/-- A core reaches an instruction boundary after a commit: a stop or a halt asked for meanwhile takes place (R249, R252). -/
def settleCore (c : Nat) (s : State) : State :=
  let s1 := settleStop c s
  match s1.core c with
  | none => s1
  | some k =>
    if k.haltPend && !k.commitHold && s1.get (F.SRT_STAT_STATE c) != stStopped then haltCore c s1 else s1

/-- A seal has committed (R246); a write held until now that made the record before it not valid (R249) is not made over it. -/
def sealCommitted (c : Nat) (s : State) : State :=
  let s0 := s.modLedg (fun l => { l with held := l.held.filter (fun h => match h with | .write 0x7A a _ none => a != sealSlot c | _ => true) })
  let s1 := s0.modCore c (fun k => { k with taken := [], commitHold := false })
  let s2 := (s1.mark (F.SRT_STAT_SEALED c)).incWrap (F.SRT_CNT_SEALS c)
  s2.modGate (fun g => { g with kCount := upd g.kCount c (fun _ => 0) })

/-- Whether the ledger takes a transaction past its commit point now: not once a flush has stopped it (Table 18.4, step 4),
not in its reset, and no seal in safe hold (Table 18.2). -/
def mayCommit (s : State) (t : Txn) : Bool :=
  !s.quiet && !s.flt.resets.contains 0x7A && !(match t.act with | .seal _ => s.safe | _ => false)

/-- What became of a transaction. -/
inductive TxnEnd where
  | done       -- it passed its commit point
  | conflict   -- it failed by conflict, or by the controller's reset
  | failed     -- a program of it failed (R68), or a write overflowed it (R69)
  deriving DecidableEq, Repr

/-- A transaction has ended: its owner goes on, and learns of a conflict (R70, R245, R246). -/
def txnEnded (t : Txn) (how : TxnEnd) (s : State) : State :=
  match t.act with
  | .seal c =>
    if how = .done then settleCore c (sealCommitted c s)
    else settleCore c (s.modCore c (fun k => { k with commitHold := false, sealFail := true, sealConf := k.sealConf || how == .conflict }))
  | .node p => if how = .done then nodeCommitted p s else s.modPort p (fun q => { q with txn := none })
  | .none =>
    let s1 := if how = .conflict then setTxnFlag t.owner .conflict s else s
    if t.owner ≤ 0x40 then settleCore t.owner (s1.modCore t.owner (fun k => { k with commitHold := false })) else s1

/-- COMMIT_POINT (R70): every line of the owner's transaction becomes visible at once, and its owner learns so. Its programs are those of the
images, then of the commit record, which are held where they fall into a block being moved (Table 4.2). -/
def commitPoint (u : Nat) (s : State) : State :=
  match txnOf s u with
  | none => s
  | some t =>
    if t.phase ≠ .committing || !mayCommit s t || !journalFree s (t.lines.length + 1) then s
    else
      let (ok, s1) := commitLines u s.ledg.verify (s.modLedg (fun l => { l with verify := [] }))
      if ok then txnEnded t .done (t.lines.foldl (fun x e => noteWrite e.1 64 s x) s1) else txnEnded t .failed s1

/-- What follows when the writes held at `s0` have been done again: those that now stand are noted, and the owner of a deferred COMMIT whose
transaction is gone goes on (R71); node transactions that waited for such a write begin (R178). -/
def heldReleased (s0 s : State) : State :=
  retryNodes (s0.ledg.held.foldl (fun s h => match h with
    | .write _ a d none => noteWrite a d.length s0 s
    | .write _ _ _ (some _) => s
    | .commit u => (match txnOf s0 u with
      | some t => if (txnOf s u).isSome then s else txnEnded t (if t.conflict then .conflict else .failed) s
      | none => s)) s)

/-- RETIRE_RECORD (R71). Its programs are those of the home lines, then of the record. -/
def retireRecord (u : Nat) (s : State) : State :=
  if s.quiet || s.flt.resets.contains 0x7A then s else heldReleased s (retireTxn u s.ledg.verify s)

/-- The next step of a move ends; the writes that it held proceed once it has passed its commit point (R67, Table 4.2). -/
def moveDone (v : Verify) (s : State) : State :=
  let s1 := moveStep v s
  if s1.ledg.held.isEmpty then s1 else heldReleased s1 (redoHeld s1)

/-- The ledger controller's reset fails a transaction before its commit point with CONFLICT (Table 18.3). -/
def failTxn (t : Txn) (s : State) : State := txnEnded t .conflict (dropTxn t.owner s)

/-! Slots and holds (R366, R368). -/

/-- FAULT_SLOT_CLEAR (R366): no effect on a slot whose CHECK recovery runs. Once no PACE fault stands, the next
short window is an onset (R48). -/
def slotClear (u : Nat) (sec : Bool) (s : State) : State :=
  if (if sec then !secValid s u else !priValid s u) || s.flt.check.contains u then s
  else
    let s1 := clearSlot u sec s
    if paceFault s && !paceFault s1 then { s1 with pace := { s1.pace with prevShort := false } } else s1

/-- A unit starts as after a unit reset (R368). -/
def unitRestart (u : Nat) (s : State) : State :=
  if u ≤ 0x40 then coreReset u s
  else if 0x61 ≤ u ∧ u ≤ 0x70 then
    let i := u - 0x61
    if s.flag (F.FC_CTRL_RUN i) && !s.quiet then (chainBegin i s).modChain i (fun c => { c with gap := true }) else s
  else if 0x71 ≤ u ∧ u ≤ 0x74 then
    let n := u - 0x71
    if s.flag (F.CAS_L_STAT_PRS n) && linkEnabled s n && !s.quiet && lstate s n == lsDown then beginTraining n s else s
  else if isPortUnit u then advance (u - 0x41) s
  else s

/-- UNIT_RELEASE (R368): no effect on a unit that is not held. -/
def unitRelease (u : Nat) (s : State) : State :=
  if !s.isHeld u then s
  else
    let h := F.SYS_FHELD_HELD (u / 32)
    let s1 := s.put h (s.get h - 2 ^ (u % 32))
    if s1.flt.resets.contains u then s1 else unitRestart u s1

end Sys2Proof.Machine
end

