-- ==== Sys2Proof/Machine/RegAccess.lean ====
section
/-!
DEFINITION. Register reads and writes (00, R2 to R7; 21, R422 to R426): the fields by access code, and the actions and
views each unit's chapter gives its registers.
-/

namespace Sys2Proof.Machine

/-! Blocks and banks. -/

/-- The remote-access channel of a writer (R296). -/
def raChannel (u : Nat) : Option Nat := if u = 0x75 then some 0 else if u = 0x76 then some 1 else if u = 0x00 then some 2 else none

/-- Registers of which each port or channel has its own copy (R425). -/
def isBanked (a : Nat) : Bool := a == A.LEDG_TXN || (0x10071880 ≤ a && a < 0x100718A8)

/-- Where a reader's or writer's copy lies; none where it has none. -/
def bankAddr (u a : Nat) : Option Nat :=
  if a = A.LEDG_TXN then (if u = 0x75 ∨ u = 0x76 then some (txnReg u) else none)
  else (raChannel u).map (fun c => a + c * 2 ^ 32)

/-! Unit I/O of a core as it stands, with no side effect (R233, R235). -/

/-- STATE and flags of a core's transaction interface (R245). -/
def coreTxn (s : State) (c : Nat) (k : Core) : Nat :=
  (match txnOf s c with | some t => if t.phase = .opened then 1 else 2 | none => 0) + 16 * b2n k.txnConf + 32 * b2n k.txnOver + 64 * b2n k.txnRef

/-- The I/O byte at 0xC000 + `o` of core `c`, in a condition `k`; none where the table has none. -/
def ioByte (s : State) (c : Nat) (k : Core) (o : Nat) : Option Nat :=
  if o = 0 then some c
  else if o = 1 then some k.queue.length
  else if o = 2 ∨ o = 4 then some 0
  else if 5 ≤ o ∧ o ≤ 0x0B then some (bits k.pmLatch (8 * (o - 4)) 8)
  else if o = 0x0C then some k.stage0.toNat
  else if o = 0x0D then some k.stage1.toNat
  else if o = 0x0E then some (k.winBase / 2 ^ 30)
  else if o = 0x0F then some (coreTxn s c k)
  else if o = 0x10 ∨ o = 0x11 ∨ o = 0x13 then some 0
  else if o = 0x12 then some k.ltrF
  else if o = 0x14 then some k.ltrRes
  else if 0x15 ≤ o ∧ o ≤ 0x18 then some (bits k.ltrSer (8 * (o - 0x15)) 8)
  else if 0x20 ≤ o ∧ o ≤ 0x3F then some (k.evbuf.getD (o - 0x20) 0#8).toNat
  else if 0x40 ≤ o ∧ o ≤ 0x5F then some (k.ltrbuf.getD (o - 0x40) 0#8).toNat
  else if 0x60 ≤ o ∧ o ≤ 0x63 then some (bits k.rbAddr (8 * (o - 0x60)) 8)
  else if 0x64 ≤ o ∧ o ≤ 0x67 then some 0
  else if o = 0x68 then some (b2n k.rbRef)
  else if 0x69 ≤ o ∧ o ≤ 0x6B then some 0
  else none

/-- The I/O byte as the core itself sees it. -/
def ioPeek (s : State) (c o : Nat) : Option Nat := (s.core c).bind (fun k => ioByte s c k o)

/-- The I/O byte its mirror shows: what run-ahead has not committed does not show (R57, R235). -/
def ioMirror (s : State) (c o : Nat) : Option Nat := (s.core c).bind (fun k => ioByte s c k.committed o)

/-- The I/O byte a mirror address shows (R235, R254). -/
def mirrorOf (a : Nat) : Option (Nat × Nat) :=
  let off := offOf a
  if 0x10000000 ≤ a ∧ blockOf a ≤ 0x40 ∧ 0x800 ≤ off ∧ off < 0xC00 ∧ a % 4 = 0 then some (blockOf a, (off - 0x800) / 4) else none

/-! Views: what a read returns beside what is stored. -/

/-- STATE of a core: a sorter held by a lower power state reads waiting (R340). -/
def stateView (s : State) (c : Nat) : Nat :=
  let st := s.get (F.SRT_STAT_STATE c)
  if c ≠ 0 ∧ (s.pwr ≠ 0 ∨ s.flag F.PWR_STAT_ENTERING) ∧ (st = stRunning ∨ st = stHolding) then stWaiting else st

def coreView (s : State) (c off w : Nat) : Nat :=
  match s.core c with
  | none => w
  | some k =>
    match off with
    | 0x000 => if c = 0 then setBits w 2 1 0 else w
    | 0x004 => setBits w 9 3 (stateView s c)
    | 0x008 => k.committed.r.pc.toNat
    | 0x01C => k.taken.length * 256 + k.queue.length
    | 0x020 => k.winBase
    | 0x028 => (k.committed.priv (s.get (F.SRT_MADDR_ADDR c))).toNat
    | _ => w

def chainView (s : State) (i off w : Nat) : Nat :=
  match off with
  | 0x004 => setBits (setBits (setBits (setBits w 3 1 (b2n (s.source (fcSrc s i)).ovl)) 2 1 (b2n (s.get (F.FC_SETTLE_REMAIN i) != 0)))
      1 1 (b2n (fcLoading s i))) 0 1 (b2n (fcActive s i))
  | 0x018 => setBits w 0 16 (settleLen s i)
  | 0x01C => groupDelay s i
  | 0x024 => coefNow s i
  | 0x028 => coefCrc s i
  | _ => w

def gateView (s : State) (off w : Nat) : Nat :=
  match off with
  | 0x000 => setBits (setBits w 1 1 (b2n (!s.rmap.staged.isEmpty))) 0 1 (b2n s.safe)
  | 0x004 => setBits w 16 1 (b2n s.isHead)
  | 0x008 => setBits w 0 12 (satTo 0xFFF s.gate.opened.length)
  | 0x028 => setBits w 16 16 (credFreeRead s 1)
  | 0x02C => setBits w 16 16 (credFreeRead s 2)
  | 0x030 => setBits w 16 16 (credFreeRead s 3)
  | _ => w

def seqView (s : State) (off w : Nat) : Nat :=
  match off with
  | 0x008 => setBits w 3 1 (b2n (ttStopped s))
  | 0x014 => sweepWord s
  | 0x028 => slotSelected s % 2 ^ 32
  | 0x02C => slotSelected s / 2 ^ 32
  | _ => w

/-- STATE and LINES of a port's LEDG_TXN (Table 4.10). -/
def txnView (s : State) (u w : Nat) : Nat :=
  match txnOf s u with
  | none => w
  | some t => setBits (setBits w 8 2 (if t.phase = .opened then 1 else 2)) 4 4 t.lines.length

/-- An arbiter's OWNER and IDLE. -/
def arbView (s : State) (b w : Nat) : Nat :=
  match (s.arbs[b]?).bind (·.owner) with
  | none => setBits (setBits w 31 1 1) 24 7 0
  | some u => setBits (setBits w 31 1 0) 24 7 u

/-- The word a register reads as, with no side effect: `w` is what is stored. -/
def viewWord (reader a w : Nat) (s : State) : Nat :=
  let u := blockOf a
  let off := offOf a
  if u = 0x100 then
    if off = 0x040 then s.pm % 2 ^ 32
    else if 0x2400 ≤ off ∧ off < 0x2460 then arbView s ((off - 0x2400) / 4) w
    else w
  else if u ≤ 0x40 then coreView s u off w
  else if u ≤ 0x60 then
    (if off = 0x048 then setBits (setBits w 20 10 (satTo 0x3FF (lbNeed s (u - 0x41)))) 31 1 (b2n (lbUnbound s (u - 0x41))) else w)
  else if u ≤ 0x70 then chainView s (u - 0x61) off w
  else if u = 0x71 then
    (if off = 0x800 then setBits w 8 1 (b2n (standbyArmed s)) else if off = 0x860 then devsPresent s else w)
  else if u = 0x76 then (if off = 0x004 then setBits w 0 1 (b2n (twpBusy s)) else w)
  else if u = 0x77 then gateView s off w
  else if u = 0x78 then (if off = 0x004 then setBits w 0 1 (b2n (trendBusy s)) else if off = 0x010 then s.trend.valid.length else w)
  else if u = 0x79 then seqView s off w
  else if u = 0x7A then
    (if off = 0x014 then txnView s reader w else if off = 0x018 then setBits w 0 5 (satTo 31 (openTxns s)) else w)
  else if u = 0x7C then (if off = 0x008 then satTo 0xFFFF (paceNeed s none 0) else w)
  else if u = 0x7D then (if off % 64 = 4 then tmrStatView s (off / 64) w else w)
  else w

/-- A read of the word at a host address above the memories, with no side effect (R7, R164, R235). -/
def regView (reader a : Nat) (s : State) : Nat :=
  if 0x10110000 ≤ a ∧ a < 0x10112000 then ofLe ((List.range 4).map (fun i => otpRead (a - 0x10110000 + i)))
  else match mirrorOf a with
  | some (c, o) => (ioMirror s c o).getD 0
  | none =>
    match findReg a with
    | none => 0
    | some _ =>
      if isBanked a then (match bankAddr reader a with | some b => viewWord reader a (s.reg b).toNat s | none => 0)
      else viewWord reader a (s.reg a).toNat s

/-- A register read with its side effect: POSTMARK_READ, SLOT_READ, COEF_READ, LAST_OUTPUT_READ, CAPTURE_READ,
CORE_MEMORY_READ. -/
def regRead (reader a : Nat) (s : State) : Nat × State :=
  let u := blockOf a
  let off := offOf a
  if a = A.SYS_PM_LO then postmarkRead s
  else if a = A.TT_RDATA_HI then slotRead s
  else if 0x61 ≤ u ∧ u ≤ 0x70 ∧ off = 0x024 then coefRead (u - 0x61) s
  else if 0x61 ≤ u ∧ u ≤ 0x70 ∧ off = 0x02C then (regView reader a s, lastOutputRead (u - 0x61) s)
  else if u = 0x7D ∧ off < 0x400 ∧ off % 64 = 0x18 then captureRead (off / 64) false s
  else if u = 0x7D ∧ off < 0x400 ∧ off % 64 = 0x1C then captureRead (off / 64) true s
  else if u ≤ 0x40 ∧ off = 0x028 then coreMemRead u s
  else (regView reader a s, s)

/-! Writes. -/

/-- The word after a write of the fields by their access codes alone (R2). -/
def plainWord (d : RegDef) (old w : Nat) : Nat :=
  d.fields.foldl (fun r f =>
    let n := fieldWidth f
    match f.acc with
    | .rw | .rwl => setBits r f.lo n (bits w f.lo n)
    | .w1c => setBits r f.lo n (bits old f.lo n &&& (2 ^ n - 1 - bits w f.lo n))
    | .ro | .wo => r) old

/-- Whether the unit that owns an RWL field is stopped (R2). -/
def rwlFree (s : State) (u off : Nat) : Bool :=
  if isPortUnit u then !s.flag (F.FL_CTRL_EN (u - 0x41)) && !s.flag (F.FL_STAT_ACTIVE (u - 0x41))
  else if 0x61 ≤ u ∧ u ≤ 0x70 then fcStopped s (u - 0x61)
  else if u = 0x7D then !tmrRuns s (off / 64)
  else true

/-- A write that would change an RWL field of a unit that is not stopped (R2). -/
def rwlBars (d : RegDef) (u off old w : Nat) (s : State) : Bool :=
  !rwlFree s u off && d.fields.any (fun f => f.acc == .rwl && bits old f.lo (fieldWidth f) != bits w f.lo (fieldWidth f))

/-- Values reserved by another field or by the block (Tables 6.9, 9.7, 9.9, 10.11, 11.11, 15.6; R394). -/
def alsoReserved (u off w : Nat) (s : State) : Bool :=
  if u ≤ 0x40 then u == 0 && off == 0 && bit w 2
  else if isPortUnit u then
    (off == 0 && bit w 0 && portUnpinned s (u - 0x41)) || (off == 0x04C && decide (bits w 0 14 < bits w 16 14))
  else if 0x61 ≤ u ∧ u ≤ 0x70 then
    (off == 0x008 && scaleReserved (bits w 8 8)) || (off == 0x00C && modReserved (s.get F.SYS_PIN_CFG_MEN) (u - 0x61) w) || (off == 0x020 && !bit w 11 && decide (128 ≤ bits w 0 11))
  else if u = 0x77 then 0x100 ≤ off && off < 0x180 && frbReserved w
  else if u = 0x7D then off % 64 == 0x20 && off < 0x400 && chcfgReserved w
  else false

/-- A bit that goes to 1 or to 0 by a write. -/
def rises (old w i : Nat) : Bool := !bit old i && bit w i
def falls (old w i : Nat) : Bool := bit old i && !bit w i

def coreRegWrite (c off old w : Nat) (put : State → State) (s : State) : State :=
  match off with
  | 0x000 =>
    let s1 := (put s).put (F.SRT_CTRL_RUN c) (old % 2)
    let s2 := if bit w 1 then coreFresh c s1 else s1
    if rises old w 0 then coreStart c s2 else if falls old w 0 then coreStop c s2 else s2
  | 0x028 => coreMemWrite c (BitVec.ofNat 8 w) s
  | _ => put s

def portRegWrite (writer p off a old w : Nat) (put : State → State) (s : State) : State :=
  if off = 0x000 then
    let s1 := (put s).put (F.FL_CTRL_EN p) (old % 2)
    if rises old w 0 then portEnable p s1 else if falls old w 0 then portDisable p s1 else s1
  else if off = 0x044 then checkedWrite writer a (BitVec.ofNat 32 w) s
  else if off = 0x04C then enrolStop p (put s)
  else if off = 0x07C then (if bit w 0 then portRestart p s else s)
  else if off = 0x080 then mailboxWrite p (BitVec.ofNat 32 w) s
  else if 0x0A0 ≤ off ∧ off < 0x0C0 then fenceWrite writer p ((off - 0x0A0) / 4) (BitVec.ofNat 32 w) s
  else put s

/-- A write of a chain's registers. DESIGN CHOICE: of a CTRL write that gives RUN and OPEN at once, OPEN takes its value first and keeps it where
the start is refused (R194, Table 9.3). -/
def chainRegWrite (writer i off old w : Nat) (put : State → State) (s : State) : State :=
  match off with
  | 0x000 =>
    let s1 := (put s).put (F.FC_CTRL_RUN i) (old % 2)
    if rises old w 0 then chainStart writer i s1 else if falls old w 0 then chainStop i s1 else s1
  | 0x008 => srcWrite i (BitVec.ofNat 32 w) s
  | 0x00C => modWrite i (BitVec.ofNat 32 w) s
  | 0x024 => coefWrite i w s
  | _ => put s

def gateRegWrite (writer off a old w : Nat) (put : State → State) (s : State) : State :=
  if off = 0x008 then checkedWrite writer a (BitVec.ofNat 32 (setBits old 16 12 (bits w 16 12))) s
  else if 0x010 ≤ off ∧ off < 0x028 then checkedWrite writer a (BitVec.ofNat 32 w) s
  else if off = 0x050 then bellEnable (bit w 0) s
  else if off = 0x064 then outboxPop (bits w 0 20) s
  else if 0x100 ≤ off ∧ off < 0x180 then checkedWrite writer a (BitVec.ofNat 32 w) s
  else put s

def seqRegWrite (writer off old w : Nat) (put : State → State) (s : State) : State :=
  match off with
  | 0x000 =>
    let s1 := (put s).put F.TT_CTRL_RUN (bits old 16 1)
    let s2 := if bits w 8 4 < bits old 8 4 then forUpTo 32 trimBuilt s1 else s1
    if rises old w 16 then ttRunSet s2 else if falls old w 16 then ttRunClear s2 else s2
  | 0x004 => if bits w 0 2 = 1 then ttSwap writer s else if bits w 0 2 = 2 then ttCopy s else s
  | 0x010 => gateWrite (put s)
  | 0x020 => slotWrite writer (BitVec.ofNat 32 w) s
  | 0x024 => pickSlot (put s)
  | 0x038 => slotEdit writer (BitVec.ofNat 32 w) s
  | _ => put s

/-- CMD of LEDG_TXN (R69, R70): a command that does not fit STATE is ignored. -/
def txnCmd (u cmd : Nat) (s : State) : State :=
  if cmd = 1 then txnOpen u s else if cmd = 2 then txnCommit u s else if cmd = 3 then txnAbort u s else s

def timerRegWrite (u off old w : Nat) (put : State → State) (s : State) : State :=
  match off with
  | 0x00 =>
    let s1 := trimResidue u ((put s).put (F.TMR_CTRL_RUN u) (old % 2))
    if rises old w 0 then timerStart u s1 else if falls old w 0 then timerStop u s1 else s1
  | 0x0C => preloadWrite (A.TMR_TOP u) (BitVec.ofNat 32 w) s
  | 0x10 => preloadWrite (A.TMR_CMPA u) (BitVec.ofNat 32 w) s
  | 0x14 => preloadWrite (A.TMR_CMPB u) (BitVec.ofNat 32 w) s
  | 0x20 => takeSafe (put s)
  | 0x24 => timerCmd u w s
  | _ => put s

/-- CAS_CMD (R287, R290): REENROL retries enrolment. -/
def reenrol (s : State) : State :=
  if s.isHead || s.quiet || !linkUp s 0 then s else sendHello s

def linkRegWrite (n off old w : Nat) (put : State → State) (s : State) : State :=
  if off = 0x000 then (if bit old 0 == bit w 0 then s else linkDownWrite n (bit w 0) s)
  else if off = 0x810 then (if bits w 0 2 = 1 then reenrol s else if bits w 0 2 = 2 then resync s else s)
  else put s

def sysRegWrite (writer off a w : Nat) (put : State → State) (s : State) : State :=
  if off = 0x100 then rmapCommand (bits w 0 3) writer s
  else if off = 0x400 then (if bits w 0 16 = 0xC0DE then softReset s else s)
  else if 0x510 ≤ off ∧ off < 0x520 then forUpTo 32 (fun b s => if bit w b then unitRelease (8 * (off - 0x510) + b) s else s) s
  else if 0x2000 ≤ off ∧ off < 0x2400 then (if off % 8 = 4 ∧ isFixedMask ((off - 0x2000) / 8) then s else checkedWrite writer a (BitVec.ofNat 32 w) s)
  else if 0x3000 ≤ off ∧ off < 0x3800 then
    let u := (off - 0x3000) / 16
    if !bit w 31 then s else if off % 16 = 0 then slotClear u false s else if off % 16 = 8 then slotClear u true s else s
  else put s

/-- TREND_STAT: BINERR is of the bins found invalid since BIN_BAD was cleared (Table 8.12). -/
def trendStatWrite (w : Nat) (put : State → State) (s : State) : State :=
  if bit w F.TREND_STAT_BIN_BAD.lo then ((put s).put F.TREND_BINERR_CAUSE 0).put F.TREND_BINERR_BIN 0 else put s

/-- A write of a register's word that R5 lets through. `put` writes the fields by their access codes. -/
def regAct (writer a old w : Nat) (put : State → State) (s : State) : State :=
  let u := blockOf a
  let off := offOf a
  if u = 0x100 then sysRegWrite writer off a w put s
  else if u ≤ 0x40 then coreRegWrite u off old w put s
  else if u ≤ 0x60 then portRegWrite writer (u - 0x41) off a old w put s
  else if u ≤ 0x70 then chainRegWrite writer (u - 0x61) off old w put s
  else if u ≤ 0x74 then linkRegWrite (u - 0x71) off old w put s
  else if u = 0x77 then gateRegWrite writer off a old w put s
  else if u = 0x78 ∧ off = 0x004 then trendStatWrite w put s
  else if u = 0x79 then seqRegWrite writer off old w put s
  else if u = 0x7A ∧ off = 0x014 then txnCmd writer (bits w 0 2) (put s)
  else if u = 0x7D then timerRegWrite (off / 64) (off % 64) old w put s
  else put s

/-- Whether a write is refused as a whole (R2, R5, R7). -/
def writeBarred (a : Nat) (w : Word) (s : State) : Bool :=
  match findReg a with
  | none => true
  | some (d, _) => rowRefuses d w.toNat || alsoReserved (blockOf a) (offOf a) w.toNat s || rwlBars d (blockOf a) (offOf a) (s.reg a).toNat w.toNat s

/-- CAS_RA_CMD while a request of the channel is open (R296); `b` is the channel's copy. A request that is sent is made in
RemoteAccess.lean. -/
def raWhileBusy (b w : Nat) (s : State) : State :=
  let st := (s.reg (b + 4)).toNat
  if bits w 0 2 != 0 && bit st 0 then s.setReg (b + 4) (BitVec.ofNat 32 (setBits st 2 1 1)) else s

/-- A register write (R2 to R7). The bytes of the OTP and of the I/O mirrors take no write. -/
def regWriteBase (writer a : Nat) (w : Word) (s : State) : State :=
  if 0x10110000 ≤ a ∧ a < 0x10112000 then s
  else match mirrorOf a with
  | some (c, o) => if (ioPeek s c o).isSome then s else refuse writer a s
  | none =>
    if writeBarred a w s then refuse writer a s
    else match findReg a with
    | none => s
    | some (d, _) =>
      let at_ := if isBanked a then bankAddr writer a else some a
      match at_ with
      | none => s
      | some b =>
        let old := (s.reg b).toNat
        if a = A.CAS_RA_CMD then raWhileBusy b w.toNat s
        else regAct writer a old w.toNat (fun s => s.setReg b (BitVec.ofNat 32 (plainWord d (s.reg b).toNat w.toNat))) s

/-- Whether a write made by `act` is refused under R5 (RB_STAT, RA_STAT.RESULT). -/
def wasRefused (act : State → State) (s : State) : Bool := (act (s.setReg A.SYS_DIAG 0)).flag F.SYS_DIAG_RSVD_WR

end Sys2Proof.Machine
end

