-- ==== Sys2Proof/Machine/HostMem.lean ====
section
/-!
DEFINITION. The host-access rules of the memories (02, R20, R39; 04, R61; 00, R7; 17, R360; 21, R422, R423): what the host port,
the management port and remote access may read and write.
-/

namespace Sys2Proof.Machine

/-- What became of an access (Table 13.11, RESULT). -/
def accOk : Nat := 0
def accDenied : Nat := 3
def accRefused : Nat := 4

/-- Areas of Table 4.1 the host may write, the image slots apart. -/
def hostArea (a : Nat) : Bool := (0x02800000 ≤ a && a < 0x03C40000) || (0x03D00000 ≤ a && a < 0x05800000)

/-- A write to a slot is dropped: the slot the device runs from, and a slot under CHECK_A or CHECK_B (R20, R39). -/
def slotBarred (s : State) (a : Nat) : Bool :=
  let b := decide (0x05C00000 ≤ a)
  (s.pow.phase == .up && !s.flag F.SYS_RMAP_STAT_WAITING && s.flag F.SYS_RMAP_STAT_BOOTED_SLOT == b) ||
  (s.flag F.SYS_RMAP_STAT_BUSY && s.rmap.cmd == (if b then cmdCheckB else cmdCheckA))

/-- A write to the staging region while APPLY or CHECK is BUSY is dropped (R39). -/
def stageBarred (s : State) (a : Nat) : Bool :=
  s.flag F.SYS_RMAP_STAT_BUSY && 1 ≤ s.rmap.cmd && s.rmap.cmd ≤ cmdCheck &&
  (match s.part 1 with | some p => p.base ≤ a && a < p.base + p.len | none => false)

/-- A write of bytes that lie in one 64-byte line, below the registers. -/
def hostBytes (u a : Nat) (b : List Byte) (s : State) : Nat × State :=
  if inLedger a then
    if 0x05800000 ≤ a then
      if slotBarred s a then (accDenied, s.mark F.SYS_RMAP_STAT_SLOT_WR) else (accOk, memWrite u a b s)
    else if hostArea a then (accOk, noteWrite a b.length s (memWrite u a b s))
    else (accDenied, s.mark F.LEDG_STAT_PROT_WR)
  else if inPigeon a then
    if stageBarred s a then (accDenied, s.mark F.SYS_RMAP_STAT_STAGE_WR) else (accOk, memWrite u a b s)
  else (accRefused, refuse u (a / 4 * 4) s)

/-- A write of one register word through `wr`. -/
def hostWord (wr : Nat → Nat → Word → State → State) (u a : Nat) (w : Word) (s : State) : Nat × State :=
  (if wasRefused (wr u a w) s then accRefused else accOk, wr u a w s)

/-- A write through a port before LOGIC_OK (R360): outside the SYS block it is dropped. -/
def earlyBars (s : State) (a : Nat) : Bool := s.pow.phase != .up && !(0x10100000 ≤ a && a < 0x10110000)

def portBytes (u a : Nat) (b : List Byte) (s : State) : State :=
  if earlyBars s a then s.mark F.SYS_RST_STAT_EARLY_WR else (hostBytes u a b s).2
def portWord (wr : Nat → Nat → Word → State → State) (u a : Nat) (w : Word) (s : State) : State :=
  if earlyBars s a then s.mark F.SYS_RST_STAT_EARLY_WR else wr u a w s

/-! What a core's window reaches (11, R229, R230). -/

/-- A region of R229 and R230: first address, the address after its last, whether it may be written. -/
structure Region where
  lo  : Nat
  hi  : Nat
  wr  : Bool
  deriving DecidableEq, Repr

/-- The regions a core is permitted (R229, R230, Tables 4.1 and 11.4). -/
def windowRegions (s : State) (c : Nat) : List Region :=
  (s.parts.filter (fun p => (p.ptype == 6 || p.ptype == 7) && p.owner == c)).map (fun p => ⟨p.base, p.base + p.len, true⟩) ++
  [⟨0, 0x02800000, false⟩, ⟨0x02800000, 0x03C00000, true⟩, ⟨0x03C00000, 0x03C40000, c == 0⟩] ++
  (if c = 0 then [⟨0x03C40000, 0x03C80000, false⟩, ⟨0x03C80000, 0x03CA0000, false⟩, ⟨0x03CA0000, 0x03D00000, false⟩,
    ⟨0x03D00000, 0x05800000, true⟩, ⟨0x05800000, 0x06000000, true⟩, ⟨0x08000000, 0x09000000, true⟩] else [])

/-- A window of 16 KiB at a base lies wholly inside one region. -/
def windowFits (s : State) (c b : Nat) : Bool := (windowRegions s c).any (fun r => r.lo ≤ b && b + 0x4000 ≤ r.hi)
/-- Whether an access to a host address is permitted. -/
def windowMay (s : State) (c : Nat) (write : Bool) (h : Nat) : Bool := (windowRegions s c).any (fun r => r.lo ≤ h && h < r.hi && (!write || r.wr))

/-! What the bus writes (R61). -/

/-- The engines among the writers of Table 4.1, area by area. -/
def engineArea (u a : Nat) : Bool :=
  if a < 0x02800000 then u == 0x78 || isPortUnit u
  else if a < 0x03C40000 then false
  else if a < 0x03C80000 then u == 0x7A
  else if a < 0x03CA0000 then u == 0x7F
  else if a < 0x03D00000 then u == 0x7A || u == 0x77
  else false

/-- A write that unit `u` makes on the bus (R61): the ports and remote access under the host's rules, a core where its window may
write, an engine in its own areas. -/
def busWrite (u a : Nat) (b : List Byte) (s : State) : State :=
  if u = 0x75 ∨ u = 0x76 then portBytes u a b s
  else if u ≤ 0x40 then
    (if windowMay s u true a then (hostBytes u a b s).2 else if inLedger a then s.mark F.LEDG_STAT_PROT_WR else s)
  else if 0x71 ≤ u ∧ u ≤ 0x74 ∧ (inLedger a ∨ inPigeon a) then (hostBytes u a b s).2
  else if inLedger a && !engineArea u a then s.mark F.LEDG_STAT_PROT_WR
  else memWrite u a b s

/-! Reading. -/

/-- The journal and the system records. -/
def ownRecords (a : Nat) : Bool := (0x03C40000 ≤ a && a < 0x03C80000) || (0x03CA0000 ≤ a && a < 0x03D00000)

/-- A byte of the journal (R70, R361): an image and a commit record as R70 lays them out, any other record as the device does. -/
def journalByte (s : State) (a : Nat) : Byte :=
  let i := a % 64
  match s.ledg.journal.find? (fun e => e.1 == (a - 0x03C40000) / 64) with
  | none => 0#8
  | some (_, .image _ _ d) => d.getD i 0#8
  | some (_, .commit n u ls) => let b := commitBytes n u ls; if i < b.length then b.getD i 0#8 else Config.recordByte n a
  | some (_, .retire n) => Config.recordByte n a
  | some (_, .move b o n) => Config.recordByte ((b * 2 ^ 16 + o) * 2 ^ 16 + n) a
  | some (_, .moveRetire b) => Config.recordByte b a

/-- The records that stand in the system records: index and contents (R427). -/
def storedRecords (s : State) : List (Nat × Nat) :=
  (s.recs.serial.toList.map (fun v => (recSerialIx, v))) ++ (s.recs.casId.toList.map (fun v => (recCascadeIx, v))) ++
  (s.recs.flush.toList.map (fun v => (recFlushIx, v.1))) ++ (s.recs.map.toList.map (fun m => (recMapIx, m.foldl (fun n e => (n * 2 ^ 16 + e.1) * 2 ^ 16 + e.2) 1))) ++
  ((List.range 32).filterMap (fun p => (nth s.recs.fresh p none).map (fun v => (recFreshIx p, v))))

/-- A byte of the system records (R427, R361): a line never written holds zeros; the layout of any other is the device's own. -/
def recordByteAt (s : State) (a : Nat) : Byte :=
  if 0x03CB0000 ≤ a then (if (s.bytes (lineOf a) 64).all (· == 0#8) then 0#8 else Config.recordByte (ofLe (s.bytes (lineOf a) 64)) a)
  else match (storedRecords s).find? (fun r => recLine r.1 == lineOf a) with
    | none => 0#8
    | some r => Config.recordByte r.2 a

/-- A byte as unit `u` reads it (R57, R69, R361). -/
def hostByte (s : State) (u a : Nat) : Byte :=
  if ownRecords a then (if a < 0x03C80000 then journalByte s a else recordByteAt s a)
  else if inLedger a || inPigeon a then viewByte s u a
  else 0#8

/-- One byte of memory as it arrives; the value of a poisoned byte is not stated. -/
def hostReadByte (u a : Nat) (s : State) : Byte × State :=
  if (inLedger a || inPigeon a) && poisonFor s u a then let (v, s1) := s.free; (BitVec.ofNat 8 v, s1) else (hostByte s u a, s)

/-- `n` bytes as they arrive. -/
def hostReadBytes (u : Nat) : Nat → Nat → State → List Byte × State
  | 0, _, s => ([], s)
  | n + 1, a, s =>
    let (b, s1) := hostReadByte u a s
    let (bs, s2) := hostReadBytes u n (a + 1) s1
    (b :: bs, s2)

/-- A read of `n` bytes from `a`: the check of each line or word it meets, then the bytes. -/
def hostRead (u n a : Nat) (s : State) : List Byte × State :=
  hostReadBytes u n a (if (inLedger a || inPigeon a) && n != 0 then readSpan u a n s else s)

/-- A read of one 32-bit word anywhere. -/
def hostReadWord (u a : Nat) (s : State) : Nat × State :=
  if 0x10000000 ≤ a then regRead u a s
  else let (b, s1) := hostRead u 4 a s; (ofLe b, s1)

end Sys2Proof.Machine
end

