-- ==== Sys2Proof/Machine/BusPhase.lean ====
section
/-!
DEFINITION. Arbitration phases of the post bus and what the beats of a grant carry (04, R63 to R65, R72, R76 to R80, R84; 11, R231,
R232).
-/

namespace Sys2Proof.Machine

/-- What `n` beats carry of a request: the pieces whose last beat is among them, and what remains. -/
def carry : Nat → List BusPiece → List BusPiece × List BusPiece
  | _, [] => ([], [])
  | n, p :: ps =>
    if p.beats ≤ n then let r := carry (n - p.beats) ps; (p :: r.1, r.2)
    else ([], { p with beats := p.beats - n } :: ps)

/-- The last beat of a piece is carried: a read meets its check (R63 to R65), a write enters the memory (R62, R69). Work done ahead has
no effect of its own (R56); the patrol scrubber's beats are no work done ahead (R65). -/
def pieceDone (u : Nat) (ahead : Bool) (p : BusPiece) (s : State) : State :=
  if ahead && u != 0x7B then s
  else match p.data with
    | none => readSpan u p.addr p.len s
    | some d => busWrite u p.addr d s

/-- Whether the first beat of a request comes now, later than 0.3 µs after it was raised (R232); the timebase counts 2^-48 s. -/
def firstBeatLate (s : State) (r : BusReq) : Bool := r.since.any (fun m => decide (3 * 2 ^ 48 < (s.tb - m) * 10000000))

/-- A window access that comes late: SLOW is set and SLOWWIN counts (R232). -/
def markSlow (u : Nat) (s : State) : State := (s.mark (F.SRT_STAT_SLOW u)).incSat (F.SRT_CNT_SLOWWIN u)

/-- The first beat of a core's window access. -/
def noteWindowWait (g : Grant) (reqs : List BusReq) (s : State) : State :=
  if g.unit ≤ 0x40 && !g.ahead && reqs.any (fun r => r.isOf g.unit g.ahead && firstBeatLate s r) then markSlow g.unit s else s

/-- The grant in hand becomes the owner and carries its beats, up to its burst limit (R77, R84). It is counted when it begins; work
done ahead shows in no counter (R56), the patrol scrubber's beats apart (R65). -/
def beginGrant (b : Nat) (g : Grant) (a : Arb) (s : State) : State :=
  let ps := ((a.reqs.find? (·.isOf g.unit g.ahead)).map (·.pieces)).getD []
  let s1 := (noteWindowWait g a.reqs s).modArb b (fun a => { a with
    owner := some g.unit
    granted := none
    reqs := (a.reqs.map (fun r => if r.isOf g.unit g.ahead then { r with pieces := (carry g.burst r.pieces).2, since := none } else r)).filter
      (fun r => !r.pieces.isEmpty) })
  let s2 := if g.ahead && g.unit != 0x7B then s1 else s1.incWrap (F.ARB_BANK_STAT_GRANTS b)
  (carry g.burst ps).1.foldl (fun s p => pieceDone g.unit g.ahead p s) s2

/-- Requests that stand on a bank their unit's mask no longer enables are answered with poisoned beats (R80, Table 4.6); a core takes
WINDOW for its committed one. -/
def expelMasked (b : Nat) (s : State) : State :=
  match s.arbs[b]? with
  | none => s
  | some a =>
    (a.reqs.filter (fun r => !maskOk s r.unit b && !r.ahead && decide (r.unit ≤ 0x40))).foldl (fun s r => coreTrap r.unit 4 s)
      (s.modArb b (fun a => { a with reqs := a.reqs.filter (fun r => maskOk s r.unit b) }))

/-- The requests that stand are sampled and the next grant is delivered (R77, R78): priority-0 work only when no committed request is
sampled, and a turn ends when none sampled and ungranted in it remains. A bank whose owner has carried its last beat and that has no
next grant is idle. -/
def nextGrant (b : Nat) (s : State) : State :=
  match s.arbs[b]? with
  | none => s
  | some a =>
    let reqs := if a.reqs.any (fun r => !r.ahead) then a.reqs.filter (fun r => !r.ahead) else a.reqs
    let inTurn := reqs.filter (fun r => !a.turn.contains r.unit)
    let (cands, turn) := if inTurn.isEmpty then (reqs, []) else (inTurn, a.turn)
    match choose s cands with
    | none => s.modArb b (fun a => { a with owner := none, turn := [] })
    | some r => s.modArb b (fun a => { a with granted := some ⟨r.unit, r.ahead, s.get (F.ARB_CFG_BURST r.unit)⟩, turn := turn ++ [r.unit] })

/-- ARBITRATION_PHASE (R76, R77): the grant delivered before begins its beats, and the next grant is delivered. -/
def arbPhase (b : Nat) (s : State) : State :=
  match s.arbs[b]? with
  | none => s
  | some a =>
    nextGrant b (expelMasked b (match a.granted with
      | none => s.modArb b (fun a => { a with owner := none })
      | some g => beginGrant b g a s))

/-- Beats that stand to be carried on a bank. -/
def beatsOn (s : State) (b : Nat) : Nat := (((s.arbs[b]?).map (·.reqs)).getD []).foldl (fun n r => n + (r.pieces.map (·.beats)).sum) 0

/-- Whether a unit's request stands on a bank. -/
def standsOn (s : State) (u : Nat) (ahead : Bool) (b : Nat) : Bool := (((s.arbs[b]?).map (·.reqs)).getD []).any (·.isOf u ahead)

/-- Whether the bank's next grant is that request's. -/
def grantedTo (s : State) (u : Nat) (ahead : Bool) (b : Nat) : Bool :=
  ((s.arbs[b]?).bind (·.granted)).any (fun g => g.unit == u && g.ahead == ahead)

/-- Phases run on a bank until a unit's request has been carried; counted are the beats that others carry before its first. -/
def serveBus (u : Nat) (ahead : Bool) (b : Nat) : Nat → Nat → State → Nat × State
  | 0, w, s => (w, s)
  | f + 1, w, s =>
    if !standsOn s u ahead b then (w, s)
    else
      let s1 := arbPhase b s
      serveBus u ahead b f (if grantedTo s u ahead b then w else w + (beatsOn s b - beatsOn s1 b)) s1

/-- One byte that an instruction of core `c` accesses through its window: one access of the post bus (R231), made whole before the
instruction goes on; of run-ahead, at priority 0 and without an effect (R56, R58). A wait of more than 0.3 µs for its first beat is
noted (R232). -/
def windowAccess (c : Nat) (ahead : Bool) (h : Nat) (data : Option (List Byte)) (s : State) : State :=
  let b := busBank h
  let s1 := raiseReq b c ahead ⟨h, 1, data, 1⟩ s
  let (w, s2) := serveBus c ahead b (2 * beatsOn s1 b + 2) 0 s1
  if !ahead && decide (3 * 2 ^ 48 < w * Config.beatTime * 10000000) then markSlow c s2 else s2

/-- PATROL_SCRUB (R65): at priority 0 the scrubber asks each bank for its next beat; an INTERVAL of 0 stops it. -/
def patrolScrub (s : State) : State :=
  if s.get F.PIGN_SCRUB_INTERVAL = 0 ∨ !s.flag F.PIGN_STAT_READY then s
  else
    let s1 := forUpTo 16 (fun i s => raiseReq (8 + i) 0x7B true ⟨0x08000000 + i * 2 ^ 20 + 16 * s.ledg.scrubPtr, 16, none, 1⟩ s) s
    s1.modLedg (fun g => { g with scrubPtr := (g.scrubPtr + 1) % 65536 })

end Sys2Proof.Machine
end

