-- ==== Sys2Proof/Machine/Operands.lean ====
section
/-!
DEFINITION. Addressing forms and the plan of an instruction (12, R255 to R258, R262 to R265, R268): its length, weight,
the addresses it reads and writes in the order its entry names them, and what it makes of the bytes read. A plan is
what the checks of Table 12.2 and the access groups of R257 are applied to, the same way for every instruction.
-/

namespace Sys2Proof.Machine

/-- What an instruction does, before any check. `stack` tells that its reads or writes are stack accesses; `next` is where
execution continues, none where a return address read decides it (RET, RTI). -/
structure Plan where
  len    : Nat
  weight : Nat
  reads  : List Nat
  stackR : Bool
  writes : List Nat
  stackW : Bool
  next   : Option Nat
  fin    : List Byte → CoreRegs × List Byte

/-- The context a plan is made in: the registers and the operand bytes after the opcode. -/
structure Ctx where
  r  : CoreRegs
  b1 : Byte
  b2 : Byte

def Ctx.imm16 (c : Ctx) : BitVec 16 := c.b2 ++ c.b1

/-- A signed byte extended to 16 bits. -/
def sx16 (b : Byte) : BitVec 16 := b.signExtend 16

/-- The word two bytes spell. -/
def word2 (lo hi : Byte) : BitVec 16 := hi ++ lo

def loByte (w : BitVec 16) : Byte := w.setWidth 8
def hiByte (w : BitVec 16) : Byte := (w >>> 8).setWidth 8

/-- Where the program goes on after an instruction of `n` bytes. -/
def CoreRegs.after (r : CoreRegs) (n : Nat) : CoreRegs := { r with pc := r.pc + BitVec.ofNat 16 n }

/-- The eight operand forms of Table 12.1. -/
inductive Operand where
  | imm (b : Byte)          -- immediate, or register X
  | addr (a : BitVec 16)
  deriving DecidableEq, Repr

/-- The operand a form selects and the bytes after the opcode (Table 12.1). -/
def operandOf (form : Nat) (c : Ctx) : Operand × Nat :=
  match form with
  | 0 => (.imm c.b1, 1)
  | 1 => (.addr c.imm16, 2)
  | 2 => (.addr (c.imm16 + c.r.x.setWidth 16), 2)
  | 3 => (.addr c.r.p, 0)
  | 4 => (.addr (c.r.p + c.r.y.setWidth 16), 0)
  | 5 => (.addr c.r.q, 0)
  | 6 => (.addr (c.r.q + c.r.y.setWidth 16), 0)
  | _ => (.imm c.r.x, 0)

/-- Weight of an eight-form instruction: 1 in the immediate and register forms, 2 in the others (R262). -/
def formWeight (form : Nat) : Nat := if form = 0 ∨ form = 7 then 1 else 2

/-- A plan that touches no memory. -/
def planReg (c : Ctx) (len weight : Nat) (f : CoreRegs → CoreRegs) : Plan :=
  { len := len, weight := weight, reads := [], stackR := false, writes := [], stackW := false,
    next := some (c.r.after len).pc.toNat, fin := fun _ => (f (c.r.after len), []) }

/-- A plan that takes an operand byte `m` and leaves registers. -/
def planOperand (c : Ctx) (form : Nat) (f : CoreRegs → Byte → CoreRegs) : Plan :=
  let (o, n) := operandOf form c
  match o with
  | .imm b => planReg c (1 + n) (formWeight form) (fun r => f r b)
  | .addr a =>
    { len := 1 + n, weight := formWeight form, reads := [a.toNat], stackR := false, writes := [], stackW := false,
      next := some (c.r.after (1 + n)).pc.toNat, fin := fun v => (f (c.r.after (1 + n)) (v.headD 0), []) }

/-- A plan that stores one byte. -/
def planStore (c : Ctx) (form : Nat) (b : Byte) : Plan :=
  let (o, n) := operandOf form c
  match o with
  | .imm _ => planReg c (1 + n) (formWeight form) id
  | .addr a =>
    { len := 1 + n, weight := formWeight form, reads := [], stackR := false, writes := [a.toNat], stackW := false,
      next := some (c.r.after (1 + n)).pc.toNat, fin := fun _ => (c.r.after (1 + n), [b]) }

/-- The two addresses of a 16-bit operand at `a` (R256). -/
def pair (a : BitVec 16) : List Nat := [a.toNat, (a + 1).toNat]

def nth0 (l : List Byte) : Byte := l.getD 0 0
def nth1 (l : List Byte) : Byte := l.getD 1 0
def nth2 (l : List Byte) : Byte := l.getD 2 0

/-! Eight-form instructions (Table 12.5). -/
def planAdd (op : Nat) (c : Ctx) : Plan := planOperand c (op % 8) (fun r m => let (v, f) := addClass r.fl r.a m false; { r with a := v, fl := f })
def planAdc (op : Nat) (c : Ctx) : Plan := planOperand c (op % 8) (fun r m => let (v, f) := addClass r.fl r.a m (getFl r.fl flC); { r with a := v, fl := f })
def planSub (op : Nat) (c : Ctx) : Plan := planOperand c (op % 8) (fun r m => let (v, f) := subClass r.fl r.a m false; { r with a := v, fl := f })
def planSbc (op : Nat) (c : Ctx) : Plan := planOperand c (op % 8) (fun r m => let (v, f) := subClass r.fl r.a m (!getFl r.fl flC); { r with a := v, fl := f })
def planAnd (op : Nat) (c : Ctx) : Plan := planOperand c (op % 8) (fun r m => { r with a := r.a &&& m, fl := logFlags r.fl (r.a &&& m) })
def planOr  (op : Nat) (c : Ctx) : Plan := planOperand c (op % 8) (fun r m => { r with a := r.a ||| m, fl := logFlags r.fl (r.a ||| m) })
def planXor (op : Nat) (c : Ctx) : Plan := planOperand c (op % 8) (fun r m => { r with a := r.a ^^^ m, fl := logFlags r.fl (r.a ^^^ m) })
def planCmp (op : Nat) (c : Ctx) : Plan := planOperand c (op % 8) (fun r m => { r with fl := (subClass r.fl r.a m false).2 })
def planLda (op : Nat) (c : Ctx) : Plan := planOperand c (op % 8) (fun r m => { r with a := m, fl := ldFlags r.fl m })
def planSta (op : Nat) (c : Ctx) : Plan := planStore c (op % 8) c.r.a

/-! Register, unary and word instructions (Table 12.6). -/
def planLdx (op : Nat) (c : Ctx) : Plan := planOperand c (if op = 0x60 then 0 else if op = 0x61 then 1 else 3) (fun r m => { r with x := m, fl := ldFlags r.fl m })
def planLdy (op : Nat) (c : Ctx) : Plan := planOperand c (if op = 0x65 then 0 else if op = 0x66 then 1 else 3) (fun r m => { r with y := m, fl := ldFlags r.fl m })
def planStx (op : Nat) (c : Ctx) : Plan := planStore c (if op = 0x63 then 1 else 5) c.r.x
def planSty (op : Nat) (c : Ctx) : Plan := planStore c (if op = 0x68 then 1 else 5) c.r.y
def planTax (_ : Nat) (c : Ctx) : Plan := planReg c 1 1 (fun r => { r with x := r.a, fl := ldFlags r.fl r.a })
def planTay (_ : Nat) (c : Ctx) : Plan := planReg c 1 1 (fun r => { r with y := r.a, fl := ldFlags r.fl r.a })
def planTya (_ : Nat) (c : Ctx) : Plan := planReg c 1 1 (fun r => { r with a := r.y, fl := ldFlags r.fl r.y })
def planTxy (_ : Nat) (c : Ctx) : Plan := planReg c 1 1 (fun r => { r with y := r.x, fl := ldFlags r.fl r.x })
def planTyx (_ : Nat) (c : Ctx) : Plan := planReg c 1 1 (fun r => { r with x := r.y, fl := ldFlags r.fl r.y })

/-- INC and DEC of a register or of the byte at `a`. -/
def planCount (op base : Nat) (up : Bool) (c : Ctx) : Plan :=
  if op = base then planReg c 1 1 (fun r => let (v, f) := cntClass r.fl r.a up; { r with a := v, fl := f })
  else if op = base + 2 then planReg c 1 1 (fun r => let (v, f) := cntClass r.fl r.x up; { r with x := v, fl := f })
  else if op = base + 4 then planReg c 1 1 (fun r => let (v, f) := cntClass r.fl r.y up; { r with y := v, fl := f })
  else
    { len := 3, weight := 3, reads := [c.imm16.toNat], stackR := false, writes := [c.imm16.toNat], stackW := false,
      next := some (c.r.after 3).pc.toNat,
      fin := fun v => let (b, f) := cntClass c.r.fl (nth0 v) up; ({ c.r.after 3 with fl := f }, [b]) }
def planInc (op : Nat) (c : Ctx) : Plan := planCount op 0x70 true c
def planDec (op : Nat) (c : Ctx) : Plan := planCount op 0x71 false c

def planShl (_ : Nat) (c : Ctx) : Plan := planReg c 1 1 (fun r => let v := r.a <<< 1; { r with a := v, fl := shfFlags r.fl v r.a.msb })
def planShr (_ : Nat) (c : Ctx) : Plan := planReg c 1 1 (fun r => let v := r.a >>> 1; { r with a := v, fl := shfFlags r.fl v (r.a.getLsbD 0) })
def planSar (_ : Nat) (c : Ctx) : Plan := planReg c 1 1 (fun r => let v := r.a.sshiftRight 1; { r with a := v, fl := shfFlags r.fl v (r.a.getLsbD 0) })
def planRol (_ : Nat) (c : Ctx) : Plan := planReg c 1 1 (fun r => let v := (r.a <<< 1) ||| BitVec.ofNat 8 (b2n (getFl r.fl flC)); { r with a := v, fl := shfFlags r.fl v r.a.msb })
def planRor (_ : Nat) (c : Ctx) : Plan := planReg c 1 1 (fun r => let v := (r.a >>> 1) ||| (if getFl r.fl flC then 0x80#8 else 0#8); { r with a := v, fl := shfFlags r.fl v (r.a.getLsbD 0) })
def planNot (_ : Nat) (c : Ctx) : Plan := planReg c 1 1 (fun r => let v := r.a ^^^ 0xFF#8; { r with a := v, fl := logFlags r.fl v })
def planNeg (_ : Nat) (c : Ctx) : Plan := planReg c 1 1 (fun r => let (v, f) := subClass r.fl 0#8 r.a false; { r with a := v, fl := f })
def planMul (_ : Nat) (c : Ctx) : Plan := planReg c 1 4 (fun r =>
  let m : BitVec 16 := BitVec.ofNat 16 (r.a.toNat * r.x.toNat)
  { r with a := loByte m, x := hiByte m,
           fl := setFl (setFl (setFl (setFl r.fl flZ (m == 0#16)) flC (hiByte m != 0#8)) flN false) flV false })
def planCpx (op : Nat) (c : Ctx) : Plan := planOperand c (if op = 0xB4 then 0 else 1) (fun r m => { r with fl := (subClass r.fl r.x m false).2 })
def planCpy (op : Nat) (c : Ctx) : Plan := planOperand c (if op = 0xB6 then 0 else 1) (fun r m => { r with fl := (subClass r.fl r.y m false).2 })
def planTst (op : Nat) (c : Ctx) : Plan := planOperand c (if op = 0xBA then 0 else 1) (fun r m => { r with fl := logFlags r.fl (r.a &&& m) })

/-- INCW and DECW. -/
def planWord (up : Bool) (c : Ctx) : Plan :=
  { len := 3, weight := 5, reads := pair c.imm16, stackR := false, writes := pair c.imm16, stackW := false,
    next := some (c.r.after 3).pc.toNat,
    fin := fun v =>
      let w := word2 (nth0 v) (nth1 v)
      let r := if up then w + 1 else w - 1
      let wrapped := if up then r == 0#16 else r == 0xFFFF#16
      ({ c.r.after 3 with fl := wordFlags c.r.fl r wrapped }, [loByte r, hiByte r]) }
def planIncw (_ : Nat) (c : Ctx) : Plan := planWord true c
def planDecw (_ : Nat) (c : Ctx) : Plan := planWord false c

/-! Pointer, count and stack instructions (Table 12.7). -/

/-- A word read at `a` into a register pair. -/
def planLoadWord (c : Ctx) (f : CoreRegs → BitVec 16 → CoreRegs) : Plan :=
  { len := 3, weight := 3, reads := pair c.imm16, stackR := false, writes := [], stackW := false,
    next := some (c.r.after 3).pc.toNat, fin := fun v => (f (c.r.after 3) (word2 (nth0 v) (nth1 v)), []) }
/-- A word stored at `a`. -/
def planStoreWord (c : Ctx) (w : BitVec 16) : Plan :=
  { len := 3, weight := 3, reads := [], stackR := false, writes := pair c.imm16, stackW := false,
    next := some (c.r.after 3).pc.toNat, fin := fun _ => (c.r.after 3, [loByte w, hiByte w]) }
def planLdp (op : Nat) (c : Ctx) : Plan := if op = 0x80 then planReg c 3 1 (fun r => { r with p := c.imm16 }) else planLoadWord c (fun r w => { r with p := w })
def planLdq (op : Nat) (c : Ctx) : Plan := if op = 0x81 then planReg c 3 1 (fun r => { r with q := c.imm16 }) else planLoadWord c (fun r w => { r with q := w })
def planStp (_ : Nat) (c : Ctx) : Plan := planStoreWord c c.r.p
def planStq (_ : Nat) (c : Ctx) : Plan := planStoreWord c c.r.q
def planAddp (op : Nat) (c : Ctx) : Plan :=
  if op = 0x86 then planReg c 1 1 (fun r => { r with p := r.p + r.a.setWidth 16 }) else planReg c 2 1 (fun r => { r with p := r.p + sx16 c.b1 })
def planAddq (op : Nat) (c : Ctx) : Plan :=
  if op = 0x87 then planReg c 1 1 (fun r => { r with q := r.q + r.a.setWidth 16 }) else planReg c 2 1 (fun r => { r with q := r.q + sx16 c.b1 })
def planXpq (_ : Nat) (c : Ctx) : Plan := planReg c 1 1 (fun r => { r with p := r.q, q := r.p })
def planLdsp (_ : Nat) (c : Ctx) : Plan := planReg c 3 1 (fun r => { r with sp := c.imm16 })
def planTsp (_ : Nat) (c : Ctx) : Plan := planReg c 1 1 (fun r => { r with p := r.sp })
def planTps (_ : Nat) (c : Ctx) : Plan := planReg c 1 1 (fun r => { r with sp := r.p })
def planTxap (_ : Nat) (c : Ctx) : Plan := planReg c 1 1 (fun r => { r with p := word2 r.a r.x })
def planTpxa (_ : Nat) (c : Ctx) : Plan := planReg c 1 1 (fun r => { r with x := hiByte r.p, a := loByte r.p })
def planLdc (_ : Nat) (c : Ctx) : Plan := planReg c 3 1 (fun r => { r with cnt := c.imm16 })
def planTxac (_ : Nat) (c : Ctx) : Plan := planReg c 1 1 (fun r => { r with cnt := word2 r.a r.x })
def planTcxa (_ : Nat) (c : Ctx) : Plan := planReg c 1 1 (fun r => { r with x := hiByte r.cnt, a := loByte r.cnt })
/-- LOOP r: CNT := CNT − 1; the branch is taken when CNT is then not 0. -/
def planLoop (_ : Nat) (c : Ctx) : Plan :=
  let n := c.r.cnt - 1
  let pc := if n = 0#16 then (c.r.after 2).pc else (c.r.after 2).pc + sx16 c.b1
  { len := 2, weight := 2, reads := [], stackR := false, writes := [], stackW := false, next := some pc.toNat,
    fin := fun _ => ({ c.r with cnt := n, pc := pc }, []) }

/-- A push of bytes, the first at the highest address; SP falls by their number. -/
def planPush (c : Ctx) (weight : Nat) (bs : List Byte) : Plan :=
  { len := 1, weight := weight, reads := [], stackR := false,
    writes := (List.range bs.length).map (fun i => (c.r.sp - BitVec.ofNat 16 (i + 1)).toNat), stackW := true,
    next := some (c.r.after 1).pc.toNat,
    fin := fun _ => ({ c.r.after 1 with sp := c.r.sp - BitVec.ofNat 16 bs.length }, bs) }
/-- A pull of `n` bytes, lowest address first; SP rises by n. -/
def planPull (c : Ctx) (weight n : Nat) (f : CoreRegs → List Byte → CoreRegs) : Plan :=
  { len := 1, weight := weight, reads := (List.range n).map (fun i => (c.r.sp + BitVec.ofNat 16 i).toNat), stackR := true,
    writes := [], stackW := false, next := some (c.r.after 1).pc.toNat,
    fin := fun v => (f { c.r.after 1 with sp := c.r.sp + BitVec.ofNat 16 n } v, []) }
def planPushOp (op : Nat) (c : Ctx) : Plan :=
  match op with
  | 0x94 => planPush c 2 [c.r.a]
  | 0x96 => planPush c 2 [c.r.x]
  | 0x98 => planPush c 2 [c.r.y]
  | 0x9A => planPush c 2 [c.r.fl]
  | 0x9C => planPush c 3 [hiByte c.r.p, loByte c.r.p]
  | _ => planPush c 3 [hiByte c.r.q, loByte c.r.q]
/-- FL as PULL FL and RTI read it: bits [7:6] are 0 (R260). -/
def flOf (b : Byte) : Byte := b &&& 0x3F#8
def planPullOp (op : Nat) (c : Ctx) : Plan :=
  match op with
  | 0x95 => planPull c 2 1 (fun r v => { r with a := nth0 v })
  | 0x97 => planPull c 2 1 (fun r v => { r with x := nth0 v })
  | 0x99 => planPull c 2 1 (fun r v => { r with y := nth0 v })
  | 0x9B => planPull c 2 1 (fun r v => { r with fl := flOf (nth0 v) })
  | 0x9D => planPull c 3 2 (fun r v => { r with p := word2 (nth0 v) (nth1 v) })
  | _ => planPull c 3 2 (fun r v => { r with q := word2 (nth0 v) (nth1 v) })
def planCpp (_ : Nat) (c : Ctx) : Plan := planReg c 3 1 (fun r => { r with fl := (subClass r.fl r.p c.imm16 false).2 })
def planCpq (_ : Nat) (c : Ctx) : Plan := planReg c 3 1 (fun r => { r with fl := (subClass r.fl r.q c.imm16 false).2 })

/-! Control transfer (Tables 12.8, 12.9). -/

def planNop (_ : Nat) (c : Ctx) : Plan := planReg c 1 1 id
/-- The core's part of WAIT; what waiting does is with the core's state. -/
def planWait (_ : Nat) (c : Ctx) : Plan := planReg c 1 1 id
def planRet (_ : Nat) (c : Ctx) : Plan :=
  { planPull c 3 2 (fun r v => { r with pc := word2 (nth0 v) (nth1 v) }) with next := none }
def planRti (_ : Nat) (c : Ctx) : Plan :=
  { planPull c 4 3 (fun r v => { r with fl := flOf (nth0 v), pc := word2 (nth1 v) (nth2 v) }) with next := none }
def planSetf (_ : Nat) (c : Ctx) : Plan := planReg c 2 1 (fun r => { r with fl := r.fl ||| c.b1 })
def planClrf (_ : Nat) (c : Ctx) : Plan := planReg c 2 1 (fun r => { r with fl := r.fl &&& ~~~c.b1 })
/-- A jump to `t` by an instruction of `len` bytes. -/
def planGoto (c : Ctx) (len weight : Nat) (t : BitVec 16) : Plan :=
  { len := len, weight := weight, reads := [], stackR := false, writes := [], stackW := false, next := some t.toNat,
    fin := fun _ => ({ c.r with pc := t }, []) }
def planBranch (op : Nat) (c : Ctx) : Plan :=
  planGoto c 2 2 (if branchTaken (op - 0xA0) c.r.fl then (c.r.after 2).pc + sx16 c.b1 else (c.r.after 2).pc)
def planJmp (op : Nat) (c : Ctx) : Plan := if op = 0xB0 then planGoto c 3 2 c.imm16 else planGoto c 1 2 c.r.p
def planCall (op : Nat) (c : Ctx) : Plan :=
  let len := if op = 0xB2 then 3 else 1
  let t := if op = 0xB2 then c.imm16 else c.r.p
  let ret := (c.r.after len).pc
  let push := planPush c 4 [hiByte ret, loByte ret]
  { push with len := len, next := some t.toNat, fin := fun v => ({ (push.fin v).1 with pc := t }, (push.fin v).2) }

/-! Block instructions, one repetition (Table 12.10). -/

/-- ± of R268: the step of P and Q. -/
def blkStep (r : CoreRegs) (w : BitVec 16) : BitVec 16 := if getFl r.fl flD then w - 1 else w + 1
def planBlock (c : Ctx) (weight : Nat) (reads writes : List Nat) (f : CoreRegs → List Byte → CoreRegs × List Byte) : Plan :=
  { len := 1, weight := weight, reads := reads, stackR := false, writes := writes, stackW := false,
    next := some (c.r.after 1).pc.toNat, fin := fun v => f (c.r.after 1) v }
def planMovb (_ : Nat) (c : Ctx) : Plan := planBlock c 3 [c.r.p.toNat] [c.r.q.toNat] (fun r v => ({ r with p := blkStep r r.p, q := blkStep r r.q }, [nth0 v]))
def planFill (_ : Nat) (c : Ctx) : Plan := planBlock c 2 [] [c.r.q.toNat] (fun r _ => ({ r with q := blkStep r r.q }, [r.a]))
def planScan (_ : Nat) (c : Ctx) : Plan := planBlock c 2 [c.r.p.toNat] [] (fun r v => ({ r with p := blkStep r r.p, fl := (subClass r.fl r.a (nth0 v) false).2 }, []))
def planCmpb (_ : Nat) (c : Ctx) : Plan := planBlock c 3 [c.r.p.toNat, c.r.q.toNat] [] (fun r v => ({ r with p := blkStep r r.p, q := blkStep r r.q, fl := (subClass r.fl (nth0 v) (nth1 v) false).2 }, []))
def planLodb (_ : Nat) (c : Ctx) : Plan := planBlock c 2 [c.r.p.toNat] [] (fun r v => ({ r with a := nth0 v, p := blkStep r r.p, fl := ldFlags r.fl (nth0 v) }, []))
def planAdcb (_ : Nat) (c : Ctx) : Plan := planBlock c 4 [c.r.q.toNat, c.r.p.toNat] [c.r.q.toNat] (fun r v =>
  let (b, f) := addClass r.fl (nth0 v) (nth1 v) (getFl r.fl flC); ({ r with p := blkStep r r.p, q := blkStep r r.q, fl := f }, [b]))
def planSbcb (_ : Nat) (c : Ctx) : Plan := planBlock c 4 [c.r.q.toNat, c.r.p.toNat] [c.r.q.toNat] (fun r v =>
  let (b, f) := subClass r.fl (nth0 v) (nth1 v) (!getFl r.fl flC); ({ r with p := blkStep r r.p, q := blkStep r r.q, fl := f }, [b]))

end Sys2Proof.Machine
end

