-- ==== Sys2Proof/Machine/RemoteAccess.lean ====
section
/-!
DEFINITION. Remote access over the cascade (13, R296), and the register write it completes.
-/

namespace Sys2Proof.Machine

/-- Writes of words at rising addresses; the result is that of the first access that was not made. -/
def raWrites (u : Nat) : Nat → List Word → Nat × State → Nat × State
  | _, [], r => r
  | a, w :: ws, (res, s) =>
    let (r1, s1) := if 0x10000000 ≤ a then hostWord regWriteBase u a w s else hostBytes u a (leBytes 4 w.toNat) s
    raWrites u (a + 4) ws (if res = accOk then r1 else res, s1)

/-- Reads of `n` words at rising addresses. -/
def raReads (u : Nat) : Nat → Nat → State → List Nat × State
  | 0, _, s => ([], s)
  | n + 1, a, s =>
    let (v, s1) := hostReadWord u a s
    let (vs, s2) := raReads u n (a + 4) s1
    (v :: vs, s2)

/-- Accesses of a request at its target: RESULT, the words read, the state. -/
def raAccess (u op words addr : Nat) (data : List Word) (s : State) : Nat × List Nat × State :=
  if op = 1 then let (vs, s1) := raReads u words addr s; (accOk, vs, s1)
  else let (r, s1) := raWrites u addr (data.take words) (accOk, s); (r, [], s1)

/-- The result reaches the requester's channel: read data, RESULT, DONE. -/
def raDone (c result : Nat) (data : List Nat) (s : State) : State :=
  let s1 := forUpTo (min data.length 6) (fun i s => s.setReg (A.CAS_RA_DATA i + c * 2 ^ 32) (BitVec.ofNat 32 (data.getD i 0))) s
  raFinish c result s1

/-- A request is sent, made locally, or ends with NO_ROUTE. -/
def raRequest (c u w : Nat) (s : State) : State :=
  let words := bits w 5 3 + 1
  let op := bits w 0 2
  let dst := (s.reg (A.CAS_RA_DST + c * 2 ^ 32)).toNat % 2 ^ 16
  let addr := (s.reg (A.CAS_RA_ADDR + c * 2 ^ 32)).toNat
  let data := (List.range words).map (fun i => s.reg (A.CAS_RA_DATA i + c * 2 ^ 32))
  let s1 := s.put (raBank F.CAS_RA_STAT_BUSY c) 1
  match hopOf s dst with
  | .self => let (r, vs, s2) := raAccess u op words addr data s1; raDone c r vs s2
  | .nowhere => raFinish c 1 s1
  | .port k =>
    if !linkUp s k || !s.flag F.CAS_ID_VALID then raFinish c 1 s1
    else
      let tag := (s.est.tag + 1) % 256
      let body := leBytes 2 s.devId ++ leBytes 1 tag ++ leBytes 1 w ++ leBytes 4 addr ++
        (if op = 2 then (data.map (fun d => leBytes 4 d.toNat)).flatten else [])
      let s2 := s1.modEst (fun e => { e with tag := tag, raOpen := upd e.raOpen c (fun _ => some tag) })
      sendOn k (mkFrame ftRaReq dst body) s2

/-- A register write by any writer (R2 to R7, R296). -/
def regWrite (writer a : Nat) (w : Word) (s : State) : State :=
  match raChannel writer with
  | some c =>
    if a = A.CAS_RA_CMD ∧ !writeBarred a w s ∧ bits w.toNat 0 2 ≠ 0 ∧ s.get (raBank F.CAS_RA_STAT_BUSY c) = 0 then raRequest c writer w.toNat s
    else regWriteBase writer a w s
  | none => regWriteBase writer a w s

/-- A request arrives at its target through port `n` (R296), and is answered. -/
def raServe (n : Nat) (f : List Byte) (s : State) : State :=
  let b := frBody f
  let cmd := recNum b 3 1
  let op := bits cmd 0 2
  let words := bits cmd 5 3 + 1
  let data := (List.range words).map (fun i => (BitVec.ofNat 32 (recNum b (8 + 4 * i) 4) : Word))
  if bits cmd 2 3 ≠ 0 ∨ 6 < words ∨ b.length ≠ (if op = 2 then 8 + 4 * words else 8) ∨ op = 0 ∨ op = 3 then countDrop n s
  else
    let (r, vs, s1) := raAccess (linkUnit n) op words (recNum b 4 4 / 4 * 4) data s
    let src := recNum b 0 2
    let body := leBytes 2 s1.devId ++ (b.drop 2).take 1
    match hopOf s1 src with
    | .port k => sendOn k (mkFrame ftRaResp src (body ++ leBytes 1 r ++ (vs.map (leBytes 4)).flatten)) s1
    | _ => s1

/-- RA_REQ (R284, R296). -/
def takeRaReq (n : Nat) (f : List Byte) (s : State) : State :=
  match hopOf s (frDst f) with
  | .self => raServe n f s
  | .port k => sendOn k f s
  | .nowhere =>
    let b := frBody f
    let src := recNum b 0 2
    let s1 := countDrop n s
    match hopOf s1 src with
    | .port k => sendOn k (mkFrame ftRaResp src (leBytes 2 s1.devId ++ (b.drop 2).take 1 ++ leBytes 1 1)) s1
    | _ => s1

/-- RA_RESP (R284, R296). -/
def takeRaResp (n : Nat) (f : List Byte) (s : State) : State :=
  match hopOf s (frDst f) with
  | .port k => sendOn k f s
  | .nowhere => countDrop n s
  | .self =>
    let b := frBody f
    match s.est.raOpen.findIdx? (fun o => o == some (recNum b 2 1)) with
    | none => s
    | some c => raDone c (recNum b 3 1) ((List.range ((b.length - 4) / 4)).map (fun i => recNum b (4 + 4 * i) 4)) s

/-- RA_TIMEOUT (R296). -/
def raTimeout (c : Nat) (s : State) : State := if (nth s.est.raOpen c none).isSome then raFinish c 2 s else s

end Sys2Proof.Machine
end

