-- ==== Sys2Proof/Machine/HostPort.lean ====
section
/-!
DEFINITION. The SPI host port (14, R303 to R310; 16, Table 16.5).
-/

namespace Sys2Proof.Machine

def hostUnit : Nat := 0x75
def State.modHost (s : State) (f : HostPort → HostPort) : State := { s with host := f s.host }

/-- The port serves commands: from step 6 of Table 17.3 on, in RUN and DOZE, neither held nor in its reset. -/
def hostAlive (s : State) : Bool :=
  (s.pow.phase == .logic || s.pow.phase == .up) && decide (s.pwr ≤ 1) && !s.isHeld hostUnit && !s.flt.resets.contains hostUnit

/-- An error flag of HOST_STAT, and ERRADDR for the first of UNDERRUN, OVERRUN and PARTIAL (R310). ERRS counts commands. -/
def hostError (f : Fd) (addr : Option Nat) (s : State) : State :=
  let clear := !s.flag F.HOST_STAT_UNDERRUN && !s.flag F.HOST_STAT_OVERRUN && !s.flag F.HOST_STAT_PARTIAL
  let s1 := match addr with
    | some a => if clear then s.put F.HOST_ERRADDR_ADDR a else s
    | none => s
  let s2 := if s.host.erred then s1 else s1.incSat F.HOST_CNT_ERRS
  (s2.mark f).modHost (fun h => { h with erred := true })

/-- HCS_N_FALL (R303, Table 16.5): a command begins; where the fall is recognised as a wake source, that command is discarded. A held port ignores
its pins (R368). -/
def hcsFall (s : State) : State :=
  let s1 := s.modHost (fun h => { h with
    low := true, busy := false, erred := false, out := [], more := .none, stream := none, discard := !hostAlive s || wakeEnabled s 6 })
  if s.isHeld hostUnit then s1 else wakeRecognised 6 s1

/-- HCS_N_RISE (R308): the command ends, and an incomplete register word is discarded. -/
def hcsRise (s : State) : State :=
  let s1 := match s.host.partAt with
    | some a => hostError F.HOST_STAT_PARTIAL (some a) s
    | none => s
  s1.modHost (fun h => { h with low := false, busy := false, discard := false, partAt := none, erred := false })

/-- An opcode arrives in the forms `one` (1-1-1 or 1-4-4) and `four` (4-4-4); in another form it is undefined (R305). -/
def hostCommand (one four : Bool) (act : State → State) (s : State) : State :=
  let h := s.host
  if !hostAlive s || !h.low || h.busy || h.discard then s
  else
    let s1 := (s.incWrap F.HOST_CNT_CMDS).modHost (fun h => { h with
      busy := true, armed := false, out := [], more := .none, wide := s.flag F.HOST_STAT_FORM4, stream := none })
    if (if s.flag F.HOST_STAT_FORM4 then four else one) then act s1 else hostError F.HOST_STAT_BADCMD none s1

/-- BADCMD (R305): an opcode that Table 14.1 does not list. -/
def badCommand (s : State) : State := hostCommand false false id s

/-- The status byte of R309. -/
def statusByte (s : State) : Nat :=
  b2n (s.flag F.HOST_STAT_WIP) + 2 * b2n (bellRequest s) +
  4 * b2n (s.flag F.HOST_STAT_BADCMD || s.flag F.HOST_STAT_UNDERRUN || s.flag F.HOST_STAT_OVERRUN || s.flag F.HOST_STAT_PARTIAL || s.flag F.HOST_STAT_BUSY_WR) +
  8 * b2n (s.flag F.HOST_STAT_FORM4) + 16 * b2n (s.flag F.SYS_RMAP_STAT_WAITING)

def sendOut (b : List Byte) (s : State) : State := s.modHost (fun h => { h with out := b })

/-- The command goes on sending. -/
def sendMore (m : HostMore) (s : State) : State := s.modHost (fun h => { h with more := m })

def rdsr (s : State) : State := hostCommand true true (fun s => sendMore .status (sendOut [BitVec.ofNat 8 (statusByte s)] s)) s
def readId (s : State) : State :=
  hostCommand true true (fun s => sendMore .zero (sendOut [0x20#8, 0x96#8, Config.stepping, BitVec.ofNat 8 (s.get F.TWP_STAT_ADDR)] s)) s

/-- The next `n` bytes a command in progress sends behind those of `out`. -/
def hostMore (s : State) (n : Nat) : List Byte := match s.host.more with
  | .none => []
  | .status => List.replicate n (BitVec.ofNat 8 (statusByte s))
  | .zero => List.replicate n 0#8

/-! Posted writes (R308). -/

/-- The oldest posted access is applied. -/
def applyOne (s : State) : State :=
  match s.host.posted with
  | [] => s
  | p :: q =>
    let s1 := s.modHost (fun h => { h with posted := q })
    match p with
    | .byte a b => portBytes hostUnit a [b] s1
    | .word a v => portWord regWrite hostUnit a v s1

/-- WIP is set until every posted byte has been applied. -/
def settleWip (s : State) : State := s.putB F.HOST_STAT_WIP (!s.host.posted.isEmpty)

/-- POSTED_WRITE_COMPLETE (R308): the first `n` posted accesses are applied. -/
def postedComplete (n : Nat) (s : State) : State := if s.host.posted.isEmpty then s else settleWip (iter (min n s.host.posted.length) applyOne s)

/-- All of them are. -/
def postedAll (s : State) : State := postedComplete s.host.posted.length s

/-- An address that holds no memory and no register is refused word by word (R423). -/
def isVoid (a : Nat) : Bool := a < 0x10000000 && !inLedger a && !inPigeon a

/-- What a WRITE posts: memory bytes, one byte for each unoccupied word, whole register words; the address of the first byte of
an incomplete register word; and that of one the start address entered part of the way through. -/
structure Posting where
  list  : List Posted
  part  : Option Nat
  enter : Option Nat
  deriving DecidableEq, Repr

def postBytes : Nat → Bool → List Byte → List Byte → Posting
  | _, _, [], acc => ⟨[], none, if acc.isEmpty then none else some 0⟩
  | a, first, b :: t, acc =>
    let next := (a + 1) % 2 ^ 32
    if a < 0x10000000 then
      let r := postBytes next false t []
      if isVoid a && a % 4 != 0 && !first then r else { r with list := .byte a b :: r.list }
    else if first && a % 4 != 0 then
      { postBytes next (next % 4 != 0) t [] with enter := some a }
    else
      let w := acc ++ [b]
      if a % 4 = 3 then
        let r := postBytes next false t []
        { r with list := .word (a - 3) (BitVec.ofNat 32 (ofLe w)) :: r.list }
      else if t.isEmpty then ⟨[], some (a - a % 4), none⟩
      else postBytes next false t w

/-- The data phase of a WRITE. -/
def postWrite (addr : Nat) (data : List Byte) (s : State) : State :=
  if s.flag F.HOST_STAT_WIP then hostError F.HOST_STAT_BUSY_WR none s
  else
    let p := postBytes (addr % 2 ^ 32) true (data.take 256) []
    let s1 := match p.enter with
      | some _ => hostError F.HOST_STAT_PARTIAL (some (addr % 2 ^ 32)) s
      | none => s
    let s2 := if 256 < data.length then hostError F.HOST_STAT_OVERRUN (some ((addr + 256) % 2 ^ 32)) s1 else s1
    settleWip (s2.modHost (fun h => { h with posted := p.list, partAt := p.part }))

/-- The 1-4-4 opcodes: every phase after the opcode uses four lines (R304). -/
def onFour (s : State) : State := s.modHost (fun h => { h with wide := true })

def hostWrite (addr : Nat) (data : List Byte) (s : State) : State := hostCommand true true (postWrite addr data) s
def hostWriteQ (addr : Nat) (data : List Byte) (s : State) : State := hostCommand true true (fun s => postWrite addr data (onFour s)) s

/-! Reading (R306, R307). -/

/-- The read stream: `n` bytes from `a`; `late` counts down to a byte of a memory stream that is not ready, from which on the
device sends 0x00. Answers the bytes, the address of that byte, and the state. -/
def hostStream : Nat → Nat → Bool → Option Nat → Nat → State → List Byte × Option Nat × State
  | 0, _, _, _, _, s => ([], none, s)
  | n + 1, a, first, late, latch, s =>
    let next := (a + 1) % 2 ^ 32
    let late1 := late.map (· - 1)
    if a < 0x10000000 then
      if late = some 0 then (List.replicate (n + 1) 0#8, some a, s)
      else
        let k := if inLedger a then 64 else 8
        let s0 := if (first || a % k = 0) && (inLedger a || inPigeon a) then readAs hostUnit a s else s
        let (b, s1) := hostReadByte hostUnit a s0
        let (bs, u, s2) := hostStream n next false late1 0 s1
        (b :: bs, u, s2)
    else
      let (w, s1) := if first || a % 4 = 0 then regRead hostUnit (a / 4 * 4) s else (latch, s)
      let (bs, u, s2) := hostStream n next false (if late = some 0 then none else late1) w s1
      (BitVec.ofNat 8 (w / 2 ^ (8 * (a % 4))) :: bs, u, s2)

/-- The read of `n` bytes, after any posted writes have completed. -/
def streamOut (addr n : Nat) (late : Option Nat) (s : State) : State :=
  let (bs, u, s1) := hostStream n (addr % 2 ^ 32) true late 0 (postedAll s)
  let s2 := match u with
    | some a => hostError F.HOST_STAT_UNDERRUN (some a) s1
    | none => s1
  (sendOut bs s2).modHost (fun h => { h with stream := some (addr % 2 ^ 32) })

def hostReadCmd (addr n : Nat) (late : Option Nat) (s : State) : State := hostCommand true true (streamOut addr n late) s
def hostReadQ (addr n : Nat) (late : Option Nat) (s : State) : State := hostCommand true true (fun s => streamOut addr n late (onFour s)) s

/-! Forms and reset (R304, R305). -/

def enterQuad (s : State) : State := hostCommand true false (fun s => s.mark F.HOST_STAT_FORM4) s
def exitQuad (s : State) : State := hostCommand false true (fun s => s.put F.HOST_STAT_FORM4 0) s
def resetEn (s : State) : State := hostCommand true true (fun s => s.modHost (fun h => { h with armed := true })) s

/-- RESET: posted writes complete first; without RESET_EN before it the opcode is undefined. -/
def hostReset (s : State) : State :=
  if s.host.armed then hostCommand true true (fun s => (postedAll s).setReg A.HOST_STAT 0) s else badCommand s

/-! The pins HIO0 to HIO3 (R303 to R306). -/

/-- The bytes with which the host gives a command: the opcode, the address with its most significant byte first, the data (R304, Table 14.1). -/
def hostSends : Instr → List Byte
  | .rdsr => [0x05#8]
  | .readId => [0x9F#8]
  | .read a _ _ => 0x0B#8 :: (leBytes 4 a.toNat).reverse
  | .readQ a _ _ => 0xEB#8 :: (leBytes 4 a.toNat).reverse
  | .write a d => 0x02#8 :: (leBytes 4 a.toNat).reverse ++ d
  | .writeQ a d => 0x32#8 :: (leBytes 4 a.toNat).reverse ++ d
  | .enterQuad => [0x35#8]
  | .exitQuad => [0xF5#8]
  | .resetEn => [0x66#8]
  | .reset => [0x99#8]
  | _ => []

/-- A byte clock by clock, each with the lines it uses and their levels: in one-line phases the line `one`, most significant bit first; on four
lines the high nibble first, line k with bits k + 4 and k (R304). -/
def hioByte (wide : Bool) (one : Nat) (b : Byte) : List (List (Nat × Bool)) :=
  if wide then [(List.range 4).map (fun k => (k, b.getLsbD (k + 4))), (List.range 4).map (fun k => (k, b.getLsbD k))]
  else (List.range 8).map (fun i => [(one, b.getLsbD (7 - i))])

/-- The levels on which the host gives a command in the form in force; the opcode of a 1-4-4 command goes on HIO0. -/
def hioGiven (form4 : Bool) (i : Instr) : List (List (Nat × Bool)) :=
  let later := form4 || (match i with | .readQ _ _ _ | .writeQ _ _ => true | _ => false)
  ((hostSends i).take 1).flatMap (hioByte form4 0) ++ ((hostSends i).drop 1).flatMap (hioByte later 0)

/-- Data of a read stream from `a` with its tokens: one before a memory stream, one before each word of a register stream (R306). -/
def withTokens : Nat → Bool → List Byte → List Byte
  | _, _, [] => []
  | a, first, b :: t =>
    (if first || a == 0 || (0x10000000 ≤ a && a % 4 == 0) then [0xFE#8] else []) ++ b :: withTokens ((a + 1) % 2 ^ 32) false t

/-- What the device has driven for the command in progress, and drives for `n` further bytes of it (R303, R306): in a read on one line HIO1 is high for the turnaround byte. Wait bytes of 0xFF
before a token are a matter of time, and not among these. -/
def hioDriven (s : State) (n : Nat) : List (List (Nat × Bool)) :=
  let h := s.host
  if !h.low then []
  else match h.stream with
    | none => (h.out ++ hostMore s n).flatMap (hioByte h.wide 1)
    | some a => (if h.wide then List.replicate 2 [] else hioByte false 1 0xFF#8) ++ (withTokens a true h.out).flatMap (hioByte h.wide 1)

/-- A unit reset of the port: the command in progress ends as if HCS_N had risen (Table 18.3). -/
def hostCut (s : State) : State :=
  let low := s.host.low
  (hcsRise s).modHost (fun h => { h with low := low, busy := low })

end Sys2Proof.Machine
end

