-- ==== Sys2Proof/Machine/Twp.lean ====
section
/-!
DEFINITION. The two-wire management port and the alert response (14, R311 to R322; 16, Table 16.5).
-/

namespace Sys2Proof.Machine

def twpUnit : Nat := 0x76
def State.modTwp (s : State) (f : Twp → Twp) : State := { s with twp := f s.twp }

/-- The port serves transactions. -/
def twpAlive (s : State) : Bool :=
  (s.pow.phase == .logic || s.pow.phase == .up) && decide (s.pwr ≤ 1) && !s.isHeld twpUnit && !s.flt.resets.contains twpUnit

/-- In HUSH, and while it is left, the port still watches for its own address (Table 16.5, Table 16.7). -/
def twpWatches (s : State) : Bool :=
  s.pwr == 2 && (s.pow.phase == .up || s.exiting) && !s.isHeld twpUnit && !s.flt.resets.contains twpUnit

def twpAddr (s : State) : Nat := s.get F.TWP_STAT_ADDR
def twpPec (s : State) : Bool := s.flag F.TWP_CFG_PEC
def twpPage (s : State) : Nat := s.get F.TWP_PAGE_PAGE

/-- The host address of a byte of the window page (Table 14.2). -/
def windowAddr (s : State) (p : Nat) : Nat := (s.get F.TWP_WBASE_BASE * 4 + (p - 4)) % 2 ^ 32

/-- Whether a byte at the pointer belongs to the address space below the registers, seen through the window. -/
def ptrMemory (s : State) (p : Nat) : Bool := twpPage s == 1 && decide (4 ≤ p) && decide (windowAddr s p < 0x10000000)

/-! Writing (R312, R313). -/

/-- The staged memory bytes are applied as one access (R313). -/
def twpApply (s : State) : State :=
  match s.twp.staged with
  | [] => s
  | (a, b) :: t => portBytes twpUnit a (b :: t.map Prod.snd) (s.modTwp (fun w => { w with staged := [] }))

/-- They are when the pointer has left their aligned 16-byte group. -/
def twpLeave (s : State) : State :=
  match s.twp.staged with
  | [] => s
  | (a, _) :: _ => if ptrMemory s s.twp.ptr && windowAddr s s.twp.ptr / 16 == a / 16 then s else twpApply s

/-- They are also when the next byte does not follow them, the window having moved (R322). -/
def twpBreak (a : Nat) (s : State) : State :=
  match s.twp.staged with
  | [] => s
  | (a0, _) :: _ => if a = a0 + s.twp.staged.length then s else twpApply s

/-- A register word left incomplete is discarded (R313). -/
def twpDropWord (s : State) : State :=
  if s.twp.word.isEmpty then s else (s.mark F.TWP_STAT_PARTIAL).modTwp (fun w => { w with word := [] })

/-- A byte of a register word at host address `a`: the word is written through `act` with its byte at offset 3. -/
def twpWordByte (a : Nat) (b : Byte) (act : Nat → Word → State → State) (s : State) : State :=
  let base := a - a % 4
  if a % 4 = 0 then (twpDropWord s).modTwp (fun w => { w with word := [b], wordAt := base })
  else if s.twp.word.length = a % 4 ∧ s.twp.wordAt = base then
    let full := s.twp.word ++ [b]
    if a % 4 = 3 then act base (BitVec.ofNat 32 (ofLe full)) (s.modTwp (fun w => { w with word := [] }))
    else s.modTwp (fun w => { w with word := full })
  else (twpDropWord s).mark F.TWP_STAT_PARTIAL

/-- A word written through the window. -/
def windowWord (a : Nat) (w : Word) (s : State) : State :=
  if 0x10000000 ≤ a then portWord regWrite twpUnit a w s else portBytes twpUnit a (leBytes 4 w.toNat) s

/-- A refusal the pages themselves make (R312). -/
def pageRefuse (s : State) : State := refuse twpUnit A.TWP_PAGE s

/-- What a byte written at pointer `p` does (Table 14.2). -/
def twpPutAt (p : Nat) (b : Byte) (s : State) : State :=
  let page := twpPage s
  if p = 0 then (if 3 ≤ b.toNat then pageRefuse s else s.put F.TWP_PAGE_PAGE b.toNat)
  else if p < 4 then (if b = 0 then s else pageRefuse s)
  else if page = 0 then
    (if p < 8 then twpWordByte (2 ^ 33 + p) b (fun _ w => regWrite twpUnit A.TWP_WBASE w) s
     else if p < 0x10 then s else pageRefuse s)
  else if page = 1 then
    (let a := windowAddr s p
     if ptrMemory s p then (twpBreak a s).modTwp (fun w => { w with staged := w.staged ++ [(a, b)] })
     else twpWordByte a b windowWord s)
  else if p < 0x28 then s
  else if p = 0x28 ∧ b = 1 then portWord regWrite twpUnit A.GATE_OBX_POP 1 s
  else pageRefuse s

/-- A data byte is written at the pointer, which advances (R312). -/
def twpPut (b : Byte) (s : State) : State :=
  let s1 := twpLeave s
  let p := s1.twp.ptr
  twpLeave ((twpPutAt p b s1).modTwp (fun w => { w with ptr := (p + 1) % 256 }))

/-- The first byte of a write sets the pointer; each later byte is written at it. -/
def twpByte (b : Byte) (s : State) : State :=
  if s.twp.first then s.modTwp (fun w => { w with first := false, ptr := b.toNat }) else twpPut b s

/-- The window base and the page as registers. -/
def setWindow (base page : Nat) (s : State) : State := (s.put F.TWP_WBASE_BASE base).put F.TWP_PAGE_PAGE page

/-- A byte that PEC has let through is applied, after what the host port wrote to the window base or the page before it came (R322). -/
def heldByte (p : (Nat × Nat) × State) (h : HeldByte) : (Nat × Nat) × State :=
  let s := p.2
  let base := if h.base = p.1.1 then s.get F.TWP_WBASE_BASE else h.base
  let page := if h.page = p.1.2 then twpPage s else h.page
  ((h.base, h.page), twpByte h.data (setWindow base page s))

/-- The bytes PEC guarded are applied, in order. -/
def heldBytes (hs : List HeldByte) (s : State) : State :=
  match hs with
  | [] => s
  | h :: _ =>
    let r := hs.foldl heldByte ((h.base, h.page), setWindow h.base h.page s)
    let base := if s.get F.TWP_WBASE_BASE = r.1.1 then r.2.get F.TWP_WBASE_BASE else s.get F.TWP_WBASE_BASE
    let page := if twpPage s = r.1.2 then twpPage r.2 else twpPage s
    setWindow base page r.2

/-- The end of a write segment (R313, R316): with PEC its last byte is the check of all before it, but for a pointer byte alone
before a repeated START. -/
def segmentEnd (again : Bool) (s : State) : State :=
  let h := s.twp.held
  let s1 := s.modTwp (fun w => { w with held := [] })
  let s2 :=
    if h.isEmpty then s1
    else if again && h.length == 1 then heldBytes h s1
    else if crc8 s.twp.seen = 0 then heldBytes h.dropLast s1
    else s1.mark F.TWP_STAT_PEC_ERR
  twpDropWord (twpApply s2)

/-- A byte at pointer `p` belongs to a register word. -/
def wordByteAt (s : State) (p : Nat) : Bool :=
  decide (4 ≤ p) && ((twpPage s == 0 && decide (p < 8)) || (twpPage s == 1 && !ptrMemory s p))

/-- Bytes that PEC still guards belong to a register word; `s` is the state as they would leave it one by one. -/
def wordGuarded : List HeldByte → State → Bool
  | [], _ => false
  | h :: t, s => (!s.twp.first && wordByteAt s s.twp.ptr) || wordGuarded t (twpByte h.data s)

/-- An early end (R320): what PEC still guards is discarded, and an incomplete register word. -/
def twpAbort (s : State) : State :=
  let s1 := if wordGuarded s.twp.held (s.modTwp (fun w => { w with held := [] })) then s.mark F.TWP_STAT_PARTIAL else s
  twpDropWord (twpApply (s1.modTwp (fun w => { w with held := [], stage := .lost })))

/-! Reading (R312, R313). -/

/-- What names the word, letter or 16 bytes of memory a byte at the pointer belongs to. -/
def readKey (s : State) (p : Nat) : Nat :=
  if ptrMemory s p then 2 ^ 34 + windowAddr s p / 16
  else if twpPage s = 1 ∧ 4 ≤ p then windowAddr s p / 4 * 4
  else if twpPage s = 2 ∧ 4 ≤ p ∧ p < 0x24 then 2 ^ 32
  else 2 ^ 33 + 64 * twpPage s + p / 4

/-- The four bytes of a group of pages 0x00 and 0x02 (Table 14.2). -/
def pageWord (s : State) (p : Nat) : List Byte :=
  let page := twpPage s
  if p < 4 then leBytes 4 page
  else if page = 0 then
    (if p < 8 then leBytes 4 (s.reg A.TWP_WBASE).toNat
     else if p < 0x0C then [0x20#8, 0x96#8, Config.stepping, BitVec.ofNat 8 (twpAddr s)]
     else if p < 0x10 then leBytes 4 (obxHeld s) else leBytes 4 0)
  else if 0x24 ≤ p ∧ p < 0x28 then leBytes 4 (obxHeld s)
  else leBytes 4 0

/-- Memory is fetched ahead up to the end of its aligned 16 bytes (R313), so that an entry of the address book is read whole (R13). -/
def fetchMemory (p : Nat) (s : State) : List Byte × State :=
  let a := windowAddr s p
  let (b, s1) := hostRead twpUnit (min (16 - a % 16) (256 - p)) a s
  (List.replicate (a % 16) 0#8 ++ b, s1)

/-- The letter of page 0x02, or zeros when none is held (Table 14.2). One that reads uncorrectable is not sent (R373): zeros go in its place. -/
def outboxPage (s : State) : List Byte × State :=
  if obxHeld s = 0 then (List.replicate 32 0#8, s)
  else
    let i := s.get F.GATE_OBX_RD_IDX
    let s1 := readSpan twpUnit (obxPlace s i) 32 s
    (if letterBad s twpUnit (obxPlace s i) then List.replicate 32 0#8 else obxLetter s1 i, s1)

/-- A register word, or the outbox letter, is read once (R313); memory is fetched ahead. -/
def twpFetch (s : State) : State :=
  let p := s.twp.ptr
  let k := readKey s p
  if ptrMemory s p then
    if s.twp.latchAt = some k ∧ windowAddr s p % 16 ≠ 0 ∧ p ≠ 4 then s
    else
      let (b, s1) := fetchMemory p s
      s1.modTwp (fun w => { w with latchAt := some k, latch := b })
  else
    if s.twp.latchAt = some k ∧ (k = 2 ^ 32 ∨ p % 4 ≠ 0) then s
    else
      let (b, s1) :=
        if k < 2 ^ 32 then let (v, s1) := hostReadWord twpUnit k s; (leBytes 4 v, s1)
        else if k = 2 ^ 32 then outboxPage s
        else (pageWord s p, s)
      s1.modTwp (fun w => { w with latchAt := some k, latch := b })

/-- The byte at the pointer. -/
def twpRead (s : State) : Byte × State :=
  let p := s.twp.ptr
  let s1 := if s.twp.latchAt = some (readKey s p) then s else twpFetch s
  (s1.twp.latch.getD (if ptrMemory s1 p then windowAddr s1 p % 16 else if readKey s1 p = 2 ^ 32 then p - 4 else p % 4) 0#8, s1)

/-- The PEC byte is due (R316). -/
def pecDue (s : State) : Bool := twpPec s && s.twp.count == s.get F.TWP_CFG_RDLEN

/-- The host's acknowledgement of a byte sent: the next is prepared, or the port is done. -/
def twpAcked (ack : Bool) (s : State) : State :=
  if !ack then s.modTwp (fun w => { w with stage := .lost }) else if pecDue s then s else twpFetch s

/-- TWP_READ_BYTE (R312 to R316): a byte is sent in full. -/
def twpReadByte (ready ack : Bool) (s : State) : State :=
  if !twpAlive s || s.twp.stage != .read || s.twp.stretch then s
  else if pecDue s then
    let c := BitVec.ofNat 8 (crc8 s.twp.seen)
    twpAcked ack (s.modTwp (fun w => { w with seen := [], count := 0, out := w.out ++ [c] }))
  else
    let (b, s1) := if ready || s.flag F.TWP_CFG_STRETCH then twpRead s else (0xFF#8, s.mark F.TWP_STAT_LATE)
    twpAcked ack (s1.modTwp (fun w => { w with seen := w.seen ++ [b], count := w.count + 1, out := w.out ++ [b], ptr := (w.ptr + 1) % 256 }))

/-- TWP_WRITE_BYTE (R312, R313, R316): a byte is acknowledged. -/
def twpWriteByte (b : Byte) (s : State) : State :=
  if !twpAlive s || s.twp.stage != .write || s.twp.stretch then s
  else
    let s1 := s.modTwp (fun w => { w with seen := w.seen ++ [b] })
    if twpPec s then s1.modTwp (fun w => { w with held := w.held ++ [⟨b, s.get F.TWP_WBASE_BASE, twpPage s⟩] }) else twpByte b s1

/-! START, address, STOP (R311, R316, R320). -/

/-- RANK of the alert response (R319): 3, 2, 1 for the highest class held. -/
def alertRank (s : State) : Nat :=
  (obxLetters s).foldl (fun r l => max r (if recClass l = 0 then 0 else 4 - recClass l)) 0

/-- TWP_START: `misplaced` when an acknowledge or a data bit was due (Table 14.4). -/
def twpStart (misplaced : Bool) (s : State) : State :=
  if !(twpAlive s || twpWatches s) || s.twp.stretch then s
  else
    let t := s.twp
    let ours := t.stage == .write || t.stage == .read || t.stage == .address
    let only := t.stage == .write && t.held.length == 1 && !misplaced
    let s1 :=
      if ours && misplaced then twpAbort (s.mark F.TWP_STAT_MISSTART)
      else if t.stage = .write then segmentEnd true s
      else s
    s1.modTwp (fun w => { w with
      stage := .address, seen := if only then w.seen else [], first := true, held := [], latchAt := none, count := 0, out := []
      drive := s.flag F.TWP_ALERT_DRIVE, rank := alertRank s, counted := w.counted && t.stage != .idle && !(ours && misplaced) })

/-- XFERS counts a transaction once, at the first own address since its START (Table 14.8, Table 21.6). -/
def countXfer (s : State) : State :=
  if s.twp.counted then s else (s.incWrap F.TWP_CNT_XFERS).modTwp (fun w => { w with counted := true })

/-- TWP_ADDRESS (R311, R318; in HUSH and on the way there, Table 16.5 and Table 16.7). -/
def twpAddress (b : Byte) (s : State) : State :=
  if s.twp.stage ≠ .address ∨ s.twp.stretch then s
  else
    let own := b.toNat / 2 == twpAddr s
    let dir : TwpStage := if bit b.toNat 0 then .read else .write
    let s1 := s.modTwp (fun w => { w with seen := w.seen ++ [b] })
    if twpWatches s then
      if own && bit (s.reg A.PWR_WAKE).toNat 5 then
        let s2 := wakeRecognised 5 s1
        if s.flag F.TWP_CFG_STRETCH then
          (countXfer s2).modTwp (fun w => { w with stage := dir, stretch := true })
        else s2.modTwp (fun w => { w with stage := .lost })
      else s1.modTwp (fun w => { w with stage := .lost })
    else if !twpAlive s then s
    else if own then
      let s2 := (countXfer (wakeRecognised 5 s1)).modTwp (fun w => { w with stage := dir })
      if dir = .read then twpFetch s2 else s2
    else if b = 0x19#8 ∧ s.twp.drive then s1
    else s1.modTwp (fun w => { w with stage := .lost })

/-- What the device sends in an alert response: its priority byte in priority mode, and its address (R318, R319). -/
def alertBytes (s : State) : Byte × Byte :=
  (if s.flag F.TWP_ALERT_PRIO_MODE then BitVec.ofNat 8 (255 - (s.twp.rank * 64 + s.get F.TWP_ALERT_PRIO)) else 0#8, BitVec.ofNat 8 (2 * twpAddr s))

/-- ALERT_RESPONSE (R318, R319): `others` are the priority bytes and address bytes of the other devices that take part. A
device that sends 1 and reads 0 has lost. -/
def alertResponse (others : List (Byte × Byte)) (s : State) : State :=
  if !twpAlive s || s.twp.stage != .address || !s.twp.drive || s.twp.seen.getLast? != some 0x19#8 then s
  else
    let (p, a) := alertBytes s
    let mode := s.flag F.TWP_ALERT_PRIO_MODE
    let sent := if mode then [p, a] else [a]
    let won := others.all (fun o => if mode && p != o.1 then decide (p.toNat < o.1.toNat) else decide (a.toNat ≤ o.2.toNat))
    let s1 := s.modTwp (fun w => { w with stage := .lost, out := sent ++ (if twpPec s then [BitVec.ofNat 8 (crc8 (w.seen ++ sent))] else []) })
    if won then ((s1.mark F.TWP_ALERT_ANSWERED).put F.TWP_ALERT_DRIVE 0).incSat F.TWP_CNT_ARA_WON
    else s1.modTwp (fun w => { w with out := [] })

/-- TWP_STOP (R316, R320). -/
def twpStop (misplaced : Bool) (s : State) : State :=
  if !(twpAlive s || twpWatches s) || s.twp.stretch then s
  else
    let t := s.twp
    let ours := t.stage == .write || t.stage == .read || t.stage == .address
    let s1 :=
      if ours && misplaced then twpAbort (s.mark F.TWP_STAT_MISSTOP)
      else if t.stage = .write then segmentEnd false s
      else s
    s1.modTwp (fun w => { w with stage := .idle })

/-- TWP_TIMEOUT (R320): lines held low for 35 ms are released. -/
def twpTimeout (s : State) : State :=
  if s.twp.stage == .idle || s.twp.stage == .lost then s
  else (twpAbort (s.mark F.TWP_STAT_TIMEOUT)).modTwp (fun w => { w with stage := .idle, stretch := false })

end Sys2Proof.Machine
end

