-- ==== Sys2Proof/Machine/Recovery.lean ====
section
/-!
DEFINITION. CHECK faults, unit resets and their recovery, and the day-book writer (18, R364 to R368, R371, R372, R381).
-/

namespace Sys2Proof.Machine

/-- The device's logic is powered and out of reset. -/
def logicPowered (s : State) : Bool := s.pow.phase != .coldHold && s.pow.phase != .resetHold && !(s.pow.phase == .up && s.pwr == 3)

/-- CHECK_FAULT (R364, R366, R371, Table 18.10): of the codes of Table 18.1 only, and ignored while the unit is held; on the timers block, and on a postmaster that is
handling a fault, safe hold. -/
def checkFault (u code : Nat) (s : State) : State :=
  if 0x80 ≤ u || (code != 1 && code != 2) || s.isHeld u || !logicPowered s then s
  else
    let s1 := raiseFault u 3 code 0 s
    if u = 0x7D ∨ (u = 0 ∧ pmHandling s) then s1
    else
      let s2 := openRecovery u (beginReset u s1)
      if priValid s2 u ∧ !s2.flt.check.contains u then { s2 with flt := { s2.flt with check := s2.flt.check ++ [u] } } else s2

/-- The recovery of a port engine (Table 18.3). -/
def portRecover (p : Nat) (s : State) : State :=
  match s.port p with
  | none => s
  | some q =>
    let s1 := (abandonExchange p s).modPort p (fun q => { q with readings := [] })
    if q.stop || !s1.flag (F.FL_CTRL_EN p) then (let s2 := stopPort p s1; if s2.flag (F.FL_CTRL_EN p) then walkOut p s2 else s2)
    else match q.walk with
      | some ⟨n, .ping⟩ => walkPinged p n false s1
      | some ⟨n, .close⟩ => s1.modPort p (fun q => { q with walk := some ⟨n, .wait⟩ })
      | some _ => s1
      | none => if q.round.isSome then finishRound p s1 else advance p s1

/-- The recovery of a filter chain. -/
def chainRecover (i : Nat) (s : State) : State :=
  let s1 := chainHalt i s
  if s1.flag (F.FC_CTRL_RUN i) && !s1.quiet then (chainBegin i s1).modChain i (fun c => { c with gap := true }) else s1

/-- The recovery of a link port: an ACTIVE port retrains, and a held one goes down. -/
def linkRecover (n : Nat) (s : State) : State :=
  if s.isHeld (0x71 + n) then leaveActive n lsDown s
  else if linkUp s n then retrain n s
  else if s.flag (F.CAS_L_STAT_PRS n) && linkEnabled s n && !s.quiet then beginTraining n s
  else s

/-- The recovery of the ledger controller: buffers and moves are completed, transactions before their commit point fail, and those past it
are retired. -/
def ledgerRecover (s : State) : State :=
  let s0 := drainBuffers (s.modLedg (fun l => { l with verify := [] }))
  let s1 := heldReleased s0 (redoHeld s0)
  let s2 := (s1.ledg.txns.filter (fun t => t.phase != .committed)).foldl (fun s t => failTxn t s) s1
  (s2.ledg.txns.filter (fun t => t.phase == .committed)).foldl (fun s t => retireRecord t.owner s) s2

/-- The recovery of the day-book writer: what waits is lost, and counted. -/
def dayRecover (s : State) : State :=
  let n := s.flt.dayQ.length
  if n = 0 then s
  else
    let s1 := (s.incSat F.DAYB_CNT_LOST n).mark F.DAYB_STAT_LOST
    { s1 with flt := { s1.flt with dayQ := [], dayLost := s1.flt.dayLost + n } }

/-- What a unit's reset does (Table 18.3). -/
def unitRecover (u : Nat) (s : State) : State :=
  if u ≤ 0x40 then coreReset u s
  else if isPortUnit u then portRecover (u - 0x41) s
  else if u ≤ 0x70 then chainRecover (u - 0x61) s
  else if u ≤ 0x74 then linkRecover (u - 0x71) s
  else match u with
    | 0x75 => hostCut s
    | 0x76 => twpTimeout s
    | 0x78 => retryNodes (forUpTo 32 cancelBack s)
    | 0x79 => advanceAll s
    | 0x7A => ledgerRecover s
    | 0x7B => s.modLedg (fun l => { l with scrubPtr := 0 })
    | 0x7C => s.put F.PACE_VCORE_SETPOINT 0x5A
    | 0x7E => dayRecover s
    | _ => s

/-- The slots that hold a CHECK fault are cleared (R366); safe hold keeps every slot (Table 18.2). -/
def clearChecks (u : Nat) (s : State) : State :=
  let s1 := if !s.safe && secValid s u && s.get (F.SYS_FLT_SEC_CLASS u) == 3 then clearSlot u true s else s
  if !s.safe && priValid s1 u && s1.get (F.SYS_FLT_PRI_CLASS u) == 3 then clearSlot u false s1 else s1

/-- UNIT_RESET_COMPLETE (R366, R367, R371, R372): none while a flush is in progress (Table 18.10). -/
def unitResetComplete (u : Nat) (s : State) : State :=
  if !s.flt.resets.contains u || !logicPowered s || s.flag F.DLF_STAT_FLUSHING then s
  else
    let s1 := { s with flt := { s.flt with resets := s.flt.resets.filter (· != u), check := s.flt.check.filter (· != u) } }
    closeRecovery u (clearChecks u (unitRecover u s1))

/-- DAY_BOOK_WRITE (R381). -/
def dayBookWrite (s : State) : State :=
  if s.pow.phase != .up || 2 ≤ s.pwr || dayHeld s then s else dayNext s

end Sys2Proof.Machine
end

