-- ==== Sys2Proof/Machine/CoreIo.lean ====
section
/-!
DEFINITION. A core's accesses: window regions, unit I/O, the register bridge, taking a record, run-ahead, offers,
transactions and seals (11, R228 to R239, R245, R246, R248).
-/

namespace Sys2Proof.Machine

/-! What a core may reach. -/

/-- The blocks the register bridge reaches (R239). -/
def bridgeOk (c a : Nat) (write : Bool) : Bool :=
  a % 4 == 0 && 0x10000000 ≤ a &&
  (if c = 0 then a < 0x10120000
   else a < 0x10080000 && ((0x61 ≤ blockOf a && blockOf a ≤ 0x70) || blockOf a == 0x7D || (!write && blockOf a == c)))

def isWindow (a : Nat) : Bool := 0x8000 ≤ a && a < 0xC000
def isIo (a : Nat) : Bool := 0xC000 ≤ a && a < 0xC06C
/-- The host address a window address reaches (R229). -/
def windowHost (k : Core) (a : Nat) : Nat := k.winBase + (a - 0x8000)
/-- Bytes of Table 11.5. -/
def ioOccupied (o : Nat) : Bool := o != 3 && !(0x19 ≤ o && o ≤ 0x1F)

/-- An access that check 8 forbids (R228 to R231, R239). -/
def accessBad (s : State) (c : Nat) (k : Core) (write : Bool) (a : Nat) : Bool :=
  if a < 0x8000 then false
  else if isWindow a then
    let h := windowHost k a
    !windowMay s c write h || !maskOk s c (busBank h)
  else if isIo a then
    let o := a - 0xC000
    !ioOccupied o || (!write && o == 0x64 && !bridgeOk c k.rbAddr false) || (write && o == 0x67 && !bridgeOk c k.rbAddr true)
  else !(0xFF00 ≤ a && a < 0x10000 && !write)

/-- Extra steps of an I/O access (Table 11.5). `v` is the byte written, none where it is not known before the reads (R258). -/
def ioSteps (write : Bool) (v : Option Byte) (o : Nat) : Nat :=
  match o with
  | 0x02 => 4
  | 0x04 | 0x0C | 0x0D | 0x0E => 2
  | 0x0F => if !write then 4 else (match v with | some b => if b = 2 then 4000 else 4 | none => 4000)
  | 0x10 => 4000
  | 0x13 => 4
  | 0x14 => 50
  | 0x64 => if write then 0 else 50
  | 0x67 => if write then 50 else 0
  | _ => 0

/-- Steps an access adds to the weight (R232, R233). -/
def accessSteps (write : Bool) (v : Option Byte) (a : Nat) : Nat :=
  if isWindow a then 40 else if isIo a then ioSteps write v (a - 0xC000) else 0

/-- A read whose byte carries a side effect (Table 11.5, R245). -/
def ioSide (o : Nat) : Bool := o == 0x02 || o == 0x04 || o == 0x0F || o == 0x11 || (0x64 ≤ o && o ≤ 0x67)

/-! Reads. -/

/-- A read of private memory, the vector page or the window. -/
def plainRead (s : State) (c : Nat) (k : Core) (a : Nat) : Byte := if isWindow a then hostByte s c (windowHost k a) else k.priv a

/-- What a read meets: a double-bit error in private memory, or a poisoned beat at a host address (R228, R231). -/
inductive ReadFault where
  | priv
  | host
  deriving DecidableEq, Repr

def readFault (s : State) (c : Nat) (k : Core) (a : Nat) : Option ReadFault :=
  if a < 0x8000 then (if k.memBad.contains (a / 4 * 4) then some .priv else none)
  else if isWindow a && poisonFor s c (windowHost k a) then some .host
  else none

/-- What a read of EV_NEXT did. -/
inductive Intake where
  | none
  | took                     -- a record was taken: the step count restarts
  | ahead (pred : List Byte) -- run-ahead begins on a prediction
  deriving DecidableEq, Repr

/-- The prediction of the record after `r` (R248): the chain's next output instant, 2 × last − previous limited to 24 bits,
quality 0. A sample with none before it leaves the value open. -/
def predict (i : Nat) (k : Core) (r : List Byte) (s : State) : List Byte × State :=
  let last := toSigned 24 (recNum r 16 3)
  let (v, s1) := match k.prevVals.find? (fun e => e.1 == recOrigin r) with
    | some e => (ofSigned 24 (clampS 24 (2 * last - toSigned 24 e.2)), s)
    | none => let (x, s1) := s.free; (x % 2 ^ 24, s1)
  (recPut (recPut (recPut r 0 (leBytes 8 (chainNextPm s i))) 15 [0#8]) 16 (leBytes 3 v), s1)

/-- EV_NEXT (R236, R237, R248, R369). -/
def evNext (c : Nat) (mayAhead : Bool) (s : State) : Nat × Intake × State :=
  match s.core c with
  | none => (0, .none, s)
  | some k =>
    match k.queue with
    | r :: rest =>
      let s1 := s.modCore c (fun k => takeRecord (s.flag (F.SRT_STAT_SEALED c)) r { k with queue := rest })
      let taken := c == 0 && (recKind r == 0x30 || recKind r == 0x31)
      (1, .took, if taken then { s1 with flt := { s1.flt with pmTaken := true } } else s1)
    | [] =>
      match k.lastTaken with
      | none => (0, .none, s)
      | some r =>
        let i := recOrigin r - 0x61
        let live := ((s.chain i).map (chainLive s i)).getD false
        if mayAhead && c != 0 && s.flag (F.SRT_CTRL_SPEC c) && k.spec.isNone && recKind r == 0x20 && 0x61 ≤ recOrigin r && live then
          let (p, s1) := predict i k r s
          (1, .ahead p, s1)
        else (0, .none, s)

/-- An I/O read with its side effect (R233, R239, R245). -/
def ioRead (c : Nat) (mayAhead : Bool) (o : Nat) (s : State) : Nat × Intake × State :=
  match s.core c with
  | none => (0, .none, s)
  | some k =>
    if o = 0x02 then evNext c mayAhead s
    else if o = 0x04 then (s.pm % 256, .none, s.modCore c (fun k => { k with pmLatch := s.pm }))
    else if o = 0x0F then (coreTxn s c k, .none, s.modCore c (fun k => { k with txnConf := false, txnOver := false, txnRef := false }))
    else if o = 0x11 then
      (b2n k.sealRes + 2 * b2n k.sealFail + 4 * b2n k.sealConf, .none, s.modCore c (fun k => { k with sealRes := false, sealFail := false, sealConf := false }))
    else if o = 0x64 then
      let (v, s1) := regRead c k.rbAddr s
      (v % 256, .none, s1.modCore c (fun k => { k with rbLatch := v }))
    else if 0x65 ≤ o ∧ o ≤ 0x67 then (bits k.rbLatch (8 * (o - 0x64)) 8, .none, s)
    else ((ioPeek s c o).getD 0, .none, s)

/-! Writes. -/

/-- A refusal of a core's I/O write (R235). -/
def ioRefuse (c o : Nat) (s : State) : State := refuse c (0x10000000 + 0x1000 * c + 0x800 + 4 * o) s

/-- A seal is asked for (R246): the seal lines join the core's transaction, and its commit begins, after the writes of it that are held. -/
def startSeal (c : Nat) (s0 : State) : State :=
  let s := if c = 0 then { s0 with flt := { s0.flt with pmTaken := false } } else s0
  match s.core c with
  | none => s
  | some k =>
    let ls := sealLines c k
    let fail (conf : Bool) (s : State) := s.modCore c (fun k => { k with sealFail := true, sealConf := k.sealConf || conf })
    let go (s : State) := (modTxn c (fun t => { t with lines := t.lines ++ ls, act := .seal c, phase := .committing }) s).modCore c (fun k => { k with commitHold := true })
    let hold (s : State) := ((modTxn c (fun t => { t with lines := t.lines ++ ls, act := .seal c }) s).modLedg (fun l => { l with
      held := l.held ++ [.commit c] })).modCore c (fun k => { k with commitHold := true })
    match txnOf s c with
    | some t =>
      if t.conflict then fail true (dropTxn c s)
      else if 12 < t.lines.length + ls.length then fail false (dropTxn c s)
      else if heldIn s t then hold s
      else go s
    | none =>
      let s1 := txnOpen c s
      if (txnOf s1 c).isNone then fail false s1 else go s1

/-- A write of TXN (R245): a COMMIT holds the core until the commit point, one that waits behind held writes too. -/
def coreTxnWrite (c cmd : Nat) (s : State) : State :=
  let s1 := txnCmd c cmd s
  match txnOf s1 c with
  | some t => if t.phase = .committing ∨ s1.ledg.held.contains (.commit c) then s1.modCore c (fun k => { k with commitHold := true }) else s1
  | none => s1

/-- An offer (R204, R238): bytes 0 to 19 and 29 of LTRBUF. -/
def coreOffer (c : Nat) (k : Core) (s : State) : State :=
  let body := k.ltrbuf.take 20 ++ List.replicate 9 0#8 ++ (k.ltrbuf.drop 29).take 1 ++ [0#8, 0#8]
  offer ⟨c, body, k.ltrF⟩ (s.modCore c (fun k => { k with ltrOut := true }))

/-- An I/O write (R229, R233, R235, R238, R239, R245, R246); none where WIN2 would make the window straddle two regions. -/
def ioWrite (c o : Nat) (b : Byte) (s : State) : Option State :=
  match s.core c with
  | none => some s
  | some k =>
    let v := b.toNat
    if o = 0x0C then some (s.modCore c (fun k => { k with stage0 := b }))
    else if o = 0x0D then some (s.modCore c (fun k => { k with stage1 := b }))
    else if o = 0x0E then
      (if 4 ≤ v then some (ioRefuse c o s)
       else
        let w := v * 2 ^ 30 + k.stage1.toNat * 2 ^ 22 + k.stage0.toNat * 2 ^ 14
        if windowFits s c w then some (s.modCore c (fun k => { k with winBase := w })) else none)
    else if o = 0x0F then some (if 1 ≤ v ∧ v ≤ 3 then coreTxnWrite c v s else ioRefuse c o s)
    else if o = 0x10 then some (if v = 1 then startSeal c s else ioRefuse c o s)
    else if o = 0x12 then some (if v ≤ 100 then s.modCore c (fun k => { k with ltrF := v }) else ioRefuse c o s)
    else if o = 0x13 then some (if v = 1 then coreOffer c k s else ioRefuse c o s)
    else if 0x40 ≤ o ∧ o ≤ 0x5F then some (s.modCore c (fun k => { k with ltrbuf := upd k.ltrbuf (o - 0x40) (fun _ => b) }))
    else if 0x60 ≤ o ∧ o ≤ 0x63 then some (s.modCore c (fun k => { k with rbAddr := setBits k.rbAddr (8 * (o - 0x60)) 8 v }))
    else if 0x64 ≤ o ∧ o ≤ 0x66 then some (s.modCore c (fun k => { k with rbStage := upd k.rbStage (o - 0x64) (fun _ => b) }))
    else if o = 0x67 then
      let w : Word := BitVec.ofNat 32 (ofLe (k.rbStage ++ [b]))
      let bad := wasRefused (regWrite c k.rbAddr w) s
      some (regWrite c k.rbAddr w (s.modCore c (fun k => { k with rbRef := bad })))
    else some s

/-- One written byte. -/
def coreWrite (c a : Nat) (b : Byte) (s : State) : Option State :=
  if isIo a then ioWrite c (a - 0xC000) b s
  else match s.core c with
    | none => some s
    | some k => some (if isWindow a then windowAccess c false (windowHost k a) (some [b]) s else s.modCore c (fun k => k.setPriv a b))

/-- The bytes an instruction writes, in its order. -/
def coreWrites (c : Nat) : List (Nat × Byte) → State → Option State
  | [], s => some s
  | (a, b) :: t, s => (coreWrite c a b s).bind (coreWrites c t)

end Sys2Proof.Machine
end

