-- ==== Sys2Proof/Machine/CoreExec.lean ====
section
/-!
DEFINITION. Executing instructions (11, R234, R237, R241, R243, R244, R248; 12, R255 to R273): the order of checks, the
access groups, charges, RPT series, waiting, and stepping under debug.
-/

namespace Sys2Proof.Machine

/-! When a core executes. -/

/-- A write a core has made through its window is held (R71, R72): its access has not ended (R234). -/
def windowHeld (s : State) (c : Nat) : Bool := s.ledg.held.any (fun h => match h with | .write u _ _ _ => u == c | .commit _ => false)

/-- Nothing keeps a core from executing at its next boundary, its STATE apart: the device is up and not powering down, the core
neither held nor in its reset, RUN is 1 (R249), no commit and no held write holds it, no halt is due, and in DOZE only the postmaster is not
held (R338, R340). -/
def coreReady (s : State) (c : Nat) (k : Core) : Bool :=
  s.pow.phase == .up && s.flag (F.SRT_CTRL_RUN c) && !s.quiet && !s.isHeld c && !s.flt.resets.contains c && !k.commitHold && !windowHeld s c && !k.haltPend &&
  (c == 0 || (s.pwr == 0 && !s.flag F.PWR_STAT_ENTERING))

/-- A core executes its next instruction: it runs, and no EVENT interrupt is due before it (R244). -/
def coreRuns (s : State) (c : Nat) (k : Core) : Bool := s.get (F.SRT_STAT_STATE c) == stRunning && coreReady s c k && !eventDue k

/-- Run-ahead holds at its boundary (R248). -/
def specHold (c : Nat) (s : State) : State := s.put (F.SRT_STAT_STATE c) stHolding

/-- A check has failed: the trap, or in run-ahead a hold (Table 11.9). -/
def failCheck (c cause : Nat) (s : State) : State :=
  if ((s.core c).bind (·.spec)).isSome then specHold c s else if cause = 3 then budgetTrap c s else coreTrap c cause s

/-! Accesses in the groups of R257. -/

/-- The window reads among `l` are made on the post bus, in order, up to one that reads poisoned (R231). -/
def windowReads (c : Nat) (k : Core) : List Nat → State → State
  | [], s => s
  | a :: l, s =>
    if !isWindow a then windowReads c k l s
    else
      let s1 := windowAccess c k.spec.isSome (windowHost k a) none s
      if (readFault s c k a).isSome then s1 else windowReads c k l s1

/-- The I/O reads among `l`, in order, after the plain ones: every byte read, in the order the entry names them. -/
def readAll (c : Nat) (ahead : Bool) (k : Core) (s0 : State) : List Nat → State → List Byte × Intake × State
  | [], s => ([], .none, s)
  | a :: t, s =>
    if isIo a then
      let (v, i, s1) := ioRead c ahead (a - 0xC000) s
      let (vs, j, s2) := readAll c (ahead && i == .none) k s0 t s1
      (BitVec.ofNat 8 v :: vs, if i = .none then j else i, s2)
    else
      let (vs, j, s1) := readAll c ahead k s0 t s
      (plainRead s0 c k a :: vs, j, s1)

/-- Whether a read of EV_NEXT by a plan may begin run-ahead (R248). -/
def planAhead (ahead : Bool) (p : Plan) : Bool :=
  ahead && p.writes.all (fun a => a < 0x8000) && decide ((p.reads.filter (fun a => isIo a && ioSide (a - 0xC000))).length ≤ 1)

/-- The reads of a plan: the window's first, then all as they are named: what they bring, and the state after. -/
def planReads (c : Nat) (ahead : Bool) (k : Core) (p : Plan) (s : State) : List Byte × Intake × State :=
  let s0 := windowReads c k p.reads s
  readAll c (planAhead ahead p) k s0 p.reads s0

/-! The checks of Table 12.2 on a plan. -/

/-- Among the bytes written, in order, one to WIN2 that would make the window straddle two regions (R229). -/
def winStraddles (s : State) (c : Nat) : Byte → Byte → List (Nat × Byte) → Bool
  | _, _, [] => false
  | w0, w1, (a, b) :: l =>
    (a == 0xC00E && decide (b.toNat < 4) && !windowFits s c (b.toNat * 2 ^ 30 + w1.toNat * 2 ^ 22 + w0.toNat * 2 ^ 14)) ||
    winStraddles s c (if a = 0xC00C then b else w0) (if a = 0xC00D then b else w1) l

/-- A plan writes WIN2 so that the window would straddle two regions; the bytes written are those its reads bring. -/
def windowBad (s : State) (c : Nat) (ahead : Bool) (k : Core) (p : Plan) : Bool :=
  p.writes.contains 0xC00E && (p.reads.findSome? (readFault s c k)).isNone &&
  winStraddles s c k.stage0 k.stage1 (p.writes.zip (p.fin (planReads c ahead k p s).1).2)

/-- Check 8: an access, a stack access or the place where execution continues is forbidden. -/
def check8 (s : State) (c : Nat) (ahead : Bool) (k : Core) (p : Plan) : Bool :=
  windowBad s c ahead k p || p.reads.any (accessBad s c k false) || p.writes.any (accessBad s c k true) ||
  (p.stackR && p.reads.any (fun a => 0x8000 ≤ a)) || (p.stackW && p.writes.any (fun a => 0x8000 ≤ a)) ||
  (match p.next with | some n => 0x8000 ≤ n | none => false)

/-- The charge of an instruction or repetition (R258). Bytes written that come from its own reads are not known before them. -/
def planCharge (p : Plan) (bytes : Option (List Byte)) : Nat :=
  p.weight + (p.reads.map (accessSteps false none)).sum +
  ((List.range p.writes.length).map (fun i => accessSteps true (bytes.bind (fun l => l[i]?)) (p.writes.getD i 0))).sum

/-- The charge check 9 uses. -/
def chargeBefore (p : Plan) : Nat := planCharge p (if p.reads.isEmpty then some (p.fin []).2 else none)

/-- What run-ahead stops at (R248): writes outside private memory, reads with a side effect, a 33rd byte of private memory. -/
def specStops (k : Core) (p : Plan) : Bool :=
  match k.spec with
  | none => false
  | some sp =>
    p.writes.any (fun a => 0x8000 ≤ a) || p.reads.any (fun a => isIo a && ioSide (a - 0xC000)) || 32 < sp.writes + p.writes.length

/-- LTR_RES is read, or an offer made, while one awaits its decision (R238): the instruction waits at its boundary. -/
def ltrWaits (k : Core) (p : Plan) : Bool := k.ltrOut && (p.reads.contains 0xC014 || p.writes.contains 0xC013)

/-- RET or RTI reads a return address above 0x7FFF (check 10). -/
def returnBad (s : State) (c : Nat) (k : Core) (p : Plan) : Bool :=
  p.next.isNone && decide (0x8000 ≤ (p.fin (p.reads.map (plainRead s c k))).1.pc.toNat)

/-! The performance of a plan. -/

/-- The instruction or repetition is performed: it is charged, its registers stand, its writes are made; a record taken restarts
the step count; a prediction begins run-ahead. `ser` tells what remains of a series. -/
def perform (c : Nat) (ahead : Bool) (k : Core) (p : Plan) (ser : CoreRegs → Series) (after : State → State) (s : State) : State :=
  let (vals, intake, s1) := planReads c ahead k p s
  let (r, bs) := p.fin vals
  let s2 := chargeCore c (planCharge p (some bs)) s1
  let s3 := s2.modCore c (fun k => { k with r := r, series := ser r })
  let s4 := match intake with
    | .none => s3
    | .took => s3.modCore c (fun k => { k with steps := 0 })
    | .ahead pred => s3.modCore c (fun k => { k with steps := 0, evbuf := pred })
  match coreWrites c (p.writes.zip bs) s4 with
  | none => failCheck c 4 s
  | some s5 =>
    let s6 := after (s5.modCore c (fun k => { k with spec := k.spec.map (fun sp => { sp with writes := sp.writes + bs.length }) }))
    match intake with
    | .ahead pred =>
      (s6.modCore c (fun k1 => { k1 with spec := some ⟨k.snap, k.evbuf, k.steps, k1.snap, pred, 0⟩ })).mark (F.SRT_STAT_SPEC_ON c)
    | _ => s6

/-- Checks 8 to 10 on a plan, then its performance. -/
def runPlan (c : Nat) (ahead : Bool) (p : Plan) (ser : CoreRegs → Series) (stop : Bool) (after : State → State) (s : State) : State :=
  match s.core c with
  | none => s
  | some k =>
    if check8 s c ahead k p then failCheck c 4 s
    else if (s.get (F.SRT_BUDGET_BUDGET c) : Int) < k.steps + chargeBefore p then failCheck c 3 s
    else match p.reads.findSome? (readFault s c k) with
      | some .priv => failCheck c 5 s
      | some .host => if k.spec.isSome then specHold c s else coreTrap c 5 (windowReads c k p.reads s)
      | none =>
        if returnBad s c k p then failCheck c 4 s
        else if k.spec.isSome && (stop || specStops k p) then specHold c s
        else if ltrWaits k p then s
        else perform c ahead k p ser after s

/-! Instructions. -/

/-- WAIT has been executed (R237, R251, R265, R369). -/
def coreWait (c : Nat) (s0 : State) : State :=
  let s := if c = 0 then { s0 with flt := { s0.flt with pmTaken := false } } else s0
  let restart (s : State) := s.modCore c (fun k => { k with steps := 0 })
  let wait (s : State) := s.put (F.SRT_STAT_STATE c) stWaiting
  match s.core c with
  | none => s
  | some k =>
    if c = 0 ∧ s.get F.PWR_MODE_MODE ≠ 0 then
      let (now, s1) := requestEntry s
      if now then restart s1 else wait s1
    else if k.queue.isEmpty then wait s else restart s

/-- What an instruction does beside its plan. -/
def opAfter (c op : Nat) (s : State) : State := if op = 0x02 then coreWait c s else if op = 0x04 then endEntry c s else s

/-- Run-ahead stops at WAIT, and at an RTI that would end a trap (R56, R248). -/
def opStops (k : Core) (op : Nat) : Bool := op == 0x02 || (op == 0x04 && (match k.entries with | Entry.trap _ :: _ => true | _ => false))

/-- The operand bytes of an instruction. -/
def ctxOf (k : Core) : Ctx := ⟨k.r, k.priv (k.r.pc.toNat + 1), k.priv (k.r.pc.toNat + 2)⟩

/-- A defined opcode at PC is executed: checks 1, 5, 6 and 7, then those of its plan (R259, R273). -/
def runOp (c : Nat) (ahead : Bool) (op : Nat) (plan : Nat → Ctx → Plan) (s : State) : State :=
  match s.core c with
  | none => s
  | some k =>
    let pc := k.r.pc.toNat
    let x := ctxOf k
    let p := plan op x
    let badAt (a : Nat) := k.memBad.contains (a / 4 * 4)
    if badAt pc then failCheck c 5 s
    else if 0x7FFF < pc + p.len - 1 then failCheck c 4 s
    else if (List.range (p.len - 1)).any (fun i => badAt (pc + 1 + i)) then failCheck c 5 s
    else if (op = 0x05 ∨ op = 0x06) ∧ (x.b1 = 0 ∨ x.b1 &&& 0xC0#8 ≠ 0) then failCheck c 1 s
    else runPlan c ahead p (fun _ => .idle) (opStops k op) (opAfter c op) s

/-- A row of the opcode map (Table 12.4): the opcodes of an instruction and its plan. -/
structure IsaRow where
  codes : Nat → Bool
  plan  : Nat → Ctx → Plan

def between (lo hi op : Nat) : Bool := lo ≤ op && op ≤ hi

def isaNop : IsaRow := ⟨(· == 0x01), planNop⟩
def isaWait : IsaRow := ⟨(· == 0x02), planWait⟩
def isaRet : IsaRow := ⟨(· == 0x03), planRet⟩
def isaRti : IsaRow := ⟨(· == 0x04), planRti⟩
def isaSetf : IsaRow := ⟨(· == 0x05), planSetf⟩
def isaClrf : IsaRow := ⟨(· == 0x06), planClrf⟩
def isaAdd : IsaRow := ⟨between 0x10 0x17, planAdd⟩
def isaAdc : IsaRow := ⟨between 0x18 0x1F, planAdc⟩
def isaSub : IsaRow := ⟨between 0x20 0x27, planSub⟩
def isaSbc : IsaRow := ⟨between 0x28 0x2F, planSbc⟩
def isaAnd : IsaRow := ⟨between 0x30 0x37, planAnd⟩
def isaOr : IsaRow := ⟨between 0x38 0x3F, planOr⟩
def isaXor : IsaRow := ⟨between 0x40 0x47, planXor⟩
def isaCmp : IsaRow := ⟨between 0x48 0x4F, planCmp⟩
def isaLda : IsaRow := ⟨between 0x50 0x57, planLda⟩
def isaSta : IsaRow := ⟨between 0x59 0x5E, planSta⟩
def isaLdx : IsaRow := ⟨between 0x60 0x62, planLdx⟩
def isaStx : IsaRow := ⟨between 0x63 0x64, planStx⟩
def isaLdy : IsaRow := ⟨between 0x65 0x67, planLdy⟩
def isaSty : IsaRow := ⟨between 0x68 0x69, planSty⟩
def isaTax : IsaRow := ⟨(· == 0x6A), planTax⟩
def isaTay : IsaRow := ⟨(· == 0x6B), planTay⟩
def isaTya : IsaRow := ⟨(· == 0x6C), planTya⟩
def isaTxy : IsaRow := ⟨(· == 0x6D), planTxy⟩
def isaTyx : IsaRow := ⟨(· == 0x6E), planTyx⟩
def isaInc : IsaRow := ⟨([0x70, 0x72, 0x74, 0x76].contains ·), planInc⟩
def isaDec : IsaRow := ⟨([0x71, 0x73, 0x75, 0x77].contains ·), planDec⟩
def isaShl : IsaRow := ⟨(· == 0x78), planShl⟩
def isaShr : IsaRow := ⟨(· == 0x79), planShr⟩
def isaSar : IsaRow := ⟨(· == 0x7A), planSar⟩
def isaRol : IsaRow := ⟨(· == 0x7B), planRol⟩
def isaRor : IsaRow := ⟨(· == 0x7C), planRor⟩
def isaNot : IsaRow := ⟨(· == 0x7D), planNot⟩
def isaNeg : IsaRow := ⟨(· == 0x7E), planNeg⟩
def isaMul : IsaRow := ⟨(· == 0x7F), planMul⟩
def isaCpx : IsaRow := ⟨between 0xB4 0xB5, planCpx⟩
def isaCpy : IsaRow := ⟨between 0xB6 0xB7, planCpy⟩
def isaTst : IsaRow := ⟨between 0xBA 0xBB, planTst⟩
def isaIncw : IsaRow := ⟨(· == 0xBC), planIncw⟩
def isaDecw : IsaRow := ⟨(· == 0xBD), planDecw⟩
def isaLdp : IsaRow := ⟨([0x80, 0x82].contains ·), planLdp⟩
def isaLdq : IsaRow := ⟨([0x81, 0x83].contains ·), planLdq⟩
def isaStp : IsaRow := ⟨(· == 0x84), planStp⟩
def isaStq : IsaRow := ⟨(· == 0x85), planStq⟩
def isaAddp : IsaRow := ⟨([0x86, 0x88].contains ·), planAddp⟩
def isaAddq : IsaRow := ⟨([0x87, 0x89].contains ·), planAddq⟩
def isaXpq : IsaRow := ⟨(· == 0x8A), planXpq⟩
def isaLdsp : IsaRow := ⟨(· == 0x8B), planLdsp⟩
def isaTsp : IsaRow := ⟨(· == 0x8C), planTsp⟩
def isaTps : IsaRow := ⟨(· == 0x8D), planTps⟩
def isaTxap : IsaRow := ⟨(· == 0x8E), planTxap⟩
def isaTpxa : IsaRow := ⟨(· == 0x8F), planTpxa⟩
def isaLdc : IsaRow := ⟨(· == 0x90), planLdc⟩
def isaTxac : IsaRow := ⟨(· == 0x91), planTxac⟩
def isaLoop : IsaRow := ⟨(· == 0x92), planLoop⟩
def isaTcxa : IsaRow := ⟨(· == 0x93), planTcxa⟩
def isaPush : IsaRow := ⟨([0x94, 0x96, 0x98, 0x9A, 0x9C, 0x9E].contains ·), planPushOp⟩
def isaPull : IsaRow := ⟨([0x95, 0x97, 0x99, 0x9B, 0x9D, 0x9F].contains ·), planPullOp⟩
def isaCpp : IsaRow := ⟨(· == 0xB8), planCpp⟩
def isaCpq : IsaRow := ⟨(· == 0xB9), planCpq⟩
def isaBranch : IsaRow := ⟨between 0xA0 0xAE, planBranch⟩
def isaJmp : IsaRow := ⟨between 0xB0 0xB1, planJmp⟩
def isaCall : IsaRow := ⟨between 0xB2 0xB3, planCall⟩
def isaMovb : IsaRow := ⟨(· == 0xC0), planMovb⟩
def isaFill : IsaRow := ⟨(· == 0xC1), planFill⟩
def isaScan : IsaRow := ⟨(· == 0xC2), planScan⟩
def isaCmpb : IsaRow := ⟨(· == 0xC3), planCmpb⟩
def isaLodb : IsaRow := ⟨(· == 0xC4), planLodb⟩
def isaAdcb : IsaRow := ⟨(· == 0xC5), planAdcb⟩
def isaSbcb : IsaRow := ⟨(· == 0xC6), planSbcb⟩

/-- Every instruction but RPT. -/
def isaRows : List IsaRow :=
  [isaNop, isaWait, isaRet, isaRti, isaSetf, isaClrf, isaAdd, isaAdc, isaSub, isaSbc, isaAnd, isaOr, isaXor, isaCmp, isaLda, isaSta] ++
  [isaLdx, isaStx, isaLdy, isaSty, isaTax, isaTay, isaTya, isaTxy, isaTyx, isaInc, isaDec, isaShl, isaShr, isaSar, isaRol, isaRor,
    isaNot, isaNeg, isaMul, isaCpx, isaCpy, isaTst, isaIncw, isaDecw] ++
  [isaLdp, isaLdq, isaStp, isaStq, isaAddp, isaAddq, isaXpq, isaLdsp, isaTsp, isaTps, isaTxap, isaTpxa, isaLdc, isaTxac, isaLoop,
    isaTcxa, isaPush, isaPull, isaCpp, isaCpq, isaBranch, isaJmp, isaCall] ++
  [isaMovb, isaFill, isaScan, isaCmpb, isaLodb, isaAdcb, isaSbcb]

/-- The row of an opcode; none for RPT and for an undefined code. -/
def isaOf (op : Nat) : Option IsaRow := isaRows.find? (fun r => r.codes op)

def opRpt : Nat := 0xCF
/-- A code marked — in Table 12.4. -/
def opUndefined (op : Nat) : Bool := op != opRpt && (isaOf op).isNone
/-- A block instruction (Table 12.10). -/
def opBlock (op : Nat) : Bool := between 0xC0 0xC6 op

/-- An undefined code takes UNDEF without change (R272). -/
def runUndefined (c : Nat) (s : State) : State :=
  match s.core c with
  | none => s
  | some k => if k.memBad.contains (k.r.pc.toNat / 4 * 4) then failCheck c 5 s else failCheck c 1 s

/-! RPT (R269 to R271). -/

/-- One repetition of block instruction `b`; PC stays at the RPT byte until the series ends. -/
def rptRep (c : Nat) (ahead : Bool) (b : Byte) (s : State) : State :=
  match s.core c, isaOf b.toNat with
  | some k, some row =>
    let p := row.plan b.toNat (ctxOf k)
    let pc := k.r.pc
    let q : Plan := { p with
      next := some (pc + 2).toNat
      fin := fun v =>
        let (r, bs) := p.fin v
        let cnt := k.r.cnt - 1
        let z := getFl r.fl flZ
        let ends := cnt == 0#16 || (b == 0xC2#8 && z) || (b == 0xC3#8 && !z)
        ({ r with cnt := cnt, pc := if ends then pc + 2 else pc }, bs) }
    runPlan c ahead q (fun r => if r.pc = pc then .running b else .idle) false id s
  | _, _ => s

/-- The checks of the pair, and the charge of the prefix. -/
def rptBegin (c : Nat) (s : State) : State :=
  match s.core c with
  | none => s
  | some k =>
    let pc := k.r.pc.toNat
    let b := k.priv (pc + 1)
    let badAt (a : Nat) := k.memBad.contains (a / 4 * 4)
    if badAt pc then failCheck c 5 s
    else if 0x7FFF < pc + 1 then failCheck c 4 s
    else if badAt (pc + 1) then failCheck c 5 s
    else if opUndefined b.toNat then
      (if k.spec.isSome then specHold c s else coreTrap c 1 (s.modCore c (fun k => { k with r := { k.r with pc := k.r.pc + 1 } })))
    else if between 0x90 0x92 b.toNat then failCheck c 2 s
    else if !opBlock b.toNat then failCheck c 1 s
    else if 0x7FFF < pc + 2 then failCheck c 4 s
    else if (s.get (F.SRT_BUDGET_BUDGET c) : Int) < k.steps + 1 then failCheck c 3 s
    else
      let s1 := chargeCore c 1 s
      s1.modCore c (fun k => if k.r.cnt = 0#16 then { k with r := { k.r with pc := k.r.pc + 2 } } else { k with series := .running b })

/-- One repetition of the series in progress, if the core still runs. -/
def rptStep (c : Nat) (ahead : Bool) (s : State) : State :=
  match s.core c with
  | none => s
  | some k =>
    match k.series with
    | .idle => s
    | .running b => if coreRuns s c k then rptRep c ahead b s else s

/-- RPT at PC is executed up to its first repetition, before which nothing is taken (R269). One whose first repetition has to wait, for a
letter's decision or for what run-ahead predicts, waits unexecuted and uncharged (Table 12.11). -/
def rptFirst (c : Nat) (ahead : Bool) (k : Core) (s : State) : State :=
  let t := rptStep c ahead (rptBegin c s)
  match t.core c with
  | none => t
  | some k1 =>
    if k1.series = .idle ∨ k1.r.cnt ≠ k.r.cnt then t
    else if t.get (F.SRT_STAT_STATE c) = stHolding then specHold c s
    else s

/-- RPT: up to `n` repetitions before the next happening, at least the first of a series that begins. -/
def runRpt (c : Nat) (ahead : Bool) (n : Nat) (s : State) : State :=
  match s.core c with
  | none => s
  | some k => if k.series = .idle then iter (n - 1) (rptStep c ahead) (rptFirst c ahead k s) else iter n (rptStep c ahead) s

/-! Commands. -/

/-- What a core executes next: none when it executes nothing now. PC above 0x7FFF is no opcode. -/
def coreOpcode (s : State) (c : Nat) : Option (Option Nat) :=
  match s.core c with
  | none => none
  | some k =>
    if !coreRuns s c k then none
    else if k.series ≠ .idle then some (some opRpt)
    else if 0x7FFF < k.r.pc.toNat then some none
    else some (some (k.priv k.r.pc.toNat).toNat)

/-- The core executes the instruction at PC when it is of the row's opcodes (R234); from outside private memory it takes WINDOW. -/
def coreInstr (c : Nat) (row : IsaRow) (s : State) : State :=
  match coreOpcode s c with
  | none => s
  | some none => failCheck c 4 s
  | some (some op) => if row.codes op then runOp c true op row.plan s else s

/-- RPT. -/
def coreRpt (c n : Nat) (s : State) : State :=
  match coreOpcode s c with
  | none => s
  | some none => failCheck c 4 s
  | some (some op) => if op = opRpt then runRpt c true n s else s

/-- UNDEFINED_OPCODE. -/
def coreUndefined (c : Nat) (s : State) : State :=
  match coreOpcode s c with
  | none => s
  | some none => failCheck c 4 s
  | some (some op) => if opUndefined op then runUndefined c s else s

/-- EVENT_INTERRUPT (R244, R267). -/
def eventInterrupt (c : Nat) (s : State) : State :=
  match s.core c with
  | none => s
  | some k => if s.get (F.SRT_STAT_STATE c) == stRunning && coreReady s c k && eventDue k then eventEntry c s else s

/-- WAIT_RESUME (R237): a queued record ends a WAIT. -/
def waitResume (c : Nat) (s : State) : State :=
  match s.core c with
  | none => s
  | some k =>
    if s.get (F.SRT_STAT_STATE c) == stWaiting && coreReady s c k && !k.queue.isEmpty && s.pwr == 0 && !s.flag F.PWR_STAT_ENTERING then
      (s.put (F.SRT_STAT_STATE c) stRunning).modCore c (fun k => { k with steps := 0 })
    else s

/-- EVENT_RECORD_ARRIVAL (R236). -/
def eventArrival (c : Nat) (rec_ : List Byte) (s : State) : State := enqueue c (padTo 32 rec_) s

/-! Debug (R252). -/

/-- One instruction, repetition or trap entry of a core that counts as running. -/
def stepOnce (c : Nat) (s : State) : State :=
  match s.core c with
  | none => s
  | some k =>
    if eventDue k then eventEntry c s
    else match coreOpcode s c with
      | none => s
      | some none => failCheck c 4 s
      | some (some op) =>
        if op = opRpt then runRpt c false 1 s
        else match isaOf op with
          | some row => runOp c false op row.plan s
          | none => runUndefined c s

/-- The core selected by CORE_SEL. -/
def selected (s : State) : Option Nat := if s.tap.core ≤ 0x40 then some s.tap.core else none

/-- CORE_HALT: pending on a stopped core, deferred while a commit holds the core. -/
def coreHaltCmd (c : Nat) (s : State) : State :=
  match s.core c with
  | none => s
  | some k =>
    let st := s.get (F.SRT_STAT_STATE c)
    if st = stHalted then s
    else if st = stStopped ∨ k.commitHold then s.modCore c (fun k => { k with haltPend := true })
    else haltCore c s

/-- CORE_RESUME. -/
def coreResumeCmd (c : Nat) (s : State) : State :=
  match s.core c with
  | none => s
  | some k =>
    let s1 := s.modCore c (fun k => { k with haltPend := false, wasWaiting := false })
    if s.get (F.SRT_STAT_STATE c) = stHalted then s1.put (F.SRT_STAT_STATE c) (if k.wasWaiting then stWaiting else stRunning) else s1

/-- CORE_STEP on a halted core; one that waits steps only once a record is queued. -/
def coreStepCmd (c : Nat) (s : State) : State :=
  match s.core c with
  | none => s
  | some k =>
    if s.get (F.SRT_STAT_STATE c) ≠ stHalted ∨ !coreReady s c k ∨ (k.wasWaiting ∧ k.queue.isEmpty) then s
    else
      let s1 := if k.wasWaiting then s.modCore c (fun k => { k with wasWaiting := false, steps := 0 }) else s
      let s2 := stepOnce c (s1.put (F.SRT_STAT_STATE c) stRunning)
      let st := s2.get (F.SRT_STAT_STATE c)
      if st = stStopped then s2
      else (s2.put (F.SRT_STAT_STATE c) stHalted).modCore c (fun k => { k with wasWaiting := st == stWaiting, series := .idle })

/-- The 128 bits of CORE_REGS (Table 11.8). -/
def coreRegsWord (k : Core) : Nat :=
  k.r.a.toNat + k.r.x.toNat * 2 ^ 8 + k.r.y.toNat * 2 ^ 16 + k.r.fl.toNat * 2 ^ 24 + k.r.p.toNat * 2 ^ 32 + k.r.q.toNat * 2 ^ 48 +
  k.r.sp.toNat * 2 ^ 64 + k.r.pc.toNat * 2 ^ 80 + k.r.cnt.toNat * 2 ^ 96

/-- The registers the 128 bits spell; bits [7:6] of FL stay 0 (R260). -/
def coreRegsOf (w : Nat) : CoreRegs :=
  ⟨BitVec.ofNat 8 w, BitVec.ofNat 8 (w / 2 ^ 8), BitVec.ofNat 8 (w / 2 ^ 16), BitVec.ofNat 16 (w / 2 ^ 32), BitVec.ofNat 16 (w / 2 ^ 48),
    BitVec.ofNat 16 (w / 2 ^ 64), BitVec.ofNat 16 (w / 2 ^ 80), BitVec.ofNat 16 (w / 2 ^ 96), flOf (BitVec.ofNat 8 (w / 2 ^ 24))⟩

/-- CORE_REGS: captures the registers, and writes them while the core is halted. -/
def coreRegsCmd (c : Nat) (w : Option (BitVec 128)) (s : State) : State :=
  match s.core c with
  | none => s
  | some k =>
    let s1 := { s with tap := { s.tap with out := coreRegsWord k } }
    match w with
    | some v => if s.get (F.SRT_STAT_STATE c) = stHalted then s1.modCore c (fun k => { k with r := coreRegsOf v.toNat, series := .idle }) else s1
    | none => s1

end Sys2Proof.Machine
end

