-- ==== Sys2Proof/Machine/PowerDown.lean ====
section
/-!
DEFINITION. The end of a flush, and stage 5 of an entry into HUSH or DEEP (16, R343, R346; 18, R379).
-/

namespace Sys2Proof.Machine

/-- The keep box is saved (R343): the power controller reads each listed register in list order. -/
def saveKeepBox (s : State) : State :=
  s.modPow (fun p => { p with keepBox := if s.get F.PWR_RETAIN_MODE = 2 then s.rmap.retain.map (fun a => (a, regView 0x00 a s)) else [] })

/-- The flush of an entry is complete (Table 16.4, R346): the keep box is saved on the way to DEEP, and stage 5 begins; but an entry that a wake
source has met meanwhile is aborted. -/
def entryFlushed (s : State) : State :=
  if s.pow.wakeSeen then entryAbort none s
  else (if s.pow.entryMode = 3 then saveKeepBox s else s).modPow (fun p => { p with flushed := true })

/-- FLUSH_COMPLETE (R379, R354, R374, Table 18.4): write buffers have completed, the ring and its record are in the ledger, and
what the flush was made for follows. -/
def flushComplete (s : State) : State :=
  if !s.flag F.DLF_STAT_FLUSHING then s
  else
    let s1 := flushRing s.ledg.verify (drainBuffers (s.modLedg (fun l => { l with verify := [] })))
    let s2 := (s1.incSat F.DLF_CNT_FLUSHES).put F.DLF_STAT_FLUSHING 0
    let s3 := s2.modPow (fun p => { p with flush := .none })
    match s.pow.flush with
    | .powerEntry => entryFlushed s3
    | .reset pin => doWarm pin s3
    | .powerFail => if s3.pow.railLow then resetTo .cold s3 else holdFail s3
    | .safeHold => s3
    | .none => s3

/-- POWER_DOWN (R346): STATE takes the new state; in DEEP the logic's state is lost. A wake source met during stage 5 starts the exit. -/
def powerDown (s : State) : State :=
  if !s.flag F.PWR_STAT_ENTERING || !s.pow.flushed then s
  else
    let mode := s.pow.entryMode
    let woken := s.pow.wakeLate
    let s1 := (s.put F.PWR_STAT_ENTERING 0).put F.PWR_STAT_STATE mode
    let s2 := dayDrain (noteEntry 1 mode none s1)
    let s3 := forUpTo 4 linkPowerDown (forUpTo 16 chainHalt s2)
    let s4 := (((s3.put F.PACE_VCORE_SETPOINT 0).put F.PWR_STAT_REG_OK 0).put F.PWR_STAT_MEM_OK 0).put F.PWR_STAT_LOGIC_OK 0
    let s5 := s4.modPow (fun p => { p with flushed := false, wakeLate := false })
    let s6 :=
      if mode = 3 then
        let d := (resetTo .deep s5).put F.PWR_STAT_OSC_OK 0
        (d.put F.PACE_VCORE_SETPOINT 0).modPow (fun p => { p with lowFreq := true })
      else s5
    if woken then beginExit mode s6 else s6

end Sys2Proof.Machine
end

