-- ==== Sys2Proof/Machine/Startup.lean ====
section
/-!
DEFINITION. The stages of start-up and of an exit from HUSH or DEEP (16, R343, R344, R349, R350; 17, R356 to R361; 18, R380).
-/

namespace Sys2Proof.Machine

/-- The device is on its way from a reset, not out of HUSH or DEEP. -/
def fromReset (s : State) : Bool := s.pow.start == .cold || s.pow.start == .warm

/-- REGULATOR_READY (R339, R349, R356): an oscillator that runs is passed at once. -/
def regulatorReady (s : State) : State :=
  if s.pow.phase ≠ .regulator ∨ s.pow.missed then s
  else
    let s1 := (s.mark F.PWR_STAT_REG_OK).put F.PACE_VCORE_SETPOINT 0x5A
    let next : Phase := if !s1.flag F.PWR_STAT_OSC_OK then .oscillator else if fromReset s1 then .straps else .memory
    s1.modPow (fun p => { p with phase := next })

/-- OSCILLATOR_READY: after a cold reset the timebase starts from 0 (Table 17.3); from DEEP it returns to reference stepping (R54). -/
def oscillatorReady (s : State) : State :=
  if s.pow.phase ≠ .oscillator ∨ s.pow.missed then s
  else
    let s1 := s.mark F.PWR_STAT_OSC_OK
    let s2 := if s.pow.tbDue then { s1 with tb := 0 } else s1
    s2.modPow (fun p => { p with tbDue := false, phase := if fromReset s then .straps else .memory, lowFreq := false })

/-- CAS_STAT.ROLE, and what the head office fixes with it (R276, R290). -/
def takeRole (s : State) : State :=
  let head := s.flag F.SYS_STRAP_HEAD
  let sb := s.flag F.SYS_STRAP_STANDBY
  let s1 := s.put F.CAS_STAT_ROLE (if head && !sb then 1 else if sb && !head then 2 else 0)
  if head && !sb then ((s1.put F.CAS_STAT_TSTATE tsLocked).put F.CAS_ID_ID 0).put F.CAS_ID_VALID 1 else s1

/-- STRAP_SAMPLE (R311, R357, R358, R397): BOOT2 to BOOT0, HEAD, STANDBY, and the three levels of ADR0 to ADR2. -/
def strapSample (boot : Nat) (head standby : Bool) (adr0 adr1 adr2 : Nat) (s : State) : State :=
  if s.pow.phase ≠ .straps then s
  else
    let s1 := ((s.put F.SYS_RMAP_BOOT_STRAPS boot).putB F.SYS_STRAP_HEAD head).putB F.SYS_STRAP_STANDBY standby
    let s2 := ((s1.put F.SYS_STRAP_ADR0 adr0).put F.SYS_STRAP_ADR1 adr1).put F.SYS_STRAP_ADR2 adr2
    let s3 := (s2.putB F.SYS_STRAP_ROLE_BAD (head && standby)).put F.TWP_STAT_ADDR (0x40 + 9 * adr2 + 3 * adr1 + adr0)
    (takeRole s3).modPow (fun p => { p with phase := .memory })

/-! The memory stage. -/

/-- Pigeonhole banks kept through HUSH or DEEP (R342, R343). -/
def keptBanks (s : State) : Nat := if s.get F.PWR_RETAIN_MODE = 1 then s.get F.PWR_RETAIN_BANKS else 0

/-- Every pigeonhole bank not kept is initialised to zero with valid ECC. -/
def initBanks (kept : Nat) (s : State) : State :=
  let stays (a : Nat) : Bool := !inPigeon a || bit kept (a / 2 ^ 20 % 16)
  { s with mem := s.mem.filter (fun e => stays e.1), ledg := { s.ledg with flips := s.ledg.flips.filter (fun f => stays f.addr) } }

/-- Transactions of a journal read oldest first that have a commit record and no retire record behind it: serial, and the image of each line
(R70). A line whose image is not readable has none. -/
def unretired : List (Nat × Nat × List Byte) → List JrnlEntry → List (Nat × List (Nat × List Byte))
  | _, [] => []
  | imgs, e :: es => match e with
    | .image n l d => unretired ((n, l, d) :: imgs) es
    | .commit n _ ls =>
      let gone := es.any (fun x => match x with | .retire m => m == n | _ => false)
      (if gone then [] else [(n, ls.filterMap (fun l => (imgs.find? (fun i => i.1 == n && i.2.1 == l)).map (·.2)))]) ++ unretired imgs es
    | _ => unretired imgs es

/-- Moves of a journal read oldest first that have no retire record (R67): block and new place. -/
def movesOpen : List JrnlEntry → List (Nat × Nat)
  | [] => []
  | .move b _ n :: es => (if es.any (fun x => match x with | .moveRetire c => c == b | _ => false) then [] else [(b, n)]) ++ movesOpen es
  | _ :: es => movesOpen es

/-- The block map as the system records give it (R67, R427). With a record that is not valid every block is where it was at first. -/
def loadMap (s0 : State) : State :=
  let s := readEffect (recLine recMapIx) s0
  match recordValid s0 recMapIx s0.recs.map with
  | some m => s.modLedg (fun l => { l with blockMap := m })
  | none =>
    if s0.recs.map.isNone then s.modLedg (fun l => { l with blockMap := [] })
    else s.modLedg (fun l => { l with blockMap := [], wear := [], maxWear := 0, spares := l.spares.filter (fun p => 24576 ≤ p) })

/-- A line of a transaction that is replayed is programmed at home (R68, R70). -/
def replayLine (e : Nat × List Byte) (s : State) : State :=
  let (v, s1) := s.freeVerify
  let (ok, s2) := programAs v e.1 s1
  if ok then putBytes e.1 e.2 (heal e.1 s2) else reportFailed 0x7A s2

/-- A transaction is replayed: its lines, then its retire record (R70). -/
def replayTxn (t : Nat × List (Nat × List Byte)) (s : State) : State :=
  let (v, s1) := (t.2.foldl (fun s e => replayLine e s) s).freeVerify
  (programJournal v (.retire t.1) s1).2

/-- A move is replayed: the block map, then the retire record (R67). -/
def replayMove (m : Nat × Nat) (s : State) : State :=
  let (v, s1) := s.freeVerify
  let (ok, s2) := storeMap v (s1.modLedg (fun l => { l with blockMap := mapSet id l.blockMap m.1 m.2 }))
  if ok then
    let (w, s3) := s2.freeVerify
    (programJournal w (.moveRetire m.1) s3).2
  else s2

/-- JOURNAL_REPLAY (R67, R70): a transaction past its commit point is programmed home and retired, and the map update of a move is
completed. A journal line that reads uncorrectable fails its CRC. -/
def replay (s0 : State) : State :=
  let s := loadMap s0
  let es := journalInOrder s
  let s1 := es.foldl (fun s e => readEffect (jrnlAddr e.1) s) s
  let good := (es.filter (fun e => !poisonAt s (jrnlAddr e.1))).map (·.2)
  let ts := unretired [] good
  let ms := movesOpen good
  let s2 := ms.foldl (fun s m => replayMove m s) (ts.foldl (fun s t => replayTxn t s) s1)
  if ts.isEmpty && ms.isEmpty then s2
  else dayPush 0x7A 0x0E 0 ts.length ((s2.mark F.LEDG_STAT_REPLAYED).put F.LEDG_JRNL_REPLAY_TXN ts.length)

/-- The flush area agrees with the flush record (R379, R380). -/
def flushAgrees (s : State) (crc : Nat) : Bool := (firstPoison s flushBase ringBytes).isNone && crc32 (s.bytes flushBase ringBytes) == crc

/-- The flush record as it is found: one that reads uncorrectable is not valid (R427). -/
def readFlushRecord (s : State) : State :=
  let s1 := readEffect (recLine recFlushIx) s
  { s1 with recs := { s1.recs with flush := recordValid s recFlushIx s.recs.flush } }

/-- The letter slots in use of the flush area, in serial order. -/
def flushLetters (s : State) : List OpenLetter :=
  let used := (List.range 3840).filter (fun i => s.num (flushBase + 32 * i + 20) 4 != 0)
  let order := sortNat (used.map (fun i => s.num (flushBase + 32 * i + 20) 4))
  order.filterMap (fun n => (used.find? (fun i => s.num (flushBase + 32 * i + 20) 4 == n)).map (fun i => ⟨s.bytes (flushBase + 32 * i) 32, i, 0, true, true⟩))

/-- A flush area that is not taken leaves no open letter. -/
def noLetters (s : State) : State :=
  s.modGate (fun g => { g with opened := [], kCount := List.replicate 65 0, fsum := List.replicate 65 0 })

/-- The flush area has been written: it does not hold the zeros of a ledger never written (R361). -/
def flushTouched (s : State) : Bool := s.mem.any (fun e => flushBase ≤ e.1 && e.1 < flushBase + ringBytes)

/-- A flush area that does not agree with a valid flush record (R380, Table 20.11). -/
def reloadBad (s : State) : State := dayPush 0x7F 0x0D 1 0 (ringFill (noLetters (s.mark F.DLF_STAT_FLUSH_BAD)))

/-- DEAD_LETTER_RELOAD (R380). Without a valid flush record the ring starts empty on a ledger never written; a flush area that has been written
does not agree. -/
def reload (s0 : State) : State :=
  let s := ((((readFlushRecord s0).put F.DLF_STAT_FROZEN 0).put F.DLF_STAT_FLUSHING 0).put F.DLF_STAT_RELOADED 0).put F.DLF_CNT_RELOADED 0
  match s.recs.flush with
  | none => if flushTouched s then reloadBad s else dayPush 0x7F 0x0D 2 0 (ringFill (noLetters s))
  | some (n, reason, pm, crc) =>
    let s1 := (((s.put F.DLF_SEQ_FLUSHSEQ n).put F.DLF_REASON_REASON reason).put F.DLF_PM_LO_PM pm).put F.DLF_PM_HI_PM (pm / 2 ^ 32)
    let s2 := loaderReads flushBase ringBytes s1
    if flushAgrees s crc then
      let blk := s.bytes (flushBase + 0x1E000) 256
      let ls := flushLetters s
      let s3 := s2.modGate (fun g => { g with
        opened := ls
        kCount := (List.range 65).map (fun u => recNum blk (16 + 2 * u) 2)
        fsum := (List.range 65).map (fun u => if ls.any (fun l => recOrigin l.body == u) then recNum blk (168 + u) 1 else 0) })
      let s4 := { s3 with flt := { s3.flt with tailIdx := recNum blk 146 2 % 512 } }
      let s5 := (s4.mark F.DLF_STAT_RELOADED).put F.DLF_CNT_RELOADED (recNum blk 6 2)
      dayPush 0x7F 0x0D 0 (recNum blk 6 2) (ringFill s5)
    else reloadBad s2

/-- MEMORY_READY (R70, R343, R356). -/
def memoryReady (s : State) : State :=
  if s.pow.phase ≠ .memory ∨ s.pow.missed then s
  else
    let exit_ := !fromReset s
    let s1 := initBanks (if exit_ then keptBanks s else 0) s
    let s2 := if s.pow.start = .hush then s1 else replay s1
    let s3 := ((s2.mark F.LEDG_STAT_READY).mark F.PIGN_STAT_READY).mark F.PWR_STAT_MEM_OK
    let s4 := if exit_ then reload s3 else s3
    let s5 := if s.pow.start = .deep then takeRole s4 else s4
    s5.modPow (fun p => { p with phase := if s.pow.start = .hush then .logic else .records })

/-! System records (step 6 of Table 17.3). -/

/-- The first serial (R207, R361); the boundary of its block is stored, so that none repeats after the next start. -/
def firstSerial (s0 : State) : State :=
  let s := readEffect (recLine recSerialIx) s0
  match recordValid s0 recSerialIx s0.recs.serial with
  | none => storeRecord (.serial 0) (s.put F.GATE_SERIAL_NEXT 1)
  | some v => let n := (v + 0x10000) % 2 ^ 32; storeRecord (.serial n) (s.put F.GATE_SERIAL_NEXT (if n = 0 then 1 else n))

/-- FRESH of a port (R104, R361), stored in the same way. -/
def firstFresh (p : Nat) (s0 : State) : State :=
  let s := readEffect (recLine (recFreshIx p)) s0
  let n := match recordValid s0 (recFreshIx p) (nth s0.recs.fresh p none) with
    | none => 0
    | some v => (v + 0x10000) % 2 ^ 32
  storeRecord (.fresh p n) (s.put (F.FL_FRESH_FRESH p) n)

/-- SYSTEM_RECORDS_READY (R104, R164, R207, R286, R356, R380). -/
def recordsReady (s : State) : State :=
  if s.pow.phase ≠ .records ∨ s.pow.missed then s
  else
    let s0 := reevaluate (checkCurves s)
    let s1 := readEffect (recLine recCascadeIx) (forUpTo 32 firstFresh (firstSerial s0))
    let s2 := match recordValid s0 recCascadeIx s0.recs.casId with
      | none => s1
      | some v => (if s1.isHead then s1 else s1.put F.CAS_ID_ID v).modEst (fun e => { e with lastId := some v })
    let s3 := if fromReset s then reload s2 else s2
    s3.modPow (fun p => { p with phase := .logic, booted := s3.pm })

/-! The logic stage. -/

/-- A chain whose configuration is written while it runs starts again under it. -/
def chainAgain (u : Nat) (s : State) : State :=
  if 0x61 ≤ u ∧ u ≤ 0x70 ∧ ((s.chain (u - 0x61)).map (·.run)).getD false then chainBegin (u - 0x61) (chainHalt (u - 0x61) s) else s

/-- A keep-box entry is written back (R344): with writer 0x00, under the loading clause of R2, subject to R5. -/
def keepWrite (a v : Nat) (s : State) : State :=
  let w : Word := BitVec.ofNat 32 v
  match findReg a with
  | none => refuse 0x00 a s
  | some (d, _) =>
    let old := (s.reg a).toNat
    if rwlBars d (blockOf a) (offOf a) old v s && !rowRefuses d v && !alsoReserved (blockOf a) (offOf a) v s then
      chainAgain (blockOf a) (regAct 0x00 a old v (fun s => s.setReg a (BitVec.ofNat 32 (plainWord d (s.reg a).toNat v))) s)
    else regWrite 0x00 a w s

/-- The units go on after HUSH (R341, R350): chains and links start again, the outbox starts empty, every open letter is to be
re-delivered, the postmaster continues after its WAIT and the ports continue their passes. DESIGN CHOICE: the governor's low_count and the mark of a short
window stand as HUSH found them; the spec does not say that its loop starts them afresh. -/
def resumeHush (s : State) : State :=
  let lost := match s.part 4 with
    | some p => (partBanks p).any (fun b => !bit (keptBanks s) b)
    | none => false
  let s0 := if lost then startBook (s.put F.DAYB_STAT_READY 0) else s
  let s1 := forUpTo 16 (fun i s => if s.flag (F.FC_CTRL_RUN i) then chainBegin i s else s) s0
  let s2 := forUpTo 4 (fun n s => if s.flag (F.CAS_L_STAT_PRS n) && linkEnabled s n && lstate s n == lsDown then beginTraining n s else s) s1
  let s3 := forUpTo 3 (fun c s => s.put (F.GATE_USE_OBX_USED c) 0) ((s2.put F.GATE_OBX_RD_IDX 0).put F.GATE_OBX_WR_IDX 0)
  advanceAll (wakePostmaster ((bellUpdate false s3).modTwp (fun w => { w with stretch := false })))

/-- LOGIC_READY (R344, R349, R356, R359): the image is applied or route-map wait is reached; the state is RUN. -/
def logicReady (s : State) : State :=
  if s.pow.phase ≠ .logic ∨ s.pow.missed then s
  else
    let s1 := ((s.mark F.PWR_STAT_LOGIC_OK).put F.PWR_STAT_STATE 0).modPow (fun p => { p with phase := .up })
    match s.pow.start with
    | .hush => resumeHush s1
    | .deep =>
      let s2 := loadImage true (s1.mark F.SYS_RST_STAT_DEEP)
      s2.pow.keepBox.foldl (fun s e => keepWrite e.1 e.2 s) s2
    | _ =>
      let s2 := loadImage false s1
      s2.put F.SYS_BOOT_TIME_US (satTo 0xFFFFFF (pmDiff s2.pm s.pow.booted * 1000000 / 2 ^ 24))

/-- CODE of a POWER fault (Table 18.1): the stage in progress. -/
def stageCode (s : State) : Option Nat := match s.pow.phase with
  | .regulator => some 1
  | .oscillator => some 2
  | .straps | .memory => some 3
  | .records | .logic => some 4
  | .coldHold | .resetHold | .up => none

/-- POWER_STAGE_TIMEOUT (R349, Table 17.4): a stage that misses its limit raises a POWER fault, and the device stays in it. -/
def stageTimeout (s : State) : State := match stageCode s with
  | none => s
  | some c => if s.pow.missed then s else (raiseFault 0x7C 6 c 0 s).modPow (fun p => { p with missed := true })

/-- XLO_STABLE (R356). -/
def xloStable (s : State) : State := if s.pow.phase = .coldHold then s else s.mark F.SYS_RST_STAT_XLO_OK

end Sys2Proof.Machine
end

