-- ==== Sys2Proof/Machine/Tap.lean ====
section
/-!
DEFINITION. The test access port (R252, R398), the levels of the device's output pins (19) and the VHOLD monitor (R408).
-/

namespace Sys2Proof.Machine

def State.modTap (s : State) (f : Tap → Tap) : State := { s with tap := f s.tap }

/-! The instruction register (Table 19.6, Table 11.8). -/

def tiIdcode : Nat := 0x01
def tiSample : Nat := 0x02
def tiExtest : Nat := 0x03
def tiHighz : Nat := 0x04
def tiClamp : Nat := 0x05
def tiCoreSel : Nat := 0x40
def tiCoreHalt : Nat := 0x41
def tiCoreStep : Nat := 0x42
def tiCoreResume : Nat := 0x43
def tiCoreRegs : Nat := 0x44
def tiBypass : Nat := 0xFF

/-- The port responds: the logic die is powered (R391, Table 19.4): its regulator has come up since a cold reset or DEEP. -/
def tapAlive (s : State) : Bool :=
  s.pow.phase != .coldHold && !(s.pow.phase == .up && s.pwr == 3) &&
  (s.flag F.PWR_STAT_OSC_OK || !(s.pow.phase == .regulator || s.pow.phase == .resetHold))

/-- Where the port responds, an instruction is loaded that selects a data register. -/
def tapLoad (ir : Nat) (dr : TapSel) (act : State → State) (s : State) : State :=
  if tapAlive s then act (s.modTap (fun t => { t with ir := ir, dr := dr })) else s

/-- The word IDCODE captures (R398). -/
def idcodeWord : Nat := Config.stepping.toNat % 16 * 2 ^ 28 + 0x9620 * 2 ^ 12 + 0x4C1 * 2 + 1

/-- What the bits of a register spell, the first as bit 0. -/
def ofBits : List Bool → Nat
  | [] => 0
  | b :: l => b2n b + 2 * ofBits l

/-! Output pins as the state gives them (Table 19.4). -/

/-- The signal pins of Table 19.3, the analogue and crystal ones apart. -/
inductive Pin where
  | txd (p : Nat) | de (p : Nat) | rxd (p : Nat) | flt (p : Nat) | linkTx (n : Nat) | linkRx (n : Nat) | prs (n : Nat)
  | hclk | hcs | hio (k : Nat) | scl | sda | bell | adr (k : Nat) | timer (k : Nat) | rst | pfail
  | tck | tms | tdi | tdo | trst | boot (k : Nat) | head | standby
  deriving DecidableEq, Repr

/-- BELL_N (R317): driven low or released. -/
def bellPin (s : State) : Drive := if s.flag F.TWP_ALERT_DRIVE then .low else .highZ

/-- Units drive their pins in RUN and DOZE, out of reset (Table 19.4). -/
def unitsDrive (s : State) : Bool := s.pow.phase == .up && decide (s.pwr ≤ 1) && !s.flag F.SYS_RMAP_STAT_WAITING

/-- FLpp_DE is high (R90): from DE_LEAD before a frame until DE_LAG after it. -/
def deHigh (s : State) (p : Nat) : Bool := unitsDrive s && (s.port p).any (fun q => q.stage == .sending || q.stage == .lag)
/-- FLpp_DE. -/
def dePin (s : State) (p : Nat) : Drive := driven (deHigh s p)
/-- FLpp_TXD (R88, R92, R95): held low whenever FLpp_DE is low. -/
def txdPin (s : State) (p : Nat) : Drive := driven (deHigh s p && txdHigh s p)

/-- MCLKk (R182, R394): 2.097152 MHz with a rising edge at each tick while its input is enabled, and low otherwise. -/
def mclkPin (s : State) (k : Nat) : Drive := if unitsDrive s && s.flag (F.FC_MOD_EN (8 + k)) then .clock else .low

/-- The pair LKn_TX (Table 19.4): symbols while the port is not DOWN. -/
def linkTxPin (s : State) (n : Nat) : Drive :=
  if s.pow.phase = .coldHold ∨ s.pwr = 3 then .highZ
  else if unitsDrive s && lstate s n != lsDown then .symbols else .common

/-- The ball of FLpp_DE carries MCLKk, and that of FLpp_FLT MDATk, where MEN gives it to a modulator (R393, R394). -/
def modulatorBall (s : State) (p : Nat) : Bool := decide (24 ≤ p) && bit (s.get F.SYS_PIN_CFG_MEN) (p - 24)

/-- Each pin as its unit has it (R391, R392, Table 19.4); TDO is driven only while a register is shifted. -/
def unitPin (s : State) : Pin → Drive
  | .txd p => txdPin s p
  | .de p => if modulatorBall s p then mclkPin s (p - 24) else dePin s p
  | .rxd _ | .flt _ | .prs _ | .trst | .boot _ | .head | .standby => .pullDown
  | .linkTx n => linkTxPin s n
  | .linkRx _ => .terminated
  | .hcs | .rst | .pfail | .tck | .tms | .tdi => .pullUp
  | .hclk | .adr _ | .tdo => .highZ
  | .hio k => if hostAlive s && (hioDriven s 1).any (fun c => c.any (·.1 == k)) then .bus else .highZ
  | .scl | .sda => if twpAlive s || twpWatches s then .openDrain else .highZ
  | .bell => bellPin s
  | .timer k => timerPin s k

/-- The boundary register covers every digital signal ball of Table 19.1, and not the links' data pairs (R398). -/
def inBoundary : Pin → Bool
  | .linkTx _ | .linkRx _ => false
  | _ => true

/-- What Table 19.3 makes of a digital pin. -/
inductive Way where
  | input | output | both | openDrain
  deriving DecidableEq, Repr

def Pin.way : Pin → Way
  | .txd _ | .de _ | .linkTx _ | .tdo => .output
  | .hio _ | .timer _ => .both
  | .scl | .sda | .bell => .openDrain
  | _ => .input

/-- A pin on VIO18; the others are on VIO33 (Table 19.3). -/
def Pin.low18 : Pin → Bool
  | .linkTx _ | .linkRx _ | .prs _ | .hclk | .hcs | .hio _ | .tck | .tms | .tdi | .tdo | .trst => true
  | _ => false

/-- The pins, each once. -/
def allPins : List Pin :=
  (List.range 32).flatMap (fun p => [.txd p, .de p, .rxd p, .flt p, .timer p]) ++ (List.range 4).flatMap (fun n => [.prs n, .linkTx n, .linkRx n, .hio n]) ++
  (List.range 3).flatMap (fun k => [.adr k, .boot k]) ++
  [.hclk, .hcs, .scl, .sda, .bell, .rst, .pfail, .tck, .tms, .tdi, .tdo, .trst, .head, .standby]

/-- The rows of balls by letter, from the top (R388). -/
def ballRows : List String := ["A", "B", "C", "D", "E", "F", "G", "H", "J", "K", "L", "M", "N", "P", "T", "U", "V", "W", "Y", "AA", "AB", "AC"]

/-- The balls of field port `p` (R389): `i` is 0 to 3 for TXD, DE, RXD and FLT. -/
def portBall (p i : Nat) : Nat × Nat :=
  if p < 11 then (i / 2, 2 * p + 1 + i % 2)
  else if p < 22 then (20 + i / 2, 2 * (p - 11) + 1 + i % 2)
  else if p < 31 then (2 + 2 * (p - 22) + i / 2, 1 + i % 2)
  else (2 + i / 2, 21 + i % 2)

/-- The ball of a pin, of the first half of a pair (R389): place of its row in `ballRows`, and column. -/
def ballOf : Pin → Nat × Nat
  | .txd p => portBall p 0
  | .de p => portBall p 1
  | .rxd p => portBall p 2
  | .flt p => portBall p 3
  | .linkTx n => (4 + 2 * n, 21)
  | .linkRx n => (5 + 2 * n, 21)
  | .prs n => (12 + n / 2, 21 + n % 2)
  | .hclk => (14, 21)
  | .hcs => (14, 22)
  | .hio k => (15 + k / 2, 21 + k % 2)
  | .scl => (17, 21)
  | .sda => (17, 22)
  | .bell => (18, 21)
  | .adr k => (18 + (k + 1) / 2, 21 + (k + 1) % 2)
  | .timer k => (2 + k % 2, 3 + k / 2)
  | .rst => (19, 7)
  | .pfail => (19, 8)
  | .tck => (19, 11)
  | .tms => (19, 12)
  | .tdi => (19, 13)
  | .tdo => (19, 14)
  | .trst => (19, 15)
  | .boot k => (19, 16 + k)
  | .head => (19, 19)
  | .standby => (19, 20)

/-- The cell of the boundary register that a pin has (R398). -/
def cellOf (p : Pin) : Nat := Config.boundaryCell (22 * (ballOf p).1 + (ballOf p).2)

/-- A pin whose output is released (R398): only its weak pull stays. -/
def released (s : State) (p : Pin) : Drive := match unitPin s p with
  | .pullUp => .pullUp
  | .pullDown => .pullDown
  | .terminated => .terminated
  | _ => .highZ

/-- A pin as its cell of the boundary register drives it: one of the open-drain lines is pulled low or released. -/
def scanned (s : State) (p : Pin) : Drive :=
  let b := s.tap.bsr.getD (cellOf p) false
  if p.way = .openDrain then (if b then .highZ else .low) else driven b

/-- A pin as it stands (R391, R392, R398, R399): an output is released while its rail lies below its threshold, and under HIGHZ; under EXTEST and
CLAMP it follows its cell of the boundary register. Inputs, and the port's own pins, are as ever. While the rails are not all up, which of them is,
is a free value. -/
def pinDrive (s : State) (p : Pin) : Drive :=
  if p.way = .input ∨ p = .tdo ∧ s.pow.phase ≠ .coldHold then unitPin s p
  else if s.pow.phase = .coldHold ∧ !Config.railUp s.freeCtr p.low18 then .highZ
  else if inBoundary p && s.tap.ir == tiHighz then released s p
  else if inBoundary p && (s.tap.ir == tiExtest || s.tap.ir == tiClamp) then scanned s p
  else unitPin s p

/-- TDO while the selected register is shifted through `n` of its bits: from bit 0 of what it captured (Table 19.4). Outside Shift-DR and Shift-IR
the pin is released. -/
def tdoShifted (s : State) (n : Nat) : List Drive := if tapAlive s then (List.range n).map (fun i => driven (bit s.tap.out i)) else []

/-! The instructions (Table 19.6, Table 11.8). -/

/-- The level a cell captures: what the device drives its pin to, else the level found there. -/
def cellLevel (s : State) (i : Nat) (found : Bool) : Bool :=
  match allPins.find? (fun p => inBoundary p && cellOf p == i) with
  | none => found
  | some p => match pinDrive s p with
    | .low => false
    | .high => true
    | _ => found

/-- Capture of the pins' levels, and then an update of the boundary register where bits are shifted in. -/
def boundaryScan (levels : List Bool) (load : Option (List Bool)) (s : State) : State :=
  s.modTap (fun t => { t with out := ofBits ((List.range levels.length).map (fun i => cellLevel s i (levels.getD i false))), bsr := load.getD t.bsr })

/-- BYPASS: a register of one bit, which captures 0. -/
def tapBypass (s : State) : State := tapLoad tiBypass .bypass (State.modTap · (fun t => { t with out := 0 })) s

/-- IDCODE (R398). -/
def tapIdcode (s : State) : State := tapLoad tiIdcode .idcode (State.modTap · (fun t => { t with out := idcodeWord })) s

/-- SAMPLE/PRELOAD (R398). -/
def tapSample (levels : List Bool) (load : Option (List Bool)) (s : State) : State := tapLoad tiSample .boundary (boundaryScan levels load) s

/-- Board test is accepted in route-map wait only; elsewhere BYPASS is selected instead (R398). -/
def boardTest (act : State → State) (s : State) : State := if s.flag F.SYS_RMAP_STAT_WAITING then act s else tapBypass s

/-- EXTEST (R398): the pins follow the boundary register. -/
def tapExtest (levels : List Bool) (load : Option (List Bool)) (s : State) : State :=
  boardTest (tapLoad tiExtest .boundary (boundaryScan levels load)) s

/-- HIGHZ (R398): the pins are released. -/
def tapHighz (s : State) : State := boardTest (tapLoad tiHighz .bypass (State.modTap · (fun t => { t with out := 0 }))) s

/-- CLAMP (R398): the pins keep the boundary register, with BYPASS selected. -/
def tapClamp (s : State) : State := boardTest (tapLoad tiClamp .bypass (State.modTap · (fun t => { t with out := 0 }))) s

/-- CORE_SEL (Table 11.8). -/
def tapCoreSel (c : Nat) (s : State) : State := tapLoad tiCoreSel .core (State.modTap · (fun t => { t with core := c % 256 })) s

/-- The selected core, where there is one. -/
def onSelected (act : Nat → State → State) (s : State) : State := match selected s with | some c => act c s | none => s

def tapCoreHalt (s : State) : State := tapLoad tiCoreHalt .core (onSelected coreHaltCmd) s
def tapCoreStep (s : State) : State := tapLoad tiCoreStep .core (onSelected coreStepCmd) s
def tapCoreResume (s : State) : State := tapLoad tiCoreResume .core (onSelected coreResumeCmd) s
def tapCoreRegs (w : Option (BitVec 128)) (s : State) : State := tapLoad tiCoreRegs .regs (onSelected (fun c => coreRegsCmd c w)) s

/-! Inputs that an event stands for. -/

/-- Whether `uv` microvolts on CMPn lie on the wake side (R348), 1,024 THR codes being 1.2 V: above the threshold, or with POL below it; HYST moves the
threshold against the input while the output is on the wake side. COMPARATOR_TRIP comes once this has held for FILT periods. -/
def onWakeSide (s : State) (n uv : Nat) : Bool :=
  let h : Int := if bit (s.get F.CMP_STAT_OUT) n then ([0, 10000, 20000, 40000].getD (s.get (F.CMP_CTRL_HYST n)) 0 : Nat) else 0
  let t : Int := s.get (F.CMP_CTRL_THR n) * 1200000
  if s.flag (F.CMP_CTRL_POL n) then decide ((uv : Int) * 1024 < t + h * 1024) else decide (t - h * 1024 < (uv : Int) * 1024)

/-! SYS_HOLD (R408). -/

/-- HOLD_UPDATE: VHOLD in units of 5 mV, and VIO33 in millivolts, from which the charge target follows (R407). -/
def holdUpdate (mv vio33 : Nat) (s : State) : State :=
  if !logicPowered s then s
  else
    let target := vio33 - 150
    let good := 5 * mv ≤ target + 100 ∧ target ≤ 5 * mv + 100
    let n := if good then satTo 10 (s.pow.holdGood + 1) else 0
    ((s.modPow (fun p => { p with holdGood := n })).put F.SYS_HOLD_MV (satTo 1023 mv)).putB F.SYS_HOLD_CHARGED (n == 10)

end Sys2Proof.Machine
end

