-- ==== Sys2Proof/Machine/RowOps.lean ====
section
/-!
DEFINITION. Operations the meanings of the table's rows share: register accesses by a writer or reader, guards, and the choices
a row's operands make.
-/

namespace Sys2Proof.Machine

/-- The units that listen while the logic die is powered and its clocks run: RUN and DOZE (R341, Table 19.4). -/
def whenHeard (act : State → State) (s : State) : State := if s.pow.phase == .up && decide (s.pwr ≤ 1) then act s else s

/-- The logic die is powered and out of reset. -/
def whenPowered (act : State → State) (s : State) : State := if logicPowered s then act s else s

/-- Whether a register access by unit `u` takes place: the ports and the test access port serve it, a core reaches the block
through its bridge (R239), no unit has an ID from 0x80 to 0xFE (R8), and the address is a word outside the memories (R7). -/
def reaches (u a : Nat) (write : Bool) (s : State) : Bool :=
  a % 4 == 0 && !inLedger a && !inPigeon a &&
  (if u = 0x75 then hostAlive s else if u = 0x76 then twpAlive s else if u = 0xFF then tapAlive s
   else logicPowered s && decide (u < 0x80) && (decide (0x40 < u) || bridgeOk u a write))

/-- A register write by unit `u` (R2 to R7); of the ports, before LOGIC_OK, only in the SYS block (R360). -/
def registerWrite (u a : Nat) (w : Word) (s : State) : State :=
  if !reaches u a true s then s
  else if u = 0x75 ∨ u = 0x76 then portWord regWrite u a w s
  else regWrite u a w s

/-- A register write that gives one field a value and every other field the value it reads as. -/
def registerModify (u a lo w v : Nat) (s : State) : State :=
  registerWrite u a (BitVec.ofNat 32 (setBits (regView u a s) lo w v)) s

/-- A register read by unit `u`; the word goes to `rdata`. -/
def registerRead (u a : Nat) (s : State) : State :=
  if !reaches u a false s then s
  else { (regRead u a s).2 with rdata := (regRead u a s).1 }

/-- A write that clears SYS_DIAG.RSVD_WR and is not itself refused (R6). -/
def clearsRsvd (u a : Nat) (w : Word) (s : State) : Bool :=
  a == A.SYS_DIAG && bit w.toNat F.SYS_DIAG_RSVD_WR.lo && reaches u a true s && !writeBarred a w s

/-- Two register writes at the same instant: they take effect in order, and a refusal of one wins over the other's clearing of RSVD_WR (R6). -/
def twoWrites (u a : Nat) (w : Word) (u2 a2 : Nat) (w2 : Word) (s : State) : State :=
    if clearsRsvd u a w s && wasRefused (registerWrite u2 a2 w2) s then
      refuseColliding u2 a2 (registerWrite u2 a2 w2 (registerWrite u a w s))
    else if clearsRsvd u2 a2 w2 s && wasRefused (registerWrite u a w) s then
      refuseColliding u a (registerWrite u a w (registerWrite u2 a2 w2 s))
    else registerWrite u2 a2 w2 (registerWrite u a w s)

/-- REGISTER_WRITE, alone or with a second write at the same instant; of the two ports the host port's comes first (R322). -/
def registerWrites (u a : Nat) (w : Word) (other : Option (Nat × Nat × Word)) (s : State) : State :=
  match other with
  | none => registerWrite u a w s
  | some (u2, a2, w2) => if u = 0x76 ∧ u2 = 0x75 then twoWrites u2 a2 w2 u a w s else twoWrites u a w u2 a2 w2 s

/-- BANK_REQUEST, once the cells that have turned stand (R63, R65). -/
def bankRow (u : Nat) (ahead : Bool) (a : Nat) (acc : BusAccess) (turned : List Flip) (s : State) : State :=
  whenPowered (fun s => bankRequest u ahead a acc (turned.foldl (fun s f => turnCell f s) s)) s

/-- PATROL_SCRUB, once the cells that have turned stand. -/
def patrolRow (turned : List Flip) (s : State) : State :=
  whenPowered (fun s => patrolScrub (turned.foldl (fun s f => turnCell f s) s)) s

/-- LINE_PROGRAM_COMPLETE: of a line of a bank's buffer, of a pending system record, of a move's next step, or of a line of the commit, the
retirement or the flush in progress, which takes hold with the others of it. -/
def programDone (p : Program) (s : State) : State :=
  match p with
  | .line b v => lineDone b.val v s
  | .record v => recordDone v s
  | .move v => moveDone v s
  | .part v => s.modLedg (fun l => { l with verify := l.verify ++ [v] })

/-- A PATH frame of one STATE (R287, R294, R297). -/
def pathRow (n st : Nat) (f : RxFrame) (s : State) : State :=
  receiveFrame n ftPath f (fun b s => if recNum (frBody b) 0 1 = st then takePath st s else s) s

/-- The register a budget stands in. -/
def budgetAddr (b : Budget) : Nat :=
  match b with
  | .quota c => A.GATE_QUOTA c.val
  | .share c => A.GATE_SHARE c.val
  | .openLimit => A.GATE_OPEN
  | .rate p => A.GATE_FRB p.val

/-- The register a preload of timer unit `u` stands in. -/
def preloadAddr (u : Nat) (p : Preload) : Nat :=
  match p with
  | .top => A.TMR_TOP u
  | .cmpA => A.TMR_CMPA u
  | .cmpB => A.TMR_CMPB u

end Sys2Proof.Machine
end

