-- ==== Sys2Proof/Machine/ChainRows.lean ====
section
/-!
DEFINITION. The meanings of the rows of the filter chains and their sources (09).
-/

namespace Sys2Proof.Machine

/-- CHAIN_OUTPUT (R187). -/
def execChainOutput (chain : Fin 16) (bits : List (Bool × Nat)) (s : State) : Host.Outcome State Fault Refusal :=
  .next (chainOutput chain.val bits s)

/-- SAMPLE_HANDOFF (R192). -/
def execSampleHandoff (chain : Fin 16) (s : State) : Host.Outcome State Fault Refusal :=
  .next (sampleHandoff chain.val s)

/-- SOURCE_OVERLOAD (R183). -/
def execSourceOverload (source : Fin 16) (s : State) : Host.Outcome State Fault Refusal :=
  .next (whenHeard (sourceOverload source.val) s)

/-- OVERLOAD_END (R183). -/
def execOverloadEnd (source : Fin 16) (s : State) : Host.Outcome State Fault Refusal :=
  .next (whenHeard (overloadEnd source.val) s)

/-- CHAIN_START (R194). -/
def execChainStart (writer : Fin 256) (chain : Fin 16) (s : State) : Host.Outcome State Fault Refusal :=
  .next (registerModify writer.val (A.FC_CTRL chain.val) 0 1 1 s)

/-- CHAIN_STOP (R195). -/
def execChainStop (writer : Fin 256) (chain : Fin 16) (s : State) : Host.Outcome State Fault Refusal :=
  .next (registerModify writer.val (A.FC_CTRL chain.val) 0 1 0 s)

/-- COEF_WRITE (R196). -/
def execCoefWrite (writer : Fin 256) (chain : Fin 16) (val : Word) (s : State) : Host.Outcome State Fault Refusal :=
  .next (registerWrite writer.val (A.FC_CDATA chain.val) val s)

/-- COEF_READ (R196). -/
def execCoefRead (reader : Fin 256) (chain : Fin 16) (s : State) : Host.Outcome State Fault Refusal :=
  .next (registerRead reader.val (A.FC_CDATA chain.val) s)

/-- SOURCE_MOD_WRITE (R197). -/
def execSourceModWrite (writer : Fin 256) (source : Fin 16) (val : Word) (s : State) : Host.Outcome State Fault Refusal :=
  .next (registerWrite writer.val (A.FC_MOD source.val) val s)

/-- CHAIN_SOURCE_WRITE (R197). -/
def execChainSourceWrite (writer : Fin 256) (chain : Fin 16) (val : Word) (s : State) : Host.Outcome State Fault Refusal :=
  .next (registerWrite writer.val (A.FC_SRC chain.val) val s)

/-- LAST_OUTPUT_READ (R193). -/
def execLastOutputRead (reader : Fin 256) (chain : Fin 16) (s : State) : Host.Outcome State Fault Refusal :=
  .next (registerRead reader.val (A.FC_LASTV chain.val) s)

end Sys2Proof.Machine
end

