-- ==== Sys2Proof/Machine/CoreEventRows.lean ====
section
/-!
DEFINITION. The meanings of the rows of a core's events, its start and stop and its memory port (11).
-/

namespace Sys2Proof.Machine

/-- WAIT_RESUME (R237). -/
def execWaitResume (core : Fin 65) (s : State) : Host.Outcome State Fault Refusal :=
  .next (waitResume core.val s)

/-- EVENT_INTERRUPT (R244). -/
def execEventInterrupt (core : Fin 65) (s : State) : Host.Outcome State Fault Refusal :=
  .next (eventInterrupt core.val s)

/-- EVENT_RECORD_ARRIVAL (R236). -/
def execEventRecordArrival (core : Fin 65) (record : List Byte) (s : State) : Host.Outcome State Fault Refusal :=
  .next (eventArrival core.val record s)

/-- CORE_START (R249). -/
def execCoreStart (writer : Fin 256) (core : Fin 65) (s : State) : Host.Outcome State Fault Refusal :=
  .next (registerModify writer.val (A.SRT_CTRL core.val) 0 1 1 s)

/-- CORE_STOP (R249). -/
def execCoreStop (writer : Fin 256) (core : Fin 65) (s : State) : Host.Outcome State Fault Refusal :=
  .next (registerModify writer.val (A.SRT_CTRL core.val) 0 1 0 s)

/-- CORE_FRESH (R249). -/
def execCoreFresh (writer : Fin 256) (core : Fin 65) (s : State) : Host.Outcome State Fault Refusal :=
  .next (registerModify writer.val (A.SRT_CTRL core.val) 1 1 1 s)

/-- CORE_MEMORY_WRITE (R250). -/
def execCoreMemoryWrite (writer : Fin 256) (core : Fin 65) (val : Byte) (s : State) : Host.Outcome State Fault Refusal :=
  .next (registerWrite writer.val (A.SRT_MDATA core.val) (val.setWidth 32) s)

/-- CORE_MEMORY_READ (R250). -/
def execCoreMemoryRead (reader : Fin 256) (core : Fin 65) (s : State) : Host.Outcome State Fault Refusal :=
  .next (registerRead reader.val (A.SRT_MDATA core.val) s)

end Sys2Proof.Machine
end

