-- ==== Sys2Proof/Machine/CoreRows.lean ====
section
/-!
DEFINITION. The meanings of the rows of a core's instructions (12).
-/

namespace Sys2Proof.Machine

/-- NOP (R265). -/
def execNop (core : Fin 65) (s : State) : Host.Outcome State Fault Refusal :=
  .next (coreInstr core.val isaNop s)

/-- WAIT (R265). -/
def execWait (core : Fin 65) (s : State) : Host.Outcome State Fault Refusal :=
  .next (coreInstr core.val isaWait s)

/-- RET (R265). -/
def execRet (core : Fin 65) (s : State) : Host.Outcome State Fault Refusal :=
  .next (coreInstr core.val isaRet s)

/-- RTI (R266). -/
def execRti (core : Fin 65) (s : State) : Host.Outcome State Fault Refusal :=
  .next (coreInstr core.val isaRti s)

/-- SETF (R265). -/
def execSetf (core : Fin 65) (s : State) : Host.Outcome State Fault Refusal :=
  .next (coreInstr core.val isaSetf s)

/-- CLRF (R265). -/
def execClrf (core : Fin 65) (s : State) : Host.Outcome State Fault Refusal :=
  .next (coreInstr core.val isaClrf s)

/-- ADD (R262). -/
def execAdd (core : Fin 65) (s : State) : Host.Outcome State Fault Refusal :=
  .next (coreInstr core.val isaAdd s)

/-- ADC (R262). -/
def execAdc (core : Fin 65) (s : State) : Host.Outcome State Fault Refusal :=
  .next (coreInstr core.val isaAdc s)

/-- SUB (R262). -/
def execSub (core : Fin 65) (s : State) : Host.Outcome State Fault Refusal :=
  .next (coreInstr core.val isaSub s)

/-- SBC (R262). -/
def execSbc (core : Fin 65) (s : State) : Host.Outcome State Fault Refusal :=
  .next (coreInstr core.val isaSbc s)

/-- AND (R262). -/
def execAnd (core : Fin 65) (s : State) : Host.Outcome State Fault Refusal :=
  .next (coreInstr core.val isaAnd s)

/-- OR (R262). -/
def execOr (core : Fin 65) (s : State) : Host.Outcome State Fault Refusal :=
  .next (coreInstr core.val isaOr s)

/-- XOR (R262). -/
def execXor (core : Fin 65) (s : State) : Host.Outcome State Fault Refusal :=
  .next (coreInstr core.val isaXor s)

/-- CMP (R262). -/
def execCmp (core : Fin 65) (s : State) : Host.Outcome State Fault Refusal :=
  .next (coreInstr core.val isaCmp s)

/-- LDA (R262). -/
def execLda (core : Fin 65) (s : State) : Host.Outcome State Fault Refusal :=
  .next (coreInstr core.val isaLda s)

/-- STA (R262). -/
def execSta (core : Fin 65) (s : State) : Host.Outcome State Fault Refusal :=
  .next (coreInstr core.val isaSta s)

/-- LDX (R263). -/
def execLdx (core : Fin 65) (s : State) : Host.Outcome State Fault Refusal :=
  .next (coreInstr core.val isaLdx s)

/-- STX (R263). -/
def execStx (core : Fin 65) (s : State) : Host.Outcome State Fault Refusal :=
  .next (coreInstr core.val isaStx s)

/-- LDY (R263). -/
def execLdy (core : Fin 65) (s : State) : Host.Outcome State Fault Refusal :=
  .next (coreInstr core.val isaLdy s)

/-- STY (R263). -/
def execSty (core : Fin 65) (s : State) : Host.Outcome State Fault Refusal :=
  .next (coreInstr core.val isaSty s)

/-- TAX (R263). -/
def execTax (core : Fin 65) (s : State) : Host.Outcome State Fault Refusal :=
  .next (coreInstr core.val isaTax s)

/-- TAY (R263). -/
def execTay (core : Fin 65) (s : State) : Host.Outcome State Fault Refusal :=
  .next (coreInstr core.val isaTay s)

/-- TYA (R263). -/
def execTya (core : Fin 65) (s : State) : Host.Outcome State Fault Refusal :=
  .next (coreInstr core.val isaTya s)

/-- TXY (R263). -/
def execTxy (core : Fin 65) (s : State) : Host.Outcome State Fault Refusal :=
  .next (coreInstr core.val isaTxy s)

/-- TYX (R263). -/
def execTyx (core : Fin 65) (s : State) : Host.Outcome State Fault Refusal :=
  .next (coreInstr core.val isaTyx s)

/-- INC (R263). -/
def execInc (core : Fin 65) (s : State) : Host.Outcome State Fault Refusal :=
  .next (coreInstr core.val isaInc s)

/-- DEC (R263). -/
def execDec (core : Fin 65) (s : State) : Host.Outcome State Fault Refusal :=
  .next (coreInstr core.val isaDec s)

/-- SHL (R263). -/
def execShl (core : Fin 65) (s : State) : Host.Outcome State Fault Refusal :=
  .next (coreInstr core.val isaShl s)

/-- SHR (R263). -/
def execShr (core : Fin 65) (s : State) : Host.Outcome State Fault Refusal :=
  .next (coreInstr core.val isaShr s)

/-- SAR (R263). -/
def execSar (core : Fin 65) (s : State) : Host.Outcome State Fault Refusal :=
  .next (coreInstr core.val isaSar s)

/-- ROL (R263). -/
def execRol (core : Fin 65) (s : State) : Host.Outcome State Fault Refusal :=
  .next (coreInstr core.val isaRol s)

/-- ROR (R263). -/
def execRor (core : Fin 65) (s : State) : Host.Outcome State Fault Refusal :=
  .next (coreInstr core.val isaRor s)

/-- NOT (R263). -/
def execNot (core : Fin 65) (s : State) : Host.Outcome State Fault Refusal :=
  .next (coreInstr core.val isaNot s)

/-- NEG (R263). -/
def execNeg (core : Fin 65) (s : State) : Host.Outcome State Fault Refusal :=
  .next (coreInstr core.val isaNeg s)

/-- MUL (R263). -/
def execMul (core : Fin 65) (s : State) : Host.Outcome State Fault Refusal :=
  .next (coreInstr core.val isaMul s)

/-- CPX (R263). -/
def execCpx (core : Fin 65) (s : State) : Host.Outcome State Fault Refusal :=
  .next (coreInstr core.val isaCpx s)

/-- CPY (R263). -/
def execCpy (core : Fin 65) (s : State) : Host.Outcome State Fault Refusal :=
  .next (coreInstr core.val isaCpy s)

/-- TST (R263). -/
def execTst (core : Fin 65) (s : State) : Host.Outcome State Fault Refusal :=
  .next (coreInstr core.val isaTst s)

/-- INCW (R263). -/
def execIncw (core : Fin 65) (s : State) : Host.Outcome State Fault Refusal :=
  .next (coreInstr core.val isaIncw s)

/-- DECW (R263). -/
def execDecw (core : Fin 65) (s : State) : Host.Outcome State Fault Refusal :=
  .next (coreInstr core.val isaDecw s)

/-- LDP (R264). -/
def execLdp (core : Fin 65) (s : State) : Host.Outcome State Fault Refusal :=
  .next (coreInstr core.val isaLdp s)

/-- LDQ (R264). -/
def execLdq (core : Fin 65) (s : State) : Host.Outcome State Fault Refusal :=
  .next (coreInstr core.val isaLdq s)

/-- STP (R264). -/
def execStp (core : Fin 65) (s : State) : Host.Outcome State Fault Refusal :=
  .next (coreInstr core.val isaStp s)

/-- STQ (R264). -/
def execStq (core : Fin 65) (s : State) : Host.Outcome State Fault Refusal :=
  .next (coreInstr core.val isaStq s)

/-- ADDP (R264). -/
def execAddp (core : Fin 65) (s : State) : Host.Outcome State Fault Refusal :=
  .next (coreInstr core.val isaAddp s)

/-- ADDQ (R264). -/
def execAddq (core : Fin 65) (s : State) : Host.Outcome State Fault Refusal :=
  .next (coreInstr core.val isaAddq s)

/-- XPQ (R264). -/
def execXpq (core : Fin 65) (s : State) : Host.Outcome State Fault Refusal :=
  .next (coreInstr core.val isaXpq s)

/-- LDSP (R264). -/
def execLdsp (core : Fin 65) (s : State) : Host.Outcome State Fault Refusal :=
  .next (coreInstr core.val isaLdsp s)

/-- TSP (R264). -/
def execTsp (core : Fin 65) (s : State) : Host.Outcome State Fault Refusal :=
  .next (coreInstr core.val isaTsp s)

/-- TPS (R264). -/
def execTps (core : Fin 65) (s : State) : Host.Outcome State Fault Refusal :=
  .next (coreInstr core.val isaTps s)

/-- TXAP (R264). -/
def execTxap (core : Fin 65) (s : State) : Host.Outcome State Fault Refusal :=
  .next (coreInstr core.val isaTxap s)

/-- TPXA (R264). -/
def execTpxa (core : Fin 65) (s : State) : Host.Outcome State Fault Refusal :=
  .next (coreInstr core.val isaTpxa s)

/-- LDC (R264). -/
def execLdc (core : Fin 65) (s : State) : Host.Outcome State Fault Refusal :=
  .next (coreInstr core.val isaLdc s)

/-- TXAC (R264). -/
def execTxac (core : Fin 65) (s : State) : Host.Outcome State Fault Refusal :=
  .next (coreInstr core.val isaTxac s)

/-- LOOP (R264). -/
def execLoop (core : Fin 65) (s : State) : Host.Outcome State Fault Refusal :=
  .next (coreInstr core.val isaLoop s)

/-- TCXA (R264). -/
def execTcxa (core : Fin 65) (s : State) : Host.Outcome State Fault Refusal :=
  .next (coreInstr core.val isaTcxa s)

/-- PUSH (R264). -/
def execPush (core : Fin 65) (s : State) : Host.Outcome State Fault Refusal :=
  .next (coreInstr core.val isaPush s)

/-- PULL (R264). -/
def execPull (core : Fin 65) (s : State) : Host.Outcome State Fault Refusal :=
  .next (coreInstr core.val isaPull s)

/-- CPP (R264). -/
def execCpp (core : Fin 65) (s : State) : Host.Outcome State Fault Refusal :=
  .next (coreInstr core.val isaCpp s)

/-- CPQ (R264). -/
def execCpq (core : Fin 65) (s : State) : Host.Outcome State Fault Refusal :=
  .next (coreInstr core.val isaCpq s)

/-- BRANCH (R265). -/
def execBranch (core : Fin 65) (s : State) : Host.Outcome State Fault Refusal :=
  .next (coreInstr core.val isaBranch s)

/-- JMP (R265). -/
def execJmp (core : Fin 65) (s : State) : Host.Outcome State Fault Refusal :=
  .next (coreInstr core.val isaJmp s)

/-- CALL (R265). -/
def execCall (core : Fin 65) (s : State) : Host.Outcome State Fault Refusal :=
  .next (coreInstr core.val isaCall s)

/-- MOVB (R268). -/
def execMovb (core : Fin 65) (s : State) : Host.Outcome State Fault Refusal :=
  .next (coreInstr core.val isaMovb s)

/-- FILL (R268). -/
def execFill (core : Fin 65) (s : State) : Host.Outcome State Fault Refusal :=
  .next (coreInstr core.val isaFill s)

/-- SCAN (R268). -/
def execScan (core : Fin 65) (s : State) : Host.Outcome State Fault Refusal :=
  .next (coreInstr core.val isaScan s)

/-- CMPB (R268). -/
def execCmpb (core : Fin 65) (s : State) : Host.Outcome State Fault Refusal :=
  .next (coreInstr core.val isaCmpb s)

/-- LODB (R268). -/
def execLodb (core : Fin 65) (s : State) : Host.Outcome State Fault Refusal :=
  .next (coreInstr core.val isaLodb s)

/-- ADCB (R268). -/
def execAdcb (core : Fin 65) (s : State) : Host.Outcome State Fault Refusal :=
  .next (coreInstr core.val isaAdcb s)

/-- SBCB (R268). -/
def execSbcb (core : Fin 65) (s : State) : Host.Outcome State Fault Refusal :=
  .next (coreInstr core.val isaSbcb s)

/-- RPT (R269). -/
def execRpt (core : Fin 65) (reps : Nat) (s : State) : Host.Outcome State Fault Refusal :=
  .next (coreRpt core.val reps s)

/-- UNDEFINED_OPCODE (R272). -/
def execUndefinedOpcode (core : Fin 65) (s : State) : Host.Outcome State Fault Refusal :=
  .next (coreUndefined core.val s)

end Sys2Proof.Machine
end

