-- ==== Sys2Proof/Machine/EstateRows.lean ====
section
/-!
DEFINITION. The meanings of the rows of cascade frames, time and remote access (13).
-/

namespace Sys2Proof.Machine

/-- LETTER (R212). -/
def execLetter (link : Fin 4) (frame : RxFrame) (s : State) : Host.Outcome State Fault Refusal :=
  .next (receiveFrame link.val ftLetter frame (takeLetter link.val) s)

/-- ACK (R284). -/
def execAck (link : Fin 4) (frame : RxFrame) (s : State) : Host.Outcome State Fault Refusal :=
  .next (receiveFrame link.val ftAck frame (takeAck link.val) s)

/-- HELLO (R285). -/
def execHello (link : Fin 4) (frame : RxFrame) (s : State) : Host.Outcome State Fault Refusal :=
  .next (receiveFrame link.val ftHello frame (takeHello link.val) s)

/-- ENROL (R286). -/
def execEnrol (link : Fin 4) (frame : RxFrame) (s : State) : Host.Outcome State Fault Refusal :=
  .next (receiveFrame link.val ftEnrol frame (takeEnrol link.val) s)

/-- WELCOME (R287). -/
def execWelcome (link : Fin 4) (frame : RxFrame) (s : State) : Host.Outcome State Fault Refusal :=
  .next (receiveFrame link.val ftWelcome frame (takeWelcome link.val) s)

/-- LEAVE (R295). -/
def execLeave (link : Fin 4) (frame : RxFrame) (s : State) : Host.Outcome State Fault Refusal :=
  .next (receiveFrame link.val ftLeave frame takeLeave s)

/-- PATH_LOST (R294). -/
def execPathLost (link : Fin 4) (frame : RxFrame) (s : State) : Host.Outcome State Fault Refusal :=
  .next (pathRow link.val 1 frame s)

/-- PATH_STANDS (R287). -/
def execPathStands (link : Fin 4) (frame : RxFrame) (s : State) : Host.Outcome State Fault Refusal :=
  .next (pathRow link.val 2 frame s)

/-- PATH_RESTORED (R294). -/
def execPathRestored (link : Fin 4) (frame : RxFrame) (s : State) : Host.Outcome State Fault Refusal :=
  .next (pathRow link.val 3 frame s)

/-- PATH_NEWHEAD (R297). -/
def execPathNewhead (link : Fin 4) (frame : RxFrame) (s : State) : Host.Outcome State Fault Refusal :=
  .next (pathRow link.val 4 frame s)

/-- SYNC_TIMER (R290). -/
def execSyncTimer (link : Fin 4) (s : State) : Host.Outcome State Fault Refusal :=
  .next (syncTimer link.val s)

/-- SYNC (R290). -/
def execSync (link : Fin 4) (frac : BitVec 24) (frame : RxFrame) (s : State) : Host.Outcome State Fault Refusal :=
  .next (receiveFrame link.val ftSync frame (takeSync frac.toNat) s)

/-- DREQ (R290). -/
def execDreq (link : Fin 4) (frac : BitVec 24) (frame : RxFrame) (s : State) : Host.Outcome State Fault Refusal :=
  .next (receiveFrame link.val ftDreq frame (fun _ => takeDreq link.val frac.toNat) s)

/-- DRESP (R290). -/
def execDresp (link : Fin 4) (frame : RxFrame) (s : State) : Host.Outcome State Fault Refusal :=
  .next (receiveFrame link.val ftDresp frame takeDresp s)

/-- RA_REQ (R296). -/
def execRaReq (link : Fin 4) (frame : RxFrame) (s : State) : Host.Outcome State Fault Refusal :=
  .next (receiveFrame link.val ftRaReq frame (takeRaReq link.val) s)

/-- RA_RESP (R296). -/
def execRaResp (link : Fin 4) (frame : RxFrame) (s : State) : Host.Outcome State Fault Refusal :=
  .next (receiveFrame link.val ftRaResp frame (takeRaResp link.val) s)

/-- IDMIR (R297). -/
def execIdmir (link : Fin 4) (complete : Bool) (frame : RxFrame) (s : State) : Host.Outcome State Fault Refusal :=
  .next (receiveFrame link.val ftIdmir frame (takeIdmir link.val complete) s)

/-- SYNC_TIMEOUT (R293). -/
def execSyncTimeout (s : State) : Host.Outcome State Fault Refusal :=
  .next (syncTimeout s)

/-- OUTAGE_HOLD_EXPIRY (R293). -/
def execOutageHoldExpiry (link : Fin 4) (s : State) : Host.Outcome State Fault Refusal :=
  .next (outageHoldExpiry link.val s)

/-- ENROL_TIMEOUT (R287). -/
def execEnrolTimeout (s : State) : Host.Outcome State Fault Refusal :=
  .next (enrolTimeout s)

/-- ENROL_RETRY (R287). -/
def execEnrolRetry (s : State) : Host.Outcome State Fault Refusal :=
  .next (enrolRetry s)

/-- REENROL (R287). -/
def execReenrol (writer : Fin 256) (s : State) : Host.Outcome State Fault Refusal :=
  .next (registerWrite writer.val A.CAS_CMD 1 s)

/-- RESYNC (R290). -/
def execResync (writer : Fin 256) (s : State) : Host.Outcome State Fault Refusal :=
  .next (registerWrite writer.val A.CAS_CMD 2 s)

/-- LINK_DOWN_WRITE (R299). -/
def execLinkDownWrite (writer : Fin 256) (link : Fin 4) (down : Bool) (s : State) : Host.Outcome State Fault Refusal :=
  .next (registerModify writer.val (A.CAS_L_CTRL link.val) 0 1 (b2n down) s)

/-- RA_READ (R296). -/
def execRaRead (writer : Fin 256) (wordsM1 : Fin 8) (s : State) : Host.Outcome State Fault Refusal :=
  .next (registerWrite writer.val A.CAS_RA_CMD (BitVec.ofNat 32 (wordsM1.val * 32 + 1)) s)

/-- RA_WRITE (R296). -/
def execRaWrite (writer : Fin 256) (wordsM1 : Fin 8) (s : State) : Host.Outcome State Fault Refusal :=
  .next (registerWrite writer.val A.CAS_RA_CMD (BitVec.ofNat 32 (wordsM1.val * 32 + 2)) s)

/-- RA_TIMEOUT (R296). -/
def execRaTimeout (channel : Fin 3) (s : State) : Host.Outcome State Fault Refusal :=
  .next (raTimeout channel.val s)

end Sys2Proof.Machine
end

