-- ==== Sys2Proof/Machine/FabricRows.lean ====
section
/-!
DEFINITION. The meanings of the rows of the pace governor, the postmark and the post bus (03, 04).
-/

namespace Sys2Proof.Machine

/-- MEASUREMENT_WINDOW_END (R42). -/
def execMeasurementWindowEnd (count : Nat) (s : State) : Host.Outcome State Fault Refusal :=
  .next (windowEnd count s)

/-- TEMPERATURE_UPDATE (R52). -/
def execTemperatureUpdate (reading : Int) (s : State) : Host.Outcome State Fault Refusal :=
  .next (temperatureUpdate reading s)

/-- POSTMARK_READ (R55). -/
def execPostmarkRead (reader : Fin 256) (s : State) : Host.Outcome State Fault Refusal :=
  .next (registerRead reader.val A.SYS_PM_LO s)

/-- BANK_REQUEST (R77). -/
def execBankRequest (unit : Fin 128) (ahead : Bool) (addr : Word) (access : BusAccess) (flips : List Flip) (s : State) : Host.Outcome State Fault Refusal :=
  .next (bankRow unit.val ahead addr.toNat access flips s)

/-- ARBITRATION_PHASE (R76). -/
def execArbitrationPhase (bank : Fin 24) (s : State) : Host.Outcome State Fault Refusal :=
  .next (arbPhase bank.val s)

/-- GRANT_WITHDRAWAL (R79). -/
def execGrantWithdrawal (bank : Fin 24) (s : State) : Host.Outcome State Fault Refusal :=
  .next (grantWithdrawal bank.val s)

/-- ARB_CONFIG_WRITE (R83). -/
def execArbConfigWrite (writer : Fin 256) (unit : Fin 128) (mask : Bool) (val : Word) (s : State) : Host.Outcome State Fault Refusal :=
  .next (registerWrite writer.val (if mask then A.ARB_MASK unit.val else A.ARB_CFG unit.val) val s)

/-- PATROL_SCRUB (R65). -/
def execPatrolScrub (flips : List Flip) (s : State) : Host.Outcome State Fault Refusal :=
  .next (patrolRow flips s)

end Sys2Proof.Machine
end

