-- ==== Sys2Proof/Machine/FaultRows.lean ====
section
/-!
DEFINITION. The meanings of the rows of faults, power failure and the day book (18).
-/

namespace Sys2Proof.Machine

/-- CHECK_FAULT (R364). -/
def execCheckFault (unit : Fin 128) (code : Byte) (s : State) : Host.Outcome State Fault Refusal :=
  .next (checkFault unit.val code.toNat s)

/-- UNIT_RESET_COMPLETE (R371). -/
def execUnitResetComplete (unit : Fin 128) (s : State) : Host.Outcome State Fault Refusal :=
  .next (unitResetComplete unit.val s)

/-- FAULT_SLOT_CLEAR (R366). -/
def execFaultSlotClear (writer : Fin 256) (unit : Fin 128) (secondary : Bool) (s : State) : Host.Outcome State Fault Refusal :=
  .next (registerWrite writer.val (if secondary then A.SYS_FLT_SEC unit.val else A.SYS_FLT_PRI unit.val) 0x80000000 s)

/-- UNIT_RELEASE (R368). -/
def execUnitRelease (writer : Fin 256) (unit : Fin 128) (s : State) : Host.Outcome State Fault Refusal :=
  .next (registerWrite writer.val (A.SYS_FHELD (unit.val / 32)) (BitVec.ofNat 32 (2 ^ (unit.val % 32))) s)

/-- POWER_FAIL (R374). -/
def execPowerFail (s : State) : Host.Outcome State Fault Refusal :=
  .next (powerFail s)

/-- FLUSH_COMPLETE (R379). -/
def execFlushComplete (s : State) : Host.Outcome State Fault Refusal :=
  .next (flushComplete s)

/-- POWER_RESTORED (R375). -/
def execPowerRestored (s : State) : Host.Outcome State Fault Refusal :=
  .next (powerRestored s)

/-- DAY_BOOK_WRITE (R381). -/
def execDayBookWrite (s : State) : Host.Outcome State Fault Refusal :=
  .next (dayBookWrite s)

end Sys2Proof.Machine
end

