-- ==== Sys2Proof/Machine/HostRows.lean ====
section
/-!
DEFINITION. The meanings of the rows of the host port (14).
-/

namespace Sys2Proof.Machine

/-- RDSR (R309). -/
def execRdsr (s : State) : Host.Outcome State Fault Refusal :=
  .next (rdsr s)

/-- READ_ID (R305). -/
def execReadId (s : State) : Host.Outcome State Fault Refusal :=
  .next (readId s)

/-- READ (R306). -/
def execRead (addr : Word) (count : Nat) (late : Option Nat) (s : State) : Host.Outcome State Fault Refusal :=
  .next (hostReadCmd addr.toNat count late s)

/-- READ_Q (R306). -/
def execReadQ (addr : Word) (count : Nat) (late : Option Nat) (s : State) : Host.Outcome State Fault Refusal :=
  .next (hostReadQ addr.toNat count late s)

/-- WRITE (R308). -/
def execWrite (addr : Word) (data : List Byte) (s : State) : Host.Outcome State Fault Refusal :=
  .next (hostWrite addr.toNat data s)

/-- WRITE_Q (R308). -/
def execWriteQ (addr : Word) (data : List Byte) (s : State) : Host.Outcome State Fault Refusal :=
  .next (hostWriteQ addr.toNat data s)

/-- ENTER_QUAD (R304). -/
def execEnterQuad (s : State) : Host.Outcome State Fault Refusal :=
  .next (enterQuad s)

/-- EXIT_QUAD (R304). -/
def execExitQuad (s : State) : Host.Outcome State Fault Refusal :=
  .next (exitQuad s)

/-- RESET_EN (R305). -/
def execResetEn (s : State) : Host.Outcome State Fault Refusal :=
  .next (resetEn s)

/-- RESET (R305). -/
def execReset (s : State) : Host.Outcome State Fault Refusal :=
  .next (hostReset s)

/-- BADCMD (R305). -/
def execBadcmd (s : State) : Host.Outcome State Fault Refusal :=
  .next (badCommand s)

/-- HCS_N_RISE (R308). -/
def execHcsNRise (s : State) : Host.Outcome State Fault Refusal :=
  .next (hcsRise s)

/-- POSTED_WRITE_COMPLETE (R308). -/
def execPostedWriteComplete (count : Nat) (s : State) : Host.Outcome State Fault Refusal :=
  .next (postedComplete count s)

/-- HCS_N_FALL (R347). -/
def execHcsNFall (s : State) : Host.Outcome State Fault Refusal :=
  .next (hcsFall s)

end Sys2Proof.Machine
end

