-- ==== Sys2Proof/Machine/LedgerRows.lean ====
section
/-!
DEFINITION. The meanings of the rows of line programs and transactions of the ledger (04).
-/

namespace Sys2Proof.Machine

/-- LINE_PROGRAM_COMPLETE (R62). -/
def execLineProgramComplete (program : Program) (s : State) : Host.Outcome State Fault Refusal :=
  .next (programDone program s)

/-- TXN_OPEN (R69). -/
def execTxnOpen (writer : Fin 256) (s : State) : Host.Outcome State Fault Refusal :=
  .next (registerWrite writer.val A.LEDG_TXN 1 s)

/-- TXN_COMMIT (R70). -/
def execTxnCommit (writer : Fin 256) (s : State) : Host.Outcome State Fault Refusal :=
  .next (registerWrite writer.val A.LEDG_TXN 2 s)

/-- TXN_ABORT (R69). -/
def execTxnAbort (writer : Fin 256) (s : State) : Host.Outcome State Fault Refusal :=
  .next (registerWrite writer.val A.LEDG_TXN 3 s)

/-- COMMIT_POINT (R70). -/
def execCommitPoint (owner : Fin 128) (s : State) : Host.Outcome State Fault Refusal :=
  .next (commitPoint owner.val s)

/-- RETIRE_RECORD (R71). -/
def execRetireRecord (owner : Fin 128) (s : State) : Host.Outcome State Fault Refusal :=
  .next (retireRecord owner.val s)

end Sys2Proof.Machine
end

