-- ==== Sys2Proof/Machine/LetterRows.lean ====
section
/-!
DEFINITION. The meanings of the rows of the gatekeeper (10).
-/

namespace Sys2Proof.Machine

/-- LETTER_OFFER (R204). -/
def execLetterOffer (s : State) : Host.Outcome State Fault Refusal :=
  .next (letterOffer s)

/-- BUDGET_WRITE (R217). -/
def execBudgetWrite (writer : Fin 256) (budget : Budget) (val : Word) (s : State) : Host.Outcome State Fault Refusal :=
  .next (registerWrite writer.val (budgetAddr budget) val s)

/-- OUTBOX_POP (R222). -/
def execOutboxPop (writer : Fin 256) (count : Word) (s : State) : Host.Outcome State Fault Refusal :=
  .next (registerWrite writer.val A.GATE_OBX_POP count s)

/-- BELL_ENABLE_WRITE (R223). -/
def execBellEnableWrite (writer : Fin 256) (on : Bool) (s : State) : Host.Outcome State Fault Refusal :=
  .next (registerModify writer.val A.GATE_OBX_CTRL 0 1 (b2n on) s)

/-- REDELIVERY (R215). -/
def execRedelivery (s : State) : Host.Outcome State Fault Refusal :=
  .next (redeliver s)

/-- CLASS_WINDOW_OPEN (R215). -/
def execClassWindowOpen (cls : Fin 3) (s : State) : Host.Outcome State Fault Refusal :=
  .next (classWindowOpen (cls.val + 1) s)

end Sys2Proof.Machine
end

