-- ==== Sys2Proof/Machine/LineRows.lean ====
section
/-!
DEFINITION. The meanings of the rows of the framing of a field line (05).
-/

namespace Sys2Proof.Machine

/-- FRAME_PREBUILD (R118). -/
def execFramePrebuild (port : Fin 32) (s : State) : Host.Outcome State Fault Refusal :=
  .next (prebuild port.val s)

/-- FRAME_SEND (R90). -/
def execFrameSend (port : Fin 32) (s : State) : Host.Outcome State Fault Refusal :=
  .next (frameSend port.val s)

/-- FRAME_TX_END (R90). -/
def execFrameTxEnd (port : Fin 32) (s : State) : Host.Outcome State Fault Refusal :=
  .next (lineStep port.val .sending .lag s)

/-- DE_LAG_EXPIRY (R90). -/
def execDeLagExpiry (port : Fin 32) (s : State) : Host.Outcome State Fault Refusal :=
  .next (lineStep port.val .lag .blank s)

/-- RX_BLANK_EXPIRY (R90). -/
def execRxBlankExpiry (port : Fin 32) (s : State) : Host.Outcome State Fault Refusal :=
  .next (lineStep port.val .blank .listening s)

/-- PORT_ENABLE (R91). -/
def execPortEnable (writer : Fin 256) (port : Fin 32) (s : State) : Host.Outcome State Fault Refusal :=
  .next (registerModify writer.val (A.FL_CTRL port.val) 0 1 1 s)

/-- PORT_DISABLE (R149). -/
def execPortDisable (writer : Fin 256) (port : Fin 32) (s : State) : Host.Outcome State Fault Refusal :=
  .next (registerModify writer.val (A.FL_CTRL port.val) 0 1 0 s)

/-- BURST_RECEIVED (R107). -/
def execBurstReceived (port : Fin 32) (burst : Burst) (s : State) : Host.Outcome State Fault Refusal :=
  .next (burstReceived port.val burst s)

/-- LINE_QUIET (R96). -/
def execLineQuiet (port : Fin 32) (s : State) : Host.Outcome State Fault Refusal :=
  .next (whenHeard (lineQuiet port.val) s)

/-- NODE_MISSING (R111). -/
def execNodeMissing (port : Fin 32) (s : State) : Host.Outcome State Fault Refusal :=
  .next (nodeMissing port.val s)

/-- EXCHANGE_END (R111). -/
def execExchangeEnd (port : Fin 32) (s : State) : Host.Outcome State Fault Refusal :=
  .next (exchangeEnd port.val s)

/-- EXCHANGE_CUT_OFF (R125). -/
def execExchangeCutOff (port : Fin 32) (s : State) : Host.Outcome State Fault Refusal :=
  .next (exchangeCutOff port.val s)

/-- LINE_FAULT (R113). -/
def execLineFault (port : Fin 32) (s : State) : Host.Outcome State Fault Refusal :=
  .next (whenHeard (lineFault port.val) s)

/-- LINE_FAULT_CLEARED (R137). -/
def execLineFaultCleared (port : Fin 32) (s : State) : Host.Outcome State Fault Refusal :=
  .next (whenHeard (lineFaultCleared port.val) s)

end Sys2Proof.Machine
end

