-- ==== Sys2Proof/Machine/LinkRows.lean ====
section
/-!
DEFINITION. The meanings of the rows of the states of a Birmo link (13).
-/

namespace Sys2Proof.Machine

/-- PRESENCE_DETECTED (R278). -/
def execPresenceDetected (link : Fin 4) (s : State) : Host.Outcome State Fault Refusal :=
  .next (whenPowered (presenceDetected link.val) s)

/-- PRESENCE_LOST (R278). -/
def execPresenceLost (link : Fin 4) (s : State) : Host.Outcome State Fault Refusal :=
  .next (whenPowered (presenceLost link.val) s)

/-- TRAINING_COMPLETE (R278). -/
def execTrainingComplete (link : Fin 4) (uid : BitVec 64) (s : State) : Host.Outcome State Fault Refusal :=
  .next (trainingComplete link.val uid.toNat s)

/-- TRAINING_TIMEOUT (R278). -/
def execTrainingTimeout (link : Fin 4) (s : State) : Host.Outcome State Fault Refusal :=
  .next (trainingTimeout link.val s)

/-- WORD_LOCK_LOSS (R278). -/
def execWordLockLoss (link : Fin 4) (s : State) : Host.Outcome State Fault Refusal :=
  .next (wordLockLoss link.val s)

/-- LINK_FRAME_BOUNDARY (R282). -/
def execLinkFrameBoundary (link : Fin 4) (frac : BitVec 24) (s : State) : Host.Outcome State Fault Refusal :=
  .next (linkFrameBoundary link.val frac.toNat s)

/-- TRAINING_PAUSE_END (R278). -/
def execTrainingPauseEnd (link : Fin 4) (s : State) : Host.Outcome State Fault Refusal :=
  .next (trainingPauseEnd link.val s)

/-- WORD_LOCK_GAINED (R278). -/
def execWordLockGained (link : Fin 4) (s : State) : Host.Outcome State Fault Refusal :=
  .next (wordLockGained link.val s)

end Sys2Proof.Machine
end

