-- ==== Sys2Proof/Machine/PowerRows.lean ====
section
/-!
DEFINITION. The meanings of the rows of power states, resets, start-up, comparators and the hold-up supply (16, 17, 20).
-/

namespace Sys2Proof.Machine

/-- ENTRY_ABORT (R346). -/
def execEntryAbort (busy : Option (Fin 128)) (s : State) : Host.Outcome State Fault Refusal :=
  .next (entryAbort (busy.map (·.val)) s)

/-- POWER_DOWN (R346). -/
def execPowerDown (s : State) : Host.Outcome State Fault Refusal :=
  .next (powerDown s)

/-- COMPARATOR_TRIP (R348). -/
def execComparatorTrip (comparator : Fin 4) (s : State) : Host.Outcome State Fault Refusal :=
  .next (comparatorTrip comparator.val s)

/-- POWER_ON_RESET (R353). -/
def execPowerOnReset (s : State) : Host.Outcome State Fault Refusal :=
  .next (powerOnReset s)

/-- POWER_UP (R356). -/
def execPowerUp (s : State) : Host.Outcome State Fault Refusal :=
  .next (powerUp s)

/-- RESET_PIN (R354). -/
def execResetPin (s : State) : Host.Outcome State Fault Refusal :=
  .next (resetPin s)

/-- RESET_RELEASE (R354). -/
def execResetRelease (s : State) : Host.Outcome State Fault Refusal :=
  .next (resetRelease s)

/-- SOFT_RESET (R353). -/
def execSoftReset (writer : Fin 256) (s : State) : Host.Outcome State Fault Refusal :=
  .next (registerWrite writer.val A.SYS_RST 0xC0DE s)

/-- TAP_RESET (R353). -/
def execTapReset (s : State) : Host.Outcome State Fault Refusal :=
  .next (tapReset s)

/-- REGULATOR_READY (R356). -/
def execRegulatorReady (s : State) : Host.Outcome State Fault Refusal :=
  .next (regulatorReady s)

/-- OSCILLATOR_READY (R356). -/
def execOscillatorReady (s : State) : Host.Outcome State Fault Refusal :=
  .next (oscillatorReady s)

/-- STRAP_SAMPLE (R357). -/
def execStrapSample (boot : Fin 8) (head : Bool) (standby : Bool) (adr0 : Fin 3) (adr1 : Fin 3) (adr2 : Fin 3) (s : State) : Host.Outcome State Fault Refusal :=
  .next (strapSample boot.val head standby adr0.val adr1.val adr2.val s)

/-- MEMORY_READY (R356). -/
def execMemoryReady (s : State) : Host.Outcome State Fault Refusal :=
  .next (memoryReady s)

/-- SYSTEM_RECORDS_READY (R356). -/
def execSystemRecordsReady (s : State) : Host.Outcome State Fault Refusal :=
  .next (recordsReady s)

/-- LOGIC_READY (R359). -/
def execLogicReady (s : State) : Host.Outcome State Fault Refusal :=
  .next (logicReady s)

/-- POWER_STAGE_TIMEOUT (R349). -/
def execPowerStageTimeout (s : State) : Host.Outcome State Fault Refusal :=
  .next (stageTimeout s)

/-- XLO_STABLE (R356). -/
def execXloStable (s : State) : Host.Outcome State Fault Refusal :=
  .next (xloStable s)

/-- COMPARATOR_WAKE_SIDE_LEFT (R348). -/
def execComparatorWakeSideLeft (comparator : Fin 4) (s : State) : Host.Outcome State Fault Refusal :=
  .next (comparatorLeft comparator.val s)

/-- HOLD_UPDATE (R408). -/
def execHoldUpdate (vhold : Nat) (vio33 : Nat) (s : State) : Host.Outcome State Fault Refusal :=
  .next (holdUpdate vhold vio33 s)

end Sys2Proof.Machine
end

