-- ==== Sys2Proof/Machine/RoundRows.lean ====
section
/-!
DEFINITION. The meanings of the rows of rounds, walk-outs, fences and the mailbox (06).
-/

namespace Sys2Proof.Machine

/-- ROUND_CONVERT (R116). -/
def execRoundConvert (port : Fin 32) (s : State) : Host.Outcome State Fault Refusal :=
  .next (beginRound port.val .convert s)

/-- ROUND_READ (R116). -/
def execRoundRead (port : Fin 32) (s : State) : Host.Outcome State Fault Refusal :=
  .next (beginRound port.val .read s)

/-- ROUND_LETTERBOX (R123). -/
def execRoundLetterbox (port : Fin 32) (s : State) : Host.Outcome State Fault Refusal :=
  .next (beginRound port.val .letterbox s)

/-- ROUND_ENROL (R129). -/
def execRoundEnrol (port : Fin 32) (s : State) : Host.Outcome State Fault Refusal :=
  .next (beginRound port.val .enrol s)

/-- ROUND_MAINT (R116). -/
def execRoundMaint (port : Fin 32) (s : State) : Host.Outcome State Fault Refusal :=
  .next (beginRound port.val .maint s)

/-- ROUND_BOUNDARY (R117). -/
def execRoundBoundary (port : Fin 32) (s : State) : Host.Outcome State Fault Refusal :=
  .next (roundBoundary port.val s)

/-- COMMAND_WAIT_END (R134). -/
def execCommandWaitEnd (port : Fin 32) (s : State) : Host.Outcome State Fault Refusal :=
  .next (commandWaitEnd port.val s)

/-- AUTO_RESTART_EXPIRY (R137). -/
def execAutoRestartExpiry (port : Fin 32) (s : State) : Host.Outcome State Fault Refusal :=
  .next (autoRestart port.val s)

/-- PORT_RESTART (R137). -/
def execPortRestart (writer : Fin 256) (port : Fin 32) (s : State) : Host.Outcome State Fault Refusal :=
  .next (registerWrite writer.val (A.FL_RCTRL port.val) 1 s)

/-- CLOSE_WAIT_EXPIRY (R138). -/
def execCloseWaitExpiry (port : Fin 32) (s : State) : Host.Outcome State Fault Refusal :=
  .next (closeWaitExpiry port.val s)

/-- FENCE_WRITE (R135). -/
def execFenceWrite (writer : Fin 256) (port : Fin 32) (fence : Fin 8) (val : Word) (s : State) : Host.Outcome State Fault Refusal :=
  .next (registerWrite writer.val (A.FL_FENCE port.val fence.val) val s)

/-- MAILBOX_WRITE (R140). -/
def execMailboxWrite (writer : Fin 256) (port : Fin 32) (val : Word) (s : State) : Host.Outcome State Fault Refusal :=
  .next (registerWrite writer.val (A.FL_MBOX port.val) val s)

end Sys2Proof.Machine
end

