-- ==== Sys2Proof/Machine/RouteMapRows.lean ====
section
/-!
DEFINITION. The meanings of the rows of register writes in general and the route map (00, 02).
-/

namespace Sys2Proof.Machine

/-- REGISTER_WRITE (R2). -/
def execRegisterWrite (writer : Fin 256) (addr : Word) (val : Word) (other : Option (Fin 256 × Word × Word)) (s : State) : Host.Outcome State Fault Refusal :=
  .next (registerWrites writer.val addr.toNat val (other.map (fun o => (o.1.val, o.2.1.toNat, o.2.2))) s)

/-- RMAP_APPLY (R35). -/
def execRmapApply (writer : Fin 256) (s : State) : Host.Outcome State Fault Refusal :=
  .next (registerWrite writer.val A.SYS_RMAP_CTRL 1 s)

/-- RMAP_CHECK (R33). -/
def execRmapCheck (writer : Fin 256) (s : State) : Host.Outcome State Fault Refusal :=
  .next (registerWrite writer.val A.SYS_RMAP_CTRL 2 s)

/-- RMAP_CHECK_A (R33). -/
def execRmapCheckA (writer : Fin 256) (s : State) : Host.Outcome State Fault Refusal :=
  .next (registerWrite writer.val A.SYS_RMAP_CTRL 3 s)

/-- RMAP_CHECK_B (R33). -/
def execRmapCheckB (writer : Fin 256) (s : State) : Host.Outcome State Fault Refusal :=
  .next (registerWrite writer.val A.SYS_RMAP_CTRL 4 s)

/-- RMAP_LOAD_A (R31). -/
def execRmapLoadA (writer : Fin 256) (s : State) : Host.Outcome State Fault Refusal :=
  .next (registerWrite writer.val A.SYS_RMAP_CTRL 5 s)

/-- RMAP_LOAD_B (R31). -/
def execRmapLoadB (writer : Fin 256) (s : State) : Host.Outcome State Fault Refusal :=
  .next (registerWrite writer.val A.SYS_RMAP_CTRL 6 s)

/-- APPLY_POINT (R35). -/
def execApplyPoint (s : State) : Host.Outcome State Fault Refusal :=
  .next (applyPoint s)

/-- RMAP_COMMAND_DONE (R33). -/
def execRmapCommandDone (s : State) : Host.Outcome State Fault Refusal :=
  .next (rmapDone s)

end Sys2Proof.Machine
end

