-- ==== Sys2Proof/Machine/TapRows.lean ====
section
/-!
DEFINITION. The meanings of the rows of the test access port (11, 19).
-/

namespace Sys2Proof.Machine

/-- CORE_SEL (R252). -/
def execCoreSel (unit : Byte) (s : State) : Host.Outcome State Fault Refusal :=
  .next (tapCoreSel unit.toNat s)

/-- CORE_HALT (R252). -/
def execCoreHalt (s : State) : Host.Outcome State Fault Refusal :=
  .next (tapCoreHalt s)

/-- CORE_STEP (R252). -/
def execCoreStep (s : State) : Host.Outcome State Fault Refusal :=
  .next (tapCoreStep s)

/-- CORE_RESUME (R252). -/
def execCoreResume (s : State) : Host.Outcome State Fault Refusal :=
  .next (tapCoreResume s)

/-- CORE_REGS (R252). -/
def execCoreRegs (regs : Option (BitVec 128)) (s : State) : Host.Outcome State Fault Refusal :=
  .next (tapCoreRegs regs s)

/-- IDCODE (R398). -/
def execIdcode (s : State) : Host.Outcome State Fault Refusal :=
  .next (tapIdcode s)

/-- SAMPLE_PRELOAD (R398). -/
def execSamplePreload (levels : List Bool) (load : Option (List Bool)) (s : State) : Host.Outcome State Fault Refusal :=
  .next (tapSample levels load s)

/-- EXTEST (R398). -/
def execExtest (levels : List Bool) (load : Option (List Bool)) (s : State) : Host.Outcome State Fault Refusal :=
  .next (tapExtest levels load s)

/-- HIGHZ (R398). -/
def execHighz (s : State) : Host.Outcome State Fault Refusal :=
  .next (tapHighz s)

/-- CLAMP (R398). -/
def execClamp (s : State) : Host.Outcome State Fault Refusal :=
  .next (tapClamp s)

/-- BYPASS (R398). -/
def execBypass (s : State) : Host.Outcome State Fault Refusal :=
  .next (tapBypass s)

end Sys2Proof.Machine
end

