-- ==== Sys2Proof/Machine/TimerRows.lean ====
section
/-!
DEFINITION. The meanings of the rows of timers and capture (15).
-/

namespace Sys2Proof.Machine

/-- TIMER_MATCH (R325). -/
def execTimerMatch (unit : Fin 16) (chB : Bool) (s : State) : Host.Outcome State Fault Refusal :=
  .next (timerMatch unit.val chB s)

/-- TIMER_WRAP (R326). -/
def execTimerWrap (unit : Fin 16) (s : State) : Host.Outcome State Fault Refusal :=
  .next (timerWrap unit.val s)

/-- CAPTURE_EDGE (R330). -/
def execCaptureEdge (unit : Fin 16) (chB : Bool) (rising : Bool) (s : State) : Host.Outcome State Fault Refusal :=
  .next (captureEdge unit.val chB rising s)

/-- CAPTURE_READ (R330). -/
def execCaptureRead (reader : Fin 256) (unit : Fin 16) (chB : Bool) (s : State) : Host.Outcome State Fault Refusal :=
  .next (registerRead reader.val (if chB then A.TMR_CAPB unit.val else A.TMR_CAPA unit.val) s)

/-- COMPARE_PRELOAD_WRITE (R327). -/
def execComparePreloadWrite (writer : Fin 256) (unit : Fin 16) (preload : Preload) (val : Word) (s : State) : Host.Outcome State Fault Refusal :=
  .next (registerWrite writer.val (preloadAddr unit.val preload) val s)

/-- CMP_LOAD (R328). -/
def execCmpLoad (writer : Fin 256) (unit : Fin 16) (chB : Bool) (s : State) : Host.Outcome State Fault Refusal :=
  .next (registerWrite writer.val (A.TMR_CMD unit.val) (if chB then 2 else 1) s)

/-- OUTPUT_FORCE (R329). -/
def execOutputForce (writer : Fin 256) (unit : Fin 16) (chB : Bool) (code : Fin 4) (s : State) : Host.Outcome State Fault Refusal :=
  .next (registerWrite writer.val (A.TMR_CMD unit.val) (BitVec.ofNat 32 (code.val * (if chB then 64 else 16))) s)

/-- TIMER_START (R332). -/
def execTimerStart (writer : Fin 256) (unit : Fin 16) (s : State) : Host.Outcome State Fault Refusal :=
  .next (registerModify writer.val (A.TMR_CTRL unit.val) 0 1 1 s)

/-- TIMER_STOP (R332). -/
def execTimerStop (writer : Fin 256) (unit : Fin 16) (s : State) : Host.Outcome State Fault Refusal :=
  .next (registerModify writer.val (A.TMR_CTRL unit.val) 0 1 0 s)

end Sys2Proof.Machine
end

