-- ==== Sys2Proof/Machine/TimetableRows.lean ====
section
/-!
DEFINITION. The meanings of the rows of the sequencer (07).
-/

namespace Sys2Proof.Machine

/-- PASS_GATE_OPEN (R146). -/
def execPassGateOpen (port : Fin 32) (s : State) : Host.Outcome State Fault Refusal :=
  .next (gateOpen port.val s)

/-- TT_RUN_SET (R149). -/
def execTtRunSet (writer : Fin 256) (s : State) : Host.Outcome State Fault Refusal :=
  .next (registerModify writer.val A.TT_CTRL 16 1 1 s)

/-- TT_RUN_CLEAR (R149). -/
def execTtRunClear (writer : Fin 256) (s : State) : Host.Outcome State Fault Refusal :=
  .next (registerModify writer.val A.TT_CTRL 16 1 0 s)

/-- TT_AHEAD_WRITE (R148). -/
def execTtAheadWrite (writer : Fin 256) (ahead : Fin 16) (s : State) : Host.Outcome State Fault Refusal :=
  .next (registerModify writer.val A.TT_CTRL 8 4 ahead.val s)

/-- SLOT_WRITE (R150). -/
def execSlotWrite (writer : Fin 256) (hi : Word) (s : State) : Host.Outcome State Fault Refusal :=
  .next (registerWrite writer.val A.TT_WDATA_HI hi s)

/-- SLOT_READ (R150). -/
def execSlotRead (reader : Fin 256) (s : State) : Host.Outcome State Fault Refusal :=
  .next (registerRead reader.val A.TT_RDATA_HI s)

/-- TIMETABLE_COPY (R150). -/
def execTimetableCopy (writer : Fin 256) (s : State) : Host.Outcome State Fault Refusal :=
  .next (registerWrite writer.val A.TT_CMD 2 s)

/-- COPY_COMPLETE (R150). -/
def execCopyComplete (s : State) : Host.Outcome State Fault Refusal :=
  .next (copyComplete s)

/-- TIMETABLE_SWAP (R151). -/
def execTimetableSwap (writer : Fin 256) (s : State) : Host.Outcome State Fault Refusal :=
  .next (registerWrite writer.val A.TT_CMD 1 s)

/-- SLOT_EDIT (R153). -/
def execSlotEdit (writer : Fin 256) (hi : Word) (s : State) : Host.Outcome State Fault Refusal :=
  .next (registerWrite writer.val A.TT_EDIT_HI hi s)

end Sys2Proof.Machine
end

