-- ==== Sys2Proof/Machine/TrendRows.lean ====
section
/-!
DEFINITION. The meanings of the rows of the trend unit (08).
-/

namespace Sys2Proof.Machine

/-- TREND_READING (R173). -/
def execTrendReading (port : Fin 32) (s : State) : Host.Outcome State Fault Refusal :=
  .next (trendReading port.val s)

/-- FIELD_REPORT (R177). -/
def execFieldReport (port : Fin 32) (s : State) : Host.Outcome State Fault Refusal :=
  .next (trendReport port.val s)

end Sys2Proof.Machine
end

