-- ==== Sys2Proof/Machine/TwpRows.lean ====
section
/-!
DEFINITION. The meanings of the rows of the management port (14).
-/

namespace Sys2Proof.Machine

/-- TWP_START (R320). -/
def execTwpStart (misplaced : Bool) (s : State) : Host.Outcome State Fault Refusal :=
  .next (twpStart misplaced s)

/-- TWP_ADDRESS (R311). -/
def execTwpAddress (byte : Byte) (s : State) : Host.Outcome State Fault Refusal :=
  .next (twpAddress byte s)

/-- ALERT_RESPONSE (R318). -/
def execAlertResponse (others : List (Byte × Byte)) (s : State) : Host.Outcome State Fault Refusal :=
  .next (alertResponse others s)

/-- TWP_WRITE_BYTE (R312). -/
def execTwpWriteByte (byte : Byte) (s : State) : Host.Outcome State Fault Refusal :=
  .next (twpWriteByte byte s)

/-- TWP_READ_BYTE (R313). -/
def execTwpReadByte (ready : Bool) (ack : Bool) (s : State) : Host.Outcome State Fault Refusal :=
  .next (twpReadByte ready ack s)

/-- TWP_STOP (R316). -/
def execTwpStop (misplaced : Bool) (s : State) : Host.Outcome State Fault Refusal :=
  .next (twpStop misplaced s)

/-- TWP_TIMEOUT (R320). -/
def execTwpTimeout (s : State) : Host.Outcome State Fault Refusal :=
  .next (twpTimeout s)

end Sys2Proof.Machine
end

