-- ==== Sys2Proof/Machine/Dispatch.lean ====
section
/-!
DEFINITION. Which meaning each command has: one arm per row of the table, in its order.
-/

namespace Sys2Proof.Machine

def exec (i : Instr) (s : State) : Host.Outcome State Fault Refusal :=
  match i with
  | .registerWrite writer addr val other => Sys2Proof.Machine.execRegisterWrite writer addr val other s
  | .rmapApply writer => Sys2Proof.Machine.execRmapApply writer s
  | .rmapCheck writer => Sys2Proof.Machine.execRmapCheck writer s
  | .rmapCheckA writer => Sys2Proof.Machine.execRmapCheckA writer s
  | .rmapCheckB writer => Sys2Proof.Machine.execRmapCheckB writer s
  | .rmapLoadA writer => Sys2Proof.Machine.execRmapLoadA writer s
  | .rmapLoadB writer => Sys2Proof.Machine.execRmapLoadB writer s
  | .applyPoint => Sys2Proof.Machine.execApplyPoint s
  | .rmapCommandDone => Sys2Proof.Machine.execRmapCommandDone s
  | .measurementWindowEnd count => Sys2Proof.Machine.execMeasurementWindowEnd count s
  | .temperatureUpdate reading => Sys2Proof.Machine.execTemperatureUpdate reading s
  | .postmarkRead reader => Sys2Proof.Machine.execPostmarkRead reader s
  | .bankRequest unit ahead addr access flips => Sys2Proof.Machine.execBankRequest unit ahead addr access flips s
  | .arbitrationPhase bank => Sys2Proof.Machine.execArbitrationPhase bank s
  | .grantWithdrawal bank => Sys2Proof.Machine.execGrantWithdrawal bank s
  | .arbConfigWrite writer unit mask val => Sys2Proof.Machine.execArbConfigWrite writer unit mask val s
  | .patrolScrub flips => Sys2Proof.Machine.execPatrolScrub flips s
  | .lineProgramComplete program => Sys2Proof.Machine.execLineProgramComplete program s
  | .txnOpen writer => Sys2Proof.Machine.execTxnOpen writer s
  | .txnCommit writer => Sys2Proof.Machine.execTxnCommit writer s
  | .txnAbort writer => Sys2Proof.Machine.execTxnAbort writer s
  | .commitPoint owner => Sys2Proof.Machine.execCommitPoint owner s
  | .retireRecord owner => Sys2Proof.Machine.execRetireRecord owner s
  | .framePrebuild port => Sys2Proof.Machine.execFramePrebuild port s
  | .frameSend port => Sys2Proof.Machine.execFrameSend port s
  | .frameTxEnd port => Sys2Proof.Machine.execFrameTxEnd port s
  | .deLagExpiry port => Sys2Proof.Machine.execDeLagExpiry port s
  | .rxBlankExpiry port => Sys2Proof.Machine.execRxBlankExpiry port s
  | .portEnable writer port => Sys2Proof.Machine.execPortEnable writer port s
  | .portDisable writer port => Sys2Proof.Machine.execPortDisable writer port s
  | .burstReceived port burst => Sys2Proof.Machine.execBurstReceived port burst s
  | .lineQuiet port => Sys2Proof.Machine.execLineQuiet port s
  | .nodeMissing port => Sys2Proof.Machine.execNodeMissing port s
  | .exchangeEnd port => Sys2Proof.Machine.execExchangeEnd port s
  | .exchangeCutOff port => Sys2Proof.Machine.execExchangeCutOff port s
  | .lineFault port => Sys2Proof.Machine.execLineFault port s
  | .lineFaultCleared port => Sys2Proof.Machine.execLineFaultCleared port s
  | .roundConvert port => Sys2Proof.Machine.execRoundConvert port s
  | .roundRead port => Sys2Proof.Machine.execRoundRead port s
  | .roundLetterbox port => Sys2Proof.Machine.execRoundLetterbox port s
  | .roundEnrol port => Sys2Proof.Machine.execRoundEnrol port s
  | .roundMaint port => Sys2Proof.Machine.execRoundMaint port s
  | .roundBoundary port => Sys2Proof.Machine.execRoundBoundary port s
  | .commandWaitEnd port => Sys2Proof.Machine.execCommandWaitEnd port s
  | .autoRestartExpiry port => Sys2Proof.Machine.execAutoRestartExpiry port s
  | .portRestart writer port => Sys2Proof.Machine.execPortRestart writer port s
  | .closeWaitExpiry port => Sys2Proof.Machine.execCloseWaitExpiry port s
  | .fenceWrite writer port fence val => Sys2Proof.Machine.execFenceWrite writer port fence val s
  | .mailboxWrite writer port val => Sys2Proof.Machine.execMailboxWrite writer port val s
  | .passGateOpen port => Sys2Proof.Machine.execPassGateOpen port s
  | .ttRunSet writer => Sys2Proof.Machine.execTtRunSet writer s
  | .ttRunClear writer => Sys2Proof.Machine.execTtRunClear writer s
  | .ttAheadWrite writer ahead => Sys2Proof.Machine.execTtAheadWrite writer ahead s
  | .slotWrite writer hi => Sys2Proof.Machine.execSlotWrite writer hi s
  | .slotRead reader => Sys2Proof.Machine.execSlotRead reader s
  | .timetableCopy writer => Sys2Proof.Machine.execTimetableCopy writer s
  | .copyComplete => Sys2Proof.Machine.execCopyComplete s
  | .timetableSwap writer => Sys2Proof.Machine.execTimetableSwap writer s
  | .slotEdit writer hi => Sys2Proof.Machine.execSlotEdit writer hi s
  | .trendReading port => Sys2Proof.Machine.execTrendReading port s
  | .fieldReport port => Sys2Proof.Machine.execFieldReport port s
  | .chainOutput chain bits => Sys2Proof.Machine.execChainOutput chain bits s
  | .sampleHandoff chain => Sys2Proof.Machine.execSampleHandoff chain s
  | .sourceOverload source => Sys2Proof.Machine.execSourceOverload source s
  | .overloadEnd source => Sys2Proof.Machine.execOverloadEnd source s
  | .chainStart writer chain => Sys2Proof.Machine.execChainStart writer chain s
  | .chainStop writer chain => Sys2Proof.Machine.execChainStop writer chain s
  | .coefWrite writer chain val => Sys2Proof.Machine.execCoefWrite writer chain val s
  | .coefRead reader chain => Sys2Proof.Machine.execCoefRead reader chain s
  | .sourceModWrite writer source val => Sys2Proof.Machine.execSourceModWrite writer source val s
  | .chainSourceWrite writer chain val => Sys2Proof.Machine.execChainSourceWrite writer chain val s
  | .lastOutputRead reader chain => Sys2Proof.Machine.execLastOutputRead reader chain s
  | .letterOffer => Sys2Proof.Machine.execLetterOffer s
  | .budgetWrite writer budget val => Sys2Proof.Machine.execBudgetWrite writer budget val s
  | .outboxPop writer count => Sys2Proof.Machine.execOutboxPop writer count s
  | .bellEnableWrite writer on => Sys2Proof.Machine.execBellEnableWrite writer on s
  | .redelivery => Sys2Proof.Machine.execRedelivery s
  | .nop core => Sys2Proof.Machine.execNop core s
  | .wait core => Sys2Proof.Machine.execWait core s
  | .waitResume core => Sys2Proof.Machine.execWaitResume core s
  | .ret core => Sys2Proof.Machine.execRet core s
  | .rti core => Sys2Proof.Machine.execRti core s
  | .setf core => Sys2Proof.Machine.execSetf core s
  | .clrf core => Sys2Proof.Machine.execClrf core s
  | .add core => Sys2Proof.Machine.execAdd core s
  | .adc core => Sys2Proof.Machine.execAdc core s
  | .sub core => Sys2Proof.Machine.execSub core s
  | .sbc core => Sys2Proof.Machine.execSbc core s
  | .and core => Sys2Proof.Machine.execAnd core s
  | .or core => Sys2Proof.Machine.execOr core s
  | .xor core => Sys2Proof.Machine.execXor core s
  | .cmp core => Sys2Proof.Machine.execCmp core s
  | .lda core => Sys2Proof.Machine.execLda core s
  | .sta core => Sys2Proof.Machine.execSta core s
  | .ldx core => Sys2Proof.Machine.execLdx core s
  | .stx core => Sys2Proof.Machine.execStx core s
  | .ldy core => Sys2Proof.Machine.execLdy core s
  | .sty core => Sys2Proof.Machine.execSty core s
  | .tax core => Sys2Proof.Machine.execTax core s
  | .tay core => Sys2Proof.Machine.execTay core s
  | .tya core => Sys2Proof.Machine.execTya core s
  | .txy core => Sys2Proof.Machine.execTxy core s
  | .tyx core => Sys2Proof.Machine.execTyx core s
  | .inc core => Sys2Proof.Machine.execInc core s
  | .dec core => Sys2Proof.Machine.execDec core s
  | .shl core => Sys2Proof.Machine.execShl core s
  | .shr core => Sys2Proof.Machine.execShr core s
  | .sar core => Sys2Proof.Machine.execSar core s
  | .rol core => Sys2Proof.Machine.execRol core s
  | .ror core => Sys2Proof.Machine.execRor core s
  | .not core => Sys2Proof.Machine.execNot core s
  | .neg core => Sys2Proof.Machine.execNeg core s
  | .mul core => Sys2Proof.Machine.execMul core s
  | .cpx core => Sys2Proof.Machine.execCpx core s
  | .cpy core => Sys2Proof.Machine.execCpy core s
  | .tst core => Sys2Proof.Machine.execTst core s
  | .incw core => Sys2Proof.Machine.execIncw core s
  | .decw core => Sys2Proof.Machine.execDecw core s
  | .ldp core => Sys2Proof.Machine.execLdp core s
  | .ldq core => Sys2Proof.Machine.execLdq core s
  | .stp core => Sys2Proof.Machine.execStp core s
  | .stq core => Sys2Proof.Machine.execStq core s
  | .addp core => Sys2Proof.Machine.execAddp core s
  | .addq core => Sys2Proof.Machine.execAddq core s
  | .xpq core => Sys2Proof.Machine.execXpq core s
  | .ldsp core => Sys2Proof.Machine.execLdsp core s
  | .tsp core => Sys2Proof.Machine.execTsp core s
  | .tps core => Sys2Proof.Machine.execTps core s
  | .txap core => Sys2Proof.Machine.execTxap core s
  | .tpxa core => Sys2Proof.Machine.execTpxa core s
  | .ldc core => Sys2Proof.Machine.execLdc core s
  | .txac core => Sys2Proof.Machine.execTxac core s
  | .loop core => Sys2Proof.Machine.execLoop core s
  | .tcxa core => Sys2Proof.Machine.execTcxa core s
  | .push core => Sys2Proof.Machine.execPush core s
  | .pull core => Sys2Proof.Machine.execPull core s
  | .cpp core => Sys2Proof.Machine.execCpp core s
  | .cpq core => Sys2Proof.Machine.execCpq core s
  | .branch core => Sys2Proof.Machine.execBranch core s
  | .jmp core => Sys2Proof.Machine.execJmp core s
  | .call core => Sys2Proof.Machine.execCall core s
  | .movb core => Sys2Proof.Machine.execMovb core s
  | .fill core => Sys2Proof.Machine.execFill core s
  | .scan core => Sys2Proof.Machine.execScan core s
  | .cmpb core => Sys2Proof.Machine.execCmpb core s
  | .lodb core => Sys2Proof.Machine.execLodb core s
  | .adcb core => Sys2Proof.Machine.execAdcb core s
  | .sbcb core => Sys2Proof.Machine.execSbcb core s
  | .rpt core reps => Sys2Proof.Machine.execRpt core reps s
  | .undefinedOpcode core => Sys2Proof.Machine.execUndefinedOpcode core s
  | .eventInterrupt core => Sys2Proof.Machine.execEventInterrupt core s
  | .eventRecordArrival core record => Sys2Proof.Machine.execEventRecordArrival core record s
  | .coreStart writer core => Sys2Proof.Machine.execCoreStart writer core s
  | .coreStop writer core => Sys2Proof.Machine.execCoreStop writer core s
  | .coreFresh writer core => Sys2Proof.Machine.execCoreFresh writer core s
  | .coreMemoryWrite writer core val => Sys2Proof.Machine.execCoreMemoryWrite writer core val s
  | .coreMemoryRead reader core => Sys2Proof.Machine.execCoreMemoryRead reader core s
  | .coreSel unit => Sys2Proof.Machine.execCoreSel unit s
  | .coreHalt => Sys2Proof.Machine.execCoreHalt s
  | .coreStep => Sys2Proof.Machine.execCoreStep s
  | .coreResume => Sys2Proof.Machine.execCoreResume s
  | .coreRegs regs => Sys2Proof.Machine.execCoreRegs regs s
  | .presenceDetected link => Sys2Proof.Machine.execPresenceDetected link s
  | .presenceLost link => Sys2Proof.Machine.execPresenceLost link s
  | .trainingComplete link uid => Sys2Proof.Machine.execTrainingComplete link uid s
  | .trainingTimeout link => Sys2Proof.Machine.execTrainingTimeout link s
  | .wordLockLoss link => Sys2Proof.Machine.execWordLockLoss link s
  | .linkFrameBoundary link frac => Sys2Proof.Machine.execLinkFrameBoundary link frac s
  | .letter link frame => Sys2Proof.Machine.execLetter link frame s
  | .ack link frame => Sys2Proof.Machine.execAck link frame s
  | .hello link frame => Sys2Proof.Machine.execHello link frame s
  | .enrol link frame => Sys2Proof.Machine.execEnrol link frame s
  | .welcome link frame => Sys2Proof.Machine.execWelcome link frame s
  | .leave link frame => Sys2Proof.Machine.execLeave link frame s
  | .pathLost link frame => Sys2Proof.Machine.execPathLost link frame s
  | .pathStands link frame => Sys2Proof.Machine.execPathStands link frame s
  | .pathRestored link frame => Sys2Proof.Machine.execPathRestored link frame s
  | .pathNewhead link frame => Sys2Proof.Machine.execPathNewhead link frame s
  | .syncTimer link => Sys2Proof.Machine.execSyncTimer link s
  | .sync link frac frame => Sys2Proof.Machine.execSync link frac frame s
  | .dreq link frac frame => Sys2Proof.Machine.execDreq link frac frame s
  | .dresp link frame => Sys2Proof.Machine.execDresp link frame s
  | .raReq link frame => Sys2Proof.Machine.execRaReq link frame s
  | .raResp link frame => Sys2Proof.Machine.execRaResp link frame s
  | .idmir link complete frame => Sys2Proof.Machine.execIdmir link complete frame s
  | .syncTimeout => Sys2Proof.Machine.execSyncTimeout s
  | .outageHoldExpiry link => Sys2Proof.Machine.execOutageHoldExpiry link s
  | .enrolTimeout => Sys2Proof.Machine.execEnrolTimeout s
  | .enrolRetry => Sys2Proof.Machine.execEnrolRetry s
  | .reenrol writer => Sys2Proof.Machine.execReenrol writer s
  | .resync writer => Sys2Proof.Machine.execResync writer s
  | .linkDownWrite writer link down => Sys2Proof.Machine.execLinkDownWrite writer link down s
  | .raRead writer wordsM1 => Sys2Proof.Machine.execRaRead writer wordsM1 s
  | .raWrite writer wordsM1 => Sys2Proof.Machine.execRaWrite writer wordsM1 s
  | .raTimeout channel => Sys2Proof.Machine.execRaTimeout channel s
  | .rdsr => Sys2Proof.Machine.execRdsr s
  | .readId => Sys2Proof.Machine.execReadId s
  | .read addr count late => Sys2Proof.Machine.execRead addr count late s
  | .readQ addr count late => Sys2Proof.Machine.execReadQ addr count late s
  | .write addr data => Sys2Proof.Machine.execWrite addr data s
  | .writeQ addr data => Sys2Proof.Machine.execWriteQ addr data s
  | .enterQuad => Sys2Proof.Machine.execEnterQuad s
  | .exitQuad => Sys2Proof.Machine.execExitQuad s
  | .resetEn => Sys2Proof.Machine.execResetEn s
  | .reset => Sys2Proof.Machine.execReset s
  | .badcmd => Sys2Proof.Machine.execBadcmd s
  | .hcsNRise => Sys2Proof.Machine.execHcsNRise s
  | .postedWriteComplete count => Sys2Proof.Machine.execPostedWriteComplete count s
  | .twpStart misplaced => Sys2Proof.Machine.execTwpStart misplaced s
  | .twpAddress byte => Sys2Proof.Machine.execTwpAddress byte s
  | .alertResponse others => Sys2Proof.Machine.execAlertResponse others s
  | .twpWriteByte byte => Sys2Proof.Machine.execTwpWriteByte byte s
  | .twpReadByte ready ack => Sys2Proof.Machine.execTwpReadByte ready ack s
  | .twpStop misplaced => Sys2Proof.Machine.execTwpStop misplaced s
  | .twpTimeout => Sys2Proof.Machine.execTwpTimeout s
  | .timerMatch unit chB => Sys2Proof.Machine.execTimerMatch unit chB s
  | .timerWrap unit => Sys2Proof.Machine.execTimerWrap unit s
  | .captureEdge unit chB rising => Sys2Proof.Machine.execCaptureEdge unit chB rising s
  | .captureRead reader unit chB => Sys2Proof.Machine.execCaptureRead reader unit chB s
  | .comparePreloadWrite writer unit preload val => Sys2Proof.Machine.execComparePreloadWrite writer unit preload val s
  | .cmpLoad writer unit chB => Sys2Proof.Machine.execCmpLoad writer unit chB s
  | .outputForce writer unit chB code => Sys2Proof.Machine.execOutputForce writer unit chB code s
  | .timerStart writer unit => Sys2Proof.Machine.execTimerStart writer unit s
  | .timerStop writer unit => Sys2Proof.Machine.execTimerStop writer unit s
  | .entryAbort busy => Sys2Proof.Machine.execEntryAbort busy s
  | .powerDown => Sys2Proof.Machine.execPowerDown s
  | .comparatorTrip comparator => Sys2Proof.Machine.execComparatorTrip comparator s
  | .powerOnReset => Sys2Proof.Machine.execPowerOnReset s
  | .powerUp => Sys2Proof.Machine.execPowerUp s
  | .resetPin => Sys2Proof.Machine.execResetPin s
  | .resetRelease => Sys2Proof.Machine.execResetRelease s
  | .softReset writer => Sys2Proof.Machine.execSoftReset writer s
  | .tapReset => Sys2Proof.Machine.execTapReset s
  | .regulatorReady => Sys2Proof.Machine.execRegulatorReady s
  | .oscillatorReady => Sys2Proof.Machine.execOscillatorReady s
  | .strapSample boot head standby adr0 adr1 adr2 => Sys2Proof.Machine.execStrapSample boot head standby adr0 adr1 adr2 s
  | .memoryReady => Sys2Proof.Machine.execMemoryReady s
  | .systemRecordsReady => Sys2Proof.Machine.execSystemRecordsReady s
  | .logicReady => Sys2Proof.Machine.execLogicReady s
  | .powerStageTimeout => Sys2Proof.Machine.execPowerStageTimeout s
  | .xloStable => Sys2Proof.Machine.execXloStable s
  | .checkFault unit code => Sys2Proof.Machine.execCheckFault unit code s
  | .unitResetComplete unit => Sys2Proof.Machine.execUnitResetComplete unit s
  | .faultSlotClear writer unit secondary => Sys2Proof.Machine.execFaultSlotClear writer unit secondary s
  | .unitRelease writer unit => Sys2Proof.Machine.execUnitRelease writer unit s
  | .powerFail => Sys2Proof.Machine.execPowerFail s
  | .flushComplete => Sys2Proof.Machine.execFlushComplete s
  | .powerRestored => Sys2Proof.Machine.execPowerRestored s
  | .dayBookWrite => Sys2Proof.Machine.execDayBookWrite s
  | .idcode => Sys2Proof.Machine.execIdcode s
  | .samplePreload levels load => Sys2Proof.Machine.execSamplePreload levels load s
  | .extest levels load => Sys2Proof.Machine.execExtest levels load s
  | .highz => Sys2Proof.Machine.execHighz s
  | .clamp => Sys2Proof.Machine.execClamp s
  | .bypass => Sys2Proof.Machine.execBypass s
  | .hcsNFall => Sys2Proof.Machine.execHcsNFall s
  | .trainingPauseEnd link => Sys2Proof.Machine.execTrainingPauseEnd link s
  | .wordLockGained link => Sys2Proof.Machine.execWordLockGained link s
  | .classWindowOpen cls => Sys2Proof.Machine.execClassWindowOpen cls s
  | .comparatorWakeSideLeft comparator => Sys2Proof.Machine.execComparatorWakeSideLeft comparator s
  | .holdUpdate vhold vio33 => Sys2Proof.Machine.execHoldUpdate vhold vio33 s

end Sys2Proof.Machine
end

