-- ==== Sys2Proof/Machine/Tick.lean ====
section
/-!
DEFINITION. The device's clock, which runs while no command waits (R54, R289, R325).
-/

namespace Sys2Proof.Machine

/-- The timebase runs: its oscillator is stable, or it steps from the 32.768 kHz crystal (R54, R356). -/
def timebaseRuns (s : State) : Bool := s.pow.phase != .coldHold && (s.pow.lowFreq || s.flag F.PWR_STAT_OSC_OK)

/-- What one period of the stepping clock adds to the timebase, in 2^-24 of its LSB (R54, R289). -/
def timebaseGain (s : State) : Nat :=
  if s.pow.lowFreq then 512 * 2 ^ 24 else ((2 ^ 24 : Int) + toSigned 16 (s.get F.CAS_TRIM_TRIM)).toNat

/-- One period of the stepping clock: the timebase and the timers step, and where it is the reference the ports' accumulators (R95); a
link that has lost its lock begins to train again (R278). -/
def tick (s : State) : State :=
  if timebaseRuns s then
    let s1 := timersTick { s with tb := (s.tb + timebaseGain s) % 2 ^ 88 }
    if s.pow.lowFreq then s1 else forUpTo 4 linkTick (linesTick s1)
  else s

end Sys2Proof.Machine
end

