-- ==== Sys2Proof/Safety.lean ====
section
/-!
DEFINITION. What the statements call a safe run, and the form of the state that every step keeps.
-/

namespace Sys2Proof.Machine

/-- The canonical form of the bytes of both memories: addresses strictly rising, no entry that reads as an unlisted byte does. -/
def Memory.wf (m : List Host.Cell) : Bool := mapWf memDefault m

/-- The canonical form of the registers. -/
def Registers.wf (m : List (Nat × Word)) : Bool := mapWf resetWord m

/-- Both maps are in canonical form. -/
abbrev State.Inv (s : State) : Prop := Registers.wf s.regs = true ∧ Memory.wf s.mem = true

/-- The units stand as the spec numbers them: 65 cores with event queues of 16 records (R225, R236), traps at most two deep (R244), 16 chains, timer
units and modulators, 32 ports, 4 links, and at most 16 transactions open of units that are no port engine (R69). -/
def State.Shape (s : State) : Prop :=
  s.cores.length = 65 ∧ s.chains.length = 16 ∧ s.ports.length = 32 ∧ s.tmr.units.length = 16 ∧ s.links.length = 4 ∧
  (∀ k ∈ s.cores, k.queue.length + k.taken.length ≤ 16) ∧ openTxns s ≤ 16 ∧ ∀ c, c < 65 → s.get (F.SRT_STAT_TDEPTH c) ≤ 2

/-- The command answers a next state, and that state is as `P` says. -/
def Goes (i : Instr) (s : State) (P : State → Prop) : Prop := ∃ t, exec i s = .next t ∧ P t

/-- Every register outside `regs` and every byte of memory read as before. -/
def Untouched (s t : State) (regs : List Nat) : Prop := (∀ a, a ∉ regs → t.reg a = s.reg a) ∧ (∀ a, t.byte a = s.byte a)

/-- A register access by unit `u` takes place after LOGIC_OK (R239, R360). -/
abbrev Writes (u : Fin 256) (a : Nat) (s : State) : Prop := reaches u.val a true s = true ∧ s.pow.phase = .up

/-- A register write by unit `u` that takes place and that R5 does not refuse. -/
abbrev Accepts (u : Fin 256) (a : Nat) (w : Word) (s : State) : Prop := Writes u a s ∧ writeBarred a w s = false

/-- A word that R5 or R7 refuses at `a` by the register tables alone: no register stands there, a bit lies in no field, or a field takes a
reserved encoding. -/
def reservedWord (a : Nat) (w : Word) : Bool :=
  match findReg a with
  | none => true
  | some (d, _) => rowRefuses d w.toNat

/-- Registers of which a write does more than change its fields by their access codes, or whose word is looked at before it takes hold: those
for which the command table has rows of their own, and TREND_STAT, whose BIN_BAD takes BINERR with it. -/
def hasAction (a : Nat) : Bool :=
  let u := blockOf a
  let off := offOf a
  if u = 0x100 then off == 0x100 || off == 0x400 || (0x510 ≤ off && off < 0x520) || (0x2000 ≤ off && off < 0x2400) || (0x3000 ≤ off && off < 0x3800)
  else if u ≤ 0x40 then off == 0x000 || off == 0x028
  else if u ≤ 0x60 then [0x000, 0x044, 0x04C, 0x07C, 0x080].contains off || (0x0A0 ≤ off && off < 0x0C0)
  else if u ≤ 0x70 then [0x000, 0x008, 0x00C, 0x024].contains off
  else if u ≤ 0x74 then off == 0x000 || off == 0x810
  else if u = 0x77 then [0x008, 0x050, 0x064].contains off || (0x010 ≤ off && off < 0x028) || (0x100 ≤ off && off < 0x180)
  else if u = 0x78 then off == 0x004
  else if u = 0x79 then [0x000, 0x004, 0x010, 0x020, 0x024, 0x038].contains off
  else if u = 0x7D then [0x00, 0x0C, 0x10, 0x14, 0x20, 0x24].contains (off % 64)
  else false

/-- The fields of a register's word after a write of `v` over `old`, each as its access code says (R2). -/
def FieldsFollow (d : RegDef) (old v new : Nat) : Prop :=
  ∀ f ∈ d.fields, bits new f.lo (fieldWidth f) =
    (match f.acc with
     | .rw | .rwl => bits v f.lo (fieldWidth f)
     | .ro | .wo => bits old f.lo (fieldWidth f)
     | .w1c => bits old f.lo (fieldWidth f) &&& (2 ^ fieldWidth f - 1 - bits v f.lo (fieldWidth f)))

/-- The image in slot `b`, as `s` holds it, has been booted (R25, R32, R359): no image is waited for, its slot, VERSION and signature state are
shown, and its PARTITIONS, CLASS, ROUTE and PACE sections have taken hold; without a PACE section the policy has its reset value. -/
def Boots (s t : State) (b : Bool) : Prop :=
  let e := slotEnv b
  let sec := fun (n : Nat) => (envSections s e).filter (fun x => x.typ == n)
  t.flag F.SYS_RMAP_STAT_WAITING = false ∧ t.flag F.SYS_RMAP_STAT_BOOTED_SLOT = b ∧ t.get F.SYS_RMAP_VER_BOOTED_VER = envNum s e 8 4 ∧
  t.get F.SYS_RMAP_STAT_SIG_STATE = sigState s e ∧
  (∀ x, sec 0x03 = [x] → t.parts = (recordsOf 8 x.body).map partOf) ∧
  (∀ x, sec 0x08 = [x] → (∀ c, c < 3 → t.reg (A.GATE_QUOTA c) = wordAt x.body (8 * c)) ∧ ∀ p, p < 32 → t.reg (A.GATE_FRB p) = wordAt x.body (28 + 4 * p)) ∧
  (∀ x, sec 0x09 = [x] → s.rmap.routes = [] → t.rmap.routes = (recordsOf 8 x.body).map routeRec) ∧
  (∀ x, sec 0x11 = [x] → t.get F.PACE_POLICY_POLICY = recNum x.body 0 1 % 4 ∧ t.get F.PACE_POLICY_VCAP = recNum x.body 1 1 % 256 ∧
    t.get F.PACE_POLICY_GUARD = recNum x.body 2 1 % 64 ∧ t.get F.PACE_TEMP_HI_LIMIT = recNum x.body 4 2 % 65536) ∧
  (sec 0x11 = [] → t.reg A.PACE_POLICY = resetWord A.PACE_POLICY ∧ t.reg A.PACE_TEMP_HI = resetWord A.PACE_TEMP_HI)

/-- The device runs: LOGIC_OK, in RUN or DOZE, with no entry, flush or route-map wait in progress. -/
abbrev Runs (s : State) : Prop :=
  s.pow.phase = .up ∧ s.pwr ≤ 1 ∧ s.flag F.PWR_STAT_ENTERING = false ∧ s.pow.flush = .none ∧ s.flag F.SYS_RMAP_STAT_WAITING = false

/-- A run of `n` steps meets no fault and no refusal. -/
def SafeFor : Nat → State → Prop
  | 0, _ => True
  | n + 1, s => ∃ t, step s = .next t ∧ SafeFor n t

/-- The postmaster is the core `k`, the device is in RUN, and the postmaster's event queue takes a record (R236, R368). -/
abbrev Listens (s : State) (k : Core) : Prop :=
  s.core 0 = some k ∧ k.spec = none ∧ k.queue.length + k.taken.length < 16 ∧ s.isHeld 0 = false ∧ s.pow.phase = .up ∧ s.pwr = 0 ∧
  s.flag F.PWR_STAT_ENTERING = false

/-- The record `r` has joined the postmaster's event queue, and nothing else of a core changed. -/
abbrev Told (s t : State) (r : List Byte) : Prop := t.cores = upd s.cores 0 (fun k => { k with queue := k.queue ++ [r] })

/-! Admission (10). -/

/-- Events per second of a core's standing demand: of the running chains and of the bins routed to it (R185, R186, R218). -/
def eventRate (s : State) (u : Nat) : Rat :=
  ((List.range 16).map (fun i =>
    if s.flag (F.FC_CTRL_RUN i) && chainRoute s i == some u then
      (if s.flag (F.FC_CFG_MODE i) then (s.get (F.FC_RATE_INC i) : Rat) / 2 ^ 19 else (2 ^ 21 : Rat) / ((s.get (F.FC_CFG_RM1 i) + 1) * (s.get (F.FC_CFG_MM1 i) + 1) : Nat))
    else 0)).sum +
  (s.trend.valid.map (fun b =>
    let both := fun k => bit (binEven s b) k && bit (binEvsort s b) k
    if binSorter s b == some u then
      ((binCables s b * binDepth s b * ((List.range 5).filter both).length * 10 : Nat) : Rat) / (max (s.get F.TT_GATE_MIN) 1 : Nat) +
      (if both 5 then ((List.range 32).map (fun p => if portCarries s b p then (10 * s.get (F.FL_LBCFG_KMAX p) : Rat) else 0)).sum else 0)
    else 0)).sum

/-- u ≤ 1 on every resource of Table 3.1 (R45, R218), core `who` carrying `extra` M steps/s beside its demand: 4 M points/s of the trend unit, 2 M
decisions/s of the gatekeeper, 100 M steps/s of each core. -/
def LoadFits (s : State) (who : Option Nat) (extra : Nat) : Prop :=
  let n := fun c => sumShare s c + s.get (F.GATE_QUOTA_OBXQ (c - 1))
  readPoints s * 10 ≤ 4000000 * max (s.get F.TT_GATE_MIN) 1 ∧ 5000 * n 1 + 500 * n 2 + 50 * n 3 ≤ 2000000 ∧
  ∀ u, u < 65 → eventRate s u * s.get (F.SRT_BUDGET_BUDGET u) + 1000000 * (followOn s u + if who = some u then extra else 0 : Nat) ≤ 100000000

/-- A condition of Table 10.6 by its TEST, with the limits accepted at enrolment while the path stands (R288); times in 0.1 µs, of TEST 5 and 7 in ns. -/
def Condition (s : State) (test : Nat) : Prop :=
  let S := sumShare s
  let up := fun (p : Prop) => s.isHead = false → bit (s.get F.CAS_CFG_PORTS) 0 = true → p
  let agreed := fun (c : Nat) => s.flag F.CAS_STAT_PATH = true → S c ≤ s.get (F.CAS_UPLIM_SHARE (c - 1))
  let own := ((List.range 3).map (fun c => s.get (F.GATE_QUOTA_OBXQ c))).sum
  match test with
  | 1 => LoadFits s none 0
  | 2 => up ((S 1 + 1) * 12 + 40 + 40 ≤ 1000 ∧ agreed 1)
  | 3 => up ((10 * S 1 + S 2 + 1) * 12 + 40 + 40 ≤ 10000 ∧ agreed 2)
  | 4 => up ((100 * S 1 + 10 * S 2 + S 3 + 1) * 12 + 40 + 40 ≤ 100000 ∧ agreed 3)
  | 5 => ∀ x ∈ [(0x77, s.part 2), (0x71, upPart s 1), (0x77, upPart s 1), (0x71, upPart s 2), (0x77, upPart s 2), (0x71, upPart s 3), (0x77, upPart s 3)],
      ∀ p ∈ x.2.toList, ∀ b ∈ partBanks p,
        4 * (2 * (((List.range 128).filter (fun q => q != x.1 && bit (s.get (F.ARB_MASK_BANKS q)) b)).map (fun q => s.get (F.ARB_CFG_BURST q) + 1)).sum) + 8 ≤ 2000
  | 6 => own + (if s.isHead then ((List.range 3).map (fun k => ((List.range 3).map (fun c => s.get (F.CAS_SUB_CRED k c))).sum)).sum else 0) ≤ s.get F.GATE_OBX_LEN_LETTERS - 1 ∧
      own + ((List.range 3).map (fun c => s.get (F.GATE_QUOTA_CRED c))).sum ≤ s.get F.GATE_OPEN_LIMIT ∧
      (s.isHead = false → ∀ c, c < 3 → sumCred s (c + 1) ≤ ((upPart s (c + 1)).map (fun p => p.len / 32)).getD 0 ∧
        (s.flag F.CAS_STAT_PATH = true → sumCred s (c + 1) ≤ s.get (F.CAS_UPLIM_CRED c)))
  | 7 => ∀ p, p < 32 → s.flag (F.GATE_FRB_EN p) = true → lbNeed s p ≤ s.get (F.FL_LBCFG_MAXEX p) ∧
      (letterInterval s p).isSome = true ∧ (letterInterval s p).getD 0 + roundBound s p ≤ s.get (F.GATE_FRB_MS p) * 1000000
  | _ => True

/-- Check `i` of Table 10.4 stops the offer; check 0 is the standing PACE fault of R48, which returns PACE_LIMIT. -/
def Check (s : State) (o : Offer) (i : Nat) : Prop :=
  let r := (routeOf s (recKind o.body)).getD (0, 0)
  let far := r.1 = 1 ∧ s.isHead = false
  let c := r.2
  match i with
  | 0 => paceFault s = true
  | 1 => kindAllowed o.unit (recKind o.body) = false ∨ bit (recNum o.body 10 3) 23 = true ∨ scaleReserved (recNum o.body 19 1) = true
  | 2 => s.safe = true
  | 3 => ∀ x ∈ s.rmap.routes, ¬(x.rtype = 3 ∧ x.source = recKind o.body)
  | 4 => far ∧ (s.flag F.CAS_STAT_PATH = false ∨ lk0Outage s = true)
  | 5 => s.get F.GATE_OPEN_LIMIT ≤ s.gate.opened.length
  | 6 => ¬far ∧ s.get (F.GATE_QUOTA_OBXQ (c - 1)) ≤ s.get (F.GATE_USE_OBX_USED (c - 1))
  | 7 => far ∧ s.get (F.GATE_QUOTA_CRED (c - 1)) ≤ (s.gate.opened.filter (fun l => recDest l.body && recClass l.body == c)).length
  | 8 => far ∧ s.get (F.GATE_SHARE_SHARE (c - 1)) ≤
      (s.gate.log.filter (fun e => e.1 == c && decide (pmDiff s.pm e.2 * 1000000 < (if c = 1 then 200 else if c = 2 then 2000 else 20000) * 2 ^ 24))).length
  | 9 => ¬ LoadFits s (some o.unit) o.f
  | _ => s.pace.polUsed = 1 ∧ fusedPace (s.pace.vcapUsed / 10) < paceNeed s (some o.unit) o.f

/-! The pipeline of a chain (09). -/

/-- round() of R184: to the nearest integer, ties away from zero. -/
def nearest (z : Rat) : Int := if 0 ≤ z then (z + 1 / 2).floor else -(1 / 2 - z).floor

/-- sat24() of R184. -/
def limit24 (z : Int) : Int := max (-(2 ^ 23)) (min (2 ^ 23 - 1) z)

/-- h_k(j) of R184: the k-fold convolution of r ones. -/
def boxes (r : Nat) : Nat → Nat → Int
  | 0, j => if j = 0 then 1 else 0
  | k + 1, j => ((List.range r).map (fun i => if i ≤ j then boxes r k (j - i) else 0)).sum

/-- xc(n) of R184 before its limit, for a chain of order k and ratio r. -/
def cicRaw (s : State) (c : Chain) (k r : Nat) (n : Int) : Int :=
  nearest (((((List.range (k * (r - 1) + 1)).map (fun j => boxes r k j * bitAt s c (n - j))).sum * 2 ^ 23 : Int) : Rat) / (r ^ k : Nat))

/-- xf(n) of R184 before its limit, with t taps. -/
def firRaw (s : State) (c : Chain) (k r t : Nat) (n : Int) : Int :=
  nearest ((((List.range t).map (fun (i : Nat) => toSigned 24 (c.firAt i) * limit24 (cicRaw s c k r (n - (i : Int) * r)))).sum : Rat) / 2 ^ 22)

/-- xf(n) carries the CLIP mark: its own limit, or that of an xc it uses, changed a value (R184). -/
def firClips (s : State) (c : Chain) (k r t : Nat) (n : Int) : Bool :=
  decide (limit24 (firRaw s c k r t n) ≠ firRaw s c k r t n) ||
  (List.range t).any (fun (i : Nat) => decide (limit24 (cicRaw s c k r (n - (i : Int) * r)) ≠ cicRaw s c k r (n - (i : Int) * r)))

/-- The tick of instant q (R185, R186). -/
def instant (s : State) (i q : Nat) : Nat :=
  if fcGrid s i then ((q * 2 ^ 40 : Nat) / (fcInc s i : Nat) : Rat).ceil.toNat else q * fcP s i

/-- j0 and ph of R187 for instant q. -/
def gridPlace (s : State) (i q : Nat) : Int × Int :=
  let n := instant s i q
  let p := fcP s i
  let j := n / p
  let ph := nearest ((128 * (n - j * p) : Nat) / (p : Nat))
  if ph = 128 then (j + 1, 0) else (j, ph)

/-- rc[ph][a] of R187 and R188. -/
def tapOf (s : State) (i : Nat) (c : Chain) (ph : Int) (a : Nat) : Int :=
  if s.flag (F.FC_CFG_PROTO i) then toSigned 24 (c.resAt (16 * ph.toNat + a))
  else if a = 7 then 32768 * (128 - ph) else if a = 8 then 32768 * ph else 0

/-- The output of instant q, with its CLIP mark (R184 to R188). -/
def chainValue (s : State) (i : Nat) (c : Chain) (q : Nat) : Int × Bool :=
  let xf := fun (n : Int) => firRaw s c (fcK s i) (fcR s i) (fcT s i) n
  let cl := fun (n : Int) => firClips s c (fcK s i) (fcR s i) (fcT s i) n
  if fcGrid s i then
    let g := gridPlace s i q
    let tick := fun (a : Nat) => (g.1 + (a : Int) - 7) * fcP s i
    let y := nearest ((((List.range 16).map (fun a => tapOf s i c g.2 a * limit24 (xf (tick a)))).sum : Rat) / 2 ^ 22)
    (limit24 y, decide (limit24 y ≠ y) || (List.range 16).any (fun a => cl (tick a)))
  else (limit24 (xf (instant s i q)), cl (instant s i q))

/-- The first and the last tick that this output uses. -/
def chainSpan (s : State) (i q : Nat) : Int × Nat :=
  let first := fun (n : Int) => n - (((fcT s i - 1) * fcR s i + fcK s i * (fcR s i - 1) : Nat) : Int)
  if fcGrid s i then (first (((gridPlace s i q).1 - 7) * fcP s i), (((gridPlace s i q).1 + 8) * fcP s i).toNat)
  else (first (instant s i q), instant s i q)

/-- The settle length N of R190. -/
def settleCount (s : State) (i : Nat) : Nat :=
  let x := 8 * s.get (F.FC_MOD_MSETTLE (s.get (F.FC_SRC_SRC i))) + fcR s i * (fcK s i + fcT s i - 1)
  min 65535 ((if fcGrid s i then ((x + 8 * fcP s i) * fcInc s i : Nat) / (2 ^ 40 : Rat) else (x : Nat) / (fcP s i : Nat) : Rat).floor.toNat + 1)

/-! A core's instruction (11, 12). -/

/-- Core `c`, in state `k`, is about to execute the opcode `op` of an instruction of `n` bytes charged `w` steps: it runs, no series
and no run-ahead is in progress, no word of private memory holds a double-bit error, the bytes and the place after them lie in
private memory, and the charge fits the budget (R234, R241, R259). -/
abbrev CoreAt (s : State) (c : Nat) (k : Core) (op n w : Nat) : Prop :=
  s.core c = some k ∧ coreRuns s c k = true ∧ k.series = .idle ∧ k.spec = none ∧ k.memBad = [] ∧ k.r.pc.toNat + n ≤ 0x7FFF ∧
  (k.priv k.r.pc.toNat).toNat = op ∧ k.steps + w ≤ (s.get (F.SRT_BUDGET_BUDGET c) : Int)

/-- Core `c` has become `k`, and only its highest step count changed beside it (R241); its step count has restarted where it took a record
(R237). -/
def CoreWent (s t : State) (c : Nat) (took : Bool) (k : Core) : Prop :=
  t = { s with cores := upd s.cores c (fun _ => if took then { k with steps := 0 } else k), regs := t.regs } ∧
  (∀ a, a ≠ A.SRT_STEPS c → t.reg a = s.reg a) ∧
  t.get (F.SRT_STEPS_MAX c) = max (s.get (F.SRT_STEPS_MAX c)) (satTo 0xFFFFFF k.steps.toNat)
/-- Core `c` has become `k` where an instruction's prefix has been charged. -/
def prefixed (s : State) (c : Nat) (k : Core) : State :=
  let s1 := { s with cores := upd s.cores c (fun _ => k) }
  if (s.get (F.SRT_STEPS_MAX c) : Int) < k.steps then s1.put (F.SRT_STEPS_MAX c) (satTo 0xFFFFFF k.steps.toNat) else s1
/-- The same of an instruction that takes no record. -/
abbrev CoreBecame (s t : State) (c : Nat) (k : Core) : Prop := CoreWent s t c false k

/-- A byte core `c` may read with no side effect: of private memory, the vector page, or a permitted window address (R228 to R231). -/
abbrev Readable (s : State) (c : Nat) (k : Core) (a : Nat) : Prop :=
  isIo a = false ∧ accessBad s c k false a = false ∧ readFault s c k a = none

/-- The command that reads a register whose read does more than show its word. -/
def readCommand (u : Fin 256) (a : Nat) : Option Instr :=
  let b := blockOf a
  let off := offOf a
  if a = A.SYS_PM_LO then some (.postmarkRead u)
  else if a = A.TT_RDATA_HI then some (.slotRead u)
  else if 0x61 ≤ b ∧ b ≤ 0x70 ∧ off = 0x024 then some (.coefRead u (Fin.ofNat 16 (b - 0x61)))
  else if 0x61 ≤ b ∧ b ≤ 0x70 ∧ off = 0x02C then some (.lastOutputRead u (Fin.ofNat 16 (b - 0x61)))
  else if b = 0x7D ∧ off < 0x400 ∧ (off % 64 = 0x18 ∨ off % 64 = 0x1C) then some (.captureRead u (Fin.ofNat 16 (off / 64)) (off % 64 == 0x1C))
  else if b ≤ 0x40 ∧ off = 0x028 then some (.coreMemoryRead u (Fin.ofNat 65 b))
  else none

/-- A read of EV_NEXT that finds the queue empty begins run-ahead (R248). -/
def mayRunAhead (s : State) (c : Nat) (k : Core) : Bool :=
  c != 0 && s.flag (F.SRT_CTRL_SPEC c) && k.spec.isNone && k.lastTaken.any (fun r => recKind r == 0x20 && decide (0x61 ≤ recOrigin r) &&
    (s.chain (recOrigin r - 0x61)).any (chainLive s (recOrigin r - 0x61)))

/-- What a read brings: the byte, the state and the core after it, the steps it adds, and whether it took a record. -/
structure Brought where
  value : Byte
  state : State
  core  : Core
  steps : Nat
  took  : Bool

/-- A read of the unit I/O byte at 0xC000 + `o` (Table 11.5, R233, R236 to R239, R245); none of EV_NEXT where run-ahead begins, of LTR_RES
while an offer is undecided, and where nothing stands. -/
def ioBrings (s : State) (c : Fin 65) (k : Core) (o : Nat) : Option Brought :=
  let as := fun (v n : Nat) (k1 : Core) => some ⟨BitVec.ofNat 8 v, { s with cores := upd s.cores c (fun _ => k1) }, k1, n, false⟩
  let plain := fun (v : Nat) => as v 0 k
  let nth := fun (w i : Nat) => w / 2 ^ (8 * i)
  if o = 0x00 then plain c
  else if o = 0x01 then plain k.queue.length
  else if o = 0x02 then (match k.queue with
    | [] => if mayRunAhead s c k then none else as 0 4 k
    | r :: rest =>
      let k1 := { k with
        queue := rest, evbuf := r, lastTaken := some r
        taken := if s.flag (F.SRT_STAT_SEALED c) then k.taken ++ [r] else k.taken
        prevVals := match k.lastTaken with
          | some p => if recKind p = 0x20 then mapIns (recOrigin p) (recNum p 16 3) k.prevVals else k.prevVals
          | none => k.prevVals }
      let fault := decide (c.val = 0) && (recKind r == 0x30 || recKind r == 0x31)
      some ⟨1#8, { s with cores := upd s.cores c (fun _ => k1), flt := if fault then { s.flt with pmTaken := true } else s.flt }, k1, 4, true⟩)
  else if o = 0x04 then as s.pm 2 { k with pmLatch := s.pm }
  else if 0x05 ≤ o ∧ o ≤ 0x0B then plain (nth k.pmLatch (o - 0x04))
  else if o = 0x0C then as k.stage0.toNat 2 k
  else if o = 0x0D then as k.stage1.toNat 2 k
  else if o = 0x0E then as (k.winBase / 2 ^ 30) 2 k
  else if o = 0x0F then
    as ((match txnOf s c with | some t => if t.phase = .opened then 1 else 2 | none => 0) + 16 * b2n k.txnConf + 32 * b2n k.txnOver + 64 * b2n k.txnRef) 4
      { k with txnConf := false, txnOver := false, txnRef := false }
  else if o = 0x10 then as 0 4000 k
  else if o = 0x11 then as (b2n k.sealRes + 2 * b2n k.sealFail + 4 * b2n k.sealConf) 0 { k with sealRes := false, sealFail := false, sealConf := false }
  else if o = 0x12 then plain k.ltrF
  else if o = 0x13 then as 0 4 k
  else if o = 0x14 then (if k.ltrOut then none else as k.ltrRes 50 k)
  else if 0x15 ≤ o ∧ o ≤ 0x18 then plain (nth k.ltrSer (o - 0x15))
  else if 0x20 ≤ o ∧ o ≤ 0x3F then plain (k.evbuf.getD (o - 0x20) 0#8).toNat
  else if 0x40 ≤ o ∧ o ≤ 0x5F then plain (k.ltrbuf.getD (o - 0x40) 0#8).toNat
  else if 0x60 ≤ o ∧ o ≤ 0x63 then plain (nth k.rbAddr (o - 0x60))
  else if o = 0x64 then
    (let u : Fin 256 := c.castLE (by omega)
     let (v, s1) := match readCommand u k.rbAddr with
       | none => (regView u k.rbAddr s, s)
       | some i => (match exec i s with | .next t => (t.rdata, { t with rdata := s.rdata }) | _ => (0, s))
     let k1 := { k with rbLatch := v }
     some ⟨BitVec.ofNat 8 v, { s1 with cores := upd s1.cores c (fun _ => k1) }, k1, 50, false⟩)
  else if 0x65 ≤ o ∧ o ≤ 0x67 then plain (nth k.rbLatch (o - 0x64))
  else if o = 0x68 then plain (b2n k.rbRef)
  else if 0x69 ≤ o ∧ o ≤ 0x6B then plain 0
  else none

/-- The bytes that core `c`, in state `k`, reads at these addresses, each a byte it may read, in turn: what they bring together (R228 to R234).
`b` is the state that the accesses on the post bus, which come first, have left. -/
def readsIn (b : State) (c : Fin 65) : List Nat → State → Core → Option (List Byte × State × Core × Nat × Bool)
  | [], s, k => some ([], s, k, 0, false)
  | a :: l, s, k =>
    if isIo a then
      (ioBrings s c k (a - 0xC000)).bind (fun x => (readsIn b c l x.state x.core).map (fun y => (x.value :: y.1, y.2.1, y.2.2.1, x.steps + y.2.2.2.1, x.took || y.2.2.2.2)))
    else (readsIn b c l s k).map (fun y => (plainRead b c k a :: y.1, y.2.1, y.2.2.1, (if isWindow a then 40 else 0) + y.2.2.2.1, y.2.2.2.2))
def readsOf (s : State) (c : Fin 65) (k : Core) (l : List Nat) : Option (List Byte × State × Core × Nat × Bool) :=
  let b := windowReads c k l s
  if b.core c = some k ∧ ∀ a ∈ l, accessBad s c k false a = false ∧ readFault s c k a = none then readsIn b c l b k else none

/-- The steps a write of `v` at `a` adds; none stands for a byte not known before the instruction's reads (R232, R258, Table 11.5). -/
def storeSteps (v : Option Byte) (a : Nat) : Nat :=
  if isWindow a then 40
  else if a = 0xC002 ∨ a = 0xC013 then 4
  else if a = 0xC004 ∨ 0xC00C ≤ a ∧ a ≤ 0xC00E then 2
  else if a = 0xC00F then (if v.all (· == 2#8) then 4000 else 4)
  else if a = 0xC010 then 4000
  else if a = 0xC014 ∨ a = 0xC067 then 50
  else 0

/-- A write of `v` to TXN that asks for `v` (R69, R245). -/
def txnAsked (s : State) (c : Nat) (k : Core) (v : Nat) : State :=
  let gone := fun (l : Ledger) => { l with txns := l.txns.filter (fun x => decide (x.owner ≠ c ∨ x.phase = .committed)) }
  let s1 := match txnOf s c with
    | none =>
      if v = 1 then (if 16 ≤ openTxns s then { s with cores := upd s.cores c (fun _ => { k with txnRef := true }) }
        else { s with ledg := { s.ledg with txns := s.ledg.txns ++ [⟨c, s.ledg.nextTxn, .opened, [], false, .none, []⟩], nextTxn := (s.ledg.nextTxn + 1) % 2 ^ 32 } })
      else s
    | some x =>
      if x.phase ≠ .opened ∨ v = 1 then s
      else if v = 3 then { s with ledg := { gone s.ledg with held := s.ledg.held.filter (· != .commit c) } }
      else if s.ledg.held.contains (.commit c) then s
      else if heldIn s x then { s with ledg := { s.ledg with held := s.ledg.held ++ [.commit c] } }
      else if x.conflict then { s with ledg := gone s.ledg, cores := if x.act = .none then upd s.cores c (fun _ => { k with txnConf := true }) else s.cores }
      else { s with ledg := { s.ledg with txns := s.ledg.txns.map (fun y => if y.owner = c ∧ y.phase ≠ .committed then { y with phase := .committing } else y) } }
  match txnOf s1 c with
  | some x => if x.phase = .committing ∨ .commit c ∈ s1.ledg.held then { s1 with cores := upd s1.cores c (fun k => { k with commitHold := true }) } else s1
  | none => s1

/-- A seal is asked for (R246): the record's lines join the core's transaction, which is opened if it has none, and its commit begins, behind the held
writes of it; it fails with a conflict, with more than 12 lines and with 16 transactions open. -/
def sealAsked (s0 : State) (c : Nat) (k : Core) : State :=
  let s := if c = 0 then { s0 with flt := { s0.flt with pmTaken := false } } else s0
  let gone := fun (l : Ledger) => { l with txns := l.txns.filter (fun x => decide (x.owner ≠ c ∨ x.phase = .committed)) }
  let lines := sealLines c k
  let joins := fun (ph : Option TxnPhase) (l : Ledger) => { l with
    txns := l.txns.map (fun y => if y.owner = c ∧ y.phase ≠ .committed then { y with lines := y.lines ++ lines, act := .seal c, phase := ph.getD y.phase } else y) }
  let core := fun (l : Ledger) (k1 : Core) => { s with ledg := l, cores := upd s.cores c (fun _ => k1) }
  let opened := { s.ledg with txns := s.ledg.txns ++ [⟨c, s.ledg.nextTxn, .opened, [], false, .none, []⟩], nextTxn := (s.ledg.nextTxn + 1) % 2 ^ 32 }
  match txnOf s c with
  | some x =>
    if x.conflict then core (gone s.ledg) { k with sealFail := true, sealConf := true }
    else if 12 < x.lines.length + lines.length then core (gone s.ledg) { k with sealFail := true }
    else if heldIn s x then core { joins none s.ledg with held := s.ledg.held ++ [.commit c] } { k with commitHold := true }
    else core (joins (some .committing) s.ledg) { k with commitHold := true }
  | none =>
    if 16 ≤ openTxns s then core s.ledg { k with txnRef := true, sealFail := true }
    else core (joins (some .committing) opened) { k with commitHold := true }

/-- A write of `v` to the unit I/O byte at 0xC000 + `o` (Table 11.5, R229, R233, R235, R238, R239, R245, R246). -/
def ioStored (s : State) (c : Fin 65) (k : Core) (o : Nat) (v : Byte) : State :=
  let core := fun (k1 : Core) => { s with cores := upd s.cores c (fun _ => k1) }
  let no := refuse c (0x10000800 + 0x1000 * c + 4 * o) s
  let n := v.toNat
  if o = 0x0C then core { k with stage0 := v }
  else if o = 0x0D then core { k with stage1 := v }
  else if o = 0x0E then (if 4 ≤ n then no else core { k with winBase := n * 2 ^ 30 + k.stage1.toNat * 2 ^ 22 + k.stage0.toNat * 2 ^ 14 })
  else if o = 0x0F then (if 1 ≤ n ∧ n ≤ 3 then txnAsked s c k n else no)
  else if o = 0x10 then (if n = 1 then sealAsked s c k else no)
  else if o = 0x12 then (if n ≤ 100 then core { k with ltrF := n } else no)
  else if o = 0x13 then
    (if n = 1 then { core { k with ltrOut := true } with gate := { s.gate with offers := s.gate.offers ++
      [⟨c, k.ltrbuf.take 20 ++ List.replicate 9 0#8 ++ (k.ltrbuf.drop 29).take 1 ++ [0#8, 0#8], k.ltrF⟩] } } else no)
  else if 0x40 ≤ o ∧ o ≤ 0x5F then core { k with ltrbuf := upd k.ltrbuf (o - 0x40) (fun _ => v) }
  else if 0x60 ≤ o ∧ o ≤ 0x63 then core { k with rbAddr := setBits k.rbAddr (8 * (o - 0x60)) 8 n }
  else if 0x64 ≤ o ∧ o ≤ 0x66 then core { k with rbStage := upd k.rbStage (o - 0x64) (fun _ => v) }
  else if o = 0x67 then
    (let u : Fin 256 := c.castLE (by omega)
     let write := fun (x : State) => match exec (.registerWrite u (BitVec.ofNat 32 k.rbAddr) (BitVec.ofNat 32 (ofLe (k.rbStage ++ [v]))) none) x with | .next t => t | _ => x
     write (core { k with rbRef := (write (s.setReg A.SYS_DIAG 0)).flag F.SYS_DIAG_RSVD_WR }))
  else s

/-- The bytes that core `c` writes, in their order, and the state they leave (R228 to R235). -/
def storesOf (c : Fin 65) : List (Nat × Byte) → State → State
  | [], s => s
  | (a, v) :: l, s =>
    storesOf c l (match s.core c with
      | none => s
      | some k =>
        if isIo a then ioStored s c k (a - 0xC000) v
        else if isWindow a then windowAccess c false (windowHost k a) (some [v]) s
        else { s with cores := upd s.cores c (fun _ => k.setPriv a v) })

/-- Core `c`, in state `k`, may make these writes: no address is forbidden it, no write of WIN2 would make the window straddle two regions, and no
offer is made while one is undecided (R229 to R231, R238, R239). -/
abbrev Storable (s : State) (c : Nat) (k : Core) (l : List (Nat × Byte)) : Prop :=
  (∀ e ∈ l, accessBad s c k true e.1 = false) ∧ winStraddles s c k.stage0 k.stage1 l = false ∧ (k.ltrOut = true → 0xC013 ∉ l.map (·.1))

/-- Core `c` has become `k`, and then its writes have been made. -/
def CoreStored (s t : State) (c : Fin 65) (took : Bool) (k : Core) (l : List (Nat × Byte)) : Prop := ∃ u, CoreWent s u c took k ∧ t = storesOf c l u

/-- The low and the high byte after an opcode, and the two as a 16-bit operand (R255). -/
def Core.op1 (k : Core) : Byte := k.priv (k.r.pc.toNat + 1)
def Core.op2 (k : Core) : Byte := k.priv (k.r.pc.toNat + 2)
def Core.opW (k : Core) : BitVec 16 := k.op2 ++ k.op1

/-- The registers `r`, with PC moved past `n` bytes, and `w` steps charged. -/
def Core.went (k : Core) (n w : Nat) (r : CoreRegs) : Core :=
  { k with r := { r with pc := k.r.pc + BitVec.ofNat 16 n }, steps := k.steps + w }

/-- The address a form of Table 12.1 names (R256). -/
def formAddr (k : Core) (form : Nat) : BitVec 16 :=
  match form with
  | 1 => k.opW
  | 2 => k.opW + k.r.x.setWidth 16
  | 3 => k.r.p
  | 4 => k.r.p + k.r.y.setWidth 16
  | 5 => k.r.q
  | _ => k.r.q + k.r.y.setWidth 16

/-- The bytes of an instruction with a form. -/
def formLen (form : Nat) : Nat := if form = 1 ∨ form = 2 then 3 else if form = 0 then 2 else 1

/-- The operand `m` of a form of Table 12.1, of an instruction of `n` bytes that is charged `w` steps with this form: of private memory, the window or
the unit I/O where it is in memory; its read leaves the state `b` and the core `k1`, and may take a record (R231, R233, R256, R262). -/
inductive OperandAt (s : State) (c : Fin 65) (k : Core) : Nat → Byte → Nat → Nat → State → Core → Bool → Prop where
  | immediate : OperandAt s c k 0 k.op1 2 1 s k false
  | register : OperandAt s c k 7 k.r.x 1 1 s k false
  | memory (form : Nat) (m : Byte) (b : State) (k1 : Core) (x : Nat) (took : Bool) : 1 ≤ form → form ≤ 6 →
      readsOf s c k [(formAddr k form).toNat] = some ([m], b, k1, x, took) → OperandAt s c k form m (formLen form) (2 + x) b k1 took

/-! Cascade frames (13). -/

/-- A frame received whole: TYPE, LEN, DST, its payload and the CRC of R279. -/
def wholeFrame (typ dst : Nat) (payload : List Byte) : RxFrame :=
  ⟨false, mkFrame typ dst payload ++ leBytes 4 (crc32 (mkFrame typ dst payload))⟩

/-- The frames `fs` have joined the queue of port `n`, and nothing else of a link changed. -/
abbrev Queued (s t : State) (n : Nat) (fs : List (List Byte)) : Prop := t.links = upd s.links n (fun l => { l with tx := l.tx ++ fs })

/-- The frame asks for enrolment as R285 lays down. -/
def isHello (s : State) (f : List Byte) : Prop := ∃ body : List Byte, body.length = 24 ∧ f = mkFrame 3 0 body ∧
  recNum body 0 8 = ownUid % 2 ^ 64 ∧ recNum body 8 2 = ((s.est.fixed <|> s.est.lastId).getD 0) % 2 ^ 16 ∧ bit (recNum body 10 1) 2 = (s.est.fixed <|> s.est.lastId).isSome ∧
  bit (recNum body 10 1) 3 = s.est.fixed.isSome ∧ ∀ c, c < 3 → recNum body (12 + 2 * c) 2 = sumShare s (c + 1) % 2 ^ 16 ∧ recNum body (18 + 2 * c) 2 = sumCred s (c + 1) % 2 ^ 16

/-! The post bus and the field lines (04, 05). -/

/-- The arbiter lets unit `u` reach `n` bytes from `a`, of one line or one pair of banks (R80). -/
abbrev MaskFor (s : State) (u a n : Nat) : Prop := maskOk s u (busBank a) = true ∧ maskOk s u (busBank (a + n - 1)) = true

/-- A round whose next frame is sent: an exchange of its own takes the frame from those it holds. -/
def sentRound (use : LineUse) (r : Option Round) : Option Round :=
  match use with
  | .round | .check | .mailbox | .probe _ => r.map (fun r => { r with frames := r.frames.drop 1 })
  | _ => r

/-- The burst that samples `b` of a port spell: past the glitch filter, with the port's rate. -/
def heardBy (s : State) (p : Nat) (b : Burst) : Heard := decodeBurst (glitchLen s p) (rateNum s p) b
/-- No edge follows the burst's end. -/
abbrev endsThere (s : State) (p : Nat) (d : Heard) : Prop := (edges (glitchLen s p) d.rest.runs).2 = []

end Sys2Proof.Machine
end

