-- ==== Sys2Proof/Certificates/Slice0/Obligations.lean ====
section
/-!
DEFINITION. The statements for the provers. `Goes i s P` says that the command `i` answers a next state, of which `P` holds.
-/

open Sys2Proof Sys2Proof.Machine

/-! ## Registers (00) and the route map (02) -/

/-- A refused write changes nothing but SYS_DIAG and SYS_RSVD_ADDR. The first refusal since RSVD_WR was cleared is held, with the address and the writer; a later one
only sets RSVD_MULT; and a refusal that coincides with the write-1-to-clear of RSVD_WR wins (R5 to R7). The model's choices that this rests on: log entry 15. -/
def Obligations.RefusedWritesAreRecorded : Prop :=
  (∀ (u : Fin 256) (a v : Word) (s : State), Writes u a.toNat s → reservedWord a.toNat v = true ∨ writeBarred a.toNat v s = true → (0x10110000 ≤ a.toNat → 0x10112000 ≤ a.toNat) →
    mirrorOf a.toNat = none →
    Goes (.registerWrite u a v none) s (fun t => Untouched s t [A.SYS_DIAG, A.SYS_RSVD_ADDR] ∧ t.flag F.SYS_DIAG_RSVD_WR = true ∧
      (s.flag F.SYS_DIAG_RSVD_WR = false → t.get F.SYS_RSVD_ADDR_ADDR = a.toNat / 4 ∧ t.get F.SYS_DIAG_RSVD_SRC = u.val ∧
        t.get F.SYS_DIAG_RSVD_MULT = s.get F.SYS_DIAG_RSVD_MULT) ∧
      (s.flag F.SYS_DIAG_RSVD_WR = true → t.reg A.SYS_RSVD_ADDR = s.reg A.SYS_RSVD_ADDR ∧ t.get F.SYS_DIAG_RSVD_SRC = s.get F.SYS_DIAG_RSVD_SRC ∧
        t.flag F.SYS_DIAG_RSVD_MULT = true))) ∧
  (∀ (u u2 : Fin 256) (v b v2 : Word) (s : State), Writes u A.SYS_DIAG s → writeBarred A.SYS_DIAG v s = false → v.getLsbD 0 = true →
    Writes u2 b.toNat s → reservedWord b.toNat v2 = true ∨ writeBarred b.toNat v2 s = true → (0x10110000 ≤ b.toNat → 0x10112000 ≤ b.toNat) → mirrorOf b.toNat = none →
    Goes (.registerWrite u (BitVec.ofNat 32 A.SYS_DIAG) v (some (u2, b, v2))) s (fun t => Untouched s t [A.SYS_DIAG, A.SYS_RSVD_ADDR] ∧
      t.flag F.SYS_DIAG_RSVD_WR = true ∧ t.get F.SYS_RSVD_ADDR_ADDR = b.toNat / 4 ∧ t.get F.SYS_DIAG_RSVD_SRC = u2.val ∧ t.flag F.SYS_DIAG_RSVD_MULT = false))

/-- An accepted write of a register with no action of its own, of any block, gives each field what its access code says: RW and RWL take the written bits, RO and WO keep
theirs, a 1 clears a W1C bit; nothing else changes (R2). Of a banked register the writer's copy is written, and a writer that has none changes nothing (R425). The
model's choices that this rests on: log entry 3. -/
def Obligations.WrittenFieldsFollowAccessCodes : Prop :=
  ∀ (u : Fin 256) (a v : Word) (s : State) (d : RegDef) (i : Nat), Accepts u a.toNat v s → findReg a.toNat = some (d, i) → hasAction a.toNat = false →
    (isBanked a.toNat = false → Goes (.registerWrite u a v none) s (fun t => Untouched s t [a.toNat] ∧ FieldsFollow d (s.reg a.toNat).toNat v.toNat (t.reg a.toNat).toNat ∧
      t = { s with regs := t.regs })) ∧
    (isBanked a.toNat = true → a.toNat ≠ A.LEDG_TXN → a.toNat ≠ A.CAS_RA_CMD →
      (bankAddr u a.toNat = none → Goes (.registerWrite u a v none) s (fun t => t = s)) ∧
      (∀ b, bankAddr u a.toNat = some b → Goes (.registerWrite u a v none) s (fun t => Untouched s t [b] ∧ FieldsFollow d (s.reg b).toNat v.toNat (t.reg b).toNat ∧
        t = { s with regs := t.regs })))

/-- A route-map command written while BUSY is lost; otherwise BUSY is set and the checks give its reason: STATE where the command is not allowed, else that of Table 2.9
over its envelope; the sections of an APPLY that passes wait for the apply point (R33 to R36). RMAP_COMMAND_DONE clears BUSY, sets DONE and gives RESULT and
RESULT_SECT; a day-book entry is offered with the command and its result (R33, R34, R381). For a command that boots nothing, no other register and no byte changes; a
LOAD that passed boots its slot (R25, R32), stated of an image without sections beyond ROUTE but PACE. The model's choices that this rests on: log entries 59, 61,
63, 91 and 114. -/
def Obligations.RouteMapCommands : Prop :=
  (∀ (u : Fin 256) (s : State), Writes u A.SYS_RMAP_CTRL s →
    ∀ c ∈ [(Instr.rmapApply u, 1), (.rmapCheck u, 2), (.rmapCheckA u, 3), (.rmapCheckB u, 4), (.rmapLoadA u, 5), (.rmapLoadB u, 6)],
      (s.flag F.SYS_RMAP_STAT_BUSY = true → Goes c.1 s (fun t => t.flag F.SYS_RMAP_STAT_CMD_LOST = true ∧ t.flag F.SYS_RMAP_STAT_BUSY = true ∧
        Untouched s t [A.SYS_RMAP_STAT] ∧ t.rmap = s.rmap)) ∧
      (s.flag F.SYS_RMAP_STAT_BUSY = false → commandBarred s c.2 = true → Goes c.1 s (fun t => t.flag F.SYS_RMAP_STAT_BUSY = true ∧
        Untouched s t [A.SYS_RMAP_STAT] ∧ t.rmap = { s.rmap with cmd := c.2, reason := 1, sect := 0xFF, staged := [] })) ∧
      (∀ v, s.flag F.SYS_RMAP_STAT_BUSY = false → commandBarred s c.2 = false → v = checkEnvelope s (commandEnv s c.2) → s.ledg.flips = [] →
        (c.2 = 1 → v.reason ≠ rmPromise) → Goes c.1 s (fun t => t.flag F.SYS_RMAP_STAT_BUSY = true ∧ Untouched s t [A.SYS_RMAP_STAT] ∧
          t.rmap = { s.rmap with cmd := c.2, reason := v.reason, sect := v.sect, staged := if c.2 = 1 ∧ v.reason = rmOk then envSections s (commandEnv s c.2) else [] }))) ∧
  (∀ s : State, s.flag F.SYS_RMAP_STAT_BUSY = true → s.rmap.staged = [] → s.rmap.reason < 256 → s.rmap.sect < 256 → s.flt.dayQ.length < 32 → resetBegun s = false →
    (s.rmap.cmd < 5 ∨ s.rmap.reason ≠ rmOk → Goes .rmapCommandDone s (fun t => t.flag F.SYS_RMAP_STAT_BUSY = false ∧ t.flag F.SYS_RMAP_STAT_DONE = true ∧
      t.get F.SYS_RMAP_STAT_RESULT = s.rmap.reason ∧ t.get F.SYS_RMAP_STAT_RESULT_SECT = s.rmap.sect ∧ t.rmap = { s.rmap with cmd := 0 } ∧
      t.flt.dayQ = s.flt.dayQ ++ [⟨s.pm, 0x00, 0x10, s.rmap.cmd, s.rmap.reason + s.rmap.sect * 2 ^ 8⟩] ∧ Untouched s t [A.SYS_RMAP_STAT])) ∧
    (∀ b : Bool, s.rmap.cmd = (if b then 6 else 5) → s.rmap.reason = rmOk → s.ledg.flips = [] → (∀ x ∈ envSections s (slotEnv b), x.typ ≤ 9 ∨ x.typ = 0x11) →
      Goes .rmapCommandDone s (fun t => t.flag F.SYS_RMAP_STAT_BUSY = false ∧ t.flag F.SYS_RMAP_STAT_DONE = true ∧ t.get F.SYS_RMAP_STAT_RESULT = 0 ∧
        t.get F.SYS_RMAP_STAT_RESULT_SECT = s.rmap.sect ∧ t.rmap.cmd = 0 ∧ Boots s t b ∧
        (t.flt.dayLost = 0 → t.flt.dayQ.getLast? = some ⟨s.pm, 0x00, 0x10, s.rmap.cmd, s.rmap.sect * 2 ^ 8⟩))))

/-- At the apply point of an APPLY its postmark is recorded, LIVE_SEQ counts it, and every section has taken hold: stated for an envelope of ROUTE and PACE sections, of
which the former replace and add routes and the latter set the policy; nothing else changes (R35, R36, Table 2.3). The model's choices that this rests on: log entry
114. -/
def Obligations.ApplyPointTakesHold : Prop :=
  ∀ (s : State) (i j : Nat) (rb pb : List Byte), s.rmap.cmd = 1 → s.rmap.staged = [⟨0x09, i, rb⟩, ⟨0x11, j, pb⟩] → resetBegun s = false →
    Goes .applyPoint s (fun t => t.get F.SYS_RMAP_APPLY_LO_PM_LO = s.pm % 2 ^ 32 ∧ t.get F.SYS_RMAP_APPLY_HI_PM_HI = s.pm / 2 ^ 32 ∧
      t.get F.SYS_RMAP_LIVE_LIVE_SEQ = (s.get F.SYS_RMAP_LIVE_LIVE_SEQ + 1) % 65536 ∧ t.rmap.staged = [] ∧
      (∀ r ∈ (recordsOf 8 rb).map routeRec, r ∈ t.rmap.routes) ∧
      (∀ r ∈ s.rmap.routes, (∀ n ∈ (recordsOf 8 rb).map routeRec, ¬(n.rtype = r.rtype ∧ n.source = r.source)) → r ∈ t.rmap.routes) ∧
      t.get F.PACE_POLICY_POLICY = recNum pb 0 1 % 4 ∧ t.get F.PACE_POLICY_VCAP = recNum pb 1 1 % 256 ∧ t.get F.PACE_POLICY_GUARD = recNum pb 2 1 % 64 ∧
      t.get F.PACE_TEMP_HI_LIMIT = recNum pb 4 2 % 65536 ∧
      Untouched s t [A.SYS_RMAP_APPLY_LO, A.SYS_RMAP_APPLY_HI, A.SYS_RMAP_LIVE, A.PACE_POLICY, A.PACE_TEMP_HI])

/-- An address of the host address space that holds no memory and no register reads as 0 by any unit, in a read of the SPI port as well, and a write to it is refused:
the state stays but for the record of the refusal, which holds its address and the writer when it is the first (R7). -/
def Obligations.UnoccupiedAddressesReadZero : Prop :=
  let vacant := fun (a : Nat) => inLedger a = false ∧ inPigeon a = false ∧ findReg (a / 4 * 4) = none ∧ mirrorOf (a / 4 * 4) = none ∧ (a < 0x10110000 ∨ 0x10112000 ≤ a)
  (∀ (u a : Nat) (s : State), vacant a → if 0x10000000 ≤ a then regRead u (a / 4 * 4) s = (0, s) else hostReadByte u a s = (0#8, s)) ∧
  (∀ (a : Word) (m : Nat) (s : State), a.toNat + m ≤ 2 ^ 32 → (∀ i, i < m → vacant (a.toNat + i)) → hostAlive s = true → s.host.low = true → s.host.busy = false →
    s.host.discard = false → s.host.erred = false → s.host.posted = [] → Goes (.read a m none) s (fun t => t.host.out = List.replicate m 0#8 ∧
      Untouched s t [A.HOST_CNT] ∧ t = { s with regs := t.regs, host := t.host })) ∧
  (∀ (u : Fin 256) (a v : Word) (s : State), vacant a.toNat → Writes u a.toNat s → Goes (.registerWrite u a v none) s (fun t =>
    Untouched s t [A.SYS_DIAG, A.SYS_RSVD_ADDR] ∧ t = { s with regs := t.regs } ∧ t.flag F.SYS_DIAG_RSVD_WR = true ∧
    (s.flag F.SYS_DIAG_RSVD_WR = false → t.get F.SYS_RSVD_ADDR_ADDR = a.toNat / 4 ∧ t.get F.SYS_DIAG_RSVD_SRC = u.val) ∧
    (s.flag F.SYS_DIAG_RSVD_WR = true → t.reg A.SYS_RSVD_ADDR = s.reg A.SYS_RSVD_ADDR ∧ t.get F.SYS_DIAG_RSVD_SRC = s.get F.SYS_DIAG_RSVD_SRC)))

/-! ## The pace governor, the sensor, the postmark (03) and the post bus (04) -/

/-- A measurement window sets PACE_NOW, the need code, EFF_CAP and the set-point as R42, R46 and R49 lay down; a short window sets SHORT (R48), and the first of a run
raises the governor's PACE fault (R48, R365). A sensor update sets PACE_TEMP to the reading held to -55 to +150 degrees; a reading that rises to or above LIMIT sets
TJ_HI, and tells the postmaster if one has lain below LIMIT - 8 since it was last told (R52); a second successive reading at or above +135 degrees sets TRIP and
raises the thermal fault, which brings safe hold (R53, R370). The model's choices that this rests on: log entries 82 and 90. -/
def Obligations.PaceAndSensors : Prop :=
  (∀ (count now need eff old target low : Nat) (s : State), s.pow.phase = .up → s.pwr ≤ 1 → 0x7C ∉ s.flt.resets →
    now = min 0xFFFF (count * 65536 / 1000000) → need = paceNeed s none 0 → eff = effCap s need → old = s.get F.PACE_VCORE_SETPOINT → low = s.pace.lowCount →
    target = need + (need * s.get F.PACE_POLICY_GUARD + 63) / 64 →
    ((now < need → old = eff → s.pace.prevShort = true) → Goes (.measurementWindowEnd count) s (fun t =>
      t.get F.PACE_NOW_NOW = now ∧ t.get F.PACE_VCORE_NEED_CODE = needCode need ∧ t.get F.PACE_VCORE_EFF_CAP = eff ∧
      t.get F.PACE_VCORE_SETPOINT = (if now < target then min (min old eff + 8) eff
        else if target * 17 ≤ now * 16 ∧ low = 63 then min old eff - 1 else min old eff) ∧
      t.pace = { s.pace with lowCount := if now < target ∨ now * 16 < target * 17 ∨ low = 63 then 0 else low + 1, prevShort := decide (now < need ∧ old = eff),
                             polUsed := s.get F.PACE_POLICY_POLICY, vcapUsed := s.get F.PACE_POLICY_VCAP } ∧
      t.flag F.PACE_STAT_SHORT = (s.flag F.PACE_STAT_SHORT || decide (now < need ∧ old = eff)) ∧
      Untouched s t [A.PACE_NOW, A.PACE_VCORE, A.PACE_STAT] ∧ t = { s with regs := t.regs, pace := t.pace })) ∧
    (∀ k, s.pace.prevShort = false → Listens s k → priValid s 0x7C = false → s.flt.dayQ.length < 32 →
      Goes (.measurementWindowEnd count) s (fun t => t.get F.PACE_NOW_NOW = now ∧ t.pace.prevShort = decide (now < need ∧ old = eff) ∧
        (now < need ∧ old = eff → t.flag F.PACE_STAT_SHORT = true ∧ t.reg (A.SYS_FLT_PRI 0x7C) = 0x84010000 ∧
          t.reg (A.SYS_FLT_PRIPM 0x7C) = BitVec.ofNat 32 s.pm ∧ Told s t (mkRecord s.pm s.devId 0x7FFFFF 0x30 0 0x0401 0 0x7C 0) ∧
          t.flt.dayQ = s.flt.dayQ ++ [⟨s.pm, 0x7C, 0x08, 1, 4⟩] ∧
          Untouched s t [A.PACE_NOW, A.PACE_VCORE, A.PACE_STAT, A.SYS_FLT_PRI 0x7C, A.SYS_FLT_PRIPM 0x7C]) ∧
        (need ≤ now ∨ old ≠ eff → t.flag F.PACE_STAT_SHORT = s.flag F.PACE_STAT_SHORT ∧ t.cores = s.cores ∧ t.flt = s.flt ∧
          Untouched s t [A.PACE_NOW, A.PACE_VCORE, A.PACE_STAT])))) ∧
  (∀ (x code lim : Int) (s : State) (armed : Bool) (run : Nat), s.pow.phase = .up → s.pwr ≤ 1 → s.flag F.PWR_STAT_OSC_OK = true → code = max (-220) (min x 600) →
    lim = toSigned 16 (s.get F.PACE_TEMP_HI_LIMIT) →
    armed = (decide (code < lim - 8) || (s.pace.armed && decide (code < lim))) → run = (if 540 ≤ code then min 3 (s.pace.hotRun + 1) else 0) →
    let again := 540 ≤ code ∧ s.pace.hotRun = 1
    ((code < lim ∨ s.pace.below = false) → ¬ again → Goes (.temperatureUpdate x) s (fun t => t.get F.PACE_TEMP_TEMP = ofSigned 16 code ∧ Untouched s t [A.PACE_TEMP] ∧
      t = { s with regs := t.regs, pace := { s.pace with below := decide (code < lim), armed := armed, hotRun := run } })) ∧
    (lim ≤ code → s.pace.below = true → s.pace.armed = false → ¬ again → Goes (.temperatureUpdate x) s (fun t => t.get F.PACE_TEMP_TEMP = ofSigned 16 code ∧
      t.flag F.PACE_STAT_TJ_HI = true ∧ Untouched s t [A.PACE_TEMP, A.PACE_STAT] ∧
      t = { s with regs := t.regs, pace := { s.pace with below := false, armed := armed, hotRun := run } })) ∧
    (∀ k, lim ≤ code → s.pace.below = true → s.pace.armed = true → ¬ again → Listens s k → Goes (.temperatureUpdate x) s (fun t => t.get F.PACE_TEMP_TEMP = ofSigned 16 code ∧
      t.flag F.PACE_STAT_TJ_HI = true ∧ Told s t (mkRecord s.pm s.devId 0x7FFFFF 0x3A 0 (ofSigned 24 (code * 25)) 1 0x7C 0) ∧
      t.pace = { s.pace with below := false, armed := false, hotRun := run } ∧ Untouched s t [A.PACE_TEMP, A.PACE_STAT])) ∧
    (∀ k, code < lim ∨ s.pace.below = false → again → Listens s k → priValid s 0x7C = false → Goes (.temperatureUpdate x) s (fun t => t.get F.PACE_TEMP_TEMP = ofSigned 16 code ∧
      t.flag F.PACE_STAT_TRIP = true ∧ t.reg (A.SYS_FLT_PRI 0x7C) = 0x85010000 ∧ t.reg (A.SYS_FLT_PRIPM 0x7C) = BitVec.ofNat 32 s.pm ∧
      (∃ d, t.core 0 = some d ∧ d.queue = k.queue ++ [mkRecord s.pm s.devId 0x7FFFFF 0x30 0 0x0501 0 0x7C 0]) ∧
      (s.safe = false → t.safe = true ∧ t.get F.SYS_FAULT_SAFE_UNIT = 0x7C ∧ t.get F.SYS_FAULT_SAFE_CLASS = 5 ∧ (∀ c, c < 65 → t.get (F.SRT_STAT_STATE c) = stStopped) ∧
        ∀ i, i < 16 → t.flag (F.FC_CTRL_RUN i) = false) ∧
      t.pace = { s.pace with below := decide (code < lim), armed := armed, hotRun := run })))

/-- SYS_PM_LO at 0x1010_0040 and SYS_PM_HI at 0x1010_0044: a read of SYS_PM_LO returns the low half of the postmark and latches the high half into SYS_PM_HI, so that the
two name one instant; both are RO, so that a write to one changes no register (R55). -/
def Obligations.PostmarkReadLatches : Prop :=
  A.SYS_PM_LO = 0x10100040 ∧ A.SYS_PM_HI = 0x10100044 ∧
  (∀ (u : Fin 256) (s : State), reaches u.val A.SYS_PM_LO false s = true →
    Goes (.postmarkRead u) s (fun t => t.rdata = s.pm % 2 ^ 32 ∧ (t.reg A.SYS_PM_HI).toNat = s.pm / 2 ^ 32 ∧ t.rdata + 2 ^ 32 * (t.reg A.SYS_PM_HI).toNat = s.pm ∧
      Untouched s t [A.SYS_PM_HI] ∧ t = { s with regs := t.regs, rdata := t.rdata })) ∧
  (∀ (u : Fin 256) (a : Nat) (v : Word) (s : State), a = A.SYS_PM_LO ∨ a = A.SYS_PM_HI → Writes u a s →
    Goes (.registerWrite u (BitVec.ofNat 32 a) v none) s (fun t => Untouched s t [] ∧ t = { s with regs := t.regs }))

/-- A bank request joins the requests of the banks it concerns and does nothing else until it is granted (R72, R75, R77): its span is cut into pieces, each in one bank
and of as many beats of 16 bytes as it touches, that cover its bytes in the memories once each, and each piece joins what the unit's request of that kind on its bank
carries, or begins one. A piece of a bank that the unit's mask leaves out joins none, for which a core's committed access takes WINDOW (R56, R80). The model's
choices that this rests on: log entries 3, 80 and 81. -/
def Obligations.BankRequests : Prop :=
  (∀ (a n : Nat) (d : Option (List Byte)), (∀ p ∈ piecesOf a n d, 0 < p.len ∧ a ≤ p.addr ∧ p.addr + p.len ≤ a + n ∧ p.beats * 16 = (p.addr + p.len + 15) / 16 * 16 - p.addr / 16 * 16 ∧
      (∀ i, i < p.len → busBank (p.addr + i) = busBank p.addr) ∧ p.data = d.map (fun l => (l.drop (p.addr - a)).take p.len)) ∧
    (piecesOf a n d).Pairwise (fun p q => p.addr + p.len ≤ q.addr) ∧
    ∀ x, a ≤ x → x < a + n → (inLedger x || inPigeon x) = true → ∃ p ∈ piecesOf a n d, p.addr ≤ x ∧ x < p.addr + p.len) ∧
  (∀ (u : Fin 128) (ahead : Bool) (a : Word) (x : BusAccess) (s : State) (ps : List BusPiece), logicPowered s = true →
    ps = (match x with | .read n => piecesOf (a.toNat / 16 * 16) (16 * n) none | .write d => piecesOf a.toNat d.length (some d)) →
    (0x40 < u.val ∨ ahead = true ∨ ∀ p ∈ ps, maskOk s u.val (busBank p.addr) = true) →
    Goes (.bankRequest u ahead a x []) s (fun t => t = { s with arbs := t.arbs } ∧ ∀ (b : Nat) (q : Arb), s.arbs[b]? = some q →
      (let mine := ps.filter (fun p => busBank p.addr == b && maskOk s u.val b)
       t.arbs[b]? = some (if mine = [] then q
        else if q.reqs.any (fun r => r.unit == u.val && r.ahead == ahead) then
          { q with reqs := q.reqs.map (fun r => if r.unit = u.val ∧ r.ahead = ahead then { r with pieces := r.pieces ++ mine } else r) }
        else { q with reqs := q.reqs ++ [⟨u.val, ahead, mine, some s.tb⟩] })))) ∧
  (∀ (u : Fin 65) (a : Word) (d : List Byte) (s : State) (k : Core), logicPowered s = true → s.core u = some k → k.spec = none → s.get (F.SRT_STAT_TDEPTH u) = 0 →
    (u.val = 0 → pmHandling s = false) → (k.r.sp - 1).toNat < 0x8000 → (k.r.sp - 2).toNat < 0x8000 → (k.r.sp - 3).toNat < 0x8000 → k.entries.length < 4 →
    (∃ p ∈ piecesOf a.toNat d.length (some d), maskOk s u.val (busBank p.addr) = false) →
    Goes (.bankRequest ⟨u.val, by omega⟩ false a (.write d) []) s (fun t => t.get (F.SRT_TRAP_CAUSE1 u) = 4 ∧ t.get (F.SRT_STAT_TDEPTH u) = 1)) ∧
  (∀ (u : Fin 128) (ahead : Bool) (a : Word) (x : BusAccess) (f : Flip) (s : State), logicPowered s = true → f ∉ s.ledg.flips → ∃ t,
    exec (.bankRequest u ahead a x [f]) s = .next t ∧ exec (.bankRequest u ahead a x []) { s with ledg := { s.ledg with flips := s.ledg.flips ++ [f] } } = .next t)

/-- An arbitration phase of any bank answers a state: the grant delivered before begins, is counted, and carries its beats up to its burst limit; requests that the mask
no longer enables leave; and of those that stand one is granted next, with the burst limit of its unit: committed work before priority-0 work, a unit not yet granted
in the turn before one that was, the highest priority first and the lowest unit ID within it. A bank with no request left is idle (R76 to R78, R84). A core whose
first beat comes later than 0.3 µs after its request has SLOW set and SLOWWIN counted (R232); its priority-0 work counts nowhere and has no effect (R56). A write's
bytes enter the memory with its last beat (R72). Stated with no turned cell, for grants that carry reads or priority-0 work, and for a grant that carries one write.
The model's choices that this rests on: log entries 3, 80, 81, 83 and 84. -/
def Obligations.ArbitrationGrants : Prop :=
  (∀ (b : Fin 24) (s : State), ∃ t, exec (.arbitrationPhase b) s = .next t) ∧
  (∀ (n : Nat) (ps : List BusPiece), ((carry n ps).2.map (·.beats)).sum = (ps.map (·.beats)).sum - n) ∧
  (∀ (b : Fin 24) (a : Arb) (s : State), s.arbs[b.val]? = some a → s.ledg.flips = [] →
    (∀ g, a.granted = some g → (g.ahead = true ∧ g.unit ≠ 0x7B) ∨ ∀ r ∈ a.reqs, r.unit = g.unit → r.ahead = g.ahead → ∀ p ∈ r.pieces, p.data = none) →
    (∀ r ∈ a.reqs, maskOk s r.unit b = true ∨ 0x40 < r.unit ∨ r.ahead = true) →
    ∃ t, exec (.arbitrationPhase b) s = .next t ∧ ∃ a', t.arbs[b.val]? = some a' ∧
    a'.reqs = ((match a.granted with
      | none => a.reqs
      | some g => (a.reqs.map (fun (r : BusReq) => if r.unit = g.unit ∧ r.ahead = g.ahead then { r with pieces := (carry g.burst r.pieces).2, since := none } else r)).filter
          (fun r => !r.pieces.isEmpty)).filter (fun r => maskOk s r.unit b)) ∧
    (a'.reqs = [] → a'.granted = none ∧ a'.turn = [] ∧ a'.owner = none) ∧
    (a'.reqs ≠ [] → a'.owner = a.granted.map (·.unit) ∧ ∃ r ∈ a'.reqs, a'.granted = some ⟨r.unit, r.ahead, s.get (F.ARB_CFG_BURST r.unit)⟩ ∧
      a'.turn = (if r.unit ∈ a.turn then [r.unit] else a.turn ++ [r.unit]) ∧ (r.ahead = true → ∀ q ∈ a'.reqs, q.ahead = true) ∧
      ∀ q ∈ a'.reqs, q.ahead = r.ahead → (q.unit ∉ a.turn → r.unit ∉ a.turn) ∧ ((q.unit ∈ a.turn ↔ r.unit ∈ a.turn) →
        s.get (F.ARB_CFG_PRIO q.unit) ≤ s.get (F.ARB_CFG_PRIO r.unit) ∧
        (s.get (F.ARB_CFG_PRIO q.unit) = s.get (F.ARB_CFG_PRIO r.unit) → r.unit ≤ q.unit))) ∧
    t.get (F.ARB_BANK_STAT_GRANTS b) = (s.get (F.ARB_BANK_STAT_GRANTS b) + b2n (a.granted.any (fun g => !g.ahead || g.unit == 0x7B))) % 65536 ∧
    (∀ g, a.granted = some g → g.unit ≤ 0x40 → g.ahead = false →
      let late := a.reqs.any (fun r => r.unit == g.unit && !r.ahead && r.since.any (fun m => decide (3 * 2 ^ 48 < (s.tb - m) * 10000000)))
      t.get (F.SRT_STAT_SLOW g.unit) = (if late then 1 else s.get (F.SRT_STAT_SLOW g.unit)) ∧
      t.get (F.SRT_CNT_SLOWWIN g.unit) = (if late then min 0xFFFF (s.get (F.SRT_CNT_SLOWWIN g.unit) + 1) else s.get (F.SRT_CNT_SLOWWIN g.unit)) ∧
      t.reg (A.SRT_STAT g.unit) = (if late then s.reg (A.SRT_STAT g.unit) ||| 4#32 else s.reg (A.SRT_STAT g.unit)) ∧
      t.get (F.SRT_CNT_SEALS g.unit) = s.get (F.SRT_CNT_SEALS g.unit)) ∧
    Untouched s t (A.ARB_BANK_STAT b :: match a.granted with
      | some g => if g.unit ≤ 0x40 ∧ g.ahead = false then [A.SRT_STAT g.unit, A.SRT_CNT g.unit] else []
      | none => []) ∧ (∀ c, c ≠ b.val → t.arbs[c]? = s.arbs[c]?) ∧ t = { s with regs := t.regs, arbs := t.arbs }) ∧
  (∀ (b : Fin 24) (a : Arb) (n : Nat) (p : BusPiece) (d : List Byte) (s : State), s.arbs[b.val]? = some a → a.granted = some ⟨0x77, false, n⟩ → p.beats ≤ n →
    a.reqs = [⟨0x77, false, [p], none⟩] → p.data = some d → d ≠ [] → 0x08000000 ≤ p.addr → p.addr + d.length ≤ 0x09000000 → busBank p.addr = b.val →
    p.addr % 2 ^ 20 + d.length ≤ 2 ^ 20 → maskOk s 0x77 b = true → Goes (.arbitrationPhase b) s (fun t => t.bytes p.addr d.length = d ∧
      (∀ x, x < p.addr ∨ p.addr + d.length ≤ x → t.byte x = s.byte x) ∧ (∀ x, x ≠ A.ARB_BANK_STAT b → t.reg x = s.reg x) ∧
      t.arbs[b.val]? = some ⟨[], [], none, none⟩))

/-- A requester that was granted and has not begun lowers its request: the grant lapses and its request leaves with all it was to carry; the turn, in which its unit is
counted as granted, stands; one dead cycle is counted, and the next phase chooses among the requests left; nothing else changes. With no such grant nothing changes
(R79). The model's choices that this rests on: log entries 3, 83 and 84. -/
def Obligations.GrantWithdrawn : Prop :=
  ∀ (b : Fin 24) (a : Arb) (s : State), s.arbs[b.val]? = some a →
    (a.granted = none → Goes (.grantWithdrawal b) s (fun t => t = s)) ∧
    (∀ g, a.granted = some g → Goes (.grantWithdrawal b) s (fun t =>
      t.arbs[b.val]? = some { a with granted := none, reqs := a.reqs.filter (fun r => r.unit ≠ g.unit ∨ r.ahead ≠ g.ahead) } ∧
      t.get (F.ARB_BANK_STAT_DEAD b) = (s.get (F.ARB_BANK_STAT_DEAD b) + 1) % 256 ∧ t.get (F.ARB_BANK_STAT_GRANTS b) = s.get (F.ARB_BANK_STAT_GRANTS b) ∧
      Untouched s t [A.ARB_BANK_STAT b] ∧ (∀ c, c ≠ b.val → t.arbs[c]? = s.arbs[c]?) ∧ t = { s with regs := t.regs, arbs := t.arbs }))

/-- The configuration-write check: an arbiter register or a budget takes a written word when every condition of Table 10.6 holds with it; else it keeps its word, and
GATE_STAT and the GATE_CHK registers name the first condition that fails, the writer and the address (R83, R217, R219); the writer of a change by the test access
port, which has no unit ID of R8, is a free value below 0x80. GATE_OPEN.LIMIT is under the same check; a write of a mask that is all ones for good changes nothing
(R80). The first condition that fails is that of Table 10.6: all stand, or one falls and those before it stand (R211, R217, R218, R288). The model's choices that
this rests on: log entries 3 and 113. -/
def Obligations.ConfigurationWriteCheck : Prop :=
  (∀ (u : Fin 256) (v : Word) (s : State),
    let checked := fun (i : Instr) (a : Nat) => Accepts u a v s →
      (failingTest (s.setReg a v) = none → Goes i s (fun t => t = s.setReg a v)) ∧
      (∀ k, failingTest (s.setReg a v) = some k → s.flt.dayQ.length < 32 → Goes i s (fun t => t.flag F.GATE_STAT_CHK_REF = true ∧
        t.get F.GATE_CHK_TEST = k ∧ (u.val < 0x80 → t.get F.GATE_CHK_WRITER = u.val) ∧ t.get F.GATE_CHK_WRITER < 0x80 ∧ t.get F.GATE_CHK_ADDR_ADDR = a ∧
        t.flt.dayQ = s.flt.dayQ ++ [⟨s.pm, 0x77, 0x12, k, a⟩] ∧ Untouched s t [A.GATE_STAT, A.GATE_CHK, A.GATE_CHK_ADDR]))
    (∀ n : Fin 128, checked (.arbConfigWrite u n false v) (A.ARB_CFG n)) ∧
    (∀ n : Fin 128, isFixedMask n = false → checked (.arbConfigWrite u n true v) (A.ARB_MASK n)) ∧
    (∀ b, b ≠ .openLimit → checked (.budgetWrite u b v) (budgetAddr b))) ∧
  (∀ (u : Fin 256) (v : Word) (s : State), Accepts u A.GATE_OPEN v s → failingTest (s.put F.GATE_OPEN_LIMIT (bits v.toNat 16 12)) = none →
    Goes (.budgetWrite u .openLimit v) s (fun t => t.get F.GATE_OPEN_LIMIT = bits v.toNat 16 12 ∧ t = s.put F.GATE_OPEN_LIMIT (bits v.toNat 16 12))) ∧
  (∀ (u : Fin 256) (n : Fin 128) (v : Word) (s : State), Accepts u (A.ARB_MASK n) v s → isFixedMask n = true → Goes (.arbConfigWrite u n true v) s (fun t => t = s)) ∧
  (∀ s : State, (failingTest s = none ↔ ∀ k, 1 ≤ k → k ≤ 7 → Condition s k) ∧
    ∀ k, failingTest s = some k ↔ 1 ≤ k ∧ k ≤ 7 ∧ ¬ Condition s k ∧ ∀ j, 1 ≤ j → j < k → Condition s j)

/-! ## The ledger controller: programs, transactions, errors (04) -/

/-- The end of a program: a line whose verify is good, or good after the one retry, leaves its bank's write buffer, its contents as they read before, and its physical
line has worn by one program or two; a line whose block has no spare keeps its old contents and is reported failed; one whose block is retired waits in the buffer
for its move, as every line of a block does that is being moved. A system record becomes durable, or is programmed again where no spare is left (R62, R66, R68,
R427). A block whose most-written line exceeds the least-worn free block by 65,536 is moved, by a copy, which takes another spare where it fails, a move record at
which its place changes, the block map in the system records, and a retire record (R67). What the verify of a line of a commit, a retirement or a flush found is kept
for its command. The model's choices that this rests on: log entries 3, 30, 31, 86, 87 and 88. -/
def Obligations.ProgramsComplete : Prop :=
  (∀ (b : Fin 8) (v : Verify) (e : BufLine) (q : List BufLine) (s : State), nth s.ledg.bufs b [] = e :: q → s.ledg.moves = [] → v ≠ .failed →
    Goes (.lineProgramComplete (.line b v)) s (fun t => t.ledg.bufs = upd s.ledg.bufs b (fun _ => q) ∧ (∀ a, t.byte a = s.byte a) ∧
      (let blk := e.cells.line / 4096
       let p := physBlock s blk * 64 + e.cells.line / 64 % 64
       mapGet wearDefault t.ledg.wear p = mapGet wearDefault s.ledg.wear p + (if v = .good then 1 else 2) ∧
       (∀ n, n ≠ p → mapGet wearDefault t.ledg.wear n = mapGet wearDefault s.ledg.wear n) ∧
       (65536 ≤ t.ledg.maxWear → t.ledg.moves = [] → ∀ x ∈ s.ledg.spares, blockWear t (physBlock s blk) < blockWear t x + 65536) ∧
       (t.ledg.moves = [] ∨ ∃ x ∈ s.ledg.spares, t.ledg.moves = [⟨blk, physBlock s blk, x, false, .copy⟩] ∧ blockWear t x + 65536 ≤ blockWear t (physBlock s blk))) ∧
      Untouched s t [A.LEDG_WEAR] ∧ t = { s with regs := t.regs, ledg := { s.ledg with
        bufs := t.ledg.bufs, wear := t.ledg.wear, maxWear := t.ledg.maxWear, moves := t.ledg.moves, spares := t.ledg.spares } })) ∧
  (∀ (b : Fin 8) (v : Verify) (s : State), nth s.ledg.bufs b [] = [] → Goes (.lineProgramComplete (.line b v)) s (fun t => t = s)) ∧
  (∀ (b : Fin 8) (e : BufLine) (q : List BufLine) (s : State), nth s.ledg.bufs b [] = e :: q → s.ledg.moves = [] → s.ledg.spares = [] → e.cells.data.length = 64 →
    Goes (.lineProgramComplete (.line b .failed)) s (fun t => t.ledg.bufs = upd s.ledg.bufs b (fun _ => q) ∧ t.bytes e.cells.line 64 = e.cells.data ∧
      (∀ a, a < e.cells.line ∨ e.cells.line + 64 ≤ a → t.byte a = s.byte a) ∧ t.ledg.failed = s.ledg.failed ++ [e.writer] ∧ t.flag F.LEDG_STAT_NO_SPARE = true)) ∧
  (∀ (b : Fin 8) (e : BufLine) (q : List BufLine) (x : Nat) (s : State), nth s.ledg.bufs b [] = e :: q → s.ledg.moves = [] → s.ledg.spares = [x] → s.ledg.maxWear + 2 < 65536 →
    mapGet wearDefault s.ledg.wear (physBlock s (e.cells.line / 4096) * 64 + e.cells.line / 64 % 64) + 2 < 65536 → 64 < s.get F.LEDG_WEAR_SPARES →
    Goes (.lineProgramComplete (.line b .failed)) s (fun t => t.ledg.bufs = s.ledg.bufs ∧ t.ledg.moves = [⟨e.cells.line / 4096, physBlock s (e.cells.line / 4096), x, true, .copy⟩] ∧
      t.ledg.spares = [] ∧ t.get F.LEDG_WEAR_SPARES = s.get F.LEDG_WEAR_SPARES - 1 ∧ t.ledg.failed = s.ledg.failed ∧ Untouched s t [A.LEDG_WEAR])) ∧
  (∀ (b : Fin 8) (v : Verify) (s : State), (∀ e ∈ nth s.ledg.bufs b [], lineWaits s e.cells.line = true) → Goes (.lineProgramComplete (.line b v)) s (fun t => t = s)) ∧
  (∀ (v : Verify) (s : State), s.ledg.held = [] → s.ledg.flips = [] → (s.ledg.moves = [] → Goes (.lineProgramComplete (.move v)) s (fun t => t = s)) ∧
    (∀ m q, s.ledg.moves = m :: q →
      let steps := fun (t : State) (stage : MoveStage) => t.ledg.moves = { m with stage := stage } :: q ∧ (∀ a, t.byte a = s.byte a) ∧ Untouched s t [A.LEDG_WEAR]
      (m.stage = .copy → v ≠ .failed → Goes (.lineProgramComplete (.move v)) s (fun t => steps t .record ∧
        (∀ i, i < 64 → mapGet wearDefault t.ledg.wear (m.new * 64 + i) = mapGet wearDefault s.ledg.wear (m.new * 64 + i) + (if v = .retried ∧ i = 0 then 2 else 1)) ∧
        t.ledg.blockMap = s.ledg.blockMap ∧ t.ledg.spares = s.ledg.spares)) ∧
      (∀ x, m.stage = .copy → s.ledg.spares = [x] → 64 < s.get F.LEDG_WEAR_SPARES → Goes (.lineProgramComplete (.move .failed)) s (fun t =>
        t.ledg.moves = { m with new := x } :: q ∧ t.ledg.spares = [] ∧ t.get F.LEDG_WEAR_SPARES = s.get F.LEDG_WEAR_SPARES - 1 ∧ t.ledg.blockMap = s.ledg.blockMap ∧
        Untouched s t [A.LEDG_WEAR])) ∧
      (m.stage = .record → v ≠ .failed → Goes (.lineProgramComplete (.move v)) s (fun t => steps t .map ∧
        (∃ a, t.ledg.journal.find? (fun e => e.1 == s.ledg.jrnlPos) = some (a, .move m.block m.old m.new)) ∧ t.ledg.jrnlPos = (s.ledg.jrnlPos + 1) % 4096 ∧
        (∀ x, physBlock t x = if x = m.block then m.new else physBlock s x) ∧ t.ledg.spares = s.ledg.spares ++ (if m.retired then [] else [m.old]))) ∧
      (m.stage = .map → v ≠ .failed → Goes (.lineProgramComplete (.move v)) s (fun t => steps t .retire ∧ t.recs = { s.recs with map := some s.ledg.blockMap } ∧
        ∀ x, physBlock t x = physBlock s x)) ∧
      (m.stage = .retire → v ≠ .failed → Goes (.lineProgramComplete (.move v)) s (fun t => (∀ x, physBlock t x = physBlock s x) ∧ t.ledg.moves = q ∧
        (∃ a, t.ledg.journal.find? (fun e => e.1 == s.ledg.jrnlPos) = some (a, .moveRetire m.block)) ∧ Untouched s t [A.LEDG_WEAR])))) ∧
  (∀ (v : Verify) (r : RecordKind) (q : List RecordKind) (s : State), s.ledg.recPend = r :: q → blockMoving s (recLine r.ix) = true → Goes (.lineProgramComplete (.record v)) s (fun t => t = s)) ∧
  (∀ (r : RecordKind) (q : List RecordKind) (s : State), s.ledg.recPend = r :: q → s.ledg.moves = [] → s.ledg.spares = [] → Goes (.lineProgramComplete (.record .failed)) s (fun t =>
      t.ledg.recPend = q ++ [r] ∧ t.recs = s.recs ∧ t.flag F.LEDG_STAT_NO_SPARE = true)) ∧
  (∀ (v : Verify) (r : RecordKind) (q : List RecordKind) (s : State), s.ledg.recPend = r :: q → v ≠ .failed → blockMoving s (recLine r.ix) = false →
    Goes (.lineProgramComplete (.record v)) s (fun t =>
      t.ledg.recPend = q ∧ t.recs = (match r with
        | .fresh p v => ({ s.recs with fresh := upd s.recs.fresh p (fun _ => some v) } : Records)
        | .serial v => { s.recs with serial := some v }
        | .cascadeId v => { s.recs with casId := some v }) ∧
      Untouched s t [A.LEDG_WEAR] ∧ t = { s with regs := t.regs, ledg := t.ledg, recs := t.recs })) ∧
  (∀ (v : Verify) (s : State), Goes (.lineProgramComplete (.part v)) s (fun t => t = { s with ledg := { s.ledg with verify := s.ledg.verify ++ [v] } }))

/-- A port's transaction commands: OPEN opens one with the next serial, is ignored while one is open and is REFUSED at 16 open; COMMIT starts the commit of one without a
conflict, fails one that has met one with CONFLICT, and waits behind a held write of one that has one; ABORT discards it (R69 to R71, Table 4.10). The model's
choices that this rests on: log entry 89. -/
def Obligations.TransactionCommands : Prop :=
  ∀ (u : Fin 256) (s : State), u.val = 0x75 ∨ u.val = 0x76 → Writes u A.LEDG_TXN s →
    (txnOf s u = none → openTxns s < 16 → Goes (.txnOpen u) s (fun t => Untouched s t [] ∧ t.ledg = { s.ledg with
      txns := s.ledg.txns ++ [⟨u.val, s.ledg.nextTxn, .opened, [], false, .none, []⟩], nextTxn := (s.ledg.nextTxn + 1) % 2 ^ 32 } ∧ t = { s with regs := t.regs, ledg := t.ledg })) ∧
    (txnOf s u = none → 16 ≤ openTxns s → Goes (.txnOpen u) s (fun t => t.flag ⟨txnReg u, 14, 1⟩ = true ∧ Untouched s t [txnReg u] ∧ t = { s with regs := t.regs })) ∧
    (txnOf s u ≠ none → Goes (.txnOpen u) s (fun t => Untouched s t [] ∧ t = { s with regs := t.regs })) ∧
    (∀ x, txnOf s u = some x → x.phase = .opened → x.conflict = false → heldIn s x = false → .commit u.val ∉ s.ledg.held → Goes (.txnCommit u) s (fun t => Untouched s t [] ∧ t = { s with regs := t.regs, ledg := t.ledg } ∧
      t.ledg = { s.ledg with txns := s.ledg.txns.map (fun y => if y.owner = u.val ∧ y.phase ≠ .committed then { y with phase := .committing } else y) })) ∧
    (∀ x, txnOf s u = some x → x.phase = .opened → heldIn s x = true → .commit u.val ∉ s.ledg.held → Goes (.txnCommit u) s (fun t => Untouched s t [] ∧
      t = { s with regs := t.regs, ledg := { s.ledg with held := s.ledg.held ++ [.commit u.val] } })) ∧
    (∀ x, txnOf s u = some x → x.phase = .opened → x.conflict = true → x.act = .none → heldIn s x = false → .commit u.val ∉ s.ledg.held → Goes (.txnCommit u) s (fun t => t.flag ⟨txnReg u, 16, 1⟩ = true ∧ Untouched s t [txnReg u] ∧
      t = { s with regs := t.regs, ledg := { s.ledg with txns := s.ledg.txns.filter (fun y => y.owner ≠ u.val ∨ y.phase = .committed) } })) ∧
    (∀ x, txnOf s u = some x → x.phase = .opened → Goes (.txnAbort u) s (fun t => Untouched s t [] ∧
      t = { s with regs := t.regs, ledg := { s.ledg with txns := s.ledg.txns.filter (fun y => y.owner ≠ u.val ∨ y.phase = .committed), held := s.ledg.held.filter (· != .commit u.val) } }))

/-- At the commit point, when the images and the commit record are programmed, every line of the transaction becomes visible at once and no other byte changes; before
its owner's COMMIT, while the ledger does not commit, or while the journal's next lines lie in a block that is being moved, nothing does; an open transaction of
another owner that holds one of the lines has met a conflict. At the retire record its lines are home and it ends, and the writes it held proceed, but to a block
that is being moved (R67, R70, R71). Stated with programs that all verify good, while no node transaction waits for a reading. The model's choices that this rests
on: log entries 3, 78, 87, 88 and 89. -/
def Obligations.CommitIsAtomic : Prop :=
  (∀ (u : Fin 128) (x : Txn) (s : State), 0x40 < u.val → txnOf s u = some x → x.phase = .committing → x.act = .none → s.quiet = false → 0x7A ∉ s.flt.resets →
    x.lines.length ≤ 12 → s.ledg.jrnlPos < 4096 → s.ledg.verify = [] → s.ledg.moves = [] →
    (∀ e ∈ x.lines, e.1 % 64 = 0 ∧ e.1 + 64 ≤ 0x03C00000 ∧ e.2.length = 64) → x.lines.Pairwise (fun e f => e.1 ≠ f.1) →
    Goes (.commitPoint u) s (fun t => (∀ e ∈ x.lines, t.bytes e.1 64 = e.2) ∧ (∀ a, (∀ e ∈ x.lines, lineOf a ≠ e.1) → t.byte a = s.byte a) ∧
      t.ledg.txns = (s.ledg.txns.filter (fun y => y.owner ≠ u.val ∨ y.phase = .committed)).map (fun y =>
        if y.owner ≠ u.val ∧ y.phase = .opened ∧ ∃ e ∈ y.lines, ∃ f ∈ x.lines, e.1 = f.1 then { y with conflict := true } else y) ++
        [{ x with phase := .committed, homes := x.lines.map (fun e => cellsOf s e.1) }] ∧
      (∃ a, t.ledg.journal.find? (fun e => e.1 == (s.ledg.jrnlPos + x.lines.length) % 4096) = some (a, .commit x.serial u (x.lines.map (·.1)))) ∧
      (∀ i e, x.lines[i]? = some e → ∃ a, t.ledg.journal.find? (fun e => e.1 == (s.ledg.jrnlPos + i) % 4096) = some (a, .image x.serial e.1 e.2)) ∧
      t.ledg.held = s.ledg.held ∧ (∀ a, a ≠ A.LEDG_WEAR → t.reg a = s.reg a) ∧ t = { s with regs := t.regs, mem := t.mem, ledg := t.ledg })) ∧
  (∀ (u : Fin 128) (s : State), (txnOf s u = none ∨ (∃ x, txnOf s u = some x ∧ x.phase ≠ .committing) ∨ s.quiet = true ∨ 0x7A ∈ s.flt.resets ∨
    (∃ x, txnOf s u = some x ∧ journalFree s (x.lines.length + 1) = false)) → Goes (.commitPoint u) s (fun t => t = s)) ∧
  (∀ (u : Fin 128) (x : Txn) (s : State), s.ledg.txns.find? (fun y => y.owner == u.val && y.phase == .committed) = some x → s.quiet = false → 0x7A ∉ s.flt.resets →
    (∀ q ∈ s.ports, q.txn.all (fun n => n.todo.isNone) = true) →
    (mayRetire s x = false → s.ledg.held = [] → Goes (.retireRecord u) s (fun t => t = s)) ∧
    (mayRetire s x = true → s.ledg.held = [] → s.ledg.verify = [] → Goes (.retireRecord u) s (fun t => t.ledg.txns = s.ledg.txns.filter (fun y => y.serial ≠ x.serial) ∧
      (∀ a, t.byte a = s.byte a) ∧ (∃ a, t.ledg.journal.find? (fun e => e.1 == s.ledg.jrnlPos) = some (a, .retire x.serial)) ∧ Untouched s t [A.LEDG_WEAR])) ∧
    (∀ (w a : Nat) (d : List Byte), mayRetire s x = true → s.ledg.held = [.write w a d none] → s.ledg.verify = [] → s.ledg.txns = [x] → a % 64 + d.length ≤ 64 → a + d.length ≤ 0x03C00000 →
      (nth s.ledg.bufs (ledgBank a) []).length < 16 → Goes (.retireRecord u) s (fun t => t.ledg.txns = [] ∧ (∀ b, b ≠ A.LEDG_WEAR → t.reg b = s.reg b) ∧
        (blockMoving t a = true → t.ledg.held = s.ledg.held ∧ ∀ b, t.byte b = s.byte b) ∧
        (blockMoving t a = false → t.ledg.held = [] ∧ t.bytes a d.length = d ∧ ∀ b, b < a ∨ a + d.length ≤ b → t.byte b = s.byte b))))

/-- A patrol step asks each pigeonhole bank for its next beat at priority 0 and moves on; with INTERVAL 0 nothing happens. The beat that is granted is checked: one
turned cell of a word is corrected and counted and sets CE; two in one word are counted, set UE with its address and raise a MEMORY fault (R65, R373). The model's
choices that this rests on: log entries 3, 80, 81 and 86. -/
def Obligations.PatrolChecksOneBeat : Prop :=
  ∀ (s : State) (i : Fin 16) (a : Nat), a = 0x08000000 + i.val * 2 ^ 20 + 16 * s.ledg.scrubPtr → logicPowered s = true →
    (s.get F.PIGN_SCRUB_INTERVAL = 0 → Goes (.patrolScrub []) s (fun t => t = s)) ∧
    (s.get F.PIGN_SCRUB_INTERVAL ≠ 0 → s.flag F.PIGN_STAT_READY = true → Goes (.patrolScrub []) s (fun t =>
      (∀ q, s.arbs[8 + i.val]? = some q → q.reqs.any (fun r => r.unit == 0x7B && r.ahead) = false →
        t.arbs[8 + i.val]? = some { q with reqs := q.reqs ++ [⟨0x7B, true, [⟨a, 16, none, 1⟩], some s.tb⟩] }) ∧
      (∀ b, b < 8 → t.arbs[b]? = s.arbs[b]?) ∧ t = { s with arbs := t.arbs, ledg := { s.ledg with scrubPtr := (s.ledg.scrubPtr + 1) % 65536 } })) ∧
    (∀ (q : Arb) (n w : Nat) (m : Option Nat) (f g : Flip), s.arbs[8 + i.val]? = some q → q.granted = some ⟨0x7B, true, n + 1⟩ →
      q.reqs = [⟨0x7B, true, [⟨a, 16, none, 1⟩], m⟩] → s.ledg.scrubPtr < 65536 → maskOk s 0x7B (8 + i.val) = true → txnOf s 0x7B = none →
      w = a ∨ w = a + 8 → f.addr = w → f.bit < 72 → g.addr = w → g.bit < 72 →
      let b := A.ARB_BANK_STAT (8 + i.val)
      (s.ledg.flips = [] → Goes (.arbitrationPhase ⟨8 + i.val, by omega⟩) s (fun t => Untouched s t [b] ∧ t.ledg = s.ledg)) ∧
      (s.ledg.flips = [f] → Goes (.arbitrationPhase ⟨8 + i.val, by omega⟩) s (fun t => t.get F.PIGN_ECC_CE_COUNT = satTo 0xFFFF (s.get F.PIGN_ECC_CE_COUNT + 1) ∧
        t.flag F.PIGN_STAT_CE = true ∧ t.get F.PIGN_ECC_UE_COUNT = s.get F.PIGN_ECC_UE_COUNT ∧ t.ledg = { s.ledg with flips := [] } ∧ Untouched s t [A.PIGN_ECC, A.PIGN_STAT, b])) ∧
      (∀ k, Listens s k → s.flt.dayQ.length < 32 → priValid s 0x7B = false → s.flag F.PIGN_STAT_UE = false → s.ledg.flips = [f, g] → f.bit ≠ g.bit →
        Goes (.arbitrationPhase ⟨8 + i.val, by omega⟩) s (fun t => t.get F.PIGN_ECC_UE_COUNT = satTo 0xFFFF (s.get F.PIGN_ECC_UE_COUNT + 1) ∧
          t.flag F.PIGN_STAT_UE = true ∧ t.get F.PIGN_UE_ADDR_ADDR = w ∧ t.reg (A.SYS_FLT_PRI 0x7B) = BitVec.ofNat 32 (0x81020000 + i.val) ∧ t.ledg = s.ledg ∧
          Told s t (mkRecord s.pm s.devId 0x7FFFFF 0x30 0 0x0102 0 0x7B 0) ∧
          Untouched s t [A.PIGN_ECC, A.PIGN_STAT, A.PIGN_UE_ADDR, A.SYS_FLT_PRI 0x7B, A.SYS_FLT_PRIPM 0x7B, b])))

/-! ## Field lines: exchanges and rounds (05, 06) -/

/-- FRAME_SEND sends the command that waits first, with its CRC and, on a keyed port, the next FRESH, which is stored each time its low half reaches 0 (R97, R98, R104);
the phase accumulator starts from 0 (R95); nothing is sent while an exchange, a wait or a hold stands. FRAME_PREBUILD builds the coming slots, at most AHEAD of them
(R118, R148). The transmit sequence moves one stage at a time: the frame's end, the lag of DE and the blanking each follow their own stage and no other (R90, Table
5.3). FLnn_TXD is low while the port does not send, and shows the half-bits of the frame once DE_LEAD has passed: preamble, SD, the bytes least significant bit
first, ED (R88, R92, R93). The model's choices that this rests on: log entries 3, 35, 94, 105 and 115. -/
def Obligations.FramesAreSentAndBuilt : Prop :=
  (∀ (p : Fin 32) (q : Port) (s : State), s.port p = some q →
     (q.stage ≠ .sending → txdHigh s p = false) ∧
     (∀ x : Exchange, q.stage = .sending → q.xchg = some x → s.get (F.FL_CPL_DE_LEAD p) * 2 ^ 24 ≤ q.lead * 10 ^ 6 →
       let level := fun (b : Bool) (second : Bool) => b == second
       txdHigh s p = (if q.half < 80 then level (bit (0x55 : Nat) (q.half / 2 % 8)) (q.half % 2 == 1) else if q.half < 84 then decide (q.half < 82)
         else if q.half < 84 + 16 * x.frame.length then level ((x.frame.getD ((q.half - 84) / 16) 0#8).getLsbD ((q.half - 84) / 2 % 8)) (q.half % 2 == 1)
         else decide (86 + 16 * x.frame.length ≤ q.half ∧ q.half < 88 + 16 * x.frame.length))) ∧
     ∀ c ∈ [(Instr.frameTxEnd p, LineStage.sending, LineStage.lag), (.deLagExpiry p, .lag, .blank), (.rxBlankExpiry p, .blank, .listening)],
       (q.stage = c.2.1 → Goes c.1 s (fun t => t = { s with ports := upd s.ports p (fun q => { q with stage := c.2.2 }) })) ∧
       (q.stage ≠ c.2.1 → Goes c.1 s (fun t => t = s))) ∧
  (∀ (p : Fin 32) (q : Port) (c : LineCmd) (use : LineUse) (rest : List (LineCmd × LineUse)) (s : State), s.port p = some q → q.want = (c, use) :: rest →
    (q.txn = none → (q.xchg ≠ none ∨ q.wait ≠ none ∨ s.flag (F.FL_RSTAT_HELD p) = true ∨ s.flag (F.FL_STAT_FLT p) = true ∨ s.flag (F.FL_CTRL_EN p) = false) →
      Goes (.frameSend p) s (fun t => t = s)) ∧
    (portWorks s p = true → s.safe = false → q.xchg = none → q.wait = none → q.txn = none → s.flag (F.FL_STAT_FLT p) = false → s.flag (F.FL_RSTAT_HELD p) = false →
      s.flag (F.FL_CTRL_EN p) = true → (∀ m n, c ≠ .assign m n) →
      (∀ body : List Byte, q.key = none → body = [0xA0] ++ leBytes 2 (cmdParts c).1 ++ leBytes 1 (cmdParts c).2.1 ++ leBytes 1 (cmdParts c).2.2.length ++ (cmdParts c).2.2 →
        Goes (.frameSend p) s (fun t => t.flag (F.FL_STAT_ACTIVE p) = true ∧ t.flag (F.FL_STAT_RX p) = false ∧ Untouched s t [A.FL_STAT p] ∧
          t = { s with regs := t.regs, ports := t.ports } ∧
          t.ports = upd s.ports p (fun q => { q with want := rest, stage := .sending, lead := 0, acc := 0, half := 0, rx := none, round := sentRound use q.round,
                                                            xchg := some ⟨c, use, body ++ leBytes 2 (crc16 body), s.get (F.FL_FRESH_FRESH p), false, 0, 0, false, 0, 0, none, none, false, []⟩ }))) ∧
      (∀ n : Nat, q.key ≠ none → s.ledg.recPend = [] → n = (s.get (F.FL_FRESH_FRESH p) + 1) % 2 ^ 32 →
        Goes (.frameSend p) s (fun t => t.flag (F.FL_STAT_ACTIVE p) = true ∧ t.get (F.FL_FRESH_FRESH p) = n ∧ Untouched s t [A.FL_STAT p, A.FL_FRESH p] ∧
          t.ledg.recPend = (if n % 2 ^ 16 = 0 then [.fresh p n] else []) ∧
          t.ports = upd s.ports p (fun q => { q with want := rest, stage := .sending, lead := 0, acc := 0, half := 0, rx := none, round := sentRound use q.round,
                                                            xchg := some ⟨c, use, cmdFrame s p c n, n, true, 0, 0, false, 0, 0, none, none, false, []⟩ }))))) ∧
  (∀ (p : Fin 32) (q : Port) (s : State), s.port p = some q → q.built = [] →
    portWorks s p = true → s.safe = false → s.flag (F.FL_CTRL_EN p) = true → s.flag F.TT_CTRL_RUN = true → portSkips s p = false → Goes (.framePrebuild p) s (fun t => ∃ more : List Built,
      more.length ≤ s.get F.TT_CTRL_AHEAD ∧ more = (comingSlots s p (s.get F.TT_CTRL_AHEAD)).map (fun e => ⟨runBank s p, e.1, e.2.2, slotFrames s p e.2.1⟩) ∧
      t = { s with ports := upd s.ports p (fun q => { q with built := more }) }))

/-- Samples are ignored while the port sends or is blanked, and while a FOREIGN or MALFORMED burst goes on; a burst they spell is counted in its class; a GOOD reply in
its node's window becomes readings of the node's endpoints (R96, R107, R110, R120, R429, Table 6.2); a GOOD burst from behind a LOST fence, in no window, disables
the fence and tells the postmaster (R135). A window that passes empty is counted (R111); a quiet line ends a burst: one with an SD and no ED where it stops is
MALFORMED, one without an SD is NOISE (R96, R107). The model's choices that this rests on: log entries 3, 36, 43, 92, 93, 96, 97 and 115. -/
def Obligations.BurstsAndReplies : Prop :=
  (∀ (p : Fin 32) (q : Port) (b : Burst) (s : State), s.port p = some q → (q.stage = .sending ∨ q.stage = .lag ∨ q.stage = .blank ∨ q.deaf = true) →
    Goes (.burstReceived p b) s (fun t => t = s)) ∧
  (∀ (p : Fin 32) (q : Port) (b : Burst) (s : State), s.port p = some q → q.stage = .idle → q.xchg = none → q.round = none → q.want = [] → q.yieldDue = false →
    q.rx = none → q.deaf = false → portWorks s p = true → s.flag (F.FL_CTRL_EN p) = true → (heardBy s p b).decided = true → endsThere s p (heardBy s p b) →
    (∀ k, k < 8 → fenceHas s p k (burstReply (heardBy s p b) s.pm).node = true → s.get (F.FL_FENCE_REASON p k) ≠ 3) →
    ∀ c ∈ [(RxClass.crcBad, F.FL_CNT_ERR_CRC_BAD p), (.macBad, F.FL_CNT_ERR_MAC_BAD p), (.malformed, F.FL_CNT_CLS_MALFORMED p), (.good, F.FL_CNT_GOOD_GOOD p)],
      classOf s p (s.get (F.FL_FRESH_FRESH p)) false (heardBy s p b) = c.1 → Goes (.burstReceived p b) s (fun t => t.get c.2 = satTo (2 ^ c.2.w - 1) (s.get c.2 + 1) ∧
        t.get (F.FL_CNT_DROP_LATE p) = satTo 0xFFFF (s.get (F.FL_CNT_DROP_LATE p) + 1) ∧ t.flag (F.FL_STAT_QUIET p) = false ∧
        t.flag (F.FL_STAT_RX p) = decide (c.1 = .malformed) ∧ Untouched s t [c.2.addr, A.FL_CNT_DROP p, A.FL_STAT p] ∧
        t = { s with regs := t.regs, ports := upd s.ports p (fun q => { q with deaf := decide (c.1 = .malformed) }) })) ∧
  (∀ (p : Fin 32) (q : Port) (b : Burst) (f : Nat) (k : Core) (s : State), s.port p = some q → q.stage = .idle → q.xchg = none → q.round = none → q.want = [] → q.yieldDue = false →
    q.rx = none → q.deaf = false → portWorks s p = true → s.flag (F.FL_CTRL_EN p) = true → (heardBy s p b).decided = true → endsThere s p (heardBy s p b) →
    classOf s p (s.get (F.FL_FRESH_FRESH p)) false (heardBy s p b) = .good → Listens s k → f < 8 →
    (let n := (burstReply (heardBy s p b) s.pm).node
     (∀ g, g < 8 → (fenceHas s p g n = true ∧ s.get (F.FL_FENCE_REASON p g) = 3 ↔ g = f)) → Goes (.burstReceived p b) s (fun t => t.flag (F.FL_FENCE_EN p f) = false ∧
      t.get (F.FL_FENCE_LO p f) = s.get (F.FL_FENCE_LO p f) ∧ t.get (F.FL_FENCE_HI p f) = s.get (F.FL_FENCE_HI p f) ∧
      Told s t (mkRecord s.pm s.devId 0x7FFFFF 0x35 0 n 0 (0x41 + p) 0) ∧ Untouched s t [A.FL_FENCE p f, A.FL_CNT_GOOD p, A.FL_CNT_DROP p, A.FL_STAT p]))) ∧
  (∀ (p : Fin 32) (q : Port) (x : Exchange) (b : Burst) (d : Heard) (h : HeardReply) (f n pf pn sd k : Nat) (r : NodeRec) (s : State), s.port p = some q →
    q.stage = .listening → q.rx = none → q.deaf = false → portWorks s p = true → q.xchg = some x → x.cmd = .readChain f n pf pn → s.ledg.flips = [] →
    d = heardBy s p b → d.decided = true → endsThere s p d → d.sd = some sd → inNodeWindow s p x sd = true → classOf s p x.fresh false d = .good → k = f + x.next →
    h = burstReply d ((s.pm + 2 ^ 64 - 4 * s.get (F.FL_CPL_GLITCH p)) % 2 ^ 64) →
    h.node = k → poisonFor s (portUnit p) (nodeAddr s p k) = false → r = nodeRec s p k → r.state = nsEnrolled → r.strikes = 0 → r.epbase ≠ noEp →
    (∀ i, i < 8 → fenceHas s p i k = false) → k ∉ q.absent → bit h.status 4 = false → h.payload.length = 2 * pointsExpected r pf pn →
    Goes (.burstReceived p b) s (fun t => t.ports = upd s.ports p (fun q => { q with
        xchg := some { x with next := x.next + 1, base := x.next + 1, heard := true, windows := x.windows ++ [(k, .good)] }
        readings := q.readings ++ (List.range (pointsExpected r pf pn)).map (fun i => (⟨r.epbase + pf + i, recNum h.payload (2 * i) 2, h.pm⟩ : Reading)) }) ∧
      t.get (F.FL_CNT_GOOD_GOOD p) = satTo 0xFFFFFFFF (s.get (F.FL_CNT_GOOD_GOOD p) + 1) ∧ t.flag (F.FL_STAT_RX p) = false ∧
      Untouched s t [A.FL_CNT_GOOD p, A.FL_STAT p] ∧ t = { s with regs := t.regs, ports := t.ports })) ∧
  (∀ (p : Fin 32) (q : Port) (x : Exchange) (s : State), s.port p = some q → q.xchg = some x →
    (q.stage = .listening → x.next < (cmdNodes x.cmd).2 → Goes (.nodeMissing p) s (fun t => t.get (F.FL_CNT_LINE_MISSING p) = satTo 0xFFFF (s.get (F.FL_CNT_LINE_MISSING p) + 1) ∧
      t.get (F.FL_CNT_LINE_NOISE p) = s.get (F.FL_CNT_LINE_NOISE p) ∧ Untouched s t [A.FL_CNT_LINE p] ∧
      t = { s with regs := t.regs, ports := upd s.ports p (fun q => { q with xchg := some { x with next := x.next + 1 } }) })) ∧
    (q.stage ≠ .listening ∨ (cmdNodes x.cmd).2 ≤ x.next → Goes (.nodeMissing p) s (fun t => t = s))) ∧
  (∀ (p : Fin 32) (q : Port) (s : State), s.port p = some q → s.pow.phase = .up → s.pwr ≤ 1 →
    (q.rx = none → Goes (.lineQuiet p) s (fun t => t.flag (F.FL_STAT_QUIET p) = true ∧ t.flag (F.FL_STAT_RX p) = false ∧
      Untouched s t [A.FL_STAT p] ∧ t = { s with regs := t.regs, ports := upd s.ports p (fun q => { q with deaf := false }) })) ∧
    (∀ b d, q.rx = some b → d = heardBy s p { b with runs := quietRuns (rateNum s p) b.runs } → q.xchg = none → q.round = none → q.want = [] → q.yieldDue = false → s.flag (F.FL_CTRL_EN p) = true →
      (d.sd = none → bit (s.get (F.FL_STR_PEND_PEND p)) 4 = true → 0 < s.get (F.FL_STRCFG_NOISE_LIM p) → Goes (.lineQuiet p) s (fun t =>
        t.get (F.FL_CNT_LINE_NOISE p) = satTo 0xFFFF (s.get (F.FL_CNT_LINE_NOISE p) + 1) ∧ t.flag (F.FL_STAT_QUIET p) = true ∧ t.flag (F.FL_STAT_RX p) = false ∧
        Untouched s t [A.FL_CNT_LINE p, A.FL_STAT p] ∧ t = { s with regs := t.regs, ports := upd s.ports p (fun q => { q with rx := none, deaf := false }) })) ∧
      (d.decided = true → endsThere s p d → ∀ c ∈ [(RxClass.malformed, F.FL_CNT_CLS_MALFORMED p), (.crcBad, F.FL_CNT_ERR_CRC_BAD p), (.macBad, F.FL_CNT_ERR_MAC_BAD p)],
        classOf s p (s.get (F.FL_FRESH_FRESH p)) false d = c.1 → Goes (.lineQuiet p) s (fun t => t.get c.2 = satTo (2 ^ c.2.w - 1) (s.get c.2 + 1) ∧
          t.get (F.FL_CNT_DROP_LATE p) = satTo 0xFFFF (s.get (F.FL_CNT_DROP_LATE p) + 1) ∧ t.flag (F.FL_STAT_QUIET p) = true ∧ t.flag (F.FL_STAT_RX p) = false ∧
          Untouched s t [c.2.addr, A.FL_CNT_DROP p, A.FL_STAT p] ∧ t = { s with regs := t.regs, ports := upd s.ports p (fun q => { q with rx := none, deaf := false }) }))))

/-- An exchange that ends clears ACTIVE; after a LETTERBOX exchange a collision splits its prefix in two, a silence ends the round once the stack is empty, and a single
report is taken and acknowledged next (R111, R123 to R127). An exchange cut off at its limit counts as a collision (R125). -/
def Obligations.LetterboxResolution : Prop :=
  ∀ (p : Fin 32) (q : Port) (x : Exchange) (s : State), s.port p = some q → q.stage = .listening → q.xchg = some x → q.want = [] → q.yieldDue = false → q.walk = none → q.stop = false →
    s.flag (F.FL_CTRL_EN p) = true → s.flag (F.FL_RSTAT_BACKOFF p) = false →
    (x.use = .follow → q.round = none → (cmdNodes x.cmd).2 ≤ x.next → Goes (.exchangeEnd p) s (fun t => t.flag (F.FL_STAT_ACTIVE p) = false ∧ Untouched s t [A.FL_STAT p] ∧
      t = { s with regs := t.regs, ports := upd s.ports p (fun q => { q with xchg := none, stage := .idle }) })) ∧
    (∀ (r : Round) (l pre : Nat), q.round = some r → r.kind = .letterbox → r.begun = true → r.done = none → x.use = .round → x.cmd = .letterbox l pre →
      r.ex + 1 < s.get (F.FL_LBCFG_MAXEX p) →
      (∀ (i : Instr) (cut : Bool), i = (if cut then Instr.exchangeCutOff p else .exchangeEnd p) → (cut = true → bit (s.get (F.FL_STR_PEND_PEND p)) 4 = true) →
        outcomeOf x cut = .collision → l < 14 → Goes i s (fun t => t.flag (F.FL_STAT_ACTIVE p) = false ∧
          t.get (F.FL_CNT_LINE_NOISE p) = (if cut then satTo 0xFFFF (s.get (F.FL_CNT_LINE_NOISE p) + 1) else s.get (F.FL_CNT_LINE_NOISE p)) ∧
          t.get (F.FL_CNT_LINE_MISSING p) = s.get (F.FL_CNT_LINE_MISSING p) ∧ Untouched s t [A.FL_STAT p, A.FL_CNT_LINE p] ∧ t = { s with regs := t.regs, ports := t.ports } ∧
          t.ports = upd s.ports p (fun q => { q with xchg := none, stage := .idle, lbTotal := q.lbTotal + 1, lbStack := (l + 1, pre + 2 ^ l) :: q.lbStack,
                                                     want := [(.letterbox (l + 1) pre, .round)], round := some { r with ex := r.ex + 1 } }))) ∧
      (outcomeOf x false = .empty → q.lbStack = [] → Goes (.exchangeEnd p) s (fun t => t.flag (F.FL_STAT_ACTIVE p) = false ∧ t.get (F.FL_LBSTAT_CARRY p) = 0 ∧
        t.get (F.FL_LBSTAT_LAST p) = satTo 1023 (q.lbTotal + 1) ∧ Untouched s t [A.FL_STAT p, A.FL_LBSTAT p] ∧ t = { s with regs := t.regs, ports := t.ports } ∧
        t.ports = upd s.ports p (fun q => { q with xchg := none, stage := .idle, lbTotal := q.lbTotal + 1, round := some { r with ex := r.ex + 1, done := some s.pm } }))) ∧
      (∀ (h : HeardReply) (kind point v : Nat), outcomeOf x false = .single h → 4 ≤ h.payload.length → s.ledg.flips = [] → kind = recNum h.payload 0 1 → point = recNum h.payload 1 1 → v = recNum h.payload 2 2 →
        (nodeRec s p h.node).state = nsEnrolled → fenced s p h.node = false → (h.node, kind, point, v) ∉ q.repeats →
        Goes (.exchangeEnd p) s (fun t => t.flag (F.FL_STAT_ACTIVE p) = false ∧ Untouched s t [A.FL_STAT p] ∧
          t.ports = upd s.ports p (fun q => { q with xchg := none, stage := .idle, lbTotal := q.lbTotal + 1, round := some { r with ex := r.ex + 1 },
                                                            want := [(.ackReport h.node kind point v, .report l pre)],
                                                            reports := q.reports ++ [⟨(nodeRec s p h.node).epbase + point, v, h.pm, kind⟩] }))))

/-- Each kind of round, fired and not begun, begins with its own first exchange (R116, Table 6.1): of a MAINT round a check that waits, else the mailbox's command, else
the probe of a LOST fence, else none (R122, R139, R140); an ENROL round with ENR.EN 0 has none. A round of another kind, or one already begun, is left. The model's
choices that this rests on: log entry 3. -/
def Obligations.RoundsBegin : Prop :=
  ∀ (p : Fin 32) (q : Port) (r : Round) (s : State), s.port p = some q → q.round = some r →
    (∀ c ∈ [(Instr.roundConvert p, RoundKind.convert), (.roundRead p, .read), (.roundLetterbox p, .letterbox), (.roundEnrol p, .enrol), (.roundMaint p, .maint)],
      r.kind ≠ c.2 ∨ r.begun = true → Goes c.1 s (fun t => t = s)) ∧
    (portWorks s p = true → r.begun = false → r.done = none → q.want = [] → q.xchg = none → q.walk = none → q.yieldDue = false → s.flag (F.FL_RSTAT_BACKOFF p) = false →
      (∀ c ∈ [(Instr.roundConvert p, RoundKind.convert), (.roundRead p, .read)], ∀ f rest, r.kind = c.2 → r.frames = f :: rest → Goes c.1 s (fun t =>
        t = { s with ports := upd s.ports p (fun q => { q with want := [(f, .round)], round := some { r with begun := true } }) })) ∧
      (r.kind = .letterbox → q.lbStack = [] → r.ex < s.get (F.FL_LBCFG_MAXEX p) → Goes (.roundLetterbox p) s (fun t =>
        t = { s with ports := upd s.ports p (fun q => { q with want := [(.letterbox 0 0, .round)], lbTotal := 0, round := some { r with begun := true } }) })) ∧
      (r.kind = .enrol → q.enStack = [] → s.flag (F.FL_ENR_EN p) = true → r.ex < s.get (F.FL_ENRLIM_MAXEX p) → Goes (.roundEnrol p) s (fun t =>
        t = { s with ports := upd s.ports p (fun q => { q with want := [(.search 0 0, .round)], round := some { r with begun := true } }) })) ∧
      (r.kind = .enrol → s.flag (F.FL_ENR_EN p) = false → Goes (.roundEnrol p) s (fun t =>
        t = { s with ports := upd s.ports p (fun q => { q with round := some { r with begun := true, done := some s.pm } }) })) ∧
      (r.kind = .maint → r.boxed = false → s.ledg.flips = [] → (∀ c ∈ q.checks, fenced s p c.node = false ∧ (nodeRec s p c.node).state ≠ nsQuarantined) →
        let began := fun (t : State) (checks probes : List Nat) (boxed : Bool) (done : Option Nat) (at_ : Nat) (want : List (LineCmd × LineUse)) =>
          t = { s with regs := t.regs, ports := upd s.ports p (fun q => { q with want := want, probeAt := at_, round := some { r with
            begun := true, checks := checks, boxed := boxed, probes := probes, done := done } }) }
        (∀ c rest, q.checks = c :: rest → Goes (.roundMaint p) s (fun t => Untouched s t [] ∧
          began t ((rest.take 3).map (·.node)) (lostFences s p q.probeAt) false none q.probeAt [(.identify c.node, .check)])) ∧
        (q.checks = [] → s.get (F.FL_MBOX_STATE p) = 1 → boxSends s p = true → Goes (.roundMaint p) s (fun t => Untouched s t [] ∧
          began t [] (lostFences s p q.probeAt) true none q.probeAt [(boxCmd s p, .mailbox)])) ∧
        (q.checks = [] → s.get (F.FL_MBOX_STATE p) = 1 → boxSends s p = false → lostFences s p q.probeAt = [] → Goes (.roundMaint p) s (fun t => t.get (F.FL_MBOX_STATE p) = 3 ∧
          Untouched s t [A.FL_MBOX p] ∧ began t [] [] true (some s.pm) q.probeAt [])) ∧
        (∀ k ks n, q.checks = [] → s.get (F.FL_MBOX_STATE p) ≠ 1 → lostFences s p q.probeAt = k :: ks → probeNode s p k = some n → Goes (.roundMaint p) s (fun t => Untouched s t [] ∧
          began t [] ks true none ((k + 1) % 8) [(.ping n, .probe k)])) ∧
        (q.checks = [] → s.get (F.FL_MBOX_STATE p) ≠ 1 → lostFences s p q.probeAt = [] → Goes (.roundMaint p) s (fun t => Untouched s t [] ∧
          began t [] [] true (some s.pm) q.probeAt []))))

/-- The round boundary waits for the end of the round's exchanges; it counts the round, clears ROUND and, after a quiet round, BACKOFF (R117, R134). The end of a yield
or back-off wait releases the port's next command and is added to the pass's yield time (R134, R156). The model's choices that this rests on: log entry 3. -/
def Obligations.RoundBoundaryAndWaits : Prop :=
  ∀ (p : Fin 32) (q : Port) (s : State), s.port p = some q → (∀ o ∈ s.ports, o.txn.all (fun n => n.todo.isNone) = true) →
    (∀ r, q.round = some r → r.done = none → Goes (.roundBoundary p) s (fun t => t = s)) ∧
    (∀ r d, q.round = some r → r.done = some d → r.kind ≠ .read → q.readings = [] → (backOf s p).reads = [] →
      bit (s.get F.TT_SWAPPEND_PORTS) p = false → s.seq.edit = none → s.flag F.TT_CTRL_RUN = false → Goes (.roundBoundary p) s (fun t =>
        t.get (F.FL_RCNT_ROUNDS p) = (s.get (F.FL_RCNT_ROUNDS p) + 1) % 65536 ∧ t.flag (F.TTP_POS_ROUND p) = false ∧
        t.flag (F.FL_RSTAT_BACKOFF p) = (s.flag (F.FL_RSTAT_BACKOFF p) && decide (s.get (F.FL_STRCFG_NOISE_LIM p) ≤ r.noise)) ∧
        t.ports = upd s.ports p (fun q => { q with round := none }) ∧
        t.seq.passes = upd s.seq.passes p (fun w => if w.mode = .idle then w else
          { w with holdT := w.holdT + pmDiff s.pm d, last := if r.fill then w.last else s.pm }) ∧
        Untouched s t [A.FL_RCNT p, A.TTP_POS p, A.FL_RSTAT p])) ∧
    (q.wait = none → Goes (.commandWaitEnd p) s (fun t => t = s)) ∧
    (∀ w, q.wait = some w → Goes (.commandWaitEnd p) s (fun t => t = { s with ports := upd s.ports p (fun q => { q with wait := none, yieldDue := false })
                                                                              seq := { s.seq with passes := upd s.seq.passes p (fun x => { x with yieldT := x.yieldT + pmDiff s.pm w }) } }))

/-- PORT_ENABLE checks the coupler's times and the node directory before it sets EN; PORT_DISABLE clears EN, discards and counts the frames built ahead, and lets an
exchange in progress run to its end (R91, R118, R128, R149). A fence write takes the word with REASON 0 and drops the identity checks it covers, unless LO exceeds HI
while EN is 1, which is refused (R135). A mailbox write starts a command, or is lost while one waits (R140). RESTART releases a held port once its fault has cleared,
else is held (R137). The model's choices that this rests on: log entries 3, 41, 70 and 75. -/
def Obligations.PortCommands : Prop :=
  (∀ (u : Fin 256) (p : Fin 32) (q : Port) (s : State), s.Inv → s.port p = some q →
    (Accepts u (A.FL_CTRL p) (BitVec.ofNat 32 (setBits (s.reg (A.FL_CTRL p)).toNat 0 1 1)) s → s.flag (F.FL_CTRL_EN p) = false →
      (couplerOk s p = false ∨ dirOk s p = false → Goes (.portEnable u p) s (fun t => t.flag (F.FL_STAT_CPL_BAD p) = (s.flag (F.FL_STAT_CPL_BAD p) || !couplerOk s p) ∧
        t.flag (F.FL_RSTAT_NDIR_BAD p) = (s.flag (F.FL_RSTAT_NDIR_BAD p) || !dirOk s p) ∧ (couplerOk s p = true → t.reg (A.FL_STAT p) = s.reg (A.FL_STAT p)) ∧
        (dirOk s p = true → t.reg (A.FL_RSTAT p) = s.reg (A.FL_RSTAT p)) ∧ Untouched s t [A.FL_STAT p, A.FL_RSTAT p] ∧ t = { s with regs := t.regs })) ∧
      (couplerOk s p = true → dirOk s p = true → switchNodes s p = [] → s.ledg.flips = [] → q.round = none → q.want = [] → q.yieldDue = false → q.stop = false → s.flag F.TT_CTRL_RUN = false →
        Goes (.portEnable u p) s (fun t => t.flag (F.FL_CTRL_EN p) = true ∧ t.get (F.FL_CTRL_RATE p) = s.get (F.FL_CTRL_RATE p) ∧ Untouched s t [A.FL_CTRL p] ∧
          t = { s with regs := t.regs }))) ∧
    (Accepts u (A.FL_CTRL p) (BitVec.ofNat 32 (setBits (s.reg (A.FL_CTRL p)).toNat 0 1 0)) s → s.flag (F.FL_CTRL_EN p) = true → q.round = none →
      Goes (.portDisable u p) s (fun t => t.flag (F.FL_CTRL_EN p) = false ∧ t.flag (F.TTP_POS_GATE p) = false ∧
        t.get (F.FL_RCNT_DISCARD p) = satTo 0xFFFF (s.get (F.FL_RCNT_DISCARD p) + (q.built.map (·.frames.length)).sum) ∧
        t.port p = some (if q.xchg.isSome then { q with built := [], want := [], lbStack := [], enStack := [], stop := true
                                                        repeats := (cutAcks { q with xchg := none }).foldl (fun l e => addRepeat e l) q.repeats }
          else { q with built := [], want := [], lbStack := [], enStack := [], walk := none, stop := false, repeats := (cutAcks q).foldl (fun l e => addRepeat e l) q.repeats }) ∧
        t.get (F.FL_LBSTAT_CARRY p) = 0 ∧ t.get (F.FL_LBSTAT_LAST p) = s.get (F.FL_LBSTAT_LAST p) ∧
        (∀ o, o ≠ p.val → t.port o = s.port o) ∧ Untouched s t [A.FL_CTRL p, A.FL_RCNT p, A.TTP_POS p, A.FL_RSTAT p, A.FL_LBSTAT p]))) ∧
  (∀ (u : Fin 256) (p : Fin 32) (v : Word) (s : State),
    (∀ k : Fin 8, Accepts u (A.FL_FENCE p k) v s →
      (bit v.toNat 31 = true → bits v.toNat 14 14 < bits v.toNat 0 14 → Goes (.fenceWrite u p k v) s (fun t => t.flag F.SYS_DIAG_RSVD_WR = true ∧
        Untouched s t [A.SYS_DIAG, A.SYS_RSVD_ADDR] ∧ t = { s with regs := t.regs })) ∧
      (bit v.toNat 31 = false ∨ bits v.toNat 0 14 ≤ bits v.toNat 14 14 → Goes (.fenceWrite u p k v) s (fun t =>
        t.reg (A.FL_FENCE p k) = BitVec.ofNat 32 (setBits v.toNat 29 2 0) ∧ Untouched s t [A.FL_FENCE p k] ∧ t = { s with regs := t.regs, ports := t.ports } ∧
        t.ports = upd s.ports p (fun q => { q with checks := q.checks.filter (fun c => !fenced t p c.node && (nodeRec t p c.node).state != nsQuarantined) })))) ∧
    (Accepts u (A.FL_MBOX p) v s →
      (s.get (F.FL_MBOX_STATE p) = 1 → Goes (.mailboxWrite u p v) s (fun t => t.flag (F.FL_RSTAT_MBOX_LOST p) = true ∧ Untouched s t [A.FL_RSTAT p] ∧ t = { s with regs := t.regs })) ∧
      (s.get (F.FL_MBOX_STATE p) ≠ 1 → Goes (.mailboxWrite u p v) s (fun t => t.reg (A.FL_MBOX p) = BitVec.ofNat 32 (setBits v.toNat 30 2 1) ∧ t.get (F.FL_MBOX_STATE p) = 1 ∧
        Untouched s t [A.FL_MBOX p] ∧ t = { s with regs := t.regs }))) ∧
    (Writes u (A.FL_RCTRL p) s → ∀ q, s.port p = some q →
      (s.flag (F.FL_RSTAT_HELD p) = false → Goes (.portRestart u p) s (fun t => t = s)) ∧
      (s.flag (F.FL_RSTAT_HELD p) = true → q.fltClear = false → Goes (.portRestart u p) s (fun t => t = { s with ports := upd s.ports p (fun q => { q with restart := true }) })) ∧
      (s.flag (F.FL_RSTAT_HELD p) = true → q.fltClear = true → s.flag (F.FL_CTRL_EN p) = false → Goes (.portRestart u p) s (fun t => t.flag (F.FL_RSTAT_HELD p) = false ∧
        Untouched s t [A.FL_RSTAT p] ∧ t = { s with regs := t.regs, ports := upd s.ports p (fun q => { q with restart := false }) }))))


/-- A line fault abandons the port's exchange and frames, holds the port and tells the postmaster, and a report whose acknowledgement is cut short is remembered (R113,
R126, R137); its clearing is noted, and releases the port where a RESTART waits for it; the automatic restart releases a held port whose fault has cleared (R137). At
the end of a walk-out's close wait a fault fences what lies beyond the switch (R138). The model's choices that this rests on: log entries 3, 39, 75, 98 and 115. -/
def Obligations.LineFaultsAndWalks : Prop :=
  ∀ (p : Fin 32) (q : Port) (s : State), s.port p = some q →
    (∀ k, Listens s k → q.walk = none → q.round = none → Goes (.lineFault p) s (fun t => t.flag (F.FL_STAT_FLT p) = true ∧ t.flag (F.FL_STAT_FLT_LATCH p) = true ∧
      t.flag (F.FL_RSTAT_HELD p) = true ∧ t.flag (F.FL_STAT_ACTIVE p) = false ∧ t.flag (F.FL_STAT_RX p) = false ∧
      t.get (F.FL_RCNT_DISCARD p) = satTo 0xFFFF (s.get (F.FL_RCNT_DISCARD p) + (q.built.map (·.frames.length)).sum) ∧
      t.get (F.FL_MBOX_STATE p) = (if q.xchg.any (fun x => x.use == .mailbox) then 3 else s.get (F.FL_MBOX_STATE p)) ∧
      t.ports = upd s.ports p (fun q => { q with xchg := none, stage := .idle, want := [], lbStack := [], enStack := [], built := [], rx := none, deaf := false, stop := false
                                                 fltClear := false, repeats := (cutAcks q).foldl (fun l e => addRepeat e l) q.repeats }) ∧
      Told s t (mkRecord s.pm s.devId 0x7FFFFF 0x32 0 0 0 (0x41 + p) 0) ∧ t.get (F.FL_LBSTAT_CARRY p) = 0 ∧
      t.get (F.FL_LBSTAT_LAST p) = s.get (F.FL_LBSTAT_LAST p) ∧ Untouched s t [A.FL_STAT p, A.FL_RCNT p, A.FL_RSTAT p, A.FL_MBOX p, A.FL_LBSTAT p])) ∧
    (s.pow.phase = .up → s.pwr ≤ 1 → q.walk = none → q.restart = false → Goes (.lineFaultCleared p) s (fun t => t.flag (F.FL_STAT_FLT p) = false ∧ Untouched s t [A.FL_STAT p] ∧
      t = { s with regs := t.regs, ports := upd s.ports p (fun q => { q with fltClear := true }) })) ∧
    (s.pow.phase = .up → s.pwr ≤ 1 → q.walk = none → q.restart = true → s.flag (F.FL_RSTAT_HELD p) = true → s.flag (F.FL_CTRL_EN p) = false → Goes (.lineFaultCleared p) s (fun t =>
      t.flag (F.FL_STAT_FLT p) = false ∧ t.flag (F.FL_RSTAT_HELD p) = false ∧ Untouched s t [A.FL_STAT p, A.FL_RSTAT p] ∧
      t = { s with regs := t.regs, ports := upd s.ports p (fun q => { q with fltClear := true, restart := false }) })) ∧
    (s.flag (F.FL_RSTAT_HELD p) = false ∨ s.flag (F.FL_FENCECFG_AUTO_RESTART p) = false ∨ q.fltClear = false → Goes (.autoRestartExpiry p) s (fun t => t = s)) ∧
    (s.flag (F.FL_RSTAT_HELD p) = true → s.flag (F.FL_FENCECFG_AUTO_RESTART p) = true → q.fltClear = true → s.flag (F.FL_CTRL_EN p) = false →
      Goes (.autoRestartExpiry p) s (fun t => t.flag (F.FL_RSTAT_HELD p) = false ∧ Untouched s t [A.FL_RSTAT p] ∧
        t = { s with regs := t.regs, ports := upd s.ports p (fun q => { q with restart := false }) })) ∧
    ((∀ n, q.walk ≠ some ⟨n, .wait⟩) → Goes (.closeWaitExpiry p) s (fun t => t = s)) ∧
    (∀ n f, q.walk = some ⟨n, .wait⟩ → s.flag (F.FL_STAT_FLT p) = true → n < 0x3FFF → q.checks = [] → f < 8 → s.flag (F.FL_FENCE_EN p f) = false →
      (∀ g < f, s.flag (F.FL_FENCE_EN p g) = true) → Goes (.closeWaitExpiry p) s (fun t => t.flag (F.FL_FENCE_EN p f) = true ∧ t.get (F.FL_FENCE_LO p f) = n + 1 ∧
        t.get (F.FL_FENCE_HI p f) = 0x3FFF ∧ t.get (F.FL_FENCE_REASON p f) = 1 ∧ Untouched s t [A.FL_FENCE p f] ∧
        t = { s with regs := t.regs, ports := upd s.ports p (fun q => { q with walk := some ⟨n, .shorted⟩ }) }))

/-! ## The round timetable (07) -/

/-- Slots are written to the inactive bank and read back, each access stepping its index, while a COPY runs with the old or the copied contents, and a reserved slot is
refused; COPY_COMPLETE makes the inactive bank equal to the active one (R144, R150). The model's choices that this rests on: log entries 3, 7 and 40. -/
def Obligations.TimetableSlots : Prop :=
  (∀ (u : Fin 256) (hi : Word) (v i : Nat) (s : State), Writes u A.TT_WDATA_HI s → v = hi.toNat * 2 ^ 32 + s.get F.TT_WDATA_LO_LO → i = s.get F.TT_WADDR_IDX →
    (slotRefused s v = true → Goes (.slotWrite u hi) s (fun t => t.flag F.SYS_DIAG_RSVD_WR = true ∧ Untouched s t [A.SYS_DIAG, A.SYS_RSVD_ADDR] ∧ t = { s with regs := t.regs })) ∧
    (slotRefused s v = false → (s.flag F.TT_STAT_SWAP_PEND || s.flag F.TT_STAT_COPY_BUSY) = true → Goes (.slotWrite u hi) s (fun t => t.flag F.TT_STAT_WR_REF = true ∧
      Untouched s t [A.TT_STAT] ∧ t = { s with regs := t.regs })) ∧
    (slotRefused s v = false → (s.flag F.TT_STAT_SWAP_PEND || s.flag F.TT_STAT_COPY_BUSY) = false → i < 6144 → Goes (.slotWrite u hi) s (fun t =>
      slotAt t (!activeBank s) i = v ∧ (∀ b j, j < 6144 → (b, j) ≠ (!activeBank s, i) → slotAt t b j = slotAt s b j) ∧
      t.get F.TT_WADDR_IDX = (i + 1) % 6144 ∧ Untouched s t [A.TT_WADDR] ∧ t = { s with regs := t.regs, seq := { s.seq with slots := t.seq.slots } }))) ∧
  (∀ (u : Fin 256) (s : State), reaches u.val A.TT_RDATA_HI false s = true → s.flag F.TT_STAT_COPY_BUSY = false → s.get F.TT_RADDR_IDX < 6144 →
    Goes (.slotRead u) s (fun t => t.rdata = slotAt s (s.flag F.TT_RADDR_BANK) (s.get F.TT_RADDR_IDX) / 2 ^ 32 ∧
      t.get F.TT_RADDR_IDX = (s.get F.TT_RADDR_IDX + 1) % 6144 ∧ t.flag F.TT_RADDR_BANK = s.flag F.TT_RADDR_BANK ∧ Untouched s t [A.TT_RADDR] ∧
      t = { s with regs := t.regs, rdata := t.rdata, freeCtr := t.freeCtr, seq := { s.seq with pick := t.seq.pick } })) ∧
  (∀ (u : Fin 256) (s : State), reaches u.val A.TT_RDATA_HI false s = true → s.flag F.TT_STAT_COPY_BUSY = true → s.get F.TT_RADDR_IDX < 6144 →
    Goes (.slotRead u) s (fun t => (t.rdata = slotAt s (s.flag F.TT_RADDR_BANK) (s.get F.TT_RADDR_IDX) / 2 ^ 32 ∨
        (s.flag F.TT_RADDR_BANK ≠ activeBank s ∧ t.rdata = slotAt s (activeBank s) (s.get F.TT_RADDR_IDX) / 2 ^ 32)) ∧
      t.get F.TT_RADDR_IDX = (s.get F.TT_RADDR_IDX + 1) % 6144 ∧ Untouched s t [A.TT_RADDR] ∧
      t = { s with regs := t.regs, rdata := t.rdata, freeCtr := t.freeCtr, seq := { s.seq with pick := t.seq.pick } })) ∧
  (∀ (u : Fin 256) (s : State), Writes u A.TT_CMD s →
    ((s.flag F.TT_STAT_SWAP_PEND || s.flag F.TT_STAT_COPY_BUSY) = true → Goes (.timetableCopy u) s (fun t => t.flag F.TT_STAT_WR_REF = true ∧ Untouched s t [A.TT_STAT] ∧
      t = { s with regs := t.regs })) ∧
    ((s.flag F.TT_STAT_SWAP_PEND || s.flag F.TT_STAT_COPY_BUSY) = false → Goes (.timetableCopy u) s (fun t => t.flag F.TT_STAT_COPY_BUSY = true ∧ Untouched s t [A.TT_STAT] ∧
      t = { s with regs := t.regs, freeCtr := t.freeCtr, seq := { s.seq with pick := t.seq.pick } }))) ∧
  (∀ s : State, (s.flag F.TT_STAT_COPY_BUSY = false → Goes .copyComplete s (fun t => t = s)) ∧
    (s.flag F.TT_STAT_COPY_BUSY = true → Goes .copyComplete s (fun t => t.flag F.TT_STAT_COPY_BUSY = false ∧
      (∀ b i, i < 6144 → slotAt t b i = slotAt s (activeBank s) i) ∧ Untouched s t [A.TT_STAT] ∧
      t = { s with regs := t.regs, seq := { s.seq with slots := t.seq.slots } })))

/-- RUN, AHEAD and the pass gate: clearing RUN abandons every pass and discards what was built; a lower AHEAD cuts what was built ahead; when the gate of a port opens,
the next pass begins with its first slot, or is to begin once nothing keeps the port from it (R145, R146, R148, R149). The model's choices that this rests on: log
entries 3, 41 and 42. -/
def Obligations.TimetableRuns : Prop :=
  (∀ (u : Fin 256) (s : State), Accepts u A.TT_CTRL (BitVec.ofNat 32 (setBits (s.reg A.TT_CTRL).toNat 16 1 1)) s → s.flag F.TT_CTRL_RUN = false →
    (∀ p < 32, s.flag (F.FL_CTRL_EN p) = false) → Goes (.ttRunSet u) s (fun t => t.flag F.TT_CTRL_RUN = true ∧ t.get F.TT_CTRL_AHEAD = s.get F.TT_CTRL_AHEAD ∧
      Untouched s t [A.TT_CTRL] ∧ t = { s with regs := t.regs })) ∧
  (∀ (u : Fin 256) (s : State), Accepts u A.TT_CTRL (BitVec.ofNat 32 (setBits (s.reg A.TT_CTRL).toNat 16 1 0)) s → s.flag F.TT_CTRL_RUN = true →
    Goes (.ttRunClear u) s (fun t => t.flag F.TT_CTRL_RUN = false ∧ t.get F.TT_CTRL_AHEAD = s.get F.TT_CTRL_AHEAD ∧
      (∀ p < 32, t.port p = (s.port p).map (fun q => { q with built := [] }) ∧ t.flag (F.TTP_POS_GATE p) = false ∧
        (t.pass p).mode = .idle ∧ t.get (F.FL_RCNT_DISCARD p) = satTo 0xFFFF (s.get (F.FL_RCNT_DISCARD p) + ((s.port p).map (fun q => (q.built.map (·.frames.length)).sum)).getD 0)) ∧
      t.seq.slots = s.seq.slots)) ∧
  (∀ (u : Fin 256) (n : Fin 16) (s : State), Accepts u A.TT_CTRL (BitVec.ofNat 32 (setBits (s.reg A.TT_CTRL).toNat 8 4 n)) s →
    Goes (.ttAheadWrite u n) s (fun t => t.get F.TT_CTRL_AHEAD = n ∧ t.flag F.TT_CTRL_RUN = s.flag F.TT_CTRL_RUN ∧
      (s.get F.TT_CTRL_AHEAD ≤ n → t = { s with regs := t.regs } ∧ Untouched s t [A.TT_CTRL]) ∧
      (n < s.get F.TT_CTRL_AHEAD → ∀ p < 32, t.port p = (s.port p).map (fun q => { q with built := q.built.take n }) ∧
        t.get (F.FL_RCNT_DISCARD p) = satTo 0xFFFF (s.get (F.FL_RCNT_DISCARD p) + ((s.port p).map (fun q => ((q.built.drop n).map (·.frames.length)).sum)).getD 0)))) ∧
  (∀ (p : Fin 32) (s : State), ((s.pass p).ran = false → Goes (.passGateOpen p) s (fun t => t = s)) ∧
    ((s.pass p).ran = true → seqRuns s p = false → Goes (.passGateOpen p) s (fun t =>
      t = { s with seq := { s.seq with passes := upd s.seq.passes p (fun w => { w with opened := true }) } }))) ∧
  (∀ (p : Fin 32) (q : Port) (n i v : Nat) (rest : List (Nat × Nat)) (s : State), s.port p = some q → q.built = [] → q.round = none → q.wait = none → (s.pass p).ran = true → (s.pass p).mode = .gate →
    seqRuns s p = true → portSkips s p = false → n = (s.get (F.TTP_PASS_PASS p) + 1) % 2 ^ 32 → passSlots s p n = (i, v) :: rest → i < 6144 → Goes (.passGateOpen p) s (fun t =>
      t.port p = some { q with round := some ⟨roundKind (slotKind v), runBank s p, i, false, false, slotFrames s p v, 0, 0, [], [], false, [], none⟩ } ∧
      (∀ o, o ≠ p.val → t.port o = s.port o) ∧ t.get (F.TTP_PASS_PASS p) = n ∧ t.get (F.TTP_POS_SLOT p) = i ∧ t.flag (F.TTP_POS_ROUND p) = true ∧
      t.flag (F.TTP_POS_GATE p) = false ∧ (t.pass p).mode = .pass ∧ (t.pass p).start = s.pm ∧ (t.pass p).pos = some i ∧ t.seq.slots = s.seq.slots ∧
      Untouched s t [A.TTP_LAST p, A.TTP_BUSY p, A.TTP_MAX p, A.TTP_HOLD p, A.TTP_YIELD p, A.TTP_PASS p, A.TTP_POS p, A.FL_RCNT p]))

/-- A SWAP that passes the check changes the active bank once every port has taken it, at once where no round is in progress, each other port at its round boundary, and
is entered in the day book with the last; an edit that passes stands at once, or at the end of its slot's round; a refusal sets the command's own flag and names the
condition (R151 to R154). The model's choices that this rests on: log entry 106. -/
def Obligations.SwapsAndEdits : Prop :=
  (∀ (u : Fin 256) (s : State), Writes u A.TT_CMD s →
    ((s.flag F.TT_STAT_SWAP_PEND || s.flag F.TT_STAT_COPY_BUSY) = true → Goes (.timetableSwap u) s (fun t => t.flag F.TT_STAT_SWAP_REF = true ∧ Untouched s t [A.TT_STAT] ∧
      t = { s with regs := t.regs })) ∧
    ((s.flag F.TT_STAT_SWAP_PEND || s.flag F.TT_STAT_COPY_BUSY) = false → s.flt.dayQ.length < 32 →
      (∀ k, failingTest (swapped s) = some k → Goes (.timetableSwap u) s (fun t => t.flag F.TT_STAT_SWAP_REF = true ∧ t.get F.GATE_CHK_TEST = k ∧
        t.flag F.TT_STAT_ACTIVE = s.flag F.TT_STAT_ACTIVE ∧ t.flt.dayQ = s.flt.dayQ ++ [⟨s.pm, 0x77, 0x12, k, A.TT_CMD⟩] ∧
        Untouched s t [A.TT_STAT, A.GATE_STAT, A.GATE_CHK, A.GATE_CHK_ADDR])) ∧
      (failingTest (swapped s) = none → (∀ p < 32, inRound s p = false) → s.flag F.TT_CTRL_RUN = false → Goes (.timetableSwap u) s (fun t =>
        t.flag F.TT_STAT_ACTIVE = !s.flag F.TT_STAT_ACTIVE ∧ t.flag F.TT_STAT_SWAP_PEND = false ∧ t.get F.TT_SWAPPEND_PORTS = 0 ∧
        (∀ p < 32, t.flag (F.TTP_POS_BANK p) = !s.flag F.TT_STAT_ACTIVE) ∧ t.seq.slots = s.seq.slots ∧
        t.flt.dayQ = s.flt.dayQ ++ [⟨s.pm, 0x79, 0x11, b2n (!s.flag F.TT_STAT_ACTIVE), 0⟩])) ∧
      (failingTest (swapped s) = none → (∃ p < 32, inRound s p = true) → Goes (.timetableSwap u) s (fun t =>
        t.flag F.TT_STAT_SWAP_PEND = true ∧ t.flag F.TT_STAT_ACTIVE = s.flag F.TT_STAT_ACTIVE ∧ t.seq.slots = s.seq.slots ∧ t.flt.dayQ = s.flt.dayQ ∧
        ∀ p < 32, bit (t.get F.TT_SWAPPEND_PORTS) p = inRound s p ∧ (inRound s p = true → t.port p = s.port p ∧ t.flag (F.TTP_POS_BANK p) = s.flag (F.TTP_POS_BANK p)) ∧
          (inRound s p = false → t.flag (F.TTP_POS_BANK p) = !s.flag F.TT_STAT_ACTIVE))))) ∧
  (∀ (p : Fin 32) (q : Port) (r : Round) (d : Nat) (s : State), s.port p = some q → q.round = some r → r.done = some d → r.kind ≠ .read → q.readings = [] →
    (backOf s p).reads = [] → (∀ o ∈ s.ports, o.txn.all (fun n => n.todo.isNone) = true) → s.flt.dayQ.length < 32 →
    let pend := s.get F.TT_SWAPPEND_PORTS
    (bit pend p = true → s.seq.edit = none → Goes (.roundBoundary p) s (fun t =>
      t.flag (F.TTP_POS_BANK p) = !s.flag F.TT_STAT_ACTIVE ∧ t.get F.TT_SWAPPEND_PORTS = pend - 2 ^ p.val ∧ t.seq.slots = s.seq.slots ∧
      (pend ≠ 2 ^ p.val → t.flag F.TT_STAT_SWAP_PEND = s.flag F.TT_STAT_SWAP_PEND ∧ t.flag F.TT_STAT_ACTIVE = s.flag F.TT_STAT_ACTIVE ∧ t.flt.dayQ = s.flt.dayQ) ∧
      (pend = 2 ^ p.val → t.flag F.TT_STAT_SWAP_PEND = false ∧ t.flag F.TT_STAT_ACTIVE = !s.flag F.TT_STAT_ACTIVE ∧
        t.flt.dayQ = s.flt.dayQ ++ [⟨s.pm, 0x79, 0x11, b2n (!s.flag F.TT_STAT_ACTIVE), 0⟩]))) ∧
    (∀ i v, bit pend p = false → s.seq.edit = some (i, v) → i < 6144 → r.slot = i → r.bank = activeBank s →
      (∀ k < s.ports.length, k ≠ p.val → ∀ o ∈ (s.port k).toList, ∀ x ∈ o.round.toList, ¬(x.slot = i ∧ x.bank = activeBank s)) → Goes (.roundBoundary p) s (fun t =>
        t.flag F.TT_STAT_EDIT_PEND = false ∧ t.seq.edit = none ∧ slotAt t (activeBank s) i = v ∧
        ∀ k, k ≠ slotKey (activeBank s) i → mapGet slotDefault t.seq.slots k = mapGet slotDefault s.seq.slots k))) ∧
  (∀ (u : Fin 256) (hi : Word) (v i : Nat) (s : State), Writes u A.TT_EDIT_HI s → v = (s.reg A.TT_EDIT_LO).toNat + hi.toNat * 2 ^ 32 → i = s.get F.TT_EDIT_IDX_IDX →
    (slotRefused s v = true → Goes (.slotEdit u hi) s (fun t => t.flag F.SYS_DIAG_RSVD_WR = true ∧ Untouched s t [A.SYS_DIAG, A.SYS_RSVD_ADDR] ∧ t = { s with regs := t.regs })) ∧
    (slotRefused s v = false → (s.flag F.TT_STAT_EDIT_PEND || s.flag F.TT_STAT_SWAP_PEND) = true → Goes (.slotEdit u hi) s (fun t => t.flag F.TT_STAT_EDIT_REF = true ∧
      Untouched s t [A.TT_STAT] ∧ t = { s with regs := t.regs })) ∧
    (slotRefused s v = false → (s.flag F.TT_STAT_EDIT_PEND || s.flag F.TT_STAT_SWAP_PEND) = false →
      (∀ k, failingTest (setSlot (activeBank s) i v s) = some k → Goes (.slotEdit u hi) s (fun t => t.flag F.TT_STAT_EDIT_REF = true ∧ t.get F.GATE_CHK_TEST = k ∧ t.seq = s.seq)) ∧
      (failingTest (setSlot (activeBank s) i v s) = none → slotBusy s i = true → Goes (.slotEdit u hi) s (fun t => t.flag F.TT_STAT_EDIT_PEND = true ∧
        Untouched s t [A.TT_STAT] ∧ t = { s with regs := t.regs, seq := { s.seq with edit := some (i, v) } })) ∧
      (failingTest (setSlot (activeBank s) i v s) = none → slotBusy s i = false → s.flag F.TT_CTRL_RUN = false → Goes (.slotEdit u hi) s (fun t =>
        t.flag F.TT_STAT_EDIT_PEND = false ∧ t.seq.edit = none ∧ slotAt t (activeBank s) i = v ∧
        (∀ k, k ≠ slotKey (activeBank s) i → mapGet slotDefault t.seq.slots k = mapGet slotDefault s.seq.slots k)))))

/-! ## The trend unit (08) and the filter chains (09) -/

/-- A reading of an endpoint in no bin, under the device-wide curve and an unadjusted calibration word, is its raw code with quality seeded where the entry was empty,
and failed for the raw code 0x8000; one beyond the book is counted; one waits while another port holds an earlier one of its endpoint (R11, R161, R166, R167, R173).
A field report of such an endpoint is offered as a letter (R177). The model's choices that this rests on: log entries 3, 103 and 116. -/
def Obligations.TrendTakesReadings : Prop :=
  ∀ (p : Fin 32) (q : Port) (s : State), s.port p = some q → trendIdle s = false → (∀ o ∈ s.ports, o.txn.all (fun n => n.todo.isNone) = true) →
    let first := fun (r : Reading) => ∀ k < 32, k ≠ p.val → ∀ o ∈ (s.port k).toList, ∀ x ∈ o.readings, x.ep = r.ep → r.pm ≤ x.pm
    (∀ r rest, q.readings = r :: rest → ¬first r → Goes (.trendReading p) s (fun t => t = s)) ∧
    (q.readings = [] → Goes (.trendReading p) s (fun t => t = s)) ∧ (q.reports = [] → Goes (.fieldReport p) s (fun t => t = s)) ∧
    (∀ r rest, q.readings = r :: rest → first r → 0x500000 ≤ r.ep → Goes (.trendReading p) s (fun t => t.get F.TREND_CNT_ERR_RANGE = satTo (2 ^ F.TREND_CNT_ERR_RANGE.w - 1) (s.get F.TREND_CNT_ERR_RANGE + 1) ∧
      Untouched s t [A.TREND_CNT_ERR] ∧ t = { s with regs := t.regs, ports := upd s.ports p (fun q => { q with readings := rest }) })) ∧
    (∀ r rest, q.readings = r :: rest → first r → r.ep < 0x500000 → s.trend.backs[p.val]? = some ⟨[], []⟩ → s.trend.valid = [] → s.ledg.held = [] →
      poisonFor s 0x78 (8 * r.ep) = false → poisonFor s 0x78 (calAddr r.ep) = false → pendOf s r.ep = none → s.num (8 * r.ep) 4 = 0 → s.num (8 * r.ep + 4) 4 = 0 → s.num (calAddr r.ep) 4 = 0 → r.raw < 65536 → Goes (.trendReading p) s (fun t =>
        t = { s with ports := upd s.ports p (fun q => { q with readings := rest }), trend := t.trend } ∧
        ∃ e : BookEntry, t.trend = { s.trend with backs := upd s.trend.backs p (fun w => { w with
            reads := [⟨r.ep, r.pm, encodeLo e, e.stamp, [], false, [], (if r.raw = 0x8000 then [] else [calAddr r.ep]) ++ [8 * r.ep]⟩] }) } ∧
          e = (if r.raw = 0x8000 then ⟨false, qFailed, 0, 0, 0⟩ else ⟨false, qSeeded, 0, toSigned 16 r.raw, r.pm / 2 ^ 18 % 2 ^ 32⟩))) ∧
    (∀ r rest, q.reports = r :: rest → r.ep < 0x500000 → s.trend.valid = [] → s.ledg.flips = [] → poisonFor s 0x78 (calAddr r.ep) = false →
      s.num (calAddr r.ep) 4 = 0 → r.raw < 65536 → r.raw ≠ 0x8000 →
      Goes (.fieldReport p) s (fun t => t.gate.offers = s.gate.offers ++ [⟨0x78, mkRecord r.pm s.devId r.ep 0x15 qGood (ofSigned 24 (toSigned 16 r.raw)) (curveScale 0) 0x78 r.kind, 0⟩] ∧
        t.trend.awaits = s.trend.awaits ++ [⟨none, 1, true, false⟩] ∧ t.port p = some { q with reports := rest } ∧ t.regs = s.regs ∧ t.mem = s.mem))

/-- A chain that does not compute takes no bits. Else the bits go to the source it reads, for every chain that reads it; its output instant, once the bits that it needs
are in, is computed from them by the pipeline's arithmetic, marked with SETTLING, GAP, CLIP and OVL, shown, counted and put into the FIFO, or dropped (R182, R184 to
R188, R190 to R193). The FIFO's oldest record goes to the route's sorter when its queue has room (R192). The model's choices that this rests on: log entries 3 and
102. -/
def Obligations.ChainOutputs : Prop :=
  (∀ (i : Fin 16) (bs : List (Bool × Nat)) (c : Chain) (s : State), s.chain i = some c → chainLive s i c = false → Goes (.chainOutput i bs) s (fun t => t = s)) ∧
  (∀ (i : Fin 16) (bs : List (Bool × Nat)) (c : Chain) (n : Nat) (y lo : Int) (clip : Bool) (hi : Nat) (s s1 : State), s.chain i = some c → chainLive s i c = true →
    s1 = feed i c bs s → chainValue s1 i c c.nextQ = (y, clip) → chainSpan s i c.nextQ = (lo, hi) → n = instant s i c.nextQ →
    (closedSpans c = [] → s1 = { s with sources := upd s.sources (fcSrc s i) (fun o => { o with tick := o.tick + (bs.map (·.2)).sum, hist := bs.reverse ++ o.hist }) }) ∧
    (bitsKnown s1 c hi = false → Goes (.chainOutput i bs) s (fun t => t = s1)) ∧
    (∀ (qual : Nat) (kept : Bool), bitsKnown s1 c hi = true →
      qual = b2n (decide (0 < s.get (F.FC_SETTLE_REMAIN i))) + 2 * b2n c.gap + 4 * b2n clip + 8 * b2n (overloaded s1 c lo hi) →
      kept = (decide (c.fifo.length < 8) && (chainRoute s i).isSome && !s.isHeld (0x61 + i)) → Goes (.chainOutput i bs) s (fun t =>
        t.get (F.FC_LASTV_VALUE i) = ofSigned 24 y ∧ t.get (F.FC_LASTV_QUAL i) = qual ∧
        t.chain i = some { c with
          nextQ := nextInst c c.nextQ, lastPm := 8 * n % 2 ^ 64, gap := !kept
          fifo := c.fifo ++ (if kept then [mkRecord (8 * n % 2 ^ 64) s.devId 0x7FFFFF 0x20 qual (ofSigned 24 y) (s.get (F.FC_SRC_SCALE i)) (0x61 + i) 0] else []) } ∧
        t.get (F.FC_SETTLE_REMAIN i) = s.get (F.FC_SETTLE_REMAIN i) - 1 ∧ t.get (F.FC_SEQ_SEQ i) = (s.get (F.FC_SEQ_SEQ i) + 1) % 2 ^ 32 ∧
        t.get (F.FC_CNT_CLIP i) = satTo 0xFFFF (s.get (F.FC_CNT_CLIP i) + b2n clip) ∧ t.flag (F.FC_STAT_CLIP i) = (s.flag (F.FC_STAT_CLIP i) || clip) ∧
        t.get (F.FC_CNT_DROP i) = satTo 0xFFFF (s.get (F.FC_CNT_DROP i) + b2n (!kept)) ∧ t.flag (F.FC_STAT_DROP i) = (s.flag (F.FC_STAT_DROP i) || !kept) ∧
        Untouched s t [A.FC_SETTLE i, A.FC_LASTV i, A.FC_SEQ i, A.FC_CNT i, A.FC_STAT i] ∧ t = { s1 with regs := t.regs, chains := t.chains } ∧
        ∀ k, k ≠ i.val → t.chain k = s.chain k))) ∧
  (∀ (i : Fin 16) (c : Chain) (s : State), s.chain i = some c →
    (c.fifo = [] ∨ chainRoute s i = none → Goes (.sampleHandoff i) s (fun t => t = s)) ∧
    (∀ r rest u k, c.fifo = r :: rest → chainRoute s i = some u → u ≠ 0 → s.core u = some k → k.spec = none → s.quiet = false →
      (coreAccepts u s = false → Goes (.sampleHandoff i) s (fun t => t = s)) ∧
      (coreAccepts u s = true → Goes (.sampleHandoff i) s (fun t => t = { s with
        chains := upd s.chains i (fun c => { c with fifo := rest })
        cores := upd s.cores u (fun k => { k with queue := k.queue ++ [r] }) }))))

/-- The commands of a chain: START is refused with its first cause, or clears the pipeline and settles; STOP discards the pipeline and keeps the FIFO; an overload of a
source is noted and ends with a settle event in the chains that read it, as does a write of its gain or of a running chain's source; coefficients are written to a
stopped chain only, each access stepping the index; a read of the last output latches its postmark (R183, R190, R193 to R197). The model's choices that this rests
on: log entries 3, 70, 101 and 102. -/
def Obligations.ChainCommands : Prop :=
  (∀ (u : Fin 256) (i : Fin 16) (c : Chain) (s : State), s.chain i = some c → Accepts u (A.FC_CTRL i) (BitVec.ofNat 32 (setBits (s.reg (A.FC_CTRL i)).toNat 0 1 1)) s →
    s.flag (F.FC_CTRL_RUN i) = false → s.safe = false →
    (∀ k, (k = 1 ∧ s.flag (F.FC_CTRL_OPEN i) = true) ∨ (k = 2 ∧ s.flag (F.FC_CTRL_OPEN i) = false ∧ s.flag (F.FC_MOD_EN (fcSrc s i)) = false) ∨
        (k = 3 ∧ s.flag (F.FC_CTRL_OPEN i) = false ∧ s.flag (F.FC_MOD_EN (fcSrc s i)) = true ∧ fcGrid s i = false ∧ fcP s i < 263) →
      Goes (.chainStart u i) s (fun t => t.flag (F.FC_STAT_START_REF i) = true ∧ t.get (F.FC_STAT_CAUSE i) = k ∧ t.flag (F.FC_CTRL_RUN i) = false ∧
        Untouched s t [A.FC_STAT i] ∧ t = { s with regs := t.regs })) ∧
    (s.flag (F.FC_CTRL_OPEN i) = false → s.flag (F.FC_MOD_EN (fcSrc s i)) = true → (fcGrid s i = true ∨ 263 ≤ fcP s i) → s.Inv → failingTest (s.mark (F.FC_CTRL_RUN i)) = none →
      s.quiet = false → 5243 ≤ fcInc s i → ∀ q, s.pm / 8 + 1 ≤ instant s i q → (q = 0 ∨ instant s i (q - 1) < s.pm / 8 + 1) →
      Goes (.chainStart u i) s (fun t => t.flag (F.FC_CTRL_RUN i) = true ∧ t.get (F.FC_SETTLE_REMAIN i) = settleCount s i ∧
        t.chain i = some { c with run := true, start := s.pm / 8 + 1, reads := [(s.pm / 8 + 1, fcSrc s i)], skips := [], nextQ := q } ∧ Untouched s t [A.FC_CTRL i, A.FC_SETTLE i]))) ∧
  (∀ (u : Fin 256) (i : Fin 16) (s : State), Accepts u (A.FC_CTRL i) (BitVec.ofNat 32 (setBits (s.reg (A.FC_CTRL i)).toNat 0 1 0)) s → s.flag (F.FC_CTRL_RUN i) = true →
    (∀ k ∈ s.cores, ∀ x, k.spec = some x → recOrigin x.pred ≠ 0x61 + i.val) → Goes (.chainStop u i) s (fun t => t.flag (F.FC_CTRL_RUN i) = false ∧ Untouched s t [A.FC_CTRL i] ∧
      t = { s with regs := t.regs, chains := upd s.chains i (fun c => { c with run := false, reads := [] }) })) ∧
  (∀ (x : Fin 16) (s : State), s.pow.phase = .up → s.pwr ≤ 1 →
    ((s.source x).ovl = false → Goes (.sourceOverload x) s (fun t =>
      t = { s with sources := upd s.sources x (fun o => { o with ovl := true, ovls := o.ovls ++ [⟨o.tick, none⟩] }) })) ∧
    ((s.source x).ovl = true → Goes (.sourceOverload x) s (fun t => t = s)) ∧ ((s.source x).ovl = false → Goes (.overloadEnd x) s (fun t => t = s)) ∧
    ((s.source x).ovl = true → Goes (.overloadEnd x) s (fun t => t = { s with regs := t.regs, sources := t.sources } ∧
      t.sources = upd s.sources x (fun o => { o with ovl := false, ovls := o.ovls.map (fun v => if v.last.isNone then { v with last := some o.tick } else v) }) ∧
      (∀ i < 16, t.get (F.FC_SETTLE_REMAIN i) = (if i ∈ readers s x then settleCount s i else s.get (F.FC_SETTLE_REMAIN i)))))) ∧
  (∀ (u : Fin 256) (i : Fin 16) (v : Word) (c : Chain) (s : State), s.chain i = some c →
    (Accepts u (A.FC_CDATA i) v s → fcStopped s i = false → Goes (.coefWrite u i v) s (fun t => t.flag (F.FC_STAT_COEF_REF i) = true ∧ Untouched s t [A.FC_STAT i] ∧ t = { s with regs := t.regs })) ∧
    (∀ j last : Nat, Accepts u (A.FC_CDATA i) v s → fcStopped s i = true → j = s.get (F.FC_CADDR_IDX i) → last = (if s.flag (F.FC_CADDR_TABLE i) then 2047 else 127) → j ≤ last →
      Goes (.coefWrite u i v) s (fun t => coefNow (t.put (F.FC_CADDR_IDX i) j) i = v.toNat % 2 ^ 24 ∧ t.get (F.FC_CADDR_IDX i) = (if j = last then 0 else j + 1) ∧
        Untouched s t [A.FC_CADDR i] ∧ t = { s with regs := t.regs, chains := t.chains } ∧ ∀ k, k ≠ i.val → t.chain k = s.chain k)) ∧
    (∀ j last : Nat, reaches u.val (A.FC_CDATA i) false s = true → j = s.get (F.FC_CADDR_IDX i) → last = (if s.flag (F.FC_CADDR_TABLE i) then 2047 else 127) → j ≤ last →
      Goes (.coefRead u i) s (fun t => t.rdata = coefNow s i ∧ t.get (F.FC_CADDR_IDX i) = (if j = last then 0 else j + 1) ∧ Untouched s t [A.FC_CADDR i] ∧
        t = { s with regs := t.regs, rdata := t.rdata })) ∧
    (reaches u.val (A.FC_LASTV i) false s = true → c.lastPm < 2 ^ 64 → Goes (.lastOutputRead u i) s (fun t => t.rdata = (s.reg (A.FC_LASTV i)).toNat ∧
      t.get (F.FC_LASTPM_LO_PM_LO i) + 2 ^ 32 * t.get (F.FC_LASTPM_HI_PM_HI i) = c.lastPm ∧ Untouched s t [A.FC_LASTPM_LO i, A.FC_LASTPM_HI i] ∧
      t = { s with regs := t.regs, rdata := t.rdata }))) ∧
  (∀ (u : Fin 256) (x : Fin 16) (v : Word) (s : State), Accepts u (A.FC_MOD x) v s → (readers s x = [] ∨ s.flag (F.FC_MOD_EN x) = false ∨ v.getLsbD 0 = true) →
    Goes (.sourceModWrite u x v) s (fun t => t.reg (A.FC_MOD x) = v ∧ t = { s with regs := t.regs } ∧
      (∀ i < 16, t.get (F.FC_SETTLE_REMAIN i) = (if i ∈ readers s x then settleCount (s.setReg (A.FC_MOD x) v) i else s.get (F.FC_SETTLE_REMAIN i))))) ∧
  (∀ (u : Fin 256) (x : Fin 16) (v : Word) (s : State), Accepts u (A.FC_MOD x) v s → readers s x ≠ [] → s.flag (F.FC_MOD_EN x) = true → v.getLsbD 0 = false →
    Goes (.sourceModWrite u x v) s (fun t => t.flag (F.FC_STAT_MOD_REF x) = true ∧ Untouched s t [A.FC_STAT x] ∧ t = { s with regs := t.regs })) ∧
  (∀ (u : Fin 256) (i : Fin 16) (v : Word) (c : Chain) (s : State), s.chain i = some c → Accepts u (A.FC_SRC i) v s →
    (c.run = false → Goes (.chainSourceWrite u i v) s (fun t => t = s.setReg (A.FC_SRC i) v)) ∧
    (c.run = true → s.flag (F.FC_CTRL_RUN i) = true →
      Goes (.chainSourceWrite u i v) s (fun t => t.reg (A.FC_SRC i) = v ∧ t.get (F.FC_SETTLE_REMAIN i) = settleCount (s.setReg (A.FC_SRC i) v) i ∧
        Untouched s t [A.FC_SRC i, A.FC_SETTLE i] ∧ (fcSrc s i = v.toNat % 16 → t = { s with regs := t.regs }) ∧
        (fcSrc s i ≠ v.toNat % 16 → t.chain i = some { c with reads := (s.pm / 8 + 1, v.toNat % 16) :: c.reads.filter (fun r => decide (r.1 < s.pm / 8 + 1)) }))))

/-! ## The gatekeeper (10) -/

/-- The offer that has waited longest is decided: one that a check of Table 10.4 stops is returned with the code of the first such check and opens nothing; one that
passes is franked with the next serial and its class's deadline, its copy enters the ring and the letter its pigeonhole or, for the host and in a head office, the
outbox (R204 to R210, R212, R377). Stated for an offer of a running core. The model's choices that this rests on: log entries 3, 17, 18 and 110. -/
def Obligations.LettersAreDecided : Prop :=
  (∀ s : State, s.gate.offers = [] ∨ s.quiet = true ∨ s.flag F.SYS_RMAP_STAT_WAITING = true → Goes .letterOffer s (fun t => t = s)) ∧
  (∀ (o : Offer) (s : State), s.rmap.staged = [] → ∀ r, returnCode s o = some r ↔ ∃ i < 11, Check s o i ∧ (∀ j < i, ¬Check s o j) ∧ r = if i = 0 then 10 else i) ∧
  (∀ (o : Offer) (rest : List Offer) (k : Core) (s s' : State), s.gate.offers = o :: rest → s.quiet = false → s.flag F.SYS_RMAP_STAT_WAITING = false → 0x77 ∉ s.flt.resets →
    o.unit ≤ 0x40 → s.core o.unit = some k → nth s.gate.kSkip o.unit 0 = 0 → s.flag (F.SRT_CTRL_RUN o.unit) = true → o.body.length = 32 →
    s' = { s with gate := { s.gate with offers := rest, log := s.gate.log.filter (fun e => pmDiff s.pm e.2 * 1000000 < classWindow e.1 * 2 ^ 24) } } →
    (∀ r, returnCode s' o = some r → Goes .letterOffer s (fun t => t.get F.GATE_RET_REASON = r ∧ t.get F.GATE_RET_KIND = recKind o.body ∧ t.get F.GATE_RET_ORIGIN = o.unit ∧
      t.get F.GATE_CNT_RET_RETURNED = satTo (2 ^ F.GATE_CNT_RET_RETURNED.w - 1) (s.get F.GATE_CNT_RET_RETURNED + 1) ∧ t.flag F.GATE_STAT_RETURNED = true ∧
      t.gate = s'.gate ∧ t.cores = upd s.cores o.unit (fun k => { k with ltrOut := false, ltrRes := r }) ∧
      Untouched s t [A.GATE_RET, A.GATE_CNT_RET, A.GATE_STAT])) ∧
    (∀ (c slot : Nat) (p : Part), returnCode s' o = none → routeOf s (recKind o.body) = some (1, c) → s.isHead = false → 1 ≤ c → c ≤ 3 → s.part 5 = some p →
      s.flag F.DLF_STAT_FROZEN = false → slot = freeSlot s → MaskFor s 0x7F (p.base + 32 * slot) 32 →
      (∀ x, upPlace s (c - 1) = some x → MaskFor s 0x77 x 32 ∧ (x + 32 ≤ p.base + 32 * slot ∨ p.base + 32 * slot + 32 ≤ x)) → Goes .letterOffer s (fun t => ∃ l : List Byte, l.length = 32 ∧
        recSerial l = s.get F.GATE_SERIAL_NEXT ∧ recNum l 24 4 = deadline c (s.get F.GATE_HOPS_HOPS) s.pm % 2 ^ 32 ∧ recClass l = c ∧ recDest l = true ∧ recDev l = s.devId ∧
        recOrigin l = o.unit ∧ recNum l 30 2 = crc16 (l.take 30) ∧ l.take 8 = o.body.take 8 ∧
        t.get F.GATE_SERIAL_NEXT = nextSerial (s.get F.GATE_SERIAL_NEXT) ∧ t.gate.opened = s.gate.opened ++ [⟨l, slot, o.f, false, false⟩] ∧
        t.gate.up = upd s.gate.up (c - 1) (· ++ [l]) ∧ t.gate.log = (c, s.pm) :: s'.gate.log ∧ t.gate.offers = rest ∧
        t.bytes (p.base + 32 * slot) 32 = l ∧ (∀ x, upPlace s (c - 1) = some x → t.bytes x 32 = l) ∧
        (∀ a, a < p.base + 32 * slot ∨ p.base + 32 * slot + 32 ≤ a → (∀ x, upPlace s (c - 1) = some x → a < x ∨ x + 32 ≤ a) → t.byte a = s.byte a) ∧
        t.cores = upd s.cores o.unit (fun k => { k with ltrOut := false, ltrRes := 0, ltrSer := s.get F.GATE_SERIAL_NEXT }) ∧
        ∀ a, a ≠ A.GATE_SERIAL → a ≠ A.GATE_CNT_FRANK → t.reg a = s.reg a)) ∧
    (∀ (x c slot a : Nat) (p : Part), returnCode s' o = none → routeOf s (recKind o.body) = some (x, c) → x = 0 ∨ (x = 1 ∧ s.isHead = true) → 1 ≤ c → c ≤ 3 → s.part 5 = some p →
      s.flag F.DLF_STAT_FROZEN = false → slot = freeSlot s → MaskFor s 0x7F (p.base + 32 * slot) 32 → s.get F.GATE_OBX_LEN_LETTERS ≠ 0 →
      a = s.get F.GATE_OBX_BASE_ADDR + 32 * s.get F.GATE_OBX_WR_IDX → MaskFor s 0x77 a 32 → a + 32 ≤ p.base + 32 * slot ∨ p.base + 32 * slot + 32 ≤ a →
      Goes .letterOffer s (fun t => ∃ l : List Byte, l.length = 32 ∧ recSerial l = s.get F.GATE_SERIAL_NEXT ∧ recNum l 24 4 = deadline c 0 s.pm % 2 ^ 32 ∧ recClass l = c ∧
        recDest l = false ∧ recDev l = s.devId ∧ recOrigin l = o.unit ∧ recNum l 30 2 = crc16 (l.take 30) ∧ l.take 8 = o.body.take 8 ∧
        t.get F.GATE_SERIAL_NEXT = nextSerial (s.get F.GATE_SERIAL_NEXT) ∧ t.gate.opened = s.gate.opened ++ [⟨l, slot, o.f, false, false⟩] ∧ t.gate.up = s.gate.up ∧
        t.gate.log = s'.gate.log ∧ t.gate.offers = rest ∧ t.bytes (p.base + 32 * slot) 32 = l ∧ t.bytes a 32 = l ∧
        (∀ b, b < p.base + 32 * slot ∨ p.base + 32 * slot + 32 ≤ b → b < a ∨ a + 32 ≤ b → t.byte b = s.byte b) ∧
        t.get (F.GATE_USE_OBX_USED (c - 1)) = satTo (2 ^ (F.GATE_USE_OBX_USED (c - 1)).w - 1) (s.get (F.GATE_USE_OBX_USED (c - 1)) + 1) ∧
        t.get F.GATE_OBX_WR_IDX = (s.get F.GATE_OBX_WR_IDX + 1) % s.get F.GATE_OBX_LEN_LETTERS ∧
        t.flag F.TWP_ALERT_REQ = (s.flag F.GATE_OBX_CTRL_BELL_EN && obxHeld t != 0) ∧
        t.cores = upd s.cores o.unit (fun k => { k with ltrOut := false, ltrRes := 0, ltrSer := s.get F.GATE_SERIAL_NEXT }) ∧
        Untouched { s with mem := t.mem } t [A.GATE_SERIAL, A.GATE_CNT_FRANK, A.GATE_USE (c - 1), A.GATE_OBX_WR, A.TWP_ALERT])))

/-- POP takes the oldest letters out of the outbox: one for the local outbox closes its open letter, one for the head office is acknowledged towards the device that
franked it, or counted as dropped where it has no way there; more than are held is refused, and one that reads poisoned stays open (R222, R284, R300, R373). The bell
follows the outbox (R223, R317). Letters due again are re-sent with RE set, local ones at once and a class's as its window allows (R215); one whose copy reads
uncorrectable is not (R373). The model's choices that this rests on: log entries 3, 50, 108, 110 and 120. -/
def Obligations.OutboxBellRedelivery : Prop :=
  (∀ (u : Fin 256) (k : Word) (s : State), Accepts u A.GATE_OBX_POP k s →
    (obxHeld s < k.toNat → Goes (.outboxPop u k) s (fun t => t.flag F.GATE_STAT_OBX_REF = true ∧ Untouched s t [A.GATE_STAT] ∧ t = { s with regs := t.regs })) ∧
    (k = 0 → Goes (.outboxPop u k) s (fun t => t = s)) ∧
    (∀ b : List Byte, k = 1 → 1 ≤ obxHeld s → s.get F.GATE_OBX_RD_IDX < s.get F.GATE_OBX_LEN_LETTERS → b = obxLetter s (s.get F.GATE_OBX_RD_IDX) →
      let left := s.flag F.GATE_OBX_CTRL_BELL_EN && decide (1 < obxHeld s)
      let popped := fun (t : State) => t.get F.GATE_OBX_RD_IDX = (s.get F.GATE_OBX_RD_IDX + 1) % s.get F.GATE_OBX_LEN_LETTERS ∧
        t.flag F.TWP_ALERT_REQ = left ∧ t.flag F.TWP_ALERT_ANSWERED = (s.flag F.TWP_ALERT_ANSWERED && !left) ∧ t.flag F.TWP_ALERT_DRIVE = left
      let sound := MaskFor s 0x77 (obxPlace s (s.get F.GATE_OBX_RD_IDX)) 32 ∧ obxPlace s (s.get F.GATE_OBX_RD_IDX) % 8 = 0
      s.ledg.flips = [] →
      (maskOk s 0x77 (busBank (obxPlace s (s.get F.GATE_OBX_RD_IDX))) = false → Goes (.outboxPop u k) s (fun t => popped t ∧ t.gate.opened = s.gate.opened ∧ t.links = s.links ∧
        Untouched s t [A.GATE_OBX_RD, A.TWP_ALERT, A.SYS_FAULT])) ∧
      (∀ n, sound → recDest b = true → routeAt s (recDev b) = n →
        (n ≠ 0 ∧ (3 ≤ lstate s n ∨ (s.link n).outage.isSome = true) → Goes (.outboxPop u k) s (fun t => popped t ∧ t.gate.opened = s.gate.opened ∧
          t.links = upd s.links n (fun l => { l with tx := ackOnto (recDev b) (leBytes 2 (recDev b) ++ leBytes 4 (recSerial b)) l.tx }) ∧
          Untouched s t [A.GATE_OBX_RD, A.TWP_ALERT, A.SYS_FAULT])) ∧
        (n = 0 ∨ (lstate s n < 3 ∧ (s.link n).outage = none) → Goes (.outboxPop u k) s (fun t => popped t ∧ t.gate.opened = s.gate.opened ∧ t.links = s.links ∧
          t.get (F.CAS_L_CNT_DROP n) = satTo (2 ^ (F.CAS_L_CNT_DROP n).w - 1) (s.get (F.CAS_L_CNT_DROP n) + 1) ∧
          Untouched s t [A.GATE_OBX_RD, A.TWP_ALERT, A.SYS_FAULT, A.CAS_L_CNT n]))) ∧
      (∀ l p, sound → recDest b = false → 1 ≤ recClass b → recClass b ≤ 3 → s.gate.opened = [l] → recSerial l.body = recSerial b → s.flag F.DLF_STAT_FROZEN = false → s.part 5 = some p →
        MaskFor s 0x7F (p.base + 32 * l.slot) 32 → Goes (.outboxPop u k) s (fun t => popped t ∧ t.gate.opened = [] ∧
          t.get (F.GATE_USE_OBX_USED (recClass b - 1)) = s.get (F.GATE_USE_OBX_USED (recClass b - 1)) - 1 ∧ t.links = s.links ∧
          t.bytes (p.base + 32 * l.slot) 32 = List.replicate 32 0#8 ∧ (∀ x, x < p.base + 32 * l.slot ∨ p.base + 32 * l.slot + 32 ≤ x → t.byte x = s.byte x) ∧
          Untouched { s with mem := t.mem } t [A.GATE_OBX_RD, A.GATE_USE (recClass b - 1), A.TWP_ALERT, A.SYS_FAULT])))) ∧
  (∀ (u : Fin 256) (on : Bool) (s : State), Accepts u A.GATE_OBX_CTRL (BitVec.ofNat 32 (setBits (s.reg A.GATE_OBX_CTRL).toNat 0 1 (b2n on))) s →
    Goes (.bellEnableWrite u on) s (fun t => t.flag F.GATE_OBX_CTRL_BELL_EN = on ∧ t.flag F.TWP_ALERT_REQ = (on && obxHeld s != 0) ∧
      t.flag F.TWP_ALERT_ANSWERED = s.flag F.TWP_ALERT_ANSWERED ∧
      t.flag F.TWP_ALERT_DRIVE = (on && obxHeld s != 0 && (!s.flag F.TWP_ALERT_REQ || s.flag F.TWP_ALERT_DRIVE)) ∧ Untouched s t [A.GATE_OBX_CTRL, A.TWP_ALERT] ∧ t = { s with regs := t.regs })) ∧
  (∀ (c : Fin 3) (s : State), s.quiet = true → Goes .redelivery s (fun t => t = s) ∧ Goes (.classWindowOpen c) s (fun t => t = s)) ∧
  (∀ (l : OpenLetter) (s : State), s.quiet = false → s.gate.opened = [l] → l.due = true → l.body.length = 32 →
    let home := fun (c : Nat) (x : Nat) => upPlace s c = some x
    let memory := fun (t : State) => s.flt.stormAt = [] → priValid s 0x7B = false → secValid s 0x7B = false → ∀ a, t.byte a = s.byte a
    (copyBad s l.slot = true →
      (∀ c : Fin 3, recDest l.body = true → recClass l.body = c.val + 1 → Goes (.classWindowOpen c) s (fun t => t.gate.opened = [{ l with due := false }] ∧ t.gate.up = s.gate.up ∧
        t.gate.upAt = s.gate.upAt ∧ t.reg A.GATE_CNT_DUP = s.reg A.GATE_CNT_DUP ∧ memory t)) ∧
      (recDest l.body = false → Goes .redelivery s (fun t => t.gate.opened = [{ l with due := false }] ∧ t.reg A.GATE_OBX_WR = s.reg A.GATE_OBX_WR ∧
        t.reg A.GATE_CNT_DUP = s.reg A.GATE_CNT_DUP ∧ memory t))) ∧
    (∀ c : Fin 3, copyBad s l.slot = false → s.ledg.flips = [] → (∀ x, home c x → MaskFor s 0x77 x 32) → recDest l.body = true → recClass l.body = c.val + 1 → s.flag F.CAS_STAT_PATH = true → lk0Outage s = false →
      inWindow s (c.val + 1) < s.get (F.GATE_SHARE_SHARE c) → Goes (.classWindowOpen c) s (fun t => t.gate.opened = [{ l with due := false }] ∧
        t.gate.up = upd s.gate.up c (· ++ [markRe l.body]) ∧ t.gate.log.head? = some (c.val + 1, s.pm) ∧
        t.get F.GATE_CNT_DUP_REDELIVERED = satTo (2 ^ F.GATE_CNT_DUP_REDELIVERED.w - 1) (s.get F.GATE_CNT_DUP_REDELIVERED + 1) ∧
        (∀ x, home c x → t.bytes x 32 = markRe l.body) ∧ (∀ a, (∀ x, home c x → a < x ∨ x + 32 ≤ a) → t.byte a = s.byte a) ∧
        Untouched { s with mem := t.mem } t [A.GATE_CNT_DUP, A.SYS_FAULT])) ∧
    (∀ a : Nat, copyBad s l.slot = false → s.ledg.flips = [] → recDest l.body = false → 1 ≤ recClass l.body → recClass l.body ≤ 3 → obxHeld s = 0 → s.get F.GATE_OBX_LEN_LETTERS ≠ 0 → a = s.get F.GATE_OBX_BASE_ADDR + 32 * s.get F.GATE_OBX_WR_IDX → MaskFor s 0x77 a 32 →
      Goes .redelivery s (fun t => t.gate.opened = [{ l with due := false }] ∧ t.bytes a 32 = markRe l.body ∧ recRe (t.bytes a 32) = true ∧
        (∀ b, b < a ∨ a + 32 ≤ b → t.byte b = s.byte b) ∧ t.get F.GATE_OBX_WR_IDX = (s.get F.GATE_OBX_WR_IDX + 1) % s.get F.GATE_OBX_LEN_LETTERS ∧
        Untouched { s with mem := t.mem } t [A.GATE_CNT_DUP, A.GATE_USE (recClass l.body - 1), A.GATE_OBX_WR, A.TWP_ALERT, A.SYS_FAULT])))

/-! ## A core's instructions (11, 12) -/

/-- The flag classes ADD and SUB of R260 on 8 and on 16 bits, in terms of unsigned and signed arithmetic; every flag outside C, Z, N and V stays (D, I and bits [7:6]). -/
def Obligations.CoreFlagClassesAreArithmetic : Prop :=
  (∀ (fl a b : Byte) (k : Bool),
    let r := addClass fl a b k
    r.1 = a + b + BitVec.ofNat 8 (b2n k) ∧
    getFl r.2 flC = decide (256 ≤ a.toNat + b.toNat + b2n k) ∧
    getFl r.2 flV = decide (a.toInt + b.toInt + b2n k < -128 ∨ 127 < a.toInt + b.toInt + b2n k) ∧
    getFl r.2 flN = decide (r.1.toInt < 0) ∧ getFl r.2 flZ = decide (r.1 = 0#8) ∧ ∀ i, 4 ≤ i → getFl r.2 i = getFl fl i) ∧
  (∀ (fl a b : Byte) (k : Bool),
    let r := subClass fl a b k
    r.1 = a - b - BitVec.ofNat 8 (b2n k) ∧
    getFl r.2 flC = decide (b.toNat + b2n k ≤ a.toNat) ∧
    getFl r.2 flV = decide (a.toInt - b.toInt - b2n k < -128 ∨ 127 < a.toInt - b.toInt - b2n k) ∧
    getFl r.2 flN = decide (r.1.toInt < 0) ∧ getFl r.2 flZ = decide (r.1 = 0#8) ∧ ∀ i, 4 ≤ i → getFl r.2 i = getFl fl i) ∧
  (∀ (fl : Byte) (a b : BitVec 16),
    let r := subClass fl a b false
    getFl r.2 flC = decide (b.toNat ≤ a.toNat) ∧
    getFl r.2 flV = decide (a.toInt - b.toInt < -32768 ∨ 32767 < a.toInt - b.toInt) ∧
    getFl r.2 flN = decide ((a - b).toInt < 0) ∧ getFl r.2 flZ = decide (a = b) ∧ ∀ i, 4 ≤ i → getFl r.2 i = getFl fl i)

/-- The eight-form instructions of Table 12.5, the store apart, in every form, with an operand in the instruction, in a register, in private memory, behind the window,
whose access on the post bus is made first, or in the unit I/O, whose read has its side effect (R231, R233, R237, R256, R262). The model's choices that this rests
on: log entries 19 and 20. -/
def Obligations.CoreEightFormInstructions : Prop :=
  ∀ (c : Fin 65) (s b : State) (k k1 : Core) (took : Bool) (form : Nat) (m : Byte) (n w : Nat), OperandAt s c k form m n w b k1 took →
    let cy := getFl k.r.fl flC
    let go := fun (i : Instr) (base : Nat) (a fl : Byte) =>
      CoreAt s c k (base + form) n w → Goes i s (fun t => CoreWent b t c took (k1.went n w { k.r with a := a, fl := fl }))
    go (.add c) 0x10 (k.r.a + m) (addClass k.r.fl k.r.a m false).2 ∧
    go (.adc c) 0x18 (k.r.a + m + BitVec.ofNat 8 (b2n cy)) (addClass k.r.fl k.r.a m cy).2 ∧
    go (.sub c) 0x20 (k.r.a - m) (subClass k.r.fl k.r.a m false).2 ∧
    go (.sbc c) 0x28 (k.r.a - m - BitVec.ofNat 8 (b2n (!cy))) (subClass k.r.fl k.r.a m (!cy)).2 ∧
    go (.and c) 0x30 (k.r.a &&& m) (logFlags k.r.fl (k.r.a &&& m)) ∧
    go (.or c) 0x38 (k.r.a ||| m) (logFlags k.r.fl (k.r.a ||| m)) ∧
    go (.xor c) 0x40 (k.r.a ^^^ m) (logFlags k.r.fl (k.r.a ^^^ m)) ∧
    go (.cmp c) 0x48 k.r.a (subClass k.r.fl k.r.a m false).2 ∧
    go (.lda c) 0x50 m (ldFlags k.r.fl m)

/-- The loads, compares and tests of Table 12.6, in each form their entries name (R263). The model's choices that this rests on: log entries 19 and 20. -/
def Obligations.CoreLoadsAndCompares : Prop :=
  ∀ (c : Fin 65) (s b : State) (k k1 : Core) (took : Bool) (form : Nat) (m : Byte) (n w : Nat), OperandAt s c k form m n w b k1 took →
    let go := fun (i : Instr) (op : Nat) (r : CoreRegs) => CoreAt s c k op n w → Goes i s (fun t => CoreWent b t c took (k1.went n w r))
    (form = 0 → go (.ldx c) 0x60 { k.r with x := m, fl := ldFlags k.r.fl m } ∧ go (.ldy c) 0x65 { k.r with y := m, fl := ldFlags k.r.fl m } ∧
      go (.cpx c) 0xB4 { k.r with fl := (subClass k.r.fl k.r.x m false).2 } ∧ go (.cpy c) 0xB6 { k.r with fl := (subClass k.r.fl k.r.y m false).2 } ∧
      go (.tst c) 0xBA { k.r with fl := logFlags k.r.fl (k.r.a &&& m) }) ∧
    (form = 1 → go (.ldx c) 0x61 { k.r with x := m, fl := ldFlags k.r.fl m } ∧ go (.ldy c) 0x66 { k.r with y := m, fl := ldFlags k.r.fl m } ∧
      go (.cpx c) 0xB5 { k.r with fl := (subClass k.r.fl k.r.x m false).2 } ∧ go (.cpy c) 0xB7 { k.r with fl := (subClass k.r.fl k.r.y m false).2 } ∧
      go (.tst c) 0xBB { k.r with fl := logFlags k.r.fl (k.r.a &&& m) }) ∧
    (form = 3 → go (.ldx c) 0x62 { k.r with x := m, fl := ldFlags k.r.fl m } ∧ go (.ldy c) 0x67 { k.r with y := m, fl := ldFlags k.r.fl m })

/-- The register and unary instructions of Table 12.6 (R263). The model's choices that this rests on: log entry 19. -/
def Obligations.CoreRegisterInstructions : Prop :=
  ∀ (c : Fin 65) (s : State) (k : Core),
    let r := k.r
    let cy := getFl r.fl flC
    let go := fun (i : Instr) (op w : Nat) (r1 : CoreRegs) => CoreAt s c k op 1 w → Goes i s (fun t => CoreBecame s t c (k.went 1 w r1))
    go (.tax c) 0x6A 1 { r with x := r.a, fl := ldFlags r.fl r.a } ∧
    go (.tay c) 0x6B 1 { r with y := r.a, fl := ldFlags r.fl r.a } ∧
    go (.tya c) 0x6C 1 { r with a := r.y, fl := ldFlags r.fl r.y } ∧
    go (.txy c) 0x6D 1 { r with y := r.x, fl := ldFlags r.fl r.x } ∧
    go (.tyx c) 0x6E 1 { r with x := r.y, fl := ldFlags r.fl r.y } ∧
    go (.inc c) 0x70 1 { r with a := r.a + 1, fl := setFl (flagsNZ r.fl (r.a + 1)) flV (r.a == 0x7F#8) } ∧
    go (.inc c) 0x72 1 { r with x := r.x + 1, fl := setFl (flagsNZ r.fl (r.x + 1)) flV (r.x == 0x7F#8) } ∧
    go (.inc c) 0x74 1 { r with y := r.y + 1, fl := setFl (flagsNZ r.fl (r.y + 1)) flV (r.y == 0x7F#8) } ∧
    go (.dec c) 0x71 1 { r with a := r.a - 1, fl := setFl (flagsNZ r.fl (r.a - 1)) flV (r.a == 0x80#8) } ∧
    go (.dec c) 0x73 1 { r with x := r.x - 1, fl := setFl (flagsNZ r.fl (r.x - 1)) flV (r.x == 0x80#8) } ∧
    go (.dec c) 0x75 1 { r with y := r.y - 1, fl := setFl (flagsNZ r.fl (r.y - 1)) flV (r.y == 0x80#8) } ∧
    go (.shl c) 0x78 1 { r with a := r.a <<< 1, fl := shfFlags r.fl (r.a <<< 1) (r.a.getLsbD 7) } ∧
    go (.shr c) 0x79 1 { r with a := r.a >>> 1, fl := shfFlags r.fl (r.a >>> 1) (r.a.getLsbD 0) } ∧
    go (.sar c) 0x7A 1 { r with a := r.a.sshiftRight 1, fl := shfFlags r.fl (r.a.sshiftRight 1) (r.a.getLsbD 0) } ∧
    go (.rol c) 0x7B 1 { r with a := r.a <<< 1 ||| BitVec.ofNat 8 (b2n cy), fl := shfFlags r.fl (r.a <<< 1 ||| BitVec.ofNat 8 (b2n cy)) (r.a.getLsbD 7) } ∧
    go (.ror c) 0x7C 1 { r with a := r.a >>> 1 ||| BitVec.ofNat 8 (128 * b2n cy), fl := shfFlags r.fl (r.a >>> 1 ||| BitVec.ofNat 8 (128 * b2n cy)) (r.a.getLsbD 0) } ∧
    go (.not c) 0x7D 1 { r with a := ~~~r.a, fl := logFlags r.fl (~~~r.a) } ∧
    go (.neg c) 0x7E 1 { r with a := -r.a, fl := (subClass r.fl 0#8 r.a false).2 } ∧
    go (.mul c) 0x7F 4 { r with
      a := BitVec.ofNat 8 (r.a.toNat * r.x.toNat), x := BitVec.ofNat 8 (r.a.toNat * r.x.toNat / 256)
      fl := setFl (setFl (setFl (setFl r.fl flZ (decide (r.a = 0#8 ∨ r.x = 0#8))) flC (decide (256 ≤ r.a.toNat * r.x.toNat))) flN false) flV false }

/-- The pointer and count instructions of Table 12.7 that store nothing; P, Q, SP and CNT are 16 bits; a word is read low byte first, from private memory, the window or
the unit I/O (R256, R257, R264). The model's choices that this rests on: log entries 19 and 20. -/
def Obligations.CorePointerInstructions : Prop :=
  ∀ (c : Fin 65) (s : State) (k : Core),
    let r := k.r
    let go := fun (i : Instr) (op n w : Nat) (r1 : CoreRegs) => CoreAt s c k op n w → Goes i s (fun t => CoreBecame s t c (k.went n w r1))
    go (.ldp c) 0x80 3 1 { r with p := k.opW } ∧ go (.ldq c) 0x81 3 1 { r with q := k.opW } ∧
    go (.addp c) 0x86 1 1 { r with p := r.p + r.a.setWidth 16 } ∧ go (.addq c) 0x87 1 1 { r with q := r.q + r.a.setWidth 16 } ∧
    go (.addp c) 0x88 2 1 { r with p := r.p + k.op1.signExtend 16 } ∧ go (.addq c) 0x89 2 1 { r with q := r.q + k.op1.signExtend 16 } ∧
    go (.xpq c) 0x8A 1 1 { r with p := r.q, q := r.p } ∧ go (.ldsp c) 0x8B 3 1 { r with sp := k.opW } ∧
    go (.tsp c) 0x8C 1 1 { r with p := r.sp } ∧ go (.tps c) 0x8D 1 1 { r with sp := r.p } ∧
    go (.txap c) 0x8E 1 1 { r with p := r.x ++ r.a } ∧
    go (.tpxa c) 0x8F 1 1 { r with x := BitVec.ofNat 8 (r.p.toNat / 256), a := BitVec.ofNat 8 r.p.toNat } ∧
    go (.ldc c) 0x90 3 1 { r with cnt := k.opW } ∧ go (.txac c) 0x91 1 1 { r with cnt := r.x ++ r.a } ∧
    go (.tcxa c) 0x93 1 1 { r with x := BitVec.ofNat 8 (r.cnt.toNat / 256), a := BitVec.ofNat 8 r.cnt.toNat } ∧
    go (.cpp c) 0xB8 3 1 { r with fl := (subClass r.fl r.p k.opW false).2 } ∧
    go (.cpq c) 0xB9 3 1 { r with fl := (subClass r.fl r.q k.opW false).2 } ∧
    (∀ (lo hi : Byte) (b : State) (k1 : Core) (x : Nat) (took : Bool), readsOf s c k [k.opW.toNat, (k.opW + 1).toNat] = some ([lo, hi], b, k1, x, took) →
      (CoreAt s c k 0x82 3 (3 + x) → Goes (.ldp c) s (fun t => CoreWent b t c took (k1.went 3 (3 + x) { r with p := hi ++ lo }))) ∧
      (CoreAt s c k 0x83 3 (3 + x) → Goes (.ldq c) s (fun t => CoreWent b t c took (k1.went 3 (3 + x) { r with q := hi ++ lo }))))

/-- The stores of Tables 12.5 to 12.7: the byte or the two bytes at the address the form names, low byte first, and no other; INC and DEC of a byte; INCW and DECW of a
word, that wrap (R255 to R257, R262 to R264). In private memory, and, where the window or the unit I/O takes the bytes, with the effect each byte has there (R229 to
R239, R245, R246). The model's choices that this rests on: log entries 19 and 20. -/
def Obligations.CoreStores : Prop :=
  ∀ (c : Fin 65) (s : State) (k : Core),
    let r := k.r
    let a := k.opW.toNat
    let b := (k.opW + 1).toNat
    let go := fun (i : Instr) (op n w : Nat) (k1 : Core) => CoreAt s c k op n w → Goes i s (fun t => CoreBecame s t c k1)
    let word := (k.priv b ++ k.priv a : BitVec 16)
    let putWord := fun (w : Nat) (v : BitVec 16) (r1 : CoreRegs) =>
      ((k.went 3 w r1).setPriv a (BitVec.ofNat 8 v.toNat)).setPriv b (BitVec.ofNat 8 (v.toNat / 256))
    (∀ form, 1 ≤ form → form ≤ 6 → (formAddr k form).toNat < 0x8000 →
      go (.sta c) (0x58 + form) (formLen form) 2 ((k.went (formLen form) 2 r).setPriv (formAddr k form).toNat r.a)) ∧
    (a < 0x8000 → go (.stx c) 0x63 3 2 ((k.went 3 2 r).setPriv a r.x) ∧ go (.sty c) 0x68 3 2 ((k.went 3 2 r).setPriv a r.y)) ∧
    (r.q.toNat < 0x8000 → go (.stx c) 0x64 1 2 ((k.went 1 2 r).setPriv r.q.toNat r.x) ∧ go (.sty c) 0x69 1 2 ((k.went 1 2 r).setPriv r.q.toNat r.y)) ∧
    (a < 0x8000 →
      go (.inc c) 0x76 3 3 ((k.went 3 3 { r with fl := setFl (flagsNZ r.fl (k.priv a + 1)) flV (k.priv a == 0x7F#8) }).setPriv a (k.priv a + 1)) ∧
      go (.dec c) 0x77 3 3 ((k.went 3 3 { r with fl := setFl (flagsNZ r.fl (k.priv a - 1)) flV (k.priv a == 0x80#8) }).setPriv a (k.priv a - 1))) ∧
    (a < 0x8000 → b < 0x8000 →
      go (.stp c) 0x84 3 3 (putWord 3 r.p r) ∧ go (.stq c) 0x85 3 3 (putWord 3 r.q r) ∧
      go (.incw c) 0xBC 3 5 (putWord 5 (word + 1) { r with fl := setFl (flagsNZ r.fl (word + 1)) flC (decide (word = 0xFFFF#16)) }) ∧
      go (.decw c) 0xBD 3 5 (putWord 5 (word - 1) { r with fl := setFl (flagsNZ r.fl (word - 1)) flC (decide (word = 0#16)) })) ∧
    let store := fun (i : Instr) (op n w at_ : Nat) (v : Byte) => let w1 := w + storeSteps (some v) at_
      CoreAt s c k op n w1 → Storable s c k [(at_, v)] → Goes i s (fun t => CoreStored s t c false (k.went n w1 r) [(at_, v)])
    let storeWord := fun (i : Instr) (op : Nat) (v : BitVec 16) =>
      let l := [(a, BitVec.ofNat 8 v.toNat), (b, BitVec.ofNat 8 (v.toNat / 256))]
      let w1 := 3 + (l.map (fun e => storeSteps (some e.2) e.1)).sum
      CoreAt s c k op 3 w1 → Storable s c k l → Goes i s (fun t => CoreStored s t c false (k.went 3 w1 r) l)
    (∀ form, 1 ≤ form → form ≤ 6 → store (.sta c) (0x58 + form) (formLen form) 2 (formAddr k form).toNat r.a) ∧
    store (.stx c) 0x63 3 2 a r.x ∧ store (.sty c) 0x68 3 2 a r.y ∧ store (.stx c) 0x64 1 2 r.q.toNat r.x ∧ store (.sty c) 0x69 1 2 r.q.toNat r.y ∧
    storeWord (.stp c) 0x84 r.p ∧ storeWord (.stq c) 0x85 r.q ∧
    (∀ (m : Byte) (u : State) (k1 : Core) (x : Nat) (took : Bool), readsOf s c k [a] = some ([m], u, k1, x, took) →
      let count := fun (i : Instr) (op : Nat) (v : Byte) (ovf : Bool) =>
        CoreAt s c k op 3 (3 + x + storeSteps none a) → Storable s c k [(a, v)] →
        Goes i s (fun t => CoreStored u t c took (k1.went 3 (3 + x + storeSteps (some v) a) { r with fl := setFl (flagsNZ r.fl v) flV ovf }) [(a, v)])
      count (.inc c) 0x76 (m + 1) (m == 0x7F#8) ∧ count (.dec c) 0x77 (m - 1) (m == 0x80#8)) ∧
    (∀ (lo hi : Byte) (u : State) (k1 : Core) (x : Nat) (took : Bool), readsOf s c k [a, b] = some ([lo, hi], u, k1, x, took) →
      let old : BitVec 16 := hi ++ lo
      let count := fun (i : Instr) (op : Nat) (v : BitVec 16) (ovf : Bool) =>
        let l := [(a, BitVec.ofNat 8 v.toNat), (b, BitVec.ofNat 8 (v.toNat / 256))]
        CoreAt s c k op 3 (5 + x + storeSteps none a + storeSteps none b) → Storable s c k l →
        Goes i s (fun t => CoreStored u t c took
          (k1.went 3 (5 + x + (l.map (fun e => storeSteps (some e.2) e.1)).sum) { r with fl := setFl (flagsNZ r.fl v) flC ovf }) l)
      count (.incw c) 0xBC (old + 1) (old == 0xFFFF#16) ∧ count (.decw c) 0xBD (old - 1) (old == 0#16))

/-- The stack instructions of Tables 12.7 and 12.8: a push lowers SP and writes from the higher address downward, a pull reads upward; CALL pushes the address after it;
RET and RTI pull PC, RTI with FL before it and bits [7:6] of FL read as 0 (R257, R260, R264, R265, R266). The stack lies in private memory. The model's choices that
this rests on: log entry 19. -/
def Obligations.CoreStackInstructions : Prop :=
  ∀ (c : Fin 65) (s : State) (k : Core),
    let r := k.r
    let go := fun (i : Instr) (op n w : Nat) (k1 : Core) => CoreAt s c k op n w → Goes i s (fun t => CoreBecame s t c k1)
    let at_ := fun (i : Nat) => (r.sp - BitVec.ofNat 16 i).toNat
    let top := fun (i : Nat) => k.priv (r.sp + BitVec.ofNat 16 i).toNat
    let push1 := fun (v : Byte) => (k.went 1 2 { r with sp := r.sp - 1 }).setPriv (at_ 1) v
    let push2 := fun (n w : Nat) (v : BitVec 16) => ((k.went n w { r with sp := r.sp - 2 }).setPriv (at_ 1) (BitVec.ofNat 8 (v.toNat / 256))).setPriv (at_ 2) (BitVec.ofNat 8 v.toNat)
    let jump := fun (k1 : Core) (pc : BitVec 16) => { k1 with r := { k1.r with pc := pc } }
    (at_ 1 < 0x8000 → go (.push c) 0x94 1 2 (push1 r.a) ∧ go (.push c) 0x96 1 2 (push1 r.x) ∧ go (.push c) 0x98 1 2 (push1 r.y) ∧ go (.push c) 0x9A 1 2 (push1 r.fl)) ∧
    (at_ 0 < 0x8000 → go (.pull c) 0x95 1 2 (k.went 1 2 { r with a := top 0, sp := r.sp + 1 }) ∧ go (.pull c) 0x97 1 2 (k.went 1 2 { r with x := top 0, sp := r.sp + 1 }) ∧
      go (.pull c) 0x99 1 2 (k.went 1 2 { r with y := top 0, sp := r.sp + 1 }) ∧ go (.pull c) 0x9B 1 2 (k.went 1 2 { r with fl := top 0 &&& 0x3F#8, sp := r.sp + 1 })) ∧
    (at_ 1 < 0x8000 → at_ 2 < 0x8000 → go (.push c) 0x9C 1 3 (push2 1 3 r.p) ∧ go (.push c) 0x9E 1 3 (push2 1 3 r.q) ∧
      (k.opW.toNat < 0x8000 → go (.call c) 0xB2 3 4 (jump (push2 3 4 (r.pc + 3)) k.opW)) ∧
      (r.p.toNat < 0x8000 → go (.call c) 0xB3 1 4 (jump (push2 1 4 (r.pc + 1)) r.p))) ∧
    (at_ 0 < 0x8000 → (r.sp + 1).toNat < 0x8000 →
      go (.pull c) 0x9D 1 3 (k.went 1 3 { r with p := top 1 ++ top 0, sp := r.sp + 2 }) ∧ go (.pull c) 0x9F 1 3 (k.went 1 3 { r with q := top 1 ++ top 0, sp := r.sp + 2 }) ∧
      ((top 1).toNat < 0x80 → go (.ret c) 0x03 1 3 (jump (k.went 1 3 { r with sp := r.sp + 2 }) (top 1 ++ top 0)))) ∧
    (at_ 0 < 0x8000 → (r.sp + 1).toNat < 0x8000 → (r.sp + 2).toNat < 0x8000 → (top 2).toNat < 0x80 → k.entries = [] →
      go (.rti c) 0x04 1 4 (jump (k.went 1 4 { r with fl := top 0 &&& 0x3F#8, sp := r.sp + 3 }) (top 2 ++ top 1)))

/-- The control instructions of Tables 12.8 and 12.9 and LOOP: NOP, SETF and CLRF with the masks R273 allows, each branch taken exactly when its condition holds, JMP,
and LOOP, which branches while CNT is not 0 (R264, R265). The model's choices that this rests on: log entry 19. -/
def Obligations.CoreControlInstructions : Prop :=
  ∀ (c : Fin 65) (s : State) (k : Core),
    let r := k.r
    let fC := getFl r.fl flC
    let fZ := getFl r.fl flZ
    let fN := getFl r.fl flN
    let fV := getFl r.fl flV
    let go := fun (i : Instr) (op n w : Nat) (r1 : CoreRegs) =>
      CoreAt s c k op n w → Goes i s (fun t => CoreBecame s t c { k with r := r1, steps := k.steps + w })
    let target := r.pc + 2 + k.op1.signExtend 16
    let branch := fun (i : Nat) (b : Bool) => (b = true → target.toNat < 0x8000) → go (.branch c) (0xA0 + i) 2 2 { r with pc := if b then target else r.pc + 2 }
    go (.nop c) 0x01 1 1 { r with pc := r.pc + 1 } ∧
    (k.op1 ≠ 0#8 → k.op1.toNat < 64 → go (.setf c) 0x05 2 1 { r with pc := r.pc + 2, fl := r.fl ||| k.op1 } ∧
      go (.clrf c) 0x06 2 1 { r with pc := r.pc + 2, fl := r.fl &&& ~~~k.op1 }) ∧
    branch 0 true ∧ branch 1 fZ ∧ branch 2 (!fZ) ∧ branch 3 fC ∧ branch 4 (!fC) ∧ branch 5 fN ∧ branch 6 (!fN) ∧ branch 7 fV ∧ branch 8 (!fV) ∧
    branch 9 (!fZ && fN == fV) ∧ branch 10 (fN == fV) ∧ branch 11 (fN != fV) ∧ branch 12 (fZ || fN != fV) ∧ branch 13 (fC && !fZ) ∧ branch 14 (!fC || fZ) ∧
    (k.opW.toNat < 0x8000 → go (.jmp c) 0xB0 3 2 { r with pc := k.opW }) ∧ (r.p.toNat < 0x8000 → go (.jmp c) 0xB1 1 2 { r with pc := r.p }) ∧
    ((r.cnt ≠ 1#16 → target.toNat < 0x8000) → go (.loop c) 0x92 2 2 { r with cnt := r.cnt - 1, pc := if r.cnt = 1#16 then r.pc + 2 else target })

/-- One repetition of each block instruction of Table 12.10: D sets the direction of P and Q, and CNT stays (R268); the bytes at P and at Q may lie in private memory,
behind the window or in the unit I/O (R228 to R239). The model's choices that this rests on: log entry 19. -/
def Obligations.CoreBlockInstructions : Prop :=
  ∀ (c : Fin 65) (s : State) (k : Core),
    let r := k.r
    let step := fun (v : BitVec 16) => if getFl r.fl flD then v - 1 else v + 1
    let cy := getFl r.fl flC
    let p := r.p.toNat
    let q := r.q.toNat
    let goes := fun (i : Instr) (op : Nat) (b : State) (k1 : Core) (took : Bool) (w : Nat) (r1 : CoreRegs) =>
      CoreAt s c k op 1 w → Goes i s (fun t => CoreWent b t c took (k1.went 1 w r1))
    let stores := fun (i : Instr) (op : Nat) (b : State) (k1 : Core) (took : Bool) (known : Bool) (w : Nat) (v : Byte) (r1 : CoreRegs) =>
      CoreAt s c k op 1 (w + storeSteps (if known then some v else none) q) → Storable s c k [(q, v)] →
      Goes i s (fun t => CoreStored b t c took (k1.went 1 (w + storeSteps (some v) q) r1) [(q, v)])
    stores (.fill c) 0xC1 s k false true 2 r.a { r with q := step r.q } ∧
    (∀ (m : Byte) (b : State) (k1 : Core) (x : Nat) (took : Bool), readsOf s c k [p] = some ([m], b, k1, x, took) →
      goes (.scan c) 0xC2 b k1 took (2 + x) { r with p := step r.p, fl := (subClass r.fl r.a m false).2 } ∧
      goes (.lodb c) 0xC4 b k1 took (2 + x) { r with a := m, p := step r.p, fl := ldFlags r.fl m } ∧
      stores (.movb c) 0xC0 b k1 took false (3 + x) m { r with p := step r.p, q := step r.q }) ∧
    (∀ (m o : Byte) (b : State) (k1 : Core) (x : Nat) (took : Bool), readsOf s c k [p, q] = some ([m, o], b, k1, x, took) →
      goes (.cmpb c) 0xC3 b k1 took (3 + x) { r with p := step r.p, q := step r.q, fl := (subClass r.fl m o false).2 }) ∧
    (∀ (m o : Byte) (b : State) (k1 : Core) (x : Nat) (took : Bool), readsOf s c k [q, p] = some ([o, m], b, k1, x, took) →
      stores (.adcb c) 0xC5 b k1 took false (4 + x) (o + m + BitVec.ofNat 8 (b2n cy)) { r with p := step r.p, q := step r.q, fl := (addClass r.fl o m cy).2 } ∧
      stores (.sbcb c) 0xC6 b k1 took false (4 + x) (o - m - BitVec.ofNat 8 (b2n (!cy))) { r with p := step r.p, q := step r.q, fl := (subClass r.fl o m (!cy)).2 })
/-- The traps of Table 11.7 are taken: PC high, PC low and FL are pushed, I is cleared, PC is loaded from the cause's vector, TDEPTH rises, CAUSE and PC are kept for the
depth, a fault slot of class TRAP is loaded, the day book is offered the entry, and 4 steps are charged (R241, R243, R244, R259, R272, R273, R365, R382). UNDEF: an
opcode marked as undefined, a mask of SETF or CLRF that R273 bars, a prefix before an opcode it cannot repeat; RPT: LDC, TXAC or LOOP after it; BUDGET: a charge that
does not fit, the count being BUDGET less TRAP_STEPS; WINDOW: execution above private memory, a stack read outside it, a byte no core may access, and a WIN2 that
would make the window straddle two regions (R229, R231, R239); FAULT: a double-bit error at PC. A trap that cannot push is a third fault of a sorter: its slots
clear, the storm is counted and its reset begins (R244, R367). The model's choices that this rests on: log entries 19 and 29. -/
def Obligations.CoreTrapsAreTaken : Prop :=
  (∀ (c : Fin 65) (s : State) (k p : Core), 0 < c.val → CoreAt s c k 0x94 1 2 → 0x8000 ≤ (k.r.sp - 1).toNat → Listens s p → s.flt.dayQ.length < 32 →
    (∀ e ∈ s.flt.stormAt, e.1 ≠ c.val) → c.val ∉ s.flt.resets → Goes (.push c) s (fun t =>
      t.flag F.SYS_FAULT_STORM = true ∧ t.get F.SYS_FSTORM_UNIT = c ∧ t.get F.SYS_FSTORM_COUNT = satTo 0xFFFF (s.get F.SYS_FSTORM_COUNT + 1) ∧
      t.flag (F.SYS_FLT_PRI_VALID c) = false ∧ t.flag (F.SYS_FLT_SEC_VALID c) = false ∧ t.flt.resets = s.flt.resets ++ [c.val] ∧ t.core c = some k ∧
      t.flt.dayQ = s.flt.dayQ ++ [⟨s.pm, c, 0x0A, 4, 2 + t.get F.SYS_FSTORM_COUNT * 2 ^ 16⟩] ∧
      Told s t (mkRecord s.pm s.devId 0x7FFFFF 0x31 0 (t.get F.SYS_FSTORM_COUNT) 0x0A c 2) ∧
      Untouched s t [A.SYS_FAULT, A.SYS_FSTORM, A.SYS_FLT_PRI c, A.SYS_FLT_SEC c])) ∧
  (∀ (c : Fin 65) (s : State) (k : Core) (d : Nat), s.core c = some k → coreRuns s c k = true → k.series = .idle → k.spec = none → k.r.pc.toNat < 0x8000 →
    (c.val = 0 → pmHandling s = false) → s.get (F.SRT_STAT_TDEPTH c) = d → d < 2 → k.entries.length < 4 → s.flt.dayQ.length < 32 →
    (k.r.sp - 1).toNat < 0x8000 → (k.r.sp - 2).toNat < 0x8000 → (k.r.sp - 3).toNat < 0x8000 →
    let pc := k.r.pc.toNat
    let op := (k.priv pc).toNat
    let next := (k.priv (pc + 1)).toNat
    let takenAt := fun (q cause : Nat) (count : Int) (t : State) =>
      t.cores = upd s.cores c (fun _ => {
        ((k.setPriv (k.r.sp - 1).toNat (BitVec.ofNat 8 (q / 256))).setPriv (k.r.sp - 2).toNat (BitVec.ofNat 8 q)).setPriv (k.r.sp - 3).toNat k.r.fl with
        r := { k.r with sp := k.r.sp - 3, fl := setFl k.r.fl flI false, pc := k.priv (0xFF00 + 2 * (cause - 1) + 1) ++ k.priv (0xFF00 + 2 * (cause - 1)) }
        series := .idle, entries := .trap d :: k.entries, steps := count + 4 }) ∧
      t.get (F.SRT_STAT_TDEPTH c) = d + 1 ∧ t.get (F.SRT_STAT_STATE c) = stRunning ∧
      (d = 0 → t.get (F.SRT_TRAP_CAUSE1 c) = cause ∧ t.get (F.SRT_TRAP_PC1 c) = q ∧
        t.reg (A.SYS_FLT_PRI c) = BitVec.ofNat 32 (2 ^ 31 + 2 * 2 ^ 24 + cause * 2 ^ 16 + q) ∧ t.reg (A.SYS_FLT_PRIPM c) = BitVec.ofNat 32 s.pm ∧
        Untouched s t [A.SRT_STAT c, A.SRT_TRAP c, A.SYS_FLT_PRI c, A.SYS_FLT_PRIPM c, A.SRT_STEPS c]) ∧
      (d = 1 → t.get (F.SRT_TRAP_CAUSE2 c) = cause ∧ t.get (F.SRT_TRAP2_PC2 c) = q ∧
        t.reg (A.SYS_FLT_SEC c) = BitVec.ofNat 32 (2 ^ 31 + 2 * 2 ^ 24 + cause * 2 ^ 16 + q) ∧ t.reg (A.SYS_FLT_SECPM c) = BitVec.ofNat 32 s.pm ∧
        Untouched s t [A.SRT_STAT c, A.SRT_TRAP c, A.SRT_TRAP2 c, A.SYS_FLT_SEC c, A.SYS_FLT_SECPM c, A.SRT_STEPS c]) ∧
      t.get (F.SRT_STEPS_MAX c) = max (s.get (F.SRT_STEPS_MAX c)) (satTo 0xFFFFFF (count + 4).toNat) ∧
      t.flt.dayQ = s.flt.dayQ ++ [⟨s.pm, c, 0x09, (k.priv q).toNat, q + cause * 2 ^ 16 + d * 2 ^ 20⟩]
    let taken := takenAt pc
    (k.memBad = [] →
      (opUndefined op = true → Goes (.undefinedOpcode c) s (taken 1 k.steps)) ∧
      (op = 0x05 → pc < 0x7FFF → next = 0 ∨ 64 ≤ next → Goes (.setf c) s (taken 1 k.steps)) ∧
      (op = 0x06 → pc < 0x7FFF → next = 0 ∨ 64 ≤ next → Goes (.clrf c) s (taken 1 k.steps)) ∧
      (op = 0xCF → pc < 0x7FFF → opUndefined next = false → next < 0x90 ∨ 0x93 ≤ next ∧ next < 0xC0 ∨ 0xC6 < next → Goes (.rpt c 1) s (taken 1 k.steps)) ∧
      (op = 0xCF → pc < 0x7FFF → opUndefined next = true → Goes (.rpt c 1) s (takenAt (pc + 1) 1 k.steps)) ∧
      (op = 0xCF → pc < 0x7FFF → 0x90 ≤ next → next ≤ 0x92 → Goes (.rpt c 1) s (taken 2 k.steps)) ∧
      (op = 0x01 → pc < 0x7FFF → (s.get (F.SRT_BUDGET_BUDGET c) : Int) < k.steps + 1 → Goes (.nop c) s (taken 3 ((s.get (F.SRT_BUDGET_BUDGET c) : Int) - k.trapSteps))) ∧
      (op = 0xB0 → pc + 2 < 0x8000 → 0x80 ≤ (k.priv (pc + 2)).toNat → Goes (.jmp c) s (taken 4 k.steps)) ∧
      (op = 0x50 → pc = 0x7FFF → Goes (.lda c) s (taken 4 k.steps)) ∧
      (pc + 2 < 0x8000 → 0x8000 ≤ k.r.sp.toNat →
        (op ∈ [0x95, 0x97, 0x99, 0x9B, 0x9D, 0x9F] → Goes (.pull c) s (taken 4 k.steps)) ∧
        (op = 0x03 → Goes (.ret c) s (taken 4 k.steps)) ∧ (op = 0x04 → Goes (.rti c) s (taken 4 k.steps))) ∧
      (op = 0x51 → pc + 3 < 0x8000 → accessBad s c k false k.opW.toNat = true → Goes (.lda c) s (taken 4 k.steps)) ∧
      (op = 0x59 → pc + 3 < 0x8000 → accessBad s c k true k.opW.toNat = true → Goes (.sta c) s (taken 4 k.steps)) ∧
      (op = 0x59 → pc + 3 < 0x8000 → k.opW = 0xC00E#16 → k.r.a.toNat < 4 →
        windowFits s c (k.r.a.toNat * 2 ^ 30 + k.stage1.toNat * 2 ^ 22 + k.stage0.toNat * 2 ^ 14) = false → Goes (.sta c) s (taken 4 k.steps))) ∧
    (pc / 4 * 4 ∈ k.memBad → op = 0x01 → Goes (.nop c) s (taken 5 k.steps)))

/-- The EVENT interrupt pushes like a trap, clears I, loads PC from 0xFF0A and charges 4 steps; a record that arrives joins the queue while it has room; WAIT waits on an
empty queue and goes on with its step count at 0 on another, and a record that is queued ends it (R236, R237, R244, R265, R267). RTI ends the most recent entry that
has not ended: of a trap, TDEPTH falls and the fault slot clears (R266, R366). A read of LTR_RES waits for the decision (R238). A sorter whose EV_NEXT finds the
queue empty runs ahead on the predicted sample, holds where it would do what run-ahead may not, and goes on when the record arrives: with what it did when that is as
predicted, else from the intake with the actual record; when the chain stops it stands again before the intake (R56, R248, Table 11.9). The model's choices that this
rests on: log entries 3, 19 and 20. -/
def Obligations.CoreEventsAndWaits : Prop :=
  (∀ (c : Fin 65) (s : State) (k : Core) (sp : Spec), s.core c = some k → k.spec = some sp → 0 < c.val →
    (coreRuns s c k = true → k.series = .idle → k.memBad = [] → k.r.pc.toNat + 3 ≤ 0x7FFF →
      let holds := fun (i : Instr) => Goes i s (fun t => t.get (F.SRT_STAT_STATE c) = stHolding ∧ Untouched s t [A.SRT_STAT c] ∧ t = { s with regs := t.regs })
      ((k.priv k.r.pc.toNat).toNat = 0x02 → holds (.wait c)) ∧ ((k.priv k.r.pc.toNat).toNat = 0x07 → holds (.undefinedOpcode c)) ∧
      ((k.priv k.r.pc.toNat).toNat = 0x59 → 0x8000 ≤ k.opW.toNat → holds (.sta c))) ∧
    (∀ r : List Byte, r.length = 32 → s.pwr = 0 → s.flag F.PWR_STAT_ENTERING = false → s.pow.phase = .up → k.queue.length + k.taken.length < 16 → s.isHeld c = false →
      let seen := fun (k1 : Core) => { k1 with
        spec := none, taken := if s.flag (F.SRT_STAT_SEALED c) then k.taken ++ [r] else k.taken, lastTaken := some r
        prevVals := match k.lastTaken with
          | some p => if recKind p = 0x20 then mapIns (recOrigin p) (recNum p 16 3) k.prevVals else k.prevVals
          | none => k.prevVals }
      let ends := fun (t : State) => t.flag (F.SRT_STAT_SPEC_ON c) = false ∧
        t.get (F.SRT_STAT_STATE c) = (if s.get (F.SRT_STAT_STATE c) = stHolding then stRunning else s.get (F.SRT_STAT_STATE c)) ∧ t = { s with regs := t.regs, cores := t.cores, arbs := t.arbs }
      (predicted sp.pred r = true → Goes (.eventRecordArrival c r) s (fun t => ends t ∧ t.cores = upd s.cores c (fun _ => seen k) ∧
        t.get (F.SRT_STEPS_MAX c) = max (s.get (F.SRT_STEPS_MAX c)) (satTo 0xFFFFFF k.steps.toNat) ∧ Untouched s t [A.SRT_STAT c, A.SRT_STEPS c])) ∧
      (predicted sp.pred r = false → Goes (.eventRecordArrival c r) s (fun t => ends t ∧ Untouched s t [A.SRT_STAT c] ∧ t.cores = upd s.cores c (fun _ =>
        { seen k with r := sp.after.r, mem := sp.after.mem, memBad := sp.after.memBad, series := sp.after.series, entries := sp.after.entries, steps := 0, evbuf := r })))) ∧
    (∀ (u : Fin 256) (i : Fin 16), recOrigin sp.pred = 0x61 + i.val → s.flag (F.FC_CTRL_RUN i) = true →
      Accepts u (A.FC_CTRL i) (BitVec.ofNat 32 (setBits (s.reg (A.FC_CTRL i)).toNat 0 1 0)) s → Goes (.chainStop u i) s (fun t => t.flag (F.SRT_STAT_SPEC_ON c) = false ∧
        t.core c = some { k with
          r := sp.before.r, mem := sp.before.mem, memBad := sp.before.memBad, series := sp.before.series, entries := sp.before.entries
          evbuf := sp.evbuf, steps := sp.steps, spec := none }))) ∧
  ∀ (c : Fin 65) (s : State) (k : Core), s.core c = some k → k.spec = none →
    (CoreAt s c k 0x51 3 52 → k.opW = 0xC014#16 → k.ltrOut = true → Goes (.lda c) s (fun t => t = s)) ∧
    (∀ (r : List Byte) (i v : Nat), CoreAt s c k 0x51 3 6 → k.opW = 0xC002#16 → k.queue = [] → k.lastTaken = some r → mayRunAhead s c k = true → i = recOrigin r - 0x61 →
      k.prevVals.find? (fun e => e.1 == recOrigin r) = some (recOrigin r, v) → ∀ ch : Chain, s.chain i = some ch →
      let next := ofSigned 24 (limit24 (2 * toSigned 24 (recNum r 16 3) - toSigned 24 v))
      let pred := recPut (recPut (recPut r 0 (leBytes 8 (8 * instant s i ch.nextQ % 2 ^ 64))) 15 [0#8]) 16 (leBytes 3 next)
      let k1 := { k.went 3 6 { k.r with a := 1#8, fl := ldFlags k.r.fl 1#8 } with steps := 0, evbuf := pred }
      Goes (.lda c) s (fun t => t.flag (F.SRT_STAT_SPEC_ON c) = true ∧ Untouched s t [A.SRT_STAT c, A.SRT_STEPS c] ∧
        t.get (F.SRT_STEPS_MAX c) = max (s.get (F.SRT_STEPS_MAX c)) (satTo 0xFFFFFF (k.steps + 6).toNat) ∧
        t = { s with regs := t.regs, cores := upd s.cores c (fun _ => { k1 with spec := some ⟨⟨k.r, k.mem, k.memBad, k.series, k.entries⟩, k.evbuf, k.steps,
          ⟨k1.r, k1.mem, k1.memBad, k1.series, k1.entries⟩, pred, 0⟩ }) })) ∧
    let pc := k.r.pc.toNat
    let k3 := ((k.setPriv (k.r.sp - 1).toNat (BitVec.ofNat 8 (pc / 256))).setPriv (k.r.sp - 2).toNat (BitVec.ofNat 8 pc)).setPriv (k.r.sp - 3).toNat k.r.fl
    let at_ := fun (i : Nat) => (k.r.sp + BitVec.ofNat 16 i).toNat
    let back := fun (rest : List Entry) => { k with
      r := { k.r with fl := k.priv (at_ 0) &&& 0x3F#8, sp := k.r.sp + 3, pc := k.priv (at_ 2) ++ k.priv (at_ 1) }, steps := k.steps + 4, entries := rest }
    (s.get (F.SRT_STAT_STATE c) = stRunning → coreReady s c k = true → eventDue k = true →
      (k.r.sp - 1).toNat < 0x8000 → (k.r.sp - 2).toNat < 0x8000 → (k.r.sp - 3).toNat < 0x8000 → Goes (.eventInterrupt c) s (fun t => CoreBecame s t c { k3 with
        r := { k.r with sp := k.r.sp - 3, fl := setFl k.r.fl flI false, pc := k.priv 0xFF0B ++ k.priv 0xFF0A }
        series := .idle, entries := .event :: k.entries, steps := k.steps + 4 })) ∧
    (s.get (F.SRT_STAT_STATE c) ≠ stRunning ∨ coreReady s c k = false ∨ eventDue k = false → Goes (.eventInterrupt c) s (fun t => t = s)) ∧
    (∀ r : List Byte, r.length = 32 → s.pwr = 0 → s.flag F.PWR_STAT_ENTERING = false → s.pow.phase = .up →
      (k.queue.length + k.taken.length < 16 ∧ s.isHeld c = false →
        Goes (.eventRecordArrival c r) s (fun t => t = { s with cores := upd s.cores c (fun k => { k with queue := k.queue ++ [r] }) })) ∧
      (16 ≤ k.queue.length + k.taken.length ∨ s.isHeld c = true → Goes (.eventRecordArrival c r) s (fun t => t = s))) ∧
    (CoreAt s c k 0x02 1 1 → c.val ≠ 0 ∨ s.get F.PWR_MODE_MODE = 0 →
      let flt := if c.val = 0 then { s.flt with pmTaken := false } else s.flt
      (k.queue = [] → Goes (.wait c) s (fun t => t.cores = upd s.cores c (fun _ => k.went 1 1 k.r) ∧ t.flt = flt ∧ t.get (F.SRT_STAT_STATE c) = stWaiting ∧
        Untouched s t [A.SRT_STAT c, A.SRT_STEPS c])) ∧
      (k.queue ≠ [] → Goes (.wait c) s (fun t => t.cores = upd s.cores c (fun _ => { k.went 1 1 k.r with steps := 0 }) ∧ t.flt = flt ∧
        Untouched s t [A.SRT_STEPS c]))) ∧
    (s.get (F.SRT_STAT_STATE c) = stWaiting → coreReady s c k = true → s.pwr = 0 → s.flag F.PWR_STAT_ENTERING = false →
      (k.queue = [] → Goes (.waitResume c) s (fun t => t = s)) ∧
      (k.queue ≠ [] → Goes (.waitResume c) s (fun t => t.get (F.SRT_STAT_STATE c) = stRunning ∧ t.cores = upd s.cores c (fun _ => { k with steps := 0 }) ∧
        Untouched s t [A.SRT_STAT c]))) ∧
    (CoreAt s c k 0x04 1 4 → at_ 0 < 0x8000 → at_ 1 < 0x8000 → at_ 2 < 0x8000 → (k.priv (at_ 2)).toNat < 0x80 → ∀ rest : List Entry,
      (k.entries = .event :: rest → Goes (.rti c) s (fun t => CoreBecame s t c (back rest))) ∧
      (k.entries = .trap 1 :: rest → Goes (.rti c) s (fun t => t.cores = upd s.cores c (fun _ => back rest) ∧ t.get (F.SRT_STAT_TDEPTH c) = s.get (F.SRT_STAT_TDEPTH c) - 1 ∧
        t.flag (F.SYS_FLT_SEC_VALID c) = false ∧ Untouched s t [A.SRT_STAT c, A.SYS_FLT_SEC c, A.SRT_STEPS c])) ∧
      (k.entries = .trap 0 :: rest → s.flag (F.SYS_FLT_SEC_VALID c) = false → Goes (.rti c) s (fun t => t.cores = upd s.cores c (fun _ => back rest) ∧
        t.get (F.SRT_STAT_TDEPTH c) = s.get (F.SRT_STAT_TDEPTH c) - 1 ∧ t.flag (F.SYS_FLT_PRI_VALID c) = false ∧
        Untouched s t [A.SRT_STAT c, A.SYS_FLT_PRI c, A.SRT_STEPS c])))

/-- RPT charges 1 and, with CNT 0, skips the pair; else each repetition performs the instruction and lowers CNT, and the series ends when CNT is 0, with SCAN once Z is
1, with PC past the pair, which stays at the prefix until then (R269 to R271). Stated for FILL, SCAN and MOVB, with their bytes in private memory, behind the window
or in the unit I/O, and for any number of repetitions that one command takes together. The model's choices that this rests on: log entries 19 and 23. -/
def Obligations.RptRepeats : Prop :=
  ∀ (c : Fin 65) (s : State) (k : Core),
    let r := k.r
    let p := r.p.toNat
    let q := r.q.toNat
    let step := fun (v : BitVec 16) => if getFl r.fl flD then v - 1 else v + 1
    let rest := fun (k1 : Core) (b : Byte) (ends : Bool) (w : Nat) (r1 : CoreRegs) => { k1 with
      r := { r1 with cnt := r.cnt - 1, pc := if ends then r.pc + 2 else r.pc }, steps := k.steps + 1 + w, series := if ends then .idle else .running b }
    let begun := fun (b : Byte) => { k with steps := k.steps + 1, series := .running b }
    let s1 := fun (b : Byte) => prefixed s c (begun b)
    (∀ n : Nat, CoreAt s c k 0xCF 2 1 → 0xC0 ≤ k.op1.toNat → k.op1.toNat ≤ 0xC6 → r.cnt = 0#16 → Goes (.rpt c n) s (fun t => CoreBecame s t c (k.went 2 1 r))) ∧
    (CoreAt s c k 0xCF 2 (3 + storeSteps (some r.a) q) → k.op1 = 0xC1#8 → r.cnt ≠ 0#16 → Storable s c k [(q, r.a)] →
      Goes (.rpt c 1) s (fun t => CoreStored (s1 0xC1#8) t c false (rest k 0xC1#8 (r.cnt == 1#16) (2 + storeSteps (some r.a) q) { r with q := step r.q }) [(q, r.a)])) ∧
    (∀ (m : Byte) (b : State) (k1 : Core) (x : Nat) (took : Bool), CoreAt s c k 0xCF 2 (3 + x) → k.op1 = 0xC2#8 → r.cnt ≠ 0#16 →
      readsOf (s1 0xC2#8) c (begun 0xC2#8) [p] = some ([m], b, k1, x, took) →
      let fl := (subClass r.fl r.a m false).2
      Goes (.rpt c 1) s (fun t => CoreWent b t c took (rest k1 0xC2#8 (r.cnt == 1#16 || getFl fl flZ) (2 + x) { r with p := step r.p, fl := fl }))) ∧
    (∀ (m : Byte) (b : State) (k1 : Core) (x : Nat) (took : Bool), CoreAt s c k 0xCF 2 (4 + x + storeSteps none q) → k.op1 = 0xC0#8 → r.cnt ≠ 0#16 →
      readsOf (s1 0xC0#8) c (begun 0xC0#8) [p] = some ([m], b, k1, x, took) → Storable s c k [(q, m)] →
      Goes (.rpt c 1) s (fun t => CoreStored b t c took (rest k1 0xC0#8 (r.cnt == 1#16) (3 + x + storeSteps (some m) q) { r with p := step r.p, q := step r.q }) [(q, m)])) ∧
    (∀ (n m : Nat) (t u : State) (k1 : Core), CoreAt s c k 0xCF 2 1 → 0xC0 ≤ k.op1.toNat → k.op1.toNat ≤ 0xC6 → exec (.rpt c (n + 1)) s = .next t →
      t.core c = some k1 → coreRuns t c k1 = true → k1.series ≠ .idle → exec (.rpt c m) t = .next u → Goes (.rpt c (n + 1 + m)) s (fun v => v = u))

/-- A write that sets CTRL.RUN starts a core whose header is valid, from its entry or from its seal record, and only sets HDR_BAD for any other; RUN cleared stops it,
once no answer and no commit is waited for; FRESH discards the seal record of a stopped core; MDATA reaches private memory through MADDR, which goes on to the next
byte, and a write to a core that is not stopped is refused (R227, R229, R241, R247, R249, R250). At the commit point of a seal its lines stand, SEALED is 1, SEALS
counts it, the records taken leave the queue, k starts at 0 and the core goes on (R246). The model's choices that this rests on: log entries 16, 21, 64, 68, 99 and
100. -/
def Obligations.CoresStartAndStop : Prop :=
  ∀ (u : Fin 256) (c : Fin 65) (s : State) (k : Core) (x : Nat), s.core c = some k → x < 2 → (c.val = 0 → x = 0) →
    let ctrl := (s.reg (A.SRT_CTRL c)).toNat
    let h := headerOf k.priv
    let slot := 0x03CB0000 + 0x1000 * c.val
    (ctrl = 4 * x → Accepts u (A.SRT_CTRL c) (BitVec.ofNat 32 (4 * x + 1)) s →
      (headerOk k.priv = false → Goes (.coreStart u c) s (fun t => t.flag (F.SRT_STAT_HDR_BAD c) = true ∧ Untouched s t [A.SRT_STAT c] ∧ t = { s with regs := t.regs })) ∧
      (headerOk k.priv = true → coreMayStart s c = true → s.get (F.SRT_STAT_STATE c) = stStopped → (∀ j, j ≤ h.sealLines → poisonAt s (slot + 64 * j) = false) → s.ledg.flips = [] →
        Goes (.coreStart u c) s (fun t => t.flag (F.SRT_CTRL_RUN c) = true ∧ t.get (F.SRT_STAT_STATE c) = (if k.haltPend then stHalted else stRunning) ∧
          t.get (F.SRT_STAT_TDEPTH c) = 0 ∧ t.get (F.SRT_BUDGET_BUDGET c) = h.budget ∧ t.flag (F.SRT_STAT_SEALED c) = sealValid s c k ∧
          Untouched s t [A.SRT_CTRL c, A.SRT_STAT c, A.SRT_BUDGET c] ∧ ∃ k1, t.cores = upd s.cores c (fun _ => k1) ∧
          k1.steps = 0 ∧ k1.trapSteps = h.trapSteps ∧ k1.entries = [] ∧ k1.queue = k.taken ++ k.queue ∧ k1.taken = [] ∧ k1.series = .idle ∧
          (sealValid s c k = false → k1.r = { noRegs with pc := BitVec.ofNat 16 h.entry } ∧ k1.winBase = 0 ∧ k1.mem = k.mem ∧
            nth t.gate.kCount c 0 = 0 ∧ nth t.gate.kSkip c 0 = 0) ∧
          (sealValid s c k = true → k1.winBase = s.num (slot + 12) 4 ∧ k1.r.pc.toNat = s.num (slot + 16) 2 ∧ k1.r.sp.toNat = s.num (slot + 8) 2 ∧
            k1.r.a = s.byte slot ∧ k1.r.x = s.byte (slot + 1) ∧ k1.r.y = s.byte (slot + 2) ∧ k1.r.fl = s.byte (slot + 3) ∧
            (∀ i, i < 64 * h.sealLines → k1.priv (h.sealBase + i) = s.byte (slot + 64 + i)) ∧ t.flag (F.SRT_STAT_RESUMED c) = true)))) ∧
    (ctrl = 4 * x + 1 → k.spec = none → s.get (F.SRT_STAT_STATE c) ≠ stStopped → Accepts u (A.SRT_CTRL c) (BitVec.ofNat 32 (4 * x)) s →
      ((k.ltrOut || k.commitHold) = true → Goes (.coreStop u c) s (fun t => t.flag (F.SRT_CTRL_RUN c) = false ∧ Untouched s t [A.SRT_CTRL c] ∧ t = { s with regs := t.regs })) ∧
      ((k.ltrOut || k.commitHold) = false → Goes (.coreStop u c) s (fun t => t.flag (F.SRT_CTRL_RUN c) = false ∧ t.get (F.SRT_STAT_STATE c) = stStopped ∧
        Untouched s t [A.SRT_CTRL c, A.SRT_STAT c] ∧ t = { s with regs := t.regs }))) ∧
    (ctrl = 4 * x → s.get (F.SRT_STAT_STATE c) = stStopped → lineHeld s slot = false → blockMoving s slot = false → s.ledg.flips = [] →
      (nth s.ledg.bufs (ledgBank slot) []).length < 16 → Accepts u (A.SRT_CTRL c) (BitVec.ofNat 32 (4 * x + 2)) s →
      Goes (.coreFresh u c) s (fun t => t.bytes slot 64 = List.replicate 64 0#8 ∧ t.flag (F.SRT_STAT_SEALED c) = false ∧
        (∀ b, b < slot ∨ slot + 64 ≤ b → t.byte b = s.byte b) ∧ t.cores = s.cores ∧ ∀ b, b ≠ A.SRT_STAT c → t.reg b = s.reg b)) ∧
    (∀ (v : Byte) (a : Nat), a = s.get (F.SRT_MADDR_ADDR c) →
      let next := if a = 0x7FFF then 0xFF00 else if a = 0xFFFF then 0 else a + 1
      (Accepts u (A.SRT_MDATA c) (v.setWidth 32) s →
        (s.get (F.SRT_STAT_STATE c) = stStopped → Goes (.coreMemoryWrite u c v) s (fun t => t.cores = upd s.cores c (fun _ => k.setPriv a v) ∧
          t.get (F.SRT_MADDR_ADDR c) = next ∧ Untouched s t [A.SRT_MADDR c])) ∧
        (s.get (F.SRT_STAT_STATE c) ≠ stStopped → Goes (.coreMemoryWrite u c v) s (fun t => t.flag (F.SRT_STAT_MEM_REF c) = true ∧ Untouched s t [A.SRT_STAT c] ∧
          t = { s with regs := t.regs }))) ∧
      (reaches u.val (A.SRT_MDATA c) false s = true → Goes (.coreMemoryRead u c) s (fun t => t.rdata = (k.priv a).toNat ∧ t.get (F.SRT_MADDR_ADDR c) = next ∧
        Untouched s t [A.SRT_MADDR c] ∧ t = { s with regs := t.regs, rdata := t.rdata }))) ∧
    (∀ x : Txn, txnOf s c = some x → x.phase = .committing → x.act = .seal c → s.quiet = false → s.safe = false → 0x7A ∉ s.flt.resets → s.flag (F.SRT_CTRL_RUN c) = true → k.haltPend = false →
      x.lines.length ≤ 12 → s.ledg.jrnlPos < 4096 → s.ledg.verify = [] → s.ledg.moves = [] → s.ledg.held = [] →
      (∀ e ∈ x.lines, e.1 % 64 = 0 ∧ e.1 + 64 ≤ 0x03CF0000 ∧ 0x03CB0000 ≤ e.1 ∧ e.2.length = 64) → x.lines.Pairwise (fun e f => e.1 ≠ f.1) →
      Goes (.commitPoint (c.castLE (by omega))) s (fun t => (∀ e ∈ x.lines, t.bytes e.1 64 = e.2) ∧ (∀ a, (∀ e ∈ x.lines, lineOf a ≠ e.1) → t.byte a = s.byte a) ∧
        t.flag (F.SRT_STAT_SEALED c) = true ∧ t.get (F.SRT_CNT_SEALS c) = (s.get (F.SRT_CNT_SEALS c) + 1) % 65536 ∧ t.get (F.SRT_STAT_STATE c) = s.get (F.SRT_STAT_STATE c) ∧
        t.cores = upd s.cores c (fun _ => { k with taken := [], commitHold := false }) ∧ t.gate = { s.gate with kCount := upd s.gate.kCount c (fun _ => 0) } ∧
        (∀ b, b ∉ [A.LEDG_WEAR, A.SRT_STAT c, A.SRT_CNT c] → t.reg b = s.reg b)))
/-! ## The test access port (11, 19) -/

/-- The port holds the instruction it was given and captures what that selects: BYPASS 0, IDCODE the device's word, a boundary scan the level each pin is driven to, or
that found on a pin that is not. EXTEST, HIGHZ and CLAMP are accepted in route-map wait only, and select BYPASS elsewhere (R398). Without power the port does not
respond. CORE_HALT halts the selected core, and waits on one that is stopped or held by a commit; CORE_RESUME lets it go on, waiting if it waited; CORE_STEP executes
one instruction of a halted core; CORE_REGS captures its registers, and writes them while it is halted (R252). The model's choices that this rests on: log entries 3,
23, 46, 47, 68, 69 and 113. -/
def Obligations.TestAccessPort : Prop :=
  (∀ (s : State) (u : Byte) (levels : List Bool) (load : Option (List Bool)) (w : Option (BitVec 128)),
    let tapped := fun (ir : Nat) (dr : TapSel) (out : Nat) => { s with tap := { s.tap with ir := ir, dr := dr, out := out } }
    let captures := fun (ir : Nat) (t : State) => t = { s with tap := { s.tap with ir := ir, dr := .boundary, out := t.tap.out, bsr := load.getD s.tap.bsr } } ∧
      t.tap.out < 2 ^ levels.length ∧ ∀ (i : Nat) (b : Bool), levels[i]? = some b →
        bit t.tap.out i = (match (allPins.find? (fun p => inBoundary p && cellOf p == i)).map (pinDrive s) with | some .low => false | some .high => true | _ => b)
    let tests : List Instr := [.extest levels load, .highz, .clamp]
    let off := s.pow.phase = .coldHold ∨ (s.pow.phase = .up ∧ s.pwr = 3) ∨ ((s.pow.phase = .regulator ∨ s.pow.phase = .resetHold) ∧ s.flag F.PWR_STAT_OSC_OK = false)
    (off →
      ∀ i ∈ tests ++ [.bypass, .idcode, .samplePreload levels load, .coreSel u, .coreHalt, .coreStep, .coreResume, .coreRegs w], Goes i s (fun t => t = s)) ∧
    (¬off →
      Goes .bypass s (fun t => t = tapped 0xFF .bypass 0) ∧
      Goes .idcode s (fun t => t = tapped 0x01 .idcode (Config.stepping.toNat % 16 * 2 ^ 28 + 0x9620 * 2 ^ 12 + 0x4C1 * 2 + 1)) ∧
      Goes (.samplePreload levels load) s (captures 0x02) ∧
      (s.flag F.SYS_RMAP_STAT_WAITING = false → ∀ i ∈ tests, Goes i s (fun t => t = tapped 0xFF .bypass 0)) ∧
      (s.flag F.SYS_RMAP_STAT_WAITING = true → Goes (.extest levels load) s (captures 0x03) ∧
        Goes .highz s (fun t => t = tapped 0x04 .bypass 0) ∧ Goes .clamp s (fun t => t = tapped 0x05 .bypass 0)) ∧
      Goes (.coreSel u) s (fun t => t = { s with tap := { s.tap with ir := 0x40, dr := .core, core := u.toNat } })) ∧
    Goes .tapReset s (fun t => t = { s with tap := t.tap } ∧ t.tap.ir = 0x01 ∧ t.tap.dr = .idcode)) ∧
  (∀ (s : State) (c : Nat) (k : Core), tapAlive s = true → s.tap.core = c → c ≤ 0x40 → s.core c = some k → k.spec = none →
    let st := s.get (F.SRT_STAT_STATE c)
    let became := fun (t : State) (ir : Nat) (k1 : Core) => t = { s with cores := upd s.cores c (fun _ => k1), regs := t.regs, tap := { s.tap with ir := ir, dr := .core } }
    (st = stHalted → Goes .coreHalt s (fun t => t = { s with tap := { s.tap with ir := 0x41, dr := .core } })) ∧
    (st = stStopped ∨ (st ≠ stHalted ∧ k.commitHold = true) → Goes .coreHalt s (fun t => became t 0x41 { k with haltPend := true } ∧ Untouched s t [])) ∧
    (st ≠ stHalted → st ≠ stStopped → k.commitHold = false → Goes .coreHalt s (fun t =>
      became t 0x41 { k with haltPend := false, wasWaiting := decide (st = stWaiting), series := .idle } ∧ t.get (F.SRT_STAT_STATE c) = stHalted ∧ Untouched s t [A.SRT_STAT c])) ∧
    Goes .coreResume s (fun t => became t 0x43 { k with haltPend := false, wasWaiting := false } ∧
      t.get (F.SRT_STAT_STATE c) = (if st = stHalted then (if k.wasWaiting then stWaiting else stRunning) else st) ∧ Untouched s t [A.SRT_STAT c]) ∧
    (st ≠ stHalted → Goes .coreStep s (fun t => t = { s with tap := { s.tap with ir := 0x42, dr := .core } })) ∧
    (st = stHalted → k.wasWaiting = false → CoreAt (s.put (F.SRT_STAT_STATE c) stRunning) c k 0x01 1 1 → Goes .coreStep s (fun t =>
      became t 0x42 (k.went 1 1 k.r) ∧ t.get (F.SRT_STAT_STATE c) = stHalted ∧ Untouched s t [A.SRT_STAT c, A.SRT_STEPS c])) ∧
    Goes (.coreRegs none) s (fun t => t = { s with tap := { s.tap with ir := 0x44, dr := .regs, out := t.tap.out } } ∧
      t.tap.out % 2 ^ 32 = (k.r.fl ++ k.r.y ++ k.r.x ++ k.r.a).toNat ∧ t.tap.out / 2 ^ 32 = (k.r.cnt ++ k.r.pc ++ k.r.sp ++ k.r.q ++ k.r.p).toNat) ∧
    (∀ v : BitVec 128, st ≠ stHalted → Goes (.coreRegs (some v)) s (fun t => t.cores = s.cores ∧ Untouched s t [])) ∧
    (∀ v : BitVec 128, st = stHalted → Goes (.coreRegs (some v)) s (fun t => Untouched s t [] ∧ ∃ r, t.cores = upd s.cores c (fun _ => { k with r := r, series := .idle }) ∧
      r.fl ++ r.y ++ r.x ++ r.a = BitVec.ofNat 32 v.toNat &&& 0x3FFFFFFF#32 ∧ r.cnt ++ r.pc ++ r.sp ++ r.q ++ r.p = BitVec.ofNat 80 (v.toNat / 2 ^ 32))))

/-! ## The cascade (13) -/

/-- A port trains once its partner is detected, pauses after a time-out, is ACTIVE after training, and goes back to DETECT with an outage when word lock is lost; a lost
partner or a held outage makes the loss: LOST is set, the frames that waited go, and the IDs behind the port are given up with a LEAVE (R278, R293, R295). At a frame
boundary the first waiting frame goes out with its CRC: a letter of the first class that has one, else the frame of the least group (R212, R279, R282); a letter that
reads uncorrectable is dropped (R373). A loss on LK0 ends the path: the open requests end PATH_LOST, the pigeonhole letters go, and the down ports are told (R293,
R294). The model's choices that this rests on: log entries 3, 53, 108, 110 and 118. -/
def Obligations.LinksTrainSendAndFail : Prop :=
  (∀ (n : Fin 4) (s : State), logicPowered s = false → Goes (.presenceDetected n) s (fun t => t = s) ∧ Goes (.presenceLost n) s (fun t => t = s)) ∧
  (∀ (n : Fin 4) (uid : BitVec 64) (frac : BitVec 24) (s : State), s.quiet = true → Goes (.trainingComplete n uid) s (fun t => t = s) ∧ Goes (.trainingTimeout n) s (fun t => t = s) ∧
    Goes (.trainingPauseEnd n) s (fun t => t = s) ∧ Goes (.wordLockGained n) s (fun t => t = s) ∧ Goes (.wordLockLoss n) s (fun t => t = s) ∧
    Goes (.linkFrameBoundary n frac) s (fun t => t = s) ∧ Goes (.outageHoldExpiry n) s (fun t => t = s)) ∧
  (∀ (n : Fin 4) (s : State), s.quiet = false →
    let st := lstate s n
    let changed := fun (t : State) (f : Link → Link) => t = { s with regs := t.regs, links := upd s.links n f } ∧ Untouched s t [A.CAS_L_STAT n, A.CAS_L_CNT n]
    let again := fun (from_ : Nat) => if from_ = 1 then satTo (2 ^ (F.CAS_L_CNT_RETRAIN n).w - 1) (s.get (F.CAS_L_CNT_RETRAIN n) + 1) else s.get (F.CAS_L_CNT_RETRAIN n)
    (linkEnabled s n = true → st ≤ 1 → Goes (.presenceDetected n) s (fun t => changed t (fun l => { l with lock := false, paused := false }) ∧
      t.flag (F.CAS_L_STAT_PRS n) = true ∧ lstate t n = 2 ∧ t.get (F.CAS_L_CNT_RETRAIN n) = again st)) ∧
    (linkEnabled s n = false ∨ 1 < st → Goes (.presenceDetected n) s (fun t => changed t id ∧ t.flag (F.CAS_L_STAT_PRS n) = true ∧ lstate t n = st)) ∧
    (st = 2 → (s.link n).paused = false →
      Goes (.wordLockGained n) s (fun t => t = { s with links := upd s.links n (fun l => { l with lock := true }) }) ∧
      Goes (.trainingTimeout n) s (fun t => t = { s with links := upd s.links n (fun l => { l with paused := true, lock := false }) })) ∧
    (st = 1 → s.flag (F.CAS_L_STAT_PRS n) = true → linkEnabled s n = true → (s.link n).paused = false → Goes (.wordLockGained n) s (fun t =>
      changed t (fun l => { l with lock := true, paused := false }) ∧ lstate t n = 2 ∧ t.get (F.CAS_L_CNT_RETRAIN n) = again 1)) ∧
    (st = 2 → (s.link n).paused = true → Goes (.trainingPauseEnd n) s (fun t => changed t (fun l => { l with paused := false }) ∧ lstate t n = 2 ∧
      t.get (F.CAS_L_CNT_RETRAIN n) = again 1)) ∧
    (st ≠ 2 ∨ (s.link n).lock = false → ∀ uid, Goes (.trainingComplete n uid) s (fun t => t = s)) ∧
    (∀ uid : BitVec 64, n.val ≠ 0 → st = 2 → (s.link n).lock = true → (s.link n).outage = none →
      Goes (.trainingComplete n uid) s (fun t => changed t (fun l => { pruneTx l with partner := some uid.toNat, since := 0, skip := false }) ∧ lstate t n = 3)) ∧
    (∀ uid : BitVec 64, n.val = 0 → s.isHead = false → st = 2 → (s.link n).lock = true → (s.link n).outage = none →
      Goes (.trainingComplete n uid) s (fun t => lstate t 0 = 3 ∧ t.get F.CAS_STAT_TSTATE = tsAcquire ∧ t.est.exch = false ∧ t.est.stepped = false ∧ t.est.waiting = true ∧
        ∃ f, isHello s f ∧ t.links = upd s.links 0 (fun l => { pruneTx l with partner := some uid.toNat, since := 0, skip := false, tx := (pruneTx l).tx ++ [f] }))) ∧
    (st < 2 → Goes (.wordLockLoss n) s (fun t => t = s)) ∧
    (n.val ≠ 0 → 2 ≤ st → Goes (.wordLockLoss n) s (fun t => lstate t n = 1 ∧
      t.links = upd s.links n (fun l => { l with
        lock := false, paused := false, wire := [], silent := false, outage := if 3 ≤ st ∧ l.outage = none then some s.pm else l.outage }) ∧ Untouched s t [A.CAS_L_STAT n, A.SYS_FAULT])) ∧
    ((s.link n).outage = none → Goes (.outageHoldExpiry n) s (fun t => t = s)) ∧
    (∀ id : Nat, n.val ≠ 0 → s.isHead = false → s.est.route = [(id, n.val)] → 3 ≤ lstate s 0 → n.val < s.links.length →
      let lost := fun (t : State) => t.flag (F.CAS_L_STAT_LOST n) = true ∧ t.flag (F.CAS_L_PEER_VALID n) = false ∧ t.est.route = [] ∧
        (t.link n).outage = none ∧ (t.link n).tx = [] ∧ (t.link n).hello = none ∧ (t.link 0).tx = (s.link 0).tx ++ [mkFrame 6 0 (leBytes 2 id)] ∧
        Untouched s t [A.CAS_L_STAT n, A.CAS_L_PEER n, A.SYS_FAULT]
      ((s.link n).outage.isSome = true → Goes (.outageHoldExpiry n) s (fun t => lost t ∧ lstate t n = st)) ∧
      (2 ≤ st → Goes (.presenceLost n) s (fun t => lost t ∧ lstate t n = 0 ∧ t.flag (F.CAS_L_STAT_PRS n) = false))) ∧
    (n.val = 0 → s.isHead = false →
      (2 ≤ st → Goes (.wordLockLoss n) s (fun t => lstate t 0 = 1 ∧ t.get F.CAS_STAT_TSTATE = tsFree ∧
        t.est = { s.est with takeover := if 3 ≤ st ∧ (s.link 0).outage = none then standbyArmed s else s.est.takeover, goodRun := 0, sync := none, dreq := none, exch := false } ∧
        t.links = upd s.links 0 (fun l => { l with lock := false, paused := false, wire := [], silent := false, outage := if 3 ≤ st ∧ l.outage = none then some s.pm else l.outage }) ∧
        Untouched s t [A.CAS_L_STAT 0, A.CAS_STAT, A.SYS_FAULT])) ∧
      (s.flag F.CAS_STAT_PATH = true → s.gate.opened = [] → s.links.length = 4 → s.est.raOpen.length = 3 →
        let lost := fun (t : State) => t.flag (F.CAS_L_STAT_LOST 0) = true ∧ t.flag F.CAS_STAT_PATH = false ∧ t.est.welcomed = false ∧ t.est.waiting = false ∧
          t.est.raOpen = [none, none, none] ∧ t.gate.up = [[], [], []] ∧ (t.link 0).outage = none ∧ (t.link 0).tx = [] ∧
          (∀ c, c < 3 → nth s.est.raOpen c none ≠ none → t.get (raBank F.CAS_RA_STAT_RESULT c) = 5 ∧ t.flag (raBank F.CAS_RA_STAT_DONE c) = true ∧
            t.flag (raBank F.CAS_RA_STAT_BUSY c) = false) ∧
          (∀ k, k < 3 → (t.link (k + 1)).tx = (s.link (k + 1)).tx ++ (if 3 ≤ lstate s (k + 1) then [mkFrame 7 0 (leBytes 1 1 ++ leBytes 1 (s.get F.GATE_HOPS_HOPS))] else [])) ∧
          Untouched s t [A.CAS_STAT, A.CAS_L_STAT 0, A.SYS_FAULT, A.CAS_RA_STAT, A.CAS_RA_STAT + 2 ^ 32, A.CAS_RA_STAT + 2 * 2 ^ 32]
        ((s.link 0).outage.isSome = true → Goes (.outageHoldExpiry n) s (fun t => lost t ∧ lstate t 0 = if st = 4 then 3 else st)) ∧
        (2 ≤ st → Goes (.presenceLost n) s (fun t => lost t ∧ lstate t 0 = 0 ∧ t.flag (F.CAS_L_STAT_PRS 0) = false ∧ t.get F.CAS_STAT_TSTATE = tsFree)))) ∧
    (∀ frac : BitVec 24, (st < 3 → Goes (.linkFrameBoundary n frac) s (fun t => t = s)) ∧
      (3 ≤ st →
        let next := fun (f : List Byte → List (List Byte) → List (List Byte)) (w : List Byte) => { s with links := upd s.links n (fun l => putWire w { l with tx := f w l.tx }) }
        ((n.val ≠ 0 ∨ s.flag F.CAS_STAT_PATH = false) → (s.link n).tx = [] → Goes (.linkFrameBoundary n frac) s (fun t => t = next (fun _ l => l) [])) ∧
        (∀ f rest, (n.val ≠ 0 ∨ s.flag F.CAS_STAT_PATH = false) → (s.link n).tx = f :: rest → 1 ≤ frType f → frType f ≤ 7 →
          Goes (.linkFrameBoundary n frac) s (fun t => t = next (fun _ _ => rest) (f ++ leBytes 4 (crc32 f)))) ∧
        (∀ b rest, n.val = 0 → s.flag F.CAS_STAT_PATH = true → (s.link 0).outage = none → nth s.gate.up 0 [] = b :: rest → 0 < s.links.length →
          let sends := fun (l : List Byte) => Goes (.linkFrameBoundary n frac) s (fun t => t.link 0 = putWire (mkFrame 1 0 l ++ leBytes 4 (crc32 (mkFrame 1 0 l))) (s.link 0) ∧
            nth t.gate.up 0 [] = rest ∧ Untouched s t [A.SYS_FAULT])
          (upHead s 0 = none → sends b) ∧
          (∀ a, upHead s 0 = some a →
            (s.ledg.flips = [] → letterBad s 0x71 a = false → sends (s.bytes a 32)) ∧
            (letterBad s 0x71 a = true → Goes (.linkFrameBoundary n frac) s (fun t => t.link 0 = putWire [] (s.link 0) ∧ nth t.gate.up 0 [] = rest ∧
              (s.flt.stormAt = [] → priValid s 0x7B = false → secValid s 0x7B = false → ∀ x, t.byte x = s.byte x))))))))
/-- A frame is heard on a port that is ACTIVE only; a damaged one is counted and the port retrains; one of a reserved TYPE, or whose LEN or direction Table 13.2 does not
give, is dropped and counted; each row acts on its own TYPE and, PATH, on its own STATE (R279 to R281). A LETTER goes up into the pigeonhole of its class, or at the
head office into the outbox (R212); an ACK closes the letter it names, or follows the route (R222, R284); a LEAVE clears routes and goes up (R295); a SYNC and a DREQ
are stamped (R290); an IDMIR is entered in the standby's copy (R297). The model's choices that this rests on: log entries 3, 50, 51, 71, 110 and 119. -/
def Obligations.FramesAreReceived : Prop :=
  ∀ (n : Fin 4) (frac : BitVec 24) (complete : Bool) (s : State),
    let rows := fun (f : RxFrame) => [Instr.letter n f, .ack n f, .hello n f, .enrol n f, .welcome n f, .leave n f, .pathLost n f, .pathStands n f, .pathRestored n f, .pathNewhead n f,
      .sync n frac f, .dreq n frac f, .dresp n f, .raReq n f, .raResp n f, .idmir n complete f]
    let sat := fun (f : Fd) => satTo (2 ^ f.w - 1) (s.get f + 1)
    let dropped := fun (t : State) => t.get (F.CAS_L_CNT_DROP n) = sat (F.CAS_L_CNT_DROP n) ∧ t = { s with regs := t.regs } ∧ Untouched s t [A.CAS_L_CNT n]
    let retrained := fun (t : State) => lstate t n = 2 ∧ t.get (F.CAS_L_CNT_RETRAIN n) = sat (F.CAS_L_CNT_RETRAIN n) ∧
      t.links = upd s.links n (fun l => { l with lock := false, paused := false, wire := [], silent := false, outage := if l.outage = none then some s.pm else l.outage }) ∧
      Untouched s t [A.CAS_L_STAT n, A.CAS_L_CNT n, A.CAS_L_ERR n, A.SYS_FAULT]
    let stamped := (s.tb + frac.toNat) % 2 ^ 88
    (∀ f, s.quiet = true ∨ lstate s n < 3 → ∀ i ∈ rows f, Goes i s (fun t => t = s)) ∧
    (s.quiet = false → 3 ≤ lstate s n →
      (∀ f, n.val ≠ 0 → f.codeErr = true → ∀ i ∈ rows f, Goes i s (fun t => retrained t ∧ t.get (F.CAS_L_ERR_CODE n) = sat (F.CAS_L_ERR_CODE n))) ∧
      (∀ f, n.val ≠ 0 → f.codeErr = false → f.data.length < 8 ∨ crc32 (f.data.take (f.data.length - 4)) ≠ ofLe (f.data.drop (f.data.length - 4)) →
        ∀ i ∈ rows f, Goes i s (fun t => retrained t ∧ t.get (F.CAS_L_ERR_CRC n) = sat (F.CAS_L_ERR_CRC n))) ∧
      (∀ (typ dst : Nat) (p : List Byte), typ < 256 → p.length < 256 →
        (typ = 0 ∨ 13 < typ ∨ lenFits typ p.length = false ∨ directionFits typ n = false → ∀ i ∈ rows (wholeFrame typ dst p), Goes i s dropped) ∧
        (1 ≤ typ → typ ≤ 13 → lenFits typ p.length = true → directionFits typ n = true → (typ ≠ 1 → Goes (.letter n (wholeFrame typ dst p)) s (fun t => t = s)) ∧
          (typ ≠ 7 ∨ recNum p 0 1 ≠ 1 → Goes (.pathLost n (wholeFrame typ dst p)) s (fun t => t = s)))) ∧
      (∀ (dst : Nat) (b : List Byte), n.val ≠ 0 → b.length = 32 →
        (recClass b = 0 → Goes (.letter n (wholeFrame 1 dst b)) s dropped) ∧
        (∀ c, recClass b = c + 1 → s.isHead = false → (∀ x, upPlace s c = some x → MaskFor s 0x77 x 32) → Goes (.letter n (wholeFrame 1 dst b)) s (fun t =>
          t.gate.up = upd s.gate.up c (· ++ [b]) ∧ t.regs = s.regs ∧ t.links = s.links ∧ (∀ x, upPlace s c = some x → t.bytes x 32 = b) ∧
          (∀ a, (∀ x, upPlace s c = some x → a < x ∨ x + 32 ≤ a) → t.byte a = s.byte a))) ∧
        (∀ a, recClass b ≠ 0 → s.isHead = true → recRe b = false → s.get F.GATE_OBX_LEN_LETTERS ≠ 0 → a = s.get F.GATE_OBX_BASE_ADDR + 32 * s.get F.GATE_OBX_WR_IDX → MaskFor s 0x77 a 32 →
          Goes (.letter n (wholeFrame 1 dst b)) s (fun t => t.bytes a 32 = b ∧ (∀ x, x < a ∨ a + 32 ≤ x → t.byte x = s.byte x) ∧
            t.get F.GATE_OBX_WR_IDX = (s.get F.GATE_OBX_WR_IDX + 1) % s.get F.GATE_OBX_LEN_LETTERS ∧ Untouched { s with mem := t.mem } t [A.GATE_OBX_WR, A.TWP_ALERT]))) ∧
      (∀ (l : OpenLetter) (p : Part), n.val = 0 → s.flag F.CAS_ID_VALID = true → s.gate.opened = [l] → s.flag F.DLF_STAT_FROZEN = false → s.part 5 = some p → MaskFor s 0x7F (p.base + 32 * l.slot) 32 →
        Goes (.ack n (wholeFrame 2 s.devId (leBytes 2 s.devId ++ leBytes 4 (recSerial l.body)))) s (fun t => t.gate.opened = [] ∧
          t.bytes (p.base + 32 * l.slot) 32 = List.replicate 32 0#8 ∧ (∀ x, x < p.base + 32 * l.slot ∨ p.base + 32 * l.slot + 32 ≤ x → t.byte x = s.byte x) ∧
          Untouched { s with mem := t.mem } t [A.SYS_FAULT])) ∧
      (∀ (dst dev serial : Nat), n.val = 0 → dst < 2 ^ 16 → s.flag F.CAS_ID_VALID = false ∨ s.devId ≠ dst →
        (∀ k, routeAt s dst = k + 1 → 3 ≤ lstate s (k + 1) → Goes (.ack n (wholeFrame 2 dst (leBytes 2 dev ++ leBytes 4 serial))) s (fun t =>
          Queued s t (k + 1) [mkFrame 2 dst (leBytes 2 dev ++ leBytes 4 serial)] ∧ t = { s with links := t.links })) ∧
        (routeAt s dst = 0 → Goes (.ack n (wholeFrame 2 dst (leBytes 2 dev ++ leBytes 4 serial))) s dropped)) ∧
      (∀ id, n.val ≠ 0 → s.isHead = false → 3 ≤ lstate s 0 → id < 2 ^ 16 → s.est.route = [(id, n.val)] → Goes (.leave n (wholeFrame 6 0 (leBytes 2 id))) s (fun t =>
        Queued s t 0 [mkFrame 6 0 (leBytes 2 id)] ∧ t = { s with links := t.links, est := { s.est with route := [] } })) ∧
      (∀ (t1 : Nat) (ts : Byte), n.val = 0 → t1 < 2 ^ 88 →
        (s.isHead = true → Goes (.sync n frac (wholeFrame 8 0 (leBytes 11 t1 ++ [ts]))) s (fun t => t.flag F.CAS_STAT_RIVAL = true ∧ Untouched s t [A.CAS_STAT])) ∧
        (s.isHead = false → (s.link 0).outage = none → (s.link 0).silent = false → Goes (.sync n frac (wholeFrame 8 0 (leBytes 11 t1 ++ [ts]))) s (fun t =>
          t = { s with est := { s.est with sync := some (t1, stamped) } }))) ∧
      (n.val ≠ 0 → Goes (.dreq n frac (wholeFrame 9 0 [])) s (fun t => Queued s t n [mkFrame 10 0 (leBytes 11 stamped)] ∧ t = { s with links := t.links })) ∧
      (∀ (id : Nat) (e : IdEntry), n.val = 0 → s.flag F.CAS_ID_VALID = true → id < 2 ^ 16 → e.uid < 2 ^ 64 → 1 ≤ e.st → e.st < 256 → e.depth < 256 →
        Goes (.idmir n complete (wholeFrame 13 s.devId (leBytes 2 id ++ leBytes 8 e.uid ++ leBytes 1 e.st ++ leBytes 1 e.depth))) s (fun t =>
          t = { s with est := { s.est with mirror := mapIns id e s.est.mirror, copied := s.est.copied || complete } })))

/-- A HELLO goes up as an ENROL, or is answered at once with its result; an ENROL goes up, or at the head office is given the ID it has, or asks for, or the lowest free
one, entered in the ID table and for a standby sent to it, or a refusal, and answered by a WELCOME; a WELCOME gives the device its ID, HOPS and limits, or goes down
and sets the route; with the first time exchange the path begins to stand (R285 to R287). PATH frames end the path, restore it, or make the device enrol (R287, R294,
R297); with no answer enrolment ends TIMEOUT and is retried, at once by CAS_CMD (R287). A DRESP completes the exchange, from which OFFSET, DELAY, TRIM and TSTATE
follow, SYNC_TIMER and RESYNC go on with the next (R290); without SYNC an outage begins, and an armed standby takes over (R293, R297); DOWN puts a port down (R299).
The model's choices that this rests on: log entries 3, 49, 51, 52, 53 and 119. -/
def Obligations.EnrolmentPathAndTime : Prop :=
  ∀ (n : Fin 4) (u : Fin 256) (s : State), s.quiet = false →
    let sat := fun (f : Fd) => satTo (2 ^ f.w - 1) (s.get f + 1)
    let hello := fun (t : State) => ∃ f, isHello s f ∧ Queued s t 0 [f] ∧ t = { s with links := t.links, est := { s.est with waiting := true } }
    let branch := s.isHead = false ∧ 3 ≤ lstate s 0
    let tableFree := s.ledg.flips = [] ∧ s.ledg.txns = [] ∧ s.ledg.held = [] ∧ s.ledg.moves = [] ∧ (∀ x, x < 24 → maskOk s 0x71 x = true)
    let told := fun (t : State) (l : List (Nat × Nat)) => ∀ k, k < 3 → (t.link (k + 1)).tx = (s.link (k + 1)).tx ++
      (if 3 ≤ lstate s (k + 1) ∧ k + 1 < s.links.length then l.map (fun e => mkFrame 7 0 (leBytes 1 e.1 ++ leBytes 1 e.2)) else [])
    let stands := fun (t : State) (hops : Nat) => t.flag F.CAS_STAT_PATH = true ∧ lstate t 0 = 4 ∧ t.gate = { s.gate with stood := true } ∧ told t [(2, hops)]
    (∀ (b : List Byte) (depth : Nat), n.val ≠ 0 → 3 ≤ lstate s n → b.length = 24 → depth = s.get F.GATE_HOPS_HOPS + 1 →
      let flags := recNum b 10 1
      let fits := ∀ c, c < 3 → recNum b (12 + 2 * c) 2 ≤ s.get (F.CAS_SUB_SHARE (n.val - 1) c) ∧ recNum b (18 + 2 * c) 2 ≤ s.get (F.CAS_SUB_CRED (n.val - 1) c)
      (branch → s.flag F.CAS_STAT_PATH = true → bit flags 0 = false → depth ≤ 32 → fits → Goes (.hello n (wholeFrame 3 0 b)) s (fun t =>
        t = { s with links := t.links } ∧ t.links = upd (upd s.links n (fun l => { l with hello := some (recNum b 0 8) })) 0 (fun l => { l with
          tx := l.tx ++ [mkFrame 4 0 (b.take 11 ++ leBytes 1 depth ++ leBytes 2 s.devId ++ leBytes 1 n ++ [0#8])] }))) ∧
      (∀ r, (s.isHead = false ∧ s.flag F.CAS_STAT_PATH = false ∧ r = 6) ∨ ((s.isHead = true ∨ s.flag F.CAS_STAT_PATH = true) ∧ bit flags 0 = true ∧ r = 5) ∨
          ((s.isHead = true ∨ s.flag F.CAS_STAT_PATH = true) ∧ bit flags 0 = false ∧ 32 < depth ∧ r = 3) ∨
          ((s.isHead = true ∨ s.flag F.CAS_STAT_PATH = true) ∧ bit flags 0 = false ∧ depth ≤ 32 ∧ ¬ fits ∧ r = 4) → Goes (.hello n (wholeFrame 3 0 b)) s (fun t =>
        t.links = upd s.links n (fun l => { l with hello := none, tx := l.tx ++ [mkFrame 5 s.devId (b.take 10 ++ leBytes 1 depth ++ leBytes 1 r ++ List.replicate 12 0#8)] }) ∧
        t.get F.CAS_ENR_REFUSED = sat F.CAS_ENR_REFUSED ∧ t.flag F.CAS_STAT_RIVAL = (s.flag F.CAS_STAT_RIVAL || r == 5) ∧ Untouched s t [A.CAS_ENR, A.CAS_STAT]))) ∧
    (∀ b : List Byte, n.val ≠ 0 → 3 ≤ lstate s n → b.length = 16 →
      (branch → Goes (.enrol n (wholeFrame 4 0 b)) s (fun t => Queued s t 0 [mkFrame 4 0 b] ∧ t = { s with links := t.links })) ∧
      (∀ k, s.isHead = true → bit (recNum b 10 1) 3 = true → (idEntryAt s (recNum b 8 2)).st = 1 → (idEntryAt s (recNum b 8 2)).uid ≠ recNum b 0 8 →
        recNum b 12 2 ≠ s.devId → routeAt s (recNum b 12 2) = k + 1 → 3 ≤ lstate s (k + 1) → s.ledg.flips = [] → (∀ x, x < 24 → maskOk s 0x71 x = true) → Goes (.enrol n (wholeFrame 4 0 b)) s (fun t =>
          Queued s t (k + 1) [mkFrame 5 (recNum b 12 2) (b.take 10 ++ (b.drop 11).take 1 ++ [1#8] ++ List.replicate 12 0#8)] ∧
          t.get F.CAS_ENR_REFUSED = sat F.CAS_ENR_REFUSED ∧ Untouched s t [A.CAS_ENR])) ∧
      (∀ k id, s.isHead = true → tableFree → (nth s.ledg.bufs (ledgBank (idBase s + 16 * id)) []).length < 16 → s.est.standbys = [] →
        recNum b 12 2 ≠ s.devId → routeAt s (recNum b 12 2) = k + 1 → 3 ≤ lstate s (k + 1) →
        let flags := recNum b 10 1
        let asked := recNum b 8 2
        let held := fun (i : Nat) => (idEntryAt s i).uid = recNum b 0 8
        (bit flags 3 = true ∧ id = asked ∧ ((idEntryAt s id).st = 1 → held id)) ∨
          (bit flags 3 = false ∧ ((id ∈ idUsed s ∧ held id ∧ ∀ i ∈ idUsed s, held i → i = id) ∨
            ((∀ i ∈ idUsed s, ¬ held i) ∧ ((bit flags 2 = true ∧ id = asked ∧ (idEntryAt s id).st = 0) ∨
              ((bit flags 2 = false ∨ (idEntryAt s asked).st ≠ 0) ∧ 1 ≤ id ∧ id < 2 ^ 16 ∧ id ∉ idUsed s ∧ ∀ i, 1 ≤ i → i < id → i ∈ idUsed s))))) →
        let via := recNum b 12 2
        let standby := bit flags 1 = true ∧ recNum b 11 1 = 1
        (standby → via ≠ id ∧ idUsed s = []) → Goes (.enrol n (wholeFrame 4 0 b)) s (fun t =>
          t.bytes (idBase s + 16 * id) 16 = leBytes 8 (recNum b 0 8) ++ [1#8] ++ leBytes 1 (recNum b 11 1) ++ List.replicate 6 0#8 ∧
          (∀ x, x < idBase s + 16 * id ∨ idBase s + 16 * id + 16 ≤ x → t.byte x = s.byte x) ∧ t.get F.CAS_ENR_ACCEPTED = sat F.CAS_ENR_ACCEPTED ∧
          Queued s t (k + 1) ([mkFrame 5 via (leBytes 8 (recNum b 0 8) ++ leBytes 2 id ++ leBytes 1 (recNum b 11 1) ++ [0#8] ++ List.replicate 12 0#8)] ++
            (if standby then [mkFrame 13 id (leBytes 2 id ++ leBytes 8 (recNum b 0 8) ++ [1#8] ++ leBytes 1 (recNum b 11 1))] else [])) ∧
          t.est = { s.est with route := mapSet (fun _ => 0) s.est.route id (k + 1), standbys := if standby then [id] else [] } ∧
          Untouched { s with mem := t.mem } t [A.CAS_ENR]))) ∧
    (∀ (b : List Byte) (via id : Nat), branch → n.val = 0 → b.length = 24 → via < 2 ^ 16 → id = recNum b 8 2 →
      (recNum b 0 8 = ownUid → recNum b 11 1 = 0 → Goes (.welcome n (wholeFrame 5 via b)) s (fun t =>
        t.devId = id ∧ t.flag F.CAS_ID_VALID = true ∧ t.get F.GATE_HOPS_HOPS = recNum b 10 1 % 2 ^ F.GATE_HOPS_HOPS.w ∧ t.get F.CAS_STAT_ENR_RESULT = 0 ∧
        (∀ c, c < 3 → t.get (F.CAS_UPLIM_SHARE c) = recNum b (12 + 2 * c) 2 % 2 ^ (F.CAS_UPLIM_SHARE c).w ∧ t.get (F.CAS_UPLIM_CRED c) = recNum b (18 + 2 * c) 2 % 2 ^ (F.CAS_UPLIM_CRED c).w) ∧
        t.get (F.CAS_L_PEER_ID 0) = via ∧ t.est = { s.est with waiting := false, lastId := some id, welcomed := true, copied := false } ∧
        t.ledg.recPend = s.ledg.recPend ++ [.cascadeId id] ∧
        (if s.est.exch = true ∧ s.flag F.CAS_STAT_PATH = false then stands t (recNum b 10 1 % 2 ^ F.GATE_HOPS_HOPS.w)
          else lstate t 0 = lstate s 0 ∧ t.flag F.CAS_STAT_PATH = s.flag F.CAS_STAT_PATH ∧ t.links = s.links ∧ t.gate = s.gate) ∧
        Untouched s t [A.CAS_ID, A.GATE_HOPS, A.CAS_STAT, A.CAS_UPLIM 0, A.CAS_UPLIM 1, A.CAS_UPLIM 2, A.CAS_L_PEER 0, A.CAS_L_STAT 0])) ∧
      (∀ k, recNum b 0 8 ≠ ownUid → s.flag F.CAS_ID_VALID = false ∨ s.devId ≠ via → routeAt s via = k + 1 → 3 ≤ lstate s (k + 1) →
        Goes (.welcome n (wholeFrame 5 via b)) s (fun t => Queued s t (k + 1) [mkFrame 5 via b] ∧
          t = { s with links := t.links, est := { s.est with route := mapSet (fun _ => 0) s.est.route id (k + 1) } }))) ∧
    (∀ h : Byte, branch → n.val = 0 →
      let path := fun (st : Byte) => wholeFrame 7 0 [st, h]
      let hops := s.get F.GATE_HOPS_HOPS
      (s.flag F.CAS_STAT_PATH = true → lstate s 0 ≤ 4 → s.gate.opened = [] → (∀ c, c < 3 → nth s.est.raOpen c none = none) → Goes (.pathLost n (path 1)) s (fun t =>
        t.flag F.CAS_STAT_PATH = false ∧ lstate t 0 = 3 ∧ t.est.welcomed = false ∧ t.gate.up = [[], [], []] ∧ told t [(1, hops)] ∧ Untouched s t [A.CAS_STAT, A.CAS_L_STAT 0, A.SYS_FAULT])) ∧
      (s.flag F.CAS_STAT_PATH = true → Goes (.pathStands n (path 2)) s (fun t => t = s)) ∧
      (s.flag F.CAS_STAT_PATH = false → (waitsForRetrain s = false → Goes (.pathStands n (path 2)) s hello) ∧ Goes (.pathRestored n (path 3)) s (fun t => t = s)) ∧
      (s.flag F.CAS_STAT_PATH = true → s.gate.opened = [] → Goes (.pathRestored n (path 3)) s (fun t => told t [(3, hops)] ∧ Untouched s t [A.SYS_FAULT])) ∧
      (waitsForRetrain s = true → Goes (.pathStands n (path 2)) s (fun t => t = s) ∧ Goes (.pathNewhead n (path 4)) s (fun t => t = s)) ∧
      (waitsForRetrain s = false → Goes (.pathNewhead n (path 4)) s hello)) ∧
    (branch →
      (s.est.waiting = false → (s.get F.CAS_STAT_ENR_RESULT = 2 ∨ s.get F.CAS_STAT_ENR_RESULT = 6 ∨ s.get F.CAS_STAT_ENR_RESULT = 7) → Goes .enrolRetry s hello) ∧
      (Accepts u A.CAS_CMD 1#32 s → Goes (.reenrol u) s hello) ∧
      (Accepts u A.CAS_CMD 2#32 s → Goes (.resync u) s (fun t => t.get F.CAS_STAT_TSTATE = tsAcquire ∧ Untouched s t [A.CAS_STAT] ∧
        t = { s with regs := t.regs, est := { s.est with goodRun := 0, stepped := false } })) ∧
      ((s.link 0).outage = none → s.est.takeover = false → standbyArmed s = false → Goes .syncTimeout s (fun t => t.links = upd s.links 0 (fun l => { l with outage := some s.pm }) ∧
        Untouched s t [A.SYS_FAULT]))) ∧
    (s.isHead = false → tableFree → (s.link 0).outage = none → s.ledg.bufs = List.replicate 8 [] → s.flt.dayQ.length < 32 → s.est.mirror.length ≤ 15 →
      (s.est.mirror.map (·.1)).Pairwise (· < ·) → (∀ e ∈ s.est.mirror, e.1 < 2 ^ 16 ∧ e.2.uid < 2 ^ 64 ∧ e.2.st < 256 ∧ e.2.depth < 256) →
      (∀ e ∈ s.mem, e.1 < idBase s ∨ idBase s + 0x100000 ≤ e.1) →
      let headed := fun (t : State) => t.flag F.CAS_ID_VALID = true ∧ t.devId = 0 ∧ t.get F.GATE_HOPS_HOPS = 0 ∧ t.get F.CAS_STAT_ROLE = 3 ∧ t.flag F.CAS_STAT_TAKEOVER = true ∧
        t.get F.CAS_STAT_TSTATE = tsLocked ∧ t.get F.CAS_TRIM_TRIM = 0 ∧ idEntryAt t 0 = ⟨ownUid, 1, 0⟩ ∧
        (∀ e ∈ s.est.mirror, e.1 ≠ 0 → e.1 ≠ s.devId → idEntryAt t e.1 = e.2) ∧
        (∀ i, i < 2 ^ 16 → i ≠ 0 → (i = s.devId ∨ i ∉ s.est.mirror.map (·.1)) → idEntryAt t i = ⟨0, 0, 0⟩) ∧
        (∀ x, x < idBase s ∨ idBase s + 0x100000 ≤ x → t.byte x = s.byte x) ∧
        t.flt.dayQ = s.flt.dayQ ++ [⟨s.pm, 0x71, 0x29, 0, s.devId⟩] ∧ t.est.takeover = false ∧ t.est.welcomed = false ∧ t.est.waiting = false ∧ t.est.mirror = []
      (s.est.takeover = true → lstate s 0 < 3 → Goes .syncTimeout s (fun t => headed t ∧ told t [(4, 0)] ∧
        Untouched { s with mem := t.mem } t [A.CAS_ID, A.GATE_HOPS, A.CAS_STAT, A.CAS_TRIM])) ∧
      (standbyArmed s = true → 3 ≤ lstate s 0 → s.gate.opened = [] → (∀ c, c < 3 → nth s.est.raOpen c none = none) → Goes .syncTimeout s (fun t => headed t ∧
        told t [(1, 1), (4, 0)] ∧ t.flag F.CAS_STAT_PATH = false ∧ t.flag (F.CAS_L_STAT_LOST 0) = true ∧ t.gate.up = [[], [], []] ∧
        Untouched { s with mem := t.mem } t [A.CAS_ID, A.GATE_HOPS, A.CAS_STAT, A.CAS_TRIM, A.CAS_L_STAT 0, A.SYS_FAULT]))) ∧
    ((s.get F.CAS_STAT_ENR_RESULT ≠ 2 ∧ s.get F.CAS_STAT_ENR_RESULT ≠ 6 ∧ s.get F.CAS_STAT_ENR_RESULT ≠ 7 ∨ s.est.waiting = true) → Goes .enrolRetry s (fun t => t = s)) ∧
    (s.isHead = true → Goes .syncTimeout s (fun t => t = s)) ∧
    (s.est.waiting = false → Goes .enrolTimeout s (fun t => t = s)) ∧
    (s.est.waiting = true → s.flag F.CAS_STAT_PATH = false → lstate s 0 ≠ 4 → (∀ k, 1 ≤ k → k ≤ 3 → lstate s k < 3) → Goes .enrolTimeout s (fun t =>
      t.get F.CAS_STAT_ENR_RESULT = 7 ∧ t = { s with regs := t.regs, est := { s.est with waiting := false, welcomed := false } } ∧ Untouched s t [A.CAS_STAT])) ∧
    ((lstate s n < 3 → Goes (.syncTimer n) s (fun t => t = s)) ∧
      (3 ≤ lstate s n → n.val ≠ 0 → Goes (.syncTimer n) s (fun t => Queued s t n [mkFrame 8 0 (List.replicate 12 0#8)] ∧ t = { s with links := t.links })) ∧
      (branch → n.val = 0 → Goes (.syncTimer n) s (fun t => Queued s t 0 [mkFrame 9 0 []] ∧ t = { s with links := t.links }))) ∧
    (∀ t4 : Nat, branch → n.val = 0 → t4 < 2 ^ 88 → (s.est.sync = none ∨ s.est.dreq = none) → Goes (.dresp n (wholeFrame 10 0 (leBytes 11 t4))) s (fun t => t = s)) ∧
    (∀ t1 t2 t3 t4 : Nat, branch → n.val = 0 → t4 < 2 ^ 88 → s.est.sync = some (t1, t2) → s.est.dreq = some t3 →
      let down := toSigned 88 (t2 + 2 ^ 88 - t1)
      let up := toSigned 88 (t4 + 2 ^ 88 - t3)
      let d := down - up
      let f := clampTrim (s.est.integ + divRoundAway (-(d * 125)) (2 ^ 28))
      let near := fun (ns : Nat) => decide (d.natAbs * 1000000000 ≤ ns * 2 ^ 49)
      let run := if near 20 then s.est.goodRun + 1 else 0
      (s.get F.CAS_STAT_TSTATE ≠ tsAcquire ∨ s.est.stepped = true ∨ near (1000 * s.get F.CAS_CFG_STEP_US) = true → Goes (.dresp n (wholeFrame 10 0 (leBytes 11 t4))) s (fun t => t.get F.CAS_TIME_OFFSET = satS 16 (divRoundAway (d * 1953125) (2 ^ 40)) ∧
        t.get F.CAS_TIME_DELAY = min 0xFFFF (divRoundAway ((down + up) * 1953125) (2 ^ 40)).toNat ∧
        t.get F.CAS_TRIM_TRIM = ofSigned 16 (clampTrim (f + divRoundAway (-(d * 125)) (2 ^ 24))) ∧
        t.get F.CAS_STAT_TSTATE = (if near 200 then (if 8 ≤ run then tsLocked else s.get F.CAS_STAT_TSTATE) else tsAcquire) ∧
        t.est = { s.est with exch := true, sync := none, dreq := none, integ := f, goodRun := min 8 run } ∧
        (if s.est.welcomed = true ∧ s.flag F.CAS_STAT_PATH = false then stands t (s.get F.GATE_HOPS_HOPS)
          else lstate t 0 = lstate s 0 ∧ t.flag F.CAS_STAT_PATH = s.flag F.CAS_STAT_PATH ∧ t.links = s.links ∧ t.gate = s.gate) ∧
        Untouched s t [A.CAS_TIME, A.CAS_TRIM, A.CAS_STAT, A.CAS_L_STAT 0])) ∧
      (s.get F.CAS_STAT_TSTATE = tsAcquire → s.est.stepped = false → near (1000 * s.get F.CAS_CFG_STEP_US) = false → Goes (.dresp n (wholeFrame 10 0 (leBytes 11 t4))) s (fun t =>
        (t.tb : Int) = ((s.tb : Int) - divRoundAway d 2) % 2 ^ 88 ∧ t.flag F.CAS_STAT_STEPPED = true ∧ t.get F.CAS_STAT_TSTATE = tsAcquire ∧
        t.est = { s.est with exch := true, sync := none, dreq := none, goodRun := 0, stepped := true } ∧ t.reg A.CAS_TRIM = s.reg A.CAS_TRIM ∧
        (if s.est.welcomed = true ∧ s.flag F.CAS_STAT_PATH = false then stands t (s.get F.GATE_HOPS_HOPS) else lstate t 0 = lstate s 0 ∧ t.links = s.links)))) ∧
    (∀ b : Bool, Accepts u (A.CAS_L_CTRL n) (BitVec.ofNat 32 (setBits (s.reg (A.CAS_L_CTRL n)).toNat 0 1 (b2n b))) s →
      (s.flag (F.CAS_L_CTRL_DOWN n) = b → Goes (.linkDownWrite u n b) s (fun t => t = s)) ∧
      (s.flag (F.CAS_L_CTRL_DOWN n) = false → b = true → n.val ≠ 0 → lstate s n < 3 → (s.link n).outage = none → Goes (.linkDownWrite u n b) s (fun t =>
        t.flag (F.CAS_L_CTRL_DOWN n) = true ∧ lstate t n = 0 ∧ t.links = upd s.links n (fun l => { l with lock := false, paused := false, wire := [], silent := false }) ∧
        Untouched s t [A.CAS_L_CTRL n, A.CAS_L_STAT n])) ∧
      (s.flag (F.CAS_L_CTRL_DOWN n) = true → b = false → s.flag (F.CAS_L_STAT_PRS n) = true → bit (s.get F.CAS_CFG_PORTS) n = true → s.isHeld (0x71 + n) = false → lstate s n = 0 →
        Goes (.linkDownWrite u n b) s (fun t => t.flag (F.CAS_L_CTRL_DOWN n) = false ∧ lstate t n = 2 ∧ Untouched s t [A.CAS_L_CTRL n, A.CAS_L_STAT n])))
/-- A write of CAS_RA_CMD sends one RA_REQ with the next TAG, or ends with NO_ROUTE, or is made on the device itself; while one is open it is lost. The target makes the
accesses and answers, frames for others go on, and a response or the time-out ends the request of its channel (R284, R296). The model's choices that this rests on:
log entries 3 and 54. -/
def Obligations.RemoteAccessRequests : Prop :=
  let stat := fun (c : Nat) => A.CAS_RA_STAT + c * 2 ^ 32
  let ended := fun (s t : State) (c result : Nat) => t.get (raBank F.CAS_RA_STAT_RESULT c) = result ∧ t.flag (raBank F.CAS_RA_STAT_DONE c) = true ∧
    t.flag (raBank F.CAS_RA_STAT_BUSY c) = false ∧ t.est = { s.est with raOpen := upd s.est.raOpen c (fun _ => none) }
  (∀ (u : Fin 256) (c : Nat) (m : Fin 8) (s : State), raChannel u = some c → ∀ row ∈ [(Instr.raRead u m, 1), (.raWrite u m, 2)],
    let w := 32 * m.val + row.2
    let dst := (s.reg (A.CAS_RA_DST + c * 2 ^ 32)).toNat % 2 ^ 16
    let addr := (s.reg (A.CAS_RA_ADDR + c * 2 ^ 32)).toNat
    let self := s.flag F.CAS_ID_VALID && s.devId == dst
    Accepts u A.CAS_RA_CMD (BitVec.ofNat 32 w) s →
    (s.flag (raBank F.CAS_RA_STAT_BUSY c) = true → Goes row.1 s (fun t => t.flag (raBank F.CAS_RA_STAT_CMD_LOST c) = true ∧ t.flag (raBank F.CAS_RA_STAT_BUSY c) = true ∧
      Untouched s t [stat c] ∧ t = { s with regs := t.regs })) ∧
    (s.flag (raBank F.CAS_RA_STAT_BUSY c) = false → self = false →
      (∀ k, routeAt s dst = k → (k = 0 ∧ s.isHead = true) ∨ lstate s k < 3 ∨ s.flag F.CAS_ID_VALID = false → Goes row.1 s (fun t => ended s t c 1 ∧ Untouched s t [stat c])) ∧
      (∀ k, routeAt s dst = k → k ≠ 0 ∨ s.isHead = false → 3 ≤ lstate s k → s.flag F.CAS_ID_VALID = true → Goes row.1 s (fun t => t.flag (raBank F.CAS_RA_STAT_BUSY c) = true ∧
        t.est = { s.est with tag := (s.est.tag + 1) % 256, raOpen := upd s.est.raOpen c (fun _ => some ((s.est.tag + 1) % 256)) } ∧
        Queued s t k [mkFrame 11 dst (leBytes 2 s.devId ++ leBytes 1 ((s.est.tag + 1) % 256) ++ leBytes 1 w ++ leBytes 4 addr ++
          (if row.2 = 2 then ((List.range (m.val + 1)).map (fun i => leBytes 4 (s.reg (A.CAS_RA_DATA i + c * 2 ^ 32)).toNat)).flatten else []))] ∧
        Untouched s t [stat c]))) ∧
    (∀ v : Nat, s.flag (raBank F.CAS_RA_STAT_BUSY c) = false → self = true → row.2 = 1 → m.val = 0 →
      hostReadWord u addr (s.put (raBank F.CAS_RA_STAT_BUSY c) 1) = (v, s.put (raBank F.CAS_RA_STAT_BUSY c) 1) → v < 2 ^ 32 → Goes row.1 s (fun t => ended s t c 0 ∧
        (t.reg (A.CAS_RA_DATA 0 + c * 2 ^ 32)).toNat = v ∧ Untouched s t [stat c, A.CAS_RA_DATA 0 + c * 2 ^ 32]))) ∧
  (∀ (c : Fin 3) (s : State), (nth s.est.raOpen c none = none → Goes (.raTimeout c) s (fun t => t = s)) ∧
    (nth s.est.raOpen c none ≠ none → Goes (.raTimeout c) s (fun t => ended s t c 2 ∧ Untouched s t [stat c]))) ∧
  (∀ (n : Fin 4) (s : State) (dst src tag addr : Nat), s.quiet = false → 3 ≤ lstate s n → dst < 2 ^ 16 → src < 2 ^ 16 → tag < 256 → addr < 2 ^ 32 → addr % 4 = 0 →
    let self := s.flag F.CAS_ID_VALID && s.devId == dst
    let req := fun (cmd : Nat) => leBytes 2 src ++ leBytes 1 tag ++ leBytes 1 cmd ++ leBytes 4 addr
    (self = false → ∀ k, routeAt s dst = k → k ≠ 0 ∨ s.isHead = false → 3 ≤ lstate s k →
      Goes (.raReq n (wholeFrame 11 dst (req 1))) s (fun t => Queued s t k [mkFrame 11 dst (req 1)] ∧ t = { s with links := t.links }) ∧
      Goes (.raResp n (wholeFrame 12 dst (leBytes 2 src ++ leBytes 1 tag ++ [0#8]))) s (fun t => Queued s t k [mkFrame 12 dst (leBytes 2 src ++ leBytes 1 tag ++ [0#8])] ∧
        t = { s with links := t.links })) ∧
    (self = false → routeAt s dst = 0 → s.isHead = true → s.devId ≠ src → ∀ k, routeAt s src = k + 1 → 3 ≤ lstate s (k + 1) → Goes (.raReq n (wholeFrame 11 dst (req 1))) s (fun t =>
      t.get (F.CAS_L_CNT_DROP n) = satTo (2 ^ (F.CAS_L_CNT_DROP n).w - 1) (s.get (F.CAS_L_CNT_DROP n) + 1) ∧
      Queued s t (k + 1) [mkFrame 12 src (leBytes 2 s.devId ++ leBytes 1 tag ++ [1#8])] ∧ Untouched s t [A.CAS_L_CNT n])) ∧
    (self = true →
      (∀ cmd, cmd < 256 → cmd % 4 = 0 ∨ cmd % 4 = 3 ∨ cmd / 4 % 8 ≠ 0 ∨ 6 ≤ cmd / 32 → Goes (.raReq n (wholeFrame 11 dst (req cmd))) s (fun t =>
        t.get (F.CAS_L_CNT_DROP n) = satTo (2 ^ (F.CAS_L_CNT_DROP n).w - 1) (s.get (F.CAS_L_CNT_DROP n) + 1) ∧ t = { s with regs := t.regs } ∧ Untouched s t [A.CAS_L_CNT n])) ∧
      (∀ k v, dst ≠ src → routeAt s src = k → k ≠ 0 ∨ s.isHead = false → 3 ≤ lstate s k → hostReadWord (0x71 + n) addr s = (v, s) → Goes (.raReq n (wholeFrame 11 dst (req 1))) s (fun t =>
        Queued s t k [mkFrame 12 src (leBytes 2 s.devId ++ leBytes 1 tag ++ [0#8] ++ leBytes 4 v)] ∧ t = { s with links := t.links })) ∧
      (∀ c v : Nat, c < s.est.raOpen.length → nth s.est.raOpen c none = some tag → (∀ j, j < c → nth s.est.raOpen j none ≠ some tag) → v < 2 ^ 32 →
        Goes (.raResp n (wholeFrame 12 dst (leBytes 2 src ++ leBytes 1 tag ++ [0#8] ++ leBytes 4 v))) s (fun t => ended s t c 0 ∧
          (t.reg (A.CAS_RA_DATA 0 + c * 2 ^ 32)).toNat = v ∧ Untouched s t [stat c, A.CAS_RA_DATA 0 + c * 2 ^ 32])) ∧
      (∀ r : Byte, (∀ c, nth s.est.raOpen c none ≠ some tag) → Goes (.raResp n (wholeFrame 12 dst (leBytes 2 src ++ leBytes 1 tag ++ [r]))) s (fun t => t = s))))
/-! ## The ports of the host (14) -/

/-- While the SPI port serves commands and HCS_N is low, an opcode is counted and answered: the status byte again and again, the identity and then 0x00, the bytes of a
read, with 0x00 and UNDERRUN from a byte of memory that is not ready, the posting of a write; a write while one waits only sets BUSY_WR; the 1-4-4 commands go on
over four lines; an incomplete register word is PARTIAL when HCS_N rises, one entered part of the way through at once; the fall of HCS_N begins a command, and in
HUSH or an entry into it wakes; ENTER_QUAD and EXIT_QUAD change the form, RESET after RESET_EN clears the status, any other opcode is BADCMD (R303 to R310).
Otherwise nothing happens. The model's choices that this rests on: log entries 3 and 56. -/
def Obligations.HostPortCommands : Prop :=
  (∀ (s : State) (a : Word) (m : Nat) (late : Option Nat) (d : List Byte), hostAlive s = false ∨ s.host.low = false ∨ s.host.busy = true ∨ s.host.discard = true →
    ∀ i ∈ [Instr.rdsr, .readId, .read a m late, .readQ a m late, .write a d, .writeQ a d, .enterQuad, .exitQuad, .resetEn, .reset, .badcmd], Goes i s (fun t => t = s)) ∧
  (∀ s : State, hostAlive s = true → s.host.low = true → s.host.busy = false → s.host.discard = false → s.host.erred = false →
    let h := { s.host with busy := true, armed := false, out := [], more := .none, wide := s.flag F.HOST_STAT_FORM4, stream := none }
    let same := fun (t : State) (h1 : HostPort) => t = { s with regs := t.regs, host := h1 } ∧ t.get F.HOST_CNT_CMDS = (s.get F.HOST_CNT_CMDS + 1) % 2 ^ 16
    let plain := fun (t : State) (h1 : HostPort) => same t h1 ∧ Untouched s t [A.HOST_CNT]
    let bad := fun (t : State) => same t { h with erred := true } ∧ t.flag F.HOST_STAT_BADCMD = true ∧ t.get F.HOST_CNT_ERRS = satTo 0xFFFF (s.get F.HOST_CNT_ERRS + 1) ∧
      Untouched s t [A.HOST_CNT, A.HOST_STAT]
    Goes .rdsr s (fun t => plain t { h with out := [BitVec.ofNat 8 (b2n (s.flag F.HOST_STAT_WIP) + 2 * b2n (s.flag F.GATE_OBX_CTRL_BELL_EN && obxHeld s != 0) +
      4 * b2n (s.flag F.HOST_STAT_BADCMD || s.flag F.HOST_STAT_UNDERRUN || s.flag F.HOST_STAT_OVERRUN || s.flag F.HOST_STAT_PARTIAL || s.flag F.HOST_STAT_BUSY_WR) +
      8 * b2n (s.flag F.HOST_STAT_FORM4) + 16 * b2n (s.flag F.SYS_RMAP_STAT_WAITING))], more := .status } ∧ ∀ n, hostMore t n = List.replicate n (t.host.out.headD 0#8)) ∧
    Goes .readId s (fun t => plain t { h with out := [0x20#8, 0x96#8, Config.stepping, BitVec.ofNat 8 (s.get F.TWP_STAT_ADDR)], more := .zero } ∧
      ∀ n, hostMore t n = List.replicate n 0#8) ∧
    Goes .resetEn s (fun t => plain t { h with armed := true }) ∧
    Goes .badcmd s bad ∧
    (s.host.armed = false → Goes .reset s bad) ∧
    (s.host.armed = true → s.host.posted = [] → Goes .reset s (fun t => same t h ∧ t.reg A.HOST_STAT = 0 ∧ Untouched s t [A.HOST_CNT, A.HOST_STAT])) ∧
    (s.flag F.HOST_STAT_FORM4 = false → Goes .exitQuad s bad ∧ Goes .enterQuad s (fun t => same t h ∧ t.flag F.HOST_STAT_FORM4 = true ∧ Untouched s t [A.HOST_CNT, A.HOST_STAT])) ∧
    (s.flag F.HOST_STAT_FORM4 = true → Goes .enterQuad s bad ∧ Goes .exitQuad s (fun t => same t h ∧ t.flag F.HOST_STAT_FORM4 = false ∧ Untouched s t [A.HOST_CNT, A.HOST_STAT])) ∧
    (∀ (a : Word) (m : Nat) (late : Option Nat), s.host.posted = [] → txnOf s 0x75 = none → s.ledg.flips = [] →
      (∀ i, i < m → inPigeon (a.toNat + i) = true ∧ maskOk s 0x75 (busBank (a.toNat + i)) = true) →
      ∀ x ∈ [(Instr.read a m late, s.flag F.HOST_STAT_FORM4), (.readQ a m late, true)],
      let h := { h with wide := x.2, stream := some a.toNat }
      let i := x.1
      ((∀ l, late = some l → m ≤ l) → Goes i s (fun t => plain t { h with out := s.bytes a.toNat m })) ∧
      (∀ l, late = some l → l < m → s.flag F.HOST_STAT_UNDERRUN = false → s.flag F.HOST_STAT_OVERRUN = false → s.flag F.HOST_STAT_PARTIAL = false → Goes i s (fun t =>
        same t { h with out := s.bytes a.toNat l ++ List.replicate (m - l) 0#8, erred := true } ∧ t.flag F.HOST_STAT_UNDERRUN = true ∧
        t.get F.HOST_ERRADDR_ADDR = a.toNat + l ∧ t.get F.HOST_CNT_ERRS = satTo 0xFFFF (s.get F.HOST_CNT_ERRS + 1) ∧ Untouched s t [A.HOST_CNT, A.HOST_STAT, A.HOST_ERRADDR]))) ∧
    (∀ (a : Word) (d : List Byte), ∀ x ∈ [(Instr.write a d, s.flag F.HOST_STAT_FORM4), (.writeQ a d, true)],
      let h := { h with wide := x.2 }
      let i := x.1
      (s.flag F.HOST_STAT_WIP = true → Goes i s (fun t => same t { h with erred := true } ∧ t.flag F.HOST_STAT_BUSY_WR = true ∧
        t.get F.HOST_CNT_ERRS = satTo 0xFFFF (s.get F.HOST_CNT_ERRS + 1) ∧ Untouched s t [A.HOST_CNT, A.HOST_STAT])) ∧
      (s.flag F.HOST_STAT_WIP = false →
        (d.length ≤ 256 → (∀ i, i < d.length → inPigeon (a.toNat + i) = true) → Goes i s (fun t =>
          same t { h with posted := (List.range d.length).map (fun i => Posted.byte (a.toNat + i) (d.getD i 0#8)), partAt := none } ∧
          t.flag F.HOST_STAT_WIP = !d.isEmpty ∧ Untouched s t [A.HOST_CNT, A.HOST_STAT])) ∧
        (d.length = 4 → 0x10000000 ≤ a.toNat → a.toNat % 4 = 0 → Goes i s (fun t =>
          same t { h with posted := [Posted.word a.toNat (BitVec.ofNat 32 (ofLe d))], partAt := none } ∧ t.flag F.HOST_STAT_WIP = true ∧ Untouched s t [A.HOST_CNT, A.HOST_STAT])) ∧
        (256 < d.length → 0x10000000 ≤ a.toNat → a.toNat % 4 ≠ 0 → a.toNat + 256 < 2 ^ 32 → s.flag F.HOST_STAT_UNDERRUN = false → s.flag F.HOST_STAT_OVERRUN = false →
          s.flag F.HOST_STAT_PARTIAL = false → Goes i s (fun t => t.flag F.HOST_STAT_PARTIAL = true ∧ t.flag F.HOST_STAT_OVERRUN = true ∧ t.get F.HOST_ERRADDR_ADDR = a.toNat ∧
            t.get F.HOST_CNT_ERRS = satTo 0xFFFF (s.get F.HOST_CNT_ERRS + 1) ∧ Untouched s t [A.HOST_CNT, A.HOST_STAT, A.HOST_ERRADDR])) ∧
        (1 ≤ d.length → d.length ≤ 3 → 0x10000000 ≤ a.toNat → a.toNat % 4 = 0 → Goes i s (fun t =>
          same t { h with posted := [], partAt := some a.toNat } ∧ t.flag F.HOST_STAT_WIP = false ∧ Untouched s t [A.HOST_CNT]))))) ∧
  (∀ s : State,
    (s.host.partAt = none → Goes .hcsNRise s (fun t => t = { s with host := { s.host with low := false, busy := false, discard := false, partAt := none, erred := false } })) ∧
    (∀ a, s.host.partAt = some a → a < 2 ^ 32 → s.flag F.HOST_STAT_UNDERRUN = false → s.flag F.HOST_STAT_OVERRUN = false → s.flag F.HOST_STAT_PARTIAL = false → Goes .hcsNRise s (fun t =>
      t.host = { s.host with low := false, busy := false, discard := false, partAt := none, erred := false } ∧ t.flag F.HOST_STAT_PARTIAL = true ∧ t.get F.HOST_ERRADDR_ADDR = a ∧
      Untouched s t [A.HOST_CNT, A.HOST_STAT, A.HOST_ERRADDR])) ∧
    (let fallen := fun (d : Bool) => { s.host with low := true, busy := false, erred := false, out := [], more := .none, stream := none, discard := d }
      let wakes := bit (s.reg A.PWR_WAKE).toNat 6 = true ∧ s.isHeld 0x75 = false ∧ (if s.flag F.PWR_STAT_ENTERING then s.pow.entryMode else s.pwr) = 2 ∧ s.pow.phase = .up
      (¬wakes → s.pow.phase = .up → Goes .hcsNFall s (fun t => t = { s with host := fallen (!hostAlive s) })) ∧
      (wakes → Goes .hcsNFall s (fun t => t.host = fallen true ∧ bit (t.get F.PWR_WAKESRC_SRC) 6 = true ∧
        (s.flag F.PWR_STAT_ENTERING = true → t.pow = { s.pow with wakeSeen := s.pow.wakeSeen || !s.pow.flushed, wakeLate := s.pow.wakeLate || s.pow.flushed } ∧
          Untouched s t [A.PWR_WAKESRC]) ∧
        (s.flag F.PWR_STAT_ENTERING = false → t.pow.phase = .regulator ∧ t.pow.start = .hush ∧ t.flag F.PWR_STAT_REG_OK = false ∧ t.flag F.PWR_STAT_MEM_OK = false ∧
          t.flag F.PWR_STAT_LOGIC_OK = false ∧ Untouched s t [A.PWR_WAKESRC, A.PWR_STAT])))) ∧
    (∀ n, s.host.posted = [] → Goes (.postedWriteComplete n) s (fun t => t = s)) ∧
    (∀ (a : Nat) (b : Byte) (q : List Posted), s.host.posted = .byte a b :: q → s.pow.phase = .up → inPigeon a = true → maskOk s 0x75 (busBank a) = true →
      s.flag F.SYS_RMAP_STAT_BUSY = false → Goes (.postedWriteComplete 1) s (fun t => t.byte a = b ∧ (∀ x, x ≠ a → t.byte x = s.byte x) ∧ t.host = { s.host with posted := q } ∧ t.flag F.HOST_STAT_WIP = !q.isEmpty ∧
        Untouched { s with mem := t.mem } t [A.HOST_STAT])))
/-- The two-wire port: START and STOP delimit transactions, a misplaced one ends what is in progress; its own address begins a write or a read and is counted, any other
leaves it out, a transaction counting once; the first byte written sets the pointer, a later one is written there, or held until its PEC has been checked; a byte
sent advances the pointer, 0xFF and LATE where it is not ready, and the PEC is sent when due; a time-out releases the lines and discards what PEC guards; during an
entry into HUSH the address, enabled as a wake source, is noted against the entry (R311 to R316, R320). In an alert response the lowest byte wins: the winner clears
its request and is counted (R318, R319, R351). The model's choices that this rests on: log entries 3, 57, 58 and 120. -/
def Obligations.ManagementPortTransactions : Prop :=
  (∀ (s : State) (b : Byte) (ready ack m : Bool), s.twp.stretch = true ∨ (twpAlive s = false ∧ twpWatches s = false) →
    ∀ i ∈ [Instr.twpStart m, .twpAddress b, .twpWriteByte b, .twpReadByte ready ack, .twpStop m], Goes i s (fun t => t = s)) ∧
  (∀ s : State, twpAlive s = true → s.twp.stretch = false → s.twp.staged = [] → s.twp.word = [] →
    let w := s.twp
    let port := fun (t : State) (w1 : Twp) => t = { s with regs := t.regs, twp := w1 }
    let begun := fun (on : Bool) => { w with
      stage := .address, seen := [], first := true, held := [], latchAt := none, count := 0, out := [], drive := s.flag F.TWP_ALERT_DRIVE, rank := alertRank s, counted := on }
    let ours := w.stage = .write ∨ w.stage = .read ∨ w.stage = .address
    let kept := fun (b : Byte) => (⟨b, s.get F.TWP_WBASE_BASE, s.get F.TWP_PAGE_PAGE⟩ : HeldByte)
    (w.stage ≠ .write ∨ w.held = [] → Goes (.twpStart false) s (fun t => t = { s with twp := begun (w.counted && w.stage != .idle) }) ∧ Goes (.twpStop false) s (fun t => t = { s with twp := { w with stage := .idle } })) ∧
    (ours → Goes (.twpStart true) s (fun t => port t (begun false) ∧ t.flag F.TWP_STAT_MISSTART = true ∧ Untouched s t [A.TWP_STAT]) ∧
      Goes (.twpStop true) s (fun t => port t { w with stage := .idle, held := [] } ∧ t.flag F.TWP_STAT_MISSTOP = true ∧ Untouched s t [A.TWP_STAT])) ∧
    (w.stage ≠ .idle → w.stage ≠ .lost → Goes .twpTimeout s (fun t => port t { w with stage := .idle, held := [] } ∧ t.flag F.TWP_STAT_TIMEOUT = true ∧ Untouched s t [A.TWP_STAT])) ∧
    (∀ p v : Byte, w.stage = .write → w.first = true → w.held = [kept p, kept v] → s.get F.TWP_PAGE_PAGE = 0 → 4 ≤ p.toNat → p.toNat < 8 →
      Goes .twpTimeout s (fun t => port t { w with stage := .idle, held := [] } ∧ t.flag F.TWP_STAT_TIMEOUT = true ∧ t.flag F.TWP_STAT_PARTIAL = true ∧ Untouched s t [A.TWP_STAT])) ∧
    (w.stage = .idle ∨ w.stage = .lost → Goes .twpTimeout s (fun t => t = s)) ∧
    (∀ b : Byte, w.stage = .address →
      let addressed := fun (st : TwpStage) (t : State) => t.twp.stage = st ∧ t.twp.seen = w.seen ++ [b] ∧ t.twp.ptr = w.ptr ∧ t.twp.counted = true ∧
        t.get F.TWP_CNT_XFERS = (s.get F.TWP_CNT_XFERS + if w.counted then 0 else 1) % 2 ^ 16 ∧ Untouched s t [A.TWP_CNT]
      let enters := s.flag F.PWR_STAT_ENTERING = true ∧ s.pow.entryMode = 2 ∧ bit (s.reg A.PWR_WAKE).toNat 5 = true ∧ s.pow.phase = .up
      (enters → b.toNat = 2 * s.get F.TWP_STAT_ADDR → Goes (.twpAddress b) s (fun t => bit (t.get F.PWR_WAKESRC_SRC) 5 = true ∧ t.twp.stage = .write ∧
        t.pow = { s.pow with wakeSeen := t.pow.wakeSeen, wakeLate := t.pow.wakeLate } ∧ (if s.pow.flushed then t.pow.wakeLate else t.pow.wakeSeen) = true)) ∧
      (¬enters → s.pow.phase = .up → b.toNat = 2 * s.get F.TWP_STAT_ADDR →
        Goes (.twpAddress b) s (fun t => addressed .write t ∧ port t { w with stage := .write, seen := w.seen ++ [b], counted := true })) ∧
      (¬enters → s.pow.phase = .up → b.toNat = 2 * s.get F.TWP_STAT_ADDR + 1 → s.get F.TWP_PAGE_PAGE = 0 → w.ptr = 8 → w.latchAt = none → Goes (.twpAddress b) s (fun t => addressed .read t ∧
        t.twp.latch = [0x20#8, 0x96#8, Config.stepping, BitVec.ofNat 8 (s.get F.TWP_STAT_ADDR)])) ∧
      (b.toNat / 2 ≠ s.get F.TWP_STAT_ADDR → b ≠ 0x19#8 ∨ w.drive = false → Goes (.twpAddress b) s (fun t => t = { s with twp := { w with stage := .lost, seen := w.seen ++ [b] } }))) ∧
    (∀ b : Byte, w.stage = .write →
      (s.flag F.TWP_CFG_PEC = true → Goes (.twpWriteByte b) s (fun t => t = { s with twp := { w with seen := w.seen ++ [b], held := w.held ++ [kept b] } })) ∧
      (s.flag F.TWP_CFG_PEC = false → w.first = true → Goes (.twpWriteByte b) s (fun t => t = { s with twp := { w with seen := w.seen ++ [b], first := false, ptr := b.toNat } })) ∧
      (s.flag F.TWP_CFG_PEC = false → w.first = false → w.ptr = 0 → b.toNat < 3 → Goes (.twpWriteByte b) s (fun t => t.get F.TWP_PAGE_PAGE = b.toNat ∧
        port t { w with seen := w.seen ++ [b], ptr := 1 } ∧ Untouched s t [A.TWP_PAGE])) ∧
      (∀ v c : Byte, w.first = true → w.held = [kept 0#8, kept v, kept c] → v.toNat < 3 →
        (crc8 w.seen = 0 → Goes (.twpStop false) s (fun t => t.get F.TWP_PAGE_PAGE = v.toNat ∧ port t { w with stage := .idle, held := [], first := false, ptr := 1 } ∧ Untouched s t [A.TWP_PAGE])) ∧
        (crc8 w.seen ≠ 0 → Goes (.twpStop false) s (fun t => t.flag F.TWP_STAT_PEC_ERR = true ∧ port t { w with stage := .idle, held := [] } ∧ Untouched s t [A.TWP_STAT])))) ∧
    (∀ (ready : Bool) (key : Nat), w.stage = .read →
      let sent := fun (b : Byte) (st : TwpStage) => { w with stage := st, seen := w.seen ++ [b], count := w.count + 1, out := w.out ++ [b], ptr := (w.ptr + 1) % 256 }
      let due := s.flag F.TWP_CFG_PEC && w.count == s.get F.TWP_CFG_RDLEN
      (due = true → Goes (.twpReadByte ready false) s (fun t => t = { s with twp := { w with stage := .lost, seen := [], count := 0, out := w.out ++ [BitVec.ofNat 8 (crc8 w.seen)] } })) ∧
      (due = false → ready = false → s.flag F.TWP_CFG_STRETCH = false → Goes (.twpReadByte ready false) s (fun t => t.flag F.TWP_STAT_LATE = true ∧ port t (sent 0xFF#8 .lost) ∧
        Untouched s t [A.TWP_STAT])) ∧
      (due = false → ready = true ∨ s.flag F.TWP_CFG_STRETCH = true → s.get F.TWP_PAGE_PAGE = 0 → key = 2 ^ 33 + w.ptr / 4 → w.latchAt = some key →
        Goes (.twpReadByte ready false) s (fun t => t = { s with twp := sent (w.latch.getD (w.ptr % 4) 0#8) .lost }))) ∧
    (∀ o : List (Byte × Byte), w.stage = .address → w.drive = true → w.seen.getLast? = some 0x19#8 →
      let prio := s.flag F.TWP_ALERT_PRIO_MODE
      let p := BitVec.ofNat 8 (255 - (w.rank * 64 + s.get F.TWP_ALERT_PRIO))
      let a := BitVec.ofNat 8 (2 * s.get F.TWP_STAT_ADDR)
      let sent := if prio then [p, a] else [a]
      let wins := ∀ x ∈ o, if prio = true ∧ p ≠ x.1 then p.toNat < x.1.toNat else a.toNat ≤ x.2.toNat
      (wins → Goes (.alertResponse o) s (fun t =>
        port t { w with stage := .lost, out := sent ++ (if s.flag F.TWP_CFG_PEC then [BitVec.ofNat 8 (crc8 (w.seen ++ sent))] else []) } ∧
        t.flag F.TWP_ALERT_ANSWERED = true ∧ t.flag F.TWP_ALERT_DRIVE = false ∧ t.get F.TWP_CNT_ARA_WON = satTo 0xFFFF (s.get F.TWP_CNT_ARA_WON + 1) ∧
        Untouched s t [A.TWP_ALERT, A.TWP_CNT])) ∧
      (¬ wins → Goes (.alertResponse o) s (fun t => t = { s with twp := { w with stage := .lost, out := [] } }))))
/-! ## Timers and capture (15) -/

/-- A running unit's match performs its channel's action, and its wrap loads the preloads and performs the wrap actions (R325 to R329, R334); a selected edge of a
channel in capture mode stores COUNT, and with a filter set the level is first to be sampled (R330); CMD loads an active compare value, or forces an output (R328,
R329); RUN set loads the active values (R332). Stated for matches and wraps at which the other channel does not match. The model's choices that this rests on: log
entries 3 and 44. -/
def Obligations.TimersRunMatchAndCapture : Prop :=
  ∀ (u : Fin 16) (b : Bool) (s : State), u.val < s.tmr.units.length →
    let tu := s.timer u
    let count := s.get (F.TMR_COUNT_COUNT u)
    let cmp := if b then tu.cmpB else tu.cmpA
    let runs := s.flag (F.TMR_CTRL_RUN u)
    let even := s.get (F.TMR_CTRL_EVEN u)
    let other := if b then tu.cmpA else tu.cmpB
    let out := if b then F.TMR_STAT_OUTB u else F.TMR_STAT_OUTA u
    let acted := fun (code : Nat) => if tmrMode s u b ≠ 1 then s.flag out else if code = 1 then true else if code = 2 then false else if code = 3 then !s.flag out else s.flag out
    let units := fun (t : State) (f : TimerUnit → TimerUnit) => t.tmr = { s.tmr with units := upd s.tmr.units u f }
    let told := fun (t : State) (cond : Nat) => Told s t (mkRecord s.pm s.devId 0x7FFFFF 0x3C 0 (2 ^ cond) 0 0x7D u)
    (runs = false ∨ cmp ≤ min count tu.top ∨ tu.top < cmp → Goes (.timerMatch u b) s (fun t => t = s)) ∧
    (runs = false → Goes (.timerWrap u) s (fun t => t = s)) ∧
    (runs = true → count < cmp → cmp ≤ tu.top → cmp < 2 ^ 32 → other ≤ count ∨ cmp < other →
      let matched := fun (t : State) => t.get (F.TMR_COUNT_COUNT u) = cmp ∧ t.flag (F.TMR_STAT_MATCH u) = true ∧ t.flag out = acted (tmrAct s u b) ∧
        units t (fun x => { x with residue := 0 }) ∧ Untouched s t [A.TMR_COUNT u, A.TMR_STAT u]
      (bit even (b2n b) = false → Goes (.timerMatch u b) s (fun t => matched t ∧ t.cores = s.cores)) ∧
      (∀ k, bit even (b2n b) = true → Listens s k → Goes (.timerMatch u b) s (fun t => matched t ∧ told t (b2n b)))) ∧
    (runs = true → count ≤ tu.top → tmrMode s u (!b) ≠ 1 → tu.top < cmp ∨ cmp ≤ count → tu.top < other ∨ other ≤ count → bit even 5 = false → bit (s.get F.PWR_TWAKE_UNITS) u = false →
      s.get (F.TMR_CMPB_CMP u) ≠ 0 → s.get (F.TMR_CMPA_CMP u) ≠ 0 → Goes (.timerWrap u) s (fun t => t.get (F.TMR_COUNT_COUNT u) = 0 ∧ t.flag (F.TMR_STAT_WRAP u) = true ∧
        t.flag out = acted (tmrWact s u b) ∧ units t (fun x => { x with
          residue := 0, top := s.get (F.TMR_TOP_TOP u), cmpA := s.get (F.TMR_CMPA_CMP u), cmpB := s.get (F.TMR_CMPB_CMP u) }) ∧
        Untouched s t [A.TMR_COUNT u, A.TMR_STAT u])) ∧
    (∀ rising : Bool,
      let input := if b then F.TMR_STAT_INB u else F.TMR_STAT_INA u
      let full := if b then F.TMR_STAT_FULLB u else F.TMR_STAT_FULLA u
      let overrun := if b then F.TMR_STAT_OVRB u else F.TMR_STAT_OVRA u
      let cap := if b then F.TMR_CAPB_CAP u else F.TMR_CAPA_CAP u
      let given := pinGiven s (2 * u + b2n b) = true
      let filters := tmrMode s u b = 2 ∧ s.get (if b then F.TMR_CHCFG_FILTB u else F.TMR_CHCFG_FILTA u) ≠ 0
      let level := fun (x : TimerUnit) => if b then { x with pinB := rising } else { x with pinA := rising }
      let seen := fun (x : TimerUnit) => if b then { x with pinB := rising, runB := 0 } else { x with pinA := rising, runA := 0 }
      let picked := bit (tmrAct s u b) (if rising then 0 else 1)
      let stored := fun (t : State) => t.get cap = count ∧ t.flag full = true ∧ t.flag input = rising ∧ t.flag overrun = (s.flag overrun || s.flag full) ∧
        units t seen ∧ Untouched s t [cap.addr, A.TMR_STAT u]
      (¬ given → Goes (.captureEdge u b rising) s (fun t => t = s)) ∧
      (given → filters → Goes (.captureEdge u b rising) s (fun t => units t level ∧ t = { s with tmr := t.tmr })) ∧
      (given → ¬filters → tmrMode s u b ≠ 2 ∨ runs = false ∨ picked = false → Goes (.captureEdge u b rising) s (fun t => t.flag input = rising ∧ units t seen ∧
        Untouched s t [A.TMR_STAT u] ∧ t = { s with regs := t.regs, tmr := t.tmr })) ∧
      (given → ¬filters → tmrMode s u b = 2 → runs = true → picked = true → bit even 4 = false →
        (bit even (2 + b2n b) = false → Goes (.captureEdge u b rising) s (fun t => stored t ∧ t.cores = s.cores)) ∧
        (∀ k, bit even (2 + b2n b) = true → Listens s k → Goes (.captureEdge u b rising) s (fun t => stored t ∧ told t (2 + b2n b))))) ∧
    (∀ w : Fin 256,
      let cap := if b then F.TMR_CAPB_CAP u else F.TMR_CAPA_CAP u
      let full := if b then F.TMR_STAT_FULLB u else F.TMR_STAT_FULLA u
      let preload := if b then F.TMR_CMPB_CMP u else F.TMR_CMPA_CMP u
      let loaded := fun (t : State) => units t (fun x => if b then { x with cmpB := s.get preload } else { x with cmpA := s.get preload })
      (reaches w.val cap.addr false s = true → Goes (.captureRead w u b) s (fun t => t.rdata = s.get cap ∧ t.flag full = false ∧ Untouched s t [A.TMR_STAT u] ∧
        t = { s with regs := t.regs, rdata := t.rdata })) ∧
      (∀ (p : Preload) (v : Word), Accepts w (preloadAddr u p) v s → Goes (.comparePreloadWrite w u p v) s (fun t => t.reg (preloadAddr u p) = v ∧
        Untouched s t [preloadAddr u p] ∧ t = { s with regs := t.regs })) ∧
      (Accepts w (A.TMR_CMD u) (if b then 2 else 1) s →
        (runs = false ∨ s.get preload ≠ count → Goes (.cmpLoad w u b) s (fun t => loaded t ∧ Untouched s t [])) ∧
        (runs = true → s.get preload = count → count ≤ tu.top → bit even (b2n b) = false → Goes (.cmpLoad w u b) s (fun t => loaded t ∧
          t.flag (F.TMR_STAT_MATCH u) = true ∧ t.flag out = acted (tmrAct s u b) ∧ Untouched s t [A.TMR_STAT u]))) ∧
      (∀ code : Fin 4, Accepts w (A.TMR_CMD u) (BitVec.ofNat 32 (code.val * (if b then 64 else 16))) s → Goes (.outputForce w u b code) s (fun t =>
        t.flag out = (if code = 1 then true else if code = 2 then false else s.flag out) ∧ Untouched s t [A.TMR_STAT u] ∧ t = { s with regs := t.regs })) ∧
      (∀ ctrl : Nat, ctrl = (s.reg (A.TMR_CTRL u)).toNat →
        (runs = false → Accepts w (A.TMR_CTRL u) (BitVec.ofNat 32 (setBits ctrl 0 1 1)) s → Goes (.timerStart w u) s (fun t => t.flag (F.TMR_CTRL_RUN u) = true ∧
          units t (fun x => { x with residue := x.residue % 2 ^ s.get (F.TMR_CTRL_PS u), top := s.get (F.TMR_TOP_TOP u), cmpA := s.get (F.TMR_CMPA_CMP u), cmpB := s.get (F.TMR_CMPB_CMP u) }) ∧ Untouched s t [A.TMR_CTRL u])) ∧
        (runs = true → Accepts w (A.TMR_CTRL u) (BitVec.ofNat 32 (setBits ctrl 0 1 0)) s → Goes (.timerStop w u) s (fun t => t.flag (F.TMR_CTRL_RUN u) = false ∧
          units t (fun x => { x with residue := x.residue % 2 ^ s.get (F.TMR_CTRL_PS u) }) ∧ Untouched s t [A.TMR_CTRL u] ∧ t = { s with regs := t.regs, tmr := t.tmr }))))
/-! ## Power states, resets and start-up (16, 17) -/

/-- The stages of a start-up follow one another, each acting in its own phase only: the regulator's set point, the timebase from 0 after a cold reset, the straps with
the role and the port's address, the memories initialised, the first serial and FRESH past the stored ones, RUN with LOGIC_OK, the image of the slot that the straps
name where it passes its checks, and route-map wait where it does not or none may be booted (R30 to R32, R54, R207, R276, R311, R356 to R361). A stage that misses
its limit raises a POWER fault, and the device stays in it (R349). The model's choices that this rests on: log entries 3, 53, 61, 62, 63, 65, 87 and 121. -/
def Obligations.StartUpStages : Prop :=
  ∀ (s : State) (boot : Fin 8) (head standby : Bool) (a0 a1 a2 : Fin 3),
    let ph := s.pow.phase
    let first := s.pow.start = .cold ∨ s.pow.start = .warm
    let late := s.pow.missed = true
    let intime := s.pow.missed = false
    (∀ i, (i = .powerUp ∧ ph ≠ .coldHold) ∨ (i = .regulatorReady ∧ (ph ≠ .regulator ∨ late)) ∨ (i = .oscillatorReady ∧ (ph ≠ .oscillator ∨ late)) ∨
        (i = .strapSample boot head standby a0 a1 a2 ∧ ph ≠ .straps) ∨ (i = .memoryReady ∧ (ph ≠ .memory ∨ late)) ∨ (i = .systemRecordsReady ∧ (ph ≠ .records ∨ late)) ∨
        (i = .logicReady ∧ (ph ≠ .logic ∨ late)) ∨ (i = .xloStable ∧ ph = .coldHold) ∨ (i = .powerStageTimeout ∧ (ph = .coldHold ∨ ph = .resetHold ∨ ph = .up ∨ late)) →
      Goes i s (fun t => t = s)) ∧
    (ph = .coldHold → Goes .powerUp s (fun t => t = { s with pow := { s.pow with phase := if s.pow.rstLow || s.pow.pfailLow then .resetHold else .regulator } })) ∧
    (ph = .regulator → intime → Goes .regulatorReady s (fun t => t.flag F.PWR_STAT_REG_OK = true ∧ t.get F.PACE_VCORE_SETPOINT = 0x5A ∧
      (s.flag F.PWR_STAT_OSC_OK = false → t.pow.phase = .oscillator) ∧ (s.flag F.PWR_STAT_OSC_OK = true → first → t.pow.phase = .straps) ∧
      (s.flag F.PWR_STAT_OSC_OK = true → ¬ first → t.pow.phase = .memory) ∧ t = { s with regs := t.regs, pow := { s.pow with phase := t.pow.phase } } ∧
      Untouched s t [A.PWR_STAT, A.PACE_VCORE])) ∧
    (ph = .oscillator → intime → Goes .oscillatorReady s (fun t => t.flag F.PWR_STAT_OSC_OK = true ∧ t.tb = (if s.pow.tbDue then 0 else s.tb) ∧ t.pow.tbDue = false ∧ t.pow.lowFreq = false ∧
      (first → t.pow.phase = .straps) ∧ (¬ first → t.pow.phase = .memory) ∧ Untouched s t [A.PWR_STAT])) ∧
    (ph = .straps → Goes (.strapSample boot head standby a0 a1 a2) s (fun t => t.get F.SYS_RMAP_BOOT_STRAPS = boot ∧ t.flag F.SYS_STRAP_HEAD = head ∧ t.flag F.SYS_STRAP_STANDBY = standby ∧
      t.get F.SYS_STRAP_ADR0 = a0 ∧ t.get F.SYS_STRAP_ADR1 = a1 ∧ t.get F.SYS_STRAP_ADR2 = a2 ∧ t.flag F.SYS_STRAP_ROLE_BAD = (head && standby) ∧
      t.get F.TWP_STAT_ADDR = 0x40 + 9 * a2.val + 3 * a1.val + a0.val ∧ t.get F.CAS_STAT_ROLE = (if head && !standby then 1 else if standby && !head then 2 else 0) ∧
      (head = true → standby = false → t.devId = 0 ∧ t.flag F.CAS_ID_VALID = true ∧ t.get F.CAS_STAT_TSTATE = tsLocked) ∧ t.pow.phase = .memory ∧
      Untouched s t [A.SYS_RMAP_BOOT, A.SYS_STRAP, A.TWP_STAT, A.CAS_STAT, A.CAS_ID])) ∧
    (ph = .memory → first → intime → s.Inv → s.ledg.flips = [] → unretired [] ((journalInOrder s).map (·.2)) = [] → movesOpen ((journalInOrder s).map (·.2)) = [] → Goes .memoryReady s (fun t => (∀ a, t.byte a = if inPigeon a then 0#8 else s.byte a) ∧
      t.flag F.LEDG_STAT_READY = true ∧ t.flag F.PIGN_STAT_READY = true ∧ t.flag F.PWR_STAT_MEM_OK = true ∧ t.ledg = { s.ledg with blockMap := s.recs.map.getD [] } ∧ t.pow.phase = .records ∧
      ∀ a, a ∉ [A.LEDG_STAT, A.PIGN_STAT, A.PWR_STAT] → t.reg a = s.reg a)) ∧
    (ph = .records → intime → s.recs.flush = none → s.isHead = false → s.ledg.flips = [] → Goes .systemRecordsReady s (fun t => t.pow.phase = .logic ∧ t.pow.booted = s.pm ∧ (first → t.gate.opened = []) ∧
      (∀ v, s.recs.serial = some v → t.get F.GATE_SERIAL_NEXT = (if (v + 0x10000) % 2 ^ 32 = 0 then 1 else (v + 0x10000) % 2 ^ 32)) ∧
      (s.recs.serial = none → t.get F.GATE_SERIAL_NEXT = 1) ∧
      (∀ p, p < 32 → t.get (F.FL_FRESH_FRESH p) = (match nth s.recs.fresh p none with | some v => (v + 0x10000) % 2 ^ 32 | none => 0)) ∧
      (∀ v, s.recs.casId = some v → v < 2 ^ 16 → t.devId = v ∧ t.est.lastId = some v))) ∧
    (ph = .logic → first → intime → s.flag F.SYS_STRAP_ROLE_BAD = true → s.get F.SYS_RMAP_BOOT_STRAPS < 6 → Goes .logicReady s (fun t => t.pow = { s.pow with phase := .up } ∧ t.pwr = 0 ∧
      t.flag F.PWR_STAT_LOGIC_OK = true ∧ t.flag F.SYS_RMAP_STAT_WAITING = true ∧ t.get F.SYS_BOOT_TIME_US = min 0xFFFFFF (pmDiff s.pm s.pow.booted * 1000000 / 2 ^ 24) ∧
      Untouched s t [A.PWR_STAT, A.SYS_RMAP_STAT, A.SYS_BOOT_TIME])) ∧
    (∀ (b : Bool) (u : State), ph = .logic → first → intime → s.flag F.SYS_STRAP_ROLE_BAD = false → s.get F.SYS_RMAP_BOOT_STRAPS = (if b then 4 else 3) → s.rmap.routes = [] →
      u = { ((s.mark F.PWR_STAT_LOGIC_OK).put F.PWR_STAT_STATE 0) with pow := { s.pow with phase := .up } } →
      (∀ x ∈ envSections u (slotEnv b), x.typ ≤ 9 ∨ x.typ = 0x11) →
      let waits := fun (t : State) (reason : Nat) => t.get (slotReason b) = reason ∧ t.flag F.SYS_RMAP_STAT_WAITING = true
      let reason := (checkEnvelope u (slotEnv b)).reason
      Goes .logicReady s (fun t => t.pow.phase = .up ∧ t.pwr = 0 ∧ t.flag F.PWR_STAT_LOGIC_OK = true ∧
        (reason = rmOk → (t.get (slotReason b) = rmOk ∧ Boots u t b) ∨ waits t rmEnvCrc) ∧ (reason ≠ rmOk → waits t reason))) ∧
    (ph ≠ .coldHold → Goes .xloStable s (fun t => t.flag F.SYS_RST_STAT_XLO_OK = true ∧ Untouched s t [A.SYS_RST_STAT] ∧ t = { s with regs := t.regs })) ∧
    (∀ code : Nat, (ph = .regulator ∧ code = 1) ∨ (ph = .oscillator ∧ code = 2) ∨ ((ph = .straps ∨ ph = .memory) ∧ code = 3) ∨ ((ph = .records ∨ ph = .logic) ∧ code = 4) →
      intime → s.pow.start ≠ .hush → priValid s 0x7C = false → s.flt.dayQ.length < 32 → Goes .powerStageTimeout s (fun t => t.pow = { s.pow with missed := true } ∧
        t.reg (A.SYS_FLT_PRI 0x7C) = BitVec.ofNat 32 (2 ^ 31 + 6 * 2 ^ 24 + code * 2 ^ 16) ∧ t.reg (A.SYS_FLT_PRIPM 0x7C) = BitVec.ofNat 32 s.pm ∧
        t.flt.dayQ = s.flt.dayQ ++ [⟨s.pm, 0x7C, 0x08, code, 6⟩] ∧ Untouched s t [A.SYS_FLT_PRI 0x7C, A.SYS_FLT_PRIPM 0x7C]))

/-- A cold reset takes every register and unit to its reset value and keeps the ledger, a warm one keeps SYS_RST_STAT and the flush count too and leaves the device held
or on its way (R353, R354, Table 17.2). A device that runs is flushed first (R354, R374, R378): the ring is frozen, and when the flush is complete its record stands
and what it was for follows (R379). RST_N and PFAIL_N hold the device while they are low (R354, R375). While PFAIL_N's flush runs from a VHOLD that was charged when
it began, rails that fall reset the device only when it is complete (R407, R421). Stated with no line buffered in the ledger controller and no move in progress. The
model's choices that this rests on: log entries 3, 27, 32, 87 and 111. -/
def Obligations.ResetsAndPowerFailure : Prop :=
  ∀ (s : State), (∀ q ∈ s.ledg.bufs, q = []) → (∀ x ∈ s.ledg.txns, x.phase ≠ .committed) → s.ledg.moves = [] →
    let ph := s.pow.phase
    let cleared := fun (t : State) => t.cores = State.reset.cores ∧ t.gate = State.reset.gate ∧ t.tmr = State.reset.tmr ∧ t.host = State.reset.host ∧ t.twp = State.reset.twp ∧
      t.links = State.reset.links ∧ t.pending = s.pending ∧ t.tb = s.tb ∧ (∀ a, t.byte a = s.byte a) ∧ t.get F.LEDG_WEAR_SPARES = s.get F.LEDG_WEAR_SPARES
    let warm := fun (t : State) (next : Phase) => cleared t ∧ t.pow.phase = next ∧ t.tap = s.tap ∧ t.get F.DLF_CNT_FLUSHES = s.get F.DLF_CNT_FLUSHES ∧
      t.flag F.SYS_FAULT_RECOVERING = true ∧ ∀ a, a ∉ [A.LEDG_WEAR, A.SYS_FAULT, A.DLF_CNT, A.SYS_RST_STAT, A.PWR_STAT] → t.reg a = resetWord a
    let frozen := fun (t : State) (f : FlushThen) => t.flag F.DLF_STAT_FROZEN = true ∧ t.flag F.DLF_STAT_FLUSHING = true ∧ t.pow.flush = f ∧ t.pow.phase = .up
    let starting := ph ≠ .coldHold ∧ ph ≠ .resetHold ∧ ph ≠ .up
    let runs := ph = .up ∧ s.pwr ≤ 1 ∧ s.safe = false ∧ s.flag F.DLF_STAT_FROZEN = false ∧ s.flag F.DLF_STAT_FLUSHING = false ∧ s.pow.flush = .none
    (onHoldUp s = true → s.pow.charged = true → Goes .powerOnReset s (fun t => t = { s with pow := { s.pow with railLow := true } })) ∧
    (onHoldUp s = true → s.pow.charged = false → Goes .powerOnReset s (fun t => t.pow = { s.pow with railLow := true } ∧ t.regs = s.regs ∨
      t.cores = State.reset.cores ∧ t.gate = State.reset.gate ∧ t.pow.phase = .coldHold ∧ t.pow.start = .cold)) ∧
    (onHoldUp s = false → Goes .powerOnReset s (fun t => cleared t ∧ t.pow.phase = .coldHold ∧ t.pow.start = .cold ∧ t.pow.keepBox = [] ∧ t.tap = State.reset.tap ∧
      ∀ a, a ∉ [A.LEDG_WEAR, A.SYS_FAULT] → t.reg a = resetWord a)) ∧
    (ph = .coldHold → Goes .resetPin s (fun t => t = { s with pow := { s.pow with rstLow := true } })) ∧
    (ph = .resetHold → Goes .resetPin s (fun t => t.flag F.SYS_RST_STAT_PIN = true ∧ t = { s with regs := t.regs, pow := { s.pow with rstLow := true } } ∧ Untouched s t [A.SYS_RST_STAT])) ∧
    (starting → Goes .resetPin s (fun t => warm t .resetHold ∧ t.flag F.SYS_RST_STAT_PIN = true ∧ t.pow.rstLow = true)) ∧
    (runs → Goes .resetPin s (fun t => frozen t (.reset true) ∧ t.pow.rstLow = true)) ∧
    (∀ u, Accepts u A.SYS_RST 0xC0DE#32 s →
      (runs → Goes (.softReset u) s (fun t => frozen t (.reset false))) ∧
      (s.safe = true → s.flag F.DLF_STAT_FLUSHING = false → s.pow.rstLow = false → s.pow.pfailLow = false →
        Goes (.softReset u) s (fun t => warm t .regulator ∧ t.flag F.SYS_RST_STAT_SOFT = true))) ∧
    Goes .resetRelease s (fun t => t = { s with pow := { s.pow with rstLow := false, phase := if ph = .resetHold ∧ s.pow.pfailLow = false then .regulator else ph } }) ∧
    (s.pow.pfailLow = true → Goes .powerFail s (fun t => t = s)) ∧
    (s.pow.pfailLow = false → Goes .powerRestored s (fun t => t = s) ∧
      (ph = .coldHold → Goes .powerFail s (fun t => t = { s with pow := { s.pow with pfailLow := true } })) ∧
      (ph = .resetHold → Goes .powerFail s (fun t => t.flag F.SYS_FAULT_PFAIL = true ∧ t = { s with regs := t.regs, pow := { s.pow with pfailLow := true, charged := s.flag F.SYS_HOLD_CHARGED } } ∧ Untouched s t [A.SYS_FAULT])) ∧
      (starting → Goes .powerFail s (fun t => warm t .resetHold ∧ t.flag F.SYS_FAULT_PFAIL = true ∧ t.pow.pfailLow = true)) ∧
      (runs → Goes .powerFail s (fun t => frozen t .powerFail ∧ t.flag F.SYS_FAULT_PFAIL = true ∧ t.pow.charged = s.flag F.SYS_HOLD_CHARGED))) ∧
    (s.pow.pfailLow = true →
      (ph = .resetHold → Goes .powerRestored s (fun t => t.flag F.SYS_FAULT_PFAIL = false ∧ t.flag F.SYS_FAULT_PF_RESTART = true ∧ Untouched s t [A.SYS_FAULT] ∧
        t = { s with regs := t.regs, pow := { s.pow with pfailLow := false, phase := if s.pow.rstLow then .resetHold else .regulator } })) ∧
      (ph ≠ .resetHold → ph ≠ .coldHold → Goes .powerRestored s (fun t => t.flag F.SYS_FAULT_PFAIL = false ∧ Untouched s t [A.SYS_FAULT] ∧
        t = { s with regs := t.regs, pow := { s.pow with pfailLow := false } }))) ∧
    (s.flag F.DLF_STAT_FLUSHING = false → Goes .flushComplete s (fun t => t = s)) ∧
    (∀ p : Part, s.flag F.DLF_STAT_FLUSHING = true → s.part 5 = some p → 0x08000000 ≤ p.base → s.ledg.recPend = [] → s.ledg.flips = [] → (∀ x, x < 24 → maskOk s 0x7F x = true) →
      let ring := s.bytes p.base ringBytes
      let done := fun (t : State) => t.flag F.DLF_STAT_FLUSHING = false ∧ t.get F.DLF_CNT_FLUSHES = satTo 0xFFFF (s.get F.DLF_CNT_FLUSHES + 1) ∧ t.bytes flushBase ringBytes = ring ∧
        t.recs.flush = some (s.flt.flushSeq, recNum (ring.drop 0x1E000) 4 1, recNum (ring.drop 0x1E000) 8 8, crc32 ring)
      let fine := ∀ v ∈ s.ledg.verify, v ≠ .failed
      (fine → s.pow.flush = .safeHold → Goes .flushComplete s (fun t => done t ∧ t.pow.flush = .none ∧ t.pow.phase = ph)) ∧
      (s.pow.flush = .safeHold → s.ledg.spares = [] → s.ledg.verify.getD 2048 .good = .failed → Goes .flushComplete s (fun t => t.flag F.DLF_STAT_FLUSHING = false ∧
        t.recs.flush = s.recs.flush ∧ 0x7F ∈ t.ledg.failed)) ∧
      (fine → s.pow.flush = .powerEntry → s.pow.wakeSeen = false → Goes .flushComplete s (fun t => done t ∧ t.pow.flush = .none ∧ t.pow.flushed = true ∧
        t.pow.keepBox = if s.pow.entryMode = 3 then (if s.get F.PWR_RETAIN_MODE = 2 then s.rmap.retain.map (fun a => (a, regView 0x00 a t)) else []) else s.pow.keepBox)) ∧
      (fine → s.pow.flush = .powerFail → s.pow.railLow = true → Goes .flushComplete s (fun t => t.pow.phase = .coldHold ∧ t.pow.start = .cold ∧ t.pow.keepBox = [] ∧
        t.tap = State.reset.tap ∧ t.bytes flushBase ringBytes = ring)) ∧
      (fine → s.pow.flush = .reset false → s.pow.rstLow = false → s.pow.pfailLow = false → Goes .flushComplete s (fun t => t.pow.phase = .regulator ∧ t.flag F.SYS_RST_STAT_SOFT = true ∧
        t.cores = State.reset.cores ∧ t.bytes flushBase ringBytes = ring)))

/-- The postmaster's WAIT with a lower mode is refused by a unit of Table 16.3 or for want of a wake source, and enters DOZE at once (R345); POWER_DOWN completes an
entry into HUSH, whose stages are off (R346, Table 16.4); an abort brings RUN back, with the chains and links that had stopped (R346). A comparator that trips
records it and tells the postmaster (R348); the VHOLD monitor shows the voltage, and CHARGED once it has stood within 100 mV of the target for ten updates (R408).
The model's choices that this rests on: log entries 3, 25, 26, 48 and 67. -/
def Obligations.EntriesAndMonitors : Prop :=
  (∀ (s : State) (k : Core) (m : Nat), CoreAt s 0 k 0x02 1 1 → s.get F.PWR_MODE_MODE = m → m ≠ 0 → s.flt.dayQ.length < 32 → (∀ k1 ∈ s.cores, k1.spec = none) →
    let noted := fun (t : State) (w : Nat) (cause : Nat) => t.reg A.PWR_LASTENT = BitVec.ofNat 32 w ∧ t.flt = { s.flt with pmTaken := false, dayQ := s.flt.dayQ ++ [⟨s.pm, 0x00, 0x20, cause, w⟩] }
    let refused := fun (t : State) => t.cores = upd s.cores 0 (fun _ => { k.went 1 1 k.r with steps := 0 }) ∧ t.get F.PWR_CNT_REFUSED = satTo 0xFFFF (s.get F.PWR_CNT_REFUSED + 1) ∧
      Untouched s t [A.PWR_LASTENT, A.PWR_CNT, A.SRT_STEPS 0]
    (∀ u, refuser s m = some u → Goes (.wait 0) s (fun t => refused t ∧ noted t (u * 2 ^ 16 + 2 ^ 15 + 2 * 2 ^ 8 + m) 2)) ∧
    (refuser s m = none → anyWake s m = false → Goes (.wait 0) s (fun t => refused t ∧ noted t (3 * 2 ^ 8 + m) 3)) ∧
    (m = 1 → refuser s m = none → anyWake s m = true → Goes (.wait 0) s (fun t => t.pwr = 1 ∧ t.get (F.SRT_STAT_STATE 0) = stWaiting ∧ noted t (1 * 2 ^ 8 + 1) 1 ∧
      t.cores = upd s.cores 0 (fun _ => k.went 1 1 k.r) ∧ Untouched s t [A.PWR_LASTENT, A.PWR_STAT, A.SRT_STAT 0, A.SRT_STEPS 0])) ∧
    (m = 2 ∨ m = 3 → refuser s m = none → anyWake s m = true → s.flag F.DLF_STAT_FROZEN = false → Goes (.wait 0) s (fun t => t.flag F.PWR_STAT_ENTERING = true ∧ t.pwr = s.pwr ∧
      t.get (F.SRT_STAT_STATE 0) = stWaiting ∧ t.flag F.DLF_STAT_FROZEN = true ∧ t.flag F.DLF_STAT_FLUSHING = true ∧ t.reg A.PWR_LASTENT = s.reg A.PWR_LASTENT ∧
      t.pow = { s.pow with entryMode := m, wakeSeen := false, wakeLate := false, flushed := false, flush := .powerEntry }))) ∧
  (∀ (s : State) (b : Option (Fin 128)),
    (s.flag F.PWR_STAT_ENTERING = false ∨ s.pow.flushed = false → Goes .powerDown s (fun t => t = s)) ∧
    (s.flag F.PWR_STAT_ENTERING = false ∨ s.pow.flushed = true ∨ (s.pow.wakeSeen = false ∧ b = none) → Goes (.entryAbort b) s (fun t => t = s)) ∧
    (s.flag F.PWR_STAT_ENTERING = true → s.pow.flushed = true → s.pow.entryMode = 3 → s.pow.wakeLate = false → Goes .powerDown s (fun t => t.pwr = 3 ∧ t.flag F.PWR_STAT_ENTERING = false ∧
      t.flag F.PWR_STAT_LOGIC_OK = false ∧ t.flag F.PWR_STAT_OSC_OK = false ∧ t.pow.lowFreq = true ∧ t.pow.start = .deep ∧ t.pow.keepBox = s.pow.keepBox ∧ t.tmr = s.tmr ∧ t.tb = s.tb ∧
      t.cores = State.reset.cores ∧ t.gate = State.reset.gate ∧ t.rmap.retain = s.rmap.retain ∧ ∀ a, alwaysOn a = true → a ∉ [A.PWR_STAT, A.PWR_LASTENT] → t.reg a = s.reg a)) ∧
    (s.flag F.PWR_STAT_ENTERING = true → s.pow.flushed = true → s.pow.entryMode = 2 → Goes .powerDown s (fun t => t.pwr = 2 ∧ t.flag F.PWR_STAT_ENTERING = false ∧
      t.flag F.PWR_STAT_REG_OK = false ∧ t.flag F.PWR_STAT_MEM_OK = false ∧ t.flag F.PWR_STAT_LOGIC_OK = false ∧ t.get F.PACE_VCORE_SETPOINT = 0 ∧
      t.get F.PWR_LASTENT_CAUSE = 1 ∧ t.get F.PWR_LASTENT_MODE = 2 ∧ (∀ n, n < 4 → lstate t n = 0) ∧
      t.pow = (if s.pow.wakeLate = true then { s.pow with flushed := false, wakeLate := false, phase := .regulator, start := .hush, missed := false }
        else { s.pow with flushed := false, wakeLate := false }))) ∧
    (∀ (cause : Nat) (u : Option Nat) (p : Option Part), s.flag F.PWR_STAT_ENTERING = true → s.pow.flushed = false → (s.pow.wakeSeen = true ∧ cause = 5 ∧ u = none) ∨ (s.pow.wakeSeen = false ∧ cause = 4 ∧ u = b.map (·.val) ∧ b ≠ none) →
      s.part 5 = p → (∀ q, p = some q → 0x08000000 ≤ q.base ∧ q.base + ringBytes ≤ 0x09000000 ∧ ∀ x, x < 24 → maskOk s 0x7F x = true) → s.flt.dayQ.length < 32 → s.pow.entryMode < 4 → s.flag F.TT_CTRL_RUN = false → Goes (.entryAbort b) s (fun t => t.flag F.PWR_STAT_ENTERING = false ∧ t.flag F.DLF_STAT_FROZEN = false ∧
        t.flag F.DLF_STAT_FLUSHING = false ∧ t.get F.PWR_CNT_ABORTED = satTo 0xFFFF (s.get F.PWR_CNT_ABORTED + 1) ∧ t.get F.PWR_LASTENT_CAUSE = cause ∧
        t.get F.PWR_LASTENT_MODE = s.pow.entryMode ∧ (∀ x, u = some x → t.get F.PWR_LASTENT_UNIT = x) ∧ t.pow = { s.pow with flush := .none, flushed := false } ∧
        (s.get (F.SRT_STAT_STATE 0) = stWaiting → t.get (F.SRT_STAT_STATE 0) = stRunning) ∧
        (∀ i c, i < 16 → s.chain i = some c → s.flag (F.FC_CTRL_RUN i) = true → ∃ d, t.chain i = some d ∧ d.run = true) ∧
        (∀ n, n < 4 → s.flag (F.CAS_L_STAT_PRS n) = true → linkEnabled s n = true → lstate s n = 0 → lstate t n = 2) ∧
        ((∀ i, i < 16 → s.flag (F.FC_CTRL_RUN i) = false) → (∀ n, n < 4 → lstate s n = 0 → s.flag (F.CAS_L_STAT_PRS n) = false) →
          ∀ a, a ∉ [A.PWR_STAT, A.DLF_STAT, A.PWR_CNT, A.PWR_LASTENT, A.SRT_STAT 0] → t.reg a = s.reg a) ∧
        (∀ q i, p = some q → i < 3840 → t.bytes (q.base + 32 * i) 32 = if s.gate.opened.any (fun l => l.slot == i) then s.bytes (q.base + 32 * i) 32 else List.replicate 32 0#8) ∧
        (∀ a, (∀ q, p = some q → a < q.base ∨ q.base + 0x1E000 ≤ a) → t.byte a = s.byte a)))) ∧
  (∀ (n : Fin 4) (s : State),
    let out := s.get F.CMP_STAT_OUT
    (s.flag (F.CMP_CTRL_EN n) = false ∨ s.pow.phase = .coldHold ∨ bit out n = true → Goes (.comparatorTrip n) s (fun t => t = s)) ∧
    (∀ k, s.flag (F.CMP_CTRL_EN n) = true → bit out n = false → Listens s k → Goes (.comparatorTrip n) s (fun t => t.get F.CMP_STAT_OUT = out ||| 2 ^ n.val ∧
      t.get F.CMP_STAT_TRIP = s.get F.CMP_STAT_TRIP ||| 2 ^ n.val ∧ Told s t (mkRecord s.pm s.devId 0x7FFFFF 0x3B 0 (out ||| 2 ^ n.val) 0 0x00 n) ∧ Untouched s t [A.CMP_STAT])) ∧
    (s.flag (F.CMP_CTRL_EN n) = false → Goes (.comparatorWakeSideLeft n) s (fun t => t = s)) ∧
    (s.flag (F.CMP_CTRL_EN n) = true → Goes (.comparatorWakeSideLeft n) s (fun t => t.get F.CMP_STAT_OUT = out &&& (0xF ^^^ 2 ^ n.val) ∧ Untouched s t [A.CMP_STAT] ∧
      t = { s with regs := t.regs }))) ∧
  (∀ (mv vio : Nat) (s : State),
    let near := vio ≤ 5 * mv + 250 ∧ 5 * mv + 50 ≤ vio
    let n := if near then min 10 (s.pow.holdGood + 1) else 0
    (logicPowered s = false → Goes (.holdUpdate mv vio) s (fun t => t = s)) ∧
    (logicPowered s = true → 150 ≤ vio → Goes (.holdUpdate mv vio) s (fun t => t.get F.SYS_HOLD_MV = min 1023 mv ∧ t.flag F.SYS_HOLD_CHARGED = (n == 10) ∧
      t = { s with regs := t.regs, pow := { s.pow with holdGood := n } } ∧ Untouched s t [A.SYS_HOLD])))
/-! ## Faults and the day book (18) -/

/-- A CHECK fault loads the free slot, is told to the postmaster and the day book, and resets the unit, whose recovery interval opens; with both slots in use it is a
storm, and a second one within a second holds the unit; on the timers block it is safe hold; a held unit's is ignored (R364, R365, R367, R368, R370 to R372). Its
reset ends with the slot, which safe hold keeps, and the interval; a slot is cleared by software, the secondary moving up; a held unit is released (R366, R368). The
day-book writer puts the oldest entry that waits at WR, with SEQ, and into the tail of the ring (R377, R381, R382). The model's choices that this rests on: log
entries 3, 28, 33 and 64. -/
def Obligations.FaultsRecoverAndAreRecorded : Prop :=
  (∀ (u : Fin 128) (code : Byte) (s : State),
    let slot := BitVec.ofNat 32 (2 ^ 31 + 3 * 2 ^ 24 + code.toNat * 2 ^ 16)
    let reset := fun (t : State) => t.flt.resets = s.flt.resets ++ [u.val] ∧ t.flt.check = s.flt.check ++ [u.val] ∧ t.flt.recov = s.flt.recov ++ [u.val] ∧ t.flag F.SYS_FAULT_RECOVERING = true
    let told := fun (t : State) (sec : Nat) => Told s t (mkRecord s.pm s.devId 0x7FFFFF 0x30 0 (code.toNat + 3 * 2 ^ 8 + sec * 2 ^ 12) 0 u 0) ∧
      t.flt.dayQ = s.flt.dayQ ++ [⟨s.pm, u, 0x08, code.toNat, 3 + 16 * sec⟩]
    (s.isHeld u = true ∨ logicPowered s = false ∨ (code.toNat ≠ 1 ∧ code.toNat ≠ 2) → Goes (.checkFault u code) s (fun t => t = s)) ∧
    (∀ k, code.toNat = 1 ∨ code.toNat = 2 → s.isHeld u = false → Listens s k → s.flt.dayQ.length < 32 → u.val ∉ s.flt.resets → u.val ∉ s.flt.check → u.val ∉ s.flt.recov → u.val ≠ 0x7D → (u.val = 0 → pmHandling s = false) →
      (priValid s u = false → Goes (.checkFault u code) s (fun t => t.reg (A.SYS_FLT_PRI u) = slot ∧ t.reg (A.SYS_FLT_PRIPM u) = BitVec.ofNat 32 s.pm ∧ reset t ∧ told t 0 ∧
        Untouched s t [A.SYS_FLT_PRI u, A.SYS_FLT_PRIPM u, A.SYS_FAULT])) ∧
      (priValid s u = true → secValid s u = false → Goes (.checkFault u code) s (fun t => t.reg (A.SYS_FLT_SEC u) = slot ∧ t.reg (A.SYS_FLT_SECPM u) = BitVec.ofNat 32 s.pm ∧ reset t ∧ told t 1 ∧
        Untouched s t [A.SYS_FLT_SEC u, A.SYS_FLT_SECPM u, A.SYS_FAULT])) ∧
      (priValid s u = true → secValid s u = true → essential u = false → 0x41 ≤ u.val →
        let stormed := fun (t : State) => t.flag F.SYS_FAULT_STORM = true ∧ t.get F.SYS_FSTORM_UNIT = u ∧ t.get F.SYS_FSTORM_COUNT = satTo 0xFFFF (s.get F.SYS_FSTORM_COUNT + 1) ∧
          priValid t u = false ∧ secValid t u = false ∧ t.flt.resets = s.flt.resets ++ [u.val] ∧ t.safe = s.safe
        (s.flt.stormAt = [] → Goes (.checkFault u code) s (fun t => stormed t ∧ t.isHeld u = false)) ∧
        (s.flt.stormAt = [(u.val, s.pm)] → Goes (.checkFault u code) s (fun t => stormed t ∧ t.isHeld u = true)))) ∧
    (∀ k, code.toNat = 1 ∨ code.toNat = 2 → u.val = 0x7D → s.isHeld u = false → Listens s k → s.safe = false → priValid s u = false → Goes (.checkFault u code) s (fun t => t.safe = true ∧
      t.get F.SYS_FAULT_SAFE_UNIT = 0x7D ∧ t.get F.SYS_FAULT_SAFE_CLASS = 3 ∧ ∀ c, c < 65 → t.get (F.SRT_STAT_STATE c) = stStopped)) ∧
    (u.val ∉ s.flt.resets ∨ logicPowered s = false ∨ s.flag F.DLF_STAT_FLUSHING = true → Goes (.unitResetComplete u) s (fun t => t = s)) ∧
    (u.val ∈ s.flt.resets → logicPowered s = true → s.flag F.DLF_STAT_FLUSHING = false → u.val = 0x77 ∨ u.val = 0x7C ∨ u.val = 0x7F → priValid s u = true → s.get (F.SYS_FLT_PRI_CLASS u) = 3 → secValid s u = false →
      Goes (.unitResetComplete u) s (fun t => priValid t u = s.safe ∧ t.flag F.SYS_FAULT_RECOVERING = !t.flt.recov.isEmpty ∧ (u.val = 0x7C → t.get F.PACE_VCORE_SETPOINT = 0x5A) ∧
        t.flt = { s.flt with resets := s.flt.resets.filter (· != u.val), check := s.flt.check.filter (· != u.val), recov := s.flt.recov.filter (· != u.val) } ∧
        Untouched s t ([A.SYS_FLT_PRI u, A.SYS_FAULT] ++ if u.val = 0x7C then [A.PACE_VCORE] else [])))) ∧
  (∀ (w : Fin 256) (u : Fin 128) (s : State),
    (Accepts w (A.SYS_FLT_PRI u) 0x80000000#32 s →
      (priValid s u = false ∨ u.val ∈ s.flt.check → Goes (.faultSlotClear w u false) s (fun t => t = s)) ∧
      (priValid s u = true → u.val ∉ s.flt.check →
        (secValid s u = false → Goes (.faultSlotClear w u false) s (fun t => priValid t u = false ∧ Untouched s t [A.SYS_FLT_PRI u])) ∧
        (secValid s u = true → Goes (.faultSlotClear w u false) s (fun t => t.reg (A.SYS_FLT_PRI u) = s.reg (A.SYS_FLT_SEC u) ∧ t.reg (A.SYS_FLT_PRIPM u) = s.reg (A.SYS_FLT_SECPM u) ∧
          secValid t u = false ∧ Untouched s t [A.SYS_FLT_PRI u, A.SYS_FLT_PRIPM u, A.SYS_FLT_SEC u])))) ∧
    (Accepts w (A.SYS_FLT_SEC u) 0x80000000#32 s →
      (secValid s u = false ∨ u.val ∈ s.flt.check → Goes (.faultSlotClear w u true) s (fun t => t = s)) ∧
      (secValid s u = true → u.val ∉ s.flt.check → Goes (.faultSlotClear w u true) s (fun t => secValid t u = false ∧ Untouched s t [A.SYS_FLT_SEC u]))) ∧
    (Accepts w (A.SYS_FHELD (u.val / 32)) (BitVec.ofNat 32 (2 ^ (u.val % 32))) s →
      (s.isHeld u = false → Goes (.unitRelease w u) s (fun t => t = s)) ∧
      (s.isHeld u = true → 0x75 ≤ u.val → Goes (.unitRelease w u) s (fun t => (∀ v, v < 128 → t.isHeld v = (s.isHeld v && v != u.val)) ∧ t = { s with regs := t.regs } ∧
        Untouched s t [A.SYS_FHELD (u.val / 32)])) ∧
      (∀ k, s.isHeld u = true → u.val ≤ 0x40 → s.core u = some k → headerOk k.priv = true → s.flag (F.SRT_CTRL_RUN u) = false → u.val ∉ s.flt.resets → Goes (.unitRelease w u) s (fun t =>
        t.isHeld u = false ∧ t.get (F.SRT_STAT_STATE u) = stStopped)))) ∧
  (∀ s : State,
    (s.pow.phase ≠ .up ∨ 2 ≤ s.pwr ∨ 0x7E ∈ s.flt.resets ∨ s.isHeld 0x7E = true ∨ s.flag F.DAYB_STAT_READY = false ∨ (s.flt.dayQ = [] ∧ s.flt.dayLost = 0) →
      Goes .dayBookWrite s (fun t => t = s)) ∧
    (∀ (e : DayEntry) (q : List DayEntry) (p r : Part), s.pow.phase = .up → s.pwr ≤ 1 → 0x7E ∉ s.flt.resets → s.isHeld 0x7E = false → s.flag F.DAYB_STAT_READY = true → s.flt.dayLost = 0 →
      s.flt.dayQ = e :: q → s.part 4 = some p → s.part 5 = some r →
      let at_ := p.base + 16 * s.get F.DAYB_WR_IDX
      let tail := r.base + 0x1E100 + 16 * s.flt.tailIdx
      let seq := if e.code = 1 then 0 else (s.get F.DAYB_SEQ_SEQ + 1) % 2 ^ 32
      let entry := leBytes 8 e.pm ++ leBytes 1 e.unit ++ leBytes 1 e.code ++ leBytes 1 e.aux ++ leBytes 1 seq ++ leBytes 4 e.data
      MaskFor s 0x7E at_ 16 →
      let counted := fun (t : State) => t.get F.DAYB_WR_IDX = (s.get F.DAYB_WR_IDX + 1) % 65536 ∧ t.get F.DAYB_SEQ_SEQ = seq ∧
        (s.get F.DAYB_WR_IDX ≠ 65535 → t.get F.DAYB_CNT_WRAPS = s.get F.DAYB_CNT_WRAPS) ∧ (s.get F.DAYB_WR_IDX = 65535 → t.get F.DAYB_CNT_WRAPS = (s.get F.DAYB_CNT_WRAPS + 1) % 65536) ∧
        Untouched { s with mem := t.mem } t [A.DAYB_WR, A.DAYB_SEQ, A.DAYB_CNT]
      (s.flag F.DLF_STAT_FROZEN = true → Goes .dayBookWrite s (fun t => counted t ∧ t.flt = { s.flt with dayQ := q } ∧ t.bytes at_ 16 = entry ∧
        ∀ a, a < at_ ∨ at_ + 16 ≤ a → t.byte a = s.byte a)) ∧
      (s.flag F.DLF_STAT_FROZEN = false → MaskFor s 0x7F tail 16 → at_ + 16 ≤ tail ∨ tail + 16 ≤ at_ → Goes .dayBookWrite s (fun t => counted t ∧
        t.flt = { s.flt with dayQ := q, tailIdx := (s.flt.tailIdx + 1) % 496 } ∧ t.bytes at_ 16 = entry ∧ t.bytes tail 16 = entry ∧
        ∀ a, (a < at_ ∨ at_ + 16 ≤ a) → (a < tail ∨ tail + 16 ≤ a) → t.byte a = s.byte a))))
/-! ## The machine -/

/-- A step takes the command at the front of the queue: it is the command's effect on the state with the rest of the queue. The model's choices that this rests on: log
entry 1. -/
def Obligations.StepTakesTheFrontCommand : Prop :=
  ∀ (s : State) (c : Instr) (rest : List Instr), s.pending = c :: rest → step s = exec c { s with pending := rest }

/-- On an empty queue one period of the stepping clock passes: the timebase advances by 2^24 and the signed trim, or by 512 periods from the crystal, while it runs (R54,
R289); a port that sends lets DE_LEAD pass and then adds its rate's increment to its phase accumulator, whose overflows end the half-bits (R90, R95); a link in
DETECT with its partner present begins to train (R278). That a tick is what a step does when no command waits is the model's choice (log entry 2). The model's
choices that this rests on: log entries 2, 94 and 118. -/
def Obligations.AnIdleStepIsOneTick : Prop :=
  ∀ s : State, s.pending = [] →
    (timebaseRuns s = false → step s = .next s) ∧
    (timebaseRuns s = true → ∃ t, step s = .next t ∧ t.pending = [] ∧ t.mem = s.mem ∧ t.gate = s.gate ∧ (s.pow.lowFreq = true → t.ports = s.ports) ∧
      (∀ n, n < 4 → s.pow.lowFreq = false → s.quiet = false → lstate s n = 1 → s.flag (F.CAS_L_STAT_PRS n) = true → linkEnabled s n = true → lstate t n = 2) ∧
      (∀ p q, p < 32 → s.pow.lowFreq = false → s.port p = some q →
        let n := q.acc + 4000000 * 2 ^ s.get (F.FL_CTRL_RATE p)
        t.port p = some (if q.stage ≠ .sending then q else if q.lead * 10 ^ 6 < s.get (F.FL_CPL_DE_LEAD p) * 2 ^ 24 then { q with lead := q.lead + 1 }
          else { q with acc := n % 2 ^ 32, half := q.half + n / 2 ^ 32 })) ∧ t.tb = (if s.pow.lowFreq then s.tb + 512 * 2 ^ 24
      else s.tb + ((2 ^ 24 : Int) + toSigned 16 (s.get F.CAS_TRIM_TRIM)).toNat) % 2 ^ 88)

/-- The reset state the spec gives: a cold reset held (Table 17.2), with every register word at the reset value of its table (R353 and the register tables), both
memories as the canonical form has them, nothing waiting, and no transaction, letter or fault; the timers of Table 15.6 and the supply set point of Table 3.7 at
their values. Where the spec states no reset value the model's stands: log entries 9 to 11. The model's choices that this rests on: log entries 10, 11 and 12. -/
def Obligations.ResetStateIsAsGiven : Prop :=
  State.reset.Inv ∧ State.reset.pow.phase = .coldHold ∧ State.reset.pending = [] ∧ State.reset.cores.length = 65 ∧ (∀ a, State.reset.reg a = resetWord a) ∧
  (∀ a, State.reset.byte a = 0#8) ∧ State.reset.gate.opened = [] ∧ State.reset.ledg.txns = [] ∧ State.reset.flt.dayQ = [] ∧ State.reset.twp.stage = .idle ∧
  (∀ c, c < 65 → State.reset.get (F.SRT_STAT_STATE c) = stStopped ∧ State.reset.flag (F.SRT_CTRL_RUN c) = false) ∧
  (∀ u, u < 16 → State.reset.get (F.TMR_TOP_TOP u) = 0xFFFFFFFF ∧ State.reset.get (F.TMR_CMPA_CMP u) = 0xFFFFFFFF ∧ State.reset.get (F.TMR_CMPB_CMP u) = 0xFFFFFFFF ∧
    State.reset.flag (F.TMR_CTRL_RUN u) = false) ∧
  State.reset.flag F.SYS_RST_STAT_POR = true ∧ State.reset.flag F.GATE_OBX_CTRL_BELL_EN = true ∧ State.reset.safe = false ∧
  State.reset.get F.PACE_VCORE_SETPOINT = 0x5A ∧ State.reset.get F.PACE_VCORE_EFF_CAP = 0x5A ∧ State.reset.Shape

/-- Every step keeps the shape of the machine: the number of its units, the room of its event queues, at most 16 transactions open, and traps at most two deep (R69,
R225, R236, R244). The model's choices that this rests on: log entry 11. -/
def Obligations.EveryStepKeepsTheShape : Prop :=
  ∀ (s t : State), s.Shape → step s = .next t → t.Shape

/-- Every step keeps the canonical form of both maps: the registers and the memory list no address twice, rising, and nothing that reads as an unlisted address does. The
model's choices that this rests on: log entry 4. -/
def Obligations.EveryStepKeepsTheForm : Prop :=
  ∀ (s t : State), s.Inv → step s = .next t → t.Inv
end

