-- ==== Sys2Proof/Laws/Maps.lean ====
section
/-!
SUPPORT. Sparse maps: a read after a write, and the canonical form that every write keeps.
-/

namespace Sys2Proof.Machine

section maps
variable {α : Type}

theorem mapGet_mapIns_self (d : Nat → α) (m : List (Nat × α)) (k : Nat) (v : α) : mapGet d (mapIns k v m) k = v := by
  induction m with
  | nil => simp [mapIns, mapGet]
  | cons e t ih =>
    obtain ⟨a, w⟩ := e
    simp only [mapIns]
    split
    · simp [mapGet]
    · split
      · simp [mapGet]
      · rename_i h; simp [mapGet, h, ih]

theorem mapGet_mapIns_ne (d : Nat → α) (m : List (Nat × α)) {k j : Nat} (v : α) (h : k ≠ j) :
    mapGet d (mapIns k v m) j = mapGet d m j := by
  induction m with
  | nil => simp [mapIns, mapGet, h]
  | cons e t ih =>
    obtain ⟨a, w⟩ := e
    simp only [mapIns]
    split
    · simp [mapGet, h]
    · split
      · rename_i ha; subst ha; simp [mapGet, h]
      · simp [mapGet, ih]

theorem mapGet_mapDel_self (d : Nat → α) (m : List (Nat × α)) (k : Nat) : mapGet d (mapDel k m) k = d k := by
  induction m with
  | nil => rfl
  | cons e t ih =>
    obtain ⟨a, w⟩ := e
    simp only [mapDel, List.filter_cons] at ih ⊢
    split
    · rename_i h; simp only [bne_iff_ne, ne_eq] at h; simp [mapGet, h, ih]
    · exact ih

theorem mapGet_mapDel_ne (d : Nat → α) (m : List (Nat × α)) {k j : Nat} (h : k ≠ j) : mapGet d (mapDel k m) j = mapGet d m j := by
  induction m with
  | nil => rfl
  | cons e t ih =>
    obtain ⟨a, w⟩ := e
    simp only [mapDel, List.filter_cons] at ih ⊢
    split
    · simp [mapGet, ih]
    · rename_i hk
      have : a = k := by simpa using hk
      subst this
      simp [mapGet, h, ih]

variable [DecidableEq α]

/-- A read after a write to the same key. -/
@[simp] theorem mapGet_mapSet_self (d : Nat → α) (m : List (Nat × α)) (k : Nat) (v : α) : mapGet d (mapSet d m k v) k = v := by
  unfold mapSet
  split
  · rename_i h; rw [mapGet_mapDel_self, h]
  · exact mapGet_mapIns_self d m k v

/-- A write leaves every other key alone. -/
theorem mapGet_mapSet_ne (d : Nat → α) (m : List (Nat × α)) {k j : Nat} (v : α) (h : k ≠ j) :
    mapGet d (mapSet d m k v) j = mapGet d m j := by
  unfold mapSet
  split
  · exact mapGet_mapDel_ne d m h
  · exact mapGet_mapIns_ne d m v h

theorem mapGet_mapSet (d : Nat → α) (m : List (Nat × α)) (k j : Nat) (v : α) :
    mapGet d (mapSet d m k v) j = if k = j then v else mapGet d m j := by
  split
  · rename_i h; subst h; simp
  · rename_i h; exact mapGet_mapSet_ne d m v h

/-- The canonical form as one statement about pairs and one about entries. -/
theorem mapWf_iff (d : Nat → α) (m : List (Nat × α)) :
    mapWf d m = true ↔ m.Pairwise (fun p q => p.1 < q.1) ∧ ∀ p ∈ m, p.2 ≠ d p.1 := by
  induction m with
  | nil => simp [mapWf]
  | cons e t ih =>
    obtain ⟨a, v⟩ := e
    cases t with
    | nil => simp [mapWf]
    | cons f t =>
      obtain ⟨b, w⟩ := f
      simp only [mapWf, Bool.and_eq_true, decide_eq_true_eq, ih]
      constructor
      · rintro ⟨⟨h1, h2⟩, h3, h4⟩
        refine ⟨List.pairwise_cons.mpr ⟨?_, h3⟩, ?_⟩
        · intro p hp
          rcases List.mem_cons.mp hp with rfl | hp
          · exact h1
          · exact Nat.lt_trans h1 ((List.pairwise_cons.mp h3).1 p hp)
        · intro p hp
          rcases List.mem_cons.mp hp with rfl | hp
          · exact h2
          · exact h4 p hp
      · rintro ⟨h1, h2⟩
        obtain ⟨h3, h4⟩ := List.pairwise_cons.mp h1
        exact ⟨⟨h3 (b, w) (by simp), h2 (a, v) (by simp)⟩, h4, fun p hp => h2 p (List.mem_cons_of_mem _ hp)⟩

omit [DecidableEq α] in
theorem mem_mapIns {p : Nat × α} {k : Nat} {v : α} {m : List (Nat × α)} (h : p ∈ mapIns k v m) : p = (k, v) ∨ p ∈ m := by
  induction m with
  | nil => simpa [mapIns] using h
  | cons e t ih =>
    obtain ⟨a, w⟩ := e
    simp only [mapIns] at h
    split at h
    · simpa using h
    · split at h
      · rcases List.mem_cons.mp h with h | h
        · exact .inl h
        · exact .inr (List.mem_cons_of_mem _ h)
      · rcases List.mem_cons.mp h with h | h
        · exact .inr (by simp [h])
        · rcases ih h with h | h
          · exact .inl h
          · exact .inr (List.mem_cons_of_mem _ h)

omit [DecidableEq α] in
theorem pairwise_mapIns {k : Nat} {v : α} {m : List (Nat × α)} (h : m.Pairwise (fun p q => p.1 < q.1)) :
    (mapIns k v m).Pairwise (fun p q => p.1 < q.1) := by
  induction m with
  | nil => simp [mapIns]
  | cons e t ih =>
    obtain ⟨a, w⟩ := e
    obtain ⟨h1, h2⟩ := List.pairwise_cons.mp h
    simp only [mapIns]
    split
    · rename_i hk
      refine List.pairwise_cons.mpr ⟨?_, h⟩
      intro p hp
      rcases List.mem_cons.mp hp with rfl | hp
      · exact hk
      · exact Nat.lt_trans hk (h1 p hp)
    · split
      · rename_i _ ha
        subst ha
        exact List.pairwise_cons.mpr ⟨h1, h2⟩
      · rename_i h3 h4
        refine List.pairwise_cons.mpr ⟨?_, ih h2⟩
        intro p hp
        rcases mem_mapIns hp with rfl | hp
        · change a < k; omega
        · exact h1 p hp

/-- Inserting a value that is not the default keeps the canonical form. -/
theorem mapWf_mapIns {d : Nat → α} {m : List (Nat × α)} {k : Nat} {v : α} (h : mapWf d m = true) (hv : v ≠ d k) :
    mapWf d (mapIns k v m) = true := by
  rw [mapWf_iff] at h ⊢
  refine ⟨pairwise_mapIns h.1, ?_⟩
  intro p hp
  rcases mem_mapIns hp with rfl | hp
  · exact hv
  · exact h.2 p hp

/-- Taking entries out keeps the canonical form. -/
theorem mapWf_filter {d : Nat → α} {m : List (Nat × α)} (p : Nat × α → Bool) (h : mapWf d m = true) : mapWf d (m.filter p) = true := by
  rw [mapWf_iff] at h ⊢
  exact ⟨h.1.filter _, fun q hq => h.2 q (List.mem_of_mem_filter hq)⟩

/-- A write keeps the canonical form. -/
theorem mapWf_mapSet {d : Nat → α} {m : List (Nat × α)} (k : Nat) (v : α) (h : mapWf d m = true) : mapWf d (mapSet d m k v) = true := by
  unfold mapSet
  split
  · exact mapWf_filter _ h
  · rename_i hv; exact mapWf_mapIns h hv

end maps

end Sys2Proof.Machine
end

