-- ==== Sys2Proof/Laws/Registers.lean ====
section
/-!
SUPPORT. Register fields and bytes: what a write changes and what it leaves.
-/

namespace Sys2Proof.Machine

theorem bits_lt (n lo w : Nat) : bits n lo w < 2 ^ w := Nat.mod_lt _ (Nat.two_pow_pos w)

/-- Two numbers are equal when their bits are. -/
theorem bits_testBit (n lo w i : Nat) : (bits n lo w).testBit i = (decide (i < w) && n.testBit (i + lo)) := by
  unfold bits
  rw [Nat.testBit_mod_two_pow, Nat.testBit_div_two_pow]

/-- A field that is replaced: its bits are the new ones, the others stay. -/
theorem setBits_testBit (n lo w v i : Nat) :
    (setBits n lo w v).testBit i = if lo ≤ i ∧ i < lo + w then v.testBit (i - lo) else n.testBit i := by
  have key : setBits n lo w v = n / 2 ^ (lo + w) * 2 ^ (lo + w) + (v % 2 ^ w * 2 ^ lo + n % 2 ^ lo) := by
    unfold setBits bits
    have h1 : n / 2 ^ lo = n / 2 ^ lo / 2 ^ w * 2 ^ w + n / 2 ^ lo % 2 ^ w := by
      rw [Nat.mul_comm]; exact (Nat.div_add_mod _ _).symm
    have h2 : n = n / 2 ^ lo * 2 ^ lo + n % 2 ^ lo := by rw [Nat.mul_comm]; exact (Nat.div_add_mod _ _).symm
    have h3 : n / 2 ^ (lo + w) = n / 2 ^ lo / 2 ^ w := by rw [Nat.pow_add, Nat.div_div_eq_div_mul]
    have h4 : n / 2 ^ lo * 2 ^ lo = n / 2 ^ lo / 2 ^ w * 2 ^ (lo + w) + n / 2 ^ lo % 2 ^ w * 2 ^ lo := by
      conv => lhs; rw [h1]
      rw [Nat.add_mul, Nat.mul_assoc, ← Nat.pow_add, Nat.add_comm w lo]
    rw [h3]; omega
  have hb : n % 2 ^ lo < 2 ^ lo := Nat.mod_lt _ (Nat.two_pow_pos _)
  have hm : v % 2 ^ w * 2 ^ lo + n % 2 ^ lo < 2 ^ (lo + w) := by
    have hv : v % 2 ^ w < 2 ^ w := Nat.mod_lt _ (Nat.two_pow_pos _)
    calc v % 2 ^ w * 2 ^ lo + n % 2 ^ lo < v % 2 ^ w * 2 ^ lo + 2 ^ lo := by omega
      _ = (v % 2 ^ w + 1) * 2 ^ lo := by ring
      _ ≤ 2 ^ w * 2 ^ lo := Nat.mul_le_mul_right _ hv
      _ = 2 ^ (lo + w) := by rw [← Nat.pow_add, Nat.add_comm]
  rw [key, Nat.mul_comm _ (2 ^ (lo + w)), Nat.testBit_two_pow_mul_add _ hm]
  rw [Nat.mul_comm (v % 2 ^ w) (2 ^ lo), Nat.testBit_two_pow_mul_add _ hb]
  rw [Nat.testBit_mod_two_pow, Nat.testBit_mod_two_pow, Nat.testBit_div_two_pow]
  by_cases h1 : i < lo
  · have : ¬ (lo ≤ i ∧ i < lo + w) := by omega
    simp [h1, show i < lo + w by omega]
  · by_cases h2 : i < lo + w
    · simp [h1, h2, show lo ≤ i by omega, show i - lo < w by omega]
    · have : ¬ (lo ≤ i ∧ i < lo + w) := by omega
      simp [h2, show i - (lo + w) + (lo + w) = i by omega]

/-- The field that was written reads back. -/
theorem bits_setBits_self (n lo w v : Nat) : bits (setBits n lo w v) lo w = v % 2 ^ w := by
  apply Nat.eq_of_testBit_eq
  intro i
  rw [bits_testBit, setBits_testBit, Nat.testBit_mod_two_pow]
  by_cases h : i < w
  · simp [h, show i + lo < lo + w by omega]
  · simp [h]

/-- A field beside the one written is left. -/
theorem bits_setBits_disjoint (n lo w v lo' w' : Nat) (h : lo + w ≤ lo' ∨ lo' + w' ≤ lo) :
    bits (setBits n lo w v) lo' w' = bits n lo' w' := by
  apply Nat.eq_of_testBit_eq
  intro i
  rw [bits_testBit, bits_testBit, setBits_testBit]
  by_cases hi : i < w'
  · have : ¬ (lo ≤ i + lo' ∧ i + lo' < lo + w) := by omega
    simp [this]
  · simp [hi]

theorem setBits_lt (n lo w v m : Nat) (h : lo + w ≤ m) (hn : n < 2 ^ m) : setBits n lo w v < 2 ^ m := by
  apply Nat.lt_pow_two_of_testBit
  intro i hi
  rw [setBits_testBit]
  have : ¬ (lo ≤ i ∧ i < lo + w) := by omega
  simp only [this, if_false]
  exact Nat.testBit_lt_two_pow (Nat.lt_of_lt_of_le hn (Nat.pow_le_pow_right (by omega) hi))

/-! Words. -/

@[simp] theorem reg_setReg_self (s : State) (a : Nat) (v : Word) : (s.setReg a v).reg a = v := by simp [State.reg, State.setReg]
theorem reg_setReg_ne (s : State) {a b : Nat} (v : Word) (h : a ≠ b) : (s.setReg a v).reg b = s.reg b := by
  simp [State.reg, State.setReg, mapGet_mapSet_ne _ _ _ h]
theorem reg_setReg (s : State) (a b : Nat) (v : Word) : (s.setReg a v).reg b = if a = b then v else s.reg b := by
  simp [State.reg, State.setReg, mapGet_mapSet]

theorem reg_put_ne (s : State) (f : Fd) (v : Nat) {b : Nat} (h : f.addr ≠ b) : (s.put f v).reg b = s.reg b := reg_setReg_ne s _ h
theorem reg_mark_ne (s : State) (f : Fd) {b : Nat} (h : f.addr ≠ b) : (s.mark f).reg b = s.reg b := reg_put_ne s f 1 h
theorem reg_putB_ne (s : State) (f : Fd) (c : Bool) {b : Nat} (h : f.addr ≠ b) : (s.putB f c).reg b = s.reg b := reg_put_ne s f _ h
theorem reg_incSat_ne (s : State) (f : Fd) (n : Nat) {b : Nat} (h : f.addr ≠ b) : (s.incSat f n).reg b = s.reg b := reg_put_ne s f _ h
theorem reg_incWrap_ne (s : State) (f : Fd) (n : Nat) {b : Nat} (h : f.addr ≠ b) : (s.incWrap f n).reg b = s.reg b := reg_put_ne s f _ h

/-! Fields. -/

/-- A field that lies within its word. -/
def Fd.fits (f : Fd) : Prop := f.lo + f.w ≤ 32

theorem get_put_self (s : State) (f : Fd) (v : Nat) (h : f.lo + f.w ≤ 32) : (s.put f v).get f = v % 2 ^ f.w := by
  unfold State.get State.put
  rw [reg_setReg_self, BitVec.toNat_ofNat, Nat.mod_eq_of_lt (setBits_lt _ _ _ _ 32 h (s.reg f.addr).isLt), bits_setBits_self]

theorem get_put_other (s : State) (f g : Fd) (v : Nat) (h : f.lo + f.w ≤ 32)
    (hd : f.addr ≠ g.addr ∨ f.lo + f.w ≤ g.lo ∨ g.lo + g.w ≤ f.lo) : (s.put f v).get g = s.get g := by
  unfold State.get
  by_cases ha : f.addr = g.addr
  · rw [← ha]
    unfold State.put
    rw [reg_setReg_self, BitVec.toNat_ofNat, Nat.mod_eq_of_lt (setBits_lt _ _ _ _ 32 h (s.reg f.addr).isLt)]
    exact bits_setBits_disjoint _ _ _ _ _ _ (by tauto)
  · rw [reg_put_ne s f v ha]

theorem get_mark_other (s : State) (f g : Fd) (h : f.lo + f.w ≤ 32)
    (hd : f.addr ≠ g.addr ∨ f.lo + f.w ≤ g.lo ∨ g.lo + g.w ≤ f.lo) : (s.mark f).get g = s.get g := get_put_other s f g 1 h hd
theorem get_putB_other (s : State) (f g : Fd) (b : Bool) (h : f.lo + f.w ≤ 32)
    (hd : f.addr ≠ g.addr ∨ f.lo + f.w ≤ g.lo ∨ g.lo + g.w ≤ f.lo) : (s.putB f b).get g = s.get g := get_put_other s f g _ h hd
theorem get_incSat_other (s : State) (f g : Fd) (n : Nat) (h : f.lo + f.w ≤ 32)
    (hd : f.addr ≠ g.addr ∨ f.lo + f.w ≤ g.lo ∨ g.lo + g.w ≤ f.lo) : (s.incSat f n).get g = s.get g := get_put_other s f g _ h hd
theorem get_incWrap_other (s : State) (f g : Fd) (n : Nat) (h : f.lo + f.w ≤ 32)
    (hd : f.addr ≠ g.addr ∨ f.lo + f.w ≤ g.lo ∨ g.lo + g.w ≤ f.lo) : (s.incWrap f n).get g = s.get g := get_put_other s f g _ h hd

theorem flag_mark_self (s : State) (f : Fd) (h : f.lo + f.w ≤ 32) (hw : 0 < f.w) : (s.mark f).flag f = true := by
  have h2 : 1 % 2 ^ f.w = 1 := Nat.mod_eq_of_lt (Nat.one_lt_two_pow (by omega))
  simp [State.flag, State.mark, get_put_self s f 1 h, h2]

theorem flag_putB_self (s : State) (f : Fd) (b : Bool) (h : f.lo + f.w ≤ 32) (hw : 0 < f.w) : (s.putB f b).flag f = b := by
  have h2 : 1 % 2 ^ f.w = 1 := Nat.mod_eq_of_lt (Nat.one_lt_two_pow (by omega))
  cases b <;> simp [State.flag, State.putB, get_put_self s f _ h, b2n, h2]

theorem flag_put_zero (s : State) (f : Fd) (h : f.lo + f.w ≤ 32) : (s.put f 0).flag f = false := by
  simp [State.flag, get_put_self s f 0 h]

/-! Bytes. -/

@[simp] theorem byte_setByte_self (s : State) (a : Nat) (b : Byte) : (s.setByte a b).byte a = b := by simp [State.byte, State.setByte]
theorem byte_setByte_ne (s : State) {a c : Nat} (b : Byte) (h : a ≠ c) : (s.setByte a b).byte c = s.byte c := by
  simp [State.byte, State.setByte, mapGet_mapSet_ne _ _ _ h]

/-- A write of bytes leaves every byte outside them. -/
theorem byte_putBytes_out (a : Nat) (l : List Byte) (s : State) {c : Nat} (h : c < a ∨ a + l.length ≤ c) :
    (putBytes a l s).byte c = s.byte c := by
  induction l generalizing a s with
  | nil => rfl
  | cons b l ih =>
    simp only [List.length_cons] at h
    rw [putBytes, ih]
    · exact byte_setByte_ne s b (by omega)
    · omega

/-- A write of bytes puts each at its address. -/
theorem byte_putBytes_in (a : Nat) (l : List Byte) (s : State) (i : Nat) (h : i < l.length) :
    (putBytes a l s).byte (a + i) = l[i] := by
  induction l generalizing a s i with
  | nil => simp at h
  | cons b l ih =>
    rw [putBytes]
    cases i with
    | zero => rw [byte_putBytes_out _ _ _ (by omega)]; simp
    | succ i =>
      have := ih (a + 1) (s.setByte a b) i (by simpa using h)
      simpa [Nat.add_assoc, Nat.add_comm 1 i] using this

/-! The canonical form. -/

theorem Inv_setReg {s : State} (a : Nat) (v : Word) (h : s.Inv) : (s.setReg a v).Inv := ⟨mapWf_mapSet a v h.1, h.2⟩
theorem Inv_setByte {s : State} (a : Nat) (b : Byte) (h : s.Inv) : (s.setByte a b).Inv := ⟨h.1, mapWf_mapSet a b h.2⟩
theorem Inv_put {s : State} (f : Fd) (v : Nat) (h : s.Inv) : (s.put f v).Inv := Inv_setReg _ _ h
theorem Inv_putBytes {s : State} (a : Nat) (l : List Byte) (h : s.Inv) : (putBytes a l s).Inv := by
  induction l generalizing a s with
  | nil => exact h
  | cons b l ih => exact ih _ (Inv_setByte a b h)

/-! A state that differs from `s` elsewhere. -/

@[simp] theorem reg_mk (s : State) (a : Nat) (pending_ : List Instr) (mem_ : List (Nat × Byte)) (tb_ : Nat) (freeCtr_ : Nat) (rdata_ : Nat) (pace_ : Pace) (arbs_ : List Arb) (ledg_ : Ledger) (recs_ : Records) (flt_ : Faults) (gate_ : Gate) (cores_ : List Core) (chains_ : List Chain) (sources_ : List Source) (trend_ : Trend) (ports_ : List Port) (seq_ : Sequencer) (tmr_ : Timers) (links_ : List Link) (est_ : Estate) (host_ : HostPort) (twp_ : Twp) (tap_ : Tap) (parts_ : List Part) (rmap_ : RMap) (pow_ : Power) :
    (State.reg (State.mk pending_ s.regs mem_ tb_ freeCtr_ rdata_ pace_ arbs_ ledg_ recs_ flt_ gate_ cores_ chains_ sources_ trend_ ports_ seq_ tmr_ links_ est_ host_ twp_ tap_ parts_ rmap_ pow_) a) = State.reg s a := rfl
@[simp] theorem get_mk (s : State) (g : Fd) (pending_ : List Instr) (mem_ : List (Nat × Byte)) (tb_ : Nat) (freeCtr_ : Nat) (rdata_ : Nat) (pace_ : Pace) (arbs_ : List Arb) (ledg_ : Ledger) (recs_ : Records) (flt_ : Faults) (gate_ : Gate) (cores_ : List Core) (chains_ : List Chain) (sources_ : List Source) (trend_ : Trend) (ports_ : List Port) (seq_ : Sequencer) (tmr_ : Timers) (links_ : List Link) (est_ : Estate) (host_ : HostPort) (twp_ : Twp) (tap_ : Tap) (parts_ : List Part) (rmap_ : RMap) (pow_ : Power) :
    (State.get (State.mk pending_ s.regs mem_ tb_ freeCtr_ rdata_ pace_ arbs_ ledg_ recs_ flt_ gate_ cores_ chains_ sources_ trend_ ports_ seq_ tmr_ links_ est_ host_ twp_ tap_ parts_ rmap_ pow_) g) = State.get s g := rfl
@[simp] theorem flag_mk (s : State) (g : Fd) (pending_ : List Instr) (mem_ : List (Nat × Byte)) (tb_ : Nat) (freeCtr_ : Nat) (rdata_ : Nat) (pace_ : Pace) (arbs_ : List Arb) (ledg_ : Ledger) (recs_ : Records) (flt_ : Faults) (gate_ : Gate) (cores_ : List Core) (chains_ : List Chain) (sources_ : List Source) (trend_ : Trend) (ports_ : List Port) (seq_ : Sequencer) (tmr_ : Timers) (links_ : List Link) (est_ : Estate) (host_ : HostPort) (twp_ : Twp) (tap_ : Tap) (parts_ : List Part) (rmap_ : RMap) (pow_ : Power) :
    (State.flag (State.mk pending_ s.regs mem_ tb_ freeCtr_ rdata_ pace_ arbs_ ledg_ recs_ flt_ gate_ cores_ chains_ sources_ trend_ ports_ seq_ tmr_ links_ est_ host_ twp_ tap_ parts_ rmap_ pow_) g) = State.flag s g := rfl
@[simp] theorem byte_mk (s : State) (a : Nat) (pending_ : List Instr) (regs_ : List (Nat × BitVec 32)) (tb_ : Nat) (freeCtr_ : Nat) (rdata_ : Nat) (pace_ : Pace) (arbs_ : List Arb) (ledg_ : Ledger) (recs_ : Records) (flt_ : Faults) (gate_ : Gate) (cores_ : List Core) (chains_ : List Chain) (sources_ : List Source) (trend_ : Trend) (ports_ : List Port) (seq_ : Sequencer) (tmr_ : Timers) (links_ : List Link) (est_ : Estate) (host_ : HostPort) (twp_ : Twp) (tap_ : Tap) (parts_ : List Part) (rmap_ : RMap) (pow_ : Power) :
    (State.byte (State.mk pending_ regs_ s.mem tb_ freeCtr_ rdata_ pace_ arbs_ ledg_ recs_ flt_ gate_ cores_ chains_ sources_ trend_ ports_ seq_ tmr_ links_ est_ host_ twp_ tap_ parts_ rmap_ pow_) a) = State.byte s a := rfl
@[simp] theorem core_mk (s : State) (c : Nat) (pending_ : List Instr) (regs_ : List (Nat × BitVec 32)) (mem_ : List (Nat × Byte)) (tb_ : Nat) (freeCtr_ : Nat) (rdata_ : Nat) (pace_ : Pace) (arbs_ : List Arb) (ledg_ : Ledger) (recs_ : Records) (flt_ : Faults) (gate_ : Gate) (chains_ : List Chain) (sources_ : List Source) (trend_ : Trend) (ports_ : List Port) (seq_ : Sequencer) (tmr_ : Timers) (links_ : List Link) (est_ : Estate) (host_ : HostPort) (twp_ : Twp) (tap_ : Tap) (parts_ : List Part) (rmap_ : RMap) (pow_ : Power) :
    (State.core (State.mk pending_ regs_ mem_ tb_ freeCtr_ rdata_ pace_ arbs_ ledg_ recs_ flt_ gate_ s.cores chains_ sources_ trend_ ports_ seq_ tmr_ links_ est_ host_ twp_ tap_ parts_ rmap_ pow_) c) = State.core s c := rfl

/-! A field after a write of another field or of the same. -/

theorem flag_put_other (s : State) (f g : Fd) (v : Nat) (h : f.lo + f.w ≤ 32)
    (hd : f.addr ≠ g.addr ∨ f.lo + f.w ≤ g.lo ∨ g.lo + g.w ≤ f.lo) : (s.put f v).flag g = s.flag g := by
  simp only [State.flag, get_put_other s f g v h hd]
theorem flag_mark_other (s : State) (f g : Fd) (h : f.lo + f.w ≤ 32)
    (hd : f.addr ≠ g.addr ∨ f.lo + f.w ≤ g.lo ∨ g.lo + g.w ≤ f.lo) : (s.mark f).flag g = s.flag g := flag_put_other s f g 1 h hd
theorem flag_putB_other (s : State) (f g : Fd) (b : Bool) (h : f.lo + f.w ≤ 32)
    (hd : f.addr ≠ g.addr ∨ f.lo + f.w ≤ g.lo ∨ g.lo + g.w ≤ f.lo) : (s.putB f b).flag g = s.flag g := flag_put_other s f g _ h hd
theorem flag_incSat_other (s : State) (f g : Fd) (n : Nat) (h : f.lo + f.w ≤ 32)
    (hd : f.addr ≠ g.addr ∨ f.lo + f.w ≤ g.lo ∨ g.lo + g.w ≤ f.lo) : (s.incSat f n).flag g = s.flag g := flag_put_other s f g _ h hd
theorem flag_incWrap_other (s : State) (f g : Fd) (n : Nat) (h : f.lo + f.w ≤ 32)
    (hd : f.addr ≠ g.addr ∨ f.lo + f.w ≤ g.lo ∨ g.lo + g.w ≤ f.lo) : (s.incWrap f n).flag g = s.flag g := flag_put_other s f g _ h hd
theorem get_mark_self (s : State) (f : Fd) (h : f.lo + f.w ≤ 32) : (s.mark f).get f = 1 % 2 ^ f.w := get_put_self s f 1 h
theorem get_putB_self (s : State) (f : Fd) (b : Bool) (h : f.lo + f.w ≤ 32) : (s.putB f b).get f = b2n b % 2 ^ f.w := get_put_self s f _ h
theorem get_lt (s : State) (f : Fd) : s.get f < 2 ^ f.w := bits_lt _ _ _
theorem get_incWrap_self (s : State) (f : Fd) (n : Nat) (h : f.lo + f.w ≤ 32) : (s.incWrap f n).get f = (s.get f + n) % 2 ^ f.w := by
  unfold State.incWrap; rw [get_put_self s f _ h, Nat.mod_mod]
theorem get_incSat_self (s : State) (f : Fd) (n : Nat) (h : f.lo + f.w ≤ 32) : (s.incSat f n).get f = satTo (2 ^ f.w - 1) (s.get f + n) := by
  unfold State.incSat
  rw [get_put_self s f _ h]
  apply Nat.mod_eq_of_lt
  have := Nat.two_pow_pos f.w
  unfold satTo; split <;> omega
theorem get_setReg_ne (s : State) {a : Nat} (v : Word) (g : Fd) (h : a ≠ g.addr) : (s.setReg a v).get g = s.get g := by
  unfold State.get; rw [reg_setReg_ne s v h]
theorem flag_setReg_ne (s : State) {a : Nat} (v : Word) (g : Fd) (h : a ≠ g.addr) : (s.setReg a v).flag g = s.flag g := by
  unfold State.flag; rw [get_setReg_ne s v g h]
theorem get_setReg_self (s : State) (v : Word) (g : Fd) : (s.setReg g.addr v).get g = bits v.toNat g.lo g.w := by
  unfold State.get; rw [reg_setReg_self]

/-! What `Untouched` keeps. -/

theorem Untouched_refl (s : State) (l : List Nat) : Untouched s s l := ⟨fun _ _ => rfl, fun _ => rfl⟩
theorem Untouched_setReg {s t : State} {l : List Nat} (h : Untouched s t l) {a : Nat} (v : Word) (ha : a ∈ l) : Untouched s (t.setReg a v) l :=
  ⟨fun b hb => by rw [reg_setReg_ne t v (fun e => hb (by rw [← e]; exact ha)), h.1 b hb], fun b => h.2 b⟩
theorem Untouched_put {s t : State} {l : List Nat} (h : Untouched s t l) (f : Fd) (v : Nat) (ha : f.addr ∈ l) : Untouched s (t.put f v) l :=
  Untouched_setReg h _ ha
theorem Untouched_mark {s t : State} {l : List Nat} (h : Untouched s t l) (f : Fd) (ha : f.addr ∈ l) : Untouched s (t.mark f) l := Untouched_put h f 1 ha
theorem Untouched_putB {s t : State} {l : List Nat} (h : Untouched s t l) (f : Fd) (b : Bool) (ha : f.addr ∈ l) : Untouched s (t.putB f b) l :=
  Untouched_put h f _ ha
theorem Untouched_incSat {s t : State} {l : List Nat} (h : Untouched s t l) (f : Fd) (n : Nat) (ha : f.addr ∈ l) : Untouched s (t.incSat f n) l :=
  Untouched_put h f _ ha
theorem Untouched_incWrap {s t : State} {l : List Nat} (h : Untouched s t l) (f : Fd) (n : Nat) (ha : f.addr ∈ l) : Untouched s (t.incWrap f n) l :=
  Untouched_put h f _ ha
/-- A state with the same registers and bytes. -/
theorem Untouched_same {s t t' : State} {l : List Nat} (h : Untouched s t l) (hr : t'.regs = t.regs) (hm : t'.mem = t.mem) : Untouched s t' l :=
  ⟨fun b hb => by rw [show t'.reg b = t.reg b from by unfold State.reg; rw [hr], h.1 b hb],
   fun b => by rw [show t'.byte b = t.byte b from by unfold State.byte; rw [hm], h.2 b]⟩
theorem Untouched_mono {s t : State} {l l' : List Nat} (h : Untouched s t l) (hl : ∀ a ∈ l, a ∈ l') : Untouched s t l' :=
  ⟨fun b hb => h.1 b (fun e => hb (hl b e)), h.2⟩
theorem Untouched_trans {s t r : State} {l : List Nat} (h : Untouched s t l) (h2 : Untouched t r l) : Untouched s r l :=
  ⟨fun b hb => (h2.1 b hb).trans (h.1 b hb), fun b => (h2.2 b).trans (h.2 b)⟩

end Sys2Proof.Machine
end

