-- ==== Sys2Proof/Laws/RegWrite.lean ====
section
/-!
SUPPORT. What a register write by command does: once it takes place and R5 lets it through, it is the action of its register.
-/

namespace Sys2Proof.Machine

theorem findReg_range {a : Nat} {d : RegDef} {i : Nat} (h : findReg a = some (d, i)) : 0x10000000 ≤ a ∧ a < 0x10110000 := by
  unfold findReg at h
  split at h
  · cases h
  · omega

/-- A register write after LOGIC_OK goes straight to the register file. -/
theorem registerWrite_up {u : Fin 256} {a : Nat} {w : Word} {s : State} (h : Writes u a s) : registerWrite u.val a w s = regWrite u.val a w s := by
  unfold registerWrite
  simp only [h.1, Bool.not_true, Bool.false_eq_true, if_false]
  split
  · unfold portWord earlyBars; simp [h.2]
  · rfl

/-- The action of an accepted write, outside the banked registers and CAS_RA_CMD. -/
theorem registerWrite_act {u : Fin 256} {a : Nat} {w : Word} {s : State} {d : RegDef} {i : Nat} (h : Accepts u a w s) (hf : findReg a = some (d, i))
    (hm : mirrorOf a = none) (hb : isBanked a = false) (hr : a ≠ A.CAS_RA_CMD) :
    registerWrite u.val a w s =
      regAct u.val a (s.reg a).toNat w.toNat (fun s => s.setReg a (BitVec.ofNat 32 (plainWord d (s.reg a).toNat w.toNat))) s := by
  have hlt := (findReg_range hf).2
  rw [registerWrite_up h.1]
  have e : regWriteBase u.val a w s =
      regAct u.val a (s.reg a).toNat w.toNat (fun s => s.setReg a (BitVec.ofNat 32 (plainWord d (s.reg a).toNat w.toNat))) s := by
    unfold regWriteBase
    rw [if_neg (by omega), hm]
    simp [h.2, hf, hb, hr]
  unfold regWrite
  cases raChannel u.val with
  | none => exact e
  | some c => simp [hr, e]

/-- A refused write is recorded and does nothing else. -/
theorem registerWrite_refused {u : Fin 256} {a : Nat} {w : Word} {s : State} (h : Writes u a s) (hb : writeBarred a w s = true)
    (ho : 0x10110000 ≤ a → 0x10112000 ≤ a) (hm : mirrorOf a = none) : registerWrite u.val a w s = refuse u.val a s := by
  rw [registerWrite_up h]
  have e : regWriteBase u.val a w s = refuse u.val a s := by
    unfold regWriteBase
    rw [if_neg (by omega), hm]
    simp [hb]
  unfold regWrite
  cases raChannel u.val with
  | none => exact e
  | some c => simp [hb, e]

end Sys2Proof.Machine
end

