-- ==== Sys2Proof/Laws/RegRows.lean ====
section
/-!
SUPPORT. Where the registers that commands write lie: the row of each at its address, and the block and offset the address falls in.
-/

namespace Sys2Proof.Machine

set_option Elab.async false

/-- The row of SYS_DIAG. -/
def row_SYS_DIAG : RegDef := ⟨"SYS_DIAG", 0x10100000, 1, 0x0, 1, 0, [⟨15, 8, .ro, 0, .any⟩, ⟨1, 1, .w1c, 0, .any⟩, ⟨0, 0, .w1c, 0, .any⟩]⟩

theorem find_SYS_DIAG : findReg A.SYS_DIAG = some (row_SYS_DIAG, 0) ∧ mirrorOf A.SYS_DIAG = none ∧ isBanked A.SYS_DIAG = false := by decide +kernel

/-- The row of SYS_PM_LO. -/
def row_SYS_PM_LO : RegDef := ⟨"SYS_PM_LO", 0x10100040, 1, 0x0, 1, 0, [⟨31, 0, .ro, 0, .any⟩]⟩

theorem find_SYS_PM_LO : findReg A.SYS_PM_LO = some (row_SYS_PM_LO, 0) ∧ mirrorOf A.SYS_PM_LO = none ∧ isBanked A.SYS_PM_LO = false := by decide +kernel

/-- The row of SYS_RMAP_CTRL. -/
def row_SYS_RMAP_CTRL : RegDef := ⟨"SYS_RMAP_CTRL", 0x10100100, 1, 0x0, 1, 0, [⟨2, 0, .wo, 0, .rng 0 6⟩]⟩

theorem find_SYS_RMAP_CTRL : findReg A.SYS_RMAP_CTRL = some (row_SYS_RMAP_CTRL, 0) ∧ mirrorOf A.SYS_RMAP_CTRL = none ∧ isBanked A.SYS_RMAP_CTRL = false := by decide +kernel

/-- The row of SYS_RST. -/
def row_SYS_RST : RegDef := ⟨"SYS_RST", 0x10100400, 1, 0x0, 1, 0, [⟨15, 0, .wo, 0, .oneOf [0, 0xC0DE]⟩]⟩

theorem find_SYS_RST : findReg A.SYS_RST = some (row_SYS_RST, 0) ∧ mirrorOf A.SYS_RST = none ∧ isBanked A.SYS_RST = false := by decide +kernel

/-- The row of SYS_FSTORM. -/
def row_SYS_FSTORM : RegDef := ⟨"SYS_FSTORM", 0x10100504, 1, 0x0, 1, 0, [⟨23, 16, .ro, 0, .any⟩, ⟨15, 0, .rw, 0, .any⟩]⟩

theorem find_SYS_FSTORM : findReg A.SYS_FSTORM = some (row_SYS_FSTORM, 0) ∧ mirrorOf A.SYS_FSTORM = none ∧ isBanked A.SYS_FSTORM = false := by decide +kernel

/-- The row of SYS_FHELD. -/
def row_SYS_FHELD : RegDef := ⟨"SYS_FHELD", 0x10100510, 4, 0x4, 1, 0, [⟨31, 0, .w1c, 0, .any⟩]⟩

theorem find_SYS_FHELD : ∀ i : Fin 4, findReg (A.SYS_FHELD i) = some (row_SYS_FHELD, i.val) ∧ mirrorOf (A.SYS_FHELD i) = none ∧ isBanked (A.SYS_FHELD i) = false := by decide +kernel

/-- The row of SYS_FLT_PRI. -/
def row_SYS_FLT_PRI : RegDef := ⟨"SYS_FLT_PRI", 0x10103000, 128, 0x10, 1, 0, [⟨31, 31, .w1c, 0, .any⟩, ⟨27, 24, .ro, 0, .any⟩, ⟨23, 16, .ro, 0, .any⟩, ⟨15, 0, .ro, 0, .any⟩]⟩

theorem find_SYS_FLT_PRI : ∀ i : Fin 128, findReg (A.SYS_FLT_PRI i) = some (row_SYS_FLT_PRI, i.val) ∧ mirrorOf (A.SYS_FLT_PRI i) = none ∧ isBanked (A.SYS_FLT_PRI i) = false := by decide +kernel

/-- The row of SYS_FLT_SEC. -/
def row_SYS_FLT_SEC : RegDef := ⟨"SYS_FLT_SEC", 0x10103008, 128, 0x10, 1, 0, [⟨31, 31, .w1c, 0, .any⟩, ⟨27, 24, .ro, 0, .any⟩, ⟨23, 16, .ro, 0, .any⟩, ⟨15, 0, .ro, 0, .any⟩]⟩

theorem find_SYS_FLT_SEC : ∀ i : Fin 128, findReg (A.SYS_FLT_SEC i) = some (row_SYS_FLT_SEC, i.val) ∧ mirrorOf (A.SYS_FLT_SEC i) = none ∧ isBanked (A.SYS_FLT_SEC i) = false := by decide +kernel

/-- The row of PACE_POLICY. -/
def row_PACE_POLICY : RegDef := ⟨"PACE_POLICY", 0x1007c00c, 1, 0x0, 1, 0, [⟨21, 16, .rw, 4, .rng 4 0x3F⟩, ⟨15, 8, .rw, 0x5a, .rng 0 0x5A⟩, ⟨1, 0, .rw, 0, .rng 0 1⟩]⟩

theorem find_PACE_POLICY : findReg A.PACE_POLICY = some (row_PACE_POLICY, 0) ∧ mirrorOf A.PACE_POLICY = none ∧ isBanked A.PACE_POLICY = false := by decide +kernel

/-- The row of PACE_STAT. -/
def row_PACE_STAT : RegDef := ⟨"PACE_STAT", 0x1007c014, 1, 0x0, 1, 0, [⟨4, 4, .ro, 0, .any⟩, ⟨3, 3, .w1c, 0, .any⟩, ⟨2, 2, .w1c, 0, .any⟩, ⟨1, 1, .w1c, 0, .any⟩, ⟨0, 0, .ro, 0, .any⟩]⟩

theorem find_PACE_STAT : findReg A.PACE_STAT = some (row_PACE_STAT, 0) ∧ mirrorOf A.PACE_STAT = none ∧ isBanked A.PACE_STAT = false := by decide +kernel

/-- The row of PACE_TEMP_HI. -/
def row_PACE_TEMP_HI : RegDef := ⟨"PACE_TEMP_HI", 0x1007c01c, 1, 0x0, 1, 0, [⟨15, 0, .rw, 0x190, .any⟩]⟩

theorem find_PACE_TEMP_HI : findReg A.PACE_TEMP_HI = some (row_PACE_TEMP_HI, 0) ∧ mirrorOf A.PACE_TEMP_HI = none ∧ isBanked A.PACE_TEMP_HI = false := by decide +kernel

/-- The row of LEDG_STAT. -/
def row_LEDG_STAT : RegDef := ⟨"LEDG_STAT", 0x1007a000, 1, 0x0, 1, 0, [⟨6, 6, .w1c, 0, .any⟩, ⟨5, 5, .ro, 0, .any⟩, ⟨4, 4, .w1c, 0, .any⟩, ⟨3, 3, .w1c, 0, .any⟩, ⟨2, 2, .w1c, 0, .any⟩, ⟨1, 1, .w1c, 0, .any⟩, ⟨0, 0, .ro, 0, .any⟩]⟩

theorem find_LEDG_STAT : findReg A.LEDG_STAT = some (row_LEDG_STAT, 0) ∧ mirrorOf A.LEDG_STAT = none ∧ isBanked A.LEDG_STAT = false := by decide +kernel

/-- The row of LEDG_ECC. -/
def row_LEDG_ECC : RegDef := ⟨"LEDG_ECC", 0x1007a004, 1, 0x0, 1, 0, [⟨31, 16, .rw, 0, .any⟩, ⟨15, 0, .rw, 0, .any⟩]⟩

theorem find_LEDG_ECC : findReg A.LEDG_ECC = some (row_LEDG_ECC, 0) ∧ mirrorOf A.LEDG_ECC = none ∧ isBanked A.LEDG_ECC = false := by decide +kernel

/-- The row of PIGN_SCRUB. -/
def row_PIGN_SCRUB : RegDef := ⟨"PIGN_SCRUB", 0x1007b00c, 1, 0x0, 1, 0, [⟨7, 0, .rw, 1, .any⟩]⟩

theorem find_PIGN_SCRUB : findReg A.PIGN_SCRUB = some (row_PIGN_SCRUB, 0) ∧ mirrorOf A.PIGN_SCRUB = none ∧ isBanked A.PIGN_SCRUB = false := by decide +kernel

/-- The row of ARB_CFG. -/
def row_ARB_CFG : RegDef := ⟨"ARB_CFG", 0x10102000, 128, 0x8, 1, 0, [⟨14, 8, .rw, 1, .rng 1 64⟩, ⟨2, 0, .rw, 1, .rng 1 7⟩]⟩

theorem find_ARB_CFG : ∀ i : Fin 128, findReg (A.ARB_CFG i) = some (row_ARB_CFG, i.val) ∧ mirrorOf (A.ARB_CFG i) = none ∧ isBanked (A.ARB_CFG i) = false := by decide +kernel

/-- The row of ARB_MASK. -/
def row_ARB_MASK : RegDef := ⟨"ARB_MASK", 0x10102004, 128, 0x8, 1, 0, [⟨23, 0, .rw, 0, .any⟩]⟩

theorem find_ARB_MASK : ∀ i : Fin 128, findReg (A.ARB_MASK i) = some (row_ARB_MASK, i.val) ∧ mirrorOf (A.ARB_MASK i) = none ∧ isBanked (A.ARB_MASK i) = false := by decide +kernel

/-- The row of FL_CTRL. -/
def row_FL_CTRL : RegDef := ⟨"FL_CTRL", 0x10041000, 32, 0x1000, 1, 0, [⟨6, 4, .rwl, 3, .rng 0 5⟩, ⟨1, 1, .ro, 0, .any⟩, ⟨0, 0, .rw, 0, .any⟩]⟩

theorem find_FL_CTRL : ∀ i : Fin 32, findReg (A.FL_CTRL i) = some (row_FL_CTRL, i.val) ∧ mirrorOf (A.FL_CTRL i) = none ∧ isBanked (A.FL_CTRL i) = false := by decide +kernel

/-- The row of FL_LBCFG. -/
def row_FL_LBCFG : RegDef := ⟨"FL_LBCFG", 0x10041044, 32, 0x1000, 1, 0, [⟨23, 16, .rw, 4, .rng 1 64⟩, ⟨9, 0, .rw, 0x40, .rng 1 1023⟩]⟩

theorem find_FL_LBCFG : ∀ i : Fin 32, findReg (A.FL_LBCFG i) = some (row_FL_LBCFG, i.val) ∧ mirrorOf (A.FL_LBCFG i) = none ∧ isBanked (A.FL_LBCFG i) = false := by decide +kernel

/-- The row of FL_RCTRL. -/
def row_FL_RCTRL : RegDef := ⟨"FL_RCTRL", 0x1004107c, 32, 0x1000, 1, 0, [⟨0, 0, .wo, 0, .any⟩]⟩

theorem find_FL_RCTRL : ∀ i : Fin 32, findReg (A.FL_RCTRL i) = some (row_FL_RCTRL, i.val) ∧ mirrorOf (A.FL_RCTRL i) = none ∧ isBanked (A.FL_RCTRL i) = false := by decide +kernel

/-- The row of FL_MBOX. -/
def row_FL_MBOX : RegDef := ⟨"FL_MBOX", 0x10041080, 32, 0x1000, 1, 0, [⟨31, 30, .ro, 0, .any⟩, ⟨27, 24, .rw, 0, .oneOf [5, 0xA, 0xB, 0xC]⟩, ⟨21, 8, .rw, 0, .any⟩, ⟨7, 0, .rw, 0, .rng 0 0xEF⟩]⟩

theorem find_FL_MBOX : ∀ i : Fin 32, findReg (A.FL_MBOX i) = some (row_FL_MBOX, i.val) ∧ mirrorOf (A.FL_MBOX i) = none ∧ isBanked (A.FL_MBOX i) = false := by decide +kernel

/-- The row of FL_FENCE. -/
def row_FL_FENCE : RegDef := ⟨"FL_FENCE", 0x100410a0, 32, 0x1000, 8, 4, [⟨31, 31, .rw, 0, .any⟩, ⟨30, 29, .ro, 0, .any⟩, ⟨27, 14, .rw, 0, .any⟩, ⟨13, 0, .rw, 0, .any⟩]⟩

theorem find_FL_FENCE : ∀ i : Fin 32, ∀ j : Fin 8, findReg (A.FL_FENCE i j) = some (row_FL_FENCE, i.val) ∧ mirrorOf (A.FL_FENCE i j) = none ∧ isBanked (A.FL_FENCE i j) = false := by decide +kernel

/-- The row of TT_CTRL. -/
def row_TT_CTRL : RegDef := ⟨"TT_CTRL", 0x10079000, 1, 0x0, 1, 0, [⟨16, 16, .rw, 0, .any⟩, ⟨11, 8, .rw, 4, .rng 0 8⟩]⟩

theorem find_TT_CTRL : findReg A.TT_CTRL = some (row_TT_CTRL, 0) ∧ mirrorOf A.TT_CTRL = none ∧ isBanked A.TT_CTRL = false := by decide +kernel

/-- The row of TT_CMD. -/
def row_TT_CMD : RegDef := ⟨"TT_CMD", 0x10079004, 1, 0x0, 1, 0, [⟨1, 0, .wo, 0, .rng 0 2⟩]⟩

theorem find_TT_CMD : findReg A.TT_CMD = some (row_TT_CMD, 0) ∧ mirrorOf A.TT_CMD = none ∧ isBanked A.TT_CMD = false := by decide +kernel

/-- The row of TT_WDATA_HI. -/
def row_TT_WDATA_HI : RegDef := ⟨"TT_WDATA_HI", 0x10079020, 1, 0x0, 1, 0, [⟨31, 0, .wo, 0, .any⟩]⟩

theorem find_TT_WDATA_HI : findReg A.TT_WDATA_HI = some (row_TT_WDATA_HI, 0) ∧ mirrorOf A.TT_WDATA_HI = none ∧ isBanked A.TT_WDATA_HI = false := by decide +kernel

/-- The row of TT_RDATA_HI. -/
def row_TT_RDATA_HI : RegDef := ⟨"TT_RDATA_HI", 0x1007902c, 1, 0x0, 1, 0, [⟨31, 0, .ro, 0, .any⟩]⟩

theorem find_TT_RDATA_HI : findReg A.TT_RDATA_HI = some (row_TT_RDATA_HI, 0) ∧ mirrorOf A.TT_RDATA_HI = none ∧ isBanked A.TT_RDATA_HI = false := by decide +kernel

/-- The row of TT_EDIT_HI. -/
def row_TT_EDIT_HI : RegDef := ⟨"TT_EDIT_HI", 0x10079038, 1, 0x0, 1, 0, [⟨31, 0, .wo, 0, .any⟩]⟩

theorem find_TT_EDIT_HI : findReg A.TT_EDIT_HI = some (row_TT_EDIT_HI, 0) ∧ mirrorOf A.TT_EDIT_HI = none ∧ isBanked A.TT_EDIT_HI = false := by decide +kernel

/-- The row of FC_CTRL. -/
def row_FC_CTRL : RegDef := ⟨"FC_CTRL", 0x10061000, 16, 0x1000, 1, 0, [⟨8, 8, .rwl, 0, .any⟩, ⟨0, 0, .rw, 0, .any⟩]⟩

theorem find_FC_CTRL : ∀ i : Fin 16, findReg (A.FC_CTRL i) = some (row_FC_CTRL, i.val) ∧ mirrorOf (A.FC_CTRL i) = none ∧ isBanked (A.FC_CTRL i) = false := by decide +kernel

/-- The row of FC_SRC. -/
def row_FC_SRC : RegDef := ⟨"FC_SRC", 0x10061008, 16, 0x1000, 1, 0, [⟨15, 8, .rw, 0, .any⟩, ⟨3, 0, .rw, 0, .any⟩]⟩

theorem find_FC_SRC : ∀ i : Fin 16, findReg (A.FC_SRC i) = some (row_FC_SRC, i.val) ∧ mirrorOf (A.FC_SRC i) = none ∧ isBanked (A.FC_SRC i) = false := by decide +kernel

/-- The row of FC_MOD. -/
def row_FC_MOD : RegDef := ⟨"FC_MOD", 0x1006100c, 16, 0x1000, 1, 0, [⟨15, 8, .rw, 8, .any⟩, ⟨3, 3, .rw, 0, .any⟩, ⟨2, 1, .rw, 0, .any⟩, ⟨0, 0, .rw, 0, .any⟩]⟩

theorem find_FC_MOD : ∀ i : Fin 16, findReg (A.FC_MOD i) = some (row_FC_MOD, i.val) ∧ mirrorOf (A.FC_MOD i) = none ∧ isBanked (A.FC_MOD i) = false := by decide +kernel

/-- The row of FC_CDATA. -/
def row_FC_CDATA : RegDef := ⟨"FC_CDATA", 0x10061024, 16, 0x1000, 1, 0, [⟨23, 0, .rw, 0, .any⟩]⟩

theorem find_FC_CDATA : ∀ i : Fin 16, findReg (A.FC_CDATA i) = some (row_FC_CDATA, i.val) ∧ mirrorOf (A.FC_CDATA i) = none ∧ isBanked (A.FC_CDATA i) = false := by decide +kernel

/-- The row of FC_LASTV. -/
def row_FC_LASTV : RegDef := ⟨"FC_LASTV", 0x1006102c, 16, 0x1000, 1, 0, [⟨31, 24, .ro, 0, .any⟩, ⟨23, 0, .ro, 0, .any⟩]⟩

theorem find_FC_LASTV : ∀ i : Fin 16, findReg (A.FC_LASTV i) = some (row_FC_LASTV, i.val) ∧ mirrorOf (A.FC_LASTV i) = none ∧ isBanked (A.FC_LASTV i) = false := by decide +kernel

/-- The row of GATE_STAT. -/
def row_GATE_STAT : RegDef := ⟨"GATE_STAT", 0x10077000, 1, 0x0, 1, 0, [⟨6, 6, .w1c, 0, .any⟩, ⟨5, 5, .w1c, 0, .any⟩, ⟨4, 4, .w1c, 0, .any⟩, ⟨3, 3, .w1c, 0, .any⟩, ⟨2, 2, .w1c, 0, .any⟩, ⟨1, 1, .ro, 0, .any⟩, ⟨0, 0, .ro, 0, .any⟩]⟩

theorem find_GATE_STAT : findReg A.GATE_STAT = some (row_GATE_STAT, 0) ∧ mirrorOf A.GATE_STAT = none ∧ isBanked A.GATE_STAT = false := by decide +kernel

/-- The row of GATE_OPEN. -/
def row_GATE_OPEN : RegDef := ⟨"GATE_OPEN", 0x10077008, 1, 0x0, 1, 0, [⟨27, 16, .rw, 0xf00, .rng 1 0xF00⟩, ⟨11, 0, .ro, 0, .any⟩]⟩

theorem find_GATE_OPEN : findReg A.GATE_OPEN = some (row_GATE_OPEN, 0) ∧ mirrorOf A.GATE_OPEN = none ∧ isBanked A.GATE_OPEN = false := by decide +kernel

/-- The row of GATE_QUOTA. -/
def row_GATE_QUOTA : RegDef := ⟨"GATE_QUOTA", 0x10077010, 3, 0x8, 1, 0, [⟨31, 16, .rw, 0, .any⟩, ⟨15, 0, .rw, 0, .any⟩]⟩

theorem find_GATE_QUOTA : ∀ i : Fin 3, findReg (A.GATE_QUOTA i) = some (row_GATE_QUOTA, i.val) ∧ mirrorOf (A.GATE_QUOTA i) = none ∧ isBanked (A.GATE_QUOTA i) = false := by decide +kernel

/-- The row of GATE_SHARE. -/
def row_GATE_SHARE : RegDef := ⟨"GATE_SHARE", 0x10077014, 3, 0x8, 1, 0, [⟨15, 0, .rw, 0, .any⟩]⟩

theorem find_GATE_SHARE : ∀ i : Fin 3, findReg (A.GATE_SHARE i) = some (row_GATE_SHARE, i.val) ∧ mirrorOf (A.GATE_SHARE i) = none ∧ isBanked (A.GATE_SHARE i) = false := by decide +kernel

/-- The row of GATE_OBX_CTRL. -/
def row_GATE_OBX_CTRL : RegDef := ⟨"GATE_OBX_CTRL", 0x10077050, 1, 0x0, 1, 0, [⟨0, 0, .rw, 1, .any⟩]⟩

theorem find_GATE_OBX_CTRL : findReg A.GATE_OBX_CTRL = some (row_GATE_OBX_CTRL, 0) ∧ mirrorOf A.GATE_OBX_CTRL = none ∧ isBanked A.GATE_OBX_CTRL = false := by decide +kernel

/-- The row of GATE_OBX_POP. -/
def row_GATE_OBX_POP : RegDef := ⟨"GATE_OBX_POP", 0x10077064, 1, 0x0, 1, 0, [⟨19, 0, .wo, 0, .any⟩]⟩

theorem find_GATE_OBX_POP : findReg A.GATE_OBX_POP = some (row_GATE_OBX_POP, 0) ∧ mirrorOf A.GATE_OBX_POP = none ∧ isBanked A.GATE_OBX_POP = false := by decide +kernel

/-- The row of GATE_FRB. -/
def row_GATE_FRB : RegDef := ⟨"GATE_FRB", 0x10077100, 32, 0x4, 1, 0, [⟨31, 31, .rw, 0, .any⟩, ⟨15, 0, .rw, 0, .any⟩]⟩

theorem find_GATE_FRB : ∀ i : Fin 32, findReg (A.GATE_FRB i) = some (row_GATE_FRB, i.val) ∧ mirrorOf (A.GATE_FRB i) = none ∧ isBanked (A.GATE_FRB i) = false := by decide +kernel

/-- The row of SRT_CTRL. -/
def row_SRT_CTRL : RegDef := ⟨"SRT_CTRL", 0x10000000, 65, 0x1000, 1, 0, [⟨2, 2, .rw, 1, .any⟩, ⟨1, 1, .wo, 0, .any⟩, ⟨0, 0, .rw, 0, .any⟩]⟩

theorem find_SRT_CTRL : ∀ i : Fin 65, findReg (A.SRT_CTRL i) = some (row_SRT_CTRL, i.val) ∧ mirrorOf (A.SRT_CTRL i) = none ∧ isBanked (A.SRT_CTRL i) = false := by decide +kernel

/-- The row of SRT_MADDR. -/
def row_SRT_MADDR : RegDef := ⟨"SRT_MADDR", 0x10000024, 65, 0x1000, 1, 0, [⟨15, 0, .rw, 0, .outside 0x8000 0xFEFF⟩]⟩

theorem find_SRT_MADDR : ∀ i : Fin 65, findReg (A.SRT_MADDR i) = some (row_SRT_MADDR, i.val) ∧ mirrorOf (A.SRT_MADDR i) = none ∧ isBanked (A.SRT_MADDR i) = false := by decide +kernel

/-- The row of SRT_MDATA. -/
def row_SRT_MDATA : RegDef := ⟨"SRT_MDATA", 0x10000028, 65, 0x1000, 1, 0, [⟨7, 0, .rw, 0, .any⟩]⟩

theorem find_SRT_MDATA : ∀ i : Fin 65, findReg (A.SRT_MDATA i) = some (row_SRT_MDATA, i.val) ∧ mirrorOf (A.SRT_MDATA i) = none ∧ isBanked (A.SRT_MDATA i) = false := by decide +kernel

/-- The row of CAS_L_CTRL. -/
def row_CAS_L_CTRL : RegDef := ⟨"CAS_L_CTRL", 0x10071000, 4, 0x1000, 1, 0, [⟨0, 0, .rw, 0, .any⟩]⟩

theorem find_CAS_L_CTRL : ∀ i : Fin 4, findReg (A.CAS_L_CTRL i) = some (row_CAS_L_CTRL, i.val) ∧ mirrorOf (A.CAS_L_CTRL i) = none ∧ isBanked (A.CAS_L_CTRL i) = false := by decide +kernel

/-- The row of CAS_CMD. -/
def row_CAS_CMD : RegDef := ⟨"CAS_CMD", 0x10071810, 1, 0x0, 1, 0, [⟨1, 0, .wo, 0, .rng 0 2⟩]⟩

theorem find_CAS_CMD : findReg A.CAS_CMD = some (row_CAS_CMD, 0) ∧ mirrorOf A.CAS_CMD = none ∧ isBanked A.CAS_CMD = false := by decide +kernel

/-- The row of TMR_CTRL. -/
def row_TMR_CTRL : RegDef := ⟨"TMR_CTRL", 0x1007d000, 16, 0x40, 1, 0, [⟨13, 8, .rw, 0, .any⟩, ⟨7, 4, .rwl, 0, .any⟩, ⟨1, 1, .rw, 1, .any⟩, ⟨0, 0, .rw, 0, .any⟩]⟩

theorem find_TMR_CTRL : ∀ i : Fin 16, findReg (A.TMR_CTRL i) = some (row_TMR_CTRL, i.val) ∧ mirrorOf (A.TMR_CTRL i) = none ∧ isBanked (A.TMR_CTRL i) = false := by decide +kernel

/-- The row of TMR_TOP. -/
def row_TMR_TOP : RegDef := ⟨"TMR_TOP", 0x1007d00c, 16, 0x40, 1, 0, [⟨31, 0, .rw, 0xffffffff, .any⟩]⟩

theorem find_TMR_TOP : ∀ i : Fin 16, findReg (A.TMR_TOP i) = some (row_TMR_TOP, i.val) ∧ mirrorOf (A.TMR_TOP i) = none ∧ isBanked (A.TMR_TOP i) = false := by decide +kernel

/-- The row of TMR_CMPA. -/
def row_TMR_CMPA : RegDef := ⟨"TMR_CMPA", 0x1007d010, 16, 0x40, 1, 0, [⟨31, 0, .rw, 0xffffffff, .any⟩]⟩

theorem find_TMR_CMPA : ∀ i : Fin 16, findReg (A.TMR_CMPA i) = some (row_TMR_CMPA, i.val) ∧ mirrorOf (A.TMR_CMPA i) = none ∧ isBanked (A.TMR_CMPA i) = false := by decide +kernel

/-- The row of TMR_CMPB. -/
def row_TMR_CMPB : RegDef := ⟨"TMR_CMPB", 0x1007d014, 16, 0x40, 1, 0, [⟨31, 0, .rw, 0xffffffff, .any⟩]⟩

theorem find_TMR_CMPB : ∀ i : Fin 16, findReg (A.TMR_CMPB i) = some (row_TMR_CMPB, i.val) ∧ mirrorOf (A.TMR_CMPB i) = none ∧ isBanked (A.TMR_CMPB i) = false := by decide +kernel

/-- The row of TMR_CAPA. -/
def row_TMR_CAPA : RegDef := ⟨"TMR_CAPA", 0x1007d018, 16, 0x40, 1, 0, [⟨31, 0, .ro, 0, .any⟩]⟩

theorem find_TMR_CAPA : ∀ i : Fin 16, findReg (A.TMR_CAPA i) = some (row_TMR_CAPA, i.val) ∧ mirrorOf (A.TMR_CAPA i) = none ∧ isBanked (A.TMR_CAPA i) = false := by decide +kernel

/-- The row of TMR_CAPB. -/
def row_TMR_CAPB : RegDef := ⟨"TMR_CAPB", 0x1007d01c, 16, 0x40, 1, 0, [⟨31, 0, .ro, 0, .any⟩]⟩

theorem find_TMR_CAPB : ∀ i : Fin 16, findReg (A.TMR_CAPB i) = some (row_TMR_CAPB, i.val) ∧ mirrorOf (A.TMR_CAPB i) = none ∧ isBanked (A.TMR_CAPB i) = false := by decide +kernel

/-- The row of TMR_CMD. -/
def row_TMR_CMD : RegDef := ⟨"TMR_CMD", 0x1007d024, 16, 0x40, 1, 0, [⟨7, 6, .wo, 0, .rng 0 2⟩, ⟨5, 4, .wo, 0, .rng 0 2⟩, ⟨1, 1, .wo, 0, .any⟩, ⟨0, 0, .wo, 0, .any⟩]⟩

theorem find_TMR_CMD : ∀ i : Fin 16, findReg (A.TMR_CMD i) = some (row_TMR_CMD, i.val) ∧ mirrorOf (A.TMR_CMD i) = none ∧ isBanked (A.TMR_CMD i) = false := by decide +kernel

/-- The row of PWR_MODE. -/
def row_PWR_MODE : RegDef := ⟨"PWR_MODE", 0x10100200, 1, 0x0, 1, 0, [⟨1, 0, .rw, 0, .any⟩]⟩

theorem find_PWR_MODE : findReg A.PWR_MODE = some (row_PWR_MODE, 0) ∧ mirrorOf A.PWR_MODE = none ∧ isBanked A.PWR_MODE = false := by decide +kernel

/-- The row of PWR_WAKE. -/
def row_PWR_WAKE : RegDef := ⟨"PWR_WAKE", 0x10100210, 1, 0x0, 1, 0, [⟨8, 8, .rw, 0, .any⟩, ⟨7, 7, .rw, 0, .any⟩, ⟨6, 6, .rw, 0, .any⟩, ⟨5, 5, .rw, 0, .any⟩, ⟨4, 4, .rw, 0, .any⟩, ⟨3, 0, .rw, 0, .any⟩]⟩

theorem find_PWR_WAKE : findReg A.PWR_WAKE = some (row_PWR_WAKE, 0) ∧ mirrorOf A.PWR_WAKE = none ∧ isBanked A.PWR_WAKE = false := by decide +kernel

end Sys2Proof.Machine
end

