-- ==== Sys2Proof/Laws/State.lean ====
section
/-!
SUPPORT. What each update of the state leaves: one lemma for each field and update, and for the readings of registers and bytes.
-/

namespace Sys2Proof.Machine

/-! setReg -/

@[simp] theorem State.setReg_pending (s : State) (a : Nat) (v : Word) : (s.setReg a v).pending = s.pending := rfl
@[simp] theorem State.setReg_mem (s : State) (a : Nat) (v : Word) : (s.setReg a v).mem = s.mem := rfl
@[simp] theorem State.setReg_tb (s : State) (a : Nat) (v : Word) : (s.setReg a v).tb = s.tb := rfl
@[simp] theorem State.setReg_freeCtr (s : State) (a : Nat) (v : Word) : (s.setReg a v).freeCtr = s.freeCtr := rfl
@[simp] theorem State.setReg_rdata (s : State) (a : Nat) (v : Word) : (s.setReg a v).rdata = s.rdata := rfl
@[simp] theorem State.setReg_pace (s : State) (a : Nat) (v : Word) : (s.setReg a v).pace = s.pace := rfl
@[simp] theorem State.setReg_arbs (s : State) (a : Nat) (v : Word) : (s.setReg a v).arbs = s.arbs := rfl
@[simp] theorem State.setReg_ledg (s : State) (a : Nat) (v : Word) : (s.setReg a v).ledg = s.ledg := rfl
@[simp] theorem State.setReg_recs (s : State) (a : Nat) (v : Word) : (s.setReg a v).recs = s.recs := rfl
@[simp] theorem State.setReg_flt (s : State) (a : Nat) (v : Word) : (s.setReg a v).flt = s.flt := rfl
@[simp] theorem State.setReg_gate (s : State) (a : Nat) (v : Word) : (s.setReg a v).gate = s.gate := rfl
@[simp] theorem State.setReg_cores (s : State) (a : Nat) (v : Word) : (s.setReg a v).cores = s.cores := rfl
@[simp] theorem State.setReg_chains (s : State) (a : Nat) (v : Word) : (s.setReg a v).chains = s.chains := rfl
@[simp] theorem State.setReg_sources (s : State) (a : Nat) (v : Word) : (s.setReg a v).sources = s.sources := rfl
@[simp] theorem State.setReg_trend (s : State) (a : Nat) (v : Word) : (s.setReg a v).trend = s.trend := rfl
@[simp] theorem State.setReg_ports (s : State) (a : Nat) (v : Word) : (s.setReg a v).ports = s.ports := rfl
@[simp] theorem State.setReg_seq (s : State) (a : Nat) (v : Word) : (s.setReg a v).seq = s.seq := rfl
@[simp] theorem State.setReg_tmr (s : State) (a : Nat) (v : Word) : (s.setReg a v).tmr = s.tmr := rfl
@[simp] theorem State.setReg_links (s : State) (a : Nat) (v : Word) : (s.setReg a v).links = s.links := rfl
@[simp] theorem State.setReg_est (s : State) (a : Nat) (v : Word) : (s.setReg a v).est = s.est := rfl
@[simp] theorem State.setReg_host (s : State) (a : Nat) (v : Word) : (s.setReg a v).host = s.host := rfl
@[simp] theorem State.setReg_twp (s : State) (a : Nat) (v : Word) : (s.setReg a v).twp = s.twp := rfl
@[simp] theorem State.setReg_tap (s : State) (a : Nat) (v : Word) : (s.setReg a v).tap = s.tap := rfl
@[simp] theorem State.setReg_parts (s : State) (a : Nat) (v : Word) : (s.setReg a v).parts = s.parts := rfl
@[simp] theorem State.setReg_rmap (s : State) (a : Nat) (v : Word) : (s.setReg a v).rmap = s.rmap := rfl
@[simp] theorem State.setReg_pow (s : State) (a : Nat) (v : Word) : (s.setReg a v).pow = s.pow := rfl
@[simp] theorem State.setReg_byte (s : State) (a : Nat) (v : Word) (r : Nat) : (s.setReg a v).byte r = s.byte r := rfl

/-! put -/

@[simp] theorem State.put_pending (s : State) (g : Fd) (v : Nat) : (s.put g v).pending = s.pending := rfl
@[simp] theorem State.put_mem (s : State) (g : Fd) (v : Nat) : (s.put g v).mem = s.mem := rfl
@[simp] theorem State.put_tb (s : State) (g : Fd) (v : Nat) : (s.put g v).tb = s.tb := rfl
@[simp] theorem State.put_freeCtr (s : State) (g : Fd) (v : Nat) : (s.put g v).freeCtr = s.freeCtr := rfl
@[simp] theorem State.put_rdata (s : State) (g : Fd) (v : Nat) : (s.put g v).rdata = s.rdata := rfl
@[simp] theorem State.put_pace (s : State) (g : Fd) (v : Nat) : (s.put g v).pace = s.pace := rfl
@[simp] theorem State.put_arbs (s : State) (g : Fd) (v : Nat) : (s.put g v).arbs = s.arbs := rfl
@[simp] theorem State.put_ledg (s : State) (g : Fd) (v : Nat) : (s.put g v).ledg = s.ledg := rfl
@[simp] theorem State.put_recs (s : State) (g : Fd) (v : Nat) : (s.put g v).recs = s.recs := rfl
@[simp] theorem State.put_flt (s : State) (g : Fd) (v : Nat) : (s.put g v).flt = s.flt := rfl
@[simp] theorem State.put_gate (s : State) (g : Fd) (v : Nat) : (s.put g v).gate = s.gate := rfl
@[simp] theorem State.put_cores (s : State) (g : Fd) (v : Nat) : (s.put g v).cores = s.cores := rfl
@[simp] theorem State.put_chains (s : State) (g : Fd) (v : Nat) : (s.put g v).chains = s.chains := rfl
@[simp] theorem State.put_sources (s : State) (g : Fd) (v : Nat) : (s.put g v).sources = s.sources := rfl
@[simp] theorem State.put_trend (s : State) (g : Fd) (v : Nat) : (s.put g v).trend = s.trend := rfl
@[simp] theorem State.put_ports (s : State) (g : Fd) (v : Nat) : (s.put g v).ports = s.ports := rfl
@[simp] theorem State.put_seq (s : State) (g : Fd) (v : Nat) : (s.put g v).seq = s.seq := rfl
@[simp] theorem State.put_tmr (s : State) (g : Fd) (v : Nat) : (s.put g v).tmr = s.tmr := rfl
@[simp] theorem State.put_links (s : State) (g : Fd) (v : Nat) : (s.put g v).links = s.links := rfl
@[simp] theorem State.put_est (s : State) (g : Fd) (v : Nat) : (s.put g v).est = s.est := rfl
@[simp] theorem State.put_host (s : State) (g : Fd) (v : Nat) : (s.put g v).host = s.host := rfl
@[simp] theorem State.put_twp (s : State) (g : Fd) (v : Nat) : (s.put g v).twp = s.twp := rfl
@[simp] theorem State.put_tap (s : State) (g : Fd) (v : Nat) : (s.put g v).tap = s.tap := rfl
@[simp] theorem State.put_parts (s : State) (g : Fd) (v : Nat) : (s.put g v).parts = s.parts := rfl
@[simp] theorem State.put_rmap (s : State) (g : Fd) (v : Nat) : (s.put g v).rmap = s.rmap := rfl
@[simp] theorem State.put_pow (s : State) (g : Fd) (v : Nat) : (s.put g v).pow = s.pow := rfl
@[simp] theorem State.put_byte (s : State) (g : Fd) (v : Nat) (r : Nat) : (s.put g v).byte r = s.byte r := rfl

/-! mark -/

@[simp] theorem State.mark_pending (s : State) (g : Fd) : (s.mark g).pending = s.pending := rfl
@[simp] theorem State.mark_mem (s : State) (g : Fd) : (s.mark g).mem = s.mem := rfl
@[simp] theorem State.mark_tb (s : State) (g : Fd) : (s.mark g).tb = s.tb := rfl
@[simp] theorem State.mark_freeCtr (s : State) (g : Fd) : (s.mark g).freeCtr = s.freeCtr := rfl
@[simp] theorem State.mark_rdata (s : State) (g : Fd) : (s.mark g).rdata = s.rdata := rfl
@[simp] theorem State.mark_pace (s : State) (g : Fd) : (s.mark g).pace = s.pace := rfl
@[simp] theorem State.mark_arbs (s : State) (g : Fd) : (s.mark g).arbs = s.arbs := rfl
@[simp] theorem State.mark_ledg (s : State) (g : Fd) : (s.mark g).ledg = s.ledg := rfl
@[simp] theorem State.mark_recs (s : State) (g : Fd) : (s.mark g).recs = s.recs := rfl
@[simp] theorem State.mark_flt (s : State) (g : Fd) : (s.mark g).flt = s.flt := rfl
@[simp] theorem State.mark_gate (s : State) (g : Fd) : (s.mark g).gate = s.gate := rfl
@[simp] theorem State.mark_cores (s : State) (g : Fd) : (s.mark g).cores = s.cores := rfl
@[simp] theorem State.mark_chains (s : State) (g : Fd) : (s.mark g).chains = s.chains := rfl
@[simp] theorem State.mark_sources (s : State) (g : Fd) : (s.mark g).sources = s.sources := rfl
@[simp] theorem State.mark_trend (s : State) (g : Fd) : (s.mark g).trend = s.trend := rfl
@[simp] theorem State.mark_ports (s : State) (g : Fd) : (s.mark g).ports = s.ports := rfl
@[simp] theorem State.mark_seq (s : State) (g : Fd) : (s.mark g).seq = s.seq := rfl
@[simp] theorem State.mark_tmr (s : State) (g : Fd) : (s.mark g).tmr = s.tmr := rfl
@[simp] theorem State.mark_links (s : State) (g : Fd) : (s.mark g).links = s.links := rfl
@[simp] theorem State.mark_est (s : State) (g : Fd) : (s.mark g).est = s.est := rfl
@[simp] theorem State.mark_host (s : State) (g : Fd) : (s.mark g).host = s.host := rfl
@[simp] theorem State.mark_twp (s : State) (g : Fd) : (s.mark g).twp = s.twp := rfl
@[simp] theorem State.mark_tap (s : State) (g : Fd) : (s.mark g).tap = s.tap := rfl
@[simp] theorem State.mark_parts (s : State) (g : Fd) : (s.mark g).parts = s.parts := rfl
@[simp] theorem State.mark_rmap (s : State) (g : Fd) : (s.mark g).rmap = s.rmap := rfl
@[simp] theorem State.mark_pow (s : State) (g : Fd) : (s.mark g).pow = s.pow := rfl
@[simp] theorem State.mark_byte (s : State) (g : Fd) (r : Nat) : (s.mark g).byte r = s.byte r := rfl

/-! putB -/

@[simp] theorem State.putB_pending (s : State) (g : Fd) (b : Bool) : (s.putB g b).pending = s.pending := rfl
@[simp] theorem State.putB_mem (s : State) (g : Fd) (b : Bool) : (s.putB g b).mem = s.mem := rfl
@[simp] theorem State.putB_tb (s : State) (g : Fd) (b : Bool) : (s.putB g b).tb = s.tb := rfl
@[simp] theorem State.putB_freeCtr (s : State) (g : Fd) (b : Bool) : (s.putB g b).freeCtr = s.freeCtr := rfl
@[simp] theorem State.putB_rdata (s : State) (g : Fd) (b : Bool) : (s.putB g b).rdata = s.rdata := rfl
@[simp] theorem State.putB_pace (s : State) (g : Fd) (b : Bool) : (s.putB g b).pace = s.pace := rfl
@[simp] theorem State.putB_arbs (s : State) (g : Fd) (b : Bool) : (s.putB g b).arbs = s.arbs := rfl
@[simp] theorem State.putB_ledg (s : State) (g : Fd) (b : Bool) : (s.putB g b).ledg = s.ledg := rfl
@[simp] theorem State.putB_recs (s : State) (g : Fd) (b : Bool) : (s.putB g b).recs = s.recs := rfl
@[simp] theorem State.putB_flt (s : State) (g : Fd) (b : Bool) : (s.putB g b).flt = s.flt := rfl
@[simp] theorem State.putB_gate (s : State) (g : Fd) (b : Bool) : (s.putB g b).gate = s.gate := rfl
@[simp] theorem State.putB_cores (s : State) (g : Fd) (b : Bool) : (s.putB g b).cores = s.cores := rfl
@[simp] theorem State.putB_chains (s : State) (g : Fd) (b : Bool) : (s.putB g b).chains = s.chains := rfl
@[simp] theorem State.putB_sources (s : State) (g : Fd) (b : Bool) : (s.putB g b).sources = s.sources := rfl
@[simp] theorem State.putB_trend (s : State) (g : Fd) (b : Bool) : (s.putB g b).trend = s.trend := rfl
@[simp] theorem State.putB_ports (s : State) (g : Fd) (b : Bool) : (s.putB g b).ports = s.ports := rfl
@[simp] theorem State.putB_seq (s : State) (g : Fd) (b : Bool) : (s.putB g b).seq = s.seq := rfl
@[simp] theorem State.putB_tmr (s : State) (g : Fd) (b : Bool) : (s.putB g b).tmr = s.tmr := rfl
@[simp] theorem State.putB_links (s : State) (g : Fd) (b : Bool) : (s.putB g b).links = s.links := rfl
@[simp] theorem State.putB_est (s : State) (g : Fd) (b : Bool) : (s.putB g b).est = s.est := rfl
@[simp] theorem State.putB_host (s : State) (g : Fd) (b : Bool) : (s.putB g b).host = s.host := rfl
@[simp] theorem State.putB_twp (s : State) (g : Fd) (b : Bool) : (s.putB g b).twp = s.twp := rfl
@[simp] theorem State.putB_tap (s : State) (g : Fd) (b : Bool) : (s.putB g b).tap = s.tap := rfl
@[simp] theorem State.putB_parts (s : State) (g : Fd) (b : Bool) : (s.putB g b).parts = s.parts := rfl
@[simp] theorem State.putB_rmap (s : State) (g : Fd) (b : Bool) : (s.putB g b).rmap = s.rmap := rfl
@[simp] theorem State.putB_pow (s : State) (g : Fd) (b : Bool) : (s.putB g b).pow = s.pow := rfl
@[simp] theorem State.putB_byte (s : State) (g : Fd) (b : Bool) (r : Nat) : (s.putB g b).byte r = s.byte r := rfl

/-! incSat -/

@[simp] theorem State.incSat_pending (s : State) (g : Fd) (n : Nat) : (s.incSat g n).pending = s.pending := rfl
@[simp] theorem State.incSat_mem (s : State) (g : Fd) (n : Nat) : (s.incSat g n).mem = s.mem := rfl
@[simp] theorem State.incSat_tb (s : State) (g : Fd) (n : Nat) : (s.incSat g n).tb = s.tb := rfl
@[simp] theorem State.incSat_freeCtr (s : State) (g : Fd) (n : Nat) : (s.incSat g n).freeCtr = s.freeCtr := rfl
@[simp] theorem State.incSat_rdata (s : State) (g : Fd) (n : Nat) : (s.incSat g n).rdata = s.rdata := rfl
@[simp] theorem State.incSat_pace (s : State) (g : Fd) (n : Nat) : (s.incSat g n).pace = s.pace := rfl
@[simp] theorem State.incSat_arbs (s : State) (g : Fd) (n : Nat) : (s.incSat g n).arbs = s.arbs := rfl
@[simp] theorem State.incSat_ledg (s : State) (g : Fd) (n : Nat) : (s.incSat g n).ledg = s.ledg := rfl
@[simp] theorem State.incSat_recs (s : State) (g : Fd) (n : Nat) : (s.incSat g n).recs = s.recs := rfl
@[simp] theorem State.incSat_flt (s : State) (g : Fd) (n : Nat) : (s.incSat g n).flt = s.flt := rfl
@[simp] theorem State.incSat_gate (s : State) (g : Fd) (n : Nat) : (s.incSat g n).gate = s.gate := rfl
@[simp] theorem State.incSat_cores (s : State) (g : Fd) (n : Nat) : (s.incSat g n).cores = s.cores := rfl
@[simp] theorem State.incSat_chains (s : State) (g : Fd) (n : Nat) : (s.incSat g n).chains = s.chains := rfl
@[simp] theorem State.incSat_sources (s : State) (g : Fd) (n : Nat) : (s.incSat g n).sources = s.sources := rfl
@[simp] theorem State.incSat_trend (s : State) (g : Fd) (n : Nat) : (s.incSat g n).trend = s.trend := rfl
@[simp] theorem State.incSat_ports (s : State) (g : Fd) (n : Nat) : (s.incSat g n).ports = s.ports := rfl
@[simp] theorem State.incSat_seq (s : State) (g : Fd) (n : Nat) : (s.incSat g n).seq = s.seq := rfl
@[simp] theorem State.incSat_tmr (s : State) (g : Fd) (n : Nat) : (s.incSat g n).tmr = s.tmr := rfl
@[simp] theorem State.incSat_links (s : State) (g : Fd) (n : Nat) : (s.incSat g n).links = s.links := rfl
@[simp] theorem State.incSat_est (s : State) (g : Fd) (n : Nat) : (s.incSat g n).est = s.est := rfl
@[simp] theorem State.incSat_host (s : State) (g : Fd) (n : Nat) : (s.incSat g n).host = s.host := rfl
@[simp] theorem State.incSat_twp (s : State) (g : Fd) (n : Nat) : (s.incSat g n).twp = s.twp := rfl
@[simp] theorem State.incSat_tap (s : State) (g : Fd) (n : Nat) : (s.incSat g n).tap = s.tap := rfl
@[simp] theorem State.incSat_parts (s : State) (g : Fd) (n : Nat) : (s.incSat g n).parts = s.parts := rfl
@[simp] theorem State.incSat_rmap (s : State) (g : Fd) (n : Nat) : (s.incSat g n).rmap = s.rmap := rfl
@[simp] theorem State.incSat_pow (s : State) (g : Fd) (n : Nat) : (s.incSat g n).pow = s.pow := rfl
@[simp] theorem State.incSat_byte (s : State) (g : Fd) (n : Nat) (r : Nat) : (s.incSat g n).byte r = s.byte r := rfl

/-! incWrap -/

@[simp] theorem State.incWrap_pending (s : State) (g : Fd) (n : Nat) : (s.incWrap g n).pending = s.pending := rfl
@[simp] theorem State.incWrap_mem (s : State) (g : Fd) (n : Nat) : (s.incWrap g n).mem = s.mem := rfl
@[simp] theorem State.incWrap_tb (s : State) (g : Fd) (n : Nat) : (s.incWrap g n).tb = s.tb := rfl
@[simp] theorem State.incWrap_freeCtr (s : State) (g : Fd) (n : Nat) : (s.incWrap g n).freeCtr = s.freeCtr := rfl
@[simp] theorem State.incWrap_rdata (s : State) (g : Fd) (n : Nat) : (s.incWrap g n).rdata = s.rdata := rfl
@[simp] theorem State.incWrap_pace (s : State) (g : Fd) (n : Nat) : (s.incWrap g n).pace = s.pace := rfl
@[simp] theorem State.incWrap_arbs (s : State) (g : Fd) (n : Nat) : (s.incWrap g n).arbs = s.arbs := rfl
@[simp] theorem State.incWrap_ledg (s : State) (g : Fd) (n : Nat) : (s.incWrap g n).ledg = s.ledg := rfl
@[simp] theorem State.incWrap_recs (s : State) (g : Fd) (n : Nat) : (s.incWrap g n).recs = s.recs := rfl
@[simp] theorem State.incWrap_flt (s : State) (g : Fd) (n : Nat) : (s.incWrap g n).flt = s.flt := rfl
@[simp] theorem State.incWrap_gate (s : State) (g : Fd) (n : Nat) : (s.incWrap g n).gate = s.gate := rfl
@[simp] theorem State.incWrap_cores (s : State) (g : Fd) (n : Nat) : (s.incWrap g n).cores = s.cores := rfl
@[simp] theorem State.incWrap_chains (s : State) (g : Fd) (n : Nat) : (s.incWrap g n).chains = s.chains := rfl
@[simp] theorem State.incWrap_sources (s : State) (g : Fd) (n : Nat) : (s.incWrap g n).sources = s.sources := rfl
@[simp] theorem State.incWrap_trend (s : State) (g : Fd) (n : Nat) : (s.incWrap g n).trend = s.trend := rfl
@[simp] theorem State.incWrap_ports (s : State) (g : Fd) (n : Nat) : (s.incWrap g n).ports = s.ports := rfl
@[simp] theorem State.incWrap_seq (s : State) (g : Fd) (n : Nat) : (s.incWrap g n).seq = s.seq := rfl
@[simp] theorem State.incWrap_tmr (s : State) (g : Fd) (n : Nat) : (s.incWrap g n).tmr = s.tmr := rfl
@[simp] theorem State.incWrap_links (s : State) (g : Fd) (n : Nat) : (s.incWrap g n).links = s.links := rfl
@[simp] theorem State.incWrap_est (s : State) (g : Fd) (n : Nat) : (s.incWrap g n).est = s.est := rfl
@[simp] theorem State.incWrap_host (s : State) (g : Fd) (n : Nat) : (s.incWrap g n).host = s.host := rfl
@[simp] theorem State.incWrap_twp (s : State) (g : Fd) (n : Nat) : (s.incWrap g n).twp = s.twp := rfl
@[simp] theorem State.incWrap_tap (s : State) (g : Fd) (n : Nat) : (s.incWrap g n).tap = s.tap := rfl
@[simp] theorem State.incWrap_parts (s : State) (g : Fd) (n : Nat) : (s.incWrap g n).parts = s.parts := rfl
@[simp] theorem State.incWrap_rmap (s : State) (g : Fd) (n : Nat) : (s.incWrap g n).rmap = s.rmap := rfl
@[simp] theorem State.incWrap_pow (s : State) (g : Fd) (n : Nat) : (s.incWrap g n).pow = s.pow := rfl
@[simp] theorem State.incWrap_byte (s : State) (g : Fd) (n : Nat) (r : Nat) : (s.incWrap g n).byte r = s.byte r := rfl

/-! setByte -/

@[simp] theorem State.setByte_pending (s : State) (a : Nat) (b : Byte) : (s.setByte a b).pending = s.pending := rfl
@[simp] theorem State.setByte_regs (s : State) (a : Nat) (b : Byte) : (s.setByte a b).regs = s.regs := rfl
@[simp] theorem State.setByte_tb (s : State) (a : Nat) (b : Byte) : (s.setByte a b).tb = s.tb := rfl
@[simp] theorem State.setByte_freeCtr (s : State) (a : Nat) (b : Byte) : (s.setByte a b).freeCtr = s.freeCtr := rfl
@[simp] theorem State.setByte_rdata (s : State) (a : Nat) (b : Byte) : (s.setByte a b).rdata = s.rdata := rfl
@[simp] theorem State.setByte_pace (s : State) (a : Nat) (b : Byte) : (s.setByte a b).pace = s.pace := rfl
@[simp] theorem State.setByte_arbs (s : State) (a : Nat) (b : Byte) : (s.setByte a b).arbs = s.arbs := rfl
@[simp] theorem State.setByte_ledg (s : State) (a : Nat) (b : Byte) : (s.setByte a b).ledg = s.ledg := rfl
@[simp] theorem State.setByte_recs (s : State) (a : Nat) (b : Byte) : (s.setByte a b).recs = s.recs := rfl
@[simp] theorem State.setByte_flt (s : State) (a : Nat) (b : Byte) : (s.setByte a b).flt = s.flt := rfl
@[simp] theorem State.setByte_gate (s : State) (a : Nat) (b : Byte) : (s.setByte a b).gate = s.gate := rfl
@[simp] theorem State.setByte_cores (s : State) (a : Nat) (b : Byte) : (s.setByte a b).cores = s.cores := rfl
@[simp] theorem State.setByte_chains (s : State) (a : Nat) (b : Byte) : (s.setByte a b).chains = s.chains := rfl
@[simp] theorem State.setByte_sources (s : State) (a : Nat) (b : Byte) : (s.setByte a b).sources = s.sources := rfl
@[simp] theorem State.setByte_trend (s : State) (a : Nat) (b : Byte) : (s.setByte a b).trend = s.trend := rfl
@[simp] theorem State.setByte_ports (s : State) (a : Nat) (b : Byte) : (s.setByte a b).ports = s.ports := rfl
@[simp] theorem State.setByte_seq (s : State) (a : Nat) (b : Byte) : (s.setByte a b).seq = s.seq := rfl
@[simp] theorem State.setByte_tmr (s : State) (a : Nat) (b : Byte) : (s.setByte a b).tmr = s.tmr := rfl
@[simp] theorem State.setByte_links (s : State) (a : Nat) (b : Byte) : (s.setByte a b).links = s.links := rfl
@[simp] theorem State.setByte_est (s : State) (a : Nat) (b : Byte) : (s.setByte a b).est = s.est := rfl
@[simp] theorem State.setByte_host (s : State) (a : Nat) (b : Byte) : (s.setByte a b).host = s.host := rfl
@[simp] theorem State.setByte_twp (s : State) (a : Nat) (b : Byte) : (s.setByte a b).twp = s.twp := rfl
@[simp] theorem State.setByte_tap (s : State) (a : Nat) (b : Byte) : (s.setByte a b).tap = s.tap := rfl
@[simp] theorem State.setByte_parts (s : State) (a : Nat) (b : Byte) : (s.setByte a b).parts = s.parts := rfl
@[simp] theorem State.setByte_rmap (s : State) (a : Nat) (b : Byte) : (s.setByte a b).rmap = s.rmap := rfl
@[simp] theorem State.setByte_pow (s : State) (a : Nat) (b : Byte) : (s.setByte a b).pow = s.pow := rfl
@[simp] theorem State.setByte_reg (s : State) (a : Nat) (b : Byte) (r : Nat) : (s.setByte a b).reg r = s.reg r := rfl
@[simp] theorem State.setByte_get (s : State) (a : Nat) (b : Byte) (r : Fd) : (s.setByte a b).get r = s.get r := rfl
@[simp] theorem State.setByte_flag (s : State) (a : Nat) (b : Byte) (r : Fd) : (s.setByte a b).flag r = s.flag r := rfl

/-! modCore -/

@[simp] theorem State.modCore_pending (s : State) (c : Nat) (g : Core → Core) : (s.modCore c g).pending = s.pending := rfl
@[simp] theorem State.modCore_regs (s : State) (c : Nat) (g : Core → Core) : (s.modCore c g).regs = s.regs := rfl
@[simp] theorem State.modCore_mem (s : State) (c : Nat) (g : Core → Core) : (s.modCore c g).mem = s.mem := rfl
@[simp] theorem State.modCore_tb (s : State) (c : Nat) (g : Core → Core) : (s.modCore c g).tb = s.tb := rfl
@[simp] theorem State.modCore_freeCtr (s : State) (c : Nat) (g : Core → Core) : (s.modCore c g).freeCtr = s.freeCtr := rfl
@[simp] theorem State.modCore_rdata (s : State) (c : Nat) (g : Core → Core) : (s.modCore c g).rdata = s.rdata := rfl
@[simp] theorem State.modCore_pace (s : State) (c : Nat) (g : Core → Core) : (s.modCore c g).pace = s.pace := rfl
@[simp] theorem State.modCore_arbs (s : State) (c : Nat) (g : Core → Core) : (s.modCore c g).arbs = s.arbs := rfl
@[simp] theorem State.modCore_ledg (s : State) (c : Nat) (g : Core → Core) : (s.modCore c g).ledg = s.ledg := rfl
@[simp] theorem State.modCore_recs (s : State) (c : Nat) (g : Core → Core) : (s.modCore c g).recs = s.recs := rfl
@[simp] theorem State.modCore_flt (s : State) (c : Nat) (g : Core → Core) : (s.modCore c g).flt = s.flt := rfl
@[simp] theorem State.modCore_gate (s : State) (c : Nat) (g : Core → Core) : (s.modCore c g).gate = s.gate := rfl
@[simp] theorem State.modCore_chains (s : State) (c : Nat) (g : Core → Core) : (s.modCore c g).chains = s.chains := rfl
@[simp] theorem State.modCore_sources (s : State) (c : Nat) (g : Core → Core) : (s.modCore c g).sources = s.sources := rfl
@[simp] theorem State.modCore_trend (s : State) (c : Nat) (g : Core → Core) : (s.modCore c g).trend = s.trend := rfl
@[simp] theorem State.modCore_ports (s : State) (c : Nat) (g : Core → Core) : (s.modCore c g).ports = s.ports := rfl
@[simp] theorem State.modCore_seq (s : State) (c : Nat) (g : Core → Core) : (s.modCore c g).seq = s.seq := rfl
@[simp] theorem State.modCore_tmr (s : State) (c : Nat) (g : Core → Core) : (s.modCore c g).tmr = s.tmr := rfl
@[simp] theorem State.modCore_links (s : State) (c : Nat) (g : Core → Core) : (s.modCore c g).links = s.links := rfl
@[simp] theorem State.modCore_est (s : State) (c : Nat) (g : Core → Core) : (s.modCore c g).est = s.est := rfl
@[simp] theorem State.modCore_host (s : State) (c : Nat) (g : Core → Core) : (s.modCore c g).host = s.host := rfl
@[simp] theorem State.modCore_twp (s : State) (c : Nat) (g : Core → Core) : (s.modCore c g).twp = s.twp := rfl
@[simp] theorem State.modCore_tap (s : State) (c : Nat) (g : Core → Core) : (s.modCore c g).tap = s.tap := rfl
@[simp] theorem State.modCore_parts (s : State) (c : Nat) (g : Core → Core) : (s.modCore c g).parts = s.parts := rfl
@[simp] theorem State.modCore_rmap (s : State) (c : Nat) (g : Core → Core) : (s.modCore c g).rmap = s.rmap := rfl
@[simp] theorem State.modCore_pow (s : State) (c : Nat) (g : Core → Core) : (s.modCore c g).pow = s.pow := rfl
@[simp] theorem State.modCore_reg (s : State) (c : Nat) (g : Core → Core) (r : Nat) : (s.modCore c g).reg r = s.reg r := rfl
@[simp] theorem State.modCore_get (s : State) (c : Nat) (g : Core → Core) (r : Fd) : (s.modCore c g).get r = s.get r := rfl
@[simp] theorem State.modCore_flag (s : State) (c : Nat) (g : Core → Core) (r : Fd) : (s.modCore c g).flag r = s.flag r := rfl
@[simp] theorem State.modCore_byte (s : State) (c : Nat) (g : Core → Core) (r : Nat) : (s.modCore c g).byte r = s.byte r := rfl

/-! modLedg -/

@[simp] theorem State.modLedg_pending (s : State) (g : Ledger → Ledger) : (s.modLedg g).pending = s.pending := rfl
@[simp] theorem State.modLedg_regs (s : State) (g : Ledger → Ledger) : (s.modLedg g).regs = s.regs := rfl
@[simp] theorem State.modLedg_mem (s : State) (g : Ledger → Ledger) : (s.modLedg g).mem = s.mem := rfl
@[simp] theorem State.modLedg_tb (s : State) (g : Ledger → Ledger) : (s.modLedg g).tb = s.tb := rfl
@[simp] theorem State.modLedg_freeCtr (s : State) (g : Ledger → Ledger) : (s.modLedg g).freeCtr = s.freeCtr := rfl
@[simp] theorem State.modLedg_rdata (s : State) (g : Ledger → Ledger) : (s.modLedg g).rdata = s.rdata := rfl
@[simp] theorem State.modLedg_pace (s : State) (g : Ledger → Ledger) : (s.modLedg g).pace = s.pace := rfl
@[simp] theorem State.modLedg_arbs (s : State) (g : Ledger → Ledger) : (s.modLedg g).arbs = s.arbs := rfl
@[simp] theorem State.modLedg_recs (s : State) (g : Ledger → Ledger) : (s.modLedg g).recs = s.recs := rfl
@[simp] theorem State.modLedg_flt (s : State) (g : Ledger → Ledger) : (s.modLedg g).flt = s.flt := rfl
@[simp] theorem State.modLedg_gate (s : State) (g : Ledger → Ledger) : (s.modLedg g).gate = s.gate := rfl
@[simp] theorem State.modLedg_cores (s : State) (g : Ledger → Ledger) : (s.modLedg g).cores = s.cores := rfl
@[simp] theorem State.modLedg_chains (s : State) (g : Ledger → Ledger) : (s.modLedg g).chains = s.chains := rfl
@[simp] theorem State.modLedg_sources (s : State) (g : Ledger → Ledger) : (s.modLedg g).sources = s.sources := rfl
@[simp] theorem State.modLedg_trend (s : State) (g : Ledger → Ledger) : (s.modLedg g).trend = s.trend := rfl
@[simp] theorem State.modLedg_ports (s : State) (g : Ledger → Ledger) : (s.modLedg g).ports = s.ports := rfl
@[simp] theorem State.modLedg_seq (s : State) (g : Ledger → Ledger) : (s.modLedg g).seq = s.seq := rfl
@[simp] theorem State.modLedg_tmr (s : State) (g : Ledger → Ledger) : (s.modLedg g).tmr = s.tmr := rfl
@[simp] theorem State.modLedg_links (s : State) (g : Ledger → Ledger) : (s.modLedg g).links = s.links := rfl
@[simp] theorem State.modLedg_est (s : State) (g : Ledger → Ledger) : (s.modLedg g).est = s.est := rfl
@[simp] theorem State.modLedg_host (s : State) (g : Ledger → Ledger) : (s.modLedg g).host = s.host := rfl
@[simp] theorem State.modLedg_twp (s : State) (g : Ledger → Ledger) : (s.modLedg g).twp = s.twp := rfl
@[simp] theorem State.modLedg_tap (s : State) (g : Ledger → Ledger) : (s.modLedg g).tap = s.tap := rfl
@[simp] theorem State.modLedg_parts (s : State) (g : Ledger → Ledger) : (s.modLedg g).parts = s.parts := rfl
@[simp] theorem State.modLedg_rmap (s : State) (g : Ledger → Ledger) : (s.modLedg g).rmap = s.rmap := rfl
@[simp] theorem State.modLedg_pow (s : State) (g : Ledger → Ledger) : (s.modLedg g).pow = s.pow := rfl
@[simp] theorem State.modLedg_reg (s : State) (g : Ledger → Ledger) (r : Nat) : (s.modLedg g).reg r = s.reg r := rfl
@[simp] theorem State.modLedg_get (s : State) (g : Ledger → Ledger) (r : Fd) : (s.modLedg g).get r = s.get r := rfl
@[simp] theorem State.modLedg_flag (s : State) (g : Ledger → Ledger) (r : Fd) : (s.modLedg g).flag r = s.flag r := rfl
@[simp] theorem State.modLedg_byte (s : State) (g : Ledger → Ledger) (r : Nat) : (s.modLedg g).byte r = s.byte r := rfl

/-! modArb -/

@[simp] theorem State.modArb_pending (s : State) (b : Nat) (g : Arb → Arb) : (s.modArb b g).pending = s.pending := rfl
@[simp] theorem State.modArb_regs (s : State) (b : Nat) (g : Arb → Arb) : (s.modArb b g).regs = s.regs := rfl
@[simp] theorem State.modArb_mem (s : State) (b : Nat) (g : Arb → Arb) : (s.modArb b g).mem = s.mem := rfl
@[simp] theorem State.modArb_tb (s : State) (b : Nat) (g : Arb → Arb) : (s.modArb b g).tb = s.tb := rfl
@[simp] theorem State.modArb_freeCtr (s : State) (b : Nat) (g : Arb → Arb) : (s.modArb b g).freeCtr = s.freeCtr := rfl
@[simp] theorem State.modArb_rdata (s : State) (b : Nat) (g : Arb → Arb) : (s.modArb b g).rdata = s.rdata := rfl
@[simp] theorem State.modArb_pace (s : State) (b : Nat) (g : Arb → Arb) : (s.modArb b g).pace = s.pace := rfl
@[simp] theorem State.modArb_ledg (s : State) (b : Nat) (g : Arb → Arb) : (s.modArb b g).ledg = s.ledg := rfl
@[simp] theorem State.modArb_recs (s : State) (b : Nat) (g : Arb → Arb) : (s.modArb b g).recs = s.recs := rfl
@[simp] theorem State.modArb_flt (s : State) (b : Nat) (g : Arb → Arb) : (s.modArb b g).flt = s.flt := rfl
@[simp] theorem State.modArb_gate (s : State) (b : Nat) (g : Arb → Arb) : (s.modArb b g).gate = s.gate := rfl
@[simp] theorem State.modArb_cores (s : State) (b : Nat) (g : Arb → Arb) : (s.modArb b g).cores = s.cores := rfl
@[simp] theorem State.modArb_chains (s : State) (b : Nat) (g : Arb → Arb) : (s.modArb b g).chains = s.chains := rfl
@[simp] theorem State.modArb_sources (s : State) (b : Nat) (g : Arb → Arb) : (s.modArb b g).sources = s.sources := rfl
@[simp] theorem State.modArb_trend (s : State) (b : Nat) (g : Arb → Arb) : (s.modArb b g).trend = s.trend := rfl
@[simp] theorem State.modArb_ports (s : State) (b : Nat) (g : Arb → Arb) : (s.modArb b g).ports = s.ports := rfl
@[simp] theorem State.modArb_seq (s : State) (b : Nat) (g : Arb → Arb) : (s.modArb b g).seq = s.seq := rfl
@[simp] theorem State.modArb_tmr (s : State) (b : Nat) (g : Arb → Arb) : (s.modArb b g).tmr = s.tmr := rfl
@[simp] theorem State.modArb_links (s : State) (b : Nat) (g : Arb → Arb) : (s.modArb b g).links = s.links := rfl
@[simp] theorem State.modArb_est (s : State) (b : Nat) (g : Arb → Arb) : (s.modArb b g).est = s.est := rfl
@[simp] theorem State.modArb_host (s : State) (b : Nat) (g : Arb → Arb) : (s.modArb b g).host = s.host := rfl
@[simp] theorem State.modArb_twp (s : State) (b : Nat) (g : Arb → Arb) : (s.modArb b g).twp = s.twp := rfl
@[simp] theorem State.modArb_tap (s : State) (b : Nat) (g : Arb → Arb) : (s.modArb b g).tap = s.tap := rfl
@[simp] theorem State.modArb_parts (s : State) (b : Nat) (g : Arb → Arb) : (s.modArb b g).parts = s.parts := rfl
@[simp] theorem State.modArb_rmap (s : State) (b : Nat) (g : Arb → Arb) : (s.modArb b g).rmap = s.rmap := rfl
@[simp] theorem State.modArb_pow (s : State) (b : Nat) (g : Arb → Arb) : (s.modArb b g).pow = s.pow := rfl
@[simp] theorem State.modArb_reg (s : State) (b : Nat) (g : Arb → Arb) (r : Nat) : (s.modArb b g).reg r = s.reg r := rfl
@[simp] theorem State.modArb_get (s : State) (b : Nat) (g : Arb → Arb) (r : Fd) : (s.modArb b g).get r = s.get r := rfl
@[simp] theorem State.modArb_flag (s : State) (b : Nat) (g : Arb → Arb) (r : Fd) : (s.modArb b g).flag r = s.flag r := rfl
@[simp] theorem State.modArb_byte (s : State) (b : Nat) (g : Arb → Arb) (r : Nat) : (s.modArb b g).byte r = s.byte r := rfl

/-! modGate -/

@[simp] theorem State.modGate_pending (s : State) (g : Gate → Gate) : (s.modGate g).pending = s.pending := rfl
@[simp] theorem State.modGate_regs (s : State) (g : Gate → Gate) : (s.modGate g).regs = s.regs := rfl
@[simp] theorem State.modGate_mem (s : State) (g : Gate → Gate) : (s.modGate g).mem = s.mem := rfl
@[simp] theorem State.modGate_tb (s : State) (g : Gate → Gate) : (s.modGate g).tb = s.tb := rfl
@[simp] theorem State.modGate_freeCtr (s : State) (g : Gate → Gate) : (s.modGate g).freeCtr = s.freeCtr := rfl
@[simp] theorem State.modGate_rdata (s : State) (g : Gate → Gate) : (s.modGate g).rdata = s.rdata := rfl
@[simp] theorem State.modGate_pace (s : State) (g : Gate → Gate) : (s.modGate g).pace = s.pace := rfl
@[simp] theorem State.modGate_arbs (s : State) (g : Gate → Gate) : (s.modGate g).arbs = s.arbs := rfl
@[simp] theorem State.modGate_ledg (s : State) (g : Gate → Gate) : (s.modGate g).ledg = s.ledg := rfl
@[simp] theorem State.modGate_recs (s : State) (g : Gate → Gate) : (s.modGate g).recs = s.recs := rfl
@[simp] theorem State.modGate_flt (s : State) (g : Gate → Gate) : (s.modGate g).flt = s.flt := rfl
@[simp] theorem State.modGate_cores (s : State) (g : Gate → Gate) : (s.modGate g).cores = s.cores := rfl
@[simp] theorem State.modGate_chains (s : State) (g : Gate → Gate) : (s.modGate g).chains = s.chains := rfl
@[simp] theorem State.modGate_sources (s : State) (g : Gate → Gate) : (s.modGate g).sources = s.sources := rfl
@[simp] theorem State.modGate_trend (s : State) (g : Gate → Gate) : (s.modGate g).trend = s.trend := rfl
@[simp] theorem State.modGate_ports (s : State) (g : Gate → Gate) : (s.modGate g).ports = s.ports := rfl
@[simp] theorem State.modGate_seq (s : State) (g : Gate → Gate) : (s.modGate g).seq = s.seq := rfl
@[simp] theorem State.modGate_tmr (s : State) (g : Gate → Gate) : (s.modGate g).tmr = s.tmr := rfl
@[simp] theorem State.modGate_links (s : State) (g : Gate → Gate) : (s.modGate g).links = s.links := rfl
@[simp] theorem State.modGate_est (s : State) (g : Gate → Gate) : (s.modGate g).est = s.est := rfl
@[simp] theorem State.modGate_host (s : State) (g : Gate → Gate) : (s.modGate g).host = s.host := rfl
@[simp] theorem State.modGate_twp (s : State) (g : Gate → Gate) : (s.modGate g).twp = s.twp := rfl
@[simp] theorem State.modGate_tap (s : State) (g : Gate → Gate) : (s.modGate g).tap = s.tap := rfl
@[simp] theorem State.modGate_parts (s : State) (g : Gate → Gate) : (s.modGate g).parts = s.parts := rfl
@[simp] theorem State.modGate_rmap (s : State) (g : Gate → Gate) : (s.modGate g).rmap = s.rmap := rfl
@[simp] theorem State.modGate_pow (s : State) (g : Gate → Gate) : (s.modGate g).pow = s.pow := rfl
@[simp] theorem State.modGate_reg (s : State) (g : Gate → Gate) (r : Nat) : (s.modGate g).reg r = s.reg r := rfl
@[simp] theorem State.modGate_get (s : State) (g : Gate → Gate) (r : Fd) : (s.modGate g).get r = s.get r := rfl
@[simp] theorem State.modGate_flag (s : State) (g : Gate → Gate) (r : Fd) : (s.modGate g).flag r = s.flag r := rfl
@[simp] theorem State.modGate_byte (s : State) (g : Gate → Gate) (r : Nat) : (s.modGate g).byte r = s.byte r := rfl

/-! modChain -/

@[simp] theorem State.modChain_pending (s : State) (i : Nat) (g : Chain → Chain) : (s.modChain i g).pending = s.pending := rfl
@[simp] theorem State.modChain_regs (s : State) (i : Nat) (g : Chain → Chain) : (s.modChain i g).regs = s.regs := rfl
@[simp] theorem State.modChain_mem (s : State) (i : Nat) (g : Chain → Chain) : (s.modChain i g).mem = s.mem := rfl
@[simp] theorem State.modChain_tb (s : State) (i : Nat) (g : Chain → Chain) : (s.modChain i g).tb = s.tb := rfl
@[simp] theorem State.modChain_freeCtr (s : State) (i : Nat) (g : Chain → Chain) : (s.modChain i g).freeCtr = s.freeCtr := rfl
@[simp] theorem State.modChain_rdata (s : State) (i : Nat) (g : Chain → Chain) : (s.modChain i g).rdata = s.rdata := rfl
@[simp] theorem State.modChain_pace (s : State) (i : Nat) (g : Chain → Chain) : (s.modChain i g).pace = s.pace := rfl
@[simp] theorem State.modChain_arbs (s : State) (i : Nat) (g : Chain → Chain) : (s.modChain i g).arbs = s.arbs := rfl
@[simp] theorem State.modChain_ledg (s : State) (i : Nat) (g : Chain → Chain) : (s.modChain i g).ledg = s.ledg := rfl
@[simp] theorem State.modChain_recs (s : State) (i : Nat) (g : Chain → Chain) : (s.modChain i g).recs = s.recs := rfl
@[simp] theorem State.modChain_flt (s : State) (i : Nat) (g : Chain → Chain) : (s.modChain i g).flt = s.flt := rfl
@[simp] theorem State.modChain_gate (s : State) (i : Nat) (g : Chain → Chain) : (s.modChain i g).gate = s.gate := rfl
@[simp] theorem State.modChain_cores (s : State) (i : Nat) (g : Chain → Chain) : (s.modChain i g).cores = s.cores := rfl
@[simp] theorem State.modChain_sources (s : State) (i : Nat) (g : Chain → Chain) : (s.modChain i g).sources = s.sources := rfl
@[simp] theorem State.modChain_trend (s : State) (i : Nat) (g : Chain → Chain) : (s.modChain i g).trend = s.trend := rfl
@[simp] theorem State.modChain_ports (s : State) (i : Nat) (g : Chain → Chain) : (s.modChain i g).ports = s.ports := rfl
@[simp] theorem State.modChain_seq (s : State) (i : Nat) (g : Chain → Chain) : (s.modChain i g).seq = s.seq := rfl
@[simp] theorem State.modChain_tmr (s : State) (i : Nat) (g : Chain → Chain) : (s.modChain i g).tmr = s.tmr := rfl
@[simp] theorem State.modChain_links (s : State) (i : Nat) (g : Chain → Chain) : (s.modChain i g).links = s.links := rfl
@[simp] theorem State.modChain_est (s : State) (i : Nat) (g : Chain → Chain) : (s.modChain i g).est = s.est := rfl
@[simp] theorem State.modChain_host (s : State) (i : Nat) (g : Chain → Chain) : (s.modChain i g).host = s.host := rfl
@[simp] theorem State.modChain_twp (s : State) (i : Nat) (g : Chain → Chain) : (s.modChain i g).twp = s.twp := rfl
@[simp] theorem State.modChain_tap (s : State) (i : Nat) (g : Chain → Chain) : (s.modChain i g).tap = s.tap := rfl
@[simp] theorem State.modChain_parts (s : State) (i : Nat) (g : Chain → Chain) : (s.modChain i g).parts = s.parts := rfl
@[simp] theorem State.modChain_rmap (s : State) (i : Nat) (g : Chain → Chain) : (s.modChain i g).rmap = s.rmap := rfl
@[simp] theorem State.modChain_pow (s : State) (i : Nat) (g : Chain → Chain) : (s.modChain i g).pow = s.pow := rfl
@[simp] theorem State.modChain_reg (s : State) (i : Nat) (g : Chain → Chain) (r : Nat) : (s.modChain i g).reg r = s.reg r := rfl
@[simp] theorem State.modChain_get (s : State) (i : Nat) (g : Chain → Chain) (r : Fd) : (s.modChain i g).get r = s.get r := rfl
@[simp] theorem State.modChain_flag (s : State) (i : Nat) (g : Chain → Chain) (r : Fd) : (s.modChain i g).flag r = s.flag r := rfl
@[simp] theorem State.modChain_byte (s : State) (i : Nat) (g : Chain → Chain) (r : Nat) : (s.modChain i g).byte r = s.byte r := rfl

/-! modTrend -/

@[simp] theorem State.modTrend_pending (s : State) (g : Trend → Trend) : (s.modTrend g).pending = s.pending := rfl
@[simp] theorem State.modTrend_regs (s : State) (g : Trend → Trend) : (s.modTrend g).regs = s.regs := rfl
@[simp] theorem State.modTrend_mem (s : State) (g : Trend → Trend) : (s.modTrend g).mem = s.mem := rfl
@[simp] theorem State.modTrend_tb (s : State) (g : Trend → Trend) : (s.modTrend g).tb = s.tb := rfl
@[simp] theorem State.modTrend_freeCtr (s : State) (g : Trend → Trend) : (s.modTrend g).freeCtr = s.freeCtr := rfl
@[simp] theorem State.modTrend_rdata (s : State) (g : Trend → Trend) : (s.modTrend g).rdata = s.rdata := rfl
@[simp] theorem State.modTrend_pace (s : State) (g : Trend → Trend) : (s.modTrend g).pace = s.pace := rfl
@[simp] theorem State.modTrend_arbs (s : State) (g : Trend → Trend) : (s.modTrend g).arbs = s.arbs := rfl
@[simp] theorem State.modTrend_ledg (s : State) (g : Trend → Trend) : (s.modTrend g).ledg = s.ledg := rfl
@[simp] theorem State.modTrend_recs (s : State) (g : Trend → Trend) : (s.modTrend g).recs = s.recs := rfl
@[simp] theorem State.modTrend_flt (s : State) (g : Trend → Trend) : (s.modTrend g).flt = s.flt := rfl
@[simp] theorem State.modTrend_gate (s : State) (g : Trend → Trend) : (s.modTrend g).gate = s.gate := rfl
@[simp] theorem State.modTrend_cores (s : State) (g : Trend → Trend) : (s.modTrend g).cores = s.cores := rfl
@[simp] theorem State.modTrend_chains (s : State) (g : Trend → Trend) : (s.modTrend g).chains = s.chains := rfl
@[simp] theorem State.modTrend_sources (s : State) (g : Trend → Trend) : (s.modTrend g).sources = s.sources := rfl
@[simp] theorem State.modTrend_ports (s : State) (g : Trend → Trend) : (s.modTrend g).ports = s.ports := rfl
@[simp] theorem State.modTrend_seq (s : State) (g : Trend → Trend) : (s.modTrend g).seq = s.seq := rfl
@[simp] theorem State.modTrend_tmr (s : State) (g : Trend → Trend) : (s.modTrend g).tmr = s.tmr := rfl
@[simp] theorem State.modTrend_links (s : State) (g : Trend → Trend) : (s.modTrend g).links = s.links := rfl
@[simp] theorem State.modTrend_est (s : State) (g : Trend → Trend) : (s.modTrend g).est = s.est := rfl
@[simp] theorem State.modTrend_host (s : State) (g : Trend → Trend) : (s.modTrend g).host = s.host := rfl
@[simp] theorem State.modTrend_twp (s : State) (g : Trend → Trend) : (s.modTrend g).twp = s.twp := rfl
@[simp] theorem State.modTrend_tap (s : State) (g : Trend → Trend) : (s.modTrend g).tap = s.tap := rfl
@[simp] theorem State.modTrend_parts (s : State) (g : Trend → Trend) : (s.modTrend g).parts = s.parts := rfl
@[simp] theorem State.modTrend_rmap (s : State) (g : Trend → Trend) : (s.modTrend g).rmap = s.rmap := rfl
@[simp] theorem State.modTrend_pow (s : State) (g : Trend → Trend) : (s.modTrend g).pow = s.pow := rfl
@[simp] theorem State.modTrend_reg (s : State) (g : Trend → Trend) (r : Nat) : (s.modTrend g).reg r = s.reg r := rfl
@[simp] theorem State.modTrend_get (s : State) (g : Trend → Trend) (r : Fd) : (s.modTrend g).get r = s.get r := rfl
@[simp] theorem State.modTrend_flag (s : State) (g : Trend → Trend) (r : Fd) : (s.modTrend g).flag r = s.flag r := rfl
@[simp] theorem State.modTrend_byte (s : State) (g : Trend → Trend) (r : Nat) : (s.modTrend g).byte r = s.byte r := rfl

/-! modPort -/

@[simp] theorem State.modPort_pending (s : State) (p : Nat) (g : Port → Port) : (s.modPort p g).pending = s.pending := rfl
@[simp] theorem State.modPort_regs (s : State) (p : Nat) (g : Port → Port) : (s.modPort p g).regs = s.regs := rfl
@[simp] theorem State.modPort_mem (s : State) (p : Nat) (g : Port → Port) : (s.modPort p g).mem = s.mem := rfl
@[simp] theorem State.modPort_tb (s : State) (p : Nat) (g : Port → Port) : (s.modPort p g).tb = s.tb := rfl
@[simp] theorem State.modPort_freeCtr (s : State) (p : Nat) (g : Port → Port) : (s.modPort p g).freeCtr = s.freeCtr := rfl
@[simp] theorem State.modPort_rdata (s : State) (p : Nat) (g : Port → Port) : (s.modPort p g).rdata = s.rdata := rfl
@[simp] theorem State.modPort_pace (s : State) (p : Nat) (g : Port → Port) : (s.modPort p g).pace = s.pace := rfl
@[simp] theorem State.modPort_arbs (s : State) (p : Nat) (g : Port → Port) : (s.modPort p g).arbs = s.arbs := rfl
@[simp] theorem State.modPort_ledg (s : State) (p : Nat) (g : Port → Port) : (s.modPort p g).ledg = s.ledg := rfl
@[simp] theorem State.modPort_recs (s : State) (p : Nat) (g : Port → Port) : (s.modPort p g).recs = s.recs := rfl
@[simp] theorem State.modPort_flt (s : State) (p : Nat) (g : Port → Port) : (s.modPort p g).flt = s.flt := rfl
@[simp] theorem State.modPort_gate (s : State) (p : Nat) (g : Port → Port) : (s.modPort p g).gate = s.gate := rfl
@[simp] theorem State.modPort_cores (s : State) (p : Nat) (g : Port → Port) : (s.modPort p g).cores = s.cores := rfl
@[simp] theorem State.modPort_chains (s : State) (p : Nat) (g : Port → Port) : (s.modPort p g).chains = s.chains := rfl
@[simp] theorem State.modPort_sources (s : State) (p : Nat) (g : Port → Port) : (s.modPort p g).sources = s.sources := rfl
@[simp] theorem State.modPort_trend (s : State) (p : Nat) (g : Port → Port) : (s.modPort p g).trend = s.trend := rfl
@[simp] theorem State.modPort_seq (s : State) (p : Nat) (g : Port → Port) : (s.modPort p g).seq = s.seq := rfl
@[simp] theorem State.modPort_tmr (s : State) (p : Nat) (g : Port → Port) : (s.modPort p g).tmr = s.tmr := rfl
@[simp] theorem State.modPort_links (s : State) (p : Nat) (g : Port → Port) : (s.modPort p g).links = s.links := rfl
@[simp] theorem State.modPort_est (s : State) (p : Nat) (g : Port → Port) : (s.modPort p g).est = s.est := rfl
@[simp] theorem State.modPort_host (s : State) (p : Nat) (g : Port → Port) : (s.modPort p g).host = s.host := rfl
@[simp] theorem State.modPort_twp (s : State) (p : Nat) (g : Port → Port) : (s.modPort p g).twp = s.twp := rfl
@[simp] theorem State.modPort_tap (s : State) (p : Nat) (g : Port → Port) : (s.modPort p g).tap = s.tap := rfl
@[simp] theorem State.modPort_parts (s : State) (p : Nat) (g : Port → Port) : (s.modPort p g).parts = s.parts := rfl
@[simp] theorem State.modPort_rmap (s : State) (p : Nat) (g : Port → Port) : (s.modPort p g).rmap = s.rmap := rfl
@[simp] theorem State.modPort_pow (s : State) (p : Nat) (g : Port → Port) : (s.modPort p g).pow = s.pow := rfl
@[simp] theorem State.modPort_reg (s : State) (p : Nat) (g : Port → Port) (r : Nat) : (s.modPort p g).reg r = s.reg r := rfl
@[simp] theorem State.modPort_get (s : State) (p : Nat) (g : Port → Port) (r : Fd) : (s.modPort p g).get r = s.get r := rfl
@[simp] theorem State.modPort_flag (s : State) (p : Nat) (g : Port → Port) (r : Fd) : (s.modPort p g).flag r = s.flag r := rfl
@[simp] theorem State.modPort_byte (s : State) (p : Nat) (g : Port → Port) (r : Nat) : (s.modPort p g).byte r = s.byte r := rfl

/-! modSeq -/

@[simp] theorem State.modSeq_pending (s : State) (g : Sequencer → Sequencer) : (s.modSeq g).pending = s.pending := rfl
@[simp] theorem State.modSeq_regs (s : State) (g : Sequencer → Sequencer) : (s.modSeq g).regs = s.regs := rfl
@[simp] theorem State.modSeq_mem (s : State) (g : Sequencer → Sequencer) : (s.modSeq g).mem = s.mem := rfl
@[simp] theorem State.modSeq_tb (s : State) (g : Sequencer → Sequencer) : (s.modSeq g).tb = s.tb := rfl
@[simp] theorem State.modSeq_freeCtr (s : State) (g : Sequencer → Sequencer) : (s.modSeq g).freeCtr = s.freeCtr := rfl
@[simp] theorem State.modSeq_rdata (s : State) (g : Sequencer → Sequencer) : (s.modSeq g).rdata = s.rdata := rfl
@[simp] theorem State.modSeq_pace (s : State) (g : Sequencer → Sequencer) : (s.modSeq g).pace = s.pace := rfl
@[simp] theorem State.modSeq_arbs (s : State) (g : Sequencer → Sequencer) : (s.modSeq g).arbs = s.arbs := rfl
@[simp] theorem State.modSeq_ledg (s : State) (g : Sequencer → Sequencer) : (s.modSeq g).ledg = s.ledg := rfl
@[simp] theorem State.modSeq_recs (s : State) (g : Sequencer → Sequencer) : (s.modSeq g).recs = s.recs := rfl
@[simp] theorem State.modSeq_flt (s : State) (g : Sequencer → Sequencer) : (s.modSeq g).flt = s.flt := rfl
@[simp] theorem State.modSeq_gate (s : State) (g : Sequencer → Sequencer) : (s.modSeq g).gate = s.gate := rfl
@[simp] theorem State.modSeq_cores (s : State) (g : Sequencer → Sequencer) : (s.modSeq g).cores = s.cores := rfl
@[simp] theorem State.modSeq_chains (s : State) (g : Sequencer → Sequencer) : (s.modSeq g).chains = s.chains := rfl
@[simp] theorem State.modSeq_sources (s : State) (g : Sequencer → Sequencer) : (s.modSeq g).sources = s.sources := rfl
@[simp] theorem State.modSeq_trend (s : State) (g : Sequencer → Sequencer) : (s.modSeq g).trend = s.trend := rfl
@[simp] theorem State.modSeq_ports (s : State) (g : Sequencer → Sequencer) : (s.modSeq g).ports = s.ports := rfl
@[simp] theorem State.modSeq_tmr (s : State) (g : Sequencer → Sequencer) : (s.modSeq g).tmr = s.tmr := rfl
@[simp] theorem State.modSeq_links (s : State) (g : Sequencer → Sequencer) : (s.modSeq g).links = s.links := rfl
@[simp] theorem State.modSeq_est (s : State) (g : Sequencer → Sequencer) : (s.modSeq g).est = s.est := rfl
@[simp] theorem State.modSeq_host (s : State) (g : Sequencer → Sequencer) : (s.modSeq g).host = s.host := rfl
@[simp] theorem State.modSeq_twp (s : State) (g : Sequencer → Sequencer) : (s.modSeq g).twp = s.twp := rfl
@[simp] theorem State.modSeq_tap (s : State) (g : Sequencer → Sequencer) : (s.modSeq g).tap = s.tap := rfl
@[simp] theorem State.modSeq_parts (s : State) (g : Sequencer → Sequencer) : (s.modSeq g).parts = s.parts := rfl
@[simp] theorem State.modSeq_rmap (s : State) (g : Sequencer → Sequencer) : (s.modSeq g).rmap = s.rmap := rfl
@[simp] theorem State.modSeq_pow (s : State) (g : Sequencer → Sequencer) : (s.modSeq g).pow = s.pow := rfl
@[simp] theorem State.modSeq_reg (s : State) (g : Sequencer → Sequencer) (r : Nat) : (s.modSeq g).reg r = s.reg r := rfl
@[simp] theorem State.modSeq_get (s : State) (g : Sequencer → Sequencer) (r : Fd) : (s.modSeq g).get r = s.get r := rfl
@[simp] theorem State.modSeq_flag (s : State) (g : Sequencer → Sequencer) (r : Fd) : (s.modSeq g).flag r = s.flag r := rfl
@[simp] theorem State.modSeq_byte (s : State) (g : Sequencer → Sequencer) (r : Nat) : (s.modSeq g).byte r = s.byte r := rfl

/-! modPass -/

@[simp] theorem State.modPass_pending (s : State) (p : Nat) (g : Pass → Pass) : (s.modPass p g).pending = s.pending := rfl
@[simp] theorem State.modPass_regs (s : State) (p : Nat) (g : Pass → Pass) : (s.modPass p g).regs = s.regs := rfl
@[simp] theorem State.modPass_mem (s : State) (p : Nat) (g : Pass → Pass) : (s.modPass p g).mem = s.mem := rfl
@[simp] theorem State.modPass_tb (s : State) (p : Nat) (g : Pass → Pass) : (s.modPass p g).tb = s.tb := rfl
@[simp] theorem State.modPass_freeCtr (s : State) (p : Nat) (g : Pass → Pass) : (s.modPass p g).freeCtr = s.freeCtr := rfl
@[simp] theorem State.modPass_rdata (s : State) (p : Nat) (g : Pass → Pass) : (s.modPass p g).rdata = s.rdata := rfl
@[simp] theorem State.modPass_pace (s : State) (p : Nat) (g : Pass → Pass) : (s.modPass p g).pace = s.pace := rfl
@[simp] theorem State.modPass_arbs (s : State) (p : Nat) (g : Pass → Pass) : (s.modPass p g).arbs = s.arbs := rfl
@[simp] theorem State.modPass_ledg (s : State) (p : Nat) (g : Pass → Pass) : (s.modPass p g).ledg = s.ledg := rfl
@[simp] theorem State.modPass_recs (s : State) (p : Nat) (g : Pass → Pass) : (s.modPass p g).recs = s.recs := rfl
@[simp] theorem State.modPass_flt (s : State) (p : Nat) (g : Pass → Pass) : (s.modPass p g).flt = s.flt := rfl
@[simp] theorem State.modPass_gate (s : State) (p : Nat) (g : Pass → Pass) : (s.modPass p g).gate = s.gate := rfl
@[simp] theorem State.modPass_cores (s : State) (p : Nat) (g : Pass → Pass) : (s.modPass p g).cores = s.cores := rfl
@[simp] theorem State.modPass_chains (s : State) (p : Nat) (g : Pass → Pass) : (s.modPass p g).chains = s.chains := rfl
@[simp] theorem State.modPass_sources (s : State) (p : Nat) (g : Pass → Pass) : (s.modPass p g).sources = s.sources := rfl
@[simp] theorem State.modPass_trend (s : State) (p : Nat) (g : Pass → Pass) : (s.modPass p g).trend = s.trend := rfl
@[simp] theorem State.modPass_ports (s : State) (p : Nat) (g : Pass → Pass) : (s.modPass p g).ports = s.ports := rfl
@[simp] theorem State.modPass_tmr (s : State) (p : Nat) (g : Pass → Pass) : (s.modPass p g).tmr = s.tmr := rfl
@[simp] theorem State.modPass_links (s : State) (p : Nat) (g : Pass → Pass) : (s.modPass p g).links = s.links := rfl
@[simp] theorem State.modPass_est (s : State) (p : Nat) (g : Pass → Pass) : (s.modPass p g).est = s.est := rfl
@[simp] theorem State.modPass_host (s : State) (p : Nat) (g : Pass → Pass) : (s.modPass p g).host = s.host := rfl
@[simp] theorem State.modPass_twp (s : State) (p : Nat) (g : Pass → Pass) : (s.modPass p g).twp = s.twp := rfl
@[simp] theorem State.modPass_tap (s : State) (p : Nat) (g : Pass → Pass) : (s.modPass p g).tap = s.tap := rfl
@[simp] theorem State.modPass_parts (s : State) (p : Nat) (g : Pass → Pass) : (s.modPass p g).parts = s.parts := rfl
@[simp] theorem State.modPass_rmap (s : State) (p : Nat) (g : Pass → Pass) : (s.modPass p g).rmap = s.rmap := rfl
@[simp] theorem State.modPass_pow (s : State) (p : Nat) (g : Pass → Pass) : (s.modPass p g).pow = s.pow := rfl
@[simp] theorem State.modPass_reg (s : State) (p : Nat) (g : Pass → Pass) (r : Nat) : (s.modPass p g).reg r = s.reg r := rfl
@[simp] theorem State.modPass_get (s : State) (p : Nat) (g : Pass → Pass) (r : Fd) : (s.modPass p g).get r = s.get r := rfl
@[simp] theorem State.modPass_flag (s : State) (p : Nat) (g : Pass → Pass) (r : Fd) : (s.modPass p g).flag r = s.flag r := rfl
@[simp] theorem State.modPass_byte (s : State) (p : Nat) (g : Pass → Pass) (r : Nat) : (s.modPass p g).byte r = s.byte r := rfl

/-! modTimer -/

@[simp] theorem State.modTimer_pending (s : State) (u : Nat) (g : TimerUnit → TimerUnit) : (s.modTimer u g).pending = s.pending := rfl
@[simp] theorem State.modTimer_regs (s : State) (u : Nat) (g : TimerUnit → TimerUnit) : (s.modTimer u g).regs = s.regs := rfl
@[simp] theorem State.modTimer_mem (s : State) (u : Nat) (g : TimerUnit → TimerUnit) : (s.modTimer u g).mem = s.mem := rfl
@[simp] theorem State.modTimer_tb (s : State) (u : Nat) (g : TimerUnit → TimerUnit) : (s.modTimer u g).tb = s.tb := rfl
@[simp] theorem State.modTimer_freeCtr (s : State) (u : Nat) (g : TimerUnit → TimerUnit) : (s.modTimer u g).freeCtr = s.freeCtr := rfl
@[simp] theorem State.modTimer_rdata (s : State) (u : Nat) (g : TimerUnit → TimerUnit) : (s.modTimer u g).rdata = s.rdata := rfl
@[simp] theorem State.modTimer_pace (s : State) (u : Nat) (g : TimerUnit → TimerUnit) : (s.modTimer u g).pace = s.pace := rfl
@[simp] theorem State.modTimer_arbs (s : State) (u : Nat) (g : TimerUnit → TimerUnit) : (s.modTimer u g).arbs = s.arbs := rfl
@[simp] theorem State.modTimer_ledg (s : State) (u : Nat) (g : TimerUnit → TimerUnit) : (s.modTimer u g).ledg = s.ledg := rfl
@[simp] theorem State.modTimer_recs (s : State) (u : Nat) (g : TimerUnit → TimerUnit) : (s.modTimer u g).recs = s.recs := rfl
@[simp] theorem State.modTimer_flt (s : State) (u : Nat) (g : TimerUnit → TimerUnit) : (s.modTimer u g).flt = s.flt := rfl
@[simp] theorem State.modTimer_gate (s : State) (u : Nat) (g : TimerUnit → TimerUnit) : (s.modTimer u g).gate = s.gate := rfl
@[simp] theorem State.modTimer_cores (s : State) (u : Nat) (g : TimerUnit → TimerUnit) : (s.modTimer u g).cores = s.cores := rfl
@[simp] theorem State.modTimer_chains (s : State) (u : Nat) (g : TimerUnit → TimerUnit) : (s.modTimer u g).chains = s.chains := rfl
@[simp] theorem State.modTimer_sources (s : State) (u : Nat) (g : TimerUnit → TimerUnit) : (s.modTimer u g).sources = s.sources := rfl
@[simp] theorem State.modTimer_trend (s : State) (u : Nat) (g : TimerUnit → TimerUnit) : (s.modTimer u g).trend = s.trend := rfl
@[simp] theorem State.modTimer_ports (s : State) (u : Nat) (g : TimerUnit → TimerUnit) : (s.modTimer u g).ports = s.ports := rfl
@[simp] theorem State.modTimer_seq (s : State) (u : Nat) (g : TimerUnit → TimerUnit) : (s.modTimer u g).seq = s.seq := rfl
@[simp] theorem State.modTimer_links (s : State) (u : Nat) (g : TimerUnit → TimerUnit) : (s.modTimer u g).links = s.links := rfl
@[simp] theorem State.modTimer_est (s : State) (u : Nat) (g : TimerUnit → TimerUnit) : (s.modTimer u g).est = s.est := rfl
@[simp] theorem State.modTimer_host (s : State) (u : Nat) (g : TimerUnit → TimerUnit) : (s.modTimer u g).host = s.host := rfl
@[simp] theorem State.modTimer_twp (s : State) (u : Nat) (g : TimerUnit → TimerUnit) : (s.modTimer u g).twp = s.twp := rfl
@[simp] theorem State.modTimer_tap (s : State) (u : Nat) (g : TimerUnit → TimerUnit) : (s.modTimer u g).tap = s.tap := rfl
@[simp] theorem State.modTimer_parts (s : State) (u : Nat) (g : TimerUnit → TimerUnit) : (s.modTimer u g).parts = s.parts := rfl
@[simp] theorem State.modTimer_rmap (s : State) (u : Nat) (g : TimerUnit → TimerUnit) : (s.modTimer u g).rmap = s.rmap := rfl
@[simp] theorem State.modTimer_pow (s : State) (u : Nat) (g : TimerUnit → TimerUnit) : (s.modTimer u g).pow = s.pow := rfl
@[simp] theorem State.modTimer_reg (s : State) (u : Nat) (g : TimerUnit → TimerUnit) (r : Nat) : (s.modTimer u g).reg r = s.reg r := rfl
@[simp] theorem State.modTimer_get (s : State) (u : Nat) (g : TimerUnit → TimerUnit) (r : Fd) : (s.modTimer u g).get r = s.get r := rfl
@[simp] theorem State.modTimer_flag (s : State) (u : Nat) (g : TimerUnit → TimerUnit) (r : Fd) : (s.modTimer u g).flag r = s.flag r := rfl
@[simp] theorem State.modTimer_byte (s : State) (u : Nat) (g : TimerUnit → TimerUnit) (r : Nat) : (s.modTimer u g).byte r = s.byte r := rfl

/-! modEst -/

@[simp] theorem State.modEst_pending (s : State) (g : Estate → Estate) : (s.modEst g).pending = s.pending := rfl
@[simp] theorem State.modEst_regs (s : State) (g : Estate → Estate) : (s.modEst g).regs = s.regs := rfl
@[simp] theorem State.modEst_mem (s : State) (g : Estate → Estate) : (s.modEst g).mem = s.mem := rfl
@[simp] theorem State.modEst_tb (s : State) (g : Estate → Estate) : (s.modEst g).tb = s.tb := rfl
@[simp] theorem State.modEst_freeCtr (s : State) (g : Estate → Estate) : (s.modEst g).freeCtr = s.freeCtr := rfl
@[simp] theorem State.modEst_rdata (s : State) (g : Estate → Estate) : (s.modEst g).rdata = s.rdata := rfl
@[simp] theorem State.modEst_pace (s : State) (g : Estate → Estate) : (s.modEst g).pace = s.pace := rfl
@[simp] theorem State.modEst_arbs (s : State) (g : Estate → Estate) : (s.modEst g).arbs = s.arbs := rfl
@[simp] theorem State.modEst_ledg (s : State) (g : Estate → Estate) : (s.modEst g).ledg = s.ledg := rfl
@[simp] theorem State.modEst_recs (s : State) (g : Estate → Estate) : (s.modEst g).recs = s.recs := rfl
@[simp] theorem State.modEst_flt (s : State) (g : Estate → Estate) : (s.modEst g).flt = s.flt := rfl
@[simp] theorem State.modEst_gate (s : State) (g : Estate → Estate) : (s.modEst g).gate = s.gate := rfl
@[simp] theorem State.modEst_cores (s : State) (g : Estate → Estate) : (s.modEst g).cores = s.cores := rfl
@[simp] theorem State.modEst_chains (s : State) (g : Estate → Estate) : (s.modEst g).chains = s.chains := rfl
@[simp] theorem State.modEst_sources (s : State) (g : Estate → Estate) : (s.modEst g).sources = s.sources := rfl
@[simp] theorem State.modEst_trend (s : State) (g : Estate → Estate) : (s.modEst g).trend = s.trend := rfl
@[simp] theorem State.modEst_ports (s : State) (g : Estate → Estate) : (s.modEst g).ports = s.ports := rfl
@[simp] theorem State.modEst_seq (s : State) (g : Estate → Estate) : (s.modEst g).seq = s.seq := rfl
@[simp] theorem State.modEst_tmr (s : State) (g : Estate → Estate) : (s.modEst g).tmr = s.tmr := rfl
@[simp] theorem State.modEst_links (s : State) (g : Estate → Estate) : (s.modEst g).links = s.links := rfl
@[simp] theorem State.modEst_host (s : State) (g : Estate → Estate) : (s.modEst g).host = s.host := rfl
@[simp] theorem State.modEst_twp (s : State) (g : Estate → Estate) : (s.modEst g).twp = s.twp := rfl
@[simp] theorem State.modEst_tap (s : State) (g : Estate → Estate) : (s.modEst g).tap = s.tap := rfl
@[simp] theorem State.modEst_parts (s : State) (g : Estate → Estate) : (s.modEst g).parts = s.parts := rfl
@[simp] theorem State.modEst_rmap (s : State) (g : Estate → Estate) : (s.modEst g).rmap = s.rmap := rfl
@[simp] theorem State.modEst_pow (s : State) (g : Estate → Estate) : (s.modEst g).pow = s.pow := rfl
@[simp] theorem State.modEst_reg (s : State) (g : Estate → Estate) (r : Nat) : (s.modEst g).reg r = s.reg r := rfl
@[simp] theorem State.modEst_get (s : State) (g : Estate → Estate) (r : Fd) : (s.modEst g).get r = s.get r := rfl
@[simp] theorem State.modEst_flag (s : State) (g : Estate → Estate) (r : Fd) : (s.modEst g).flag r = s.flag r := rfl
@[simp] theorem State.modEst_byte (s : State) (g : Estate → Estate) (r : Nat) : (s.modEst g).byte r = s.byte r := rfl

/-! modLink -/

@[simp] theorem State.modLink_pending (s : State) (n : Nat) (g : Link → Link) : (s.modLink n g).pending = s.pending := rfl
@[simp] theorem State.modLink_regs (s : State) (n : Nat) (g : Link → Link) : (s.modLink n g).regs = s.regs := rfl
@[simp] theorem State.modLink_mem (s : State) (n : Nat) (g : Link → Link) : (s.modLink n g).mem = s.mem := rfl
@[simp] theorem State.modLink_tb (s : State) (n : Nat) (g : Link → Link) : (s.modLink n g).tb = s.tb := rfl
@[simp] theorem State.modLink_freeCtr (s : State) (n : Nat) (g : Link → Link) : (s.modLink n g).freeCtr = s.freeCtr := rfl
@[simp] theorem State.modLink_rdata (s : State) (n : Nat) (g : Link → Link) : (s.modLink n g).rdata = s.rdata := rfl
@[simp] theorem State.modLink_pace (s : State) (n : Nat) (g : Link → Link) : (s.modLink n g).pace = s.pace := rfl
@[simp] theorem State.modLink_arbs (s : State) (n : Nat) (g : Link → Link) : (s.modLink n g).arbs = s.arbs := rfl
@[simp] theorem State.modLink_ledg (s : State) (n : Nat) (g : Link → Link) : (s.modLink n g).ledg = s.ledg := rfl
@[simp] theorem State.modLink_recs (s : State) (n : Nat) (g : Link → Link) : (s.modLink n g).recs = s.recs := rfl
@[simp] theorem State.modLink_flt (s : State) (n : Nat) (g : Link → Link) : (s.modLink n g).flt = s.flt := rfl
@[simp] theorem State.modLink_gate (s : State) (n : Nat) (g : Link → Link) : (s.modLink n g).gate = s.gate := rfl
@[simp] theorem State.modLink_cores (s : State) (n : Nat) (g : Link → Link) : (s.modLink n g).cores = s.cores := rfl
@[simp] theorem State.modLink_chains (s : State) (n : Nat) (g : Link → Link) : (s.modLink n g).chains = s.chains := rfl
@[simp] theorem State.modLink_sources (s : State) (n : Nat) (g : Link → Link) : (s.modLink n g).sources = s.sources := rfl
@[simp] theorem State.modLink_trend (s : State) (n : Nat) (g : Link → Link) : (s.modLink n g).trend = s.trend := rfl
@[simp] theorem State.modLink_ports (s : State) (n : Nat) (g : Link → Link) : (s.modLink n g).ports = s.ports := rfl
@[simp] theorem State.modLink_seq (s : State) (n : Nat) (g : Link → Link) : (s.modLink n g).seq = s.seq := rfl
@[simp] theorem State.modLink_tmr (s : State) (n : Nat) (g : Link → Link) : (s.modLink n g).tmr = s.tmr := rfl
@[simp] theorem State.modLink_est (s : State) (n : Nat) (g : Link → Link) : (s.modLink n g).est = s.est := rfl
@[simp] theorem State.modLink_host (s : State) (n : Nat) (g : Link → Link) : (s.modLink n g).host = s.host := rfl
@[simp] theorem State.modLink_twp (s : State) (n : Nat) (g : Link → Link) : (s.modLink n g).twp = s.twp := rfl
@[simp] theorem State.modLink_tap (s : State) (n : Nat) (g : Link → Link) : (s.modLink n g).tap = s.tap := rfl
@[simp] theorem State.modLink_parts (s : State) (n : Nat) (g : Link → Link) : (s.modLink n g).parts = s.parts := rfl
@[simp] theorem State.modLink_rmap (s : State) (n : Nat) (g : Link → Link) : (s.modLink n g).rmap = s.rmap := rfl
@[simp] theorem State.modLink_pow (s : State) (n : Nat) (g : Link → Link) : (s.modLink n g).pow = s.pow := rfl
@[simp] theorem State.modLink_reg (s : State) (n : Nat) (g : Link → Link) (r : Nat) : (s.modLink n g).reg r = s.reg r := rfl
@[simp] theorem State.modLink_get (s : State) (n : Nat) (g : Link → Link) (r : Fd) : (s.modLink n g).get r = s.get r := rfl
@[simp] theorem State.modLink_flag (s : State) (n : Nat) (g : Link → Link) (r : Fd) : (s.modLink n g).flag r = s.flag r := rfl
@[simp] theorem State.modLink_byte (s : State) (n : Nat) (g : Link → Link) (r : Nat) : (s.modLink n g).byte r = s.byte r := rfl

/-! modRmap -/

@[simp] theorem State.modRmap_pending (s : State) (g : RMap → RMap) : (s.modRmap g).pending = s.pending := rfl
@[simp] theorem State.modRmap_regs (s : State) (g : RMap → RMap) : (s.modRmap g).regs = s.regs := rfl
@[simp] theorem State.modRmap_mem (s : State) (g : RMap → RMap) : (s.modRmap g).mem = s.mem := rfl
@[simp] theorem State.modRmap_tb (s : State) (g : RMap → RMap) : (s.modRmap g).tb = s.tb := rfl
@[simp] theorem State.modRmap_freeCtr (s : State) (g : RMap → RMap) : (s.modRmap g).freeCtr = s.freeCtr := rfl
@[simp] theorem State.modRmap_rdata (s : State) (g : RMap → RMap) : (s.modRmap g).rdata = s.rdata := rfl
@[simp] theorem State.modRmap_pace (s : State) (g : RMap → RMap) : (s.modRmap g).pace = s.pace := rfl
@[simp] theorem State.modRmap_arbs (s : State) (g : RMap → RMap) : (s.modRmap g).arbs = s.arbs := rfl
@[simp] theorem State.modRmap_ledg (s : State) (g : RMap → RMap) : (s.modRmap g).ledg = s.ledg := rfl
@[simp] theorem State.modRmap_recs (s : State) (g : RMap → RMap) : (s.modRmap g).recs = s.recs := rfl
@[simp] theorem State.modRmap_flt (s : State) (g : RMap → RMap) : (s.modRmap g).flt = s.flt := rfl
@[simp] theorem State.modRmap_gate (s : State) (g : RMap → RMap) : (s.modRmap g).gate = s.gate := rfl
@[simp] theorem State.modRmap_cores (s : State) (g : RMap → RMap) : (s.modRmap g).cores = s.cores := rfl
@[simp] theorem State.modRmap_chains (s : State) (g : RMap → RMap) : (s.modRmap g).chains = s.chains := rfl
@[simp] theorem State.modRmap_sources (s : State) (g : RMap → RMap) : (s.modRmap g).sources = s.sources := rfl
@[simp] theorem State.modRmap_trend (s : State) (g : RMap → RMap) : (s.modRmap g).trend = s.trend := rfl
@[simp] theorem State.modRmap_ports (s : State) (g : RMap → RMap) : (s.modRmap g).ports = s.ports := rfl
@[simp] theorem State.modRmap_seq (s : State) (g : RMap → RMap) : (s.modRmap g).seq = s.seq := rfl
@[simp] theorem State.modRmap_tmr (s : State) (g : RMap → RMap) : (s.modRmap g).tmr = s.tmr := rfl
@[simp] theorem State.modRmap_links (s : State) (g : RMap → RMap) : (s.modRmap g).links = s.links := rfl
@[simp] theorem State.modRmap_est (s : State) (g : RMap → RMap) : (s.modRmap g).est = s.est := rfl
@[simp] theorem State.modRmap_host (s : State) (g : RMap → RMap) : (s.modRmap g).host = s.host := rfl
@[simp] theorem State.modRmap_twp (s : State) (g : RMap → RMap) : (s.modRmap g).twp = s.twp := rfl
@[simp] theorem State.modRmap_tap (s : State) (g : RMap → RMap) : (s.modRmap g).tap = s.tap := rfl
@[simp] theorem State.modRmap_parts (s : State) (g : RMap → RMap) : (s.modRmap g).parts = s.parts := rfl
@[simp] theorem State.modRmap_pow (s : State) (g : RMap → RMap) : (s.modRmap g).pow = s.pow := rfl
@[simp] theorem State.modRmap_reg (s : State) (g : RMap → RMap) (r : Nat) : (s.modRmap g).reg r = s.reg r := rfl
@[simp] theorem State.modRmap_get (s : State) (g : RMap → RMap) (r : Fd) : (s.modRmap g).get r = s.get r := rfl
@[simp] theorem State.modRmap_flag (s : State) (g : RMap → RMap) (r : Fd) : (s.modRmap g).flag r = s.flag r := rfl
@[simp] theorem State.modRmap_byte (s : State) (g : RMap → RMap) (r : Nat) : (s.modRmap g).byte r = s.byte r := rfl

/-! modPow -/

@[simp] theorem State.modPow_pending (s : State) (g : Power → Power) : (s.modPow g).pending = s.pending := rfl
@[simp] theorem State.modPow_regs (s : State) (g : Power → Power) : (s.modPow g).regs = s.regs := rfl
@[simp] theorem State.modPow_mem (s : State) (g : Power → Power) : (s.modPow g).mem = s.mem := rfl
@[simp] theorem State.modPow_tb (s : State) (g : Power → Power) : (s.modPow g).tb = s.tb := rfl
@[simp] theorem State.modPow_freeCtr (s : State) (g : Power → Power) : (s.modPow g).freeCtr = s.freeCtr := rfl
@[simp] theorem State.modPow_rdata (s : State) (g : Power → Power) : (s.modPow g).rdata = s.rdata := rfl
@[simp] theorem State.modPow_pace (s : State) (g : Power → Power) : (s.modPow g).pace = s.pace := rfl
@[simp] theorem State.modPow_arbs (s : State) (g : Power → Power) : (s.modPow g).arbs = s.arbs := rfl
@[simp] theorem State.modPow_ledg (s : State) (g : Power → Power) : (s.modPow g).ledg = s.ledg := rfl
@[simp] theorem State.modPow_recs (s : State) (g : Power → Power) : (s.modPow g).recs = s.recs := rfl
@[simp] theorem State.modPow_flt (s : State) (g : Power → Power) : (s.modPow g).flt = s.flt := rfl
@[simp] theorem State.modPow_gate (s : State) (g : Power → Power) : (s.modPow g).gate = s.gate := rfl
@[simp] theorem State.modPow_cores (s : State) (g : Power → Power) : (s.modPow g).cores = s.cores := rfl
@[simp] theorem State.modPow_chains (s : State) (g : Power → Power) : (s.modPow g).chains = s.chains := rfl
@[simp] theorem State.modPow_sources (s : State) (g : Power → Power) : (s.modPow g).sources = s.sources := rfl
@[simp] theorem State.modPow_trend (s : State) (g : Power → Power) : (s.modPow g).trend = s.trend := rfl
@[simp] theorem State.modPow_ports (s : State) (g : Power → Power) : (s.modPow g).ports = s.ports := rfl
@[simp] theorem State.modPow_seq (s : State) (g : Power → Power) : (s.modPow g).seq = s.seq := rfl
@[simp] theorem State.modPow_tmr (s : State) (g : Power → Power) : (s.modPow g).tmr = s.tmr := rfl
@[simp] theorem State.modPow_links (s : State) (g : Power → Power) : (s.modPow g).links = s.links := rfl
@[simp] theorem State.modPow_est (s : State) (g : Power → Power) : (s.modPow g).est = s.est := rfl
@[simp] theorem State.modPow_host (s : State) (g : Power → Power) : (s.modPow g).host = s.host := rfl
@[simp] theorem State.modPow_twp (s : State) (g : Power → Power) : (s.modPow g).twp = s.twp := rfl
@[simp] theorem State.modPow_tap (s : State) (g : Power → Power) : (s.modPow g).tap = s.tap := rfl
@[simp] theorem State.modPow_parts (s : State) (g : Power → Power) : (s.modPow g).parts = s.parts := rfl
@[simp] theorem State.modPow_rmap (s : State) (g : Power → Power) : (s.modPow g).rmap = s.rmap := rfl
@[simp] theorem State.modPow_reg (s : State) (g : Power → Power) (r : Nat) : (s.modPow g).reg r = s.reg r := rfl
@[simp] theorem State.modPow_get (s : State) (g : Power → Power) (r : Fd) : (s.modPow g).get r = s.get r := rfl
@[simp] theorem State.modPow_flag (s : State) (g : Power → Power) (r : Fd) : (s.modPow g).flag r = s.flag r := rfl
@[simp] theorem State.modPow_byte (s : State) (g : Power → Power) (r : Nat) : (s.modPow g).byte r = s.byte r := rfl

/-! modHost -/

@[simp] theorem State.modHost_pending (s : State) (g : HostPort → HostPort) : (s.modHost g).pending = s.pending := rfl
@[simp] theorem State.modHost_regs (s : State) (g : HostPort → HostPort) : (s.modHost g).regs = s.regs := rfl
@[simp] theorem State.modHost_mem (s : State) (g : HostPort → HostPort) : (s.modHost g).mem = s.mem := rfl
@[simp] theorem State.modHost_tb (s : State) (g : HostPort → HostPort) : (s.modHost g).tb = s.tb := rfl
@[simp] theorem State.modHost_freeCtr (s : State) (g : HostPort → HostPort) : (s.modHost g).freeCtr = s.freeCtr := rfl
@[simp] theorem State.modHost_rdata (s : State) (g : HostPort → HostPort) : (s.modHost g).rdata = s.rdata := rfl
@[simp] theorem State.modHost_pace (s : State) (g : HostPort → HostPort) : (s.modHost g).pace = s.pace := rfl
@[simp] theorem State.modHost_arbs (s : State) (g : HostPort → HostPort) : (s.modHost g).arbs = s.arbs := rfl
@[simp] theorem State.modHost_ledg (s : State) (g : HostPort → HostPort) : (s.modHost g).ledg = s.ledg := rfl
@[simp] theorem State.modHost_recs (s : State) (g : HostPort → HostPort) : (s.modHost g).recs = s.recs := rfl
@[simp] theorem State.modHost_flt (s : State) (g : HostPort → HostPort) : (s.modHost g).flt = s.flt := rfl
@[simp] theorem State.modHost_gate (s : State) (g : HostPort → HostPort) : (s.modHost g).gate = s.gate := rfl
@[simp] theorem State.modHost_cores (s : State) (g : HostPort → HostPort) : (s.modHost g).cores = s.cores := rfl
@[simp] theorem State.modHost_chains (s : State) (g : HostPort → HostPort) : (s.modHost g).chains = s.chains := rfl
@[simp] theorem State.modHost_sources (s : State) (g : HostPort → HostPort) : (s.modHost g).sources = s.sources := rfl
@[simp] theorem State.modHost_trend (s : State) (g : HostPort → HostPort) : (s.modHost g).trend = s.trend := rfl
@[simp] theorem State.modHost_ports (s : State) (g : HostPort → HostPort) : (s.modHost g).ports = s.ports := rfl
@[simp] theorem State.modHost_seq (s : State) (g : HostPort → HostPort) : (s.modHost g).seq = s.seq := rfl
@[simp] theorem State.modHost_tmr (s : State) (g : HostPort → HostPort) : (s.modHost g).tmr = s.tmr := rfl
@[simp] theorem State.modHost_links (s : State) (g : HostPort → HostPort) : (s.modHost g).links = s.links := rfl
@[simp] theorem State.modHost_est (s : State) (g : HostPort → HostPort) : (s.modHost g).est = s.est := rfl
@[simp] theorem State.modHost_twp (s : State) (g : HostPort → HostPort) : (s.modHost g).twp = s.twp := rfl
@[simp] theorem State.modHost_tap (s : State) (g : HostPort → HostPort) : (s.modHost g).tap = s.tap := rfl
@[simp] theorem State.modHost_parts (s : State) (g : HostPort → HostPort) : (s.modHost g).parts = s.parts := rfl
@[simp] theorem State.modHost_rmap (s : State) (g : HostPort → HostPort) : (s.modHost g).rmap = s.rmap := rfl
@[simp] theorem State.modHost_pow (s : State) (g : HostPort → HostPort) : (s.modHost g).pow = s.pow := rfl
@[simp] theorem State.modHost_reg (s : State) (g : HostPort → HostPort) (r : Nat) : (s.modHost g).reg r = s.reg r := rfl
@[simp] theorem State.modHost_get (s : State) (g : HostPort → HostPort) (r : Fd) : (s.modHost g).get r = s.get r := rfl
@[simp] theorem State.modHost_flag (s : State) (g : HostPort → HostPort) (r : Fd) : (s.modHost g).flag r = s.flag r := rfl
@[simp] theorem State.modHost_byte (s : State) (g : HostPort → HostPort) (r : Nat) : (s.modHost g).byte r = s.byte r := rfl

/-! modTwp -/

@[simp] theorem State.modTwp_pending (s : State) (g : Twp → Twp) : (s.modTwp g).pending = s.pending := rfl
@[simp] theorem State.modTwp_regs (s : State) (g : Twp → Twp) : (s.modTwp g).regs = s.regs := rfl
@[simp] theorem State.modTwp_mem (s : State) (g : Twp → Twp) : (s.modTwp g).mem = s.mem := rfl
@[simp] theorem State.modTwp_tb (s : State) (g : Twp → Twp) : (s.modTwp g).tb = s.tb := rfl
@[simp] theorem State.modTwp_freeCtr (s : State) (g : Twp → Twp) : (s.modTwp g).freeCtr = s.freeCtr := rfl
@[simp] theorem State.modTwp_rdata (s : State) (g : Twp → Twp) : (s.modTwp g).rdata = s.rdata := rfl
@[simp] theorem State.modTwp_pace (s : State) (g : Twp → Twp) : (s.modTwp g).pace = s.pace := rfl
@[simp] theorem State.modTwp_arbs (s : State) (g : Twp → Twp) : (s.modTwp g).arbs = s.arbs := rfl
@[simp] theorem State.modTwp_ledg (s : State) (g : Twp → Twp) : (s.modTwp g).ledg = s.ledg := rfl
@[simp] theorem State.modTwp_recs (s : State) (g : Twp → Twp) : (s.modTwp g).recs = s.recs := rfl
@[simp] theorem State.modTwp_flt (s : State) (g : Twp → Twp) : (s.modTwp g).flt = s.flt := rfl
@[simp] theorem State.modTwp_gate (s : State) (g : Twp → Twp) : (s.modTwp g).gate = s.gate := rfl
@[simp] theorem State.modTwp_cores (s : State) (g : Twp → Twp) : (s.modTwp g).cores = s.cores := rfl
@[simp] theorem State.modTwp_chains (s : State) (g : Twp → Twp) : (s.modTwp g).chains = s.chains := rfl
@[simp] theorem State.modTwp_sources (s : State) (g : Twp → Twp) : (s.modTwp g).sources = s.sources := rfl
@[simp] theorem State.modTwp_trend (s : State) (g : Twp → Twp) : (s.modTwp g).trend = s.trend := rfl
@[simp] theorem State.modTwp_ports (s : State) (g : Twp → Twp) : (s.modTwp g).ports = s.ports := rfl
@[simp] theorem State.modTwp_seq (s : State) (g : Twp → Twp) : (s.modTwp g).seq = s.seq := rfl
@[simp] theorem State.modTwp_tmr (s : State) (g : Twp → Twp) : (s.modTwp g).tmr = s.tmr := rfl
@[simp] theorem State.modTwp_links (s : State) (g : Twp → Twp) : (s.modTwp g).links = s.links := rfl
@[simp] theorem State.modTwp_est (s : State) (g : Twp → Twp) : (s.modTwp g).est = s.est := rfl
@[simp] theorem State.modTwp_host (s : State) (g : Twp → Twp) : (s.modTwp g).host = s.host := rfl
@[simp] theorem State.modTwp_tap (s : State) (g : Twp → Twp) : (s.modTwp g).tap = s.tap := rfl
@[simp] theorem State.modTwp_parts (s : State) (g : Twp → Twp) : (s.modTwp g).parts = s.parts := rfl
@[simp] theorem State.modTwp_rmap (s : State) (g : Twp → Twp) : (s.modTwp g).rmap = s.rmap := rfl
@[simp] theorem State.modTwp_pow (s : State) (g : Twp → Twp) : (s.modTwp g).pow = s.pow := rfl
@[simp] theorem State.modTwp_reg (s : State) (g : Twp → Twp) (r : Nat) : (s.modTwp g).reg r = s.reg r := rfl
@[simp] theorem State.modTwp_get (s : State) (g : Twp → Twp) (r : Fd) : (s.modTwp g).get r = s.get r := rfl
@[simp] theorem State.modTwp_flag (s : State) (g : Twp → Twp) (r : Fd) : (s.modTwp g).flag r = s.flag r := rfl
@[simp] theorem State.modTwp_byte (s : State) (g : Twp → Twp) (r : Nat) : (s.modTwp g).byte r = s.byte r := rfl

/-! modTap -/

@[simp] theorem State.modTap_pending (s : State) (g : Tap → Tap) : (s.modTap g).pending = s.pending := rfl
@[simp] theorem State.modTap_regs (s : State) (g : Tap → Tap) : (s.modTap g).regs = s.regs := rfl
@[simp] theorem State.modTap_mem (s : State) (g : Tap → Tap) : (s.modTap g).mem = s.mem := rfl
@[simp] theorem State.modTap_tb (s : State) (g : Tap → Tap) : (s.modTap g).tb = s.tb := rfl
@[simp] theorem State.modTap_freeCtr (s : State) (g : Tap → Tap) : (s.modTap g).freeCtr = s.freeCtr := rfl
@[simp] theorem State.modTap_rdata (s : State) (g : Tap → Tap) : (s.modTap g).rdata = s.rdata := rfl
@[simp] theorem State.modTap_pace (s : State) (g : Tap → Tap) : (s.modTap g).pace = s.pace := rfl
@[simp] theorem State.modTap_arbs (s : State) (g : Tap → Tap) : (s.modTap g).arbs = s.arbs := rfl
@[simp] theorem State.modTap_ledg (s : State) (g : Tap → Tap) : (s.modTap g).ledg = s.ledg := rfl
@[simp] theorem State.modTap_recs (s : State) (g : Tap → Tap) : (s.modTap g).recs = s.recs := rfl
@[simp] theorem State.modTap_flt (s : State) (g : Tap → Tap) : (s.modTap g).flt = s.flt := rfl
@[simp] theorem State.modTap_gate (s : State) (g : Tap → Tap) : (s.modTap g).gate = s.gate := rfl
@[simp] theorem State.modTap_cores (s : State) (g : Tap → Tap) : (s.modTap g).cores = s.cores := rfl
@[simp] theorem State.modTap_chains (s : State) (g : Tap → Tap) : (s.modTap g).chains = s.chains := rfl
@[simp] theorem State.modTap_sources (s : State) (g : Tap → Tap) : (s.modTap g).sources = s.sources := rfl
@[simp] theorem State.modTap_trend (s : State) (g : Tap → Tap) : (s.modTap g).trend = s.trend := rfl
@[simp] theorem State.modTap_ports (s : State) (g : Tap → Tap) : (s.modTap g).ports = s.ports := rfl
@[simp] theorem State.modTap_seq (s : State) (g : Tap → Tap) : (s.modTap g).seq = s.seq := rfl
@[simp] theorem State.modTap_tmr (s : State) (g : Tap → Tap) : (s.modTap g).tmr = s.tmr := rfl
@[simp] theorem State.modTap_links (s : State) (g : Tap → Tap) : (s.modTap g).links = s.links := rfl
@[simp] theorem State.modTap_est (s : State) (g : Tap → Tap) : (s.modTap g).est = s.est := rfl
@[simp] theorem State.modTap_host (s : State) (g : Tap → Tap) : (s.modTap g).host = s.host := rfl
@[simp] theorem State.modTap_twp (s : State) (g : Tap → Tap) : (s.modTap g).twp = s.twp := rfl
@[simp] theorem State.modTap_parts (s : State) (g : Tap → Tap) : (s.modTap g).parts = s.parts := rfl
@[simp] theorem State.modTap_rmap (s : State) (g : Tap → Tap) : (s.modTap g).rmap = s.rmap := rfl
@[simp] theorem State.modTap_pow (s : State) (g : Tap → Tap) : (s.modTap g).pow = s.pow := rfl
@[simp] theorem State.modTap_reg (s : State) (g : Tap → Tap) (r : Nat) : (s.modTap g).reg r = s.reg r := rfl
@[simp] theorem State.modTap_get (s : State) (g : Tap → Tap) (r : Fd) : (s.modTap g).get r = s.get r := rfl
@[simp] theorem State.modTap_flag (s : State) (g : Tap → Tap) (r : Fd) : (s.modTap g).flag r = s.flag r := rfl
@[simp] theorem State.modTap_byte (s : State) (g : Tap → Tap) (r : Nat) : (s.modTap g).byte r = s.byte r := rfl

end Sys2Proof.Machine
end

