-- ==== Sys2Proof/Laws/Events.lean ====
section
/-!
SUPPORT. What the operations over event queues, the day book and the fault slots do while the postmaster listens.
-/

namespace Sys2Proof.Machine

/-! The parts of Listens. -/

theorem Listens.core {s : State} {k : Core} (h : Listens s k) : s.core 0 = some k := h.1
theorem Listens.ahead {s : State} {k : Core} (h : Listens s k) : k.spec = none := h.2.1
theorem Listens.room {s : State} {k : Core} (h : Listens s k) : k.queue.length + k.taken.length < 16 := h.2.2.1
theorem Listens.held {s : State} {k : Core} (h : Listens s k) : s.isHeld 0 = false := h.2.2.2.1
theorem Listens.up {s : State} {k : Core} (h : Listens s k) : s.pow.phase = .up := h.2.2.2.2.1
theorem Listens.run {s : State} {k : Core} (h : Listens s k) : s.pwr = 0 := h.2.2.2.2.2.1
theorem Listens.steady {s : State} {k : Core} (h : Listens s k) : s.flag F.PWR_STAT_ENTERING = false := h.2.2.2.2.2.2

theorem Listens.congr {s t : State} {k : Core} (h : Listens s k) (hc : t.cores = s.cores) (hp : t.pow = s.pow) (hs : t.get F.PWR_STAT_STATE = s.get F.PWR_STAT_STATE)
    (he : t.flag F.PWR_STAT_ENTERING = s.flag F.PWR_STAT_ENTERING) (hh : t.get (F.SYS_FHELD_HELD 0) = s.get (F.SYS_FHELD_HELD 0)) : Listens t k :=
  ⟨by unfold State.core; rw [hc]; exact h.core, h.ahead, h.room,
   by have := h.held; unfold State.isHeld at this ⊢; rw [show 0 / 32 = 0 from rfl] at *; rw [hh]; exact this,
   by rw [hp]; exact h.up, by unfold State.pwr; rw [hs]; exact h.run, by rw [he]; exact h.steady⟩

/-- A record enters the postmaster's queue, and in RUN nothing else follows. -/
theorem enqueue_listens {s : State} {k : Core} (h : Listens s k) (r : List Byte) :
    enqueue 0 r s = s.modCore 0 (fun k => { k with queue := k.queue ++ [r] }) := by
  have ha : coreAccepts 0 s = true := by
    unfold coreAccepts
    rw [h.core]
    have hf : k.full = false := by unfold Core.full; simp only [decide_eq_false_iff_not]; have := h.room; omega
    simp [hf, h.held, State.logicOn, h.run, h.up]
  unfold enqueue
  rw [if_pos ha]
  have hs : settleSpec 0 r s = s.modCore 0 (fun k => { k with queue := k.queue ++ [r] }) := by
    unfold settleSpec; simp [h.core, h.ahead]
  rw [hs]
  unfold wakeRecognised
  have e1 : (s.modCore 0 (fun k => { k with queue := k.queue ++ [r] })).flag F.PWR_STAT_ENTERING = false := h.steady
  have e2 : (s.modCore 0 (fun k => { k with queue := k.queue ++ [r] })).pwr = 0 := h.run
  have e3 : (s.modCore 0 (fun k => { k with queue := k.queue ++ [r] })).wakeMode = 0 := by unfold State.wakeMode; rw [e1, e2]; rfl
  have e4 : wakeEnabled (s.modCore 0 (fun k => { k with queue := k.queue ++ [r] })) 8 = false := by unfold wakeEnabled; rw [e3]; simp [wakeEnds]
  dsimp only; rw [e4]; rfl

theorem pmEvent_listens {s : State} {k : Core} (h : Listens s k) (kind value scale reason origin ep : Nat) :
    pmEvent kind value scale reason origin s ep =
      s.modCore 0 (fun k => { k with queue := k.queue ++ [mkRecord s.pm s.devId ep kind 0 value scale origin reason] }) := enqueue_listens h _

theorem dayPush_room {s : State} (h : s.flt.dayQ.length < 32) (unit code aux data : Nat) :
    dayPush unit code aux data s = { s with flt := { s.flt with dayQ := s.flt.dayQ ++ [(⟨s.pm, unit, code, aux, data⟩ : DayEntry)] } } := by
  unfold dayPush; rw [if_pos h]

/-- Writes of fault slots leave every field below them. -/
theorem get_slots (s : State) {a b : Nat} (ha : a ≥ 0x10103000) (hb : b ≥ 0x10103000) (v w : Word) {g : Fd} (hg : g.addr < 0x10103000) :
    ((s.setReg a v).setReg b w).get g = s.get g := by
  rw [get_setReg_ne _ w g (by omega), get_setReg_ne _ v g (by omega)]

theorem flag_slots (s : State) {a b : Nat} (ha : a ≥ 0x10103000) (hb : b ≥ 0x10103000) (v w : Word) {g : Fd} (hg : g.addr < 0x10103000) :
    ((s.setReg a v).setReg b w).flag g = s.flag g := by
  unfold State.flag
  rw [get_slots s ha hb v w hg]

theorem Listens.slots {s : State} {k : Core} (h : Listens s k) {a b : Nat} (ha : a ≥ 0x10103000) (hb : b ≥ 0x10103000) (v w : Word) (f : Faults) :
    Listens { ((s.setReg a v).setReg b w) with flt := f } k :=
  h.congr rfl rfl (get_slots s ha hb v w (g := F.PWR_STAT_STATE) (by decide)) (flag_slots s ha hb v w (g := F.PWR_STAT_ENTERING) (by decide))
    (get_slots s ha hb v w (g := F.SYS_FHELD_HELD 0) (by decide))

/-- A fault slot is written, entered in the day book and told to the postmaster. -/
theorem slot_told {s : State} {k : Core} (h : Listens s k) (hq : s.flt.dayQ.length < 32) {a b : Nat} (ha : a ≥ 0x10103000) (hb : b ≥ 0x10103000)
    (v w : Word) (u code aux data x : Nat) :
    pmEvent 0x30 x 0 0 u (dayPush u code aux data ((s.setReg a v).setReg b w)) =
      ({ ((s.setReg a v).setReg b w) with flt := { s.flt with dayQ := s.flt.dayQ ++ [(⟨s.pm, u, code, aux, data⟩ : DayEntry)] } } : State).modCore 0
        (fun k => { k with queue := k.queue ++ [mkRecord s.pm s.devId 0x7FFFFF 0x30 0 x 0 u 0] }) := by
  rw [dayPush_room (s := (s.setReg a v).setReg b w) hq]
  refine (pmEvent_listens (h.slots ha hb v w _) _ _ _ _ _ _).trans ?_
  have e := get_slots s ha hb v w (g := F.CAS_ID_ID) (by decide)
  unfold State.devId
  rw [← e]; rfl

/-- A fault that fills a slot (R365). -/
theorem loadSlot_listens {s : State} {k : Core} (h : Listens s k) (hq : s.flt.dayQ.length < 32) (u cls code data : Nat) (hc : cls ≠ 2) (sec : Bool) :
    loadSlot u sec cls code data s =
      ({ ((s.setReg (if sec then A.SYS_FLT_SEC u else A.SYS_FLT_PRI u) (BitVec.ofNat 32 (2 ^ 31 + cls * 2 ^ 24 + code * 2 ^ 16 + data))).setReg
            (if sec then A.SYS_FLT_SECPM u else A.SYS_FLT_PRIPM u) (BitVec.ofNat 32 s.pm)) with
          flt := { s.flt with dayQ := s.flt.dayQ ++ [(⟨s.pm, u, 0x08, code, cls + 16 * b2n sec + data * 2 ^ 16⟩ : DayEntry)] } } : State).modCore 0
        (fun k => { k with queue := k.queue ++ [mkRecord s.pm s.devId 0x7FFFFF 0x30 0 (code + cls * 2 ^ 8 + b2n sec * 2 ^ 12) 0 u 0] }) := by
  have b1 : A.SYS_FLT_PRI u ≥ 0x10103000 := by unfold A.SYS_FLT_PRI; omega
  have b2 : A.SYS_FLT_PRIPM u ≥ 0x10103000 := by unfold A.SYS_FLT_PRIPM; omega
  have b3 : A.SYS_FLT_SEC u ≥ 0x10103000 := by unfold A.SYS_FLT_SEC; omega
  have b4 : A.SYS_FLT_SECPM u ≥ 0x10103000 := by unfold A.SYS_FLT_SECPM; omega
  unfold loadSlot
  cases sec
  · simp only [Bool.false_eq_true, if_false, hc]
    exact slot_told h hq b1 b2 _ _ _ _ _ _ _
  · simp only [if_true, hc, if_false]
    exact slot_told h hq b3 b4 _ _ _ _ _ _ _

end Sys2Proof.Machine
end

