-- ==== Sys2Proof/Laws/Ports.lean ====
section
/-!
SUPPORT. Changes of one element of a list, and of one port; repeated steps that have come to rest.
-/

namespace Sys2Proof.Machine

theorem upd_get {α : Type} (l : List α) (i : Nat) (f : α → α) : (upd l i f)[i]? = l[i]?.map f := by
  unfold upd; simp
theorem upd_get_ne {α : Type} (l : List α) {i j : Nat} (f : α → α) (h : i ≠ j) : (upd l i f)[j]? = l[j]? := by
  unfold upd; simp [h]
theorem upd_congr {α : Type} (l : List α) (i : Nat) (f g : α → α) (h : ∀ a, l[i]? = some a → f a = g a) : upd l i f = upd l i g := by
  apply List.ext_getElem?; intro j
  by_cases hj : i = j
  · subst hj; rw [upd_get, upd_get]; cases hl : l[i]? with
    | none => rfl
    | some a => simp [h a hl]
  · rw [upd_get_ne _ _ hj, upd_get_ne _ _ hj]
theorem upd_id {α : Type} (l : List α) (i : Nat) (f : α → α) (h : ∀ a, l[i]? = some a → f a = a) : upd l i f = l := by
  rw [upd_congr l i f id (fun a ha => h a ha)]
  apply List.ext_getElem?; intro j
  by_cases hj : i = j
  · subst hj; rw [upd_get]; simp
  · rw [upd_get_ne _ _ hj]
theorem upd_upd {α : Type} (l : List α) (i : Nat) (f g : α → α) : upd (upd l i f) i g = upd l i (fun a => g (f a)) := by
  apply List.ext_getElem?; intro j
  by_cases hj : i = j
  · subst hj; simp [upd_get, Function.comp_def]
  · simp only [upd_get_ne _ _ hj]

/-- A step that leaves `b` alone, once it has reached `b`. -/
theorem iter_rest {α : Type} (f : α → α) (n : Nat) (b : α) (h : f b = b) : iter n f b = b := by
  induction n with
  | zero => rfl
  | succ n ih => show f (iter n f b) = b; rw [ih, h]
theorem iter_once {α : Type} (f : α → α) (n : Nat) (a b : α) (ha : f a = b) (hb : f b = b) : iter (n + 1) f a = b := by
  induction n with
  | zero => exact ha
  | succ n ih => show f (iter (n + 1) f a) = b; rw [ih, hb]
theorem iter_twice {α : Type} (f : α → α) (n : Nat) (a b c : α) (ha : f a = b) (hb : f b = c) (hc : f c = c) : iter (n + 2) f a = c := by
  induction n with
  | zero => show f (f a) = c; rw [ha, hb]
  | succ n ih => show f (iter (n + 2) f a) = c; rw [ih, hc]

theorem port_modPort (s : State) (p : Nat) (f : Port → Port) : (s.modPort p f).port p = (s.port p).map f := upd_get _ _ _
theorem port_modPort_ne (s : State) {p o : Nat} (f : Port → Port) (h : p ≠ o) : (s.modPort p f).port o = s.port o := upd_get_ne _ _ h
theorem modPort_modPort (s : State) (p : Nat) (f g : Port → Port) : (s.modPort p f).modPort p g = s.modPort p (fun q => g (f q)) := by
  unfold State.modPort; simp only [upd_upd]
theorem modPort_congr (s : State) (p : Nat) (f g : Port → Port) (h : ∀ q, s.port p = some q → f q = g q) : s.modPort p f = s.modPort p g := by
  unfold State.modPort; rw [upd_congr _ _ f g h]
theorem modPort_id (s : State) (p : Nat) (f : Port → Port) (h : ∀ q, s.port p = some q → f q = q) : s.modPort p f = s := by
  unfold State.modPort; rw [upd_id _ _ f h]
@[simp] theorem flag_modPort (s : State) (p : Nat) (f : Port → Port) (g : Fd) : (s.modPort p f).flag g = s.flag g := rfl
@[simp] theorem get_modPort (s : State) (p : Nat) (f : Port → Port) (g : Fd) : (s.modPort p f).get g = s.get g := rfl
@[simp] theorem port_put (s : State) (g : Fd) (v p : Nat) : (s.put g v).port p = s.port p := rfl
@[simp] theorem port_mark (s : State) (g : Fd) (p : Nat) : (s.mark g).port p = s.port p := rfl
@[simp] theorem port_putB (s : State) (g : Fd) (b : Bool) (p : Nat) : (s.putB g b).port p = s.port p := rfl
@[simp] theorem port_incSat (s : State) (g : Fd) (n p : Nat) : (s.incSat g n).port p = s.port p := rfl
@[simp] theorem port_incWrap (s : State) (g : Fd) (n p : Nat) : (s.incWrap g n).port p = s.port p := rfl
@[simp] theorem port_setReg (s : State) (a : Nat) (v : Word) (p : Nat) : (s.setReg a v).port p = s.port p := rfl

/-- A port that wants nothing, or waits already, takes no yield. -/
theorem setWait_none (s : State) (p : Nat) (q : Port) (h : s.port p = some q) (hy : q.yieldDue = false)
    (hb : s.flag (F.FL_RSTAT_BACKOFF p) = false ∨ q.want = []) : setWait p s = s := by
  unfold setWait
  apply modPort_id
  intro q' hq'
  rw [h] at hq'; cases hq'
  rcases hb with hb | hb <;> simp [hy, hb]

end Sys2Proof.Machine
end

