-- ==== Sys2Proof/Laws/Bus.lean ====
section
/-!
SUPPORT. What the operations of the post bus can do: which bank they touch, what a request comes to carry, and what the beats of a grant take.
-/

namespace Sys2Proof.Machine

/-- A request raised changes arbiters only. -/
theorem raiseReq_frame (b u : Nat) (ahead : Bool) (p : BusPiece) (s : State) :
    raiseReq b u ahead p s = { s with arbs := (raiseReq b u ahead p s).arbs } := rfl

/-- It leaves the other banks as they are. -/
theorem raiseReq_other {b c : Nat} (h : b ≠ c) (u : Nat) (ahead : Bool) (p : BusPiece) (s : State) :
    (raiseReq b u ahead p s).arbs[c]? = s.arbs[c]? := upd_get_ne s.arbs _ h

/-- It joins the request of its unit and kind that stands. -/
theorem raiseReq_joins {b u : Nat} {ahead : Bool} {a : Arb} {s : State} (p : BusPiece) (ha : s.arbs[b]? = some a)
    (h : a.reqs.any (·.isOf u ahead) = true) : (raiseReq b u ahead p s).arbs[b]? =
      some { a with reqs := a.reqs.map (fun r => if r.isOf u ahead then { r with pieces := r.pieces ++ [p] } else r) } := by
  unfold raiseReq State.modArb; rw [upd_get, ha, Option.map_some, h]; rfl

/-- Or it begins one. -/
theorem raiseReq_begins {b u : Nat} {ahead : Bool} {a : Arb} {s : State} (p : BusPiece) (ha : s.arbs[b]? = some a)
    (h : a.reqs.any (·.isOf u ahead) = false) : (raiseReq b u ahead p s).arbs[b]? =
      some { a with reqs := a.reqs ++ [⟨u, ahead, [p], some s.tb⟩] } := by
  unfold raiseReq State.modArb; rw [upd_get, ha, Option.map_some, h]; rfl

/-- A delivered grant changes arbiters only. -/
theorem nextGrant_frame (b : Nat) (s : State) : nextGrant b s = { s with arbs := (nextGrant b s).arbs } := by
  have k : ∀ (o : Option BusReq) (l : List Nat), let t := (match o with
      | none => s.modArb b (fun a => { a with owner := none, turn := [] })
      | some r => s.modArb b (fun a => { a with granted := some ⟨r.unit, r.ahead, s.get (F.ARB_CFG_BURST r.unit)⟩, turn := l ++ [r.unit] }))
      t = { s with arbs := t.arbs } := fun o l => by cases o <;> rfl
  unfold nextGrant; split
  · rfl
  · exact k _ _

/-- Beats enough for everything carry everything. -/
theorem carry_all (n : Nat) (ps : List BusPiece) (h : (ps.map (·.beats)).sum ≤ n) : carry n ps = (ps, []) := by
  induction ps generalizing n with
  | nil => rfl
  | cons p ps ih =>
    simp only [List.map_cons, List.sum_cons] at h
    simp only [carry, if_pos (show p.beats ≤ n by omega), ih (n - p.beats) (by omega)]

/-- Beats that end within the first piece carry none of it to its end. -/
theorem carry_within {n : Nat} {p : BusPiece} (h : n < p.beats) (ps : List BusPiece) :
    carry n (p :: ps) = ([], { p with beats := p.beats - n } :: ps) := by
  simp only [carry, if_neg (show ¬p.beats ≤ n by omega)]

/-- What is left to carry has as many beats less as were carried. -/
theorem carry_left (n : Nat) (ps : List BusPiece) : ((carry n ps).2.map (·.beats)).sum = (ps.map (·.beats)).sum - n := by
  induction ps generalizing n with
  | nil => simp [carry]
  | cons p ps ih =>
    unfold carry; split
    · simp only [ih, List.map_cons, List.sum_cons]; omega
    · simp only [List.map_cons, List.sum_cons]; omega

/-- A cell that turns changes no byte and no register. -/
theorem turnCell_frame (f : Flip) (s : State) : turnCell f s = { s with ledg := { s.ledg with flips := (turnCell f s).ledg.flips } } := rfl

end Sys2Proof.Machine
end

