-- ==== Sys2Proof/Laws/CoreStep.lean ====
section
/-!
SUPPORT. What a core's instruction does when the checks of Table 12.2 pass and it touches no unit I/O.
-/

namespace Sys2Proof.Machine

/-- Bytes put into private memory, in order. -/
def setPrivs (l : List (Nat × Byte)) (k : Core) : Core := l.foldl (fun k e => k.setPriv e.1 e.2) k

theorem core_upd (s : State) (c : Nat) (k : Core) (f : Core → Core) (h : s.core c = some k) : (s.modCore c f).core c = some (f k) := by
  simp only [State.core, State.modCore, upd] at *
  rw [List.getElem?_modify, h]; simp

theorem modCore_const (s : State) (c : Nat) (k : Core) (f : Core → Core) (h : s.core c = some k) :
    s.modCore c f = { s with cores := upd s.cores c (fun _ => f k) } := by
  simp only [State.core, State.modCore, upd] at *
  congr 1
  apply List.ext_getElem?
  intro i
  rw [List.getElem?_modify, List.getElem?_modify]
  by_cases hi : c = i
  · subst hi; simp [h]
  · simp [hi]

theorem cores_upd_twice (l : List Core) (c : Nat) (a b : Core) : upd (upd l c (fun _ => a)) c (fun _ => b) = upd l c (fun _ => b) := by
  simp only [upd]
  apply List.ext_getElem?
  intro i
  simp only [List.getElem?_modify]
  by_cases hi : c = i
  · subst hi; cases l[c]? <;> simp
  · simp [hi]

theorem core_put (s : State) (f : Fd) (v c : Nat) : (s.put f v).core c = s.core c := rfl

theorem noteSteps_became {s : State} {c : Nat} {k : Core} (h : s.core c = some k) :
    (∀ a, a ≠ A.SRT_STEPS c → (noteSteps c s).reg a = s.reg a) ∧
    (noteSteps c s).get (F.SRT_STEPS_MAX c) = max (s.get (F.SRT_STEPS_MAX c)) (satTo 0xFFFFFF k.steps.toNat) ∧
    noteSteps c s = { s with regs := (noteSteps c s).regs } := by
  have hb : s.get (F.SRT_STEPS_MAX c) < 2 ^ 24 := bits_lt _ _ _
  unfold noteSteps
  rw [h]
  simp only
  split
  · rename_i hlt
    refine ⟨fun a ha => reg_put_ne _ _ _ (Ne.symm ha), ?_, rfl⟩
    rw [get_put_self _ _ _ (of_decide_eq_true rfl)]
    have : satTo 0xFFFFFF k.steps.toNat < 2 ^ 24 := by unfold satTo; split <;> omega
    rw [show (F.SRT_STEPS_MAX c).w = 24 from rfl, Nat.mod_eq_of_lt this]
    unfold satTo
    split <;> omega
  · rename_i hge
    refine ⟨fun _ _ => rfl, ?_, rfl⟩
    unfold satTo
    split <;> omega

/-- What it says of an instruction that takes no record. -/
theorem coreBecame_iff {s t : State} {c : Nat} {k : Core} : CoreBecame s t c k ↔
    t = { s with cores := upd s.cores c (fun _ => k), regs := t.regs } ∧ (∀ a, a ≠ A.SRT_STEPS c → t.reg a = s.reg a) ∧
    t.get (F.SRT_STEPS_MAX c) = max (s.get (F.SRT_STEPS_MAX c)) (satTo 0xFFFFFF k.steps.toNat) := Iff.rfl

/-- A core that becomes `k` in memory and registers, with its steps noted, has become `k`. -/
theorem became_noteSteps {s : State} {c : Nat} {k0 k : Core} (h : s.core c = some k0) :
    CoreBecame s (noteSteps c { s with cores := upd s.cores c (fun _ => k) }) c k := by
  have hk : ({ s with cores := upd s.cores c (fun _ => k) } : State).core c = some k := by
    have := core_upd s c k0 (fun _ => k) h
    rwa [modCore_const s c k0 _ h] at this
  obtain ⟨h1, h2, h3⟩ := noteSteps_became hk
  exact coreBecame_iff.2 ⟨by rw [h3], h1, h2⟩

theorem readAll_plain (c : Nat) (ahead : Bool) (k : Core) (s0 : State) (l : List Nat) (s : State) (h : ∀ a ∈ l, isIo a = false) :
    readAll c ahead k s0 l s = (l.map (plainRead s0 c k), .none, s) := by
  induction l with
  | nil => rfl
  | cons a t ih =>
    have h1 := h a (by simp)
    have h2 := ih (fun b hb => h b (List.mem_cons_of_mem _ hb))
    simp [readAll, h1, h2]

theorem coreWrites_priv {s : State} {c : Nat} {k : Core} (h : s.core c = some k) (l : List (Nat × Byte)) (hl : ∀ e ∈ l, e.1 < 0x8000) :
    coreWrites c l s = some { s with cores := upd s.cores c (fun _ => setPrivs l k) } := by
  induction l generalizing s k with
  | nil =>
    simp only [coreWrites, setPrivs, List.foldl_nil]
    have := modCore_const s c k id h
    simp only [id] at this
    rw [← this]
    simp only [State.modCore, upd]
    rw [List.modify_id]
  | cons e t ih =>
    obtain ⟨a, b⟩ := e
    have ha : a < 0x8000 := hl (a, b) (by simp)
    have h1 : isIo a = false := by simp [isIo]; omega
    have h2 : isWindow a = false := by simp [isWindow]; omega
    have h3 : coreWrite c a b s = some (s.modCore c (fun k => k.setPriv a b)) := by simp [coreWrite, h1, h2, h]
    simp only [coreWrites, h3, Option.bind_some]
    rw [ih (core_upd s c k _ h) (fun e he => hl e (List.mem_cons_of_mem _ he)), modCore_const s c k _ h, cores_upd_twice]
    rfl

/-- A plan whose accesses are plain: its reads are permitted, sound and outside unit I/O, its writes lie in private memory, as do
the accesses to the stack and the place where it goes on. -/
structure PlainPlan (s : State) (c : Nat) (k : Core) (p : Plan) : Prop where
  reads  : ∀ a ∈ p.reads, Readable s c k a
  writes : ∀ a ∈ p.writes, a < 0x8000
  stack  : p.stackR = true → ∀ a ∈ p.reads, a < 0x8000
  next   : ∀ n, p.next = some n → n < 0x8000
  back   : returnBad s c k p = false
  base   : (windowReads c k p.reads s).core c = some k

/-- Reads outside the window leave the bus alone. -/
theorem windowReads_none {c : Nat} {k : Core} {l : List Nat} {s : State} (h : ∀ a ∈ l, isWindow a = false) : windowReads c k l s = s := by
  induction l with
  | nil => rfl
  | cons a l ih =>
    unfold windowReads
    rw [h a (by simp)]
    simpa using ih (fun b hb => h b (List.mem_cons_of_mem _ hb))

theorem runPlan_plain {s : State} {c : Nat} {k : Core} {p : Plan} (hc : s.core c = some k) (ha : k.spec = none) (hp : PlainPlan s c k p)
    (hb : k.steps + chargeBefore p ≤ (s.get (F.SRT_BUDGET_BUDGET c) : Int)) (ahead : Bool) (ser : CoreRegs → Series) (stop : Bool)
    (after : State → State) :
    ∃ t, runPlan c ahead p ser stop after s = after t ∧
      CoreBecame (windowReads c k p.reads s) t c { setPrivs (p.writes.zip (p.fin (p.reads.map (plainRead (windowReads c k p.reads s) c k))).2)
        { k with r := (p.fin (p.reads.map (plainRead (windowReads c k p.reads s) c k))).1
                 series := ser (p.fin (p.reads.map (plainRead (windowReads c k p.reads s) c k))).1
                 steps := k.steps + planCharge p (some (p.fin (p.reads.map (plainRead (windowReads c k p.reads s) c k))).2) } with
        spec := none } := by
  have h8 : check8 s c ahead k p = false := by
    have e1 : p.reads.any (accessBad s c k false) = false := by
      rw [List.any_eq_false]; intro a h; simp [(hp.reads a h).2.1]
    have e2 : p.writes.any (accessBad s c k true) = false := by
      rw [List.any_eq_false]; intro a h; simp [accessBad, hp.writes a h]
    have e3 : (p.stackR && p.reads.any (fun a => 0x8000 ≤ a)) = false := by
      cases hs : p.stackR with
      | false => rfl
      | true =>
        simp only [Bool.true_and, List.any_eq_false]
        intro a h; have := hp.stack hs a h; simp; omega
    have e4 : (p.stackW && p.writes.any (fun a => 0x8000 ≤ a)) = false := by
      rw [Bool.and_eq_false_iff, List.any_eq_false]
      right; intro a h; have := hp.writes a h; simp; omega
    have e5 : windowBad s c ahead k p = false := by
      have : p.writes.contains 0xC00E = false := by
        rw [List.contains_eq_any_beq, List.any_eq_false]
        intro a h hab
        have := hp.writes a h
        simp only [beq_iff_eq] at hab
        omega
      unfold windowBad; rw [this]; rfl
    unfold check8
    rw [e5, e1, e2, e3, e4]
    cases hn : p.next with
    | none => rfl
    | some n => have := hp.next n hn; simp; omega
  have hf : p.reads.findSome? (readFault s c k) = none := by
    rw [List.findSome?_eq_none_iff]; exact fun a h => (hp.reads a h).2.2
  have hw : (stop || specStops k p) = (stop || false) := by simp [specStops, ha]
  have hl : ltrWaits k p = false := by
    have r1 : p.reads.contains 0xC014 = false := by
      rw [List.contains_eq_any_beq, List.any_eq_false]
      intro a h hab
      have := (hp.reads a h).1
      simp only [beq_iff_eq] at hab
      subst hab; simp [isIo] at this
    have r2 : p.writes.contains 0xC013 = false := by
      rw [List.contains_eq_any_beq, List.any_eq_false]
      intro a h hab
      have := hp.writes a h
      simp only [beq_iff_eq] at hab
      omega
    unfold ltrWaits; rw [r1, r2]; simp
  have hio : ∀ a ∈ p.reads, isIo a = false := fun a h => (hp.reads a h).1
  unfold runPlan
  rw [hc]
  simp only [h8, hf, hp.back, hl, ha, Option.isSome_none, Bool.false_and, Bool.false_eq_true, if_false, Int.not_lt.mpr hb]
  have hb0 := hp.base
  unfold perform planReads
  set s0 := windowReads c k p.reads s with hs0
  simp only [readAll_plain c _ k s0 p.reads s0 hio]
  set v := p.reads.map (plainRead s0 c k) with hv
  set n := planCharge p (some (p.fin v).2) with hn
  have e5 : (s0.modCore c (fun k => { k with steps := k.steps + n })).core c = some { k with steps := k.steps + n } := core_upd s0 c k _ hb0
  have e0 : chargeCore c n s0 = noteSteps c (s0.modCore c (fun k => { k with steps := k.steps + n })) := by
    unfold chargeCore; simp [hb0, ha]
  obtain ⟨q1, q2, q3⟩ := noteSteps_became e5
  have e6 : (chargeCore c n s0).core c = some { k with steps := k.steps + n } := by rw [e0, q3]; exact e5
  have e7 := core_upd _ c _ (fun k => { k with r := (p.fin v).1, series := ser (p.fin v).1 }) e6
  have e8 := coreWrites_priv e7 (p.writes.zip (p.fin v).2) (fun e he => hp.writes _ (List.of_mem_zip he).1)
  have e9 : ∀ (l : List (Nat × Byte)) (k : Core), (setPrivs l k).spec = k.spec := by
    intro l; induction l with
    | nil => intro k; rfl
    | cons e t ih => intro k; exact ih _
  rw [e8]
  refine ⟨_, rfl, ?_⟩
  have e10 : ∀ (l : List (Nat × Byte)) (k : Core), (setPrivs l k).steps = k.steps := by
    intro l; induction l with
    | nil => intro k; rfl
    | cons e t ih => intro k; exact ih _
  have e11 : ({ (chargeCore c n s0).modCore c (fun k => { k with r := (p.fin v).1, series := ser (p.fin v).1 }) with
      cores := upd ((chargeCore c n s0).modCore c (fun k => { k with r := (p.fin v).1, series := ser (p.fin v).1 })).cores c
        (fun _ => setPrivs (p.writes.zip (p.fin v).2) { ({ k with steps := k.steps + n } : Core) with r := (p.fin v).1, series := ser (p.fin v).1 }) } : State).core c =
      some (setPrivs (p.writes.zip (p.fin v).2) { ({ k with steps := k.steps + n } : Core) with r := (p.fin v).1, series := ser (p.fin v).1 }) := by
    have := core_upd _ c _ (fun _ => setPrivs (p.writes.zip (p.fin v).2) { ({ k with steps := k.steps + n } : Core) with r := (p.fin v).1, series := ser (p.fin v).1 }) e7
    rwa [modCore_const _ c _ _ e7] at this
  rw [modCore_const _ c _ _ e11, modCore_const _ c _ _ e6]
  simp only [cores_upd_twice, e9, ha, Option.map_none]
  rw [e0, q3, modCore_const s0 c k _ hb0]
  simp only [cores_upd_twice]
  rw [modCore_const s0 c k _ hb0] at q1 q2
  refine coreBecame_iff.2 ⟨rfl, q1, ?_⟩
  simp only [e10]
  exact q2

theorem setPrivs_ahead (l : List (Nat × Byte)) (k : Core) : ({ setPrivs l k with spec := none } : Core) = setPrivs l { k with spec := none } := by
  induction l generalizing k with
  | nil => rfl
  | cons e t ih => exact ih (k.setPriv e.1 e.2)

/-! The parts of CoreAt. -/

theorem CoreAt.core {s : State} {c : Nat} {k : Core} {op n w : Nat} (h : CoreAt s c k op n w) : s.core c = some k := h.1
theorem CoreAt.runs {s : State} {c : Nat} {k : Core} {op n w : Nat} (h : CoreAt s c k op n w) : coreRuns s c k = true := h.2.1
theorem CoreAt.idle {s : State} {c : Nat} {k : Core} {op n w : Nat} (h : CoreAt s c k op n w) : k.series = .idle := h.2.2.1
theorem CoreAt.ahead {s : State} {c : Nat} {k : Core} {op n w : Nat} (h : CoreAt s c k op n w) : k.spec = none := h.2.2.2.1
theorem CoreAt.sound {s : State} {c : Nat} {k : Core} {op n w : Nat} (h : CoreAt s c k op n w) : k.memBad = [] := h.2.2.2.2.1
theorem CoreAt.fits {s : State} {c : Nat} {k : Core} {op n w : Nat} (h : CoreAt s c k op n w) : k.r.pc.toNat + n ≤ 0x7FFF := h.2.2.2.2.2.1
theorem CoreAt.opcode {s : State} {c : Nat} {k : Core} {op n w : Nat} (h : CoreAt s c k op n w) : (k.priv k.r.pc.toNat).toNat = op := h.2.2.2.2.2.2.1
theorem CoreAt.budget {s : State} {c : Nat} {k : Core} {op n w : Nat} (h : CoreAt s c k op n w) : k.steps + w ≤ (s.get (F.SRT_BUDGET_BUDGET c) : Int) := h.2.2.2.2.2.2.2

/-- A core that is about to execute an opcode of the row performs the plan of the row. -/
theorem coreInstr_plain {s : State} {c : Nat} {k : Core} {op n w : Nat} (h : CoreAt s c k op n w) (row : IsaRow) (hcode : row.codes op = true)
    (p : Plan) (hplan : row.plan op (ctxOf k) = p) (hp : PlainPlan s c k p) (hlen : p.len ≤ n + 1) (hw : chargeBefore p ≤ w)
    (hm : (op = 0x05 ∨ op = 0x06) → ¬(k.op1 = 0 ∨ k.op1 &&& 0xC0#8 ≠ 0)) :
    ∃ t, coreInstr c row s = opAfter c op t ∧
      CoreBecame (windowReads c k p.reads s) t c (setPrivs (p.writes.zip (p.fin (p.reads.map (plainRead (windowReads c k p.reads s) c k))).2)
        { k with r := (p.fin (p.reads.map (plainRead (windowReads c k p.reads s) c k))).1,
                 steps := k.steps + planCharge p (some (p.fin (p.reads.map (plainRead (windowReads c k p.reads s) c k))).2) }) := by
  have hf := h.fits
  have ho : coreOpcode s c = some (some op) := by
    unfold coreOpcode
    rw [h.core]
    simp only [h.runs, h.idle, Bool.not_true, Bool.false_eq_true, if_false, ne_eq, not_true_eq_false, h.opcode]
    rw [if_neg (by omega)]
  have hbud : k.steps + chargeBefore p ≤ (s.get (F.SRT_BUDGET_BUDGET c) : Int) := by have := h.budget; omega
  obtain ⟨t, ht, hb⟩ := runPlan_plain h.core h.ahead hp hbud true (fun _ => .idle) (opStops k op) (opAfter c op)
  rw [setPrivs_ahead, ← h.idle, ← h.ahead] at hb
  refine ⟨t, ?_, hb⟩
  unfold coreInstr
  rw [ho]
  simp only [hcode, if_true]
  unfold runOp
  rw [h.core]
  simp only [hplan, h.sound, List.contains_nil, Bool.false_eq_true, if_false]
  rw [if_neg (by omega), if_neg (by simp), if_neg (fun ⟨a, b⟩ => hm a b)]
  exact ht

/-- An instruction that touches no memory. -/
theorem coreInstr_calm {s : State} {c : Nat} {k : Core} {op n w : Nat} (h : CoreAt s c k op n w) (row : IsaRow) (hcode : row.codes op = true)
    (p : Plan) (hplan : row.plan op (ctxOf k) = p) (hr : p.reads = []) (hw : p.writes = []) (m : Nat) (hn : p.next = some m) (hm : m < 0x8000)
    (hlen : p.len ≤ n + 1) (hwt : p.weight = w)
    (hmask : (op = 0x05 ∨ op = 0x06) → ¬(k.op1 = 0 ∨ k.op1 &&& 0xC0#8 ≠ 0)) :
    ∃ t, coreInstr c row s = opAfter c op t ∧ CoreBecame s t c { k with r := (p.fin []).1, steps := k.steps + w } := by
  have hp : PlainPlan s c k p :=
    { reads := by simp [hr], writes := by simp [hw], stack := by simp [hr], back := by simp [returnBad, hn]
      base := by rw [hr]; exact h.core
      next := by intro j hj; rw [hn] at hj; cases hj; exact hm }
  obtain ⟨t, h1, h2⟩ := coreInstr_plain h row hcode p hplan hp hlen (by simp [chargeBefore, planCharge, hr, hw, hwt]) hmask
  refine ⟨t, h1, ?_⟩
  simpa [hr, hw, planCharge, setPrivs, hwt, windowReads] using h2

/-- The address past an instruction that ends in private memory. -/
theorem after_lt {s : State} {c : Nat} {k : Core} {op n w : Nat} (h : CoreAt s c k op n w) : (k.r.pc + BitVec.ofNat 16 n).toNat < 0x8000 := by
  have := h.fits
  rw [BitVec.toNat_add, BitVec.toNat_ofNat]
  omega

theorem opAfter_id {c op : Nat} (s : State) (h : op ≠ 2) (h2 : op ≠ 4) : opAfter c op s = s := by simp [opAfter, h, h2]

/-- The command of an instruction that touches no memory answers the state its plan gives. -/
theorem goes_calm {s : State} {c : Nat} {k : Core} {op n w : Nat} (i : Instr) (row : IsaRow) (r1 : CoreRegs)
    (hex : ∀ s, exec i s = .next (coreInstr c row s)) (hcode : row.codes op = true) (h2 : op ≠ 2) (h4 : op ≠ 4)
    (hr : (row.plan op (ctxOf k)).reads = []) (hw : (row.plan op (ctxOf k)).writes = [])
    (hlen : (row.plan op (ctxOf k)).len ≤ n + 1) (hwt : (row.plan op (ctxOf k)).weight = w)
    (hf : ((row.plan op (ctxOf k)).fin []).1 = r1)
    (hmask : (op = 0x05 ∨ op = 0x06) → ¬(k.op1 = 0 ∨ k.op1 &&& 0xC0#8 ≠ 0))
    (hn : CoreAt s c k op n w → ∃ m, (row.plan op (ctxOf k)).next = some m ∧ m < 0x8000)
    (h : CoreAt s c k op n w) : Goes i s (fun t => CoreBecame s t c { k with r := r1, steps := k.steps + w }) := by
  obtain ⟨m, hm1, hm2⟩ := hn h
  obtain ⟨t, ht, hb⟩ := coreInstr_calm h row hcode _ rfl hr hw m hm1 hm2 hlen hwt hmask
  rw [opAfter_id _ h2 h4] at ht
  exact ⟨t, by rw [hex, ht], by rw [← hf]; exact hb⟩

/-- The command of an instruction whose accesses are plain answers the state its plan gives, over that which its reads on the bus leave. -/
theorem goes_plain {s : State} {c : Nat} {k : Core} {op n w : Nat} (i : Instr) (row : IsaRow) (k1 : Core)
    (hex : ∀ s, exec i s = .next (coreInstr c row s)) (hcode : row.codes op = true) (h2 : op ≠ 2) (h4 : op ≠ 4)
    (p : Plan) (hplan : row.plan op (ctxOf k) = p)
    (hp : CoreAt s c k op n w → PlainPlan s c k p) (hlen : p.len ≤ n + 1) (hwt : chargeBefore p ≤ w)
    (hmask : (op = 0x05 ∨ op = 0x06) → ¬(k.op1 = 0 ∨ k.op1 &&& 0xC0#8 ≠ 0))
    (hf : setPrivs (p.writes.zip (p.fin (p.reads.map (plainRead (windowReads c k p.reads s) c k))).2)
        { k with r := (p.fin (p.reads.map (plainRead (windowReads c k p.reads s) c k))).1,
                 steps := k.steps + planCharge p (some (p.fin (p.reads.map (plainRead (windowReads c k p.reads s) c k))).2) } = k1)
    (h : CoreAt s c k op n w) : Goes i s (fun t => CoreBecame (windowReads c k p.reads s) t c k1) := by
  obtain ⟨t, ht, hb⟩ := coreInstr_plain h row hcode p hplan (hp h) hlen hwt hmask
  rw [opAfter_id _ h2 h4] at ht
  exact ⟨t, by rw [hex, ht], by rw [← hf]; exact hb⟩

/-- The steps a plain read is charged beside the weight: those of a window access (R231). -/
def readSteps (a : Nat) : Nat := if isWindow a then 40 else 0

theorem accessSteps_read {s : State} {c : Nat} {k : Core} {a : Nat} (h : Readable s c k a) (v : Option Byte) : accessSteps false v a = readSteps a := by
  simp [accessSteps, readSteps, h.1]

/-- A plan that reads one byte and writes none. -/
theorem goes_read {s : State} {c : Nat} {k : Core} {op n : Nat} (i : Instr) (row : IsaRow) (r1 : CoreRegs)
    (hex : ∀ s, exec i s = .next (coreInstr c row s)) (hcode : row.codes op = true) (h2 : op ≠ 2) (h4 : op ≠ 4) (h5 : op ≠ 5) (h6 : op ≠ 6)
    (p : Plan) (hplan : row.plan op (ctxOf k) = p) (a : Nat) (hr : p.reads = [a]) (ha : Readable s c k a) (hs : p.stackR = true → a < 0x8000)
    (hb : (windowReads c k [a] s).core c = some k)
    (hw : p.writes = []) (hn : p.next = some (k.r.pc + BitVec.ofNat 16 n).toNat) (hlen : p.len ≤ n + 1)
    (hf : (p.fin [plainRead (windowReads c k [a] s) c k a]).1 = r1)
    (h : CoreAt s c k op n (p.weight + readSteps a)) :
    Goes i s (fun t => CoreBecame (windowReads c k [a] s) t c { k with r := r1, steps := k.steps + (p.weight + readSteps a : Nat) }) := by
  have := goes_plain (n := n) (w := p.weight + readSteps a) i row { k with r := r1, steps := k.steps + (p.weight + readSteps a : Nat) } hex hcode h2 h4 p hplan
    (fun h =>
      { reads := by intro b hb; rw [hr, List.mem_singleton] at hb; rw [hb]; exact ha
        writes := by intro b hb; rw [hw] at hb; cases hb
        stack := by intro h1 b hb; rw [hr, List.mem_singleton] at hb; rw [hb]; exact hs h1
        back := by simp [returnBad, hn]
        base := by rw [hr]; exact hb
        next := by intro m hm; rw [hn] at hm; cases hm; exact after_lt h })
    hlen (by simp [chargeBefore, planCharge, hr, hw, accessSteps_read ha]) (by omega)
    (by simp [planCharge, hr, hw, accessSteps_read ha, setPrivs, hf]) h
  rwa [hr] at this

/-- A byte of private memory may be read with no other step. -/
theorem readable_private {s : State} {c : Nat} {k : Core} {a : Nat} (hk : k.memBad = []) (h : a < 0x8000) : Readable s c k a :=
  ⟨by simp [isIo]; omega, by simp [accessBad, h], by simp [readFault, h, hk]⟩
theorem readSteps_private {a : Nat} (h : a < 0x8000) : readSteps a = 0 := by simp [readSteps, isWindow]; omega
theorem plainRead_private {s : State} {c : Nat} {k : Core} {a : Nat} (h : a < 0x8000) : plainRead s c k a = k.priv a := by
  have : isWindow a = false := by simp [isWindow]; omega
  simp [plainRead, this]
theorem accessSteps_private {a : Nat} (h : a < 0x8000) (wr : Bool) (v : Option Byte) : accessSteps wr v a = 0 := by
  have h1 : isWindow a = false := by simp [isWindow]; omega
  have h2 : isIo a = false := by simp [isIo]; omega
  simp [accessSteps, h1, h2]

/-- A plan whose accesses all lie in private memory. -/
theorem goes_private {s : State} {c : Nat} {k : Core} {op n w : Nat} (i : Instr) (row : IsaRow) (k1 : Core)
    (hex : ∀ s, exec i s = .next (coreInstr c row s)) (hcode : row.codes op = true) (h7 : 7 ≤ op ∨ op = 3)
    (p : Plan) (hplan : row.plan op (ctxOf k) = p) (hr : ∀ a ∈ p.reads, a < 0x8000) (hw : ∀ a ∈ p.writes, a < 0x8000)
    (hn : CoreAt s c k op n w → (∃ m, p.next = some m ∧ m < 0x8000) ∨ (p.fin (p.reads.map k.priv)).1.pc.toNat < 0x8000 ∧ p.next = none)
    (hlen : p.len ≤ n + 1) (hwt : p.weight = w)
    (hf : setPrivs (p.writes.zip (p.fin (p.reads.map k.priv)).2) { k with r := (p.fin (p.reads.map k.priv)).1, steps := k.steps + w } = k1)
    (h : CoreAt s c k op n w) : Goes i s (fun t => CoreBecame s t c k1) := by
  have e : p.reads.map (plainRead s c k) = p.reads.map k.priv := List.map_congr_left (fun a ha => plainRead_private (hr a ha))
  have e0 : windowReads c k p.reads s = s := windowReads_none (fun a ha => by have := hr a ha; simp [isWindow]; omega)
  have e1 : ∀ b, planCharge p b = w := by
    intro b
    have a1 : (p.reads.map (accessSteps false none)).sum = 0 := by
      apply List.sum_eq_zero; intro x hx
      obtain ⟨a, ha, rfl⟩ := List.mem_map.mp hx
      exact accessSteps_private (hr a ha) _ _
    have a2 : ((List.range p.writes.length).map (fun i => accessSteps true (b.bind (fun l => l[i]?)) (p.writes.getD i 0))).sum = 0 := by
      apply List.sum_eq_zero; intro x hx
      obtain ⟨j, hj, rfl⟩ := List.mem_map.mp hx
      have hj' := List.mem_range.mp hj
      apply accessSteps_private
      rw [List.getD_eq_getElem _ _ hj']
      exact hw _ (List.getElem_mem hj')
    unfold planCharge
    rw [a1, a2, hwt]; rfl
  have q2 : op ≠ 2 := by clear h; omega
  have q4 : op ≠ 4 := by clear h; omega
  have qw : chargeBefore p ≤ w := by unfold chargeBefore; rw [e1]
  have qm : (op = 0x05 ∨ op = 0x06) → ¬(k.op1 = 0 ∨ k.op1 &&& 0xC0#8 ≠ 0) := by clear hn h; intro x; exfalso; omega
  have qp : PlainPlan s c k p :=
    { reads := fun a ha => readable_private h.sound (hr a ha), writes := hw, stack := fun _ => hr
      next := by
        intro m hm
        rcases hn h with ⟨m1, h1, h2⟩ | ⟨_, h2⟩
        · rw [hm] at h1; cases h1; exact h2
        · rw [hm] at h2; cases h2
      base := by rw [e0]; exact h.core
      back := by
        rcases hn h with ⟨m1, h1, h2⟩ | ⟨h1, h2⟩
        · simp [returnBad, h1]
        · unfold returnBad; rw [e]; simp; intro _; exact h1 }
  have := goes_plain i row k1 hex hcode q2 q4 p hplan (fun _ => qp) hlen qw qm (by rw [e0, e, e1]; exact hf) h
  rwa [e0] at this

end Sys2Proof.Machine
end

