-- ==== Sys2Proof/Laws/Formed.lean ====
section
/-!
SUPPORT. The canonical form of both maps, as a property that is not unfolded: what it says of a record, of a choice and of a repetition.
-/

namespace Sys2Proof.Machine

/-- Both maps of a state are in canonical form. -/
structure Formed (s : State) : Prop where
  regs : Registers.wf s.regs = true
  mem : Memory.wf s.mem = true

theorem formed_iff (s : State) : Formed s ↔ s.Inv := ⟨fun h => ⟨h.1, h.2⟩, fun h => ⟨h.1, h.2⟩⟩
theorem formed_of {s t : State} (h : Formed s) (h1 : t.regs = s.regs) (h2 : t.mem = s.mem) : Formed t := ⟨h1 ▸ h.1, h2 ▸ h.2⟩
theorem formed_mk {pending' : List Instr} {regs' : List (Nat × BitVec 32)} {mem' : List (Nat × Byte)} {tb' : Nat} {freeCtr' : Nat} {rdata' : Nat} {pace' : Pace} {arbs' : List Arb} {ledg' : Ledger} {recs' : Records} {flt' : Faults} {gate' : Gate} {cores' : List Core} {chains' : List Chain} {sources' : List Source} {trend' : Trend} {ports' : List Port} {seq' : Sequencer} {tmr' : Timers} {links' : List Link} {est' : Estate} {host' : HostPort} {twp' : Twp} {tap' : Tap} {parts' : List Part} {rmap' : RMap} {pow' : Power} :
    Formed ⟨pending', regs', mem', tb', freeCtr', rdata', pace', arbs', ledg', recs', flt', gate', cores', chains', sources', trend', ports', seq', tmr', links', est', host', twp', tap', parts', rmap', pow'⟩ ↔ Registers.wf regs' = true ∧ Memory.wf mem' = true := ⟨fun h => ⟨h.1, h.2⟩, fun h => ⟨h.1, h.2⟩⟩
theorem formed_regs {s : State} (h : Formed s) : Registers.wf s.regs = true := h.1
theorem formed_mem {s : State} (h : Formed s) : Memory.wf s.mem = true := h.2
theorem formed_filter_regs {l : List (Nat × Word)} {p : Nat × Word → Bool} (h : Registers.wf l = true) : Registers.wf (l.filter p) = true := mapWf_filter p h
theorem formed_filter_mem {l : List (Nat × Byte)} {p : Nat × Byte → Bool} (h : Memory.wf l = true) : Memory.wf (l.filter p) = true := mapWf_filter p h
theorem formed_nil : Registers.wf [] = true := rfl
theorem formed_nil_mem : Memory.wf [] = true := rfl
theorem formed_setReg {s : State} {a : Nat} {v : Word} (h : Formed s) : Formed (s.setReg a v) := (formed_iff _).2 (Inv_setReg _ _ ((formed_iff _).1 h))
theorem formed_setByte {s : State} {a : Nat} {b : Byte} (h : Formed s) : Formed (s.setByte a b) := (formed_iff _).2 (Inv_setByte _ _ ((formed_iff _).1 h))
theorem formed_putBytes {a : Nat} {l : List Byte} {s : State} (h : Formed s) : Formed (putBytes a l s) := (formed_iff _).2 (Inv_putBytes _ _ ((formed_iff _).1 h))
theorem formed_forUpTo {f : Nat → State → State} {s : State} (n : Nat) (hf : ∀ i s, Formed s → Formed (f i s)) (h : Formed s) : Formed (forUpTo n f s) := by
  induction n with
  | zero => exact h
  | succ n ih => exact hf n _ ih
theorem formed_opt_ite {c : Prop} [Decidable c] {a b : Option State} {t : State} (h : a = some t → Formed t) (g : b = some t → Formed t) :
    (if c then a else b) = some t → Formed t := by
  split
  · exact h
  · exact g
theorem formed_opt_some {s t : State} (h : Formed s) : some s = some t → Formed t := fun e => by cases e; exact h
theorem formed_opt_none {t : State} : none = some t → Formed t := fun e => by cases e
theorem formed_foldl {α : Type} {f : State → α → State} (l : List α) {s : State} (hf : ∀ s x, Formed s → Formed (f s x)) (h : Formed s) : Formed (l.foldl f s) := by
  induction l generalizing s with
  | nil => exact h
  | cons x l ih => exact ih (hf s x h)
theorem formed_foldl_fst {α β : Type} {f : State × β → α → State × β} (l : List α) {p q : State × β} (e : l.foldl f p = q) (hf : ∀ p x, Formed p.1 → Formed (f p x).1)
    (h : Formed p.1) : Formed q.1 := by
  subst e
  induction l generalizing p with
  | nil => exact h
  | cons x l ih => exact ih (hf _ x h)
theorem formed_foldl_snd {α β : Type} {f : β × State → α → β × State} (l : List α) {p q : β × State} (e : l.foldl f p = q) (hf : ∀ p x, Formed p.2 → Formed (f p x).2)
    (h : Formed p.2) : Formed q.2 := by
  subst e
  induction l generalizing p with
  | nil => exact h
  | cons x l ih => exact ih (hf _ x h)
theorem formed_foldl_two {α β : Type} {f : β × State → α → β × State} (l : List α) {p : β × State} (hf : ∀ p x, Formed p.2 → Formed (f p x).2)
    (h : Formed p.2) : Formed (l.foldl f p).2 := formed_foldl_snd l rfl hf h
theorem formed_iter_snd {α : Type} {f : α × State → α × State} {p : α × State} (n : Nat) (hf : ∀ p, Formed p.2 → Formed (f p).2) (h : Formed p.2) : Formed (iter n f p).2 := by
  induction n with
  | zero => exact h
  | succ n ih => exact hf _ ih
theorem formed_iter {f : State → State} {s : State} (n : Nat) (hf : ∀ s, Formed s → Formed (f s)) (h : Formed s) : Formed (iter n f s) := by
  induction n with
  | zero => exact h
  | succ n ih => exact hf _ ih
theorem formed_ite {c : Prop} [Decidable c] {s t : State} (h : Formed s) (g : Formed t) : Formed (if c then s else t) := by
  split
  · exact h
  · exact g

end Sys2Proof.Machine
end

