-- ==== Sys2Proof/Laws/Form.lean ====
section
/-!
SUPPORT. What keeps both maps of a state in canonical form: the operations of the registers, the ledger, the gatekeeper, the chains, the trends, the line and the timers.
One lemma for each operation that answers a state, and for each that answers one beside a value a lemma about that state.
-/

namespace Sys2Proof.Machine

theorem formed_State_put {s : State} {f : Fd} {v : Nat} (hs : Formed s) : Formed (State.put s f v) := by
  unfold State.put
  with_reducible repeat' first | intro _ | assumption | apply formed_setReg

theorem formed_State_mark {s : State} {f : Fd} (hs : Formed s) : Formed (State.mark s f) := by
  unfold State.mark
  with_reducible repeat' first | intro _ | assumption | apply formed_State_put

theorem formed_State_putB {s : State} {f : Fd} {b : Bool} (hs : Formed s) : Formed (State.putB s f b) := by
  unfold State.putB
  with_reducible repeat' first | intro _ | assumption | apply formed_State_put

theorem formed_State_incSat {s : State} {f : Fd} {n : Nat} (hs : Formed s) : Formed (State.incSat s f n) := by
  unfold State.incSat
  with_reducible repeat' first | intro _ | assumption | apply formed_State_put

theorem formed_State_incWrap {s : State} {f : Fd} {n : Nat} (hs : Formed s) : Formed (State.incWrap s f n) := by
  unfold State.incWrap
  with_reducible repeat' first | intro _ | assumption | apply formed_State_put

theorem formed_State_free_p {s : State} (hs : Formed s) : Formed (State.free s).2 := by
  unfold State.free; (try dsimp only)
  repeat' first | intro _ | with_reducible assumption | with_reducible apply formed_ite | (simp only [↓formed_mk]; refine And.intro ?_ ?_) | with_reducible apply formed_regs | with_reducible apply formed_mem | with_reducible apply formed_filter_regs | with_reducible apply formed_filter_mem | exact formed_nil | exact formed_nil_mem | (extract_lets +onlyGivenNames a; first | (have ha : Formed a := (by dsimp only [a]; repeat' first | intro _ | with_reducible assumption | with_reducible apply formed_ite | (simp only [↓formed_mk]; refine And.intro ?_ ?_) | with_reducible apply formed_regs | with_reducible apply formed_mem | with_reducible apply formed_filter_regs | with_reducible apply formed_filter_mem | exact formed_nil | exact formed_nil_mem | split | dsimp only [id_eq]); clear_value a) | (have hf : State → State := a; clear hf; (try dsimp only [a]); clear a) | clear_value a) | split | dsimp only [id_eq]
theorem formed_State_free_t {s : State} {r0 : Nat} {t : State} (he : State.free s = (r0, t)) (hs : Formed s) : Formed t := by
  have k : Formed (State.free s).2 := formed_State_free_p (hs := hs)
  rw [he] at k; exact k

theorem formed_refuse {writer addr : Nat} {s : State} (hs : Formed s) : Formed (refuse writer addr s) := by
  unfold refuse
  with_reducible repeat' first | intro _ | assumption | apply formed_ite | apply formed_State_mark | apply formed_State_put

theorem formed_refuseColliding {writer addr : Nat} {s : State} (hs : Formed s) : Formed (refuseColliding writer addr s) := by
  unfold refuseColliding
  with_reducible repeat' first | intro _ | assumption | apply formed_State_put | apply formed_State_mark

theorem formed_State_modLedg {s : State} {f : Ledger → Ledger} (hs : Formed s) : Formed (State.modLedg s f) := by
  unfold State.modLedg
  repeat' first | intro _ | with_reducible assumption | with_reducible apply formed_ite | (simp only [↓formed_mk]; refine And.intro ?_ ?_) | with_reducible apply formed_regs | with_reducible apply formed_mem | with_reducible apply formed_filter_regs | with_reducible apply formed_filter_mem | exact formed_nil | exact formed_nil_mem | (extract_lets +onlyGivenNames a; first | (have ha : Formed a := (by dsimp only [a]; repeat' first | intro _ | with_reducible assumption | with_reducible apply formed_ite | (simp only [↓formed_mk]; refine And.intro ?_ ?_) | with_reducible apply formed_regs | with_reducible apply formed_mem | with_reducible apply formed_filter_regs | with_reducible apply formed_filter_mem | exact formed_nil | exact formed_nil_mem | split | dsimp only [id_eq]); clear_value a) | (have hf : State → State := a; clear hf; (try dsimp only [a]); clear a) | clear_value a) | split | dsimp only [id_eq]

theorem formed_heal {a : Nat} {s : State} (hs : Formed s) : Formed (heal a s) := by
  unfold heal
  with_reducible repeat' first | intro _ | assumption | apply formed_State_modLedg

theorem formed_bankWrite {u a : Nat} {b : List Byte} {s : State} (hs : Formed s) : Formed (bankWrite u a b s) := by
  unfold bankWrite
  with_reducible repeat' first | intro _ | assumption | apply formed_ite | apply formed_putBytes | apply formed_iter_snd | apply formed_heal

theorem formed_pigeonWrite {u a : Nat} {b : List Byte} {s : State} (hs : Formed s) : Formed (pigeonWrite u a b s) := by
  unfold pigeonWrite
  with_reducible repeat' first | intro _ | assumption | apply formed_bankWrite

theorem formed_State_modCore {s : State} {c : Nat} {f : Core → Core} (hs : Formed s) : Formed (State.modCore s c f) := by
  unfold State.modCore
  repeat' first | intro _ | with_reducible assumption | with_reducible apply formed_ite | (simp only [↓formed_mk]; refine And.intro ?_ ?_) | with_reducible apply formed_regs | with_reducible apply formed_mem | with_reducible apply formed_filter_regs | with_reducible apply formed_filter_mem | exact formed_nil | exact formed_nil_mem | (extract_lets +onlyGivenNames a; first | (have ha : Formed a := (by dsimp only [a]; repeat' first | intro _ | with_reducible assumption | with_reducible apply formed_ite | (simp only [↓formed_mk]; refine And.intro ?_ ?_) | with_reducible apply formed_regs | with_reducible apply formed_mem | with_reducible apply formed_filter_regs | with_reducible apply formed_filter_mem | exact formed_nil | exact formed_nil_mem | split | dsimp only [id_eq]); clear_value a) | (have hf : State → State := a; clear hf; (try dsimp only [a]); clear a) | clear_value a) | split | dsimp only [id_eq]

theorem formed_beginExit {mode : Nat} {s : State} (hs : Formed s) : Formed (beginExit mode s) := by
  unfold beginExit
  repeat' first | intro _ | with_reducible assumption | with_reducible apply formed_State_put | with_reducible apply formed_ite | (simp only [↓formed_mk]; refine And.intro ?_ ?_) | with_reducible apply formed_regs | with_reducible apply formed_mem | with_reducible apply formed_filter_regs | with_reducible apply formed_filter_mem | exact formed_nil | exact formed_nil_mem | (extract_lets +onlyGivenNames a; first | (have ha : Formed a := (by dsimp only [a]; repeat' first | intro _ | with_reducible assumption | with_reducible apply formed_State_put | with_reducible apply formed_ite | (simp only [↓formed_mk]; refine And.intro ?_ ?_) | with_reducible apply formed_regs | with_reducible apply formed_mem | with_reducible apply formed_filter_regs | with_reducible apply formed_filter_mem | exact formed_nil | exact formed_nil_mem | split | dsimp only [id_eq]); clear_value a) | (have hf : State → State := a; clear hf; (try dsimp only [a]); clear a) | clear_value a) | split | dsimp only [id_eq]

theorem formed_wakeNoted {bitNo : Nat} {s : State} (hs : Formed s) : Formed (wakeNoted bitNo s) := by
  unfold wakeNoted
  with_reducible repeat' first | intro _ | assumption | apply formed_ite | apply formed_State_put

theorem formed_wakePostmaster {s : State} (hs : Formed s) : Formed (wakePostmaster s) := by
  unfold wakePostmaster
  with_reducible repeat' first | intro _ | assumption | apply formed_ite | apply formed_State_modCore | apply formed_State_put

theorem formed_wakeRecognised {bitNo : Nat} {s : State} (hs : Formed s) : Formed (wakeRecognised bitNo s) := by
  unfold wakeRecognised
  repeat' first | intro _ | with_reducible assumption | with_reducible apply formed_State_put | with_reducible apply formed_beginExit | with_reducible apply formed_wakeNoted | with_reducible apply formed_wakePostmaster | with_reducible apply formed_ite | (simp only [↓formed_mk]; refine And.intro ?_ ?_) | with_reducible apply formed_regs | with_reducible apply formed_mem | with_reducible apply formed_filter_regs | with_reducible apply formed_filter_mem | exact formed_nil | exact formed_nil_mem | (extract_lets +onlyGivenNames a; first | (have ha : Formed a := (by dsimp only [a]; repeat' first | intro _ | with_reducible assumption | with_reducible apply formed_State_put | with_reducible apply formed_beginExit | with_reducible apply formed_wakeNoted | with_reducible apply formed_wakePostmaster | with_reducible apply formed_ite | (simp only [↓formed_mk]; refine And.intro ?_ ?_) | with_reducible apply formed_regs | with_reducible apply formed_mem | with_reducible apply formed_filter_regs | with_reducible apply formed_filter_mem | exact formed_nil | exact formed_nil_mem | split | dsimp only [id_eq]); clear_value a) | (have hf : State → State := a; clear hf; (try dsimp only [a]); clear a) | clear_value a) | split | dsimp only [id_eq]

theorem formed_noteSteps {c : Nat} {s : State} (hs : Formed s) : Formed (noteSteps c s) := by
  unfold noteSteps
  with_reducible repeat' first | intro _ | assumption | apply formed_ite | apply formed_State_put | split

theorem formed_dropAhead {u : Nat} {s : State} (hs : Formed s) : Formed (dropAhead u s) := by
  unfold dropAhead
  repeat' first | intro _ | with_reducible assumption | with_reducible apply formed_ite | (simp only [↓formed_mk]; refine And.intro ?_ ?_) | with_reducible apply formed_regs | with_reducible apply formed_mem | with_reducible apply formed_filter_regs | with_reducible apply formed_filter_mem | exact formed_nil | exact formed_nil_mem | (extract_lets +onlyGivenNames a; first | (have ha : Formed a := (by dsimp only [a]; repeat' first | intro _ | with_reducible assumption | with_reducible apply formed_ite | (simp only [↓formed_mk]; refine And.intro ?_ ?_) | with_reducible apply formed_regs | with_reducible apply formed_mem | with_reducible apply formed_filter_regs | with_reducible apply formed_filter_mem | exact formed_nil | exact formed_nil_mem | split | dsimp only [id_eq]); clear_value a) | (have hf : State → State := a; clear hf; (try dsimp only [a]); clear a) | clear_value a) | split | dsimp only [id_eq]

theorem formed_commitAhead {u : Nat} {s : State} (hs : Formed s) : Formed (commitAhead u s) := by
  unfold commitAhead
  repeat' first | intro _ | with_reducible assumption | with_reducible apply formed_ite | (simp only [↓formed_mk]; refine And.intro ?_ ?_) | with_reducible apply formed_regs | with_reducible apply formed_mem | with_reducible apply formed_filter_regs | with_reducible apply formed_filter_mem | exact formed_nil | exact formed_nil_mem | (extract_lets +onlyGivenNames a; first | (have ha : Formed a := (by dsimp only [a]; repeat' first | intro _ | with_reducible assumption | with_reducible apply formed_ite | (simp only [↓formed_mk]; refine And.intro ?_ ?_) | with_reducible apply formed_regs | with_reducible apply formed_mem | with_reducible apply formed_filter_regs | with_reducible apply formed_filter_mem | exact formed_nil | exact formed_nil_mem | split | dsimp only [id_eq]); clear_value a) | (have hf : State → State := a; clear hf; (try dsimp only [a]); clear a) | clear_value a) | split | dsimp only [id_eq]

theorem formed_endSpec {c : Nat} {s : State} (hs : Formed s) : Formed (endSpec c s) := by
  unfold endSpec
  with_reducible repeat' first | intro _ | assumption | apply formed_ite | apply formed_State_put | apply formed_State_putB

theorem formed_cancelSpec {c : Nat} {s : State} (hs : Formed s) : Formed (cancelSpec c s) := by
  unfold cancelSpec
  with_reducible repeat' first | intro _ | assumption | apply formed_endSpec | apply formed_dropAhead | apply formed_State_modCore | split

theorem formed_settleSpec {c : Nat} {r : List Byte} {s : State} (hs : Formed s) : Formed (settleSpec c r s) := by
  unfold settleSpec
  with_reducible repeat' first | intro _ | assumption | apply formed_State_modCore | apply formed_endSpec | apply formed_noteSteps | apply formed_ite | apply formed_commitAhead | apply formed_dropAhead | split

theorem formed_enqueue {c : Nat} {r : List Byte} {s : State} (hs : Formed s) : Formed (enqueue c r s) := by
  unfold enqueue
  with_reducible repeat' first | intro _ | assumption | apply formed_ite | apply formed_wakeRecognised | apply formed_settleSpec

theorem formed_pmEvent {kind value scale reason origin : Nat} {s : State} {ep : Nat} (hs : Formed s) : Formed (pmEvent kind value scale reason origin s ep) := by
  unfold pmEvent
  with_reducible repeat' first | intro _ | assumption | apply formed_enqueue

theorem formed_dayPush {unit code aux data : Nat} {s : State} (hs : Formed s) : Formed (dayPush unit code aux data s) := by
  unfold dayPush
  repeat' first | intro _ | with_reducible assumption | with_reducible apply formed_State_mark | with_reducible apply formed_State_incSat | with_reducible apply formed_ite | (simp only [↓formed_mk]; refine And.intro ?_ ?_) | with_reducible apply formed_regs | with_reducible apply formed_mem | with_reducible apply formed_filter_regs | with_reducible apply formed_filter_mem | exact formed_nil | exact formed_nil_mem | (extract_lets +onlyGivenNames a; first | (have ha : Formed a := (by dsimp only [a]; repeat' first | intro _ | with_reducible assumption | with_reducible apply formed_State_mark | with_reducible apply formed_State_incSat | with_reducible apply formed_ite | (simp only [↓formed_mk]; refine And.intro ?_ ?_) | with_reducible apply formed_regs | with_reducible apply formed_mem | with_reducible apply formed_filter_regs | with_reducible apply formed_filter_mem | exact formed_nil | exact formed_nil_mem | split | dsimp only [id_eq]); clear_value a) | (have hf : State → State := a; clear hf; (try dsimp only [a]); clear a) | clear_value a) | split | dsimp only [id_eq]

theorem formed_tailPut {b : List Byte} {s : State} (hs : Formed s) : Formed (tailPut b s) := by
  unfold tailPut
  repeat' first | intro _ | with_reducible assumption | with_reducible apply formed_pigeonWrite | with_reducible apply formed_ite | (simp only [↓formed_mk]; refine And.intro ?_ ?_) | with_reducible apply formed_regs | with_reducible apply formed_mem | with_reducible apply formed_filter_regs | with_reducible apply formed_filter_mem | exact formed_nil | exact formed_nil_mem | (extract_lets +onlyGivenNames a; first | (have ha : Formed a := (by dsimp only [a]; repeat' first | intro _ | with_reducible assumption | with_reducible apply formed_pigeonWrite | with_reducible apply formed_ite | (simp only [↓formed_mk]; refine And.intro ?_ ?_) | with_reducible apply formed_regs | with_reducible apply formed_mem | with_reducible apply formed_filter_regs | with_reducible apply formed_filter_mem | exact formed_nil | exact formed_nil_mem | split | dsimp only [id_eq]); clear_value a) | (have hf : State → State := a; clear hf; (try dsimp only [a]); clear a) | clear_value a) | split | dsimp only [id_eq]

theorem formed_dayWrite {e : DayEntry} {s : State} (hs : Formed s) : Formed (dayWrite e s) := by
  unfold dayWrite
  with_reducible repeat' first | intro _ | assumption | apply formed_ite | apply formed_State_put | apply formed_State_incWrap | apply formed_pigeonWrite | apply formed_tailPut | split

theorem formed_dayNext {s : State} (hs : Formed s) : Formed (dayNext s) := by
  unfold dayNext
  repeat' first | intro _ | with_reducible assumption | with_reducible apply formed_dayWrite | with_reducible apply formed_ite | (simp only [↓formed_mk]; refine And.intro ?_ ?_) | with_reducible apply formed_regs | with_reducible apply formed_mem | with_reducible apply formed_filter_regs | with_reducible apply formed_filter_mem | exact formed_nil | exact formed_nil_mem | (extract_lets +onlyGivenNames a; first | (have ha : Formed a := (by dsimp only [a]; repeat' first | intro _ | with_reducible assumption | with_reducible apply formed_dayWrite | with_reducible apply formed_ite | (simp only [↓formed_mk]; refine And.intro ?_ ?_) | with_reducible apply formed_regs | with_reducible apply formed_mem | with_reducible apply formed_filter_regs | with_reducible apply formed_filter_mem | exact formed_nil | exact formed_nil_mem | split | dsimp only [id_eq]); clear_value a) | (have hf : State → State := a; clear hf; (try dsimp only [a]); clear a) | clear_value a) | split | dsimp only [id_eq]

theorem formed_dayDrain {s : State} (hs : Formed s) : Formed (dayDrain s) := by
  unfold dayDrain
  with_reducible repeat' first | intro _ | assumption | apply formed_ite | apply formed_iter | apply formed_dayNext

theorem formed_freeze {reason : Nat} {what : FlushThen} {s : State} (hs : Formed s) : Formed (freeze reason what s) := by
  unfold freeze
  repeat' first | intro _ | with_reducible assumption | with_reducible apply formed_State_mark | with_reducible apply formed_pigeonWrite | with_reducible apply formed_tailPut | with_reducible apply formed_dayWrite | with_reducible apply formed_dayDrain | with_reducible apply formed_ite | (simp only [↓formed_mk]; refine And.intro ?_ ?_) | with_reducible apply formed_regs | with_reducible apply formed_mem | with_reducible apply formed_filter_regs | with_reducible apply formed_filter_mem | exact formed_nil | exact formed_nil_mem | (extract_lets +onlyGivenNames a; first | (have ha : Formed a := (by dsimp only [a]; repeat' first | intro _ | with_reducible assumption | with_reducible apply formed_State_mark | with_reducible apply formed_pigeonWrite | with_reducible apply formed_tailPut | with_reducible apply formed_dayWrite | with_reducible apply formed_dayDrain | with_reducible apply formed_ite | (simp only [↓formed_mk]; refine And.intro ?_ ?_) | with_reducible apply formed_regs | with_reducible apply formed_mem | with_reducible apply formed_filter_regs | with_reducible apply formed_filter_mem | exact formed_nil | exact formed_nil_mem | split | dsimp only [id_eq]); clear_value a) | (have hf : State → State := a; clear hf; (try dsimp only [a]); clear a) | clear_value a) | split | dsimp only [id_eq]

theorem formed_takeSafe {s : State} (hs : Formed s) : Formed (takeSafe s) := by
  unfold takeSafe
  repeat' first | intro _ | with_reducible assumption | with_reducible apply formed_ite | (simp only [↓formed_mk]; refine And.intro ?_ ?_) | with_reducible apply formed_regs | with_reducible apply formed_mem | with_reducible apply formed_filter_regs | with_reducible apply formed_filter_mem | exact formed_nil | exact formed_nil_mem | (extract_lets +onlyGivenNames a; first | (have ha : Formed a := (by dsimp only [a]; repeat' first | intro _ | with_reducible assumption | with_reducible apply formed_ite | (simp only [↓formed_mk]; refine And.intro ?_ ?_) | with_reducible apply formed_regs | with_reducible apply formed_mem | with_reducible apply formed_filter_regs | with_reducible apply formed_filter_mem | exact formed_nil | exact formed_nil_mem | split | dsimp only [id_eq]); clear_value a) | (have hf : State → State := a; clear hf; (try dsimp only [a]); clear a) | clear_value a) | split | dsimp only [id_eq]

theorem formed_enterSafe {u cls : Nat} {s : State} (hs : Formed s) : Formed (enterSafe u cls s) := by
  unfold enterSafe
  repeat' first | intro _ | with_reducible assumption | with_reducible apply formed_State_put | with_reducible apply formed_State_mark | with_reducible apply formed_cancelSpec | with_reducible apply formed_dayPush | with_reducible apply formed_freeze | with_reducible apply formed_takeSafe | with_reducible apply formed_forUpTo | with_reducible apply formed_ite | (simp only [↓formed_mk]; refine And.intro ?_ ?_) | with_reducible apply formed_regs | with_reducible apply formed_mem | with_reducible apply formed_filter_regs | with_reducible apply formed_filter_mem | exact formed_nil | exact formed_nil_mem | (extract_lets +onlyGivenNames a; first | (have ha : Formed a := (by dsimp only [a]; repeat' first | intro _ | with_reducible assumption | with_reducible apply formed_State_put | with_reducible apply formed_State_mark | with_reducible apply formed_cancelSpec | with_reducible apply formed_dayPush | with_reducible apply formed_freeze | with_reducible apply formed_takeSafe | with_reducible apply formed_forUpTo | with_reducible apply formed_ite | (simp only [↓formed_mk]; refine And.intro ?_ ?_) | with_reducible apply formed_regs | with_reducible apply formed_mem | with_reducible apply formed_filter_regs | with_reducible apply formed_filter_mem | exact formed_nil | exact formed_nil_mem | split | dsimp only [id_eq]); clear_value a) | (have hf : State → State := a; clear hf; (try dsimp only [a]); clear a) | clear_value a) | split | dsimp only [id_eq]

theorem formed_loadSlot {u : Nat} {sec : Bool} {cls code data : Nat} {s : State} (hs : Formed s) : Formed (loadSlot u sec cls code data s) := by
  unfold loadSlot
  with_reducible repeat' first | intro _ | assumption | apply formed_ite | apply formed_setReg | apply formed_pmEvent | apply formed_dayPush

theorem formed_clearSlot {u : Nat} {sec : Bool} {s : State} (hs : Formed s) : Formed (clearSlot u sec s) := by
  unfold clearSlot
  with_reducible repeat' first | intro _ | assumption | apply formed_ite | apply formed_State_put | apply formed_setReg

theorem formed_beginReset {u : Nat} {s0 : State} (hs0 : Formed s0) : Formed (beginReset u s0) := by
  unfold beginReset
  repeat' first | intro _ | with_reducible assumption | with_reducible apply formed_cancelSpec | with_reducible apply formed_ite | (simp only [↓formed_mk]; refine And.intro ?_ ?_) | with_reducible apply formed_regs | with_reducible apply formed_mem | with_reducible apply formed_filter_regs | with_reducible apply formed_filter_mem | exact formed_nil | exact formed_nil_mem | (extract_lets +onlyGivenNames a; first | (have ha : Formed a := (by dsimp only [a]; repeat' first | intro _ | with_reducible assumption | with_reducible apply formed_cancelSpec | with_reducible apply formed_ite | (simp only [↓formed_mk]; refine And.intro ?_ ?_) | with_reducible apply formed_regs | with_reducible apply formed_mem | with_reducible apply formed_filter_regs | with_reducible apply formed_filter_mem | exact formed_nil | exact formed_nil_mem | split | dsimp only [id_eq]); clear_value a) | (have hf : State → State := a; clear hf; (try dsimp only [a]); clear a) | clear_value a) | split | dsimp only [id_eq]

theorem formed_storm {u cls code : Nat} {s : State} (hs : Formed s) : Formed (storm u cls code s) := by
  unfold storm
  repeat' first | intro _ | with_reducible assumption | with_reducible apply formed_State_put | with_reducible apply formed_State_mark | with_reducible apply formed_State_incSat | with_reducible apply formed_cancelSpec | with_reducible apply formed_pmEvent | with_reducible apply formed_dayPush | with_reducible apply formed_enterSafe | with_reducible apply formed_beginReset | with_reducible apply formed_ite | (simp only [↓formed_mk]; refine And.intro ?_ ?_) | with_reducible apply formed_regs | with_reducible apply formed_mem | with_reducible apply formed_filter_regs | with_reducible apply formed_filter_mem | exact formed_nil | exact formed_nil_mem | (extract_lets +onlyGivenNames a; first | (have ha : Formed a := (by dsimp only [a]; repeat' first | intro _ | with_reducible assumption | with_reducible apply formed_State_put | with_reducible apply formed_State_mark | with_reducible apply formed_State_incSat | with_reducible apply formed_cancelSpec | with_reducible apply formed_pmEvent | with_reducible apply formed_dayPush | with_reducible apply formed_enterSafe | with_reducible apply formed_beginReset | with_reducible apply formed_ite | (simp only [↓formed_mk]; refine And.intro ?_ ?_) | with_reducible apply formed_regs | with_reducible apply formed_mem | with_reducible apply formed_filter_regs | with_reducible apply formed_filter_mem | exact formed_nil | exact formed_nil_mem | split | dsimp only [id_eq]); clear_value a) | (have hf : State → State := a; clear hf; (try dsimp only [a]); clear a) | clear_value a) | split | dsimp only [id_eq]

theorem formed_pmSecond {cls code data : Nat} {s : State} (hs : Formed s) : Formed (pmSecond cls code data s) := by
  unfold pmSecond
  with_reducible repeat' first | intro _ | assumption | apply formed_ite | apply formed_enterSafe | apply formed_loadSlot

theorem formed_raiseFault {u cls code data : Nat} {s : State} (hs : Formed s) : Formed (raiseFault u cls code data s) := by
  unfold raiseFault
  with_reducible repeat' first | intro _ | assumption | apply formed_ite | apply formed_pmSecond | apply formed_enterSafe | apply formed_loadSlot | apply formed_storm

theorem formed_recovering {s : State} (hs : Formed s) : Formed (recovering s) := by
  unfold recovering
  with_reducible repeat' first | intro _ | assumption | apply formed_State_putB

theorem formed_openRecovery {k : Nat} {s : State} (hs : Formed s) : Formed (openRecovery k s) := by
  unfold openRecovery
  repeat' first | intro _ | with_reducible assumption | with_reducible apply formed_recovering | with_reducible apply formed_ite | (simp only [↓formed_mk]; refine And.intro ?_ ?_) | with_reducible apply formed_regs | with_reducible apply formed_mem | with_reducible apply formed_filter_regs | with_reducible apply formed_filter_mem | exact formed_nil | exact formed_nil_mem | (extract_lets +onlyGivenNames a; first | (have ha : Formed a := (by dsimp only [a]; repeat' first | intro _ | with_reducible assumption | with_reducible apply formed_recovering | with_reducible apply formed_ite | (simp only [↓formed_mk]; refine And.intro ?_ ?_) | with_reducible apply formed_regs | with_reducible apply formed_mem | with_reducible apply formed_filter_regs | with_reducible apply formed_filter_mem | exact formed_nil | exact formed_nil_mem | split | dsimp only [id_eq]); clear_value a) | (have hf : State → State := a; clear hf; (try dsimp only [a]); clear a) | clear_value a) | split | dsimp only [id_eq]

theorem formed_closeRecovery {k : Nat} {s : State} (hs : Formed s) : Formed (closeRecovery k s) := by
  unfold closeRecovery
  repeat' first | intro _ | with_reducible assumption | with_reducible apply formed_recovering | with_reducible apply formed_ite | (simp only [↓formed_mk]; refine And.intro ?_ ?_) | with_reducible apply formed_regs | with_reducible apply formed_mem | with_reducible apply formed_filter_regs | with_reducible apply formed_filter_mem | exact formed_nil | exact formed_nil_mem | (extract_lets +onlyGivenNames a; first | (have ha : Formed a := (by dsimp only [a]; repeat' first | intro _ | with_reducible assumption | with_reducible apply formed_recovering | with_reducible apply formed_ite | (simp only [↓formed_mk]; refine And.intro ?_ ?_) | with_reducible apply formed_regs | with_reducible apply formed_mem | with_reducible apply formed_filter_regs | with_reducible apply formed_filter_mem | exact formed_nil | exact formed_nil_mem | split | dsimp only [id_eq]); clear_value a) | (have hf : State → State := a; clear hf; (try dsimp only [a]); clear a) | clear_value a) | split | dsimp only [id_eq]

theorem formed_State_modLink {s : State} {n : Nat} {f : Link → Link} (hs : Formed s) : Formed (State.modLink s n f) := by
  unfold State.modLink
  repeat' first | intro _ | with_reducible assumption | with_reducible apply formed_ite | (simp only [↓formed_mk]; refine And.intro ?_ ?_) | with_reducible apply formed_regs | with_reducible apply formed_mem | with_reducible apply formed_filter_regs | with_reducible apply formed_filter_mem | exact formed_nil | exact formed_nil_mem | (extract_lets +onlyGivenNames a; first | (have ha : Formed a := (by dsimp only [a]; repeat' first | intro _ | with_reducible assumption | with_reducible apply formed_ite | (simp only [↓formed_mk]; refine And.intro ?_ ?_) | with_reducible apply formed_regs | with_reducible apply formed_mem | with_reducible apply formed_filter_regs | with_reducible apply formed_filter_mem | exact formed_nil | exact formed_nil_mem | split | dsimp only [id_eq]); clear_value a) | (have hf : State → State := a; clear hf; (try dsimp only [a]); clear a) | clear_value a) | split | dsimp only [id_eq]

theorem formed_sendOn {n : Nat} {f : List Byte} {s : State} (hs : Formed s) : Formed (sendOn n f s) := by
  unfold sendOn
  with_reducible repeat' first | intro _ | assumption | apply formed_ite | apply formed_State_modLink

theorem formed_turnCell {f : Flip} {s : State} (hs : Formed s) : Formed (turnCell f s) := by
  unfold turnCell
  with_reducible repeat' first | intro _ | assumption | apply formed_State_modLedg

theorem formed_uncorrectable {a : Nat} {s : State} (hs : Formed s) : Formed (uncorrectable a s) := by
  unfold uncorrectable
  with_reducible repeat' first | intro _ | assumption | apply formed_ite | apply formed_raiseFault | apply formed_State_incSat | apply formed_State_put | apply formed_State_mark

theorem formed_noteCorrected {a : Nat} {s : State} (hs : Formed s) : Formed (noteCorrected a s) := by
  unfold noteCorrected
  with_reducible repeat' first | intro _ | assumption | apply formed_State_mark | apply formed_State_put | apply formed_State_incSat

theorem formed_meetLine {a : Nat} {s : State} (hs : Formed s) : Formed (meetLine a s) := by
  unfold meetLine
  with_reducible repeat' first | intro _ | assumption | apply formed_ite | apply formed_uncorrectable | apply formed_noteCorrected

theorem formed_restoreCells {o : OldLine} {s : State} (hs : Formed s) : Formed (restoreCells o s) := by
  unfold restoreCells
  with_reducible repeat' first | intro _ | assumption | apply formed_State_modLedg | apply formed_putBytes | apply formed_heal

theorem formed_wearLine {p : Nat} {s : State} (hs : Formed s) : Formed (wearLine p s) := by
  unfold wearLine
  with_reducible repeat' first | intro _ | assumption | apply formed_State_put | apply formed_State_modLedg

theorem formed_startMove {b p : Nat} {retired : Bool} {s : State} (hs : Formed s) : Formed (startMove b p retired s) := by
  unfold startMove
  with_reducible repeat' first | intro _ | assumption | apply formed_State_modLedg

theorem formed_wearLevel {b : Nat} {s : State} (hs : Formed s) : Formed (wearLevel b s) := by
  unfold wearLevel
  with_reducible repeat' first | intro _ | assumption | apply formed_ite | apply formed_startMove | split

theorem formed_programLine {a : Nat} {s : State} (hs : Formed s) : Formed (programLine a s) := by
  unfold programLine
  with_reducible repeat' first | intro _ | assumption | apply formed_wearLevel | apply formed_wearLine

theorem formed_spareLess {s : State} (hs : Formed s) : Formed (spareLess s) := by
  unfold spareLess
  with_reducible repeat' first | intro _ | assumption | apply formed_ite | apply formed_pmEvent | apply formed_State_mark | apply formed_State_put

theorem formed_noSpare {a : Nat} {s : State} (hs : Formed s) : Formed (noSpare a s) := by
  unfold noSpare
  with_reducible repeat' first | intro _ | assumption | apply formed_raiseFault | apply formed_State_mark

theorem formed_retireBlock_p {a : Nat} {s : State} (hs : Formed s) : Formed (retireBlock a s).2 := by
  unfold retireBlock; (try dsimp only)
  with_reducible repeat' first | intro _ | assumption | apply formed_spareLess | apply formed_startMove | apply formed_noSpare | apply formed_ite | apply formed_State_modLedg | split
theorem formed_retireBlock_t {a : Nat} {s : State} {r0 : Bool} {t : State} (he : retireBlock a s = (r0, t)) (hs : Formed s) : Formed t := by
  have k : Formed (retireBlock a s).2 := formed_retireBlock_p (hs := hs)
  rw [he] at k; exact k

theorem formed_programAs_p {v : Verify} {a : Nat} {s : State} (hs : Formed s) : Formed (programAs v a s).2 := by
  unfold programAs; (try dsimp only)
  with_reducible repeat' first | intro _ | assumption | apply formed_programLine | apply formed_retireBlock_p | split
theorem formed_programAs_t {v : Verify} {a : Nat} {s : State} {r0 : Bool} {t : State} (he : programAs v a s = (r0, t)) (hs : Formed s) : Formed t := by
  have k : Formed (programAs v a s).2 := formed_programAs_p (hs := hs)
  rw [he] at k; exact k

theorem formed_reportFailed {u : Nat} {s : State} (hs : Formed s) : Formed (reportFailed u s) := by
  unfold reportFailed
  with_reducible repeat' first | intro _ | assumption | apply formed_State_modLedg

theorem formed_programJournal_p {v : Verify} {e : JrnlEntry} {s : State} (hs : Formed s) : Formed (programJournal v e s).2 := by
  unfold programJournal; (try dsimp only)
  with_reducible repeat' first | intro _ | assumption | apply formed_State_modLedg | apply formed_ite | apply formed_heal | apply formed_programAs_p
theorem formed_programJournal_t {v : Verify} {e : JrnlEntry} {s : State} {r0 : Bool} {t : State} (he : programJournal v e s = (r0, t)) (hs : Formed s) : Formed t := by
  have k : Formed (programJournal v e s).2 := formed_programJournal_p (hs := hs)
  rw [he] at k; exact k

theorem formed_programJournals_t {vs : List Verify} {l : List JrnlEntry} {s t : State} {r : Bool} (e : programJournals vs l s = (r, t)) (hs : Formed s) : Formed t := by
  induction l generalizing vs s r with
  | nil => cases e; exact hs
  | cons x l ih =>
    unfold programJournals at e
    rcases h1 : programJournal (vs.headD .good) x s with ⟨b, s1⟩
    rw [h1] at e
    have k := formed_programJournal_t h1 hs
    dsimp only at e
    split at e
    · exact ih e k
    · cases e; exact k
theorem formed_programJournals_p {vs : List Verify} {l : List JrnlEntry} {s : State} (hs : Formed s) : Formed (programJournals vs l s).2 := formed_programJournals_t (r := (programJournals vs l s).1) rfl hs

theorem formed_programRecord_p {v : Verify} {i : Nat} {s : State} (hs : Formed s) : Formed (programRecord v i s).2 := by
  unfold programRecord; (try dsimp only)
  with_reducible repeat' first | intro _ | assumption | apply formed_ite | apply formed_heal | apply formed_programAs_p | split
theorem formed_programRecord_t {v : Verify} {i : Nat} {s : State} {r0 : Bool} {t : State} (he : programRecord v i s = (r0, t)) (hs : Formed s) : Formed t := by
  have k : Formed (programRecord v i s).2 := formed_programRecord_p (hs := hs)
  rw [he] at k; exact k

theorem formed_storeMap_p {v : Verify} {s : State} (hs : Formed s) : Formed (storeMap v s).2 := by
  unfold storeMap; (try dsimp only)
  repeat' first | intro _ | with_reducible assumption | (with_reducible refine formed_programRecord_t (by with_reducible assumption) ?_) | with_reducible apply formed_reportFailed | with_reducible apply formed_programRecord_p | with_reducible apply formed_ite | (simp only [↓formed_mk]; refine And.intro ?_ ?_) | with_reducible apply formed_regs | with_reducible apply formed_mem | with_reducible apply formed_filter_regs | with_reducible apply formed_filter_mem | exact formed_nil | exact formed_nil_mem | (extract_lets +onlyGivenNames a; first | (have ha : Formed a := (by dsimp only [a]; repeat' first | intro _ | with_reducible assumption | (with_reducible refine formed_programRecord_t (by with_reducible assumption) ?_) | with_reducible apply formed_reportFailed | with_reducible apply formed_programRecord_p | with_reducible apply formed_ite | (simp only [↓formed_mk]; refine And.intro ?_ ?_) | with_reducible apply formed_regs | with_reducible apply formed_mem | with_reducible apply formed_filter_regs | with_reducible apply formed_filter_mem | exact formed_nil | exact formed_nil_mem | split | dsimp only [id_eq]); clear_value a) | (have hf : State → State := a; clear hf; (try dsimp only [a]); clear a) | clear_value a) | split | dsimp only [id_eq]
theorem formed_storeMap_t {v : Verify} {s : State} {r0 : Bool} {t : State} (he : storeMap v s = (r0, t)) (hs : Formed s) : Formed t := by
  have k : Formed (storeMap v s).2 := formed_storeMap_p (hs := hs)
  rw [he] at k; exact k

theorem formed_dropMove {m : Move} {s : State} (hs : Formed s) : Formed (dropMove m s) := by
  unfold dropMove
  with_reducible repeat' first | intro _ | assumption | apply formed_ite | apply formed_State_put | apply formed_State_modLedg

theorem formed_copyFailed {m : Move} {q : List Move} {s : State} (hs : Formed s) : Formed (copyFailed m q s) := by
  unfold copyFailed
  with_reducible repeat' first | intro _ | assumption | apply formed_noSpare | apply formed_State_modLedg | apply formed_spareLess | apply formed_ite | split

theorem formed_copiedCells {b : Nat} {s : State} (hs : Formed s) : Formed (copiedCells b s) := by
  unfold copiedCells
  with_reducible repeat' first | intro _ | assumption | apply formed_State_modLedg

theorem formed_moveStep {v : Verify} {s : State} (hs : Formed s) : Formed (moveStep v s) := by
  unfold moveStep
  with_reducible repeat' first | intro _ | assumption | apply formed_forUpTo | apply formed_wearLine | apply formed_meetLine | apply formed_ite | apply formed_copyFailed | apply formed_State_modLedg | apply formed_copiedCells | apply formed_programJournal_p | apply formed_dropMove | apply formed_storeMap_p | split

theorem formed_State_freeVerify_p {s : State} (hs : Formed s) : Formed (State.freeVerify s).2 := by
  unfold State.freeVerify; (try dsimp only)
  with_reducible repeat' first | intro _ | assumption | apply formed_State_free_p
theorem formed_State_freeVerify_t {s : State} {r0 : Verify} {t : State} (he : State.freeVerify s = (r0, t)) (hs : Formed s) : Formed t := by
  have k : Formed (State.freeVerify s).2 := formed_State_freeVerify_p (hs := hs)
  rw [he] at k; exact k

theorem formed_finishSome {n : Nat} {s : State} (hs : Formed s) : Formed (finishSome n s) := by
  induction n generalizing s with
  | zero => exact hs
  | succ n ih =>
    unfold finishSome
    split
    · exact hs
    · exact ih (formed_moveStep (formed_State_freeVerify_p hs))

theorem formed_finishMoves {s : State} (hs : Formed s) : Formed (finishMoves s) := by
  unfold finishMoves
  with_reducible repeat' first | intro _ | assumption | apply formed_finishSome

theorem formed_dropBuf {b : Nat} {e : BufLine} {s : State} (hs : Formed s) : Formed (dropBuf b e s) := by
  unfold dropBuf
  with_reducible repeat' first | intro _ | assumption | apply formed_State_modLedg

theorem formed_lineDone {b : Nat} {v : Verify} {s : State} (hs : Formed s) : Formed (lineDone b v s) := by
  unfold lineDone
  with_reducible repeat' first | intro _ | assumption | apply formed_ite | apply formed_reportFailed | apply formed_restoreCells | apply formed_dropBuf | apply formed_programAs_p | split

theorem formed_drainBank {m b n : Nat} {s : State} (hs : Formed s) : Formed (drainBank m b n s) := by
  induction n generalizing s with
  | zero => exact hs
  | succ n ih =>
    unfold drainBank
    split
    · exact hs
    · refine ih ?_
      split
      · exact formed_finishMoves hs
      · exact formed_lineDone (formed_State_freeVerify_p hs)

theorem formed_recordTried {r : RecordKind} {u : Nat} {p : Bool × State} {f : Records → Records} (hp : Formed p.2) : Formed (recordTried r u p f) := by
  unfold recordTried
  repeat' first | intro _ | with_reducible assumption | with_reducible apply formed_State_modLedg | with_reducible apply formed_reportFailed | with_reducible apply formed_ite | (simp only [↓formed_mk]; refine And.intro ?_ ?_) | with_reducible apply formed_regs | with_reducible apply formed_mem | with_reducible apply formed_filter_regs | with_reducible apply formed_filter_mem | exact formed_nil | exact formed_nil_mem | (extract_lets +onlyGivenNames a; first | (have ha : Formed a := (by dsimp only [a]; repeat' first | intro _ | with_reducible assumption | with_reducible apply formed_State_modLedg | with_reducible apply formed_reportFailed | with_reducible apply formed_ite | (simp only [↓formed_mk]; refine And.intro ?_ ?_) | with_reducible apply formed_regs | with_reducible apply formed_mem | with_reducible apply formed_filter_regs | with_reducible apply formed_filter_mem | exact formed_nil | exact formed_nil_mem | split | dsimp only [id_eq]); clear_value a) | (have hf : State → State := a; clear hf; (try dsimp only [a]); clear a) | clear_value a) | split | dsimp only [id_eq]

theorem formed_recordDone {v : Verify} {s : State} (hs : Formed s) : Formed (recordDone v s) := by
  unfold recordDone
  split
  · exact hs
  · split
    · exact hs
    · dsimp only
      split <;> exact formed_recordTried (formed_programRecord_p (formed_State_modLedg hs))

theorem formed_storeRecord {r : RecordKind} {s : State} (hs : Formed s) : Formed (storeRecord r s) := by
  unfold storeRecord
  with_reducible repeat' first | intro _ | assumption | apply formed_State_modLedg

theorem formed_setTxnFlag {u : Nat} {f : TxnFlag} {s : State} (hs : Formed s) : Formed (setTxnFlag u f s) := by
  unfold setTxnFlag
  with_reducible repeat' first | intro _ | assumption | apply formed_ite | apply formed_State_modCore | apply formed_State_mark

theorem formed_dropTxn {u : Nat} {s : State} (hs : Formed s) : Formed (dropTxn u s) := by
  unfold dropTxn
  with_reducible repeat' first | intro _ | assumption | apply formed_State_modLedg

theorem formed_modTxn {u : Nat} {f : Txn → Txn} {s : State} (hs : Formed s) : Formed (modTxn u f s) := by
  unfold modTxn
  with_reducible repeat' first | intro _ | assumption | apply formed_State_modLedg

theorem formed_txnOpen {u : Nat} {s : State} (hs : Formed s) : Formed (txnOpen u s) := by
  unfold txnOpen
  with_reducible repeat' first | intro _ | assumption | apply formed_ite | apply formed_setTxnFlag | apply formed_State_modLedg

theorem formed_txnCommit {u : Nat} {s : State} (hs : Formed s) : Formed (txnCommit u s) := by
  unfold txnCommit
  with_reducible repeat' first | intro _ | assumption | apply formed_ite | apply formed_State_modLedg | apply formed_setTxnFlag | apply formed_dropTxn | apply formed_modTxn | split

theorem formed_txnAbort {u : Nat} {s : State} (hs : Formed s) : Formed (txnAbort u s) := by
  unfold txnAbort
  with_reducible repeat' first | intro _ | assumption | apply formed_ite | apply formed_State_modLedg | apply formed_dropTxn | split

theorem formed_placeLines {ls : List (Nat × List Byte)} {s : State} (hs : Formed s) : Formed (placeLines ls s) := by
  unfold placeLines
  with_reducible repeat' first | intro _ | assumption | apply formed_foldl | apply formed_State_modLedg | apply formed_putBytes | apply formed_heal

theorem formed_makeRoom {k : Nat} {s : State} (hs : Formed s) : Formed (makeRoom k s) := by
  unfold makeRoom
  with_reducible repeat' first | intro _ | assumption | apply formed_drainBank | split

theorem formed_bufferWrite {u a : Nat} {b : List Byte} {s : State} (hs : Formed s) : Formed (bufferWrite u a b s) := by
  unfold bufferWrite
  with_reducible repeat' first | intro _ | assumption | apply formed_ite | apply formed_putBytes | apply formed_heal | apply formed_State_modLedg | apply formed_makeRoom | apply formed_meetLine

theorem formed_doomOthers {u : Nat} {ls : List Nat} {s : State} (hs : Formed s) : Formed (doomOthers u ls s) := by
  unfold doomOthers
  with_reducible repeat' first | intro _ | assumption | apply formed_State_modLedg

theorem formed_holdWrite {u a : Nat} {b : List Byte} {n : Option Nat} {s : State} (hs : Formed s) : Formed (holdWrite u a b n s) := by
  unfold holdWrite
  with_reducible repeat' first | intro _ | assumption | apply formed_State_modLedg

theorem formed_directWrite {u a : Nat} {b : List Byte} {s : State} (hs : Formed s) : Formed (directWrite u a b s) := by
  unfold directWrite
  with_reducible repeat' first | intro _ | assumption | apply formed_ite | apply formed_holdWrite | apply formed_bufferWrite | apply formed_doomOthers

theorem formed_txnWrite {u : Nat} {t : Txn} {a : Nat} {b : List Byte} {s : State} (hs : Formed s) : Formed (txnWrite u t a b s) := by
  unfold txnWrite
  with_reducible repeat' first | intro _ | assumption | apply formed_ite | apply formed_holdWrite | apply formed_modTxn | apply formed_setTxnFlag | apply formed_dropTxn | apply formed_meetLine

theorem formed_writeInLine {u a : Nat} {b : List Byte} {s : State} (hs : Formed s) : Formed (writeInLine u a b s) := by
  unfold writeInLine
  with_reducible repeat' first | intro _ | assumption | apply formed_ite | apply formed_txnWrite | apply formed_directWrite | split | dsimp only [id_eq]

theorem formed_redoHeld {s : State} (hs : Formed s) : Formed (redoHeld s) := by
  unfold redoHeld
  with_reducible repeat' first | intro _ | assumption | apply formed_foldl | apply formed_directWrite | apply formed_ite | apply formed_txnWrite | apply formed_txnCommit | apply formed_State_modLedg | split

theorem formed_ledgerWrite {n u a : Nat} {b : List Byte} {s : State} (hs : Formed s) : Formed (ledgerWrite n u a b s) := by
  induction n generalizing a b s with
  | zero => exact hs
  | succ n ih =>
    unfold ledgerWrite
    split
    · exact hs
    · exact ih (formed_writeInLine hs)

theorem formed_memWrite {u a : Nat} {b : List Byte} {s : State} (hs : Formed s) : Formed (memWrite u a b s) := by
  unfold memWrite
  with_reducible repeat' first | intro _ | assumption | apply formed_ite | apply formed_ledgerWrite | apply formed_pigeonWrite

theorem formed_commitLines_p {u : Nat} {vs : List Verify} {s : State} (hs : Formed s) : Formed (commitLines u vs s).2 := by
  unfold commitLines; (try dsimp only)
  with_reducible repeat' first | intro _ | assumption | apply formed_doomOthers | apply formed_State_modLedg | apply formed_dropTxn | apply formed_placeLines | apply formed_programJournals_p | apply formed_reportFailed | split
theorem formed_commitLines_t {u : Nat} {vs : List Verify} {s : State} {r0 : Bool} {t : State} (he : commitLines u vs s = (r0, t)) (hs : Formed s) : Formed t := by
  have k : Formed (commitLines u vs s).2 := formed_commitLines_p (hs := hs)
  rw [he] at k; exact k

theorem formed_programHomes {u : Nat} {vs : List Verify} {l : List OldLine} {s : State} (hs : Formed s) : Formed (programHomes u vs l s) := by
  induction l generalizing vs s with
  | nil => exact hs
  | cons x l ih =>
    unfold programHomes
    rcases h1 : programAs (vs.headD .good) x.line s with ⟨b, s1⟩
    have k := formed_programAs_t h1 hs
    dsimp only
    refine ih ?_
    split
    · exact k
    · exact formed_reportFailed (formed_restoreCells k)

theorem formed_retireTxn {u : Nat} {vs : List Verify} {s : State} (hs : Formed s) : Formed (retireTxn u vs s) := by
  unfold retireTxn
  with_reducible repeat' first | intro _ | assumption | apply formed_ite | apply formed_redoHeld | apply formed_State_modLedg | apply formed_programJournal_p | apply formed_programHomes | apply formed_reportFailed | split

theorem formed_losePower {s : State} (hs : Formed s) : Formed (losePower s) := by
  unfold losePower
  with_reducible repeat' first | intro _ | assumption | apply formed_State_modLedg | apply formed_foldl | apply formed_dropMove | apply formed_restoreCells

theorem formed_drainBuffers {s : State} (hs : Formed s) : Formed (drainBuffers s) := by
  unfold drainBuffers
  with_reducible repeat' first | intro _ | assumption | apply formed_iter | apply formed_recordDone | apply formed_State_freeVerify_p | apply formed_finishMoves | apply formed_forUpTo | apply formed_drainBank

theorem formed_ledgerCorrected {a w : Nat} {s : State} (hs : Formed s) : Formed (ledgerCorrected a w s) := by
  unfold ledgerCorrected
  with_reducible repeat' first | intro _ | assumption | apply formed_ite | apply formed_bufferWrite | apply formed_noteCorrected

theorem formed_pigeonCorrected {a : Nat} {s : State} (hs : Formed s) : Formed (pigeonCorrected a s) := by
  unfold pigeonCorrected
  with_reducible repeat' first | intro _ | assumption | apply formed_heal | apply formed_State_mark | apply formed_State_incSat

theorem formed_readEffect {a : Nat} {s : State} (hs : Formed s) : Formed (readEffect a s) := by
  unfold readEffect
  with_reducible repeat' first | intro _ | assumption | apply formed_ite | apply formed_uncorrectable | apply formed_ledgerCorrected | apply formed_pigeonCorrected

theorem formed_readArea {a n : Nat} {s : State} (hs : Formed s) : Formed (readArea a n s) := by
  unfold readArea
  with_reducible repeat' first | intro _ | assumption | apply formed_foldl | apply formed_readEffect

theorem formed_readAs {u a : Nat} {s : State} (hs : Formed s) : Formed (readAs u a s) := by
  unfold readAs
  with_reducible repeat' first | intro _ | assumption | apply formed_ite | apply formed_readEffect

theorem formed_readSpan {u a n : Nat} {s : State} (hs : Formed s) : Formed (readSpan u a n s) := by
  unfold readSpan
  with_reducible repeat' first | intro _ | assumption | apply formed_foldl | apply formed_readAs

theorem formed_bytesAs_p {u n a : Nat} {s0 : State} (hs0 : Formed s0) : Formed (bytesAs u n a s0).2 := by
  unfold bytesAs; (try dsimp only)
  with_reducible repeat' first | intro _ | assumption | apply formed_readSpan | apply formed_foldl_two | apply formed_State_free_p | split
theorem formed_bytesAs_t {u n a : Nat} {s0 : State} {r0 : List Byte} {t : State} (he : bytesAs u n a s0 = (r0, t)) (hs0 : Formed s0) : Formed t := by
  have k : Formed (bytesAs u n a s0).2 := formed_bytesAs_p (hs0 := hs0)
  rw [he] at k; exact k

theorem formed_chargeCore {c n : Nat} {s : State} (hs : Formed s) : Formed (chargeCore c n s) := by
  unfold chargeCore
  with_reducible repeat' first | intro _ | assumption | apply formed_ite | apply formed_State_modCore | apply formed_noteSteps

theorem formed_trapEntry {c cause pc : Nat} {s : State} (hs : Formed s) : Formed (trapEntry c cause pc s) := by
  unfold trapEntry
  with_reducible repeat' first | intro _ | assumption | apply formed_dayPush

theorem formed_coreThird {c code pc : Nat} {s : State} (hs : Formed s) : Formed (coreThird c code pc s) := by
  unfold coreThird
  with_reducible repeat' first | intro _ | assumption | apply formed_ite | apply formed_pmSecond | apply formed_trapEntry | apply formed_State_modCore | apply formed_storm

theorem formed_coreTrap {c cause : Nat} {s : State} (hs : Formed s) : Formed (coreTrap c cause s) := by
  unfold coreTrap
  with_reducible repeat' first | intro _ | assumption | apply formed_ite | apply formed_coreThird | apply formed_trapEntry | apply formed_enterSafe | apply formed_chargeCore | apply formed_State_put | apply formed_loadSlot | apply formed_State_modCore | split

theorem formed_budgetTrap {c : Nat} {s : State} (hs : Formed s) : Formed (budgetTrap c s) := by
  unfold budgetTrap
  with_reducible repeat' first | intro _ | assumption | apply formed_coreTrap | apply formed_State_modCore

theorem formed_eventEntry {c : Nat} {s : State} (hs : Formed s) : Formed (eventEntry c s) := by
  unfold eventEntry
  with_reducible repeat' first | intro _ | assumption | apply formed_coreThird | apply formed_chargeCore | apply formed_State_modCore | split

theorem formed_endEntry {c : Nat} {s : State} (hs : Formed s) : Formed (endEntry c s) := by
  unfold endEntry
  with_reducible repeat' first | intro _ | assumption | apply formed_clearSlot | apply formed_State_put | apply formed_State_modCore | split

theorem formed_State_modArb {s : State} {b : Nat} {f : Arb → Arb} (hs : Formed s) : Formed (State.modArb s b f) := by
  unfold State.modArb
  repeat' first | intro _ | with_reducible assumption | with_reducible apply formed_ite | (simp only [↓formed_mk]; refine And.intro ?_ ?_) | with_reducible apply formed_regs | with_reducible apply formed_mem | with_reducible apply formed_filter_regs | with_reducible apply formed_filter_mem | exact formed_nil | exact formed_nil_mem | (extract_lets +onlyGivenNames a; first | (have ha : Formed a := (by dsimp only [a]; repeat' first | intro _ | with_reducible assumption | with_reducible apply formed_ite | (simp only [↓formed_mk]; refine And.intro ?_ ?_) | with_reducible apply formed_regs | with_reducible apply formed_mem | with_reducible apply formed_filter_regs | with_reducible apply formed_filter_mem | exact formed_nil | exact formed_nil_mem | split | dsimp only [id_eq]); clear_value a) | (have hf : State → State := a; clear hf; (try dsimp only [a]); clear a) | clear_value a) | split | dsimp only [id_eq]

theorem formed_raiseReq {b u : Nat} {ahead : Bool} {p : BusPiece} {s : State} (hs : Formed s) : Formed (raiseReq b u ahead p s) := by
  unfold raiseReq
  with_reducible repeat' first | intro _ | assumption | apply formed_State_modArb

theorem formed_bankRequest {u : Nat} {ahead : Bool} {a : Nat} {acc : BusAccess} {s : State} (hs : Formed s) : Formed (bankRequest u ahead a acc s) := by
  unfold bankRequest
  with_reducible repeat' first | intro _ | assumption | apply formed_ite | apply formed_coreTrap | apply formed_foldl | apply formed_raiseReq | split

theorem formed_grantWithdrawal {b : Nat} {s : State} (hs : Formed s) : Formed (grantWithdrawal b s) := by
  unfold grantWithdrawal
  with_reducible repeat' first | intro _ | assumption | apply formed_State_incWrap | apply formed_State_modArb | split

theorem formed_State_modGate {s : State} {f : Gate → Gate} (hs : Formed s) : Formed (State.modGate s f) := by
  unfold State.modGate
  repeat' first | intro _ | with_reducible assumption | with_reducible apply formed_ite | (simp only [↓formed_mk]; refine And.intro ?_ ?_) | with_reducible apply formed_regs | with_reducible apply formed_mem | with_reducible apply formed_filter_regs | with_reducible apply formed_filter_mem | exact formed_nil | exact formed_nil_mem | (extract_lets +onlyGivenNames a; first | (have ha : Formed a := (by dsimp only [a]; repeat' first | intro _ | with_reducible assumption | with_reducible apply formed_ite | (simp only [↓formed_mk]; refine And.intro ?_ ?_) | with_reducible apply formed_regs | with_reducible apply formed_mem | with_reducible apply formed_filter_regs | with_reducible apply formed_filter_mem | exact formed_nil | exact formed_nil_mem | split | dsimp only [id_eq]); clear_value a) | (have hf : State → State := a; clear hf; (try dsimp only [a]); clear a) | clear_value a) | split | dsimp only [id_eq]

theorem formed_ringPut {slot : Nat} {b : List Byte} {s : State} (hs : Formed s) : Formed (ringPut slot b s) := by
  unfold ringPut
  with_reducible repeat' first | intro _ | assumption | apply formed_ite | apply formed_pigeonWrite | split

theorem formed_dropFsum {u : Nat} {s : State} (hs : Formed s) : Formed (dropFsum u s) := by
  unfold dropFsum
  with_reducible repeat' first | intro _ | assumption | apply formed_ite | apply formed_State_modGate

theorem formed_closeOpen {l : OpenLetter} {s : State} (hs : Formed s) : Formed (closeOpen l s) := by
  unfold closeOpen
  with_reducible repeat' first | intro _ | assumption | apply formed_dropFsum | apply formed_ringPut | apply formed_State_modGate

theorem formed_closeSerial {serial : Nat} {s : State} (hs : Formed s) : Formed (closeSerial serial s) := by
  unfold closeSerial
  with_reducible repeat' first | intro _ | assumption | apply formed_closeOpen | split

theorem formed_redeliveryDone {s : State} (hs : Formed s) : Formed (redeliveryDone s) := by
  unfold redeliveryDone
  with_reducible repeat' first | intro _ | assumption | apply formed_ite | apply formed_closeRecovery

theorem formed_bellUpdate {fresh : Bool} {s : State} (hs : Formed s) : Formed (bellUpdate fresh s) := by
  unfold bellUpdate
  with_reducible repeat' first | intro _ | assumption | apply formed_State_putB | apply formed_ite | apply formed_State_put

theorem formed_readLetters {is : List Nat} {s : State} (hs : Formed s) : Formed (readLetters is s) := by
  unfold readLetters
  with_reducible repeat' first | intro _ | assumption | apply formed_foldl | apply formed_readSpan

theorem formed_obxWrite {b : List Byte} {s : State} (hs : Formed s) : Formed (obxWrite b s) := by
  unfold obxWrite
  with_reducible repeat' first | intro _ | assumption | apply formed_ite | apply formed_bellUpdate | apply formed_State_put | apply formed_pigeonWrite

theorem formed_obxReceive {b : List Byte} {s0 : State} (hs0 : Formed s0) : Formed (obxReceive b s0) := by
  unfold obxReceive
  with_reducible repeat' first | intro _ | assumption | apply formed_ite | apply formed_State_mark | apply formed_State_incSat | apply formed_readLetters | apply formed_obxWrite

theorem formed_upWrite {b : List Byte} {s : State} (hs : Formed s) : Formed (upWrite b s) := by
  unfold upWrite
  with_reducible repeat' first | intro _ | assumption | apply formed_State_modGate | apply formed_pigeonWrite | split

theorem formed_readCopy {slot : Nat} {s : State} (hs : Formed s) : Formed (readCopy slot s) := by
  unfold readCopy
  with_reducible repeat' first | intro _ | assumption | apply formed_readSpan | split

theorem formed_sendAck {d serial : Nat} {s : State} (hs : Formed s) : Formed (sendAck d serial s) := by
  unfold sendAck
  with_reducible repeat' first | intro _ | assumption | apply formed_ite | apply formed_State_incSat | apply formed_State_modLink

theorem formed_consume {b : List Byte} {s : State} (hs : Formed s) : Formed (consume b s) := by
  unfold consume
  with_reducible repeat' first | intro _ | assumption | apply formed_ite | apply formed_closeSerial | apply formed_State_put | apply formed_sendAck

theorem formed_outboxPop {k : Nat} {s0 : State} (hs0 : Formed s0) : Formed (outboxPop k s0) := by
  unfold outboxPop
  with_reducible repeat' first | intro _ | assumption | apply formed_ite | apply formed_State_mark | apply formed_redeliveryDone | apply formed_bellUpdate | apply formed_foldl | apply formed_consume | apply formed_State_put | apply formed_readLetters

theorem formed_bellEnable {b : Bool} {s : State} (hs : Formed s) : Formed (bellEnable b s) := by
  unfold bellEnable
  with_reducible repeat' first | intro _ | assumption | apply formed_bellUpdate | apply formed_State_putB

theorem formed_storeSerial {s : State} (hs : Formed s) : Formed (storeSerial s) := by
  unfold storeSerial
  with_reducible repeat' first | intro _ | assumption | apply formed_ite | apply formed_storeRecord

theorem formed_answer {u reason serial : Nat} {franked : Bool} {s : State} (hs : Formed s) : Formed (answer u reason serial franked s) := by
  unfold answer
  with_reducible repeat' first | intro _ | assumption | apply formed_ite | apply formed_State_modCore

theorem formed_frank {o : Offer} {dest cls : Nat} {s : State} (hs : Formed s) : Formed (frank o dest cls s) := by
  unfold frank
  with_reducible repeat' first | intro _ | assumption | apply formed_answer | apply formed_ite | apply formed_State_incSat | apply formed_upWrite | apply formed_State_modGate | apply formed_State_incWrap | apply formed_ringPut | apply formed_storeSerial | apply formed_State_put | apply formed_obxWrite

theorem formed_returnLetter {o : Offer} {reason : Nat} {s : State} (hs : Formed s) : Formed (returnLetter o reason s) := by
  unfold returnLetter
  with_reducible repeat' first | intro _ | assumption | apply formed_answer | apply formed_ite | apply formed_State_incSat | apply formed_State_mark | apply formed_State_put

theorem formed_offer {o : Offer} {s : State} (hs : Formed s) : Formed (offer o s) := by
  unfold offer
  with_reducible repeat' first | intro _ | assumption | apply formed_State_modGate

theorem formed_pruneLog {s : State} (hs : Formed s) : Formed (pruneLog s) := by
  unfold pruneLog
  with_reducible repeat' first | intro _ | assumption | apply formed_State_modGate

theorem formed_releaseOnLoss {s : State} (hs : Formed s) : Formed (releaseOnLoss s) := by
  unfold releaseOnLoss
  with_reducible repeat' first | intro _ | assumption | apply formed_redeliveryDone | apply formed_State_modGate | apply formed_foldl | apply formed_dayPush | apply formed_State_mark | apply formed_State_incSat | apply formed_closeOpen

theorem formed_markDue {far : Bool} {s : State} (hs : Formed s) : Formed (markDue far s) := by
  unfold markDue
  with_reducible repeat' first | intro _ | assumption | apply formed_State_modGate

theorem formed_clearDue {serial : Nat} {s : State} (hs : Formed s) : Formed (clearDue serial s) := by
  unfold clearDue
  with_reducible repeat' first | intro _ | assumption | apply formed_State_modGate

theorem formed_redeliverOne {far : Bool} {c : Nat} {s : State} (hs : Formed s) : Formed (redeliverOne far c s) := by
  unfold redeliverOne
  with_reducible repeat' first | intro _ | assumption | apply formed_ite | apply formed_clearDue | apply formed_readCopy | apply formed_State_modGate | apply formed_upWrite | apply formed_State_incSat | apply formed_obxReceive | split

theorem formed_redeliverSeries {far : Bool} {c : Nat} {s : State} (hs : Formed s) : Formed (redeliverSeries far c s) := by
  unfold redeliverSeries
  with_reducible repeat' first | intro _ | assumption | apply formed_redeliveryDone | apply formed_iter | apply formed_redeliverOne

theorem formed_redeliver {s : State} (hs : Formed s) : Formed (redeliver s) := by
  unfold redeliver
  with_reducible repeat' first | intro _ | assumption | apply formed_ite | apply formed_redeliverSeries | apply formed_pruneLog

theorem formed_classWindowOpen {c : Nat} {s : State} (hs : Formed s) : Formed (classWindowOpen c s) := by
  unfold classWindowOpen
  with_reducible repeat' first | intro _ | assumption | apply formed_ite | apply formed_redeliverSeries | apply formed_pruneLog

theorem formed_State_modChain {s : State} {i : Nat} {f : Chain → Chain} (hs : Formed s) : Formed (State.modChain s i f) := by
  unfold State.modChain
  repeat' first | intro _ | with_reducible assumption | with_reducible apply formed_ite | (simp only [↓formed_mk]; refine And.intro ?_ ?_) | with_reducible apply formed_regs | with_reducible apply formed_mem | with_reducible apply formed_filter_regs | with_reducible apply formed_filter_mem | exact formed_nil | exact formed_nil_mem | (extract_lets +onlyGivenNames a; first | (have ha : Formed a := (by dsimp only [a]; repeat' first | intro _ | with_reducible assumption | with_reducible apply formed_ite | (simp only [↓formed_mk]; refine And.intro ?_ ?_) | with_reducible apply formed_regs | with_reducible apply formed_mem | with_reducible apply formed_filter_regs | with_reducible apply formed_filter_mem | exact formed_nil | exact formed_nil_mem | split | dsimp only [id_eq]); clear_value a) | (have hf : State → State := a; clear hf; (try dsimp only [a]); clear a) | clear_value a) | split | dsimp only [id_eq]

theorem formed_State_modSource {s : State} {x : Nat} {f : Source → Source} (hs : Formed s) : Formed (State.modSource s x f) := by
  unfold State.modSource
  repeat' first | intro _ | with_reducible assumption | with_reducible apply formed_ite | (simp only [↓formed_mk]; refine And.intro ?_ ?_) | with_reducible apply formed_regs | with_reducible apply formed_mem | with_reducible apply formed_filter_regs | with_reducible apply formed_filter_mem | exact formed_nil | exact formed_nil_mem | (extract_lets +onlyGivenNames a; first | (have ha : Formed a := (by dsimp only [a]; repeat' first | intro _ | with_reducible assumption | with_reducible apply formed_ite | (simp only [↓formed_mk]; refine And.intro ?_ ?_) | with_reducible apply formed_regs | with_reducible apply formed_mem | with_reducible apply formed_filter_regs | with_reducible apply formed_filter_mem | exact formed_nil | exact formed_nil_mem | split | dsimp only [id_eq]); clear_value a) | (have hf : State → State := a; clear hf; (try dsimp only [a]); clear a) | clear_value a) | split | dsimp only [id_eq]

theorem formed_settle {i : Nat} {s : State} (hs : Formed s) : Formed (settle i s) := by
  unfold settle
  with_reducible repeat' first | intro _ | assumption | apply formed_State_put

theorem formed_joinSource {x n : Nat} {s : State} (hs : Formed s) : Formed (joinSource x n s) := by
  unfold joinSource
  with_reducible repeat' first | intro _ | assumption | apply formed_ite | apply formed_State_modSource

theorem formed_chainBegin {i : Nat} {s : State} (hs : Formed s) : Formed (chainBegin i s) := by
  unfold chainBegin
  with_reducible repeat' first | intro _ | assumption | apply formed_settle | apply formed_State_modChain | apply formed_joinSource

theorem formed_chainHalt {i : Nat} {s : State} (hs : Formed s) : Formed (chainHalt i s) := by
  unfold chainHalt
  with_reducible repeat' first | intro _ | assumption | apply formed_State_modChain

theorem formed_chainStop {i : Nat} {s : State} (hs : Formed s) : Formed (chainStop i s) := by
  unfold chainStop
  with_reducible repeat' first | intro _ | assumption | apply formed_forUpTo | apply formed_ite | apply formed_cancelSpec | apply formed_chainHalt | apply formed_State_put | split | dsimp only [id_eq]

theorem formed_chainDrop {i : Nat} {s : State} (hs : Formed s) : Formed (chainDrop i s) := by
  unfold chainDrop
  with_reducible repeat' first | intro _ | assumption | apply formed_State_modChain | apply formed_State_mark | apply formed_State_incSat

theorem formed_takeBits {x : Nat} {bs : List (Bool × Nat)} {s : State} (hs : Formed s) : Formed (takeBits x bs s) := by
  unfold takeBits
  with_reducible repeat' first | intro _ | assumption | apply formed_State_modSource

theorem formed_feed {i : Nat} {c : Chain} {bs : List (Bool × Nat)} {s : State} (hs : Formed s) : Formed (feed i c bs s) := by
  unfold feed
  with_reducible repeat' first | intro _ | assumption | apply formed_takeBits | apply formed_foldl_two

theorem formed_deliver {i : Nat} {c : Chain} {y : Int} {clip ovl : Bool} {s : State} (hs : Formed s) : Formed (deliver i c y clip ovl s) := by
  unfold deliver
  with_reducible repeat' first | intro _ | assumption | apply formed_ite | apply formed_chainDrop | apply formed_State_modChain | apply formed_State_incWrap | apply formed_State_put | apply formed_State_mark | apply formed_State_incSat

theorem formed_chainOutput {i : Nat} {bs : List (Bool × Nat)} {s : State} (hs : Formed s) : Formed (chainOutput i bs s) := by
  unfold chainOutput
  with_reducible repeat' first | intro _ | assumption | apply formed_ite | apply formed_deliver | apply formed_feed | split

theorem formed_sampleHandoff {i : Nat} {s : State} (hs : Formed s) : Formed (sampleHandoff i s) := by
  unfold sampleHandoff
  with_reducible repeat' first | intro _ | assumption | apply formed_ite | apply formed_enqueue | apply formed_State_modChain | split

theorem formed_sourceOverload {x : Nat} {s : State} (hs : Formed s) : Formed (sourceOverload x s) := by
  unfold sourceOverload
  repeat' first | intro _ | with_reducible assumption | with_reducible apply formed_State_modSource | with_reducible apply formed_ite | (simp only [↓formed_mk]; refine And.intro ?_ ?_) | with_reducible apply formed_regs | with_reducible apply formed_mem | with_reducible apply formed_filter_regs | with_reducible apply formed_filter_mem | exact formed_nil | exact formed_nil_mem | (extract_lets +onlyGivenNames a; first | (have ha : Formed a := (by dsimp only [a]; repeat' first | intro _ | with_reducible assumption | with_reducible apply formed_State_modSource | with_reducible apply formed_ite | (simp only [↓formed_mk]; refine And.intro ?_ ?_) | with_reducible apply formed_regs | with_reducible apply formed_mem | with_reducible apply formed_filter_regs | with_reducible apply formed_filter_mem | exact formed_nil | exact formed_nil_mem | split | dsimp only [id_eq]); clear_value a) | (have hf : State → State := a; clear hf; (try dsimp only [a]); clear a) | clear_value a) | split | dsimp only [id_eq]

theorem formed_overloadEnd {x : Nat} {s : State} (hs : Formed s) : Formed (overloadEnd x s) := by
  unfold overloadEnd
  repeat' first | intro _ | with_reducible assumption | with_reducible apply formed_State_modSource | with_reducible apply formed_settle | with_reducible apply formed_foldl | with_reducible apply formed_foldl_two | with_reducible apply formed_ite | (simp only [↓formed_mk]; refine And.intro ?_ ?_) | with_reducible apply formed_regs | with_reducible apply formed_mem | with_reducible apply formed_filter_regs | with_reducible apply formed_filter_mem | exact formed_nil | exact formed_nil_mem | (extract_lets +onlyGivenNames a; first | (have ha : Formed a := (by dsimp only [a]; repeat' first | intro _ | with_reducible assumption | with_reducible apply formed_State_modSource | with_reducible apply formed_settle | with_reducible apply formed_foldl | with_reducible apply formed_foldl_two | with_reducible apply formed_ite | (simp only [↓formed_mk]; refine And.intro ?_ ?_) | with_reducible apply formed_regs | with_reducible apply formed_mem | with_reducible apply formed_filter_regs | with_reducible apply formed_filter_mem | exact formed_nil | exact formed_nil_mem | split | dsimp only [id_eq]); clear_value a) | (have hf : State → State := a; clear hf; (try dsimp only [a]); clear a) | clear_value a) | split | dsimp only [id_eq]

theorem formed_gridStep {old : Nat} {s : State} (hs : Formed s) : Formed (gridStep old s) := by
  unfold gridStep
  repeat' first | intro _ | with_reducible assumption | with_reducible apply formed_State_mark | with_reducible apply formed_State_modChain | with_reducible apply formed_settle | with_reducible apply formed_forUpTo | with_reducible apply formed_ite | (simp only [↓formed_mk]; refine And.intro ?_ ?_) | with_reducible apply formed_regs | with_reducible apply formed_mem | with_reducible apply formed_filter_regs | with_reducible apply formed_filter_mem | exact formed_nil | exact formed_nil_mem | (extract_lets +onlyGivenNames a; first | (have ha : Formed a := (by dsimp only [a]; repeat' first | intro _ | with_reducible assumption | with_reducible apply formed_State_mark | with_reducible apply formed_State_modChain | with_reducible apply formed_settle | with_reducible apply formed_forUpTo | with_reducible apply formed_ite | (simp only [↓formed_mk]; refine And.intro ?_ ?_) | with_reducible apply formed_regs | with_reducible apply formed_mem | with_reducible apply formed_filter_regs | with_reducible apply formed_filter_mem | exact formed_nil | exact formed_nil_mem | split | dsimp only [id_eq]); clear_value a) | (have hf : State → State := a; clear hf; (try dsimp only [a]); clear a) | clear_value a) | split | dsimp only [id_eq]

theorem formed_stepIdx {i : Nat} {s : State} (hs : Formed s) : Formed (stepIdx i s) := by
  unfold stepIdx
  with_reducible repeat' first | intro _ | assumption | apply formed_State_put

theorem formed_setCoef {i : Nat} {res : Bool} {j v : Nat} {s : State} (hs : Formed s) : Formed (setCoef i res j v s) := by
  unfold setCoef
  with_reducible repeat' first | intro _ | assumption | apply formed_State_modChain

theorem formed_coefWrite {i v : Nat} {s : State} (hs : Formed s) : Formed (coefWrite i v s) := by
  unfold coefWrite
  with_reducible repeat' first | intro _ | assumption | apply formed_ite | apply formed_State_mark | apply formed_stepIdx | apply formed_setCoef

theorem formed_coefRead_p {i : Nat} {s : State} (hs : Formed s) : Formed (coefRead i s).2 := by
  unfold coefRead; (try dsimp only)
  with_reducible repeat' first | intro _ | assumption | apply formed_stepIdx
theorem formed_coefRead_t {i : Nat} {s : State} {r0 : Nat} {t : State} (he : coefRead i s = (r0, t)) (hs : Formed s) : Formed t := by
  have k : Formed (coefRead i s).2 := formed_coefRead_p (hs := hs)
  rw [he] at k; exact k

theorem formed_lastOutputRead {i : Nat} {s : State} (hs : Formed s) : Formed (lastOutputRead i s) := by
  unfold lastOutputRead
  with_reducible repeat' first | intro _ | assumption | apply formed_State_put | split

theorem formed_modWrite {i : Nat} {v : Word} {s : State} (hs : Formed s) : Formed (modWrite i v s) := by
  unfold modWrite
  with_reducible repeat' first | intro _ | assumption | apply formed_ite | apply formed_State_mark | apply formed_foldl | apply formed_settle | apply formed_setReg

theorem formed_srcWrite {i : Nat} {v : Word} {s : State} (hs : Formed s) : Formed (srcWrite i v s) := by
  unfold srcWrite
  with_reducible repeat' first | intro _ | assumption | apply formed_ite | apply formed_settle | apply formed_setReg | apply formed_State_modChain | apply formed_joinSource

theorem formed_State_modEst {s : State} {f : Estate → Estate} (hs : Formed s) : Formed (State.modEst s f) := by
  unfold State.modEst
  repeat' first | intro _ | with_reducible assumption | with_reducible apply formed_ite | (simp only [↓formed_mk]; refine And.intro ?_ ?_) | with_reducible apply formed_regs | with_reducible apply formed_mem | with_reducible apply formed_filter_regs | with_reducible apply formed_filter_mem | exact formed_nil | exact formed_nil_mem | (extract_lets +onlyGivenNames a; first | (have ha : Formed a := (by dsimp only [a]; repeat' first | intro _ | with_reducible assumption | with_reducible apply formed_ite | (simp only [↓formed_mk]; refine And.intro ?_ ?_) | with_reducible apply formed_regs | with_reducible apply formed_mem | with_reducible apply formed_filter_regs | with_reducible apply formed_filter_mem | exact formed_nil | exact formed_nil_mem | split | dsimp only [id_eq]); clear_value a) | (have hf : State → State := a; clear hf; (try dsimp only [a]); clear a) | clear_value a) | split | dsimp only [id_eq]

theorem formed_sendDown {f : List Byte} {s : State} (hs : Formed s) : Formed (sendDown f s) := by
  unfold sendDown
  with_reducible repeat' first | intro _ | assumption | apply formed_forUpTo | apply formed_ite | apply formed_sendOn

theorem formed_countDrop {n : Nat} {s : State} (hs : Formed s) : Formed (countDrop n s) := by
  unfold countDrop
  with_reducible repeat' first | intro _ | assumption | apply formed_State_incSat

theorem formed_setRoute {id k : Nat} {s : State} (hs : Formed s) : Formed (setRoute id k s) := by
  unfold setRoute
  with_reducible repeat' first | intro _ | assumption | apply formed_State_modEst

theorem formed_forwardDown {n : Nat} {f : List Byte} {s : State} (hs : Formed s) : Formed (forwardDown n f s) := by
  unfold forwardDown
  with_reducible repeat' first | intro _ | assumption | apply formed_countDrop | apply formed_sendOn | split

theorem formed_scanIds {s : State} (hs : Formed s) : Formed (scanIds s) := by
  unfold scanIds
  with_reducible repeat' first | intro _ | assumption | apply formed_foldl | apply formed_readAs

theorem formed_mirrorTo {dst : Nat} {l : List (Nat × IdEntry)} {s : State} (hs : Formed s) : Formed (mirrorTo dst l s) := by
  unfold mirrorTo
  with_reducible repeat' first | intro _ | assumption | apply formed_foldl | apply formed_sendOn | split

theorem formed_mirrorWrite {a n : Nat} {s0 s : State} (hs0 : Formed s0) (hs : Formed s) : Formed (mirrorWrite a n s0 s) := by
  unfold mirrorWrite
  with_reducible repeat' first | intro _ | assumption | apply formed_ite | apply formed_foldl | apply formed_mirrorTo

theorem formed_setIdEntry {id : Nat} {e : IdEntry} {s : State} (hs : Formed s) : Formed (setIdEntry id e s) := by
  unfold setIdEntry
  with_reducible repeat' first | intro _ | assumption | apply formed_mirrorWrite | apply formed_memWrite

theorem formed_markAbsent {ids : List Nat} {s : State} (hs : Formed s) : Formed (markAbsent ids s) := by
  unfold markAbsent
  with_reducible repeat' first | intro _ | assumption | apply formed_foldl | apply formed_ite | apply formed_setIdEntry | apply formed_State_modEst | apply formed_readAs

theorem formed_raFinish {c result : Nat} {s : State} (hs : Formed s) : Formed (raFinish c result s) := by
  unfold raFinish
  with_reducible repeat' first | intro _ | assumption | apply formed_State_modEst | apply formed_State_put

theorem formed_raPathLost {s : State} (hs : Formed s) : Formed (raPathLost s) := by
  unfold raPathLost
  with_reducible repeat' first | intro _ | assumption | apply formed_forUpTo | apply formed_ite | apply formed_raFinish

theorem formed_pathEnd {s : State} (hs : Formed s) : Formed (pathEnd s) := by
  unfold pathEnd
  with_reducible repeat' first | intro _ | assumption | apply formed_sendDown | apply formed_ite | apply formed_raPathLost | apply formed_releaseOnLoss | apply formed_State_put | apply formed_State_modEst

theorem formed_clearRoutes {ids : List Nat} {s : State} (hs : Formed s) : Formed (clearRoutes ids s) := by
  unfold clearRoutes
  with_reducible repeat' first | intro _ | assumption | apply formed_foldl | apply formed_setRoute

theorem formed_downPortLoss {k : Nat} {s : State} (hs : Formed s) : Formed (downPortLoss k s) := by
  unfold downPortLoss
  with_reducible repeat' first | intro _ | assumption | apply formed_ite | apply formed_markAbsent | apply formed_clearRoutes | apply formed_State_put | apply formed_foldl | apply formed_sendOn

theorem formed_lossAt {n : Nat} {s : State} (hs : Formed s) : Formed (lossAt n s) := by
  unfold lossAt
  with_reducible repeat' first | intro _ | assumption | apply formed_ite | apply formed_pathEnd | apply formed_State_modEst | apply formed_closeRecovery | apply formed_State_modLink | apply formed_State_mark | apply formed_downPortLoss

theorem formed_beginOutage {n : Nat} {s : State} (hs : Formed s) : Formed (beginOutage n s) := by
  unfold beginOutage
  with_reducible repeat' first | intro _ | assumption | apply formed_ite | apply formed_State_modEst | apply formed_openRecovery | apply formed_State_modLink

theorem formed_freeTime {s : State} (hs : Formed s) : Formed (freeTime s) := by
  unfold freeTime
  with_reducible repeat' first | intro _ | assumption | apply formed_ite | apply formed_State_modEst | apply formed_State_put

theorem formed_leaveActive {n st : Nat} {s : State} (hs : Formed s) : Formed (leaveActive n st s) := by
  unfold leaveActive
  with_reducible repeat' first | intro _ | assumption | apply formed_ite | apply formed_freeTime | apply formed_State_modLink | apply formed_State_put | apply formed_beginOutage

theorem formed_shortEnd {n : Nat} {s : State} (hs : Formed s) : Formed (shortEnd n s) := by
  unfold shortEnd
  with_reducible repeat' first | intro _ | assumption | apply formed_ite | apply formed_redeliveryDone | apply formed_markDue | apply formed_sendDown | apply formed_State_put | apply formed_State_modEst | apply formed_State_modLink | apply formed_State_mark | apply formed_closeRecovery

theorem formed_sendHello {s : State} (hs : Formed s) : Formed (sendHello s) := by
  unfold sendHello
  with_reducible repeat' first | intro _ | assumption | apply formed_ite | apply formed_State_modEst | apply formed_sendOn

theorem formed_pathBegins {s : State} (hs : Formed s) : Formed (pathBegins s) := by
  unfold pathBegins
  with_reducible repeat' first | intro _ | assumption | apply formed_ite | apply formed_sendDown | apply formed_State_modGate | apply formed_State_put

theorem formed_welcomeAtVia {n : Nat} {f : List Byte} {s : State} (hs : Formed s) : Formed (welcomeAtVia n f s) := by
  unfold welcomeAtVia
  with_reducible repeat' first | intro _ | assumption | apply formed_countDrop | apply formed_sendOn | apply formed_ite | apply formed_State_put | apply formed_setRoute | apply formed_State_modLink | split | dsimp only [id_eq]

theorem formed_welcomeHere {f : List Byte} {s : State} (hs : Formed s) : Formed (welcomeHere f s) := by
  unfold welcomeHere
  with_reducible repeat' first | intro _ | assumption | apply formed_ite | apply formed_pathBegins | apply formed_storeRecord | apply formed_State_modEst | apply formed_forUpTo | apply formed_State_put | apply formed_pathEnd

theorem formed_takeWelcome {n : Nat} {f : List Byte} {s : State} (hs : Formed s) : Formed (takeWelcome n f s) := by
  unfold takeWelcome
  with_reducible repeat' first | intro _ | assumption | apply formed_ite | apply formed_welcomeHere | apply formed_welcomeAtVia | apply formed_countDrop | apply formed_sendOn | apply formed_setRoute | split

theorem formed_takeEnrol {n : Nat} {f : List Byte} {s0 : State} (hs0 : Formed s0) : Formed (takeEnrol n f s0) := by
  unfold takeEnrol
  with_reducible repeat' first | intro _ | assumption | apply formed_ite | apply formed_sendOn | apply formed_mirrorTo | apply formed_State_modEst | apply formed_welcomeAtVia | apply formed_setIdEntry | apply formed_State_incSat | apply formed_scanIds | apply formed_countDrop | apply formed_setRoute | split

theorem formed_takeHello {k : Nat} {f : List Byte} {s : State} (hs : Formed s) : Formed (takeHello k f s) := by
  unfold takeHello
  with_reducible repeat' first | intro _ | assumption | apply formed_ite | apply formed_takeEnrol | apply formed_State_modLink | apply formed_sendOn | apply formed_State_mark | apply formed_State_incSat

theorem formed_enrolTimeout {s : State} (hs : Formed s) : Formed (enrolTimeout s) := by
  unfold enrolTimeout
  with_reducible repeat' first | intro _ | assumption | apply formed_ite | apply formed_pathEnd | apply formed_State_put | apply formed_State_modEst

theorem formed_enrolRetry {s : State} (hs : Formed s) : Formed (enrolRetry s) := by
  unfold enrolRetry
  with_reducible repeat' first | intro _ | assumption | apply formed_ite | apply formed_sendHello

theorem formed_takeLeave {f : List Byte} {s : State} (hs : Formed s) : Formed (takeLeave f s) := by
  unfold takeLeave
  with_reducible repeat' first | intro _ | assumption | apply formed_ite | apply formed_markAbsent | apply formed_clearRoutes | apply formed_sendOn

theorem formed_takeAck {n : Nat} {f : List Byte} {s : State} (hs : Formed s) : Formed (takeAck n f s) := by
  unfold takeAck
  with_reducible repeat' first | intro _ | assumption | apply formed_redeliveryDone | apply formed_foldl | apply formed_ite | apply formed_closeSerial | apply formed_forwardDown | split

theorem formed_takeLetter {k : Nat} {f : List Byte} {s : State} (hs : Formed s) : Formed (takeLetter k f s) := by
  unfold takeLetter
  with_reducible repeat' first | intro _ | assumption | apply formed_ite | apply formed_countDrop | apply formed_obxReceive | apply formed_upWrite

theorem formed_takePath {st : Nat} {s : State} (hs : Formed s) : Formed (takePath st s) := by
  unfold takePath
  with_reducible repeat' first | intro _ | assumption | apply formed_ite | apply formed_pathEnd | apply formed_sendHello | apply formed_redeliveryDone | apply formed_markDue | apply formed_sendDown | split

theorem formed_stepTimebase {d : Int} {s : State} (hs : Formed s) : Formed (stepTimebase d s) := by
  unfold stepTimebase
  repeat' first | intro _ | with_reducible assumption | with_reducible apply formed_State_mark | with_reducible apply formed_dayPush | with_reducible apply formed_gridStep | with_reducible apply formed_State_modEst | with_reducible apply formed_ite | (simp only [↓formed_mk]; refine And.intro ?_ ?_) | with_reducible apply formed_regs | with_reducible apply formed_mem | with_reducible apply formed_filter_regs | with_reducible apply formed_filter_mem | exact formed_nil | exact formed_nil_mem | (extract_lets +onlyGivenNames a; first | (have ha : Formed a := (by dsimp only [a]; repeat' first | intro _ | with_reducible assumption | with_reducible apply formed_State_mark | with_reducible apply formed_dayPush | with_reducible apply formed_gridStep | with_reducible apply formed_State_modEst | with_reducible apply formed_ite | (simp only [↓formed_mk]; refine And.intro ?_ ?_) | with_reducible apply formed_regs | with_reducible apply formed_mem | with_reducible apply formed_filter_regs | with_reducible apply formed_filter_mem | exact formed_nil | exact formed_nil_mem | split | dsimp only [id_eq]); clear_value a) | (have hf : State → State := a; clear hf; (try dsimp only [a]); clear a) | clear_value a) | split | dsimp only [id_eq]

theorem formed_exchangeDone {t1 t2 t3 t4 : Nat} {s : State} (hs : Formed s) : Formed (exchangeDone t1 t2 t3 t4 s) := by
  unfold exchangeDone
  with_reducible repeat' first | intro _ | assumption | apply formed_pathBegins | apply formed_ite | apply formed_stepTimebase | apply formed_State_modEst | apply formed_State_put

theorem formed_syncTimer {n : Nat} {s : State} (hs : Formed s) : Formed (syncTimer n s) := by
  unfold syncTimer
  with_reducible repeat' first | intro _ | assumption | apply formed_ite | apply formed_sendOn

theorem formed_takeSync {frac : Nat} {f : List Byte} {s : State} (hs : Formed s) : Formed (takeSync frac f s) := by
  unfold takeSync
  with_reducible repeat' first | intro _ | assumption | apply formed_ite | apply formed_State_mark | apply formed_shortEnd | apply formed_State_modEst | apply formed_sendHello | apply formed_State_modLink

theorem formed_takeDreq {k frac : Nat} {s : State} (hs : Formed s) : Formed (takeDreq k frac s) := by
  unfold takeDreq
  with_reducible repeat' first | intro _ | assumption | apply formed_sendOn

theorem formed_takeDresp {f : List Byte} {s : State} (hs : Formed s) : Formed (takeDresp f s) := by
  unfold takeDresp
  with_reducible repeat' first | intro _ | assumption | apply formed_ite | apply formed_exchangeDone | split

theorem formed_resync {s : State} (hs : Formed s) : Formed (resync s) := by
  unfold resync
  with_reducible repeat' first | intro _ | assumption | apply formed_ite | apply formed_State_modEst | apply formed_State_put

theorem formed_takeIdmir {n : Nat} {complete : Bool} {f : List Byte} {s : State} (hs : Formed s) : Formed (takeIdmir n complete f s) := by
  unfold takeIdmir
  with_reducible repeat' first | intro _ | assumption | apply formed_State_modEst | apply formed_forwardDown | split

theorem formed_takeover {s : State} (hs : Formed s) : Formed (takeover s) := by
  unfold takeover
  repeat' first | intro _ | with_reducible assumption | with_reducible apply formed_State_put | with_reducible apply formed_State_mark | with_reducible apply formed_dayPush | with_reducible apply formed_memWrite | with_reducible apply formed_State_modEst | with_reducible apply formed_sendDown | with_reducible apply formed_foldl | with_reducible apply formed_foldl_two | with_reducible apply formed_ite | (simp only [↓formed_mk]; refine And.intro ?_ ?_) | with_reducible apply formed_regs | with_reducible apply formed_mem | with_reducible apply formed_filter_regs | with_reducible apply formed_filter_mem | exact formed_nil | exact formed_nil_mem | (extract_lets +onlyGivenNames a; first | (have ha : Formed a := (by dsimp only [a]; repeat' first | intro _ | with_reducible assumption | with_reducible apply formed_State_put | with_reducible apply formed_State_mark | with_reducible apply formed_dayPush | with_reducible apply formed_memWrite | with_reducible apply formed_State_modEst | with_reducible apply formed_sendDown | with_reducible apply formed_foldl | with_reducible apply formed_foldl_two | with_reducible apply formed_ite | (simp only [↓formed_mk]; refine And.intro ?_ ?_) | with_reducible apply formed_regs | with_reducible apply formed_mem | with_reducible apply formed_filter_regs | with_reducible apply formed_filter_mem | exact formed_nil | exact formed_nil_mem | split | dsimp only [id_eq]); clear_value a) | (have hf : State → State := a; clear hf; (try dsimp only [a]); clear a) | clear_value a) | split | dsimp only [id_eq]

theorem formed_syncTimeout {s : State} (hs : Formed s) : Formed (syncTimeout s) := by
  unfold syncTimeout
  with_reducible repeat' first | intro _ | assumption | apply formed_ite | apply formed_takeover | apply formed_lossAt | apply formed_beginOutage

theorem formed_beginTraining {n : Nat} {s : State} (hs : Formed s) : Formed (beginTraining n s) := by
  unfold beginTraining
  with_reducible repeat' first | intro _ | assumption | apply formed_State_modLink | apply formed_State_put | apply formed_ite | apply formed_State_incSat

theorem formed_presenceDetected {n : Nat} {s : State} (hs : Formed s) : Formed (presenceDetected n s) := by
  unfold presenceDetected
  with_reducible repeat' first | intro _ | assumption | apply formed_ite | apply formed_wakeRecognised | apply formed_State_mark | apply formed_beginTraining

theorem formed_presenceLost {n : Nat} {s : State} (hs : Formed s) : Formed (presenceLost n s) := by
  unfold presenceLost
  with_reducible repeat' first | intro _ | assumption | apply formed_ite | apply formed_lossAt | apply formed_leaveActive | apply formed_State_put

theorem formed_linkTick {n : Nat} {s : State} (hs : Formed s) : Formed (linkTick n s) := by
  unfold linkTick
  with_reducible repeat' first | intro _ | assumption | apply formed_ite | apply formed_beginTraining

theorem formed_wordLockGained {n : Nat} {s : State} (hs : Formed s) : Formed (wordLockGained n s) := by
  unfold wordLockGained
  with_reducible repeat' first | intro _ | assumption | apply formed_ite | apply formed_State_modLink | apply formed_beginTraining

theorem formed_wordLockLoss {n : Nat} {s : State} (hs : Formed s) : Formed (wordLockLoss n s) := by
  unfold wordLockLoss
  with_reducible repeat' first | intro _ | assumption | apply formed_ite | apply formed_leaveActive

theorem formed_trainingComplete {n uid : Nat} {s : State} (hs : Formed s) : Formed (trainingComplete n uid s) := by
  unfold trainingComplete
  with_reducible repeat' first | intro _ | assumption | apply formed_ite | apply formed_State_modLink | apply formed_State_put | apply formed_State_modEst | apply formed_shortEnd | apply formed_lossAt | apply formed_sendHello | split | dsimp only [id_eq]

theorem formed_trainingTimeout {n : Nat} {s : State} (hs : Formed s) : Formed (trainingTimeout n s) := by
  unfold trainingTimeout
  with_reducible repeat' first | intro _ | assumption | apply formed_ite | apply formed_State_modLink

theorem formed_trainingPauseEnd {n : Nat} {s : State} (hs : Formed s) : Formed (trainingPauseEnd n s) := by
  unfold trainingPauseEnd
  with_reducible repeat' first | intro _ | assumption | apply formed_ite | apply formed_State_incSat | apply formed_State_modLink

theorem formed_outageHoldExpiry {n : Nat} {s : State} (hs : Formed s) : Formed (outageHoldExpiry n s) := by
  unfold outageHoldExpiry
  with_reducible repeat' first | intro _ | assumption | apply formed_ite | apply formed_lossAt | apply formed_State_modLink

theorem formed_linkDownWrite {n : Nat} {b : Bool} {s : State} (hs : Formed s) : Formed (linkDownWrite n b s) := by
  unfold linkDownWrite
  with_reducible repeat' first | intro _ | assumption | apply formed_ite | apply formed_lossAt | apply formed_leaveActive | apply formed_State_putB | apply formed_beginTraining

theorem formed_retrain {n : Nat} {s : State} (hs : Formed s) : Formed (retrain n s) := by
  unfold retrain
  with_reducible repeat' first | intro _ | assumption | apply formed_ite | apply formed_State_incSat | apply formed_leaveActive

theorem formed_linkPowerDown {n : Nat} {s : State} (hs : Formed s) : Formed (linkPowerDown n s) := by
  unfold linkPowerDown
  with_reducible repeat' first | intro _ | assumption | apply formed_leaveActive

theorem formed_receiveFrame {n typ : Nat} {f : RxFrame} {act : List Byte → State → State} {s : State} (hs : Formed s) (hact : ∀ x0 x1, Formed x1 → Formed (act x0 x1)) : Formed (receiveFrame n typ f act s) := by
  unfold receiveFrame
  with_reducible repeat' first | intro _ | assumption | apply formed_ite | apply formed_retrain | apply formed_State_incSat | apply formed_countDrop | apply hact

theorem formed_readUp_p {c : Nat} {b : List Byte} {s : State} (hs : Formed s) : Formed (readUp c b s).2 := by
  unfold readUp; (try dsimp only)
  with_reducible repeat' first | intro _ | assumption | apply formed_readSpan | split
theorem formed_readUp_t {c : Nat} {b : List Byte} {s : State} {r0 : Option (List Byte)} {t : State} (he : readUp c b s = (r0, t)) (hs : Formed s) : Formed t := by
  have k : Formed (readUp c b s).2 := formed_readUp_p (hs := hs)
  rw [he] at k; exact k

theorem formed_linkFrameBoundary {n frac : Nat} {s : State} (hs : Formed s) : Formed (linkFrameBoundary n frac s) := by
  unfold linkFrameBoundary
  with_reducible repeat' first | intro _ | assumption | apply formed_ite | apply formed_redeliveryDone | apply formed_State_modLink | apply formed_State_modGate | apply formed_readUp_p | apply formed_State_modEst | split | dsimp only [id_eq]

theorem formed_State_modTrend {s : State} {f : Trend → Trend} (hs : Formed s) : Formed (State.modTrend s f) := by
  unfold State.modTrend
  repeat' first | intro _ | with_reducible assumption | with_reducible apply formed_ite | (simp only [↓formed_mk]; refine And.intro ?_ ?_) | with_reducible apply formed_regs | with_reducible apply formed_mem | with_reducible apply formed_filter_regs | with_reducible apply formed_filter_mem | exact formed_nil | exact formed_nil_mem | (extract_lets +onlyGivenNames a; first | (have ha : Formed a := (by dsimp only [a]; repeat' first | intro _ | with_reducible assumption | with_reducible apply formed_ite | (simp only [↓formed_mk]; refine And.intro ?_ ?_) | with_reducible apply formed_regs | with_reducible apply formed_mem | with_reducible apply formed_filter_regs | with_reducible apply formed_filter_mem | exact formed_nil | exact formed_nil_mem | split | dsimp only [id_eq]); clear_value a) | (have hf : State → State := a; clear hf; (try dsimp only [a]); clear a) | clear_value a) | split | dsimp only [id_eq]

theorem formed_checkCurves {s : State} (hs : Formed s) : Formed (checkCurves s) := by
  unfold checkCurves
  with_reducible repeat' first | intro _ | assumption | apply formed_State_put | apply formed_State_mark | split

theorem formed_readBins {s : State} (hs : Formed s) : Formed (readBins s) := by
  unfold readBins
  with_reducible repeat' first | intro _ | assumption | apply formed_foldl | apply formed_readAs | apply formed_State_modTrend

theorem formed_reevaluate {s0 : State} (hs0 : Formed s0) : Formed (reevaluate s0) := by
  unfold reevaluate
  with_reducible repeat' first | intro _ | assumption | apply formed_readBins | apply formed_State_modTrend | apply formed_ite | apply formed_State_put | apply formed_State_mark | split | dsimp only [id_eq]

theorem formed_rebin {a n : Nat} {s : State} (hs : Formed s) : Formed (rebin a n s) := by
  unfold rebin
  with_reducible repeat' first | intro _ | assumption | apply formed_ite | apply formed_reevaluate | apply formed_State_modTrend

theorem formed_meetBin {e : Nat} {s : State} (hs : Formed s) : Formed (meetBin e s) := by
  unfold meetBin
  with_reducible repeat' first | intro _ | assumption | apply formed_ite | apply formed_reevaluate

theorem formed_trendPoison {a : Nat} {s : State} (hs : Formed s) : Formed (trendPoison a s) := by
  unfold trendPoison
  with_reducible repeat' first | intro _ | assumption | apply formed_State_mark | apply formed_State_incSat | apply formed_readAs

theorem formed_modBack {p : Nat} {f : WriteBack → WriteBack} {s : State} (hs : Formed s) : Formed (modBack p f s) := by
  unfold modBack
  with_reducible repeat' first | intro _ | assumption | apply formed_State_modTrend

theorem formed_setLatch {e : Nat} {b : Bool} {s : State} (hs : Formed s) : Formed (setLatch e b s) := by
  unfold setLatch
  with_reducible repeat' first | intro _ | assumption | apply formed_memWrite | apply formed_State_modTrend

theorem formed_eventToSorter_p {b : Nat} {body : List Byte} {s : State} (hs : Formed s) : Formed (eventToSorter b body s).2 := by
  unfold eventToSorter; (try dsimp only)
  with_reducible repeat' first | intro _ | assumption | apply formed_State_incSat | apply formed_enqueue | split
theorem formed_eventToSorter_t {b : Nat} {body : List Byte} {s : State} {r0 : Bool} {t : State} (he : eventToSorter b body s = (r0, t)) (hs : Formed s) : Formed t := by
  have k : Formed (eventToSorter b body s).2 := formed_eventToSorter_p (hs := hs)
  rw [he] at k; exact k

theorem formed_raiseEvents {ep : Option Nat} {clear : Bool} {evs : List TrendEv} {s : State} (hs : Formed s) : Formed (raiseEvents ep clear evs s) := by
  unfold raiseEvents
  split
  next s1 ok n he =>
    have k : Formed s1 := by
      refine formed_foldl_fst _ he (fun p x hp => ?_) hs
      dsimp only
      split
      · exact formed_eventToSorter_p hp
      · exact formed_offer hp
    split
    · exact formed_State_modTrend k
    · split
      · split
        · exact formed_setLatch k
        · exact k
      · exact k

theorem formed_trendDecided {accepted : Bool} {s : State} (hs : Formed s) : Formed (trendDecided accepted s) := by
  unfold trendDecided
  with_reducible repeat' first | intro _ | assumption | apply formed_ite | apply formed_State_modTrend | apply formed_setLatch | split

theorem formed_commitRead {r : PendRead} {s : State} (hs : Formed s) : Formed (commitRead r s) := by
  unfold commitRead
  with_reducible repeat' first | intro _ | assumption | apply formed_memWrite | apply formed_foldl | apply formed_readAs | apply formed_trendPoison | apply formed_meetBin

theorem formed_noteIssued {p : Nat} {s : State} (hs : Formed s) : Formed (noteIssued p s) := by
  unfold noteIssued
  with_reducible repeat' first | intro _ | assumption | apply formed_ite | apply formed_State_incSat | apply formed_modBack | split

theorem formed_issueBack {p : Nat} {s : State} (hs : Formed s) : Formed (issueBack p s) := by
  unfold issueBack
  with_reducible repeat' first | intro _ | assumption | apply formed_ite | apply formed_foldl | apply formed_raiseEvents | apply formed_State_incSat | apply formed_noteIssued | apply formed_commitRead | split | dsimp only [id_eq]

theorem formed_endBack {p : Nat} {s : State} (hs : Formed s) : Formed (endBack p s) := by
  unfold endBack
  with_reducible repeat' first | intro _ | assumption | apply formed_modBack | apply formed_issueBack

theorem formed_cancelBack {p : Nat} {s : State} (hs : Formed s) : Formed (cancelBack p s) := by
  unfold cancelBack
  with_reducible repeat' first | intro _ | assumption | apply formed_ite | apply formed_State_incSat | apply formed_modBack

theorem formed_acceptReading {p : Nat} {r : Reading} {s : State} (hs : Formed s) : Formed (acceptReading p r s) := by
  unfold acceptReading
  with_reducible repeat' first | intro _ | assumption | apply formed_ite | apply formed_State_incSat | apply formed_modBack | apply formed_issueBack | (extract_lets +onlyGivenNames a; first | (have ha : Formed a := (by dsimp only [a]; repeat' first | intro _ | assumption | apply formed_ite | apply formed_State_incSat | apply formed_modBack | apply formed_issueBack | split | dsimp only [id_eq]); clear_value a) | clear_value a) | split | dsimp only [id_eq]

theorem formed_fieldReport {r : Report} {s : State} (hs : Formed s) : Formed (fieldReport r s) := by
  unfold fieldReport
  with_reducible repeat' first | intro _ | assumption | apply formed_ite | apply formed_State_incSat | apply formed_meetBin | apply formed_readAs | apply formed_foldl | apply formed_trendPoison | apply formed_raiseEvents | split | dsimp only [id_eq]

theorem formed_trendFlush {s : State} (hs : Formed s) : Formed (trendFlush s) := by
  unfold trendFlush
  with_reducible repeat' first | intro _ | assumption | apply formed_State_modTrend | apply formed_State_modGate | apply formed_State_incSat | apply formed_forUpTo | apply formed_cancelBack

theorem formed_issueRange {first n : Nat} {s : State} (hs : Formed s) : Formed (issueRange first n s) := by
  unfold issueRange
  with_reducible repeat' first | intro _ | assumption | apply formed_forUpTo | apply formed_ite | apply formed_issueBack

theorem formed_State_modPort {s : State} {p : Nat} {f : Port → Port} (hs : Formed s) : Formed (State.modPort s p f) := by
  unfold State.modPort
  repeat' first | intro _ | with_reducible assumption | with_reducible apply formed_ite | (simp only [↓formed_mk]; refine And.intro ?_ ?_) | with_reducible apply formed_regs | with_reducible apply formed_mem | with_reducible apply formed_filter_regs | with_reducible apply formed_filter_mem | exact formed_nil | exact formed_nil_mem | (extract_lets +onlyGivenNames a; first | (have ha : Formed a := (by dsimp only [a]; repeat' first | intro _ | with_reducible assumption | with_reducible apply formed_ite | (simp only [↓formed_mk]; refine And.intro ?_ ?_) | with_reducible apply formed_regs | with_reducible apply formed_mem | with_reducible apply formed_filter_regs | with_reducible apply formed_filter_mem | exact formed_nil | exact formed_nil_mem | split | dsimp only [id_eq]); clear_value a) | (have hf : State → State := a; clear hf; (try dsimp only [a]); clear a) | clear_value a) | split | dsimp only [id_eq]

theorem formed_readNode {p n : Nat} {s : State} (hs : Formed s) : Formed (readNode p n s) := by
  unfold readNode
  with_reducible repeat' first | intro _ | assumption | apply formed_readAs

theorem formed_writeNode {p n : Nat} {r : NodeRec} {s : State} (hs : Formed s) : Formed (writeNode p n r s) := by
  unfold writeNode
  with_reducible repeat' first | intro _ | assumption | apply formed_memWrite

theorem formed_scanDir {p : Nat} {s : State} (hs : Formed s) : Formed (scanDir p s) := by
  unfold scanDir
  with_reducible repeat' first | intro _ | assumption | apply formed_foldl | apply formed_readAs

theorem formed_pruneChecks {p : Nat} {s : State} (hs : Formed s) : Formed (pruneChecks p s) := by
  unfold pruneChecks
  with_reducible repeat' first | intro _ | assumption | apply formed_State_modPort

theorem formed_setFence_p {p lo hi reason : Nat} {s : State} (hs : Formed s) : Formed (setFence p lo hi reason s).2 := by
  unfold setFence; (try dsimp only)
  with_reducible repeat' first | intro _ | assumption | apply formed_State_mark | apply formed_pruneChecks | apply formed_setReg | split
theorem formed_setFence_t {p lo hi reason : Nat} {s : State} {r0 : Option Nat} {t : State} (he : setFence p lo hi reason s = (r0, t)) (hs : Formed s) : Formed t := by
  have k : Formed (setFence p lo hi reason s).2 := formed_setFence_p (hs := hs)
  rw [he] at k; exact k

theorem formed_countClass {p : Nat} {c : RxClass} {s : State} (hs : Formed s) : Formed (countClass p c s) := by
  unfold countClass
  with_reducible repeat' first | intro _ | assumption | apply formed_State_incSat | split

theorem formed_State_modTimer {s : State} {u : Nat} {f : TimerUnit → TimerUnit} (hs : Formed s) : Formed (State.modTimer s u f) := by
  unfold State.modTimer
  repeat' first | intro _ | with_reducible assumption | with_reducible apply formed_ite | (simp only [↓formed_mk]; refine And.intro ?_ ?_) | with_reducible apply formed_regs | with_reducible apply formed_mem | with_reducible apply formed_filter_regs | with_reducible apply formed_filter_mem | exact formed_nil | exact formed_nil_mem | (extract_lets +onlyGivenNames a; first | (have ha : Formed a := (by dsimp only [a]; repeat' first | intro _ | with_reducible assumption | with_reducible apply formed_ite | (simp only [↓formed_mk]; refine And.intro ?_ ?_) | with_reducible apply formed_regs | with_reducible apply formed_mem | with_reducible apply formed_filter_regs | with_reducible apply formed_filter_mem | exact formed_nil | exact formed_nil_mem | split | dsimp only [id_eq]); clear_value a) | (have hf : State → State := a; clear hf; (try dsimp only [a]); clear a) | clear_value a) | split | dsimp only [id_eq]

theorem formed_tmrEvent {u cond : Nat} {s : State} (hs : Formed s) : Formed (tmrEvent u cond s) := by
  unfold tmrEvent
  with_reducible repeat' first | intro _ | assumption | apply formed_ite | apply formed_pmEvent | apply formed_State_mark

theorem formed_latchAct {u : Nat} {b : Bool} {code : Nat} {s : State} (hs : Formed s) : Formed (latchAct u b code s) := by
  unfold latchAct
  with_reducible repeat' first | intro _ | assumption | apply formed_ite | apply formed_State_put

theorem formed_tmrMatch {u : Nat} {b : Bool} {s : State} (hs : Formed s) : Formed (tmrMatch u b s) := by
  unfold tmrMatch
  with_reducible repeat' first | intro _ | assumption | apply formed_tmrEvent | apply formed_State_mark | apply formed_ite | apply formed_latchAct

theorem formed_tmrWrap {u : Nat} {s : State} (hs : Formed s) : Formed (tmrWrap u s) := by
  unfold tmrWrap
  with_reducible repeat' first | intro _ | assumption | apply formed_ite | apply formed_wakeRecognised | apply formed_tmrEvent | apply formed_wakeNoted | apply formed_latchAct | apply formed_State_mark | apply formed_State_modTimer

theorem formed_bothCh {f : Bool → State → State} {s : State} (hs : Formed s) (hf : ∀ x0 x1, Formed x1 → Formed (f x0 x1)) : Formed (bothCh f s) := by
  unfold bothCh
  with_reducible repeat' first | intro _ | assumption | apply hf

theorem formed_tmrGain {u n : Nat} {s : State} (hs : Formed s) : Formed (tmrGain u n s) := by
  unfold tmrGain
  with_reducible repeat' first | intro _ | assumption | apply formed_ite | apply formed_bothCh | apply formed_tmrWrap | apply formed_State_put | apply formed_tmrMatch

theorem formed_tmrStep {u d : Nat} {s : State} (hs : Formed s) : Formed (tmrStep u d s) := by
  unfold tmrStep
  with_reducible repeat' first | intro _ | assumption | apply formed_ite | apply formed_State_modTimer | apply formed_tmrGain

theorem formed_timerMatch {u : Nat} {b : Bool} {s : State} (hs : Formed s) : Formed (timerMatch u b s) := by
  unfold timerMatch
  with_reducible repeat' first | intro _ | assumption | apply formed_ite | apply formed_tmrGain | apply formed_State_modTimer

theorem formed_timerWrap {u : Nat} {s : State} (hs : Formed s) : Formed (timerWrap u s) := by
  unfold timerWrap
  with_reducible repeat' first | intro _ | assumption | apply formed_ite | apply formed_tmrGain | apply formed_State_modTimer

theorem formed_levelMoves {u : Nat} {b rising : Bool} {s : State} (hs : Formed s) : Formed (levelMoves u b rising s) := by
  unfold levelMoves
  with_reducible repeat' first | intro _ | assumption | apply formed_ite | apply formed_State_modTimer | apply formed_State_putB | apply formed_tmrEvent | apply formed_State_mark | apply formed_State_put

theorem formed_captureEdge {u : Nat} {b rising : Bool} {s : State} (hs : Formed s) : Formed (captureEdge u b rising s) := by
  unfold captureEdge
  with_reducible repeat' first | intro _ | assumption | apply formed_ite | apply formed_State_modTimer | apply formed_levelMoves

theorem formed_samplePin {u : Nat} {b : Bool} {s : State} (hs : Formed s) : Formed (samplePin u b s) := by
  unfold samplePin
  with_reducible repeat' first | intro _ | assumption | apply formed_ite | apply formed_State_modTimer | apply formed_levelMoves

theorem formed_tmrPeriod {u d : Nat} {s : State} (hs : Formed s) : Formed (tmrPeriod u d s) := by
  unfold tmrPeriod
  with_reducible repeat' first | intro _ | assumption | apply formed_bothCh | apply formed_ite | apply formed_tmrStep | apply formed_samplePin

theorem formed_timersTick {s : State} (hs : Formed s) : Formed (timersTick s) := by
  unfold timersTick
  repeat' first | intro _ | with_reducible assumption | with_reducible apply formed_tmrPeriod | with_reducible apply formed_forUpTo | with_reducible apply formed_ite | (simp only [↓formed_mk]; refine And.intro ?_ ?_) | with_reducible apply formed_regs | with_reducible apply formed_mem | with_reducible apply formed_filter_regs | with_reducible apply formed_filter_mem | exact formed_nil | exact formed_nil_mem | (extract_lets +onlyGivenNames a; first | (have ha : Formed a := (by dsimp only [a]; repeat' first | intro _ | with_reducible assumption | with_reducible apply formed_tmrPeriod | with_reducible apply formed_forUpTo | with_reducible apply formed_ite | (simp only [↓formed_mk]; refine And.intro ?_ ?_) | with_reducible apply formed_regs | with_reducible apply formed_mem | with_reducible apply formed_filter_regs | with_reducible apply formed_filter_mem | exact formed_nil | exact formed_nil_mem | split | dsimp only [id_eq]); clear_value a) | (have hf : State → State := a; clear hf; (try dsimp only [a]); clear a) | clear_value a) | split | dsimp only [id_eq]

theorem formed_captureRead_p {u : Nat} {b : Bool} {s : State} (hs : Formed s) : Formed (captureRead u b s).2 := by
  unfold captureRead; (try dsimp only)
  with_reducible repeat' first | intro _ | assumption | apply formed_State_put
theorem formed_captureRead_t {u : Nat} {b : Bool} {s : State} {r0 : Nat} {t : State} (he : captureRead u b s = (r0, t)) (hs : Formed s) : Formed t := by
  have k : Formed (captureRead u b s).2 := formed_captureRead_p (hs := hs)
  rw [he] at k; exact k

theorem formed_preloadWrite {a : Nat} {v : Word} {s : State} (hs : Formed s) : Formed (preloadWrite a v s) := by
  unfold preloadWrite
  with_reducible repeat' first | intro _ | assumption | apply formed_setReg

theorem formed_cmpLoad {u : Nat} {b : Bool} {s : State} (hs : Formed s) : Formed (cmpLoad u b s) := by
  unfold cmpLoad
  with_reducible repeat' first | intro _ | assumption | apply formed_ite | apply formed_tmrMatch | apply formed_State_modTimer

theorem formed_outputForce {u : Nat} {b : Bool} {code : Nat} {s : State} (hs : Formed s) : Formed (outputForce u b code s) := by
  unfold outputForce
  with_reducible repeat' first | intro _ | assumption | apply formed_ite | apply formed_State_put

theorem formed_timerStart {u : Nat} {s : State} (hs : Formed s) : Formed (timerStart u s) := by
  unfold timerStart
  with_reducible repeat' first | intro _ | assumption | apply formed_State_mark | apply formed_State_modTimer

theorem formed_timerStop {u : Nat} {s : State} (hs : Formed s) : Formed (timerStop u s) := by
  unfold timerStop
  with_reducible repeat' first | intro _ | assumption | apply formed_State_put

theorem formed_timerCmd {u v : Nat} {s : State} (hs : Formed s) : Formed (timerCmd u v s) := by
  unfold timerCmd
  with_reducible repeat' first | intro _ | assumption | apply formed_outputForce | apply formed_ite | apply formed_cmpLoad

theorem formed_trimResidue {u : Nat} {s : State} (hs : Formed s) : Formed (trimResidue u s) := by
  unfold trimResidue
  with_reducible repeat' first | intro _ | assumption | apply formed_State_modTimer

theorem formed_sealRead {c n : Nat} {s : State} (hs : Formed s) : Formed (sealRead c n s) := by
  unfold sealRead
  with_reducible repeat' first | intro _ | assumption | apply formed_forUpTo | apply formed_readEffect

theorem formed_refreshSealed {c : Nat} {s : State} (hs : Formed s) : Formed (refreshSealed c s) := by
  unfold refreshSealed
  with_reducible repeat' first | intro _ | assumption | apply formed_State_putB | split

theorem formed_voidSeal {c : Nat} {s : State} (hs : Formed s) : Formed (voidSeal c s) := by
  unfold voidSeal
  with_reducible repeat' first | intro _ | assumption | apply formed_State_put | apply formed_directWrite

theorem formed_discardSeal {c : Nat} {s : State} (hs : Formed s) : Formed (discardSeal c s) := by
  unfold discardSeal
  repeat' first | intro _ | with_reducible assumption | with_reducible apply formed_voidSeal | with_reducible apply formed_ite | (simp only [↓formed_mk]; refine And.intro ?_ ?_) | with_reducible apply formed_regs | with_reducible apply formed_mem | with_reducible apply formed_filter_regs | with_reducible apply formed_filter_mem | exact formed_nil | exact formed_nil_mem | (extract_lets +onlyGivenNames a; first | (have ha : Formed a := (by dsimp only [a]; repeat' first | intro _ | with_reducible assumption | with_reducible apply formed_voidSeal | with_reducible apply formed_ite | (simp only [↓formed_mk]; refine And.intro ?_ ?_) | with_reducible apply formed_regs | with_reducible apply formed_mem | with_reducible apply formed_filter_regs | with_reducible apply formed_filter_mem | exact formed_nil | exact formed_nil_mem | split | dsimp only [id_eq]); clear_value a) | (have hf : State → State := a; clear hf; (try dsimp only [a]); clear a) | clear_value a) | split | dsimp only [id_eq]

theorem formed_startCore {c : Nat} {s : State} (hs : Formed s) : Formed (startCore c s) := by
  unfold startCore
  repeat' first | intro _ | with_reducible assumption | with_reducible apply formed_State_put | with_reducible apply formed_State_mark | with_reducible apply formed_State_putB | with_reducible apply formed_State_modCore | with_reducible apply formed_sealRead | with_reducible apply formed_ite | (simp only [↓formed_mk]; refine And.intro ?_ ?_) | with_reducible apply formed_regs | with_reducible apply formed_mem | with_reducible apply formed_filter_regs | with_reducible apply formed_filter_mem | exact formed_nil | exact formed_nil_mem | (extract_lets +onlyGivenNames a; first | (have ha : Formed a := (by dsimp only [a]; repeat' first | intro _ | with_reducible assumption | with_reducible apply formed_State_put | with_reducible apply formed_State_mark | with_reducible apply formed_State_putB | with_reducible apply formed_State_modCore | with_reducible apply formed_sealRead | with_reducible apply formed_ite | (simp only [↓formed_mk]; refine And.intro ?_ ?_) | with_reducible apply formed_regs | with_reducible apply formed_mem | with_reducible apply formed_filter_regs | with_reducible apply formed_filter_mem | exact formed_nil | exact formed_nil_mem | split | dsimp only [id_eq]); clear_value a) | (have hf : State → State := a; clear hf; (try dsimp only [a]); clear a) | clear_value a) | split | dsimp only [id_eq]

theorem formed_coreStart {c : Nat} {s : State} (hs : Formed s) : Formed (coreStart c s) := by
  unfold coreStart
  with_reducible repeat' first | intro _ | assumption | apply formed_ite | apply formed_State_mark | apply formed_startCore | split

theorem formed_haltRun {c : Nat} {s : State} (hs : Formed s) : Formed (haltRun c s) := by
  unfold haltRun
  with_reducible repeat' first | intro _ | assumption | apply formed_State_put | apply formed_cancelSpec

theorem formed_settleStop {c : Nat} {s : State} (hs : Formed s) : Formed (settleStop c s) := by
  unfold settleStop
  with_reducible repeat' first | intro _ | assumption | apply formed_ite | apply formed_haltRun | split

theorem formed_coreStop {c : Nat} {s : State} (hs : Formed s) : Formed (coreStop c s) := by
  unfold coreStop
  with_reducible repeat' first | intro _ | assumption | apply formed_settleStop | apply formed_cancelSpec | apply formed_State_put

theorem formed_coreFresh {c : Nat} {s : State} (hs : Formed s) : Formed (coreFresh c s) := by
  unfold coreFresh
  with_reducible repeat' first | intro _ | assumption | apply formed_ite | apply formed_discardSeal

theorem formed_coreReset {c : Nat} {s : State} (hs : Formed s) : Formed (coreReset c s) := by
  unfold coreReset
  repeat' first | intro _ | with_reducible assumption | with_reducible apply formed_State_put | with_reducible apply formed_State_modCore | with_reducible apply formed_cancelSpec | with_reducible apply formed_dropTxn | with_reducible apply formed_startCore | with_reducible apply formed_ite | (simp only [↓formed_mk]; refine And.intro ?_ ?_) | with_reducible apply formed_regs | with_reducible apply formed_mem | with_reducible apply formed_filter_regs | with_reducible apply formed_filter_mem | exact formed_nil | exact formed_nil_mem | (extract_lets +onlyGivenNames a; first | (have ha : Formed a := (by dsimp only [a]; repeat' first | intro _ | with_reducible assumption | with_reducible apply formed_State_put | with_reducible apply formed_State_modCore | with_reducible apply formed_cancelSpec | with_reducible apply formed_dropTxn | with_reducible apply formed_startCore | with_reducible apply formed_ite | (simp only [↓formed_mk]; refine And.intro ?_ ?_) | with_reducible apply formed_regs | with_reducible apply formed_mem | with_reducible apply formed_filter_regs | with_reducible apply formed_filter_mem | exact formed_nil | exact formed_nil_mem | split | dsimp only [id_eq]); clear_value a) | (have hf : State → State := a; clear hf; (try dsimp only [a]); clear a) | clear_value a) | split | dsimp only [id_eq]

theorem formed_loadProgram {c : Nat} {b : List Byte} {s : State} (hs : Formed s) : Formed (loadProgram c b s) := by
  unfold loadProgram
  with_reducible repeat' first | intro _ | assumption | apply formed_refreshSealed | apply formed_State_put | apply formed_State_modCore | apply formed_ite | apply formed_voidSeal

theorem formed_coreMemWrite {c : Nat} {v : Byte} {s : State} (hs : Formed s) : Formed (coreMemWrite c v s) := by
  unfold coreMemWrite
  with_reducible repeat' first | intro _ | assumption | apply formed_ite | apply formed_State_mark | apply formed_State_put | apply formed_State_modCore

theorem formed_coreMemRead_p {c : Nat} {s : State} (hs : Formed s) : Formed (coreMemRead c s).2 := by
  unfold coreMemRead; (try dsimp only)
  with_reducible repeat' first | intro _ | assumption | apply formed_State_put | split
theorem formed_coreMemRead_t {c : Nat} {s : State} {r0 : Nat} {t : State} (he : coreMemRead c s = (r0, t)) (hs : Formed s) : Formed t := by
  have k : Formed (coreMemRead c s).2 := formed_coreMemRead_p (hs := hs)
  rw [he] at k; exact k

end Sys2Proof.Machine
end

