-- ==== Sys2Proof/Laws/FormPort.lean ====
section
/-!
SUPPORT. What keeps both maps of a state in canonical form: the timetable, the ports, loading, the route map, the pace and franking.
One lemma for each operation that answers a state, and for each that answers one beside a value a lemma about that state.
-/

namespace Sys2Proof.Machine

theorem formed_State_modSeq {s : State} {f : Sequencer → Sequencer} (hs : Formed s) : Formed (State.modSeq s f) := by
  unfold State.modSeq
  repeat' first | intro _ | with_reducible assumption | with_reducible apply formed_ite | (simp only [↓formed_mk]; refine And.intro ?_ ?_) | with_reducible apply formed_regs | with_reducible apply formed_mem | with_reducible apply formed_filter_regs | with_reducible apply formed_filter_mem | exact formed_nil | exact formed_nil_mem | (extract_lets +onlyGivenNames a; first | (have ha : Formed a := (by dsimp only [a]; repeat' first | intro _ | with_reducible assumption | with_reducible apply formed_ite | (simp only [↓formed_mk]; refine And.intro ?_ ?_) | with_reducible apply formed_regs | with_reducible apply formed_mem | with_reducible apply formed_filter_regs | with_reducible apply formed_filter_mem | exact formed_nil | exact formed_nil_mem | split | dsimp only [id_eq]); clear_value a) | (have hf : State → State := a; clear hf; (try dsimp only [a]); clear a) | clear_value a) | split | dsimp only [id_eq]

theorem formed_State_modPass {s : State} {p : Nat} {f : Pass → Pass} (hs : Formed s) : Formed (State.modPass s p f) := by
  unfold State.modPass
  with_reducible repeat' first | intro _ | assumption | apply formed_State_modSeq

theorem formed_setSlot {bank : Bool} {i v : Nat} {s : State} (hs : Formed s) : Formed (setSlot bank i v s) := by
  unfold setSlot
  with_reducible repeat' first | intro _ | assumption | apply formed_State_modSeq

theorem formed_discardBuilt {p : Nat} {drop : Built → Bool} {s : State} (hs : Formed s) : Formed (discardBuilt p drop s) := by
  unfold discardBuilt
  with_reducible repeat' first | intro _ | assumption | apply formed_State_incSat | apply formed_State_modPort | split

theorem formed_prebuild {p : Nat} {s : State} (hs : Formed s) : Formed (prebuild p s) := by
  unfold prebuild
  with_reducible repeat' first | intro _ | assumption | apply formed_ite | apply formed_State_modPort | split

theorem formed_trimBuilt {p : Nat} {s : State} (hs : Formed s) : Formed (trimBuilt p s) := by
  unfold trimBuilt
  with_reducible repeat' first | intro _ | assumption | apply formed_State_incSat | apply formed_State_modPort | split

theorem formed_loadFigures {p : Nat} {s : State} (hs : Formed s) : Formed (loadFigures p s) := by
  unfold loadFigures
  with_reducible repeat' first | intro _ | assumption | apply formed_ite | apply formed_State_put

theorem formed_fireSlot {p i v : Nat} {fill : Bool} {s : State} (hs : Formed s) : Formed (fireSlot p i v fill s) := by
  unfold fireSlot
  with_reducible repeat' first | intro _ | assumption | apply formed_ite | apply formed_State_modPass | apply formed_State_incSat | apply formed_State_mark | apply formed_State_put | apply formed_State_modPort | split

theorem formed_countWait {p : Nat} {s : State} (hs : Formed s) : Formed (countWait p s) := by
  unfold countWait
  with_reducible repeat' first | intro _ | assumption | apply formed_State_modPass | apply formed_State_modPort | split

theorem formed_endWait {p : Nat} {s : State} (hs : Formed s) : Formed (endWait p s) := by
  unfold endWait
  with_reducible repeat' first | intro _ | assumption | apply formed_State_modPort | apply formed_countWait

theorem formed_beginPass {p : Nat} {s0 : State} (hs0 : Formed s0) : Formed (beginPass p s0) := by
  unfold beginPass
  with_reducible repeat' first | intro _ | assumption | apply formed_State_modPass | apply formed_discardBuilt | apply formed_State_put | apply formed_ite | apply formed_State_incWrap | apply formed_loadFigures | apply formed_countWait

theorem formed_advanceOne_p {p : Nat} {a : Bool × State} (ha : Formed a.2) : Formed (advanceOne p a).2 := by
  unfold advanceOne; (try dsimp only)
  with_reducible repeat' first | intro _ | assumption | apply formed_State_modPass | apply formed_State_mark | apply formed_fireSlot | apply formed_beginPass | apply formed_State_incSat | split
theorem formed_advanceOne_t {p : Nat} {a : Bool × State} {r0 : Bool} {t : State} (he : advanceOne p a = (r0, t)) (ha : Formed a.2) : Formed t := by
  have k : Formed (advanceOne p a).2 := formed_advanceOne_p (ha := ha)
  rw [he] at k; exact k

theorem formed_advanceN {n p : Nat} {s : State} (hs : Formed s) : Formed (advanceN n p s) := by
  induction n generalizing s with
  | zero => exact hs
  | succ n ih =>
    have k : Formed (advanceOne p (true, s)).2 := formed_advanceOne_p hs
    unfold advanceN
    split
    · exact ih k
    · exact k

theorem formed_advance {p : Nat} {s : State} (hs : Formed s) : Formed (advance p s) := by
  unfold advance
  with_reducible repeat' first | intro _ | assumption | apply formed_advanceN

theorem formed_advanceAll {s : State} (hs : Formed s) : Formed (advanceAll s) := by
  unfold advanceAll
  with_reducible repeat' first | intro _ | assumption | apply formed_forUpTo | apply formed_advance

theorem formed_abandonPass {p : Nat} {s : State} (hs : Formed s) : Formed (abandonPass p s) := by
  unfold abandonPass
  with_reducible repeat' first | intro _ | assumption | apply formed_State_modPass | apply formed_State_put

theorem formed_portSwap {p : Nat} {s : State} (hs : Formed s) : Formed (portSwap p s) := by
  unfold portSwap
  with_reducible repeat' first | intro _ | assumption | apply formed_ite | apply formed_dayPush | apply formed_State_put | apply formed_State_putB | apply formed_State_modPass | apply formed_discardBuilt

theorem formed_startSwap {s : State} (hs : Formed s) : Formed (startSwap s) := by
  unfold startSwap
  with_reducible repeat' first | intro _ | assumption | apply formed_advanceAll | apply formed_forUpTo | apply formed_ite | apply formed_portSwap | apply formed_State_put | apply formed_State_mark

theorem formed_applyEdit {i v : Nat} {s : State} (hs : Formed s) : Formed (applyEdit i v s) := by
  unfold applyEdit
  with_reducible repeat' first | intro _ | assumption | apply formed_State_modSeq | apply formed_State_put | apply formed_setSlot | apply formed_forUpTo | apply formed_discardBuilt

theorem formed_startEdit {i v : Nat} {s : State} (hs : Formed s) : Formed (startEdit i v s) := by
  unfold startEdit
  with_reducible repeat' first | intro _ | assumption | apply formed_ite | apply formed_State_modSeq | apply formed_State_mark | apply formed_advanceAll | apply formed_applyEdit

theorem formed_settleEdit {s : State} (hs : Formed s) : Formed (settleEdit s) := by
  unfold settleEdit
  with_reducible repeat' first | intro _ | assumption | apply formed_ite | apply formed_applyEdit | split

theorem formed_slotWrite {writer : Nat} {hi : Word} {s : State} (hs : Formed s) : Formed (slotWrite writer hi s) := by
  unfold slotWrite
  with_reducible repeat' first | intro _ | assumption | apply formed_ite | apply formed_refuse | apply formed_State_mark | apply formed_State_put | apply formed_setSlot

theorem formed_pickSlot {s : State} (hs : Formed s) : Formed (pickSlot s) := by
  unfold pickSlot
  with_reducible repeat' first | intro _ | assumption | apply formed_State_modSeq | apply formed_State_free_p

theorem formed_slotRead_p {s : State} (hs : Formed s) : Formed (slotRead s).2 := by
  unfold slotRead; (try dsimp only)
  with_reducible repeat' first | intro _ | assumption | apply formed_pickSlot | apply formed_State_put
theorem formed_slotRead_t {s : State} {r0 : Nat} {t : State} (he : slotRead s = (r0, t)) (hs : Formed s) : Formed t := by
  have k : Formed (slotRead s).2 := formed_slotRead_p (hs := hs)
  rw [he] at k; exact k

theorem formed_ttCopy {s : State} (hs : Formed s) : Formed (ttCopy s) := by
  unfold ttCopy
  with_reducible repeat' first | intro _ | assumption | apply formed_ite | apply formed_State_mark | apply formed_pickSlot

theorem formed_copyComplete {s : State} (hs : Formed s) : Formed (copyComplete s) := by
  unfold copyComplete
  with_reducible repeat' first | intro _ | assumption | apply formed_ite | apply formed_State_put | apply formed_State_modSeq

theorem formed_ttRunSet {s : State} (hs : Formed s) : Formed (ttRunSet s) := by
  unfold ttRunSet
  with_reducible repeat' first | intro _ | assumption | apply formed_advanceAll | apply formed_State_mark

theorem formed_ttRunClear {s : State} (hs : Formed s) : Formed (ttRunClear s) := by
  unfold ttRunClear
  with_reducible repeat' first | intro _ | assumption | apply formed_forUpTo | apply formed_abandonPass | apply formed_discardBuilt | apply formed_State_put

theorem formed_gateAnew {s : State} (hs : Formed s) : Formed (gateAnew s) := by
  unfold gateAnew
  with_reducible repeat' first | intro _ | assumption | apply formed_forUpTo | apply formed_State_modPass

theorem formed_gateWrite {s : State} (hs : Formed s) : Formed (gateWrite s) := by
  unfold gateWrite
  with_reducible repeat' first | intro _ | assumption | apply formed_advanceAll | apply formed_gateAnew

theorem formed_gateOpen {p : Nat} {s : State} (hs : Formed s) : Formed (gateOpen p s) := by
  unfold gateOpen
  with_reducible repeat' first | intro _ | assumption | apply formed_ite | apply formed_advance | apply formed_State_modPass

theorem formed_State_modXchg {s : State} {p : Nat} {f : Exchange → Exchange} (hs : Formed s) : Formed (State.modXchg s p f) := by
  unfold State.modXchg
  with_reducible repeat' first | intro _ | assumption | apply formed_State_modPort

theorem formed_State_modRound {s : State} {p : Nat} {f : Round → Round} (hs : Formed s) : Formed (State.modRound s p f) := by
  unfold State.modRound
  with_reducible repeat' first | intro _ | assumption | apply formed_State_modPort

theorem formed_nodeEvent {p kind node : Nat} {s : State} {ep : Nat} (hs : Formed s) : Formed (nodeEvent p kind node s ep) := by
  unfold nodeEvent
  with_reducible repeat' first | intro _ | assumption | apply formed_pmEvent

theorem formed_stranger {p cls node data : Nat} {s : State} (hs : Formed s) : Formed (stranger p cls node data s) := by
  unfold stranger
  with_reducible repeat' first | intro _ | assumption | apply formed_ite | apply formed_State_incSat | apply formed_pmEvent | apply formed_dayPush | apply formed_State_put

theorem formed_discardRound {p : Nat} {s : State} (hs : Formed s) : Formed (discardRound p s) := by
  unfold discardRound
  with_reducible repeat' first | intro _ | assumption | apply formed_State_modRound | apply formed_State_incSat | split

theorem formed_rebuildRound {p : Nat} {n : Option Nat} {s : State} (hs : Formed s) : Formed (rebuildRound p n s) := by
  unfold rebuildRound
  with_reducible repeat' first | intro _ | assumption | apply formed_discardRound | apply formed_State_modPort | apply formed_State_modRound | split

theorem formed_dropUnicasts {p n : Nat} {s : State} (hs : Formed s) : Formed (dropUnicasts p n s) := by
  unfold dropUnicasts
  with_reducible repeat' first | intro _ | assumption | apply formed_ite | apply formed_State_put | apply formed_State_modPort

theorem formed_quarantine {p n : Nat} {s : State} (hs : Formed s) : Formed (quarantine p n s) := by
  unfold quarantine
  with_reducible repeat' first | intro _ | assumption | apply formed_ite | apply formed_State_incSat | apply formed_modBack | apply formed_dropUnicasts | apply formed_pruneChecks | apply formed_rebuildRound | apply formed_discardBuilt | apply formed_writeNode

theorem formed_raiseCheck {p n : Nat} {dup restarted : Bool} {s : State} (hs : Formed s) : Formed (raiseCheck p n dup restarted s) := by
  unfold raiseCheck
  with_reducible repeat' first | intro _ | assumption | apply formed_ite | apply formed_State_modPort

theorem formed_followUp {p : Nat} {c : LineCmd} {s : State} (hs : Formed s) : Formed (followUp p c s) := by
  unfold followUp
  with_reducible repeat' first | intro _ | assumption | apply formed_ite | apply formed_State_modPort

theorem formed_unknownStranger {p n : Nat} {s : State} (hs : Formed s) : Formed (unknownStranger p n s) := by
  unfold unknownStranger
  with_reducible repeat' first | intro _ | assumption | apply formed_ite | apply formed_stranger | apply formed_followUp | split

theorem formed_impostor {p n data : Nat} {s : State} (hs : Formed s) : Formed (impostor p n data s) := by
  unfold impostor
  with_reducible repeat' first | intro _ | assumption | apply formed_ite | apply formed_quarantine | apply formed_stranger | apply formed_followUp | apply formed_writeNode

theorem formed_authStranger {p n : Nat} {s : State} (hs : Formed s) : Formed (authStranger p n s) := by
  unfold authStranger
  with_reducible repeat' first | intro _ | assumption | apply formed_ite | apply formed_quarantine | apply formed_stranger | apply formed_writeNode

theorem formed_energyStranger {p : Nat} {s : State} (hs : Formed s) : Formed (energyStranger p s) := by
  unfold energyStranger
  with_reducible repeat' first | intro _ | assumption | apply formed_stranger

theorem formed_fenceReturn {p n : Nat} {s : State} (hs : Formed s) : Formed (fenceReturn p n s) := by
  unfold fenceReturn
  with_reducible repeat' first | intro _ | assumption | apply formed_foldl | apply formed_ite | apply formed_nodeEvent | apply formed_State_put

theorem formed_goodFrom {p n : Nat} {s : State} (hs : Formed s) : Formed (goodFrom p n s) := by
  unfold goodFrom
  with_reducible repeat' first | intro _ | assumption | apply formed_fenceReturn | apply formed_ite | apply formed_writeNode

theorem formed_beginNode {p : Nat} {t : NodeTxn} {w : NodeTodo} {s : State} (hs : Formed s) : Formed (beginNode p t w s) := by
  unfold beginNode
  with_reducible repeat' first | intro _ | assumption | apply formed_State_modPort | apply formed_txnCommit | apply formed_modTxn | apply formed_ite | apply formed_memWrite | apply formed_txnOpen | apply formed_forUpTo

theorem formed_tryNode {p : Nat} {s : State} (hs : Formed s) : Formed (tryNode p s) := by
  unfold tryNode
  with_reducible repeat' first | intro _ | assumption | apply formed_ite | apply formed_beginNode | apply formed_issueRange | split

theorem formed_retryNodes {s : State} (hs : Formed s) : Formed (retryNodes s) := by
  unfold retryNodes
  with_reducible repeat' first | intro _ | assumption | apply formed_forUpTo | apply formed_tryNode

theorem formed_nodeTxn {p n : Nat} {r : NodeRec} {edit : EntryEdit} {count : Nat} {event : Option Nat} {s : State} (hs : Formed s) : Formed (nodeTxn p n r edit count event s) := by
  unfold nodeTxn
  with_reducible repeat' first | intro _ | assumption | apply formed_tryNode | apply formed_State_modPort

theorem formed_nodeCommitted {p : Nat} {s : State} (hs : Formed s) : Formed (nodeCommitted p s) := by
  unfold nodeCommitted
  with_reducible repeat' first | intro _ | assumption | apply formed_State_modPort | apply formed_nodeEvent | apply formed_ite | apply formed_dayPush | split

theorem formed_enrolDone {p n typ ver points : Nat} {kept : Option (Nat × Nat)} {s : State} (hs : Formed s) : Formed (enrolDone p n typ ver points kept s) := by
  unfold enrolDone
  with_reducible repeat' first | intro _ | assumption | apply formed_nodeTxn

theorem formed_setWait {p : Nat} {s : State} (hs : Formed s) : Formed (setWait p s) := by
  unfold setWait
  with_reducible repeat' first | intro _ | assumption | apply formed_State_modPort

theorem formed_finishRound {p : Nat} {s : State} (hs : Formed s) : Formed (finishRound p s) := by
  unfold finishRound
  with_reducible repeat' first | intro _ | assumption | apply formed_ite | apply formed_State_modRound | split

theorem formed_letterboxOver {p n total : Nat} {s : State} (hs : Formed s) : Formed (letterboxOver p n total s) := by
  unfold letterboxOver
  with_reducible repeat' first | intro _ | assumption | apply formed_finishRound | apply formed_ite | apply formed_State_put | apply formed_State_mark

theorem formed_clearStacks {p : Nat} {s : State} (hs : Formed s) : Formed (clearStacks p s) := by
  unfold clearStacks
  with_reducible repeat' first | intro _ | assumption | apply formed_State_modPort | apply formed_State_put

theorem formed_maintStep {p : Nat} {r : Round} {s0 : State} (hs0 : Formed s0) : Formed (maintStep p r s0) := by
  unfold maintStep
  with_reducible repeat' first | intro _ | assumption | apply formed_pruneChecks | apply formed_State_modRound | apply formed_readNode | apply formed_ite | apply formed_State_modPort | apply formed_State_put | apply formed_scanDir | apply formed_finishRound | split | dsimp only [id_eq]

theorem formed_proceedOne {p : Nat} {s : State} (hs : Formed s) : Formed (proceedOne p s) := by
  unfold proceedOne
  with_reducible repeat' first | intro _ | assumption | apply formed_ite | apply formed_finishRound | apply formed_State_modPort | apply formed_letterboxOver | apply formed_maintStep | split

theorem formed_enrolStop {p : Nat} {s : State} (hs : Formed s) : Formed (enrolStop p s) := by
  unfold enrolStop
  with_reducible repeat' first | intro _ | assumption | apply formed_ite | apply formed_finishRound | apply formed_State_modPort | split

theorem formed_proceed {p : Nat} {s : State} (hs : Formed s) : Formed (proceed p s) := by
  unfold proceed
  with_reducible repeat' first | intro _ | assumption | apply formed_setWait | apply formed_iter | apply formed_proceedOne | apply formed_enrolStop

theorem formed_beginRound {p : Nat} {k : RoundKind} {s : State} (hs : Formed s) : Formed (beginRound p k s) := by
  unfold beginRound
  with_reducible repeat' first | intro _ | assumption | apply formed_State_modRound | apply formed_ite | apply formed_State_modPort | apply formed_proceed | split

theorem formed_walkEnd {p : Nat} {s : State} (hs : Formed s) : Formed (walkEnd p s) := by
  unfold walkEnd
  with_reducible repeat' first | intro _ | assumption | apply formed_advance | apply formed_proceed | apply formed_State_modPort | apply formed_State_put

theorem formed_walkStep {p n : Nat} {stage : WalkStage} {c : LineCmd} {s : State} (hs : Formed s) : Formed (walkStep p n stage c s) := by
  unfold walkStep
  with_reducible repeat' first | intro _ | assumption | apply formed_setWait | apply formed_State_modPort

theorem formed_walkFrom {p from_ : Nat} {s : State} (hs : Formed s) : Formed (walkFrom p from_ s) := by
  unfold walkFrom
  with_reducible repeat' first | intro _ | assumption | apply formed_walkEnd | apply formed_ite | apply formed_advance | apply formed_walkStep | apply formed_State_mark | split

theorem formed_walkTo {p from_ : Nat} {s : State} (hs : Formed s) : Formed (walkTo p from_ s) := by
  unfold walkTo
  with_reducible repeat' first | intro _ | assumption | apply formed_walkFrom | apply formed_scanDir | split | dsimp only [id_eq]

theorem formed_walkOut {p : Nat} {s0 : State} (hs0 : Formed s0) : Formed (walkOut p s0) := by
  unfold walkOut
  with_reducible repeat' first | intro _ | assumption | apply formed_ite | apply formed_advance | apply formed_proceed | apply formed_scanDir | apply formed_walkFrom

theorem formed_walkPinged {p n : Nat} {good : Bool} {s : State} (hs : Formed s) : Formed (walkPinged p n good s) := by
  unfold walkPinged
  with_reducible repeat' first | intro _ | assumption | apply formed_ite | apply formed_walkEnd | apply formed_setFence_p | apply formed_walkStep

theorem formed_closeWaitExpiry {p : Nat} {s : State} (hs : Formed s) : Formed (closeWaitExpiry p s) := by
  unfold closeWaitExpiry
  with_reducible repeat' first | intro _ | assumption | apply formed_ite | apply formed_walkEnd | refine formed_setFence_t (by assumption) ?_ | apply formed_State_modPort | apply formed_walkTo | split

theorem formed_frameSend {p : Nat} {s0 : State} (hs0 : Formed s0) : Formed (frameSend p s0) := by
  unfold frameSend
  with_reducible repeat' first | intro _ | assumption | apply formed_tryNode | apply formed_State_put | apply formed_ite | apply formed_storeRecord | apply formed_State_modPort | apply formed_State_mark | apply formed_State_modRound | split | dsimp only [id_eq]

theorem formed_lineTick {p : Nat} {s : State} (hs : Formed s) : Formed (lineTick p s) := by
  unfold lineTick
  with_reducible repeat' first | intro _ | assumption | apply formed_ite | apply formed_State_modPort | split

theorem formed_linesTick {s : State} (hs : Formed s) : Formed (linesTick s) := by
  unfold linesTick
  with_reducible repeat' first | intro _ | assumption | apply formed_ite | apply formed_forUpTo | apply formed_lineTick

theorem formed_lineStep {p : Nat} {from_ to_ : LineStage} {s : State} (hs : Formed s) : Formed (lineStep p from_ to_ s) := by
  unfold lineStep
  with_reducible repeat' first | intro _ | assumption | apply formed_ite | apply formed_State_modPort | split

theorem formed_nodeMissing {p : Nat} {s : State} (hs : Formed s) : Formed (nodeMissing p s) := by
  unfold nodeMissing
  with_reducible repeat' first | intro _ | assumption | apply formed_ite | apply formed_State_modXchg | apply formed_State_incSat | split

theorem formed_acceptReply {p k pf pn : Nat} {h : HeardReply} {pm : Nat} {s : State} (hs : Formed s) : Formed (acceptReply p k pf pn h pm s) := by
  unfold acceptReply
  with_reducible repeat' first | intro _ | assumption | apply formed_ite | apply formed_State_incSat | apply formed_raiseCheck | apply formed_unknownStranger | apply formed_State_modPort

theorem formed_matchReply {p k : Nat} {x : Exchange} {cls : RxClass} {h : HeardReply} {pm : Nat} {s : State} (hs : Formed s) : Formed (matchReply p k x cls h pm s) := by
  unfold matchReply
  with_reducible repeat' first | intro _ | assumption | apply formed_readNode | apply formed_goodFrom | apply formed_ite | apply formed_nodeEvent | apply formed_State_modPort | apply formed_raiseCheck | apply formed_State_incSat | apply formed_unknownStranger | apply formed_acceptReply | apply formed_State_modXchg | apply formed_authStranger | split

theorem formed_outOfWindow {p : Nat} {cls : RxClass} {n : Nat} {s : State} (hs : Formed s) : Formed (outOfWindow p cls n s) := by
  unfold outOfWindow
  with_reducible repeat' first | intro _ | assumption | apply formed_ite | apply formed_fenceReturn | apply formed_State_incSat

theorem formed_burstInExchange {p : Nat} {x : Exchange} {cls : RxClass} {b : Heard} {pm : Nat} {s : State} (hs : Formed s) : Formed (burstInExchange p x cls b pm s) := by
  unfold burstInExchange
  with_reducible repeat' first | intro _ | assumption | apply formed_ite | apply formed_State_modXchg | apply formed_authStranger | apply formed_readNode | apply formed_goodFrom | apply formed_matchReply | apply formed_outOfWindow | split

theorem formed_takeBurst_p {p : Nat} {q : Port} {b : Heard} {s : State} (hs : Formed s) : Formed (takeBurst p q b s).2 := by
  unfold takeBurst; (try dsimp only)
  with_reducible repeat' first | intro _ | assumption | apply formed_ite | apply formed_proceed | apply formed_burstInExchange | apply formed_State_mark | apply formed_energyStranger | apply formed_State_modRound | apply formed_countClass | apply formed_State_modPort | apply formed_stranger | apply formed_outOfWindow | split
theorem formed_takeBurst_t {p : Nat} {q : Port} {b : Heard} {s : State} {r0 : RxClass} {t : State} (he : takeBurst p q b s = (r0, t)) (hs : Formed s) : Formed t := by
  have k : Formed (takeBurst p q b s).2 := formed_takeBurst_p (hs := hs)
  rw [he] at k; exact k

theorem formed_classPending_p {p : Nat} {s : State} (hs : Formed s) : Formed (classPending p s).2 := by
  unfold classPending; (try dsimp only)
  with_reducible repeat' first | intro _ | assumption | apply formed_State_modPort | apply formed_takeBurst_p | apply formed_State_put | split
theorem formed_classPending_t {p : Nat} {s : State} {r0 : Bool} {t : State} (he : classPending p s = (r0, t)) (hs : Formed s) : Formed t := by
  have k : Formed (classPending p s).2 := formed_classPending_p (hs := hs)
  rw [he] at k; exact k

theorem formed_classBursts {f p : Nat} {s : State} (hs : Formed s) : Formed (classBursts f p s) := by
  induction f generalizing s with
  | zero => exact hs
  | succ f ih =>
    unfold classBursts
    rcases h1 : classPending p s with ⟨b, s1⟩
    have k := formed_classPending_t h1 hs
    dsimp only
    split
    · exact ih k
    · exact k

theorem formed_burstReceived {p : Nat} {b : Burst} {s : State} (hs : Formed s) : Formed (burstReceived p b s) := by
  unfold burstReceived
  with_reducible repeat' first | intro _ | assumption | apply formed_ite | apply formed_classBursts | apply formed_State_modPort | apply formed_State_mark | apply formed_State_put | split

theorem formed_quietEnds {p : Nat} {s : State} (hs : Formed s) : Formed (quietEnds p s) := by
  unfold quietEnds
  with_reducible repeat' first | intro _ | assumption | apply formed_classBursts | apply formed_State_modPort | split

theorem formed_lineQuiet {p : Nat} {s0 : State} (hs0 : Formed s0) : Formed (lineQuiet p s0) := by
  unfold lineQuiet
  with_reducible repeat' first | intro _ | assumption | apply formed_State_put | apply formed_State_mark | apply formed_State_modPort | apply formed_quietEnds | apply formed_takeBurst_p | split

theorem formed_reportOf_p {h : HeardReply} {s : State} (hs : Formed s) : Formed (reportOf h s).2 := by
  unfold reportOf; (try dsimp only)
  with_reducible repeat' first | intro _ | assumption | apply formed_ite | apply formed_State_free_p
theorem formed_reportOf_t {h : HeardReply} {s : State} {r0 : (Nat × Nat × Nat)} {t : State} (he : reportOf h s = (r0, t)) (hs : Formed s) : Formed t := by
  have k : Formed (reportOf h s).2 := formed_reportOf_p (hs := hs)
  rw [he] at k; exact k

theorem formed_takeReport {p : Nat} {h : HeardReply} {kind point v : Nat} {s0 : State} (hs0 : Formed s0) : Formed (takeReport p h kind point v s0) := by
  unfold takeReport
  with_reducible repeat' first | intro _ | assumption | apply formed_ite | apply formed_readNode | apply formed_unknownStranger | apply formed_State_modPort

theorem formed_letterboxEnd {p l pre : Nat} {o : Outcome} {s : State} (hs : Formed s) : Formed (letterboxEnd p l pre o s) := by
  unfold letterboxEnd
  with_reducible repeat' first | intro _ | assumption | apply formed_State_modPort | apply formed_State_modRound | apply formed_takeReport | apply formed_reportOf_p | apply formed_ite | apply formed_raiseCheck | apply formed_readNode | split

theorem formed_cutReports {p : Nat} {s : State} (hs : Formed s) : Formed (cutReports p s) := by
  unfold cutReports
  with_reducible repeat' first | intro _ | assumption | apply formed_State_modPort

theorem formed_ackEnd {p l pre n kind point v : Nat} {good : Bool} {s : State} (hs : Formed s) : Formed (ackEnd p l pre n kind point v good s) := by
  unfold ackEnd
  with_reducible repeat' first | intro _ | assumption | apply formed_ite | apply formed_State_modPort

theorem formed_enrolSingle {p l pre ser : Nat} {s : State} (hs : Formed s) : Formed (enrolSingle p l pre ser s) := by
  unfold enrolSingle
  with_reducible repeat' first | intro _ | assumption | apply formed_scanDir | apply formed_finishRound | apply formed_State_modPort | apply formed_State_mark | apply formed_writeNode | split | dsimp only [id_eq]

theorem formed_searchEnd {p l pre : Nat} {o : Outcome} {s : State} (hs : Formed s) : Formed (searchEnd p l pre o s) := by
  unfold searchEnd
  with_reducible repeat' first | intro _ | assumption | apply formed_State_modRound | apply formed_enrolSingle | apply formed_ite | apply formed_State_modPort | apply formed_impostor | split

theorem formed_enrolEnd {p l pre ser : Nat} {assigned : Bool} {kept : Option (Nat × Nat)} {x : Exchange} {s : State} (hs : Formed s) : Formed (enrolEnd p l pre ser assigned kept x s) := by
  unfold enrolEnd
  with_reducible repeat' first | intro _ | assumption | apply formed_ite | apply formed_State_modPort | apply formed_impostor | apply formed_readNode | apply formed_enrolDone | split

theorem formed_checkEnd {p n : Nat} {x : Exchange} {s : State} (hs : Formed s) : Formed (checkEnd p n x s) := by
  unfold checkEnd
  extract_lets s1 c served r
  have h1 : Formed s1 := formed_readNode hs
  have hv : ∀ t, Formed t → Formed (served t) := fun t h => formed_State_modPort h
  clear_value served c r s1
  repeat' first | with_reducible assumption | with_reducible apply hv | with_reducible apply formed_impostor | with_reducible apply formed_enrolDone | with_reducible apply formed_nodeTxn | with_reducible apply formed_followUp | with_reducible apply formed_nodeEvent | with_reducible apply formed_State_incSat | split | dsimp +zetaDelta only

theorem formed_boxEnd {p : Nat} {x : Exchange} {s : State} (hs : Formed s) : Formed (boxEnd p x s) := by
  unfold boxEnd
  with_reducible repeat' first | intro _ | assumption | apply formed_State_put | apply formed_ite | apply formed_nodeTxn | apply formed_readNode | split

theorem formed_dupWatch {p : Nat} {x : Exchange} {s : State} (hs : Formed s) : Formed (dupWatch p x s) := by
  unfold dupWatch
  with_reducible repeat' first | intro _ | assumption | apply formed_State_modPort | apply formed_ite | apply formed_raiseCheck | apply formed_readNode | split | dsimp only [id_eq]

theorem formed_noteMissing {p : Nat} {x : Exchange} {s : State} (hs : Formed s) : Formed (noteMissing p x s) := by
  unfold noteMissing
  with_reducible repeat' first | intro _ | assumption | apply formed_State_modPort | apply formed_State_modRound

theorem formed_exchangeAfter {p : Nat} {x : Exchange} {cut : Bool} {s : State} (hs : Formed s) : Formed (exchangeAfter p x cut s) := by
  unfold exchangeAfter
  with_reducible repeat' first | intro _ | assumption | apply formed_dupWatch | apply formed_noteMissing | apply formed_letterboxEnd | apply formed_searchEnd | apply formed_ackEnd | apply formed_enrolEnd | apply formed_checkEnd | apply formed_boxEnd | apply formed_walkPinged | apply formed_State_modPort | split

theorem formed_stopPort {p : Nat} {s : State} (hs : Formed s) : Formed (stopPort p s) := by
  unfold stopPort
  with_reducible repeat' first | intro _ | assumption | apply formed_finishRound | apply formed_State_modPort | apply formed_clearStacks | apply formed_cutReports | apply formed_State_put

theorem formed_endExchange {p : Nat} {cut : Bool} {s : State} (hs : Formed s) : Formed (endExchange p cut s) := by
  unfold endExchange
  with_reducible repeat' first | intro _ | assumption | apply formed_State_modPort | apply formed_State_put | apply formed_ite | apply formed_State_incSat | apply formed_energyStranger | apply formed_walkOut | apply formed_stopPort | apply formed_exchangeAfter | apply formed_advance | apply formed_proceed | split

theorem formed_exchangeEnd {p : Nat} {s : State} (hs : Formed s) : Formed (exchangeEnd p s) := by
  unfold exchangeEnd
  with_reducible repeat' first | intro _ | assumption | apply formed_ite | apply formed_endExchange | split

theorem formed_exchangeCutOff {p : Nat} {s : State} (hs : Formed s) : Formed (exchangeCutOff p s) := by
  unfold exchangeCutOff
  with_reducible repeat' first | intro _ | assumption | apply formed_ite | apply formed_endExchange | split

theorem formed_commandWaitEnd {p : Nat} {s : State} (hs : Formed s) : Formed (commandWaitEnd p s) := by
  unfold commandWaitEnd
  with_reducible repeat' first | intro _ | assumption | apply formed_ite | apply formed_endWait | split

theorem formed_abandonExchange {p : Nat} {s : State} (hs : Formed s) : Formed (abandonExchange p s) := by
  unfold abandonExchange
  with_reducible repeat' first | intro _ | assumption | apply formed_State_modPort | apply formed_clearStacks | apply formed_cutReports | apply formed_discardRound | apply formed_discardBuilt | apply formed_State_put | apply formed_ite | split

theorem formed_lineFault {p : Nat} {s : State} (hs : Formed s) : Formed (lineFault p s) := by
  unfold lineFault
  with_reducible repeat' first | intro _ | assumption | apply formed_State_mark | apply formed_abandonExchange | apply formed_pmEvent | apply formed_State_modPort | apply formed_walkPinged | apply formed_finishRound | split

theorem formed_releaseHeld {p : Nat} {s : State} (hs : Formed s) : Formed (releaseHeld p s) := by
  unfold releaseHeld
  with_reducible repeat' first | intro _ | assumption | apply formed_ite | apply formed_walkOut | apply formed_State_modPort | apply formed_State_put

theorem formed_lineFaultCleared {p : Nat} {s : State} (hs : Formed s) : Formed (lineFaultCleared p s) := by
  unfold lineFaultCleared
  with_reducible repeat' first | intro _ | assumption | apply formed_State_modPort | apply formed_State_put | apply formed_walkTo | apply formed_ite | apply formed_releaseHeld | split

theorem formed_autoRestart {p : Nat} {s : State} (hs : Formed s) : Formed (autoRestart p s) := by
  unfold autoRestart
  with_reducible repeat' first | intro _ | assumption | apply formed_ite | apply formed_releaseHeld

theorem formed_portRestart {p : Nat} {s : State} (hs : Formed s) : Formed (portRestart p s) := by
  unfold portRestart
  with_reducible repeat' first | intro _ | assumption | apply formed_ite | apply formed_releaseHeld | apply formed_State_modPort

theorem formed_portEnable {p : Nat} {s : State} (hs : Formed s) : Formed (portEnable p s) := by
  unfold portEnable
  with_reducible repeat' first | intro _ | assumption | apply formed_ite | apply formed_State_mark | apply formed_walkOut

theorem formed_portDisable {p : Nat} {s : State} (hs : Formed s) : Formed (portDisable p s) := by
  unfold portDisable
  with_reducible repeat' first | intro _ | assumption | apply formed_ite | apply formed_State_modPort | apply formed_clearStacks | apply formed_abandonPass | apply formed_discardRound | apply formed_discardBuilt | apply formed_State_put | apply formed_stopPort

theorem formed_fenceWrite {writer p k : Nat} {v : Word} {s : State} (hs : Formed s) : Formed (fenceWrite writer p k v s) := by
  unfold fenceWrite
  with_reducible repeat' first | intro _ | assumption | apply formed_ite | apply formed_refuse | apply formed_pruneChecks | apply formed_setReg

theorem formed_mailboxWrite {p : Nat} {v : Word} {s : State} (hs : Formed s) : Formed (mailboxWrite p v s) := by
  unfold mailboxWrite
  with_reducible repeat' first | intro _ | assumption | apply formed_ite | apply formed_State_mark | apply formed_setReg

theorem formed_noteAbsent {p n : Nat} {s0 : State} (hs0 : Formed s0) : Formed (noteAbsent p n s0) := by
  unfold noteAbsent
  with_reducible repeat' first | intro _ | assumption | apply formed_readNode | apply formed_ite | apply formed_State_modPort | apply formed_nodeEvent | apply formed_dayPush | apply formed_State_mark | split | dsimp only [id_eq]

theorem formed_autoFence {p : Nat} {s0 : State} (hs0 : Formed s0) : Formed (autoFence p s0) := by
  unfold autoFence
  with_reducible repeat' first | intro _ | assumption | apply formed_ite | apply formed_foldl | apply formed_pmEvent | refine formed_setFence_t (by assumption) ?_ | apply formed_scanDir | split

theorem formed_roundBoundary {p : Nat} {s : State} (hs : Formed s) : Formed (roundBoundary p s) := by
  unfold roundBoundary
  with_reducible repeat' first | intro _ | assumption | apply formed_retryNodes | apply formed_endBack | apply formed_ite | apply formed_autoFence | apply formed_foldl | apply formed_noteAbsent | apply formed_State_put | apply formed_State_incWrap | apply formed_advanceAll | apply formed_portSwap | apply formed_settleEdit | apply formed_State_modPass | apply formed_State_modPort | split

theorem formed_trendReading {p : Nat} {s : State} (hs : Formed s) : Formed (trendReading p s) := by
  unfold trendReading
  with_reducible repeat' first | intro _ | assumption | apply formed_ite | apply formed_retryNodes | apply formed_acceptReading | apply formed_State_modPort | split

theorem formed_trendReport {p : Nat} {s : State} (hs : Formed s) : Formed (trendReport p s) := by
  unfold trendReport
  with_reducible repeat' first | intro _ | assumption | apply formed_ite | apply formed_fieldReport | apply formed_State_modPort | split

theorem formed_chkWriter_p {writer : Nat} {s : State} (hs : Formed s) : Formed (chkWriter writer s).2 := by
  unfold chkWriter; (try dsimp only)
  with_reducible repeat' first | intro _ | assumption | apply formed_State_free_p | split
theorem formed_chkWriter_t {writer : Nat} {s : State} {r0 : Nat} {t : State} (he : chkWriter writer s = (r0, t)) (hs : Formed s) : Formed t := by
  have k : Formed (chkWriter writer s).2 := formed_chkWriter_p (hs := hs)
  rw [he] at k; exact k

theorem formed_checkRefused {test writer addr : Nat} {s0 : State} (hs0 : Formed s0) : Formed (checkRefused test writer addr s0) := by
  unfold checkRefused
  with_reducible repeat' first | intro _ | assumption | apply formed_dayPush | apply formed_State_put | apply formed_State_mark | apply formed_chkWriter_p

theorem formed_checked {writer addr : Nat} {after : State} {commit refused : State → State} {s : State} (hafter : Formed after) (hs : Formed s) (hcommit : ∀ x0, Formed x0 → Formed (commit x0)) (hrefused : ∀ x0, Formed x0 → Formed (refused x0)) : Formed (checked writer addr after commit refused s) := by
  unfold checked
  with_reducible repeat' first | intro _ | assumption | apply formed_checkRefused | apply hcommit | apply hrefused | split

theorem formed_checkedWrite {writer addr : Nat} {v : Word} {s : State} (hs : Formed s) : Formed (checkedWrite writer addr v s) := by
  unfold checkedWrite
  with_reducible repeat' first | intro _ | assumption | apply formed_checked | apply formed_setReg | split | dsimp only [id_eq]

theorem formed_swapped {s : State} (hs : Formed s) : Formed (swapped s) := by
  unfold swapped
  with_reducible repeat' first | intro _ | assumption | apply formed_forUpTo | apply formed_State_putB

theorem formed_ttSwap {writer : Nat} {s : State} (hs : Formed s) : Formed (ttSwap writer s) := by
  unfold ttSwap
  with_reducible repeat' first | intro _ | assumption | apply formed_ite | apply formed_State_mark | apply formed_checked | apply formed_swapped | apply formed_startSwap

theorem formed_slotEdit {writer : Nat} {hi : Word} {s : State} (hs : Formed s) : Formed (slotEdit writer hi s) := by
  unfold slotEdit
  with_reducible repeat' first | intro _ | assumption | apply formed_ite | apply formed_refuse | apply formed_State_mark | apply formed_checked | apply formed_setSlot | apply formed_startEdit

theorem formed_startRefused {i c : Nat} {s : State} (hs : Formed s) : Formed (startRefused i c s) := by
  unfold startRefused
  with_reducible repeat' first | intro _ | assumption | apply formed_State_put | apply formed_State_mark

theorem formed_chainRun {i : Nat} {s : State} (hs : Formed s) : Formed (chainRun i s) := by
  unfold chainRun
  with_reducible repeat' first | intro _ | assumption | apply formed_ite | apply formed_State_mark | apply formed_chainBegin

theorem formed_chainStart {writer i : Nat} {s : State} (hs : Formed s) : Formed (chainStart writer i s) := by
  unfold chainStart
  with_reducible repeat' first | intro _ | assumption | apply formed_ite | apply formed_startRefused | apply formed_checked | apply formed_State_mark | apply formed_chainRun | split

theorem formed_applyParts {b : List Byte} {s : State} (hs : Formed s) : Formed (applyParts b s) := by
  unfold applyParts
  repeat' first | intro _ | with_reducible assumption | with_reducible apply formed_State_put | with_reducible apply formed_ite | (simp only [↓formed_mk]; refine And.intro ?_ ?_) | with_reducible apply formed_regs | with_reducible apply formed_mem | with_reducible apply formed_filter_regs | with_reducible apply formed_filter_mem | exact formed_nil | exact formed_nil_mem | (extract_lets +onlyGivenNames a; first | (have ha : Formed a := (by dsimp only [a]; repeat' first | intro _ | with_reducible assumption | with_reducible apply formed_State_put | with_reducible apply formed_ite | (simp only [↓formed_mk]; refine And.intro ?_ ?_) | with_reducible apply formed_regs | with_reducible apply formed_mem | with_reducible apply formed_filter_regs | with_reducible apply formed_filter_mem | exact formed_nil | exact formed_nil_mem | split | dsimp only [id_eq]); clear_value a) | (have hf : State → State := a; clear hf; (try dsimp only [a]); clear a) | clear_value a) | split | dsimp only [id_eq]

theorem formed_applyCascade {b : List Byte} {s : State} (hs : Formed s) : Formed (applyCascade b s) := by
  unfold applyCascade
  repeat' first | intro _ | with_reducible assumption | with_reducible apply formed_setReg | with_reducible apply formed_State_put | with_reducible apply formed_forUpTo | with_reducible apply formed_ite | (simp only [↓formed_mk]; refine And.intro ?_ ?_) | with_reducible apply formed_regs | with_reducible apply formed_mem | with_reducible apply formed_filter_regs | with_reducible apply formed_filter_mem | exact formed_nil | exact formed_nil_mem | (extract_lets +onlyGivenNames a; first | (have ha : Formed a := (by dsimp only [a]; repeat' first | intro _ | with_reducible assumption | with_reducible apply formed_setReg | with_reducible apply formed_State_put | with_reducible apply formed_forUpTo | with_reducible apply formed_ite | (simp only [↓formed_mk]; refine And.intro ?_ ?_) | with_reducible apply formed_regs | with_reducible apply formed_mem | with_reducible apply formed_filter_regs | with_reducible apply formed_filter_mem | exact formed_nil | exact formed_nil_mem | split | dsimp only [id_eq]); clear_value a) | (have hf : State → State := a; clear hf; (try dsimp only [a]); clear a) | clear_value a) | split | dsimp only [id_eq]

theorem formed_applyArb {b : List Byte} {s : State} (hs : Formed s) : Formed (applyArb b s) := by
  unfold applyArb
  with_reducible repeat' first | intro _ | assumption | apply formed_foldl | apply formed_State_put

theorem formed_applyClass {b : List Byte} {s : State} (hs : Formed s) : Formed (applyClass b s) := by
  unfold applyClass
  with_reducible repeat' first | intro _ | assumption | apply formed_forUpTo | apply formed_setReg | apply formed_State_put

theorem formed_applyRoute {b : List Byte} {s : State} (hs : Formed s) : Formed (applyRoute b s) := by
  unfold applyRoute
  repeat' first | intro _ | with_reducible assumption | with_reducible apply formed_ite | (simp only [↓formed_mk]; refine And.intro ?_ ?_) | with_reducible apply formed_regs | with_reducible apply formed_mem | with_reducible apply formed_filter_regs | with_reducible apply formed_filter_mem | exact formed_nil | exact formed_nil_mem | (extract_lets +onlyGivenNames a; first | (have ha : Formed a := (by dsimp only [a]; repeat' first | intro _ | with_reducible assumption | with_reducible apply formed_ite | (simp only [↓formed_mk]; refine And.intro ?_ ?_) | with_reducible apply formed_regs | with_reducible apply formed_mem | with_reducible apply formed_filter_regs | with_reducible apply formed_filter_mem | exact formed_nil | exact formed_nil_mem | split | dsimp only [id_eq]); clear_value a) | (have hf : State → State := a; clear hf; (try dsimp only [a]); clear a) | clear_value a) | split | dsimp only [id_eq]

theorem formed_applyBins {dry : Bool} {b : List Byte} {s : State} (hs : Formed s) : Formed (applyBins dry b s) := by
  unfold applyBins
  with_reducible repeat' first | intro _ | assumption | apply formed_reevaluate | apply formed_foldl | apply formed_ite | apply formed_rebin | apply formed_putBytes | apply formed_heal | apply formed_memWrite

theorem formed_clearSlots {s : State} (hs : Formed s) : Formed (clearSlots s) := by
  unfold clearSlots
  with_reducible repeat' first | intro _ | assumption | apply formed_State_modSeq | apply formed_forUpTo | apply formed_State_put

theorem formed_applyTimetable {boot : Bool} {b : List Byte} {s : State} (hs : Formed s) : Formed (applyTimetable boot b s) := by
  unfold applyTimetable
  with_reducible repeat' first | intro _ | assumption | apply formed_forUpTo | apply formed_trimBuilt | apply formed_gateAnew | apply formed_State_put | apply formed_setSlot | apply formed_ite | apply formed_clearSlots | apply formed_State_modSeq

theorem formed_applyFilter {i : Nat} {b : List Byte} {s : State} (hs : Formed s) : Formed (applyFilter i b s) := by
  unfold applyFilter
  with_reducible repeat' first | intro _ | assumption | apply formed_ite | apply formed_forUpTo | apply formed_setCoef | apply formed_modWrite | apply formed_setReg

theorem formed_applyTimer {u : Nat} {b : List Byte} {s : State} (hs : Formed s) : Formed (applyTimer u b s) := by
  unfold applyTimer
  with_reducible repeat' first | intro _ | assumption | apply formed_takeSafe | apply formed_trimResidue | apply formed_setReg

theorem formed_applyKeys {p : Nat} {b : List Byte} {s : State} (hs : Formed s) : Formed (applyKeys p b s) := by
  unfold applyKeys
  with_reducible repeat' first | intro _ | assumption | apply formed_State_mark | apply formed_State_modPort | apply formed_rebuildRound | apply formed_discardBuilt

theorem formed_applyRetain {b : List Byte} {s : State} (hs : Formed s) : Formed (applyRetain b s) := by
  unfold applyRetain
  repeat' first | intro _ | with_reducible assumption | with_reducible apply formed_State_put | with_reducible apply formed_ite | (simp only [↓formed_mk]; refine And.intro ?_ ?_) | with_reducible apply formed_regs | with_reducible apply formed_mem | with_reducible apply formed_filter_regs | with_reducible apply formed_filter_mem | exact formed_nil | exact formed_nil_mem | (extract_lets +onlyGivenNames a; first | (have ha : Formed a := (by dsimp only [a]; repeat' first | intro _ | with_reducible assumption | with_reducible apply formed_State_put | with_reducible apply formed_ite | (simp only [↓formed_mk]; refine And.intro ?_ ?_) | with_reducible apply formed_regs | with_reducible apply formed_mem | with_reducible apply formed_filter_regs | with_reducible apply formed_filter_mem | exact formed_nil | exact formed_nil_mem | split | dsimp only [id_eq]); clear_value a) | (have hf : State → State := a; clear hf; (try dsimp only [a]); clear a) | clear_value a) | split | dsimp only [id_eq]

theorem formed_applyPace {b : List Byte} {s : State} (hs : Formed s) : Formed (applyPace b s) := by
  unfold applyPace
  with_reducible repeat' first | intro _ | assumption | apply formed_State_put

theorem formed_applyWake {b : List Byte} {s : State} (hs : Formed s) : Formed (applyWake b s) := by
  unfold applyWake
  with_reducible repeat' first | intro _ | assumption | apply formed_forUpTo | apply formed_setReg

theorem formed_applyPins {b : List Byte} {s : State} (hs : Formed s) : Formed (applyPins b s) := by
  unfold applyPins
  repeat' first | intro _ | with_reducible assumption | with_reducible apply formed_setReg | with_reducible apply formed_State_put | with_reducible apply formed_ite | (simp only [↓formed_mk]; refine And.intro ?_ ?_) | with_reducible apply formed_regs | with_reducible apply formed_mem | with_reducible apply formed_filter_regs | with_reducible apply formed_filter_mem | exact formed_nil | exact formed_nil_mem | (extract_lets +onlyGivenNames a; first | (have ha : Formed a := (by dsimp only [a]; repeat' first | intro _ | with_reducible assumption | with_reducible apply formed_setReg | with_reducible apply formed_State_put | with_reducible apply formed_ite | (simp only [↓formed_mk]; refine And.intro ?_ ?_) | with_reducible apply formed_regs | with_reducible apply formed_mem | with_reducible apply formed_filter_regs | with_reducible apply formed_filter_mem | exact formed_nil | exact formed_nil_mem | split | dsimp only [id_eq]); clear_value a) | (have hf : State → State := a; clear hf; (try dsimp only [a]); clear a) | clear_value a) | split | dsimp only [id_eq]

theorem formed_applySection {boot dry : Bool} {x : Section} {s : State} (hs : Formed s) : Formed (applySection boot dry x s) := by
  unfold applySection
  repeat' first | intro _ | with_reducible assumption | with_reducible apply formed_loadProgram | with_reducible apply formed_applyParts | with_reducible apply formed_applyCascade | with_reducible apply formed_applyArb | with_reducible apply formed_applyClass | with_reducible apply formed_applyRoute | with_reducible apply formed_applyBins | with_reducible apply formed_applyTimetable | with_reducible apply formed_applyFilter | with_reducible apply formed_applyTimer | with_reducible apply formed_applyKeys | with_reducible apply formed_applyRetain | with_reducible apply formed_applyPace | with_reducible apply formed_applyWake | with_reducible apply formed_applyPins | with_reducible apply formed_ite | (simp only [↓formed_mk]; refine And.intro ?_ ?_) | with_reducible apply formed_regs | with_reducible apply formed_mem | with_reducible apply formed_filter_regs | with_reducible apply formed_filter_mem | exact formed_nil | exact formed_nil_mem | (extract_lets +onlyGivenNames a; first | (have ha : Formed a := (by dsimp only [a]; repeat' first | intro _ | with_reducible assumption | with_reducible apply formed_loadProgram | with_reducible apply formed_applyParts | with_reducible apply formed_applyCascade | with_reducible apply formed_applyArb | with_reducible apply formed_applyClass | with_reducible apply formed_applyRoute | with_reducible apply formed_applyBins | with_reducible apply formed_applyTimetable | with_reducible apply formed_applyFilter | with_reducible apply formed_applyTimer | with_reducible apply formed_applyKeys | with_reducible apply formed_applyRetain | with_reducible apply formed_applyPace | with_reducible apply formed_applyWake | with_reducible apply formed_applyPins | with_reducible apply formed_ite | (simp only [↓formed_mk]; refine And.intro ?_ ?_) | with_reducible apply formed_regs | with_reducible apply formed_mem | with_reducible apply formed_filter_regs | with_reducible apply formed_filter_mem | exact formed_nil | exact formed_nil_mem | split | dsimp only [id_eq]); clear_value a) | (have hf : State → State := a; clear hf; (try dsimp only [a]); clear a) | clear_value a) | split | dsimp only [id_eq]

theorem formed_applySections {boot dry : Bool} {l : List Section} {s : State} (hs : Formed s) : Formed (applySections boot dry l s) := by
  unfold applySections
  with_reducible repeat' first | intro _ | assumption | apply formed_foldl | apply formed_applySection

theorem formed_dropRegs {f : Nat → Bool} {s : State} (hs : Formed s) : Formed (dropRegs f s) := by
  unfold dropRegs
  repeat' first | intro _ | with_reducible assumption | with_reducible apply formed_ite | (simp only [↓formed_mk]; refine And.intro ?_ ?_) | with_reducible apply formed_regs | with_reducible apply formed_mem | with_reducible apply formed_filter_regs | with_reducible apply formed_filter_mem | exact formed_nil | exact formed_nil_mem | (extract_lets +onlyGivenNames a; first | (have ha : Formed a := (by dsimp only [a]; repeat' first | intro _ | with_reducible assumption | with_reducible apply formed_ite | (simp only [↓formed_mk]; refine And.intro ?_ ?_) | with_reducible apply formed_regs | with_reducible apply formed_mem | with_reducible apply formed_filter_regs | with_reducible apply formed_filter_mem | exact formed_nil | exact formed_nil_mem | split | dsimp only [id_eq]); clear_value a) | (have hf : State → State := a; clear hf; (try dsimp only [a]); clear a) | clear_value a) | split | dsimp only [id_eq]

theorem formed_unconfigure {l : List Section} {s : State} (hs : Formed s) : Formed (unconfigure l s) := by
  unfold unconfigure
  repeat' first | intro _ | with_reducible assumption | with_reducible apply formed_State_put | with_reducible apply formed_State_modChain | with_reducible apply formed_State_modPort | with_reducible apply formed_State_modTimer | with_reducible apply formed_haltRun | with_reducible apply formed_clearSlots | with_reducible apply formed_dropRegs | with_reducible apply formed_forUpTo | with_reducible apply formed_ite | (simp only [↓formed_mk]; refine And.intro ?_ ?_) | with_reducible apply formed_regs | with_reducible apply formed_mem | with_reducible apply formed_filter_regs | with_reducible apply formed_filter_mem | exact formed_nil | exact formed_nil_mem | (extract_lets +onlyGivenNames a; first | (have ha : Formed a := (by dsimp only [a]; repeat' first | intro _ | with_reducible assumption | with_reducible apply formed_State_put | with_reducible apply formed_State_modChain | with_reducible apply formed_State_modPort | with_reducible apply formed_State_modTimer | with_reducible apply formed_haltRun | with_reducible apply formed_clearSlots | with_reducible apply formed_dropRegs | with_reducible apply formed_forUpTo | with_reducible apply formed_ite | (simp only [↓formed_mk]; refine And.intro ?_ ?_) | with_reducible apply formed_regs | with_reducible apply formed_mem | with_reducible apply formed_filter_regs | with_reducible apply formed_filter_mem | exact formed_nil | exact formed_nil_mem | split | dsimp only [id_eq]); clear_value a) | (have hf : State → State := a; clear hf; (try dsimp only [a]); clear a) | clear_value a) | split | dsimp only [id_eq]

theorem formed_bareState {s : State} (hs : Formed s) : Formed (bareState s) := by
  unfold bareState
  repeat' first | intro _ | with_reducible assumption | with_reducible apply formed_State_put | with_reducible apply formed_reevaluate | with_reducible apply formed_ite | (simp only [↓formed_mk]; refine And.intro ?_ ?_) | with_reducible apply formed_regs | with_reducible apply formed_mem | with_reducible apply formed_filter_regs | with_reducible apply formed_filter_mem | exact formed_nil | exact formed_nil_mem | (extract_lets +onlyGivenNames a; first | (have ha : Formed a := (by dsimp only [a]; repeat' first | intro _ | with_reducible assumption | with_reducible apply formed_State_put | with_reducible apply formed_reevaluate | with_reducible apply formed_ite | (simp only [↓formed_mk]; refine And.intro ?_ ?_) | with_reducible apply formed_regs | with_reducible apply formed_mem | with_reducible apply formed_filter_regs | with_reducible apply formed_filter_mem | exact formed_nil | exact formed_nil_mem | split | dsimp only [id_eq]); clear_value a) | (have hf : State → State := a; clear hf; (try dsimp only [a]); clear a) | clear_value a) | split | dsimp only [id_eq]

theorem formed_paceTaken {l : List Section} {s : State} (hs : Formed s) : Formed (paceTaken l s) := by
  unfold paceTaken
  repeat' first | intro _ | with_reducible assumption | with_reducible apply formed_ite | (simp only [↓formed_mk]; refine And.intro ?_ ?_) | with_reducible apply formed_regs | with_reducible apply formed_mem | with_reducible apply formed_filter_regs | with_reducible apply formed_filter_mem | exact formed_nil | exact formed_nil_mem | (extract_lets +onlyGivenNames a; first | (have ha : Formed a := (by dsimp only [a]; repeat' first | intro _ | with_reducible assumption | with_reducible apply formed_ite | (simp only [↓formed_mk]; refine And.intro ?_ ?_) | with_reducible apply formed_regs | with_reducible apply formed_mem | with_reducible apply formed_filter_regs | with_reducible apply formed_filter_mem | exact formed_nil | exact formed_nil_mem | split | dsimp only [id_eq]); clear_value a) | (have hf : State → State := a; clear hf; (try dsimp only [a]); clear a) | clear_value a) | split | dsimp only [id_eq]

theorem formed_candidate {live : Bool} {l : List Section} {s : State} (hs : Formed s) : Formed (candidate live l s) := by
  unfold candidate
  with_reducible repeat' first | intro _ | assumption | apply formed_ite | apply formed_swapped | apply formed_foldl | apply formed_State_mark | apply formed_paceTaken | apply formed_applySections | apply formed_bareState

theorem formed_State_modRmap {s : State} {f : RMap → RMap} (hs : Formed s) : Formed (State.modRmap s f) := by
  unfold State.modRmap
  repeat' first | intro _ | with_reducible assumption | with_reducible apply formed_ite | (simp only [↓formed_mk]; refine And.intro ?_ ?_) | with_reducible apply formed_regs | with_reducible apply formed_mem | with_reducible apply formed_filter_regs | with_reducible apply formed_filter_mem | exact formed_nil | exact formed_nil_mem | (extract_lets +onlyGivenNames a; first | (have ha : Formed a := (by dsimp only [a]; repeat' first | intro _ | with_reducible assumption | with_reducible apply formed_ite | (simp only [↓formed_mk]; refine And.intro ?_ ?_) | with_reducible apply formed_regs | with_reducible apply formed_mem | with_reducible apply formed_filter_regs | with_reducible apply formed_filter_mem | exact formed_nil | exact formed_nil_mem | split | dsimp only [id_eq]); clear_value a) | (have hf : State → State := a; clear hf; (try dsimp only [a]); clear a) | clear_value a) | split | dsimp only [id_eq]

theorem formed_loaderReads {a n : Nat} {s : State} (hs : Formed s) : Formed (loaderReads a n s) := by
  unfold loaderReads
  with_reducible repeat' first | intro _ | assumption | apply formed_readArea

theorem formed_checksRead {e : EnvAt} {v : Verdict} {s : State} (hs : Formed s) : Formed (checksRead e v s) := by
  unfold checksRead
  with_reducible repeat' first | intro _ | assumption | apply formed_loaderReads

theorem formed_rmapCommand {cmd writer : Nat} {s : State} (hs : Formed s) : Formed (rmapCommand cmd writer s) := by
  unfold rmapCommand
  with_reducible repeat' first | intro _ | assumption | apply formed_ite | apply formed_State_mark | apply formed_State_modRmap | apply formed_checkRefused | apply formed_checksRead

theorem formed_startUnits {boot : Bool} {l : List Section} {s : State} (hs : Formed s) : Formed (startUnits boot l s) := by
  unfold startUnits
  with_reducible repeat' first | intro _ | assumption | apply formed_ite | apply formed_ttRunSet | apply formed_foldl | apply formed_coreStart | apply formed_forUpTo | apply formed_beginTraining | apply formed_timerStart | apply formed_startRefused | apply formed_chainRun | split

theorem formed_applyPoint {s : State} (hs : Formed s) : Formed (applyPoint s) := by
  unfold applyPoint
  with_reducible repeat' first | intro _ | assumption | apply formed_ite | apply formed_startSwap | apply formed_startUnits | apply formed_applySections | apply formed_State_modRmap | apply formed_State_incWrap | apply formed_State_put

theorem formed_copyArea {src dst n : Nat} {s : State} (hs : Formed s) : Formed (copyArea src dst n s) := by
  unfold copyArea
  refine ⟨hs.1, ?_⟩
  dsimp only
  have k : ∀ (l : List (Nat × Byte)), (∀ e ∈ l, e.2 ≠ 0#8) → ∀ m, Memory.wf m = true → Memory.wf (l.foldl (fun m e => mapIns (e.1 - src + dst) e.2 m) m) = true := by
    intro l
    induction l with
    | nil => exact fun _ m h => h
    | cons x l ih => exact fun hl m h => ih (fun e he => hl e (List.mem_cons_of_mem _ he)) _ (mapWf_mapIns h (hl x List.mem_cons_self))
  exact k _ (fun e he => ((mapWf_iff _ _).1 hs.2).2 e (List.mem_filter.1 he).1) _ (formed_filter_mem hs.2)

theorem formed_ringFill {s : State} (hs : Formed s) : Formed (ringFill s) := by
  unfold ringFill
  repeat' first | intro _ | with_reducible assumption | with_reducible apply formed_copyArea | with_reducible apply formed_ite | (simp only [↓formed_mk]; refine And.intro ?_ ?_) | with_reducible apply formed_regs | with_reducible apply formed_mem | with_reducible apply formed_filter_regs | with_reducible apply formed_filter_mem | exact formed_nil | exact formed_nil_mem | (extract_lets +onlyGivenNames a; first | (have ha : Formed a := (by dsimp only [a]; repeat' first | intro _ | with_reducible assumption | with_reducible apply formed_copyArea | with_reducible apply formed_ite | (simp only [↓formed_mk]; refine And.intro ?_ ?_) | with_reducible apply formed_regs | with_reducible apply formed_mem | with_reducible apply formed_filter_regs | with_reducible apply formed_filter_mem | exact formed_nil | exact formed_nil_mem | split | dsimp only [id_eq]); clear_value a) | (have hf : State → State := a; clear hf; (try dsimp only [a]); clear a) | clear_value a) | split | dsimp only [id_eq]

theorem formed_startBook {s : State} (hs : Formed s) : Formed (startBook s) := by
  unfold startBook
  with_reducible repeat' first | intro _ | assumption | apply formed_State_put | apply formed_State_mark | apply formed_dayWrite | split

theorem formed_bootImage {deep b : Bool} {s : State} (hs : Formed s) : Formed (bootImage deep b s) := by
  unfold bootImage
  with_reducible repeat' first | intro _ | assumption | apply formed_startUnits | apply formed_ite | apply formed_setIdEntry | apply formed_State_put | apply formed_State_putB | apply formed_startBook | apply formed_ringFill | apply formed_applySections | apply formed_unconfigure

theorem formed_bootUndone {deep b : Bool} {a : Nat} {s : State} (hs : Formed s) : Formed (bootUndone deep b a s) := by
  unfold bootUndone
  repeat' first | intro _ | with_reducible assumption | with_reducible apply formed_rebin | with_reducible apply formed_applySections | with_reducible apply formed_unconfigure | with_reducible apply formed_ite | (simp only [↓formed_mk]; refine And.intro ?_ ?_) | with_reducible apply formed_regs | with_reducible apply formed_mem | with_reducible apply formed_filter_regs | with_reducible apply formed_filter_mem | exact formed_nil | exact formed_nil_mem | (extract_lets +onlyGivenNames a; first | (have ha : Formed a := (by dsimp only [a]; repeat' first | intro _ | with_reducible assumption | with_reducible apply formed_rebin | with_reducible apply formed_applySections | with_reducible apply formed_unconfigure | with_reducible apply formed_ite | (simp only [↓formed_mk]; refine And.intro ?_ ?_) | with_reducible apply formed_regs | with_reducible apply formed_mem | with_reducible apply formed_filter_regs | with_reducible apply formed_filter_mem | exact formed_nil | exact formed_nil_mem | split | dsimp only [id_eq]); clear_value a) | (have hf : State → State := a; clear hf; (try dsimp only [a]); clear a) | clear_value a) | split | dsimp only [id_eq]

theorem formed_applyImage_p {deep b : Bool} {s : State} (hs : Formed s) : Formed (applyImage deep b s).2 := by
  unfold applyImage; (try dsimp only)
  with_reducible repeat' first | intro _ | assumption | apply formed_loaderReads | apply formed_bootUndone | apply formed_bootImage | split
theorem formed_applyImage_t {deep b : Bool} {s : State} {r0 : Bool} {t : State} (he : applyImage deep b s = (r0, t)) (hs : Formed s) : Formed t := by
  have k : Formed (applyImage deep b s).2 := formed_applyImage_p (hs := hs)
  rw [he] at k; exact k

theorem formed_rmapDone {s : State} (hs : Formed s) : Formed (rmapDone s) := by
  unfold rmapDone
  with_reducible repeat' first | intro _ | assumption | apply formed_ite | apply formed_dayPush | apply formed_State_modRmap | apply formed_State_put | apply formed_State_mark | apply formed_applyImage_p | split

theorem formed_turnSlot {b : Bool} {s : State} (hs : Formed s) : Formed (turnSlot b s) := by
  unfold turnSlot
  repeat' first | intro _ | with_reducible assumption | with_reducible apply formed_turnCell | with_reducible apply formed_foldl | with_reducible apply formed_foldl_two | with_reducible apply formed_ite | (simp only [↓formed_mk]; refine And.intro ?_ ?_) | with_reducible apply formed_regs | with_reducible apply formed_mem | with_reducible apply formed_filter_regs | with_reducible apply formed_filter_mem | exact formed_nil | exact formed_nil_mem | (extract_lets +onlyGivenNames a; first | (have ha : Formed a := (by dsimp only [a]; repeat' first | intro _ | with_reducible assumption | with_reducible apply formed_turnCell | with_reducible apply formed_foldl | with_reducible apply formed_foldl_two | with_reducible apply formed_ite | (simp only [↓formed_mk]; refine And.intro ?_ ?_) | with_reducible apply formed_regs | with_reducible apply formed_mem | with_reducible apply formed_filter_regs | with_reducible apply formed_filter_mem | exact formed_nil | exact formed_nil_mem | split | dsimp only [id_eq]); clear_value a) | (have hf : State → State := a; clear hf; (try dsimp only [a]); clear a) | clear_value a) | split | dsimp only [id_eq]

theorem formed_trySlot_p {deep : Bool} {a : Bool × State} {b : Bool} (ha : Formed a.2) : Formed (trySlot deep a b).2 := by
  unfold trySlot; (try dsimp only)
  with_reducible repeat' first | intro _ | assumption | apply formed_ite | apply formed_applyImage_p | apply formed_turnSlot | apply formed_State_put | apply formed_checksRead | split
theorem formed_trySlot_t {deep : Bool} {a : Bool × State} {b r0 : Bool} {t : State} (he : trySlot deep a b = (r0, t)) (ha : Formed a.2) : Formed t := by
  have k : Formed (trySlot deep a b).2 := formed_trySlot_p (ha := ha)
  rw [he] at k; exact k

theorem formed_readVersions {s : State} (hs : Formed s) : Formed (readVersions s) := by
  unfold readVersions
  with_reducible repeat' first | intro _ | assumption | apply formed_loaderReads

theorem formed_loadImage {deep : Bool} {s : State} (hs : Formed s) : Formed (loadImage deep s) := by
  unfold loadImage
  with_reducible repeat' first | intro _ | assumption | apply formed_ite | apply formed_foldl_two | apply formed_trySlot_p | apply formed_readVersions | apply formed_State_mark

theorem formed_windowEnd {count : Nat} {s : State} (hs : Formed s) : Formed (windowEnd count s) := by
  unfold windowEnd
  repeat' first | intro _ | with_reducible assumption | with_reducible apply formed_State_put | with_reducible apply formed_State_mark | with_reducible apply formed_State_putB | with_reducible apply formed_raiseFault | with_reducible apply formed_ite | (simp only [↓formed_mk]; refine And.intro ?_ ?_) | with_reducible apply formed_regs | with_reducible apply formed_mem | with_reducible apply formed_filter_regs | with_reducible apply formed_filter_mem | exact formed_nil | exact formed_nil_mem | (extract_lets +onlyGivenNames a; first | (have ha : Formed a := (by dsimp only [a]; repeat' first | intro _ | with_reducible assumption | with_reducible apply formed_State_put | with_reducible apply formed_State_mark | with_reducible apply formed_State_putB | with_reducible apply formed_raiseFault | with_reducible apply formed_ite | (simp only [↓formed_mk]; refine And.intro ?_ ?_) | with_reducible apply formed_regs | with_reducible apply formed_mem | with_reducible apply formed_filter_regs | with_reducible apply formed_filter_mem | exact formed_nil | exact formed_nil_mem | split | dsimp only [id_eq]); clear_value a) | (have hf : State → State := a; clear hf; (try dsimp only [a]); clear a) | clear_value a) | split | dsimp only [id_eq]

theorem formed_crossed {code : Int} {s : State} (hs : Formed s) : Formed (crossed code s) := by
  unfold crossed
  with_reducible repeat' first | intro _ | assumption | apply formed_ite | apply formed_pmEvent | apply formed_State_mark

theorem formed_temperatureUpdate {t : Int} {s : State} (hs : Formed s) : Formed (temperatureUpdate t s) := by
  unfold temperatureUpdate
  repeat' first | intro _ | with_reducible assumption | with_reducible apply formed_State_put | with_reducible apply formed_State_mark | with_reducible apply formed_raiseFault | with_reducible apply formed_crossed | with_reducible apply formed_ite | (simp only [↓formed_mk]; refine And.intro ?_ ?_) | with_reducible apply formed_regs | with_reducible apply formed_mem | with_reducible apply formed_filter_regs | with_reducible apply formed_filter_mem | exact formed_nil | exact formed_nil_mem | (extract_lets +onlyGivenNames a; first | (have ha : Formed a := (by dsimp only [a]; repeat' first | intro _ | with_reducible assumption | with_reducible apply formed_State_put | with_reducible apply formed_State_mark | with_reducible apply formed_raiseFault | with_reducible apply formed_crossed | with_reducible apply formed_ite | (simp only [↓formed_mk]; refine And.intro ?_ ?_) | with_reducible apply formed_regs | with_reducible apply formed_mem | with_reducible apply formed_filter_regs | with_reducible apply formed_filter_mem | exact formed_nil | exact formed_nil_mem | split | dsimp only [id_eq]); clear_value a) | (have hf : State → State := a; clear hf; (try dsimp only [a]); clear a) | clear_value a) | split | dsimp only [id_eq]

theorem formed_postmarkRead_p {s : State} (hs : Formed s) : Formed (postmarkRead s).2 := by
  unfold postmarkRead; (try dsimp only)
  with_reducible repeat' first | intro _ | assumption | apply formed_setReg
theorem formed_postmarkRead_t {s : State} {r0 : Nat} {t : State} (he : postmarkRead s = (r0, t)) (hs : Formed s) : Formed t := by
  have k : Formed (postmarkRead s).2 := formed_postmarkRead_p (hs := hs)
  rw [he] at k; exact k

theorem formed_decided {u : Nat} {accepted : Bool} {s : State} (hs : Formed s) : Formed (decided u accepted s) := by
  unfold decided
  with_reducible repeat' first | intro _ | assumption | apply formed_ite | apply formed_trendDecided | apply formed_settleStop

theorem formed_letterOffer {s : State} (hs : Formed s) : Formed (letterOffer s) := by
  unfold letterOffer
  with_reducible repeat' first | intro _ | assumption | apply formed_ite | apply formed_decided | apply formed_answer | apply formed_State_modGate | apply formed_pruneLog | apply formed_returnLetter | apply formed_frank | split

end Sys2Proof.Machine
end

