-- ==== Sys2Proof/Laws/FormHost.lean ====
section
/-!
SUPPORT. What keeps both maps of a state in canonical form: power and resets, commits, register accesses, the host port, the two-wire port and recovery.
One lemma for each operation that answers a state, and for each that answers one beside a value a lemma about that state.
-/

namespace Sys2Proof.Machine

theorem formed_State_modPow {s : State} {f : Power → Power} (hs : Formed s) : Formed (State.modPow s f) := by
  unfold State.modPow
  repeat' first | intro _ | with_reducible assumption | with_reducible apply formed_ite | (simp only [↓formed_mk]; refine And.intro ?_ ?_) | with_reducible apply formed_regs | with_reducible apply formed_mem | with_reducible apply formed_filter_regs | with_reducible apply formed_filter_mem | exact formed_nil | exact formed_nil_mem | (extract_lets +onlyGivenNames a; first | (have ha : Formed a := (by dsimp only [a]; repeat' first | intro _ | with_reducible assumption | with_reducible apply formed_ite | (simp only [↓formed_mk]; refine And.intro ?_ ?_) | with_reducible apply formed_regs | with_reducible apply formed_mem | with_reducible apply formed_filter_regs | with_reducible apply formed_filter_mem | exact formed_nil | exact formed_nil_mem | split | dsimp only [id_eq]); clear_value a) | (have hf : State → State := a; clear hf; (try dsimp only [a]); clear a) | clear_value a) | split | dsimp only [id_eq]

theorem formed_noteEntry {cause mode : Nat} {unit : Option Nat} {s : State} (hs : Formed s) : Formed (noteEntry cause mode unit s) := by
  unfold noteEntry
  with_reducible repeat' first | intro _ | assumption | apply formed_dayPush | apply formed_setReg

theorem formed_flushThen {reason : Nat} {what : FlushThen} {finish : State → State} {s : State} (hs : Formed s) (hfinish : ∀ x0, Formed x0 → Formed (finish x0)) : Formed (flushThen reason what finish s) := by
  unfold flushThen
  with_reducible repeat' first | intro _ | assumption | apply formed_ite | apply formed_State_modPow | apply formed_freeze | apply hfinish

theorem formed_requestEntry_p {s : State} (hs : Formed s) : Formed (requestEntry s).2 := by
  unfold requestEntry; (try dsimp only)
  with_reducible repeat' first | intro _ | assumption | apply formed_noteEntry | apply formed_State_incSat | apply formed_freeze | apply formed_State_modPow | apply formed_State_mark | apply formed_forUpTo | apply formed_cancelSpec | apply formed_State_put | split
theorem formed_requestEntry_t {s : State} {r0 : Bool} {t : State} (he : requestEntry s = (r0, t)) (hs : Formed s) : Formed t := by
  have k : Formed (requestEntry s).2 := formed_requestEntry_p (hs := hs)
  rw [he] at k; exact k

theorem formed_unfreeze {s : State} (hs : Formed s) : Formed (unfreeze s) := by
  unfold unfreeze
  with_reducible repeat' first | intro _ | assumption | apply formed_forUpTo | apply formed_ite | apply formed_ringPut | apply formed_State_modPow | apply formed_State_put

theorem formed_resumeUnits {s : State} (hs : Formed s) : Formed (resumeUnits s) := by
  unfold resumeUnits
  with_reducible repeat' first | intro _ | assumption | apply formed_advanceAll | apply formed_forUpTo | apply formed_ite | apply formed_beginTraining | apply formed_chainBegin

theorem formed_entryAbort {unit : Option Nat} {s : State} (hs : Formed s) : Formed (entryAbort unit s) := by
  unfold entryAbort
  with_reducible repeat' first | intro _ | assumption | apply formed_ite | apply formed_wakePostmaster | apply formed_noteEntry | apply formed_State_incSat | apply formed_resumeUnits | apply formed_unfreeze | apply formed_State_put | split

theorem formed_keepWear {old s : State} (hold : Formed old) (hs : Formed s) : Formed (keepWear old s) := by
  unfold keepWear
  with_reducible repeat' first | intro _ | assumption | apply formed_State_put

theorem formed_keepFlushes {old s : State} (hold : Formed old) (hs : Formed s) : Formed (keepFlushes old s) := by
  unfold keepFlushes
  with_reducible repeat' first | intro _ | assumption | apply formed_State_put

theorem formed_keepStraps {old s : State} (hold : Formed old) (hs : Formed s) : Formed (keepStraps old s) := by
  unfold keepStraps
  with_reducible repeat' first | intro _ | assumption | apply formed_State_put | apply formed_setReg

theorem formed_resetTo {k : ResetKind} {s0 : State} (hs0 : Formed s0) : Formed (resetTo k s0) := by
  unfold resetTo
  repeat' first | intro _ | with_reducible assumption | with_reducible apply formed_setReg | with_reducible apply formed_State_put | with_reducible apply formed_recovering | with_reducible apply formed_losePower | with_reducible apply formed_keepWear | with_reducible apply formed_keepFlushes | with_reducible apply formed_keepStraps | with_reducible apply formed_ite | (simp only [↓formed_mk]; refine And.intro ?_ ?_) | with_reducible apply formed_regs | with_reducible apply formed_mem | with_reducible apply formed_filter_regs | with_reducible apply formed_filter_mem | exact formed_nil | exact formed_nil_mem | (extract_lets +onlyGivenNames a; first | (have ha : Formed a := (by dsimp only [a]; repeat' first | intro _ | with_reducible assumption | with_reducible apply formed_setReg | with_reducible apply formed_State_put | with_reducible apply formed_recovering | with_reducible apply formed_losePower | with_reducible apply formed_keepWear | with_reducible apply formed_keepFlushes | with_reducible apply formed_keepStraps | with_reducible apply formed_ite | (simp only [↓formed_mk]; refine And.intro ?_ ?_) | with_reducible apply formed_regs | with_reducible apply formed_mem | with_reducible apply formed_filter_regs | with_reducible apply formed_filter_mem | exact formed_nil | exact formed_nil_mem | split | dsimp only [id_eq]); clear_value a) | (have hf : State → State := a; clear hf; (try dsimp only [a]); clear a) | clear_value a) | split | dsimp only [id_eq]

theorem formed_warmReset {s : State} (hs : Formed s) : Formed (warmReset s) := by
  unfold warmReset
  with_reducible repeat' first | intro _ | assumption | apply formed_State_modPow | apply formed_resetTo

theorem formed_doWarm {pin : Bool} {s : State} (hs : Formed s) : Formed (doWarm pin s) := by
  unfold doWarm
  with_reducible repeat' first | intro _ | assumption | apply formed_warmReset | apply formed_ite | apply formed_State_mark

theorem formed_holdFail {s : State} (hs : Formed s) : Formed (holdFail s) := by
  unfold holdFail
  with_reducible repeat' first | intro _ | assumption | apply formed_ite | apply formed_State_mark | apply formed_warmReset

theorem formed_warmRequest {pin : Bool} {s0 : State} (hs0 : Formed s0) : Formed (warmRequest pin s0) := by
  unfold warmRequest
  with_reducible repeat' first | intro _ | assumption | apply formed_ite | apply formed_State_modPow | apply formed_State_mark | apply formed_doWarm | apply formed_openRecovery | apply formed_trendFlush | apply formed_flushThen | apply formed_State_put | split

theorem formed_resetPin {s : State} (hs : Formed s) : Formed (resetPin s) := by
  unfold resetPin
  with_reducible repeat' first | intro _ | assumption | apply formed_warmRequest

theorem formed_softReset {s : State} (hs : Formed s) : Formed (softReset s) := by
  unfold softReset
  with_reducible repeat' first | intro _ | assumption | apply formed_warmRequest

theorem formed_resetRelease {s : State} (hs : Formed s) : Formed (resetRelease s) := by
  unfold resetRelease
  with_reducible repeat' first | intro _ | assumption | apply formed_ite | apply formed_State_modPow

theorem formed_powerUp {s : State} (hs : Formed s) : Formed (powerUp s) := by
  unfold powerUp
  with_reducible repeat' first | intro _ | assumption | apply formed_ite | apply formed_State_modPow

theorem formed_powerFail {s0 : State} (hs0 : Formed s0) : Formed (powerFail s0) := by
  unfold powerFail
  with_reducible repeat' first | intro _ | assumption | apply formed_ite | apply formed_State_modPow | apply formed_State_mark | apply formed_holdFail | apply formed_openRecovery | apply formed_flushThen | apply formed_State_put | apply formed_forUpTo | apply formed_abandonExchange | apply formed_cancelSpec | apply formed_trendFlush

theorem formed_powerRestored {s : State} (hs : Formed s) : Formed (powerRestored s) := by
  unfold powerRestored
  with_reducible repeat' first | intro _ | assumption | apply formed_ite | apply formed_State_modPow | apply formed_State_mark | apply formed_State_put

theorem formed_tapReset {s : State} (hs : Formed s) : Formed (tapReset s) := by
  unfold tapReset
  repeat' first | intro _ | with_reducible assumption | with_reducible apply formed_ite | (simp only [↓formed_mk]; refine And.intro ?_ ?_) | with_reducible apply formed_regs | with_reducible apply formed_mem | with_reducible apply formed_filter_regs | with_reducible apply formed_filter_mem | exact formed_nil | exact formed_nil_mem | (extract_lets +onlyGivenNames a; first | (have ha : Formed a := (by dsimp only [a]; repeat' first | intro _ | with_reducible assumption | with_reducible apply formed_ite | (simp only [↓formed_mk]; refine And.intro ?_ ?_) | with_reducible apply formed_regs | with_reducible apply formed_mem | with_reducible apply formed_filter_regs | with_reducible apply formed_filter_mem | exact formed_nil | exact formed_nil_mem | split | dsimp only [id_eq]); clear_value a) | (have hf : State → State := a; clear hf; (try dsimp only [a]); clear a) | clear_value a) | split | dsimp only [id_eq]

theorem formed_flushLine {ring : List Byte} {i : Nat} {v : Verify} {s0 : State} (hs0 : Formed s0) : Formed (flushLine ring i v s0) := by
  unfold flushLine
  with_reducible repeat' first | intro _ | assumption | apply formed_ite | apply formed_putBytes | apply formed_heal | apply formed_programAs_p | apply formed_finishMoves | apply formed_reportFailed

theorem formed_flushNoted {ring : List Byte} {s : State} (hs : Formed s) : Formed (flushNoted ring s) := by
  unfold flushNoted
  repeat' first | intro _ | with_reducible assumption | with_reducible apply formed_State_put | with_reducible apply formed_ite | (simp only [↓formed_mk]; refine And.intro ?_ ?_) | with_reducible apply formed_regs | with_reducible apply formed_mem | with_reducible apply formed_filter_regs | with_reducible apply formed_filter_mem | exact formed_nil | exact formed_nil_mem | (extract_lets +onlyGivenNames a; first | (have ha : Formed a := (by dsimp only [a]; repeat' first | intro _ | with_reducible assumption | with_reducible apply formed_State_put | with_reducible apply formed_ite | (simp only [↓formed_mk]; refine And.intro ?_ ?_) | with_reducible apply formed_regs | with_reducible apply formed_mem | with_reducible apply formed_filter_regs | with_reducible apply formed_filter_mem | exact formed_nil | exact formed_nil_mem | split | dsimp only [id_eq]); clear_value a) | (have hf : State → State := a; clear hf; (try dsimp only [a]); clear a) | clear_value a) | split | dsimp only [id_eq]

theorem formed_flushRing {vs : List Verify} {s0 : State} (hs0 : Formed s0) : Formed (flushRing vs s0) := by
  unfold flushRing
  repeat' first | intro _ | with_reducible assumption | (with_reducible refine formed_programRecord_t (by with_reducible assumption) ?_) | (with_reducible refine formed_bytesAs_t (by with_reducible assumption) ?_) | with_reducible apply formed_reportFailed | with_reducible apply formed_programRecord_p | with_reducible apply formed_finishMoves | with_reducible apply formed_bytesAs_p | with_reducible apply formed_flushLine | with_reducible apply formed_flushNoted | with_reducible apply formed_forUpTo | with_reducible apply formed_ite | (simp only [↓formed_mk]; refine And.intro ?_ ?_) | with_reducible apply formed_regs | with_reducible apply formed_mem | with_reducible apply formed_filter_regs | with_reducible apply formed_filter_mem | exact formed_nil | exact formed_nil_mem | (extract_lets +onlyGivenNames a; first | (have ha : Formed a := (by dsimp only [a]; repeat' first | intro _ | with_reducible assumption | (with_reducible refine formed_programRecord_t (by with_reducible assumption) ?_) | (with_reducible refine formed_bytesAs_t (by with_reducible assumption) ?_) | with_reducible apply formed_reportFailed | with_reducible apply formed_programRecord_p | with_reducible apply formed_finishMoves | with_reducible apply formed_bytesAs_p | with_reducible apply formed_flushLine | with_reducible apply formed_flushNoted | with_reducible apply formed_forUpTo | with_reducible apply formed_ite | (simp only [↓formed_mk]; refine And.intro ?_ ?_) | with_reducible apply formed_regs | with_reducible apply formed_mem | with_reducible apply formed_filter_regs | with_reducible apply formed_filter_mem | exact formed_nil | exact formed_nil_mem | split | dsimp only [id_eq]); clear_value a) | (have hf : State → State := a; clear hf; (try dsimp only [a]); clear a) | clear_value a) | split | dsimp only [id_eq]

theorem formed_flushCut {s0 : State} (hs0 : Formed s0) : Formed (flushCut s0) := by
  unfold flushCut
  with_reducible repeat' first | intro _ | assumption | apply formed_forUpTo | apply formed_ite | apply formed_flushLine | apply formed_State_free_p | apply formed_bytesAs_p | apply formed_drainBuffers | split

theorem formed_powerOnReset {s : State} (hs : Formed s) : Formed (powerOnReset s) := by
  unfold powerOnReset
  with_reducible repeat' first | intro _ | assumption | apply formed_ite | apply formed_resetTo | apply formed_State_modPow | apply formed_State_free_p | apply formed_flushCut

theorem formed_comparatorTrip {n : Nat} {s : State} (hs : Formed s) : Formed (comparatorTrip n s) := by
  unfold comparatorTrip
  with_reducible repeat' first | intro _ | assumption | apply formed_ite | apply formed_wakeRecognised | apply formed_pmEvent | apply formed_wakeNoted | apply formed_State_put

theorem formed_comparatorLeft {n : Nat} {s : State} (hs : Formed s) : Formed (comparatorLeft n s) := by
  unfold comparatorLeft
  with_reducible repeat' first | intro _ | assumption | apply formed_ite | apply formed_State_put

theorem formed_dropChecks {p : Nat} {s : State} (hs : Formed s) : Formed (dropChecks p s) := by
  unfold dropChecks
  with_reducible repeat' first | intro _ | assumption | apply formed_State_modPort | apply formed_pruneChecks

theorem formed_noteWrite {a n : Nat} {s0 s : State} (hs0 : Formed s0) (hs : Formed s) : Formed (noteWrite a n s0 s) := by
  unfold noteWrite
  with_reducible repeat' first | intro _ | assumption | apply formed_ite | apply formed_rebin | apply formed_mirrorWrite | apply formed_forUpTo | apply formed_dropChecks

theorem formed_haltCore {c : Nat} {s : State} (hs : Formed s) : Formed (haltCore c s) := by
  unfold haltCore
  with_reducible repeat' first | intro _ | assumption | apply formed_State_modCore | apply formed_State_put | apply formed_cancelSpec

theorem formed_settleCore {c : Nat} {s : State} (hs : Formed s) : Formed (settleCore c s) := by
  unfold settleCore
  with_reducible repeat' first | intro _ | assumption | apply formed_settleStop | apply formed_ite | apply formed_haltCore | split | dsimp only [id_eq]

theorem formed_sealCommitted {c : Nat} {s : State} (hs : Formed s) : Formed (sealCommitted c s) := by
  unfold sealCommitted
  with_reducible repeat' first | intro _ | assumption | apply formed_State_modGate | apply formed_State_incWrap | apply formed_State_mark | apply formed_State_modCore | apply formed_State_modLedg

theorem formed_txnEnded {t : Txn} {how : TxnEnd} {s : State} (hs : Formed s) : Formed (txnEnded t how s) := by
  unfold txnEnded
  with_reducible repeat' first | intro _ | assumption | apply formed_ite | apply formed_setTxnFlag | apply formed_settleCore | apply formed_sealCommitted | apply formed_State_modCore | apply formed_nodeCommitted | apply formed_State_modPort | split

theorem formed_commitPoint {u : Nat} {s : State} (hs : Formed s) : Formed (commitPoint u s) := by
  unfold commitPoint
  with_reducible repeat' first | intro _ | assumption | apply formed_ite | apply formed_txnEnded | apply formed_foldl | apply formed_noteWrite | apply formed_commitLines_p | apply formed_State_modLedg | split

theorem formed_heldReleased {s0 s : State} (hs0 : Formed s0) (hs : Formed s) : Formed (heldReleased s0 s) := by
  unfold heldReleased
  with_reducible repeat' first | intro _ | assumption | apply formed_retryNodes | apply formed_foldl | apply formed_noteWrite | apply formed_ite | apply formed_txnEnded | split

theorem formed_retireRecord {u : Nat} {s : State} (hs : Formed s) : Formed (retireRecord u s) := by
  unfold retireRecord
  with_reducible repeat' first | intro _ | assumption | apply formed_ite | apply formed_heldReleased | apply formed_retireTxn

theorem formed_moveDone {v : Verify} {s : State} (hs : Formed s) : Formed (moveDone v s) := by
  unfold moveDone
  with_reducible repeat' first | intro _ | assumption | apply formed_ite | apply formed_moveStep | apply formed_heldReleased | apply formed_redoHeld

theorem formed_failTxn {t : Txn} {s : State} (hs : Formed s) : Formed (failTxn t s) := by
  unfold failTxn
  with_reducible repeat' first | intro _ | assumption | apply formed_txnEnded | apply formed_dropTxn | split

theorem formed_slotClear {u : Nat} {sec : Bool} {s : State} (hs : Formed s) : Formed (slotClear u sec s) := by
  unfold slotClear
  repeat' first | intro _ | with_reducible assumption | with_reducible apply formed_clearSlot | with_reducible apply formed_ite | (simp only [↓formed_mk]; refine And.intro ?_ ?_) | with_reducible apply formed_regs | with_reducible apply formed_mem | with_reducible apply formed_filter_regs | with_reducible apply formed_filter_mem | exact formed_nil | exact formed_nil_mem | (extract_lets +onlyGivenNames a; first | (have ha : Formed a := (by dsimp only [a]; repeat' first | intro _ | with_reducible assumption | with_reducible apply formed_clearSlot | with_reducible apply formed_ite | (simp only [↓formed_mk]; refine And.intro ?_ ?_) | with_reducible apply formed_regs | with_reducible apply formed_mem | with_reducible apply formed_filter_regs | with_reducible apply formed_filter_mem | exact formed_nil | exact formed_nil_mem | split | dsimp only [id_eq]); clear_value a) | (have hf : State → State := a; clear hf; (try dsimp only [a]); clear a) | clear_value a) | split | dsimp only [id_eq]

theorem formed_unitRestart {u : Nat} {s : State} (hs : Formed s) : Formed (unitRestart u s) := by
  unfold unitRestart
  with_reducible repeat' first | intro _ | assumption | apply formed_ite | apply formed_coreReset | apply formed_State_modChain | apply formed_chainBegin | apply formed_beginTraining | apply formed_advance

theorem formed_unitRelease {u : Nat} {s : State} (hs : Formed s) : Formed (unitRelease u s) := by
  unfold unitRelease
  with_reducible repeat' first | intro _ | assumption | apply formed_ite | apply formed_State_put | apply formed_unitRestart

theorem formed_regRead_p {reader a : Nat} {s : State} (hs : Formed s) : Formed (regRead reader a s).2 := by
  unfold regRead; (try dsimp only)
  with_reducible repeat' first | intro _ | assumption | apply formed_coreMemRead_p | apply formed_captureRead_p | apply formed_lastOutputRead | apply formed_coefRead_p | apply formed_slotRead_p | apply formed_postmarkRead_p | split
theorem formed_regRead_t {reader a : Nat} {s : State} {r0 : Nat} {t : State} (he : regRead reader a s = (r0, t)) (hs : Formed s) : Formed t := by
  have k : Formed (regRead reader a s).2 := formed_regRead_p (hs := hs)
  rw [he] at k; exact k

theorem formed_coreRegWrite {c off old w : Nat} {put : State → State} {s : State} (hs : Formed s) (hput : ∀ x0, Formed x0 → Formed (put x0)) : Formed (coreRegWrite c off old w put s) := by
  unfold coreRegWrite
  with_reducible repeat' first | intro _ | assumption | apply formed_State_put | apply formed_ite | apply formed_coreFresh | apply formed_coreStart | apply formed_coreStop | apply formed_coreMemWrite | apply hput | split

theorem formed_portRegWrite {writer p off a old w : Nat} {put : State → State} {s : State} (hs : Formed s) (hput : ∀ x0, Formed x0 → Formed (put x0)) : Formed (portRegWrite writer p off a old w put s) := by
  unfold portRegWrite
  with_reducible repeat' first | intro _ | assumption | apply formed_ite | apply formed_portEnable | apply formed_State_put | apply formed_portDisable | apply formed_checkedWrite | apply formed_enrolStop | apply formed_portRestart | apply formed_mailboxWrite | apply formed_fenceWrite | apply hput

theorem formed_chainRegWrite {writer i off old w : Nat} {put : State → State} {s : State} (hs : Formed s) (hput : ∀ x0, Formed x0 → Formed (put x0)) : Formed (chainRegWrite writer i off old w put s) := by
  unfold chainRegWrite
  with_reducible repeat' first | intro _ | assumption | apply formed_State_put | apply formed_ite | apply formed_chainStart | apply formed_chainStop | apply formed_srcWrite | apply formed_modWrite | apply formed_coefWrite | apply hput | split

theorem formed_gateRegWrite {writer off a old w : Nat} {put : State → State} {s : State} (hs : Formed s) (hput : ∀ x0, Formed x0 → Formed (put x0)) : Formed (gateRegWrite writer off a old w put s) := by
  unfold gateRegWrite
  with_reducible repeat' first | intro _ | assumption | apply formed_ite | apply formed_checkedWrite | apply formed_bellEnable | apply formed_outboxPop | apply hput

theorem formed_seqRegWrite {writer off old w : Nat} {put : State → State} {s : State} (hs : Formed s) (hput : ∀ x0, Formed x0 → Formed (put x0)) : Formed (seqRegWrite writer off old w put s) := by
  unfold seqRegWrite
  with_reducible repeat' first | intro _ | assumption | apply formed_State_put | apply formed_ite | apply formed_forUpTo | apply formed_trimBuilt | apply formed_ttRunSet | apply formed_ttRunClear | apply formed_ttSwap | apply formed_ttCopy | apply formed_gateWrite | apply formed_slotWrite | apply formed_pickSlot | apply formed_slotEdit | apply hput | split

theorem formed_txnCmd {u cmd : Nat} {s : State} (hs : Formed s) : Formed (txnCmd u cmd s) := by
  unfold txnCmd
  with_reducible repeat' first | intro _ | assumption | apply formed_ite | apply formed_txnOpen | apply formed_txnCommit | apply formed_txnAbort

theorem formed_timerRegWrite {u off old w : Nat} {put : State → State} {s : State} (hs : Formed s) (hput : ∀ x0, Formed x0 → Formed (put x0)) : Formed (timerRegWrite u off old w put s) := by
  unfold timerRegWrite
  with_reducible repeat' first | intro _ | assumption | apply formed_trimResidue | apply formed_State_put | apply formed_ite | apply formed_timerStart | apply formed_timerStop | apply formed_preloadWrite | apply formed_takeSafe | apply formed_timerCmd | apply hput | split

theorem formed_reenrol {s : State} (hs : Formed s) : Formed (reenrol s) := by
  unfold reenrol
  with_reducible repeat' first | intro _ | assumption | apply formed_ite | apply formed_sendHello

theorem formed_linkRegWrite {n off old w : Nat} {put : State → State} {s : State} (hs : Formed s) (hput : ∀ x0, Formed x0 → Formed (put x0)) : Formed (linkRegWrite n off old w put s) := by
  unfold linkRegWrite
  with_reducible repeat' first | intro _ | assumption | apply formed_ite | apply formed_linkDownWrite | apply formed_reenrol | apply formed_resync | apply hput

theorem formed_sysRegWrite {writer off a w : Nat} {put : State → State} {s : State} (hs : Formed s) (hput : ∀ x0, Formed x0 → Formed (put x0)) : Formed (sysRegWrite writer off a w put s) := by
  unfold sysRegWrite
  with_reducible repeat' first | intro _ | assumption | apply formed_ite | apply formed_rmapCommand | apply formed_softReset | apply formed_forUpTo | apply formed_unitRelease | apply formed_checkedWrite | apply formed_slotClear | apply hput

theorem formed_trendStatWrite {w : Nat} {put : State → State} {s : State} (hs : Formed s) (hput : ∀ x0, Formed x0 → Formed (put x0)) : Formed (trendStatWrite w put s) := by
  unfold trendStatWrite
  with_reducible repeat' first | intro _ | assumption | apply formed_ite | apply formed_State_put | apply hput

theorem formed_regAct {writer a old w : Nat} {put : State → State} {s : State} (hs : Formed s) (hput : ∀ x0, Formed x0 → Formed (put x0)) : Formed (regAct writer a old w put s) := by
  unfold regAct
  with_reducible repeat' first | intro _ | assumption | apply formed_ite | apply formed_sysRegWrite | apply formed_coreRegWrite | apply formed_portRegWrite | apply formed_chainRegWrite | apply formed_linkRegWrite | apply formed_gateRegWrite | apply formed_trendStatWrite | apply formed_seqRegWrite | apply formed_txnCmd | apply formed_timerRegWrite | apply hput

theorem formed_raWhileBusy {b w : Nat} {s : State} (hs : Formed s) : Formed (raWhileBusy b w s) := by
  unfold raWhileBusy
  with_reducible repeat' first | intro _ | assumption | apply formed_ite | apply formed_setReg

theorem formed_regWriteBase {writer a : Nat} {w : Word} {s : State} (hs : Formed s) : Formed (regWriteBase writer a w s) := by
  unfold regWriteBase
  with_reducible repeat' first | intro _ | assumption | apply formed_ite | apply formed_refuse | apply formed_raWhileBusy | apply formed_regAct | apply formed_setReg | split | dsimp only [id_eq]

theorem formed_hostBytes_p {u a : Nat} {b : List Byte} {s : State} (hs : Formed s) : Formed (hostBytes u a b s).2 := by
  unfold hostBytes; (try dsimp only)
  with_reducible repeat' first | intro _ | assumption | apply formed_refuse | apply formed_memWrite | apply formed_State_mark | apply formed_noteWrite | split
theorem formed_hostBytes_t {u a : Nat} {b : List Byte} {s : State} {r0 : Nat} {t : State} (he : hostBytes u a b s = (r0, t)) (hs : Formed s) : Formed t := by
  have k : Formed (hostBytes u a b s).2 := formed_hostBytes_p (hs := hs)
  rw [he] at k; exact k

theorem formed_hostWord_p {wr : Nat → Nat → Word → State → State} {u a : Nat} {w : Word} {s : State} (hs : Formed s) (hwr : ∀ x0 x1 x2 x3, Formed x3 → Formed (wr x0 x1 x2 x3)) : Formed (hostWord wr u a w s).2 := by
  unfold hostWord; (try dsimp only)
  with_reducible repeat' first | intro _ | assumption | apply hwr
theorem formed_hostWord_t {wr : Nat → Nat → Word → State → State} {u a : Nat} {w : Word} {s : State} {r0 : Nat} {t : State} (he : hostWord wr u a w s = (r0, t)) (hs : Formed s) (hwr : ∀ x0 x1 x2 x3, Formed x3 → Formed (wr x0 x1 x2 x3)) : Formed t := by
  have k : Formed (hostWord wr u a w s).2 := formed_hostWord_p (hs := hs) (hwr := hwr)
  rw [he] at k; exact k

theorem formed_portBytes {u a : Nat} {b : List Byte} {s : State} (hs : Formed s) : Formed (portBytes u a b s) := by
  unfold portBytes
  with_reducible repeat' first | intro _ | assumption | apply formed_ite | apply formed_State_mark | apply formed_hostBytes_p

theorem formed_portWord {wr : Nat → Nat → Word → State → State} {u a : Nat} {w : Word} {s : State} (hs : Formed s) (hwr : ∀ x0 x1 x2 x3, Formed x3 → Formed (wr x0 x1 x2 x3)) : Formed (portWord wr u a w s) := by
  unfold portWord
  with_reducible repeat' first | intro _ | assumption | apply formed_ite | apply formed_State_mark | apply hwr

theorem formed_busWrite {u a : Nat} {b : List Byte} {s : State} (hs : Formed s) : Formed (busWrite u a b s) := by
  unfold busWrite
  with_reducible repeat' first | intro _ | assumption | apply formed_ite | apply formed_portBytes | apply formed_hostBytes_p | apply formed_State_mark | apply formed_memWrite

theorem formed_hostReadByte_p {u a : Nat} {s : State} (hs : Formed s) : Formed (hostReadByte u a s).2 := by
  unfold hostReadByte; (try dsimp only)
  with_reducible repeat' first | intro _ | assumption | apply formed_State_free_p | split
theorem formed_hostReadByte_t {u a : Nat} {s : State} {r0 : Byte} {t : State} (he : hostReadByte u a s = (r0, t)) (hs : Formed s) : Formed t := by
  have k : Formed (hostReadByte u a s).2 := formed_hostReadByte_p (hs := hs)
  rw [he] at k; exact k

theorem formed_hostReadBytes_t {u n a : Nat} {s t : State} {r : List Byte} (e : hostReadBytes u n a s = (r, t)) (hs : Formed s) : Formed t := by
  induction n generalizing a s r with
  | zero => cases e; exact hs
  | succ n ih =>
    unfold hostReadBytes at e
    rcases h1 : hostReadByte u a s with ⟨b, s1⟩
    rw [h1] at e; dsimp only at e
    rcases h2 : hostReadBytes u n (a + 1) s1 with ⟨bs, s2⟩
    rw [h2] at e; cases e
    exact ih h2 (formed_hostReadByte_t h1 hs)
theorem formed_hostReadBytes_p {u n a : Nat} {s : State} (hs : Formed s) : Formed (hostReadBytes u n a s).2 := formed_hostReadBytes_t (r := (hostReadBytes u n a s).1) rfl hs

theorem formed_hostRead_p {u n a : Nat} {s : State} (hs : Formed s) : Formed (hostRead u n a s).2 := by
  unfold hostRead; (try dsimp only)
  with_reducible repeat' first | intro _ | assumption | apply formed_hostReadBytes_p | apply formed_ite | apply formed_readSpan
theorem formed_hostRead_t {u n a : Nat} {s : State} {r0 : List Byte} {t : State} (he : hostRead u n a s = (r0, t)) (hs : Formed s) : Formed t := by
  have k : Formed (hostRead u n a s).2 := formed_hostRead_p (hs := hs)
  rw [he] at k; exact k

theorem formed_hostReadWord_p {u a : Nat} {s : State} (hs : Formed s) : Formed (hostReadWord u a s).2 := by
  unfold hostReadWord; (try dsimp only)
  with_reducible repeat' first | intro _ | assumption | apply formed_hostRead_p | apply formed_regRead_p | split
theorem formed_hostReadWord_t {u a : Nat} {s : State} {r0 : Nat} {t : State} (he : hostReadWord u a s = (r0, t)) (hs : Formed s) : Formed t := by
  have k : Formed (hostReadWord u a s).2 := formed_hostReadWord_p (hs := hs)
  rw [he] at k; exact k

theorem formed_pieceDone {u : Nat} {ahead : Bool} {p : BusPiece} {s : State} (hs : Formed s) : Formed (pieceDone u ahead p s) := by
  unfold pieceDone
  with_reducible repeat' first | intro _ | assumption | apply formed_ite | apply formed_readSpan | apply formed_busWrite | split

theorem formed_markSlow {u : Nat} {s : State} (hs : Formed s) : Formed (markSlow u s) := by
  unfold markSlow
  with_reducible repeat' first | intro _ | assumption | apply formed_State_incSat | apply formed_State_mark

theorem formed_noteWindowWait {g : Grant} {reqs : List BusReq} {s : State} (hs : Formed s) : Formed (noteWindowWait g reqs s) := by
  unfold noteWindowWait
  with_reducible repeat' first | intro _ | assumption | apply formed_ite | apply formed_markSlow

theorem formed_beginGrant {b : Nat} {g : Grant} {a : Arb} {s : State} (hs : Formed s) : Formed (beginGrant b g a s) := by
  unfold beginGrant
  with_reducible repeat' first | intro _ | assumption | apply formed_foldl | apply formed_pieceDone | apply formed_ite | apply formed_State_modArb | apply formed_noteWindowWait | apply formed_State_incWrap

theorem formed_expelMasked {b : Nat} {s : State} (hs : Formed s) : Formed (expelMasked b s) := by
  unfold expelMasked
  with_reducible repeat' first | intro _ | assumption | apply formed_foldl | apply formed_coreTrap | apply formed_State_modArb | split

theorem formed_nextGrant {b : Nat} {s : State} (hs : Formed s) : Formed (nextGrant b s) := by
  unfold nextGrant
  with_reducible repeat' first | intro _ | assumption | apply formed_State_modArb | split | dsimp only [id_eq]

theorem formed_arbPhase {b : Nat} {s : State} (hs : Formed s) : Formed (arbPhase b s) := by
  unfold arbPhase
  with_reducible repeat' first | intro _ | assumption | apply formed_nextGrant | apply formed_expelMasked | apply formed_State_modArb | apply formed_beginGrant | split | dsimp only [id_eq]

theorem formed_serveBus_t {u b f w : Nat} {ahead : Bool} {s t : State} {r : Nat} (e : serveBus u ahead b f w s = (r, t)) (hs : Formed s) : Formed t := by
  induction f generalizing w s with
  | zero => cases e; exact hs
  | succ f ih =>
    unfold serveBus at e
    split at e
    · cases e; exact hs
    · exact ih e (formed_arbPhase hs)
theorem formed_serveBus_p {u b f w : Nat} {ahead : Bool} {s : State} (hs : Formed s) : Formed (serveBus u ahead b f w s).2 := formed_serveBus_t (r := (serveBus u ahead b f w s).1) rfl hs

theorem formed_windowAccess {c : Nat} {ahead : Bool} {h : Nat} {data : Option (List Byte)} {s : State} (hs : Formed s) : Formed (windowAccess c ahead h data s) := by
  unfold windowAccess
  with_reducible repeat' first | intro _ | assumption | apply formed_ite | apply formed_markSlow | apply formed_serveBus_p | apply formed_raiseReq

theorem formed_patrolScrub {s : State} (hs : Formed s) : Formed (patrolScrub s) := by
  unfold patrolScrub
  with_reducible repeat' first | intro _ | assumption | apply formed_ite | apply formed_State_modLedg | apply formed_forUpTo | apply formed_raiseReq

theorem formed_raWrites_t {u a : Nat} {l : List Word} {s t : State} {x r : Nat} (e : raWrites u a l (x, s) = (r, t)) (hs : Formed s) : Formed t := by
  induction l generalizing a s x with
  | nil => cases e; exact hs
  | cons w l ih =>
    unfold raWrites at e
    split at e
    next r1 s1 heq =>
      split at heq
      · exact ih e (formed_hostWord_t heq hs (fun _ _ _ _ h => formed_regWriteBase h))
      · exact ih e (formed_hostBytes_t heq hs)
theorem formed_raWrites_p {u a : Nat} {l : List Word} {x : Nat} {s : State} (hs : Formed s) : Formed (raWrites u a l (x, s)).2 := formed_raWrites_t (r := (raWrites u a l (x, s)).1) rfl hs

theorem formed_raReads_t {u n a : Nat} {s t : State} {r : List Nat} (e : raReads u n a s = (r, t)) (hs : Formed s) : Formed t := by
  induction n generalizing a s r with
  | zero => cases e; exact hs
  | succ n ih =>
    unfold raReads at e
    rcases h1 : hostReadWord u a s with ⟨b, s1⟩
    rw [h1] at e; dsimp only at e
    rcases h2 : raReads u n (a + 4) s1 with ⟨bs, s2⟩
    rw [h2] at e; cases e
    exact ih h2 (formed_hostReadWord_t h1 hs)
theorem formed_raReads_p {u n a : Nat} {s : State} (hs : Formed s) : Formed (raReads u n a s).2 := formed_raReads_t (r := (raReads u n a s).1) rfl hs

theorem formed_raAccess_p {u op words addr : Nat} {data : List Word} {s : State} (hs : Formed s) : Formed (raAccess u op words addr data s).2.2 := by
  unfold raAccess; (try dsimp only)
  with_reducible repeat' first | intro _ | assumption | apply formed_raWrites_p | apply formed_raReads_p | split
theorem formed_raAccess_t {u op words addr : Nat} {data : List Word} {s : State} {r0 : Nat} {r1 : List Nat} {t : State} (he : raAccess u op words addr data s = (r0, r1, t)) (hs : Formed s) : Formed t := by
  have k : Formed (raAccess u op words addr data s).2.2 := formed_raAccess_p (hs := hs)
  rw [he] at k; exact k

theorem formed_raDone {c result : Nat} {data : List Nat} {s : State} (hs : Formed s) : Formed (raDone c result data s) := by
  unfold raDone
  with_reducible repeat' first | intro _ | assumption | apply formed_raFinish | apply formed_forUpTo | apply formed_setReg

theorem formed_raRequest {c u w : Nat} {s : State} (hs : Formed s) : Formed (raRequest c u w s) := by
  unfold raRequest
  with_reducible repeat' first | intro _ | assumption | apply formed_State_put | apply formed_State_modEst | apply formed_raDone | apply formed_raAccess_p | apply formed_raFinish | apply formed_ite | apply formed_sendOn | split | dsimp only [id_eq]

theorem formed_regWrite {writer a : Nat} {w : Word} {s : State} (hs : Formed s) : Formed (regWrite writer a w s) := by
  unfold regWrite
  with_reducible repeat' first | intro _ | assumption | apply formed_ite | apply formed_raRequest | apply formed_regWriteBase | split

theorem formed_raServe {n : Nat} {f : List Byte} {s : State} (hs : Formed s) : Formed (raServe n f s) := by
  unfold raServe
  with_reducible repeat' first | intro _ | assumption | apply formed_ite | apply formed_countDrop | apply formed_sendOn | refine formed_raAccess_t (by assumption) ?_ | split | dsimp only [id_eq]

theorem formed_takeRaReq {n : Nat} {f : List Byte} {s : State} (hs : Formed s) : Formed (takeRaReq n f s) := by
  unfold takeRaReq
  with_reducible repeat' first | intro _ | assumption | apply formed_countDrop | apply formed_raServe | apply formed_sendOn | split | dsimp only [id_eq]

theorem formed_takeRaResp {n : Nat} {f : List Byte} {s : State} (hs : Formed s) : Formed (takeRaResp n f s) := by
  unfold takeRaResp
  with_reducible repeat' first | intro _ | assumption | apply formed_sendOn | apply formed_countDrop | apply formed_raDone | split | dsimp only [id_eq]

theorem formed_raTimeout {c : Nat} {s : State} (hs : Formed s) : Formed (raTimeout c s) := by
  unfold raTimeout
  with_reducible repeat' first | intro _ | assumption | apply formed_ite | apply formed_raFinish

theorem formed_State_modHost {s : State} {f : HostPort → HostPort} (hs : Formed s) : Formed (State.modHost s f) := by
  unfold State.modHost
  repeat' first | intro _ | with_reducible assumption | with_reducible apply formed_ite | (simp only [↓formed_mk]; refine And.intro ?_ ?_) | with_reducible apply formed_regs | with_reducible apply formed_mem | with_reducible apply formed_filter_regs | with_reducible apply formed_filter_mem | exact formed_nil | exact formed_nil_mem | (extract_lets +onlyGivenNames a; first | (have ha : Formed a := (by dsimp only [a]; repeat' first | intro _ | with_reducible assumption | with_reducible apply formed_ite | (simp only [↓formed_mk]; refine And.intro ?_ ?_) | with_reducible apply formed_regs | with_reducible apply formed_mem | with_reducible apply formed_filter_regs | with_reducible apply formed_filter_mem | exact formed_nil | exact formed_nil_mem | split | dsimp only [id_eq]); clear_value a) | (have hf : State → State := a; clear hf; (try dsimp only [a]); clear a) | clear_value a) | split | dsimp only [id_eq]

theorem formed_hostError {f : Fd} {addr : Option Nat} {s : State} (hs : Formed s) : Formed (hostError f addr s) := by
  unfold hostError
  with_reducible repeat' first | intro _ | assumption | apply formed_State_modHost | apply formed_State_mark | apply formed_ite | apply formed_State_put | apply formed_State_incSat | split

theorem formed_hcsFall {s : State} (hs : Formed s) : Formed (hcsFall s) := by
  unfold hcsFall
  with_reducible repeat' first | intro _ | assumption | apply formed_ite | apply formed_State_modHost | apply formed_wakeRecognised

theorem formed_hcsRise {s : State} (hs : Formed s) : Formed (hcsRise s) := by
  unfold hcsRise
  with_reducible repeat' first | intro _ | assumption | apply formed_State_modHost | apply formed_hostError | split

theorem formed_hostCommand {one four : Bool} {act : State → State} {s : State} (hs : Formed s) (hact : ∀ x0, Formed x0 → Formed (act x0)) : Formed (hostCommand one four act s) := by
  unfold hostCommand
  with_reducible repeat' first | intro _ | assumption | apply formed_ite | apply formed_State_modHost | apply formed_State_incWrap | apply formed_hostError | apply hact

theorem formed_badCommand {s : State} (hs : Formed s) : Formed (badCommand s) := by
  unfold badCommand
  with_reducible repeat' first | intro _ | assumption | apply formed_hostCommand | split | dsimp only [id_eq]

theorem formed_sendOut {b : List Byte} {s : State} (hs : Formed s) : Formed (sendOut b s) := by
  unfold sendOut
  with_reducible repeat' first | intro _ | assumption | apply formed_State_modHost

theorem formed_sendMore {m : HostMore} {s : State} (hs : Formed s) : Formed (sendMore m s) := by
  unfold sendMore
  with_reducible repeat' first | intro _ | assumption | apply formed_State_modHost

theorem formed_rdsr {s : State} (hs : Formed s) : Formed (rdsr s) := by
  unfold rdsr
  with_reducible repeat' first | intro _ | assumption | apply formed_hostCommand | apply formed_sendMore | apply formed_sendOut

theorem formed_readId {s : State} (hs : Formed s) : Formed (readId s) := by
  unfold readId
  with_reducible repeat' first | intro _ | assumption | apply formed_hostCommand | apply formed_sendMore | apply formed_sendOut

theorem formed_applyOne {s : State} (hs : Formed s) : Formed (applyOne s) := by
  unfold applyOne
  with_reducible repeat' first | intro _ | assumption | apply formed_State_modHost | apply formed_portBytes | apply formed_portWord | apply formed_regWrite | split

theorem formed_settleWip {s : State} (hs : Formed s) : Formed (settleWip s) := by
  unfold settleWip
  with_reducible repeat' first | intro _ | assumption | apply formed_State_putB

theorem formed_postedComplete {n : Nat} {s : State} (hs : Formed s) : Formed (postedComplete n s) := by
  unfold postedComplete
  with_reducible repeat' first | intro _ | assumption | apply formed_ite | apply formed_settleWip | apply formed_iter | apply formed_applyOne

theorem formed_postedAll {s : State} (hs : Formed s) : Formed (postedAll s) := by
  unfold postedAll
  with_reducible repeat' first | intro _ | assumption | apply formed_postedComplete

theorem formed_postWrite {addr : Nat} {data : List Byte} {s : State} (hs : Formed s) : Formed (postWrite addr data s) := by
  unfold postWrite
  with_reducible repeat' first | intro _ | assumption | apply formed_ite | apply formed_hostError | apply formed_settleWip | apply formed_State_modHost | split

theorem formed_onFour {s : State} (hs : Formed s) : Formed (onFour s) := by
  unfold onFour
  with_reducible repeat' first | intro _ | assumption | apply formed_State_modHost

theorem formed_hostWrite {addr : Nat} {data : List Byte} {s : State} (hs : Formed s) : Formed (hostWrite addr data s) := by
  unfold hostWrite
  with_reducible repeat' first | intro _ | assumption | apply formed_hostCommand | apply formed_postWrite

theorem formed_hostWriteQ {addr : Nat} {data : List Byte} {s : State} (hs : Formed s) : Formed (hostWriteQ addr data s) := by
  unfold hostWriteQ
  with_reducible repeat' first | intro _ | assumption | apply formed_hostCommand | apply formed_postWrite | apply formed_onFour

theorem formed_hostStream_p {n a : Nat} {first : Bool} {late : Option Nat} {latch : Nat} {s : State} (hs : Formed s) : Formed (hostStream n a first late latch s).2.2 := by
  induction n generalizing a first late latch s with
  | zero => exact hs
  | succ n ih =>
    unfold hostStream
    dsimp only
    split
    · split
      · exact hs
      · refine ih (formed_hostReadByte_p ?_)
        exact formed_ite (formed_readAs hs) hs
    · refine ih ?_
      split
      · exact formed_regRead_p hs
      · exact hs
theorem formed_hostStream_t {n a : Nat} {first : Bool} {late : Option Nat} {latch : Nat} {s t : State} {r : List Byte} {o : Option Nat}
    (e : hostStream n a first late latch s = (r, o, t)) (hs : Formed s) : Formed t := by
  have k : Formed (hostStream n a first late latch s).2.2 := formed_hostStream_p hs
  rw [e] at k
  exact k

theorem formed_streamOut {addr n : Nat} {late : Option Nat} {s : State} (hs : Formed s) : Formed (streamOut addr n late s) := by
  unfold streamOut
  with_reducible repeat' first | intro _ | assumption | apply formed_State_modHost | apply formed_sendOut | apply formed_hostError | apply formed_hostStream_p | apply formed_postedAll | split

theorem formed_hostReadCmd {addr n : Nat} {late : Option Nat} {s : State} (hs : Formed s) : Formed (hostReadCmd addr n late s) := by
  unfold hostReadCmd
  with_reducible repeat' first | intro _ | assumption | apply formed_hostCommand | apply formed_streamOut

theorem formed_hostReadQ {addr n : Nat} {late : Option Nat} {s : State} (hs : Formed s) : Formed (hostReadQ addr n late s) := by
  unfold hostReadQ
  with_reducible repeat' first | intro _ | assumption | apply formed_hostCommand | apply formed_streamOut | apply formed_onFour

theorem formed_enterQuad {s : State} (hs : Formed s) : Formed (enterQuad s) := by
  unfold enterQuad
  with_reducible repeat' first | intro _ | assumption | apply formed_hostCommand | apply formed_State_mark

theorem formed_exitQuad {s : State} (hs : Formed s) : Formed (exitQuad s) := by
  unfold exitQuad
  with_reducible repeat' first | intro _ | assumption | apply formed_hostCommand | apply formed_State_put

theorem formed_resetEn {s : State} (hs : Formed s) : Formed (resetEn s) := by
  unfold resetEn
  with_reducible repeat' first | intro _ | assumption | apply formed_hostCommand | apply formed_State_modHost

theorem formed_hostReset {s : State} (hs : Formed s) : Formed (hostReset s) := by
  unfold hostReset
  with_reducible repeat' first | intro _ | assumption | apply formed_ite | apply formed_hostCommand | apply formed_setReg | apply formed_postedAll | apply formed_badCommand

theorem formed_hostCut {s : State} (hs : Formed s) : Formed (hostCut s) := by
  unfold hostCut
  with_reducible repeat' first | intro _ | assumption | apply formed_State_modHost | apply formed_hcsRise

theorem formed_State_modTwp {s : State} {f : Twp → Twp} (hs : Formed s) : Formed (State.modTwp s f) := by
  unfold State.modTwp
  repeat' first | intro _ | with_reducible assumption | with_reducible apply formed_ite | (simp only [↓formed_mk]; refine And.intro ?_ ?_) | with_reducible apply formed_regs | with_reducible apply formed_mem | with_reducible apply formed_filter_regs | with_reducible apply formed_filter_mem | exact formed_nil | exact formed_nil_mem | (extract_lets +onlyGivenNames a; first | (have ha : Formed a := (by dsimp only [a]; repeat' first | intro _ | with_reducible assumption | with_reducible apply formed_ite | (simp only [↓formed_mk]; refine And.intro ?_ ?_) | with_reducible apply formed_regs | with_reducible apply formed_mem | with_reducible apply formed_filter_regs | with_reducible apply formed_filter_mem | exact formed_nil | exact formed_nil_mem | split | dsimp only [id_eq]); clear_value a) | (have hf : State → State := a; clear hf; (try dsimp only [a]); clear a) | clear_value a) | split | dsimp only [id_eq]

theorem formed_twpApply {s : State} (hs : Formed s) : Formed (twpApply s) := by
  unfold twpApply
  with_reducible repeat' first | intro _ | assumption | apply formed_portBytes | apply formed_State_modTwp | split

theorem formed_twpLeave {s : State} (hs : Formed s) : Formed (twpLeave s) := by
  unfold twpLeave
  with_reducible repeat' first | intro _ | assumption | apply formed_ite | apply formed_twpApply | split

theorem formed_twpBreak {a : Nat} {s : State} (hs : Formed s) : Formed (twpBreak a s) := by
  unfold twpBreak
  with_reducible repeat' first | intro _ | assumption | apply formed_ite | apply formed_twpApply | split

theorem formed_twpDropWord {s : State} (hs : Formed s) : Formed (twpDropWord s) := by
  unfold twpDropWord
  with_reducible repeat' first | intro _ | assumption | apply formed_ite | apply formed_State_modTwp | apply formed_State_mark

theorem formed_twpWordByte {a : Nat} {b : Byte} {act : Nat → Word → State → State} {s : State} (hs : Formed s) (hact : ∀ x0 x1 x2, Formed x2 → Formed (act x0 x1 x2)) : Formed (twpWordByte a b act s) := by
  unfold twpWordByte
  with_reducible repeat' first | intro _ | assumption | apply formed_ite | apply formed_State_modTwp | apply formed_twpDropWord | apply formed_State_mark | apply hact

theorem formed_windowWord {a : Nat} {w : Word} {s : State} (hs : Formed s) : Formed (windowWord a w s) := by
  unfold windowWord
  with_reducible repeat' first | intro _ | assumption | apply formed_ite | apply formed_portWord | apply formed_regWrite | apply formed_portBytes

theorem formed_pageRefuse {s : State} (hs : Formed s) : Formed (pageRefuse s) := by
  unfold pageRefuse
  with_reducible repeat' first | intro _ | assumption | apply formed_refuse

theorem formed_twpPutAt {p : Nat} {b : Byte} {s : State} (hs : Formed s) : Formed (twpPutAt p b s) := by
  unfold twpPutAt
  with_reducible repeat' first | intro _ | assumption | apply formed_ite | apply formed_pageRefuse | apply formed_State_put | apply formed_twpWordByte | apply formed_regWrite | apply formed_State_modTwp | apply formed_twpBreak | apply formed_windowWord | apply formed_portWord

theorem formed_twpPut {b : Byte} {s : State} (hs : Formed s) : Formed (twpPut b s) := by
  unfold twpPut
  with_reducible repeat' first | intro _ | assumption | apply formed_twpLeave | apply formed_State_modTwp | apply formed_twpPutAt

theorem formed_twpByte {b : Byte} {s : State} (hs : Formed s) : Formed (twpByte b s) := by
  unfold twpByte
  with_reducible repeat' first | intro _ | assumption | apply formed_ite | apply formed_State_modTwp | apply formed_twpPut

theorem formed_setWindow {base page : Nat} {s : State} (hs : Formed s) : Formed (setWindow base page s) := by
  unfold setWindow
  with_reducible repeat' first | intro _ | assumption | apply formed_State_put

theorem formed_heldByte_p {p : (Nat × Nat) × State} {h : HeldByte} (hp : Formed p.2) : Formed (heldByte p h).2 := by
  unfold heldByte; (try dsimp only)
  with_reducible repeat' first | intro _ | assumption | apply formed_twpByte | apply formed_setWindow
theorem formed_heldByte_t {p : (Nat × Nat) × State} {h : HeldByte} {r0 : (Nat × Nat)} {t : State} (he : heldByte p h = (r0, t)) (hp : Formed p.2) : Formed t := by
  have k : Formed (heldByte p h).2 := formed_heldByte_p (hp := hp)
  rw [he] at k; exact k

theorem formed_heldBytes {l : List HeldByte} {s : State} (hs : Formed s) : Formed (heldBytes l s) := by
  unfold heldBytes
  split
  · exact hs
  · exact formed_setWindow (formed_foldl_two _ (fun _ _ hp => formed_heldByte_p hp) (formed_setWindow hs))

theorem formed_segmentEnd {again : Bool} {s : State} (hs : Formed s) : Formed (segmentEnd again s) := by
  unfold segmentEnd
  with_reducible repeat' first | intro _ | assumption | apply formed_twpDropWord | apply formed_twpApply | apply formed_ite | apply formed_State_modTwp | apply formed_heldBytes | apply formed_State_mark

theorem formed_twpAbort {s : State} (hs : Formed s) : Formed (twpAbort s) := by
  unfold twpAbort
  with_reducible repeat' first | intro _ | assumption | apply formed_twpDropWord | apply formed_twpApply | apply formed_State_modTwp | apply formed_ite | apply formed_State_mark

theorem formed_fetchMemory_p {p : Nat} {s : State} (hs : Formed s) : Formed (fetchMemory p s).2 := by
  unfold fetchMemory; (try dsimp only)
  with_reducible repeat' first | intro _ | assumption | apply formed_hostRead_p
theorem formed_fetchMemory_t {p : Nat} {s : State} {r0 : List Byte} {t : State} (he : fetchMemory p s = (r0, t)) (hs : Formed s) : Formed t := by
  have k : Formed (fetchMemory p s).2 := formed_fetchMemory_p (hs := hs)
  rw [he] at k; exact k

theorem formed_outboxPage_p {s : State} (hs : Formed s) : Formed (outboxPage s).2 := by
  unfold outboxPage; (try dsimp only)
  with_reducible repeat' first | intro _ | assumption | apply formed_readSpan | split
theorem formed_outboxPage_t {s : State} {r0 : List Byte} {t : State} (he : outboxPage s = (r0, t)) (hs : Formed s) : Formed t := by
  have k : Formed (outboxPage s).2 := formed_outboxPage_p (hs := hs)
  rw [he] at k; exact k

theorem formed_twpFetch {s : State} (hs : Formed s) : Formed (twpFetch s) := by
  unfold twpFetch
  with_reducible repeat' first | intro _ | assumption | apply formed_ite | apply formed_State_modTwp | apply formed_fetchMemory_p | apply formed_outboxPage_p | apply formed_hostReadWord_p | split

theorem formed_twpRead_p {s : State} (hs : Formed s) : Formed (twpRead s).2 := by
  unfold twpRead; (try dsimp only)
  with_reducible repeat' first | intro _ | assumption | apply formed_ite | apply formed_twpFetch | split
theorem formed_twpRead_t {s : State} {r0 : Byte} {t : State} (he : twpRead s = (r0, t)) (hs : Formed s) : Formed t := by
  have k : Formed (twpRead s).2 := formed_twpRead_p (hs := hs)
  rw [he] at k; exact k

theorem formed_twpAcked {ack : Bool} {s : State} (hs : Formed s) : Formed (twpAcked ack s) := by
  unfold twpAcked
  with_reducible repeat' first | intro _ | assumption | apply formed_ite | apply formed_State_modTwp | apply formed_twpFetch

theorem formed_twpReadByte {ready ack : Bool} {s : State} (hs : Formed s) : Formed (twpReadByte ready ack s) := by
  unfold twpReadByte
  with_reducible repeat' first | intro _ | assumption | apply formed_ite | apply formed_twpAcked | apply formed_State_modTwp | apply formed_State_mark | apply formed_twpRead_p | split

theorem formed_twpWriteByte {b : Byte} {s : State} (hs : Formed s) : Formed (twpWriteByte b s) := by
  unfold twpWriteByte
  with_reducible repeat' first | intro _ | assumption | apply formed_ite | apply formed_State_modTwp | apply formed_twpByte

theorem formed_twpStart {misplaced : Bool} {s : State} (hs : Formed s) : Formed (twpStart misplaced s) := by
  unfold twpStart
  with_reducible repeat' first | intro _ | assumption | apply formed_ite | apply formed_State_modTwp | apply formed_twpAbort | apply formed_State_mark | apply formed_segmentEnd

theorem formed_countXfer {s : State} (hs : Formed s) : Formed (countXfer s) := by
  unfold countXfer
  with_reducible repeat' first | intro _ | assumption | apply formed_ite | apply formed_State_modTwp | apply formed_State_incWrap

theorem formed_twpAddress {b : Byte} {s : State} (hs : Formed s) : Formed (twpAddress b s) := by
  unfold twpAddress
  with_reducible repeat' first | intro _ | assumption | apply formed_ite | apply formed_State_modTwp | apply formed_countXfer | apply formed_wakeRecognised | apply formed_twpFetch

theorem formed_alertResponse {others : List (Byte × Byte)} {s : State} (hs : Formed s) : Formed (alertResponse others s) := by
  unfold alertResponse
  with_reducible repeat' first | intro _ | assumption | apply formed_ite | apply formed_State_incSat | apply formed_State_put | apply formed_State_mark | apply formed_State_modTwp

theorem formed_twpStop {misplaced : Bool} {s : State} (hs : Formed s) : Formed (twpStop misplaced s) := by
  unfold twpStop
  with_reducible repeat' first | intro _ | assumption | apply formed_ite | apply formed_State_modTwp | apply formed_twpAbort | apply formed_State_mark | apply formed_segmentEnd

theorem formed_twpTimeout {s : State} (hs : Formed s) : Formed (twpTimeout s) := by
  unfold twpTimeout
  with_reducible repeat' first | intro _ | assumption | apply formed_ite | apply formed_State_modTwp | apply formed_twpAbort | apply formed_State_mark

theorem formed_checkFault {u code : Nat} {s : State} (hs : Formed s) : Formed (checkFault u code s) := by
  unfold checkFault
  repeat' first | intro _ | with_reducible assumption | with_reducible apply formed_beginReset | with_reducible apply formed_raiseFault | with_reducible apply formed_openRecovery | with_reducible apply formed_ite | (simp only [↓formed_mk]; refine And.intro ?_ ?_) | with_reducible apply formed_regs | with_reducible apply formed_mem | with_reducible apply formed_filter_regs | with_reducible apply formed_filter_mem | exact formed_nil | exact formed_nil_mem | (extract_lets +onlyGivenNames a; first | (have ha : Formed a := (by dsimp only [a]; repeat' first | intro _ | with_reducible assumption | with_reducible apply formed_beginReset | with_reducible apply formed_raiseFault | with_reducible apply formed_openRecovery | with_reducible apply formed_ite | (simp only [↓formed_mk]; refine And.intro ?_ ?_) | with_reducible apply formed_regs | with_reducible apply formed_mem | with_reducible apply formed_filter_regs | with_reducible apply formed_filter_mem | exact formed_nil | exact formed_nil_mem | split | dsimp only [id_eq]); clear_value a) | (have hf : State → State := a; clear hf; (try dsimp only [a]); clear a) | clear_value a) | split | dsimp only [id_eq]

theorem formed_portRecover {p : Nat} {s : State} (hs : Formed s) : Formed (portRecover p s) := by
  unfold portRecover
  with_reducible repeat' first | intro _ | assumption | apply formed_State_modPort | apply formed_abandonExchange | apply formed_stopPort | apply formed_ite | apply formed_walkOut | apply formed_walkPinged | apply formed_finishRound | apply formed_advance | split

theorem formed_chainRecover {i : Nat} {s : State} (hs : Formed s) : Formed (chainRecover i s) := by
  unfold chainRecover
  with_reducible repeat' first | intro _ | assumption | apply formed_ite | apply formed_State_modChain | apply formed_chainBegin | apply formed_chainHalt

theorem formed_linkRecover {n : Nat} {s : State} (hs : Formed s) : Formed (linkRecover n s) := by
  unfold linkRecover
  with_reducible repeat' first | intro _ | assumption | apply formed_ite | apply formed_leaveActive | apply formed_retrain | apply formed_beginTraining

theorem formed_ledgerRecover {s : State} (hs : Formed s) : Formed (ledgerRecover s) := by
  unfold ledgerRecover
  with_reducible repeat' first | intro _ | assumption | apply formed_foldl | apply formed_retireRecord | apply formed_failTxn | apply formed_heldReleased | apply formed_drainBuffers | apply formed_State_modLedg | apply formed_redoHeld

theorem formed_dayRecover {s : State} (hs : Formed s) : Formed (dayRecover s) := by
  unfold dayRecover
  repeat' first | intro _ | with_reducible assumption | with_reducible apply formed_State_mark | with_reducible apply formed_State_incSat | with_reducible apply formed_ite | (simp only [↓formed_mk]; refine And.intro ?_ ?_) | with_reducible apply formed_regs | with_reducible apply formed_mem | with_reducible apply formed_filter_regs | with_reducible apply formed_filter_mem | exact formed_nil | exact formed_nil_mem | (extract_lets +onlyGivenNames a; first | (have ha : Formed a := (by dsimp only [a]; repeat' first | intro _ | with_reducible assumption | with_reducible apply formed_State_mark | with_reducible apply formed_State_incSat | with_reducible apply formed_ite | (simp only [↓formed_mk]; refine And.intro ?_ ?_) | with_reducible apply formed_regs | with_reducible apply formed_mem | with_reducible apply formed_filter_regs | with_reducible apply formed_filter_mem | exact formed_nil | exact formed_nil_mem | split | dsimp only [id_eq]); clear_value a) | (have hf : State → State := a; clear hf; (try dsimp only [a]); clear a) | clear_value a) | split | dsimp only [id_eq]

theorem formed_unitRecover {u : Nat} {s : State} (hs : Formed s) : Formed (unitRecover u s) := by
  unfold unitRecover
  with_reducible repeat' first | intro _ | assumption | apply formed_ite | apply formed_coreReset | apply formed_portRecover | apply formed_chainRecover | apply formed_linkRecover | apply formed_hostCut | apply formed_twpTimeout | apply formed_retryNodes | apply formed_forUpTo | apply formed_cancelBack | apply formed_advanceAll | apply formed_ledgerRecover | apply formed_State_modLedg | apply formed_State_put | apply formed_dayRecover | split

theorem formed_clearChecks {u : Nat} {s : State} (hs : Formed s) : Formed (clearChecks u s) := by
  unfold clearChecks
  with_reducible repeat' first | intro _ | assumption | apply formed_ite | apply formed_clearSlot

theorem formed_unitResetComplete {u : Nat} {s : State} (hs : Formed s) : Formed (unitResetComplete u s) := by
  unfold unitResetComplete
  repeat' first | intro _ | with_reducible assumption | with_reducible apply formed_closeRecovery | with_reducible apply formed_unitRecover | with_reducible apply formed_clearChecks | with_reducible apply formed_ite | (simp only [↓formed_mk]; refine And.intro ?_ ?_) | with_reducible apply formed_regs | with_reducible apply formed_mem | with_reducible apply formed_filter_regs | with_reducible apply formed_filter_mem | exact formed_nil | exact formed_nil_mem | (extract_lets +onlyGivenNames a; first | (have ha : Formed a := (by dsimp only [a]; repeat' first | intro _ | with_reducible assumption | with_reducible apply formed_closeRecovery | with_reducible apply formed_unitRecover | with_reducible apply formed_clearChecks | with_reducible apply formed_ite | (simp only [↓formed_mk]; refine And.intro ?_ ?_) | with_reducible apply formed_regs | with_reducible apply formed_mem | with_reducible apply formed_filter_regs | with_reducible apply formed_filter_mem | exact formed_nil | exact formed_nil_mem | split | dsimp only [id_eq]); clear_value a) | (have hf : State → State := a; clear hf; (try dsimp only [a]); clear a) | clear_value a) | split | dsimp only [id_eq]

theorem formed_dayBookWrite {s : State} (hs : Formed s) : Formed (dayBookWrite s) := by
  unfold dayBookWrite
  with_reducible repeat' first | intro _ | assumption | apply formed_ite | apply formed_dayNext

end Sys2Proof.Machine
end

