-- ==== Sys2Proof/Laws/FormCore.lean ====
section
/-!
SUPPORT. What keeps both maps of a state in canonical form: the cores, the start-up stages and the test port.
One lemma for each operation that answers a state, and for each that answers one beside a value a lemma about that state.
-/

namespace Sys2Proof.Machine

theorem formed_predict_p {i : Nat} {k : Core} {r : List Byte} {s : State} (hs : Formed s) : Formed (predict i k r s).2 := by
  unfold predict; (try dsimp only)
  with_reducible repeat' first | intro _ | assumption | apply formed_State_free_p | split
theorem formed_predict_t {i : Nat} {k : Core} {r : List Byte} {s : State} {r0 : List Byte} {t : State} (he : predict i k r s = (r0, t)) (hs : Formed s) : Formed t := by
  have k : Formed (predict i k r s).2 := formed_predict_p (hs := hs)
  rw [he] at k; exact k

theorem formed_evNext_p {c : Nat} {mayAhead : Bool} {s : State} (hs : Formed s) : Formed (evNext c mayAhead s).2.2 := by
  unfold evNext; (try dsimp only)
  repeat' first | intro _ | with_reducible assumption | (with_reducible refine formed_predict_t (by with_reducible assumption) ?_) | with_reducible apply formed_State_modCore | with_reducible apply formed_predict_p | with_reducible apply formed_ite | (simp only [↓formed_mk]; refine And.intro ?_ ?_) | with_reducible apply formed_regs | with_reducible apply formed_mem | with_reducible apply formed_filter_regs | with_reducible apply formed_filter_mem | exact formed_nil | exact formed_nil_mem | (extract_lets +onlyGivenNames a; first | (have ha : Formed a := (by dsimp only [a]; repeat' first | intro _ | with_reducible assumption | (with_reducible refine formed_predict_t (by with_reducible assumption) ?_) | with_reducible apply formed_State_modCore | with_reducible apply formed_predict_p | with_reducible apply formed_ite | (simp only [↓formed_mk]; refine And.intro ?_ ?_) | with_reducible apply formed_regs | with_reducible apply formed_mem | with_reducible apply formed_filter_regs | with_reducible apply formed_filter_mem | exact formed_nil | exact formed_nil_mem | split | dsimp only [id_eq]); clear_value a) | (have hf : State → State := a; clear hf; (try dsimp only [a]); clear a) | clear_value a) | split | dsimp only [id_eq]
theorem formed_evNext_t {c : Nat} {mayAhead : Bool} {s : State} {r0 : Nat} {r1 : Intake} {t : State} (he : evNext c mayAhead s = (r0, r1, t)) (hs : Formed s) : Formed t := by
  have k : Formed (evNext c mayAhead s).2.2 := formed_evNext_p (hs := hs)
  rw [he] at k; exact k

theorem formed_ioRead_p {c : Nat} {mayAhead : Bool} {o : Nat} {s : State} (hs : Formed s) : Formed (ioRead c mayAhead o s).2.2 := by
  unfold ioRead; (try dsimp only)
  with_reducible repeat' first | intro _ | assumption | apply formed_State_modCore | apply formed_regRead_p | apply formed_evNext_p | split
theorem formed_ioRead_t {c : Nat} {mayAhead : Bool} {o : Nat} {s : State} {r0 : Nat} {r1 : Intake} {t : State} (he : ioRead c mayAhead o s = (r0, r1, t)) (hs : Formed s) : Formed t := by
  have k : Formed (ioRead c mayAhead o s).2.2 := formed_ioRead_p (hs := hs)
  rw [he] at k; exact k

theorem formed_ioRefuse {c o : Nat} {s : State} (hs : Formed s) : Formed (ioRefuse c o s) := by
  unfold ioRefuse
  with_reducible repeat' first | intro _ | assumption | apply formed_refuse

theorem formed_startSeal {c : Nat} {s : State} (hs : Formed s) : Formed (startSeal c s) := by
  unfold startSeal
  extract_lets a0 s1
  have h1 : Formed s1 := formed_ite (formed_of hs rfl rfl) hs
  clear_value s1 a0
  dsimp only
  repeat' first | with_reducible assumption | with_reducible apply formed_State_modCore | with_reducible apply formed_State_modLedg | with_reducible apply formed_dropTxn | with_reducible apply formed_modTxn | with_reducible apply formed_txnOpen | split

theorem formed_coreTxnWrite {c cmd : Nat} {s : State} (hs : Formed s) : Formed (coreTxnWrite c cmd s) := by
  unfold coreTxnWrite
  with_reducible repeat' first | intro _ | assumption | apply formed_txnCmd | apply formed_ite | apply formed_State_modCore | split | dsimp only [id_eq]

theorem formed_coreOffer {c : Nat} {k : Core} {s : State} (hs : Formed s) : Formed (coreOffer c k s) := by
  unfold coreOffer
  with_reducible repeat' first | intro _ | assumption | apply formed_offer | apply formed_State_modCore

theorem formed_ioWrite_t {c o : Nat} {b : Byte} {s t : State} (he : ioWrite c o b s = some t) (hs : Formed s) : Formed t := by
  revert he
  unfold ioWrite
  dsimp only
  split
  · exact formed_opt_some hs
  · repeat' first
      | with_reducible assumption
      | with_reducible refine formed_opt_ite ?_ ?_
      | with_reducible refine formed_opt_some ?_
      | with_reducible exact formed_opt_none
      | with_reducible apply formed_State_modCore
      | with_reducible apply formed_regWrite
      | with_reducible apply formed_ioRefuse
      | with_reducible apply formed_startSeal
      | with_reducible apply formed_coreTxnWrite
      | with_reducible apply formed_coreOffer
      | with_reducible apply formed_ite

theorem formed_coreWrite_t {c a : Nat} {b : Byte} {s t : State} (he : coreWrite c a b s = some t) (hs : Formed s) : Formed t := by
  unfold coreWrite at he
  split at he
  · exact formed_ioWrite_t he hs
  · split at he
    · exact formed_opt_some hs he
    · exact formed_opt_some (formed_ite (formed_windowAccess hs) (formed_State_modCore hs)) he

theorem formed_coreWrites_t {c : Nat} {l : List (Nat × Byte)} {s t : State} (e : coreWrites c l s = some t) (hs : Formed s) : Formed t := by
  induction l generalizing s with
  | nil => cases e; exact hs
  | cons x l ih =>
    obtain ⟨a, b⟩ := x
    unfold coreWrites at e
    obtain ⟨s1, h1, h2⟩ := Option.bind_eq_some_iff.1 e
    exact ih h2 (formed_coreWrite_t h1 hs)

theorem formed_specHold {c : Nat} {s : State} (hs : Formed s) : Formed (specHold c s) := by
  unfold specHold
  with_reducible repeat' first | intro _ | assumption | apply formed_State_put

theorem formed_failCheck {c cause : Nat} {s : State} (hs : Formed s) : Formed (failCheck c cause s) := by
  unfold failCheck
  with_reducible repeat' first | intro _ | assumption | apply formed_ite | apply formed_specHold | apply formed_budgetTrap | apply formed_coreTrap

theorem formed_windowReads {c : Nat} {k : Core} {l : List Nat} {s : State} (hs : Formed s) : Formed (windowReads c k l s) := by
  induction l generalizing s with
  | nil => exact hs
  | cons a l ih =>
    unfold windowReads
    dsimp only
    split
    · exact ih hs
    · split
      · exact formed_windowAccess hs
      · exact ih (formed_windowAccess hs)

theorem formed_readAll_t {c : Nat} {ahead : Bool} {k : Core} {s0 s t : State} {l : List Nat} {r1 : List Byte} {r2 : Intake} (e : readAll c ahead k s0 l s = (r1, r2, t)) (hs : Formed s) : Formed t := by
  induction l generalizing ahead s r1 r2 with
  | nil => cases e; exact hs
  | cons a l ih =>
    unfold readAll at e
    split at e
    · rcases h1 : ioRead c ahead (a - 0xC000) s with ⟨v, i, s1⟩
      rw [h1] at e; dsimp only at e
      rcases h2 : readAll c (ahead && i == .none) k s0 l s1 with ⟨vs, j, s2⟩
      rw [h2] at e; cases e
      exact ih h2 (formed_ioRead_t h1 hs)
    · rcases h2 : readAll c ahead k s0 l s with ⟨vs, j, s2⟩
      rw [h2] at e; cases e
      exact ih h2 hs
theorem formed_readAll_p {c : Nat} {ahead : Bool} {k : Core} {s0 s : State} {l : List Nat} (hs : Formed s) : Formed (readAll c ahead k s0 l s).2.2 := formed_readAll_t (r1 := (readAll c ahead k s0 l s).1) (r2 := (readAll c ahead k s0 l s).2.1) rfl hs

theorem formed_planReads_p {c : Nat} {ahead : Bool} {k : Core} {p : Plan} {s : State} (hs : Formed s) : Formed (planReads c ahead k p s).2.2 := by
  unfold planReads; (try dsimp only)
  with_reducible repeat' first | intro _ | assumption | apply formed_readAll_p | apply formed_windowReads
theorem formed_planReads_t {c : Nat} {ahead : Bool} {k : Core} {p : Plan} {s : State} {r0 : List Byte} {r1 : Intake} {t : State} (he : planReads c ahead k p s = (r0, r1, t)) (hs : Formed s) : Formed t := by
  have k : Formed (planReads c ahead k p s).2.2 := formed_planReads_p (hs := hs)
  rw [he] at k; exact k

theorem formed_perform {c : Nat} {ahead : Bool} {k : Core} {p : Plan} {ser : CoreRegs → Series} {after : State → State} {s : State} (hs : Formed s) (hafter : ∀ x0, Formed x0 → Formed (after x0)) : Formed (perform c ahead k p ser after s) := by
  unfold perform
  with_reducible repeat' first | intro _ | assumption | apply formed_chargeCore | refine formed_planReads_t (by assumption) ?_ | apply formed_State_modCore | apply formed_failCheck | refine formed_coreWrites_t (by assumption) ?_ | apply formed_State_mark | apply hafter | (extract_lets +onlyGivenNames a; first | (have ha : Formed a := (by dsimp only [a]; repeat' first | intro _ | assumption | apply formed_chargeCore | refine formed_planReads_t (by assumption) ?_ | apply formed_State_modCore | apply formed_failCheck | refine formed_coreWrites_t (by assumption) ?_ | apply formed_State_mark | apply hafter | split | dsimp only [id_eq]); clear_value a) | clear_value a) | split | dsimp only [id_eq]

theorem formed_runPlan {c : Nat} {ahead : Bool} {p : Plan} {ser : CoreRegs → Series} {stop : Bool} {after : State → State} {s : State} (hs : Formed s) (hafter : ∀ x0, Formed x0 → Formed (after x0)) : Formed (runPlan c ahead p ser stop after s) := by
  unfold runPlan
  with_reducible repeat' first | intro _ | assumption | apply formed_ite | apply formed_failCheck | apply formed_specHold | apply formed_coreTrap | apply formed_windowReads | apply formed_perform | apply hafter | split

theorem formed_coreWait {c : Nat} {s0 : State} (hs0 : Formed s0) : Formed (coreWait c s0) := by
  unfold coreWait
  repeat' first | intro _ | with_reducible assumption | (with_reducible refine formed_requestEntry_t (by with_reducible assumption) ?_) | with_reducible apply formed_State_put | with_reducible apply formed_State_modCore | with_reducible apply formed_requestEntry_p | with_reducible apply formed_ite | (simp only [↓formed_mk]; refine And.intro ?_ ?_) | with_reducible apply formed_regs | with_reducible apply formed_mem | with_reducible apply formed_filter_regs | with_reducible apply formed_filter_mem | exact formed_nil | exact formed_nil_mem | (extract_lets +onlyGivenNames a; first | (have ha : Formed a := (by dsimp only [a]; repeat' first | intro _ | with_reducible assumption | (with_reducible refine formed_requestEntry_t (by with_reducible assumption) ?_) | with_reducible apply formed_State_put | with_reducible apply formed_State_modCore | with_reducible apply formed_requestEntry_p | with_reducible apply formed_ite | (simp only [↓formed_mk]; refine And.intro ?_ ?_) | with_reducible apply formed_regs | with_reducible apply formed_mem | with_reducible apply formed_filter_regs | with_reducible apply formed_filter_mem | exact formed_nil | exact formed_nil_mem | split | dsimp only [id_eq]); clear_value a) | (have hf : State → State := a; clear hf; (try dsimp only [a]); clear a) | clear_value a) | split | dsimp only [id_eq]

theorem formed_opAfter {c op : Nat} {s : State} (hs : Formed s) : Formed (opAfter c op s) := by
  unfold opAfter
  with_reducible repeat' first | intro _ | assumption | apply formed_ite | apply formed_coreWait | apply formed_endEntry

theorem formed_runOp {c : Nat} {ahead : Bool} {op : Nat} {plan : Nat → Ctx → Plan} {s : State} (hs : Formed s) : Formed (runOp c ahead op plan s) := by
  unfold runOp
  with_reducible repeat' first | intro _ | assumption | apply formed_ite | apply formed_failCheck | apply formed_runPlan | apply formed_opAfter | split

theorem formed_runUndefined {c : Nat} {s : State} (hs : Formed s) : Formed (runUndefined c s) := by
  unfold runUndefined
  with_reducible repeat' first | intro _ | assumption | apply formed_ite | apply formed_failCheck | split

theorem formed_rptRep {c : Nat} {ahead : Bool} {b : Byte} {s : State} (hs : Formed s) : Formed (rptRep c ahead b s) := by
  unfold rptRep
  with_reducible repeat' first | intro _ | assumption | apply formed_runPlan | split | dsimp only [id_eq]

theorem formed_rptBegin {c : Nat} {s : State} (hs : Formed s) : Formed (rptBegin c s) := by
  unfold rptBegin
  with_reducible repeat' first | intro _ | assumption | apply formed_chargeCore | apply formed_ite | apply formed_failCheck | apply formed_specHold | apply formed_coreTrap | apply formed_State_modCore | split

theorem formed_rptStep {c : Nat} {ahead : Bool} {s : State} (hs : Formed s) : Formed (rptStep c ahead s) := by
  unfold rptStep
  with_reducible repeat' first | intro _ | assumption | apply formed_ite | apply formed_rptRep | split

theorem formed_rptFirst {c : Nat} {ahead : Bool} {k : Core} {s : State} (hs : Formed s) : Formed (rptFirst c ahead k s) := by
  unfold rptFirst
  with_reducible repeat' first | intro _ | assumption | apply formed_rptStep | apply formed_rptBegin | apply formed_ite | apply formed_specHold | split | dsimp only [id_eq]

theorem formed_runRpt {c : Nat} {ahead : Bool} {n : Nat} {s : State} (hs : Formed s) : Formed (runRpt c ahead n s) := by
  unfold runRpt
  with_reducible repeat' first | intro _ | assumption | apply formed_ite | apply formed_iter | apply formed_rptStep | apply formed_rptFirst | split

theorem formed_coreInstr {c : Nat} {row : IsaRow} {s : State} (hs : Formed s) : Formed (coreInstr c row s) := by
  unfold coreInstr
  with_reducible repeat' first | intro _ | assumption | apply formed_failCheck | apply formed_ite | apply formed_runOp | split

theorem formed_coreRpt {c n : Nat} {s : State} (hs : Formed s) : Formed (coreRpt c n s) := by
  unfold coreRpt
  with_reducible repeat' first | intro _ | assumption | apply formed_failCheck | apply formed_ite | apply formed_runRpt | split

theorem formed_coreUndefined {c : Nat} {s : State} (hs : Formed s) : Formed (coreUndefined c s) := by
  unfold coreUndefined
  with_reducible repeat' first | intro _ | assumption | apply formed_failCheck | apply formed_ite | apply formed_runUndefined | split

theorem formed_eventInterrupt {c : Nat} {s : State} (hs : Formed s) : Formed (eventInterrupt c s) := by
  unfold eventInterrupt
  with_reducible repeat' first | intro _ | assumption | apply formed_ite | apply formed_eventEntry | split

theorem formed_waitResume {c : Nat} {s : State} (hs : Formed s) : Formed (waitResume c s) := by
  unfold waitResume
  with_reducible repeat' first | intro _ | assumption | apply formed_ite | apply formed_State_modCore | apply formed_State_put | split

theorem formed_eventArrival {c : Nat} {rec_ : List Byte} {s : State} (hs : Formed s) : Formed (eventArrival c rec_ s) := by
  unfold eventArrival
  with_reducible repeat' first | intro _ | assumption | apply formed_enqueue

theorem formed_stepOnce {c : Nat} {s : State} (hs : Formed s) : Formed (stepOnce c s) := by
  unfold stepOnce
  with_reducible repeat' first | intro _ | assumption | apply formed_ite | apply formed_eventEntry | apply formed_failCheck | apply formed_runRpt | apply formed_runOp | apply formed_runUndefined | split

theorem formed_coreHaltCmd {c : Nat} {s : State} (hs : Formed s) : Formed (coreHaltCmd c s) := by
  unfold coreHaltCmd
  with_reducible repeat' first | intro _ | assumption | apply formed_ite | apply formed_State_modCore | apply formed_haltCore | split

theorem formed_coreResumeCmd {c : Nat} {s : State} (hs : Formed s) : Formed (coreResumeCmd c s) := by
  unfold coreResumeCmd
  with_reducible repeat' first | intro _ | assumption | apply formed_State_modCore | apply formed_ite | apply formed_State_put | split

theorem formed_coreStepCmd {c : Nat} {s : State} (hs : Formed s) : Formed (coreStepCmd c s) := by
  unfold coreStepCmd
  with_reducible repeat' first | intro _ | assumption | apply formed_ite | apply formed_stepOnce | apply formed_State_put | apply formed_State_modCore | split

theorem formed_coreRegsCmd {c : Nat} {w : Option (BitVec 128)} {s : State} (hs : Formed s) : Formed (coreRegsCmd c w s) := by
  unfold coreRegsCmd
  repeat' first | intro _ | with_reducible assumption | with_reducible apply formed_State_modCore | with_reducible apply formed_ite | (simp only [↓formed_mk]; refine And.intro ?_ ?_) | with_reducible apply formed_regs | with_reducible apply formed_mem | with_reducible apply formed_filter_regs | with_reducible apply formed_filter_mem | exact formed_nil | exact formed_nil_mem | (extract_lets +onlyGivenNames a; first | (have ha : Formed a := (by dsimp only [a]; repeat' first | intro _ | with_reducible assumption | with_reducible apply formed_State_modCore | with_reducible apply formed_ite | (simp only [↓formed_mk]; refine And.intro ?_ ?_) | with_reducible apply formed_regs | with_reducible apply formed_mem | with_reducible apply formed_filter_regs | with_reducible apply formed_filter_mem | exact formed_nil | exact formed_nil_mem | split | dsimp only [id_eq]); clear_value a) | (have hf : State → State := a; clear hf; (try dsimp only [a]); clear a) | clear_value a) | split | dsimp only [id_eq]

theorem formed_saveKeepBox {s : State} (hs : Formed s) : Formed (saveKeepBox s) := by
  unfold saveKeepBox
  with_reducible repeat' first | intro _ | assumption | apply formed_State_modPow

theorem formed_entryFlushed {s : State} (hs : Formed s) : Formed (entryFlushed s) := by
  unfold entryFlushed
  with_reducible repeat' first | intro _ | assumption | apply formed_ite | apply formed_entryAbort | apply formed_State_modPow | apply formed_saveKeepBox

theorem formed_flushComplete {s : State} (hs : Formed s) : Formed (flushComplete s) := by
  unfold flushComplete
  with_reducible repeat' first | intro _ | assumption | apply formed_ite | apply formed_flushRing | apply formed_drainBuffers | apply formed_State_modLedg | apply formed_State_put | apply formed_State_incSat | apply formed_State_modPow | apply formed_entryFlushed | apply formed_doWarm | apply formed_resetTo | apply formed_holdFail | split

theorem formed_powerDown {s : State} (hs : Formed s) : Formed (powerDown s) := by
  unfold powerDown
  with_reducible repeat' first | intro _ | assumption | apply formed_ite | apply formed_beginExit | apply formed_State_modPow | apply formed_State_put | apply formed_resetTo | apply formed_forUpTo | apply formed_linkPowerDown | apply formed_chainHalt | apply formed_dayDrain | apply formed_noteEntry

theorem formed_regulatorReady {s : State} (hs : Formed s) : Formed (regulatorReady s) := by
  unfold regulatorReady
  with_reducible repeat' first | intro _ | assumption | apply formed_ite | apply formed_State_modPow | apply formed_State_put | apply formed_State_mark

theorem formed_oscillatorReady {s : State} (hs : Formed s) : Formed (oscillatorReady s) := by
  unfold oscillatorReady
  repeat' first | intro _ | with_reducible assumption | with_reducible apply formed_State_mark | with_reducible apply formed_State_modPow | with_reducible apply formed_ite | (simp only [↓formed_mk]; refine And.intro ?_ ?_) | with_reducible apply formed_regs | with_reducible apply formed_mem | with_reducible apply formed_filter_regs | with_reducible apply formed_filter_mem | exact formed_nil | exact formed_nil_mem | (extract_lets +onlyGivenNames a; first | (have ha : Formed a := (by dsimp only [a]; repeat' first | intro _ | with_reducible assumption | with_reducible apply formed_State_mark | with_reducible apply formed_State_modPow | with_reducible apply formed_ite | (simp only [↓formed_mk]; refine And.intro ?_ ?_) | with_reducible apply formed_regs | with_reducible apply formed_mem | with_reducible apply formed_filter_regs | with_reducible apply formed_filter_mem | exact formed_nil | exact formed_nil_mem | split | dsimp only [id_eq]); clear_value a) | (have hf : State → State := a; clear hf; (try dsimp only [a]); clear a) | clear_value a) | split | dsimp only [id_eq]

theorem formed_takeRole {s : State} (hs : Formed s) : Formed (takeRole s) := by
  unfold takeRole
  with_reducible repeat' first | intro _ | assumption | apply formed_ite | apply formed_State_put

theorem formed_strapSample {boot : Nat} {head standby : Bool} {adr0 adr1 adr2 : Nat} {s : State} (hs : Formed s) : Formed (strapSample boot head standby adr0 adr1 adr2 s) := by
  unfold strapSample
  with_reducible repeat' first | intro _ | assumption | apply formed_ite | apply formed_State_modPow | apply formed_takeRole | apply formed_State_put | apply formed_State_putB

theorem formed_initBanks {kept : Nat} {s : State} (hs : Formed s) : Formed (initBanks kept s) := by
  unfold initBanks
  repeat' first | intro _ | with_reducible assumption | with_reducible apply formed_ite | (simp only [↓formed_mk]; refine And.intro ?_ ?_) | with_reducible apply formed_regs | with_reducible apply formed_mem | with_reducible apply formed_filter_regs | with_reducible apply formed_filter_mem | exact formed_nil | exact formed_nil_mem | (extract_lets +onlyGivenNames a; first | (have ha : Formed a := (by dsimp only [a]; repeat' first | intro _ | with_reducible assumption | with_reducible apply formed_ite | (simp only [↓formed_mk]; refine And.intro ?_ ?_) | with_reducible apply formed_regs | with_reducible apply formed_mem | with_reducible apply formed_filter_regs | with_reducible apply formed_filter_mem | exact formed_nil | exact formed_nil_mem | split | dsimp only [id_eq]); clear_value a) | (have hf : State → State := a; clear hf; (try dsimp only [a]); clear a) | clear_value a) | split | dsimp only [id_eq]

theorem formed_loadMap {s0 : State} (hs0 : Formed s0) : Formed (loadMap s0) := by
  unfold loadMap
  with_reducible repeat' first | intro _ | assumption | apply formed_readEffect | apply formed_State_modLedg | apply formed_ite | split

theorem formed_replayLine {e : Nat × List Byte} {s : State} (hs : Formed s) : Formed (replayLine e s) := by
  unfold replayLine
  with_reducible repeat' first | intro _ | assumption | apply formed_ite | apply formed_putBytes | apply formed_heal | apply formed_programAs_p | apply formed_State_freeVerify_p | apply formed_reportFailed

theorem formed_replayTxn {t : Nat × List (Nat × List Byte)} {s : State} (hs : Formed s) : Formed (replayTxn t s) := by
  unfold replayTxn
  with_reducible repeat' first | intro _ | assumption | apply formed_programJournal_p | apply formed_State_freeVerify_p | apply formed_foldl | apply formed_replayLine

theorem formed_replayMove {m : Nat × Nat} {s : State} (hs : Formed s) : Formed (replayMove m s) := by
  unfold replayMove
  with_reducible repeat' first | intro _ | assumption | apply formed_ite | apply formed_programJournal_p | apply formed_State_freeVerify_p | apply formed_storeMap_p | apply formed_State_modLedg

theorem formed_replay {s0 : State} (hs0 : Formed s0) : Formed (replay s0) := by
  unfold replay
  with_reducible repeat' first | intro _ | assumption | apply formed_ite | apply formed_foldl | apply formed_replayMove | apply formed_replayTxn | apply formed_readEffect | apply formed_loadMap | apply formed_dayPush | apply formed_State_put | apply formed_State_mark

theorem formed_readFlushRecord {s : State} (hs : Formed s) : Formed (readFlushRecord s) := by
  unfold readFlushRecord
  repeat' first | intro _ | with_reducible assumption | with_reducible apply formed_readEffect | with_reducible apply formed_ite | (simp only [↓formed_mk]; refine And.intro ?_ ?_) | with_reducible apply formed_regs | with_reducible apply formed_mem | with_reducible apply formed_filter_regs | with_reducible apply formed_filter_mem | exact formed_nil | exact formed_nil_mem | (extract_lets +onlyGivenNames a; first | (have ha : Formed a := (by dsimp only [a]; repeat' first | intro _ | with_reducible assumption | with_reducible apply formed_readEffect | with_reducible apply formed_ite | (simp only [↓formed_mk]; refine And.intro ?_ ?_) | with_reducible apply formed_regs | with_reducible apply formed_mem | with_reducible apply formed_filter_regs | with_reducible apply formed_filter_mem | exact formed_nil | exact formed_nil_mem | split | dsimp only [id_eq]); clear_value a) | (have hf : State → State := a; clear hf; (try dsimp only [a]); clear a) | clear_value a) | split | dsimp only [id_eq]

theorem formed_noLetters {s : State} (hs : Formed s) : Formed (noLetters s) := by
  unfold noLetters
  with_reducible repeat' first | intro _ | assumption | apply formed_State_modGate

theorem formed_reloadBad {s : State} (hs : Formed s) : Formed (reloadBad s) := by
  unfold reloadBad
  with_reducible repeat' first | intro _ | assumption | apply formed_dayPush | apply formed_ringFill | apply formed_noLetters | apply formed_State_mark

theorem formed_reload {s0 : State} (hs0 : Formed s0) : Formed (reload s0) := by
  unfold reload
  repeat' first | intro _ | with_reducible assumption | with_reducible apply formed_State_put | with_reducible apply formed_State_mark | with_reducible apply formed_dayPush | with_reducible apply formed_State_modGate | with_reducible apply formed_loaderReads | with_reducible apply formed_ringFill | with_reducible apply formed_readFlushRecord | with_reducible apply formed_noLetters | with_reducible apply formed_reloadBad | with_reducible apply formed_ite | (simp only [↓formed_mk]; refine And.intro ?_ ?_) | with_reducible apply formed_regs | with_reducible apply formed_mem | with_reducible apply formed_filter_regs | with_reducible apply formed_filter_mem | exact formed_nil | exact formed_nil_mem | (extract_lets +onlyGivenNames a; first | (have ha : Formed a := (by dsimp only [a]; repeat' first | intro _ | with_reducible assumption | with_reducible apply formed_State_put | with_reducible apply formed_State_mark | with_reducible apply formed_dayPush | with_reducible apply formed_State_modGate | with_reducible apply formed_loaderReads | with_reducible apply formed_ringFill | with_reducible apply formed_readFlushRecord | with_reducible apply formed_noLetters | with_reducible apply formed_reloadBad | with_reducible apply formed_ite | (simp only [↓formed_mk]; refine And.intro ?_ ?_) | with_reducible apply formed_regs | with_reducible apply formed_mem | with_reducible apply formed_filter_regs | with_reducible apply formed_filter_mem | exact formed_nil | exact formed_nil_mem | split | dsimp only [id_eq]); clear_value a) | (have hf : State → State := a; clear hf; (try dsimp only [a]); clear a) | clear_value a) | split | dsimp only [id_eq]

theorem formed_memoryReady {s : State} (hs : Formed s) : Formed (memoryReady s) := by
  unfold memoryReady
  with_reducible repeat' first | intro _ | assumption | apply formed_ite | apply formed_State_modPow | apply formed_takeRole | apply formed_reload | apply formed_State_mark | apply formed_initBanks | apply formed_replay

theorem formed_firstSerial {s0 : State} (hs0 : Formed s0) : Formed (firstSerial s0) := by
  unfold firstSerial
  with_reducible repeat' first | intro _ | assumption | apply formed_readEffect | apply formed_storeRecord | apply formed_State_put | split

theorem formed_firstFresh {p : Nat} {s0 : State} (hs0 : Formed s0) : Formed (firstFresh p s0) := by
  unfold firstFresh
  with_reducible repeat' first | intro _ | assumption | apply formed_storeRecord | apply formed_State_put | apply formed_readEffect

theorem formed_recordsReady {s : State} (hs : Formed s) : Formed (recordsReady s) := by
  unfold recordsReady
  with_reducible repeat' first | intro _ | assumption | apply formed_ite | apply formed_State_modPow | apply formed_reload | apply formed_readEffect | apply formed_forUpTo | apply formed_firstFresh | apply formed_firstSerial | apply formed_reevaluate | apply formed_checkCurves | apply formed_State_modEst | apply formed_State_put | split

theorem formed_chainAgain {u : Nat} {s : State} (hs : Formed s) : Formed (chainAgain u s) := by
  unfold chainAgain
  with_reducible repeat' first | intro _ | assumption | apply formed_ite | apply formed_chainBegin | apply formed_chainHalt

theorem formed_keepWrite {a v : Nat} {s : State} (hs : Formed s) : Formed (keepWrite a v s) := by
  unfold keepWrite
  with_reducible repeat' first | intro _ | assumption | apply formed_refuse | apply formed_ite | apply formed_chainAgain | apply formed_regAct | apply formed_setReg | apply formed_regWrite | split

theorem formed_resumeHush {s : State} (hs : Formed s) : Formed (resumeHush s) := by
  unfold resumeHush
  with_reducible repeat' first | intro _ | assumption | apply formed_advanceAll | apply formed_wakePostmaster | apply formed_State_modTwp | apply formed_bellUpdate | apply formed_forUpTo | apply formed_State_put | apply formed_ite | apply formed_beginTraining | apply formed_chainBegin | apply formed_startBook

theorem formed_logicReady {s : State} (hs : Formed s) : Formed (logicReady s) := by
  unfold logicReady
  with_reducible repeat' first | intro _ | assumption | apply formed_ite | apply formed_State_modPow | apply formed_State_put | apply formed_State_mark | apply formed_loadImage | apply formed_resumeHush | apply formed_foldl | apply formed_keepWrite | split

theorem formed_stageTimeout {s : State} (hs : Formed s) : Formed (stageTimeout s) := by
  unfold stageTimeout
  with_reducible repeat' first | intro _ | assumption | apply formed_ite | apply formed_State_modPow | apply formed_raiseFault | split

theorem formed_xloStable {s : State} (hs : Formed s) : Formed (xloStable s) := by
  unfold xloStable
  with_reducible repeat' first | intro _ | assumption | apply formed_ite | apply formed_State_mark

theorem formed_State_modTap {s : State} {f : Tap → Tap} (hs : Formed s) : Formed (State.modTap s f) := by
  unfold State.modTap
  repeat' first | intro _ | with_reducible assumption | with_reducible apply formed_ite | (simp only [↓formed_mk]; refine And.intro ?_ ?_) | with_reducible apply formed_regs | with_reducible apply formed_mem | with_reducible apply formed_filter_regs | with_reducible apply formed_filter_mem | exact formed_nil | exact formed_nil_mem | (extract_lets +onlyGivenNames a; first | (have ha : Formed a := (by dsimp only [a]; repeat' first | intro _ | with_reducible assumption | with_reducible apply formed_ite | (simp only [↓formed_mk]; refine And.intro ?_ ?_) | with_reducible apply formed_regs | with_reducible apply formed_mem | with_reducible apply formed_filter_regs | with_reducible apply formed_filter_mem | exact formed_nil | exact formed_nil_mem | split | dsimp only [id_eq]); clear_value a) | (have hf : State → State := a; clear hf; (try dsimp only [a]); clear a) | clear_value a) | split | dsimp only [id_eq]

theorem formed_tapLoad {ir : Nat} {dr : TapSel} {act : State → State} {s : State} (hs : Formed s) (hact : ∀ x0, Formed x0 → Formed (act x0)) : Formed (tapLoad ir dr act s) := by
  unfold tapLoad
  with_reducible repeat' first | intro _ | assumption | apply formed_ite | apply formed_State_modTap | apply hact

theorem formed_boundaryScan {levels : List Bool} {load : Option (List Bool)} {s : State} (hs : Formed s) : Formed (boundaryScan levels load s) := by
  unfold boundaryScan
  with_reducible repeat' first | intro _ | assumption | apply formed_State_modTap

theorem formed_tapBypass {s : State} (hs : Formed s) : Formed (tapBypass s) := by
  unfold tapBypass
  with_reducible repeat' first | intro _ | assumption | apply formed_tapLoad | apply formed_State_modTap

theorem formed_tapIdcode {s : State} (hs : Formed s) : Formed (tapIdcode s) := by
  unfold tapIdcode
  with_reducible repeat' first | intro _ | assumption | apply formed_tapLoad | apply formed_State_modTap

theorem formed_tapSample {levels : List Bool} {load : Option (List Bool)} {s : State} (hs : Formed s) : Formed (tapSample levels load s) := by
  unfold tapSample
  with_reducible repeat' first | intro _ | assumption | apply formed_tapLoad | apply formed_boundaryScan

theorem formed_boardTest {act : State → State} {s : State} (hs : Formed s) (hact : ∀ x0, Formed x0 → Formed (act x0)) : Formed (boardTest act s) := by
  unfold boardTest
  with_reducible repeat' first | intro _ | assumption | apply formed_ite | apply formed_tapBypass | apply hact

theorem formed_tapExtest {levels : List Bool} {load : Option (List Bool)} {s : State} (hs : Formed s) : Formed (tapExtest levels load s) := by
  unfold tapExtest
  with_reducible repeat' first | intro _ | assumption | apply formed_boardTest | apply formed_tapLoad | apply formed_boundaryScan

theorem formed_tapHighz {s : State} (hs : Formed s) : Formed (tapHighz s) := by
  unfold tapHighz
  with_reducible repeat' first | intro _ | assumption | apply formed_boardTest | apply formed_tapLoad | apply formed_State_modTap

theorem formed_tapClamp {s : State} (hs : Formed s) : Formed (tapClamp s) := by
  unfold tapClamp
  with_reducible repeat' first | intro _ | assumption | apply formed_boardTest | apply formed_tapLoad | apply formed_State_modTap

theorem formed_tapCoreSel {c : Nat} {s : State} (hs : Formed s) : Formed (tapCoreSel c s) := by
  unfold tapCoreSel
  with_reducible repeat' first | intro _ | assumption | apply formed_tapLoad | apply formed_State_modTap

theorem formed_onSelected {act : Nat → State → State} {s : State} (hs : Formed s) (hact : ∀ x0 x1, Formed x1 → Formed (act x0 x1)) : Formed (onSelected act s) := by
  unfold onSelected
  with_reducible repeat' first | intro _ | assumption | apply hact | split

theorem formed_tapCoreHalt {s : State} (hs : Formed s) : Formed (tapCoreHalt s) := by
  unfold tapCoreHalt
  with_reducible repeat' first | intro _ | assumption | apply formed_tapLoad | apply formed_onSelected | apply formed_coreHaltCmd

theorem formed_tapCoreStep {s : State} (hs : Formed s) : Formed (tapCoreStep s) := by
  unfold tapCoreStep
  with_reducible repeat' first | intro _ | assumption | apply formed_tapLoad | apply formed_onSelected | apply formed_coreStepCmd

theorem formed_tapCoreResume {s : State} (hs : Formed s) : Formed (tapCoreResume s) := by
  unfold tapCoreResume
  with_reducible repeat' first | intro _ | assumption | apply formed_tapLoad | apply formed_onSelected | apply formed_coreResumeCmd

theorem formed_tapCoreRegs {w : Option (BitVec 128)} {s : State} (hs : Formed s) : Formed (tapCoreRegs w s) := by
  unfold tapCoreRegs
  with_reducible repeat' first | intro _ | assumption | apply formed_tapLoad | apply formed_onSelected | apply formed_coreRegsCmd

theorem formed_holdUpdate {mv vio33 : Nat} {s : State} (hs : Formed s) : Formed (holdUpdate mv vio33 s) := by
  unfold holdUpdate
  with_reducible repeat' first | intro _ | assumption | apply formed_ite | apply formed_State_putB | apply formed_State_put | apply formed_State_modPow

theorem formed_whenHeard {act : State → State} {s : State} (hs : Formed s) (hact : ∀ x0, Formed x0 → Formed (act x0)) : Formed (whenHeard act s) := by
  unfold whenHeard
  with_reducible repeat' first | intro _ | assumption | apply formed_ite | apply hact

theorem formed_whenPowered {act : State → State} {s : State} (hs : Formed s) (hact : ∀ x0, Formed x0 → Formed (act x0)) : Formed (whenPowered act s) := by
  unfold whenPowered
  with_reducible repeat' first | intro _ | assumption | apply formed_ite | apply hact

theorem formed_registerWrite {u a : Nat} {w : Word} {s : State} (hs : Formed s) : Formed (registerWrite u a w s) := by
  unfold registerWrite
  with_reducible repeat' first | intro _ | assumption | apply formed_ite | apply formed_portWord | apply formed_regWrite

theorem formed_registerModify {u a lo w v : Nat} {s : State} (hs : Formed s) : Formed (registerModify u a lo w v s) := by
  unfold registerModify
  with_reducible repeat' first | intro _ | assumption | apply formed_registerWrite

theorem formed_registerRead {u a : Nat} {s : State} (hs : Formed s) : Formed (registerRead u a s) := by
  unfold registerRead
  repeat' first | intro _ | with_reducible assumption | (with_reducible refine formed_regRead_t (by with_reducible assumption) ?_) | with_reducible apply formed_regRead_p | with_reducible apply formed_ite | (simp only [↓formed_mk]; refine And.intro ?_ ?_) | with_reducible apply formed_regs | with_reducible apply formed_mem | with_reducible apply formed_filter_regs | with_reducible apply formed_filter_mem | exact formed_nil | exact formed_nil_mem | (extract_lets +onlyGivenNames a; first | (have ha : Formed a := (by dsimp only [a]; repeat' first | intro _ | with_reducible assumption | (with_reducible refine formed_regRead_t (by with_reducible assumption) ?_) | with_reducible apply formed_regRead_p | with_reducible apply formed_ite | (simp only [↓formed_mk]; refine And.intro ?_ ?_) | with_reducible apply formed_regs | with_reducible apply formed_mem | with_reducible apply formed_filter_regs | with_reducible apply formed_filter_mem | exact formed_nil | exact formed_nil_mem | split | dsimp only [id_eq]); clear_value a) | (have hf : State → State := a; clear hf; (try dsimp only [a]); clear a) | clear_value a) | split | dsimp only [id_eq]

theorem formed_twoWrites {u a : Nat} {w : Word} {u2 a2 : Nat} {w2 : Word} {s : State} (hs : Formed s) : Formed (twoWrites u a w u2 a2 w2 s) := by
  unfold twoWrites
  with_reducible repeat' first | intro _ | assumption | apply formed_ite | apply formed_refuseColliding | apply formed_registerWrite

theorem formed_registerWrites {u a : Nat} {w : Word} {other : Option (Nat × Nat × Word)} {s : State} (hs : Formed s) : Formed (registerWrites u a w other s) := by
  unfold registerWrites
  with_reducible repeat' first | intro _ | assumption | apply formed_registerWrite | apply formed_ite | apply formed_twoWrites | split

theorem formed_bankRow {u : Nat} {ahead : Bool} {a : Nat} {acc : BusAccess} {turned : List Flip} {s : State} (hs : Formed s) : Formed (bankRow u ahead a acc turned s) := by
  unfold bankRow
  with_reducible repeat' first | intro _ | assumption | apply formed_whenPowered | apply formed_bankRequest | apply formed_foldl | apply formed_turnCell | split

theorem formed_patrolRow {turned : List Flip} {s : State} (hs : Formed s) : Formed (patrolRow turned s) := by
  unfold patrolRow
  repeat' first | intro _ | with_reducible assumption | with_reducible apply formed_turnCell | with_reducible apply formed_patrolScrub | with_reducible apply formed_whenPowered | with_reducible apply formed_foldl | with_reducible apply formed_foldl_two | with_reducible apply formed_ite | (simp only [↓formed_mk]; refine And.intro ?_ ?_) | with_reducible apply formed_regs | with_reducible apply formed_mem | with_reducible apply formed_filter_regs | with_reducible apply formed_filter_mem | exact formed_nil | exact formed_nil_mem | (extract_lets +onlyGivenNames a; first | (have ha : Formed a := (by dsimp only [a]; repeat' first | intro _ | with_reducible assumption | with_reducible apply formed_turnCell | with_reducible apply formed_patrolScrub | with_reducible apply formed_whenPowered | with_reducible apply formed_foldl | with_reducible apply formed_foldl_two | with_reducible apply formed_ite | (simp only [↓formed_mk]; refine And.intro ?_ ?_) | with_reducible apply formed_regs | with_reducible apply formed_mem | with_reducible apply formed_filter_regs | with_reducible apply formed_filter_mem | exact formed_nil | exact formed_nil_mem | split | dsimp only [id_eq]); clear_value a) | (have hf : State → State := a; clear hf; (try dsimp only [a]); clear a) | clear_value a) | split | dsimp only [id_eq]

theorem formed_programDone {p : Program} {s : State} (hs : Formed s) : Formed (programDone p s) := by
  unfold programDone
  with_reducible repeat' first | intro _ | assumption | apply formed_lineDone | apply formed_recordDone | apply formed_moveDone | apply formed_State_modLedg | split

theorem formed_pathRow {n st : Nat} {f : RxFrame} {s : State} (hs : Formed s) : Formed (pathRow n st f s) := by
  unfold pathRow
  with_reducible repeat' first | intro _ | assumption | apply formed_receiveFrame | apply formed_ite | apply formed_takePath

end Sys2Proof.Machine
end

