-- ==== Sys2Proof/Laws/FormRows.lean ====
section
/-!
SUPPORT. What keeps both maps of a state in canonical form: the meaning of every command, and a tick of the clock.
One lemma for each operation that answers a state, and for each that answers one beside a value a lemma about that state.
-/

namespace Sys2Proof.Machine

theorem formed_execChainOutput_t {chain : Fin 16} {bits : List (Bool × Nat)} {s t : State} (he : execChainOutput chain bits s = .next t) (hs : Formed s) : Formed t := by
  unfold execChainOutput at he; injection he with he; subst he
  with_reducible repeat' first | intro _ | assumption | apply formed_chainOutput

theorem formed_execSampleHandoff_t {chain : Fin 16} {s t : State} (he : execSampleHandoff chain s = .next t) (hs : Formed s) : Formed t := by
  unfold execSampleHandoff at he; injection he with he; subst he
  with_reducible repeat' first | intro _ | assumption | apply formed_sampleHandoff

theorem formed_execSourceOverload_t {source : Fin 16} {s t : State} (he : execSourceOverload source s = .next t) (hs : Formed s) : Formed t := by
  unfold execSourceOverload at he; injection he with he; subst he
  with_reducible repeat' first | intro _ | assumption | apply formed_whenHeard | apply formed_sourceOverload

theorem formed_execOverloadEnd_t {source : Fin 16} {s t : State} (he : execOverloadEnd source s = .next t) (hs : Formed s) : Formed t := by
  unfold execOverloadEnd at he; injection he with he; subst he
  with_reducible repeat' first | intro _ | assumption | apply formed_whenHeard | apply formed_overloadEnd

theorem formed_execChainStart_t {writer : Fin 256} {chain : Fin 16} {s t : State} (he : execChainStart writer chain s = .next t) (hs : Formed s) : Formed t := by
  unfold execChainStart at he; injection he with he; subst he
  with_reducible repeat' first | intro _ | assumption | apply formed_registerModify

theorem formed_execChainStop_t {writer : Fin 256} {chain : Fin 16} {s t : State} (he : execChainStop writer chain s = .next t) (hs : Formed s) : Formed t := by
  unfold execChainStop at he; injection he with he; subst he
  with_reducible repeat' first | intro _ | assumption | apply formed_registerModify

theorem formed_execCoefWrite_t {writer : Fin 256} {chain : Fin 16} {val : Word} {s t : State} (he : execCoefWrite writer chain val s = .next t) (hs : Formed s) : Formed t := by
  unfold execCoefWrite at he; injection he with he; subst he
  with_reducible repeat' first | intro _ | assumption | apply formed_registerWrite

theorem formed_execCoefRead_t {reader : Fin 256} {chain : Fin 16} {s t : State} (he : execCoefRead reader chain s = .next t) (hs : Formed s) : Formed t := by
  unfold execCoefRead at he; injection he with he; subst he
  with_reducible repeat' first | intro _ | assumption | apply formed_registerRead

theorem formed_execSourceModWrite_t {writer : Fin 256} {source : Fin 16} {val : Word} {s t : State} (he : execSourceModWrite writer source val s = .next t) (hs : Formed s) : Formed t := by
  unfold execSourceModWrite at he; injection he with he; subst he
  with_reducible repeat' first | intro _ | assumption | apply formed_registerWrite

theorem formed_execChainSourceWrite_t {writer : Fin 256} {chain : Fin 16} {val : Word} {s t : State} (he : execChainSourceWrite writer chain val s = .next t) (hs : Formed s) : Formed t := by
  unfold execChainSourceWrite at he; injection he with he; subst he
  with_reducible repeat' first | intro _ | assumption | apply formed_registerWrite

theorem formed_execLastOutputRead_t {reader : Fin 256} {chain : Fin 16} {s t : State} (he : execLastOutputRead reader chain s = .next t) (hs : Formed s) : Formed t := by
  unfold execLastOutputRead at he; injection he with he; subst he
  with_reducible repeat' first | intro _ | assumption | apply formed_registerRead

theorem formed_execRegisterWrite_t {writer : Fin 256} {addr val : Word} {other : Option (Fin 256 × Word × Word)} {s t : State} (he : execRegisterWrite writer addr val other s = .next t) (hs : Formed s) : Formed t := by
  unfold execRegisterWrite at he; injection he with he; subst he
  with_reducible repeat' first | intro _ | assumption | apply formed_registerWrites

theorem formed_execRmapApply_t {writer : Fin 256} {s t : State} (he : execRmapApply writer s = .next t) (hs : Formed s) : Formed t := by
  unfold execRmapApply at he; injection he with he; subst he
  with_reducible repeat' first | intro _ | assumption | apply formed_registerWrite

theorem formed_execRmapCheck_t {writer : Fin 256} {s t : State} (he : execRmapCheck writer s = .next t) (hs : Formed s) : Formed t := by
  unfold execRmapCheck at he; injection he with he; subst he
  with_reducible repeat' first | intro _ | assumption | apply formed_registerWrite

theorem formed_execRmapCheckA_t {writer : Fin 256} {s t : State} (he : execRmapCheckA writer s = .next t) (hs : Formed s) : Formed t := by
  unfold execRmapCheckA at he; injection he with he; subst he
  with_reducible repeat' first | intro _ | assumption | apply formed_registerWrite

theorem formed_execRmapCheckB_t {writer : Fin 256} {s t : State} (he : execRmapCheckB writer s = .next t) (hs : Formed s) : Formed t := by
  unfold execRmapCheckB at he; injection he with he; subst he
  with_reducible repeat' first | intro _ | assumption | apply formed_registerWrite

theorem formed_execRmapLoadA_t {writer : Fin 256} {s t : State} (he : execRmapLoadA writer s = .next t) (hs : Formed s) : Formed t := by
  unfold execRmapLoadA at he; injection he with he; subst he
  with_reducible repeat' first | intro _ | assumption | apply formed_registerWrite

theorem formed_execRmapLoadB_t {writer : Fin 256} {s t : State} (he : execRmapLoadB writer s = .next t) (hs : Formed s) : Formed t := by
  unfold execRmapLoadB at he; injection he with he; subst he
  with_reducible repeat' first | intro _ | assumption | apply formed_registerWrite

theorem formed_execApplyPoint_t {s t : State} (he : execApplyPoint s = .next t) (hs : Formed s) : Formed t := by
  unfold execApplyPoint at he; injection he with he; subst he
  with_reducible repeat' first | intro _ | assumption | apply formed_applyPoint

theorem formed_execRmapCommandDone_t {s t : State} (he : execRmapCommandDone s = .next t) (hs : Formed s) : Formed t := by
  unfold execRmapCommandDone at he; injection he with he; subst he
  with_reducible repeat' first | intro _ | assumption | apply formed_rmapDone

theorem formed_execMeasurementWindowEnd_t {count : Nat} {s t : State} (he : execMeasurementWindowEnd count s = .next t) (hs : Formed s) : Formed t := by
  unfold execMeasurementWindowEnd at he; injection he with he; subst he
  with_reducible repeat' first | intro _ | assumption | apply formed_windowEnd

theorem formed_execTemperatureUpdate_t {reading : Int} {s t : State} (he : execTemperatureUpdate reading s = .next t) (hs : Formed s) : Formed t := by
  unfold execTemperatureUpdate at he; injection he with he; subst he
  with_reducible repeat' first | intro _ | assumption | apply formed_temperatureUpdate

theorem formed_execPostmarkRead_t {reader : Fin 256} {s t : State} (he : execPostmarkRead reader s = .next t) (hs : Formed s) : Formed t := by
  unfold execPostmarkRead at he; injection he with he; subst he
  with_reducible repeat' first | intro _ | assumption | apply formed_registerRead

theorem formed_execBankRequest_t {unit : Fin 128} {ahead : Bool} {addr : Word} {access : BusAccess} {flips : List Flip} {s t : State} (he : execBankRequest unit ahead addr access flips s = .next t) (hs : Formed s) : Formed t := by
  unfold execBankRequest at he; injection he with he; subst he
  with_reducible repeat' first | intro _ | assumption | apply formed_bankRow

theorem formed_execArbitrationPhase_t {bank : Fin 24} {s t : State} (he : execArbitrationPhase bank s = .next t) (hs : Formed s) : Formed t := by
  unfold execArbitrationPhase at he; injection he with he; subst he
  with_reducible repeat' first | intro _ | assumption | apply formed_arbPhase

theorem formed_execGrantWithdrawal_t {bank : Fin 24} {s t : State} (he : execGrantWithdrawal bank s = .next t) (hs : Formed s) : Formed t := by
  unfold execGrantWithdrawal at he; injection he with he; subst he
  with_reducible repeat' first | intro _ | assumption | apply formed_grantWithdrawal

theorem formed_execArbConfigWrite_t {writer : Fin 256} {unit : Fin 128} {mask : Bool} {val : Word} {s t : State} (he : execArbConfigWrite writer unit mask val s = .next t) (hs : Formed s) : Formed t := by
  unfold execArbConfigWrite at he; injection he with he; subst he
  with_reducible repeat' first | intro _ | assumption | apply formed_registerWrite

theorem formed_execPatrolScrub_t {flips : List Flip} {s t : State} (he : execPatrolScrub flips s = .next t) (hs : Formed s) : Formed t := by
  unfold execPatrolScrub at he; injection he with he; subst he
  with_reducible repeat' first | intro _ | assumption | apply formed_patrolRow

theorem formed_execLineProgramComplete_t {program : Program} {s t : State} (he : execLineProgramComplete program s = .next t) (hs : Formed s) : Formed t := by
  unfold execLineProgramComplete at he; injection he with he; subst he
  with_reducible repeat' first | intro _ | assumption | apply formed_programDone

theorem formed_execTxnOpen_t {writer : Fin 256} {s t : State} (he : execTxnOpen writer s = .next t) (hs : Formed s) : Formed t := by
  unfold execTxnOpen at he; injection he with he; subst he
  with_reducible repeat' first | intro _ | assumption | apply formed_registerWrite

theorem formed_execTxnCommit_t {writer : Fin 256} {s t : State} (he : execTxnCommit writer s = .next t) (hs : Formed s) : Formed t := by
  unfold execTxnCommit at he; injection he with he; subst he
  with_reducible repeat' first | intro _ | assumption | apply formed_registerWrite

theorem formed_execTxnAbort_t {writer : Fin 256} {s t : State} (he : execTxnAbort writer s = .next t) (hs : Formed s) : Formed t := by
  unfold execTxnAbort at he; injection he with he; subst he
  with_reducible repeat' first | intro _ | assumption | apply formed_registerWrite

theorem formed_execCommitPoint_t {owner : Fin 128} {s t : State} (he : execCommitPoint owner s = .next t) (hs : Formed s) : Formed t := by
  unfold execCommitPoint at he; injection he with he; subst he
  with_reducible repeat' first | intro _ | assumption | apply formed_commitPoint

theorem formed_execRetireRecord_t {owner : Fin 128} {s t : State} (he : execRetireRecord owner s = .next t) (hs : Formed s) : Formed t := by
  unfold execRetireRecord at he; injection he with he; subst he
  with_reducible repeat' first | intro _ | assumption | apply formed_retireRecord

theorem formed_execFramePrebuild_t {port : Fin 32} {s t : State} (he : execFramePrebuild port s = .next t) (hs : Formed s) : Formed t := by
  unfold execFramePrebuild at he; injection he with he; subst he
  with_reducible repeat' first | intro _ | assumption | apply formed_prebuild

theorem formed_execFrameSend_t {port : Fin 32} {s t : State} (he : execFrameSend port s = .next t) (hs : Formed s) : Formed t := by
  unfold execFrameSend at he; injection he with he; subst he
  with_reducible repeat' first | intro _ | assumption | apply formed_frameSend

theorem formed_execFrameTxEnd_t {port : Fin 32} {s t : State} (he : execFrameTxEnd port s = .next t) (hs : Formed s) : Formed t := by
  unfold execFrameTxEnd at he; injection he with he; subst he
  with_reducible repeat' first | intro _ | assumption | apply formed_lineStep

theorem formed_execDeLagExpiry_t {port : Fin 32} {s t : State} (he : execDeLagExpiry port s = .next t) (hs : Formed s) : Formed t := by
  unfold execDeLagExpiry at he; injection he with he; subst he
  with_reducible repeat' first | intro _ | assumption | apply formed_lineStep

theorem formed_execRxBlankExpiry_t {port : Fin 32} {s t : State} (he : execRxBlankExpiry port s = .next t) (hs : Formed s) : Formed t := by
  unfold execRxBlankExpiry at he; injection he with he; subst he
  with_reducible repeat' first | intro _ | assumption | apply formed_lineStep

theorem formed_execPortEnable_t {writer : Fin 256} {port : Fin 32} {s t : State} (he : execPortEnable writer port s = .next t) (hs : Formed s) : Formed t := by
  unfold execPortEnable at he; injection he with he; subst he
  with_reducible repeat' first | intro _ | assumption | apply formed_registerModify

theorem formed_execPortDisable_t {writer : Fin 256} {port : Fin 32} {s t : State} (he : execPortDisable writer port s = .next t) (hs : Formed s) : Formed t := by
  unfold execPortDisable at he; injection he with he; subst he
  with_reducible repeat' first | intro _ | assumption | apply formed_registerModify

theorem formed_execBurstReceived_t {port : Fin 32} {burst : Burst} {s t : State} (he : execBurstReceived port burst s = .next t) (hs : Formed s) : Formed t := by
  unfold execBurstReceived at he; injection he with he; subst he
  with_reducible repeat' first | intro _ | assumption | apply formed_burstReceived

theorem formed_execLineQuiet_t {port : Fin 32} {s t : State} (he : execLineQuiet port s = .next t) (hs : Formed s) : Formed t := by
  unfold execLineQuiet at he; injection he with he; subst he
  with_reducible repeat' first | intro _ | assumption | apply formed_whenHeard | apply formed_lineQuiet

theorem formed_execNodeMissing_t {port : Fin 32} {s t : State} (he : execNodeMissing port s = .next t) (hs : Formed s) : Formed t := by
  unfold execNodeMissing at he; injection he with he; subst he
  with_reducible repeat' first | intro _ | assumption | apply formed_nodeMissing

theorem formed_execExchangeEnd_t {port : Fin 32} {s t : State} (he : execExchangeEnd port s = .next t) (hs : Formed s) : Formed t := by
  unfold execExchangeEnd at he; injection he with he; subst he
  with_reducible repeat' first | intro _ | assumption | apply formed_exchangeEnd

theorem formed_execExchangeCutOff_t {port : Fin 32} {s t : State} (he : execExchangeCutOff port s = .next t) (hs : Formed s) : Formed t := by
  unfold execExchangeCutOff at he; injection he with he; subst he
  with_reducible repeat' first | intro _ | assumption | apply formed_exchangeCutOff

theorem formed_execLineFault_t {port : Fin 32} {s t : State} (he : execLineFault port s = .next t) (hs : Formed s) : Formed t := by
  unfold execLineFault at he; injection he with he; subst he
  with_reducible repeat' first | intro _ | assumption | apply formed_whenHeard | apply formed_lineFault

theorem formed_execLineFaultCleared_t {port : Fin 32} {s t : State} (he : execLineFaultCleared port s = .next t) (hs : Formed s) : Formed t := by
  unfold execLineFaultCleared at he; injection he with he; subst he
  with_reducible repeat' first | intro _ | assumption | apply formed_whenHeard | apply formed_lineFaultCleared

theorem formed_execRoundConvert_t {port : Fin 32} {s t : State} (he : execRoundConvert port s = .next t) (hs : Formed s) : Formed t := by
  unfold execRoundConvert at he; injection he with he; subst he
  with_reducible repeat' first | intro _ | assumption | apply formed_beginRound

theorem formed_execRoundRead_t {port : Fin 32} {s t : State} (he : execRoundRead port s = .next t) (hs : Formed s) : Formed t := by
  unfold execRoundRead at he; injection he with he; subst he
  with_reducible repeat' first | intro _ | assumption | apply formed_beginRound

theorem formed_execRoundLetterbox_t {port : Fin 32} {s t : State} (he : execRoundLetterbox port s = .next t) (hs : Formed s) : Formed t := by
  unfold execRoundLetterbox at he; injection he with he; subst he
  with_reducible repeat' first | intro _ | assumption | apply formed_beginRound

theorem formed_execRoundEnrol_t {port : Fin 32} {s t : State} (he : execRoundEnrol port s = .next t) (hs : Formed s) : Formed t := by
  unfold execRoundEnrol at he; injection he with he; subst he
  with_reducible repeat' first | intro _ | assumption | apply formed_beginRound

theorem formed_execRoundMaint_t {port : Fin 32} {s t : State} (he : execRoundMaint port s = .next t) (hs : Formed s) : Formed t := by
  unfold execRoundMaint at he; injection he with he; subst he
  with_reducible repeat' first | intro _ | assumption | apply formed_beginRound

theorem formed_execRoundBoundary_t {port : Fin 32} {s t : State} (he : execRoundBoundary port s = .next t) (hs : Formed s) : Formed t := by
  unfold execRoundBoundary at he; injection he with he; subst he
  with_reducible repeat' first | intro _ | assumption | apply formed_roundBoundary

theorem formed_execCommandWaitEnd_t {port : Fin 32} {s t : State} (he : execCommandWaitEnd port s = .next t) (hs : Formed s) : Formed t := by
  unfold execCommandWaitEnd at he; injection he with he; subst he
  with_reducible repeat' first | intro _ | assumption | apply formed_commandWaitEnd

theorem formed_execAutoRestartExpiry_t {port : Fin 32} {s t : State} (he : execAutoRestartExpiry port s = .next t) (hs : Formed s) : Formed t := by
  unfold execAutoRestartExpiry at he; injection he with he; subst he
  with_reducible repeat' first | intro _ | assumption | apply formed_autoRestart

theorem formed_execPortRestart_t {writer : Fin 256} {port : Fin 32} {s t : State} (he : execPortRestart writer port s = .next t) (hs : Formed s) : Formed t := by
  unfold execPortRestart at he; injection he with he; subst he
  with_reducible repeat' first | intro _ | assumption | apply formed_registerWrite

theorem formed_execCloseWaitExpiry_t {port : Fin 32} {s t : State} (he : execCloseWaitExpiry port s = .next t) (hs : Formed s) : Formed t := by
  unfold execCloseWaitExpiry at he; injection he with he; subst he
  with_reducible repeat' first | intro _ | assumption | apply formed_closeWaitExpiry

theorem formed_execFenceWrite_t {writer : Fin 256} {port : Fin 32} {fence : Fin 8} {val : Word} {s t : State} (he : execFenceWrite writer port fence val s = .next t) (hs : Formed s) : Formed t := by
  unfold execFenceWrite at he; injection he with he; subst he
  with_reducible repeat' first | intro _ | assumption | apply formed_registerWrite

theorem formed_execMailboxWrite_t {writer : Fin 256} {port : Fin 32} {val : Word} {s t : State} (he : execMailboxWrite writer port val s = .next t) (hs : Formed s) : Formed t := by
  unfold execMailboxWrite at he; injection he with he; subst he
  with_reducible repeat' first | intro _ | assumption | apply formed_registerWrite

theorem formed_execPassGateOpen_t {port : Fin 32} {s t : State} (he : execPassGateOpen port s = .next t) (hs : Formed s) : Formed t := by
  unfold execPassGateOpen at he; injection he with he; subst he
  with_reducible repeat' first | intro _ | assumption | apply formed_gateOpen

theorem formed_execTtRunSet_t {writer : Fin 256} {s t : State} (he : execTtRunSet writer s = .next t) (hs : Formed s) : Formed t := by
  unfold execTtRunSet at he; injection he with he; subst he
  with_reducible repeat' first | intro _ | assumption | apply formed_registerModify

theorem formed_execTtRunClear_t {writer : Fin 256} {s t : State} (he : execTtRunClear writer s = .next t) (hs : Formed s) : Formed t := by
  unfold execTtRunClear at he; injection he with he; subst he
  with_reducible repeat' first | intro _ | assumption | apply formed_registerModify

theorem formed_execTtAheadWrite_t {writer : Fin 256} {ahead : Fin 16} {s t : State} (he : execTtAheadWrite writer ahead s = .next t) (hs : Formed s) : Formed t := by
  unfold execTtAheadWrite at he; injection he with he; subst he
  with_reducible repeat' first | intro _ | assumption | apply formed_registerModify

theorem formed_execSlotWrite_t {writer : Fin 256} {hi : Word} {s t : State} (he : execSlotWrite writer hi s = .next t) (hs : Formed s) : Formed t := by
  unfold execSlotWrite at he; injection he with he; subst he
  with_reducible repeat' first | intro _ | assumption | apply formed_registerWrite

theorem formed_execSlotRead_t {reader : Fin 256} {s t : State} (he : execSlotRead reader s = .next t) (hs : Formed s) : Formed t := by
  unfold execSlotRead at he; injection he with he; subst he
  with_reducible repeat' first | intro _ | assumption | apply formed_registerRead

theorem formed_execTimetableCopy_t {writer : Fin 256} {s t : State} (he : execTimetableCopy writer s = .next t) (hs : Formed s) : Formed t := by
  unfold execTimetableCopy at he; injection he with he; subst he
  with_reducible repeat' first | intro _ | assumption | apply formed_registerWrite

theorem formed_execCopyComplete_t {s t : State} (he : execCopyComplete s = .next t) (hs : Formed s) : Formed t := by
  unfold execCopyComplete at he; injection he with he; subst he
  with_reducible repeat' first | intro _ | assumption | apply formed_copyComplete

theorem formed_execTimetableSwap_t {writer : Fin 256} {s t : State} (he : execTimetableSwap writer s = .next t) (hs : Formed s) : Formed t := by
  unfold execTimetableSwap at he; injection he with he; subst he
  with_reducible repeat' first | intro _ | assumption | apply formed_registerWrite

theorem formed_execSlotEdit_t {writer : Fin 256} {hi : Word} {s t : State} (he : execSlotEdit writer hi s = .next t) (hs : Formed s) : Formed t := by
  unfold execSlotEdit at he; injection he with he; subst he
  with_reducible repeat' first | intro _ | assumption | apply formed_registerWrite

theorem formed_execTrendReading_t {port : Fin 32} {s t : State} (he : execTrendReading port s = .next t) (hs : Formed s) : Formed t := by
  unfold execTrendReading at he; injection he with he; subst he
  with_reducible repeat' first | intro _ | assumption | apply formed_trendReading

theorem formed_execFieldReport_t {port : Fin 32} {s t : State} (he : execFieldReport port s = .next t) (hs : Formed s) : Formed t := by
  unfold execFieldReport at he; injection he with he; subst he
  with_reducible repeat' first | intro _ | assumption | apply formed_trendReport

theorem formed_execLetterOffer_t {s t : State} (he : execLetterOffer s = .next t) (hs : Formed s) : Formed t := by
  unfold execLetterOffer at he; injection he with he; subst he
  with_reducible repeat' first | intro _ | assumption | apply formed_letterOffer

theorem formed_execBudgetWrite_t {writer : Fin 256} {budget : Budget} {val : Word} {s t : State} (he : execBudgetWrite writer budget val s = .next t) (hs : Formed s) : Formed t := by
  unfold execBudgetWrite at he; injection he with he; subst he
  with_reducible repeat' first | intro _ | assumption | apply formed_registerWrite

theorem formed_execOutboxPop_t {writer : Fin 256} {count : Word} {s t : State} (he : execOutboxPop writer count s = .next t) (hs : Formed s) : Formed t := by
  unfold execOutboxPop at he; injection he with he; subst he
  with_reducible repeat' first | intro _ | assumption | apply formed_registerWrite

theorem formed_execBellEnableWrite_t {writer : Fin 256} {on : Bool} {s t : State} (he : execBellEnableWrite writer on s = .next t) (hs : Formed s) : Formed t := by
  unfold execBellEnableWrite at he; injection he with he; subst he
  with_reducible repeat' first | intro _ | assumption | apply formed_registerModify

theorem formed_execRedelivery_t {s t : State} (he : execRedelivery s = .next t) (hs : Formed s) : Formed t := by
  unfold execRedelivery at he; injection he with he; subst he
  with_reducible repeat' first | intro _ | assumption | apply formed_redeliver

theorem formed_execClassWindowOpen_t {cls : Fin 3} {s t : State} (he : execClassWindowOpen cls s = .next t) (hs : Formed s) : Formed t := by
  unfold execClassWindowOpen at he; injection he with he; subst he
  with_reducible repeat' first | intro _ | assumption | apply formed_classWindowOpen

theorem formed_execNop_t {core : Fin 65} {s t : State} (he : execNop core s = .next t) (hs : Formed s) : Formed t := by
  unfold execNop at he; injection he with he; subst he
  with_reducible repeat' first | intro _ | assumption | apply formed_coreInstr

theorem formed_execWait_t {core : Fin 65} {s t : State} (he : execWait core s = .next t) (hs : Formed s) : Formed t := by
  unfold execWait at he; injection he with he; subst he
  with_reducible repeat' first | intro _ | assumption | apply formed_coreInstr

theorem formed_execRet_t {core : Fin 65} {s t : State} (he : execRet core s = .next t) (hs : Formed s) : Formed t := by
  unfold execRet at he; injection he with he; subst he
  with_reducible repeat' first | intro _ | assumption | apply formed_coreInstr

theorem formed_execRti_t {core : Fin 65} {s t : State} (he : execRti core s = .next t) (hs : Formed s) : Formed t := by
  unfold execRti at he; injection he with he; subst he
  with_reducible repeat' first | intro _ | assumption | apply formed_coreInstr

theorem formed_execSetf_t {core : Fin 65} {s t : State} (he : execSetf core s = .next t) (hs : Formed s) : Formed t := by
  unfold execSetf at he; injection he with he; subst he
  with_reducible repeat' first | intro _ | assumption | apply formed_coreInstr

theorem formed_execClrf_t {core : Fin 65} {s t : State} (he : execClrf core s = .next t) (hs : Formed s) : Formed t := by
  unfold execClrf at he; injection he with he; subst he
  with_reducible repeat' first | intro _ | assumption | apply formed_coreInstr

theorem formed_execAdd_t {core : Fin 65} {s t : State} (he : execAdd core s = .next t) (hs : Formed s) : Formed t := by
  unfold execAdd at he; injection he with he; subst he
  with_reducible repeat' first | intro _ | assumption | apply formed_coreInstr

theorem formed_execAdc_t {core : Fin 65} {s t : State} (he : execAdc core s = .next t) (hs : Formed s) : Formed t := by
  unfold execAdc at he; injection he with he; subst he
  with_reducible repeat' first | intro _ | assumption | apply formed_coreInstr

theorem formed_execSub_t {core : Fin 65} {s t : State} (he : execSub core s = .next t) (hs : Formed s) : Formed t := by
  unfold execSub at he; injection he with he; subst he
  with_reducible repeat' first | intro _ | assumption | apply formed_coreInstr

theorem formed_execSbc_t {core : Fin 65} {s t : State} (he : execSbc core s = .next t) (hs : Formed s) : Formed t := by
  unfold execSbc at he; injection he with he; subst he
  with_reducible repeat' first | intro _ | assumption | apply formed_coreInstr

theorem formed_execAnd_t {core : Fin 65} {s t : State} (he : execAnd core s = .next t) (hs : Formed s) : Formed t := by
  unfold execAnd at he; injection he with he; subst he
  with_reducible repeat' first | intro _ | assumption | apply formed_coreInstr

theorem formed_execOr_t {core : Fin 65} {s t : State} (he : execOr core s = .next t) (hs : Formed s) : Formed t := by
  unfold execOr at he; injection he with he; subst he
  with_reducible repeat' first | intro _ | assumption | apply formed_coreInstr

theorem formed_execXor_t {core : Fin 65} {s t : State} (he : execXor core s = .next t) (hs : Formed s) : Formed t := by
  unfold execXor at he; injection he with he; subst he
  with_reducible repeat' first | intro _ | assumption | apply formed_coreInstr

theorem formed_execCmp_t {core : Fin 65} {s t : State} (he : execCmp core s = .next t) (hs : Formed s) : Formed t := by
  unfold execCmp at he; injection he with he; subst he
  with_reducible repeat' first | intro _ | assumption | apply formed_coreInstr

theorem formed_execLda_t {core : Fin 65} {s t : State} (he : execLda core s = .next t) (hs : Formed s) : Formed t := by
  unfold execLda at he; injection he with he; subst he
  with_reducible repeat' first | intro _ | assumption | apply formed_coreInstr

theorem formed_execSta_t {core : Fin 65} {s t : State} (he : execSta core s = .next t) (hs : Formed s) : Formed t := by
  unfold execSta at he; injection he with he; subst he
  with_reducible repeat' first | intro _ | assumption | apply formed_coreInstr

theorem formed_execLdx_t {core : Fin 65} {s t : State} (he : execLdx core s = .next t) (hs : Formed s) : Formed t := by
  unfold execLdx at he; injection he with he; subst he
  with_reducible repeat' first | intro _ | assumption | apply formed_coreInstr

theorem formed_execStx_t {core : Fin 65} {s t : State} (he : execStx core s = .next t) (hs : Formed s) : Formed t := by
  unfold execStx at he; injection he with he; subst he
  with_reducible repeat' first | intro _ | assumption | apply formed_coreInstr

theorem formed_execLdy_t {core : Fin 65} {s t : State} (he : execLdy core s = .next t) (hs : Formed s) : Formed t := by
  unfold execLdy at he; injection he with he; subst he
  with_reducible repeat' first | intro _ | assumption | apply formed_coreInstr

theorem formed_execSty_t {core : Fin 65} {s t : State} (he : execSty core s = .next t) (hs : Formed s) : Formed t := by
  unfold execSty at he; injection he with he; subst he
  with_reducible repeat' first | intro _ | assumption | apply formed_coreInstr

theorem formed_execTax_t {core : Fin 65} {s t : State} (he : execTax core s = .next t) (hs : Formed s) : Formed t := by
  unfold execTax at he; injection he with he; subst he
  with_reducible repeat' first | intro _ | assumption | apply formed_coreInstr

theorem formed_execTay_t {core : Fin 65} {s t : State} (he : execTay core s = .next t) (hs : Formed s) : Formed t := by
  unfold execTay at he; injection he with he; subst he
  with_reducible repeat' first | intro _ | assumption | apply formed_coreInstr

theorem formed_execTya_t {core : Fin 65} {s t : State} (he : execTya core s = .next t) (hs : Formed s) : Formed t := by
  unfold execTya at he; injection he with he; subst he
  with_reducible repeat' first | intro _ | assumption | apply formed_coreInstr

theorem formed_execTxy_t {core : Fin 65} {s t : State} (he : execTxy core s = .next t) (hs : Formed s) : Formed t := by
  unfold execTxy at he; injection he with he; subst he
  with_reducible repeat' first | intro _ | assumption | apply formed_coreInstr

theorem formed_execTyx_t {core : Fin 65} {s t : State} (he : execTyx core s = .next t) (hs : Formed s) : Formed t := by
  unfold execTyx at he; injection he with he; subst he
  with_reducible repeat' first | intro _ | assumption | apply formed_coreInstr

theorem formed_execInc_t {core : Fin 65} {s t : State} (he : execInc core s = .next t) (hs : Formed s) : Formed t := by
  unfold execInc at he; injection he with he; subst he
  with_reducible repeat' first | intro _ | assumption | apply formed_coreInstr

theorem formed_execDec_t {core : Fin 65} {s t : State} (he : execDec core s = .next t) (hs : Formed s) : Formed t := by
  unfold execDec at he; injection he with he; subst he
  with_reducible repeat' first | intro _ | assumption | apply formed_coreInstr

theorem formed_execShl_t {core : Fin 65} {s t : State} (he : execShl core s = .next t) (hs : Formed s) : Formed t := by
  unfold execShl at he; injection he with he; subst he
  with_reducible repeat' first | intro _ | assumption | apply formed_coreInstr

theorem formed_execShr_t {core : Fin 65} {s t : State} (he : execShr core s = .next t) (hs : Formed s) : Formed t := by
  unfold execShr at he; injection he with he; subst he
  with_reducible repeat' first | intro _ | assumption | apply formed_coreInstr

theorem formed_execSar_t {core : Fin 65} {s t : State} (he : execSar core s = .next t) (hs : Formed s) : Formed t := by
  unfold execSar at he; injection he with he; subst he
  with_reducible repeat' first | intro _ | assumption | apply formed_coreInstr

theorem formed_execRol_t {core : Fin 65} {s t : State} (he : execRol core s = .next t) (hs : Formed s) : Formed t := by
  unfold execRol at he; injection he with he; subst he
  with_reducible repeat' first | intro _ | assumption | apply formed_coreInstr

theorem formed_execRor_t {core : Fin 65} {s t : State} (he : execRor core s = .next t) (hs : Formed s) : Formed t := by
  unfold execRor at he; injection he with he; subst he
  with_reducible repeat' first | intro _ | assumption | apply formed_coreInstr

theorem formed_execNot_t {core : Fin 65} {s t : State} (he : execNot core s = .next t) (hs : Formed s) : Formed t := by
  unfold execNot at he; injection he with he; subst he
  with_reducible repeat' first | intro _ | assumption | apply formed_coreInstr

theorem formed_execNeg_t {core : Fin 65} {s t : State} (he : execNeg core s = .next t) (hs : Formed s) : Formed t := by
  unfold execNeg at he; injection he with he; subst he
  with_reducible repeat' first | intro _ | assumption | apply formed_coreInstr

theorem formed_execMul_t {core : Fin 65} {s t : State} (he : execMul core s = .next t) (hs : Formed s) : Formed t := by
  unfold execMul at he; injection he with he; subst he
  with_reducible repeat' first | intro _ | assumption | apply formed_coreInstr

theorem formed_execCpx_t {core : Fin 65} {s t : State} (he : execCpx core s = .next t) (hs : Formed s) : Formed t := by
  unfold execCpx at he; injection he with he; subst he
  with_reducible repeat' first | intro _ | assumption | apply formed_coreInstr

theorem formed_execCpy_t {core : Fin 65} {s t : State} (he : execCpy core s = .next t) (hs : Formed s) : Formed t := by
  unfold execCpy at he; injection he with he; subst he
  with_reducible repeat' first | intro _ | assumption | apply formed_coreInstr

theorem formed_execTst_t {core : Fin 65} {s t : State} (he : execTst core s = .next t) (hs : Formed s) : Formed t := by
  unfold execTst at he; injection he with he; subst he
  with_reducible repeat' first | intro _ | assumption | apply formed_coreInstr

theorem formed_execIncw_t {core : Fin 65} {s t : State} (he : execIncw core s = .next t) (hs : Formed s) : Formed t := by
  unfold execIncw at he; injection he with he; subst he
  with_reducible repeat' first | intro _ | assumption | apply formed_coreInstr

theorem formed_execDecw_t {core : Fin 65} {s t : State} (he : execDecw core s = .next t) (hs : Formed s) : Formed t := by
  unfold execDecw at he; injection he with he; subst he
  with_reducible repeat' first | intro _ | assumption | apply formed_coreInstr

theorem formed_execLdp_t {core : Fin 65} {s t : State} (he : execLdp core s = .next t) (hs : Formed s) : Formed t := by
  unfold execLdp at he; injection he with he; subst he
  with_reducible repeat' first | intro _ | assumption | apply formed_coreInstr

theorem formed_execLdq_t {core : Fin 65} {s t : State} (he : execLdq core s = .next t) (hs : Formed s) : Formed t := by
  unfold execLdq at he; injection he with he; subst he
  with_reducible repeat' first | intro _ | assumption | apply formed_coreInstr

theorem formed_execStp_t {core : Fin 65} {s t : State} (he : execStp core s = .next t) (hs : Formed s) : Formed t := by
  unfold execStp at he; injection he with he; subst he
  with_reducible repeat' first | intro _ | assumption | apply formed_coreInstr

theorem formed_execStq_t {core : Fin 65} {s t : State} (he : execStq core s = .next t) (hs : Formed s) : Formed t := by
  unfold execStq at he; injection he with he; subst he
  with_reducible repeat' first | intro _ | assumption | apply formed_coreInstr

theorem formed_execAddp_t {core : Fin 65} {s t : State} (he : execAddp core s = .next t) (hs : Formed s) : Formed t := by
  unfold execAddp at he; injection he with he; subst he
  with_reducible repeat' first | intro _ | assumption | apply formed_coreInstr

theorem formed_execAddq_t {core : Fin 65} {s t : State} (he : execAddq core s = .next t) (hs : Formed s) : Formed t := by
  unfold execAddq at he; injection he with he; subst he
  with_reducible repeat' first | intro _ | assumption | apply formed_coreInstr

theorem formed_execXpq_t {core : Fin 65} {s t : State} (he : execXpq core s = .next t) (hs : Formed s) : Formed t := by
  unfold execXpq at he; injection he with he; subst he
  with_reducible repeat' first | intro _ | assumption | apply formed_coreInstr

theorem formed_execLdsp_t {core : Fin 65} {s t : State} (he : execLdsp core s = .next t) (hs : Formed s) : Formed t := by
  unfold execLdsp at he; injection he with he; subst he
  with_reducible repeat' first | intro _ | assumption | apply formed_coreInstr

theorem formed_execTsp_t {core : Fin 65} {s t : State} (he : execTsp core s = .next t) (hs : Formed s) : Formed t := by
  unfold execTsp at he; injection he with he; subst he
  with_reducible repeat' first | intro _ | assumption | apply formed_coreInstr

theorem formed_execTps_t {core : Fin 65} {s t : State} (he : execTps core s = .next t) (hs : Formed s) : Formed t := by
  unfold execTps at he; injection he with he; subst he
  with_reducible repeat' first | intro _ | assumption | apply formed_coreInstr

theorem formed_execTxap_t {core : Fin 65} {s t : State} (he : execTxap core s = .next t) (hs : Formed s) : Formed t := by
  unfold execTxap at he; injection he with he; subst he
  with_reducible repeat' first | intro _ | assumption | apply formed_coreInstr

theorem formed_execTpxa_t {core : Fin 65} {s t : State} (he : execTpxa core s = .next t) (hs : Formed s) : Formed t := by
  unfold execTpxa at he; injection he with he; subst he
  with_reducible repeat' first | intro _ | assumption | apply formed_coreInstr

theorem formed_execLdc_t {core : Fin 65} {s t : State} (he : execLdc core s = .next t) (hs : Formed s) : Formed t := by
  unfold execLdc at he; injection he with he; subst he
  with_reducible repeat' first | intro _ | assumption | apply formed_coreInstr

theorem formed_execTxac_t {core : Fin 65} {s t : State} (he : execTxac core s = .next t) (hs : Formed s) : Formed t := by
  unfold execTxac at he; injection he with he; subst he
  with_reducible repeat' first | intro _ | assumption | apply formed_coreInstr

theorem formed_execLoop_t {core : Fin 65} {s t : State} (he : execLoop core s = .next t) (hs : Formed s) : Formed t := by
  unfold execLoop at he; injection he with he; subst he
  with_reducible repeat' first | intro _ | assumption | apply formed_coreInstr

theorem formed_execTcxa_t {core : Fin 65} {s t : State} (he : execTcxa core s = .next t) (hs : Formed s) : Formed t := by
  unfold execTcxa at he; injection he with he; subst he
  with_reducible repeat' first | intro _ | assumption | apply formed_coreInstr

theorem formed_execPush_t {core : Fin 65} {s t : State} (he : execPush core s = .next t) (hs : Formed s) : Formed t := by
  unfold execPush at he; injection he with he; subst he
  with_reducible repeat' first | intro _ | assumption | apply formed_coreInstr

theorem formed_execPull_t {core : Fin 65} {s t : State} (he : execPull core s = .next t) (hs : Formed s) : Formed t := by
  unfold execPull at he; injection he with he; subst he
  with_reducible repeat' first | intro _ | assumption | apply formed_coreInstr

theorem formed_execCpp_t {core : Fin 65} {s t : State} (he : execCpp core s = .next t) (hs : Formed s) : Formed t := by
  unfold execCpp at he; injection he with he; subst he
  with_reducible repeat' first | intro _ | assumption | apply formed_coreInstr

theorem formed_execCpq_t {core : Fin 65} {s t : State} (he : execCpq core s = .next t) (hs : Formed s) : Formed t := by
  unfold execCpq at he; injection he with he; subst he
  with_reducible repeat' first | intro _ | assumption | apply formed_coreInstr

theorem formed_execBranch_t {core : Fin 65} {s t : State} (he : execBranch core s = .next t) (hs : Formed s) : Formed t := by
  unfold execBranch at he; injection he with he; subst he
  with_reducible repeat' first | intro _ | assumption | apply formed_coreInstr

theorem formed_execJmp_t {core : Fin 65} {s t : State} (he : execJmp core s = .next t) (hs : Formed s) : Formed t := by
  unfold execJmp at he; injection he with he; subst he
  with_reducible repeat' first | intro _ | assumption | apply formed_coreInstr

theorem formed_execCall_t {core : Fin 65} {s t : State} (he : execCall core s = .next t) (hs : Formed s) : Formed t := by
  unfold execCall at he; injection he with he; subst he
  with_reducible repeat' first | intro _ | assumption | apply formed_coreInstr

theorem formed_execMovb_t {core : Fin 65} {s t : State} (he : execMovb core s = .next t) (hs : Formed s) : Formed t := by
  unfold execMovb at he; injection he with he; subst he
  with_reducible repeat' first | intro _ | assumption | apply formed_coreInstr

theorem formed_execFill_t {core : Fin 65} {s t : State} (he : execFill core s = .next t) (hs : Formed s) : Formed t := by
  unfold execFill at he; injection he with he; subst he
  with_reducible repeat' first | intro _ | assumption | apply formed_coreInstr

theorem formed_execScan_t {core : Fin 65} {s t : State} (he : execScan core s = .next t) (hs : Formed s) : Formed t := by
  unfold execScan at he; injection he with he; subst he
  with_reducible repeat' first | intro _ | assumption | apply formed_coreInstr

theorem formed_execCmpb_t {core : Fin 65} {s t : State} (he : execCmpb core s = .next t) (hs : Formed s) : Formed t := by
  unfold execCmpb at he; injection he with he; subst he
  with_reducible repeat' first | intro _ | assumption | apply formed_coreInstr

theorem formed_execLodb_t {core : Fin 65} {s t : State} (he : execLodb core s = .next t) (hs : Formed s) : Formed t := by
  unfold execLodb at he; injection he with he; subst he
  with_reducible repeat' first | intro _ | assumption | apply formed_coreInstr

theorem formed_execAdcb_t {core : Fin 65} {s t : State} (he : execAdcb core s = .next t) (hs : Formed s) : Formed t := by
  unfold execAdcb at he; injection he with he; subst he
  with_reducible repeat' first | intro _ | assumption | apply formed_coreInstr

theorem formed_execSbcb_t {core : Fin 65} {s t : State} (he : execSbcb core s = .next t) (hs : Formed s) : Formed t := by
  unfold execSbcb at he; injection he with he; subst he
  with_reducible repeat' first | intro _ | assumption | apply formed_coreInstr

theorem formed_execRpt_t {core : Fin 65} {reps : Nat} {s t : State} (he : execRpt core reps s = .next t) (hs : Formed s) : Formed t := by
  unfold execRpt at he; injection he with he; subst he
  with_reducible repeat' first | intro _ | assumption | apply formed_coreRpt

theorem formed_execUndefinedOpcode_t {core : Fin 65} {s t : State} (he : execUndefinedOpcode core s = .next t) (hs : Formed s) : Formed t := by
  unfold execUndefinedOpcode at he; injection he with he; subst he
  with_reducible repeat' first | intro _ | assumption | apply formed_coreUndefined

theorem formed_execWaitResume_t {core : Fin 65} {s t : State} (he : execWaitResume core s = .next t) (hs : Formed s) : Formed t := by
  unfold execWaitResume at he; injection he with he; subst he
  with_reducible repeat' first | intro _ | assumption | apply formed_waitResume

theorem formed_execEventInterrupt_t {core : Fin 65} {s t : State} (he : execEventInterrupt core s = .next t) (hs : Formed s) : Formed t := by
  unfold execEventInterrupt at he; injection he with he; subst he
  with_reducible repeat' first | intro _ | assumption | apply formed_eventInterrupt

theorem formed_execEventRecordArrival_t {core : Fin 65} {record : List Byte} {s t : State} (he : execEventRecordArrival core record s = .next t) (hs : Formed s) : Formed t := by
  unfold execEventRecordArrival at he; injection he with he; subst he
  with_reducible repeat' first | intro _ | assumption | apply formed_eventArrival

theorem formed_execCoreStart_t {writer : Fin 256} {core : Fin 65} {s t : State} (he : execCoreStart writer core s = .next t) (hs : Formed s) : Formed t := by
  unfold execCoreStart at he; injection he with he; subst he
  with_reducible repeat' first | intro _ | assumption | apply formed_registerModify

theorem formed_execCoreStop_t {writer : Fin 256} {core : Fin 65} {s t : State} (he : execCoreStop writer core s = .next t) (hs : Formed s) : Formed t := by
  unfold execCoreStop at he; injection he with he; subst he
  with_reducible repeat' first | intro _ | assumption | apply formed_registerModify

theorem formed_execCoreFresh_t {writer : Fin 256} {core : Fin 65} {s t : State} (he : execCoreFresh writer core s = .next t) (hs : Formed s) : Formed t := by
  unfold execCoreFresh at he; injection he with he; subst he
  with_reducible repeat' first | intro _ | assumption | apply formed_registerModify

theorem formed_execCoreMemoryWrite_t {writer : Fin 256} {core : Fin 65} {val : Byte} {s t : State} (he : execCoreMemoryWrite writer core val s = .next t) (hs : Formed s) : Formed t := by
  unfold execCoreMemoryWrite at he; injection he with he; subst he
  with_reducible repeat' first | intro _ | assumption | apply formed_registerWrite

theorem formed_execCoreMemoryRead_t {reader : Fin 256} {core : Fin 65} {s t : State} (he : execCoreMemoryRead reader core s = .next t) (hs : Formed s) : Formed t := by
  unfold execCoreMemoryRead at he; injection he with he; subst he
  with_reducible repeat' first | intro _ | assumption | apply formed_registerRead

theorem formed_execCoreSel_t {unit : Byte} {s t : State} (he : execCoreSel unit s = .next t) (hs : Formed s) : Formed t := by
  unfold execCoreSel at he; injection he with he; subst he
  with_reducible repeat' first | intro _ | assumption | apply formed_tapCoreSel

theorem formed_execCoreHalt_t {s t : State} (he : execCoreHalt s = .next t) (hs : Formed s) : Formed t := by
  unfold execCoreHalt at he; injection he with he; subst he
  with_reducible repeat' first | intro _ | assumption | apply formed_tapCoreHalt

theorem formed_execCoreStep_t {s t : State} (he : execCoreStep s = .next t) (hs : Formed s) : Formed t := by
  unfold execCoreStep at he; injection he with he; subst he
  with_reducible repeat' first | intro _ | assumption | apply formed_tapCoreStep

theorem formed_execCoreResume_t {s t : State} (he : execCoreResume s = .next t) (hs : Formed s) : Formed t := by
  unfold execCoreResume at he; injection he with he; subst he
  with_reducible repeat' first | intro _ | assumption | apply formed_tapCoreResume

theorem formed_execCoreRegs_t {regs : Option (BitVec 128)} {s t : State} (he : execCoreRegs regs s = .next t) (hs : Formed s) : Formed t := by
  unfold execCoreRegs at he; injection he with he; subst he
  with_reducible repeat' first | intro _ | assumption | apply formed_tapCoreRegs

theorem formed_execIdcode_t {s t : State} (he : execIdcode s = .next t) (hs : Formed s) : Formed t := by
  unfold execIdcode at he; injection he with he; subst he
  with_reducible repeat' first | intro _ | assumption | apply formed_tapIdcode

theorem formed_execSamplePreload_t {levels : List Bool} {load : Option (List Bool)} {s t : State} (he : execSamplePreload levels load s = .next t) (hs : Formed s) : Formed t := by
  unfold execSamplePreload at he; injection he with he; subst he
  with_reducible repeat' first | intro _ | assumption | apply formed_tapSample

theorem formed_execExtest_t {levels : List Bool} {load : Option (List Bool)} {s t : State} (he : execExtest levels load s = .next t) (hs : Formed s) : Formed t := by
  unfold execExtest at he; injection he with he; subst he
  with_reducible repeat' first | intro _ | assumption | apply formed_tapExtest

theorem formed_execHighz_t {s t : State} (he : execHighz s = .next t) (hs : Formed s) : Formed t := by
  unfold execHighz at he; injection he with he; subst he
  with_reducible repeat' first | intro _ | assumption | apply formed_tapHighz

theorem formed_execClamp_t {s t : State} (he : execClamp s = .next t) (hs : Formed s) : Formed t := by
  unfold execClamp at he; injection he with he; subst he
  with_reducible repeat' first | intro _ | assumption | apply formed_tapClamp

theorem formed_execBypass_t {s t : State} (he : execBypass s = .next t) (hs : Formed s) : Formed t := by
  unfold execBypass at he; injection he with he; subst he
  with_reducible repeat' first | intro _ | assumption | apply formed_tapBypass

theorem formed_execPresenceDetected_t {link : Fin 4} {s t : State} (he : execPresenceDetected link s = .next t) (hs : Formed s) : Formed t := by
  unfold execPresenceDetected at he; injection he with he; subst he
  with_reducible repeat' first | intro _ | assumption | apply formed_whenPowered | apply formed_presenceDetected

theorem formed_execPresenceLost_t {link : Fin 4} {s t : State} (he : execPresenceLost link s = .next t) (hs : Formed s) : Formed t := by
  unfold execPresenceLost at he; injection he with he; subst he
  with_reducible repeat' first | intro _ | assumption | apply formed_whenPowered | apply formed_presenceLost

theorem formed_execTrainingComplete_t {link : Fin 4} {uid : BitVec 64} {s t : State} (he : execTrainingComplete link uid s = .next t) (hs : Formed s) : Formed t := by
  unfold execTrainingComplete at he; injection he with he; subst he
  with_reducible repeat' first | intro _ | assumption | apply formed_trainingComplete

theorem formed_execTrainingTimeout_t {link : Fin 4} {s t : State} (he : execTrainingTimeout link s = .next t) (hs : Formed s) : Formed t := by
  unfold execTrainingTimeout at he; injection he with he; subst he
  with_reducible repeat' first | intro _ | assumption | apply formed_trainingTimeout

theorem formed_execWordLockLoss_t {link : Fin 4} {s t : State} (he : execWordLockLoss link s = .next t) (hs : Formed s) : Formed t := by
  unfold execWordLockLoss at he; injection he with he; subst he
  with_reducible repeat' first | intro _ | assumption | apply formed_wordLockLoss

theorem formed_execLinkFrameBoundary_t {link : Fin 4} {frac : BitVec 24} {s t : State} (he : execLinkFrameBoundary link frac s = .next t) (hs : Formed s) : Formed t := by
  unfold execLinkFrameBoundary at he; injection he with he; subst he
  with_reducible repeat' first | intro _ | assumption | apply formed_linkFrameBoundary

theorem formed_execTrainingPauseEnd_t {link : Fin 4} {s t : State} (he : execTrainingPauseEnd link s = .next t) (hs : Formed s) : Formed t := by
  unfold execTrainingPauseEnd at he; injection he with he; subst he
  with_reducible repeat' first | intro _ | assumption | apply formed_trainingPauseEnd

theorem formed_execWordLockGained_t {link : Fin 4} {s t : State} (he : execWordLockGained link s = .next t) (hs : Formed s) : Formed t := by
  unfold execWordLockGained at he; injection he with he; subst he
  with_reducible repeat' first | intro _ | assumption | apply formed_wordLockGained

theorem formed_execLetter_t {link : Fin 4} {frame : RxFrame} {s t : State} (he : execLetter link frame s = .next t) (hs : Formed s) : Formed t := by
  unfold execLetter at he; injection he with he; subst he
  with_reducible repeat' first | intro _ | assumption | apply formed_receiveFrame | apply formed_takeLetter

theorem formed_execAck_t {link : Fin 4} {frame : RxFrame} {s t : State} (he : execAck link frame s = .next t) (hs : Formed s) : Formed t := by
  unfold execAck at he; injection he with he; subst he
  with_reducible repeat' first | intro _ | assumption | apply formed_receiveFrame | apply formed_takeAck

theorem formed_execHello_t {link : Fin 4} {frame : RxFrame} {s t : State} (he : execHello link frame s = .next t) (hs : Formed s) : Formed t := by
  unfold execHello at he; injection he with he; subst he
  with_reducible repeat' first | intro _ | assumption | apply formed_receiveFrame | apply formed_takeHello

theorem formed_execEnrol_t {link : Fin 4} {frame : RxFrame} {s t : State} (he : execEnrol link frame s = .next t) (hs : Formed s) : Formed t := by
  unfold execEnrol at he; injection he with he; subst he
  with_reducible repeat' first | intro _ | assumption | apply formed_receiveFrame | apply formed_takeEnrol

theorem formed_execWelcome_t {link : Fin 4} {frame : RxFrame} {s t : State} (he : execWelcome link frame s = .next t) (hs : Formed s) : Formed t := by
  unfold execWelcome at he; injection he with he; subst he
  with_reducible repeat' first | intro _ | assumption | apply formed_receiveFrame | apply formed_takeWelcome

theorem formed_execLeave_t {link : Fin 4} {frame : RxFrame} {s t : State} (he : execLeave link frame s = .next t) (hs : Formed s) : Formed t := by
  unfold execLeave at he; injection he with he; subst he
  with_reducible repeat' first | intro _ | assumption | apply formed_receiveFrame | apply formed_takeLeave

theorem formed_execPathLost_t {link : Fin 4} {frame : RxFrame} {s t : State} (he : execPathLost link frame s = .next t) (hs : Formed s) : Formed t := by
  unfold execPathLost at he; injection he with he; subst he
  with_reducible repeat' first | intro _ | assumption | apply formed_pathRow

theorem formed_execPathStands_t {link : Fin 4} {frame : RxFrame} {s t : State} (he : execPathStands link frame s = .next t) (hs : Formed s) : Formed t := by
  unfold execPathStands at he; injection he with he; subst he
  with_reducible repeat' first | intro _ | assumption | apply formed_pathRow

theorem formed_execPathRestored_t {link : Fin 4} {frame : RxFrame} {s t : State} (he : execPathRestored link frame s = .next t) (hs : Formed s) : Formed t := by
  unfold execPathRestored at he; injection he with he; subst he
  with_reducible repeat' first | intro _ | assumption | apply formed_pathRow

theorem formed_execPathNewhead_t {link : Fin 4} {frame : RxFrame} {s t : State} (he : execPathNewhead link frame s = .next t) (hs : Formed s) : Formed t := by
  unfold execPathNewhead at he; injection he with he; subst he
  with_reducible repeat' first | intro _ | assumption | apply formed_pathRow

theorem formed_execSyncTimer_t {link : Fin 4} {s t : State} (he : execSyncTimer link s = .next t) (hs : Formed s) : Formed t := by
  unfold execSyncTimer at he; injection he with he; subst he
  with_reducible repeat' first | intro _ | assumption | apply formed_syncTimer

theorem formed_execSync_t {link : Fin 4} {frac : BitVec 24} {frame : RxFrame} {s t : State} (he : execSync link frac frame s = .next t) (hs : Formed s) : Formed t := by
  unfold execSync at he; injection he with he; subst he
  with_reducible repeat' first | intro _ | assumption | apply formed_receiveFrame | apply formed_takeSync

theorem formed_execDreq_t {link : Fin 4} {frac : BitVec 24} {frame : RxFrame} {s t : State} (he : execDreq link frac frame s = .next t) (hs : Formed s) : Formed t := by
  unfold execDreq at he; injection he with he; subst he
  with_reducible repeat' first | intro _ | assumption | apply formed_receiveFrame | apply formed_takeDreq

theorem formed_execDresp_t {link : Fin 4} {frame : RxFrame} {s t : State} (he : execDresp link frame s = .next t) (hs : Formed s) : Formed t := by
  unfold execDresp at he; injection he with he; subst he
  with_reducible repeat' first | intro _ | assumption | apply formed_receiveFrame | apply formed_takeDresp

theorem formed_execRaReq_t {link : Fin 4} {frame : RxFrame} {s t : State} (he : execRaReq link frame s = .next t) (hs : Formed s) : Formed t := by
  unfold execRaReq at he; injection he with he; subst he
  with_reducible repeat' first | intro _ | assumption | apply formed_receiveFrame | apply formed_takeRaReq

theorem formed_execRaResp_t {link : Fin 4} {frame : RxFrame} {s t : State} (he : execRaResp link frame s = .next t) (hs : Formed s) : Formed t := by
  unfold execRaResp at he; injection he with he; subst he
  with_reducible repeat' first | intro _ | assumption | apply formed_receiveFrame | apply formed_takeRaResp

theorem formed_execIdmir_t {link : Fin 4} {complete : Bool} {frame : RxFrame} {s t : State} (he : execIdmir link complete frame s = .next t) (hs : Formed s) : Formed t := by
  unfold execIdmir at he; injection he with he; subst he
  with_reducible repeat' first | intro _ | assumption | apply formed_receiveFrame | apply formed_takeIdmir

theorem formed_execSyncTimeout_t {s t : State} (he : execSyncTimeout s = .next t) (hs : Formed s) : Formed t := by
  unfold execSyncTimeout at he; injection he with he; subst he
  with_reducible repeat' first | intro _ | assumption | apply formed_syncTimeout

theorem formed_execOutageHoldExpiry_t {link : Fin 4} {s t : State} (he : execOutageHoldExpiry link s = .next t) (hs : Formed s) : Formed t := by
  unfold execOutageHoldExpiry at he; injection he with he; subst he
  with_reducible repeat' first | intro _ | assumption | apply formed_outageHoldExpiry

theorem formed_execEnrolTimeout_t {s t : State} (he : execEnrolTimeout s = .next t) (hs : Formed s) : Formed t := by
  unfold execEnrolTimeout at he; injection he with he; subst he
  with_reducible repeat' first | intro _ | assumption | apply formed_enrolTimeout

theorem formed_execEnrolRetry_t {s t : State} (he : execEnrolRetry s = .next t) (hs : Formed s) : Formed t := by
  unfold execEnrolRetry at he; injection he with he; subst he
  with_reducible repeat' first | intro _ | assumption | apply formed_enrolRetry

theorem formed_execReenrol_t {writer : Fin 256} {s t : State} (he : execReenrol writer s = .next t) (hs : Formed s) : Formed t := by
  unfold execReenrol at he; injection he with he; subst he
  with_reducible repeat' first | intro _ | assumption | apply formed_registerWrite

theorem formed_execResync_t {writer : Fin 256} {s t : State} (he : execResync writer s = .next t) (hs : Formed s) : Formed t := by
  unfold execResync at he; injection he with he; subst he
  with_reducible repeat' first | intro _ | assumption | apply formed_registerWrite

theorem formed_execLinkDownWrite_t {writer : Fin 256} {link : Fin 4} {down : Bool} {s t : State} (he : execLinkDownWrite writer link down s = .next t) (hs : Formed s) : Formed t := by
  unfold execLinkDownWrite at he; injection he with he; subst he
  with_reducible repeat' first | intro _ | assumption | apply formed_registerModify

theorem formed_execRaRead_t {writer : Fin 256} {wordsM1 : Fin 8} {s t : State} (he : execRaRead writer wordsM1 s = .next t) (hs : Formed s) : Formed t := by
  unfold execRaRead at he; injection he with he; subst he
  with_reducible repeat' first | intro _ | assumption | apply formed_registerWrite

theorem formed_execRaWrite_t {writer : Fin 256} {wordsM1 : Fin 8} {s t : State} (he : execRaWrite writer wordsM1 s = .next t) (hs : Formed s) : Formed t := by
  unfold execRaWrite at he; injection he with he; subst he
  with_reducible repeat' first | intro _ | assumption | apply formed_registerWrite

theorem formed_execRaTimeout_t {channel : Fin 3} {s t : State} (he : execRaTimeout channel s = .next t) (hs : Formed s) : Formed t := by
  unfold execRaTimeout at he; injection he with he; subst he
  with_reducible repeat' first | intro _ | assumption | apply formed_raTimeout

theorem formed_execRdsr_t {s t : State} (he : execRdsr s = .next t) (hs : Formed s) : Formed t := by
  unfold execRdsr at he; injection he with he; subst he
  with_reducible repeat' first | intro _ | assumption | apply formed_rdsr

theorem formed_execReadId_t {s t : State} (he : execReadId s = .next t) (hs : Formed s) : Formed t := by
  unfold execReadId at he; injection he with he; subst he
  with_reducible repeat' first | intro _ | assumption | apply formed_readId

theorem formed_execRead_t {addr : Word} {count : Nat} {late : Option Nat} {s t : State} (he : execRead addr count late s = .next t) (hs : Formed s) : Formed t := by
  unfold execRead at he; injection he with he; subst he
  with_reducible repeat' first | intro _ | assumption | apply formed_hostReadCmd

theorem formed_execReadQ_t {addr : Word} {count : Nat} {late : Option Nat} {s t : State} (he : execReadQ addr count late s = .next t) (hs : Formed s) : Formed t := by
  unfold execReadQ at he; injection he with he; subst he
  with_reducible repeat' first | intro _ | assumption | apply formed_hostReadQ

theorem formed_execWrite_t {addr : Word} {data : List Byte} {s t : State} (he : execWrite addr data s = .next t) (hs : Formed s) : Formed t := by
  unfold execWrite at he; injection he with he; subst he
  with_reducible repeat' first | intro _ | assumption | apply formed_hostWrite

theorem formed_execWriteQ_t {addr : Word} {data : List Byte} {s t : State} (he : execWriteQ addr data s = .next t) (hs : Formed s) : Formed t := by
  unfold execWriteQ at he; injection he with he; subst he
  with_reducible repeat' first | intro _ | assumption | apply formed_hostWriteQ

theorem formed_execEnterQuad_t {s t : State} (he : execEnterQuad s = .next t) (hs : Formed s) : Formed t := by
  unfold execEnterQuad at he; injection he with he; subst he
  with_reducible repeat' first | intro _ | assumption | apply formed_enterQuad

theorem formed_execExitQuad_t {s t : State} (he : execExitQuad s = .next t) (hs : Formed s) : Formed t := by
  unfold execExitQuad at he; injection he with he; subst he
  with_reducible repeat' first | intro _ | assumption | apply formed_exitQuad

theorem formed_execResetEn_t {s t : State} (he : execResetEn s = .next t) (hs : Formed s) : Formed t := by
  unfold execResetEn at he; injection he with he; subst he
  with_reducible repeat' first | intro _ | assumption | apply formed_resetEn

theorem formed_execReset_t {s t : State} (he : execReset s = .next t) (hs : Formed s) : Formed t := by
  unfold execReset at he; injection he with he; subst he
  with_reducible repeat' first | intro _ | assumption | apply formed_hostReset

theorem formed_execBadcmd_t {s t : State} (he : execBadcmd s = .next t) (hs : Formed s) : Formed t := by
  unfold execBadcmd at he; injection he with he; subst he
  with_reducible repeat' first | intro _ | assumption | apply formed_badCommand

theorem formed_execHcsNRise_t {s t : State} (he : execHcsNRise s = .next t) (hs : Formed s) : Formed t := by
  unfold execHcsNRise at he; injection he with he; subst he
  with_reducible repeat' first | intro _ | assumption | apply formed_hcsRise

theorem formed_execPostedWriteComplete_t {count : Nat} {s t : State} (he : execPostedWriteComplete count s = .next t) (hs : Formed s) : Formed t := by
  unfold execPostedWriteComplete at he; injection he with he; subst he
  with_reducible repeat' first | intro _ | assumption | apply formed_postedComplete

theorem formed_execHcsNFall_t {s t : State} (he : execHcsNFall s = .next t) (hs : Formed s) : Formed t := by
  unfold execHcsNFall at he; injection he with he; subst he
  with_reducible repeat' first | intro _ | assumption | apply formed_hcsFall

theorem formed_execTwpStart_t {misplaced : Bool} {s t : State} (he : execTwpStart misplaced s = .next t) (hs : Formed s) : Formed t := by
  unfold execTwpStart at he; injection he with he; subst he
  with_reducible repeat' first | intro _ | assumption | apply formed_twpStart

theorem formed_execTwpAddress_t {byte : Byte} {s t : State} (he : execTwpAddress byte s = .next t) (hs : Formed s) : Formed t := by
  unfold execTwpAddress at he; injection he with he; subst he
  with_reducible repeat' first | intro _ | assumption | apply formed_twpAddress

theorem formed_execAlertResponse_t {others : List (Byte × Byte)} {s t : State} (he : execAlertResponse others s = .next t) (hs : Formed s) : Formed t := by
  unfold execAlertResponse at he; injection he with he; subst he
  with_reducible repeat' first | intro _ | assumption | apply formed_alertResponse

theorem formed_execTwpWriteByte_t {byte : Byte} {s t : State} (he : execTwpWriteByte byte s = .next t) (hs : Formed s) : Formed t := by
  unfold execTwpWriteByte at he; injection he with he; subst he
  with_reducible repeat' first | intro _ | assumption | apply formed_twpWriteByte

theorem formed_execTwpReadByte_t {ready ack : Bool} {s t : State} (he : execTwpReadByte ready ack s = .next t) (hs : Formed s) : Formed t := by
  unfold execTwpReadByte at he; injection he with he; subst he
  with_reducible repeat' first | intro _ | assumption | apply formed_twpReadByte

theorem formed_execTwpStop_t {misplaced : Bool} {s t : State} (he : execTwpStop misplaced s = .next t) (hs : Formed s) : Formed t := by
  unfold execTwpStop at he; injection he with he; subst he
  with_reducible repeat' first | intro _ | assumption | apply formed_twpStop

theorem formed_execTwpTimeout_t {s t : State} (he : execTwpTimeout s = .next t) (hs : Formed s) : Formed t := by
  unfold execTwpTimeout at he; injection he with he; subst he
  with_reducible repeat' first | intro _ | assumption | apply formed_twpTimeout

theorem formed_execTimerMatch_t {unit : Fin 16} {chB : Bool} {s t : State} (he : execTimerMatch unit chB s = .next t) (hs : Formed s) : Formed t := by
  unfold execTimerMatch at he; injection he with he; subst he
  with_reducible repeat' first | intro _ | assumption | apply formed_timerMatch

theorem formed_execTimerWrap_t {unit : Fin 16} {s t : State} (he : execTimerWrap unit s = .next t) (hs : Formed s) : Formed t := by
  unfold execTimerWrap at he; injection he with he; subst he
  with_reducible repeat' first | intro _ | assumption | apply formed_timerWrap

theorem formed_execCaptureEdge_t {unit : Fin 16} {chB rising : Bool} {s t : State} (he : execCaptureEdge unit chB rising s = .next t) (hs : Formed s) : Formed t := by
  unfold execCaptureEdge at he; injection he with he; subst he
  with_reducible repeat' first | intro _ | assumption | apply formed_captureEdge

theorem formed_execCaptureRead_t {reader : Fin 256} {unit : Fin 16} {chB : Bool} {s t : State} (he : execCaptureRead reader unit chB s = .next t) (hs : Formed s) : Formed t := by
  unfold execCaptureRead at he; injection he with he; subst he
  with_reducible repeat' first | intro _ | assumption | apply formed_registerRead

theorem formed_execComparePreloadWrite_t {writer : Fin 256} {unit : Fin 16} {preload : Preload} {val : Word} {s t : State} (he : execComparePreloadWrite writer unit preload val s = .next t) (hs : Formed s) : Formed t := by
  unfold execComparePreloadWrite at he; injection he with he; subst he
  with_reducible repeat' first | intro _ | assumption | apply formed_registerWrite

theorem formed_execCmpLoad_t {writer : Fin 256} {unit : Fin 16} {chB : Bool} {s t : State} (he : execCmpLoad writer unit chB s = .next t) (hs : Formed s) : Formed t := by
  unfold execCmpLoad at he; injection he with he; subst he
  with_reducible repeat' first | intro _ | assumption | apply formed_registerWrite

theorem formed_execOutputForce_t {writer : Fin 256} {unit : Fin 16} {chB : Bool} {code : Fin 4} {s t : State} (he : execOutputForce writer unit chB code s = .next t) (hs : Formed s) : Formed t := by
  unfold execOutputForce at he; injection he with he; subst he
  with_reducible repeat' first | intro _ | assumption | apply formed_registerWrite

theorem formed_execTimerStart_t {writer : Fin 256} {unit : Fin 16} {s t : State} (he : execTimerStart writer unit s = .next t) (hs : Formed s) : Formed t := by
  unfold execTimerStart at he; injection he with he; subst he
  with_reducible repeat' first | intro _ | assumption | apply formed_registerModify

theorem formed_execTimerStop_t {writer : Fin 256} {unit : Fin 16} {s t : State} (he : execTimerStop writer unit s = .next t) (hs : Formed s) : Formed t := by
  unfold execTimerStop at he; injection he with he; subst he
  with_reducible repeat' first | intro _ | assumption | apply formed_registerModify

theorem formed_execEntryAbort_t {busy : Option (Fin 128)} {s t : State} (he : execEntryAbort busy s = .next t) (hs : Formed s) : Formed t := by
  unfold execEntryAbort at he; injection he with he; subst he
  with_reducible repeat' first | intro _ | assumption | apply formed_entryAbort

theorem formed_execPowerDown_t {s t : State} (he : execPowerDown s = .next t) (hs : Formed s) : Formed t := by
  unfold execPowerDown at he; injection he with he; subst he
  with_reducible repeat' first | intro _ | assumption | apply formed_powerDown

theorem formed_execComparatorTrip_t {comparator : Fin 4} {s t : State} (he : execComparatorTrip comparator s = .next t) (hs : Formed s) : Formed t := by
  unfold execComparatorTrip at he; injection he with he; subst he
  with_reducible repeat' first | intro _ | assumption | apply formed_comparatorTrip

theorem formed_execPowerOnReset_t {s t : State} (he : execPowerOnReset s = .next t) (hs : Formed s) : Formed t := by
  unfold execPowerOnReset at he; injection he with he; subst he
  with_reducible repeat' first | intro _ | assumption | apply formed_powerOnReset

theorem formed_execPowerUp_t {s t : State} (he : execPowerUp s = .next t) (hs : Formed s) : Formed t := by
  unfold execPowerUp at he; injection he with he; subst he
  with_reducible repeat' first | intro _ | assumption | apply formed_powerUp

theorem formed_execResetPin_t {s t : State} (he : execResetPin s = .next t) (hs : Formed s) : Formed t := by
  unfold execResetPin at he; injection he with he; subst he
  with_reducible repeat' first | intro _ | assumption | apply formed_resetPin

theorem formed_execResetRelease_t {s t : State} (he : execResetRelease s = .next t) (hs : Formed s) : Formed t := by
  unfold execResetRelease at he; injection he with he; subst he
  with_reducible repeat' first | intro _ | assumption | apply formed_resetRelease

theorem formed_execSoftReset_t {writer : Fin 256} {s t : State} (he : execSoftReset writer s = .next t) (hs : Formed s) : Formed t := by
  unfold execSoftReset at he; injection he with he; subst he
  with_reducible repeat' first | intro _ | assumption | apply formed_registerWrite

theorem formed_execTapReset_t {s t : State} (he : execTapReset s = .next t) (hs : Formed s) : Formed t := by
  unfold execTapReset at he; injection he with he; subst he
  with_reducible repeat' first | intro _ | assumption | apply formed_tapReset

theorem formed_execRegulatorReady_t {s t : State} (he : execRegulatorReady s = .next t) (hs : Formed s) : Formed t := by
  unfold execRegulatorReady at he; injection he with he; subst he
  with_reducible repeat' first | intro _ | assumption | apply formed_regulatorReady

theorem formed_execOscillatorReady_t {s t : State} (he : execOscillatorReady s = .next t) (hs : Formed s) : Formed t := by
  unfold execOscillatorReady at he; injection he with he; subst he
  with_reducible repeat' first | intro _ | assumption | apply formed_oscillatorReady

theorem formed_execStrapSample_t {boot : Fin 8} {head standby : Bool} {adr0 adr1 adr2 : Fin 3} {s t : State} (he : execStrapSample boot head standby adr0 adr1 adr2 s = .next t) (hs : Formed s) : Formed t := by
  unfold execStrapSample at he; injection he with he; subst he
  with_reducible repeat' first | intro _ | assumption | apply formed_strapSample

theorem formed_execMemoryReady_t {s t : State} (he : execMemoryReady s = .next t) (hs : Formed s) : Formed t := by
  unfold execMemoryReady at he; injection he with he; subst he
  with_reducible repeat' first | intro _ | assumption | apply formed_memoryReady

theorem formed_execSystemRecordsReady_t {s t : State} (he : execSystemRecordsReady s = .next t) (hs : Formed s) : Formed t := by
  unfold execSystemRecordsReady at he; injection he with he; subst he
  with_reducible repeat' first | intro _ | assumption | apply formed_recordsReady

theorem formed_execLogicReady_t {s t : State} (he : execLogicReady s = .next t) (hs : Formed s) : Formed t := by
  unfold execLogicReady at he; injection he with he; subst he
  with_reducible repeat' first | intro _ | assumption | apply formed_logicReady

theorem formed_execPowerStageTimeout_t {s t : State} (he : execPowerStageTimeout s = .next t) (hs : Formed s) : Formed t := by
  unfold execPowerStageTimeout at he; injection he with he; subst he
  with_reducible repeat' first | intro _ | assumption | apply formed_stageTimeout

theorem formed_execXloStable_t {s t : State} (he : execXloStable s = .next t) (hs : Formed s) : Formed t := by
  unfold execXloStable at he; injection he with he; subst he
  with_reducible repeat' first | intro _ | assumption | apply formed_xloStable

theorem formed_execComparatorWakeSideLeft_t {comparator : Fin 4} {s t : State} (he : execComparatorWakeSideLeft comparator s = .next t) (hs : Formed s) : Formed t := by
  unfold execComparatorWakeSideLeft at he; injection he with he; subst he
  with_reducible repeat' first | intro _ | assumption | apply formed_comparatorLeft

theorem formed_execHoldUpdate_t {vhold vio33 : Nat} {s t : State} (he : execHoldUpdate vhold vio33 s = .next t) (hs : Formed s) : Formed t := by
  unfold execHoldUpdate at he; injection he with he; subst he
  with_reducible repeat' first | intro _ | assumption | apply formed_holdUpdate

theorem formed_execCheckFault_t {unit : Fin 128} {code : Byte} {s t : State} (he : execCheckFault unit code s = .next t) (hs : Formed s) : Formed t := by
  unfold execCheckFault at he; injection he with he; subst he
  with_reducible repeat' first | intro _ | assumption | apply formed_checkFault

theorem formed_execUnitResetComplete_t {unit : Fin 128} {s t : State} (he : execUnitResetComplete unit s = .next t) (hs : Formed s) : Formed t := by
  unfold execUnitResetComplete at he; injection he with he; subst he
  with_reducible repeat' first | intro _ | assumption | apply formed_unitResetComplete

theorem formed_execFaultSlotClear_t {writer : Fin 256} {unit : Fin 128} {secondary : Bool} {s t : State} (he : execFaultSlotClear writer unit secondary s = .next t) (hs : Formed s) : Formed t := by
  unfold execFaultSlotClear at he; injection he with he; subst he
  with_reducible repeat' first | intro _ | assumption | apply formed_registerWrite

theorem formed_execUnitRelease_t {writer : Fin 256} {unit : Fin 128} {s t : State} (he : execUnitRelease writer unit s = .next t) (hs : Formed s) : Formed t := by
  unfold execUnitRelease at he; injection he with he; subst he
  with_reducible repeat' first | intro _ | assumption | apply formed_registerWrite

theorem formed_execPowerFail_t {s t : State} (he : execPowerFail s = .next t) (hs : Formed s) : Formed t := by
  unfold execPowerFail at he; injection he with he; subst he
  with_reducible repeat' first | intro _ | assumption | apply formed_powerFail

theorem formed_execFlushComplete_t {s t : State} (he : execFlushComplete s = .next t) (hs : Formed s) : Formed t := by
  unfold execFlushComplete at he; injection he with he; subst he
  with_reducible repeat' first | intro _ | assumption | apply formed_flushComplete

theorem formed_execPowerRestored_t {s t : State} (he : execPowerRestored s = .next t) (hs : Formed s) : Formed t := by
  unfold execPowerRestored at he; injection he with he; subst he
  with_reducible repeat' first | intro _ | assumption | apply formed_powerRestored

theorem formed_execDayBookWrite_t {s t : State} (he : execDayBookWrite s = .next t) (hs : Formed s) : Formed t := by
  unfold execDayBookWrite at he; injection he with he; subst he
  with_reducible repeat' first | intro _ | assumption | apply formed_dayBookWrite

theorem formed_tick {s : State} (hs : Formed s) : Formed (tick s) := by
  unfold tick
  repeat' first | intro _ | with_reducible assumption | with_reducible apply formed_linkTick | with_reducible apply formed_timersTick | with_reducible apply formed_linesTick | with_reducible apply formed_forUpTo | with_reducible apply formed_ite | (simp only [↓formed_mk]; refine And.intro ?_ ?_) | with_reducible apply formed_regs | with_reducible apply formed_mem | with_reducible apply formed_filter_regs | with_reducible apply formed_filter_mem | exact formed_nil | exact formed_nil_mem | (extract_lets +onlyGivenNames a; first | (have ha : Formed a := (by dsimp only [a]; repeat' first | intro _ | with_reducible assumption | with_reducible apply formed_linkTick | with_reducible apply formed_timersTick | with_reducible apply formed_linesTick | with_reducible apply formed_forUpTo | with_reducible apply formed_ite | (simp only [↓formed_mk]; refine And.intro ?_ ?_) | with_reducible apply formed_regs | with_reducible apply formed_mem | with_reducible apply formed_filter_regs | with_reducible apply formed_filter_mem | exact formed_nil | exact formed_nil_mem | split | dsimp only [id_eq]); clear_value a) | (have hf : State → State := a; clear hf; (try dsimp only [a]); clear a) | clear_value a) | split | dsimp only [id_eq]

end Sys2Proof.Machine
end

