-- ==== Sys2Proof/Tests/Slice0.lean ====
section
/-!
SUPPORT. For every statement with hypotheses, concrete states and operands that meet those of each of its clauses; ill-formed commands for each
check; check values and worked examples of the spec.
-/

set_option maxHeartbeats 400000
set_option linter.unusedVariables false
namespace Sys2Proof.Tests
set_option Elab.async false
open Sys2Proof Sys2Proof.Machine

/-- The device up and in RUN, after a cold reset. -/
def up : State := { State.reset with pow := { coldPower with phase := .up } }
def regs5 : CoreRegs := { a := 0x90, x := 3, y := 4, p := 0x200, q := 0x300, sp := 0x7000, pc := 0x100, cnt := 2, fl := 0x01 }
/-- Core 5 running, about to execute the bytes `b`, with the bytes `d` at 0x200, 0x300, 0x7000 and 0x1020 and the registers `r`. -/
def core5 (b d : List Byte) (r : CoreRegs) : State :=
  let m := (List.range b.length).map (fun i => (0x100 + i, b.getD i 0)) ++ (List.range d.length).map (fun i => (0x200 + i, d.getD i 0)) ++
    (List.range d.length).map (fun i => (0x300 + i, d.getD i 0 + 0x7F)) ++ (List.range d.length).map (fun i => (0x1020 + i, d.getD i 0 - 1)) ++ (List.range d.length).map (fun i => (0x7000 + i, d.getD i 0))
  { (((up.put (F.SRT_STAT_STATE 5) stRunning).mark (F.SRT_CTRL_RUN 5)).put (F.SRT_BUDGET_BUDGET 5) 50) with
    cores := upd up.cores 5 (fun k => { k with r := r, mem := m.filter (fun e => e.2 != 0) }) }
def kk (s : State) : Core := (s.core 5).getD idleCore
/-- What stands in an option, or `d`. -/
def the {α : Type} (d : α) (o : Option α) : α := o.getD d
def anyTxn : Txn := ⟨0, 0, .opened, [], false, .none, []⟩
def anyX : Exchange := ⟨.convert, .round, [], 0, false, 0, 0, false, 0, 0, none, none, false, []⟩
def anyR : Round := ⟨.read, false, 0, false, false, [], 0, 0, [], [], false, [], none⟩
def anyArb : Arb := ⟨[], [], none, none⟩
def anySpec : Spec := ⟨⟨noRegs, [], [], .idle, []⟩, [], 0, ⟨noRegs, [], [], .idle, []⟩, [], 0⟩
/-- The next state of an outcome. -/
def nextOf (o : Host.Outcome State Fault Refusal) : State := match o with | .next t => t | _ => State.reset

/-! ## The machine -/

theorem witness_StepTakesTheFrontCommand : ∃ (s : State) (c : Instr) (rest : List Instr), s.pending = c :: rest :=
  ⟨{ up with pending := [.powerUp, .powerFail] }, .powerUp, [.powerFail], rfl⟩

theorem witness_AnIdleStepIsOneTick :
    (∃ s : State, s.pending = [] ∧ timebaseRuns s = false) ∧ (∃ s : State, s.pending = [] ∧ timebaseRuns s = true) :=
  ⟨⟨State.reset, by decide +kernel⟩, ⟨up.mark F.PWR_STAT_OSC_OK, by decide +kernel⟩⟩

theorem witness_EveryStepKeepsTheForm : ∃ (s t : State), s.Inv ∧ step s = .next t :=
  ⟨{ State.reset with pending := [.powerUp] }, _, by decide +kernel, rfl⟩

theorem witness_EveryStepKeepsTheShape : ∃ (s t : State), s.Shape ∧ step s = .next t :=
  ⟨{ State.reset with pending := [.powerUp] }, _, ⟨rfl, rfl, rfl, rfl, rfl, by decide +kernel⟩, rfl⟩

/-! ## Ill-formed commands: one for each check -/

theorem test_wf_register_address : Instr.wf (.registerWrite 0x75 0x10110002#32 0#32 none) = false ∧
    Instr.wf (.registerWrite 0x75 0x05FFFFFC#32 0#32 none) = false ∧ Instr.wf (.registerWrite 0x75 0x10110000#32 0#32 (some (0, 0x10110001#32, 0#32))) = false ∧
    Instr.wf (.registerWrite 0x75 0x06000000#32 0#32 (some (0, 0x10110004#32, 0#32))) = true := by decide
theorem test_wf_memory_address : Instr.wf (.bankRequest 0x75 false 0x06000000#32 (.read 1) []) = false ∧
    Instr.wf (.bankRequest 0x75 false 0x09000000#32 (.read 1) []) = false ∧ Instr.wf (.bankRequest 0x75 false 0x08000000#32 (.read 1) []) = true := by decide
theorem test_wf_bank_access : Instr.wf (.bankRequest 0x75 false 0#32 (.read 0) []) = false ∧ Instr.wf (.bankRequest 0x75 false 0#32 (.read 129) []) = false ∧
    Instr.wf (.bankRequest 0x75 false 0#32 (.write []) []) = false ∧ Instr.wf (.bankRequest 0x75 false 0#32 (.write [1]) []) = true := by decide
theorem test_wf_flips : Instr.wf (.patrolScrub [⟨0x08000004, 0⟩]) = false ∧ Instr.wf (.patrolScrub [⟨0x06000000, 0⟩]) = false ∧ Instr.wf (.patrolScrub [⟨0x08000000, 72⟩]) = false ∧
    Instr.wf (.patrolScrub [⟨0x08000000, 71⟩]) = true ∧ Instr.wf (.bankRequest 0x75 false 0#32 (.read 1) [⟨8, 72⟩]) = false ∧
    Instr.wf (.bankRequest 0x75 false 0#32 (.read 1) [⟨64, 103⟩]) = true := by decide
theorem test_wf_bits : Instr.wf (.chainOutput 0 [(true, 0)]) = false ∧ Instr.wf (.chainOutput 0 [(true, 1)]) = true := by decide
theorem test_wf_repetitions : Instr.wf (.rpt 0 0) = false ∧ Instr.wf (.rpt 0 1) = true := by decide
theorem test_wf_record : Instr.wf (.eventRecordArrival 0 (List.replicate 31 0)) = false ∧ Instr.wf (.eventRecordArrival 0 (List.replicate 32 0)) = true := by decide
theorem test_wf_frame : Instr.wf (.letter 0 ⟨false, List.replicate 264 0⟩) = false ∧ Instr.wf (.letter 0 ⟨false, List.replicate 263 0⟩) = true := by decide +kernel
theorem test_wf_counts : Instr.wf (.postedWriteComplete 0) = false ∧ Instr.wf (.outboxPop 0x75 0x100000#32) = false ∧ Instr.wf (.outboxPop 0x75 0xFFFFF#32) = true ∧
    Instr.wf (.holdUpdate 1024 3000) = false ∧ Instr.wf (.holdUpdate 1023 3000) = true := by decide +kernel

/-! ## Values the spec gives: check values and worked examples -/

/-- R92, R93: the byte 0xA0 goes least significant bit first, a 0 high then low and a 1 low then high; the preamble is 0x55, then the SD, at the end the ED. -/
theorem test_levels : frameLevels 0 [0xA0#8] = [true, true, false, false] ++ [true, false, true, false, true, false, true, false, true, false, false, true, true, false, false, true] ++
    [false, false, true, true] ∧ (frameLevels 5 []).length = 88 ∧ (frameLevels 5 []).take 4 = [false, true, true, false] := by decide
/-- R95 and Table 5.4: at 7.8125 kbit/s the first half-bit boundary falls on the 1,074th reference edge. -/
theorem test_half_bit : phaseInc 0 * 1073 < 2 ^ 32 ∧ 2 ^ 32 ≤ phaseInc 0 * 1074 := by decide
/-- R24: the check value over "123456789". -/
theorem test_crc32 : crc32 [0x31, 0x32, 0x33, 0x34, 0x35, 0x36, 0x37, 0x38, 0x39] = 0xCBF43926 := by decide +kernel
/-- R102: the check value over "123456789". -/
theorem test_crc16 : crc16 [0x31, 0x32, 0x33, 0x34, 0x35, 0x36, 0x37, 0x38, 0x39] = 0x29B1 := by decide +kernel
/-- The chained read of bin 37 (05): A0 38 40 01 03 1D 00 0E. -/
theorem test_read_chain_of_bin_37 : [0xA0#8] ++ leBytes 2 (cmdParts (.readChain 0x38 30 0 15)).1 ++ leBytes 1 (cmdParts (.readChain 0x38 30 0 15)).2.1 ++ [3#8] ++
    (cmdParts (.readChain 0x38 30 0 15)).2.2 = [0xA0, 0x38, 0x40, 0x01, 0x03, 0x1D, 0x00, 0x0E] := by decide +kernel

/-- Core 12 of Ferrowby Quay at 0x0120 (Table 12.12), with the sample's value in EVBUF and the sum at 0x0700. -/
def adding (code : List (Nat × Byte)) (r : CoreRegs) : State :=
  { (((up.put (F.SRT_STAT_STATE 12) stRunning).mark (F.SRT_CTRL_RUN 12)).put (F.SRT_BUDGET_BUDGET 12) 100) with cores := upd up.cores 12 (fun k => { k with r := r, mem := code ++ [(0x700, 0xE5), (0x701, 0xD6), (0x702, 0x91)], evbuf := List.replicate 16 0 ++ [0x71, 0x2A, 0x0E] ++ List.replicate 13 0 }) }
def after (i : Instr) (s : State) : Option (CoreRegs × List (Nat × Byte) × Int) :=
  match step { s with pending := [i] } with
  | .next t => (t.core 12).map (fun k => (k.r, k.mem, k.steps))
  | _ => none
def atRpt : CoreRegs := { a := 0, x := 0, y := 0, p := 0xC030, q := 0x700, sp := 0x8000, pc := 0x12B, cnt := 3, fl := 0 }
/-- Table 12.13: three repetitions of ADCB write 56 01 A0, and leave P, Q and CNT as shown and N set; 1 + 3 × 4 steps. -/
theorem test_running_sum : after (.rpt 12 3) (adding [(0x12B, 0xCF), (0x12C, 0xC5)] atRpt) =
    some ({ atRpt with p := 0xC033, q := 0x703, cnt := 0, pc := 0x12D, fl := 0x04 },
      [(0x12B, 0xCF), (0x12C, 0xC5), (0x700, 0x56), (0x701, 0x01), (0x702, 0xA0)], 13) := by decide +kernel
/-- Table 12.12: LDP #0xC030, low byte first, in one step. -/
theorem test_ldp : (after (.ldp 12) (adding [(0x12B, 0x80), (0x12C, 0x30), (0x12D, 0xC0)] { atRpt with p := 0 })).map (fun x => (x.1.p, x.1.pc, x.2.2)) =
    some (0xC030, 0x12E, 1) := by decide +kernel

/-- A cold reset holds the device, so that an idle step changes nothing (R353). -/
theorem test_reset_holds : step State.reset = .next State.reset := rfl
/-- R353, R356: the last rail crosses its threshold, and the regulator stage begins. -/
theorem test_power_up : step { State.reset with pending := [.powerUp] } = .next { State.reset with pow := { coldPower with phase := .regulator } } := rfl
/-- No word spells a command. -/
theorem test_decode : decodeTableWord 8 0x12 = none ∧ State.reset.withFetchWord 8 0x12 = State.reset := by decide +kernel
/-- FIPS 180-4's one-block example, the digest of R28. -/
theorem test_sha256 : sha256 [0x61, 0x62, 0x63] = 0xBA7816BF8F01CFEA414140DE5DAE2223B00361A396177A9CB410FF61F20015AD := by decide +kernel
/-- FIPS 197's example for a key of 128 bits, the cipher of R105. -/
theorem test_aes : aesEncrypt ((List.range 16).map (fun i => BitVec.ofNat 8 i)) ((List.range 16).map (fun i => BitVec.ofNat 8 (17 * i))) =
    [0x69, 0xC4, 0xE0, 0xD8, 0x6A, 0x7B, 0x04, 0x30, 0xD8, 0xCD, 0xB7, 0x80, 0x70, 0xB4, 0xC5, 0x5A] := by decide +kernel

namespace System

def diagSet : State := up.mark F.SYS_DIAG_RSVD_WR
def arbG : State := { up with arbs := upd up.arbs 3 (fun a => { a with granted := some ⟨5, false, 2⟩, reqs := [⟨5, false, [⟨0xC0, 8, none, 1⟩], none⟩, ⟨6, true, [⟨0xC0, 8, none, 1⟩], some 0⟩] }) }
def hostUp : State := up.modHost (fun h => { h with low := true })

theorem witness_RefusedWritesAreRecorded :
    (∃ (u : Fin 256) (a : Word) (v : Word) (s : State), Writes u (BitVec.toNat a) s ∧ (reservedWord (BitVec.toNat a) v = true ∨ writeBarred (BitVec.toNat a) v s = true) ∧ (269549568 ≤ BitVec.toNat a → 269557760 ≤ BitVec.toNat a) ∧ mirrorOf (BitVec.toNat a) = none) ∧
    (∃ (u : Fin 256) (u2 : Fin 256) (v : Word) (b : Word) (v2 : Word) (s : State), Writes u A.SYS_DIAG s ∧ writeBarred A.SYS_DIAG v s = false ∧ BitVec.getLsbD v 0 = true ∧ Writes u2 (BitVec.toNat b) s ∧ (reservedWord (BitVec.toNat b) v2 = true ∨ writeBarred (BitVec.toNat b) v2 s = true) ∧ (269549568 ≤ BitVec.toNat b → 269557760 ≤ BitVec.toNat b) ∧ mirrorOf (BitVec.toNat b) = none) :=
  ⟨⟨0x75, (BitVec.ofNat 32 A.SYS_DIAG), 0xFFFFFFFF#32, up, by decide +kernel⟩,
    ⟨0x75, 0x76, 1#32, 0x10000008#32, 0xFFFFFFFF#32, up, by decide +kernel⟩⟩

theorem witness_WrittenFieldsFollowAccessCodes :
    (∃ (u : Fin 256) (a : Word) (v : Word) (s : State) (d : RegDef) (i : ℕ), Accepts u (BitVec.toNat a) v s ∧ findReg (BitVec.toNat a) = some (d, i) ∧ hasAction (BitVec.toNat a) = false ∧ isBanked (BitVec.toNat a) = false) ∧
    (∃ (u : Fin 256) (a : Word) (v : Word) (s : State) (d : RegDef) (i : ℕ) (b : ℕ), Accepts u (BitVec.toNat a) v s ∧ findReg (BitVec.toNat a) = some (d, i) ∧ hasAction (BitVec.toNat a) = false ∧ isBanked (BitVec.toNat a) = true ∧ BitVec.toNat a ≠ A.LEDG_TXN ∧ BitVec.toNat a ≠ A.CAS_RA_CMD ∧ bankAddr (u.val) (BitVec.toNat a) = some b) ∧
    (∃ (u : Fin 256) (a : Word) (v : Word) (s : State) (d : RegDef) (i : ℕ), Accepts u (BitVec.toNat a) v s ∧ findReg (BitVec.toNat a) = some (d, i) ∧ hasAction (BitVec.toNat a) = false ∧ isBanked (BitVec.toNat a) = true ∧ BitVec.toNat a ≠ A.LEDG_TXN ∧ BitVec.toNat a ≠ A.CAS_RA_CMD ∧ bankAddr (u.val) (BitVec.toNat a) = none) :=
  ⟨⟨0x75, (BitVec.ofNat 32 A.SYS_DIAG), 1#32, diagSet, ((findReg A.SYS_DIAG).get rfl).1, 0, by decide +kernel⟩,
    ⟨0x75, BitVec.ofNat 32 A.CAS_RA_DST, 7#32, up, ((findReg A.CAS_RA_DST).get rfl).1, 0, the 0 (bankAddr (0x75) (BitVec.toNat (BitVec.ofNat 32 A.CAS_RA_DST))), by decide +kernel⟩,
    ⟨0x77, BitVec.ofNat 32 A.CAS_RA_DST, 7#32, up, ((findReg A.CAS_RA_DST).get rfl).1, 0, by decide +kernel⟩⟩

theorem witness_GrantWithdrawn :
    (∃ (b : Fin 24) (a : Arb) (s : State), s.arbs[b.val]? = some a ∧ a.granted = none) ∧
    (∃ (b : Fin 24) (a : Arb) (s : State) (g : Grant), s.arbs[b.val]? = some a ∧ a.granted = some g) :=
  ⟨⟨3, the anyArb up.arbs[3]?, up, by decide +kernel⟩,
    ⟨3, the anyArb arbG.arbs[3]?, arbG, ⟨5, false, 2⟩, by decide +kernel⟩⟩

theorem witness_PostmarkReadLatches :
    (∃ (u : Fin 256) (s : State), reaches (u.val) A.SYS_PM_LO false s = true) ∧
    (∃ (u : Fin 256) (a : ℕ) (s : State), (a = A.SYS_PM_LO ∨ a = A.SYS_PM_HI) ∧ Writes u a s) :=
  ⟨⟨0x75, ({ up with tb := 2^70 + 12345 } : State), by decide +kernel⟩,
    ⟨0x75, A.SYS_PM_LO, ({ up with tb := 2^70 + 12345 } : State), by decide +kernel⟩⟩

theorem witness_UnoccupiedAddressesReadZero :
    (∃ (u : Fin 256) (a : Word) (s : State), (inLedger (BitVec.toNat a) = false ∧ inPigeon (BitVec.toNat a) = false ∧ findReg (BitVec.toNat a / 4 * 4) = none ∧ mirrorOf (BitVec.toNat a / 4 * 4) = none ∧ (BitVec.toNat a < 269549568 ∨ 269557760 ≤ BitVec.toNat a)) ∧ Writes u (BitVec.toNat a) s) ∧
    (∃ (a : Word) (m : ℕ) (s : State), BitVec.toNat a + m ≤ 2 ^ 32 ∧ (∀ i < m, (fun (a : ℕ) => inLedger a = false ∧ inPigeon a = false ∧ findReg (a / 4 * 4) = none ∧ mirrorOf (a / 4 * 4) = none ∧ (a < 269549568 ∨ 269557760 ≤ a)) (BitVec.toNat a + i)) ∧ hostAlive s = true ∧ s.host.low = true ∧ s.host.busy = false ∧ s.host.discard = false ∧ s.host.erred = false ∧ s.host.posted = []) ∧
    (∃ (a : ℕ), (inLedger a = false ∧ inPigeon a = false ∧ findReg (a / 4 * 4) = none ∧ mirrorOf (a / 4 * 4) = none ∧ (a < 269549568 ∨ 269557760 ≤ a))) :=
  ⟨⟨0x75, 0x20000000#32, up, by decide +kernel⟩,
    ⟨0xFFFFFFF0#32, 4, hostUp, by decide +kernel⟩,
    ⟨0xFFFFFFF0, by decide +kernel⟩⟩

end System

namespace RouteMaps

def busy : State := up.mark F.SYS_RMAP_STAT_BUSY
def rb0 : List Byte := [0x01#8, 0#8, 0x10#8, 0#8, 3#8, 0#8, 0#8, 0#8]
def pb0 : List Byte := [1#8, 0x5A#8, 7#8, 0#8, 0x90#8, 1#8, 0#8, 0#8]
def applying : State := { up with tb := 2^60, rmap := { up.rmap with cmd := 1, staged := [⟨0x09, 0, rb0⟩, ⟨0x11, 0, pb0⟩], routes := [⟨1, 3, 2⟩, ⟨2, 0x22, 5⟩] } }
def shortUp : State := { up with pace := { up.pace with prevShort := true } }
def warmS : State := { (up.mark F.PWR_STAT_OSC_OK) with pace := { up.pace with below := true, armed := false } }
def hot1 : State := { warmS with pace := { warmS.pace with below := false, hotRun := 1 } }

theorem witness_RouteMapCommands :
    (∃ (u : Fin 256) (s : State) (c : Instr × ℕ), Writes u A.SYS_RMAP_CTRL s ∧ c ∈ [(Instr.rmapApply u, 1), (Instr.rmapCheck u, 2), (Instr.rmapCheckA u, 3), (Instr.rmapCheckB u, 4), (Instr.rmapLoadA u, 5), (Instr.rmapLoadB u, 6)] ∧ s.flag F.SYS_RMAP_STAT_BUSY = true) ∧
    (∃ (s : State), s.flag F.SYS_RMAP_STAT_BUSY = true ∧ s.rmap.staged = [] ∧ s.rmap.reason < 256 ∧ s.rmap.sect < 256 ∧ s.flt.dayQ.length < 32 ∧ resetBegun s = false ∧ (s.rmap.cmd < 5 ∨ s.rmap.reason ≠ rmOk)) ∧
    (∃ (u : Fin 256) (s : State) (c : Instr × ℕ) (v : Verdict), Writes u A.SYS_RMAP_CTRL s ∧ c ∈ [(Instr.rmapApply u, 1), (Instr.rmapCheck u, 2), (Instr.rmapCheckA u, 3), (Instr.rmapCheckB u, 4), (Instr.rmapLoadA u, 5), (Instr.rmapLoadB u, 6)] ∧ s.flag F.SYS_RMAP_STAT_BUSY = false ∧ commandBarred s c.2 = false ∧ v = checkEnvelope s (commandEnv s c.2) ∧ s.ledg.flips = [] ∧ (c.2 = 1 → v.reason ≠ rmPromise)) ∧
    (∃ (u : Fin 256) (s : State) (c : Instr × ℕ), Writes u A.SYS_RMAP_CTRL s ∧ c ∈ [(Instr.rmapApply u, 1), (Instr.rmapCheck u, 2), (Instr.rmapCheckA u, 3), (Instr.rmapCheckB u, 4), (Instr.rmapLoadA u, 5), (Instr.rmapLoadB u, 6)] ∧ s.flag F.SYS_RMAP_STAT_BUSY = false ∧ commandBarred s c.2 = true) ∧
    (∃ (s : State) (b : Bool), s.flag F.SYS_RMAP_STAT_BUSY = true ∧ s.rmap.staged = [] ∧ s.rmap.reason < 256 ∧ s.rmap.sect < 256 ∧ s.flt.dayQ.length < 32 ∧ resetBegun s = false ∧ (s.rmap.cmd = if b = true then 6 else 5) ∧ s.rmap.reason = rmOk ∧ s.ledg.flips = [] ∧ (∀ x ∈ envSections s (slotEnv b), x.typ ≤ 9 ∨ x.typ = 17)) :=
  ⟨⟨0x75, busy, (Instr.rmapApply 117, 1), by decide +kernel⟩,
    ⟨busy, by decide +kernel⟩,
    ⟨0x75, up, (Instr.rmapApply 117, 1), checkEnvelope up (commandEnv up (Instr.rmapApply 117, 1).2), by decide +kernel⟩,
    ⟨0x75, up, (Instr.rmapCheckA 117, 3), by decide +kernel⟩,
    ⟨({ busy with rmap := { up.rmap with cmd := 6, reason := 0, sect := 255 } } : State), true, by decide +kernel⟩⟩

theorem witness_ApplyPointTakesHold :
    (∃ (s : State) (i : ℕ) (j : ℕ) (rb : List Byte) (pb : List Byte), s.rmap.cmd = 1 ∧ s.rmap.staged = [{ typ := 9, inst := i, body := rb }, { typ := 17, inst := j, body := pb }] ∧ resetBegun s = false) :=
  ⟨applying, 0, 0, rb0, pb0, by decide +kernel⟩

theorem witness_PaceAndSensors :
    (∃ (count : ℕ) (now : ℕ) (need : ℕ) (eff : ℕ) (old : ℕ) (target : ℕ) (low : ℕ) (s : State), s.pow.phase = Phase.up ∧ s.pwr ≤ 1 ∧ 124 ∉ s.flt.resets ∧ now = min 65535 (count * 65536 / 1000000) ∧ need = paceNeed s none 0 ∧ eff = effCap s need ∧ old = s.get F.PACE_VCORE_SETPOINT ∧ low = s.pace.lowCount ∧ target = need + (need * s.get F.PACE_POLICY_GUARD + 63) / 64 ∧ (now < need → old = eff → s.pace.prevShort = true)) ∧
    (∃ (count : ℕ) (now : ℕ) (need : ℕ) (eff : ℕ) (old : ℕ) (target : ℕ) (low : ℕ) (s : State) (k : Core), s.pow.phase = Phase.up ∧ s.pwr ≤ 1 ∧ 124 ∉ s.flt.resets ∧ now = min 65535 (count * 65536 / 1000000) ∧ need = paceNeed s none 0 ∧ eff = effCap s need ∧ old = s.get F.PACE_VCORE_SETPOINT ∧ low = s.pace.lowCount ∧ target = need + (need * s.get F.PACE_POLICY_GUARD + 63) / 64 ∧ s.pace.prevShort = false ∧ Listens s k ∧ priValid s 124 = false ∧ s.flt.dayQ.length < 32) ∧
    (∃ (x : ℤ) (code : ℤ) (lim : ℤ) (s : State) (armed : Bool) (run : ℕ) (k : Core), s.pow.phase = Phase.up ∧ s.pwr ≤ 1 ∧ s.flag F.PWR_STAT_OSC_OK = true ∧ code = max (-220) (min x 600) ∧ lim = toSigned 16 (s.get F.PACE_TEMP_HI_LIMIT) ∧ armed = (decide (code < lim - 8) || s.pace.armed && decide (code < lim)) ∧ (run = if 540 ≤ code then min 3 (s.pace.hotRun + 1) else 0) ∧ (code < lim ∨ s.pace.below = false) ∧ (540 ≤ code ∧ s.pace.hotRun = 1) ∧ Listens s k ∧ priValid s 124 = false) ∧
    (∃ (x : ℤ) (code : ℤ) (lim : ℤ) (s : State) (armed : Bool) (run : ℕ), s.pow.phase = Phase.up ∧ s.pwr ≤ 1 ∧ s.flag F.PWR_STAT_OSC_OK = true ∧ code = max (-220) (min x 600) ∧ lim = toSigned 16 (s.get F.PACE_TEMP_HI_LIMIT) ∧ armed = (decide (code < lim - 8) || s.pace.armed && decide (code < lim)) ∧ (run = if 540 ≤ code then min 3 (s.pace.hotRun + 1) else 0) ∧ (code < lim ∨ s.pace.below = false) ∧ (¬(540 ≤ code ∧ s.pace.hotRun = 1))) ∧
    (∃ (x : ℤ) (code : ℤ) (lim : ℤ) (s : State) (armed : Bool) (run : ℕ), s.pow.phase = Phase.up ∧ s.pwr ≤ 1 ∧ s.flag F.PWR_STAT_OSC_OK = true ∧ code = max (-220) (min x 600) ∧ lim = toSigned 16 (s.get F.PACE_TEMP_HI_LIMIT) ∧ armed = (decide (code < lim - 8) || s.pace.armed && decide (code < lim)) ∧ (run = if 540 ≤ code then min 3 (s.pace.hotRun + 1) else 0) ∧ lim ≤ code ∧ s.pace.below = true ∧ s.pace.armed = false ∧ (¬(540 ≤ code ∧ s.pace.hotRun = 1))) ∧
    (∃ (x : ℤ) (code : ℤ) (lim : ℤ) (s : State) (armed : Bool) (run : ℕ) (k : Core), s.pow.phase = Phase.up ∧ s.pwr ≤ 1 ∧ s.flag F.PWR_STAT_OSC_OK = true ∧ code = max (-220) (min x 600) ∧ lim = toSigned 16 (s.get F.PACE_TEMP_HI_LIMIT) ∧ armed = (decide (code < lim - 8) || s.pace.armed && decide (code < lim)) ∧ (run = if 540 ≤ code then min 3 (s.pace.hotRun + 1) else 0) ∧ lim ≤ code ∧ s.pace.below = true ∧ s.pace.armed = true ∧ (¬(540 ≤ code ∧ s.pace.hotRun = 1)) ∧ Listens s k) :=
  ⟨⟨0, min 65535 (0 * 65536 / 1000000), paceNeed shortUp none 0, effCap shortUp (paceNeed shortUp none 0), shortUp.get F.PACE_VCORE_SETPOINT, (paceNeed shortUp none 0) + ((paceNeed shortUp none 0) * shortUp.get F.PACE_POLICY_GUARD + 63) / 64, shortUp.pace.lowCount, shortUp, by decide +kernel, by decide +kernel, by decide +kernel, by decide +kernel, rfl, rfl, by decide +kernel, by decide +kernel, rfl, fun _ _ => rfl⟩,
    ⟨0, min 65535 (0 * 65536 / 1000000), paceNeed up none 0, effCap up (paceNeed up none 0), up.get F.PACE_VCORE_SETPOINT, (paceNeed up none 0) + ((paceNeed up none 0) * up.get F.PACE_POLICY_GUARD + 63) / 64, up.pace.lowCount, up, the idleCore (up.core 0), by decide +kernel, by decide +kernel, by decide +kernel, by decide +kernel, rfl, rfl, by decide +kernel, by decide +kernel, rfl, by decide +kernel⟩,
    ⟨560, max (-220) (min 560 600), toSigned 16 (hot1.get F.PACE_TEMP_HI_LIMIT), hot1, decide ((max (-220) (min 560 600)) < (toSigned 16 (hot1.get F.PACE_TEMP_HI_LIMIT)) - 8) || hot1.pace.armed && decide ((max (-220) (min 560 600)) < (toSigned 16 (hot1.get F.PACE_TEMP_HI_LIMIT))), if 540 ≤ (max (-220) (min 560 600)) then min 3 (hot1.pace.hotRun + 1) else 0, the idleCore (hot1.core 0), by decide +kernel⟩,
    ⟨500, max (-220) (min 500 600), toSigned 16 (hot1.get F.PACE_TEMP_HI_LIMIT), hot1, decide ((max (-220) (min 500 600)) < (toSigned 16 (hot1.get F.PACE_TEMP_HI_LIMIT)) - 8) || hot1.pace.armed && decide ((max (-220) (min 500 600)) < (toSigned 16 (hot1.get F.PACE_TEMP_HI_LIMIT))), if 540 ≤ (max (-220) (min 500 600)) then min 3 (hot1.pace.hotRun + 1) else 0, by decide +kernel⟩,
    ⟨500, max (-220) (min 500 600), toSigned 16 (warmS.get F.PACE_TEMP_HI_LIMIT), warmS, decide ((max (-220) (min 500 600)) < (toSigned 16 (warmS.get F.PACE_TEMP_HI_LIMIT)) - 8) || warmS.pace.armed && decide ((max (-220) (min 500 600)) < (toSigned 16 (warmS.get F.PACE_TEMP_HI_LIMIT))), if 540 ≤ (max (-220) (min 500 600)) then min 3 (warmS.pace.hotRun + 1) else 0, by decide +kernel⟩,
    ⟨600, max (-220) (min 600 600), toSigned 16 ((up.mark F.PWR_STAT_OSC_OK).get F.PACE_TEMP_HI_LIMIT), up.mark F.PWR_STAT_OSC_OK, decide ((max (-220) (min 600 600)) < (toSigned 16 ((up.mark F.PWR_STAT_OSC_OK).get F.PACE_TEMP_HI_LIMIT)) - 8) || (up.mark F.PWR_STAT_OSC_OK).pace.armed && decide ((max (-220) (min 600 600)) < (toSigned 16 ((up.mark F.PWR_STAT_OSC_OK).get F.PACE_TEMP_HI_LIMIT))), if 540 ≤ (max (-220) (min 600 600)) then min 3 ((up.mark F.PWR_STAT_OSC_OK).pace.hotRun + 1) else 0, the idleCore ((up.mark F.PWR_STAT_OSC_OK).core 0), by decide +kernel⟩⟩

end RouteMaps

namespace Fabric

def masked : State := (up.put (F.ARB_MASK_BANKS 0x41) 0).put (F.ARB_MASK_BANKS 0x50) 0x00FFFFFF
def putM (l : List Nat) : State := l.foldl (fun u n => u.put (F.ARB_MASK_BANKS n) 0x00FFFFFF) up
def arbQ (g : Option Grant) (l : List BusReq) : State := let u := putM [5, 7, 0x50, 9, 0x77]; { u with tb := u.tb + 84442494, arbs := upd up.arbs 3 (fun a => { a with granted := g, turn := [5, 7], reqs := l }) }
def pcs (n : Nat) : List BusPiece := [⟨0xC0, 16, none, 1⟩, ⟨0x100, 16 * n, none, n⟩]
def trapper : State := up.put (F.ARB_MASK_BANKS 5) 0
def arb2 (n : Nat) (ah : Bool) : State := arbQ (some ⟨7, ah, 2⟩) [⟨7, ah, pcs 3, some (up.tb)⟩, ⟨9, true, pcs 1, some up.tb⟩, ⟨5, ah, pcs 1, some up.tb⟩] |> fun s => { s with tb := up.tb + n }
def arbW : State := let s := putM [0x77]; { s with arbs := upd s.arbs (busBank 0x080000C5) (fun _ => ⟨[⟨0x77, false, [⟨0x080000C5, 3, some [1#8, 2#8, 3#8], 1⟩], none⟩], [5], none, some ⟨0x77, false, 3⟩⟩) }
def overQuota : State := up.put (F.GATE_QUOTA_OBXQ 0) 5

theorem witness_BankRequests :
    (∃ (u : Fin 128) (ahead : Bool) (a : Word) (x : BusAccess) (s : State) (ps : List BusPiece), logicPowered s = true ∧ (ps = match x with | BusAccess.read n => piecesOf (BitVec.toNat a / 16 * 16) (16 * n) none | BusAccess.write d => piecesOf (BitVec.toNat a) d.length (some d)) ∧ (64 < u.val ∨ ahead = true ∨ ∀ p ∈ ps, maskOk s (u.val) (busBank p.addr) = true)) ∧
    (∃ (a : ℕ) (n : ℕ) (d : Option (List Byte)) (p : BusPiece) (i : ℕ), p ∈ piecesOf a n d ∧ i < p.len) ∧
    (∃ (a : ℕ) (n : ℕ) (x : ℕ), a ≤ x ∧ x < a + n ∧ (inLedger x || inPigeon x) = true) ∧
    (∃ (f : Flip) (s : State), logicPowered s = true ∧ f ∉ s.ledg.flips) ∧
    (∃ (u : Fin 65) (a : Word) (d : List Byte) (s : State) (k : Core), logicPowered s = true ∧ s.core u.val = some k ∧ k.spec = none ∧ s.get (F.SRT_STAT_TDEPTH u.val) = 0 ∧ (u.val = 0 → pmHandling s = false) ∧ (k.r.sp - 1).toNat < 32768 ∧ (k.r.sp - 2).toNat < 32768 ∧ (k.r.sp - 3).toNat < 32768 ∧ k.entries.length < 4 ∧ (∃ p ∈ piecesOf (BitVec.toNat a) d.length (some d), maskOk s (u.val) (busBank p.addr) = false)) :=
  ⟨⟨0x41, true, 0, (BusAccess.read 4), masked, piecesOf 0 64 none, by decide +kernel⟩,
    ⟨0xD2, 5, none, ⟨0xD2, 5, none, 1⟩, 0, by decide +kernel⟩,
    ⟨0xD2, 5, 0xD3, by decide +kernel⟩,
    ⟨⟨0x100, 3⟩, masked, by decide +kernel⟩,
    ⟨5, 0xC0, [1#8, 2#8], ({ trapper with cores := upd up.cores 5 (fun k => { k with r := { regs5 with sp := 0x7000 } }) } : State), the idleCore (({ trapper with cores := upd up.cores 5 (fun k => { k with r := { regs5 with sp := 0x7000 } }) }).core 5), by decide +kernel⟩⟩

theorem witness_ArbitrationGrants :
    (∃ (b : Fin 24) (a : Arb) (s : State), s.arbs[b.val]? = some a ∧ s.ledg.flips = [] ∧ (∀ (g : Grant), a.granted = some g → g.ahead = true ∧ g.unit ≠ 123 ∨ ∀ r ∈ a.reqs, r.unit = g.unit → r.ahead = g.ahead → ∀ p ∈ r.pieces, p.data = none) ∧ (∀ r ∈ a.reqs, maskOk s r.unit b.val = true ∨ 64 < r.unit ∨ r.ahead = true)) ∧
    (∃ (b : Fin 24) (a : Arb) (n : ℕ) (p : BusPiece) (d : List Byte) (s : State), s.arbs[b.val]? = some a ∧ a.granted = some { unit := 119, ahead := false, burst := n } ∧ p.beats ≤ n ∧ a.reqs = [{ unit := 119, ahead := false, pieces := [p], since := none }] ∧ p.data = some d ∧ d ≠ [] ∧ 134217728 ≤ p.addr ∧ p.addr + d.length ≤ 150994944 ∧ busBank p.addr = b.val ∧ p.addr % 2 ^ 20 + d.length ≤ 2 ^ 20 ∧ maskOk s 119 b.val = true) :=
  ⟨⟨3, the anyArb (arb2 84442494 false).arbs[3]?, arb2 84442494 false, by decide +kernel⟩,
    ⟨8, ⟨[⟨0x77, false, [⟨0x080000C5, 3, some [1#8, 2#8, 3#8], 1⟩], none⟩], [5], none, some ⟨0x77, false, 3⟩⟩, 3, ⟨0x080000C5, 3, some [1#8, 2#8, 3#8], 1⟩, [1#8, 2#8, 3#8], arbW, by decide +kernel⟩⟩

theorem witness_ConfigurationWriteCheck :
    (∃ (u : Fin 256) (v : Word) (s : State) (n : Fin 128), isFixedMask n.val = false ∧ Accepts u (A.ARB_MASK n.val) v s ∧ failingTest (s.setReg (A.ARB_MASK n.val) v) = none) ∧
    (∃ (u : Fin 256) (v : Word) (s : State) (b : Budget), b ≠ Budget.openLimit ∧ Accepts u (budgetAddr b) v s ∧ failingTest (s.setReg (budgetAddr b) v) = none) ∧
    (∃ (u : Fin 256) (v : Word) (s : State) (n : Fin 128) (k : ℕ), isFixedMask n.val = false ∧ Accepts u (A.ARB_MASK n.val) v s ∧ failingTest (s.setReg (A.ARB_MASK n.val) v) = some k ∧ s.flt.dayQ.length < 32) ∧
    (∃ (u : Fin 256) (v : Word) (s : State) (b : Budget) (k : ℕ), b ≠ Budget.openLimit ∧ Accepts u (budgetAddr b) v s ∧ failingTest (s.setReg (budgetAddr b) v) = some k ∧ s.flt.dayQ.length < 32) ∧
    (∃ (u : Fin 256) (v : Word) (s : State) (n : Fin 128), Accepts u (A.ARB_CFG n.val) v s ∧ failingTest (s.setReg (A.ARB_CFG n.val) v) = none) ∧
    (∃ (u : Fin 256) (v : Word) (s : State) (n : Fin 128) (k : ℕ), Accepts u (A.ARB_CFG n.val) v s ∧ failingTest (s.setReg (A.ARB_CFG n.val) v) = some k ∧ s.flt.dayQ.length < 32) ∧
    (∃ (u : Fin 256) (v : Word) (s : State), Accepts u A.GATE_OPEN v s ∧ failingTest (s.put F.GATE_OPEN_LIMIT (bits (BitVec.toNat v) 16 12)) = none) ∧
    (∃ (u : Fin 256) (n : Fin 128) (v : Word) (s : State), Accepts u (A.ARB_MASK n.val) v s ∧ isFixedMask n.val = true) :=
  ⟨⟨0x75, 0#32, up, 3, by decide +kernel⟩,
    ⟨0x75, 0#32, up, .share 2, by decide +kernel⟩,
    ⟨0x75, 0#32, overQuota, 3, the 0 (failingTest (overQuota.setReg (A.ARB_MASK 3) (0#32))), by decide +kernel⟩,
    ⟨0x75, 0#32, overQuota, .share 2, the 0 (failingTest (overQuota.setReg (budgetAddr (.share 2)) (0#32))), by decide +kernel⟩,
    ⟨0x75, 0x102#32, up, 3, by decide +kernel⟩,
    ⟨0x75, 0x102#32, overQuota, 3, the 0 (failingTest (overQuota.setReg (A.ARB_CFG 3) (0x102#32))), by decide +kernel⟩,
    ⟨0x75, 0xF000000#32, up, by decide +kernel⟩,
    ⟨0x75, 0x75, 0#32, up, by decide +kernel⟩⟩

end Fabric

namespace Ledger

def line0 : List Byte := List.replicate 64 7#8
def buf1 : BufLine := ⟨⟨0x2000, line0, []⟩, 0x78⟩
def buf2 : BufLine := ⟨⟨0x2040, line0, []⟩, 0x78⟩
def buffered : State := { up with ledg := { up.ledg with bufs := upd up.ledg.bufs 2 (fun _ => [buf1, buf2]), recPend := [.fresh 3 9, .serial 5] } }
def noSpare : State := { buffered with ledg := { buffered.ledg with spares := [] } }
def oneSpare : State := { buffered.put F.LEDG_WEAR_SPARES 100 with ledg := { buffered.ledg with spares := [16000], maxWear := 0 } }
def mv (st : MoveStage) (r : Bool) : Sys2Proof.Machine.Move := ⟨3, 3, 16000, r, st⟩
def moving (st : MoveStage) (r : Bool) : State := { up with ledg := { up.ledg with moves := [mv st r, ⟨5, 5, 16001, false, .copy⟩], spares := [16100] } }
def movingSp : State := (moving .copy false).put F.LEDG_WEAR_SPARES 100
def recMoved : State := { buffered with ledg := { buffered.ledg with moves := [⟨recLine (.fresh 3 9 : RecordKind).ix / 4096, 7, 16001, false, .copy⟩] } }
def tx (p : TxnPhase) (c : Bool) (l : List (Nat × List Byte)) : Txn := ⟨0x75, 3, p, l, c, .none, []⟩
def txl : List (Nat × List Byte) := [(0x1000, line0), (0x3BFFFC0, line0)]
def withT (l : List Txn) : State := { up with ledg := { up.ledg with txns := l } }
def txOpen : State := withT [tx .opened false txl]
def txConf : State := withT [tx .opened true txl]
def txDone : State := withT [tx .committing false txl]
def txPast : State := withT [tx .committed false txl]
def txLate : State := withT [⟨0x76, 2, .committed, txl, false, .none, []⟩, tx .committed false txl]
def txHeld : State := { txPast with ledg := { txPast.ledg with held := [.write 0x78 0x1010 [1#8, 2#8] none] } }
def txWait : State := { txOpen with ledg := { txOpen.ledg with held := [.write 0x75 0x1010 [1#8, 2#8] (some 3)] } }
def txFull : State := withT ((List.range 16).map (fun i => ⟨i, i, .opened, [], false, .none, []⟩))
def patrol : State := (((up.put F.PIGN_SCRUB_INTERVAL 1).mark F.PIGN_STAT_READY).put (F.ARB_MASK_BANKS 0x7B) 0x00FFFFFF).put (F.ARB_CFG_BURST 0x7B) 3
def pz (n : Nat) : State := { patrol with ledg := { patrol.ledg with scrubPtr := n } }
def pg (i a : Nat) (fl : List Flip) (n : Nat) : State := { pz n with arbs := upd patrol.arbs (8 + i) (fun _ => ⟨[⟨0x7B, true, [⟨a, 16, none, 1⟩], none⟩], [], none, some ⟨0x7B, true, 3⟩⟩), ledg := { (pz n).ledg with flips := fl } }
def f1 : Flip := ⟨0x08200008, 4⟩
def g1 : Flip := ⟨0x08200008, 71⟩

theorem witness_ProgramsComplete :
    (∃ (b : Fin 8) (v : Verify) (e : BufLine) (q : List BufLine) (s : State), nth s.ledg.bufs b.val [] = e :: q ∧ s.ledg.moves = [] ∧ v ≠ Verify.failed) ∧
    (∃ (s : State), s.ledg.held = [] ∧ s.ledg.flips = [] ∧ s.ledg.moves = []) ∧
    (∃ (b : Fin 8) (s : State), nth s.ledg.bufs b.val [] = []) ∧
    (∃ (b : Fin 8) (s : State), (∀ e ∈ nth s.ledg.bufs b.val [], lineWaits s e.cells.line = true)) ∧
    (∃ (b : Fin 8) (e : BufLine) (q : List BufLine) (s : State), nth s.ledg.bufs b.val [] = e :: q ∧ s.ledg.moves = [] ∧ s.ledg.spares = [] ∧ e.cells.data.length = 64) ∧
    (∃ (b : Fin 8) (e : BufLine) (q : List BufLine) (x : ℕ) (s : State), nth s.ledg.bufs b.val [] = e :: q ∧ s.ledg.moves = [] ∧ s.ledg.spares = [x] ∧ s.ledg.maxWear + 2 < 65536 ∧ mapGet wearDefault s.ledg.wear (physBlock s (e.cells.line / 4096) * 64 + e.cells.line / 64 % 64) + 2 < 65536 ∧ 64 < s.get F.LEDG_WEAR_SPARES) ∧
    (∃ (v : Verify) (s : State) (m : Move) (q : List Move), s.ledg.held = [] ∧ s.ledg.flips = [] ∧ s.ledg.moves = m :: q ∧ m.stage = MoveStage.copy ∧ v ≠ Verify.failed) ∧
    (∃ (v : Verify) (s : State) (m : Move) (q : List Move), s.ledg.held = [] ∧ s.ledg.flips = [] ∧ s.ledg.moves = m :: q ∧ m.stage = MoveStage.record ∧ v ≠ Verify.failed) ∧
    (∃ (v : Verify) (s : State) (m : Move) (q : List Move), s.ledg.held = [] ∧ s.ledg.flips = [] ∧ s.ledg.moves = m :: q ∧ m.stage = MoveStage.retire ∧ v ≠ Verify.failed) ∧
    (∃ (s : State) (m : Move) (q : List Move) (x : ℕ), s.ledg.held = [] ∧ s.ledg.flips = [] ∧ s.ledg.moves = m :: q ∧ m.stage = MoveStage.copy ∧ s.ledg.spares = [x] ∧ 64 < s.get F.LEDG_WEAR_SPARES) ∧
    (∃ (v : Verify) (s : State) (m : Move) (q : List Move), s.ledg.held = [] ∧ s.ledg.flips = [] ∧ s.ledg.moves = m :: q ∧ m.stage = MoveStage.map ∧ v ≠ Verify.failed) ∧
    (∃ (r : RecordKind) (q : List RecordKind) (s : State), s.ledg.recPend = r :: q ∧ blockMoving s (recLine r.ix) = true) ∧
    (∃ (v : Verify) (r : RecordKind) (q : List RecordKind) (s : State), s.ledg.recPend = r :: q ∧ v ≠ Verify.failed ∧ blockMoving s (recLine r.ix) = false) :=
  ⟨⟨2, .good, buf1, [buf2], buffered, by decide +kernel⟩,
    ⟨buffered, by decide +kernel⟩,
    ⟨2, up, by decide +kernel⟩,
    ⟨2, up, by decide +kernel⟩,
    ⟨2, buf1, [buf2], noSpare, by decide +kernel⟩,
    ⟨2, buf1, [buf2], 16000, oneSpare, by decide +kernel⟩,
    ⟨.good, moving .copy false, mv .copy false, [⟨5, 5, 16001, false, .copy⟩], by decide +kernel⟩,
    ⟨.good, moving .record false, mv .record false, [⟨5, 5, 16001, false, .copy⟩], by decide +kernel⟩,
    ⟨.good, moving .retire true, mv .retire true, [⟨5, 5, 16001, false, .copy⟩], by decide +kernel⟩,
    ⟨movingSp, mv .copy false, [⟨5, 5, 16001, false, .copy⟩], 16100, by decide +kernel⟩,
    ⟨.good, moving .map false, mv .map false, [⟨5, 5, 16001, false, .copy⟩], by decide +kernel⟩,
    ⟨.fresh 3 9, [.serial 5], recMoved, by decide +kernel, by simp [blockMoving, recMoved, Move.early]⟩,
    ⟨.good, .fresh 3 9, [.serial 5], buffered, by decide +kernel⟩⟩

theorem witness_TransactionCommands :
    (∃ (u : Fin 256) (s : State), (u.val = 117 ∨ u.val = 118) ∧ Writes u A.LEDG_TXN s ∧ txnOf s u.val = none ∧ openTxns s < 16) ∧
    (∃ (u : Fin 256) (s : State), (u.val = 117 ∨ u.val = 118) ∧ Writes u A.LEDG_TXN s ∧ txnOf s u.val ≠ none) ∧
    (∃ (u : Fin 256) (s : State) (x : Txn), (u.val = 117 ∨ u.val = 118) ∧ Writes u A.LEDG_TXN s ∧ txnOf s u.val = some x ∧ x.phase = TxnPhase.opened ∧ x.conflict = false ∧ heldIn s x = false ∧ HeldOp.commit u.val ∉ s.ledg.held) ∧
    (∃ (u : Fin 256) (s : State) (x : Txn), (u.val = 117 ∨ u.val = 118) ∧ Writes u A.LEDG_TXN s ∧ txnOf s u.val = some x ∧ x.phase = TxnPhase.opened ∧ x.conflict = true ∧ x.act = TxnThen.none ∧ heldIn s x = false ∧ HeldOp.commit u.val ∉ s.ledg.held) ∧
    (∃ (u : Fin 256) (s : State), (u.val = 117 ∨ u.val = 118) ∧ Writes u A.LEDG_TXN s ∧ txnOf s u.val = none ∧ 16 ≤ openTxns s) ∧
    (∃ (u : Fin 256) (s : State) (x : Txn), (u.val = 117 ∨ u.val = 118) ∧ Writes u A.LEDG_TXN s ∧ txnOf s u.val = some x ∧ x.phase = TxnPhase.opened ∧ heldIn s x = true ∧ HeldOp.commit u.val ∉ s.ledg.held) :=
  ⟨⟨0x75, up, by decide +kernel⟩,
    ⟨0x75, txOpen, by decide +kernel⟩,
    ⟨0x75, txOpen, the anyTxn (txnOf txOpen 0x75), by decide +kernel⟩,
    ⟨0x75, txConf, the anyTxn (txnOf txConf 0x75), by decide +kernel⟩,
    ⟨0x75, txFull, by decide +kernel⟩,
    ⟨0x75, txWait, the anyTxn (txnOf txWait 0x75), by decide +kernel⟩⟩

theorem witness_CommitIsAtomic :
    (∃ (u : Fin 128) (s : State), (txnOf s u.val = none ∨ (∃ (x : Txn), txnOf s u.val = some x ∧ x.phase ≠ TxnPhase.committing) ∨ s.quiet = true ∨ 122 ∈ s.flt.resets ∨ ∃ (x : Txn), txnOf s u.val = some x ∧ journalFree s (x.lines.length + 1) = false)) ∧
    (∃ (u : Fin 128) (x : Txn) (s : State), 64 < u.val ∧ txnOf s u.val = some x ∧ x.phase = TxnPhase.committing ∧ x.act = TxnThen.none ∧ s.quiet = false ∧ 122 ∉ s.flt.resets ∧ x.lines.length ≤ 12 ∧ s.ledg.jrnlPos < 4096 ∧ s.ledg.verify = [] ∧ s.ledg.moves = [] ∧ (∀ e ∈ x.lines, e.1 % 64 = 0 ∧ e.1 + 64 ≤ 62914560 ∧ e.2.length = 64) ∧ List.Pairwise (fun (e f : ℕ × List Byte) => e.1 ≠ f.1) x.lines) ∧
    (∃ (u : Fin 128) (x : Txn) (s : State), List.find? (fun (y : Txn) => y.owner == u.val && y.phase == TxnPhase.committed) s.ledg.txns = some x ∧ s.quiet = false ∧ 122 ∉ s.flt.resets ∧ (∀ q ∈ s.ports, Option.all (fun (n : NodeTxn) => n.todo.isNone) q.txn = true) ∧ mayRetire s x = true ∧ s.ledg.held = [] ∧ s.ledg.verify = []) ∧
    (∃ (u : Fin 128) (x : Txn) (s : State) (w : ℕ) (a : ℕ) (d : List Byte), List.find? (fun (y : Txn) => y.owner == u.val && y.phase == TxnPhase.committed) s.ledg.txns = some x ∧ s.quiet = false ∧ 122 ∉ s.flt.resets ∧ (∀ q ∈ s.ports, Option.all (fun (n : NodeTxn) => n.todo.isNone) q.txn = true) ∧ mayRetire s x = true ∧ s.ledg.held = [HeldOp.write w a d none] ∧ s.ledg.verify = [] ∧ s.ledg.txns = [x] ∧ a % 64 + d.length ≤ 64 ∧ a + d.length ≤ 62914560 ∧ (nth s.ledg.bufs (ledgBank a) []).length < 16) ∧
    (∃ (u : Fin 128) (x : Txn) (s : State), List.find? (fun (y : Txn) => y.owner == u.val && y.phase == TxnPhase.committed) s.ledg.txns = some x ∧ s.quiet = false ∧ 122 ∉ s.flt.resets ∧ (∀ q ∈ s.ports, Option.all (fun (n : NodeTxn) => n.todo.isNone) q.txn = true) ∧ mayRetire s x = false ∧ s.ledg.held = []) :=
  ⟨⟨0x75, up, by decide +kernel⟩,
    ⟨0x75, the anyTxn (txnOf txDone 0x75), txDone, by decide +kernel⟩,
    ⟨0x75, tx .committed false txl, txPast, by decide +kernel⟩,
    ⟨0x75, tx .committed false txl, txHeld, 0x78, 0x1010, [1#8, 2#8], by decide +kernel⟩,
    ⟨0x75, tx .committed false txl, txLate, by decide +kernel⟩⟩

theorem witness_PatrolChecksOneBeat :
    (∃ (s : State) (i : Fin 16) (a : ℕ), a = 134217728 + i.val * 2 ^ 20 + 16 * s.ledg.scrubPtr ∧ logicPowered s = true ∧ s.get F.PIGN_SCRUB_INTERVAL = 0) ∧
    (∃ (s : State) (i : Fin 16) (a : ℕ), a = 134217728 + i.val * 2 ^ 20 + 16 * s.ledg.scrubPtr ∧ logicPowered s = true ∧ s.get F.PIGN_SCRUB_INTERVAL ≠ 0 ∧ s.flag F.PIGN_STAT_READY = true) ∧
    (∃ (s : State) (i : Fin 16) (a : ℕ) (q : Arb) (n : ℕ) (w : ℕ) (m : Option ℕ) (f : Flip) (g : Flip), a = 134217728 + i.val * 2 ^ 20 + 16 * s.ledg.scrubPtr ∧ logicPowered s = true ∧ s.arbs[8 + i.val]? = some q ∧ q.granted = some { unit := 123, ahead := true, burst := n + 1 } ∧ q.reqs = [{ unit := 123, ahead := true, pieces := [{ addr := a, len := 16, data := none, beats := 1 }], since := m }] ∧ s.ledg.scrubPtr < 65536 ∧ maskOk s 123 (8 + i.val) = true ∧ txnOf s 123 = none ∧ (w = a ∨ w = a + 8) ∧ f.addr = w ∧ f.bit < 72 ∧ g.addr = w ∧ g.bit < 72 ∧ s.ledg.flips = []) ∧
    (∃ (s : State) (i : Fin 16) (a : ℕ) (q : Arb) (n : ℕ) (w : ℕ) (m : Option ℕ) (f : Flip) (g : Flip), a = 134217728 + i.val * 2 ^ 20 + 16 * s.ledg.scrubPtr ∧ logicPowered s = true ∧ s.arbs[8 + i.val]? = some q ∧ q.granted = some { unit := 123, ahead := true, burst := n + 1 } ∧ q.reqs = [{ unit := 123, ahead := true, pieces := [{ addr := a, len := 16, data := none, beats := 1 }], since := m }] ∧ s.ledg.scrubPtr < 65536 ∧ maskOk s 123 (8 + i.val) = true ∧ txnOf s 123 = none ∧ (w = a ∨ w = a + 8) ∧ f.addr = w ∧ f.bit < 72 ∧ g.addr = w ∧ g.bit < 72 ∧ s.ledg.flips = [f]) ∧
    (∃ (s : State) (i : Fin 16) (a : ℕ) (q : Arb) (n : ℕ) (w : ℕ) (m : Option ℕ) (f : Flip) (g : Flip) (k : Core), a = 134217728 + i.val * 2 ^ 20 + 16 * s.ledg.scrubPtr ∧ logicPowered s = true ∧ s.arbs[8 + i.val]? = some q ∧ q.granted = some { unit := 123, ahead := true, burst := n + 1 } ∧ q.reqs = [{ unit := 123, ahead := true, pieces := [{ addr := a, len := 16, data := none, beats := 1 }], since := m }] ∧ s.ledg.scrubPtr < 65536 ∧ maskOk s 123 (8 + i.val) = true ∧ txnOf s 123 = none ∧ (w = a ∨ w = a + 8) ∧ f.addr = w ∧ f.bit < 72 ∧ g.addr = w ∧ g.bit < 72 ∧ Listens s k ∧ s.flt.dayQ.length < 32 ∧ priValid s 123 = false ∧ s.flag F.PIGN_STAT_UE = false ∧ s.ledg.flips = [f, g] ∧ f.bit ≠ g.bit) :=
  ⟨⟨up.put F.PIGN_SCRUB_INTERVAL 0, 0, 0x08000000, by decide +kernel⟩,
    ⟨patrol, 0, 0x08000000, by decide +kernel⟩,
    ⟨pg 2 0x08200000 [] 0, 2, 0x08200000, the anyArb (pg 2 0x08200000 [] 0).arbs[8 + 2]?, 2, 0x08200008, none, f1, g1, by decide +kernel⟩,
    ⟨pg 2 0x08200000 [f1] 0, 2, 0x08200000, the anyArb (pg 2 0x08200000 [f1] 0).arbs[8 + 2]?, 2, 0x08200008, none, f1, g1, by decide +kernel⟩,
    ⟨pg 2 0x08200000 [f1, g1] 0, 2, 0x08200000, the anyArb (pg 2 0x08200000 [f1, g1] 0).arbs[8 + 2]?, 2, 0x08200008, none, f1, g1, the idleCore ((pg 2 0x08200000 [f1, g1] 0).core 0), by decide +kernel⟩⟩

end Ledger

namespace Line

def port3 (f : Port → Port) (s : State) : State := { s with ports := upd s.ports 3 f }
def en3 : State := up.mark (F.FL_CTRL_EN 3)
def withNode (p n : Nat) (r : NodeRec) (s : State) : State := putBytes (nodeAddr s p n) (encodeNode r) s
def xc (c : LineCmd) (u : LineUse) : Exchange := ⟨c, u, [], 0, false, 0, 0, false, 0, 0, none, none, false, []⟩
def ready3 : State := port3 (fun q => { q with want := [(.ping 5, .follow), (.convert, .round)] }) en3
def key3 : List Byte × List Byte := (List.replicate 16 9#8, List.replicate 1 0xFF#8)
def keyed3 : State := (port3 (fun q => { q with key := some key3 }) ready3).put (F.FL_FRESH_FRESH 3) 0x1FFFF
def sendingAt (l h : Nat) : State := port3 (fun q => { q with stage := .sending, lead := l, half := h, xchg := some ⟨.ping 5, .follow, [0xA0#8, 0x05#8], 0, false, 0, 0, false, 0, 0, none, none, false, []⟩ }) up
def replyTo (n st : Nat) (d : List Byte) : List Byte := let b := [0xA8#8] ++ leBytes 2 n ++ leBytes 1 st ++ leBytes 1 d.length ++ d; b ++ leBytes 2 (crc16 b)
def runsOf (r : Nat) : Nat → Nat → List Bool → List (Bool × Nat)
  | _, _, [] => []
  | i, n, [b] => [(b, (i + n + 1) * 2 ^ 24 / r - i * 2 ^ 24 / r)]
  | i, n, b :: c :: t => if b = c then runsOf r i (n + 1) (c :: t) else (b, (i + n + 1) * 2 ^ 24 / r - i * 2 ^ 24 / r) :: runsOf r (i + n + 1) 0 (c :: t)
def rate3 : Nat := 15625 * 2 ^ up.get (F.FL_CTRL_RATE 3)
def burst (a : Nat) (d : List Byte) : Burst := ⟨a, runsOf rate3 0 0 ((frameLevels 2 d).dropWhile (!·) ++ [false])⟩
def nodes3 : State := withNode 3 5 ⟨77, 1, 1, 2, 3, 0, 0x100⟩ (en3.put (F.ARB_MASK_BANKS (portUnit 3)) 0x00FFFFFF)
def reading3 : State := port3 (fun q => { q with stage := .listening, xchg := some (xc (.readChain 5 1 0 2) .round) }) nodes3
def sd00 : Nat := 40 * 2 ^ 25 / rate3
def heard0 : Heard := decodeBurst (glitchLen up 3) rate3 (burst 0 (replyTo 5 0 [1#8, 2#8, 3#8, 4#8]))
def sd0 : Nat := sd00
def after0 : Nat := sd00 - heard0.sd.getD 0
def lbRound : Round := ⟨.letterbox, false, 3, false, true, [], 0, 0, [], [], false, [], none⟩
def lb (x : Exchange) : State := (port3 (fun q => { q with stage := .listening, round := some lbRound, xchg := some x }) nodes3).put (F.FL_LBCFG_MAXEX 3) 8
def lbx : Exchange := xc (.letterbox 2 1) .round
def lbReply : HeardReply := ⟨5, 0, [2#8, 1#8, 9#8, 0#8], 77⟩
def k0 : Core := (up.core 0).getD idleCore
def behind3 : State := (((en3.mark (F.FL_FENCE_EN 3 2)).put (F.FL_FENCE_LO 3 2) 4).put (F.FL_FENCE_HI 3 2) 9).put (F.FL_FENCE_REASON 3 2) 3
def waiting (b : Burst) : State := port3 (fun q => { q with rx := some b }) en3
def quietly (b : Burst) : Heard := heardBy en3 3 { b with runs := quietRuns (rateNum en3 3) b.runs }
def noSd : Burst := let b := burst 5 (replyTo 5 0 [1#8]); { b with runs := b.runs.take 3 }
def noisy3 : State := (((waiting noSd).put (F.FL_STR_PEND_PEND 3) 0x10).put (F.FL_STRCFG_NOISE_LIM 3) 4)

theorem witness_FramesAreSentAndBuilt :
    (∃ (p : Fin 32) (q : Port) (s : State), s.port p.val = some q ∧ q.stage ≠ LineStage.sending) ∧
    (∃ (p : Fin 32) (q : Port) (s : State) (c : Instr × LineStage × LineStage), s.port p.val = some q ∧ c ∈ [(Instr.frameTxEnd p, LineStage.sending, LineStage.lag), (Instr.deLagExpiry p, LineStage.lag, LineStage.blank), (Instr.rxBlankExpiry p, LineStage.blank, LineStage.listening)] ∧ q.stage ≠ c.2.1) ∧
    (∃ (p : Fin 32) (q : Port) (s : State) (c : Instr × LineStage × LineStage), s.port p.val = some q ∧ c ∈ [(Instr.frameTxEnd p, LineStage.sending, LineStage.lag), (Instr.deLagExpiry p, LineStage.lag, LineStage.blank), (Instr.rxBlankExpiry p, LineStage.blank, LineStage.listening)] ∧ q.stage = c.2.1) ∧
    (∃ (p : Fin 32) (q : Port) (s : State) (x : Exchange), s.port p.val = some q ∧ q.stage = LineStage.sending ∧ q.xchg = some x ∧ s.get (F.FL_CPL_DE_LEAD p.val) * 2 ^ 24 ≤ q.lead * 10 ^ 6) ∧
    (∃ (p : Fin 32) (q : Port) (c : LineCmd) (use : LineUse) (rest : List (LineCmd × LineUse)) (s : State), s.port p.val = some q ∧ q.want = (c, use) :: rest ∧ q.txn = none ∧ (q.xchg ≠ none ∨ q.wait ≠ none ∨ s.flag (F.FL_RSTAT_HELD p.val) = true ∨ s.flag (F.FL_STAT_FLT p.val) = true ∨ s.flag (F.FL_CTRL_EN p.val) = false)) ∧
    (∃ (p : Fin 32) (q : Port) (c : LineCmd) (use : LineUse) (rest : List (LineCmd × LineUse)) (s : State) (body : List Byte), s.port p.val = some q ∧ q.want = (c, use) :: rest ∧ portWorks s p.val = true ∧ s.safe = false ∧ q.xchg = none ∧ q.wait = none ∧ q.txn = none ∧ s.flag (F.FL_STAT_FLT p.val) = false ∧ s.flag (F.FL_RSTAT_HELD p.val) = false ∧ s.flag (F.FL_CTRL_EN p.val) = true ∧ (∀ (m n : ℕ), c ≠ LineCmd.assign m n) ∧ q.key = none ∧ body = [160] ++ leBytes 2 (cmdParts c).1 ++ leBytes 1 (cmdParts c).2.1 ++ leBytes 1 (cmdParts c).2.2.length ++ (cmdParts c).2.2) ∧
    (∃ (p : Fin 32) (q : Port) (c : LineCmd) (use : LineUse) (rest : List (LineCmd × LineUse)) (s : State) (n : ℕ), s.port p.val = some q ∧ q.want = (c, use) :: rest ∧ portWorks s p.val = true ∧ s.safe = false ∧ q.xchg = none ∧ q.wait = none ∧ q.txn = none ∧ s.flag (F.FL_STAT_FLT p.val) = false ∧ s.flag (F.FL_RSTAT_HELD p.val) = false ∧ s.flag (F.FL_CTRL_EN p.val) = true ∧ (∀ (m n : ℕ), c ≠ LineCmd.assign m n) ∧ q.key ≠ none ∧ s.ledg.recPend = [] ∧ n = (s.get (F.FL_FRESH_FRESH p.val) + 1) % 2 ^ 32) ∧
    (∃ (p : Fin 32) (q : Port) (s : State), s.port p.val = some q ∧ q.built = [] ∧ portWorks s p.val = true ∧ s.safe = false ∧ s.flag (F.FL_CTRL_EN p.val) = true ∧ s.flag F.TT_CTRL_RUN = true ∧ portSkips s p.val = false) :=
  ⟨⟨3, the idlePort (up.port 3), up, by decide +kernel⟩,
    ⟨3, the idlePort (up.port 3), up, (Instr.frameTxEnd 3, LineStage.sending, LineStage.lag), by decide +kernel⟩,
    ⟨3, the idlePort ((port3 (fun q => { q with stage := LineStage.sending, key := q.key : Port }) up).port 3), port3 (fun q => { q with stage := .sending }) up, (Instr.frameTxEnd 3, LineStage.sending, LineStage.lag), by decide +kernel⟩,
    ⟨3, the idlePort ((sendingAt 1000000 0).port 3), sendingAt 1000000 0, the anyX (the idlePort ((sendingAt 1000000 0).port 3)).xchg, by decide +kernel⟩,
    ⟨3, the idlePort ((ready3.mark (F.FL_RSTAT_HELD 3)).port 3), .ping 5, .follow, [(.convert, .round)], ready3.mark (F.FL_RSTAT_HELD 3), by decide +kernel⟩,
    ⟨3, the idlePort (ready3.port 3), .ping 5, .follow, [(.convert, .round)], ready3, [160] ++ leBytes 2 (cmdParts (.ping 5)).1 ++ leBytes 1 (cmdParts (.ping 5)).2.1 ++ leBytes 1 (cmdParts (.ping 5)).2.2.length ++ (cmdParts (.ping 5)).2.2, by refine ⟨?_, ?_, ?_, ?_, ?_, ?_, ?_, ?_, ?_, ?_, by rintro m n ⟨⟩, ?_⟩ <;> decide +kernel⟩,
    ⟨3, the idlePort (keyed3.port 3), .ping 5, .follow, [(.convert, .round)], keyed3, (keyed3.get (F.FL_FRESH_FRESH 3) + 1) % 2 ^ 32, by refine ⟨?_, ?_, ?_, ?_, ?_, ?_, ?_, ?_, ?_, ?_, by rintro m n ⟨⟩, ?_⟩ <;> decide +kernel⟩,
    ⟨3, the idlePort ((en3.mark F.TT_CTRL_RUN).port 3), en3.mark F.TT_CTRL_RUN, by decide +kernel⟩⟩

theorem witness_BurstsAndReplies :
    (∃ (p : Fin 32) (q : Port) (s : State), s.port p.val = some q ∧ (q.stage = LineStage.sending ∨ q.stage = LineStage.lag ∨ q.stage = LineStage.blank ∨ q.deaf = true)) ∧
    (∃ (p : Fin 32) (q : Port) (s : State), s.port p.val = some q ∧ s.pow.phase = Phase.up ∧ s.pwr ≤ 1 ∧ q.rx = none) ∧
    (∃ (p : Fin 32) (q : Port) (b : Burst) (s : State) (c : RxClass × Fd), s.port p.val = some q ∧ q.stage = LineStage.idle ∧ q.xchg = none ∧ q.round = none ∧ q.want = [] ∧ q.yieldDue = false ∧ q.rx = none ∧ q.deaf = false ∧ portWorks s p.val = true ∧ s.flag (F.FL_CTRL_EN p.val) = true ∧ (heardBy s (p.val) b).decided = true ∧ endsThere s (p.val) (heardBy s (p.val) b) ∧ (∀ k < 8, fenceHas s (p.val) k (burstReply (heardBy s (p.val) b) s.pm).node = true → s.get (F.FL_FENCE_REASON (p.val) k) ≠ 3) ∧ c ∈ [(RxClass.crcBad, F.FL_CNT_ERR_CRC_BAD p.val), (RxClass.macBad, F.FL_CNT_ERR_MAC_BAD p.val), (RxClass.malformed, F.FL_CNT_CLS_MALFORMED p.val), (RxClass.good, F.FL_CNT_GOOD_GOOD p.val)] ∧ classOf s (p.val) (s.get (F.FL_FRESH_FRESH p.val)) false (heardBy s (p.val) b) = c.1) ∧
    (∃ (p : Fin 32) (q : Port) (s : State) (b : Burst) (d : Heard) (c : RxClass × Fd), s.port p.val = some q ∧ s.pow.phase = Phase.up ∧ s.pwr ≤ 1 ∧ q.rx = some b ∧ d = heardBy s p.val { after := b.after, runs := quietRuns (rateNum s p.val) b.runs } ∧ q.xchg = none ∧ q.round = none ∧ q.want = [] ∧ q.yieldDue = false ∧ s.flag (F.FL_CTRL_EN p.val) = true ∧ d.decided = true ∧ endsThere s (p.val) d ∧ c ∈ [(RxClass.malformed, F.FL_CNT_CLS_MALFORMED p.val), (RxClass.crcBad, F.FL_CNT_ERR_CRC_BAD p.val), (RxClass.macBad, F.FL_CNT_ERR_MAC_BAD p.val)] ∧ classOf s (p.val) (s.get (F.FL_FRESH_FRESH p.val)) false d = c.1) ∧
    (∃ (p : Fin 32) (q : Port) (x : Exchange) (b : Burst) (d : Heard) (h : HeardReply) (f : ℕ) (n : ℕ) (pf : ℕ) (pn : ℕ) (sd : ℕ) (k : ℕ) (r : NodeRec) (s : State), s.port p.val = some q ∧ q.stage = LineStage.listening ∧ q.rx = none ∧ q.deaf = false ∧ portWorks s p.val = true ∧ q.xchg = some x ∧ x.cmd = LineCmd.readChain f n pf pn ∧ s.ledg.flips = [] ∧ d = heardBy s (p.val) b ∧ d.decided = true ∧ endsThere s (p.val) d ∧ d.sd = some sd ∧ inNodeWindow s (p.val) x sd = true ∧ classOf s (p.val) x.fresh false d = RxClass.good ∧ k = f + x.next ∧ h = burstReply d ((s.pm + 2 ^ 64 - 4 * s.get (F.FL_CPL_GLITCH p.val)) % 2 ^ 64) ∧ h.node = k ∧ poisonFor s (portUnit p.val) (nodeAddr s (p.val) k) = false ∧ r = nodeRec s (p.val) k ∧ r.state = nsEnrolled ∧ r.strikes = 0 ∧ r.epbase ≠ noEp ∧ (∀ i < 8, fenceHas s (p.val) i k = false) ∧ k ∉ q.absent ∧ bit h.status 4 = false ∧ h.payload.length = 2 * pointsExpected r pf pn) ∧
    (∃ (p : Fin 32) (q : Port) (x : Exchange) (s : State), s.port p.val = some q ∧ q.xchg = some x ∧ q.stage = LineStage.listening ∧ x.next < (cmdNodes x.cmd).2) ∧
    (∃ (p : Fin 32) (q : Port) (x : Exchange) (s : State), s.port p.val = some q ∧ q.xchg = some x ∧ (q.stage ≠ LineStage.listening ∨ (cmdNodes x.cmd).2 ≤ x.next)) ∧
    (∃ (p : Fin 32) (q : Port) (b : Burst) (f : ℕ) (k : Core) (s : State), s.port p.val = some q ∧ q.stage = LineStage.idle ∧ q.xchg = none ∧ q.round = none ∧ q.want = [] ∧ q.yieldDue = false ∧ q.rx = none ∧ q.deaf = false ∧ portWorks s p.val = true ∧ s.flag (F.FL_CTRL_EN p.val) = true ∧ (heardBy s (p.val) b).decided = true ∧ endsThere s (p.val) (heardBy s (p.val) b) ∧ classOf s (p.val) (s.get (F.FL_FRESH_FRESH p.val)) false (heardBy s (p.val) b) = RxClass.good ∧ Listens s k ∧ f < 8 ∧ (∀ g < 8, fenceHas s (p.val) g (burstReply (heardBy s (p.val) b) s.pm).node = true ∧ s.get (F.FL_FENCE_REASON (p.val) g) = 3 ↔ g = f)) ∧
    (∃ (p : Fin 32) (q : Port) (s : State) (b : Burst) (d : Heard), s.port p.val = some q ∧ s.pow.phase = Phase.up ∧ s.pwr ≤ 1 ∧ q.rx = some b ∧ d = heardBy s p.val { after := b.after, runs := quietRuns (rateNum s p.val) b.runs } ∧ q.xchg = none ∧ q.round = none ∧ q.want = [] ∧ q.yieldDue = false ∧ s.flag (F.FL_CTRL_EN p.val) = true ∧ d.sd = none ∧ bit (s.get (F.FL_STR_PEND_PEND p.val)) 4 = true ∧ 0 < s.get (F.FL_STRCFG_NOISE_LIM p.val)) :=
  ⟨⟨3, the idlePort ((port3 (fun q => { q with stage := LineStage.blank, key := q.key : Port }) up).port 3), port3 (fun q => { q with stage := .blank }) up, by decide +kernel⟩,
    ⟨3, the idlePort ((port3 (fun q => { q with stage := LineStage.blank, key := q.key : Port }) up).port 3), port3 (fun q => { q with stage := .blank }) up, by decide +kernel⟩,
    ⟨3, the idlePort (en3.port 3), burst 5 (replyTo 5 0 [1#8]), en3, (RxClass.good, F.FL_CNT_GOOD_GOOD ↑3), by decide +kernel⟩,
    ⟨3, the idlePort ((port3 (fun q => { q with rx := some (burst 5 [160#8]), key := q.key : Port }) en3).port 3), port3 (fun q => { q with rx := some (burst 5 [0xA0#8]) }) en3, burst 5 [0xA0#8], heardBy (port3 (fun q => { q with rx := some (burst 5 [0xA0#8]) }) en3) 3 { after := (burst 5 [0xA0#8]).after, runs := quietRuns (rateNum (port3 (fun q => { q with rx := some (burst 5 [0xA0#8]) }) en3) 3) (burst 5 [0xA0#8]).runs : Burst }, (RxClass.malformed, F.FL_CNT_CLS_MALFORMED ↑3), by decide +kernel⟩,
    ⟨3, the idlePort (reading3.port 3), the anyX (the idlePort (reading3.port 3)).xchg, burst after0 (replyTo 5 0 [1#8, 2#8, 3#8, 4#8]), heardBy up 3 (burst after0 (replyTo 5 0 [1#8, 2#8, 3#8, 4#8])), ⟨5, 0, [1#8, 2#8, 3#8, 4#8], (reading3.pm + 2 ^ 64 - 4 * up.get (F.FL_CPL_GLITCH 3)) % 2 ^ 64⟩, 5, 1, 0, 2, sd0, 5, nodeRec reading3 3 5, reading3, by decide +kernel⟩,
    ⟨3, the idlePort (reading3.port 3), the anyX (the idlePort (reading3.port 3)).xchg, reading3, by decide +kernel⟩,
    ⟨3, the idlePort ((port3 (fun q => { q with stage := LineStage.sending, key := q.key : Port }) reading3).port 3), the anyX (the idlePort ((port3 (fun q => { q with stage := LineStage.sending, key := q.key : Port }) reading3).port 3)).xchg, port3 (fun q => { q with stage := .sending }) reading3, by decide +kernel⟩,
    ⟨3, the idlePort (behind3.port 3), burst 5 (replyTo 5 0 [1#8]), 2, k0, behind3, by decide +kernel⟩,
    ⟨3, the idlePort (noisy3.port 3), noisy3, noSd, quietly noSd, by decide +kernel⟩⟩

theorem witness_LetterboxResolution :
    (∃ (p : Fin 32) (q : Port) (x : Exchange) (s : State) (r : Round) (l : ℕ) (pre : ℕ), s.port p.val = some q ∧ q.stage = LineStage.listening ∧ q.xchg = some x ∧ q.want = [] ∧ q.yieldDue = false ∧ q.walk = none ∧ q.stop = false ∧ s.flag (F.FL_CTRL_EN p.val) = true ∧ s.flag (F.FL_RSTAT_BACKOFF p.val) = false ∧ q.round = some r ∧ r.kind = RoundKind.letterbox ∧ r.begun = true ∧ r.done = none ∧ x.use = LineUse.round ∧ x.cmd = LineCmd.letterbox l pre ∧ r.ex + 1 < s.get (F.FL_LBCFG_MAXEX p.val) ∧ outcomeOf x false = Outcome.empty ∧ q.lbStack = []) ∧
    (∃ (p : Fin 32) (q : Port) (x : Exchange) (s : State) (r : Round) (l : ℕ) (pre : ℕ) (i : Instr) (cut : Bool), s.port p.val = some q ∧ q.stage = LineStage.listening ∧ q.xchg = some x ∧ q.want = [] ∧ q.yieldDue = false ∧ q.walk = none ∧ q.stop = false ∧ s.flag (F.FL_CTRL_EN p.val) = true ∧ s.flag (F.FL_RSTAT_BACKOFF p.val) = false ∧ q.round = some r ∧ r.kind = RoundKind.letterbox ∧ r.begun = true ∧ r.done = none ∧ x.use = LineUse.round ∧ x.cmd = LineCmd.letterbox l pre ∧ r.ex + 1 < s.get (F.FL_LBCFG_MAXEX p.val) ∧ (i = if cut = true then Instr.exchangeCutOff p else Instr.exchangeEnd p) ∧ (cut = true → bit (s.get (F.FL_STR_PEND_PEND p.val)) 4 = true) ∧ outcomeOf x cut = Outcome.collision ∧ l < 14) ∧
    (∃ (p : Fin 32) (q : Port) (x : Exchange) (s : State) (r : Round) (l : ℕ) (pre : ℕ) (h : HeardReply) (kind : ℕ) (point : ℕ) (v : ℕ), s.port p.val = some q ∧ q.stage = LineStage.listening ∧ q.xchg = some x ∧ q.want = [] ∧ q.yieldDue = false ∧ q.walk = none ∧ q.stop = false ∧ s.flag (F.FL_CTRL_EN p.val) = true ∧ s.flag (F.FL_RSTAT_BACKOFF p.val) = false ∧ q.round = some r ∧ r.kind = RoundKind.letterbox ∧ r.begun = true ∧ r.done = none ∧ x.use = LineUse.round ∧ x.cmd = LineCmd.letterbox l pre ∧ r.ex + 1 < s.get (F.FL_LBCFG_MAXEX p.val) ∧ outcomeOf x false = Outcome.single h ∧ 4 ≤ h.payload.length ∧ s.ledg.flips = [] ∧ kind = recNum h.payload 0 1 ∧ point = recNum h.payload 1 1 ∧ v = recNum h.payload 2 2 ∧ (nodeRec s (p.val) h.node).state = nsEnrolled ∧ fenced s (p.val) h.node = false ∧ (h.node, kind, point, v) ∉ q.repeats) ∧
    (∃ (p : Fin 32) (q : Port) (x : Exchange) (s : State), s.port p.val = some q ∧ q.stage = LineStage.listening ∧ q.xchg = some x ∧ q.want = [] ∧ q.yieldDue = false ∧ q.walk = none ∧ q.stop = false ∧ s.flag (F.FL_CTRL_EN p.val) = true ∧ s.flag (F.FL_RSTAT_BACKOFF p.val) = false ∧ x.use = LineUse.follow ∧ q.round = none ∧ (cmdNodes x.cmd).2 ≤ x.next) :=
  ⟨⟨3, the idlePort ((lb lbx).port 3), the anyX (the idlePort ((lb lbx).port 3)).xchg, lb lbx, the anyR (the idlePort ((lb lbx).port 3)).round, 2, 1, by decide +kernel⟩,
    ⟨3, the idlePort (((lb lbx).put (F.FL_STR_PEND_PEND 3) 16).port 3), the anyX (the idlePort (((lb lbx).put (F.FL_STR_PEND_PEND 3) 16).port 3)).xchg, (lb lbx).put (F.FL_STR_PEND_PEND 3) 0x10, the anyR (the idlePort (((lb lbx).put (F.FL_STR_PEND_PEND 3) 16).port 3)).round, 2, 1, .exchangeCutOff 3, true, by decide +kernel⟩,
    ⟨3, the idlePort ((lb ({ lbx with bursts := 1, sds := 1, single := some lbReply, windows := lbx.windows : Exchange })).port 3), the anyX (the idlePort ((lb ({ lbx with bursts := 1, sds := 1, single := some lbReply, windows := lbx.windows : Exchange })).port 3)).xchg, lb { lbx with sds := 1, bursts := 1, single := some lbReply }, the anyR (the idlePort ((lb ({ lbx with bursts := 1, sds := 1, single := some lbReply, windows := lbx.windows : Exchange })).port 3)).round, 2, 1, lbReply, recNum lbReply.payload 0 1, recNum lbReply.payload 1 1, recNum lbReply.payload 2 2, by decide +kernel⟩,
    ⟨3, the idlePort ((port3 (fun q => { stage := LineStage.listening, lead := q.lead, acc := q.acc, half := q.half, rx := q.rx, deaf := q.deaf, stop := q.stop, xchg := some ({ (xc (LineCmd.ping 5) LineUse.follow) with next := 1, windows := (xc (LineCmd.ping 5) LineUse.follow).windows : Exchange }), want := q.want, wait := q.wait, yieldDue := q.yieldDue, round := q.round, built := q.built, lbStack := q.lbStack, lbTotal := q.lbTotal, enStack := q.enStack, checks := q.checks, repeats := q.repeats, miss := q.miss, absent := q.absent, dup := q.dup, readings := q.readings, reports := q.reports, txn := q.txn, walk := q.walk, fltClear := q.fltClear, restart := q.restart, probeAt := q.probeAt, key := q.key : Port }) en3).port 3), the anyX (the idlePort ((port3 (fun q => { stage := LineStage.listening, lead := q.lead, acc := q.acc, half := q.half, rx := q.rx, deaf := q.deaf, stop := q.stop, xchg := some ({ (xc (LineCmd.ping 5) LineUse.follow) with next := 1, windows := (xc (LineCmd.ping 5) LineUse.follow).windows : Exchange }), want := q.want, wait := q.wait, yieldDue := q.yieldDue, round := q.round, built := q.built, lbStack := q.lbStack, lbTotal := q.lbTotal, enStack := q.enStack, checks := q.checks, repeats := q.repeats, miss := q.miss, absent := q.absent, dup := q.dup, readings := q.readings, reports := q.reports, txn := q.txn, walk := q.walk, fltClear := q.fltClear, restart := q.restart, probeAt := q.probeAt, key := q.key : Port }) en3).port 3)).xchg, port3 (fun q => { q with stage := .listening, xchg := some { xc (.ping 5) .follow with next := 1 } }) en3, by decide +kernel⟩⟩

end Line

namespace Rounds

def port3 (f : Port → Port) (s : State) : State := { s with ports := upd s.ports 3 f }
def en3 : State := up.mark (F.FL_CTRL_EN 3)
def rnd (k : RoundKind) : Round := ⟨k, false, 3, false, false, [.convert], 0, 0, [], [], false, [], none⟩
def inRnd (r : Round) : State := port3 (fun q => { q with round := some r }) en3
def lost3 (s : State) : State := ((((s.mark (F.FL_FENCE_EN 3 2)).put (F.FL_FENCE_LO 3 2) 4).put (F.FL_FENCE_HI 3 2) 9).put (F.FL_FENCE_REASON 3 2) 3)
def boxIn (n : Nat) : State := ((inRnd (rnd .maint)).put (F.FL_MBOX_STATE 3) 1).put (F.FL_MBOX_NODE 3) n
def checking3 : State := port3 (fun q => { q with checks := [⟨5, false, false⟩, ⟨6, true, false⟩] }) (inRnd (rnd .maint))
def withNode (p n : Nat) (r : NodeRec) (s : State) : State := putBytes (nodeAddr s p n) (encodeNode r) s
def probing3 : State := let s := lost3 (inRnd (rnd .maint)); withNode 3 5 ⟨77, 1, 1, 2, 3, 0, 0x100⟩ { (s.mark (F.FL_NDIR_VALID 3)).put (F.ARB_MASK_BANKS (portUnit 3)) 0x00FFFFFF with parts := [⟨7, 0, 0x03D00000, 0x800000, 0⟩] }
def done5 : State := { (inRnd { rnd .convert with done := some 5, begun := true }) with tb := 2^40 }
def waits7 : State := { port3 (fun q => { q with wait := some 7 }) up with tb := 2^40 }
def dir3 : State := { (up.mark (F.FL_NDIR_VALID 3)) with parts := [⟨7, 0, 0x03D00000, 0x800000, 0⟩] }
def stoppedFault : State := port3 (fun q => { q with fltClear := true }) (up.mark (F.FL_RSTAT_HELD 3))
def fences3 : State := (((up.mark (F.FL_FENCE_EN 3 0)).mark (F.FL_FENCE_EN 3 1)).mark (F.FL_STAT_FLT 3))
def walk3 (n : Nat) (st : WalkStage) (s : State) : State := port3 (fun q => { q with walk := some ⟨n, st⟩ }) s

theorem witness_RoundsBegin :
    (∃ (p : Fin 32) (q : Port) (r : Round) (s : State) (c : Instr × RoundKind), s.port p.val = some q ∧ q.round = some r ∧ c ∈ [(Instr.roundConvert p, RoundKind.convert), (Instr.roundRead p, RoundKind.read), (Instr.roundLetterbox p, RoundKind.letterbox), (Instr.roundEnrol p, RoundKind.enrol), (Instr.roundMaint p, RoundKind.maint)] ∧ (r.kind ≠ c.2 ∨ r.begun = true)) ∧
    (∃ (p : Fin 32) (q : Port) (r : Round) (s : State) (c : Instr × RoundKind) (f : LineCmd) (rest : List LineCmd), s.port p.val = some q ∧ q.round = some r ∧ portWorks s p.val = true ∧ r.begun = false ∧ r.done = none ∧ q.want = [] ∧ q.xchg = none ∧ q.walk = none ∧ q.yieldDue = false ∧ s.flag (F.FL_RSTAT_BACKOFF p.val) = false ∧ c ∈ [(Instr.roundConvert p, RoundKind.convert), (Instr.roundRead p, RoundKind.read)] ∧ r.kind = c.2 ∧ r.frames = f :: rest) ∧
    (∃ (p : Fin 32) (q : Port) (r : Round) (s : State), s.port p.val = some q ∧ q.round = some r ∧ portWorks s p.val = true ∧ r.begun = false ∧ r.done = none ∧ q.want = [] ∧ q.xchg = none ∧ q.walk = none ∧ q.yieldDue = false ∧ s.flag (F.FL_RSTAT_BACKOFF p.val) = false ∧ r.kind = RoundKind.letterbox ∧ q.lbStack = [] ∧ r.ex < s.get (F.FL_LBCFG_MAXEX p.val)) ∧
    (∃ (p : Fin 32) (q : Port) (r : Round) (s : State), s.port p.val = some q ∧ q.round = some r ∧ portWorks s p.val = true ∧ r.begun = false ∧ r.done = none ∧ q.want = [] ∧ q.xchg = none ∧ q.walk = none ∧ q.yieldDue = false ∧ s.flag (F.FL_RSTAT_BACKOFF p.val) = false ∧ r.kind = RoundKind.enrol ∧ q.enStack = [] ∧ s.flag (F.FL_ENR_EN p.val) = true ∧ r.ex < s.get (F.FL_ENRLIM_MAXEX p.val)) ∧
    (∃ (p : Fin 32) (q : Port) (r : Round) (s : State), s.port p.val = some q ∧ q.round = some r ∧ portWorks s p.val = true ∧ r.begun = false ∧ r.done = none ∧ q.want = [] ∧ q.xchg = none ∧ q.walk = none ∧ q.yieldDue = false ∧ s.flag (F.FL_RSTAT_BACKOFF p.val) = false ∧ r.kind = RoundKind.maint ∧ r.boxed = false ∧ s.ledg.flips = [] ∧ (∀ c ∈ q.checks, fenced s (p.val) c.node = false ∧ (nodeRec s (p.val) c.node).state ≠ nsQuarantined) ∧ q.checks = [] ∧ s.get (F.FL_MBOX_STATE p.val) ≠ 1 ∧ lostFences s (p.val) q.probeAt = []) ∧
    (∃ (p : Fin 32) (q : Port) (r : Round) (s : State), s.port p.val = some q ∧ q.round = some r ∧ portWorks s p.val = true ∧ r.begun = false ∧ r.done = none ∧ q.want = [] ∧ q.xchg = none ∧ q.walk = none ∧ q.yieldDue = false ∧ s.flag (F.FL_RSTAT_BACKOFF p.val) = false ∧ r.kind = RoundKind.enrol ∧ s.flag (F.FL_ENR_EN p.val) = false) ∧
    (∃ (p : Fin 32) (q : Port) (r : Round) (s : State) (c : IdCheck) (rest : List IdCheck), s.port p.val = some q ∧ q.round = some r ∧ portWorks s p.val = true ∧ r.begun = false ∧ r.done = none ∧ q.want = [] ∧ q.xchg = none ∧ q.walk = none ∧ q.yieldDue = false ∧ s.flag (F.FL_RSTAT_BACKOFF p.val) = false ∧ r.kind = RoundKind.maint ∧ r.boxed = false ∧ s.ledg.flips = [] ∧ (∀ c ∈ q.checks, fenced s (p.val) c.node = false ∧ (nodeRec s (p.val) c.node).state ≠ nsQuarantined) ∧ q.checks = c :: rest) ∧
    (∃ (p : Fin 32) (q : Port) (r : Round) (s : State), s.port p.val = some q ∧ q.round = some r ∧ portWorks s p.val = true ∧ r.begun = false ∧ r.done = none ∧ q.want = [] ∧ q.xchg = none ∧ q.walk = none ∧ q.yieldDue = false ∧ s.flag (F.FL_RSTAT_BACKOFF p.val) = false ∧ r.kind = RoundKind.maint ∧ r.boxed = false ∧ s.ledg.flips = [] ∧ (∀ c ∈ q.checks, fenced s (p.val) c.node = false ∧ (nodeRec s (p.val) c.node).state ≠ nsQuarantined) ∧ q.checks = [] ∧ s.get (F.FL_MBOX_STATE p.val) = 1 ∧ boxSends s p.val = true) ∧
    (∃ (p : Fin 32) (q : Port) (r : Round) (s : State), s.port p.val = some q ∧ q.round = some r ∧ portWorks s p.val = true ∧ r.begun = false ∧ r.done = none ∧ q.want = [] ∧ q.xchg = none ∧ q.walk = none ∧ q.yieldDue = false ∧ s.flag (F.FL_RSTAT_BACKOFF p.val) = false ∧ r.kind = RoundKind.maint ∧ r.boxed = false ∧ s.ledg.flips = [] ∧ (∀ c ∈ q.checks, fenced s (p.val) c.node = false ∧ (nodeRec s (p.val) c.node).state ≠ nsQuarantined) ∧ q.checks = [] ∧ s.get (F.FL_MBOX_STATE p.val) = 1 ∧ boxSends s p.val = false ∧ lostFences s (p.val) q.probeAt = []) ∧
    (∃ (p : Fin 32) (q : Port) (r : Round) (s : State) (k : ℕ) (ks : List ℕ) (n : ℕ), s.port p.val = some q ∧ q.round = some r ∧ portWorks s p.val = true ∧ r.begun = false ∧ r.done = none ∧ q.want = [] ∧ q.xchg = none ∧ q.walk = none ∧ q.yieldDue = false ∧ s.flag (F.FL_RSTAT_BACKOFF p.val) = false ∧ r.kind = RoundKind.maint ∧ r.boxed = false ∧ s.ledg.flips = [] ∧ (∀ c ∈ q.checks, fenced s (p.val) c.node = false ∧ (nodeRec s (p.val) c.node).state ≠ nsQuarantined) ∧ q.checks = [] ∧ s.get (F.FL_MBOX_STATE p.val) ≠ 1 ∧ lostFences s (p.val) q.probeAt = k :: ks ∧ probeNode s (p.val) k = some n) :=
  ⟨⟨3, the idlePort ((inRnd (rnd RoundKind.read)).port 3), the anyR (the idlePort ((inRnd (rnd RoundKind.read)).port 3)).round, inRnd (rnd .read), (Instr.roundConvert 3, RoundKind.convert), by decide +kernel⟩,
    ⟨3, the idlePort ((inRnd (rnd RoundKind.read)).port 3), the anyR (the idlePort ((inRnd (rnd RoundKind.read)).port 3)).round, inRnd (rnd .read), (Instr.roundRead 3, RoundKind.read), .convert, [], by decide +kernel⟩,
    ⟨3, the idlePort (((inRnd (rnd RoundKind.letterbox)).put (F.FL_LBCFG_MAXEX 3) 1).port 3), the anyR (the idlePort (((inRnd (rnd RoundKind.letterbox)).put (F.FL_LBCFG_MAXEX 3) 1).port 3)).round, (inRnd (rnd .letterbox)).put (F.FL_LBCFG_MAXEX 3) 1, by decide +kernel⟩,
    ⟨3, the idlePort ((((inRnd (rnd RoundKind.enrol)).mark (F.FL_ENR_EN 3)).put (F.FL_ENRLIM_MAXEX 3) 1).port 3), the anyR (the idlePort ((((inRnd (rnd RoundKind.enrol)).mark (F.FL_ENR_EN 3)).put (F.FL_ENRLIM_MAXEX 3) 1).port 3)).round, ((inRnd (rnd .enrol)).mark (F.FL_ENR_EN 3)).put (F.FL_ENRLIM_MAXEX 3) 1, by decide +kernel⟩,
    ⟨3, the idlePort ((inRnd (rnd RoundKind.maint)).port 3), the anyR (the idlePort ((inRnd (rnd RoundKind.maint)).port 3)).round, inRnd (rnd .maint), by decide +kernel⟩,
    ⟨3, the idlePort ((inRnd (rnd RoundKind.enrol)).port 3), the anyR (the idlePort ((inRnd (rnd RoundKind.enrol)).port 3)).round, inRnd (rnd .enrol), by decide +kernel⟩,
    ⟨3, the idlePort (checking3.port 3), the anyR (the idlePort (checking3.port 3)).round, checking3, ⟨5, false, false⟩, [⟨6, true, false⟩], by decide +kernel⟩,
    ⟨3, the idlePort ((boxIn 5).port 3), the anyR (the idlePort ((boxIn 5).port 3)).round, boxIn 5, by decide +kernel⟩,
    ⟨3, the idlePort ((((boxIn 5).mark (F.FL_FENCE_EN 3 2)).put (F.FL_FENCE_HI 3 2) 9).port 3), the anyR (the idlePort ((((boxIn 5).mark (F.FL_FENCE_EN 3 2)).put (F.FL_FENCE_HI 3 2) 9).port 3)).round, ((boxIn 5).mark (F.FL_FENCE_EN 3 2)).put (F.FL_FENCE_HI 3 2) 9, by decide +kernel⟩,
    ⟨3, the idlePort (probing3.port 3), the anyR (the idlePort (probing3.port 3)).round, probing3, 2, [], 5, by decide +kernel⟩⟩

theorem witness_RoundBoundaryAndWaits :
    (∃ (p : Fin 32) (q : Port) (s : State) (r : Round), s.port p.val = some q ∧ (∀ o ∈ s.ports, Option.all (fun (n : NodeTxn) => n.todo.isNone) o.txn = true) ∧ q.round = some r ∧ r.done = none) ∧
    (∃ (p : Fin 32) (q : Port) (s : State), s.port p.val = some q ∧ (∀ o ∈ s.ports, Option.all (fun (n : NodeTxn) => n.todo.isNone) o.txn = true) ∧ q.wait = none) ∧
    (∃ (p : Fin 32) (q : Port) (s : State) (r : Round) (d : ℕ), s.port p.val = some q ∧ (∀ o ∈ s.ports, Option.all (fun (n : NodeTxn) => n.todo.isNone) o.txn = true) ∧ q.round = some r ∧ r.done = some d ∧ r.kind ≠ RoundKind.read ∧ q.readings = [] ∧ (backOf s p.val).reads = [] ∧ bit (s.get F.TT_SWAPPEND_PORTS) p.val = false ∧ s.seq.edit = none ∧ s.flag F.TT_CTRL_RUN = false) ∧
    (∃ (p : Fin 32) (q : Port) (s : State) (w : ℕ), s.port p.val = some q ∧ (∀ o ∈ s.ports, Option.all (fun (n : NodeTxn) => n.todo.isNone) o.txn = true) ∧ q.wait = some w) :=
  ⟨⟨3, the idlePort ((inRnd (rnd RoundKind.read)).port 3), inRnd (rnd .read), the anyR (the idlePort ((inRnd (rnd RoundKind.read)).port 3)).round, by decide +kernel⟩,
    ⟨3, the idlePort ((inRnd (rnd RoundKind.read)).port 3), inRnd (rnd .read), by decide +kernel⟩,
    ⟨3, the idlePort (done5.port 3), done5, the anyR (the idlePort (done5.port 3)).round, 5, by decide +kernel⟩,
    ⟨3, the idlePort (waits7.port 3), waits7, 7, by decide +kernel⟩⟩

theorem witness_PortCommands :
    (∃ (u : Fin 256) (p : Fin 32) (q : Port) (s : State), s.Inv ∧ s.port p.val = some q ∧ Accepts u (A.FL_CTRL p.val) (BitVec.ofNat 32 (setBits (BitVec.toNat (s.reg (A.FL_CTRL p.val))) 0 1 1)) s ∧ s.flag (F.FL_CTRL_EN p.val) = false ∧ (couplerOk s p.val = false ∨ dirOk s p.val = false)) ∧
    (∃ (u : Fin 256) (p : Fin 32) (q : Port) (s : State), s.Inv ∧ s.port p.val = some q ∧ Accepts u (A.FL_CTRL p.val) (BitVec.ofNat 32 (setBits (BitVec.toNat (s.reg (A.FL_CTRL p.val))) 0 1 1)) s ∧ s.flag (F.FL_CTRL_EN p.val) = false ∧ couplerOk s p.val = true ∧ dirOk s p.val = true ∧ switchNodes s p.val = [] ∧ s.ledg.flips = [] ∧ q.round = none ∧ q.want = [] ∧ q.yieldDue = false ∧ q.stop = false ∧ s.flag F.TT_CTRL_RUN = false) ∧
    (∃ (u : Fin 256) (p : Fin 32) (q : Port) (s : State), s.Inv ∧ s.port p.val = some q ∧ Accepts u (A.FL_CTRL p.val) (BitVec.ofNat 32 (setBits (BitVec.toNat (s.reg (A.FL_CTRL p.val))) 0 1 0)) s ∧ s.flag (F.FL_CTRL_EN p.val) = true ∧ q.round = none) ∧
    (∃ (u : Fin 256) (p : Fin 32) (v : Word) (s : State) (k : Fin 8), Accepts u (A.FL_FENCE p.val k.val) v s ∧ bit (BitVec.toNat v) 31 = true ∧ bits (BitVec.toNat v) 14 14 < bits (BitVec.toNat v) 0 14) ∧
    (∃ (u : Fin 256) (p : Fin 32) (s : State) (q : Port), Writes u (A.FL_RCTRL p.val) s ∧ s.port p.val = some q ∧ s.flag (F.FL_RSTAT_HELD p.val) = false) ∧
    (∃ (u : Fin 256) (p : Fin 32) (v : Word) (s : State) (k : Fin 8), Accepts u (A.FL_FENCE p.val k.val) v s ∧ (bit (BitVec.toNat v) 31 = false ∨ bits (BitVec.toNat v) 0 14 ≤ bits (BitVec.toNat v) 14 14)) ∧
    (∃ (u : Fin 256) (p : Fin 32) (v : Word) (s : State), Accepts u (A.FL_MBOX p.val) v s ∧ s.get (F.FL_MBOX_STATE p.val) = 1) ∧
    (∃ (u : Fin 256) (p : Fin 32) (v : Word) (s : State), Accepts u (A.FL_MBOX p.val) v s ∧ s.get (F.FL_MBOX_STATE p.val) ≠ 1) ∧
    (∃ (u : Fin 256) (p : Fin 32) (s : State) (q : Port), Writes u (A.FL_RCTRL p.val) s ∧ s.port p.val = some q ∧ s.flag (F.FL_RSTAT_HELD p.val) = true ∧ q.fltClear = true ∧ s.flag (F.FL_CTRL_EN p.val) = false) ∧
    (∃ (u : Fin 256) (p : Fin 32) (s : State) (q : Port), Writes u (A.FL_RCTRL p.val) s ∧ s.port p.val = some q ∧ s.flag (F.FL_RSTAT_HELD p.val) = true ∧ q.fltClear = false) :=
  ⟨⟨0x75, 3, the idlePort (up.port 3), up, by decide +kernel⟩,
    ⟨0x75, 3, the idlePort (up.port 3), dir3, by decide +kernel⟩,
    ⟨0x75, 3, the idlePort (up.port 3), en3, by decide +kernel⟩,
    ⟨0x75, 3, 0x80000001#32, up, 0, by decide +kernel⟩,
    ⟨0x75, 3, up, the idlePort (up.port 3), by decide +kernel⟩,
    ⟨0x75, 3, 0x80004001#32, up, 0, by decide +kernel⟩,
    ⟨0x75, 3, 0x0C000005#32, up.put (F.FL_MBOX_STATE 3) 1, by decide +kernel⟩,
    ⟨0x75, 3, 0x0C000005#32, up, by decide +kernel⟩,
    ⟨0x75, 3, stoppedFault, the idlePort (stoppedFault.port 3), by decide +kernel⟩,
    ⟨0x75, 3, up.mark (F.FL_RSTAT_HELD 3), the idlePort ((up.mark (F.FL_RSTAT_HELD 3)).port 3), by decide +kernel⟩⟩

theorem witness_LineFaultsAndWalks :
    (∃ (p : Fin 32) (q : Port) (s : State) (k : Core), s.port p.val = some q ∧ Listens s k ∧ q.walk = none ∧ q.round = none) ∧
    (∃ (p : Fin 32) (q : Port) (s : State), s.port p.val = some q ∧ s.pow.phase = Phase.up ∧ s.pwr ≤ 1 ∧ q.walk = none ∧ q.restart = false) ∧
    (∃ (p : Fin 32) (q : Port) (s : State), s.port p.val = some q ∧ (s.flag (F.FL_RSTAT_HELD p.val) = false ∨ s.flag (F.FL_FENCECFG_AUTO_RESTART p.val) = false ∨ q.fltClear = false)) ∧
    (∃ (p : Fin 32) (q : Port) (s : State), s.port p.val = some q ∧ (∀ (n : ℕ), q.walk ≠ some { node := n, stage := WalkStage.wait })) ∧
    (∃ (p : Fin 32) (q : Port) (s : State) (n : ℕ) (f : ℕ), s.port p.val = some q ∧ q.walk = some { node := n, stage := WalkStage.wait } ∧ s.flag (F.FL_STAT_FLT p.val) = true ∧ n < 16383 ∧ q.checks = [] ∧ f < 8 ∧ s.flag (F.FL_FENCE_EN (p.val) f) = false ∧ (∀ g < f, s.flag (F.FL_FENCE_EN (p.val) g) = true)) ∧
    (∃ (p : Fin 32) (q : Port) (s : State), s.port p.val = some q ∧ s.flag (F.FL_RSTAT_HELD p.val) = true ∧ s.flag (F.FL_FENCECFG_AUTO_RESTART p.val) = true ∧ q.fltClear = true ∧ s.flag (F.FL_CTRL_EN p.val) = false) ∧
    (∃ (p : Fin 32) (q : Port) (s : State), s.port p.val = some q ∧ s.pow.phase = Phase.up ∧ s.pwr ≤ 1 ∧ q.walk = none ∧ q.restart = true ∧ s.flag (F.FL_RSTAT_HELD p.val) = true ∧ s.flag (F.FL_CTRL_EN p.val) = false) :=
  ⟨⟨3, the idlePort (up.port 3), up, the idleCore (up.core 0), by decide +kernel⟩,
    ⟨3, the idlePort (up.port 3), up, by decide +kernel⟩,
    ⟨3, the idlePort (up.port 3), up, by decide +kernel⟩,
    ⟨3, the idlePort (up.port 3), up, by decide +kernel, by rintro n ⟨⟩⟩,
    ⟨3, the idlePort ((walk3 7 WalkStage.wait fences3).port 3), walk3 7 .wait fences3, 7, 2, by decide +kernel⟩,
    ⟨3, the idlePort ((stoppedFault.mark (F.FL_FENCECFG_AUTO_RESTART 3)).port 3), stoppedFault.mark (F.FL_FENCECFG_AUTO_RESTART 3), by decide +kernel⟩,
    ⟨3, the idlePort ((port3 (fun q => { q with restart := true, key := q.key : Port }) (up.mark (F.FL_RSTAT_HELD 3))).port 3), port3 (fun q => { q with restart := true }) (up.mark (F.FL_RSTAT_HELD 3)), by decide +kernel⟩⟩

end Rounds

namespace Slots

def copying : State := up.mark F.TT_STAT_COPY_BUSY

theorem witness_TimetableSlots :
    (∃ (u : Fin 256) (hi : Word) (v : ℕ) (i : ℕ) (s : State), Writes u A.TT_WDATA_HI s ∧ v = BitVec.toNat hi * 2 ^ 32 + s.get F.TT_WDATA_LO_LO ∧ i = s.get F.TT_WADDR_IDX ∧ slotRefused s v = false ∧ (s.flag F.TT_STAT_SWAP_PEND || s.flag F.TT_STAT_COPY_BUSY) = false ∧ i < 6144) ∧
    (∃ (u : Fin 256) (hi : Word) (v : ℕ) (i : ℕ) (s : State), Writes u A.TT_WDATA_HI s ∧ v = BitVec.toNat hi * 2 ^ 32 + s.get F.TT_WDATA_LO_LO ∧ i = s.get F.TT_WADDR_IDX ∧ slotRefused s v = true) ∧
    (∃ (u : Fin 256) (s : State), reaches (u.val) A.TT_RDATA_HI false s = true ∧ s.flag F.TT_STAT_COPY_BUSY = false ∧ s.get F.TT_RADDR_IDX < 6144) ∧
    (∃ (u : Fin 256) (s : State), Writes u A.TT_CMD s ∧ (s.flag F.TT_STAT_SWAP_PEND || s.flag F.TT_STAT_COPY_BUSY) = false) ∧
    (∃ (u : Fin 256) (hi : Word) (v : ℕ) (i : ℕ) (s : State), Writes u A.TT_WDATA_HI s ∧ v = BitVec.toNat hi * 2 ^ 32 + s.get F.TT_WDATA_LO_LO ∧ i = s.get F.TT_WADDR_IDX ∧ slotRefused s v = false ∧ (s.flag F.TT_STAT_SWAP_PEND || s.flag F.TT_STAT_COPY_BUSY) = true) ∧
    (∃ (u : Fin 256) (s : State), reaches (u.val) A.TT_RDATA_HI false s = true ∧ s.flag F.TT_STAT_COPY_BUSY = true ∧ s.get F.TT_RADDR_IDX < 6144) ∧
    (∃ (u : Fin 256) (s : State), Writes u A.TT_CMD s ∧ (s.flag F.TT_STAT_SWAP_PEND || s.flag F.TT_STAT_COPY_BUSY) = true) :=
  ⟨⟨0x75, 0#32, BitVec.toNat (0#32) * 2 ^ 32 + up.get F.TT_WDATA_LO_LO, up.get F.TT_WADDR_IDX, up, by decide +kernel⟩,
    ⟨0x75, 0xFFFFFFFF#32, BitVec.toNat (0xFFFFFFFF#32) * 2 ^ 32 + up.get F.TT_WDATA_LO_LO, up.get F.TT_WADDR_IDX, up, by decide +kernel⟩,
    ⟨0x75, up, by decide +kernel⟩,
    ⟨0x75, up, by decide +kernel⟩,
    ⟨0x75, 0#32, BitVec.toNat (0#32) * 2 ^ 32 + copying.get F.TT_WDATA_LO_LO, copying.get F.TT_WADDR_IDX, copying, by decide +kernel⟩,
    ⟨0x75, copying, by decide +kernel⟩,
    ⟨0x75, copying, by decide +kernel⟩⟩

end Slots

namespace Timetable

def port3 (f : Port → Port) (s : State) : State := { s with ports := upd s.ports 3 f }
def v0 : Nat := 1 + 3 * 16   -- kind 1 on port 3
def pinned : State := { up with rmap := { up.rmap with pins := List.replicate 64 1#8 } }
def s1 : State := { pinned with seq := { pinned.seq with slots := [(5, v0), (6144 + 7, v0)] } }
def copying : State := up.mark F.TT_STAT_COPY_BUSY
def builtAll : State := { up with ports := up.ports.map (fun q => { q with built := [⟨false, 3, false, [.convert, .convert]⟩, ⟨false, 4, false, [.convert]⟩] }) }
def running : State := builtAll.mark F.TT_CTRL_RUN
def gated : State := { ((s1.mark F.TT_CTRL_RUN).mark (F.FL_CTRL_EN 3)) with tb := 2^60, seq := { s1.seq with passes := upd s1.seq.passes 3 (fun w => { w with mode := .gate, ran := true }) } }
def rr (k : RoundKind) (b : Bool) (i : Nat) (d : Option Nat) : Round := ⟨k, b, i, false, false, [], 0, 0, [], [], false, [], d⟩
def ended : State := port3 (fun q => { q with round := some (rr .convert false 5 (some 1)) }) s1
def pend (n : Nat) (s : State) : State := (s.put F.TT_SWAPPEND_PORTS n).mark F.TT_STAT_SWAP_PEND
def edited (s : State) : State := { s with seq := { s.seq with edit := some (5, 0x43) } }
def dayed : State := { (up.put (F.ARB_MASK_BANKS 0x78) 0x00FFFFFF) with tb := 2^50 }
def overQ : State := up.put (F.GATE_QUOTA_OBXQ 0) 5
def rd (r : Reading) : State := port3 (fun q => { q with readings := [r] }) dayed

theorem witness_TimetableRuns :
    (∃ (u : Fin 256) (s : State), Accepts u A.TT_CTRL (BitVec.ofNat 32 (setBits (BitVec.toNat (s.reg A.TT_CTRL)) 16 1 1)) s ∧ s.flag F.TT_CTRL_RUN = false ∧ (∀ p < 32, s.flag (F.FL_CTRL_EN p) = false)) ∧
    (∃ (u : Fin 256) (s : State), Accepts u A.TT_CTRL (BitVec.ofNat 32 (setBits (BitVec.toNat (s.reg A.TT_CTRL)) 16 1 0)) s ∧ s.flag F.TT_CTRL_RUN = true) ∧
    (∃ (u : Fin 256) (n : Fin 16) (s : State), Accepts u A.TT_CTRL (BitVec.ofNat 32 (setBits (BitVec.toNat (s.reg A.TT_CTRL)) 8 4 n.val)) s) ∧
    (∃ (p : Fin 32) (s : State), (s.pass p.val).ran = false) ∧
    (∃ (p : Fin 32) (q : Port) (n : ℕ) (i : ℕ) (v : ℕ) (rest : List (ℕ × ℕ)) (s : State), s.port p.val = some q ∧ q.built = [] ∧ q.round = none ∧ q.wait = none ∧ (s.pass p.val).ran = true ∧ (s.pass p.val).mode = PassMode.gate ∧ seqRuns s p.val = true ∧ portSkips s p.val = false ∧ n = (s.get (F.TTP_PASS_PASS p.val) + 1) % 2 ^ 32 ∧ passSlots s (p.val) n = (i, v) :: rest ∧ i < 6144) ∧
    (∃ (p : Fin 32) (s : State), (s.pass p.val).ran = true ∧ seqRuns s p.val = false) :=
  ⟨⟨0x75, up, by decide +kernel⟩,
    ⟨0x75, running, by decide +kernel⟩,
    ⟨0x75, 1, up, by decide +kernel⟩,
    ⟨31, up, by decide +kernel⟩,
    ⟨3, the idlePort (gated.port 3), (gated.get (F.TTP_PASS_PASS 3) + 1) % 2 ^ 32, 5, v0, [], gated, by decide +kernel⟩,
    ⟨3, gated.put F.TT_CTRL_RUN 0, by decide +kernel⟩⟩

theorem witness_SwapsAndEdits :
    (∃ (u : Fin 256) (s : State), Writes u A.TT_CMD s ∧ (s.flag F.TT_STAT_SWAP_PEND || s.flag F.TT_STAT_COPY_BUSY) = false ∧ s.flt.dayQ.length < 32 ∧ failingTest (swapped s) = none ∧ (∀ p < 32, inRound s p = false) ∧ s.flag F.TT_CTRL_RUN = false) ∧
    (∃ (u : Fin 256) (s : State) (k : ℕ), Writes u A.TT_CMD s ∧ (s.flag F.TT_STAT_SWAP_PEND || s.flag F.TT_STAT_COPY_BUSY) = false ∧ s.flt.dayQ.length < 32 ∧ failingTest (swapped s) = some k) ∧
    (∃ (u : Fin 256) (s : State), Writes u A.TT_CMD s ∧ (s.flag F.TT_STAT_SWAP_PEND || s.flag F.TT_STAT_COPY_BUSY) = true) ∧
    (∃ (u : Fin 256) (hi : Word) (v : ℕ) (i : ℕ) (s : State), Writes u A.TT_EDIT_HI s ∧ v = BitVec.toNat (s.reg A.TT_EDIT_LO) + BitVec.toNat hi * 2 ^ 32 ∧ i = s.get F.TT_EDIT_IDX_IDX ∧ slotRefused s v = false ∧ (s.flag F.TT_STAT_EDIT_PEND || s.flag F.TT_STAT_SWAP_PEND) = false ∧ failingTest (setSlot (activeBank s) i v s) = none ∧ slotBusy s i = false ∧ s.flag F.TT_CTRL_RUN = false) ∧
    (∃ (u : Fin 256) (hi : Word) (v : ℕ) (i : ℕ) (s : State) (k : ℕ), Writes u A.TT_EDIT_HI s ∧ v = BitVec.toNat (s.reg A.TT_EDIT_LO) + BitVec.toNat hi * 2 ^ 32 ∧ i = s.get F.TT_EDIT_IDX_IDX ∧ slotRefused s v = false ∧ (s.flag F.TT_STAT_EDIT_PEND || s.flag F.TT_STAT_SWAP_PEND) = false ∧ failingTest (setSlot (activeBank s) i v s) = some k) ∧
    (∃ (u : Fin 256) (hi : Word) (v : ℕ) (i : ℕ) (s : State), Writes u A.TT_EDIT_HI s ∧ v = BitVec.toNat (s.reg A.TT_EDIT_LO) + BitVec.toNat hi * 2 ^ 32 ∧ i = s.get F.TT_EDIT_IDX_IDX ∧ slotRefused s v = true) ∧
    (∃ (u : Fin 256) (s : State), Writes u A.TT_CMD s ∧ (s.flag F.TT_STAT_SWAP_PEND || s.flag F.TT_STAT_COPY_BUSY) = false ∧ s.flt.dayQ.length < 32 ∧ failingTest (swapped s) = none ∧ (∃ p < 32, inRound s p = true)) ∧
    (∃ (p : Fin 32) (q : Port) (r : Round) (d : ℕ) (s : State), s.port p.val = some q ∧ q.round = some r ∧ r.done = some d ∧ r.kind ≠ RoundKind.read ∧ q.readings = [] ∧ (backOf s p.val).reads = [] ∧ (∀ o ∈ s.ports, Option.all (fun (n : NodeTxn) => n.todo.isNone) o.txn = true) ∧ s.flt.dayQ.length < 32 ∧ bit (s.get F.TT_SWAPPEND_PORTS) p.val = true ∧ s.seq.edit = none) ∧
    (∃ (p : Fin 32) (q : Port) (r : Round) (d : ℕ) (s : State) (i : ℕ) (v : ℕ), s.port p.val = some q ∧ q.round = some r ∧ r.done = some d ∧ r.kind ≠ RoundKind.read ∧ q.readings = [] ∧ (backOf s p.val).reads = [] ∧ (∀ o ∈ s.ports, Option.all (fun (n : NodeTxn) => n.todo.isNone) o.txn = true) ∧ s.flt.dayQ.length < 32 ∧ bit (s.get F.TT_SWAPPEND_PORTS) p.val = false ∧ s.seq.edit = some (i, v) ∧ i < 6144 ∧ r.slot = i ∧ r.bank = activeBank s ∧ (∀ k < s.ports.length, k ≠ p.val → ∀ o ∈ (s.port k).toList, ∀ x ∈ o.round.toList, ¬(x.slot = i ∧ x.bank = activeBank s))) ∧
    (∃ (u : Fin 256) (hi : Word) (v : ℕ) (i : ℕ) (s : State), Writes u A.TT_EDIT_HI s ∧ v = BitVec.toNat (s.reg A.TT_EDIT_LO) + BitVec.toNat hi * 2 ^ 32 ∧ i = s.get F.TT_EDIT_IDX_IDX ∧ slotRefused s v = false ∧ (s.flag F.TT_STAT_EDIT_PEND || s.flag F.TT_STAT_SWAP_PEND) = true) ∧
    (∃ (u : Fin 256) (hi : Word) (v : ℕ) (i : ℕ) (s : State), Writes u A.TT_EDIT_HI s ∧ v = BitVec.toNat (s.reg A.TT_EDIT_LO) + BitVec.toNat hi * 2 ^ 32 ∧ i = s.get F.TT_EDIT_IDX_IDX ∧ slotRefused s v = false ∧ (s.flag F.TT_STAT_EDIT_PEND || s.flag F.TT_STAT_SWAP_PEND) = false ∧ failingTest (setSlot (activeBank s) i v s) = none ∧ slotBusy s i = true) :=
  ⟨⟨0x75, up, by decide +kernel⟩,
    ⟨0x75, overQ, the 0 (failingTest (swapped overQ)), by decide +kernel⟩,
    ⟨0x75, copying, by decide +kernel⟩,
    ⟨0x75, 0#32, BitVec.toNat (up.reg A.TT_EDIT_LO) + BitVec.toNat (0#32) * 2 ^ 32, up.get F.TT_EDIT_IDX_IDX, up, by decide +kernel⟩,
    ⟨0x75, 0#32, BitVec.toNat (up.reg A.TT_EDIT_LO) + BitVec.toNat (0#32) * 2 ^ 32, up.get F.TT_EDIT_IDX_IDX, overQ, the 0 (failingTest (setSlot (activeBank overQ) (up.get F.TT_EDIT_IDX_IDX) (BitVec.toNat (up.reg A.TT_EDIT_LO) + BitVec.toNat (0#32) * 2 ^ 32) overQ)), by decide +kernel⟩,
    ⟨0x75, 0xFFFFFFFF#32, BitVec.toNat (up.reg A.TT_EDIT_LO) + BitVec.toNat (0xFFFFFFFF#32) * 2 ^ 32, up.get F.TT_EDIT_IDX_IDX, up, by decide +kernel⟩,
    ⟨0x75, ended, by decide +kernel⟩,
    ⟨3, (ended.port 3).getD idlePort, rr .convert false 5 (some 1), 1, pend 8 ended, by decide +kernel⟩,
    ⟨3, (ended.port 3).getD idlePort, rr .convert false 5 (some 1), 1, pend 0 (edited ended), 5, 0x43, by decide +kernel⟩,
    ⟨0x75, 0#32, BitVec.toNat ((up.mark F.TT_STAT_EDIT_PEND).reg A.TT_EDIT_LO) + BitVec.toNat (0#32) * 2 ^ 32, (up.mark F.TT_STAT_EDIT_PEND).get F.TT_EDIT_IDX_IDX, up.mark F.TT_STAT_EDIT_PEND, by decide +kernel⟩,
    ⟨0x75, 0#32, BitVec.toNat ((port3 (fun q => { q with round := some { kind := RoundKind.read, bank := false, slot := 0, fill := false, begun := false, frames := [], ex := 0, noise := 0, missing := [], checks := [], boxed := false, probes := [], done := none : Round }, key := q.key : Port }) up).reg A.TT_EDIT_LO) + BitVec.toNat (0#32) * 2 ^ 32, (port3 (fun q => { q with round := some { kind := RoundKind.read, bank := false, slot := 0, fill := false, begun := false, frames := [], ex := 0, noise := 0, missing := [], checks := [], boxed := false, probes := [], done := none : Round }, key := q.key : Port }) up).get F.TT_EDIT_IDX_IDX, port3 (fun q => { q with round := some ⟨.read, false, 0, false, false, [], 0, 0, [], [], false, [], none⟩ }) up, by decide +kernel⟩⟩

theorem witness_TrendTakesReadings :
    (∃ (p : Fin 32) (q : Port) (s : State), s.port p.val = some q ∧ trendIdle s = false ∧ (∀ o ∈ s.ports, Option.all (fun (n : NodeTxn) => n.todo.isNone) o.txn = true) ∧ q.readings = []) ∧
    (∃ (p : Fin 32) (q : Port) (s : State), s.port p.val = some q ∧ trendIdle s = false ∧ (∀ o ∈ s.ports, Option.all (fun (n : NodeTxn) => n.todo.isNone) o.txn = true) ∧ q.reports = []) ∧
    (∃ (p : Fin 32) (q : Port) (s : State) (r : Reading) (rest : List Reading), s.port p.val = some q ∧ trendIdle s = false ∧ (∀ o ∈ s.ports, Option.all (fun (n : NodeTxn) => n.todo.isNone) o.txn = true) ∧ q.readings = r :: rest ∧ (∀ k < 32, k ≠ p.val → ∀ o ∈ (s.port k).toList, ∀ x ∈ o.readings, x.ep = r.ep → r.pm ≤ x.pm) ∧ 5242880 ≤ r.ep) ∧
    (∃ (p : Fin 32) (q : Port) (s : State) (r : Reading) (rest : List Reading), s.port p.val = some q ∧ trendIdle s = false ∧ (∀ o ∈ s.ports, Option.all (fun (n : NodeTxn) => n.todo.isNone) o.txn = true) ∧ q.readings = r :: rest ∧ (∀ k < 32, k ≠ p.val → ∀ o ∈ (s.port k).toList, ∀ x ∈ o.readings, x.ep = r.ep → r.pm ≤ x.pm) ∧ r.ep < 5242880 ∧ s.trend.backs[p.val]? = some { reads := [], done := [] } ∧ s.trend.valid = [] ∧ s.ledg.held = [] ∧ poisonFor s 120 (8 * r.ep) = false ∧ poisonFor s 120 (calAddr r.ep) = false ∧ pendOf s r.ep = none ∧ s.num (8 * r.ep) 4 = 0 ∧ s.num (8 * r.ep + 4) 4 = 0 ∧ s.num (calAddr r.ep) 4 = 0 ∧ r.raw < 65536) ∧
    (∃ (p : Fin 32) (q : Port) (s : State) (r : Reading) (rest : List Reading), s.port p.val = some q ∧ trendIdle s = false ∧ (∀ o ∈ s.ports, Option.all (fun (n : NodeTxn) => n.todo.isNone) o.txn = true) ∧ q.readings = r :: rest ∧ (¬(fun (r : Reading) => ∀ k < 32, k ≠ p.val → ∀ o ∈ (s.port k).toList, ∀ x ∈ o.readings, x.ep = r.ep → r.pm ≤ x.pm) r)) ∧
    (∃ (p : Fin 32) (q : Port) (s : State) (r : Report) (rest : List Report), s.port p.val = some q ∧ trendIdle s = false ∧ (∀ o ∈ s.ports, Option.all (fun (n : NodeTxn) => n.todo.isNone) o.txn = true) ∧ q.reports = r :: rest ∧ r.ep < 5242880 ∧ s.trend.valid = [] ∧ s.ledg.flips = [] ∧ poisonFor s 120 (calAddr r.ep) = false ∧ s.num (calAddr r.ep) 4 = 0 ∧ r.raw < 65536 ∧ r.raw ≠ 32768) :=
  ⟨⟨3, the idlePort (up.port 3), up, by decide +kernel⟩,
    ⟨3, the idlePort (up.port 3), up, by decide +kernel⟩,
    ⟨3, the idlePort ((rd { ep := 5242880, raw := 5, pm := 7 : Reading }).port 3), rd ⟨0x500000, 5, 7⟩, ⟨0x500000, 5, 7⟩, [], by decide +kernel⟩,
    ⟨3, the idlePort ((rd { ep := 5242879, raw := 32769, pm := 2 ^ 20 : Reading }).port 3), rd ⟨0x4FFFFF, 0x8001, 2^20⟩, ⟨0x4FFFFF, 0x8001, 2^20⟩, [], by decide +kernel⟩,
    ⟨3, the idlePort (({ (rd { ep := 9, raw := 32769, pm := 2 ^ 20 : Reading }) with ports := upd (rd { ep := 9, raw := 32769, pm := 2 ^ 20 : Reading }).ports 7 fun q => { q with readings := [{ ep := 9, raw := 1, pm := 5 : Reading }], key := q.key : Port }, pow := (rd { ep := 9, raw := 32769, pm := 2 ^ 20 : Reading }).pow : State }).port 3), ({ (rd ⟨9, 0x8001, 2^20⟩) with ports := upd (rd ⟨9, 0x8001, 2^20⟩).ports 7 (fun q => { q with readings := [⟨9, 1, 5⟩] }) } : State), ⟨9, 0x8001, 2^20⟩, [], by decide +kernel⟩,
    ⟨3, the idlePort ((port3 (fun q => { q with reports := [{ ep := 9, raw := 65534, pm := 7, kind := 4 : Report }], key := q.key : Port }) dayed).port 3), port3 (fun q => { q with reports := [⟨9, 0xFFFE, 7, 4⟩] }) dayed, ⟨9, 0xFFFE, 7, 4⟩, [], by decide +kernel⟩⟩

end Timetable

namespace Chains

def v0 : Nat := 1 + 3 * 16   -- kind 1 on port 3
def pinned : State := { up with rmap := { up.rmap with pins := List.replicate 64 1#8 } }
def s1 : State := { pinned with seq := { pinned.seq with slots := [(5, v0), (6144 + 7, v0)] } }
def small (s : State) : State := (((s.put (F.FC_CFG_RM1 5) 3).mark (F.FC_CTRL_RUN 5)).mark (F.FC_MOD_EN 5)).put (F.FC_SETTLE_REMAIN 5) 2
def ch5 (f : Chain → Chain) (s : State) : State := { s with chains := upd s.chains 5 f }
def src5 (f : Source → Source) (s : State) : State := { s with sources := upd s.sources (fcSrc s 5) f }
def base5 : State := (small { up with rmap := { up.rmap with routes := [⟨2, 5, 3⟩] } }).put (F.FC_CFG_MODE 5) 0
def live5 : State := src5 (fun o => { o with tick := 12, hist := [(false, 6), (true, 6)], ovl := true, ovls := [⟨7, none⟩] }) (ch5 (fun c => { c with run := true, start := 1, reads := [(1, fcSrc base5 5)], nextQ := 2, gap := true }) base5)
def c5 (s : State) : Chain := (s.chain 5).getD idleChain
def fed5 (bs : List (Bool × Nat)) (s : State) : State := feed 5 (c5 s) bs s
def out5 (bs : List (Bool × Nat)) (s : State) := (chainValue (fed5 bs s) 5 (c5 s) (c5 s).nextQ, chainSpan s 5 (c5 s).nextQ)
def q5 (bs : List (Bool × Nat)) (s : State) : Nat := let o := out5 bs s; b2n (decide (0 < s.get (F.FC_SETTLE_REMAIN 5))) + 2 * b2n (c5 s).gap + 4 * b2n o.1.2 + 8 * b2n (overloaded (fed5 bs s) (c5 s) o.2.1 o.2.2)
def n5 (s : State) : Nat := instant s 5 (c5 s).nextQ
def fifo5 : State := ch5 (fun c => { c with fifo := [List.replicate 32 7#8] }) live5
def q0 (s : State) : Nat := firstInst (fcGrid s 5) (fcInc s 5) (fcP s 5) (s.pm / 8 + 1)
def start5 : State := { (up.mark (F.FC_MOD_EN 5)) with tb := 2 ^ 50 }

theorem witness_ChainOutputs :
    (∃ (i : Fin 16) (c : Chain) (s : State), s.chain i.val = some c ∧ chainLive s (i.val) c = false) ∧
    (∃ (i : Fin 16) (c : Chain) (s : State), s.chain i.val = some c ∧ (c.fifo = [] ∨ chainRoute s i.val = none)) ∧
    (∃ (i : Fin 16) (bs : List (Bool × ℕ)) (c : Chain) (n : ℕ) (y : ℤ) (lo : ℤ) (clip : Bool) (hi : ℕ) (s : State) (s1 : State), s.chain i.val = some c ∧ chainLive s (i.val) c = true ∧ s1 = feed (i.val) c bs s ∧ chainValue s1 (i.val) c c.nextQ = (y, clip) ∧ chainSpan s (i.val) c.nextQ = (lo, hi) ∧ n = instant s (i.val) c.nextQ ∧ closedSpans c = []) ∧
    (∃ (i : Fin 16) (bs : List (Bool × ℕ)) (c : Chain) (n : ℕ) (y : ℤ) (lo : ℤ) (clip : Bool) (hi : ℕ) (s : State) (s1 : State), s.chain i.val = some c ∧ chainLive s (i.val) c = true ∧ s1 = feed (i.val) c bs s ∧ chainValue s1 (i.val) c c.nextQ = (y, clip) ∧ chainSpan s (i.val) c.nextQ = (lo, hi) ∧ n = instant s (i.val) c.nextQ ∧ bitsKnown s1 c hi = false) ∧
    (∃ (i : Fin 16) (bs : List (Bool × ℕ)) (c : Chain) (n : ℕ) (y : ℤ) (lo : ℤ) (clip : Bool) (hi : ℕ) (s : State) (s1 : State) (qual : ℕ) (kept : Bool), s.chain i.val = some c ∧ chainLive s (i.val) c = true ∧ s1 = feed (i.val) c bs s ∧ chainValue s1 (i.val) c c.nextQ = (y, clip) ∧ chainSpan s (i.val) c.nextQ = (lo, hi) ∧ n = instant s (i.val) c.nextQ ∧ bitsKnown s1 c hi = true ∧ qual = b2n (decide (0 < s.get (F.FC_SETTLE_REMAIN i.val))) + 2 * b2n c.gap + 4 * b2n clip + 8 * b2n (overloaded s1 c lo hi) ∧ kept = (decide (c.fifo.length < 8) && (chainRoute s i.val).isSome && !s.isHeld (97 + i.val))) ∧
    (∃ (i : Fin 16) (c : Chain) (s : State) (r : List Byte) (rest : List (List Byte)) (u : ℕ) (k : Core), s.chain i.val = some c ∧ c.fifo = r :: rest ∧ chainRoute s i.val = some u ∧ u ≠ 0 ∧ s.core u = some k ∧ k.spec = none ∧ s.quiet = false ∧ coreAccepts u s = true) ∧
    (∃ (i : Fin 16) (c : Chain) (s : State) (r : List Byte) (rest : List (List Byte)) (u : ℕ) (k : Core), s.chain i.val = some c ∧ c.fifo = r :: rest ∧ chainRoute s i.val = some u ∧ u ≠ 0 ∧ s.core u = some k ∧ k.spec = none ∧ s.quiet = false ∧ coreAccepts u s = false) :=
  ⟨⟨5, the idleChain (up.chain 5), up, by decide +kernel⟩,
    ⟨5, the idleChain (up.chain 5), up, by decide +kernel⟩,
    ⟨5, [(true, 1)], c5 live5, n5 live5, (out5 [(true, 1)] live5).1.1, (out5 [(true, 1)] live5).2.1, (out5 [(true, 1)] live5).1.2, (out5 [(true, 1)] live5).2.2, live5, fed5 [(true, 1)] live5, by decide +kernel⟩,
    ⟨5, [(true, 1)], c5 live5, n5 live5, (out5 [(true, 1)] live5).1.1, (out5 [(true, 1)] live5).2.1, (out5 [(true, 1)] live5).1.2, (out5 [(true, 1)] live5).2.2, live5, fed5 [(true, 1)] live5, by decide +kernel⟩,
    ⟨5, [(true, 4)], c5 live5, n5 live5, (out5 [(true, 4)] live5).1.1, (out5 [(true, 4)] live5).2.1, (out5 [(true, 4)] live5).1.2, (out5 [(true, 4)] live5).2.2, live5, fed5 [(true, 4)] live5, q5 [(true, 4)] live5, true, by decide +kernel⟩,
    ⟨5, the idleChain (fifo5.chain 5), fifo5, List.replicate 32 7#8, [], 4, the idleCore (fifo5.core 4), by decide +kernel⟩,
    ⟨5, the idleChain ((fifo5.put (F.SYS_FHELD_HELD 0) 16).chain 5), fifo5.put (F.SYS_FHELD_HELD 0) 0x10, List.replicate 32 7#8, [], 4, the idleCore ((fifo5.put (F.SYS_FHELD_HELD 0) 0x10).core 4), by decide +kernel⟩⟩

theorem witness_ChainCommands :
    (∃ (u : Fin 256) (i : Fin 16) (c : Chain) (s : State) (k : ℕ), s.chain i.val = some c ∧ Accepts u (A.FC_CTRL i.val) (BitVec.ofNat 32 (setBits (BitVec.toNat (s.reg (A.FC_CTRL i.val))) 0 1 1)) s ∧ s.flag (F.FC_CTRL_RUN i.val) = false ∧ s.safe = false ∧ (k = 1 ∧ s.flag (F.FC_CTRL_OPEN i.val) = true ∨ k = 2 ∧ s.flag (F.FC_CTRL_OPEN i.val) = false ∧ s.flag (F.FC_MOD_EN (fcSrc s i.val)) = false ∨ k = 3 ∧ s.flag (F.FC_CTRL_OPEN i.val) = false ∧ s.flag (F.FC_MOD_EN (fcSrc s i.val)) = true ∧ fcGrid s i.val = false ∧ fcP s i.val < 263)) ∧
    (∃ (u : Fin 256) (i : Fin 16) (s : State), Accepts u (A.FC_CTRL i.val) (BitVec.ofNat 32 (setBits (BitVec.toNat (s.reg (A.FC_CTRL i.val))) 0 1 0)) s ∧ s.flag (F.FC_CTRL_RUN i.val) = true ∧ (∀ k ∈ s.cores, ∀ (x : Spec), k.spec = some x → recOrigin x.pred ≠ 97 + i.val)) ∧
    (∃ (x : Fin 16) (s : State), s.pow.phase = Phase.up ∧ s.pwr ≤ 1 ∧ (s.source x.val).ovl = false) ∧
    (∃ (u : Fin 256) (i : Fin 16) (v : Word) (c : Chain) (s : State), s.chain i.val = some c ∧ Accepts u (A.FC_CDATA i.val) v s ∧ fcStopped s i.val = false) ∧
    (∃ (u : Fin 256) (i : Fin 16) (c : Chain) (s : State) (j : ℕ) (last : ℕ), s.chain i.val = some c ∧ reaches (u.val) (A.FC_CDATA i.val) false s = true ∧ j = s.get (F.FC_CADDR_IDX i.val) ∧ (last = if s.flag (F.FC_CADDR_TABLE i.val) = true then 2047 else 127) ∧ j ≤ last) ∧
    (∃ (u : Fin 256) (i : Fin 16) (c : Chain) (s : State), s.chain i.val = some c ∧ reaches (u.val) (A.FC_LASTV i.val) false s = true ∧ c.lastPm < 2 ^ 64) ∧
    (∃ (u : Fin 256) (x : Fin 16) (v : Word) (s : State), Accepts u (A.FC_MOD x.val) v s ∧ (readers s x.val = [] ∨ s.flag (F.FC_MOD_EN x.val) = false ∨ BitVec.getLsbD v 0 = true)) ∧
    (∃ (u : Fin 256) (i : Fin 16) (v : Word) (c : Chain) (s : State), s.chain i.val = some c ∧ Accepts u (A.FC_SRC i.val) v s ∧ c.run = false) ∧
    (∃ (x : Fin 16) (s : State), s.pow.phase = Phase.up ∧ s.pwr ≤ 1 ∧ (s.source x.val).ovl = true) ∧
    (∃ (u : Fin 256) (i : Fin 16) (v : Word) (c : Chain) (s : State), s.chain i.val = some c ∧ Accepts u (A.FC_SRC i.val) v s ∧ c.run = true ∧ s.flag (F.FC_CTRL_RUN i.val) = true) ∧
    (∃ (u : Fin 256) (x : Fin 16) (v : Word) (s : State), Accepts u (A.FC_MOD x.val) v s ∧ readers s x.val ≠ [] ∧ s.flag (F.FC_MOD_EN x.val) = true ∧ BitVec.getLsbD v 0 = false) ∧
    (∃ (u : Fin 256) (i : Fin 16) (v : Word) (c : Chain) (s : State) (j : ℕ) (last : ℕ), s.chain i.val = some c ∧ Accepts u (A.FC_CDATA i.val) v s ∧ fcStopped s i.val = true ∧ j = s.get (F.FC_CADDR_IDX i.val) ∧ (last = if s.flag (F.FC_CADDR_TABLE i.val) = true then 2047 else 127) ∧ j ≤ last) ∧
    (∃ (u : Fin 256) (i : Fin 16) (c : Chain) (s : State) (q : ℕ), s.chain i.val = some c ∧ Accepts u (A.FC_CTRL i.val) (BitVec.ofNat 32 (setBits (BitVec.toNat (s.reg (A.FC_CTRL i.val))) 0 1 1)) s ∧ s.flag (F.FC_CTRL_RUN i.val) = false ∧ s.safe = false ∧ s.flag (F.FC_CTRL_OPEN i.val) = false ∧ s.flag (F.FC_MOD_EN (fcSrc s i.val)) = true ∧ (fcGrid s i.val = true ∨ 263 ≤ fcP s i.val) ∧ s.Inv ∧ failingTest (s.mark (F.FC_CTRL_RUN i.val)) = none ∧ s.quiet = false ∧ 5243 ≤ fcInc s i.val ∧ s.pm / 8 + 1 ≤ instant s (i.val) q ∧ (q = 0 ∨ instant s (i.val) (q - 1) < s.pm / 8 + 1)) :=
  ⟨⟨0x75, 5, the idleChain (up.chain 5), up, 2, by decide +kernel⟩,
    ⟨0x75, 5, small up, by decide +kernel⟩,
    ⟨0, small up, by decide +kernel⟩,
    ⟨0x75, 5, 0#32, the idleChain ((small up).chain 5), small up, by decide +kernel⟩,
    ⟨0x75, 5, the idleChain ((small up).chain 5), small up, (small up).get (F.FC_CADDR_IDX 5), if (small up).flag (F.FC_CADDR_TABLE 5) = true then 2047 else 127, by decide +kernel⟩,
    ⟨0x75, 5, the idleChain ((small up).chain 5), small up, by decide +kernel⟩,
    ⟨0x75, 0, 0#32, small up, by decide +kernel⟩,
    ⟨0x75, 5, 0#32, the idleChain ((small up).chain 5), small up, by decide +kernel⟩,
    ⟨5, live5, by decide +kernel⟩,
    ⟨0x75, 5, 5#32, the idleChain (live5.chain 5), live5, by decide +kernel⟩,
    ⟨0x75, 5, 4#32, live5, by decide +kernel⟩,
    ⟨0x75, 5, 5#32, the idleChain ((up.put (F.FC_CADDR_IDX 5) 127).chain 5), up.put (F.FC_CADDR_IDX 5) 127, (up.put (F.FC_CADDR_IDX 5) 127).get (F.FC_CADDR_IDX 5), if (up.put (F.FC_CADDR_IDX 5) 127).flag (F.FC_CADDR_TABLE 5) = true then 2047 else 127, by decide +kernel⟩,
    ⟨0x75, 5, the idleChain (start5.chain 5), start5, q0 start5, by decide +kernel⟩⟩

end Chains

namespace Letters

def body5 : List Byte := mkRecord 77 0 7 0x20 0 9 1 5 0
def masks (l : List Nat) (s : State) : State := l.foldl (fun u n => u.put (F.ARB_MASK_BANKS n) 0x00FFFFFF) s
def ring : Part := ⟨5, 0x7F, 0x08010000, 0x20000, 0⟩
def branch : State := { (((((up.mark F.CAS_STAT_PATH).put (F.GATE_QUOTA_CRED 1) 4).put (F.GATE_SHARE_SHARE 1) 4).mark (F.SRT_CTRL_RUN 5)).put F.GATE_SERIAL_NEXT 0xFFFFFFFF) with tb := 2^64, parts := [ring], rmap := { up.rmap with routes := [⟨3, 0x20, 0x201⟩] } }
def offered (b : List Byte) (s : State) : State := { s with gate := { s.gate with offers := [⟨5, b, 0⟩], log := [(2, 5)] } }
def obx0 (n : Nat) (s : State) : State := ((s.put F.GATE_OBX_LEN_LETTERS 8).put F.GATE_OBX_BASE_ADDR 0x08020000).put F.GATE_OBX_WR_IDX n
def locd : State := { (obx0 0 (masks [0x77, 0x7F] (branch.put (F.GATE_QUOTA_OBXQ 1) 4))) with rmap := { up.rmap with routes := [⟨3, 0x20, 0x200⟩] } }
def homed : State := let s := masks [0x77, 0x7F, 0x71] branch; { s with parts := [ring, ⟨3, 0x71, 0x08030000, 64, 2⟩], gate := { s.gate with upAt := [0, 1, 0] } }
def obx (n : Nat) (s : State) : State := ((s.put F.GATE_OBX_LEN_LETTERS 8).put F.GATE_OBX_BASE_ADDR 0x08020000).put F.GATE_OBX_WR_IDX n
def let1 : List Byte := recPut (mkRecord 77 9 7 0x20 0 9 1 5 0) 14 [0x09#8]
def letL : List Byte := recPut (mkRecord 77 0 7 0x20 0 9 1 5 0) 14 [0x01#8]
def held2 : State := putBytes 0x08020000 let1 (obx 2 (masks [0x77] up))
def held2x : State := putBytes 0x08020000 let1 (obx 2 up)
def let0 : List Byte := recPut (mkRecord 77 9 7 0x20 0 9 1 5 0) 14 [0x01#8]
def homed1 : State := { homed with parts := [ring, ⟨3, 0x71, 0x08030000, 64, 1⟩] }
def torn (s : State) : State := { s with ledg := { s.ledg with flips := [⟨0x08010060, 0⟩, ⟨0x08010060, 5⟩] } }
def own0 : OpenLetter := ⟨let0, 3, 0, false, true⟩
def poppable : State := { putBytes 0x08020000 let0 (obx 1 (masks [0x77, 0x7F] up)) with gate := { up.gate with opened := [own0] }, parts := [ring] }

theorem witness_LettersAreDecided :
    (∃ (s : State), (s.gate.offers = [] ∨ s.quiet = true ∨ s.flag F.SYS_RMAP_STAT_WAITING = true)) ∧
    (∃ (o : Offer) (rest : List Offer) (k : Core) (s : State) (s' : State) (c : ℕ) (slot : ℕ) (p : Machine.Part), s.gate.offers = o :: rest ∧ s.quiet = false ∧ s.flag F.SYS_RMAP_STAT_WAITING = false ∧ 119 ∉ s.flt.resets ∧ o.unit ≤ 64 ∧ s.core o.unit = some k ∧ nth s.gate.kSkip o.unit 0 = 0 ∧ s.flag (F.SRT_CTRL_RUN o.unit) = true ∧ o.body.length = 32 ∧ s' = { s with gate := { s.gate with offers := rest, log := List.filter (fun (e : ℕ × ℕ) => decide (pmDiff s.pm e.2 * 1000000 < classWindow e.1 * 2 ^ 24)) s.gate.log } } ∧ returnCode s' o = none ∧ routeOf s (recKind o.body) = some (1, c) ∧ s.isHead = false ∧ 1 ≤ c ∧ c ≤ 3 ∧ s.part 5 = some p ∧ s.flag F.DLF_STAT_FROZEN = false ∧ slot = freeSlot s ∧ MaskFor s 127 (p.base + 32 * slot) 32 ∧ (∀ (x : ℕ), upPlace s (c - 1) = some x → MaskFor s 119 x 32 ∧ (x + 32 ≤ p.base + 32 * slot ∨ p.base + 32 * slot + 32 ≤ x))) ∧
    (∃ (o : Offer) (rest : List Offer) (k : Core) (s : State) (s' : State) (x : ℕ) (c : ℕ) (slot : ℕ) (a : ℕ) (p : Machine.Part), s.gate.offers = o :: rest ∧ s.quiet = false ∧ s.flag F.SYS_RMAP_STAT_WAITING = false ∧ 119 ∉ s.flt.resets ∧ o.unit ≤ 64 ∧ s.core o.unit = some k ∧ nth s.gate.kSkip o.unit 0 = 0 ∧ s.flag (F.SRT_CTRL_RUN o.unit) = true ∧ o.body.length = 32 ∧ s' = { s with gate := { s.gate with offers := rest, log := List.filter (fun (e : ℕ × ℕ) => decide (pmDiff s.pm e.2 * 1000000 < classWindow e.1 * 2 ^ 24)) s.gate.log } } ∧ returnCode s' o = none ∧ routeOf s (recKind o.body) = some (x, c) ∧ (x = 0 ∨ x = 1 ∧ s.isHead = true) ∧ 1 ≤ c ∧ c ≤ 3 ∧ s.part 5 = some p ∧ s.flag F.DLF_STAT_FROZEN = false ∧ slot = freeSlot s ∧ MaskFor s 127 (p.base + 32 * slot) 32 ∧ s.get F.GATE_OBX_LEN_LETTERS ≠ 0 ∧ a = s.get F.GATE_OBX_BASE_ADDR + 32 * s.get F.GATE_OBX_WR_IDX ∧ MaskFor s 119 a 32 ∧ (a + 32 ≤ p.base + 32 * slot ∨ p.base + 32 * slot + 32 ≤ a)) ∧
    (∃ (s : State), s.rmap.staged = []) ∧
    (∃ (o : Offer) (rest : List Offer) (k : Core) (s : State) (s' : State) (r : ℕ), s.gate.offers = o :: rest ∧ s.quiet = false ∧ s.flag F.SYS_RMAP_STAT_WAITING = false ∧ 119 ∉ s.flt.resets ∧ o.unit ≤ 64 ∧ s.core o.unit = some k ∧ nth s.gate.kSkip o.unit 0 = 0 ∧ s.flag (F.SRT_CTRL_RUN o.unit) = true ∧ o.body.length = 32 ∧ s' = { s with gate := { s.gate with offers := rest, log := List.filter (fun (e : ℕ × ℕ) => decide (pmDiff s.pm e.2 * 1000000 < classWindow e.1 * 2 ^ 24)) s.gate.log } } ∧ returnCode s' o = some r) :=
  ⟨⟨branch, by decide +kernel⟩,
    ⟨⟨5, body5, 0⟩, [], idleCore, offered body5 branch, ({ pending := (offered body5 branch).pending, regs := (offered body5 branch).regs, mem := (offered body5 branch).mem, tb := (offered body5 branch).tb, freeCtr := (offered body5 branch).freeCtr, rdata := (offered body5 branch).rdata, pace := (offered body5 branch).pace, arbs := (offered body5 branch).arbs, ledg := (offered body5 branch).ledg, recs := (offered body5 branch).recs, flt := (offered body5 branch).flt, gate := { (offered body5 branch).gate with offers := ([]), log := List.filter (fun e => decide (pmDiff (offered body5 branch).pm e.2 * 1000000 < classWindow e.1 * 2 ^ 24)) (offered body5 branch).gate.log, stood := (offered body5 branch).gate.stood : Gate }, cores := (offered body5 branch).cores, chains := (offered body5 branch).chains, sources := (offered body5 branch).sources, trend := (offered body5 branch).trend, ports := (offered body5 branch).ports, seq := (offered body5 branch).seq, tmr := (offered body5 branch).tmr, links := (offered body5 branch).links, est := (offered body5 branch).est, host := (offered body5 branch).host, twp := (offered body5 branch).twp, tap := (offered body5 branch).tap, parts := (offered body5 branch).parts, rmap := (offered body5 branch).rmap, pow := (offered body5 branch).pow : State } : State), 2, 0, ring, by decide +kernel⟩,
    ⟨⟨5, body5, 0⟩, [], idleCore, offered body5 locd, ({ pending := (offered body5 locd).pending, regs := (offered body5 locd).regs, mem := (offered body5 locd).mem, tb := (offered body5 locd).tb, freeCtr := (offered body5 locd).freeCtr, rdata := (offered body5 locd).rdata, pace := (offered body5 locd).pace, arbs := (offered body5 locd).arbs, ledg := (offered body5 locd).ledg, recs := (offered body5 locd).recs, flt := (offered body5 locd).flt, gate := { (offered body5 locd).gate with offers := ([]), log := List.filter (fun e => decide (pmDiff (offered body5 locd).pm e.2 * 1000000 < classWindow e.1 * 2 ^ 24)) (offered body5 locd).gate.log, stood := (offered body5 locd).gate.stood : Gate }, cores := (offered body5 locd).cores, chains := (offered body5 locd).chains, sources := (offered body5 locd).sources, trend := (offered body5 locd).trend, ports := (offered body5 locd).ports, seq := (offered body5 locd).seq, tmr := (offered body5 locd).tmr, links := (offered body5 locd).links, est := (offered body5 locd).est, host := (offered body5 locd).host, twp := (offered body5 locd).twp, tap := (offered body5 locd).tap, parts := (offered body5 locd).parts, rmap := (offered body5 locd).rmap, pow := (offered body5 locd).pow : State } : State), 0, 2, 0, 0x08020000, ring, by decide +kernel⟩,
    ⟨offered body5 (branch.mark F.SYS_FAULT_SAFE), by decide +kernel⟩,
    ⟨⟨5, body5, 0⟩, [], idleCore, offered body5 (branch.mark F.SYS_FAULT_SAFE), ({ pending := (offered body5 (branch.mark F.SYS_FAULT_SAFE)).pending, regs := (offered body5 (branch.mark F.SYS_FAULT_SAFE)).regs, mem := (offered body5 (branch.mark F.SYS_FAULT_SAFE)).mem, tb := (offered body5 (branch.mark F.SYS_FAULT_SAFE)).tb, freeCtr := (offered body5 (branch.mark F.SYS_FAULT_SAFE)).freeCtr, rdata := (offered body5 (branch.mark F.SYS_FAULT_SAFE)).rdata, pace := (offered body5 (branch.mark F.SYS_FAULT_SAFE)).pace, arbs := (offered body5 (branch.mark F.SYS_FAULT_SAFE)).arbs, ledg := (offered body5 (branch.mark F.SYS_FAULT_SAFE)).ledg, recs := (offered body5 (branch.mark F.SYS_FAULT_SAFE)).recs, flt := (offered body5 (branch.mark F.SYS_FAULT_SAFE)).flt, gate := { (offered body5 (branch.mark F.SYS_FAULT_SAFE)).gate with offers := ([]), log := List.filter (fun e => decide (pmDiff (offered body5 (branch.mark F.SYS_FAULT_SAFE)).pm e.2 * 1000000 < classWindow e.1 * 2 ^ 24)) (offered body5 (branch.mark F.SYS_FAULT_SAFE)).gate.log, stood := (offered body5 (branch.mark F.SYS_FAULT_SAFE)).gate.stood : Gate }, cores := (offered body5 (branch.mark F.SYS_FAULT_SAFE)).cores, chains := (offered body5 (branch.mark F.SYS_FAULT_SAFE)).chains, sources := (offered body5 (branch.mark F.SYS_FAULT_SAFE)).sources, trend := (offered body5 (branch.mark F.SYS_FAULT_SAFE)).trend, ports := (offered body5 (branch.mark F.SYS_FAULT_SAFE)).ports, seq := (offered body5 (branch.mark F.SYS_FAULT_SAFE)).seq, tmr := (offered body5 (branch.mark F.SYS_FAULT_SAFE)).tmr, links := (offered body5 (branch.mark F.SYS_FAULT_SAFE)).links, est := (offered body5 (branch.mark F.SYS_FAULT_SAFE)).est, host := (offered body5 (branch.mark F.SYS_FAULT_SAFE)).host, twp := (offered body5 (branch.mark F.SYS_FAULT_SAFE)).twp, tap := (offered body5 (branch.mark F.SYS_FAULT_SAFE)).tap, parts := (offered body5 (branch.mark F.SYS_FAULT_SAFE)).parts, rmap := (offered body5 (branch.mark F.SYS_FAULT_SAFE)).rmap, pow := (offered body5 (branch.mark F.SYS_FAULT_SAFE)).pow : State } : State), 2, by decide +kernel⟩⟩

theorem witness_OutboxBellRedelivery :
    (∃ (u : Fin 256) (k : Word) (s : State), Accepts u A.GATE_OBX_POP k s ∧ k = 0) ∧
    (∃ (u : Fin 256) (k : Word) (s : State), Accepts u A.GATE_OBX_POP k s ∧ obxHeld s < BitVec.toNat k) ∧
    (∃ (u : Fin 256) (k : Word) (s : State) (b : List Byte) (n : ℕ), Accepts u A.GATE_OBX_POP k s ∧ k = 1 ∧ 1 ≤ obxHeld s ∧ s.get F.GATE_OBX_RD_IDX < s.get F.GATE_OBX_LEN_LETTERS ∧ b = obxLetter s (s.get F.GATE_OBX_RD_IDX) ∧ s.ledg.flips = [] ∧ (MaskFor s 119 (obxPlace s (s.get F.GATE_OBX_RD_IDX)) 32 ∧ obxPlace s (s.get F.GATE_OBX_RD_IDX) % 8 = 0) ∧ recDest b = true ∧ routeAt s (recDev b) = n ∧ (n = 0 ∨ lstate s n < 3 ∧ (s.link n).outage = none)) ∧
    (∃ (u : Fin 256) (k : Word) (s : State) (b : List Byte), Accepts u A.GATE_OBX_POP k s ∧ k = 1 ∧ 1 ≤ obxHeld s ∧ s.get F.GATE_OBX_RD_IDX < s.get F.GATE_OBX_LEN_LETTERS ∧ b = obxLetter s (s.get F.GATE_OBX_RD_IDX) ∧ s.ledg.flips = [] ∧ maskOk s 119 (busBank (obxPlace s (s.get F.GATE_OBX_RD_IDX))) = false) ∧
    (∃ (u : Fin 256) (on : Bool) (s : State), Accepts u A.GATE_OBX_CTRL (BitVec.ofNat 32 (setBits (BitVec.toNat (s.reg A.GATE_OBX_CTRL)) 0 1 (b2n on))) s) ∧
    (∃ (s : State), s.quiet = true) ∧
    (∃ (l : OpenLetter) (s : State) (c : Fin 3), s.quiet = false ∧ s.gate.opened = [l] ∧ l.due = true ∧ l.body.length = 32 ∧ copyBad s l.slot = true ∧ recDest l.body = true ∧ recClass l.body = c.val + 1) ∧
    (∃ (l : OpenLetter) (s : State) (c : Fin 3), s.quiet = false ∧ s.gate.opened = [l] ∧ l.due = true ∧ l.body.length = 32 ∧ copyBad s l.slot = false ∧ s.ledg.flips = [] ∧ (∀ (x : ℕ), (fun (c x : ℕ) => upPlace s c = some x) (c.val) x → MaskFor s 119 x 32) ∧ recDest l.body = true ∧ recClass l.body = c.val + 1 ∧ s.flag F.CAS_STAT_PATH = true ∧ lk0Outage s = false ∧ inWindow s (c.val + 1) < s.get (F.GATE_SHARE_SHARE c.val)) ∧
    (∃ (l : OpenLetter) (s : State), s.quiet = false ∧ s.gate.opened = [l] ∧ l.due = true ∧ l.body.length = 32 ∧ copyBad s l.slot = true ∧ recDest l.body = false) ∧
    (∃ (l : OpenLetter) (s : State) (a : ℕ), s.quiet = false ∧ s.gate.opened = [l] ∧ l.due = true ∧ l.body.length = 32 ∧ copyBad s l.slot = false ∧ s.ledg.flips = [] ∧ recDest l.body = false ∧ 1 ≤ recClass l.body ∧ recClass l.body ≤ 3 ∧ obxHeld s = 0 ∧ s.get F.GATE_OBX_LEN_LETTERS ≠ 0 ∧ a = s.get F.GATE_OBX_BASE_ADDR + 32 * s.get F.GATE_OBX_WR_IDX ∧ MaskFor s 119 a 32) ∧
    (∃ (u : Fin 256) (k : Word) (s : State) (b : List Byte) (l : OpenLetter) (p : Machine.Part), Accepts u A.GATE_OBX_POP k s ∧ k = 1 ∧ 1 ≤ obxHeld s ∧ s.get F.GATE_OBX_RD_IDX < s.get F.GATE_OBX_LEN_LETTERS ∧ b = obxLetter s (s.get F.GATE_OBX_RD_IDX) ∧ s.ledg.flips = [] ∧ (MaskFor s 119 (obxPlace s (s.get F.GATE_OBX_RD_IDX)) 32 ∧ obxPlace s (s.get F.GATE_OBX_RD_IDX) % 8 = 0) ∧ recDest b = false ∧ 1 ≤ recClass b ∧ recClass b ≤ 3 ∧ s.gate.opened = [l] ∧ recSerial l.body = recSerial b ∧ s.flag F.DLF_STAT_FROZEN = false ∧ s.part 5 = some p ∧ MaskFor s 127 (p.base + 32 * l.slot) 32) ∧
    (∃ (u : Fin 256) (k : Word) (s : State) (b : List Byte) (n : ℕ), Accepts u A.GATE_OBX_POP k s ∧ k = 1 ∧ 1 ≤ obxHeld s ∧ s.get F.GATE_OBX_RD_IDX < s.get F.GATE_OBX_LEN_LETTERS ∧ b = obxLetter s (s.get F.GATE_OBX_RD_IDX) ∧ s.ledg.flips = [] ∧ (MaskFor s 119 (obxPlace s (s.get F.GATE_OBX_RD_IDX)) 32 ∧ obxPlace s (s.get F.GATE_OBX_RD_IDX) % 8 = 0) ∧ recDest b = true ∧ routeAt s (recDev b) = n ∧ (n ≠ 0 ∧ (3 ≤ lstate s n ∨ (s.link n).outage.isSome = true))) :=
  ⟨⟨0x75, 0#32, up, by decide +kernel⟩,
    ⟨0x75, 1#32, up, by decide +kernel⟩,
    ⟨0x75, 1#32, held2, let1, 0, by decide +kernel⟩,
    ⟨0x75, 1#32, held2x, let1, by decide +kernel⟩,
    ⟨0x75, true, up, by decide +kernel⟩,
    ⟨({ up with pow := { up.pow with phase := .regulator } } : State), by decide +kernel⟩,
    ⟨⟨let1, 3, 0, false, true⟩, torn { homed with gate := { branch.gate with opened := [⟨let1, 3, 0, false, true⟩] } }, 0, by decide +kernel⟩,
    ⟨⟨let1, 3, 0, false, true⟩, ({ (homed1.put (F.GATE_SHARE_SHARE 0) 1) with gate := { branch.gate with opened := [⟨let1, 3, 0, false, true⟩] } } : State), 0, by decide +kernel⟩,
    ⟨⟨letL, 3, 0, false, true⟩, torn { (obx 0 (masks [0x77, 0x7F] { up with parts := [ring] })) with gate := { branch.gate with opened := [⟨letL, 3, 0, false, true⟩] } }, by decide +kernel⟩,
    ⟨⟨letL, 3, 0, false, true⟩, ({ (obx 0 (masks [0x77] up)) with gate := { branch.gate with opened := [⟨letL, 3, 0, false, true⟩] } } : State), ({ (obx 0 (masks [0x77] up)) with gate := { branch.gate with opened := [⟨letL, 3, 0, false, true⟩] } }).get F.GATE_OBX_BASE_ADDR + 32 * ({ (obx 0 (masks [0x77] up)) with gate := { branch.gate with opened := [⟨letL, 3, 0, false, true⟩] } }).get F.GATE_OBX_WR_IDX, by decide +kernel⟩,
    ⟨0x75, 1#32, poppable, let0, own0, ring, by decide +kernel⟩,
    ⟨0x75, 1#32, putBytes 0x08020000 let1 (obx 1 { (masks [0x77] up) with est := { up.est with route := [(9, 2)] }, links := upd up.links 2 (fun l => { l with outage := some 3 }) }), let1, 2, by decide +kernel⟩⟩

end Letters

namespace CoreForms

def D : List Byte := [0x80, 0xFF, 0x7F, 1, 0x85, 6, 7, 0x10]
def opOf (s : State) (f : Nat) : List Byte × State × Core × Nat × Bool := let k := kk s; match f with
  | 0 => ([k.op1], s, k, 0, false) | 7 => ([k.r.x], s, k, 0, false) | _ => (readsOf s 5 k [(formAddr k f).toNat]).getD ([], s, k, 0, false)
def rich (s : State) : State := { (s.put (F.SRT_BUDGET_BUDGET 5) 20000) with tb := 0x0123456789ABCDEF * 2 ^ 24, cores := upd s.cores 5 (fun k => { k with
  steps := 7, pmLatch := 0x1122334455667788, stage0 := 2, stage1 := 3, txnConf := true, txnOver := true, sealRes := true, sealFail := true, ltrF := 33, ltrRes := 5, ltrSer := 0x01020304,
  queue := [(List.range 32).map (BitVec.ofNat 8 ·), List.replicate 32 7], evbuf := (List.range 32).map (BitVec.ofNat 8 <| 200 - ·), ltrbuf := (List.range 32).map (BitVec.ofNat 8 <| 100 + ·)
  rbAddr := 0x10061010, rbLatch := 0xA1B2C3D4, rbStage := [1, 2, 3], rbRef := true }) }
def c1 : State := (core5 [16, 32, 16] D regs5 |> (·.put (F.ARB_MASK_BANKS 5) 0x00FFFFFF) |> rich)
def c9 : State := (core5 [24, 32, 16] D regs5 |> (·.put (F.ARB_MASK_BANKS 5) 0x00FFFFFF) |> rich)
def c17 : State := (core5 [32, 32, 16] D regs5 |> (·.put (F.ARB_MASK_BANKS 5) 0x00FFFFFF) |> rich)
def c25 : State := (core5 [40, 32, 16] D regs5 |> (·.put (F.ARB_MASK_BANKS 5) 0x00FFFFFF) |> rich)
def c33 : State := (core5 [48, 32, 16] D regs5 |> (·.put (F.ARB_MASK_BANKS 5) 0x00FFFFFF) |> rich)
def c41 : State := (core5 [56, 32, 16] D regs5 |> (·.put (F.ARB_MASK_BANKS 5) 0x00FFFFFF) |> rich)
def c49 : State := (core5 [64, 32, 16] D regs5 |> (·.put (F.ARB_MASK_BANKS 5) 0x00FFFFFF) |> rich)
def c57 : State := (core5 [72, 32, 16] D regs5 |> (·.put (F.ARB_MASK_BANKS 5) 0x00FFFFFF) |> rich)
def c65 : State := (core5 [80, 32, 16] D regs5 |> (·.put (F.ARB_MASK_BANKS 5) 0x00FFFFFF) |> rich)
def c77 : State := (core5 [96, 32, 16] D regs5 |> (·.put (F.ARB_MASK_BANKS 5) 0x00FFFFFF) |> rich)
def c78 : State := (core5 [101, 32, 16] D regs5 |> (·.put (F.ARB_MASK_BANKS 5) 0x00FFFFFF) |> rich)
def c79 : State := (core5 [180, 32, 16] D regs5 |> (·.put (F.ARB_MASK_BANKS 5) 0x00FFFFFF) |> rich)
def c80 : State := (core5 [182, 32, 16] D regs5 |> (·.put (F.ARB_MASK_BANKS 5) 0x00FFFFFF) |> rich)
def c81 : State := (core5 [186, 32, 16] D regs5 |> (·.put (F.ARB_MASK_BANKS 5) 0x00FFFFFF) |> rich)
def c82 : State := (core5 [97, 32, 16] D regs5 |> (·.put (F.ARB_MASK_BANKS 5) 0x00FFFFFF) |> rich)
def c83 : State := (core5 [102, 32, 16] D regs5 |> (·.put (F.ARB_MASK_BANKS 5) 0x00FFFFFF) |> rich)
def c84 : State := (core5 [181, 32, 16] D regs5 |> (·.put (F.ARB_MASK_BANKS 5) 0x00FFFFFF) |> rich)
def c85 : State := (core5 [183, 32, 16] D regs5 |> (·.put (F.ARB_MASK_BANKS 5) 0x00FFFFFF) |> rich)
def c86 : State := (core5 [187, 32, 16] D regs5 |> (·.put (F.ARB_MASK_BANKS 5) 0x00FFFFFF) |> rich)
def c87 : State := (core5 [98, 32, 16] D regs5 |> (·.put (F.ARB_MASK_BANKS 5) 0x00FFFFFF) |> rich)
def c88 : State := (core5 [103, 32, 16] D regs5 |> (·.put (F.ARB_MASK_BANKS 5) 0x00FFFFFF) |> rich)

theorem witness_CoreEightFormInstructions :
    (∃ (c : Fin 65) (s : State) (b : State) (k : Core) (k1 : Core) (took : Bool) (form : ℕ) (m : Byte) (n : ℕ) (w : ℕ), OperandAt s c k form m n w b k1 took ∧ CoreAt s (c.val) k (16 + form) n w) ∧
    (∃ (c : Fin 65) (s : State) (b : State) (k : Core) (k1 : Core) (took : Bool) (form : ℕ) (m : Byte) (n : ℕ) (w : ℕ), OperandAt s c k form m n w b k1 took ∧ CoreAt s (c.val) k (24 + form) n w) ∧
    (∃ (c : Fin 65) (s : State) (b : State) (k : Core) (k1 : Core) (took : Bool) (form : ℕ) (m : Byte) (n : ℕ) (w : ℕ), OperandAt s c k form m n w b k1 took ∧ CoreAt s (c.val) k (32 + form) n w) ∧
    (∃ (c : Fin 65) (s : State) (b : State) (k : Core) (k1 : Core) (took : Bool) (form : ℕ) (m : Byte) (n : ℕ) (w : ℕ), OperandAt s c k form m n w b k1 took ∧ CoreAt s (c.val) k (40 + form) n w) ∧
    (∃ (c : Fin 65) (s : State) (b : State) (k : Core) (k1 : Core) (took : Bool) (form : ℕ) (m : Byte) (n : ℕ) (w : ℕ), OperandAt s c k form m n w b k1 took ∧ CoreAt s (c.val) k (48 + form) n w) ∧
    (∃ (c : Fin 65) (s : State) (b : State) (k : Core) (k1 : Core) (took : Bool) (form : ℕ) (m : Byte) (n : ℕ) (w : ℕ), OperandAt s c k form m n w b k1 took ∧ CoreAt s (c.val) k (56 + form) n w) ∧
    (∃ (c : Fin 65) (s : State) (b : State) (k : Core) (k1 : Core) (took : Bool) (form : ℕ) (m : Byte) (n : ℕ) (w : ℕ), OperandAt s c k form m n w b k1 took ∧ CoreAt s (c.val) k (64 + form) n w) ∧
    (∃ (c : Fin 65) (s : State) (b : State) (k : Core) (k1 : Core) (took : Bool) (form : ℕ) (m : Byte) (n : ℕ) (w : ℕ), OperandAt s c k form m n w b k1 took ∧ CoreAt s (c.val) k (72 + form) n w) ∧
    (∃ (c : Fin 65) (s : State) (b : State) (k : Core) (k1 : Core) (took : Bool) (form : ℕ) (m : Byte) (n : ℕ) (w : ℕ), OperandAt s c k form m n w b k1 took ∧ CoreAt s (c.val) k (80 + form) n w) :=
  ⟨⟨5, c1, c1, kk c1, kk c1, false, 0, (kk c1).op1, 2, 1, .immediate, by decide +kernel⟩,
    ⟨5, c9, c9, kk c9, kk c9, false, 0, (kk c9).op1, 2, 1, .immediate, by decide +kernel⟩,
    ⟨5, c17, c17, kk c17, kk c17, false, 0, (kk c17).op1, 2, 1, .immediate, by decide +kernel⟩,
    ⟨5, c25, c25, kk c25, kk c25, false, 0, (kk c25).op1, 2, 1, .immediate, by decide +kernel⟩,
    ⟨5, c33, c33, kk c33, kk c33, false, 0, (kk c33).op1, 2, 1, .immediate, by decide +kernel⟩,
    ⟨5, c41, c41, kk c41, kk c41, false, 0, (kk c41).op1, 2, 1, .immediate, by decide +kernel⟩,
    ⟨5, c49, c49, kk c49, kk c49, false, 0, (kk c49).op1, 2, 1, .immediate, by decide +kernel⟩,
    ⟨5, c57, c57, kk c57, kk c57, false, 0, (kk c57).op1, 2, 1, .immediate, by decide +kernel⟩,
    ⟨5, c65, c65, kk c65, kk c65, false, 0, (kk c65).op1, 2, 1, .immediate, by decide +kernel⟩⟩

theorem witness_CoreLoadsAndCompares :
    (∃ (c : Fin 65) (s : State) (b : State) (k : Core) (k1 : Core) (took : Bool) (form : ℕ) (m : Byte) (n : ℕ) (w : ℕ), OperandAt s c k form m n w b k1 took ∧ form = 0 ∧ CoreAt s (c.val) k 96 n w) ∧
    (∃ (c : Fin 65) (s : State) (b : State) (k : Core) (k1 : Core) (took : Bool) (form : ℕ) (m : Byte) (n : ℕ) (w : ℕ), OperandAt s c k form m n w b k1 took ∧ form = 0 ∧ CoreAt s (c.val) k 101 n w) ∧
    (∃ (c : Fin 65) (s : State) (b : State) (k : Core) (k1 : Core) (took : Bool) (form : ℕ) (m : Byte) (n : ℕ) (w : ℕ), OperandAt s c k form m n w b k1 took ∧ form = 0 ∧ CoreAt s (c.val) k 180 n w) ∧
    (∃ (c : Fin 65) (s : State) (b : State) (k : Core) (k1 : Core) (took : Bool) (form : ℕ) (m : Byte) (n : ℕ) (w : ℕ), OperandAt s c k form m n w b k1 took ∧ form = 0 ∧ CoreAt s (c.val) k 182 n w) ∧
    (∃ (c : Fin 65) (s : State) (b : State) (k : Core) (k1 : Core) (took : Bool) (form : ℕ) (m : Byte) (n : ℕ) (w : ℕ), OperandAt s c k form m n w b k1 took ∧ form = 0 ∧ CoreAt s (c.val) k 186 n w) ∧
    (∃ (c : Fin 65) (s : State) (b : State) (k : Core) (k1 : Core) (took : Bool) (form : ℕ) (m : Byte) (n : ℕ) (w : ℕ), OperandAt s c k form m n w b k1 took ∧ form = 1 ∧ CoreAt s (c.val) k 97 n w) ∧
    (∃ (c : Fin 65) (s : State) (b : State) (k : Core) (k1 : Core) (took : Bool) (form : ℕ) (m : Byte) (n : ℕ) (w : ℕ), OperandAt s c k form m n w b k1 took ∧ form = 1 ∧ CoreAt s (c.val) k 102 n w) ∧
    (∃ (c : Fin 65) (s : State) (b : State) (k : Core) (k1 : Core) (took : Bool) (form : ℕ) (m : Byte) (n : ℕ) (w : ℕ), OperandAt s c k form m n w b k1 took ∧ form = 1 ∧ CoreAt s (c.val) k 181 n w) ∧
    (∃ (c : Fin 65) (s : State) (b : State) (k : Core) (k1 : Core) (took : Bool) (form : ℕ) (m : Byte) (n : ℕ) (w : ℕ), OperandAt s c k form m n w b k1 took ∧ form = 1 ∧ CoreAt s (c.val) k 183 n w) ∧
    (∃ (c : Fin 65) (s : State) (b : State) (k : Core) (k1 : Core) (took : Bool) (form : ℕ) (m : Byte) (n : ℕ) (w : ℕ), OperandAt s c k form m n w b k1 took ∧ form = 1 ∧ CoreAt s (c.val) k 187 n w) ∧
    (∃ (c : Fin 65) (s : State) (b : State) (k : Core) (k1 : Core) (took : Bool) (form : ℕ) (m : Byte) (n : ℕ) (w : ℕ), OperandAt s c k form m n w b k1 took ∧ form = 3 ∧ CoreAt s (c.val) k 98 n w) ∧
    (∃ (c : Fin 65) (s : State) (b : State) (k : Core) (k1 : Core) (took : Bool) (form : ℕ) (m : Byte) (n : ℕ) (w : ℕ), OperandAt s c k form m n w b k1 took ∧ form = 3 ∧ CoreAt s (c.val) k 103 n w) :=
  ⟨⟨5, c77, c77, kk c77, kk c77, false, 0, (kk c77).op1, 2, 1, .immediate, by decide +kernel⟩,
    ⟨5, c78, c78, kk c78, kk c78, false, 0, (kk c78).op1, 2, 1, .immediate, by decide +kernel⟩,
    ⟨5, c79, c79, kk c79, kk c79, false, 0, (kk c79).op1, 2, 1, .immediate, by decide +kernel⟩,
    ⟨5, c80, c80, kk c80, kk c80, false, 0, (kk c80).op1, 2, 1, .immediate, by decide +kernel⟩,
    ⟨5, c81, c81, kk c81, kk c81, false, 0, (kk c81).op1, 2, 1, .immediate, by decide +kernel⟩,
    ⟨5, c82, (opOf c82 1).2.1, kk c82, (opOf c82 1).2.2.1, (opOf c82 1).2.2.2.2, 1, (opOf c82 1).1.getD 0 0, formLen 1, 2 + (opOf c82 1).2.2.2.1, .memory 1 _ _ _ _ _ (by decide) (by decide) (by decide +kernel), by decide +kernel⟩,
    ⟨5, c83, (opOf c83 1).2.1, kk c83, (opOf c83 1).2.2.1, (opOf c83 1).2.2.2.2, 1, (opOf c83 1).1.getD 0 0, formLen 1, 2 + (opOf c83 1).2.2.2.1, .memory 1 _ _ _ _ _ (by decide) (by decide) (by decide +kernel), by decide +kernel⟩,
    ⟨5, c84, (opOf c84 1).2.1, kk c84, (opOf c84 1).2.2.1, (opOf c84 1).2.2.2.2, 1, (opOf c84 1).1.getD 0 0, formLen 1, 2 + (opOf c84 1).2.2.2.1, .memory 1 _ _ _ _ _ (by decide) (by decide) (by decide +kernel), by decide +kernel⟩,
    ⟨5, c85, (opOf c85 1).2.1, kk c85, (opOf c85 1).2.2.1, (opOf c85 1).2.2.2.2, 1, (opOf c85 1).1.getD 0 0, formLen 1, 2 + (opOf c85 1).2.2.2.1, .memory 1 _ _ _ _ _ (by decide) (by decide) (by decide +kernel), by decide +kernel⟩,
    ⟨5, c86, (opOf c86 1).2.1, kk c86, (opOf c86 1).2.2.1, (opOf c86 1).2.2.2.2, 1, (opOf c86 1).1.getD 0 0, formLen 1, 2 + (opOf c86 1).2.2.2.1, .memory 1 _ _ _ _ _ (by decide) (by decide) (by decide +kernel), by decide +kernel⟩,
    ⟨5, c87, (opOf c87 3).2.1, kk c87, (opOf c87 3).2.2.1, (opOf c87 3).2.2.2.2, 3, (opOf c87 3).1.getD 0 0, formLen 3, 2 + (opOf c87 3).2.2.2.1, .memory 3 _ _ _ _ _ (by decide) (by decide) (by decide +kernel), by decide +kernel⟩,
    ⟨5, c88, (opOf c88 3).2.1, kk c88, (opOf c88 3).2.2.1, (opOf c88 3).2.2.2.2, 3, (opOf c88 3).1.getD 0 0, formLen 3, 2 + (opOf c88 3).2.2.2.1, .memory 3 _ _ _ _ _ (by decide) (by decide) (by decide +kernel), by decide +kernel⟩⟩

end CoreForms

namespace CoreInstructions

def D : List Byte := [0x80, 0xFF, 0x7F, 1, 0x85, 6, 7, 0x10]
def rich (s : State) : State := { (s.put (F.SRT_BUDGET_BUDGET 5) 20000) with tb := 0x0123456789ABCDEF * 2 ^ 24, cores := upd s.cores 5 (fun k => { k with
  steps := 7, pmLatch := 0x1122334455667788, stage0 := 2, stage1 := 3, txnConf := true, txnOver := true, sealRes := true, sealFail := true, ltrF := 33, ltrRes := 5, ltrSer := 0x01020304,
  queue := [(List.range 32).map (BitVec.ofNat 8 ·), List.replicate 32 7], evbuf := (List.range 32).map (BitVec.ofNat 8 <| 200 - ·), ltrbuf := (List.range 32).map (BitVec.ofNat 8 <| 100 + ·)
  rbAddr := 0x10061010, rbLatch := 0xA1B2C3D4, rbStage := [1, 2, 3], rbRef := true }) }
def rds (s : State) (l : List Nat) : List Byte × State × Core × Nat × Bool := (readsOf s 5 (kk s) l).getD ([], s, kk s, 0, false)
def c89 : State := (core5 [106, 32, 16] D regs5 |> (·.put (F.ARB_MASK_BANKS 5) 0x00FFFFFF) |> rich)
def c91 : State := (core5 [107, 32, 16] D regs5 |> (·.put (F.ARB_MASK_BANKS 5) 0x00FFFFFF) |> rich)
def c93 : State := (core5 [108, 32, 16] D regs5 |> (·.put (F.ARB_MASK_BANKS 5) 0x00FFFFFF) |> rich)
def c95 : State := (core5 [109, 32, 16] D regs5 |> (·.put (F.ARB_MASK_BANKS 5) 0x00FFFFFF) |> rich)
def c97 : State := (core5 [110, 32, 16] D regs5 |> (·.put (F.ARB_MASK_BANKS 5) 0x00FFFFFF) |> rich)
def c99 : State := (core5 [112, 32, 16] D regs5 |> (·.put (F.ARB_MASK_BANKS 5) 0x00FFFFFF) |> rich)
def c101 : State := (core5 [113, 32, 16] D regs5 |> (·.put (F.ARB_MASK_BANKS 5) 0x00FFFFFF) |> rich)
def c103 : State := (core5 [114, 32, 16] D regs5 |> (·.put (F.ARB_MASK_BANKS 5) 0x00FFFFFF) |> rich)
def c105 : State := (core5 [115, 32, 16] D regs5 |> (·.put (F.ARB_MASK_BANKS 5) 0x00FFFFFF) |> rich)
def c107 : State := (core5 [116, 32, 16] D regs5 |> (·.put (F.ARB_MASK_BANKS 5) 0x00FFFFFF) |> rich)
def c109 : State := (core5 [117, 32, 16] D regs5 |> (·.put (F.ARB_MASK_BANKS 5) 0x00FFFFFF) |> rich)
def c111 : State := (core5 [120, 32, 16] D regs5 |> (·.put (F.ARB_MASK_BANKS 5) 0x00FFFFFF) |> rich)
def c113 : State := (core5 [121, 32, 16] D regs5 |> (·.put (F.ARB_MASK_BANKS 5) 0x00FFFFFF) |> rich)
def c115 : State := (core5 [122, 32, 16] D regs5 |> (·.put (F.ARB_MASK_BANKS 5) 0x00FFFFFF) |> rich)
def c117 : State := (core5 [123, 32, 16] D regs5 |> (·.put (F.ARB_MASK_BANKS 5) 0x00FFFFFF) |> rich)
def c119 : State := (core5 [124, 32, 16] D regs5 |> (·.put (F.ARB_MASK_BANKS 5) 0x00FFFFFF) |> rich)
def c121 : State := (core5 [125, 32, 16] D regs5 |> (·.put (F.ARB_MASK_BANKS 5) 0x00FFFFFF) |> rich)
def c123 : State := (core5 [126, 32, 16] D regs5 |> (·.put (F.ARB_MASK_BANKS 5) 0x00FFFFFF) |> rich)
def c125 : State := (core5 [127, 32, 16] D regs5 |> (·.put (F.ARB_MASK_BANKS 5) 0x00FFFFFF) |> rich)
def c127 : State := (core5 [128, 32, 16] D regs5 |> (·.put (F.ARB_MASK_BANKS 5) 0x00FFFFFF) |> rich)
def c128 : State := (core5 [129, 32, 16] D regs5 |> (·.put (F.ARB_MASK_BANKS 5) 0x00FFFFFF) |> rich)
def c129 : State := (core5 [134, 32, 16] D regs5 |> (·.put (F.ARB_MASK_BANKS 5) 0x00FFFFFF) |> rich)
def c130 : State := (core5 [135, 32, 16] D regs5 |> (·.put (F.ARB_MASK_BANKS 5) 0x00FFFFFF) |> rich)
def c131 : State := (core5 [136, 32, 16] D regs5 |> (·.put (F.ARB_MASK_BANKS 5) 0x00FFFFFF) |> rich)
def c132 : State := (core5 [137, 32, 16] D regs5 |> (·.put (F.ARB_MASK_BANKS 5) 0x00FFFFFF) |> rich)
def c133 : State := (core5 [138, 32, 16] D regs5 |> (·.put (F.ARB_MASK_BANKS 5) 0x00FFFFFF) |> rich)
def c134 : State := (core5 [139, 32, 16] D regs5 |> (·.put (F.ARB_MASK_BANKS 5) 0x00FFFFFF) |> rich)
def c135 : State := (core5 [140, 32, 16] D regs5 |> (·.put (F.ARB_MASK_BANKS 5) 0x00FFFFFF) |> rich)
def c136 : State := (core5 [141, 32, 16] D regs5 |> (·.put (F.ARB_MASK_BANKS 5) 0x00FFFFFF) |> rich)
def c137 : State := (core5 [142, 32, 16] D regs5 |> (·.put (F.ARB_MASK_BANKS 5) 0x00FFFFFF) |> rich)
def c138 : State := (core5 [143, 32, 16] D regs5 |> (·.put (F.ARB_MASK_BANKS 5) 0x00FFFFFF) |> rich)
def c139 : State := (core5 [144, 32, 16] D regs5 |> (·.put (F.ARB_MASK_BANKS 5) 0x00FFFFFF) |> rich)
def c140 : State := (core5 [145, 32, 16] D regs5 |> (·.put (F.ARB_MASK_BANKS 5) 0x00FFFFFF) |> rich)
def c141 : State := (core5 [147, 32, 16] D regs5 |> (·.put (F.ARB_MASK_BANKS 5) 0x00FFFFFF) |> rich)
def c142 : State := (core5 [184, 32, 16] D regs5 |> (·.put (F.ARB_MASK_BANKS 5) 0x00FFFFFF) |> rich)
def c143 : State := (core5 [185, 32, 16] D regs5 |> (·.put (F.ARB_MASK_BANKS 5) 0x00FFFFFF) |> rich)
def c144 : State := ((core5 [130, 32, 16] D regs5 |> (·.put (F.ARB_MASK_BANKS 5) 0x00FFFFFF) |> rich))
def c150 : State := ((core5 [131, 32, 16] D regs5 |> (·.put (F.ARB_MASK_BANKS 5) 0x00FFFFFF) |> rich))
def c156 : State := (core5 [89, 32, 16] D regs5 |> (·.put (F.ARB_MASK_BANKS 5) 0x00FFFFFF) |> rich)
def c162 : State := (core5 [99, 32, 16] D regs5 |> (·.put (F.ARB_MASK_BANKS 5) 0x00FFFFFF) |> rich)
def c163 : State := (core5 [104, 32, 16] D regs5 |> (·.put (F.ARB_MASK_BANKS 5) 0x00FFFFFF) |> rich)
def c164 : State := (core5 [100, 32, 16] D regs5 |> (·.put (F.ARB_MASK_BANKS 5) 0x00FFFFFF) |> rich)
def c165 : State := (core5 [105, 32, 16] D regs5 |> (·.put (F.ARB_MASK_BANKS 5) 0x00FFFFFF) |> rich)
def c166 : State := (core5 [118, 32, 16] D regs5 |> (·.put (F.ARB_MASK_BANKS 5) 0x00FFFFFF) |> rich)
def c167 : State := (core5 [119, 32, 16] D regs5 |> (·.put (F.ARB_MASK_BANKS 5) 0x00FFFFFF) |> rich)
def c168 : State := (core5 [132, 32, 16] D regs5 |> (·.put (F.ARB_MASK_BANKS 5) 0x00FFFFFF) |> rich)
def c169 : State := (core5 [133, 32, 16] D regs5 |> (·.put (F.ARB_MASK_BANKS 5) 0x00FFFFFF) |> rich)
def c170 : State := (core5 [188, 32, 16] D regs5 |> (·.put (F.ARB_MASK_BANKS 5) 0x00FFFFFF) |> rich)
def c171 : State := (core5 [189, 32, 16] D regs5 |> (·.put (F.ARB_MASK_BANKS 5) 0x00FFFFFF) |> rich)
def c172 : State := ((core5 [118, 32, 16] D regs5 |> (·.put (F.ARB_MASK_BANKS 5) 0x00FFFFFF) |> rich))
def c181 : State := ((core5 [119, 32, 16] D regs5 |> (·.put (F.ARB_MASK_BANKS 5) 0x00FFFFFF) |> rich))
def c190 : State := ((core5 [188, 32, 16] D regs5 |> (·.put (F.ARB_MASK_BANKS 5) 0x00FFFFFF) |> rich))
def c198 : State := ((core5 [189, 32, 16] D regs5 |> (·.put (F.ARB_MASK_BANKS 5) 0x00FFFFFF) |> rich))
def c266 : State := (core5 [148, 32, 16] D regs5 |> (·.put (F.ARB_MASK_BANKS 5) 0x00FFFFFF) |> rich)
def c267 : State := (core5 [149, 32, 16] D regs5 |> (·.put (F.ARB_MASK_BANKS 5) 0x00FFFFFF) |> rich)
def c268 : State := (core5 [150, 32, 16] D regs5 |> (·.put (F.ARB_MASK_BANKS 5) 0x00FFFFFF) |> rich)
def c269 : State := (core5 [151, 32, 16] D regs5 |> (·.put (F.ARB_MASK_BANKS 5) 0x00FFFFFF) |> rich)
def c270 : State := (core5 [152, 32, 16] D regs5 |> (·.put (F.ARB_MASK_BANKS 5) 0x00FFFFFF) |> rich)
def c271 : State := (core5 [153, 32, 16] D regs5 |> (·.put (F.ARB_MASK_BANKS 5) 0x00FFFFFF) |> rich)
def c272 : State := (core5 [154, 32, 16] D regs5 |> (·.put (F.ARB_MASK_BANKS 5) 0x00FFFFFF) |> rich)
def c273 : State := (core5 [155, 32, 16] D regs5 |> (·.put (F.ARB_MASK_BANKS 5) 0x00FFFFFF) |> rich)
def c274 : State := (core5 [156, 32, 16] D regs5 |> (·.put (F.ARB_MASK_BANKS 5) 0x00FFFFFF) |> rich)
def c275 : State := (core5 [157, 32, 16] D regs5 |> (·.put (F.ARB_MASK_BANKS 5) 0x00FFFFFF) |> rich)
def c276 : State := (core5 [158, 32, 16] D regs5 |> (·.put (F.ARB_MASK_BANKS 5) 0x00FFFFFF) |> rich)
def c277 : State := (core5 [159, 32, 16] D regs5 |> (·.put (F.ARB_MASK_BANKS 5) 0x00FFFFFF) |> rich)
def c278 : State := (core5 [178, 32, 16] D regs5 |> (·.put (F.ARB_MASK_BANKS 5) 0x00FFFFFF) |> rich)
def c279 : State := (core5 [179, 32, 16] D regs5 |> (·.put (F.ARB_MASK_BANKS 5) 0x00FFFFFF) |> rich)
def c281 : State := (core5 [4, 32, 16] D regs5 |> (·.put (F.ARB_MASK_BANKS 5) 0x00FFFFFF) |> rich)
def c282 : State := (core5 [3, 32, 16] D { regs5 with sp := 0x7001 } |> (·.put (F.ARB_MASK_BANKS 5) 0x00FFFFFF) |> rich)
def c284 : State := (core5 [1, 30, 16] D { regs5 with fl := 0x00 } |> (·.put (F.ARB_MASK_BANKS 5) 0x00FFFFFF) |> rich)
def c290 : State := (core5 [5, 30, 16] D { regs5 with fl := 0x00 } |> (·.put (F.ARB_MASK_BANKS 5) 0x00FFFFFF) |> rich)
def c296 : State := (core5 [6, 30, 16] D { regs5 with fl := 0x00 } |> (·.put (F.ARB_MASK_BANKS 5) 0x00FFFFFF) |> rich)
def c302 : State := (core5 [160, 30, 16] D { regs5 with fl := 0x00 } |> (·.put (F.ARB_MASK_BANKS 5) 0x00FFFFFF) |> rich)
def c308 : State := (core5 [161, 30, 16] D { regs5 with fl := 0x00 } |> (·.put (F.ARB_MASK_BANKS 5) 0x00FFFFFF) |> rich)
def c314 : State := (core5 [162, 30, 16] D { regs5 with fl := 0x00 } |> (·.put (F.ARB_MASK_BANKS 5) 0x00FFFFFF) |> rich)
def c320 : State := (core5 [163, 30, 16] D { regs5 with fl := 0x00 } |> (·.put (F.ARB_MASK_BANKS 5) 0x00FFFFFF) |> rich)
def c326 : State := (core5 [164, 30, 16] D { regs5 with fl := 0x00 } |> (·.put (F.ARB_MASK_BANKS 5) 0x00FFFFFF) |> rich)
def c332 : State := (core5 [165, 30, 16] D { regs5 with fl := 0x00 } |> (·.put (F.ARB_MASK_BANKS 5) 0x00FFFFFF) |> rich)
def c338 : State := (core5 [166, 30, 16] D { regs5 with fl := 0x00 } |> (·.put (F.ARB_MASK_BANKS 5) 0x00FFFFFF) |> rich)
def c344 : State := (core5 [167, 30, 16] D { regs5 with fl := 0x00 } |> (·.put (F.ARB_MASK_BANKS 5) 0x00FFFFFF) |> rich)
def c350 : State := (core5 [168, 30, 16] D { regs5 with fl := 0x00 } |> (·.put (F.ARB_MASK_BANKS 5) 0x00FFFFFF) |> rich)
def c356 : State := (core5 [169, 30, 16] D { regs5 with fl := 0x00 } |> (·.put (F.ARB_MASK_BANKS 5) 0x00FFFFFF) |> rich)
def c362 : State := (core5 [170, 30, 16] D { regs5 with fl := 0x00 } |> (·.put (F.ARB_MASK_BANKS 5) 0x00FFFFFF) |> rich)
def c368 : State := (core5 [171, 30, 16] D { regs5 with fl := 0x00 } |> (·.put (F.ARB_MASK_BANKS 5) 0x00FFFFFF) |> rich)
def c374 : State := (core5 [172, 30, 16] D { regs5 with fl := 0x00 } |> (·.put (F.ARB_MASK_BANKS 5) 0x00FFFFFF) |> rich)
def c380 : State := (core5 [173, 30, 16] D { regs5 with fl := 0x00 } |> (·.put (F.ARB_MASK_BANKS 5) 0x00FFFFFF) |> rich)
def c386 : State := (core5 [174, 30, 16] D { regs5 with fl := 0x00 } |> (·.put (F.ARB_MASK_BANKS 5) 0x00FFFFFF) |> rich)
def c392 : State := (core5 [176, 30, 16] D { regs5 with fl := 0x00 } |> (·.put (F.ARB_MASK_BANKS 5) 0x00FFFFFF) |> rich)
def c398 : State := (core5 [177, 30, 16] D { regs5 with fl := 0x00 } |> (·.put (F.ARB_MASK_BANKS 5) 0x00FFFFFF) |> rich)
def c404 : State := (core5 [146, 30, 16] D { regs5 with fl := 0x00 } |> (·.put (F.ARB_MASK_BANKS 5) 0x00FFFFFF) |> rich)
def c412 : State := ((core5 [192, 32, 16] D { regs5 with fl := 0x01, p := 0x200, q := 0x300 } |> (·.put (F.ARB_MASK_BANKS 5) 0x00FFFFFF) |> rich))
def c462 : State := ((core5 [193, 32, 16] D { regs5 with fl := 0x01, p := 0x200, q := 0x300 } |> (·.put (F.ARB_MASK_BANKS 5) 0x00FFFFFF) |> rich))
def c512 : State := ((core5 [194, 32, 16] D { regs5 with fl := 0x01, p := 0x200, q := 0x300 } |> (·.put (F.ARB_MASK_BANKS 5) 0x00FFFFFF) |> rich))
def c562 : State := ((core5 [195, 32, 16] D { regs5 with fl := 0x01, p := 0x200, q := 0x300 } |> (·.put (F.ARB_MASK_BANKS 5) 0x00FFFFFF) |> rich))
def c612 : State := ((core5 [196, 32, 16] D { regs5 with fl := 0x01, p := 0x200, q := 0x300 } |> (·.put (F.ARB_MASK_BANKS 5) 0x00FFFFFF) |> rich))
def c662 : State := ((core5 [197, 32, 16] D { regs5 with fl := 0x01, p := 0x200, q := 0x300 } |> (·.put (F.ARB_MASK_BANKS 5) 0x00FFFFFF) |> rich))
def c712 : State := ((core5 [198, 32, 16] D { regs5 with fl := 0x01, p := 0x200, q := 0x300 } |> (·.put (F.ARB_MASK_BANKS 5) 0x00FFFFFF) |> rich))

theorem witness_CoreRegisterInstructions :
    (∃ (c : Fin 65) (s : State) (k : Core), CoreAt s (c.val) k 106 1 1) ∧
    (∃ (c : Fin 65) (s : State) (k : Core), CoreAt s (c.val) k 107 1 1) ∧
    (∃ (c : Fin 65) (s : State) (k : Core), CoreAt s (c.val) k 108 1 1) ∧
    (∃ (c : Fin 65) (s : State) (k : Core), CoreAt s (c.val) k 109 1 1) ∧
    (∃ (c : Fin 65) (s : State) (k : Core), CoreAt s (c.val) k 110 1 1) ∧
    (∃ (c : Fin 65) (s : State) (k : Core), CoreAt s (c.val) k 112 1 1) ∧
    (∃ (c : Fin 65) (s : State) (k : Core), CoreAt s (c.val) k 113 1 1) ∧
    (∃ (c : Fin 65) (s : State) (k : Core), CoreAt s (c.val) k 114 1 1) ∧
    (∃ (c : Fin 65) (s : State) (k : Core), CoreAt s (c.val) k 115 1 1) ∧
    (∃ (c : Fin 65) (s : State) (k : Core), CoreAt s (c.val) k 116 1 1) ∧
    (∃ (c : Fin 65) (s : State) (k : Core), CoreAt s (c.val) k 117 1 1) ∧
    (∃ (c : Fin 65) (s : State) (k : Core), CoreAt s (c.val) k 120 1 1) ∧
    (∃ (c : Fin 65) (s : State) (k : Core), CoreAt s (c.val) k 121 1 1) ∧
    (∃ (c : Fin 65) (s : State) (k : Core), CoreAt s (c.val) k 122 1 1) ∧
    (∃ (c : Fin 65) (s : State) (k : Core), CoreAt s (c.val) k 123 1 1) ∧
    (∃ (c : Fin 65) (s : State) (k : Core), CoreAt s (c.val) k 124 1 1) ∧
    (∃ (c : Fin 65) (s : State) (k : Core), CoreAt s (c.val) k 125 1 1) ∧
    (∃ (c : Fin 65) (s : State) (k : Core), CoreAt s (c.val) k 126 1 1) ∧
    (∃ (c : Fin 65) (s : State) (k : Core), CoreAt s (c.val) k 127 1 4) :=
  ⟨⟨5, c89, kk c89, by decide +kernel⟩,
    ⟨5, c91, kk c91, by decide +kernel⟩,
    ⟨5, c93, kk c93, by decide +kernel⟩,
    ⟨5, c95, kk c95, by decide +kernel⟩,
    ⟨5, c97, kk c97, by decide +kernel⟩,
    ⟨5, c99, kk c99, by decide +kernel⟩,
    ⟨5, c101, kk c101, by decide +kernel⟩,
    ⟨5, c103, kk c103, by decide +kernel⟩,
    ⟨5, c105, kk c105, by decide +kernel⟩,
    ⟨5, c107, kk c107, by decide +kernel⟩,
    ⟨5, c109, kk c109, by decide +kernel⟩,
    ⟨5, c111, kk c111, by decide +kernel⟩,
    ⟨5, c113, kk c113, by decide +kernel⟩,
    ⟨5, c115, kk c115, by decide +kernel⟩,
    ⟨5, c117, kk c117, by decide +kernel⟩,
    ⟨5, c119, kk c119, by decide +kernel⟩,
    ⟨5, c121, kk c121, by decide +kernel⟩,
    ⟨5, c123, kk c123, by decide +kernel⟩,
    ⟨5, c125, kk c125, by decide +kernel⟩⟩

theorem witness_CorePointerInstructions :
    (∃ (c : Fin 65) (s : State) (k : Core), CoreAt s (c.val) k 128 3 1) ∧
    (∃ (c : Fin 65) (s : State) (k : Core), CoreAt s (c.val) k 129 3 1) ∧
    (∃ (c : Fin 65) (s : State) (k : Core), CoreAt s (c.val) k 134 1 1) ∧
    (∃ (c : Fin 65) (s : State) (k : Core), CoreAt s (c.val) k 135 1 1) ∧
    (∃ (c : Fin 65) (s : State) (k : Core), CoreAt s (c.val) k 136 2 1) ∧
    (∃ (c : Fin 65) (s : State) (k : Core), CoreAt s (c.val) k 137 2 1) ∧
    (∃ (c : Fin 65) (s : State) (k : Core), CoreAt s (c.val) k 138 1 1) ∧
    (∃ (c : Fin 65) (s : State) (k : Core), CoreAt s (c.val) k 139 3 1) ∧
    (∃ (c : Fin 65) (s : State) (k : Core), CoreAt s (c.val) k 140 1 1) ∧
    (∃ (c : Fin 65) (s : State) (k : Core), CoreAt s (c.val) k 141 1 1) ∧
    (∃ (c : Fin 65) (s : State) (k : Core), CoreAt s (c.val) k 142 1 1) ∧
    (∃ (c : Fin 65) (s : State) (k : Core), CoreAt s (c.val) k 143 1 1) ∧
    (∃ (c : Fin 65) (s : State) (k : Core), CoreAt s (c.val) k 144 3 1) ∧
    (∃ (c : Fin 65) (s : State) (k : Core), CoreAt s (c.val) k 145 1 1) ∧
    (∃ (c : Fin 65) (s : State) (k : Core), CoreAt s (c.val) k 147 1 1) ∧
    (∃ (c : Fin 65) (s : State) (k : Core), CoreAt s (c.val) k 184 3 1) ∧
    (∃ (c : Fin 65) (s : State) (k : Core), CoreAt s (c.val) k 185 3 1) ∧
    (∃ (c : Fin 65) (s : State) (k : Core) (lo : Byte) (hi : Byte) (b : State) (k1 : Core) (x : ℕ) (took : Bool), readsOf s c k [k.opW.toNat, (k.opW + 1).toNat] = some ([lo, hi], b, k1, x, took) ∧ CoreAt s (c.val) k 130 3 (3 + x)) ∧
    (∃ (c : Fin 65) (s : State) (k : Core) (lo : Byte) (hi : Byte) (b : State) (k1 : Core) (x : ℕ) (took : Bool), readsOf s c k [k.opW.toNat, (k.opW + 1).toNat] = some ([lo, hi], b, k1, x, took) ∧ CoreAt s (c.val) k 131 3 (3 + x)) :=
  ⟨⟨5, c127, kk c127, by decide +kernel⟩,
    ⟨5, c128, kk c128, by decide +kernel⟩,
    ⟨5, c129, kk c129, by decide +kernel⟩,
    ⟨5, c130, kk c130, by decide +kernel⟩,
    ⟨5, c131, kk c131, by decide +kernel⟩,
    ⟨5, c132, kk c132, by decide +kernel⟩,
    ⟨5, c133, kk c133, by decide +kernel⟩,
    ⟨5, c134, kk c134, by decide +kernel⟩,
    ⟨5, c135, kk c135, by decide +kernel⟩,
    ⟨5, c136, kk c136, by decide +kernel⟩,
    ⟨5, c137, kk c137, by decide +kernel⟩,
    ⟨5, c138, kk c138, by decide +kernel⟩,
    ⟨5, c139, kk c139, by decide +kernel⟩,
    ⟨5, c140, kk c140, by decide +kernel⟩,
    ⟨5, c141, kk c141, by decide +kernel⟩,
    ⟨5, c142, kk c142, by decide +kernel⟩,
    ⟨5, c143, kk c143, by decide +kernel⟩,
    ⟨5, c144, kk c144, (rds c144 [(kk c144).opW.toNat, ((kk c144).opW + 1).toNat]).1.getD 0 0, (rds c144 [(kk c144).opW.toNat, ((kk c144).opW + 1).toNat]).1.getD 1 0, (rds c144 [(kk c144).opW.toNat, ((kk c144).opW + 1).toNat]).2.1, (rds c144 [(kk c144).opW.toNat, ((kk c144).opW + 1).toNat]).2.2.1, (rds c144 [(kk c144).opW.toNat, ((kk c144).opW + 1).toNat]).2.2.2.1, (rds c144 [(kk c144).opW.toNat, ((kk c144).opW + 1).toNat]).2.2.2.2, by decide +kernel⟩,
    ⟨5, c150, kk c150, (rds c150 [(kk c150).opW.toNat, ((kk c150).opW + 1).toNat]).1.getD 0 0, (rds c150 [(kk c150).opW.toNat, ((kk c150).opW + 1).toNat]).1.getD 1 0, (rds c150 [(kk c150).opW.toNat, ((kk c150).opW + 1).toNat]).2.1, (rds c150 [(kk c150).opW.toNat, ((kk c150).opW + 1).toNat]).2.2.1, (rds c150 [(kk c150).opW.toNat, ((kk c150).opW + 1).toNat]).2.2.2.1, (rds c150 [(kk c150).opW.toNat, ((kk c150).opW + 1).toNat]).2.2.2.2, by decide +kernel⟩⟩

theorem witness_CoreStores :
    (∃ (c : Fin 65) (s : State) (k : Core) (form : ℕ), 1 ≤ form ∧ form ≤ 6 ∧ (formAddr k form).toNat < 32768 ∧ CoreAt s (c.val) k (88 + form) (formLen form) 2) ∧
    (∃ (c : Fin 65) (s : State) (k : Core) (form : ℕ), 1 ≤ form ∧ form ≤ 6 ∧ CoreAt s (c.val) k (88 + form) (formLen form) (2 + storeSteps (some k.r.a) (formAddr k form).toNat) ∧ Storable s (c.val) k [((formAddr k form).toNat, k.r.a)]) ∧
    (∃ (c : Fin 65) (s : State) (k : Core), k.opW.toNat < 32768 ∧ CoreAt s (c.val) k 99 3 2) ∧
    (∃ (c : Fin 65) (s : State) (k : Core), CoreAt s (c.val) k 99 3 (2 + storeSteps (some k.r.x) k.opW.toNat) ∧ Storable s (c.val) k [(k.opW.toNat, k.r.x)]) ∧
    (∃ (c : Fin 65) (s : State) (k : Core), k.opW.toNat < 32768 ∧ CoreAt s (c.val) k 104 3 2) ∧
    (∃ (c : Fin 65) (s : State) (k : Core), CoreAt s (c.val) k 104 3 (2 + storeSteps (some k.r.y) k.opW.toNat) ∧ Storable s (c.val) k [(k.opW.toNat, k.r.y)]) ∧
    (∃ (c : Fin 65) (s : State) (k : Core), k.r.q.toNat < 32768 ∧ CoreAt s (c.val) k 100 1 2) ∧
    (∃ (c : Fin 65) (s : State) (k : Core), CoreAt s (c.val) k 100 1 (2 + storeSteps (some k.r.x) k.r.q.toNat) ∧ Storable s (c.val) k [(k.r.q.toNat, k.r.x)]) ∧
    (∃ (c : Fin 65) (s : State) (k : Core), k.r.q.toNat < 32768 ∧ CoreAt s (c.val) k 105 1 2) ∧
    (∃ (c : Fin 65) (s : State) (k : Core), CoreAt s (c.val) k 105 1 (2 + storeSteps (some k.r.y) k.r.q.toNat) ∧ Storable s (c.val) k [(k.r.q.toNat, k.r.y)]) ∧
    (∃ (c : Fin 65) (s : State) (k : Core), k.opW.toNat < 32768 ∧ CoreAt s (c.val) k 118 3 3) ∧
    (∃ (c : Fin 65) (s : State) (k : Core), k.opW.toNat < 32768 ∧ CoreAt s (c.val) k 119 3 3) ∧
    (∃ (c : Fin 65) (s : State) (k : Core), k.opW.toNat < 32768 ∧ (k.opW + 1).toNat < 32768 ∧ CoreAt s (c.val) k 132 3 3) ∧
    (∃ (c : Fin 65) (s : State) (k : Core), CoreAt s (c.val) k 132 3 (3 + (List.map (fun (e : ℕ × BitVec 8) => storeSteps (some e.2) e.1) [(k.opW.toNat, BitVec.ofNat 8 k.r.p.toNat), ((k.opW + 1).toNat, BitVec.ofNat 8 (k.r.p.toNat / 256))]).sum) ∧ Storable s (c.val) k [(k.opW.toNat, BitVec.ofNat 8 k.r.p.toNat), ((k.opW + 1).toNat, BitVec.ofNat 8 (k.r.p.toNat / 256))]) ∧
    (∃ (c : Fin 65) (s : State) (k : Core), k.opW.toNat < 32768 ∧ (k.opW + 1).toNat < 32768 ∧ CoreAt s (c.val) k 133 3 3) ∧
    (∃ (c : Fin 65) (s : State) (k : Core), CoreAt s (c.val) k 133 3 (3 + (List.map (fun (e : ℕ × BitVec 8) => storeSteps (some e.2) e.1) [(k.opW.toNat, BitVec.ofNat 8 k.r.q.toNat), ((k.opW + 1).toNat, BitVec.ofNat 8 (k.r.q.toNat / 256))]).sum) ∧ Storable s (c.val) k [(k.opW.toNat, BitVec.ofNat 8 k.r.q.toNat), ((k.opW + 1).toNat, BitVec.ofNat 8 (k.r.q.toNat / 256))]) ∧
    (∃ (c : Fin 65) (s : State) (k : Core), k.opW.toNat < 32768 ∧ (k.opW + 1).toNat < 32768 ∧ CoreAt s (c.val) k 188 3 5) ∧
    (∃ (c : Fin 65) (s : State) (k : Core), k.opW.toNat < 32768 ∧ (k.opW + 1).toNat < 32768 ∧ CoreAt s (c.val) k 189 3 5) ∧
    (∃ (c : Fin 65) (s : State) (k : Core) (m : Byte) (u : State) (k1 : Core) (x : ℕ) (took : Bool), readsOf s c k [k.opW.toNat] = some ([m], u, k1, x, took) ∧ CoreAt s (c.val) k 118 3 (3 + x + storeSteps none k.opW.toNat) ∧ Storable s (c.val) k [(k.opW.toNat, m + 1)]) ∧
    (∃ (c : Fin 65) (s : State) (k : Core) (m : Byte) (u : State) (k1 : Core) (x : ℕ) (took : Bool), readsOf s c k [k.opW.toNat] = some ([m], u, k1, x, took) ∧ CoreAt s (c.val) k 119 3 (3 + x + storeSteps none k.opW.toNat) ∧ Storable s (c.val) k [(k.opW.toNat, m - 1)]) ∧
    (∃ (c : Fin 65) (s : State) (k : Core) (lo : Byte) (hi : Byte) (u : State) (k1 : Core) (x : ℕ) (took : Bool), readsOf s c k [k.opW.toNat, (k.opW + 1).toNat] = some ([lo, hi], u, k1, x, took) ∧ CoreAt s (c.val) k 188 3 (5 + x + storeSteps none k.opW.toNat + storeSteps none (k.opW + 1).toNat) ∧ Storable s (c.val) k [(k.opW.toNat, BitVec.ofNat 8 ((hi ++ lo : BitVec 16) + 1).toNat), ((k.opW + 1).toNat, BitVec.ofNat 8 (((hi ++ lo : BitVec 16) + 1).toNat / 256))]) ∧
    (∃ (c : Fin 65) (s : State) (k : Core) (lo : Byte) (hi : Byte) (u : State) (k1 : Core) (x : ℕ) (took : Bool), readsOf s c k [k.opW.toNat, (k.opW + 1).toNat] = some ([lo, hi], u, k1, x, took) ∧ CoreAt s (c.val) k 189 3 (5 + x + storeSteps none k.opW.toNat + storeSteps none (k.opW + 1).toNat) ∧ Storable s (c.val) k [(k.opW.toNat, BitVec.ofNat 8 ((hi ++ lo : BitVec 16) - 1).toNat), ((k.opW + 1).toNat, BitVec.ofNat 8 (((hi ++ lo : BitVec 16) - 1).toNat / 256))]) :=
  ⟨⟨5, c156, kk c156, 1, by decide +kernel⟩,
    ⟨5, c156, kk c156, 1, by decide +kernel⟩,
    ⟨5, c162, kk c162, by decide +kernel⟩,
    ⟨5, c162, kk c162, by decide +kernel⟩,
    ⟨5, c163, kk c163, by decide +kernel⟩,
    ⟨5, c163, kk c163, by decide +kernel⟩,
    ⟨5, c164, kk c164, by decide +kernel⟩,
    ⟨5, c164, kk c164, by decide +kernel⟩,
    ⟨5, c165, kk c165, by decide +kernel⟩,
    ⟨5, c165, kk c165, by decide +kernel⟩,
    ⟨5, c166, kk c166, by decide +kernel⟩,
    ⟨5, c167, kk c167, by decide +kernel⟩,
    ⟨5, c168, kk c168, by decide +kernel⟩,
    ⟨5, c168, kk c168, by decide +kernel⟩,
    ⟨5, c169, kk c169, by decide +kernel⟩,
    ⟨5, c169, kk c169, by decide +kernel⟩,
    ⟨5, c170, kk c170, by decide +kernel⟩,
    ⟨5, c171, kk c171, by decide +kernel⟩,
    ⟨5, c172, kk c172, (rds c172 [(kk c172).opW.toNat]).1.getD 0 0, (rds c172 [(kk c172).opW.toNat]).2.1, (rds c172 [(kk c172).opW.toNat]).2.2.1, (rds c172 [(kk c172).opW.toNat]).2.2.2.1, (rds c172 [(kk c172).opW.toNat]).2.2.2.2, by decide +kernel⟩,
    ⟨5, c181, kk c181, (rds c181 [(kk c181).opW.toNat]).1.getD 0 0, (rds c181 [(kk c181).opW.toNat]).2.1, (rds c181 [(kk c181).opW.toNat]).2.2.1, (rds c181 [(kk c181).opW.toNat]).2.2.2.1, (rds c181 [(kk c181).opW.toNat]).2.2.2.2, by decide +kernel⟩,
    ⟨5, c190, kk c190, (rds c190 [(kk c190).opW.toNat, ((kk c190).opW + 1).toNat]).1.getD 0 0, (rds c190 [(kk c190).opW.toNat, ((kk c190).opW + 1).toNat]).1.getD 1 0, (rds c190 [(kk c190).opW.toNat, ((kk c190).opW + 1).toNat]).2.1, (rds c190 [(kk c190).opW.toNat, ((kk c190).opW + 1).toNat]).2.2.1, (rds c190 [(kk c190).opW.toNat, ((kk c190).opW + 1).toNat]).2.2.2.1, (rds c190 [(kk c190).opW.toNat, ((kk c190).opW + 1).toNat]).2.2.2.2, by decide +kernel⟩,
    ⟨5, c198, kk c198, (rds c198 [(kk c198).opW.toNat, ((kk c198).opW + 1).toNat]).1.getD 0 0, (rds c198 [(kk c198).opW.toNat, ((kk c198).opW + 1).toNat]).1.getD 1 0, (rds c198 [(kk c198).opW.toNat, ((kk c198).opW + 1).toNat]).2.1, (rds c198 [(kk c198).opW.toNat, ((kk c198).opW + 1).toNat]).2.2.1, (rds c198 [(kk c198).opW.toNat, ((kk c198).opW + 1).toNat]).2.2.2.1, (rds c198 [(kk c198).opW.toNat, ((kk c198).opW + 1).toNat]).2.2.2.2, by decide +kernel⟩⟩

theorem witness_CoreStackInstructions :
    (∃ (c : Fin 65) (s : State) (k : Core), (fun (i : ℕ) => (k.r.sp - BitVec.ofNat 16 i).toNat) 1 < 32768 ∧ CoreAt s (c.val) k 148 1 2) ∧
    (∃ (c : Fin 65) (s : State) (k : Core), (fun (i : ℕ) => (k.r.sp - BitVec.ofNat 16 i).toNat) 0 < 32768 ∧ CoreAt s (c.val) k 149 1 2) ∧
    (∃ (c : Fin 65) (s : State) (k : Core), (fun (i : ℕ) => (k.r.sp - BitVec.ofNat 16 i).toNat) 1 < 32768 ∧ CoreAt s (c.val) k 150 1 2) ∧
    (∃ (c : Fin 65) (s : State) (k : Core), (fun (i : ℕ) => (k.r.sp - BitVec.ofNat 16 i).toNat) 0 < 32768 ∧ CoreAt s (c.val) k 151 1 2) ∧
    (∃ (c : Fin 65) (s : State) (k : Core), (fun (i : ℕ) => (k.r.sp - BitVec.ofNat 16 i).toNat) 1 < 32768 ∧ CoreAt s (c.val) k 152 1 2) ∧
    (∃ (c : Fin 65) (s : State) (k : Core), (fun (i : ℕ) => (k.r.sp - BitVec.ofNat 16 i).toNat) 0 < 32768 ∧ CoreAt s (c.val) k 153 1 2) ∧
    (∃ (c : Fin 65) (s : State) (k : Core), (fun (i : ℕ) => (k.r.sp - BitVec.ofNat 16 i).toNat) 1 < 32768 ∧ CoreAt s (c.val) k 154 1 2) ∧
    (∃ (c : Fin 65) (s : State) (k : Core), (fun (i : ℕ) => (k.r.sp - BitVec.ofNat 16 i).toNat) 0 < 32768 ∧ CoreAt s (c.val) k 155 1 2) ∧
    (∃ (c : Fin 65) (s : State) (k : Core), (fun (i : ℕ) => (k.r.sp - BitVec.ofNat 16 i).toNat) 1 < 32768 ∧ (fun (i : ℕ) => (k.r.sp - BitVec.ofNat 16 i).toNat) 2 < 32768 ∧ CoreAt s (c.val) k 156 1 3) ∧
    (∃ (c : Fin 65) (s : State) (k : Core), (fun (i : ℕ) => (k.r.sp - BitVec.ofNat 16 i).toNat) 0 < 32768 ∧ (k.r.sp + 1).toNat < 32768 ∧ CoreAt s (c.val) k 157 1 3) ∧
    (∃ (c : Fin 65) (s : State) (k : Core), (fun (i : ℕ) => (k.r.sp - BitVec.ofNat 16 i).toNat) 1 < 32768 ∧ (fun (i : ℕ) => (k.r.sp - BitVec.ofNat 16 i).toNat) 2 < 32768 ∧ CoreAt s (c.val) k 158 1 3) ∧
    (∃ (c : Fin 65) (s : State) (k : Core), (fun (i : ℕ) => (k.r.sp - BitVec.ofNat 16 i).toNat) 0 < 32768 ∧ (k.r.sp + 1).toNat < 32768 ∧ CoreAt s (c.val) k 159 1 3) ∧
    (∃ (c : Fin 65) (s : State) (k : Core), (fun (i : ℕ) => (k.r.sp - BitVec.ofNat 16 i).toNat) 1 < 32768 ∧ (fun (i : ℕ) => (k.r.sp - BitVec.ofNat 16 i).toNat) 2 < 32768 ∧ k.opW.toNat < 32768 ∧ CoreAt s (c.val) k 178 3 4) ∧
    (∃ (c : Fin 65) (s : State) (k : Core), (fun (i : ℕ) => (k.r.sp - BitVec.ofNat 16 i).toNat) 1 < 32768 ∧ (fun (i : ℕ) => (k.r.sp - BitVec.ofNat 16 i).toNat) 2 < 32768 ∧ k.r.p.toNat < 32768 ∧ CoreAt s (c.val) k 179 1 4) ∧
    (∃ (c : Fin 65) (s : State) (k : Core), (fun (i : ℕ) => (k.r.sp - BitVec.ofNat 16 i).toNat) 0 < 32768 ∧ (k.r.sp + 1).toNat < 32768 ∧ (k.r.sp + 2).toNat < 32768 ∧ BitVec.toNat ((fun (i : ℕ) => k.priv (k.r.sp + BitVec.ofNat 16 i).toNat) 2) < 128 ∧ k.entries = [] ∧ CoreAt s (c.val) k 4 1 4) ∧
    (∃ (c : Fin 65) (s : State) (k : Core), (fun (i : ℕ) => (k.r.sp - BitVec.ofNat 16 i).toNat) 0 < 32768 ∧ (k.r.sp + 1).toNat < 32768 ∧ BitVec.toNat ((fun (i : ℕ) => k.priv (k.r.sp + BitVec.ofNat 16 i).toNat) 1) < 128 ∧ CoreAt s (c.val) k 3 1 3) :=
  ⟨⟨5, c266, kk c266, by decide +kernel⟩,
    ⟨5, c267, kk c267, by decide +kernel⟩,
    ⟨5, c268, kk c268, by decide +kernel⟩,
    ⟨5, c269, kk c269, by decide +kernel⟩,
    ⟨5, c270, kk c270, by decide +kernel⟩,
    ⟨5, c271, kk c271, by decide +kernel⟩,
    ⟨5, c272, kk c272, by decide +kernel⟩,
    ⟨5, c273, kk c273, by decide +kernel⟩,
    ⟨5, c274, kk c274, by decide +kernel⟩,
    ⟨5, c275, kk c275, by decide +kernel⟩,
    ⟨5, c276, kk c276, by decide +kernel⟩,
    ⟨5, c277, kk c277, by decide +kernel⟩,
    ⟨5, c278, kk c278, by decide +kernel⟩,
    ⟨5, c279, kk c279, by decide +kernel⟩,
    ⟨5, c281, kk c281, by decide +kernel⟩,
    ⟨5, c282, kk c282, by decide +kernel⟩⟩

theorem witness_CoreControlInstructions :
    (∃ (c : Fin 65) (s : State) (k : Core), CoreAt s (c.val) k 1 1 1) ∧
    (∃ (c : Fin 65) (s : State) (k : Core), k.op1 ≠ 0#8 ∧ BitVec.toNat k.op1 < 64 ∧ CoreAt s (c.val) k 5 2 1) ∧
    (∃ (c : Fin 65) (s : State) (k : Core), k.op1 ≠ 0#8 ∧ BitVec.toNat k.op1 < 64 ∧ CoreAt s (c.val) k 6 2 1) ∧
    (∃ (c : Fin 65) (s : State) (k : Core), (true = true → (k.r.pc + 2 + BitVec.signExtend 16 k.op1).toNat < 32768) ∧ CoreAt s (c.val) k (160 + 0) 2 2) ∧
    (∃ (c : Fin 65) (s : State) (k : Core), (getFl k.r.fl flZ = true → (k.r.pc + 2 + BitVec.signExtend 16 k.op1).toNat < 32768) ∧ CoreAt s (c.val) k (160 + 1) 2 2) ∧
    (∃ (c : Fin 65) (s : State) (k : Core), ((!getFl k.r.fl flZ) = true → (k.r.pc + 2 + BitVec.signExtend 16 k.op1).toNat < 32768) ∧ CoreAt s (c.val) k (160 + 2) 2 2) ∧
    (∃ (c : Fin 65) (s : State) (k : Core), (getFl k.r.fl flC = true → (k.r.pc + 2 + BitVec.signExtend 16 k.op1).toNat < 32768) ∧ CoreAt s (c.val) k (160 + 3) 2 2) ∧
    (∃ (c : Fin 65) (s : State) (k : Core), ((!getFl k.r.fl flC) = true → (k.r.pc + 2 + BitVec.signExtend 16 k.op1).toNat < 32768) ∧ CoreAt s (c.val) k (160 + 4) 2 2) ∧
    (∃ (c : Fin 65) (s : State) (k : Core), (getFl k.r.fl flN = true → (k.r.pc + 2 + BitVec.signExtend 16 k.op1).toNat < 32768) ∧ CoreAt s (c.val) k (160 + 5) 2 2) ∧
    (∃ (c : Fin 65) (s : State) (k : Core), ((!getFl k.r.fl flN) = true → (k.r.pc + 2 + BitVec.signExtend 16 k.op1).toNat < 32768) ∧ CoreAt s (c.val) k (160 + 6) 2 2) ∧
    (∃ (c : Fin 65) (s : State) (k : Core), (getFl k.r.fl flV = true → (k.r.pc + 2 + BitVec.signExtend 16 k.op1).toNat < 32768) ∧ CoreAt s (c.val) k (160 + 7) 2 2) ∧
    (∃ (c : Fin 65) (s : State) (k : Core), ((!getFl k.r.fl flV) = true → (k.r.pc + 2 + BitVec.signExtend 16 k.op1).toNat < 32768) ∧ CoreAt s (c.val) k (160 + 8) 2 2) ∧
    (∃ (c : Fin 65) (s : State) (k : Core), ((!getFl k.r.fl flZ && getFl k.r.fl flN == getFl k.r.fl flV) = true → (k.r.pc + 2 + BitVec.signExtend 16 k.op1).toNat < 32768) ∧ CoreAt s (c.val) k (160 + 9) 2 2) ∧
    (∃ (c : Fin 65) (s : State) (k : Core), ((getFl k.r.fl flN == getFl k.r.fl flV) = true → (k.r.pc + 2 + BitVec.signExtend 16 k.op1).toNat < 32768) ∧ CoreAt s (c.val) k (160 + 10) 2 2) ∧
    (∃ (c : Fin 65) (s : State) (k : Core), ((getFl k.r.fl flN != getFl k.r.fl flV) = true → (k.r.pc + 2 + BitVec.signExtend 16 k.op1).toNat < 32768) ∧ CoreAt s (c.val) k (160 + 11) 2 2) ∧
    (∃ (c : Fin 65) (s : State) (k : Core), ((getFl k.r.fl flZ || getFl k.r.fl flN != getFl k.r.fl flV) = true → (k.r.pc + 2 + BitVec.signExtend 16 k.op1).toNat < 32768) ∧ CoreAt s (c.val) k (160 + 12) 2 2) ∧
    (∃ (c : Fin 65) (s : State) (k : Core), ((getFl k.r.fl flC && !getFl k.r.fl flZ) = true → (k.r.pc + 2 + BitVec.signExtend 16 k.op1).toNat < 32768) ∧ CoreAt s (c.val) k (160 + 13) 2 2) ∧
    (∃ (c : Fin 65) (s : State) (k : Core), ((!getFl k.r.fl flC || getFl k.r.fl flZ) = true → (k.r.pc + 2 + BitVec.signExtend 16 k.op1).toNat < 32768) ∧ CoreAt s (c.val) k (160 + 14) 2 2) ∧
    (∃ (c : Fin 65) (s : State) (k : Core), k.opW.toNat < 32768 ∧ CoreAt s (c.val) k 176 3 2) ∧
    (∃ (c : Fin 65) (s : State) (k : Core), k.r.p.toNat < 32768 ∧ CoreAt s (c.val) k 177 1 2) ∧
    (∃ (c : Fin 65) (s : State) (k : Core), (k.r.cnt ≠ 1#16 → (k.r.pc + 2 + BitVec.signExtend 16 k.op1).toNat < 32768) ∧ CoreAt s (c.val) k 146 2 2) :=
  ⟨⟨5, c284, kk c284, by decide +kernel⟩,
    ⟨5, c290, kk c290, by decide +kernel⟩,
    ⟨5, c296, kk c296, by decide +kernel⟩,
    ⟨5, c302, kk c302, by decide +kernel⟩,
    ⟨5, c308, kk c308, by decide +kernel⟩,
    ⟨5, c314, kk c314, by decide +kernel⟩,
    ⟨5, c320, kk c320, by decide +kernel⟩,
    ⟨5, c326, kk c326, by decide +kernel⟩,
    ⟨5, c332, kk c332, by decide +kernel⟩,
    ⟨5, c338, kk c338, by decide +kernel⟩,
    ⟨5, c344, kk c344, by decide +kernel⟩,
    ⟨5, c350, kk c350, by decide +kernel⟩,
    ⟨5, c356, kk c356, by decide +kernel⟩,
    ⟨5, c362, kk c362, by decide +kernel⟩,
    ⟨5, c368, kk c368, by decide +kernel⟩,
    ⟨5, c374, kk c374, by decide +kernel⟩,
    ⟨5, c380, kk c380, by decide +kernel⟩,
    ⟨5, c386, kk c386, by decide +kernel⟩,
    ⟨5, c392, kk c392, by decide +kernel⟩,
    ⟨5, c398, kk c398, by decide +kernel⟩,
    ⟨5, c404, kk c404, by decide +kernel⟩⟩

theorem witness_CoreBlockInstructions :
    (∃ (c : Fin 65) (s : State) (k : Core) (m : Byte) (b : State) (k1 : Core) (x : ℕ) (took : Bool), readsOf s c k [k.r.p.toNat] = some ([m], b, k1, x, took) ∧ CoreAt s (c.val) k 192 1 (3 + x + storeSteps (if false = true then some m else none) k.r.q.toNat) ∧ Storable s (c.val) k [(k.r.q.toNat, m)]) ∧
    (∃ (c : Fin 65) (s : State) (k : Core), CoreAt s (c.val) k 193 1 (2 + storeSteps (if true = true then some k.r.a else none) k.r.q.toNat) ∧ Storable s (c.val) k [(k.r.q.toNat, k.r.a)]) ∧
    (∃ (c : Fin 65) (s : State) (k : Core) (m : Byte) (b : State) (k1 : Core) (x : ℕ) (took : Bool), readsOf s c k [k.r.p.toNat] = some ([m], b, k1, x, took) ∧ CoreAt s (c.val) k 194 1 (2 + x)) ∧
    (∃ (c : Fin 65) (s : State) (k : Core) (m : Byte) (o : Byte) (b : State) (k1 : Core) (x : ℕ) (took : Bool), readsOf s c k [k.r.p.toNat, k.r.q.toNat] = some ([m, o], b, k1, x, took) ∧ CoreAt s (c.val) k 195 1 (3 + x)) ∧
    (∃ (c : Fin 65) (s : State) (k : Core) (m : Byte) (b : State) (k1 : Core) (x : ℕ) (took : Bool), readsOf s c k [k.r.p.toNat] = some ([m], b, k1, x, took) ∧ CoreAt s (c.val) k 196 1 (2 + x)) ∧
    (∃ (c : Fin 65) (s : State) (k : Core) (m : Byte) (o : Byte) (b : State) (k1 : Core) (x : ℕ) (took : Bool), readsOf s c k [k.r.q.toNat, k.r.p.toNat] = some ([o, m], b, k1, x, took) ∧ CoreAt s (c.val) k 197 1 (4 + x + storeSteps (if false = true then some (o + m + BitVec.ofNat 8 (b2n (getFl k.r.fl flC))) else none) k.r.q.toNat) ∧ Storable s (c.val) k [(k.r.q.toNat, o + m + BitVec.ofNat 8 (b2n (getFl k.r.fl flC)))]) ∧
    (∃ (c : Fin 65) (s : State) (k : Core) (m : Byte) (o : Byte) (b : State) (k1 : Core) (x : ℕ) (took : Bool), readsOf s c k [k.r.q.toNat, k.r.p.toNat] = some ([o, m], b, k1, x, took) ∧ CoreAt s (c.val) k 198 1 (4 + x + storeSteps (if false = true then some (o - m - BitVec.ofNat 8 (b2n !getFl k.r.fl flC)) else none) k.r.q.toNat) ∧ Storable s (c.val) k [(k.r.q.toNat, o - m - BitVec.ofNat 8 (b2n !getFl k.r.fl flC))]) :=
  ⟨⟨5, c412, kk c412, (rds c412 [(kk c412).r.p.toNat]).1.getD 0 0, (rds c412 [(kk c412).r.p.toNat]).2.1, (rds c412 [(kk c412).r.p.toNat]).2.2.1, (rds c412 [(kk c412).r.p.toNat]).2.2.2.1, (rds c412 [(kk c412).r.p.toNat]).2.2.2.2, by decide +kernel⟩,
    ⟨5, c462, kk c462, by decide +kernel⟩,
    ⟨5, c512, kk c512, (rds c512 [(kk c512).r.p.toNat]).1.getD 0 0, (rds c512 [(kk c512).r.p.toNat]).2.1, (rds c512 [(kk c512).r.p.toNat]).2.2.1, (rds c512 [(kk c512).r.p.toNat]).2.2.2.1, (rds c512 [(kk c512).r.p.toNat]).2.2.2.2, by decide +kernel⟩,
    ⟨5, c562, kk c562, (rds c562 [(kk c562).r.p.toNat, (kk c562).r.q.toNat]).1.getD 0 0, (rds c562 [(kk c562).r.p.toNat, (kk c562).r.q.toNat]).1.getD 1 0, (rds c562 [(kk c562).r.p.toNat, (kk c562).r.q.toNat]).2.1, (rds c562 [(kk c562).r.p.toNat, (kk c562).r.q.toNat]).2.2.1, (rds c562 [(kk c562).r.p.toNat, (kk c562).r.q.toNat]).2.2.2.1, (rds c562 [(kk c562).r.p.toNat, (kk c562).r.q.toNat]).2.2.2.2, by decide +kernel⟩,
    ⟨5, c612, kk c612, (rds c612 [(kk c612).r.p.toNat]).1.getD 0 0, (rds c612 [(kk c612).r.p.toNat]).2.1, (rds c612 [(kk c612).r.p.toNat]).2.2.1, (rds c612 [(kk c612).r.p.toNat]).2.2.2.1, (rds c612 [(kk c612).r.p.toNat]).2.2.2.2, by decide +kernel⟩,
    ⟨5, c662, kk c662, (rds c662 [(kk c662).r.q.toNat, (kk c662).r.p.toNat]).1.getD 1 0, (rds c662 [(kk c662).r.q.toNat, (kk c662).r.p.toNat]).1.getD 0 0, (rds c662 [(kk c662).r.q.toNat, (kk c662).r.p.toNat]).2.1, (rds c662 [(kk c662).r.q.toNat, (kk c662).r.p.toNat]).2.2.1, (rds c662 [(kk c662).r.q.toNat, (kk c662).r.p.toNat]).2.2.2.1, (rds c662 [(kk c662).r.q.toNat, (kk c662).r.p.toNat]).2.2.2.2, by decide +kernel⟩,
    ⟨5, c712, kk c712, (rds c712 [(kk c712).r.q.toNat, (kk c712).r.p.toNat]).1.getD 1 0, (rds c712 [(kk c712).r.q.toNat, (kk c712).r.p.toNat]).1.getD 0 0, (rds c712 [(kk c712).r.q.toNat, (kk c712).r.p.toNat]).2.1, (rds c712 [(kk c712).r.q.toNat, (kk c712).r.p.toNat]).2.2.1, (rds c712 [(kk c712).r.q.toNat, (kk c712).r.p.toNat]).2.2.2.1, (rds c712 [(kk c712).r.q.toNat, (kk c712).r.p.toNat]).2.2.2.2, by decide +kernel⟩⟩

end CoreInstructions

namespace Traps

def D : List Byte := [0x80, 0xFF, 0x7F, 1, 0x85, 6, 7, 0x10]
def trapMem (b : List Byte) (r : CoreRegs) : State := let s := core5 b D r; { s with tb := 2 ^ 60, cores := upd s.cores 5 (fun k => { k with steps := 3, trapSteps := 2, mem := k.mem ++ (List.range 12).map (fun i => (0xFF00 + i, BitVec.ofNat 8 (i + 1))) }) }
def t1 := trapMem [0x07] regs5
def t2 := (trapMem [0x05, 0x40] regs5).put (F.SRT_STAT_TDEPTH 5) 1
def t3 := trapMem [0x06, 0x00] regs5
def t4 := trapMem [0xCF, 0x01] regs5
def t5 := trapMem [0xCF, 0x07] regs5
def t6 := trapMem [0xCF, 0x91] regs5
def t7 := let s := trapMem [0x01, 0x91] regs5; { s with cores := upd s.cores 5 (fun k => { k with steps := 50 }) }
def t8 := trapMem [0xB0, 0, 0x80] regs5
def t9 := let s := trapMem [0xB0, 0, 0x80] { regs5 with pc := 0x7FFF } ; { s with cores := upd s.cores 5 (fun k => k.setPriv 0x7FFF 0x50) }
def t10 := let s := trapMem [0x01] regs5; { s with cores := upd s.cores 5 (fun k => { k with memBad := [0x100] }) }
def tq : CoreRegs := { regs5 with sp := 0x8000 }
def reg3 (s : State) : State := s.put (F.ARB_MASK_BANKS 5) 0x00FFFFFF

theorem witness_CoreTrapsAreTaken :
    (∃ (c : Fin 65) (s : State) (k : Core) (d : ℕ), s.core c.val = some k ∧ coreRuns s (c.val) k = true ∧ k.series = Series.idle ∧ k.spec = none ∧ k.r.pc.toNat < 32768 ∧ (c.val = 0 → pmHandling s = false) ∧ s.get (F.SRT_STAT_TDEPTH c.val) = d ∧ d < 2 ∧ k.entries.length < 4 ∧ s.flt.dayQ.length < 32 ∧ (k.r.sp - 1).toNat < 32768 ∧ (k.r.sp - 2).toNat < 32768 ∧ (k.r.sp - 3).toNat < 32768 ∧ k.memBad = [] ∧ opUndefined (BitVec.toNat (k.priv k.r.pc.toNat)) = true) ∧
    (∃ (c : Fin 65) (s : State) (k : Core) (d : ℕ), s.core c.val = some k ∧ coreRuns s (c.val) k = true ∧ k.series = Series.idle ∧ k.spec = none ∧ k.r.pc.toNat < 32768 ∧ (c.val = 0 → pmHandling s = false) ∧ s.get (F.SRT_STAT_TDEPTH c.val) = d ∧ d < 2 ∧ k.entries.length < 4 ∧ s.flt.dayQ.length < 32 ∧ (k.r.sp - 1).toNat < 32768 ∧ (k.r.sp - 2).toNat < 32768 ∧ (k.r.sp - 3).toNat < 32768 ∧ k.memBad = [] ∧ BitVec.toNat (k.priv k.r.pc.toNat) = 5 ∧ k.r.pc.toNat < 32767 ∧ (BitVec.toNat (k.priv (k.r.pc.toNat + 1)) = 0 ∨ 64 ≤ BitVec.toNat (k.priv (k.r.pc.toNat + 1)))) ∧
    (∃ (c : Fin 65) (s : State) (k : Core) (d : ℕ), s.core c.val = some k ∧ coreRuns s (c.val) k = true ∧ k.series = Series.idle ∧ k.spec = none ∧ k.r.pc.toNat < 32768 ∧ (c.val = 0 → pmHandling s = false) ∧ s.get (F.SRT_STAT_TDEPTH c.val) = d ∧ d < 2 ∧ k.entries.length < 4 ∧ s.flt.dayQ.length < 32 ∧ (k.r.sp - 1).toNat < 32768 ∧ (k.r.sp - 2).toNat < 32768 ∧ (k.r.sp - 3).toNat < 32768 ∧ k.memBad = [] ∧ BitVec.toNat (k.priv k.r.pc.toNat) = 6 ∧ k.r.pc.toNat < 32767 ∧ (BitVec.toNat (k.priv (k.r.pc.toNat + 1)) = 0 ∨ 64 ≤ BitVec.toNat (k.priv (k.r.pc.toNat + 1)))) ∧
    (∃ (c : Fin 65) (s : State) (k : Core) (d : ℕ), s.core c.val = some k ∧ coreRuns s (c.val) k = true ∧ k.series = Series.idle ∧ k.spec = none ∧ k.r.pc.toNat < 32768 ∧ (c.val = 0 → pmHandling s = false) ∧ s.get (F.SRT_STAT_TDEPTH c.val) = d ∧ d < 2 ∧ k.entries.length < 4 ∧ s.flt.dayQ.length < 32 ∧ (k.r.sp - 1).toNat < 32768 ∧ (k.r.sp - 2).toNat < 32768 ∧ (k.r.sp - 3).toNat < 32768 ∧ k.memBad = [] ∧ BitVec.toNat (k.priv k.r.pc.toNat) = 207 ∧ k.r.pc.toNat < 32767 ∧ opUndefined (BitVec.toNat (k.priv (k.r.pc.toNat + 1))) = false ∧ (BitVec.toNat (k.priv (k.r.pc.toNat + 1)) < 144 ∨ 147 ≤ BitVec.toNat (k.priv (k.r.pc.toNat + 1)) ∧ BitVec.toNat (k.priv (k.r.pc.toNat + 1)) < 192 ∨ 198 < BitVec.toNat (k.priv (k.r.pc.toNat + 1)))) ∧
    (∃ (c : Fin 65) (s : State) (k : Core) (d : ℕ), s.core c.val = some k ∧ coreRuns s (c.val) k = true ∧ k.series = Series.idle ∧ k.spec = none ∧ k.r.pc.toNat < 32768 ∧ (c.val = 0 → pmHandling s = false) ∧ s.get (F.SRT_STAT_TDEPTH c.val) = d ∧ d < 2 ∧ k.entries.length < 4 ∧ s.flt.dayQ.length < 32 ∧ (k.r.sp - 1).toNat < 32768 ∧ (k.r.sp - 2).toNat < 32768 ∧ (k.r.sp - 3).toNat < 32768 ∧ k.memBad = [] ∧ BitVec.toNat (k.priv k.r.pc.toNat) = 207 ∧ k.r.pc.toNat < 32767 ∧ opUndefined (BitVec.toNat (k.priv (k.r.pc.toNat + 1))) = true) ∧
    (∃ (c : Fin 65) (s : State) (k : Core) (d : ℕ), s.core c.val = some k ∧ coreRuns s (c.val) k = true ∧ k.series = Series.idle ∧ k.spec = none ∧ k.r.pc.toNat < 32768 ∧ (c.val = 0 → pmHandling s = false) ∧ s.get (F.SRT_STAT_TDEPTH c.val) = d ∧ d < 2 ∧ k.entries.length < 4 ∧ s.flt.dayQ.length < 32 ∧ (k.r.sp - 1).toNat < 32768 ∧ (k.r.sp - 2).toNat < 32768 ∧ (k.r.sp - 3).toNat < 32768 ∧ k.memBad = [] ∧ BitVec.toNat (k.priv k.r.pc.toNat) = 207 ∧ k.r.pc.toNat < 32767 ∧ 144 ≤ BitVec.toNat (k.priv (k.r.pc.toNat + 1)) ∧ BitVec.toNat (k.priv (k.r.pc.toNat + 1)) ≤ 146) ∧
    (∃ (c : Fin 65) (s : State) (k : Core) (d : ℕ), s.core c.val = some k ∧ coreRuns s (c.val) k = true ∧ k.series = Series.idle ∧ k.spec = none ∧ k.r.pc.toNat < 32768 ∧ (c.val = 0 → pmHandling s = false) ∧ s.get (F.SRT_STAT_TDEPTH c.val) = d ∧ d < 2 ∧ k.entries.length < 4 ∧ s.flt.dayQ.length < 32 ∧ (k.r.sp - 1).toNat < 32768 ∧ (k.r.sp - 2).toNat < 32768 ∧ (k.r.sp - 3).toNat < 32768 ∧ k.memBad = [] ∧ BitVec.toNat (k.priv k.r.pc.toNat) = 1 ∧ k.r.pc.toNat < 32767 ∧ ↑(s.get (F.SRT_BUDGET_BUDGET c.val)) < k.steps + 1) ∧
    (∃ (c : Fin 65) (s : State) (k : Core) (d : ℕ), s.core c.val = some k ∧ coreRuns s (c.val) k = true ∧ k.series = Series.idle ∧ k.spec = none ∧ k.r.pc.toNat < 32768 ∧ (c.val = 0 → pmHandling s = false) ∧ s.get (F.SRT_STAT_TDEPTH c.val) = d ∧ d < 2 ∧ k.entries.length < 4 ∧ s.flt.dayQ.length < 32 ∧ (k.r.sp - 1).toNat < 32768 ∧ (k.r.sp - 2).toNat < 32768 ∧ (k.r.sp - 3).toNat < 32768 ∧ k.memBad = [] ∧ BitVec.toNat (k.priv k.r.pc.toNat) = 176 ∧ k.r.pc.toNat + 2 < 32768 ∧ 128 ≤ BitVec.toNat (k.priv (k.r.pc.toNat + 2))) ∧
    (∃ (c : Fin 65) (s : State) (k : Core) (d : ℕ), s.core c.val = some k ∧ coreRuns s (c.val) k = true ∧ k.series = Series.idle ∧ k.spec = none ∧ k.r.pc.toNat < 32768 ∧ (c.val = 0 → pmHandling s = false) ∧ s.get (F.SRT_STAT_TDEPTH c.val) = d ∧ d < 2 ∧ k.entries.length < 4 ∧ s.flt.dayQ.length < 32 ∧ (k.r.sp - 1).toNat < 32768 ∧ (k.r.sp - 2).toNat < 32768 ∧ (k.r.sp - 3).toNat < 32768 ∧ k.memBad = [] ∧ BitVec.toNat (k.priv k.r.pc.toNat) = 80 ∧ k.r.pc.toNat = 32767) ∧
    (∃ (c : Fin 65) (s : State) (k : Core) (d : ℕ), s.core c.val = some k ∧ coreRuns s (c.val) k = true ∧ k.series = Series.idle ∧ k.spec = none ∧ k.r.pc.toNat < 32768 ∧ (c.val = 0 → pmHandling s = false) ∧ s.get (F.SRT_STAT_TDEPTH c.val) = d ∧ d < 2 ∧ k.entries.length < 4 ∧ s.flt.dayQ.length < 32 ∧ (k.r.sp - 1).toNat < 32768 ∧ (k.r.sp - 2).toNat < 32768 ∧ (k.r.sp - 3).toNat < 32768 ∧ k.r.pc.toNat / 4 * 4 ∈ k.memBad ∧ BitVec.toNat (k.priv k.r.pc.toNat) = 1) ∧
    (∃ (c : Fin 65) (s : State) (k : Core) (p : Core), 0 < c.val ∧ CoreAt s (c.val) k 148 1 2 ∧ 32768 ≤ (k.r.sp - 1).toNat ∧ Listens s p ∧ s.flt.dayQ.length < 32 ∧ (∀ e ∈ s.flt.stormAt, e.1 ≠ c.val) ∧ c.val ∉ s.flt.resets) ∧
    (∃ (c : Fin 65) (s : State) (k : Core) (d : ℕ), s.core c.val = some k ∧ coreRuns s (c.val) k = true ∧ k.series = Series.idle ∧ k.spec = none ∧ k.r.pc.toNat < 32768 ∧ (c.val = 0 → pmHandling s = false) ∧ s.get (F.SRT_STAT_TDEPTH c.val) = d ∧ d < 2 ∧ k.entries.length < 4 ∧ s.flt.dayQ.length < 32 ∧ (k.r.sp - 1).toNat < 32768 ∧ (k.r.sp - 2).toNat < 32768 ∧ (k.r.sp - 3).toNat < 32768 ∧ k.memBad = [] ∧ k.r.pc.toNat + 2 < 32768 ∧ 32768 ≤ k.r.sp.toNat ∧ BitVec.toNat (k.priv k.r.pc.toNat) ∈ [149, 151, 153, 155, 157, 159]) ∧
    (∃ (c : Fin 65) (s : State) (k : Core) (d : ℕ), s.core c.val = some k ∧ coreRuns s (c.val) k = true ∧ k.series = Series.idle ∧ k.spec = none ∧ k.r.pc.toNat < 32768 ∧ (c.val = 0 → pmHandling s = false) ∧ s.get (F.SRT_STAT_TDEPTH c.val) = d ∧ d < 2 ∧ k.entries.length < 4 ∧ s.flt.dayQ.length < 32 ∧ (k.r.sp - 1).toNat < 32768 ∧ (k.r.sp - 2).toNat < 32768 ∧ (k.r.sp - 3).toNat < 32768 ∧ k.memBad = [] ∧ k.r.pc.toNat + 2 < 32768 ∧ 32768 ≤ k.r.sp.toNat ∧ BitVec.toNat (k.priv k.r.pc.toNat) = 3) ∧
    (∃ (c : Fin 65) (s : State) (k : Core) (d : ℕ), s.core c.val = some k ∧ coreRuns s (c.val) k = true ∧ k.series = Series.idle ∧ k.spec = none ∧ k.r.pc.toNat < 32768 ∧ (c.val = 0 → pmHandling s = false) ∧ s.get (F.SRT_STAT_TDEPTH c.val) = d ∧ d < 2 ∧ k.entries.length < 4 ∧ s.flt.dayQ.length < 32 ∧ (k.r.sp - 1).toNat < 32768 ∧ (k.r.sp - 2).toNat < 32768 ∧ (k.r.sp - 3).toNat < 32768 ∧ k.memBad = [] ∧ k.r.pc.toNat + 2 < 32768 ∧ 32768 ≤ k.r.sp.toNat ∧ BitVec.toNat (k.priv k.r.pc.toNat) = 4) ∧
    (∃ (c : Fin 65) (s : State) (k : Core) (d : ℕ), s.core c.val = some k ∧ coreRuns s (c.val) k = true ∧ k.series = Series.idle ∧ k.spec = none ∧ k.r.pc.toNat < 32768 ∧ (c.val = 0 → pmHandling s = false) ∧ s.get (F.SRT_STAT_TDEPTH c.val) = d ∧ d < 2 ∧ k.entries.length < 4 ∧ s.flt.dayQ.length < 32 ∧ (k.r.sp - 1).toNat < 32768 ∧ (k.r.sp - 2).toNat < 32768 ∧ (k.r.sp - 3).toNat < 32768 ∧ k.memBad = [] ∧ BitVec.toNat (k.priv k.r.pc.toNat) = 81 ∧ k.r.pc.toNat + 3 < 32768 ∧ accessBad s (c.val) k false k.opW.toNat = true) ∧
    (∃ (c : Fin 65) (s : State) (k : Core) (d : ℕ), s.core c.val = some k ∧ coreRuns s (c.val) k = true ∧ k.series = Series.idle ∧ k.spec = none ∧ k.r.pc.toNat < 32768 ∧ (c.val = 0 → pmHandling s = false) ∧ s.get (F.SRT_STAT_TDEPTH c.val) = d ∧ d < 2 ∧ k.entries.length < 4 ∧ s.flt.dayQ.length < 32 ∧ (k.r.sp - 1).toNat < 32768 ∧ (k.r.sp - 2).toNat < 32768 ∧ (k.r.sp - 3).toNat < 32768 ∧ k.memBad = [] ∧ BitVec.toNat (k.priv k.r.pc.toNat) = 89 ∧ k.r.pc.toNat + 3 < 32768 ∧ accessBad s (c.val) k true k.opW.toNat = true) ∧
    (∃ (c : Fin 65) (s : State) (k : Core) (d : ℕ), s.core c.val = some k ∧ coreRuns s (c.val) k = true ∧ k.series = Series.idle ∧ k.spec = none ∧ k.r.pc.toNat < 32768 ∧ (c.val = 0 → pmHandling s = false) ∧ s.get (F.SRT_STAT_TDEPTH c.val) = d ∧ d < 2 ∧ k.entries.length < 4 ∧ s.flt.dayQ.length < 32 ∧ (k.r.sp - 1).toNat < 32768 ∧ (k.r.sp - 2).toNat < 32768 ∧ (k.r.sp - 3).toNat < 32768 ∧ k.memBad = [] ∧ BitVec.toNat (k.priv k.r.pc.toNat) = 89 ∧ k.r.pc.toNat + 3 < 32768 ∧ k.opW = 49166#16 ∧ BitVec.toNat k.r.a < 4 ∧ windowFits s (c.val) (BitVec.toNat k.r.a * 2 ^ 30 + BitVec.toNat k.stage1 * 2 ^ 22 + BitVec.toNat k.stage0 * 2 ^ 14) = false) :=
  ⟨⟨5, t1, the idleCore (t1.core 5), 0, by decide +kernel⟩,
    ⟨5, t2, the idleCore (t2.core 5), 1, by decide +kernel⟩,
    ⟨5, t3, the idleCore (t3.core 5), 0, by decide +kernel⟩,
    ⟨5, t4, the idleCore (t4.core 5), 0, by decide +kernel⟩,
    ⟨5, t5, the idleCore (t5.core 5), 0, by decide +kernel⟩,
    ⟨5, t6, the idleCore (t6.core 5), 0, by decide +kernel⟩,
    ⟨5, t7, the idleCore (t7.core 5), 0, by decide +kernel⟩,
    ⟨5, t8, the idleCore (t8.core 5), 0, by decide +kernel⟩,
    ⟨5, t9, the idleCore (t9.core 5), 0, by decide +kernel⟩,
    ⟨5, t10, the idleCore (t10.core 5), 0, by decide +kernel⟩,
    ⟨5, trapMem [0x94] { regs5 with sp := 0x9000 }, the idleCore ((trapMem [0x94] { regs5 with sp := 0x9000 }).core 5), (up.core 0).getD idleCore, by decide +kernel⟩,
    ⟨5, trapMem [0x95] tq, the idleCore ((trapMem [0x95] tq).core 5), 0, by decide +kernel⟩,
    ⟨5, trapMem [0x03] tq, the idleCore ((trapMem [0x03] tq).core 5), 0, by decide +kernel⟩,
    ⟨5, trapMem [0x04] tq, the idleCore ((trapMem [0x04] tq).core 5), 0, by decide +kernel⟩,
    ⟨5, trapMem [0x51, 0, 0x80] regs5, the idleCore ((trapMem [0x51, 0, 0x80] regs5).core 5), 0, by decide +kernel⟩,
    ⟨5, reg3 (trapMem [0x59, 0x00, 0x80] regs5), the idleCore ((reg3 (trapMem [0x59, 0x00, 0x80] regs5)).core 5), 0, by decide +kernel⟩,
    ⟨5, trapMem [0x59, 0x0E, 0xC0] { regs5 with a := 3 }, the idleCore ((trapMem [0x59, 0x0E, 0xC0] { regs5 with a := 3 }).core 5), 0, by decide +kernel⟩⟩

end Traps

namespace CoreEvents

def D : List Byte := [0x80, 0xFF, 0x7F, 1, 0x85, 6, 7, 0x10]
def mod5 (f : Core → Core) (s : State) : State := { s with cores := upd s.cores 5 f }
def rec1 : List Byte := mkRecord 7 0 3 0x30 0 4 1 9 0
def fl20 : CoreRegs := { regs5 with fl := 0x25 }
def evt : State := mod5 (fun k => { k with queue := [rec1], entries := [.trap 0] }) (core5 [0x01] D fl20)
def wait5 : State := core5 [0x02] D regs5
def waiting5 (s : State) : State := s.put (F.SRT_STAT_STATE 5) stWaiting
def full5 : State := mod5 (fun k => { k with queue := List.replicate 10 rec1, taken := List.replicate 6 rec1 }) wait5
def rti5 (e : List Entry) (d : Nat) : State := (mod5 (fun k => { k with entries := e }) (core5 [0x04] D { regs5 with sp := 0x7001 })).put (F.SRT_STAT_TDEPTH 5) d
def chn (s : State) : State := { (s.mark (F.FC_CTRL_RUN 2)).mark (F.SRT_CTRL_SPEC 5) with chains := upd s.chains 2 (fun c => { c with run := true, nextQ := 40 }) }
def smp (v : Nat) : List Byte := mkRecord 7 0 3 0x20 0 v 1 0x63 0
def run5a (b : List Byte) (pv : List (Nat × Nat)) : State := chn (mod5 (fun k => { k with queue := [], lastTaken := some (smp 100), prevVals := pv, steps := 3 }) (core5 ([0x51, 2, 0xC0] ++ b) D regs5))
def ahead (b : List Byte) : State := nextOf (exec (.lda 5) (run5a b [(0x63, 90)]))
def spOf (s : State) : Spec := (kk s).spec.getD anySpec
def good (s : State) : List Byte := (spOf s).pred
def rq (b : Byte) (p q : BitVec 16) : State := mod5 (fun k => { k with queue := [rec1], steps := 5, pmLatch := 0x112233 }) (((core5 [0xCF, b] D { regs5 with p := p, q := q, cnt := 3 }).put (F.ARB_MASK_BANKS 5) 0x00FFFFFF).put (F.SRT_BUDGET_BUDGET 5) 9000)
def pre (b : Byte) (s : State) : List Byte × State × Core × Nat × Bool := let k' := { kk s with steps := 6, series := .running b }; (readsOf (prefixed s 5 k') 5 k' [(kk s).r.p.toNat]).getD ([], s, kk s, 0, false)
def rpt (b : Byte) (r : CoreRegs) : State := core5 [0xCF, b] D r
def af (n : Nat) (s : State) : State := match exec (.rpt 5 n) s with | .next t => t | _ => s
def prog : List (Nat × Byte) :=
  let body : List Byte := [0x01, 0x01]
  let h : List Byte := leBytes 2 0x5053 ++ leBytes 2 0x14 ++ leBytes 4 0x40 ++ leBytes 2 3 ++ leBytes 2 22 ++ leBytes 2 0x1000 ++ leBytes 1 1 ++ leBytes 1 0 ++ leBytes 4 (crc32 body)
  let m := h ++ body
  (((List.range m.length).map (fun i => (i, m.getD i 0))) ++ (List.range 12).map (fun i => (0xFF00 + i, if i % 2 = 0 then 0x14 else 0))).filter (fun e => e.2 != 0)
def pr (c : Nat) (s : State) : State := { s with cores := upd s.cores c (fun k => { k with mem := prog }) }
def e5 : State := mod5 (fun k => { k with taken := [rec1], queue := [rec1, rec1] }) (pr 5 up)
def run5 (c x : Nat) (s : State) : State := ((s.setReg (A.SRT_CTRL c) (BitVec.ofNat 32 (4 * x + 1))).put (F.SRT_STAT_STATE c) stRunning)
def sl : List (Nat × List Byte) := sealLines 5 (kk e5)
def comm (l : List (Nat × List Byte)) (s : State) : State := mod5 (fun k => { k with commitHold := true }) { (run5 5 1 s) with ledg := { s.ledg with txns := [⟨5, 9, .committing, l, false, .seal 5, []⟩] } }

theorem witness_CoreEventsAndWaits :
    (∃ (c : Fin 65) (s : State) (k : Core), s.core c.val = some k ∧ k.spec = none ∧ s.get (F.SRT_STAT_STATE c.val) = stRunning ∧ coreReady s (c.val) k = true ∧ eventDue k = true ∧ (k.r.sp - 1).toNat < 32768 ∧ (k.r.sp - 2).toNat < 32768 ∧ (k.r.sp - 3).toNat < 32768) ∧
    (∃ (c : Fin 65) (s : State) (k : Core) (r : List Byte), s.core c.val = some k ∧ k.spec = none ∧ r.length = 32 ∧ s.pwr = 0 ∧ s.flag F.PWR_STAT_ENTERING = false ∧ s.pow.phase = Phase.up ∧ (k.queue.length + k.taken.length < 16 ∧ s.isHeld c.val = false)) ∧
    (∃ (c : Fin 65) (s : State) (k : Core), s.core c.val = some k ∧ k.spec = none ∧ (s.get (F.SRT_STAT_STATE c.val) ≠ stRunning ∨ coreReady s (c.val) k = false ∨ eventDue k = false)) ∧
    (∃ (c : Fin 65) (s : State) (k : Core), s.core c.val = some k ∧ k.spec = none ∧ CoreAt s (c.val) k 2 1 1 ∧ (c.val ≠ 0 ∨ s.get F.PWR_MODE_MODE = 0) ∧ k.queue = []) ∧
    (∃ (c : Fin 65) (s : State) (k : Core) (r : List Byte), s.core c.val = some k ∧ k.spec = none ∧ r.length = 32 ∧ s.pwr = 0 ∧ s.flag F.PWR_STAT_ENTERING = false ∧ s.pow.phase = Phase.up ∧ (16 ≤ k.queue.length + k.taken.length ∨ s.isHeld c.val = true)) ∧
    (∃ (c : Fin 65) (s : State) (k : Core), s.core c.val = some k ∧ k.spec = none ∧ CoreAt s (c.val) k 2 1 1 ∧ (c.val ≠ 0 ∨ s.get F.PWR_MODE_MODE = 0) ∧ k.queue ≠ []) ∧
    (∃ (c : Fin 65) (s : State) (k : Core), s.core c.val = some k ∧ k.spec = none ∧ s.get (F.SRT_STAT_STATE c.val) = stWaiting ∧ coreReady s (c.val) k = true ∧ s.pwr = 0 ∧ s.flag F.PWR_STAT_ENTERING = false ∧ k.queue = []) ∧
    (∃ (c : Fin 65) (s : State) (k : Core), s.core c.val = some k ∧ k.spec = none ∧ s.get (F.SRT_STAT_STATE c.val) = stWaiting ∧ coreReady s (c.val) k = true ∧ s.pwr = 0 ∧ s.flag F.PWR_STAT_ENTERING = false ∧ k.queue ≠ []) ∧
    (∃ (c : Fin 65) (s : State) (k : Core) (rest : List Entry), s.core c.val = some k ∧ k.spec = none ∧ CoreAt s (c.val) k 4 1 4 ∧ (fun (i : ℕ) => (k.r.sp + BitVec.ofNat 16 i).toNat) 0 < 32768 ∧ (fun (i : ℕ) => (k.r.sp + BitVec.ofNat 16 i).toNat) 1 < 32768 ∧ (fun (i : ℕ) => (k.r.sp + BitVec.ofNat 16 i).toNat) 2 < 32768 ∧ BitVec.toNat (k.priv ((fun (i : ℕ) => (k.r.sp + BitVec.ofNat 16 i).toNat) 2)) < 128 ∧ k.entries = Entry.event :: rest) ∧
    (∃ (c : Fin 65) (s : State) (k : Core) (rest : List Entry), s.core c.val = some k ∧ k.spec = none ∧ CoreAt s (c.val) k 4 1 4 ∧ (fun (i : ℕ) => (k.r.sp + BitVec.ofNat 16 i).toNat) 0 < 32768 ∧ (fun (i : ℕ) => (k.r.sp + BitVec.ofNat 16 i).toNat) 1 < 32768 ∧ (fun (i : ℕ) => (k.r.sp + BitVec.ofNat 16 i).toNat) 2 < 32768 ∧ BitVec.toNat (k.priv ((fun (i : ℕ) => (k.r.sp + BitVec.ofNat 16 i).toNat) 2)) < 128 ∧ k.entries = Entry.trap 1 :: rest) ∧
    (∃ (c : Fin 65) (s : State) (k : Core) (rest : List Entry), s.core c.val = some k ∧ k.spec = none ∧ CoreAt s (c.val) k 4 1 4 ∧ (fun (i : ℕ) => (k.r.sp + BitVec.ofNat 16 i).toNat) 0 < 32768 ∧ (fun (i : ℕ) => (k.r.sp + BitVec.ofNat 16 i).toNat) 1 < 32768 ∧ (fun (i : ℕ) => (k.r.sp + BitVec.ofNat 16 i).toNat) 2 < 32768 ∧ BitVec.toNat (k.priv ((fun (i : ℕ) => (k.r.sp + BitVec.ofNat 16 i).toNat) 2)) < 128 ∧ k.entries = Entry.trap 0 :: rest ∧ s.flag (F.SYS_FLT_SEC_VALID c.val) = false) ∧
    (∃ (c : Fin 65) (s : State) (k : Core) (sp : Spec), s.core c.val = some k ∧ k.spec = some sp ∧ 0 < c.val ∧ coreRuns s (c.val) k = true ∧ k.series = Series.idle ∧ k.memBad = [] ∧ k.r.pc.toNat + 3 ≤ 32767 ∧ BitVec.toNat (k.priv k.r.pc.toNat) = 2) ∧
    (∃ (c : Fin 65) (s : State) (k : Core) (sp : Spec), s.core c.val = some k ∧ k.spec = some sp ∧ 0 < c.val ∧ coreRuns s (c.val) k = true ∧ k.series = Series.idle ∧ k.memBad = [] ∧ k.r.pc.toNat + 3 ≤ 32767 ∧ BitVec.toNat (k.priv k.r.pc.toNat) = 7) ∧
    (∃ (c : Fin 65) (s : State) (k : Core) (sp : Spec), s.core c.val = some k ∧ k.spec = some sp ∧ 0 < c.val ∧ coreRuns s (c.val) k = true ∧ k.series = Series.idle ∧ k.memBad = [] ∧ k.r.pc.toNat + 3 ≤ 32767 ∧ BitVec.toNat (k.priv k.r.pc.toNat) = 89 ∧ 32768 ≤ k.opW.toNat) ∧
    (∃ (c : Fin 65) (s : State) (k : Core) (sp : Spec) (r : List Byte), s.core c.val = some k ∧ k.spec = some sp ∧ 0 < c.val ∧ r.length = 32 ∧ s.pwr = 0 ∧ s.flag F.PWR_STAT_ENTERING = false ∧ s.pow.phase = Phase.up ∧ k.queue.length + k.taken.length < 16 ∧ s.isHeld c.val = false ∧ predicted sp.pred r = true) ∧
    (∃ (c : Fin 65) (s : State) (k : Core) (sp : Spec) (r : List Byte), s.core c.val = some k ∧ k.spec = some sp ∧ 0 < c.val ∧ r.length = 32 ∧ s.pwr = 0 ∧ s.flag F.PWR_STAT_ENTERING = false ∧ s.pow.phase = Phase.up ∧ k.queue.length + k.taken.length < 16 ∧ s.isHeld c.val = false ∧ predicted sp.pred r = false) ∧
    (∃ (c : Fin 65) (s : State) (k : Core) (sp : Spec) (u : Fin 256) (i : Fin 16), s.core c.val = some k ∧ k.spec = some sp ∧ 0 < c.val ∧ recOrigin sp.pred = 97 + i.val ∧ s.flag (F.FC_CTRL_RUN i.val) = true ∧ Accepts u (A.FC_CTRL i.val) (BitVec.ofNat 32 (setBits (BitVec.toNat (s.reg (A.FC_CTRL i.val))) 0 1 0)) s) ∧
    (∃ (c : Fin 65) (s : State) (k : Core), s.core c.val = some k ∧ k.spec = none ∧ CoreAt s (c.val) k 81 3 52 ∧ k.opW = 49172#16 ∧ k.ltrOut = true) ∧
    (∃ (c : Fin 65) (s : State) (k : Core) (r : List Byte) (i : ℕ) (v : ℕ) (ch : Chain), s.core c.val = some k ∧ k.spec = none ∧ CoreAt s (c.val) k 81 3 6 ∧ k.opW = 49154#16 ∧ k.queue = [] ∧ k.lastTaken = some r ∧ mayRunAhead s (c.val) k = true ∧ i = recOrigin r - 97 ∧ List.find? (fun (e : ℕ × ℕ) => e.1 == recOrigin r) k.prevVals = some (recOrigin r, v) ∧ s.chain i = some ch) :=
  ⟨⟨5, evt, the idleCore (evt.core 5), by decide +kernel⟩,
    ⟨5, evt, the idleCore (evt.core 5), rec1, by decide +kernel⟩,
    ⟨5, wait5, the idleCore (wait5.core 5), by decide +kernel⟩,
    ⟨5, wait5, the idleCore (wait5.core 5), by decide +kernel⟩,
    ⟨5, full5, the idleCore (full5.core 5), rec1, by decide +kernel⟩,
    ⟨5, full5, the idleCore (full5.core 5), by decide +kernel⟩,
    ⟨5, waiting5 wait5, the idleCore ((waiting5 wait5).core 5), by decide +kernel⟩,
    ⟨5, waiting5 full5, the idleCore ((waiting5 full5).core 5), by decide +kernel⟩,
    ⟨5, rti5 [.event, .trap 0] 0, the idleCore ((rti5 [.event, .trap 0] 0).core 5), [.trap 0], by decide +kernel⟩,
    ⟨5, (rti5 [.trap 1, .event] 2).mark (F.SYS_FLT_SEC_VALID 5), the idleCore (((rti5 [.trap 1, .event] 2).mark (F.SYS_FLT_SEC_VALID 5)).core 5), [.event], by decide +kernel⟩,
    ⟨5, (rti5 [.trap 0] 1).mark (F.SYS_FLT_PRI_VALID 5), the idleCore (((rti5 [.trap 0] 1).mark (F.SYS_FLT_PRI_VALID 5)).core 5), [], by decide +kernel⟩,
    ⟨5, ahead [2], the idleCore ((ahead [2]).core 5), the anySpec (the idleCore ((ahead [2]).core 5)).spec, by decide +kernel⟩,
    ⟨5, ahead [7], the idleCore ((ahead [7]).core 5), the anySpec (the idleCore ((ahead [7]).core 5)).spec, by decide +kernel⟩,
    ⟨5, ahead [0x59, 0x0C, 0xC0], the idleCore ((ahead [0x59, 0x0C, 0xC0]).core 5), the anySpec (the idleCore ((ahead [0x59, 0x0C, 0xC0]).core 5)).spec, by decide +kernel⟩,
    ⟨5, ahead [2], the idleCore ((ahead [2]).core 5), the anySpec (the idleCore ((ahead [2]).core 5)).spec, good (ahead [2]), by decide +kernel⟩,
    ⟨5, ahead [2], the idleCore ((ahead [2]).core 5), the anySpec (the idleCore ((ahead [2]).core 5)).spec, rec1, by decide +kernel⟩,
    ⟨5, ahead [2], the idleCore ((ahead [2]).core 5), the anySpec (the idleCore ((ahead [2]).core 5)).spec, 0x75, 2, by decide +kernel⟩,
    ⟨5, mod5 (fun k => { k with ltrOut := true }) ((core5 [0x51, 0x14, 0xC0] D regs5).put (F.SRT_BUDGET_BUDGET 5) 90), the idleCore ((mod5 (fun k => { k with ltrOut := true }) ((core5 [0x51, 0x14, 0xC0] D regs5).put (F.SRT_BUDGET_BUDGET 5) 90)).core 5), by decide +kernel⟩,
    ⟨5, run5a [] [(0x63, 90)], the idleCore ((run5a [] [(0x63, 90)]).core 5), smp 100, recOrigin (smp 100) - 97, 90, ((run5a [] [(0x63, 90)]).chain 2).getD idleChain, by decide +kernel⟩⟩

theorem witness_RptRepeats :
    (∃ (c : Fin 65) (s : State) (k : Core) (m : Byte) (b : State) (k1 : Core) (x : ℕ) (took : Bool), CoreAt s (c.val) k 207 2 (3 + x) ∧ k.op1 = 194#8 ∧ k.r.cnt ≠ 0#16 ∧ readsOf ((fun (b : Byte) => prefixed s (c.val) ((fun (b : Byte) => { k with steps := k.steps + 1, series := Series.running b }) b)) 194#8) c ((fun (b : Byte) => { k with steps := k.steps + 1, series := Series.running b }) 194#8) [k.r.p.toNat] = some ([m], b, k1, x, took)) ∧
    (∃ (c : Fin 65) (s : State) (k : Core) (m : Byte) (b : State) (k1 : Core) (x : ℕ) (took : Bool), CoreAt s (c.val) k 207 2 (4 + x + storeSteps none k.r.q.toNat) ∧ k.op1 = 192#8 ∧ k.r.cnt ≠ 0#16 ∧ readsOf ((fun (b : Byte) => prefixed s (c.val) ((fun (b : Byte) => { k with steps := k.steps + 1, series := Series.running b }) b)) 192#8) c ((fun (b : Byte) => { k with steps := k.steps + 1, series := Series.running b }) 192#8) [k.r.p.toNat] = some ([m], b, k1, x, took) ∧ Storable s (c.val) k [(k.r.q.toNat, m)]) ∧
    (∃ (c : Fin 65) (s : State) (k : Core), CoreAt s (c.val) k 207 2 (3 + storeSteps (some k.r.a) k.r.q.toNat) ∧ k.op1 = 193#8 ∧ k.r.cnt ≠ 0#16 ∧ Storable s (c.val) k [(k.r.q.toNat, k.r.a)]) ∧
    (∃ (c : Fin 65) (s : State) (k : Core), CoreAt s (c.val) k 207 2 1 ∧ 192 ≤ BitVec.toNat k.op1 ∧ BitVec.toNat k.op1 ≤ 198 ∧ k.r.cnt = 0#16) ∧
    (∃ (c : Fin 65) (s : State) (k : Core) (n : ℕ) (m : ℕ) (t : State) (u : State) (k1 : Core), CoreAt s (c.val) k 207 2 1 ∧ 192 ≤ BitVec.toNat k.op1 ∧ BitVec.toNat k.op1 ≤ 198 ∧ exec (Instr.rpt c (n + 1)) s = Host.Outcome.next t ∧ t.core c.val = some k1 ∧ coreRuns t (c.val) k1 = true ∧ k1.series ≠ Series.idle ∧ exec (Instr.rpt c m) t = Host.Outcome.next u) :=
  ⟨⟨5, rq 0xC2 0x200 0x300, kk (rq 0xC2 0x200 0x300), (pre 0xC2 (rq 0xC2 0x200 0x300)).1.getD 0 0, (pre 0xC2 (rq 0xC2 0x200 0x300)).2.1, (pre 0xC2 (rq 0xC2 0x200 0x300)).2.2.1, (pre 0xC2 (rq 0xC2 0x200 0x300)).2.2.2.1, (pre 0xC2 (rq 0xC2 0x200 0x300)).2.2.2.2, by decide +kernel⟩,
    ⟨5, rq 0xC0 0x200 0x300, kk (rq 0xC0 0x200 0x300), (pre 0xC0 (rq 0xC0 0x200 0x300)).1.getD 0 0, (pre 0xC0 (rq 0xC0 0x200 0x300)).2.1, (pre 0xC0 (rq 0xC0 0x200 0x300)).2.2.1, (pre 0xC0 (rq 0xC0 0x200 0x300)).2.2.2.1, (pre 0xC0 (rq 0xC0 0x200 0x300)).2.2.2.2, by decide +kernel⟩,
    ⟨5, rq 0xC1 0x200 0x300, kk (rq 0xC1 0x200 0x300), by decide +kernel⟩,
    ⟨5, rpt 0xC1 { regs5 with cnt := 0 }, kk (rpt 0xC1 { regs5 with cnt := 0 }), by decide +kernel⟩,
    ⟨5, rpt 0xC1 regs5, kk (rpt 0xC1 regs5), 0, 1, af 1 (rpt 0xC1 regs5), af 1 (af 1 (rpt 0xC1 regs5)), the idleCore ((af 1 (rpt 0xC1 regs5)).core 5), by decide +kernel, by decide +kernel, by decide +kernel, rfl, by decide +kernel, by decide +kernel, by decide +kernel, rfl⟩⟩

theorem witness_CoresStartAndStop :
    (∃ (u : Fin 256) (c : Fin 65) (s : State) (k : Core) (x : ℕ), s.core c.val = some k ∧ x < 2 ∧ (c.val = 0 → x = 0) ∧ BitVec.toNat (s.reg (A.SRT_CTRL c.val)) = 4 * x ∧ Accepts u (A.SRT_CTRL c.val) (BitVec.ofNat 32 (4 * x + 1)) s ∧ headerOk k.priv = false) ∧
    (∃ (u : Fin 256) (c : Fin 65) (s : State) (k : Core) (x : ℕ), s.core c.val = some k ∧ x < 2 ∧ (c.val = 0 → x = 0) ∧ BitVec.toNat (s.reg (A.SRT_CTRL c.val)) = 4 * x ∧ s.get (F.SRT_STAT_STATE c.val) = stStopped ∧ lineHeld s (63635456 + 4096 * c.val) = false ∧ blockMoving s (63635456 + 4096 * c.val) = false ∧ s.ledg.flips = [] ∧ (nth s.ledg.bufs (ledgBank (63635456 + 4096 * c.val)) []).length < 16 ∧ Accepts u (A.SRT_CTRL c.val) (BitVec.ofNat 32 (4 * x + 2)) s) ∧
    (∃ (u : Fin 256) (c : Fin 65) (s : State) (k : Core) (x : ℕ) (v : Byte) (a : ℕ), s.core c.val = some k ∧ x < 2 ∧ (c.val = 0 → x = 0) ∧ a = s.get (F.SRT_MADDR_ADDR c.val) ∧ Accepts u (A.SRT_MDATA c.val) (BitVec.setWidth 32 v) s ∧ s.get (F.SRT_STAT_STATE c.val) = stStopped) ∧
    (∃ (u : Fin 256) (c : Fin 65) (s : State) (k : Core) (x : ℕ) (a : ℕ), s.core c.val = some k ∧ x < 2 ∧ (c.val = 0 → x = 0) ∧ a = s.get (F.SRT_MADDR_ADDR c.val) ∧ reaches (u.val) (A.SRT_MDATA c.val) false s = true) ∧
    (∃ (u : Fin 256) (c : Fin 65) (s : State) (k : Core) (x : ℕ), s.core c.val = some k ∧ x < 2 ∧ (c.val = 0 → x = 0) ∧ BitVec.toNat (s.reg (A.SRT_CTRL c.val)) = 4 * x ∧ Accepts u (A.SRT_CTRL c.val) (BitVec.ofNat 32 (4 * x + 1)) s ∧ headerOk k.priv = true ∧ coreMayStart s c.val = true ∧ s.get (F.SRT_STAT_STATE c.val) = stStopped ∧ (∀ j ≤ (headerOf k.priv).sealLines, poisonAt s (63635456 + 4096 * c.val + 64 * j) = false) ∧ s.ledg.flips = []) ∧
    (∃ (u : Fin 256) (c : Fin 65) (s : State) (k : Core) (x : ℕ), s.core c.val = some k ∧ x < 2 ∧ (c.val = 0 → x = 0) ∧ BitVec.toNat (s.reg (A.SRT_CTRL c.val)) = 4 * x + 1 ∧ k.spec = none ∧ s.get (F.SRT_STAT_STATE c.val) ≠ stStopped ∧ Accepts u (A.SRT_CTRL c.val) (BitVec.ofNat 32 (4 * x)) s ∧ (k.ltrOut || k.commitHold) = false) ∧
    (∃ (u : Fin 256) (c : Fin 65) (s : State) (k : Core) (x : ℕ) (v : Byte) (a : ℕ), s.core c.val = some k ∧ x < 2 ∧ (c.val = 0 → x = 0) ∧ a = s.get (F.SRT_MADDR_ADDR c.val) ∧ Accepts u (A.SRT_MDATA c.val) (BitVec.setWidth 32 v) s ∧ s.get (F.SRT_STAT_STATE c.val) ≠ stStopped) ∧
    (∃ (u : Fin 256) (c : Fin 65) (s : State) (k : Core) (x : ℕ), s.core c.val = some k ∧ x < 2 ∧ (c.val = 0 → x = 0) ∧ BitVec.toNat (s.reg (A.SRT_CTRL c.val)) = 4 * x + 1 ∧ k.spec = none ∧ s.get (F.SRT_STAT_STATE c.val) ≠ stStopped ∧ Accepts u (A.SRT_CTRL c.val) (BitVec.ofNat 32 (4 * x)) s ∧ (k.ltrOut || k.commitHold) = true) ∧
    (∃ (c : Fin 65) (s : State) (k : Core) (x0 : ℕ) (x : Txn), s.core c.val = some k ∧ x0 < 2 ∧ (c.val = 0 → x0 = 0) ∧ txnOf s c.val = some x ∧ x.phase = TxnPhase.committing ∧ x.act = TxnThen.seal c.val ∧ s.quiet = false ∧ s.safe = false ∧ 122 ∉ s.flt.resets ∧ s.flag (F.SRT_CTRL_RUN c.val) = true ∧ k.haltPend = false ∧ x.lines.length ≤ 12 ∧ s.ledg.jrnlPos < 4096 ∧ s.ledg.verify = [] ∧ s.ledg.moves = [] ∧ s.ledg.held = [] ∧ (∀ e ∈ x.lines, e.1 % 64 = 0 ∧ e.1 + 64 ≤ 63897600 ∧ 63635456 ≤ e.1 ∧ e.2.length = 64) ∧ List.Pairwise (fun (e f : ℕ × List Byte) => e.1 ≠ f.1) x.lines) :=
  ⟨⟨0x75, 5, up, kk up, 1, by decide +kernel⟩,
    ⟨0x75, 5, up, kk up, 1, by decide +kernel⟩,
    ⟨0x75, 5, up, kk up, 1, 0#8, up.get (F.SRT_MADDR_ADDR 5), by decide +kernel⟩,
    ⟨0x75, 5, up, kk up, 1, up.get (F.SRT_MADDR_ADDR 5), by decide +kernel⟩,
    ⟨0x75, 5, e5, kk e5, 1, by decide +kernel⟩,
    ⟨0x75, 5, run5 5 1 e5, kk e5, 1, by decide +kernel⟩,
    ⟨0x75, 5, run5 5 1 e5, kk e5, 1, 0#8, (run5 5 1 e5).get (F.SRT_MADDR_ADDR 5), by decide +kernel⟩,
    ⟨0x75, 5, mod5 (fun k => { k with ltrOut := true }) (run5 5 0 e5), the idleCore ((mod5 (fun k => { k with ltrOut := true }) (run5 5 0 e5)).core 5), 0, by decide +kernel⟩,
    ⟨5, comm sl e5, kk (comm sl e5), (1 : Nat), (⟨5, 9, .committing, sl, false, .seal 5, []⟩ : Txn), by decide +kernel⟩⟩

end CoreEvents

namespace Tap

def D : List Byte := [0x80, 0xFF, 0x7F, 1, 0x85, 6, 7, 0x10]
def tap5 (st : Nat) (f : Core → Core) (s : State) : State := { (s.put (F.SRT_STAT_STATE 5) st) with tap := { s.tap with core := 5 }, cores := upd s.cores 5 f }
def halted5 : State := tap5 stHalted id (core5 [0x01] D regs5)
def B1 : List Bool := [true, false, true]

theorem witness_TestAccessPort :
    (∃ (s : State) (u : Byte) (levels : List Bool) (load : Option (List Bool)) (w : Option (BitVec 128)) (i : Instr), (s.pow.phase = Phase.coldHold ∨ s.pow.phase = Phase.up ∧ s.pwr = 3 ∨ (s.pow.phase = Phase.regulator ∨ s.pow.phase = Phase.resetHold) ∧ s.flag F.PWR_STAT_OSC_OK = false) ∧ i ∈ [Instr.extest levels load, Instr.highz, Instr.clamp] ++ [Instr.bypass, Instr.idcode, Instr.samplePreload levels load, Instr.coreSel u, Instr.coreHalt, Instr.coreStep, Instr.coreResume, Instr.coreRegs w]) ∧
    (∃ (s : State) (levels : List Bool) (load : Option (List Bool)) (i : Instr), (¬(s.pow.phase = Phase.coldHold ∨ s.pow.phase = Phase.up ∧ s.pwr = 3 ∨ (s.pow.phase = Phase.regulator ∨ s.pow.phase = Phase.resetHold) ∧ s.flag F.PWR_STAT_OSC_OK = false)) ∧ s.flag F.SYS_RMAP_STAT_WAITING = false ∧ i ∈ [Instr.extest levels load, Instr.highz, Instr.clamp]) ∧
    (∃ (s : State), (¬(s.pow.phase = Phase.coldHold ∨ s.pow.phase = Phase.up ∧ s.pwr = 3 ∨ (s.pow.phase = Phase.regulator ∨ s.pow.phase = Phase.resetHold) ∧ s.flag F.PWR_STAT_OSC_OK = false)) ∧ s.flag F.SYS_RMAP_STAT_WAITING = true) ∧
    (∃ (s : State) (c : ℕ) (k : Core), tapAlive s = true ∧ s.tap.core = c ∧ c ≤ 64 ∧ s.core c = some k ∧ k.spec = none ∧ s.get (F.SRT_STAT_STATE c) = stHalted ∧ k.wasWaiting = false ∧ CoreAt (s.put (F.SRT_STAT_STATE c) stRunning) c k 1 1 1) ∧
    (∃ (s : State) (c : ℕ) (k : Core), tapAlive s = true ∧ s.tap.core = c ∧ c ≤ 64 ∧ s.core c = some k ∧ k.spec = none ∧ (s.get (F.SRT_STAT_STATE c) = stStopped ∨ s.get (F.SRT_STAT_STATE c) ≠ stHalted ∧ k.commitHold = true)) ∧
    (∃ (s : State) (c : ℕ) (k : Core), tapAlive s = true ∧ s.tap.core = c ∧ c ≤ 64 ∧ s.core c = some k ∧ k.spec = none ∧ s.get (F.SRT_STAT_STATE c) ≠ stHalted ∧ s.get (F.SRT_STAT_STATE c) ≠ stStopped ∧ k.commitHold = false) :=
  ⟨⟨State.reset, 5#8, B1, none, none, Instr.extest B1 none, by decide +kernel⟩,
    ⟨up, B1, none, Instr.extest B1 none, by decide +kernel⟩,
    ⟨up.mark F.SYS_RMAP_STAT_WAITING, by decide +kernel⟩,
    ⟨halted5, 5, the idleCore (halted5.core 5), by decide +kernel⟩,
    ⟨tap5 stStopped id up, 5, the idleCore ((tap5 stStopped id up).core 5), by decide +kernel⟩,
    ⟨tap5 stWaiting id up, 5, the idleCore ((tap5 stWaiting id up).core 5), by decide +kernel⟩⟩

end Tap

namespace Links

def lk (n st : Nat) (f : Link → Link) (s : State) : State := { (s.put (F.CAS_L_STAT_LSTATE n) st) with links := upd s.links n f }
def ports : State := { (up.put F.CAS_CFG_PORTS 0xF) with tb := 2 ^ 60 }
def act (n : Nat) (s : State) : State := lk n 3 (fun l => { l with lock := true, partner := some 5 }) s
def branchUp : State := act 0 ports
def masks (l : List Nat) (s : State) : State := l.foldl (fun u n => u.put (F.ARB_MASK_BANKS n) 0x00FFFFFF) s
def f1 : List Byte := mkFrame 4 0 (List.replicate 16 7#8)
def f2 : List Byte := mkFrame 1 0 (List.replicate 32 9#8)
def routed : State := let s := branchUp; { s with est := { s.est with route := [(77, 1)] } }
def raS (s : State) : State := { s with est := { s.est with raOpen := [none, some 4, none], waiting := true, welcomed := true } }
def lk0B : State := let s := raS (act 2 ((lk 0 4 (fun l => { l with lock := true, tx := [f1], outage := some 9 }) ports).mark F.CAS_STAT_PATH)); { s with gate := { s.gate with up := [[List.replicate 32 9#8], [], []] } }

theorem witness_LinksTrainSendAndFail :
    (∃ (n : Fin 4) (s : State), s.quiet = false ∧ linkEnabled s n.val = true ∧ lstate s n.val ≤ 1) ∧
    (∃ (n : Fin 4) (s : State), s.quiet = false ∧ lstate s n.val = 1 ∧ s.flag (F.CAS_L_STAT_PRS n.val) = true ∧ linkEnabled s n.val = true ∧ (s.link n.val).paused = false) ∧
    (∃ (n : Fin 4) (s : State), s.quiet = false ∧ (lstate s n.val ≠ 2 ∨ (s.link n.val).lock = false)) ∧
    (∃ (n : Fin 4) (s : State), s.quiet = false ∧ lstate s n.val < 2) ∧
    (∃ (n : Fin 4) (s : State), s.quiet = false ∧ lstate s n.val < 3) ∧
    (∃ (n : Fin 4) (s : State), s.quiet = false ∧ (linkEnabled s n.val = false ∨ 1 < lstate s n.val)) ∧
    (∃ (n : Fin 4) (s : State), s.quiet = false ∧ lstate s n.val = 2 ∧ (s.link n.val).paused = true) ∧
    (∃ (s : State), logicPowered s = false) ∧
    (∃ (s : State), s.quiet = true) ∧
    (∃ (n : Fin 4) (s : State), s.quiet = false ∧ lstate s n.val = 2 ∧ (s.link n.val).paused = false) ∧
    (∃ (n : Fin 4) (s : State), s.quiet = false ∧ n.val ≠ 0 ∧ lstate s n.val = 2 ∧ (s.link n.val).lock = true ∧ (s.link n.val).outage = none) ∧
    (∃ (n : Fin 4) (s : State), s.quiet = false ∧ n.val = 0 ∧ s.isHead = false ∧ lstate s n.val = 2 ∧ (s.link n.val).lock = true ∧ (s.link n.val).outage = none) ∧
    (∃ (n : Fin 4) (s : State), s.quiet = false ∧ 3 ≤ lstate s n.val ∧ (n.val ≠ 0 ∨ s.flag F.CAS_STAT_PATH = false) ∧ (s.link n.val).tx = []) ∧
    (∃ (n : Fin 4) (s : State) (id : ℕ), s.quiet = false ∧ n.val ≠ 0 ∧ s.isHead = false ∧ s.est.route = [(id, n.val)] ∧ 3 ≤ lstate s 0 ∧ n.val < s.links.length ∧ (s.link n.val).outage.isSome = true) ∧
    (∃ (n : Fin 4) (s : State) (id : ℕ), s.quiet = false ∧ n.val ≠ 0 ∧ s.isHead = false ∧ s.est.route = [(id, n.val)] ∧ 3 ≤ lstate s 0 ∧ n.val < s.links.length ∧ 2 ≤ lstate s n.val) ∧
    (∃ (n : Fin 4) (s : State) (f : List Byte) (rest : List (List Byte)), s.quiet = false ∧ 3 ≤ lstate s n.val ∧ (n.val ≠ 0 ∨ s.flag F.CAS_STAT_PATH = false) ∧ (s.link n.val).tx = f :: rest ∧ 1 ≤ frType f ∧ frType f ≤ 7) ∧
    (∃ (n : Fin 4) (s : State), s.quiet = false ∧ n.val = 0 ∧ s.isHead = false ∧ s.flag F.CAS_STAT_PATH = true ∧ s.gate.opened = [] ∧ s.links.length = 4 ∧ s.est.raOpen.length = 3 ∧ 2 ≤ lstate s n.val) ∧
    (∃ (n : Fin 4) (s : State) (b : List Byte) (rest : List (List Byte)), s.quiet = false ∧ 3 ≤ lstate s n.val ∧ n.val = 0 ∧ s.flag F.CAS_STAT_PATH = true ∧ (s.link 0).outage = none ∧ nth s.gate.up 0 [] = b :: rest ∧ 0 < s.links.length ∧ upHead s 0 = none) ∧
    (∃ (n : Fin 4) (s : State) (b : List Byte) (rest : List (List Byte)) (a : ℕ), s.quiet = false ∧ 3 ≤ lstate s n.val ∧ n.val = 0 ∧ s.flag F.CAS_STAT_PATH = true ∧ (s.link 0).outage = none ∧ nth s.gate.up 0 [] = b :: rest ∧ 0 < s.links.length ∧ upHead s 0 = some a ∧ s.ledg.flips = [] ∧ letterBad s 113 a = false) ∧
    (∃ (n : Fin 4) (s : State) (b : List Byte) (rest : List (List Byte)) (a : ℕ), s.quiet = false ∧ 3 ≤ lstate s n.val ∧ n.val = 0 ∧ s.flag F.CAS_STAT_PATH = true ∧ (s.link 0).outage = none ∧ nth s.gate.up 0 [] = b :: rest ∧ 0 < s.links.length ∧ upHead s 0 = some a ∧ letterBad s 113 a = true) ∧
    (∃ (n : Fin 4) (s : State), s.quiet = false ∧ n.val = 0 ∧ s.isHead = false ∧ s.flag F.CAS_STAT_PATH = true ∧ s.gate.opened = [] ∧ s.links.length = 4 ∧ s.est.raOpen.length = 3 ∧ (s.link 0).outage.isSome = true) :=
  ⟨⟨1, (lk 1 1 id ports).mark (F.CAS_L_STAT_PRS 1), by decide +kernel⟩,
    ⟨1, (lk 1 1 id ports).mark (F.CAS_L_STAT_PRS 1), by decide +kernel⟩,
    ⟨1, (lk 1 1 id ports).mark (F.CAS_L_STAT_PRS 1), by decide +kernel⟩,
    ⟨1, (lk 1 1 id ports).mark (F.CAS_L_STAT_PRS 1), by decide +kernel⟩,
    ⟨1, (lk 1 1 id ports).mark (F.CAS_L_STAT_PRS 1), by decide +kernel⟩,
    ⟨1, lk 1 2 (fun l => { l with paused := true }) ports, by decide +kernel⟩,
    ⟨1, lk 1 2 (fun l => { l with paused := true }) ports, by decide +kernel⟩,
    ⟨State.reset, by decide +kernel⟩,
    ⟨State.reset, by decide +kernel⟩,
    ⟨1, lk 1 2 id ports, by decide +kernel⟩,
    ⟨1, lk 1 2 (fun l => { l with lock := true }) ports, by decide +kernel⟩,
    ⟨0, lk 0 2 (fun l => { l with lock := true, tx := [f1] }) ports, by decide +kernel⟩,
    ⟨1, act 1 ports, by decide +kernel⟩,
    ⟨1, ({ act 1 routed with links := upd (act 1 routed).links 1 (fun l => { l with outage := some 3 }) } : State), 77, by decide +kernel⟩,
    ⟨1, ({ act 1 routed with links := upd (act 1 routed).links 1 (fun l => { l with outage := some 3 }) } : State), 77, by decide +kernel⟩,
    ⟨1, lk 1 3 (fun l => { l with tx := [f1, f2] }) routed, f1, [f2], by decide +kernel⟩,
    ⟨0, ({ (branchUp.mark F.CAS_STAT_PATH) with gate := { branchUp.gate with up := [[List.replicate 32 9#8], [], []] } } : State), by decide +kernel⟩,
    ⟨0, ({ (branchUp.mark F.CAS_STAT_PATH) with gate := { branchUp.gate with up := [[List.replicate 32 9#8], [], []] } } : State), List.replicate 32 9#8, [], by decide +kernel⟩,
    ⟨0, let s := masks [0x71] (branchUp.mark F.CAS_STAT_PATH); { s with parts := [⟨3, 0x71, 0x08030000, 64, 1⟩], mem := (List.range 32).map (fun i => (0x08030020 + i, 9#8)), gate := { s.gate with up := [[List.replicate 32 9#8], [], []] } }, List.replicate 32 9#8, [], 0x08030020, by decide +kernel⟩,
    ⟨0, let s := masks [0x71] (branchUp.mark F.CAS_STAT_PATH); { s with parts := [⟨3, 0x71, 0x08030000, 64, 1⟩], mem := (List.range 32).map (fun i => (0x08030020 + i, 9#8)), gate := { s.gate with up := [[List.replicate 32 9#8], [], []] }, ledg := { s.ledg with flips := [⟨0x08030028, 0⟩, ⟨0x08030028, 5⟩] } }, List.replicate 32 9#8, [], 0x08030020, by decide +kernel⟩,
    ⟨0, lk0B, by decide +kernel⟩⟩

end Links

namespace Frames

def lk (n st : Nat) (f : Link → Link) (s : State) : State := { (s.put (F.CAS_L_STAT_LSTATE n) st) with links := upd s.links n f }
def ports : State := { (up.put F.CAS_CFG_PORTS 0xF) with tb := 2 ^ 60 }
def act (n : Nat) (s : State) : State := lk n 3 (fun l => { l with lock := true, partner := some 5 }) s
def branchUp : State := act 0 ports
def act1 : State := act 1 (act 0 ports)
def masks (l : List Nat) (s : State) : State := l.foldl (fun u n => u.put (F.ARB_MASK_BANKS n) 0x00FFFFFF) s
def headS (s : State) : State := s.put F.CAS_STAT_ROLE 1
def obxS (s : State) : State := ((s.put F.GATE_OBX_LEN_LETTERS 8).put F.GATE_OBX_BASE_ADDR 0x08020000).put F.GATE_OBX_WR_IDX 7
def letC (c : Nat) : List Byte := recPut (mkRecord 77 9 7 0x20 0 9 1 5 0) 14 [BitVec.ofNat 8 (8 + c)]
def idd (i : Nat) (s : State) : State := (s.mark F.CAS_ID_VALID).put F.CAS_ID_ID i
def ring : Part := ⟨5, 0x7F, 0x08010000, 0x20000, 0⟩
def open1 : State := let s := masks [0x7F] (idd 7 branchUp); { s with parts := [ring], mem := (List.range 40).map (fun i => (0x08010060 + i, 1#8)), gate := { s.gate with opened := [⟨letC 2, 3, 0, false, false⟩] } }
def rt (s : State) : State := { s with est := { s.est with route := [(77, 1)] } }

theorem witness_FramesAreReceived :
    (∃ (n : Fin 4) (frac : BitVec 24) (complete : Bool) (s : State) (f : RxFrame) (i : Instr), (s.quiet = true ∨ lstate s n.val < 3) ∧ i ∈ (fun (f : RxFrame) => [Instr.letter n f, Instr.ack n f, Instr.hello n f, Instr.enrol n f, Instr.welcome n f, Instr.leave n f, Instr.pathLost n f, Instr.pathStands n f, Instr.pathRestored n f, Instr.pathNewhead n f, Instr.sync n frac f, Instr.dreq n frac f, Instr.dresp n f, Instr.raReq n f, Instr.raResp n f, Instr.idmir n complete f]) f) ∧
    (∃ (n : Fin 4) (frac : BitVec 24) (complete : Bool) (s : State) (f : RxFrame) (i : Instr), s.quiet = false ∧ 3 ≤ lstate s n.val ∧ n.val ≠ 0 ∧ f.codeErr = true ∧ i ∈ (fun (f : RxFrame) => [Instr.letter n f, Instr.ack n f, Instr.hello n f, Instr.enrol n f, Instr.welcome n f, Instr.leave n f, Instr.pathLost n f, Instr.pathStands n f, Instr.pathRestored n f, Instr.pathNewhead n f, Instr.sync n frac f, Instr.dreq n frac f, Instr.dresp n f, Instr.raReq n f, Instr.raResp n f, Instr.idmir n complete f]) f) ∧
    (∃ (n : Fin 4) (frac : BitVec 24) (complete : Bool) (s : State) (f : RxFrame) (i : Instr), s.quiet = false ∧ 3 ≤ lstate s n.val ∧ n.val ≠ 0 ∧ f.codeErr = false ∧ (f.data.length < 8 ∨ crc32 (List.take (f.data.length - 4) f.data) ≠ ofLe (List.drop (f.data.length - 4) f.data)) ∧ i ∈ (fun (f : RxFrame) => [Instr.letter n f, Instr.ack n f, Instr.hello n f, Instr.enrol n f, Instr.welcome n f, Instr.leave n f, Instr.pathLost n f, Instr.pathStands n f, Instr.pathRestored n f, Instr.pathNewhead n f, Instr.sync n frac f, Instr.dreq n frac f, Instr.dresp n f, Instr.raReq n f, Instr.raResp n f, Instr.idmir n complete f]) f) ∧
    (∃ (n : Fin 4) (frac : BitVec 24) (complete : Bool) (s : State) (typ : ℕ) (dst : ℕ) (p : List Byte) (i : Instr), s.quiet = false ∧ 3 ≤ lstate s n.val ∧ typ < 256 ∧ p.length < 256 ∧ (typ = 0 ∨ 13 < typ ∨ lenFits typ p.length = false ∨ directionFits typ n.val = false) ∧ i ∈ (fun (f : RxFrame) => [Instr.letter n f, Instr.ack n f, Instr.hello n f, Instr.enrol n f, Instr.welcome n f, Instr.leave n f, Instr.pathLost n f, Instr.pathStands n f, Instr.pathRestored n f, Instr.pathNewhead n f, Instr.sync n frac f, Instr.dreq n frac f, Instr.dresp n f, Instr.raReq n f, Instr.raResp n f, Instr.idmir n complete f]) (wholeFrame typ dst p)) ∧
    (∃ (n : Fin 4) (s : State) (typ : ℕ) (p : List Byte), s.quiet = false ∧ 3 ≤ lstate s n.val ∧ typ < 256 ∧ p.length < 256 ∧ 1 ≤ typ ∧ typ ≤ 13 ∧ lenFits typ p.length = true ∧ directionFits typ n.val = true ∧ typ ≠ 1) ∧
    (∃ (n : Fin 4) (s : State) (typ : ℕ) (p : List Byte), s.quiet = false ∧ 3 ≤ lstate s n.val ∧ typ < 256 ∧ p.length < 256 ∧ 1 ≤ typ ∧ typ ≤ 13 ∧ lenFits typ p.length = true ∧ directionFits typ n.val = true ∧ (typ ≠ 7 ∨ recNum p 0 1 ≠ 1)) ∧
    (∃ (n : Fin 4) (s : State) (b : List Byte), s.quiet = false ∧ 3 ≤ lstate s n.val ∧ n.val ≠ 0 ∧ b.length = 32 ∧ recClass b = 0) ∧
    (∃ (n : Fin 4) (s : State) (b : List Byte) (c : ℕ), s.quiet = false ∧ 3 ≤ lstate s n.val ∧ n.val ≠ 0 ∧ b.length = 32 ∧ recClass b = c + 1 ∧ s.isHead = false ∧ (∀ (x : ℕ), upPlace s c = some x → MaskFor s 119 x 32)) ∧
    (∃ (n : Fin 4) (s : State) (id : ℕ), s.quiet = false ∧ 3 ≤ lstate s n.val ∧ n.val ≠ 0 ∧ s.isHead = false ∧ 3 ≤ lstate s 0 ∧ id < 2 ^ 16 ∧ s.est.route = [(id, n.val)]) ∧
    (∃ (n : Fin 4) (s : State) (b : List Byte) (a : ℕ), s.quiet = false ∧ 3 ≤ lstate s n.val ∧ n.val ≠ 0 ∧ b.length = 32 ∧ recClass b ≠ 0 ∧ s.isHead = true ∧ recRe b = false ∧ s.get F.GATE_OBX_LEN_LETTERS ≠ 0 ∧ a = s.get F.GATE_OBX_BASE_ADDR + 32 * s.get F.GATE_OBX_WR_IDX ∧ MaskFor s 119 a 32) ∧
    (∃ (n : Fin 4) (s : State) (l : OpenLetter) (p : Machine.Part), s.quiet = false ∧ 3 ≤ lstate s n.val ∧ n.val = 0 ∧ s.flag F.CAS_ID_VALID = true ∧ s.gate.opened = [l] ∧ s.flag F.DLF_STAT_FROZEN = false ∧ s.part 5 = some p ∧ MaskFor s 127 (p.base + 32 * l.slot) 32) ∧
    (∃ (n : Fin 4) (s : State) (dst : ℕ), s.quiet = false ∧ 3 ≤ lstate s n.val ∧ n.val = 0 ∧ dst < 2 ^ 16 ∧ (s.flag F.CAS_ID_VALID = false ∨ s.devId ≠ dst) ∧ routeAt s dst = 0) ∧
    (∃ (n : Fin 4) (s : State) (t1 : ℕ), s.quiet = false ∧ 3 ≤ lstate s n.val ∧ n.val = 0 ∧ t1 < 2 ^ 88 ∧ s.isHead = false ∧ (s.link 0).outage = none ∧ (s.link 0).silent = false) ∧
    (∃ (n : Fin 4) (s : State) (id : ℕ) (e : IdEntry), s.quiet = false ∧ 3 ≤ lstate s n.val ∧ n.val = 0 ∧ s.flag F.CAS_ID_VALID = true ∧ id < 2 ^ 16 ∧ e.uid < 2 ^ 64 ∧ 1 ≤ e.st ∧ e.st < 256 ∧ e.depth < 256) ∧
    (∃ (n : Fin 4) (s : State) (dst : ℕ) (k : ℕ), s.quiet = false ∧ 3 ≤ lstate s n.val ∧ n.val = 0 ∧ dst < 2 ^ 16 ∧ (s.flag F.CAS_ID_VALID = false ∨ s.devId ≠ dst) ∧ routeAt s dst = k + 1 ∧ 3 ≤ lstate s (k + 1)) ∧
    (∃ (n : Fin 4) (s : State) (t1 : ℕ), s.quiet = false ∧ 3 ≤ lstate s n.val ∧ n.val = 0 ∧ t1 < 2 ^ 88 ∧ s.isHead = true) :=
  ⟨⟨0, 5#24, true, up, ⟨true, []⟩, Instr.letter 0 { codeErr := true, data := [] }, by decide +kernel⟩,
    ⟨1, 0xFFFFFF#24, false, act1, ⟨true, []⟩, Instr.letter 1 { codeErr := true, data := [] }, by decide +kernel⟩,
    ⟨1, 0xFFFFFF#24, false, act1, ⟨false, [1,2]⟩, Instr.letter 1 { codeErr := false, data := [1, 2] }, by decide +kernel⟩,
    ⟨1, 0xFFFFFF#24, false, act1, 0, 5, [], Instr.letter 1 (wholeFrame 0 5 []), by decide +kernel⟩,
    ⟨1, act1, 6, [2#8,3#8], by decide +kernel⟩,
    ⟨1, act1, 6, [2#8,3#8], by decide +kernel⟩,
    ⟨1, act1, letC 0, by decide +kernel⟩,
    ⟨1, act1, letC 1, 0, by decide +kernel⟩,
    ⟨1, rt act1, 77, by decide +kernel⟩,
    ⟨1, headS (obxS (masks [0x77] act1)), letC 1, 0x080200E0, by decide +kernel⟩,
    ⟨0, open1, ⟨letC 2, 3, 0, false, false⟩, ring, by decide +kernel⟩,
    ⟨0, open1, 0, by decide +kernel⟩,
    ⟨0, open1, 2^88-1, by decide +kernel⟩,
    ⟨0, open1, 4, ⟨0xFFFFFFFFFFFFFFFF,1,2⟩, by decide +kernel⟩,
    ⟨0, rt (act 1 open1), 77, 0, by decide +kernel⟩,
    ⟨0, headS open1, 0, by decide +kernel⟩⟩

end Frames

namespace Estate

def lk (n st : Nat) (f : Link → Link) (s : State) : State := { (s.put (F.CAS_L_STAT_LSTATE n) st) with links := upd s.links n f }
def ports : State := { (up.put F.CAS_CFG_PORTS 0xF) with tb := 2 ^ 60 }
def act (n : Nat) (s : State) : State := lk n 3 (fun l => { l with lock := true, partner := some 5 }) s
def branchUp : State := act 0 ports
def act1 : State := act 1 (act 0 ports)
def masks (l : List Nat) (s : State) : State := l.foldl (fun u n => u.put (F.ARB_MASK_BANKS n) 0x00FFFFFF) s
def headS (s : State) : State := s.put F.CAS_STAT_ROLE 1
def idd (i : Nat) (s : State) : State := (s.mark F.CAS_ID_VALID).put F.CAS_ID_ID i
def rt (s : State) : State := { s with est := { s.est with route := [(77, 1)] } }
def pathUp : State := (act1.mark F.CAS_STAT_PATH).put F.GATE_HOPS_HOPS 2
def helloB (fl : Nat) (sh : Nat) : List Byte := leBytes 8 0x1122 ++ leBytes 2 9 ++ leBytes 1 fl ++ [0#8] ++ leBytes 2 sh ++ List.replicate 10 0#8
def enrolB (id via : Nat) : List Byte := leBytes 8 0x1122 ++ leBytes 2 id ++ leBytes 1 8 ++ leBytes 1 2 ++ leBytes 2 via ++ leBytes 1 1 ++ [0#8]
def welB (uid id : Nat) : List Byte := leBytes 8 uid ++ leBytes 2 id ++ leBytes 1 3 ++ leBytes 1 0 ++ leBytes 2 5 ++ leBytes 2 6 ++ leBytes 2 7 ++ leBytes 2 8 ++ leBytes 2 9 ++ leBytes 2 10
def est (f : Estate → Estate) (s : State) : State := { s with est := f s.est }
def idTab : State := putBytes (0x03D00000 + 16 * 9) (leBytes 8 1 ++ [1#8, 1#8]) (masks [0x71] ((headS (rt act1)).put F.CAS_IDTAB_BASE 0))
def enrolC (fl id via d : Nat) : List Byte := leBytes 8 0x1122 ++ leBytes 2 id ++ leBytes 1 fl ++ leBytes 1 d ++ leBytes 2 via ++ leBytes 1 1 ++ [0#8]
def headT (m : List Nat) : State := m.foldl (fun s i => putBytes (0x03D00000 + 16 * i) (leBytes 8 (0x1000 + i) ++ [1#8, 1#8]) s) (masks [0x71] ((headS (rt act1)).put F.CAS_IDTAB_BASE 0))
def sby : State := est (fun e => { e with takeover := true, mirror := [(3, ⟨5, 1, 1⟩), (7, ⟨6, 1, 2⟩), (65535, ⟨9, 2, 3⟩)] }) (masks [0x71] (act 1 ((idd 7 (ports.put F.CAS_IDTAB_BASE 4)).put F.CAS_STAT_ROLE 2)))
def sbyArmed : State := est (fun e => { e with takeover := false, copied := true }) (((act 0 sby).put F.GATE_HOPS_HOPS 1).mark F.CAS_STAT_PATH)
theorem uid_bytes (v : Nat) (t : List Byte) : recNum (leBytes 8 v ++ t) 0 8 = v % 2 ^ 64 := by
  simp [recNum, leBytes, ofLe]; omega
theorem welB_uid (v id : Nat) : recNum (welB v id) 0 8 = v % 2 ^ 64 := by
  unfold welB; rw [List.append_assoc, List.append_assoc, List.append_assoc, List.append_assoc, List.append_assoc, List.append_assoc, List.append_assoc, List.append_assoc]; exact uid_bytes _ _
theorem not_next (v n : Nat) (h : v < n) (hn : 1 < n) : (v + 1) % n ≠ v := by
  rcases Nat.lt_or_eq_of_le h with e | e
  · rw [Nat.mod_eq_of_lt (show v + 1 < n from e)]; omega
  · rw [show v + 1 = n from e, Nat.mod_self]; omega
theorem uid_back (id : Nat) : recNum (welB ownUid id) 0 8 = ownUid := (welB_uid _ _).trans (Nat.mod_eq_of_lt ownUid_lt)
theorem uid_not_next (id : Nat) : recNum (welB (ownUid + 1) id) 0 8 ≠ ownUid := by
  rw [welB_uid]; exact not_next _ _ ownUid_lt (by decide)

theorem witness_EnrolmentPathAndTime :
    (∃ (n : Fin 4) (s : State), s.quiet = false ∧ (s.isHead = false ∧ 3 ≤ lstate s 0) ∧ n.val = 0 ∧ waitsForRetrain s = true) ∧
    (∃ (u : Fin 256) (s : State), s.quiet = false ∧ (s.isHead = false ∧ 3 ≤ lstate s 0) ∧ Accepts u A.CAS_CMD (1#32) s) ∧
    (∃ (u : Fin 256) (s : State), s.quiet = false ∧ (s.isHead = false ∧ 3 ≤ lstate s 0) ∧ Accepts u A.CAS_CMD (2#32) s) ∧
    (∃ (s : State), s.quiet = false ∧ (s.isHead = false ∧ 3 ≤ lstate s 0) ∧ (s.link 0).outage = none ∧ s.est.takeover = false ∧ standbyArmed s = false) ∧
    (∃ (s : State), s.quiet = false ∧ (s.get F.CAS_STAT_ENR_RESULT ≠ 2 ∧ s.get F.CAS_STAT_ENR_RESULT ≠ 6 ∧ s.get F.CAS_STAT_ENR_RESULT ≠ 7 ∨ s.est.waiting = true)) ∧
    (∃ (n : Fin 4) (u : Fin 256) (s : State) (b : Bool), s.quiet = false ∧ Accepts u (A.CAS_L_CTRL n.val) (BitVec.ofNat 32 (setBits (BitVec.toNat (s.reg (A.CAS_L_CTRL n.val))) 0 1 (b2n b))) s ∧ s.flag (F.CAS_L_CTRL_DOWN n.val) = b) ∧
    (∃ (n : Fin 4) (s : State) (t1 : ℕ) (t2 : ℕ) (t3 : ℕ) (t4 : ℕ), s.quiet = false ∧ (s.isHead = false ∧ 3 ≤ lstate s 0) ∧ n.val = 0 ∧ t4 < 2 ^ 88 ∧ s.est.sync = some (t1, t2) ∧ s.est.dreq = some t3 ∧ s.get F.CAS_STAT_TSTATE = tsAcquire ∧ s.est.stepped = false ∧ (fun (ns : ℕ) => decide ((toSigned 88 (t2 + 2 ^ 88 - t1) - toSigned 88 (t4 + 2 ^ 88 - t3)).natAbs * 1000000000 ≤ ns * 2 ^ 49)) (1000 * s.get F.CAS_CFG_STEP_US) = false) ∧
    (∃ (n : Fin 4) (s : State) (b : List Byte) (depth : ℕ), s.quiet = false ∧ n.val ≠ 0 ∧ 3 ≤ lstate s n.val ∧ b.length = 24 ∧ depth = s.get F.GATE_HOPS_HOPS + 1 ∧ (s.isHead = false ∧ 3 ≤ lstate s 0) ∧ s.flag F.CAS_STAT_PATH = true ∧ bit (recNum b 10 1) 0 = false ∧ depth ≤ 32 ∧ (∀ c < 3, recNum b (12 + 2 * c) 2 ≤ s.get (F.CAS_SUB_SHARE (n.val - 1) c) ∧ recNum b (18 + 2 * c) 2 ≤ s.get (F.CAS_SUB_CRED (n.val - 1) c))) ∧
    (∃ (n : Fin 4) (s : State) (b : List Byte) (depth : ℕ) (r : ℕ), s.quiet = false ∧ n.val ≠ 0 ∧ 3 ≤ lstate s n.val ∧ b.length = 24 ∧ depth = s.get F.GATE_HOPS_HOPS + 1 ∧ (s.isHead = false ∧ s.flag F.CAS_STAT_PATH = false ∧ r = 6 ∨ (s.isHead = true ∨ s.flag F.CAS_STAT_PATH = true) ∧ bit (recNum b 10 1) 0 = true ∧ r = 5 ∨ (s.isHead = true ∨ s.flag F.CAS_STAT_PATH = true) ∧ bit (recNum b 10 1) 0 = false ∧ 32 < depth ∧ r = 3 ∨ (s.isHead = true ∨ s.flag F.CAS_STAT_PATH = true) ∧ bit (recNum b 10 1) 0 = false ∧ depth ≤ 32 ∧ (¬∀ c < 3, recNum b (12 + 2 * c) 2 ≤ s.get (F.CAS_SUB_SHARE (n.val - 1) c) ∧ recNum b (18 + 2 * c) 2 ≤ s.get (F.CAS_SUB_CRED (n.val - 1) c)) ∧ r = 4)) ∧
    (∃ (n : Fin 4) (s : State) (b : List Byte), s.quiet = false ∧ n.val ≠ 0 ∧ 3 ≤ lstate s n.val ∧ b.length = 16 ∧ (s.isHead = false ∧ 3 ≤ lstate s 0)) ∧
    (∃ (n : Fin 4) (s : State) (b : List Byte) (k : ℕ), s.quiet = false ∧ n.val ≠ 0 ∧ 3 ≤ lstate s n.val ∧ b.length = 16 ∧ s.isHead = true ∧ bit (recNum b 10 1) 3 = true ∧ (idEntryAt s (recNum b 8 2)).st = 1 ∧ (idEntryAt s (recNum b 8 2)).uid ≠ recNum b 0 8 ∧ recNum b 12 2 ≠ s.devId ∧ routeAt s (recNum b 12 2) = k + 1 ∧ 3 ≤ lstate s (k + 1) ∧ s.ledg.flips = [] ∧ (∀ x < 24, maskOk s 113 x = true)) ∧
    (∃ (n : Fin 4) (s : State) (b : List Byte) (via : ℕ) (id : ℕ), s.quiet = false ∧ (s.isHead = false ∧ 3 ≤ lstate s 0) ∧ n.val = 0 ∧ b.length = 24 ∧ via < 2 ^ 16 ∧ id = recNum b 8 2 ∧ recNum b 0 8 = ownUid ∧ recNum b 11 1 = 0) ∧
    (∃ (n : Fin 4) (s : State), s.quiet = false ∧ (s.isHead = false ∧ 3 ≤ lstate s 0) ∧ n.val = 0 ∧ s.flag F.CAS_STAT_PATH = false ∧ waitsForRetrain s = false) ∧
    (∃ (n : Fin 4) (s : State) (t4 : ℕ), s.quiet = false ∧ (s.isHead = false ∧ 3 ≤ lstate s 0) ∧ n.val = 0 ∧ t4 < 2 ^ 88 ∧ (s.est.sync = none ∨ s.est.dreq = none)) ∧
    (∃ (n : Fin 4) (s : State) (b : List Byte) (via : ℕ) (id : ℕ) (k : ℕ), s.quiet = false ∧ (s.isHead = false ∧ 3 ≤ lstate s 0) ∧ n.val = 0 ∧ b.length = 24 ∧ via < 2 ^ 16 ∧ id = recNum b 8 2 ∧ recNum b 0 8 ≠ ownUid ∧ (s.flag F.CAS_ID_VALID = false ∨ s.devId ≠ via) ∧ routeAt s via = k + 1 ∧ 3 ≤ lstate s (k + 1)) ∧
    (∃ (n : Fin 4) (s : State), s.quiet = false ∧ (s.isHead = false ∧ 3 ≤ lstate s 0) ∧ n.val = 0 ∧ s.flag F.CAS_STAT_PATH = true ∧ lstate s 0 ≤ 4 ∧ s.gate.opened = [] ∧ (∀ c < 3, nth s.est.raOpen c none = none)) ∧
    (∃ (n : Fin 4) (s : State) (t1 : ℕ) (t2 : ℕ) (t3 : ℕ) (t4 : ℕ), s.quiet = false ∧ (s.isHead = false ∧ 3 ≤ lstate s 0) ∧ n.val = 0 ∧ t4 < 2 ^ 88 ∧ s.est.sync = some (t1, t2) ∧ s.est.dreq = some t3 ∧ (s.get F.CAS_STAT_TSTATE ≠ tsAcquire ∨ s.est.stepped = true ∨ (fun (ns : ℕ) => decide ((toSigned 88 (t2 + 2 ^ 88 - t1) - toSigned 88 (t4 + 2 ^ 88 - t3)).natAbs * 1000000000 ≤ ns * 2 ^ 49)) (1000 * s.get F.CAS_CFG_STEP_US) = true)) ∧
    (∃ (s : State), s.quiet = false ∧ (s.isHead = false ∧ 3 ≤ lstate s 0) ∧ s.est.waiting = false ∧ (s.get F.CAS_STAT_ENR_RESULT = 2 ∨ s.get F.CAS_STAT_ENR_RESULT = 6 ∨ s.get F.CAS_STAT_ENR_RESULT = 7)) ∧
    (∃ (s : State), s.quiet = false ∧ s.est.waiting = true ∧ s.flag F.CAS_STAT_PATH = false ∧ lstate s 0 ≠ 4 ∧ (∀ (k : ℕ), 1 ≤ k → k ≤ 3 → lstate s k < 3)) ∧
    (∃ (n : Fin 4) (u : Fin 256) (s : State) (b : Bool), s.quiet = false ∧ Accepts u (A.CAS_L_CTRL n.val) (BitVec.ofNat 32 (setBits (BitVec.toNat (s.reg (A.CAS_L_CTRL n.val))) 0 1 (b2n b))) s ∧ s.flag (F.CAS_L_CTRL_DOWN n.val) = false ∧ b = true ∧ n.val ≠ 0 ∧ lstate s n.val < 3 ∧ (s.link n.val).outage = none) ∧
    (∃ (n : Fin 4) (u : Fin 256) (s : State) (b : Bool), s.quiet = false ∧ Accepts u (A.CAS_L_CTRL n.val) (BitVec.ofNat 32 (setBits (BitVec.toNat (s.reg (A.CAS_L_CTRL n.val))) 0 1 (b2n b))) s ∧ s.flag (F.CAS_L_CTRL_DOWN n.val) = true ∧ b = false ∧ s.flag (F.CAS_L_STAT_PRS n.val) = true ∧ bit (s.get F.CAS_CFG_PORTS) n.val = true ∧ s.isHeld (113 + n.val) = false ∧ lstate s n.val = 0) ∧
    (∃ (n : Fin 4) (s : State) (b : List Byte) (k : ℕ) (id : ℕ), s.quiet = false ∧ n.val ≠ 0 ∧ 3 ≤ lstate s n.val ∧ b.length = 16 ∧ s.isHead = true ∧ (s.ledg.flips = [] ∧ s.ledg.txns = [] ∧ s.ledg.held = [] ∧ s.ledg.moves = [] ∧ ∀ x < 24, maskOk s 113 x = true) ∧ (nth s.ledg.bufs (ledgBank (idBase s + 16 * id)) []).length < 16 ∧ s.est.standbys = [] ∧ recNum b 12 2 ≠ s.devId ∧ routeAt s (recNum b 12 2) = k + 1 ∧ 3 ≤ lstate s (k + 1) ∧ (bit (recNum b 10 1) 3 = true ∧ id = recNum b 8 2 ∧ ((idEntryAt s id).st = 1 → (fun (i : ℕ) => (idEntryAt s i).uid = recNum b 0 8) id) ∨ bit (recNum b 10 1) 3 = false ∧ ((id ∈ idUsed s ∧ (fun (i : ℕ) => (idEntryAt s i).uid = recNum b 0 8) id ∧ ∀ i ∈ idUsed s, (fun (i : ℕ) => (idEntryAt s i).uid = recNum b 0 8) i → i = id) ∨ (∀ i ∈ idUsed s, ¬(fun (i : ℕ) => (idEntryAt s i).uid = recNum b 0 8) i) ∧ (bit (recNum b 10 1) 2 = true ∧ id = recNum b 8 2 ∧ (idEntryAt s id).st = 0 ∨ (bit (recNum b 10 1) 2 = false ∨ (idEntryAt s (recNum b 8 2)).st ≠ 0) ∧ 1 ≤ id ∧ id < 2 ^ 16 ∧ id ∉ idUsed s ∧ ∀ (i : ℕ), 1 ≤ i → i < id → i ∈ idUsed s))) ∧ (bit (recNum b 10 1) 1 = true ∧ recNum b 11 1 = 1 → recNum b 12 2 ≠ id ∧ idUsed s = [])) ∧
    (∃ (s : State), s.quiet = false ∧ s.isHead = false ∧ (s.ledg.flips = [] ∧ s.ledg.txns = [] ∧ s.ledg.held = [] ∧ s.ledg.moves = [] ∧ ∀ x < 24, maskOk s 113 x = true) ∧ (s.link 0).outage = none ∧ s.ledg.bufs = List.replicate 8 [] ∧ s.flt.dayQ.length < 32 ∧ s.est.mirror.length ≤ 15 ∧ List.Pairwise (fun (x1 x2 : ℕ) => x1 < x2) (List.map (fun (x : ℕ × IdEntry) => x.1) s.est.mirror) ∧ (∀ e ∈ s.est.mirror, e.1 < 2 ^ 16 ∧ e.2.uid < 2 ^ 64 ∧ e.2.st < 256 ∧ e.2.depth < 256) ∧ (∀ e ∈ s.mem, e.1 < idBase s ∨ idBase s + 1048576 ≤ e.1) ∧ s.est.takeover = true ∧ lstate s 0 < 3) ∧
    (∃ (s : State), s.quiet = false ∧ s.isHead = false ∧ (s.ledg.flips = [] ∧ s.ledg.txns = [] ∧ s.ledg.held = [] ∧ s.ledg.moves = [] ∧ ∀ x < 24, maskOk s 113 x = true) ∧ (s.link 0).outage = none ∧ s.ledg.bufs = List.replicate 8 [] ∧ s.flt.dayQ.length < 32 ∧ s.est.mirror.length ≤ 15 ∧ List.Pairwise (fun (x1 x2 : ℕ) => x1 < x2) (List.map (fun (x : ℕ × IdEntry) => x.1) s.est.mirror) ∧ (∀ e ∈ s.est.mirror, e.1 < 2 ^ 16 ∧ e.2.uid < 2 ^ 64 ∧ e.2.st < 256 ∧ e.2.depth < 256) ∧ (∀ e ∈ s.mem, e.1 < idBase s ∨ idBase s + 1048576 ≤ e.1) ∧ standbyArmed s = true ∧ 3 ≤ lstate s 0 ∧ s.gate.opened = [] ∧ (∀ c < 3, nth s.est.raOpen c none = none)) :=
  ⟨⟨0, branchUp.put F.CAS_STAT_ENR_RESULT 3, by decide +kernel⟩,
    ⟨0x75, branchUp.put F.CAS_STAT_ENR_RESULT 3, by decide +kernel⟩,
    ⟨0x75, branchUp.put F.CAS_STAT_ENR_RESULT 3, by decide +kernel⟩,
    ⟨branchUp.put F.CAS_STAT_ENR_RESULT 3, by decide +kernel⟩,
    ⟨branchUp.put F.CAS_STAT_ENR_RESULT 3, by decide +kernel⟩,
    ⟨0, 0x75, branchUp.put F.CAS_STAT_ENR_RESULT 3, false, by decide +kernel⟩,
    ⟨0, est (fun e => { e with sync := some (100, 2^41), dreq := some 7, integ := -5, goodRun := 7, stepped := false }) (pathUp.put F.CAS_STAT_TSTATE tsAcquire), 100, 2^41, 7, 2^60, by decide +kernel⟩,
    ⟨1, pathUp, helloB 8 0, 3, by decide +kernel⟩,
    ⟨1, pathUp, helloB 1 0, 3, 5, by decide +kernel⟩,
    ⟨1, pathUp, enrolB 9 7, by decide +kernel⟩,
    ⟨1, idTab, enrolB 9 77, 0, by decide +kernel⟩,
    ⟨0, branchUp, welB ownUid 44, 5, 44, by refine ⟨?_, ?_, ?_, ?_, ?_, rfl, uid_back _, rfl⟩ <;> decide +kernel⟩,
    ⟨0, branchUp, by decide +kernel⟩,
    ⟨0, branchUp, 9, by decide +kernel⟩,
    ⟨0, rt (act 1 (idd 7 branchUp)), welB (ownUid + 1) 44, 77, 44, 0, by refine ⟨?_, ?_, ?_, ?_, ?_, rfl, uid_not_next _, ?_⟩ <;> decide +kernel⟩,
    ⟨0, pathUp, by decide +kernel⟩,
    ⟨0, est (fun e => { e with sync := some (100, 2^41), dreq := some 7, integ := -5, goodRun := 7 }) ((pathUp).put F.CAS_STAT_TSTATE tsLocked), 100, 2^41, 7, 2^41, by decide +kernel⟩,
    ⟨(branchUp.put F.CAS_STAT_ENR_RESULT 7), by decide +kernel⟩,
    ⟨est (fun e => { e with waiting := true }) (up.put F.CAS_CFG_PORTS 0xF), by decide +kernel⟩,
    ⟨1, 0x75, est (fun e => { e with waiting := true }) (up.put F.CAS_CFG_PORTS 0xF), true, by decide +kernel⟩,
    ⟨1, 0x75, (((up.put F.CAS_CFG_PORTS 0xF).mark (F.CAS_L_CTRL_DOWN 1)).mark (F.CAS_L_STAT_PRS 1)), false, by decide +kernel⟩,
    ⟨1, headT [], enrolC 0 0 77 1, 0, 1, by decide +kernel⟩,
    ⟨sby, by decide +kernel⟩,
    ⟨sbyArmed, by decide +kernel⟩⟩

end Estate

namespace RemoteAccess

def lk (n st : Nat) (f : Link → Link) (s : State) : State := { (s.put (F.CAS_L_STAT_LSTATE n) st) with links := upd s.links n f }
def ports : State := { (up.put F.CAS_CFG_PORTS 0xF) with tb := 2 ^ 60 }
def act (n : Nat) (s : State) : State := lk n 3 (fun l => { l with lock := true, partner := some 5 }) s
def act1 : State := act 1 (act 0 ports)
def headS (s : State) : State := s.put F.CAS_STAT_ROLE 1
def idd (i : Nat) (s : State) : State := (s.mark F.CAS_ID_VALID).put F.CAS_ID_ID i
def rt (s : State) : State := { s with est := { s.est with route := [(77, 1)] } }
def est (f : Estate → Estate) (s : State) : State := { s with est := f s.est }
def raS : State := est (fun e => { e with tag := 255 }) (idd 7 (rt act1))
def masks (l : List Nat) (s : State) : State := l.foldl (fun u n => u.put (F.ARB_MASK_BANKS n) 0x00FFFFFF) s
def raOpen1 : State := masks [0x71, 0x72] (est (fun e => { e with raOpen := [none, some 9, none] }) (idd 7 (rt act1)))
def raBusy : State := raS.put (raBank F.CAS_RA_STAT_BUSY 1) 1
def raSelf : State := raS.setReg (A.CAS_RA_DST + 2 ^ 32) 7#32
theorem none_open (c : Nat) : nth raOpen1.est.raOpen c none ≠ some 8 := by
  have h : raOpen1.est.raOpen = [none, some 9, none] := by decide +kernel
  rw [h]
  match c with
  | 0 | 1 | 2 => decide
  | n + 3 => simp [nth]

theorem witness_RemoteAccessRequests :
    (∃ (u : Fin 256) (c : ℕ) (m : Fin 8) (s : State) (row : Instr × ℕ) (k : ℕ), raChannel u.val = some c ∧ row ∈ [(Instr.raRead u m, 1), (Instr.raWrite u m, 2)] ∧ Accepts u A.CAS_RA_CMD (BitVec.ofNat 32 (32 * m.val + row.2)) s ∧ s.flag (raBank F.CAS_RA_STAT_BUSY c) = false ∧ (s.flag F.CAS_ID_VALID && s.devId == BitVec.toNat (s.reg (A.CAS_RA_DST + c * 2 ^ 32)) % 2 ^ 16) = false ∧ routeAt s (BitVec.toNat (s.reg (A.CAS_RA_DST + c * 2 ^ 32)) % 2 ^ 16) = k ∧ (k ≠ 0 ∨ s.isHead = false) ∧ 3 ≤ lstate s k ∧ s.flag F.CAS_ID_VALID = true) ∧
    (∃ (u : Fin 256) (c : ℕ) (m : Fin 8) (s : State) (row : Instr × ℕ), raChannel u.val = some c ∧ row ∈ [(Instr.raRead u m, 1), (Instr.raWrite u m, 2)] ∧ Accepts u A.CAS_RA_CMD (BitVec.ofNat 32 (32 * m.val + row.2)) s ∧ s.flag (raBank F.CAS_RA_STAT_BUSY c) = true) ∧
    (∃ (u : Fin 256) (c : ℕ) (m : Fin 8) (s : State) (row : Instr × ℕ) (v : ℕ), raChannel u.val = some c ∧ row ∈ [(Instr.raRead u m, 1), (Instr.raWrite u m, 2)] ∧ Accepts u A.CAS_RA_CMD (BitVec.ofNat 32 (32 * m.val + row.2)) s ∧ s.flag (raBank F.CAS_RA_STAT_BUSY c) = false ∧ (s.flag F.CAS_ID_VALID && s.devId == BitVec.toNat (s.reg (A.CAS_RA_DST + c * 2 ^ 32)) % 2 ^ 16) = true ∧ row.2 = 1 ∧ m.val = 0 ∧ hostReadWord (u.val) (BitVec.toNat (s.reg (A.CAS_RA_ADDR + c * 2 ^ 32))) (s.put (raBank F.CAS_RA_STAT_BUSY c) 1) = (v, s.put (raBank F.CAS_RA_STAT_BUSY c) 1) ∧ v < 2 ^ 32) ∧
    (∃ (u : Fin 256) (c : ℕ) (m : Fin 8) (s : State) (row : Instr × ℕ) (k : ℕ), raChannel u.val = some c ∧ row ∈ [(Instr.raRead u m, 1), (Instr.raWrite u m, 2)] ∧ Accepts u A.CAS_RA_CMD (BitVec.ofNat 32 (32 * m.val + row.2)) s ∧ s.flag (raBank F.CAS_RA_STAT_BUSY c) = false ∧ (s.flag F.CAS_ID_VALID && s.devId == BitVec.toNat (s.reg (A.CAS_RA_DST + c * 2 ^ 32)) % 2 ^ 16) = false ∧ routeAt s (BitVec.toNat (s.reg (A.CAS_RA_DST + c * 2 ^ 32)) % 2 ^ 16) = k ∧ (k = 0 ∧ s.isHead = true ∨ lstate s k < 3 ∨ s.flag F.CAS_ID_VALID = false)) ∧
    (∃ (c : Fin 3) (s : State), nth s.est.raOpen (c.val) none = none) ∧
    (∃ (c : Fin 3) (s : State), nth s.est.raOpen (c.val) none ≠ none) ∧
    (∃ (n : Fin 4) (s : State) (dst : ℕ) (src : ℕ) (tag : ℕ) (addr : ℕ) (cmd : ℕ), s.quiet = false ∧ 3 ≤ lstate s n.val ∧ dst < 2 ^ 16 ∧ src < 2 ^ 16 ∧ tag < 256 ∧ addr < 2 ^ 32 ∧ addr % 4 = 0 ∧ (s.flag F.CAS_ID_VALID && s.devId == dst) = true ∧ cmd < 256 ∧ (cmd % 4 = 0 ∨ cmd % 4 = 3 ∨ cmd / 4 % 8 ≠ 0 ∨ 6 ≤ cmd / 32)) ∧
    (∃ (n : Fin 4) (s : State) (dst : ℕ) (src : ℕ) (tag : ℕ) (addr : ℕ) (k : ℕ) (v : ℕ), s.quiet = false ∧ 3 ≤ lstate s n.val ∧ dst < 2 ^ 16 ∧ src < 2 ^ 16 ∧ tag < 256 ∧ addr < 2 ^ 32 ∧ addr % 4 = 0 ∧ (s.flag F.CAS_ID_VALID && s.devId == dst) = true ∧ dst ≠ src ∧ routeAt s src = k ∧ (k ≠ 0 ∨ s.isHead = false) ∧ 3 ≤ lstate s k ∧ hostReadWord (113 + n.val) addr s = (v, s)) ∧
    (∃ (n : Fin 4) (s : State) (dst : ℕ) (src : ℕ) (tag : ℕ) (addr : ℕ) (c : ℕ) (v : ℕ), s.quiet = false ∧ 3 ≤ lstate s n.val ∧ dst < 2 ^ 16 ∧ src < 2 ^ 16 ∧ tag < 256 ∧ addr < 2 ^ 32 ∧ addr % 4 = 0 ∧ (s.flag F.CAS_ID_VALID && s.devId == dst) = true ∧ c < s.est.raOpen.length ∧ nth s.est.raOpen c none = some tag ∧ (∀ j < c, nth s.est.raOpen j none ≠ some tag) ∧ v < 2 ^ 32) ∧
    (∃ (n : Fin 4) (s : State) (dst : ℕ) (src : ℕ) (tag : ℕ) (addr : ℕ), s.quiet = false ∧ 3 ≤ lstate s n.val ∧ dst < 2 ^ 16 ∧ src < 2 ^ 16 ∧ tag < 256 ∧ addr < 2 ^ 32 ∧ addr % 4 = 0 ∧ (s.flag F.CAS_ID_VALID && s.devId == dst) = true ∧ (∀ (c : ℕ), nth s.est.raOpen c none ≠ some tag)) ∧
    (∃ (n : Fin 4) (s : State) (dst : ℕ) (src : ℕ) (tag : ℕ) (addr : ℕ) (k : ℕ), s.quiet = false ∧ 3 ≤ lstate s n.val ∧ dst < 2 ^ 16 ∧ src < 2 ^ 16 ∧ tag < 256 ∧ addr < 2 ^ 32 ∧ addr % 4 = 0 ∧ (s.flag F.CAS_ID_VALID && s.devId == dst) = false ∧ routeAt s dst = k ∧ (k ≠ 0 ∨ s.isHead = false) ∧ 3 ≤ lstate s k) ∧
    (∃ (n : Fin 4) (s : State) (dst : ℕ) (src : ℕ) (tag : ℕ) (addr : ℕ) (k : ℕ), s.quiet = false ∧ 3 ≤ lstate s n.val ∧ dst < 2 ^ 16 ∧ src < 2 ^ 16 ∧ tag < 256 ∧ addr < 2 ^ 32 ∧ addr % 4 = 0 ∧ (s.flag F.CAS_ID_VALID && s.devId == dst) = false ∧ routeAt s dst = 0 ∧ s.isHead = true ∧ s.devId ≠ src ∧ routeAt s src = k + 1 ∧ 3 ≤ lstate s (k + 1)) :=
  ⟨⟨0x76, 1, 0, raS, (Instr.raRead 118 0, 1), 0, by decide +kernel⟩,
    ⟨0x76, 1, 0, raBusy, (Instr.raRead 118 0, 1), by decide +kernel⟩,
    ⟨0x76, 1, 0, raSelf, (Instr.raRead 118 0, 1), 0, by decide +kernel⟩,
    ⟨0x76, 1, 0, up, (Instr.raRead 118 0, 1), 0, by decide +kernel⟩,
    ⟨1, raS, by decide +kernel⟩,
    ⟨1, raOpen1, by decide +kernel⟩,
    ⟨1, raOpen1, 7, 77, 9, 0x08000000, 0, by decide +kernel⟩,
    ⟨1, raOpen1, 7, 77, 9, 0x08000000, 1, 0, by decide +kernel⟩,
    ⟨1, raOpen1, 7, 77, 9, 0x08000000, 1, 0, by decide +kernel⟩,
    ⟨1, raOpen1, 7, 77, 8, 0x08000000, by refine ⟨?_, ?_, ?_, ?_, ?_, ?_, ?_, ?_, none_open⟩ <;> decide +kernel⟩,
    ⟨0, raOpen1, 77, 7, 9, 0x08000000, 1, by decide +kernel⟩,
    ⟨2, act 2 (headS raOpen1), 78, 77, 9, 0xFFFFFFFC, 0, by decide +kernel⟩⟩

end RemoteAccess

namespace Ports

def host (f : HostPort → HostPort) (s : State) : State := { s with host := f s.host }
def sel : State := { (host (fun h => { h with low := true }) up) with mem := [(0x08000000, 1), (0x08FFFFFF, 5)] }
def twp (f : Twp → Twp) (s : State) : State := { s with twp := f s.twp }
def st (x : TwpStage) (s : State) : State := twp (fun w => { w with stage := x, seen := [9, 8], count := 4 }) s
def pecd (s : State) : State := s.mark F.TWP_CFG_PEC
def wr : State := st .write (up.put F.TWP_STAT_ADDR 0x41)
def rdS : State := st .read up
def goodSeen (b : Byte) (s : State) : State := twp (fun w => { w with first := true, held := [⟨0, 0, 0⟩, ⟨2, 0, 0⟩, ⟨b, 0, 0⟩], seen := [0x82, 0, 2, b] }) s
def pec0 : Byte := BitVec.ofNat 8 (crc8 [0x82, 0, 2])
def entering (s : State) : State := { (s.mark F.PWR_STAT_ENTERING).setReg A.PWR_WAKE 0x20#32 with pow := { up.pow with entryMode := 2 } }
def adr : State := st .address (up.put F.TWP_STAT_ADDR 0x41)
def grd (p : Byte) : State := twp (fun w => { w with first := true, held := [⟨p, 0, 0⟩, ⟨2, 0, 0⟩] }) (pecd wr)
def ara : State := twp (fun w => { w with stage := .address, drive := true, seen := [0x19], rank := 1 }) (up.put F.TWP_STAT_ADDR 0x41)

theorem witness_HostPortCommands :
    (∃ (s : State) (a : Word) (m : ℕ) (late : Option ℕ) (d : List Byte) (i : Instr), (hostAlive s = false ∨ s.host.low = false ∨ s.host.busy = true ∨ s.host.discard = true) ∧ i ∈ [Instr.rdsr, Instr.readId, Instr.read a m late, Instr.readQ a m late, Instr.write a d, Instr.writeQ a d, Instr.enterQuad, Instr.exitQuad, Instr.resetEn, Instr.reset, Instr.badcmd]) ∧
    (∃ (s : State), s.host.partAt = none) ∧
    (∃ (s : State), (¬(bit (BitVec.toNat (s.reg A.PWR_WAKE)) 6 = true ∧ s.isHeld 117 = false ∧ (if s.flag F.PWR_STAT_ENTERING = true then s.pow.entryMode else s.pwr) = 2 ∧ s.pow.phase = Phase.up)) ∧ s.pow.phase = Phase.up) ∧
    (∃ (s : State), hostAlive s = true ∧ s.host.low = true ∧ s.host.busy = false ∧ s.host.discard = false ∧ s.host.erred = false ∧ s.host.armed = false) ∧
    (∃ (s : State), hostAlive s = true ∧ s.host.low = true ∧ s.host.busy = false ∧ s.host.discard = false ∧ s.host.erred = false ∧ s.flag F.HOST_STAT_FORM4 = false) ∧
    (∃ (s : State) (a : Word) (m : ℕ) (late : Option ℕ) (x : Instr × Bool), hostAlive s = true ∧ s.host.low = true ∧ s.host.busy = false ∧ s.host.discard = false ∧ s.host.erred = false ∧ s.host.posted = [] ∧ txnOf s 117 = none ∧ s.ledg.flips = [] ∧ (∀ i < m, inPigeon (BitVec.toNat a + i) = true ∧ maskOk s 117 (busBank (BitVec.toNat a + i)) = true) ∧ x ∈ [(Instr.read a m late, s.flag F.HOST_STAT_FORM4), (Instr.readQ a m late, true)] ∧ (∀ (l : ℕ), late = some l → m ≤ l)) ∧
    (∃ (s : State) (a : Word) (m : ℕ) (late : Option ℕ) (x : Instr × Bool) (l : ℕ), hostAlive s = true ∧ s.host.low = true ∧ s.host.busy = false ∧ s.host.discard = false ∧ s.host.erred = false ∧ s.host.posted = [] ∧ txnOf s 117 = none ∧ s.ledg.flips = [] ∧ (∀ i < m, inPigeon (BitVec.toNat a + i) = true ∧ maskOk s 117 (busBank (BitVec.toNat a + i)) = true) ∧ x ∈ [(Instr.read a m late, s.flag F.HOST_STAT_FORM4), (Instr.readQ a m late, true)] ∧ late = some l ∧ l < m ∧ s.flag F.HOST_STAT_UNDERRUN = false ∧ s.flag F.HOST_STAT_OVERRUN = false ∧ s.flag F.HOST_STAT_PARTIAL = false) ∧
    (∃ (s : State) (a : Word) (d : List Byte) (x : Instr × Bool), hostAlive s = true ∧ s.host.low = true ∧ s.host.busy = false ∧ s.host.discard = false ∧ s.host.erred = false ∧ x ∈ [(Instr.write a d, s.flag F.HOST_STAT_FORM4), (Instr.writeQ a d, true)] ∧ s.flag F.HOST_STAT_WIP = false ∧ d.length ≤ 256 ∧ (∀ i < d.length, inPigeon (BitVec.toNat a + i) = true)) ∧
    (∃ (s : State), hostAlive s = true ∧ s.host.low = true ∧ s.host.busy = false ∧ s.host.discard = false ∧ s.host.erred = false ∧ s.host.armed = true ∧ s.host.posted = []) ∧
    (∃ (s : State), hostAlive s = true ∧ s.host.low = true ∧ s.host.busy = false ∧ s.host.discard = false ∧ s.host.erred = false ∧ s.flag F.HOST_STAT_FORM4 = true) ∧
    (∃ (s : State) (a : Word) (d : List Byte) (x : Instr × Bool), hostAlive s = true ∧ s.host.low = true ∧ s.host.busy = false ∧ s.host.discard = false ∧ s.host.erred = false ∧ x ∈ [(Instr.write a d, s.flag F.HOST_STAT_FORM4), (Instr.writeQ a d, true)] ∧ s.flag F.HOST_STAT_WIP = true) ∧
    (∃ (s : State) (a : Word) (d : List Byte) (x : Instr × Bool), hostAlive s = true ∧ s.host.low = true ∧ s.host.busy = false ∧ s.host.discard = false ∧ s.host.erred = false ∧ x ∈ [(Instr.write a d, s.flag F.HOST_STAT_FORM4), (Instr.writeQ a d, true)] ∧ s.flag F.HOST_STAT_WIP = false ∧ d.length = 4 ∧ 268435456 ≤ BitVec.toNat a ∧ BitVec.toNat a % 4 = 0) ∧
    (∃ (s : State) (a : Word) (d : List Byte) (x : Instr × Bool), hostAlive s = true ∧ s.host.low = true ∧ s.host.busy = false ∧ s.host.discard = false ∧ s.host.erred = false ∧ x ∈ [(Instr.write a d, s.flag F.HOST_STAT_FORM4), (Instr.writeQ a d, true)] ∧ s.flag F.HOST_STAT_WIP = false ∧ 1 ≤ d.length ∧ d.length ≤ 3 ∧ 268435456 ≤ BitVec.toNat a ∧ BitVec.toNat a % 4 = 0) ∧
    (∃ (s : State) (a : ℕ), s.host.partAt = some a ∧ a < 2 ^ 32 ∧ s.flag F.HOST_STAT_UNDERRUN = false ∧ s.flag F.HOST_STAT_OVERRUN = false ∧ s.flag F.HOST_STAT_PARTIAL = false) ∧
    (∃ (s : State) (a : ℕ) (b : Byte) (q : List Posted), s.host.posted = Posted.byte a b :: q ∧ s.pow.phase = Phase.up ∧ inPigeon a = true ∧ maskOk s 117 (busBank a) = true ∧ s.flag F.SYS_RMAP_STAT_BUSY = false) ∧
    (∃ (s : State) (a : Word) (d : List Byte) (x : Instr × Bool), hostAlive s = true ∧ s.host.low = true ∧ s.host.busy = false ∧ s.host.discard = false ∧ s.host.erred = false ∧ x ∈ [(Instr.write a d, s.flag F.HOST_STAT_FORM4), (Instr.writeQ a d, true)] ∧ s.flag F.HOST_STAT_WIP = false ∧ 256 < d.length ∧ 268435456 ≤ BitVec.toNat a ∧ BitVec.toNat a % 4 ≠ 0 ∧ BitVec.toNat a + 256 < 2 ^ 32 ∧ s.flag F.HOST_STAT_UNDERRUN = false ∧ s.flag F.HOST_STAT_OVERRUN = false ∧ s.flag F.HOST_STAT_PARTIAL = false) ∧
    (∃ (s : State), (bit (BitVec.toNat (s.reg A.PWR_WAKE)) 6 = true ∧ s.isHeld 117 = false ∧ (if s.flag F.PWR_STAT_ENTERING = true then s.pow.entryMode else s.pwr) = 2 ∧ s.pow.phase = Phase.up)) :=
  ⟨⟨up, 0#32, 3, none, [1#8], Instr.rdsr, by decide +kernel⟩,
    ⟨up, by decide +kernel⟩,
    ⟨up, by decide +kernel⟩,
    ⟨sel, by decide +kernel⟩,
    ⟨sel, by decide +kernel⟩,
    ⟨sel, 0x08000000#32, 0, none, (Instr.read (134217728#32) 0 none, sel.flag F.HOST_STAT_FORM4), by decide +kernel⟩,
    ⟨sel, 0x08000000#32, 4, some 2, (Instr.read (134217728#32) 4 (some 2), sel.flag F.HOST_STAT_FORM4), 2, by decide +kernel⟩,
    ⟨sel, 0x08000000#32, [1,2,3,4], (Instr.write 134217728#32 [1, 2, 3, 4], sel.flag F.HOST_STAT_FORM4), by decide +kernel⟩,
    ⟨host (fun h => { h with armed := true }) sel, by decide +kernel⟩,
    ⟨sel.mark F.HOST_STAT_FORM4, by decide +kernel⟩,
    ⟨sel.mark F.HOST_STAT_WIP, 0x08000000#32, [1,2,3,4], (Instr.write 134217728#32 [1, 2, 3, 4], (sel.mark F.HOST_STAT_WIP).flag F.HOST_STAT_FORM4), by decide +kernel⟩,
    ⟨sel, 0x10100010#32, [1,2,3,4], (Instr.write 269484048#32 [1, 2, 3, 4], sel.flag F.HOST_STAT_FORM4), by decide +kernel⟩,
    ⟨sel, 0x10100010#32, [1], (Instr.write 269484048#32 [1], sel.flag F.HOST_STAT_FORM4), by decide +kernel⟩,
    ⟨host (fun h => { h with partAt := some 0x10000004 }) sel, 0x10000004, by decide +kernel⟩,
    ⟨host (fun h => { h with posted := [.byte 0x08000001 3, .byte 5 5]}) sel, 0x08000001, 3#8, [.byte 5 5], by decide +kernel⟩,
    ⟨sel, 0x10000011#32, List.replicate 300 3, (Instr.write (268435473#32) (List.replicate 300 3), sel.flag F.HOST_STAT_FORM4), by decide +kernel⟩,
    ⟨(up.setReg A.PWR_WAKE 0x40#32).put F.PWR_STAT_STATE 2, by decide +kernel⟩⟩

theorem witness_ManagementPortTransactions :
    (∃ (s : State) (b : Byte) (ready : Bool) (ack : Bool) (m : Bool) (i : Instr), (s.twp.stretch = true ∨ twpAlive s = false ∧ twpWatches s = false) ∧ i ∈ [Instr.twpStart m, Instr.twpAddress b, Instr.twpWriteByte b, Instr.twpReadByte ready ack, Instr.twpStop m]) ∧
    (∃ (s : State), twpAlive s = true ∧ s.twp.stretch = false ∧ s.twp.staged = [] ∧ s.twp.word = [] ∧ (s.twp.stage ≠ TwpStage.write ∨ s.twp.held = [])) ∧
    (∃ (s : State), twpAlive s = true ∧ s.twp.stretch = false ∧ s.twp.staged = [] ∧ s.twp.word = [] ∧ (s.twp.stage = TwpStage.idle ∨ s.twp.stage = TwpStage.lost)) ∧
    (∃ (s : State), twpAlive s = true ∧ s.twp.stretch = false ∧ s.twp.staged = [] ∧ s.twp.word = [] ∧ (s.twp.stage = TwpStage.write ∨ s.twp.stage = TwpStage.read ∨ s.twp.stage = TwpStage.address)) ∧
    (∃ (s : State), twpAlive s = true ∧ s.twp.stretch = false ∧ s.twp.staged = [] ∧ s.twp.word = [] ∧ s.twp.stage ≠ TwpStage.idle ∧ s.twp.stage ≠ TwpStage.lost) ∧
    (∃ (s : State) (b : Byte), twpAlive s = true ∧ s.twp.stretch = false ∧ s.twp.staged = [] ∧ s.twp.word = [] ∧ s.twp.stage = TwpStage.address ∧ (¬(s.flag F.PWR_STAT_ENTERING = true ∧ s.pow.entryMode = 2 ∧ bit (BitVec.toNat (s.reg A.PWR_WAKE)) 5 = true ∧ s.pow.phase = Phase.up)) ∧ s.pow.phase = Phase.up ∧ BitVec.toNat b = 2 * s.get F.TWP_STAT_ADDR) ∧
    (∃ (s : State) (b : Byte), twpAlive s = true ∧ s.twp.stretch = false ∧ s.twp.staged = [] ∧ s.twp.word = [] ∧ s.twp.stage = TwpStage.address ∧ BitVec.toNat b / 2 ≠ s.get F.TWP_STAT_ADDR ∧ (b ≠ 25#8 ∨ s.twp.drive = false)) ∧
    (∃ (s : State) (b : Byte), twpAlive s = true ∧ s.twp.stretch = false ∧ s.twp.staged = [] ∧ s.twp.word = [] ∧ s.twp.stage = TwpStage.address ∧ (¬(s.flag F.PWR_STAT_ENTERING = true ∧ s.pow.entryMode = 2 ∧ bit (BitVec.toNat (s.reg A.PWR_WAKE)) 5 = true ∧ s.pow.phase = Phase.up)) ∧ s.pow.phase = Phase.up ∧ BitVec.toNat b = 2 * s.get F.TWP_STAT_ADDR + 1 ∧ s.get F.TWP_PAGE_PAGE = 0 ∧ s.twp.ptr = 8 ∧ s.twp.latchAt = none) ∧
    (∃ (s : State) (b : Byte), twpAlive s = true ∧ s.twp.stretch = false ∧ s.twp.staged = [] ∧ s.twp.word = [] ∧ s.twp.stage = TwpStage.write ∧ s.flag F.TWP_CFG_PEC = false ∧ s.twp.first = false ∧ s.twp.ptr = 0 ∧ BitVec.toNat b < 3) ∧
    (∃ (s : State), twpAlive s = true ∧ s.twp.stretch = false ∧ s.twp.staged = [] ∧ s.twp.word = [] ∧ s.twp.stage = TwpStage.write ∧ s.flag F.TWP_CFG_PEC = true) ∧
    (∃ (s : State), twpAlive s = true ∧ s.twp.stretch = false ∧ s.twp.staged = [] ∧ s.twp.word = [] ∧ s.twp.stage = TwpStage.write ∧ s.flag F.TWP_CFG_PEC = false ∧ s.twp.first = true) ∧
    (∃ (s : State) (v : Byte) (c : Byte), twpAlive s = true ∧ s.twp.stretch = false ∧ s.twp.staged = [] ∧ s.twp.word = [] ∧ s.twp.stage = TwpStage.write ∧ s.twp.first = true ∧ s.twp.held = [(fun (b : Byte) => { data := b, base := s.get F.TWP_WBASE_BASE, page := s.get F.TWP_PAGE_PAGE }) 0#8, (fun (b : Byte) => { data := b, base := s.get F.TWP_WBASE_BASE, page := s.get F.TWP_PAGE_PAGE }) v, (fun (b : Byte) => { data := b, base := s.get F.TWP_WBASE_BASE, page := s.get F.TWP_PAGE_PAGE }) c] ∧ BitVec.toNat v < 3 ∧ crc8 s.twp.seen = 0) ∧
    (∃ (s : State) (v : Byte) (c : Byte), twpAlive s = true ∧ s.twp.stretch = false ∧ s.twp.staged = [] ∧ s.twp.word = [] ∧ s.twp.stage = TwpStage.write ∧ s.twp.first = true ∧ s.twp.held = [(fun (b : Byte) => { data := b, base := s.get F.TWP_WBASE_BASE, page := s.get F.TWP_PAGE_PAGE }) 0#8, (fun (b : Byte) => { data := b, base := s.get F.TWP_WBASE_BASE, page := s.get F.TWP_PAGE_PAGE }) v, (fun (b : Byte) => { data := b, base := s.get F.TWP_WBASE_BASE, page := s.get F.TWP_PAGE_PAGE }) c] ∧ BitVec.toNat v < 3 ∧ crc8 s.twp.seen ≠ 0) ∧
    (∃ (s : State) (p : Byte) (v : Byte), twpAlive s = true ∧ s.twp.stretch = false ∧ s.twp.staged = [] ∧ s.twp.word = [] ∧ s.twp.stage = TwpStage.write ∧ s.twp.first = true ∧ s.twp.held = [(fun (b : Byte) => { data := b, base := s.get F.TWP_WBASE_BASE, page := s.get F.TWP_PAGE_PAGE }) p, (fun (b : Byte) => { data := b, base := s.get F.TWP_WBASE_BASE, page := s.get F.TWP_PAGE_PAGE }) v] ∧ s.get F.TWP_PAGE_PAGE = 0 ∧ 4 ≤ BitVec.toNat p ∧ BitVec.toNat p < 8) ∧
    (∃ (s : State) (b : Byte), twpAlive s = true ∧ s.twp.stretch = false ∧ s.twp.staged = [] ∧ s.twp.word = [] ∧ s.twp.stage = TwpStage.address ∧ (s.flag F.PWR_STAT_ENTERING = true ∧ s.pow.entryMode = 2 ∧ bit (BitVec.toNat (s.reg A.PWR_WAKE)) 5 = true ∧ s.pow.phase = Phase.up) ∧ BitVec.toNat b = 2 * s.get F.TWP_STAT_ADDR) ∧
    (∃ (s : State), twpAlive s = true ∧ s.twp.stretch = false ∧ s.twp.staged = [] ∧ s.twp.word = [] ∧ s.twp.stage = TwpStage.read ∧ (s.flag F.TWP_CFG_PEC && s.twp.count == s.get F.TWP_CFG_RDLEN) = true) ∧
    (∃ (s : State) (ready : Bool) (key : ℕ), twpAlive s = true ∧ s.twp.stretch = false ∧ s.twp.staged = [] ∧ s.twp.word = [] ∧ s.twp.stage = TwpStage.read ∧ (s.flag F.TWP_CFG_PEC && s.twp.count == s.get F.TWP_CFG_RDLEN) = false ∧ (ready = true ∨ s.flag F.TWP_CFG_STRETCH = true) ∧ s.get F.TWP_PAGE_PAGE = 0 ∧ key = 2 ^ 33 + s.twp.ptr / 4 ∧ s.twp.latchAt = some key) ∧
    (∃ (s : State) (ready : Bool), twpAlive s = true ∧ s.twp.stretch = false ∧ s.twp.staged = [] ∧ s.twp.word = [] ∧ s.twp.stage = TwpStage.read ∧ (s.flag F.TWP_CFG_PEC && s.twp.count == s.get F.TWP_CFG_RDLEN) = false ∧ ready = false ∧ s.flag F.TWP_CFG_STRETCH = false) ∧
    (∃ (s : State) (o : List (Byte × Byte)), twpAlive s = true ∧ s.twp.stretch = false ∧ s.twp.staged = [] ∧ s.twp.word = [] ∧ s.twp.stage = TwpStage.address ∧ s.twp.drive = true ∧ s.twp.seen.getLast? = some 25#8 ∧ (∀ x ∈ o, if s.flag F.TWP_ALERT_PRIO_MODE = true ∧ BitVec.ofNat 8 (255 - (s.twp.rank * 64 + s.get F.TWP_ALERT_PRIO)) ≠ x.1 then (BitVec.ofNat 8 (255 - (s.twp.rank * 64 + s.get F.TWP_ALERT_PRIO))).toNat < BitVec.toNat x.1 else (BitVec.ofNat 8 (2 * s.get F.TWP_STAT_ADDR)).toNat ≤ BitVec.toNat x.2)) ∧
    (∃ (s : State) (o : List (Byte × Byte)), twpAlive s = true ∧ s.twp.stretch = false ∧ s.twp.staged = [] ∧ s.twp.word = [] ∧ s.twp.stage = TwpStage.address ∧ s.twp.drive = true ∧ s.twp.seen.getLast? = some 25#8 ∧ (¬∀ x ∈ o, if s.flag F.TWP_ALERT_PRIO_MODE = true ∧ BitVec.ofNat 8 (255 - (s.twp.rank * 64 + s.get F.TWP_ALERT_PRIO)) ≠ x.1 then (BitVec.ofNat 8 (255 - (s.twp.rank * 64 + s.get F.TWP_ALERT_PRIO))).toNat < BitVec.toNat x.1 else (BitVec.ofNat 8 (2 * s.get F.TWP_STAT_ADDR)).toNat ≤ BitVec.toNat x.2)) :=
  ⟨⟨twp (fun w => { w with stretch := true }) up, 3#8, true, true, false, Instr.twpStart false, by decide +kernel⟩,
    ⟨up, by decide +kernel⟩,
    ⟨up, by decide +kernel⟩,
    ⟨st .write up, by decide +kernel⟩,
    ⟨st .write up, by decide +kernel⟩,
    ⟨st .address (up.put F.TWP_STAT_ADDR 0x41), 0x82#8, by decide +kernel⟩,
    ⟨st .address (up.put F.TWP_STAT_ADDR 0x41), 0x19#8, by decide +kernel⟩,
    ⟨twp (fun w => { w with ptr := 8 }) (st .address (up.put F.TWP_STAT_ADDR 0x41)), 0x83#8, by decide +kernel⟩,
    ⟨wr, 2#8, by decide +kernel⟩,
    ⟨pecd wr, by decide +kernel⟩,
    ⟨twp (fun w => { w with first := true }) wr, by decide +kernel⟩,
    ⟨goodSeen pec0 (pecd wr), 2#8, pec0, by decide +kernel⟩,
    ⟨goodSeen 1 (pecd wr), 2#8, 1#8, by decide +kernel⟩,
    ⟨grd 5, 5#8, 2#8, by decide +kernel⟩,
    ⟨entering adr, 0x82#8, by decide +kernel⟩,
    ⟨(pecd rdS).put F.TWP_CFG_RDLEN 4, by decide +kernel⟩,
    ⟨twp (fun w => { w with latchAt := some (2^33 + 63), latch := [1,2,3,4], ptr := 255 }) rdS, true, 2^33+63, by decide +kernel⟩,
    ⟨rdS.put F.TWP_CFG_STRETCH 0, false, by decide +kernel⟩,
    ⟨ara, [], by refine ⟨?_, ?_, ?_, ?_, ?_, ?_, ?_, by simp⟩ <;> decide +kernel⟩,
    ⟨ara, [(0x10, 0x20)], by decide +kernel, by decide +kernel, by decide +kernel, by decide +kernel, by decide +kernel, by decide +kernel, by decide +kernel, fun h => absurd (h _ (List.mem_singleton.2 rfl)) (by decide +kernel)⟩⟩

end Ports

namespace Timers

def tu (f : TimerUnit → TimerUnit) (s : State) : State := { s with tmr := { s.tmr with units := upd s.tmr.units 15 f } }
def cfgT (a : Nat) (m : Nat) (s : State) : State := ((((s.put (F.TMR_CHCFG_MODEA 15) m).put (F.TMR_CHCFG_ACTA 15) a).put (F.TMR_CHCFG_WACTA 15) a).mark (F.TMR_CTRL_RUN 15)).put (F.TMR_COUNT_COUNT 15) 5
def tm (a : Nat) : State := tu (fun x => { x with residue := 3, top := 100, cmpA := 7, cmpB := 200 }) (cfgT a 1 { up with tb := 2^50, rmap := { up.rmap with pins := [0, 0, 0, 0x40#8] } })
def cap (a : Nat) : State := cfgT a 2 (tm 0)
def pre (s : State) : State := ((s.put (F.TMR_TOP_TOP 15) 90).put (F.TMR_CMPA_CMP 15) 20).put (F.TMR_CMPB_CMP 15) 30

theorem witness_TimersRunMatchAndCapture :
    (∃ (u : Fin 16) (b : Bool) (s : State), u.val < s.tmr.units.length ∧ s.flag (F.TMR_CTRL_RUN u.val) = true ∧ (s.get (F.TMR_COUNT_COUNT u.val) < if b = true then (s.timer u.val).cmpB else (s.timer u.val).cmpA) ∧ (if b = true then (s.timer u.val).cmpB else (s.timer u.val).cmpA) ≤ (s.timer u.val).top ∧ (if b = true then (s.timer u.val).cmpB else (s.timer u.val).cmpA) < 2 ^ 32 ∧ ((if b = true then (s.timer u.val).cmpA else (s.timer u.val).cmpB) ≤ s.get (F.TMR_COUNT_COUNT u.val) ∨ (if b = true then (s.timer u.val).cmpB else (s.timer u.val).cmpA) < if b = true then (s.timer u.val).cmpA else (s.timer u.val).cmpB) ∧ bit (s.get (F.TMR_CTRL_EVEN u.val)) (b2n b) = false) ∧
    (∃ (u : Fin 16) (b : Bool) (s : State), u.val < s.tmr.units.length ∧ pinGiven s (2 * u.val + b2n b) = true ∧ (tmrMode s (u.val) b = 2 ∧ s.get (if b = true then F.TMR_CHCFG_FILTB u.val else F.TMR_CHCFG_FILTA u.val) ≠ 0)) ∧
    (∃ (u : Fin 16) (b : Bool) (s : State), u.val < s.tmr.units.length ∧ (s.flag (F.TMR_CTRL_RUN u.val) = false ∨ (if b = true then (s.timer u.val).cmpB else (s.timer u.val).cmpA) ≤ min (s.get (F.TMR_COUNT_COUNT u.val)) (s.timer u.val).top ∨ (s.timer u.val).top < if b = true then (s.timer u.val).cmpB else (s.timer u.val).cmpA)) ∧
    (∃ (u : Fin 16) (b : Bool) (s : State), u.val < s.tmr.units.length ∧ ¬pinGiven s (2 * u.val + b2n b) = true) ∧
    (∃ (u : Fin 16) (b : Bool) (s : State) (w : Fin 256), u.val < s.tmr.units.length ∧ reaches (w.val) (if b = true then F.TMR_CAPB_CAP u.val else F.TMR_CAPA_CAP u.val).addr false s = true) ∧
    (∃ (u : Fin 16) (s : State) (w : Fin 256) (p : Preload) (v : Word), u.val < s.tmr.units.length ∧ Accepts w (preloadAddr (u.val) p) v s) ∧
    (∃ (u : Fin 16) (b : Bool) (s : State) (w : Fin 256), u.val < s.tmr.units.length ∧ Accepts w (A.TMR_CMD u.val) (if b = true then 2 else 1) s ∧ (s.flag (F.TMR_CTRL_RUN u.val) = false ∨ s.get (if b = true then F.TMR_CMPB_CMP u.val else F.TMR_CMPA_CMP u.val) ≠ s.get (F.TMR_COUNT_COUNT u.val))) ∧
    (∃ (u : Fin 16) (b : Bool) (s : State) (w : Fin 256) (code : Fin 4), u.val < s.tmr.units.length ∧ (Accepts w (A.TMR_CMD u.val) (BitVec.ofNat 32 (code.val * if b = true then 64 else 16)) s)) ∧
    (∃ (u : Fin 16) (s : State) (w : Fin 256) (ctrl : ℕ), u.val < s.tmr.units.length ∧ ctrl = BitVec.toNat (s.reg (A.TMR_CTRL u.val)) ∧ s.flag (F.TMR_CTRL_RUN u.val) = false ∧ Accepts w (A.TMR_CTRL u.val) (BitVec.ofNat 32 (setBits ctrl 0 1 1)) s) ∧
    (∃ (u : Fin 16) (s : State) (w : Fin 256) (ctrl : ℕ), u.val < s.tmr.units.length ∧ ctrl = BitVec.toNat (s.reg (A.TMR_CTRL u.val)) ∧ s.flag (F.TMR_CTRL_RUN u.val) = true ∧ Accepts w (A.TMR_CTRL u.val) (BitVec.ofNat 32 (setBits ctrl 0 1 0)) s) ∧
    (∃ (u : Fin 16) (b : Bool) (s : State) (rising : Bool), u.val < s.tmr.units.length ∧ pinGiven s (2 * u.val + b2n b) = true ∧ (¬(tmrMode s (u.val) b = 2 ∧ s.get (if b = true then F.TMR_CHCFG_FILTB u.val else F.TMR_CHCFG_FILTA u.val) ≠ 0)) ∧ (tmrMode s (u.val) b ≠ 2 ∨ s.flag (F.TMR_CTRL_RUN u.val) = false ∨ bit (tmrAct s (u.val) b) (if rising = true then 0 else 1) = false)) ∧
    (∃ (u : Fin 16) (b : Bool) (s : State) (k : Core), u.val < s.tmr.units.length ∧ s.flag (F.TMR_CTRL_RUN u.val) = true ∧ (s.get (F.TMR_COUNT_COUNT u.val) < if b = true then (s.timer u.val).cmpB else (s.timer u.val).cmpA) ∧ (if b = true then (s.timer u.val).cmpB else (s.timer u.val).cmpA) ≤ (s.timer u.val).top ∧ (if b = true then (s.timer u.val).cmpB else (s.timer u.val).cmpA) < 2 ^ 32 ∧ ((if b = true then (s.timer u.val).cmpA else (s.timer u.val).cmpB) ≤ s.get (F.TMR_COUNT_COUNT u.val) ∨ (if b = true then (s.timer u.val).cmpB else (s.timer u.val).cmpA) < if b = true then (s.timer u.val).cmpA else (s.timer u.val).cmpB) ∧ bit (s.get (F.TMR_CTRL_EVEN u.val)) (b2n b) = true ∧ Listens s k) ∧
    (∃ (u : Fin 16) (b : Bool) (s : State), u.val < s.tmr.units.length ∧ s.flag (F.TMR_CTRL_RUN u.val) = true ∧ s.get (F.TMR_COUNT_COUNT u.val) ≤ (s.timer u.val).top ∧ (tmrMode s u.val !b) ≠ 1 ∧ (((s.timer u.val).top < if b = true then (s.timer u.val).cmpB else (s.timer u.val).cmpA) ∨ (if b = true then (s.timer u.val).cmpB else (s.timer u.val).cmpA) ≤ s.get (F.TMR_COUNT_COUNT u.val)) ∧ (((s.timer u.val).top < if b = true then (s.timer u.val).cmpA else (s.timer u.val).cmpB) ∨ (if b = true then (s.timer u.val).cmpA else (s.timer u.val).cmpB) ≤ s.get (F.TMR_COUNT_COUNT u.val)) ∧ bit (s.get (F.TMR_CTRL_EVEN u.val)) 5 = false ∧ bit (s.get F.PWR_TWAKE_UNITS) u.val = false ∧ s.get (F.TMR_CMPB_CMP u.val) ≠ 0 ∧ s.get (F.TMR_CMPA_CMP u.val) ≠ 0) ∧
    (∃ (u : Fin 16) (b : Bool) (s : State) (rising : Bool), u.val < s.tmr.units.length ∧ pinGiven s (2 * u.val + b2n b) = true ∧ (¬(tmrMode s (u.val) b = 2 ∧ s.get (if b = true then F.TMR_CHCFG_FILTB u.val else F.TMR_CHCFG_FILTA u.val) ≠ 0)) ∧ tmrMode s (u.val) b = 2 ∧ s.flag (F.TMR_CTRL_RUN u.val) = true ∧ bit (tmrAct s (u.val) b) (if rising = true then 0 else 1) = true ∧ bit (s.get (F.TMR_CTRL_EVEN u.val)) 4 = false ∧ bit (s.get (F.TMR_CTRL_EVEN u.val)) (2 + b2n b) = false) ∧
    (∃ (u : Fin 16) (b : Bool) (s : State) (rising : Bool) (k : Core), u.val < s.tmr.units.length ∧ pinGiven s (2 * u.val + b2n b) = true ∧ (¬(tmrMode s (u.val) b = 2 ∧ s.get (if b = true then F.TMR_CHCFG_FILTB u.val else F.TMR_CHCFG_FILTA u.val) ≠ 0)) ∧ tmrMode s (u.val) b = 2 ∧ s.flag (F.TMR_CTRL_RUN u.val) = true ∧ bit (tmrAct s (u.val) b) (if rising = true then 0 else 1) = true ∧ bit (s.get (F.TMR_CTRL_EVEN u.val)) 4 = false ∧ bit (s.get (F.TMR_CTRL_EVEN u.val)) (2 + b2n b) = true ∧ Listens s k) ∧
    (∃ (u : Fin 16) (b : Bool) (s : State) (w : Fin 256), u.val < s.tmr.units.length ∧ Accepts w (A.TMR_CMD u.val) (if b = true then 2 else 1) s ∧ s.flag (F.TMR_CTRL_RUN u.val) = true ∧ s.get (if b = true then F.TMR_CMPB_CMP u.val else F.TMR_CMPA_CMP u.val) = s.get (F.TMR_COUNT_COUNT u.val) ∧ s.get (F.TMR_COUNT_COUNT u.val) ≤ (s.timer u.val).top ∧ bit (s.get (F.TMR_CTRL_EVEN u.val)) (b2n b) = false) :=
  ⟨⟨15, false, (cap 1).put (F.TMR_CHCFG_FILTA 15) 3, by decide +kernel⟩,
    ⟨15, false, (cap 1).put (F.TMR_CHCFG_FILTA 15) 3, by decide +kernel⟩,
    ⟨15, true, up, by decide +kernel⟩,
    ⟨15, true, up, by decide +kernel⟩,
    ⟨15, true, up, 0x75, by decide +kernel⟩,
    ⟨15, up, 0x75, .top, 7#32, by decide +kernel⟩,
    ⟨15, true, up, 0x75, by decide +kernel⟩,
    ⟨15, true, up, 0x75, 0, by decide +kernel⟩,
    ⟨15, up, 0x75, BitVec.toNat (up.reg (A.TMR_CTRL 15)), by decide +kernel⟩,
    ⟨15, tm 1, 0x75, BitVec.toNat ((tm 1).reg (A.TMR_CTRL 15)), by decide +kernel⟩,
    ⟨15, false, tm 1, true, by decide +kernel⟩,
    ⟨15, false, (tm 1).put (F.TMR_CTRL_EVEN 15) 0x3F, the idleCore (((tm 1).put (F.TMR_CTRL_EVEN 15) 0x3F).core 0), by decide +kernel⟩,
    ⟨15, false, tu (fun x => { x with cmpA := 200 }) (pre (tm 1)), by decide +kernel⟩,
    ⟨15, false, cap 1, true, by decide +kernel⟩,
    ⟨15, false, (cap 1).put (F.TMR_CTRL_EVEN 15) 4, true, the idleCore (((cap 1).put (F.TMR_CTRL_EVEN 15) 4).core 0), by decide +kernel⟩,
    ⟨15, false, (tm 2).put (F.TMR_CMPA_CMP 15) 5, 0, by decide +kernel⟩⟩

end Timers

namespace StartUp

def atp (p : Phase) (s : State := State.reset) : State := { s with pow := { s.pow with phase := p } }
def cold : State := State.reset
def secB (t i : Nat) (b : List Byte) : List Byte := leBytes 1 t ++ [0#8] ++ leBytes 2 i ++ leBytes 4 b.length ++ leBytes 4 (crc32 b) ++ leBytes 4 0 ++ b
def envB (ver : Nat) (secs : List (List Byte)) : List Byte :=
  let body := secs.flatten
  let h := leBytes 4 0x4D525843 ++ leBytes 2 1 ++ [1#8, 0#8] ++ leBytes 4 ver ++ leBytes 4 (64 + body.length + 4) ++ leBytes 2 secs.length ++ leBytes 2 0 ++ leBytes 2 0x9620 ++ [0#8, 0#8] ++ leBytes 4 0 ++ leBytes 4 0 ++ List.replicate 28 0#8
  let e := h ++ leBytes 4 (crc32 h) ++ body
  e ++ leBytes 4 (crc32 e)
def afterOk (s : State) : State := { ((s.mark F.PWR_STAT_LOGIC_OK).put F.PWR_STAT_STATE 0) with pow := { s.pow with phase := .up } }
def wantT (s : State) : State := { s with pow := { s.pow with tbDue := true } }
def image1 : List Byte := envB 7 [secB 1 0 (List.replicate 8 0#8), secB 5 0 (List.replicate 8 0#8), secB 0x11 0 [1#8, 0x5A#8, 7#8, 0#8, 0x90#8, 1#8, 0#8, 0#8]]
def img1 (s : State) : State := putBytes 0x05800000 image1 ((atp .logic s).put F.SYS_RMAP_BOOT_STRAPS 3)

theorem witness_StartUpStages :
    (∃ (s : State) (boot : Fin 8) (head : Bool) (standby : Bool) (a0 : Fin 3) (a1 : Fin 3) (a2 : Fin 3) (i : Instr), (i = Instr.powerUp ∧ s.pow.phase ≠ Phase.coldHold ∨ i = Instr.regulatorReady ∧ (s.pow.phase ≠ Phase.regulator ∨ s.pow.missed = true) ∨ i = Instr.oscillatorReady ∧ (s.pow.phase ≠ Phase.oscillator ∨ s.pow.missed = true) ∨ i = Instr.strapSample boot head standby a0 a1 a2 ∧ s.pow.phase ≠ Phase.straps ∨ i = Instr.memoryReady ∧ (s.pow.phase ≠ Phase.memory ∨ s.pow.missed = true) ∨ i = Instr.systemRecordsReady ∧ (s.pow.phase ≠ Phase.records ∨ s.pow.missed = true) ∨ i = Instr.logicReady ∧ (s.pow.phase ≠ Phase.logic ∨ s.pow.missed = true) ∨ i = Instr.xloStable ∧ s.pow.phase = Phase.coldHold ∨ i = Instr.powerStageTimeout ∧ (s.pow.phase = Phase.coldHold ∨ s.pow.phase = Phase.resetHold ∨ s.pow.phase = Phase.up ∨ s.pow.missed = true))) ∧
    (∃ (s : State) (b : Bool) (u : State), s.pow.phase = Phase.logic ∧ (s.pow.start = StartKind.cold ∨ s.pow.start = StartKind.warm) ∧ s.pow.missed = false ∧ s.flag F.SYS_STRAP_ROLE_BAD = false ∧ (s.get F.SYS_RMAP_BOOT_STRAPS = if b = true then 4 else 3) ∧ s.rmap.routes = [] ∧ u = { ((s.mark F.PWR_STAT_LOGIC_OK).put F.PWR_STAT_STATE 0) with pow := { s.pow with phase := Phase.up } } ∧ (∀ x ∈ envSections u (slotEnv b), x.typ ≤ 9 ∨ x.typ = 17)) ∧
    (∃ (s : State), s.pow.phase ≠ Phase.coldHold) ∧
    (∃ (s : State), s.pow.phase = Phase.coldHold) ∧
    (∃ (s : State), s.pow.phase = Phase.regulator ∧ s.pow.missed = false) ∧
    (∃ (s : State) (code : ℕ), (s.pow.phase = Phase.regulator ∧ code = 1 ∨ s.pow.phase = Phase.oscillator ∧ code = 2 ∨ (s.pow.phase = Phase.straps ∨ s.pow.phase = Phase.memory) ∧ code = 3 ∨ (s.pow.phase = Phase.records ∨ s.pow.phase = Phase.logic) ∧ code = 4) ∧ s.pow.missed = false ∧ s.pow.start ≠ StartKind.hush ∧ priValid s 124 = false ∧ s.flt.dayQ.length < 32) ∧
    (∃ (s : State), s.pow.phase = Phase.oscillator ∧ s.pow.missed = false) ∧
    (∃ (s : State), s.pow.phase = Phase.straps) ∧
    (∃ (s : State), s.pow.phase = Phase.memory ∧ (s.pow.start = StartKind.cold ∨ s.pow.start = StartKind.warm) ∧ s.pow.missed = false ∧ s.Inv ∧ s.ledg.flips = [] ∧ unretired [] (List.map (fun (x : ℕ × JrnlEntry) => x.2) (journalInOrder s)) = [] ∧ movesOpen (List.map (fun (x : ℕ × JrnlEntry) => x.2) (journalInOrder s)) = []) ∧
    (∃ (s : State), s.pow.phase = Phase.records ∧ s.pow.missed = false ∧ s.recs.flush = none ∧ s.isHead = false ∧ s.ledg.flips = []) ∧
    (∃ (s : State), s.pow.phase = Phase.logic ∧ (s.pow.start = StartKind.cold ∨ s.pow.start = StartKind.warm) ∧ s.pow.missed = false ∧ s.flag F.SYS_STRAP_ROLE_BAD = true ∧ s.get F.SYS_RMAP_BOOT_STRAPS < 6) :=
  ⟨⟨img1 State.reset, 3, true, false, 1, 2, 2, .powerUp, by decide +kernel⟩,
    ⟨img1 State.reset, false, afterOk (img1 State.reset), by decide +kernel⟩,
    ⟨img1 State.reset, by decide +kernel⟩,
    ⟨cold, by decide +kernel⟩,
    ⟨atp .regulator, by decide +kernel⟩,
    ⟨atp .regulator, 1, by decide +kernel⟩,
    ⟨wantT { atp .oscillator with tb := 2^60 }, by decide +kernel⟩,
    ⟨atp .straps, by decide +kernel⟩,
    ⟨atp .memory, by decide +kernel⟩,
    ⟨atp .records, by decide +kernel⟩,
    ⟨({ ((atp .logic).mark F.SYS_STRAP_ROLE_BAD) with tb := 2^60 } : State), by decide +kernel⟩⟩

end StartUp

namespace Resets

def atp (p : Phase) (s : State := State.reset) : State := { s with pow := { s.pow with phase := p } }
def lowP (s : State) : State := { s with pow := { s.pow with pfailLow := true } }
def busy : State := ((({ up with tb := 2^60, pending := [.powerUp], tap := { up.tap with ir := 3 } }).put F.LEDG_WEAR_SPARES 1000).put F.DLF_CNT_FLUSHES 7).setByte 0x10110003 3#8
def safeS : State := ((busy.put F.SYS_FAULT_SAFE 1).mark F.DLF_STAT_FROZEN)
def ver (l : List Verify) (s : State) : State := { s with ledg := { s.ledg with verify := l } }
def rung (f : FlushThen) : State := { ((((busy.put (F.ARB_MASK_BANKS 0x7F) 0xFFFFFF).mark F.DLF_STAT_FROZEN).mark F.DLF_STAT_FLUSHING).setByte (0x10100000 + 0x1000000 + 5) 9#8) with parts := [⟨5, 0xFF, 0x08010000, 0x20000, 0⟩], pow := { busy.pow with flush := f } }
def railDown (s : State) : State := { s with pow := { s.pow with railLow := true } }

theorem witness_ResetsAndPowerFailure :
    (∃ (s : State), (∀ q ∈ s.ledg.bufs, q = []) ∧ (∀ x ∈ s.ledg.txns, x.phase ≠ TxnPhase.committed) ∧ s.ledg.moves = [] ∧ onHoldUp s = false) ∧
    (∃ (s : State), (∀ q ∈ s.ledg.bufs, q = []) ∧ (∀ x ∈ s.ledg.txns, x.phase ≠ TxnPhase.committed) ∧ s.ledg.moves = [] ∧ s.pow.pfailLow = false ∧ s.pow.phase = Phase.coldHold) ∧
    (∃ (s : State), (∀ q ∈ s.ledg.bufs, q = []) ∧ (∀ x ∈ s.ledg.txns, x.phase ≠ TxnPhase.committed) ∧ s.ledg.moves = [] ∧ s.pow.pfailLow = false ∧ s.pow.phase = Phase.resetHold) ∧
    (∃ (s : State), (∀ q ∈ s.ledg.bufs, q = []) ∧ (∀ x ∈ s.ledg.txns, x.phase ≠ TxnPhase.committed) ∧ s.ledg.moves = [] ∧ s.pow.pfailLow = true ∧ s.pow.phase = Phase.resetHold) ∧
    (∃ (s : State), (∀ q ∈ s.ledg.bufs, q = []) ∧ (∀ x ∈ s.ledg.txns, x.phase ≠ TxnPhase.committed) ∧ s.ledg.moves = [] ∧ s.pow.pfailLow = false ∧ (s.pow.phase ≠ Phase.coldHold ∧ s.pow.phase ≠ Phase.resetHold ∧ s.pow.phase ≠ Phase.up)) ∧
    (∃ (s : State), (∀ q ∈ s.ledg.bufs, q = []) ∧ (∀ x ∈ s.ledg.txns, x.phase ≠ TxnPhase.committed) ∧ s.ledg.moves = [] ∧ s.pow.pfailLow = true ∧ s.pow.phase ≠ Phase.resetHold ∧ s.pow.phase ≠ Phase.coldHold) ∧
    (∃ (s : State) (u : Fin 256), (∀ q ∈ s.ledg.bufs, q = []) ∧ (∀ x ∈ s.ledg.txns, x.phase ≠ TxnPhase.committed) ∧ s.ledg.moves = [] ∧ Accepts u A.SYS_RST (49374#32) s ∧ (s.pow.phase = Phase.up ∧ s.pwr ≤ 1 ∧ s.safe = false ∧ s.flag F.DLF_STAT_FROZEN = false ∧ s.flag F.DLF_STAT_FLUSHING = false ∧ s.pow.flush = FlushThen.none)) ∧
    (∃ (s : State), (∀ q ∈ s.ledg.bufs, q = []) ∧ (∀ x ∈ s.ledg.txns, x.phase ≠ TxnPhase.committed) ∧ s.ledg.moves = [] ∧ s.pow.pfailLow = false ∧ (s.pow.phase = Phase.up ∧ s.pwr ≤ 1 ∧ s.safe = false ∧ s.flag F.DLF_STAT_FROZEN = false ∧ s.flag F.DLF_STAT_FLUSHING = false ∧ s.pow.flush = FlushThen.none)) ∧
    (∃ (s : State) (u : Fin 256), (∀ q ∈ s.ledg.bufs, q = []) ∧ (∀ x ∈ s.ledg.txns, x.phase ≠ TxnPhase.committed) ∧ s.ledg.moves = [] ∧ Accepts u A.SYS_RST (49374#32) s ∧ s.safe = true ∧ s.flag F.DLF_STAT_FLUSHING = false ∧ s.pow.rstLow = false ∧ s.pow.pfailLow = false) ∧
    (∃ (s : State) (p : Machine.Part), (∀ q ∈ s.ledg.bufs, q = []) ∧ (∀ x ∈ s.ledg.txns, x.phase ≠ TxnPhase.committed) ∧ s.ledg.moves = [] ∧ s.flag F.DLF_STAT_FLUSHING = true ∧ s.part 5 = some p ∧ 134217728 ≤ p.base ∧ s.ledg.recPend = [] ∧ s.ledg.flips = [] ∧ (∀ x < 24, maskOk s 127 x = true) ∧ (∀ v ∈ s.ledg.verify, v ≠ Verify.failed) ∧ s.pow.flush = FlushThen.safeHold) ∧
    (∃ (s : State) (p : Machine.Part), (∀ q ∈ s.ledg.bufs, q = []) ∧ (∀ x ∈ s.ledg.txns, x.phase ≠ TxnPhase.committed) ∧ s.ledg.moves = [] ∧ s.flag F.DLF_STAT_FLUSHING = true ∧ s.part 5 = some p ∧ 134217728 ≤ p.base ∧ s.ledg.recPend = [] ∧ s.ledg.flips = [] ∧ (∀ x < 24, maskOk s 127 x = true) ∧ (∀ v ∈ s.ledg.verify, v ≠ Verify.failed) ∧ s.pow.flush = FlushThen.powerEntry ∧ s.pow.wakeSeen = false) ∧
    (∃ (s : State) (p : Machine.Part), (∀ q ∈ s.ledg.bufs, q = []) ∧ (∀ x ∈ s.ledg.txns, x.phase ≠ TxnPhase.committed) ∧ s.ledg.moves = [] ∧ s.flag F.DLF_STAT_FLUSHING = true ∧ s.part 5 = some p ∧ 134217728 ≤ p.base ∧ s.ledg.recPend = [] ∧ s.ledg.flips = [] ∧ (∀ x < 24, maskOk s 127 x = true) ∧ (∀ v ∈ s.ledg.verify, v ≠ Verify.failed) ∧ s.pow.flush = FlushThen.reset false ∧ s.pow.rstLow = false ∧ s.pow.pfailLow = false) ∧
    (∃ (s : State) (p : Machine.Part), (∀ q ∈ s.ledg.bufs, q = []) ∧ (∀ x ∈ s.ledg.txns, x.phase ≠ TxnPhase.committed) ∧ s.ledg.moves = [] ∧ s.flag F.DLF_STAT_FLUSHING = true ∧ s.part 5 = some p ∧ 134217728 ≤ p.base ∧ s.ledg.recPend = [] ∧ s.ledg.flips = [] ∧ (∀ x < 24, maskOk s 127 x = true) ∧ s.pow.flush = FlushThen.safeHold ∧ s.ledg.spares = [] ∧ s.ledg.verify.getD 2048 Verify.good = Verify.failed) ∧
    (∃ (s : State), (∀ q ∈ s.ledg.bufs, q = []) ∧ (∀ x ∈ s.ledg.txns, x.phase ≠ TxnPhase.committed) ∧ s.ledg.moves = [] ∧ onHoldUp s = true ∧ s.pow.charged = false) ∧
    (∃ (s : State) (p : Machine.Part), (∀ q ∈ s.ledg.bufs, q = []) ∧ (∀ x ∈ s.ledg.txns, x.phase ≠ TxnPhase.committed) ∧ s.ledg.moves = [] ∧ s.flag F.DLF_STAT_FLUSHING = true ∧ s.part 5 = some p ∧ 134217728 ≤ p.base ∧ s.ledg.recPend = [] ∧ s.ledg.flips = [] ∧ (∀ x < 24, maskOk s 127 x = true) ∧ (∀ v ∈ s.ledg.verify, v ≠ Verify.failed) ∧ s.pow.flush = FlushThen.powerFail ∧ s.pow.railLow = true) ∧
    (∃ (s : State), (∀ q ∈ s.ledg.bufs, q = []) ∧ (∀ x ∈ s.ledg.txns, x.phase ≠ TxnPhase.committed) ∧ s.ledg.moves = [] ∧ onHoldUp s = true ∧ s.pow.charged = true) :=
  ⟨⟨atp .coldHold, by decide +kernel⟩,
    ⟨atp .coldHold, by decide +kernel⟩,
    ⟨atp .resetHold, by decide +kernel⟩,
    ⟨lowP (atp .resetHold), by decide +kernel⟩,
    ⟨atp .logic busy, by decide +kernel⟩,
    ⟨lowP (atp .logic busy), by decide +kernel⟩,
    ⟨busy, 0x75, by decide +kernel⟩,
    ⟨busy, by decide +kernel⟩,
    ⟨safeS, 0x75, by decide +kernel⟩,
    ⟨rung .safeHold, ⟨5, 0xFF, 0x08010000, 0x20000, 0⟩, by decide +kernel⟩,
    ⟨rung .powerEntry, ⟨5, 0xFF, 0x08010000, 0x20000, 0⟩, by decide +kernel⟩,
    ⟨rung (.reset false), ⟨5, 0xFF, 0x08010000, 0x20000, 0⟩, by decide +kernel⟩,
    ⟨ver (List.replicate 2048 .good ++ [.failed]) { rung .safeHold with ledg := { up.ledg with spares := [] } }, ⟨5, 0xFF, 0x08010000, 0x20000, 0⟩, by decide +kernel⟩,
    ⟨railDown (rung .powerFail), by decide +kernel⟩,
    ⟨railDown (rung .powerFail), ⟨5, 0xFF, 0x08010000, 0x20000, 0⟩, by decide +kernel⟩,
    ⟨(let s := rung .powerFail; { s with pow := { s.pow with charged := true } }), by decide +kernel⟩⟩

end Resets

namespace Entries

def core0 (s : State) : State := { ((((s.put (F.SRT_STAT_STATE 0) stRunning).mark (F.SRT_CTRL_RUN 0)).put (F.SRT_BUDGET_BUDGET 0) 50)) with tb := 2^60, cores := upd s.cores 0 (fun k => { k with r := { regs5 with pc := 0x100 }, mem := [(0x100, 2)] }) }
def ent (m : Nat) (s : State) : State := (core0 s).put F.PWR_MODE_MODE m
def wk (s : State) : State := s.setReg A.PWR_WAKE 0x10#32
def ringS (s : State) : State := { (s.put (F.ARB_MASK_BANKS 0x7F) 0xFFFFFF) with parts := [⟨5, 0x7F, 0x08010000, 0x20000, 0⟩], mem := (List.range 70).map (fun i => (0x08010010 + i, 1#8)), gate := { s.gate with opened := [⟨[], 1, 0, false, false⟩] } }
def enter (m : Nat) (fl w : Bool) : State := { ((wk (ent m up)).mark F.PWR_STAT_ENTERING).mark F.DLF_STAT_FROZEN with pow := { up.pow with entryMode := m, flushed := fl, wakeSeen := w, flush := .powerEntry } }

theorem witness_EntriesAndMonitors :
    (∃ (s : State) (k : Core) (m : ℕ), CoreAt s 0 k 2 1 1 ∧ s.get F.PWR_MODE_MODE = m ∧ m ≠ 0 ∧ s.flt.dayQ.length < 32 ∧ (∀ k1 ∈ s.cores, k1.spec = none) ∧ refuser s m = none ∧ anyWake s m = false) ∧
    (∃ (s : State) (k : Core) (m : ℕ), CoreAt s 0 k 2 1 1 ∧ s.get F.PWR_MODE_MODE = m ∧ m ≠ 0 ∧ s.flt.dayQ.length < 32 ∧ (∀ k1 ∈ s.cores, k1.spec = none) ∧ m = 1 ∧ refuser s m = none ∧ anyWake s m = true) ∧
    (∃ (s : State) (k : Core) (m : ℕ) (u : ℕ), CoreAt s 0 k 2 1 1 ∧ s.get F.PWR_MODE_MODE = m ∧ m ≠ 0 ∧ s.flt.dayQ.length < 32 ∧ (∀ k1 ∈ s.cores, k1.spec = none) ∧ refuser s m = some u) ∧
    (∃ (s : State) (k : Core) (m : ℕ), CoreAt s 0 k 2 1 1 ∧ s.get F.PWR_MODE_MODE = m ∧ m ≠ 0 ∧ s.flt.dayQ.length < 32 ∧ (∀ k1 ∈ s.cores, k1.spec = none) ∧ (m = 2 ∨ m = 3) ∧ refuser s m = none ∧ anyWake s m = true ∧ s.flag F.DLF_STAT_FROZEN = false) ∧
    (∃ (s : State), (s.flag F.PWR_STAT_ENTERING = false ∨ s.pow.flushed = false)) ∧
    (∃ (s : State) (b : Option (Fin 128)) (cause : ℕ) (u : Option ℕ) (p : Option Machine.Part), s.flag F.PWR_STAT_ENTERING = true ∧ s.pow.flushed = false ∧ (s.pow.wakeSeen = true ∧ cause = 5 ∧ u = none ∨ s.pow.wakeSeen = false ∧ cause = 4 ∧ u = Option.map (fun (x : Fin 128) => x.val) b ∧ b ≠ none) ∧ s.part 5 = p ∧ (∀ (q : Machine.Part), p = some q → 134217728 ≤ q.base ∧ q.base + ringBytes ≤ 150994944 ∧ ∀ x < 24, maskOk s 127 x = true) ∧ s.flt.dayQ.length < 32 ∧ s.pow.entryMode < 4 ∧ s.flag F.TT_CTRL_RUN = false) ∧
    (∃ (s : State) (b : Option (Fin 128)), (s.flag F.PWR_STAT_ENTERING = false ∨ s.pow.flushed = true ∨ s.pow.wakeSeen = false ∧ b = none)) ∧
    (∃ (s : State), s.flag F.PWR_STAT_ENTERING = true ∧ s.pow.flushed = true ∧ s.pow.entryMode = 2) ∧
    (∃ (s : State), s.flag F.PWR_STAT_ENTERING = true ∧ s.pow.flushed = true ∧ s.pow.entryMode = 3 ∧ s.pow.wakeLate = false) ∧
    (∃ (n : Fin 4) (s : State), (s.flag (F.CMP_CTRL_EN n.val) = false ∨ s.pow.phase = Phase.coldHold ∨ bit (s.get F.CMP_STAT_OUT) n.val = true)) ∧
    (∃ (n : Fin 4) (s : State), s.flag (F.CMP_CTRL_EN n.val) = false) ∧
    (∃ (vio : ℕ) (s : State), logicPowered s = true ∧ 150 ≤ vio) ∧
    (∃ (n : Fin 4) (s : State) (k : Core), s.flag (F.CMP_CTRL_EN n.val) = true ∧ bit (s.get F.CMP_STAT_OUT) n.val = false ∧ Listens s k) ∧
    (∃ (s : State), logicPowered s = false) :=
  ⟨⟨ent 1 up, the idleCore ((ent 1 up).core 0), 1, by decide +kernel⟩,
    ⟨wk (ent 1 up), the idleCore ((wk (ent 1 up)).core 0), 1, by decide +kernel⟩,
    ⟨ent 2 (up.mark F.TT_STAT_SWAP_PEND), the idleCore ((ent 2 (up.mark F.TT_STAT_SWAP_PEND)).core 0), 2, 0x79, by decide +kernel⟩,
    ⟨(ent 2 up).setReg A.PWR_WAKE 0x30#32, the idleCore (((ent 2 up).setReg A.PWR_WAKE 0x30#32).core 0), 2, by decide +kernel⟩,
    ⟨ringS (enter 2 false false), by decide +kernel⟩,
    ⟨ringS (enter 2 false false), some 5, 4, some 5, some ⟨5, 0x7F, 0x08010000, 0x20000, 0⟩, by decide +kernel⟩,
    ⟨ringS (enter 2 false false), none, by decide +kernel⟩,
    ⟨enter 2 true false, by decide +kernel⟩,
    ⟨enter 3 true false, by decide +kernel⟩,
    ⟨0, ringS (enter 2 false false), by decide +kernel⟩,
    ⟨0, ringS (enter 2 false false), by decide +kernel⟩,
    ⟨3000, ringS (enter 2 false false), by decide +kernel⟩,
    ⟨3, up.mark (F.CMP_CTRL_EN 3), the idleCore ((up.mark (F.CMP_CTRL_EN 3)).core 0), by decide +kernel⟩,
    ⟨State.reset, by decide +kernel⟩⟩

end Entries

namespace Faults

def masks (l : List Nat) (s : State) : State := l.foldl (fun u n => u.put (F.ARB_MASK_BANKS n) 0x00FFFFFF) s
def base85 : State := { masks [0x7E, 0x7F] up with tb := 2^60, parts := [⟨4, 0xFF, 0x08100000, 0x100000, 0⟩, ⟨5, 0xFF, 0x08010000, 0x20000, 0⟩] }
def pri (u : Nat) (s : State := base85) : State := (s.setReg (A.SYS_FLT_PRI u) 0x83080000#32).setReg (A.SYS_FLT_PRIPM u) 77#32
def sec (u : Nat) (s : State := base85) : State := (s.setReg (A.SYS_FLT_SEC u) 0x81010000#32).setReg (A.SYS_FLT_SECPM u) 78#32
def both (u : Nat) : State := sec u (pri u)
def res1 (u : Nat) (s : State) : State := { s with flt := { s.flt with resets := [u], check := [u], recov := [u] } }
def dq (s : State) : State := { (s.mark F.DAYB_STAT_READY) with flt := { s.flt with dayQ := [⟨2^40, 0x41, 0x08, 3, 0x12345678⟩, ⟨1,2,3,4,5⟩], tailIdx := 495 } }
def storm (u : Nat) : State := { both u with flt := { (both u).flt with stormAt := [(u, (both u).pm)] } }
def hold (u : Nat) (s : State := base85) : State := s.setReg (A.SYS_FHELD (u / 32)) (BitVec.ofNat 32 (2 ^ (u % 32) ||| 0x80000000 ||| 1))
def prog : List (Nat × Byte) :=
  let body : List Byte := [0x01, 0x01]
  let h : List Byte := leBytes 2 0x5053 ++ leBytes 2 0x14 ++ leBytes 4 0x40 ++ leBytes 2 3 ++ leBytes 2 22 ++ leBytes 2 0x1000 ++ leBytes 1 1 ++ leBytes 1 0 ++ leBytes 4 (crc32 body)
  let m := h ++ body
  (((List.range m.length).map (fun i => (i, m.getD i 0))) ++ (List.range 12).map (fun i => (0xFF00 + i, if i % 2 = 0 then 0x14 else 0))).filter (fun e => e.2 != 0)
def okc (c : Nat) (s : State) : State := { s with cores := upd s.cores c (fun k => { k with mem := prog }) }

theorem witness_FaultsRecoverAndAreRecorded :
    (∃ (u : Fin 128) (code : Byte) (s : State), (s.isHeld u.val = true ∨ logicPowered s = false ∨ BitVec.toNat code ≠ 1 ∧ BitVec.toNat code ≠ 2)) ∧
    (∃ (u : Fin 128) (s : State), (u.val ∉ s.flt.resets ∨ logicPowered s = false ∨ s.flag F.DLF_STAT_FLUSHING = true)) ∧
    (∃ (u : Fin 128) (code : Byte) (s : State) (k : Core), (BitVec.toNat code = 1 ∨ BitVec.toNat code = 2) ∧ s.isHeld u.val = false ∧ Listens s k ∧ s.flt.dayQ.length < 32 ∧ u.val ∉ s.flt.resets ∧ u.val ∉ s.flt.check ∧ u.val ∉ s.flt.recov ∧ u.val ≠ 125 ∧ (u.val = 0 → pmHandling s = false) ∧ priValid s u.val = false) ∧
    (∃ (u : Fin 128) (code : Byte) (s : State) (k : Core), (BitVec.toNat code = 1 ∨ BitVec.toNat code = 2) ∧ s.isHeld u.val = false ∧ Listens s k ∧ s.flt.dayQ.length < 32 ∧ u.val ∉ s.flt.resets ∧ u.val ∉ s.flt.check ∧ u.val ∉ s.flt.recov ∧ u.val ≠ 125 ∧ (u.val = 0 → pmHandling s = false) ∧ priValid s u.val = true ∧ secValid s u.val = false) ∧
    (∃ (u : Fin 128) (code : Byte) (s : State) (k : Core), (BitVec.toNat code = 1 ∨ BitVec.toNat code = 2) ∧ s.isHeld u.val = false ∧ Listens s k ∧ s.flt.dayQ.length < 32 ∧ u.val ∉ s.flt.resets ∧ u.val ∉ s.flt.check ∧ u.val ∉ s.flt.recov ∧ u.val ≠ 125 ∧ (u.val = 0 → pmHandling s = false) ∧ priValid s u.val = true ∧ secValid s u.val = true ∧ essential u.val = false ∧ 65 ≤ u.val ∧ s.flt.stormAt = []) ∧
    (∃ (u : Fin 128) (code : Byte) (s : State) (k : Core), (BitVec.toNat code = 1 ∨ BitVec.toNat code = 2) ∧ s.isHeld u.val = false ∧ Listens s k ∧ s.flt.dayQ.length < 32 ∧ u.val ∉ s.flt.resets ∧ u.val ∉ s.flt.check ∧ u.val ∉ s.flt.recov ∧ u.val ≠ 125 ∧ (u.val = 0 → pmHandling s = false) ∧ priValid s u.val = true ∧ secValid s u.val = true ∧ essential u.val = false ∧ 65 ≤ u.val ∧ s.flt.stormAt = [(u.val, s.pm)]) ∧
    (∃ (w : Fin 256) (u : Fin 128) (s : State), Accepts w (A.SYS_FLT_PRI u.val) (2147483648#32) s ∧ (priValid s u.val = false ∨ u.val ∈ s.flt.check)) ∧
    (∃ (w : Fin 256) (u : Fin 128) (s : State), Accepts w (A.SYS_FLT_SEC u.val) (2147483648#32) s ∧ (secValid s u.val = false ∨ u.val ∈ s.flt.check)) ∧
    (∃ (w : Fin 256) (u : Fin 128) (s : State), Accepts w (A.SYS_FHELD (u.val / 32)) (BitVec.ofNat 32 (2 ^ (u.val % 32))) s ∧ s.isHeld u.val = false) ∧
    (∃ (w : Fin 256) (u : Fin 128) (s : State), Accepts w (A.SYS_FLT_PRI u.val) (2147483648#32) s ∧ priValid s u.val = true ∧ u.val ∉ s.flt.check ∧ secValid s u.val = false) ∧
    (∃ (w : Fin 256) (u : Fin 128) (s : State), Accepts w (A.SYS_FLT_PRI u.val) (2147483648#32) s ∧ priValid s u.val = true ∧ u.val ∉ s.flt.check ∧ secValid s u.val = true) ∧
    (∃ (w : Fin 256) (u : Fin 128) (s : State), Accepts w (A.SYS_FLT_SEC u.val) (2147483648#32) s ∧ secValid s u.val = true ∧ u.val ∉ s.flt.check) ∧
    (∃ (s : State), (s.pow.phase ≠ Phase.up ∨ 2 ≤ s.pwr ∨ 126 ∈ s.flt.resets ∨ s.isHeld 126 = true ∨ s.flag F.DAYB_STAT_READY = false ∨ s.flt.dayQ = [] ∧ s.flt.dayLost = 0)) ∧
    (∃ (u : Fin 128) (code : Byte) (s : State) (k : Core), (BitVec.toNat code = 1 ∨ BitVec.toNat code = 2) ∧ u.val = 125 ∧ s.isHeld u.val = false ∧ Listens s k ∧ s.safe = false ∧ priValid s u.val = false) ∧
    (∃ (u : Fin 128) (s : State), u.val ∈ s.flt.resets ∧ logicPowered s = true ∧ s.flag F.DLF_STAT_FLUSHING = false ∧ (u.val = 119 ∨ u.val = 124 ∨ u.val = 127) ∧ priValid s u.val = true ∧ s.get (F.SYS_FLT_PRI_CLASS u.val) = 3 ∧ secValid s u.val = false) ∧
    (∃ (w : Fin 256) (u : Fin 128) (s : State), Accepts w (A.SYS_FHELD (u.val / 32)) (BitVec.ofNat 32 (2 ^ (u.val % 32))) s ∧ s.isHeld u.val = true ∧ 117 ≤ u.val) ∧
    (∃ (w : Fin 256) (u : Fin 128) (s : State) (k : Core), Accepts w (A.SYS_FHELD (u.val / 32)) (BitVec.ofNat 32 (2 ^ (u.val % 32))) s ∧ s.isHeld u.val = true ∧ u.val ≤ 64 ∧ s.core u.val = some k ∧ headerOk k.priv = true ∧ s.flag (F.SRT_CTRL_RUN u.val) = false ∧ u.val ∉ s.flt.resets) ∧
    (∃ (s : State) (e : DayEntry) (q : List DayEntry) (p : Machine.Part) (r : Machine.Part), s.pow.phase = Phase.up ∧ s.pwr ≤ 1 ∧ 126 ∉ s.flt.resets ∧ s.isHeld 126 = false ∧ s.flag F.DAYB_STAT_READY = true ∧ s.flt.dayLost = 0 ∧ s.flt.dayQ = e :: q ∧ s.part 4 = some p ∧ s.part 5 = some r ∧ MaskFor s 126 (p.base + 16 * s.get F.DAYB_WR_IDX) 16 ∧ s.flag F.DLF_STAT_FROZEN = false ∧ MaskFor s 127 (r.base + 123136 + 16 * s.flt.tailIdx) 16 ∧ (p.base + 16 * s.get F.DAYB_WR_IDX + 16 ≤ r.base + 123136 + 16 * s.flt.tailIdx ∨ r.base + 123136 + 16 * s.flt.tailIdx + 16 ≤ p.base + 16 * s.get F.DAYB_WR_IDX)) ∧
    (∃ (s : State) (e : DayEntry) (q : List DayEntry) (p : Machine.Part) (r : Machine.Part), s.pow.phase = Phase.up ∧ s.pwr ≤ 1 ∧ 126 ∉ s.flt.resets ∧ s.isHeld 126 = false ∧ s.flag F.DAYB_STAT_READY = true ∧ s.flt.dayLost = 0 ∧ s.flt.dayQ = e :: q ∧ s.part 4 = some p ∧ s.part 5 = some r ∧ MaskFor s 126 (p.base + 16 * s.get F.DAYB_WR_IDX) 16 ∧ s.flag F.DLF_STAT_FROZEN = true) :=
  ⟨⟨0x45, 3#8, base85, by decide +kernel⟩,
    ⟨0x45, base85, by decide +kernel⟩,
    ⟨0x45, 2#8, base85, the idleCore (base85.core 0), by decide +kernel⟩,
    ⟨0x45, 2#8, pri 0x45, the idleCore ((pri 0x45).core 0), by decide +kernel⟩,
    ⟨0x45, 2#8, both 0x45, the idleCore ((both 0x45).core 0), by decide +kernel⟩,
    ⟨0x45, 2#8, storm 0x45, the idleCore ((storm 0x45).core 0), by decide +kernel⟩,
    ⟨0x79, 0x45, base85, by decide +kernel⟩,
    ⟨0x79, 0x45, base85, by decide +kernel⟩,
    ⟨0x79, 0x45, base85, by decide +kernel⟩,
    ⟨0x79, 0x45, pri 0x45, by decide +kernel⟩,
    ⟨0x79, 0x45, both 0x45, by decide +kernel⟩,
    ⟨0x79, 0x45, both 0x45, by decide +kernel⟩,
    ⟨base85, by decide +kernel⟩,
    ⟨0x7D, 1#8, base85, the idleCore (base85.core 0), by decide +kernel⟩,
    ⟨0x77, res1 0x77 (pri 0x77), by decide +kernel⟩,
    ⟨0x79, 0x75, hold 0x75, by decide +kernel⟩,
    ⟨0x79, 5, okc 5 (hold 5), the idleCore ((okc 5 (hold 5)).core 5), by decide +kernel⟩,
    ⟨dq base85, ⟨2^40, 0x41, 0x08, 3, 0x12345678⟩, [⟨1,2,3,4,5⟩], ⟨4, 0xFF, 0x08100000, 0x100000, 0⟩, ⟨5, 0xFF, 0x08010000, 0x20000, 0⟩, by decide +kernel⟩,
    ⟨((dq base85).put F.DAYB_WR_IDX 65535).mark F.DLF_STAT_FROZEN, ⟨2^40, 0x41, 0x08, 3, 0x12345678⟩, [⟨1,2,3,4,5⟩], ⟨4, 0xFF, 0x08100000, 0x100000, 0⟩, ⟨5, 0xFF, 0x08010000, 0x20000, 0⟩, by decide +kernel⟩⟩

end Faults

end Sys2Proof.Tests
end

/-!
PROOFS. Register writes and reads in general (00, R2 to R7; R425): the record of refusals, the fields of an accepted write, and the addresses that
hold neither memory nor register.
-/

namespace Sys2Proof.Machine

/-! What the register commands and READ answer. -/

theorem exec_registerWrite (u : Fin 256) (a v : Word) (s : State) :
    exec (.registerWrite u a v none) s = .next (registerWrite u.val a.toNat v s) := rfl

theorem exec_registerWrite_two (u u2 : Fin 256) (a v a2 v2 : Word) (s : State) :
    exec (.registerWrite u a v (some (u2, a2, v2))) s =
      .next (registerWrites u.val a.toNat v (some (u2.val, a2.toNat, v2)) s) := rfl

theorem exec_read (a : Word) (m : Nat) (s : State) : exec (.read a m none) s = .next (hostReadCmd a.toNat m none s) := rfl

/-! The rows of the register tables. -/

/-- No bit lies in both fields. -/
abbrev fieldsApart (f g : FieldDef) : Prop := f.lo + fieldWidth f ≤ g.lo ∨ g.lo + fieldWidth g ≤ f.lo

/-- The fields of a row lie apart and within 32 bits. -/
abbrev rowTidy (d : RegDef) : Prop := d.fields.Pairwise fieldsApart ∧ ∀ f ∈ d.fields, f.lo + fieldWidth f ≤ 32

/-- Every row of the table `l` is tidy. -/
def tableTidy (l : List RegDef) : Bool := decide (∀ d ∈ l, rowTidy d)

theorem tableTidy_ite {c : Prop} [Decidable c] {l m : List RegDef} (hl : tableTidy l = true) (hm : tableTidy m = true) :
    tableTidy (if c then l else m) = true := by
  split <;> assumption

theorem tableTidy_blockDefs (a : Nat) : tableTidy (blockDefs a) = true := by
  unfold blockDefs
  repeat' apply tableTidy_ite
  all_goals decide +kernel

theorem rowTidy_of_mem_blockDefs {a : Nat} {d : RegDef} (h : d ∈ blockDefs a) : rowTidy d :=
  of_decide_eq_true (tableTidy_blockDefs a) d h

/-- The row found at an address is one of its block that covers it. -/
theorem findReg_row {a : Nat} {d : RegDef} {i : Nat} (h : findReg a = some (d, i)) : d ∈ blockDefs a ∧ d.index a = some i := by
  unfold findReg at h
  split at h
  · cases h
  · obtain ⟨x, hx, he⟩ := List.exists_of_findSome?_eq_some h
    obtain ⟨j, hj, e⟩ := Option.map_eq_some_iff.mp he
    obtain ⟨rfl, rfl⟩ := Prod.mk.inj e
    exact ⟨hx, hj⟩

/-- The registers of a core lie below its mirrors. -/
theorem srtRow_low : ∀ d ∈ regDefsSRT, d.n = 65 ∧ d.stride = 0x1000 ∧ d.n2 = 1 ∧ 0x10000000 ≤ d.base ∧ d.base < 0x10000800 := by decide +kernel

theorem offOf_lt_of_srtRow {a : Nat} {d : RegDef} {i : Nat} (hd : d ∈ regDefsSRT) (hi : d.index a = some i) (ha : a < 0x10080000) :
    offOf a < 0x800 := by
  obtain ⟨hn, hs, hn2, hlo, hhi⟩ := srtRow_low d hd
  unfold RegDef.index at hi
  simp only [hn, hs, hn2] at hi
  split at hi
  · cases hi
  · simp at hi
    simp only [offOf, if_pos ha]
    omega

/-- No register stands at a mirror address. -/
theorem mirrorOf_of_findReg {a : Nat} {d : RegDef} {i : Nat} (h : findReg a = some (d, i)) : mirrorOf a = none := by
  obtain ⟨hd, hi⟩ := findReg_row h
  have hlo := (findReg_range h).1
  apply if_neg
  rintro ⟨-, hu, hoff, -⟩
  have ha : a < 0x10080000 := by
    by_contra hge
    simp [blockOf, hge] at hu
  have hb : (a - 0x10000000) / 0x1000 ≤ 0x40 := by simpa [blockOf, ha] using hu
  have hsrt : blockDefs a = regDefsSRT := by
    unfold blockDefs
    rw [if_neg (by omega)]
    exact if_pos hb
  exact absurd (offOf_lt_of_srtRow (hsrt ▸ hd) hi ha) (by omega)

/-! The fields of a written word (R2). -/

/-- What a write of `w` over `old` leaves in field `f`, by its access code. -/
def fieldAfter (old w : Nat) (f : FieldDef) : Nat :=
  match f.acc with
  | .rw | .rwl => bits w f.lo (fieldWidth f)
  | .ro | .wo => bits old f.lo (fieldWidth f)
  | .w1c => bits old f.lo (fieldWidth f) &&& (2 ^ fieldWidth f - 1 - bits w f.lo (fieldWidth f))

theorem fieldsFollow_iff (d : RegDef) (old w new : Nat) :
    FieldsFollow d old w new ↔ ∀ f ∈ d.fields, bits new f.lo (fieldWidth f) = fieldAfter old w f := Iff.rfl

/-- The word `r` with field `f` written. -/
def fieldWritten (old w r : Nat) (f : FieldDef) : Nat :=
  match f.acc with
  | .rw | .rwl => setBits r f.lo (fieldWidth f) (bits w f.lo (fieldWidth f))
  | .w1c => setBits r f.lo (fieldWidth f) (bits old f.lo (fieldWidth f) &&& (2 ^ fieldWidth f - 1 - bits w f.lo (fieldWidth f)))
  | .ro | .wo => r

theorem plainWord_eq (d : RegDef) (old w : Nat) : plainWord d old w = d.fields.foldl (fieldWritten old w) old := rfl

theorem fieldWritten_lt {old w r : Nat} {f : FieldDef} (hf : f.lo + fieldWidth f ≤ 32) (hr : r < 2 ^ 32) : fieldWritten old w r f < 2 ^ 32 := by
  unfold fieldWritten
  split
  case _ | _ | _ => exact setBits_lt _ _ _ _ 32 hf hr
  all_goals exact hr

/-- The field that is written is as its access code says, where it held its old bits. -/
theorem bits_fieldWritten_self {old w r : Nat} {f : FieldDef} (h : bits r f.lo (fieldWidth f) = bits old f.lo (fieldWidth f)) :
    bits (fieldWritten old w r f) f.lo (fieldWidth f) = fieldAfter old w f := by
  unfold fieldWritten fieldAfter
  cases f.acc with
  | rw | rwl => exact (bits_setBits_self _ _ _ _).trans (Nat.mod_eq_of_lt (bits_lt _ _ _))
  | w1c => exact (bits_setBits_self _ _ _ _).trans (Nat.mod_eq_of_lt (Nat.and_lt_two_pow _ (by have := Nat.two_pow_pos (fieldWidth f); omega)))
  | ro | wo => exact h

theorem bits_fieldWritten_apart {old w r : Nat} {f g : FieldDef} (h : fieldsApart f g) :
    bits (fieldWritten old w r f) g.lo (fieldWidth g) = bits r g.lo (fieldWidth g) := by
  unfold fieldWritten
  cases f.acc with
  | rw | rwl | w1c => exact bits_setBits_disjoint _ _ _ _ _ _ h
  | ro | wo => rfl

theorem bits_foldl_fieldWritten_apart {old w : Nat} {g : FieldDef} (l : List FieldDef) (h : ∀ f ∈ l, fieldsApart f g) (r : Nat) :
    bits (l.foldl (fieldWritten old w) r) g.lo (fieldWidth g) = bits r g.lo (fieldWidth g) := by
  induction l generalizing r with
  | nil => rfl
  | cons f l ih =>
    obtain ⟨hf, hl⟩ := List.forall_mem_cons.mp h
    exact (ih hl _).trans (bits_fieldWritten_apart hf)

theorem foldl_fieldWritten_lt {old w : Nat} (l : List FieldDef) (h : ∀ f ∈ l, f.lo + fieldWidth f ≤ 32) (r : Nat) (hr : r < 2 ^ 32) :
    l.foldl (fieldWritten old w) r < 2 ^ 32 := by
  induction l generalizing r with
  | nil => exact hr
  | cons f l ih =>
    obtain ⟨hf, hl⟩ := List.forall_mem_cons.mp h
    exact ih hl _ (fieldWritten_lt hf hr)

/-- Fields that lie apart are written one after another, each from its old bits. -/
theorem bits_foldl_fieldWritten {old w : Nat} (l : List FieldDef) (hp : l.Pairwise fieldsApart) (r : Nat)
    (hr : ∀ f ∈ l, bits r f.lo (fieldWidth f) = bits old f.lo (fieldWidth f)) :
    ∀ f ∈ l, bits (l.foldl (fieldWritten old w) r) f.lo (fieldWidth f) = fieldAfter old w f := by
  induction l generalizing r with
  | nil => simp
  | cons g l ih =>
    obtain ⟨hg, hl⟩ := List.pairwise_cons.mp hp
    obtain ⟨hrg, hrl⟩ := List.forall_mem_cons.mp hr
    refine List.forall_mem_cons.mpr ⟨?_, ih hl _ fun f hf => (bits_fieldWritten_apart (hg f hf)).trans (hrl f hf)⟩
    exact (bits_foldl_fieldWritten_apart l (fun f hf => (hg f hf).symm) _).trans (bits_fieldWritten_self hrg)

/-- The word a tidy row's write stores follows the access codes. -/
theorem fieldsFollow_plainWord {d : RegDef} (h : rowTidy d) (old : Word) (w : Nat) :
    FieldsFollow d old.toNat w (BitVec.ofNat 32 (plainWord d old.toNat w)).toNat := by
  rw [fieldsFollow_iff, plainWord_eq, BitVec.toNat_ofNat, Nat.mod_eq_of_lt (foldl_fieldWritten_lt _ h.2 _ old.isLt)]
  exact bits_foldl_fieldWritten _ h.1 _ fun _ _ => rfl

/-! The action of a write where the register has none of its own. -/

/-- LEDG_TXN stands alone at its block and offset. -/
theorem eq_ledgTxn {a : Nat} (h : 0x10000000 ≤ a) (hu : blockOf a = 0x7A) (ho : offOf a = 0x014) : a = A.LEDG_TXN := by
  unfold blockOf at hu
  unfold offOf at ho
  split at hu
  · next hlt => 
    rw [if_pos hlt] at ho
    change a = 0x1007a014
    omega
  · cases hu

section noAction
variable {u p off a old w : Nat} {put : State → State} {s : State}

theorem sysRegWrite_put (h : (off == 0x100 || off == 0x400 || (0x510 ≤ off && off < 0x520) || (0x2000 ≤ off && off < 0x2400) ||
    (0x3000 ≤ off && off < 0x3800)) = false) : sysRegWrite u off a w put s = put s := by
  simp only [Bool.or_eq_false_iff, beq_eq_false_iff_ne, Bool.and_eq_false_iff, decide_eq_false_iff_not] at h
  unfold sysRegWrite
  rw [if_neg (by omega), if_neg (by omega), if_neg (by omega), if_neg (by omega), if_neg (by omega)]

theorem coreRegWrite_put (h : (off == 0x000 || off == 0x028) = false) : coreRegWrite p off old w put s = put s := by
  unfold coreRegWrite
  split
  case _ | _ => simp at h
  · rfl

theorem portRegWrite_put (h : ([0x000, 0x044, 0x04C, 0x07C, 0x080].contains off || (0x0A0 ≤ off && off < 0x0C0)) = false) :
    portRegWrite u p off a old w put s = put s := by
  simp at h
  unfold portRegWrite
  rw [if_neg (by omega), if_neg (by omega), if_neg (by omega), if_neg (by omega), if_neg (by omega), if_neg (by omega)]

theorem chainRegWrite_put (h : [0x000, 0x008, 0x00C, 0x024].contains off = false) : chainRegWrite u p off old w put s = put s := by
  unfold chainRegWrite
  split
  case _ | _ | _ | _ => simp at h
  · rfl

theorem linkRegWrite_put (h : (off == 0x000 || off == 0x810) = false) : linkRegWrite p off old w put s = put s := by
  simp only [Bool.or_eq_false_iff, beq_eq_false_iff_ne] at h
  unfold linkRegWrite
  rw [if_neg h.1, if_neg h.2]

theorem gateRegWrite_put (h : ([0x008, 0x050, 0x064].contains off || (0x010 ≤ off && off < 0x028) || (0x100 ≤ off && off < 0x180)) = false) :
    gateRegWrite u off a old w put s = put s := by
  simp at h
  unfold gateRegWrite
  rw [if_neg (by omega), if_neg (by omega), if_neg (by omega), if_neg (by omega), if_neg (by omega)]

theorem seqRegWrite_put (h : [0x000, 0x004, 0x010, 0x020, 0x024, 0x038].contains off = false) : seqRegWrite u off old w put s = put s := by
  unfold seqRegWrite
  split
  case _ | _ | _ | _ | _ | _ => simp at h
  · rfl

theorem timerRegWrite_put (h : [0x00, 0x0C, 0x10, 0x14, 0x20, 0x24].contains off = false) : timerRegWrite p off old w put s = put s := by
  unfold timerRegWrite
  split
  case _ | _ | _ | _ | _ | _ => simp at h
  · rfl

/-- A register without an action of its own takes its fields and no more, block by block. -/
theorem regAct_put (ha : 0x10000000 ≤ a) (h : hasAction a = false) (ht : a ≠ A.LEDG_TXN) : regAct u a old w put s = put s := by
  have txn : ¬(blockOf a = 0x7A ∧ offOf a = 0x014) := fun e => ht (eq_ledgTxn ha e.1 e.2)
  unfold hasAction at h
  unfold regAct
  dsimp only at h ⊢
  split at h
  · next hu => rw [if_pos hu]; exact sysRegWrite_put h
  next hsys =>
  rw [if_neg hsys]
  split at h
  · next hu => rw [if_pos hu]; exact coreRegWrite_put h
  next hcore =>
  rw [if_neg hcore]
  split at h
  · next hu => rw [if_pos hu]; exact portRegWrite_put h
  next hport =>
  rw [if_neg hport]
  split at h
  · next hu => rw [if_pos hu]; exact chainRegWrite_put h
  next hchain =>
  rw [if_neg hchain]
  split at h
  · next hu => rw [if_pos hu]; exact linkRegWrite_put h
  next hlink =>
  rw [if_neg hlink]
  split at h
  · next hu => rw [if_pos hu]; exact gateRegWrite_put h
  next hgate =>
  rw [if_neg hgate]
  split at h
  · next hu =>
    rw [if_neg (fun e => by simp [e.2] at h), if_neg (by omega), if_neg (by omega), if_neg (by omega)]
  next htrend =>
  rw [if_neg (fun e => htrend e.1)]
  split at h
  · next hu => rw [if_pos hu]; exact seqRegWrite_put h
  next hseq =>
  rw [if_neg hseq, if_neg txn]
  split at h
  · next hu => rw [if_pos hu]; exact timerRegWrite_put h
  · next hu => exact if_neg hu

end noAction

/-! An accepted write of a register without an action (R2, R425). -/

/-- The state in which the word at `b` has been written with `v` by the access codes of row `d`. -/
def fieldsWritten (d : RegDef) (b : Nat) (v : Word) (s : State) : State := s.setReg b (BitVec.ofNat 32 (plainWord d (s.reg b).toNat v.toNat))

theorem fieldsWritten_follow {d : RegDef} {b : Nat} {v : Word} {s : State} (h : rowTidy d) :
    Untouched s (fieldsWritten d b v s) [b] ∧ FieldsFollow d (s.reg b).toNat v.toNat ((fieldsWritten d b v s).reg b).toNat ∧
      fieldsWritten d b v s = { s with regs := (fieldsWritten d b v s).regs } := by
  refine ⟨Untouched_setReg (Untouched_refl s _) _ (by simp), ?_, rfl⟩
  rw [fieldsWritten, reg_setReg_self]
  exact fieldsFollow_plainWord h _ _

theorem registerWrite_fields {u : Fin 256} {a : Nat} {v : Word} {s : State} {d : RegDef} {i : Nat} (h : Accepts u a v s) (hf : findReg a = some (d, i))
    (hact : hasAction a = false) (hb : isBanked a = false) : registerWrite u.val a v s = fieldsWritten d a v s := by
  have hra : a ≠ A.CAS_RA_CMD := by rintro rfl; exact absurd hb (by decide)
  have ht : a ≠ A.LEDG_TXN := by rintro rfl; exact absurd hb (by decide)
  rw [registerWrite_act h hf (mirrorOf_of_findReg hf) hb hra, regAct_put (findReg_range hf).1 hact ht, fieldsWritten]

/-- Of the register writes after LOGIC_OK only those of CAS_RA_CMD are more than the register file's. -/
theorem registerWrite_base {u : Fin 256} {a : Nat} {v : Word} {s : State} (h : Writes u a s) (hr : a ≠ A.CAS_RA_CMD) :
    registerWrite u.val a v s = regWriteBase u.val a v s := by
  rw [registerWrite_up h]
  unfold regWrite
  cases raChannel u.val with
  | none => rfl
  | some c => exact if_neg fun x => hr x.1

section banked
variable {u : Fin 256} {a : Nat} {v : Word} {s : State} {d : RegDef} {i : Nat} (h : Accepts u a v s) (hf : findReg a = some (d, i))
  (hb : isBanked a = true) (hr : a ≠ A.CAS_RA_CMD)
include h hf hb hr

/-- A writer that has no copy of a banked register changes nothing (R425). -/
theorem registerWrite_banked_none (hn : bankAddr u.val a = none) : registerWrite u.val a v s = s := by
  have hlt := (findReg_range hf).2
  rw [registerWrite_base h.1 hr, regWriteBase, if_neg (by omega), mirrorOf_of_findReg hf]
  simp [h.2, hf, hb, hn]

/-- A write of a banked register acts on the writer's copy (R425). -/
theorem registerWrite_banked_some {b : Nat} (hs : bankAddr u.val a = some b) :
    registerWrite u.val a v s = regAct u.val a (s.reg b).toNat v.toNat (fieldsWritten d b v) s := by
  have hlt := (findReg_range hf).2
  change _ = regAct u.val a (s.reg b).toNat v.toNat (fun s => s.setReg b (BitVec.ofNat 32 (plainWord d (s.reg b).toNat v.toNat))) s
  rw [registerWrite_base h.1 hr, regWriteBase, if_neg (by omega), mirrorOf_of_findReg hf]
  simp [h.2, hf, hb, hr, hs]

end banked

/-- Settles O2: the row found at an address is tidy, so the word a write stores follows its access codes field by field. -/
theorem writtenFieldsFollowAccessCodes : Obligations.WrittenFieldsFollowAccessCodes := by
  unfold Obligations.WrittenFieldsFollowAccessCodes
  intro u a v s d i hacc hf hact
  have tidy : rowTidy d := rowTidy_of_mem_blockDefs (findReg_row hf).1
  refine ⟨fun hb => ⟨fieldsWritten d a.toNat v s, ?_, fieldsWritten_follow tidy⟩, fun hb htxn hra => ⟨fun hn => ⟨s, ?_, rfl⟩, fun b hsome =>
    ⟨fieldsWritten d b v s, ?_, fieldsWritten_follow tidy⟩⟩⟩
  · rw [exec_registerWrite, registerWrite_fields hacc hf hact hb]
  · rw [exec_registerWrite, registerWrite_banked_none hacc hf hb hra hn]
  · rw [exec_registerWrite, registerWrite_banked_some hacc hf hb hra hsome, regAct_put (findReg_range hf).1 hact htxn]

/-! The record of refusals (R5, R6). -/

theorem refuse_regs (u a : Nat) (s : State) : refuse u a s = { s with regs := (refuse u a s).regs } := by
  unfold refuse
  split <;> rfl

theorem untouched_refuse (u a : Nat) (s : State) : Untouched s (refuse u a s) [A.SYS_DIAG, A.SYS_RSVD_ADDR] := by
  unfold refuse
  split
  · exact Untouched_mark (Untouched_refl s _) _ (by decide)
  · exact Untouched_put (Untouched_put (Untouched_mark (Untouched_refl s _) _ (by decide)) _ _ (by decide)) _ _ (by decide)

theorem untouched_refuseColliding (u a : Nat) (s : State) :
    Untouched s (refuseColliding u a s) [A.SYS_DIAG, A.SYS_RSVD_ADDR] :=
  Untouched_put (Untouched_put (Untouched_put (Untouched_mark (Untouched_refl s _) _ (by decide)) _ _ (by decide)) _ _
    (by decide)) _ _ (by decide)

/-- The first refusal since RSVD_WR was cleared is held. -/
theorem refuse_first {u a : Nat} {s : State} (h : s.flag F.SYS_DIAG_RSVD_WR = false) (hu : u < 256) (ha : a < 2 ^ 32) :
    (refuse u a s).flag F.SYS_DIAG_RSVD_WR = true ∧ (refuse u a s).get F.SYS_RSVD_ADDR_ADDR = a / 4 ∧
      (refuse u a s).get F.SYS_DIAG_RSVD_SRC = u ∧ (refuse u a s).get F.SYS_DIAG_RSVD_MULT = s.get F.SYS_DIAG_RSVD_MULT := by
  have e : refuse u a s = ((s.mark F.SYS_DIAG_RSVD_WR).put F.SYS_RSVD_ADDR_ADDR (a / 4)).put F.SYS_DIAG_RSVD_SRC u := by
    simp [refuse, h]
  rw [e]
  refine ⟨?_, ?_, ?_, ?_⟩
  · rw [flag_put_other _ _ _ _ (by decide) (by decide), flag_put_other _ _ _ _ (by decide) (by decide)]
    exact flag_mark_self s _ (by decide) (by decide)
  · rw [get_put_other _ _ _ _ (by decide) (by decide), get_put_self _ _ _ (by decide)]
    exact Nat.mod_eq_of_lt (by change a / 4 < 2 ^ 30; omega)
  · rw [get_put_self _ _ _ (by decide)]
    exact Nat.mod_eq_of_lt hu
  · rw [get_put_other _ _ _ _ (by decide) (by decide), get_put_other _ _ _ _ (by decide) (by decide),
      get_mark_other _ _ _ (by decide) (by decide)]

/-- A later refusal sets RSVD_MULT and no more. -/
theorem refuse_again {u a : Nat} {s : State} (h : s.flag F.SYS_DIAG_RSVD_WR = true) :
    (refuse u a s).flag F.SYS_DIAG_RSVD_WR = true ∧ (refuse u a s).reg A.SYS_RSVD_ADDR = s.reg A.SYS_RSVD_ADDR ∧
      (refuse u a s).get F.SYS_DIAG_RSVD_SRC = s.get F.SYS_DIAG_RSVD_SRC ∧ (refuse u a s).flag F.SYS_DIAG_RSVD_MULT = true := by
  have e : refuse u a s = s.mark F.SYS_DIAG_RSVD_MULT := by simp [refuse, h]
  rw [e]
  refine ⟨?_, reg_mark_ne _ _ (by decide), get_mark_other _ _ _ (by decide) (by decide), flag_mark_self _ _ (by decide) (by decide)⟩
  rw [flag_mark_other _ _ _ (by decide) (by decide), h]

theorem flag_refuse_self {u a : Nat} {s : State} (hu : u < 256) (ha : a < 2 ^ 32) : (refuse u a s).flag F.SYS_DIAG_RSVD_WR = true := by
  cases h : s.flag F.SYS_DIAG_RSVD_WR with
  | false => exact (refuse_first h hu ha).1
  | true => exact (refuse_again h).1

/-- The refusal that wins over a clearing is held as a first one, with RSVD_MULT 0. -/
theorem refuseColliding_record {u a : Nat} {s : State} (hu : u < 256) (ha : a < 2 ^ 32) :
    (refuseColliding u a s).flag F.SYS_DIAG_RSVD_WR = true ∧ (refuseColliding u a s).get F.SYS_RSVD_ADDR_ADDR = a / 4 ∧
      (refuseColliding u a s).get F.SYS_DIAG_RSVD_SRC = u ∧ (refuseColliding u a s).flag F.SYS_DIAG_RSVD_MULT = false := by
  unfold refuseColliding
  refine ⟨?_, ?_, ?_, flag_put_zero _ _ (by decide)⟩
  · rw [flag_put_other _ _ _ _ (by decide) (by decide), flag_put_other _ _ _ _ (by decide) (by decide),
      flag_put_other _ _ _ _ (by decide) (by decide)]
    exact flag_mark_self s _ (by decide) (by decide)
  · rw [get_put_other _ _ _ _ (by decide) (by decide), get_put_other _ _ _ _ (by decide) (by decide), get_put_self _ _ _ (by decide)]
    exact Nat.mod_eq_of_lt (by change a / 4 < 2 ^ 30; omega)
  · rw [get_put_other _ _ _ _ (by decide) (by decide), get_put_self _ _ _ (by decide)]
    exact Nat.mod_eq_of_lt hu

/-! Neither what lets a write through nor what refuses it looks at SYS_DIAG. -/

theorem get_setReg_diag (s : State) (w : Word) (g : Fd) (h : g.addr ≠ 0x10100000) : (s.setReg A.SYS_DIAG w).get g = s.get g :=
  get_setReg_ne s w g h.symm

theorem flag_setReg_diag (s : State) (w : Word) (g : Fd) (h : g.addr ≠ 0x10100000) : (s.setReg A.SYS_DIAG w).flag g = s.flag g :=
  flag_setReg_ne s w g h.symm

theorem pwr_setReg_diag (s : State) (w : Word) : (s.setReg A.SYS_DIAG w).pwr = s.pwr := get_setReg_diag s w _ (by decide)

theorem isHeld_setReg_diag (s : State) (w : Word) (u : Nat) : (s.setReg A.SYS_DIAG w).isHeld u = s.isHeld u := by
  unfold State.isHeld
  rw [get_setReg_diag s w _ (by simp only [F.SYS_FHELD_HELD, A.SYS_FHELD]; omega)]

theorem reaches_setReg_diag (s : State) (w : Word) (u a : Nat) (b : Bool) : reaches u a b (s.setReg A.SYS_DIAG w) = reaches u a b s := by
  have osc := flag_setReg_diag s w F.PWR_STAT_OSC_OK (by decide)
  simp only [reaches, hostAlive, twpAlive, tapAlive, logicPowered, pwr_setReg_diag, isHeld_setReg_diag, State.setReg_pow, State.setReg_flt, osc]

theorem rwlFree_setReg_diag (s : State) (w : Word) {u off : Nat} (ho : off < 0x1000) : rwlFree (s.setReg A.SYS_DIAG w) u off = rwlFree s u off := by
  unfold rwlFree
  split
  · next h =>
    simp only [isPortUnit, Bool.and_eq_true, decide_eq_true_eq] at h
    rw [flag_setReg_diag s w (F.FL_CTRL_EN _) (by simp only [F.FL_CTRL_EN, A.FL_CTRL]; omega),
      flag_setReg_diag s w (F.FL_STAT_ACTIVE _) (by simp only [F.FL_STAT_ACTIVE, A.FL_STAT]; omega)]
  · split
    · next h =>
      have run := flag_setReg_diag s w (F.FC_CTRL_RUN (u - 0x61)) (by simp only [F.FC_CTRL_RUN, A.FC_CTRL]; omega)
      simp only [fcStopped, fcActive, State.chain, State.setReg_chains, run]
    · split
      · exact congrArg _ (flag_setReg_diag s w (F.TMR_CTRL_RUN _) (by simp only [F.TMR_CTRL_RUN, A.TMR_CTRL]; omega))
      · rfl

theorem alsoReserved_setReg_diag (s : State) (w : Word) (u off n : Nat) :
    alsoReserved u off n (s.setReg A.SYS_DIAG w) = alsoReserved u off n s := by
  have men := get_setReg_diag s w F.SYS_PIN_CFG_MEN (by decide)
  simp only [alsoReserved, portUnpinned, men]

theorem rwlBars_setReg_diag (s : State) (w : Word) (d : RegDef) (a n : Nat) :
    rwlBars d (blockOf a) (offOf a) ((s.setReg A.SYS_DIAG w).reg a).toNat n (s.setReg A.SYS_DIAG w) =
      rwlBars d (blockOf a) (offOf a) (s.reg a).toNat n s := by
  by_cases h : a < 0x10080000
  · have ho : offOf a < 0x1000 := by simp only [offOf, if_pos h]; omega
    have hne : (0x10100000 : Nat) ≠ a := by omega
    rw [reg_setReg_ne s w hne]
    simp only [rwlBars, rwlFree_setReg_diag s w ho]
  · have hu : blockOf a = 0x100 := if_neg h
    simp [rwlBars, rwlFree, isPortUnit, hu]

theorem writeBarred_setReg_diag (s : State) (w n : Word) (a : Nat) : writeBarred a n (s.setReg A.SYS_DIAG w) = writeBarred a n s := by
  unfold writeBarred
  simp only [alsoReserved_setReg_diag, rwlBars_setReg_diag]

theorem writes_setReg_diag {u : Fin 256} {a : Nat} {s : State} (w : Word) (h : Writes u a s) : Writes u a (s.setReg A.SYS_DIAG w) :=
  ⟨(reaches_setReg_diag s w u.val a true).trans h.1, h.2⟩

/-! A refused write, alone and together with the clearing of RSVD_WR. -/

/-- What R5 or R7 refuses by the tables alone is barred in every state. -/
theorem writeBarred_of_reservedWord {a : Nat} {v : Word} {s : State} (h : reservedWord a v = true ∨ writeBarred a v s = true) :
    writeBarred a v s = true := by
  rcases h with h | h
  · unfold reservedWord at h
    unfold writeBarred
    cases hf : findReg a with
    | none => rfl
    | some p => simp only [hf] at h; simp [h]
  · exact h

/-- A write of SYS_DIAG that is not refused writes SYS_DIAG alone. -/
theorem registerWrite_diag {u : Fin 256} {v : Word} {s : State} (h : Accepts u A.SYS_DIAG v s) :
    registerWrite u.val A.SYS_DIAG v s = fieldsWritten row_SYS_DIAG A.SYS_DIAG v s := by
  obtain ⟨hf, -, hb⟩ := find_SYS_DIAG
  exact registerWrite_fields h hf (by decide) hb

/-- RSVD_WR, cleared by `u` at the instant of a refused write of `u2`: the refusal wins, whichever of the two is given first (R6). -/
theorem registerWrites_collide {u u2 : Fin 256} {v v2 : Word} {b : Nat} {s : State} (h : Accepts u A.SYS_DIAG v s) (hv : v.getLsbD 0 = true)
    (h2 : Writes u2 b s) (hb : writeBarred b v2 s = true) (hlt : b < 2 ^ 32) (ho : 0x10110000 ≤ b → 0x10112000 ≤ b) (hm : mirrorOf b = none) :
    registerWrites u.val A.SYS_DIAG v (some (u2.val, b, v2)) s =
      refuseColliding u2.val b (refuse u2.val b (fieldsWritten row_SYS_DIAG A.SYS_DIAG v s)) := by
  have refused : ∀ w : Word, registerWrite u2.val b v2 (s.setReg A.SYS_DIAG w) = refuse u2.val b (s.setReg A.SYS_DIAG w) := fun w =>
    registerWrite_refused (writes_setReg_diag w h2) ((writeBarred_setReg_diag s w v2 b).trans hb) ho hm
  have clears : clearsRsvd u.val A.SYS_DIAG v s = true := by
    have hbit : bit v.toNat 0 = true := by
      rw [BitVec.getLsbD, Nat.testBit_zero] at hv
      simpa [bit] using hv
    simp [clearsRsvd, h.2, h.1.1, hbit, F.SYS_DIAG_RSVD_WR]
  have keeps : clearsRsvd u2.val b v2 s = false := by simp [clearsRsvd, hb]
  have was : wasRefused (registerWrite u2.val b v2) s = true := by
    unfold wasRefused
    rw [refused]
    exact flag_refuse_self u2.isLt hlt
  have wins : refuseColliding u2.val b (registerWrite u2.val b v2 (registerWrite u.val A.SYS_DIAG v s)) =
      refuseColliding u2.val b (refuse u2.val b (fieldsWritten row_SYS_DIAG A.SYS_DIAG v s)) := by
    rw [registerWrite_diag h, fieldsWritten, refused]
  unfold registerWrites
  dsimp only
  split
  · simpa [twoWrites, clears, keeps, was] using wins
  · simpa [twoWrites, clears, was] using wins

/-- Settles O1: a refused write is `refuse` and nothing else, and beside a clearing of RSVD_WR it is recorded anew after the clearing. -/
theorem refusedWritesAreRecorded : Obligations.RefusedWritesAreRecorded := by
  unfold Obligations.RefusedWritesAreRecorded
  constructor
  · intro u a v s hw hr ho hm
    refine ⟨refuse u.val a.toNat s, ?_, untouched_refuse _ _ _, flag_refuse_self u.isLt a.isLt, fun h => ?_, fun h => ?_⟩
    · rw [exec_registerWrite, registerWrite_refused hw (writeBarred_of_reservedWord hr) ho hm]
    · exact (refuse_first h u.isLt a.isLt).2
    · exact (refuse_again h).2
  · intro u u2 v b v2 s hw hb hv hw2 hr ho hm
    refine ⟨refuseColliding u2.val b.toNat (refuse u2.val b.toNat (fieldsWritten row_SYS_DIAG A.SYS_DIAG v s)), ?_, ?_,
      refuseColliding_record u2.isLt b.isLt⟩
    · exact (exec_registerWrite_two u u2 _ v b v2 s).trans
        (congrArg _ (registerWrites_collide ⟨hw, hb⟩ hv hw2 (writeBarred_of_reservedWord hr) b.isLt ho hm))
    · exact Untouched_trans (Untouched_setReg (Untouched_refl s _) _ (by decide))
        (Untouched_trans (untouched_refuse _ _ _) (untouched_refuseColliding _ _ _))

/-! Addresses that hold no memory and no register (R7). -/

/-- The host address `a` lies outside both memories, the registers, the mirrors of the cores' unit I/O and the OTP. -/
def Vacant (a : Nat) : Prop :=
  inLedger a = false ∧ inPigeon a = false ∧ findReg (a / 4 * 4) = none ∧ mirrorOf (a / 4 * 4) = none ∧ (a < 0x10110000 ∨ 0x10112000 ≤ a)

/-- Where no register stands, the address is none of those whose read does more than show a word. -/
theorem regRead_of_noRegister (u : Nat) {a : Nat} (s : State) (ha : 0x10000000 ≤ a) (hf : findReg a = none) : regRead u a s = (regView u a s, s) := by
  have pm : a ≠ A.SYS_PM_LO := by rintro rfl; simp [find_SYS_PM_LO.1] at hf
  have tt : a ≠ A.TT_RDATA_HI := by rintro rfl; simp [find_TT_RDATA_HI.1] at hf
  have cdata (i : Fin 16) : a ≠ A.FC_CDATA i := by rintro rfl; simp [(find_FC_CDATA i).1] at hf
  have lastv (i : Fin 16) : a ≠ A.FC_LASTV i := by rintro rfl; simp [(find_FC_LASTV i).1] at hf
  have capa (i : Fin 16) : a ≠ A.TMR_CAPA i := by rintro rfl; simp [(find_TMR_CAPA i).1] at hf
  have capb (i : Fin 16) : a ≠ A.TMR_CAPB i := by rintro rfl; simp [(find_TMR_CAPB i).1] at hf
  have mdata (i : Fin 65) : a ≠ A.SRT_MDATA i := by rintro rfl; simp [(find_SRT_MDATA i).1] at hf
  have place : blockOf a ≤ 0x7F → a = 0x10000000 + 0x1000 * blockOf a + offOf a := by
    unfold blockOf offOf
    split <;> omega
  unfold regRead
  dsimp only
  rw [if_neg pm, if_neg tt]
  rw [if_neg fun ⟨h1, h2, h3⟩ => cdata ⟨blockOf a - 0x61, by omega⟩ (by simp only [A.FC_CDATA]; omega)]
  rw [if_neg fun ⟨h1, h2, h3⟩ => lastv ⟨blockOf a - 0x61, by omega⟩ (by simp only [A.FC_LASTV]; omega)]
  rw [if_neg fun ⟨h1, h2, h3⟩ => capa ⟨offOf a / 64, by omega⟩ (by simp only [A.TMR_CAPA]; omega)]
  rw [if_neg fun ⟨h1, h2, h3⟩ => capb ⟨offOf a / 64, by omega⟩ (by simp only [A.TMR_CAPB]; omega)]
  rw [if_neg fun ⟨h1, h2⟩ => mdata ⟨blockOf a, by omega⟩ (by simp only [A.SRT_MDATA]; omega)]

theorem regView_of_noRegister (u : Nat) {a : Nat} (s : State) (hf : findReg a = none) (hm : mirrorOf a = none) (ho : a < 0x10110000 ∨ 0x10112000 ≤ a) :
    regView u a s = 0 := by
  unfold regView
  rw [if_neg (by omega), hm]
  simp [hf]

theorem regRead_vacant (u : Nat) {a : Nat} (s : State) (h : Vacant a) (ha : 0x10000000 ≤ a) : regRead u (a / 4 * 4) s = (0, s) := by
  obtain ⟨-, -, hf, hm, ho⟩ := h
  rw [regRead_of_noRegister u s (by omega) hf, regView_of_noRegister u s hf hm (by omega)]

theorem hostReadByte_vacant (u : Nat) {a : Nat} (s : State) (h : Vacant a) : hostReadByte u a s = (0#8, s) := by
  obtain ⟨hl, hp, -⟩ := h
  have own : ownRecords a = false := by
    simp only [inLedger, decide_eq_false_iff_not] at hl
    simp only [ownRecords, Bool.or_eq_false_iff, Bool.and_eq_false_iff, decide_eq_false_iff_not]
    omega
  simp [hostReadByte, hostByte, hl, hp, own]

/-- A read stream over vacant addresses sends zeros, meets no late byte and changes nothing. -/
theorem hostStream_vacant (n a : Nat) (first : Bool) (s : State) (ha : a + n ≤ 2 ^ 32) (h : ∀ i, i < n → Vacant (a + i)) :
    hostStream n a first none 0 s = (List.replicate n 0#8, none, s) := by
  induction n generalizing a first with
  | zero => rfl
  | succ n ih =>
    have h0 : Vacant a := h 0 (by omega)
    have next : hostStream n ((a + 1) % 4294967296) false none 0 s = (List.replicate n 0#8, none, s) := by
      rcases Nat.eq_zero_or_pos n with rfl | hn
      · rfl
      · rw [Nat.mod_eq_of_lt (by omega)]
        exact ih (a + 1) false (by omega) fun i hi => by rw [Nat.add_right_comm]; exact h (i + 1) (by omega)
    unfold hostStream
    by_cases hlow : a < 0x10000000
    · have byte := hostReadByte_vacant hostUnit s h0
      obtain ⟨hl, hp, -⟩ := h0
      simp [hlow, hl, hp, byte, next, List.replicate_succ]
    · have word : (if first = true ∨ a % 4 = 0 then regRead hostUnit (a / 4 * 4) s else (0, s)) = (0, s) := by
        rw [regRead_vacant hostUnit s h0 (by omega), ite_self]
      simp [hlow, word, next, List.replicate_succ]

/-! READ over vacant addresses (R306). -/

/-- Without posted writes a read of vacant addresses leaves all but what the port sends. -/
theorem streamOut_vacant {a n : Nat} {s : State} (ha : a + n ≤ 2 ^ 32) (h : ∀ i, i < n → Vacant (a + i)) (hp : s.host.posted = []) :
    streamOut a n none s = (sendOut (List.replicate n 0#8) s).modHost (fun h => { h with stream := some (a % 2 ^ 32) }) := by
  have all : postedAll s = s := by simp [postedAll, postedComplete, hp]
  have stream : hostStream n (a % 2 ^ 32) true none 0 s = (List.replicate n 0#8, none, s) := by
    rcases Nat.eq_zero_or_pos n with rfl | hn
    · rfl
    · rw [Nat.mod_eq_of_lt (by omega)]
      exact hostStream_vacant n a true s ha h
  unfold streamOut
  rw [all, stream]

theorem modHost_host (s : State) (g : HostPort → HostPort) : (s.modHost g).host = g s.host := rfl

theorem modHost_modHost (s : State) (g h : HostPort → HostPort) : (s.modHost g).modHost h = s.modHost (fun x => h (g x)) := rfl

/-- A counter and the host port's own state are all that changes. -/
theorem incWrap_modHost_frame (s : State) (f : Fd) (n : Nat) (g : HostPort → HostPort) :
    (s.incWrap f n).modHost g = { s with regs := ((s.incWrap f n).modHost g).regs, host := ((s.incWrap f n).modHost g).host } := rfl

/-- The state in which the port has begun a command. -/
def commandBegun (s : State) : State :=
  (s.incWrap F.HOST_CNT_CMDS).modHost (fun h => { h with
    busy := true, armed := false, out := [], more := .none, wide := s.flag F.HOST_STAT_FORM4, stream := none })

/-- A port that serves, selected, with no command in progress, begins a command of both forms. -/
theorem hostCommand_begun {s : State} (act : State → State) (ha : hostAlive s = true) (hl : s.host.low = true) (hb : s.host.busy = false)
    (hd : s.host.discard = false) : hostCommand true true act s = act (commandBegun s) := by
  simp [hostCommand, commandBegun, ha, hl, hb, hd]

theorem commandBegun_posted (s : State) : (commandBegun s).host.posted = s.host.posted := by
  rw [commandBegun, modHost_host, State.incWrap_host]

/-- The state after a READ of `n` vacant bytes from `a`: the command is counted, and the port sends zeros. -/
def zerosRead (a n : Nat) (s : State) : State :=
  (s.incWrap F.HOST_CNT_CMDS).modHost (fun h => { h with
    busy := true, armed := false, out := List.replicate n 0#8, more := .none, wide := s.flag F.HOST_STAT_FORM4, stream := some (a % 2 ^ 32) })

theorem commandBegun_zeros (a n : Nat) (s : State) :
    (sendOut (List.replicate n 0#8) (commandBegun s)).modHost (fun h => { h with stream := some (a % 2 ^ 32) }) = zerosRead a n s := by
  unfold sendOut commandBegun zerosRead
  rw [modHost_modHost, modHost_modHost]

theorem hostReadCmd_vacant {a n : Nat} {s : State} (ha : a + n ≤ 2 ^ 32) (h : ∀ i, i < n → Vacant (a + i)) (hal : hostAlive s = true)
    (hl : s.host.low = true) (hb : s.host.busy = false) (hd : s.host.discard = false) (hp : s.host.posted = []) :
    hostReadCmd a n none s = zerosRead a n s := by
  rw [hostReadCmd, hostCommand_begun _ hal hl hb hd, streamOut_vacant ha h ((commandBegun_posted s).trans hp)]
  exact commandBegun_zeros a n s

theorem zerosRead_out (a n : Nat) (s : State) : (zerosRead a n s).host.out = List.replicate n 0#8 := by
  rw [zerosRead, modHost_host]

theorem untouched_zerosRead (a n : Nat) (s : State) : Untouched s (zerosRead a n s) [A.HOST_CNT] := by
  have counted : Untouched s (s.incWrap F.HOST_CNT_CMDS) [A.HOST_CNT] := Untouched_incWrap (Untouched_refl s _) _ 1 (by decide)
  unfold zerosRead
  exact Untouched_same counted (State.modHost_regs _ _) (State.modHost_mem _ _)

theorem zerosRead_frame (a n : Nat) (s : State) : zerosRead a n s = { s with regs := (zerosRead a n s).regs, host := (zerosRead a n s).host } :=
  incWrap_modHost_frame s _ _ _

/-! A write of a vacant address. -/

theorem registerWrite_vacant {u : Fin 256} {a : Nat} {v : Word} {s : State} (h : Vacant a) (hw : Writes u a s) :
    registerWrite u.val a v s = refuse u.val a s := by
  obtain ⟨-, -, hf, hm, ho⟩ := h
  have aligned : a / 4 * 4 = a := by
    have := hw.1
    simp only [reaches, Bool.and_eq_true, beq_iff_eq] at this
    omega
  rw [aligned] at hf hm
  exact registerWrite_refused hw (writeBarred_of_reservedWord (.inl (by simp [reservedWord, hf]))) (by omega) hm

/-- Settles O5: a read finds no action, no view and no cell, and a write is one that R5 refuses. -/
theorem unoccupiedAddressesReadZero : Obligations.UnoccupiedAddressesReadZero := by
  unfold Obligations.UnoccupiedAddressesReadZero
  dsimp only
  refine ⟨fun u a s h => ?_, fun a m s ha h hal hl hb hd _ hp => ?_, fun u a v s h hw => ?_⟩
  · split
    · next hge => exact regRead_vacant u s h hge
    · exact hostReadByte_vacant u s h
  · refine ⟨zerosRead a.toNat m s, ?_, zerosRead_out _ _ _, untouched_zerosRead _ _ _, zerosRead_frame _ _ _⟩
    rw [exec_read, hostReadCmd_vacant ha h hal hl hb hd hp]
  · refine ⟨refuse u.val a.toNat s, ?_, untouched_refuse _ _ _, refuse_regs _ _ _, flag_refuse_self u.isLt a.isLt, fun hf => ?_, fun hf => ?_⟩
    · rw [exec_registerWrite, registerWrite_vacant h hw]
    · obtain ⟨-, addr, src, -⟩ := refuse_first hf u.isLt a.isLt
      exact ⟨addr, src⟩
    · obtain ⟨-, addr, src, -⟩ := refuse_again hf
      exact ⟨addr, src⟩

end Sys2Proof.Machine

/-!
PROOFS. The trend unit (08): a reading of an endpoint in no bin under the device-wide curve (R161, R166, R167, R173), the order of two ports'
readings of one endpoint (R11), and a field report of such an endpoint (R177).
-/

namespace Sys2Proof.Machine

theorem exec_trendReading (p : Fin 32) (s : State) : exec (.trendReading p) s = .next (trendReading p.val s) := rfl

theorem exec_fieldReport (p : Fin 32) (s : State) : exec (.fieldReport p) s = .next (trendReport p.val s) := rfl

theorem goes_trendReading {p : Fin 32} {s t : State} {P : State → Prop} (h : trendReading p.val s = t) (ht : P t) : Goes (.trendReading p) s P :=
  ⟨t, by rw [exec_trendReading, h], ht⟩

theorem goes_fieldReport {p : Fin 32} {s t : State} {P : State → Prop} (h : trendReport p.val s = t) (ht : P t) : Goes (.fieldReport p) s P :=
  ⟨t, by rw [exec_fieldReport, h], ht⟩

/-! No node transaction waits: to try the waiting ones again changes nothing (R178). -/

/-- No port has a node transaction that waits for readings. -/
abbrev NoNodeWaits (s : State) : Prop := ∀ o ∈ s.ports, o.txn.all (fun n => n.todo.isNone) = true

theorem forUpTo_id {σ : Type} {f : Nat → σ → σ} {s : σ} (h : ∀ i, f i s = s) (n : Nat) : forUpTo n f s = s := by
  induction n with
  | zero => rfl
  | succ n ih => rw [forUpTo, ih, h]

theorem tryNode_noNodeWaits {s : State} (h : NoNodeWaits s) (p : Nat) : tryNode p s = s := by
  unfold tryNode
  split
  · rfl
  · next t ht =>
    obtain ⟨q, hq, hqt⟩ := Option.bind_eq_some_iff.mp ht
    have idle : t.todo = none := by simpa [hqt] using h q (List.mem_of_getElem? hq)
    rw [idle]

theorem retryNodes_noNodeWaits {s : State} (h : NoNodeWaits s) : retryNodes s = s := forUpTo_id (tryNode_noNodeWaits h) 32

theorem mem_upd {α : Type} {l : List α} {i : Nat} {f : α → α} {x : α} (h : x ∈ upd l i f) : ∃ y ∈ l, x = y ∨ x = f y := by
  obtain ⟨j, hj⟩ := List.mem_iff_getElem?.mp h
  by_cases hij : i = j
  · subst hij
    rw [upd_get] at hj
    obtain ⟨y, hy, rfl⟩ := Option.map_eq_some_iff.mp hj
    exact ⟨y, List.mem_of_getElem? hy, .inr rfl⟩
  · rw [upd_get_ne _ _ hij] at hj
    exact ⟨x, List.mem_of_getElem? hj, .inl rfl⟩

theorem noNodeWaits_modPort {s : State} (h : NoNodeWaits s) (p : Nat) {f : Port → Port} (hf : ∀ q, (f q).txn = q.txn) :
    NoNodeWaits (s.modPort p f) := by
  intro o ho
  obtain ⟨q, hq, rfl | rfl⟩ := mem_upd ho
  · exact h o hq
  · rw [hf]; exact h q hq

/-! What TREND_READING and FIELD_REPORT do with the oldest reading or report of a port. -/

/-- No other port holds an earlier reading of the endpoint of `r` (R11). -/
abbrev EarliestReading (s : State) (p : Nat) (r : Reading) : Prop :=
  ∀ k < 32, k ≠ p → ∀ o ∈ (s.port k).toList, ∀ x ∈ o.readings, x.ep = r.ep → r.pm ≤ x.pm

theorem earlierElsewhere_eq_false_iff (s : State) (p : Nat) (r : Reading) : earlierElsewhere s p r = false ↔ EarliestReading s p r := by
  unfold earlierElsewhere EarliestReading
  simp only [List.any_eq_false, List.mem_range]
  refine forall₂_congr fun k _ => ?_
  cases s.port k <;> simp

section
variable {p : Nat} {q : Port} {s : State} (hq : s.port p = some q)
include hq

theorem trendReading_nil (h : q.readings = []) : trendReading p s = s := by
  simp [trendReading, hq, h]

theorem trendReport_nil (h : q.reports = []) : trendReport p s = s := by
  simp [trendReport, hq, h]

theorem trendReading_waits {r : Reading} {rest : List Reading} (h : q.readings = r :: rest) (hf : ¬EarliestReading s p r) :
    trendReading p s = s := by
  rw [← earlierElsewhere_eq_false_iff, Bool.not_eq_false] at hf
  simp [trendReading, hq, h, hf]

theorem trendReading_accepts {r : Reading} {rest : List Reading} (h : q.readings = r :: rest) (hi : trendIdle s = false)
    (hf : EarliestReading s p r) :
    trendReading p s = retryNodes (acceptReading p r (s.modPort p (fun q => { q with readings := rest }))) := by
  rw [← earlierElsewhere_eq_false_iff] at hf
  simp [trendReading, hq, h, hi, hf]

theorem trendReport_accepts {r : Report} {rest : List Report} (h : q.reports = r :: rest) (hi : trendIdle s = false) :
    trendReport p s = fieldReport r (s.modPort p (fun q => { q with reports := rest })) := by
  simp [trendReport, hq, h, hi]

end

/-! The device-wide curve with a gain and offset of 0 (R166, R167). -/

theorem divRoundAway_mul_self (z : Int) {d : Nat} (hd : 0 < d) : divRoundAway (z * d) d = z := by
  have half : (d : Int) / (2 * d) = 0 := Int.ediv_eq_zero_of_lt (by omega) (by omega)
  have whole (y : Int) : (2 * (y * d) + d) / (2 * d) = y := by
    rw [show 2 * (y * d) + d = d + y * (2 * (d : Int)) by ring, Int.add_mul_ediv_right _ _ (by omega), half, zero_add]
  unfold divRoundAway
  split
  · exact whole z
  · rw [← Int.neg_mul, whole, neg_neg]

/-- Curve 0 of Table 8.5: RAWMIN, RAWMAX and C0 to C2. -/
theorem curveField_zero : curveField 0 2 2 = -32767 ∧ curveField 0 4 2 = 32767 ∧ curveField 0 8 4 = 0 ∧
    curveField 0 12 4 = 2 ^ 24 ∧ curveField 0 16 4 = 0 := ⟨rfl, rfl, rfl, rfl, rfl⟩

/-- Every raw code of 16 bits but 0x8000 lies within the limits of curve 0. -/
theorem toSigned_raw_bounds {raw : Nat} (h : raw < 65536) (h8 : raw ≠ 0x8000) : -32767 ≤ toSigned 16 raw ∧ toSigned 16 raw ≤ 32767 := by
  unfold toSigned
  dsimp only
  split <;> omega

theorem calibrate_zero {raw : Nat} (h : raw < 65536) (h8 : raw ≠ 0x8000) : calibrate 0 raw 0 0 = (toSigned 16 raw, qGood) := by
  obtain ⟨lo, hi⟩ := toSigned_raw_bounds h h8
  obtain ⟨rawMin, rawMax, c0, c1, c2⟩ := curveField_zero
  generalize hx : toSigned 16 raw = x at lo hi ⊢
  have curve : (0 * 2 ^ 16 + 2 ^ 24 * x * 2 ^ 8 + 0 * x * x) * (65536 + 0) + 0 * 2 ^ 48 = x * ((2 ^ 48 : Nat) : Int) := by push_cast; ring
  unfold calibrate
  dsimp only
  rw [hx, rawMin, rawMax, c0, c1, c2, max_eq_left lo, min_eq_left hi, curve, divRoundAway_mul_self _ (by decide)]
  rw [if_neg (by omega), if_neg (by omega), if_neg (by omega)]

theorem calibrateAt_failed (s : State) (e : Nat) {raw : Nat} (h : raw = 0x8000) : calibrateAt s e raw = ((0, qFailed), []) := by
  rw [h]; rfl

/-! An endpoint in no bin. -/

section
variable {s : State} (hv : s.trend.valid = [])
include hv

theorem binOf_noValid (e : Nat) : binOf s e = none := by
  simp [binOf, hv]

theorem meetBin_noValid (e : Nat) : meetBin e s = s := by
  simp [meetBin, binOf_noValid hv]

theorem calibrateAt_unadjusted {e raw : Nat} (hp : poisonFor s 0x78 (calAddr e) = false) (hc : s.num (calAddr e) 4 = 0)
    (h : raw < 65536) (h8 : raw ≠ 0x8000) : calibrateAt s e raw = ((toSigned 16 raw, qGood), []) := by
  have plain : raw % 2 ^ 16 ≠ 0x8000 := by omega
  unfold calibrateAt
  rw [if_neg plain, if_neg (by simp [hp]), binOf_noValid hv, hc]
  exact congrArg (·, []) (calibrate_zero h h8)

end

/-! The entry that a reading leaves (R161, R173). -/

/-- What a reading makes of an empty entry: failed for the raw code 0x8000, else its raw code, seeded. -/
def seededEntry (r : Reading) : BookEntry :=
  if r.raw = 0x8000 then ⟨false, qFailed, 0, 0, 0⟩ else ⟨false, qSeeded, 0, toSigned 16 r.raw, r.pm / 2 ^ 18 % 2 ^ 32⟩

/-- The update of an empty entry, with the addresses that the reading read: its calibration word, unless it failed, and its entry. -/
def seededRead (r : Reading) : PendRead :=
  ⟨r.ep, r.pm, encodeLo (seededEntry r), (seededEntry r).stamp, [], false, [], (if r.raw = 0x8000 then [] else [calAddr r.ep]) ++ [8 * r.ep]⟩

theorem entryNow_empty {s : State} {e : Nat} (hh : s.ledg.held = []) (hn : pendOf s e = none) (lo : s.num (8 * e) 4 = 0)
    (hi : s.num (8 * e + 4) 4 = 0) : entryNow s e = ⟨false, qEmpty, 0, 0, 0⟩ := by
  have words : bookWords s e = (0, 0) := by simp [bookWords, hh, lo, hi]
  simp only [entryNow, hn, words]
  rfl

theorem updateEntry_failed (old : BookEntry) (alpha gapMax : Nat) (v : Int) (pm : Nat) :
    updateEntry old alpha gapMax v qFailed pm = { old with qual := qFailed } := rfl

theorem updateEntry_empty (alpha gapMax : Nat) (v : Int) (pm : Nat) :
    updateEntry ⟨false, qEmpty, 0, 0, 0⟩ alpha gapMax v qGood pm = ⟨false, qSeeded, 0, v, pm / 2 ^ 18 % 2 ^ 32⟩ := rfl

/-- In no bin and with every read sound: the entry is updated with ALPHA 4 and GAP_MAX 600, and no event is raised. -/
theorem judgeReading_noBin {s : State} {r : Reading} {v : Int} {qu : Nat} (hv : s.trend.valid = []) (book : poisonFor s 0x78 (8 * r.ep) = false)
    (hn : pendOf s r.ep = none) (hr : r.raw < 65536) (value : calibrateAt s r.ep r.raw = ((v, qu), [])) :
    judgeReading s r = ⟨r.ep, r.pm, encodeLo (updateEntry (entryNow s r.ep) 4 600 v qu r.pm), (updateEntry (entryNow s r.ep) 4 600 v qu r.pm).stamp, [],
      false, [], (if r.raw = 0x8000 then [] else [calAddr r.ep]) ++ [8 * r.ep]⟩ := by
  have clean : bookPoison s r.ep = false := by simp [bookPoison, book]
  have raw : r.raw % 65536 = r.raw := Nat.mod_eq_of_lt hr
  unfold judgeReading
  rw [value, clean, binOf_noValid hv, hn]
  simp [raw]

theorem judgeReading_empty {s : State} {r : Reading} (hv : s.trend.valid = []) (hh : s.ledg.held = []) (book : poisonFor s 0x78 (8 * r.ep) = false)
    (cal : poisonFor s 0x78 (calAddr r.ep) = false) (hn : pendOf s r.ep = none) (lo : s.num (8 * r.ep) 4 = 0) (hi : s.num (8 * r.ep + 4) 4 = 0)
    (hc : s.num (calAddr r.ep) 4 = 0) (hr : r.raw < 65536) : judgeReading s r = seededRead r := by
  unfold seededRead seededEntry
  by_cases h8 : r.raw = 0x8000
  · rw [judgeReading_noBin hv book hn hr (calibrateAt_failed s r.ep h8), entryNow_empty hh hn lo hi, updateEntry_failed, if_pos h8, if_pos h8]
  · rw [judgeReading_noBin hv book hn hr (calibrateAt_unadjusted hv cal hc hr h8), entryNow_empty hh hn lo hi, updateEntry_empty, if_neg h8, if_neg h8]

theorem acceptReading_beyond (p : Nat) {r : Reading} (s : State) (h : 0x500000 ≤ r.ep) : acceptReading p r s = s.incSat F.TREND_CNT_ERR_RANGE :=
  if_pos h

/-- Into an empty buffer, with no bin: the update of the entry waits there. -/
theorem acceptReading_emptyBuffer {p : Nat} {r : Reading} {s : State} (h : r.ep < 0x500000) (hb : s.trend.backs[p]? = some ⟨[], []⟩)
    (hv : s.trend.valid = []) : acceptReading p r s = modBack p (fun w => { w with reads := [judgeReading s r] }) s := by
  have back : backOf s p = ⟨[], []⟩ := by simp [backOf, nth, List.getD, hb]
  unfold acceptReading
  rw [if_neg (by omega), back]
  dsimp only
  rw [meetBin_noValid hv]
  refine congrArg (fun l => s.modTrend (fun t => { t with backs := l })) (upd_congr s.trend.backs p _ _ fun w hw => ?_)
  obtain rfl : ⟨[], []⟩ = w := Option.some.inj (hb.symm.trans hw)
  rfl

/-! A field report (R177). -/

theorem readAs_noFlips {s : State} (h : s.ledg.flips = []) (u a : Nat) : readAs u a s = s := by
  have sound : poisonAt s a = false := by simp [poisonAt, badKeys, badFlips, h]
  have none : flipsAt s a = [] := by simp [flipsAt, h]
  have effect : readEffect a s = s := by simp [readEffect, sound, none, sortNat]
  rw [readAs, effect, ite_self]

/-- A record raised without a bin is offered to the gatekeeper as one letter, whose decision is awaited. -/
theorem raiseEvents_letter (body : List Byte) (s : State) : raiseEvents none false [⟨body, none⟩] s =
    (offer ⟨0x78, body, 0⟩ s).modTrend (fun t => { t with awaits := t.awaits ++ [⟨none, 1, true, false⟩] }) := rfl

theorem fieldReport_noBin {r : Report} {s : State} (h : r.ep < 0x500000) (hv : s.trend.valid = []) (hf : s.ledg.flips = [])
    (cal : poisonFor s 0x78 (calAddr r.ep) = false) (hc : s.num (calAddr r.ep) 4 = 0) (hr : r.raw < 65536) (h8 : r.raw ≠ 0x8000) :
    fieldReport r s = (offer ⟨0x78, trendRecord s r.pm r.ep 0x15 qGood (toSigned 16 r.raw) (curveScale 0) r.kind, 0⟩ s).modTrend
      (fun t => { t with awaits := t.awaits ++ [⟨none, 1, true, false⟩] }) := by
  unfold fieldReport
  rw [if_neg (by omega)]
  simp only [meetBin_noValid hv, calibrateAt_unadjusted hv cal hc hr h8, List.isEmpty_nil, if_true, readAs_noFlips hf, binOf_noValid hv]
  exact raiseEvents_letter _ s

/-! The rows on a port's oldest reading and oldest report. -/

section
variable {p : Nat} {q : Port} {s : State} (hq : s.port p = some q) (busy : trendIdle s = false)
include hq busy

theorem trendReading_beyond {r : Reading} {rest : List Reading} (hw : NoNodeWaits s) (h : q.readings = r :: rest) (hf : EarliestReading s p r)
    (he : 0x500000 ≤ r.ep) :
    trendReading p s = (s.modPort p (fun q => { q with readings := rest })).incSat F.TREND_CNT_ERR_RANGE := by
  rw [trendReading_accepts hq h busy hf, acceptReading_beyond _ _ he]
  exact retryNodes_noNodeWaits (noNodeWaits_modPort hw p fun _ => rfl)

theorem trendReading_empty {r : Reading} {rest : List Reading} (hw : NoNodeWaits s) (h : q.readings = r :: rest) (hf : EarliestReading s p r)
    (he : r.ep < 0x500000) (hb : s.trend.backs[p]? = some ⟨[], []⟩) (hv : s.trend.valid = []) (hh : s.ledg.held = [])
    (book : poisonFor s 0x78 (8 * r.ep) = false) (cal : poisonFor s 0x78 (calAddr r.ep) = false) (hn : pendOf s r.ep = none)
    (lo : s.num (8 * r.ep) 4 = 0) (hi : s.num (8 * r.ep + 4) 4 = 0) (hc : s.num (calAddr r.ep) 4 = 0) (hr : r.raw < 65536) :
    trendReading p s = modBack p (fun w => { w with reads := [seededRead r] }) (s.modPort p (fun q => { q with readings := rest })) := by
  have judged : judgeReading (s.modPort p (fun q => { q with readings := rest })) r = seededRead r :=
    judgeReading_empty hv hh book cal hn lo hi hc hr
  rw [trendReading_accepts hq h busy hf, acceptReading_emptyBuffer (s := s.modPort p _) he hb hv, judged]
  exact retryNodes_noNodeWaits (noNodeWaits_modPort hw p fun _ => rfl)

theorem trendReport_noBin {r : Report} {rest : List Report} (h : q.reports = r :: rest) (he : r.ep < 0x500000) (hv : s.trend.valid = [])
    (hf : s.ledg.flips = []) (cal : poisonFor s 0x78 (calAddr r.ep) = false) (hc : s.num (calAddr r.ep) 4 = 0) (hr : r.raw < 65536)
    (h8 : r.raw ≠ 0x8000) :
    trendReport p s = (offer ⟨0x78, trendRecord s r.pm r.ep 0x15 qGood (toSigned 16 r.raw) (curveScale 0) r.kind, 0⟩
      (s.modPort p (fun q => { q with reports := rest }))).modTrend (fun t => { t with awaits := t.awaits ++ [⟨none, 1, true, false⟩] }) := by
  rw [trendReport_accepts hq h busy]
  exact fieldReport_noBin he hv hf cal hc hr h8

end

/-- Settles O26: with no bin and a zero calibration word curve 0 gives the raw code back, an empty entry takes no running mean, and no node
transaction waits for what the unit has accepted. -/
theorem trendTakesReadings : Obligations.TrendTakesReadings := by
  unfold Obligations.TrendTakesReadings
  intro p q s hq busy hw first
  refine ⟨?waits, ?noReading, ?noReport, ?beyond, ?empty, ?report⟩
  case waits => exact fun r rest h hf => goes_trendReading (trendReading_waits hq h hf) rfl
  case noReading => exact fun h => goes_trendReading (trendReading_nil hq h) rfl
  case noReport => exact fun h => goes_fieldReport (trendReport_nil hq h) rfl
  case beyond =>
    intro r rest h hf he
    refine goes_trendReading (trendReading_beyond hq busy hw h hf he) ⟨get_incSat_self _ _ 1 (by decide), ?_, rfl⟩
    exact Untouched_incSat (Untouched_same (Untouched_refl s _) rfl rfl) _ 1 (by decide)
  case empty =>
    intro r rest h hf he hb hv hh book cal hn lo hi hc hr
    exact goes_trendReading (trendReading_empty hq busy hw h hf he hb hv hh book cal hn lo hi hc hr) ⟨rfl, seededEntry r, rfl, rfl⟩
  case report =>
    intro r rest h he hv hf cal hc hr h8
    exact goes_fieldReport (trendReport_noBin hq busy h he hv hf cal hc hr h8)
      ⟨rfl, rfl, (port_modPort s p _).trans (congrArg _ hq), rfl, rfl⟩

end Sys2Proof.Machine

/-!
PROOFS. The postmark registers (03, R55).
-/

namespace Sys2Proof.Machine

theorem exec_postmarkRead (u : Fin 256) (s : State) : exec (.postmarkRead u) s = .next (registerRead u.val A.SYS_PM_LO s) := rfl

theorem pm_lt (s : State) : s.pm < 2 ^ 64 := Nat.mod_lt _ (by decide)

/-- The state after a read of SYS_PM_LO: the low half is returned, the high half latched. -/
def postmarkLatched (s : State) : State :=
  { s.setReg A.SYS_PM_HI (BitVec.ofNat 32 (s.pm / 2 ^ 32)) with rdata := s.pm % 2 ^ 32 }

/-- A read of SYS_PM_LO that takes place. -/
theorem registerRead_postmark {u : Nat} {s : State} (h : reaches u A.SYS_PM_LO false s = true) :
    registerRead u A.SYS_PM_LO s = postmarkLatched s := by
  have read : regRead u A.SYS_PM_LO s = postmarkRead s := by
    unfold regRead
    exact if_pos rfl
  unfold registerRead
  rw [if_neg (by simp [h]), read]
  rfl

theorem high_postmarkLatched (s : State) : ((postmarkLatched s).reg A.SYS_PM_HI).toNat = s.pm / 2 ^ 32 := by
  have := pm_lt s
  rw [postmarkLatched, reg_mk, reg_setReg_self, BitVec.toNat_ofNat]
  omega

/-- The row of SYS_PM_HI. -/
def row_SYS_PM_HI : RegDef := ⟨"SYS_PM_HI", A.SYS_PM_HI, 1, 0x0, 1, 0, [⟨31, 0, .ro, 0, .any⟩]⟩

theorem find_SYS_PM_HI : findReg A.SYS_PM_HI = some (row_SYS_PM_HI, 0) ∧ isBanked A.SYS_PM_HI = false := by decide +kernel

/-- One read-only field takes the whole word of the row. -/
abbrev wholeReadOnly (d : RegDef) : Prop := d.fields = [⟨31, 0, .ro, 0, .any⟩]

/-- No word sets a bit outside such a field or writes an encoding into it. -/
theorem rowRefuses_wholeReadOnly {d : RegDef} (h : wholeReadOnly d) (v : Word) : rowRefuses d v.toNat = false := by
  have covered : setBits v.toNat 0 32 0 = 0 := by
    have := v.isLt
    simp only [setBits, bits]
    omega
  simp [rowRefuses, rowUncovered, h, fieldWidth, covered]

theorem plainWord_wholeReadOnly {d : RegDef} (h : wholeReadOnly d) (old w : Nat) : plainWord d old w = old := by
  simp [plainWord, h]

/-- A write of a SYS register without an action, of one read-only field, puts back the word that stands there. -/
theorem registerWrite_wholeReadOnly {u : Fin 256} {a : Nat} {v : Word} {s : State} {d : RegDef} {i : Nat} (hw : Writes u a s)
    (hf : findReg a = some (d, i)) (hb : isBanked a = false) (hu : blockOf a = 0x100) (hact : hasAction a = false) (hd : wholeReadOnly d) :
    registerWrite u.val a v s = s.setReg a (s.reg a) := by
  have free : writeBarred a v s = false := by
    simp [writeBarred, hf, rowRefuses_wholeReadOnly hd, alsoReserved, isPortUnit, hu, rwlBars, rwlFree]
  rw [registerWrite_fields ⟨hw, free⟩ hf hact hb, fieldsWritten, plainWord_wholeReadOnly hd, BitVec.ofNat_toNat, BitVec.setWidth_eq]

theorem Untouched_setReg_same (s : State) (a : Nat) : Untouched s (s.setReg a (s.reg a)) [] := by
  refine ⟨fun b _ => ?_, fun _ => rfl⟩
  rw [reg_setReg]
  split
  · next h => rw [h]
  · rfl

/-- Settles O7: the read loads SYS_PM_HI with the high half of the postmark it returns the low half of, and a write of either register puts
back the word that stands there. -/
theorem postmarkReadLatches : Obligations.PostmarkReadLatches := by
  unfold Obligations.PostmarkReadLatches
  refine ⟨rfl, rfl, fun u s h => ?_, fun u a v s ha hw => ?_⟩
  · refine ⟨postmarkLatched s, by rw [exec_postmarkRead, registerRead_postmark h], rfl, high_postmarkLatched s, ?_, ?_, rfl⟩
    · exact (congrArg (s.pm % 2 ^ 32 + 2 ^ 32 * ·) (high_postmarkLatched s)).trans (Nat.mod_add_div _ _)
    · exact Untouched_same (Untouched_setReg (Untouched_refl s _) _ (by simp)) rfl rfl
  · have back : registerWrite u.val a v s = s.setReg a (s.reg a) := by
      rcases ha with rfl | rfl
      · exact registerWrite_wholeReadOnly hw find_SYS_PM_LO.1 find_SYS_PM_LO.2.2 rfl rfl rfl
      · exact registerWrite_wholeReadOnly hw find_SYS_PM_HI.1 find_SYS_PM_HI.2 rfl rfl rfl
    have addr : (BitVec.ofNat 32 a).toNat = a := by rcases ha with rfl | rfl <;> rfl
    refine ⟨s.setReg a (s.reg a), ?_, Untouched_setReg_same s a, rfl⟩
    rw [exec_registerWrite, addr, back]

end Sys2Proof.Machine

/-!
PROOFS. The stepping clock (02, 03, 05, 13): what a period of the timers block leaves alone, what one reference period does to the field ports
that send (R90, R95) and to the links that train again (R278), and the timebase (R54, R289).
-/

namespace Sys2Proof.Machine

/-! Steps for every unit up to a number. -/

/-- What every step keeps, the whole loop keeps. -/
theorem forUpTo_induction {σ : Type} {P : σ → Prop} {f : Nat → σ → σ} {s : σ} (n : Nat) (hf : ∀ i < n, ∀ t, P t → P (f i t)) (h : P s) :
    P (forUpTo n f s) := by
  induction n with
  | zero => exact h
  | succ n ih => exact hf n (by omega) _ (ih fun i hi => hf i (by omega))

/-! Readings told from one register. -/

theorem get_congr {s t : State} (f : Fd) (h : t.reg f.addr = s.reg f.addr) : t.get f = s.get f :=
  congrArg (fun w : Word => bits w.toNat f.lo f.w) h

theorem flag_congr {s t : State} (f : Fd) (h : t.reg f.addr = s.reg f.addr) : t.flag f = s.flag f :=
  congrArg (· != 0) (get_congr f h)

theorem isHeld_congr {s t : State} (u : Nat) (h : t.reg (A.SYS_FHELD (u / 32)) = s.reg (A.SYS_FHELD (u / 32))) : t.isHeld u = s.isHeld u :=
  congrArg (bit · (u % 32)) (get_congr (F.SYS_FHELD_HELD (u / 32)) h)

/-! Whether the units rest. -/

theorem quiet_congr {s t : State} (hp : t.pow = s.pow) (hr : t.reg A.PWR_STAT = s.reg A.PWR_STAT) : t.quiet = s.quiet := by
  unfold State.quiet State.pwr
  rw [hp, get_congr F.PWR_STAT_STATE hr, flag_congr F.PWR_STAT_ENTERING hr]

/-- Where no unit rests, the device is up in RUN or DOZE. -/
theorem pwr_of_not_quiet {s : State} (h : s.quiet = false) : s.pow.phase = .up ∧ s.pwr < 2 := by
  simp only [State.quiet, Bool.or_eq_false_iff, bne_eq_false_iff_eq, decide_eq_false_iff_not, not_le] at h
  tauto

/-- DOZE that ends leaves the units at work. -/
theorem quiet_put_run {s : State} (h : s.quiet = false) : (s.put F.PWR_STAT_STATE 0).quiet = false := by
  have run : (s.put F.PWR_STAT_STATE 0).get F.PWR_STAT_STATE = 0 := get_put_self _ _ _ (by decide)
  have entering : (s.put F.PWR_STAT_STATE 0).flag F.PWR_STAT_ENTERING = s.flag F.PWR_STAT_ENTERING :=
    flag_put_other _ _ _ _ (by decide) (by decide)
  simp only [State.quiet, State.pwr, run, entering, State.put_pow] at h ⊢
  simp only [Bool.or_eq_false_iff] at h ⊢
  tauto

/-! What the timers block leaves (15). -/

/-- The registers of the field ports, the chains and the links, and the word of FHELD that holds the links. -/
abbrev LineReg (a : Nat) : Prop := 0x10041000 ≤ a ∧ a < 0x10075000 ∨ a = A.SYS_FHELD 3

/-- `t` is `s` but for the cores, the timers, the arbiters, the power state and registers that no field port and no link has; where the units
were at work in `s`, they still are. -/
structure TimersLeave (s t : State) : Prop where
  pending : t.pending = s.pending
  mem : t.mem = s.mem
  gate : t.gate = s.gate
  ports : t.ports = s.ports
  tb : t.tb = s.tb
  reg : ∀ a, LineReg a → t.reg a = s.reg a
  awake : s.quiet = false → t.quiet = false

namespace TimersLeave
variable {s t : State}

theorem refl (s : State) : TimersLeave s s := ⟨rfl, rfl, rfl, rfl, rfl, fun _ _ => rfl, id⟩

protected theorem ite {c : Prop} [Decidable c] {r : State} (ht : TimersLeave s t) (hr : TimersLeave s r) : TimersLeave s (if c then t else r) := by
  split <;> assumption

/-- Cores, arbiters and timers are free to change. -/
theorem update (h : TimersLeave s t) {r : State} (e : r = { t with cores := r.cores, arbs := r.arbs, tmr := r.tmr }) : TimersLeave s r := by
  rw [e]
  exact ⟨h.pending, h.mem, h.gate, h.ports, h.tb, h.reg, h.awake⟩

theorem modCore (h : TimersLeave s t) (c : Nat) (g : Core → Core) : TimersLeave s (t.modCore c g) := h.update rfl

theorem modTimer (h : TimersLeave s t) (u : Nat) (g : TimerUnit → TimerUnit) : TimersLeave s (t.modTimer u g) := h.update rfl

theorem put (h : TimersLeave s t) (f : Fd) (v : Nat) (hf : ¬LineReg f.addr) (hp : f.addr ≠ A.PWR_STAT) : TimersLeave s (t.put f v) := by
  refine ⟨h.pending, h.mem, h.gate, h.ports, h.tb, fun a ha => ?_, fun hq => ?_⟩
  · have apart : f.addr ≠ a := by rintro rfl; exact hf ha
    exact (reg_put_ne t f v apart).trans (h.reg a ha)
  · exact (quiet_congr (State.put_pow _ _ _) (reg_put_ne t f v hp)).trans (h.awake hq)

/-- DOZE ends. -/
theorem run (h : TimersLeave s t) : TimersLeave s (t.put F.PWR_STAT_STATE 0) := by
  refine ⟨h.pending, h.mem, h.gate, h.ports, h.tb, fun a ha => ?_, fun hq => quiet_put_run (h.awake hq)⟩
  have apart : A.PWR_STAT ≠ a := by rintro rfl; exact absurd ha (by decide)
  exact (reg_put_ne t _ _ apart).trans (h.reg a ha)

end TimersLeave

section events
variable {s t : State}

theorem timersLeave_endSpec (h : TimersLeave s t) : TimersLeave s (endSpec 0 t) := by
  have off : TimersLeave s (t.putB (F.SRT_STAT_SPEC_ON 0) false) := h.put _ _ (by decide) (by decide)
  exact .ite (off.put _ _ (by decide) (by decide)) off

theorem timersLeave_noteSteps (h : TimersLeave s t) : TimersLeave s (noteSteps 0 t) := by
  unfold noteSteps
  split
  · exact h
  · exact .ite (h.put _ _ (by decide) (by decide)) h

theorem timersLeave_settleSpec (h : TimersLeave s t) (r : List Byte) : TimersLeave s (settleSpec 0 r t) := by
  unfold settleSpec
  split
  · exact h.modCore _ _
  · exact timersLeave_endSpec (timersLeave_noteSteps (.ite (h.update rfl) (h.update rfl)))

theorem timersLeave_wakeNoted (h : TimersLeave s t) (b : Nat) : TimersLeave s (wakeNoted b t) :=
  .ite (h.put _ _ (by decide) (by decide)) h

theorem timersLeave_wakePostmaster (h : TimersLeave s t) : TimersLeave s (wakePostmaster t) :=
  .ite ((h.put _ _ (by decide) (by decide)).modCore _ _) (.ite (h.modCore _ _) h)

theorem reg_beginExit_ne (mode : Nat) (s : State) {a : Nat} (h : A.PWR_STAT ≠ a) : (beginExit mode s).reg a = s.reg a := by
  simp only [beginExit, reg_mk]
  rw [reg_put_ne _ F.PWR_STAT_LOGIC_OK _ h, reg_put_ne _ F.PWR_STAT_MEM_OK _ h, reg_put_ne _ F.PWR_STAT_REG_OK _ h]

/-- An exit begins only where the units rest. -/
theorem timersLeave_beginExit (h : TimersLeave s t) (hq : s.quiet = true) (mode : Nat) : TimersLeave s (beginExit mode t) := by
  refine ⟨h.pending, h.mem, h.gate, h.ports, h.tb, fun a ha => ?_, fun e => absurd (hq.symm.trans e) (by decide)⟩
  have apart : A.PWR_STAT ≠ a := by rintro rfl; exact absurd ha (by decide)
  rw [reg_beginExit_ne _ _ apart]
  exact h.reg a ha

/-- A wake source never begins an exit where the units are at work: it ends DOZE, is noted against the entry in progress, or does nothing (R347). -/
theorem timersLeave_wakeRecognised (h : TimersLeave s t) (b : Nat) : TimersLeave s (wakeRecognised b t) := by
  have noted := timersLeave_wakeNoted h b
  unfold wakeRecognised
  dsimp only
  split
  · exact h
  next enabled =>
  split
  · exact noted
  split
  · refine ⟨noted.pending, noted.mem, noted.gate, noted.ports, noted.tb, noted.reg, fun hq => (Eq.trans ?_ (noted.awake hq))⟩
    split <;> rfl
  next steady =>
  split
  · exact timersLeave_wakePostmaster noted.run
  next doze =>
  have rests : s.quiet = true := by
    by_contra awake
    obtain ⟨-, low⟩ := pwr_of_not_quiet (h.awake (by simpa using awake))
    have run : t.pwr = 0 := by omega
    simp [wakeEnabled, wakeEnds, State.wakeMode, steady, run] at enabled
  exact timersLeave_beginExit noted rests _

theorem timersLeave_pmEvent (h : TimersLeave s t) (kind value scale reason origin ep : Nat) :
    TimersLeave s (pmEvent kind value scale reason origin t ep) :=
  .ite (timersLeave_wakeRecognised (timersLeave_settleSpec h _) 8) h

end events

/-! One unit of the block. -/

section unit
variable {s t : State} {u : Nat} (hu : u < 16)
include hu

theorem TimersLeave.putUnit (h : TimersLeave s t) {f : Fd} (v : Nat) {off : Nat} (hf : f.addr = 0x1007D000 + off + 0x40 * u) (ho : off < 0x40) :
    TimersLeave s (t.put f v) :=
  h.put f v (by simp only [LineReg, A.SYS_FHELD]; omega) (by simp only [A.PWR_STAT]; omega)

/-- A flag of the unit's STAT. -/
theorem TimersLeave.putStat (h : TimersLeave s t) {f : Fd} (v : Nat) (hf : f.addr = A.TMR_STAT u) : TimersLeave s (t.put f v) :=
  h.putUnit hu v (off := 4) hf (by decide)

theorem timersLeave_tmrEvent (h : TimersLeave s t) (cond : Nat) : TimersLeave s (tmrEvent u cond t) :=
  .ite h (.ite (timersLeave_pmEvent h _ _ _ _ _ _) (h.putStat hu 1 rfl))

theorem timersLeave_latchAct (h : TimersLeave s t) (b : Bool) (code : Nat) : TimersLeave s (latchAct u b code t) := by
  have out : ∀ v, TimersLeave s (t.put (tmrOut u b) v) := fun v => h.putStat hu v (by cases b <;> rfl)
  unfold latchAct
  exact .ite (out _) (.ite (out _) (.ite (out _) h))

theorem timersLeave_tmrMatch (h : TimersLeave s t) (b : Bool) : TimersLeave s (tmrMatch u b t) := by
  have acted : TimersLeave s (if tmrMode t u b = 1 then latchAct u b (tmrAct t u b) t else t) := .ite (timersLeave_latchAct hu h b _) h
  exact timersLeave_tmrEvent hu (acted.putStat hu 1 (f := F.TMR_STAT_MATCH u) rfl) _

/-- Both channels, each matched where a condition holds. -/
theorem timersLeave_matches (h : TimersLeave s t) {c : Bool → State → Prop} [∀ b r, Decidable (c b r)] :
    TimersLeave s (bothCh (fun b r => if c b r then tmrMatch u b r else r) t) := by
  have one : ∀ b r, TimersLeave s r → TimersLeave s (if c b r then tmrMatch u b r else r) := fun b r hr =>
    .ite (timersLeave_tmrMatch hu hr b) hr
  exact one true _ (one false _ h)

theorem timersLeave_tmrWrap (h : TimersLeave s t) : TimersLeave s (tmrWrap u t) := by
  have latch : ∀ (b : Bool) (r : State), TimersLeave s r → TimersLeave s (if tmrMode r u b = 1 then latchAct u b (tmrWact r u b) r else r) :=
    fun b r hr => .ite (timersLeave_latchAct hu hr b _) hr
  unfold tmrWrap
  dsimp only
  have latched := latch true _ (latch false _ ((h.modTimer u fun x => { x with
    top := t.get (F.TMR_TOP_TOP u), cmpA := t.get (F.TMR_CMPA_CMP u), cmpB := t.get (F.TMR_CMPB_CMP u) }).putStat hu 1 (f := F.TMR_STAT_WRAP u) rfl))
  have told := timersLeave_tmrEvent hu (.ite (c := bit (t.get F.PWR_TWAKE_UNITS) u = true) (timersLeave_wakeNoted latched 4) latched) 5
  exact .ite (timersLeave_wakeRecognised told 4) told

theorem timersLeave_tmrGain (h : TimersLeave s t) (n : Nat) : TimersLeave s (tmrGain u n t) := by
  have count : ∀ {r : State} (v : Nat), TimersLeave s r → TimersLeave s (r.put (F.TMR_COUNT_COUNT u) v) := fun v hr =>
    hr.putUnit hu v (off := 8) rfl (by decide)
  exact .ite (timersLeave_matches hu (timersLeave_tmrWrap hu (count _ (timersLeave_matches hu h)))) (count _ (timersLeave_matches hu h))

theorem timersLeave_tmrStep (h : TimersLeave s t) (d : Nat) : TimersLeave s (tmrStep u d t) :=
  .ite (h.modTimer u _) (timersLeave_tmrGain hu (h.modTimer u _) _)

theorem timersLeave_levelMoves (h : TimersLeave s t) (b rising : Bool) : TimersLeave s (levelMoves u b rising t) := by
  have level : TimersLeave s ((t.putB (tmrIn u b) rising).modTimer u (fun t => t.setRun b 0)) :=
    (h.putStat hu _ (by cases b <;> rfl)).modTimer u _
  have stored := TimersLeave.putStat hu (f := if b then F.TMR_STAT_FULLB u else F.TMR_STAT_FULLA u)
    (level.putUnit hu (f := if b then F.TMR_CAPB_CAP u else F.TMR_CAPA_CAP u) (t.get (F.TMR_COUNT_COUNT u)) (off := if b then 0x1C else 0x18)
      (by cases b <;> rfl) (by cases b <;> decide)) 1 (by cases b <;> rfl)
  have told := timersLeave_tmrEvent hu stored (2 + b2n b)
  exact .ite level (.ite (timersLeave_tmrEvent hu (told.putStat hu 1 (by cases b <;> rfl)) 4) told)

theorem timersLeave_samplePin (h : TimersLeave s t) (b : Bool) : TimersLeave s (samplePin u b t) :=
  .ite h (.ite (h.modTimer u _) (.ite (timersLeave_levelMoves hu h b _) (h.modTimer u _)))

theorem timersLeave_tmrPeriod (h : TimersLeave s t) (d : Nat) : TimersLeave s (tmrPeriod u d t) := by
  have stepped := TimersLeave.ite (c := tmrRuns t u = true) (timersLeave_tmrStep hu h d) h
  exact timersLeave_samplePin hu (timersLeave_samplePin hu stepped false) true

end unit

theorem timersLeave_timersTick (s : State) : TimersLeave s (timersTick s) := by
  have period : ∀ u < 16, ∀ d t, TimersLeave s t → TimersLeave s (tmrPeriod u d t) := fun u hu d t h => timersLeave_tmrPeriod hu h d
  refine .ite (forUpTo_induction 16 (fun u hu t h => period u hu _ t h) (.refl s)) (forUpTo_induction 16 (fun u hu t h => ?_) ((TimersLeave.refl s).update rfl))
  exact .ite (.ite (period u hu _ t h) h) (period u hu _ t h)

/-! The field ports (R90, R95). -/

/-- Port `p` after one reference period. -/
def portTicked (s : State) (p : Nat) (q : Port) : Port :=
  if q.stage ≠ .sending then q
  else if q.lead * 1000000 < s.get (F.FL_CPL_DE_LEAD p) * 2 ^ 24 then { q with lead := q.lead + 1 }
  else { q with acc := (q.acc + 4000000 * 2 ^ s.get (F.FL_CTRL_RATE p)) % 2 ^ 32,
                half := q.half + (q.acc + 4000000 * 2 ^ s.get (F.FL_CTRL_RATE p)) / 2 ^ 32 }

theorem lineTick_eq (p : Nat) (s : State) : lineTick p s = s.modPort p (portTicked s p) := by
  unfold lineTick
  split
  · next none => exact (modPort_id s p _ (by simp [none])).symm
  next q some =>
  have only (g : Port → Port) (h : portTicked s p q = g q) : s.modPort p g = s.modPort p (portTicked s p) :=
    modPort_congr s p _ _ fun r hr => by rw [← Option.some.inj (some.symm.trans hr), h]
  split
  · next rests => exact (modPort_id s p _ fun r hr => by rw [← Option.some.inj (some.symm.trans hr), portTicked, if_pos rests]).symm
  next sends =>
  split
  · next lead =>
    simp only [leadPast, Bool.not_eq_true', decide_eq_false_iff_not, not_le] at lead
    exact only _ (by rw [portTicked, if_neg sends, if_pos lead])
  · next lead =>
    simp only [leadPast, Bool.not_eq_true', decide_eq_false_iff_not, not_not] at lead
    exact only _ (by rw [portTicked, if_neg sends, if_neg (by omega)]; rfl)

/-- After a period for each of the ports below `n`. -/
theorem forUpTo_lineTick (n : Nat) (s : State) : forUpTo n lineTick s = { s with ports := (forUpTo n lineTick s).ports } ∧
    ∀ p, (forUpTo n lineTick s).port p = if p < n then (s.port p).map (portTicked s p) else s.port p := by
  induction n with
  | zero => exact ⟨rfl, fun p => rfl⟩
  | succ n ih =>
    obtain ⟨frame, ports⟩ := ih
    have last : forUpTo (n + 1) lineTick s = (forUpTo n lineTick s).modPort n (portTicked s n) := by
      rw [forUpTo, lineTick_eq, frame]
      rfl
    refine ⟨by rw [last, frame]; rfl, fun p => ?_⟩
    rw [last]
    rcases eq_or_ne n p with rfl | hp
    · rw [port_modPort, ports, if_neg (by omega), if_pos (by omega)]
    · rw [port_modPort_ne _ _ hp, ports]
      exact if_congr (by omega) rfl rfl

theorem linesTick_frame (s : State) : linesTick s = { s with ports := (linesTick s).ports } := by
  unfold linesTick
  split
  · exact (forUpTo_lineTick 32 s).1
  · rfl

theorem port_linesTick {s : State} {p : Nat} {q : Port} (hp : p < 32) (hq : s.port p = some q) : (linesTick s).port p = some (portTicked s p q) := by
  unfold linesTick
  split
  · rw [(forUpTo_lineTick 32 s).2, if_pos hp, hq]
    rfl
  next idle =>
    have rests : q.stage ≠ .sending := fun e => idle (List.any_eq_true.mpr ⟨q, List.mem_of_getElem? hq, by simp [e]⟩)
    rw [hq, portTicked, if_pos rests]

/-! The links (R278). -/

/-- Link port `n` is in DETECT, enabled, with its partner present, and no unit rests: it trains again with the next reference period. -/
def Retrains (n : Nat) (s : State) : Prop :=
  s.quiet = false ∧ lstate s n = 1 ∧ s.flag (F.CAS_L_STAT_PRS n) = true ∧ linkEnabled s n = true

/-- It is told from four registers, and from whether the units rest. -/
theorem Retrains.congr {s t : State} {n : Nat} (hn : n < 4) (h : Retrains n s) (hq : t.quiet = false)
    (hr : ∀ a ∈ [A.CAS_L_STAT n, A.CAS_L_CTRL n, A.CAS_CFG, A.SYS_FHELD 3], t.reg a = s.reg a) : Retrains n t := by
  simp only [List.forall_mem_cons] at hr
  obtain ⟨stat, ctrl, cfg, held, -⟩ := hr
  obtain ⟨-, detect, present, enabled⟩ := h
  have word : (0x71 + n) / 32 = 3 := by omega
  have sameEnabled : linkEnabled t n = linkEnabled s n := by
    have sameHeld : t.isHeld (0x71 + n) = s.isHeld (0x71 + n) := isHeld_congr _ (by rw [word]; exact held)
    unfold linkEnabled
    rw [get_congr F.CAS_CFG_PORTS cfg, flag_congr (F.CAS_L_CTRL_DOWN n) ctrl, sameHeld]
  exact ⟨hq, (get_congr (F.CAS_L_STAT_LSTATE n) stat).trans detect, (flag_congr (F.CAS_L_STAT_PRS n) stat).trans present, sameEnabled.trans enabled⟩

/-- `t` is `s` but for registers and the links. -/
def LinksMove (s t : State) : Prop := ∃ r l, t = { s with regs := r, links := l }

theorem LinksMove.trans {s t r : State} (h : LinksMove s t) (h2 : LinksMove t r) : LinksMove s r := by
  obtain ⟨_, _, rfl⟩ := h
  obtain ⟨_, _, rfl⟩ := h2
  exact ⟨_, _, rfl⟩

theorem LinksMove.put {s t : State} (h : LinksMove s t) (f : Fd) (v : Nat) : LinksMove s (t.put f v) := h.trans ⟨_, t.links, rfl⟩

theorem LinksMove.modLink {s t : State} (h : LinksMove s t) (n : Nat) (g : Link → Link) : LinksMove s (t.modLink n g) := h.trans ⟨t.regs, _, rfl⟩

theorem linksMove_beginTraining (n : Nat) (s : State) : LinksMove s (beginTraining n s) := by
  have start : LinksMove s s := ⟨_, _, rfl⟩
  unfold beginTraining
  dsimp only
  split
  · exact ((start.put _ _).put _ _).modLink n _
  · exact (start.put _ _).modLink n _

theorem linksMove_linkTick (n : Nat) (s : State) : LinksMove s (linkTick n s) := by
  unfold linkTick
  split
  · exact linksMove_beginTraining n s
  · exact ⟨_, _, rfl⟩

theorem linksMove_linkTicks (k : Nat) (s : State) : LinksMove s (forUpTo k linkTick s) :=
  forUpTo_induction k (fun n _ t h => h.trans (linksMove_linkTick n t)) ⟨_, _, rfl⟩

theorem reg_beginTraining_ne (n : Nat) (s : State) {a : Nat} (hc : A.CAS_L_CNT n ≠ a) (hs : A.CAS_L_STAT n ≠ a) :
    (beginTraining n s).reg a = s.reg a := by
  unfold beginTraining
  dsimp only
  rw [State.modLink_reg]
  refine (reg_put_ne _ (F.CAS_L_STAT_LSTATE n) _ hs).trans ?_
  split
  · exact reg_incSat_ne _ (F.CAS_L_CNT_RETRAIN n) _ hc
  · rfl

theorem reg_linkTick_ne (n : Nat) (s : State) {a : Nat} (hc : A.CAS_L_CNT n ≠ a) (hs : A.CAS_L_STAT n ≠ a) : (linkTick n s).reg a = s.reg a := by
  unfold linkTick
  split
  · exact reg_beginTraining_ne n s hc hs
  · rfl

theorem lstate_beginTraining (n : Nat) (s : State) : lstate (beginTraining n s) n = 2 := by
  unfold lstate beginTraining
  rw [State.modLink_get]
  exact get_put_self _ (F.CAS_L_STAT_LSTATE n) 2 (show 0 + 3 ≤ 32 by decide)

theorem lstate_linkTick {n : Nat} {s : State} (h : Retrains n s) : lstate (linkTick n s) n = 2 := by
  obtain ⟨awake, detect, present, enabled⟩ := h
  unfold linkTick
  rw [if_pos (by simp [awake, detect, present, enabled, lsDetect])]
  exact lstate_beginTraining n s

/-- A link's period leaves the others as they are. -/
theorem retrains_linkTick {n m : Nat} {s : State} (hn : n < 4) (hm : m < 4) (hne : m ≠ n) (h : Retrains n s) : Retrains n (linkTick m s) := by
  have other : ∀ a, a ≠ A.CAS_L_CNT m → a ≠ A.CAS_L_STAT m → (linkTick m s).reg a = s.reg a := fun a hc hs => reg_linkTick_ne m s hc.symm hs.symm
  refine h.congr hn ?_ ?_
  · have pow : (linkTick m s).pow = s.pow := by
      obtain ⟨_, _, e⟩ := linksMove_linkTick m s
      rw [e]
    have stat : (linkTick m s).reg A.PWR_STAT = s.reg A.PWR_STAT := 
      other A.PWR_STAT (by unfold A.PWR_STAT A.CAS_L_CNT; omega) (by unfold A.PWR_STAT A.CAS_L_STAT; omega)
    exact (quiet_congr pow stat).trans h.1
  · simp only [List.forall_mem_cons, List.not_mem_nil, false_imp_iff, implies_true, and_true]
    refine ⟨other _ ?_ ?_, other _ ?_ ?_, other _ ?_ ?_, other _ ?_ ?_⟩ <;>
      simp only [A.CAS_L_STAT, A.CAS_L_CTRL, A.CAS_L_CNT, A.CAS_CFG, A.SYS_FHELD] <;> omega

theorem forUpTo_linkTick {n k : Nat} {s : State} (hn : n < 4) (hk : k ≤ 4) (h : Retrains n s) :
    (k ≤ n → Retrains n (forUpTo k linkTick s)) ∧ (n < k → lstate (forUpTo k linkTick s) n = 2) := by
  induction k with
  | zero => exact ⟨fun _ => h, fun e => absurd e (by omega)⟩
  | succ k ih =>
    obtain ⟨before, after⟩ := ih (by omega)
    refine ⟨fun e => retrains_linkTick hn (by omega) (by omega) (before (by omega)), fun e => ?_⟩
    rw [forUpTo]
    rcases eq_or_ne k n with rfl | hne
    · exact lstate_linkTick (before le_rfl)
    · refine Eq.trans ?_ (after (by omega))
      have apart : (linkTick k (forUpTo k linkTick s)).reg (A.CAS_L_STAT n) = (forUpTo k linkTick s).reg (A.CAS_L_STAT n) :=
        reg_linkTick_ne k _ (by simp only [A.CAS_L_CNT, A.CAS_L_STAT]; omega) (by simp only [A.CAS_L_STAT]; omega)
      exact get_congr (F.CAS_L_STAT_LSTATE n) apart

/-! A period of the clock. -/

theorem step_idle {s : State} (h : s.pending = []) : step s = .next (tick s) := by
  unfold step
  rw [h]

theorem tick_stands {s : State} (h : timebaseRuns s = false) : tick s = s := if_neg (by simp [h])

/-- The state once the timebase and the timers have stepped. -/
def timersStepped (s : State) : State := timersTick { s with tb := (s.tb + timebaseGain s) % 2 ^ 88 }

theorem tick_lowFreq {s : State} (h : timebaseRuns s = true) (hl : s.pow.lowFreq = true) : tick s = timersStepped s := by
  unfold tick
  rw [if_pos h, if_pos hl]
  rfl

theorem tick_reference {s : State} (h : timebaseRuns s = true) (hl : s.pow.lowFreq = false) :
    tick s = forUpTo 4 linkTick (linesTick (timersStepped s)) := by
  unfold tick
  rw [if_pos h, if_neg (by simp [hl])]
  rfl

theorem timersLeave_timersStepped (s : State) : TimersLeave { s with tb := (s.tb + timebaseGain s) % 2 ^ 88 } (timersStepped s) :=
  timersLeave_timersTick _

theorem retrains_timersStepped {n : Nat} {s : State} (hn : n < 4) (h : Retrains n s) : Retrains n (timersStepped s) := by
  have timers := timersLeave_timersStepped s
  refine h.congr hn (timers.awake h.1) fun a ha => timers.reg a ?_
  simp only [List.mem_cons, List.not_mem_nil, or_false] at ha
  rcases ha with rfl | rfl | rfl | rfl
  · exact .inl (by unfold A.CAS_L_STAT; omega)
  · exact .inl (by unfold A.CAS_L_CTRL; omega)
  · exact .inl (by decide)
  · exact .inr rfl

theorem retrains_linesTick {n : Nat} {s : State} (hn : n < 4) (h : Retrains n s) : Retrains n (linesTick s) := by
  refine h.congr hn ?_ fun a _ => ?_
  · rw [linesTick_frame]; exact h.1
  · rw [linesTick_frame]; rfl

/-- A port that trains again does so in the tick, whatever the timers bring. -/
theorem lstate_tick {n : Nat} {s : State} (hn : n < 4) (h : Retrains n s) : lstate (forUpTo 4 linkTick (linesTick (timersStepped s))) n = 2 :=
  (forUpTo_linkTick hn le_rfl (retrains_linesTick hn (retrains_timersStepped hn h))).2 hn

/-- The timers change neither a port nor its settings. -/
theorem portTicked_timersStepped {p : Nat} (hp : p < 32) (s : State) (q : Port) : portTicked (timersStepped s) p q = portTicked s p q := by
  have timers := timersLeave_timersStepped s
  have lead := get_congr (F.FL_CPL_DE_LEAD p) (timers.reg (A.FL_CPL p) (.inl (by unfold A.FL_CPL; omega)))
  have rate := get_congr (F.FL_CTRL_RATE p) (timers.reg (A.FL_CTRL p) (.inl (by unfold A.FL_CTRL; omega)))
  unfold portTicked
  rw [lead, rate]
  rfl

theorem port_tick {p : Nat} {s : State} {q : Port} (hp : p < 32) (hq : s.port p = some q) :
    (forUpTo 4 linkTick (linesTick (timersStepped s))).port p = some (portTicked s p q) := by
  have same : (timersStepped s).port p = some q := (congrArg (·[p]?) (timersLeave_timersStepped s).ports).trans hq
  obtain ⟨_, _, links⟩ := linksMove_linkTicks 4 (linesTick (timersStepped s))
  have ports : (forUpTo 4 linkTick (linesTick (timersStepped s))).ports = (linesTick (timersStepped s)).ports := by rw [links]
  rw [← portTicked_timersStepped hp]
  exact (congrArg (·[p]?) ports).trans (port_linesTick hp same)

/-- Links and ports aside, the tick of the reference is the timers' alone. -/
theorem referenceTick_frame (s : State) : ∃ r l p, forUpTo 4 linkTick (linesTick s) = { s with regs := r, links := l, ports := p } := by
  obtain ⟨r, l, links⟩ := linksMove_linkTicks 4 (linesTick s)
  exact ⟨r, l, (linesTick s).ports, by rw [links, linesTick_frame]⟩

/-- Settles O57: the timers leave the timebase, the ports and the links alone, and beside them a period is the step of the timebase and, where the
reference is the stepping clock, a period of each port and of each link. -/
theorem anIdleStepIsOneTick : Obligations.AnIdleStepIsOneTick := by
  unfold Obligations.AnIdleStepIsOneTick
  intro s hp
  refine ⟨fun stands => by rw [step_idle hp, tick_stands stands], fun runs => ⟨tick s, step_idle hp, ?_⟩⟩
  have timers := timersLeave_timersStepped s
  cases hl : s.pow.lowFreq
  case true =>
    rw [tick_lowFreq runs hl]
    refine ⟨timers.pending.trans hp, timers.mem, timers.gate, fun _ => timers.ports, fun _ _ e => absurd e (by simp), fun _ _ _ e => absurd e (by simp), ?_⟩
    rw [timers.tb, timebaseGain, if_pos hl, if_pos rfl]
  case false =>
    rw [tick_reference runs hl]
    obtain ⟨_, _, _, frame⟩ := referenceTick_frame (timersStepped s)
    refine ⟨?_, ?_, ?_, fun e => absurd e (by simp), fun n hn _ awake detect present enabled => lstate_tick hn ⟨awake, detect, present, enabled⟩,
      fun p q hp _ hq => port_tick hp hq, ?_⟩
    · rw [frame]; exact timers.pending.trans hp
    · rw [frame]; exact timers.mem
    · rw [frame]; exact timers.gate
    · rw [frame, if_neg (by simp)]
      refine timers.tb.trans ?_
      rw [timebaseGain, if_neg (by simp [hl])]

end Sys2Proof.Machine

/-!
PROOFS. The entry to safe hold (18, R370): what the day book and the dead-letter ring leave alone (R377 to R381), the halt of the cores and of the
chains, and a fault slot loaded while the postmaster listens (R365).
-/

namespace Sys2Proof.Machine

/-! Writes of memory. -/

/-- `t` is `s` but for the bytes of the memories and the ledger controller. -/
def MemoryMoves (s t : State) : Prop := ∃ m l, t = { s with mem := m, ledg := l }

theorem MemoryMoves.refl (s : State) : MemoryMoves s s := ⟨s.mem, s.ledg, rfl⟩

theorem MemoryMoves.trans {s t r : State} (h : MemoryMoves s t) (h2 : MemoryMoves t r) : MemoryMoves s r := by
  obtain ⟨_, _, rfl⟩ := h
  obtain ⟨m, l, rfl⟩ := h2
  exact ⟨m, l, rfl⟩

theorem memoryMoves_putBytes (a : Nat) (b : List Byte) (s : State) : MemoryMoves s (putBytes a b s) := by
  induction b generalizing a s with
  | nil => exact .refl s
  | cons x b ih => exact MemoryMoves.trans ⟨_, s.ledg, rfl⟩ (ih (a + 1) (s.setByte a x))

theorem memoryMoves_heal (a : Nat) (s : State) : MemoryMoves s (heal a s) := ⟨s.mem, _, rfl⟩

/-- What every step keeps, its repetition keeps. -/
theorem iter_induction {α : Type} {P : α → Prop} {f : α → α} (n : Nat) {a : α} (hf : ∀ x, P x → P (f x)) (h : P a) : P (iter n f a) := by
  induction n with
  | zero => exact h
  | succ n ih => exact hf _ ih

theorem memoryMoves_bankWrite (u a : Nat) (b : List Byte) (s : State) : MemoryMoves s (bankWrite u a b s) := by
  unfold bankWrite
  split
  · exact .refl s
  · refine MemoryMoves.trans (iter_induction (P := fun p : Nat × State => MemoryMoves s p.2) _ (fun p h => ?_) (.refl s)) (memoryMoves_putBytes _ _ _)
    dsimp only
    split
    · exact h.trans (memoryMoves_heal _ _)
    · exact h

theorem memoryMoves_pigeonWrite (u a : Nat) (b : List Byte) (s : State) : MemoryMoves s (pigeonWrite u a b s) :=
  (memoryMoves_bankWrite _ _ _ _).trans (memoryMoves_bankWrite _ _ _ _)

/-! The day book and the dead-letter ring. -/

/-- The registers that an entry, or a freeze of the ring, writes. -/
abbrev bookRegs : List Nat := [A.DAYB_STAT, A.DAYB_CNT, A.DAYB_WR, A.DAYB_SEQ, A.DLF_STAT]

/-- What the day-book writer and the dead-letter engine leave alone: the governor, the cores and every register of another unit. -/
structure Booked (s t : State) : Prop where
  pace : t.pace = s.pace
  cores : t.cores = s.cores
  reg : ∀ a, a ∉ bookRegs → t.reg a = s.reg a

namespace Booked
variable {s t : State}

theorem refl (s : State) : Booked s s := ⟨rfl, rfl, fun _ _ => rfl⟩

protected theorem ite {c : Prop} [Decidable c] {r : State} (ht : Booked s t) (hr : Booked s r) : Booked s (if c then t else r) := by
  split <;> assumption

theorem put (h : Booked s t) (f : Fd) (v : Nat) (hf : f.addr ∈ bookRegs) : Booked s (t.put f v) :=
  ⟨h.pace, h.cores, fun a ha => (reg_put_ne t f v (by rintro rfl; exact ha hf)).trans (h.reg a ha)⟩

theorem flt (h : Booked s t) (f : Faults) : Booked s { t with flt := f } := ⟨h.pace, h.cores, h.reg⟩

theorem pow (h : Booked s t) (p : Power) : Booked s { t with pow := p } := ⟨h.pace, h.cores, h.reg⟩

theorem memory (h : Booked s t) {r : State} (hr : MemoryMoves t r) : Booked s r := by
  obtain ⟨m, l, rfl⟩ := hr
  exact ⟨h.pace, h.cores, h.reg⟩

end Booked

section book
variable {s t : State}

theorem booked_dayPush (h : Booked s t) (unit code aux data : Nat) : Booked s (dayPush unit code aux data t) := by
  unfold dayPush
  split
  · exact h.flt _
  · exact ((h.put F.DAYB_CNT_LOST _ (by decide)).put F.DAYB_STAT_LOST 1 (by decide)).flt _

theorem booked_tailPut (h : Booked s t) (b : List Byte) : Booked s (tailPut b t) := by
  unfold tailPut
  split
  · exact h
  · exact (h.memory (memoryMoves_pigeonWrite _ _ _ _)).flt _

/-- The index, the wraps and the sequence number of an entry. -/
theorem booked_counted (h : Booked s t) (wr seq : Nat) :
    Booked s ((if wr = 65535 then (t.put F.DAYB_WR_IDX (wr + 1)).incWrap F.DAYB_CNT_WRAPS else t.put F.DAYB_WR_IDX (wr + 1)).put F.DAYB_SEQ_SEQ seq) := by
  have moved := h.put F.DAYB_WR_IDX (wr + 1) (by decide)
  exact (Booked.ite (moved.put F.DAYB_CNT_WRAPS _ (by decide)) moved).put _ _ (by decide)

theorem booked_dayWrite (h : Booked s t) (e : DayEntry) : Booked s (dayWrite e t) := by
  have rest {r : State} (hr : Booked s r) (b : List Byte) (wr seq : Nat) {frozen : Prop} [Decidable frozen] := Booked.ite (c := frozen)
    (booked_counted hr wr seq) (booked_tailPut (booked_counted hr wr seq) b)
  unfold dayWrite
  dsimp only
  cases t.part 4 with
  | none => exact rest h _ _ _
  | some p => exact rest (h.memory (memoryMoves_pigeonWrite _ _ _ _)) _ _ _

theorem booked_dayNext (h : Booked s t) : Booked s (dayNext t) := by
  unfold dayNext
  split
  · exact h
  split
  · exact booked_dayWrite (h.flt _) _
  split
  · exact h
  · exact booked_dayWrite (h.flt _) _

theorem booked_dayDrain (h : Booked s t) : Booked s (dayDrain t) :=
  .ite h (iter_induction 33 (fun _ => booked_dayNext) h)

theorem booked_freeze (h : Booked s t) (reason : Nat) (what : FlushThen) : Booked s (freeze reason what t) := by
  have entered (f : Faults) (e : DayEntry) (b : List Byte) : Booked s (if dayHeld (dayDrain { t with flt := f }) then
      tailPut b (dayDrain { t with flt := f }) else dayWrite e (dayDrain { t with flt := f })) :=
    .ite (booked_tailPut (booked_dayDrain (h.flt f)) b) (booked_dayWrite (booked_dayDrain (h.flt f)) e)
  unfold freeze
  dsimp only
  refine Booked.pow (Booked.put (Booked.put ?_ F.DLF_STAT_FROZEN 1 (by decide)) F.DLF_STAT_FLUSHING 1 (by decide)) _
  split
  · exact entered _ _ _
  · exact (entered _ _ _).memory (memoryMoves_pigeonWrite _ _ _ _)

end book
/-! The cores and the chains stop (Table 18.2). -/

/-- The state in which core `c` stands stopped, its run-ahead discarded. -/
def coreHalted (c : Nat) (s : State) : State := (cancelSpec c s).put (F.SRT_STAT_STATE c) stStopped

/-- What the halt of core `c` leaves alone: the governor, every register but the core's STAT, the other cores, and a core that does not run ahead. -/
structure CoreHalts (c : Nat) (s t : State) : Prop where
  pace : t.pace = s.pace
  reg : ∀ a, a ≠ A.SRT_STAT c → t.reg a = s.reg a
  core : ∀ d, d ≠ c ∨ (s.core c).bind (·.spec) = none → t.core d = s.core d

theorem coreHalts_put {c : Nat} {s t : State} (h : CoreHalts c s t) (f : Fd) (v : Nat) (hf : f.addr = A.SRT_STAT c) : CoreHalts c s (t.put f v) :=
  ⟨h.pace, fun a ha => (reg_put_ne t f v (hf ▸ ha.symm)).trans (h.reg a ha), h.core⟩

theorem coreHalts_endSpec {c : Nat} {s t : State} (h : CoreHalts c s t) : CoreHalts c s (endSpec c t) := by
  have off : CoreHalts c s (t.putB (F.SRT_STAT_SPEC_ON c) false) := coreHalts_put h _ _ rfl
  unfold endSpec
  dsimp only
  split
  · exact coreHalts_put off _ _ rfl
  · exact off

theorem coreHalts_cancelSpec (c : Nat) (s : State) : CoreHalts c s (cancelSpec c s) := by
  unfold cancelSpec
  split
  · exact ⟨rfl, fun _ _ => rfl, fun _ _ => rfl⟩
  next sp ahead =>
  refine coreHalts_endSpec ⟨rfl, fun _ _ => rfl, fun d hd => ?_⟩
  have other : d ≠ c := hd.resolve_right (by simp [ahead])
  exact upd_get_ne _ _ other.symm

theorem coreHalts_coreHalted (c : Nat) (s : State) : CoreHalts c s (coreHalted c s) := coreHalts_put (coreHalts_cancelSpec c s) _ _ rfl

theorem state_coreHalted (c : Nat) (s : State) : (coreHalted c s).get (F.SRT_STAT_STATE c) = stStopped :=
  get_put_self _ (F.SRT_STAT_STATE c) 0 (show 9 + 3 ≤ 32 by decide)

/-- Every core below `n` stands stopped in `t`; beside their STAT registers and what they have run ahead, `t` is `s`. -/
structure CoresHalt (n : Nat) (s t : State) : Prop where
  pace : t.pace = s.pace
  reg : ∀ a, (∀ c < n, a ≠ A.SRT_STAT c) → t.reg a = s.reg a
  core : ∀ c, (s.core c).bind (·.spec) = none → t.core c = s.core c
  stopped : ∀ c < n, t.get (F.SRT_STAT_STATE c) = stStopped

theorem coresHalt_forUpTo (n : Nat) (s : State) : CoresHalt n s (forUpTo n coreHalted s) := by
  induction n with
  | zero => exact ⟨rfl, fun _ _ => rfl, fun _ _ => rfl, fun c hc => absurd hc (by omega)⟩
  | succ n ih =>
    have last := coreHalts_coreHalted n (forUpTo n coreHalted s)
    refine ⟨last.pace.trans ih.pace, fun a ha => ?_, fun c hc => ?_, fun c hc => ?_⟩
    · exact (last.reg a (ha n (by omega))).trans (ih.reg a fun c hc => ha c (by omega))
    · have before := ih.core c hc
      refine (last.core c ?_).trans before
      rcases eq_or_ne c n with rfl | hne
      · exact .inr (by rw [before, hc])
      · exact .inl hne
    · rcases eq_or_ne c n with rfl | hne
      · exact state_coreHalted c _
      · refine (get_congr (F.SRT_STAT_STATE c) (last.reg _ ?_)).trans (ih.stopped c (by omega))
        change A.SRT_STAT c ≠ A.SRT_STAT n
        unfold A.SRT_STAT
        omega

/-- RUN of every chain below `n` cleared. -/
def runsCleared (n : Nat) (s : State) : State := forUpTo n (fun i s => s.put (F.FC_CTRL_RUN i) 0) s

theorem runsCleared_frame (n : Nat) (s : State) : ∃ r, runsCleared n s = { s with regs := r } :=
  forUpTo_induction (P := fun t => ∃ r, t = { s with regs := r }) n (fun _ _ _ ⟨_, h⟩ => by rw [h]; exact ⟨_, rfl⟩) ⟨_, rfl⟩

theorem reg_runsCleared_ne {n : Nat} {a : Nat} (s : State) (h : ∀ i < n, A.FC_CTRL i ≠ a) : (runsCleared n s).reg a = s.reg a :=
  forUpTo_induction (P := fun t => t.reg a = s.reg a) n (fun i hi t ht => (reg_put_ne t (F.FC_CTRL_RUN i) 0 (h i hi)).trans ht) rfl

theorem run_runsCleared {i n : Nat} (s : State) (h : i < n) : (runsCleared n s).flag (F.FC_CTRL_RUN i) = false := by
  induction n with
  | zero => omega
  | succ n ih =>
    rcases eq_or_ne i n with rfl | hne
    · exact flag_put_zero _ (F.FC_CTRL_RUN i) (show 0 + 1 ≤ 32 by decide)
    · have apart : A.FC_CTRL n ≠ A.FC_CTRL i := by unfold A.FC_CTRL; omega
      exact (flag_congr (F.FC_CTRL_RUN i) (reg_put_ne _ (F.FC_CTRL_RUN n) 0 apart)).trans (ih (by omega))

/-! The entry to safe hold. -/

/-- Safe hold is marked with its unit and class, and entered in the day book. -/
def safeMarked (u cls : Nat) (s : State) : State :=
  dayPush 0x00 0x0B u cls (((takeSafe (s.mark F.SYS_FAULT_SAFE)).put F.SYS_FAULT_SAFE_UNIT u).put F.SYS_FAULT_SAFE_CLASS cls)

/-- Every core and every chain is stopped. -/
def unitsStopped (s : State) : State :=
  let t := forUpTo 65 coreHalted s
  runsCleared 16 { t with chains := t.chains.map Chain.halted }

/-- An entry to a lower power state ends, and the ring is frozen unless it is. -/
def safeFrozen (s : State) : State :=
  let t := s.put F.PWR_STAT_ENTERING 0
  if t.flag F.DLF_STAT_FROZEN then t else freeze 0x04 .safeHold t

theorem enterSafe_eq {s : State} (h : s.safe = false) (u cls : Nat) : enterSafe u cls s = safeFrozen (unitsStopped (safeMarked u cls s)) :=
  if_neg (by simp [h])

/-- The governor's registers and the fault slots. -/
abbrev GovernorReg (a : Nat) : Prop := 0x1007C000 ≤ a ∧ a < 0x1007D000 ∨ 0x10103000 ≤ a

/-- What an entry to safe hold leaves alone: the governor and its registers, the fault slots, and a core that does not run ahead. -/
structure GovernorKept (s t : State) : Prop where
  pace : t.pace = s.pace
  reg : ∀ a, GovernorReg a → t.reg a = s.reg a
  core : ∀ c, (s.core c).bind (·.spec) = none → t.core c = s.core c

theorem GovernorKept.trans {s t r : State} (h : GovernorKept s t) (h2 : GovernorKept t r) : GovernorKept s r :=
  ⟨h2.pace.trans h.pace, fun a ha => (h2.reg a ha).trans (h.reg a ha), fun c hc => (h2.core c (by rw [h.core c hc, hc])).trans (h.core c hc)⟩

theorem bookRegs_apart : ∀ a ∈ bookRegs, ¬GovernorReg a ∧ 0x10070000 < a ∧ a < 0x10100000 := by decide

theorem Booked.governorKept {s t : State} (h : Booked s t) : GovernorKept s t :=
  ⟨h.pace, fun a ha => h.reg a fun hm => (bookRegs_apart a hm).1 ha, fun c _ => congrArg (·[c]?) h.cores⟩

theorem takeSafe_frame (s : State) : ∃ m, takeSafe s = { s with tmr := m } := by
  unfold takeSafe
  split
  · exact ⟨_, rfl⟩
  · exact ⟨s.tmr, rfl⟩

/-- Safe hold is marked under its unit and class. -/
theorem safeMarked_marks (u cls : Nat) (s : State) : (safeMarked u cls s).safe = true ∧ (safeMarked u cls s).get F.SYS_FAULT_SAFE_UNIT = u % 256 ∧
    (safeMarked u cls s).get F.SYS_FAULT_SAFE_CLASS = cls % 16 := by
  obtain ⟨m, pins⟩ := takeSafe_frame (s.mark F.SYS_FAULT_SAFE)
  have fault := (booked_dayPush (.refl (((takeSafe (s.mark F.SYS_FAULT_SAFE)).put F.SYS_FAULT_SAFE_UNIT u).put F.SYS_FAULT_SAFE_CLASS cls))
    0x00 0x0B u cls).reg A.SYS_FAULT (by decide)
  refine ⟨(flag_congr F.SYS_FAULT_SAFE fault).trans ?_, (get_congr F.SYS_FAULT_SAFE_UNIT fault).trans ?_, (get_congr F.SYS_FAULT_SAFE_CLASS fault).trans ?_⟩
  · rw [flag_put_other _ _ _ _ (by decide) (by decide), flag_put_other _ _ _ _ (by decide) (by decide), pins, flag_mk]
    exact flag_mark_self _ _ (by decide) (by decide)
  · rw [get_put_other _ _ _ _ (by decide) (by decide)]
    exact get_put_self _ _ _ (by decide)
  · exact get_put_self _ _ _ (by decide)

theorem governorKept_safeMarked (u cls : Nat) (s : State) : GovernorKept s (safeMarked u cls s) := by
  obtain ⟨m, pins⟩ := takeSafe_frame (s.mark F.SYS_FAULT_SAFE)
  refine GovernorKept.trans ?_ (booked_dayPush (.refl _) _ _ _ _).governorKept
  refine ⟨by rw [State.put_pace, State.put_pace, pins, State.mark_pace], fun a ha => ?_, fun c _ => ?_⟩
  · have apart : A.SYS_FAULT ≠ a := by rintro rfl; exact absurd ha (by decide)
    rw [reg_put_ne _ F.SYS_FAULT_SAFE_CLASS _ apart, reg_put_ne _ F.SYS_FAULT_SAFE_UNIT _ apart, pins, reg_mk]
    exact reg_mark_ne s F.SYS_FAULT_SAFE apart
  · refine congrArg (·[c]?) ?_
    rw [State.put_cores, State.put_cores, pins, State.mark_cores]

/-- First the cores are halted, then the chains. -/
theorem unitsStopped_eq (s : State) : ∃ t, CoresHalt 65 s t ∧ unitsStopped s = runsCleared 16 { t with chains := t.chains.map Chain.halted } :=
  ⟨_, coresHalt_forUpTo 65 s, rfl⟩

/-- The registers that the stop of the units leaves alone. -/
theorem reg_unitsStopped {a : Nat} (s : State) (h : 0x10070000 < a) : (unitsStopped s).reg a = s.reg a := by
  obtain ⟨t, halted, e⟩ := unitsStopped_eq s
  rw [e, reg_runsCleared_ne _ fun i hi => by unfold A.FC_CTRL; omega]
  exact halted.reg a fun c hc => by unfold A.SRT_STAT; omega

theorem governorKept_unitsStopped (s : State) : GovernorKept s (unitsStopped s) := by
  obtain ⟨t, halted, e⟩ := unitsStopped_eq s
  obtain ⟨r, cleared⟩ := runsCleared_frame 16 { t with chains := t.chains.map Chain.halted }
  refine ⟨?_, fun a ha => reg_unitsStopped s (by omega), fun c hc => ?_⟩
  · rw [e, cleared]
    exact halted.pace
  · rw [e, cleared]
    exact halted.core c hc

theorem unitsStopped_stopped (s : State) : (∀ c < 65, (unitsStopped s).get (F.SRT_STAT_STATE c) = stStopped) ∧
    ∀ i < 16, (unitsStopped s).flag (F.FC_CTRL_RUN i) = false := by
  obtain ⟨t, halted, e⟩ := unitsStopped_eq s
  rw [e]
  refine ⟨fun c hc => ?_, fun i hi => run_runsCleared _ hi⟩
  refine (get_congr (F.SRT_STAT_STATE c) (reg_runsCleared_ne _ fun i hi => ?_)).trans (halted.stopped c hc)
  change A.FC_CTRL i ≠ A.SRT_STAT c
  unfold A.FC_CTRL A.SRT_STAT
  omega

theorem booked_safeFrozen (s : State) : Booked (s.put F.PWR_STAT_ENTERING 0) (safeFrozen s) := by
  unfold safeFrozen
  exact .ite (.refl _) (booked_freeze (.refl _) _ _)

/-- The registers that the freeze of the ring leaves alone. -/
theorem reg_safeFrozen {a : Nat} (s : State) (hb : a ∉ bookRegs) (hp : A.PWR_STAT ≠ a) : (safeFrozen s).reg a = s.reg a :=
  ((booked_safeFrozen s).reg a hb).trans (reg_put_ne s F.PWR_STAT_ENTERING 0 hp)

theorem governorKept_safeFrozen (s : State) : GovernorKept s (safeFrozen s) := by
  have entering : GovernorKept s (s.put F.PWR_STAT_ENTERING 0) := by
    refine ⟨rfl, fun a ha => reg_put_ne s F.PWR_STAT_ENTERING 0 ?_, fun _ _ => rfl⟩
    rintro rfl
    exact absurd ha (by decide)
  exact entering.trans (booked_safeFrozen s).governorKept

theorem governorKept_enterSafe (u cls : Nat) (s : State) : GovernorKept s (enterSafe u cls s) := by
  cases h : s.safe with
  | true =>
    rw [enterSafe, if_pos h]
    exact ⟨rfl, fun _ _ => rfl, fun _ _ => rfl⟩
  | false =>
    rw [enterSafe_eq h]
    exact ((governorKept_safeMarked u cls s).trans (governorKept_unitsStopped _)).trans (governorKept_safeFrozen _)

/-- The device enters safe hold (R370): it is marked with unit and class, every core stands stopped and no chain runs. -/
theorem enterSafe_enters {s : State} (h : s.safe = false) (u cls : Nat) : (enterSafe u cls s).safe = true ∧
    (enterSafe u cls s).get F.SYS_FAULT_SAFE_UNIT = u % 256 ∧ (enterSafe u cls s).get F.SYS_FAULT_SAFE_CLASS = cls % 16 ∧
    (∀ c < 65, (enterSafe u cls s).get (F.SRT_STAT_STATE c) = stStopped) ∧ ∀ i < 16, (enterSafe u cls s).flag (F.FC_CTRL_RUN i) = false := by
  obtain ⟨safe, unit, class_⟩ := safeMarked_marks u cls s
  obtain ⟨stopped, halted⟩ := unitsStopped_stopped (safeMarked u cls s)
  have fault : (enterSafe u cls s).reg A.SYS_FAULT = (safeMarked u cls s).reg A.SYS_FAULT := by
    rw [enterSafe_eq h, reg_safeFrozen _ (by decide) (by decide), reg_unitsStopped _ (by decide)]
  have low : ∀ a, a ≤ 0x10070000 → (enterSafe u cls s).reg a = (unitsStopped (safeMarked u cls s)).reg a := fun a ha => by
    rw [enterSafe_eq h]
    exact reg_safeFrozen _ (fun hm => by have := bookRegs_apart a hm; omega) (by unfold A.PWR_STAT; omega)
  refine ⟨(flag_congr F.SYS_FAULT_SAFE fault).trans safe, (get_congr F.SYS_FAULT_SAFE_UNIT fault).trans unit,
    (get_congr F.SYS_FAULT_SAFE_CLASS fault).trans class_, fun c hc => ?_, fun i hi => ?_⟩
  · exact (get_congr (F.SRT_STAT_STATE c) (low (A.SRT_STAT c) (by unfold A.SRT_STAT; omega))).trans (stopped c hc)
  · exact (flag_congr (F.FC_CTRL_RUN i) (low (A.FC_CTRL i) (by unfold A.FC_CTRL; omega))).trans (halted i hi)

/-! A fault slot is loaded while the postmaster listens (R365). -/

theorem dayPush_pow (unit code aux data : Nat) (s : State) : (dayPush unit code aux data s).pow = s.pow := by
  unfold dayPush
  split
  · rfl
  · dsimp only
    rw [State.mark_pow, State.incSat_pow]

theorem dayPush_tb (unit code aux data : Nat) (s : State) : (dayPush unit code aux data s).tb = s.tb := by
  unfold dayPush
  split
  · rfl
  · dsimp only
    rw [State.mark_tb, State.incSat_tb]

/-- The postmaster listens on while registers of the slots and of the day book change. -/
theorem Listens.kept {s t : State} {k : Core} (h : Listens s k) (hc : t.cores = s.cores) (hp : t.pow = s.pow)
    (hr : ∀ a < 0x10103000, a ∉ bookRegs → t.reg a = s.reg a) : Listens t k :=
  h.congr hc hp (get_congr F.PWR_STAT_STATE (hr _ (by decide) (by decide))) (flag_congr F.PWR_STAT_ENTERING (hr _ (by decide) (by decide)))
    (get_congr (F.SYS_FHELD_HELD 0) (hr _ (by decide) (by decide)))

/-- The primary slot of unit `u` written. -/
def slotWritten (u : Nat) (w : Word) (s : State) : State := (s.setReg (A.SYS_FLT_PRI u) w).setReg (A.SYS_FLT_PRIPM u) (BitVec.ofNat 32 s.pm)

theorem loadSlot_primary (u : Nat) {cls : Nat} (code data : Nat) (s : State) (hc : cls ≠ 2) : loadSlot u false cls code data s =
    pmEvent 0x30 (code + cls * 2 ^ 8) 0 0 u (dayPush u 0x08 code (cls + data * 2 ^ 16)
      (slotWritten u (BitVec.ofNat 32 (2 ^ 31 + cls * 2 ^ 24 + code * 2 ^ 16 + data)) s)) := by
  unfold loadSlot slotWritten
  simp only [b2n, Bool.false_eq_true, if_false, Nat.zero_mul, Nat.mul_zero, Nat.add_zero, hc]

theorem reg_slotWritten (u : Nat) (w : Word) (s : State) : (slotWritten u w s).reg (A.SYS_FLT_PRI u) = w ∧
    (slotWritten u w s).reg (A.SYS_FLT_PRIPM u) = BitVec.ofNat 32 s.pm ∧ ∀ a < 0x10103000, (slotWritten u w s).reg a = s.reg a := by
  unfold slotWritten
  refine ⟨?_, reg_setReg_self _ _ _, fun a ha => ?_⟩
  · rw [reg_setReg_ne _ _ (by unfold A.SYS_FLT_PRI A.SYS_FLT_PRIPM; omega), reg_setReg_self]
  · rw [reg_setReg_ne _ _ (by unfold A.SYS_FLT_PRIPM; omega), reg_setReg_ne _ _ (by unfold A.SYS_FLT_PRI; omega)]

theorem slotWritten_pace (u : Nat) (w : Word) (s : State) : (slotWritten u w s).pace = s.pace := rfl

theorem slotWritten_cores (u : Nat) (w : Word) (s : State) : (slotWritten u w s).cores = s.cores := rfl

theorem slotWritten_pow (u : Nat) (w : Word) (s : State) : (slotWritten u w s).pow = s.pow := rfl

theorem slotWritten_tb (u : Nat) (w : Word) (s : State) : (slotWritten u w s).tb = s.tb := rfl

/-- Primary slot `u` of `t` holds `w` and the postmark of `s`, and the postmaster has been told `r`; no other register has changed but the day
book's. -/
structure SlotTold (u : Nat) (w : Word) (r : List Byte) (s t : State) : Prop where
  pri : t.reg (A.SYS_FLT_PRI u) = w
  priPm : t.reg (A.SYS_FLT_PRIPM u) = BitVec.ofNat 32 s.pm
  pace : t.pace = s.pace
  told : Told s t r
  others : ∀ a < 0x10103000, a ∉ bookRegs → t.reg a = s.reg a

/-- A slot is written, entered in the day book, whether or not it has room, and told to the postmaster. -/
theorem slotTold_slotWritten {s : State} {k : Core} (h : Listens s k) (u : Nat) (w : Word) (code aux value : Nat) :
    SlotTold u w (mkRecord s.pm s.devId 0x7FFFFF 0x30 0 value 0 u 0) s (pmEvent 0x30 value 0 0 u (dayPush u 0x08 code aux (slotWritten u w s))) := by
  obtain ⟨pri, priPm, others⟩ := reg_slotWritten u w s
  have high : ∀ a ≥ 0x10103000, a ∉ bookRegs := fun a ha hm => by have := bookRegs_apart a hm; omega
  have booked := booked_dayPush (.refl (slotWritten u w s)) u 0x08 code aux
  have pow := (dayPush_pow u 0x08 code aux (slotWritten u w s)).trans (slotWritten_pow u w s)
  have tb := (dayPush_tb u 0x08 code aux (slotWritten u w s)).trans (slotWritten_tb u w s)
  have cores := booked.cores.trans (slotWritten_cores u w s)
  generalize dayPush u 0x08 code aux (slotWritten u w s) = t at booked pow tb cores
  have low : ∀ a < 0x10103000, a ∉ bookRegs → t.reg a = s.reg a := fun a ha hb => (booked.reg a hb).trans (others a ha)
  have device : t.devId = s.devId := get_congr F.CAS_ID_ID (low _ (by decide) (by decide))
  have postmark : t.pm = s.pm := congrArg (fun n => n / 2 ^ 24 % 2 ^ 64) tb
  rw [pmEvent_listens (h.kept cores pow low), device, postmark]
  refine ⟨(booked.reg _ (high _ ?_)).trans pri, (booked.reg _ (high _ ?_)).trans priPm, booked.pace.trans (slotWritten_pace u w s), ?_, low⟩
  · unfold A.SYS_FLT_PRI; omega
  · unfold A.SYS_FLT_PRIPM; omega
  · unfold Told State.modCore
    rw [cores]

theorem slotTold_loadSlot {s : State} {k : Core} (h : Listens s k) (u : Nat) {cls : Nat} (code data : Nat) (hc : cls ≠ 2) :
    SlotTold u (BitVec.ofNat 32 (2 ^ 31 + cls * 2 ^ 24 + code * 2 ^ 16 + data)) (mkRecord s.pm s.devId 0x7FFFFF 0x30 0 (code + cls * 2 ^ 8) 0 u 0) s
      (loadSlot u false cls code data s) := by
  rw [loadSlot_primary u code data s hc]
  exact slotTold_slotWritten h u _ code _ _

end Sys2Proof.Machine

/-!
PROOFS. The pace governor and the sensor (03): the close of a measurement window (R42, R46, R48, R49) and a reading of the temperature (R52, R53).
-/

namespace Sys2Proof.Machine

theorem satTo_eq_min (m n : Nat) : satTo m n = min m n := by
  unfold satTo
  split <;> omega

/-- `t` is `s` but for registers. -/
def RegsMove (s t : State) : Prop := ∃ r, t = { s with regs := r }

namespace RegsMove
variable {s t : State}

theorem refl (s : State) : RegsMove s s := ⟨s.regs, rfl⟩

theorem put (h : RegsMove s t) (f : Fd) (v : Nat) : RegsMove s (t.put f v) := by
  obtain ⟨r, rfl⟩ := h
  exact ⟨_, rfl⟩

end RegsMove

/-! The governor alone has moved. -/

/-- The registers that the governor and the sensor write. -/
abbrev paceRegs : List Nat := [A.PACE_NOW, A.PACE_VCORE, A.PACE_STAT, A.PACE_TEMP]

/-- `t` is `s` but for the governor's registers and its memory. -/
structure GovernorMoves (s t : State) : Prop where
  frame : ∃ r p, t = { s with regs := r, pace := p }
  untouched : Untouched s t paceRegs

namespace GovernorMoves
variable {s t : State}

theorem mark (h : GovernorMoves s t) (f : Fd) (hf : f.addr ∈ paceRegs) : GovernorMoves s (t.mark f) := by
  obtain ⟨⟨r, p, e⟩, untouched⟩ := h
  refine ⟨?_, Untouched_mark untouched f hf⟩
  rw [e]
  exact ⟨_, p, rfl⟩

theorem get (h : GovernorMoves s t) (f : Fd) (hf : f.addr ∉ paceRegs) : t.get f = s.get f := get_congr f (h.untouched.1 _ hf)

theorem flag (h : GovernorMoves s t) (f : Fd) (hf : f.addr ∉ paceRegs) : t.flag f = s.flag f := flag_congr f (h.untouched.1 _ hf)

theorem pm (h : GovernorMoves s t) : t.pm = s.pm := by
  obtain ⟨r, p, rfl⟩ := h.frame
  rfl

theorem cores (h : GovernorMoves s t) : t.cores = s.cores := by
  obtain ⟨r, p, rfl⟩ := h.frame
  rfl

theorem flt (h : GovernorMoves s t) : t.flt = s.flt := by
  obtain ⟨r, p, rfl⟩ := h.frame
  rfl

theorem pow (h : GovernorMoves s t) : t.pow = s.pow := by
  obtain ⟨r, p, rfl⟩ := h.frame
  rfl

theorem listens {k : Core} (h : GovernorMoves s t) (hk : Listens s k) : Listens t k :=
  hk.congr h.cores h.pow (h.get F.PWR_STAT_STATE (by decide)) (h.flag F.PWR_STAT_ENTERING (by decide)) (h.get (F.SYS_FHELD_HELD 0) (by decide))

theorem priValid (h : GovernorMoves s t) : priValid t paceUnit = priValid s paceUnit := h.flag (F.SYS_FLT_PRI_VALID paceUnit) (by decide)

/-- The governor's fault is loaded and told (R365). -/
theorem slotTold {k : Core} (h : GovernorMoves s t) (hk : Listens s k) {cls : Nat} (code data : Nat) (hc : cls ≠ 2) :
    SlotTold paceUnit (BitVec.ofNat 32 (2 ^ 31 + cls * 2 ^ 24 + code * 2 ^ 16 + data))
      (mkRecord s.pm s.devId 0x7FFFFF 0x30 0 (code + cls * 2 ^ 8) 0 paceUnit 0) t (loadSlot paceUnit false cls code data t) := by
  have told := slotTold_loadSlot (h.listens hk) paceUnit code data hc
  have device : t.devId = s.devId := h.get F.CAS_ID_ID (by decide)
  rwa [h.pm, device] at told

end GovernorMoves

/-- A fault of the governor that finds its primary slot free (R365). -/
theorem raiseFault_pace {s : State} (h : priValid s paceUnit = false) (cls code data : Nat) : raiseFault paceUnit cls code data s =
    if cls = 5 then enterSafe paceUnit cls (loadSlot paceUnit false cls code data s) else loadSlot paceUnit false cls code data s := by
  unfold raiseFault
  rw [if_neg (by simp [paceUnit]), h]
  simp [paceUnit]

/-- A slot written with the queue of the day book and a core changed. -/
theorem slotEntered (s : State) (a b : Nat) (w v : Word) (f : Faults) (g : Core → Core) :
    (({ ((s.setReg a w).setReg b v) with flt := f } : State).modCore 0 g).flt = f ∧
      Untouched s (({ ((s.setReg a w).setReg b v) with flt := f } : State).modCore 0 g) [a, b] :=
  ⟨rfl, Untouched_same (Untouched_setReg (Untouched_setReg (Untouched_refl s [a, b]) w (a := a) (by simp)) v (a := b) (by simp)) rfl rfl⟩

/-- Where the day book has room, the fault takes its entry, and nothing but the slot's registers is written. -/
theorem loadSlot_room {s : State} {k : Core} (h : Listens s k) (hq : s.flt.dayQ.length < 32) (u : Nat) {cls : Nat} (code data : Nat) (hc : cls ≠ 2) :
    (loadSlot u false cls code data s).flt.dayQ = s.flt.dayQ ++ [⟨s.pm, u, 0x08, code, cls + data * 2 ^ 16⟩] ∧
      Untouched s (loadSlot u false cls code data s) [A.SYS_FLT_PRI u, A.SYS_FLT_PRIPM u] := by
  rw [loadSlot_listens h hq u cls code data hc false]
  obtain ⟨entered, untouched⟩ := slotEntered s (A.SYS_FLT_PRI u) (A.SYS_FLT_PRIPM u) (BitVec.ofNat 32 (2 ^ 31 + cls * 2 ^ 24 + code * 2 ^ 16 + data))
    (BitVec.ofNat 32 s.pm) { s.flt with dayQ := s.flt.dayQ ++ [(⟨s.pm, u, 0x08, code, cls + 16 * b2n false + data * 2 ^ 16⟩ : DayEntry)] }
    (fun k => { k with queue := k.queue ++ [mkRecord s.pm s.devId 0x7FFFFF 0x30 0 (code + cls * 2 ^ 8 + b2n false * 2 ^ 12) 0 u 0] })
  simp only [Bool.false_eq_true, if_false]
  refine ⟨?_, untouched⟩
  rw [entered]
  simp only [b2n, Bool.false_eq_true, if_false, Nat.mul_zero, Nat.add_zero]

/-! The governor's loop. -/

theorem needCode_le (need : Nat) : needCode need ≤ 90 := by
  unfold needCode
  cases found : (List.range 10).find? fun k => decide (need ≤ fusedPace k) with
  | none => decide
  | some k =>
    have := List.mem_range.1 (List.mem_of_find?_eq_some found)
    simp only [Option.getD_some]
    omega

theorem effCap_lt (s : State) (need : Nat) : effCap s need < 256 := by
  have cap : s.get F.PACE_POLICY_VCAP < 256 := get_lt s F.PACE_POLICY_VCAP
  have code := needCode_le need
  unfold effCap
  split <;> omega

theorem loopStep_setpoint (old low eff guard now need : Nat) : (loopStep old low eff guard now need).1 =
    if now < need + (need * guard + 63) / 64 then min (min old eff + 8) eff
    else if (need + (need * guard + 63) / 64) * 17 ≤ now * 16 ∧ low = 63 then min old eff - 1 else min old eff := by
  unfold loopStep
  dsimp only
  generalize need + (need * guard + 63) / 64 = target
  split
  · rfl
  split <;> split <;> simp_all

theorem loopStep_lowCount (old low eff guard now need : Nat) : (loopStep old low eff guard now need).2 =
    if now < need + (need * guard + 63) / 64 ∨ now * 16 < (need + (need * guard + 63) / 64) * 17 ∨ low = 63 then 0 else low + 1 := by
  unfold loopStep
  dsimp only
  generalize need + (need * guard + 63) / 64 = target
  split
  · simp_all
  split <;> split <;> simp_all

theorem loopStep_setpoint_lt (old low guard now need : Nat) {eff : Nat} (h : eff < 256) : (loopStep old low eff guard now need).1 < 256 := by
  rw [loopStep_setpoint]
  split
  · omega
  split <;> omega

/-! The close of a window. -/

/-- The window is short: the need is not met although the set-point stands at the ceiling (R48). -/
def windowShort (now need : Nat) (s : State) : Bool := decide (now < need) && s.get F.PACE_VCORE_SETPOINT == effCap s need

/-- The loop step at the close of a window. -/
def windowStep (now need : Nat) (s : State) : Nat × Nat :=
  loopStep (s.get F.PACE_VCORE_SETPOINT) s.pace.lowCount (effCap s need) (s.get F.PACE_POLICY_GUARD) now need

/-- The registers of the governor at the close of a window, but for SHORT. -/
def windowRegs (now need : Nat) (s : State) : State :=
  (((((s.put F.PACE_NOW_NOW now).put F.PACE_VCORE_NEED_CODE (needCode need)).put F.PACE_VCORE_EFF_CAP (effCap s need)).put F.PACE_VCORE_SETPOINT
    (windowStep now need s).1).putB F.PACE_STAT_CAP_HELD
      (s.get F.PACE_POLICY_POLICY == 1 && (paceFault s || decide (s.get F.PACE_POLICY_VCAP < needCode need)))).putB
    F.PACE_STAT_RAMPING (decide (s.get F.PACE_VCORE_SETPOINT < (windowStep now need s).1))

/-- The registers of the governor at the close of a window. -/
def windowMarked (now need : Nat) (s : State) : State :=
  if windowShort now need s then (windowRegs now need s).mark F.PACE_STAT_SHORT else windowRegs now need s

/-- The governor's memory `p` at the close of a window. -/
def windowPace (now need : Nat) (s : State) (p : Pace) : Pace :=
  { p with
    lowCount := (windowStep now need s).2, prevShort := windowShort now need s, polUsed := s.get F.PACE_POLICY_POLICY, vcapUsed := s.get F.PACE_POLICY_VCAP }

/-- The window closed, before its fault is raised. -/
def windowClosed (now need : Nat) (s : State) : State :=
  { windowMarked now need s with pace := windowPace now need s (windowMarked now need s).pace }

theorem paceRuns_of {s : State} (up : s.pow.phase = .up) (run : s.pwr ≤ 1) (work : 0x7C ∉ s.flt.resets) : paceRuns s = true := by
  simp [paceRuns, paceUnit, up, run, work]

theorem windowEnd_eq {s : State} (h : paceRuns s = true) (count : Nat) {now need : Nat} (hnow : now = min 0xFFFF (count * 65536 / 1000000))
    (hneed : need = paceNeed s none 0) : windowEnd count s =
      if windowShort now need s && !s.pace.prevShort then raiseFault paceUnit 4 1 0 (windowClosed now need s) else windowClosed now need s := by
  rw [← satTo_eq_min] at hnow
  unfold windowEnd
  rw [if_neg (by simp [h]), ← hneed, ← hnow]
  rfl

theorem windowShort_iff {now need : Nat} {s : State} : windowShort now need s = true ↔ now < need ∧ s.get F.PACE_VCORE_SETPOINT = effCap s need := by
  simp [windowShort]

/-! What a closed window leaves. -/

theorem regsMove_windowRegs (now need : Nat) (s : State) : RegsMove s (windowRegs now need s) :=
  ((((((RegsMove.refl s).put _ _).put _ _).put _ _).put _ _).put _ _).put _ _

theorem regsMove_windowMarked (now need : Nat) (s : State) : RegsMove s (windowMarked now need s) := by
  unfold windowMarked
  split
  · exact (regsMove_windowRegs now need s).put F.PACE_STAT_SHORT 1
  · exact regsMove_windowRegs now need s

/-- Beside registers the governor's memory alone is written. -/
theorem windowClosed_eq (now need : Nat) (s : State) :
    windowClosed now need s = { s with regs := (windowClosed now need s).regs, pace := windowPace now need s s.pace } := by
  obtain ⟨r, e⟩ := regsMove_windowMarked now need s
  unfold windowClosed
  rw [e]

/-- SHORT alone is left to be marked. -/
theorem get_windowClosed (now need : Nat) (s : State) {g : Fd} (h : A.PACE_STAT ≠ g.addr) :
    (windowClosed now need s).get g = (windowRegs now need s).get g := by
  unfold windowClosed windowMarked
  rw [get_mk]
  split
  · exact get_mark_other _ F.PACE_STAT_SHORT g (by decide) (.inl h)
  · rfl

theorem now_windowClosed {now : Nat} (need : Nat) (s : State) (h : now ≤ 0xFFFF) : (windowClosed now need s).get F.PACE_NOW_NOW = now := by
  rw [get_windowClosed _ _ _ (by decide)]
  unfold windowRegs
  rw [get_putB_other _ _ _ _ (by decide) (by decide), get_putB_other _ _ _ _ (by decide) (by decide), get_put_other _ _ _ _ (by decide) (by decide),
    get_put_other _ _ _ _ (by decide) (by decide), get_put_other _ _ _ _ (by decide) (by decide), get_put_self _ _ _ (by decide)]
  exact Nat.mod_eq_of_lt (by simp only [F.PACE_NOW_NOW]; omega)

theorem needCode_windowClosed (now need : Nat) (s : State) : (windowClosed now need s).get F.PACE_VCORE_NEED_CODE = needCode need := by
  have code := needCode_le need
  rw [get_windowClosed _ _ _ (by decide)]
  unfold windowRegs
  rw [get_putB_other _ _ _ _ (by decide) (by decide), get_putB_other _ _ _ _ (by decide) (by decide), get_put_other _ _ _ _ (by decide) (by decide),
    get_put_other _ _ _ _ (by decide) (by decide), get_put_self _ _ _ (by decide)]
  exact Nat.mod_eq_of_lt (by simp only [F.PACE_VCORE_NEED_CODE]; omega)

theorem effCap_windowClosed (now need : Nat) (s : State) : (windowClosed now need s).get F.PACE_VCORE_EFF_CAP = effCap s need := by
  rw [get_windowClosed _ _ _ (by decide)]
  unfold windowRegs
  rw [get_putB_other _ _ _ _ (by decide) (by decide), get_putB_other _ _ _ _ (by decide) (by decide), get_put_other _ _ _ _ (by decide) (by decide),
    get_put_self _ _ _ (by decide)]
  exact Nat.mod_eq_of_lt (effCap_lt s need)

theorem setpoint_windowClosed (now need : Nat) (s : State) : (windowClosed now need s).get F.PACE_VCORE_SETPOINT = (windowStep now need s).1 := by
  rw [get_windowClosed _ _ _ (by decide)]
  unfold windowRegs
  rw [get_putB_other _ _ _ _ (by decide) (by decide), get_putB_other _ _ _ _ (by decide) (by decide), get_put_self _ _ _ (by decide)]
  exact Nat.mod_eq_of_lt (loopStep_setpoint_lt _ _ _ _ _ (effCap_lt s need))

/-- A short window sets SHORT, which otherwise stays (R48). -/
theorem short_windowClosed (now need : Nat) (s : State) :
    (windowClosed now need s).flag F.PACE_STAT_SHORT = (s.flag F.PACE_STAT_SHORT || windowShort now need s) := by
  have others : (windowRegs now need s).flag F.PACE_STAT_SHORT = s.flag F.PACE_STAT_SHORT := by
    unfold windowRegs
    rw [flag_putB_other _ _ _ _ (by decide) (by decide), flag_putB_other _ _ _ _ (by decide) (by decide), flag_put_other _ _ _ _ (by decide) (by decide),
      flag_put_other _ _ _ _ (by decide) (by decide), flag_put_other _ _ _ _ (by decide) (by decide), flag_put_other _ _ _ _ (by decide) (by decide)]
  unfold windowClosed windowMarked
  rw [flag_mk]
  cases windowShort now need s with
  | false => rw [if_neg (by decide), others, Bool.or_false]
  | true => rw [if_pos rfl, flag_mark_self _ _ (by decide) (by decide), Bool.or_true]

theorem untouched_windowRegs (now need : Nat) (s : State) : Untouched s (windowRegs now need s) [A.PACE_NOW, A.PACE_VCORE, A.PACE_STAT] := by
  have now' := Untouched_put (Untouched_refl s [A.PACE_NOW, A.PACE_VCORE, A.PACE_STAT]) F.PACE_NOW_NOW now (by decide)
  have core := Untouched_put (Untouched_put (Untouched_put now' F.PACE_VCORE_NEED_CODE (needCode need) (by decide)) F.PACE_VCORE_EFF_CAP (effCap s need)
    (by decide)) F.PACE_VCORE_SETPOINT (windowStep now need s).1 (by decide)
  exact Untouched_putB (Untouched_putB core F.PACE_STAT_CAP_HELD _ (by decide)) F.PACE_STAT_RAMPING _ (by decide)

theorem untouched_windowClosed (now need : Nat) (s : State) : Untouched s (windowClosed now need s) [A.PACE_NOW, A.PACE_VCORE, A.PACE_STAT] := by
  refine Untouched_same (t := windowMarked now need s) ?_ rfl rfl
  unfold windowMarked
  split
  · exact Untouched_mark (untouched_windowRegs now need s) F.PACE_STAT_SHORT (by decide)
  · exact untouched_windowRegs now need s

theorem governorMoves_windowClosed (now need : Nat) (s : State) : GovernorMoves s (windowClosed now need s) :=
  ⟨⟨_, _, windowClosed_eq now need s⟩, Untouched_mono (untouched_windowClosed now need s) (by decide)⟩

theorem windowClosed_pace (now need : Nat) (s : State) : (windowClosed now need s).pace = windowPace now need s s.pace :=
  congrArg State.pace (windowClosed_eq now need s)

end Sys2Proof.Machine

/-!
PROOFS. The clauses of measurement windows and of sensor readings (03).
-/

namespace Sys2Proof.Machine

/-! Measurement windows (R42, R46, R48, R49). -/

/-- A window that raises no fault: it closes, and no more. -/
theorem goes_windowClosed {s : State} (runs : paceRuns s = true) {count now need : Nat} (hnow : now = min 0xFFFF (count * 65536 / 1000000))
    (hneed : need = paceNeed s none 0) (calm : windowShort now need s = true → s.pace.prevShort = true) {P : State → Prop}
    (h : P (windowClosed now need s)) : Goes (.measurementWindowEnd count) s P := by
  refine ⟨_, rfl, ?_⟩
  rw [windowEnd_eq runs count hnow hneed, if_neg ?_]
  · exact h
  · cases short : windowShort now need s with
    | false => simp
    | true => simp [calm short]

/-- The first short window of a run raises the governor's PACE fault (R48, R365). -/
theorem goes_windowFault {s : State} (runs : paceRuns s = true) {count now need : Nat} (hnow : now = min 0xFFFF (count * 65536 / 1000000))
    (hneed : need = paceNeed s none 0) (short : windowShort now need s = true) (first : s.pace.prevShort = false) (free : priValid s paceUnit = false)
    {P : State → Prop} (h : P (loadSlot paceUnit false 4 1 0 (windowClosed now need s))) : Goes (.measurementWindowEnd count) s P := by
  refine ⟨_, rfl, ?_⟩
  have slot := (governorMoves_windowClosed now need s).priValid.trans free
  rw [windowEnd_eq runs count hnow hneed, short, first, if_pos (by decide), raiseFault_pace slot, if_neg (by decide)]
  exact h

theorem windowShort_eq_decide (now need : Nat) (s : State) :
    windowShort now need s = decide (now < need ∧ s.get F.PACE_VCORE_SETPOINT = effCap s need) := by
  rw [Bool.eq_iff_iff, windowShort_iff, decide_eq_true_eq]

/-- The governor's memory as R46 and R48 lay it down. -/
theorem windowPace_eq (now need : Nat) (s : State) : windowPace now need s s.pace =
    { s.pace with
      lowCount := if now < need + (need * s.get F.PACE_POLICY_GUARD + 63) / 64 ∨
        now * 16 < (need + (need * s.get F.PACE_POLICY_GUARD + 63) / 64) * 17 ∨ s.pace.lowCount = 63 then 0 else s.pace.lowCount + 1
      prevShort := decide (now < need ∧ s.get F.PACE_VCORE_SETPOINT = effCap s need)
      polUsed := s.get F.PACE_POLICY_POLICY, vcapUsed := s.get F.PACE_POLICY_VCAP } := by
  unfold windowPace windowStep
  rw [loopStep_lowCount, windowShort_eq_decide]

theorem told_of_cores {s t r : State} {record : List Byte} (h : Told t r record) (e : t.cores = s.cores) : Told s r record :=
  h.trans (congrArg (upd · 0 fun k => { k with queue := k.queue ++ [record] }) e)

theorem told_core {s t : State} {record : List Byte} {k : Core} (h : Told s t record) (hk : s.core 0 = some k) :
    t.core 0 = some { k with queue := k.queue ++ [record] } :=
  (congrArg (·[0]?) h).trans ((upd_get s.cores 0 _).trans (congrArg (Option.map _) hk))

/-- What the first short window of a run leaves: SHORT, the governor's fault and its record. -/
theorem windowFault_told {s : State} {k : Core} (h : Listens s k) (room : s.flt.dayQ.length < 32) {now need : Nat}
    (hnow : now ≤ 0xFFFF) (short : windowShort now need s = true) :
    let t := loadSlot paceUnit false 4 1 0 (windowClosed now need s)
    t.get F.PACE_NOW_NOW = now ∧ t.pace.prevShort = true ∧ t.flag F.PACE_STAT_SHORT = true ∧ t.reg (A.SYS_FLT_PRI 0x7C) = 0x84010000 ∧
      t.reg (A.SYS_FLT_PRIPM 0x7C) = BitVec.ofNat 32 s.pm ∧ Told s t (mkRecord s.pm s.devId 0x7FFFFF 0x30 0 0x0401 0 0x7C 0) ∧
      t.flt.dayQ = s.flt.dayQ ++ [⟨s.pm, 0x7C, 0x08, 1, 4⟩] ∧
      Untouched s t [A.PACE_NOW, A.PACE_VCORE, A.PACE_STAT, A.SYS_FLT_PRI 0x7C, A.SYS_FLT_PRIPM 0x7C] := by
  have moves := governorMoves_windowClosed now need s
  have slot := moves.slotTold h 1 0 (show 4 ≠ 2 by decide)
  obtain ⟨entered, untouched⟩ := loadSlot_room (moves.listens h) (by rwa [moves.flt]) paceUnit 1 0 (show 4 ≠ 2 by decide)
  have closed := untouched_windowClosed now need s
  have pace := windowClosed_pace now need s
  refine ⟨?_, ?_, ?_, slot.pri, ?_, told_of_cores slot.told moves.cores, ?_, ?_⟩
  · exact (get_congr F.PACE_NOW_NOW (slot.others _ (by decide) (by decide))).trans (now_windowClosed need s hnow)
  · rw [slot.pace, pace]
    exact short
  · rw [flag_congr F.PACE_STAT_SHORT (slot.others _ (by decide) (by decide)), short_windowClosed, short, Bool.or_true]
  · rw [← moves.pm]
    exact slot.priPm
  · rw [entered, moves.flt, moves.pm]
    rfl
  · exact Untouched_trans (Untouched_mono closed (by decide)) (Untouched_mono untouched (by decide))

/-! Readings of the sensor (R52, R53). -/

/-- The governor's memory `p` after a reading. -/
def readingPace (code lim : Int) (p : Pace) : Pace :=
  { p with
    below := decide (code < lim), armed := decide (code < lim - 8) || (p.armed && decide (code < lim))
    hotRun := if 540 ≤ code then satTo 3 (p.hotRun + 1) else 0 }

/-- A reading shown, and told where it rises to the limit. -/
def readingShown (code lim : Int) (s : State) : State :=
  let t := s.put F.PACE_TEMP_TEMP (ofSigned 16 code)
  if lim ≤ code ∧ t.pace.below then crossed code t else t

/-- A reading taken, before the fault of its streak is raised. -/
def readingTaken (code lim : Int) (s : State) : State := { readingShown code lim s with pace := readingPace code lim s.pace }

theorem sensorRuns_of {s : State} (up : s.pow.phase = .up) (run : s.pwr ≤ 1) (ok : s.flag F.PWR_STAT_OSC_OK = true) : sensorRuns s = true := by
  simp [sensorRuns, up, run, ok]

theorem clamped_eq (x : Int) : (if x < -220 then -220 else if 600 < x then 600 else x) = max (-220) (min x 600) := by
  split
  · omega
  split <;> omega

/-- The streak of readings at or above +135 degrees comes to its second. -/
theorem hotRun_eq_two (code : Int) (n : Nat) : (if 540 ≤ code then satTo 3 (n + 1) else 0) = 2 ↔ 540 ≤ code ∧ n = 1 := by
  rw [satTo_eq_min]
  split
  · omega
  · omega

theorem temperatureUpdate_eq {s : State} (h : sensorRuns s = true) {x code lim : Int} (hcode : code = max (-220) (min x 600))
    (hlim : lim = toSigned 16 (s.get F.PACE_TEMP_HI_LIMIT)) : temperatureUpdate x s = if 540 ≤ code ∧ s.pace.hotRun = 1 then
      raiseFault paceUnit 5 1 0 ((readingTaken code lim s).mark F.PACE_STAT_TRIP) else readingTaken code lim s := by
  rw [← clamped_eq] at hcode
  unfold temperatureUpdate
  rw [if_neg (by simp [h]), ← hcode, ← hlim]
  exact if_congr (hotRun_eq_two code s.pace.hotRun) rfl rfl

theorem readingShown_below {code lim : Int} {s : State} (h : code < lim ∨ s.pace.below = false) :
    readingShown code lim s = s.put F.PACE_TEMP_TEMP (ofSigned 16 code) := by
  refine if_neg ?_
  rw [State.put_pace]
  rcases h with h | h
  · omega
  · simp [h]

/-- A reading that rises to the limit, with none below LIMIT - 8 since the last event. -/
theorem readingShown_unarmed {code lim : Int} {s : State} (h : lim ≤ code) (hb : s.pace.below = true) (ha : s.pace.armed = false) :
    readingShown code lim s = (s.put F.PACE_TEMP_TEMP (ofSigned 16 code)).mark F.PACE_STAT_TJ_HI := by
  refine (if_pos ⟨h, hb⟩).trans (if_neg ?_)
  rw [State.put_pace, ha]
  decide

/-- A reading that rises to the limit, with one below LIMIT - 8 since the last event. -/
theorem readingShown_armed {code lim : Int} {s : State} (h : lim ≤ code) (hb : s.pace.below = true) (ha : s.pace.armed = true) :
    readingShown code lim s =
      pmEvent 0x3A (ofSigned 24 (code * 25)) 0x01 0 paceUnit ((s.put F.PACE_TEMP_TEMP (ofSigned 16 code)).mark F.PACE_STAT_TJ_HI) :=
  (if_pos ⟨h, hb⟩).trans (if_pos ha)

/-- PACE_TEMP shows the code of the reading. -/
theorem temp_put (s : State) (code : Int) : (s.put F.PACE_TEMP_TEMP (ofSigned 16 code)).get F.PACE_TEMP_TEMP = ofSigned 16 code := by
  rw [get_put_self _ _ _ (by decide)]
  refine Nat.mod_eq_of_lt ?_
  unfold ofSigned
  simp only [F.PACE_TEMP_TEMP]
  omega

theorem untouched_temp (s : State) (v : Nat) (l : List Nat) (h : A.PACE_TEMP ∈ l) : Untouched s (s.put F.PACE_TEMP_TEMP v) l :=
  Untouched_put (Untouched_refl s l) F.PACE_TEMP_TEMP v h

/-- The reading marked as one at or above the limit. -/
theorem reading_marked (s : State) (code : Int) :
    ((s.put F.PACE_TEMP_TEMP (ofSigned 16 code)).mark F.PACE_STAT_TJ_HI).get F.PACE_TEMP_TEMP = ofSigned 16 code ∧
      ((s.put F.PACE_TEMP_TEMP (ofSigned 16 code)).mark F.PACE_STAT_TJ_HI).flag F.PACE_STAT_TJ_HI = true ∧
      Untouched s ((s.put F.PACE_TEMP_TEMP (ofSigned 16 code)).mark F.PACE_STAT_TJ_HI) [A.PACE_TEMP, A.PACE_STAT] ∧
      RegsMove s ((s.put F.PACE_TEMP_TEMP (ofSigned 16 code)).mark F.PACE_STAT_TJ_HI) := by
  refine ⟨?_, flag_mark_self _ _ (by decide) (by decide), ?_, ((RegsMove.refl s).put _ _).put _ _⟩
  · rw [get_mark_other _ _ _ (by decide) (by decide), temp_put]
  · exact Untouched_mark (untouched_temp s _ _ (by decide)) F.PACE_STAT_TJ_HI (by decide)

/-- The governor's memory after a reading, in the terms of R52 and R53. -/
theorem readingPace_eq (code lim : Int) (p : Pace) : readingPace code lim p =
    { p with
      below := decide (code < lim), armed := decide (code < lim - 8) || (p.armed && decide (code < lim))
      hotRun := if 540 ≤ code then min 3 (p.hotRun + 1) else 0 } := by
  unfold readingPace
  rw [satTo_eq_min]

theorem RegsMove.with_pace {s t : State} (h : RegsMove s t) (p : Pace) : ({ t with pace := p } : State) = { s with regs := t.regs, pace := p } := by
  obtain ⟨r, rfl⟩ := h
  rfl

/-- A reading that crosses nothing shows its code, and nothing more. -/
theorem readingTaken_below {code lim : Int} {s : State} (h : code < lim ∨ s.pace.below = false) :
    (readingTaken code lim s).get F.PACE_TEMP_TEMP = ofSigned 16 code ∧ Untouched s (readingTaken code lim s) [A.PACE_TEMP] ∧
      readingTaken code lim s = { s with regs := (readingTaken code lim s).regs, pace := readingPace code lim s.pace } := by
  unfold readingTaken
  rw [readingShown_below h]
  refine ⟨?_, Untouched_same (untouched_temp s (ofSigned 16 code) _ (by decide)) rfl rfl, ((RegsMove.refl s).put _ _).with_pace _⟩
  rw [get_mk, temp_put]

/-- A reading that rises to the limit sets TJ_HI; without a fall below it since the last event it tells nothing. -/
theorem readingTaken_unarmed {code lim : Int} {s : State} (h : lim ≤ code) (hb : s.pace.below = true) (ha : s.pace.armed = false) :
    (readingTaken code lim s).get F.PACE_TEMP_TEMP = ofSigned 16 code ∧ (readingTaken code lim s).flag F.PACE_STAT_TJ_HI = true ∧
      Untouched s (readingTaken code lim s) [A.PACE_TEMP, A.PACE_STAT] ∧
      readingTaken code lim s = { s with regs := (readingTaken code lim s).regs, pace := readingPace code lim s.pace } := by
  obtain ⟨temp, marked, untouched, move⟩ := reading_marked s code
  unfold readingTaken
  rw [readingShown_unarmed h hb ha]
  generalize (s.put F.PACE_TEMP_TEMP (ofSigned 16 code)).mark F.PACE_STAT_TJ_HI = t at temp marked untouched move
  exact ⟨temp, marked, Untouched_same untouched rfl rfl, move.with_pace _⟩

/-- Otherwise it tells the postmaster as well (R52). -/
theorem readingTaken_armed {code lim : Int} {s : State} {k : Core} (h : lim ≤ code) (hb : s.pace.below = true) (ha : s.pace.armed = true)
    (hk : Listens s k) : (readingTaken code lim s).get F.PACE_TEMP_TEMP = ofSigned 16 code ∧ (readingTaken code lim s).flag F.PACE_STAT_TJ_HI = true ∧
      Told s (readingTaken code lim s) (mkRecord s.pm s.devId 0x7FFFFF 0x3A 0 (ofSigned 24 (code * 25)) 1 0x7C 0) ∧
      (readingTaken code lim s).pace = readingPace code lim s.pace ∧ Untouched s (readingTaken code lim s) [A.PACE_TEMP, A.PACE_STAT] := by
  obtain ⟨temp, marked, untouched, move⟩ := reading_marked s code
  unfold readingTaken
  rw [readingShown_armed h hb ha]
  generalize (s.put F.PACE_TEMP_TEMP (ofSigned 16 code)).mark F.PACE_STAT_TJ_HI = t at temp marked untouched move
  have moves : GovernorMoves s t := ⟨move.imp fun r e => ⟨s.pace, e⟩, Untouched_mono untouched (by decide)⟩
  have device : t.devId = s.devId := moves.get F.CAS_ID_ID (by decide)
  rw [pmEvent_listens (moves.listens hk), moves.pm, device]
  exact ⟨temp, marked, told_of_cores (t := t) rfl moves.cores, rfl, Untouched_same untouched rfl rfl⟩

/-- What the governor's thermal fault leaves: its slot and its record, and safe hold (R53, R370); the governor itself stays as it was. -/
theorem thermalFault_told {s r : State} {k : Core} (moves : GovernorMoves s r) (hk : Listens s k) :
    let t := enterSafe paceUnit 5 (loadSlot paceUnit false 5 1 0 r)
    t.pace = r.pace ∧ (∀ a ∈ paceRegs, t.reg a = r.reg a) ∧ t.reg (A.SYS_FLT_PRI 0x7C) = 0x85010000 ∧
      t.reg (A.SYS_FLT_PRIPM 0x7C) = BitVec.ofNat 32 s.pm ∧
      (∃ d, t.core 0 = some d ∧ d.queue = k.queue ++ [mkRecord s.pm s.devId 0x7FFFFF 0x30 0 0x0501 0 0x7C 0]) ∧
      (s.safe = false → t.safe = true ∧ t.get F.SYS_FAULT_SAFE_UNIT = 0x7C ∧ t.get F.SYS_FAULT_SAFE_CLASS = 5 ∧
        (∀ c, c < 65 → t.get (F.SRT_STAT_STATE c) = stStopped) ∧ ∀ i, i < 16 → t.flag (F.FC_CTRL_RUN i) = false) := by
  have slot := moves.slotTold hk 1 0 (show 5 ≠ 2 by decide)
  have core := told_core (told_of_cores slot.told moves.cores) hk.core
  have safe : (loadSlot paceUnit false 5 1 0 r).safe = s.safe :=
    (flag_congr F.SYS_FAULT_SAFE (slot.others _ (by decide) (by decide))).trans (moves.flag F.SYS_FAULT_SAFE (by decide))
  generalize loadSlot paceUnit false 5 1 0 r = f at slot core safe
  have held := governorKept_enterSafe paceUnit 5 f
  have governor : ∀ a ∈ paceRegs, GovernorReg a ∧ a < 0x10103000 ∧ a ∉ bookRegs := by decide
  refine ⟨held.pace.trans slot.pace, fun a ha => ?_, (held.reg _ (by decide)).trans slot.pri, ?_, ⟨_, (held.core 0 ?_).trans core, rfl⟩, fun hs => ?_⟩
  · obtain ⟨own, low, book⟩ := governor a ha
    exact (held.reg a own).trans (slot.others a low book)
  · rw [held.reg _ (by decide), ← moves.pm]
    exact slot.priPm
  · rw [core]
    exact hk.ahead
  · exact enterSafe_enters (safe.trans hs) paceUnit 5

/-- The second of a streak of hot readings, where it crosses nothing: it is shown and marked, the governor alone moves. -/
theorem reading_tripped {code lim : Int} {s : State} (h : code < lim ∨ s.pace.below = false) :
    GovernorMoves s ((readingTaken code lim s).mark F.PACE_STAT_TRIP) ∧
      ((readingTaken code lim s).mark F.PACE_STAT_TRIP).get F.PACE_TEMP_TEMP = ofSigned 16 code ∧
      ((readingTaken code lim s).mark F.PACE_STAT_TRIP).flag F.PACE_STAT_TRIP = true ∧
      ((readingTaken code lim s).mark F.PACE_STAT_TRIP).pace = readingPace code lim s.pace := by
  obtain ⟨temp, untouched, frame⟩ := readingTaken_below h
  have moves : GovernorMoves s (readingTaken code lim s) := ⟨⟨_, _, frame⟩, Untouched_mono untouched (by decide)⟩
  refine ⟨moves.mark F.PACE_STAT_TRIP (by decide), ?_, flag_mark_self _ _ (by decide) (by decide), rfl⟩
  exact (get_mark_other _ _ _ (by decide) (by decide)).trans temp

/-! The obligation. -/

/-- A reading that is not the second of a hot streak is taken, and no more. -/
theorem goes_readingTaken {s : State} (runs : sensorRuns s = true) {x code lim : Int} (hcode : code = max (-220) (min x 600))
    (hlim : lim = toSigned 16 (s.get F.PACE_TEMP_HI_LIMIT)) (once : ¬(540 ≤ code ∧ s.pace.hotRun = 1)) {P : State → Prop}
    (h : P (readingTaken code lim s)) : Goes (.temperatureUpdate x) s P := by
  refine ⟨_, rfl, ?_⟩
  rw [temperatureUpdate_eq runs hcode hlim, if_neg once]
  exact h

/-- The second of a hot streak raises the thermal fault, which brings safe hold. -/
theorem goes_thermalFault {s : State} (runs : sensorRuns s = true) {x code lim : Int} (hcode : code = max (-220) (min x 600))
    (hlim : lim = toSigned 16 (s.get F.PACE_TEMP_HI_LIMIT)) (again : 540 ≤ code ∧ s.pace.hotRun = 1)
    (free : priValid ((readingTaken code lim s).mark F.PACE_STAT_TRIP) paceUnit = false) {P : State → Prop}
    (h : P (enterSafe paceUnit 5 (loadSlot paceUnit false 5 1 0 ((readingTaken code lim s).mark F.PACE_STAT_TRIP)))) :
    Goes (.temperatureUpdate x) s P := by
  refine ⟨_, rfl, ?_⟩
  rw [temperatureUpdate_eq runs hcode hlim, if_pos again, raiseFault_pace free, if_pos rfl]
  exact h

/-- Settles O6: a window's close and a reading are each the governor's own writes, after which at most one fault of the governor is raised. -/
theorem paceAndSensors : Obligations.PaceAndSensors := by
  unfold Obligations.PaceAndSensors
  refine ⟨?_, ?_⟩
  · intro count now need eff old target low s up run work hnow hneed heff hold hlow htarget
    have runs := paceRuns_of up run work
    have nowLe : now ≤ 0xFFFF := by omega
    have shortIff := windowShort_eq_decide now need s
    rw [← hold, ← heff] at shortIff
    refine ⟨fun calm => ?_, fun k first listens free room => ?_⟩
    · refine goes_windowClosed runs hnow hneed (fun short => ?_) ?_
      · obtain ⟨less, full⟩ := of_decide_eq_true (shortIff ▸ short)
        exact calm less full
      refine ⟨now_windowClosed need s nowLe, needCode_windowClosed now need s, (effCap_windowClosed now need s).trans heff.symm, ?_, ?_, ?_,
        untouched_windowClosed now need s, ?_⟩
      · rw [setpoint_windowClosed, windowStep, loopStep_setpoint, ← hold, ← heff, ← hlow, ← htarget]
      · rw [windowClosed_pace, windowPace_eq, ← hold, ← heff, ← hlow, ← htarget]
      · rw [short_windowClosed, shortIff]
      · rw [windowClosed_pace]
        exact windowClosed_eq now need s
    · cases short : windowShort now need s with
      | false =>
        have long := of_decide_eq_false (shortIff ▸ short)
        refine goes_windowClosed runs hnow hneed (by simp [short]) ⟨now_windowClosed need s nowLe, ?_, fun onset => absurd onset long, fun _ => ?_⟩
        · rw [windowClosed_pace, ← shortIff]
          rfl
        have moves := governorMoves_windowClosed now need s
        refine ⟨?_, moves.cores, moves.flt, untouched_windowClosed now need s⟩
        rw [short_windowClosed, short, Bool.or_false]
      | true =>
        have onset := of_decide_eq_true (shortIff ▸ short)
        obtain ⟨shown, prev, told⟩ := windowFault_told listens room nowLe short
        refine goes_windowFault runs hnow hneed short first free ⟨shown, ?_, fun _ => told, fun long => ?_⟩
        · rw [prev, ← shortIff, short]
        · omega
  · intro x code lim s armed run up powered ok hcode hlim harmed hrun
    have runs := sensorRuns_of up powered ok
    have pace := readingPace_eq code lim s.pace
    rw [← harmed, ← hrun] at pace
    refine ⟨fun calm once => ?_, fun rise below unarmed once => ?_, fun k rise below isArmed once listens => ?_, fun k calm again listens free => ?_⟩
    · refine goes_readingTaken runs hcode hlim once ?_
      rw [← pace]
      exact readingTaken_below calm
    · have risen : readingPace code lim s.pace = { s.pace with below := false, armed := armed, hotRun := run } := by
        rw [pace, decide_eq_false (by omega)]
      refine goes_readingTaken runs hcode hlim once ?_
      rw [← risen]
      exact readingTaken_unarmed rise below unarmed
    · have disarmed : armed = false := by
        rw [harmed, decide_eq_false (by omega), decide_eq_false (by omega), Bool.and_false, Bool.or_false]
      have risen : readingPace code lim s.pace = { s.pace with below := false, armed := false, hotRun := run } := by
        rw [pace, disarmed, decide_eq_false (by omega)]
      refine goes_readingTaken runs hcode hlim once ?_
      rw [← risen]
      exact readingTaken_armed rise below isArmed listens
    · obtain ⟨moves, temp, tripped, memory⟩ := reading_tripped calm
      obtain ⟨kept, governor, pri, priPm, told, safe⟩ := thermalFault_told moves listens
      refine goes_thermalFault runs hcode hlim again (moves.priValid.trans free) ⟨?_, ?_, pri, priPm, told, safe, ?_⟩
      · exact (get_congr F.PACE_TEMP_TEMP (governor _ (by decide))).trans temp
      · exact (flag_congr F.PACE_STAT_TRIP (governor _ (by decide))).trans tripped
      · exact kept.trans (memory.trans pace)

end Sys2Proof.Machine

/-!
PROOFS. The shape of the machine (04, 11; R69, R236, R244): what it says of each part of a state, and what the operations on the state's parts ask to keep it.
-/

namespace Sys2Proof.Machine

/-- Records that a core's event queue holds, taken ones included (R236). -/
abbrev Core.load (k : Core) : Nat := k.queue.length + k.taken.length

/-- No trap depth lies at the address `a`. -/
def CalmAt (a : Nat) : Prop := ∀ c, c < 65 → a ≠ A.SRT_STAT c

/-- A write of the field `f` changes no trap depth. -/
def Calm (f : Fd) : Prop := (f.lo + f.w ≤ 7 ∨ 9 ≤ f.lo) ∨ CalmAt f.addr

theorem calmAt_fixed {a : Nat} (h : Nat.ble 0x10041000 a = true) : CalmAt a := fun c hc => by
  have := Nat.le_of_ble_eq_true h
  unfold A.SRT_STAT; omega

theorem calmAt_indexed {a b n : Nat} (h : a = b + n) (hb : Nat.ble 0x10041000 b = true) : CalmAt a := fun c hc => by
  have := Nat.le_of_ble_eq_true hb
  unfold A.SRT_STAT; omega

theorem calmAt_core {a b i : Nat} (h : a = b + 0x1000 * i) (hb : Nat.beq (b % 0x1000) 4 = false) : CalmAt a := fun c hc => by
  have := Nat.ne_of_beq_eq_false hb
  unfold A.SRT_STAT; omega

theorem calm_bits {f : Fd} (h : (Nat.ble (f.lo + f.w) 7 || Nat.ble 9 f.lo) = true) : Calm f := by
  rcases Bool.or_eq_true_iff.mp h with h | h
  · exact .inl (.inl (Nat.le_of_ble_eq_true h))
  · exact .inl (.inr (Nat.le_of_ble_eq_true h))

theorem calm_fixed {f : Fd} (h : Nat.ble 0x10041000 f.addr = true) : Calm f := .inr (calmAt_fixed h)

theorem calm_indexed {f : Fd} {b n : Nat} (h : f.addr = b + n) (hb : Nat.ble 0x10041000 b = true) : Calm f := .inr (calmAt_indexed h hb)

theorem calm_core {f : Fd} {b i : Nat} (h : f.addr = b + 0x1000 * i) (hb : Nat.beq (b % 0x1000) 4 = false) : Calm f := .inr (calmAt_core h hb)

/-! The parts of the shape. -/

theorem mem_of_mem_upd {α : Type} {l : List α} {i : Nat} {f : α → α} {x : α} (h : x ∈ upd l i f) : x ∈ l ∨ ∃ y, l[i]? = some y ∧ x = f y := by
  obtain ⟨j, hj⟩ := List.mem_iff_getElem?.mp h
  by_cases hij : i = j
  · subst hij
    rw [upd_get] at hj
    obtain ⟨y, hy, rfl⟩ := Option.map_eq_some_iff.mp hj
    exact .inr ⟨y, hy, rfl⟩
  · rw [upd_get_ne _ _ hij] at hj
    exact .inl (List.mem_of_getElem? hj)

section parts
variable {s t : State}

theorem shape_mk {pending' : List Instr} {mem' : List (Nat × Byte)} {tb' freeCtr' rdata' : Nat} {pace' : Pace} {arbs' : List Arb} {ledg' : Ledger} {recs' : Records}
    {flt' : Faults} {gate' : Gate} {sources' : List Source} {trend' : Trend} {seq' : Sequencer} {tmr' : Timers} {est' : Estate} {host' : HostPort} {twp' : Twp}
    {tap' : Tap} {parts' : List Part} {rmap' : RMap} {pow' : Power} (hl : ledg'.txns = s.ledg.txns)
    (ht : tmr'.units = s.tmr.units) (hs : s.Shape) :
    State.Shape ⟨pending', s.regs, mem', tb', freeCtr', rdata', pace', arbs', ledg', recs', flt', gate', s.cores, s.chains, sources', trend', s.ports, seq', tmr', s.links,
      est', host', twp', tap', parts', rmap', pow'⟩ := by
  obtain ⟨cores, chains, ports, units, links, rooms, few, depths⟩ := hs
  refine ⟨cores, chains, ports, ?_, links, rooms, ?_, depths⟩
  · exact ht ▸ units
  · unfold openTxns at few ⊢
    exact hl ▸ few


/-- A change of the registers keeps the shape where it keeps the trap depths within two. -/
theorem shape_regs {r : List (Nat × Word)} (hs : s.Shape) (hr : ∀ c, c < 65 → ({ s with regs := r } : State).get (F.SRT_STAT_TDEPTH c) ≤ 2) :
    State.Shape { s with regs := r } := by
  obtain ⟨cores, chains, ports, units, links, rooms, few, -⟩ := hs
  exact ⟨cores, chains, ports, units, links, rooms, few, hr⟩

theorem shape_depth (hs : s.Shape) {c : Nat} (hc : c < 65) : s.get (F.SRT_STAT_TDEPTH c) ≤ 2 := by
  obtain ⟨-, -, -, -, -, -, -, depths⟩ := hs
  exact depths c hc

theorem shape_setReg {a : Nat} {v : Word} (ha : CalmAt a) (hs : s.Shape) : (s.setReg a v).Shape :=
  shape_regs hs fun c hc => (get_setReg_ne s v _ (ha c hc)).trans_le (shape_depth hs hc)

/-- What a field beside the trap depth leaves of it, whatever the width of the field. -/
theorem bits_depth_setBits (n : Word) {lo w : Nat} (v : Nat) (h : lo + w ≤ 7 ∨ 9 ≤ lo) :
    bits (BitVec.ofNat 32 (setBits n.toNat lo w v)).toNat 7 2 = bits n.toNat 7 2 := by
  rw [BitVec.toNat_ofNat]
  apply Nat.eq_of_testBit_eq
  intro i
  rw [bits_testBit, bits_testBit, Nat.testBit_mod_two_pow, setBits_testBit]
  by_cases hi : i < 2
  · have outside : ¬ (lo ≤ i + 7 ∧ i + 7 < lo + w) := by omega
    have inside : i + 7 < 32 := by omega
    simp [outside, inside]
  · simp [hi]

theorem shape_put {f : Fd} {v : Nat} (hf : Calm f) (hs : s.Shape) : (s.put f v).Shape := by
  refine shape_regs hs fun c hc => le_trans (le_of_eq ?_) (shape_depth hs hc)
  change (s.put f v).get _ = _
  by_cases ha : f.addr = A.SRT_STAT c
  · rcases hf with hb | hat
    · unfold State.get State.put
      rw [show (F.SRT_STAT_TDEPTH c).addr = f.addr from ha.symm, reg_setReg_self]
      exact bits_depth_setBits _ v hb
    · exact absurd ha (hat c hc)
  · exact get_setReg_ne s _ _ ha

theorem shape_mark {f : Fd} (hf : Calm f) (hs : s.Shape) : (s.mark f).Shape := shape_put hf hs

theorem shape_putB {f : Fd} {b : Bool} (hf : Calm f) (hs : s.Shape) : (s.putB f b).Shape := shape_put hf hs

theorem shape_incSat {f : Fd} {n : Nat} (hf : Calm f) (hs : s.Shape) : (s.incSat f n).Shape := shape_put hf hs

theorem shape_incWrap {f : Fd} {n : Nat} (hf : Calm f) (hs : s.Shape) : (s.incWrap f n).Shape := shape_put hf hs

/-- A write of a core's trap depth (R244). -/
theorem shape_putDepth {c v : Nat} (hs : s.Shape) (hv : v ≤ 2) : (s.put (F.SRT_STAT_TDEPTH c) v).Shape := by
  refine shape_regs hs fun d hd => ?_
  change (s.put (F.SRT_STAT_TDEPTH c) v).get (F.SRT_STAT_TDEPTH d) ≤ 2
  by_cases h : c = d
  · subst h
    rw [get_put_self s _ v (by change 7 + 2 ≤ 32; decide)]
    exact le_trans (Nat.mod_le _ _) hv
  · rw [get_put_other s _ _ v (by change 7 + 2 ≤ 32; decide) (.inl (by change A.SRT_STAT c ≠ A.SRT_STAT d; unfold A.SRT_STAT; omega))]
    exact shape_depth hs hd

/-- Without the entries of some keys, a map reads as before or as an empty one. -/
theorem mapGet_filterKeys {α : Type} (d : Nat → α) (m : List (Nat × α)) (p : Nat → Bool) (k : Nat) :
    mapGet d (m.filter (fun e => p e.1)) k = if p k then mapGet d m k else d k := by
  induction m with
  | nil => simp [mapGet]
  | cons e m ih =>
    obtain ⟨a, v⟩ := e
    by_cases hk : a = k
    · subst hk
      cases hp : p a <;> simp_all [mapGet]
    · cases hp : p a <;> simp [mapGet, hp, hk, ih]

theorem resetWord_depth : ∀ c, c < 65 → bits (resetWord (A.SRT_STAT c)).toNat 7 2 ≤ 2 := by decide +kernel

/-- Words that go back to their reset values. -/
theorem shape_filterRegs {p : Nat → Bool} (hs : s.Shape) : State.Shape { s with regs := s.regs.filter (fun e => p e.1) } := by
  refine shape_regs hs fun c hc => ?_
  have depth := shape_depth hs hc
  unfold State.get State.reg at depth ⊢
  dsimp only
  rw [mapGet_filterKeys]
  split
  · exact depth
  · exact resetWord_depth c hc

theorem shape_core (hs : s.Shape) {c : Nat} {k : Core} (hk : s.core c = some k) : k.load ≤ 16 := by
  obtain ⟨-, -, -, -, -, rooms, -, -⟩ := hs
  exact rooms k (List.mem_of_getElem? hk)

theorem shape_modCore {c : Nat} {f : Core → Core} (hs : s.Shape) (hf : ∀ k : Core, s.core c = some k → k.load ≤ 16 → (f k).load ≤ 16) : (s.modCore c f).Shape := by
  obtain ⟨cores, chains, ports, units, links, rooms, few, depths⟩ := hs
  refine ⟨(List.length_modify ..).trans cores, chains, ports, units, links, fun k hk => ?_, few, depths⟩
  rcases mem_of_mem_upd hk with hk | ⟨x, hx, rfl⟩
  · exact rooms k hk
  · exact hf x hx (rooms x (List.mem_of_getElem? hx))

theorem shape_modLedg {f : Ledger → Ledger} (hf : (f s.ledg).txns = s.ledg.txns) (hs : s.Shape) : (s.modLedg f).Shape := shape_mk hf rfl hs

/-- A change of the transactions opens none. -/
theorem shape_txns {f : Ledger → Ledger} (hs : s.Shape) (hf : openTxns (s.modLedg f) ≤ openTxns s) : (s.modLedg f).Shape := by
  obtain ⟨cores, chains, ports, units, links, rooms, few, depths⟩ := hs
  exact ⟨cores, chains, ports, units, links, rooms, hf.trans few, depths⟩

theorem shape_modChain {i : Nat} {f : Chain → Chain} (hs : s.Shape) : (s.modChain i f).Shape := by
  obtain ⟨cores, chains, ports, units, links, rooms, few, depths⟩ := hs
  exact ⟨cores, (List.length_modify ..).trans chains, ports, units, links, rooms, few, depths⟩

theorem shape_modPort {p : Nat} {f : Port → Port} (hs : s.Shape) : (s.modPort p f).Shape := by
  obtain ⟨cores, chains, ports, units, links, rooms, few, depths⟩ := hs
  exact ⟨cores, chains, (List.length_modify ..).trans ports, units, links, rooms, few, depths⟩

theorem shape_modTimer {u : Nat} {f : TimerUnit → TimerUnit} (hs : s.Shape) : (s.modTimer u f).Shape := by
  obtain ⟨cores, chains, ports, units, links, rooms, few, depths⟩ := hs
  exact ⟨cores, chains, ports, (List.length_modify ..).trans units, links, rooms, few, depths⟩

theorem shape_modLink {n : Nat} {f : Link → Link} (hs : s.Shape) : (s.modLink n f).Shape := by
  obtain ⟨cores, chains, ports, units, links, rooms, few, depths⟩ := hs
  exact ⟨cores, chains, ports, units, (List.length_modify ..).trans links, rooms, few, depths⟩

theorem shape_mapChains {f : Chain → Chain} (hs : s.Shape) : State.Shape { s with chains := s.chains.map f } := by
  obtain ⟨cores, chains, ports, units, links, rooms, few, depths⟩ := hs
  exact ⟨cores, (List.length_map ..).trans chains, ports, units, links, rooms, few, depths⟩

/-! Choices and repetitions. -/

theorem shape_ite {c : Prop} [Decidable c] (hs : s.Shape) (ht : t.Shape) : (if c then s else t).Shape := by
  split
  · exact hs
  · exact ht

theorem shape_forUpTo {f : Nat → State → State} {n : Nat} (hf : ∀ i s, s.Shape → (f i s).Shape) (hs : s.Shape) : (forUpTo n f s).Shape := by
  induction n with
  | zero => exact hs
  | succ n ih => exact hf n _ ih

theorem shape_iter {f : State → State} {n : Nat} (hf : ∀ s, s.Shape → (f s).Shape) (hs : s.Shape) : (iter n f s).Shape :=
  iter_induction (P := State.Shape) n hf hs

theorem shape_iter_snd {α : Type} {f : α × State → α × State} {n : Nat} {p : α × State} (hf : ∀ p, p.2.Shape → (f p).2.Shape) (hp : p.2.Shape) :
    (iter n f p).2.Shape := iter_induction (P := fun p : α × State => p.2.Shape) n hf hp

theorem shape_putBytes {a : Nat} {b : List Byte} (hs : s.Shape) : (putBytes a b s).Shape := by
  induction b generalizing a s with
  | nil => exact hs
  | cons x b ih => exact ih (shape_mk rfl rfl hs)

theorem shape_foldl {α : Type} {f : State → α → State} {l : List α} (hf : ∀ s x, s.Shape → (f s x).Shape) (hs : s.Shape) : (l.foldl f s).Shape := by
  induction l generalizing s with
  | nil => exact hs
  | cons x l ih => exact ih (hf s x hs)

theorem shape_foldl_fst {α β : Type} {f : State × β → α → State × β} {l : List α} {p : State × β} (hf : ∀ p x, p.1.Shape → (f p x).1.Shape) (hp : p.1.Shape) :
    (l.foldl f p).1.Shape := by
  induction l generalizing p with
  | nil => exact hp
  | cons x l ih => exact ih (hf p x hp)

theorem shape_foldl_snd {α β : Type} {f : β × State → α → β × State} {l : List α} {p : β × State} (hf : ∀ p x, p.2.Shape → (f p x).2.Shape) (hp : p.2.Shape) :
    (l.foldl f p).2.Shape := by
  induction l generalizing p with
  | nil => exact hp
  | cons x l ih => exact ih (hf p x hp)

end parts
end Sys2Proof.Machine

/-!
PROOFS. The operations of the memories, the ledger, the cores, the ports, the chains, the trend unit and the timers keep the shape of the machine (04, 11): one lemma for each operation, made of the lemmas of its parts.
-/

namespace Sys2Proof.Machine

theorem shape_free_p {s : State} (hs : s.Shape) : (State.free s).2.Shape := by
  unfold State.free
  dsimp only
  exact shape_mk rfl rfl hs

theorem shape_refuse {writer addr : Nat} {s : State} (hs : s.Shape) : (refuse writer addr s).Shape := by
  unfold refuse
  exact shape_ite (shape_mark (calm_bits rfl) hs) (shape_put (calm_fixed rfl) (shape_put (calm_fixed rfl) (shape_mark (calm_bits rfl) hs)))

theorem shape_refuseColliding {writer addr : Nat} {s : State} (hs : s.Shape) : (refuseColliding writer addr s).Shape := by
  unfold refuseColliding
  exact shape_put (calm_bits rfl) (shape_put (calm_fixed rfl) (shape_put (calm_fixed rfl) (shape_mark (calm_bits rfl) hs)))

theorem shape_heal {a : Nat} {s : State} (hs : s.Shape) : (heal a s).Shape := by
  unfold heal
  exact shape_modLedg rfl hs

theorem shape_bankWrite {u a : Nat} {b : List Byte} {s : State} (hs : s.Shape) : (bankWrite u a b s).Shape := by
  unfold bankWrite
  exact shape_ite hs (shape_putBytes (shape_iter_snd (fun _ h => shape_ite (shape_heal h) h) hs))

theorem shape_pigeonWrite {u a : Nat} {b : List Byte} {s : State} (hs : s.Shape) : (pigeonWrite u a b s).Shape := by
  unfold pigeonWrite
  exact shape_bankWrite (shape_bankWrite hs)

theorem shape_beginExit {mode : Nat} {s : State} (hs : s.Shape) : (beginExit mode s).Shape := by
  unfold beginExit
  dsimp only
  exact shape_mk rfl rfl (shape_put (calm_fixed rfl) (shape_put (calm_bits rfl) (shape_put (calm_bits rfl) hs)))

theorem shape_wakeNoted {bitNo : Nat} {s : State} (hs : s.Shape) : (wakeNoted bitNo s).Shape := by
  unfold wakeNoted
  exact shape_ite (shape_put (calm_fixed rfl) hs) hs

theorem shape_wakePostmaster {s : State} (hs : s.Shape) : (wakePostmaster s).Shape := by
  unfold wakePostmaster
  refine shape_ite (shape_modCore (shape_put (calm_bits rfl) hs) fun _ _ h => h) (shape_ite (shape_modCore hs fun k _ h => ?_) hs)
  split <;> exact h

theorem shape_wakeRecognised {bitNo : Nat} {s : State} (hs : s.Shape) : (wakeRecognised bitNo s).Shape := by
  unfold wakeRecognised
  exact shape_ite hs (shape_ite (shape_wakeNoted hs) (shape_ite (shape_mk rfl rfl (shape_wakeNoted hs)) (shape_ite (shape_wakePostmaster (shape_put (calm_fixed rfl)
    (shape_wakeNoted hs)))
    (shape_beginExit (shape_wakeNoted hs)))))

theorem shape_noteSteps {c : Nat} {s : State} (hs : s.Shape) : (noteSteps c s).Shape := by
  unfold noteSteps
  split
  · exact hs
  · exact shape_ite (shape_put (calm_core rfl rfl) hs) hs

theorem shape_dropAhead {u : Nat} {s : State} (hs : s.Shape) : (dropAhead u s).Shape := by
  unfold dropAhead
  exact shape_mk rfl rfl hs

theorem shape_commitAhead {u : Nat} {s : State} (hs : s.Shape) : (commitAhead u s).Shape := by
  unfold commitAhead
  exact shape_mk rfl rfl hs

theorem shape_endSpec {c : Nat} {s : State} (hs : s.Shape) : (endSpec c s).Shape := by
  unfold endSpec
  exact shape_ite (shape_put (calm_bits rfl) (shape_putB (calm_bits rfl) hs)) (shape_putB (calm_bits rfl) hs)

theorem load_restore (n : Snap) (k : Core) : (k.restore n).load = k.load := rfl

theorem shape_cancelSpec {c : Nat} {s : State} (hs : s.Shape) : (cancelSpec c s).Shape := by
  unfold cancelSpec
  split
  · exact hs
  · next sp _ => exact shape_endSpec (shape_dropAhead (shape_modCore hs fun k _ h => (load_restore sp.before k).trans_le h))

/-- A record that is taken occupies one more place, where the core holds a seal record (R236). -/
theorem load_takeRecord (sealed : Bool) (r : List Byte) (k : Core) : (takeRecord sealed r k).load ≤ k.load + 1 := by
  cases sealed <;> simp [takeRecord, Core.load]; omega

theorem shape_settleSpec {c : Nat} {r : List Byte} {s : State} (hs : s.Shape) (free : ∀ k, s.core c = some k → k.load < 16) : (settleSpec c r s).Shape := by
  unfold settleSpec
  split
  · refine shape_modCore hs fun k hk _ => ?_
    have := free k hk
    simp only [Core.load, List.length_append, List.length_singleton] at this ⊢
    omega
  · next sp _ =>
    refine shape_endSpec (shape_noteSteps (shape_ite (shape_commitAhead (shape_modCore hs fun k hk _ => ?_)) (shape_dropAhead (shape_modCore hs fun k hk _ => ?_))))
    · exact (load_takeRecord _ r _).trans (free k hk)
    · exact (load_takeRecord _ r _).trans (free k hk)

/-- A queue that takes a record has room (R236). -/
theorem load_of_coreAccepts {c : Nat} {s : State} {k : Core} (hk : s.core c = some k) (h : coreAccepts c s = true) : k.load < 16 := by
  simp only [coreAccepts, hk, Core.full, Bool.and_eq_true, Bool.not_eq_true', decide_eq_false_iff_not, Nat.not_le] at h
  exact h.1.1

theorem shape_enqueue {c : Nat} {r : List Byte} {s : State} (hs : s.Shape) : (enqueue c r s).Shape := by
  unfold enqueue
  split
  · next h =>
    have settled : (settleSpec c r s).Shape := shape_settleSpec hs fun k hk => load_of_coreAccepts hk h
    exact shape_ite (shape_wakeRecognised settled) settled
  · exact hs

theorem shape_pmEvent {kind value scale reason origin : Nat} {s : State} {ep : Nat} (hs : s.Shape) : (pmEvent kind value scale reason origin s ep).Shape := by
  unfold pmEvent
  exact shape_enqueue hs

theorem shape_dayPush {unit code aux data : Nat} {s : State} (hs : s.Shape) : (dayPush unit code aux data s).Shape := by
  unfold dayPush
  refine shape_ite (shape_mk rfl rfl hs) ?_
  dsimp only
  exact shape_mk rfl rfl (shape_mark (calm_bits rfl) (shape_incSat (calm_bits rfl) hs))

theorem shape_tailPut {b : List Byte} {s : State} (hs : s.Shape) : (tailPut b s).Shape := by
  unfold tailPut
  split
  · exact hs
  · dsimp only
    exact shape_mk rfl rfl (shape_pigeonWrite hs)

theorem shape_dayWrite {e : DayEntry} {s : State} (hs : s.Shape) : (dayWrite e s).Shape := by
  unfold dayWrite
  refine shape_ite (shape_put (calm_fixed rfl) (shape_ite (shape_incWrap (calm_fixed rfl) (shape_put (calm_fixed rfl) ?_)) (shape_put (calm_fixed rfl) ?_))) (shape_tailPut
    (shape_put (calm_fixed rfl) (shape_ite (shape_incWrap (calm_fixed rfl) (shape_put (calm_fixed rfl) ?_)) (shape_put (calm_fixed rfl) ?_))))
  · split
    · exact hs
    · exact shape_pigeonWrite hs
  · split
    · exact hs
    · exact shape_pigeonWrite hs
  · split
    · exact hs
    · exact shape_pigeonWrite hs
  · split
    · exact hs
    · exact shape_pigeonWrite hs

theorem shape_dayNext {s : State} (hs : s.Shape) : (dayNext s).Shape := by
  unfold dayNext
  refine shape_ite hs (shape_ite (shape_dayWrite (shape_mk rfl rfl hs)) ?_)
  split
  · exact hs
  · exact shape_dayWrite (shape_mk rfl rfl hs)

theorem shape_dayDrain {s : State} (hs : s.Shape) : (dayDrain s).Shape := by
  unfold dayDrain
  exact shape_ite hs (shape_iter (fun _ h => shape_dayNext h) hs)

theorem shape_freeze {reason : Nat} {what : FlushThen} {s : State} (hs : s.Shape) : (freeze reason what s).Shape := by
  unfold freeze
  dsimp only
  refine shape_mk rfl rfl (shape_mark (calm_bits rfl) (shape_mark (calm_bits rfl) ?_))
  split
  · exact shape_ite (shape_tailPut (shape_dayDrain (shape_mk rfl rfl hs))) (shape_dayWrite (shape_dayDrain (shape_mk rfl rfl hs)))
  · exact shape_pigeonWrite (shape_ite (shape_tailPut (shape_dayDrain (shape_mk rfl rfl hs))) (shape_dayWrite (shape_dayDrain (shape_mk rfl rfl hs))))

theorem shape_takeSafe {s : State} (hs : s.Shape) : (takeSafe s).Shape := by
  unfold takeSafe
  exact shape_ite (shape_mk rfl rfl hs) hs

theorem shape_enterSafe {u cls : Nat} {s : State} (hs : s.Shape) : (enterSafe u cls s).Shape := by
  unfold enterSafe
  have told : (dayPush 0x00 0x0B u cls (((takeSafe (s.mark F.SYS_FAULT_SAFE)).put F.SYS_FAULT_SAFE_UNIT u).put F.SYS_FAULT_SAFE_CLASS cls)).Shape :=
    shape_dayPush (shape_put (calm_bits rfl) (shape_put (calm_bits rfl) (shape_takeSafe (shape_mark (calm_bits rfl) hs))))
  have stopped := shape_forUpTo (n := 65) (f := fun c s => (cancelSpec c s).put (F.SRT_STAT_STATE c) stStopped) (fun c s hs => shape_put (calm_bits rfl)
    (shape_cancelSpec hs)) told
  have halted := shape_forUpTo (n := 16) (f := fun i s => s.put (F.FC_CTRL_RUN i) 0) (fun i s hs => shape_put (calm_bits rfl) hs) (shape_mapChains (f := Chain.halted) stopped)
  exact shape_ite hs (shape_ite (shape_put (calm_bits rfl) halted) (shape_freeze (shape_put (calm_bits rfl) halted)))

theorem shape_loadSlot {u : Nat} {sec : Bool} {cls code data : Nat} {s : State} (hs : s.Shape) : (loadSlot u sec cls code data s).Shape := by
  unfold loadSlot
  exact shape_ite (shape_ite (shape_setReg (calmAt_indexed rfl rfl) (shape_setReg (calmAt_indexed rfl rfl) hs)) (shape_setReg (calmAt_indexed rfl rfl) (shape_setReg
    (calmAt_indexed rfl rfl) hs))) (shape_pmEvent (shape_dayPush (shape_ite (shape_setReg (calmAt_indexed rfl rfl) (shape_setReg (calmAt_indexed rfl rfl) hs))
    (shape_setReg (calmAt_indexed rfl rfl) (shape_setReg (calmAt_indexed rfl rfl) hs)))))

theorem shape_clearSlot {u : Nat} {sec : Bool} {s : State} (hs : s.Shape) : (clearSlot u sec s).Shape := by
  unfold clearSlot
  exact shape_ite (shape_put (calm_bits rfl) hs) (shape_ite (shape_put (calm_bits rfl) (shape_setReg (calmAt_indexed rfl rfl) (shape_setReg (calmAt_indexed rfl rfl) (shape_put
    (calm_bits rfl) hs)))) (shape_put (calm_bits rfl) hs))

theorem shape_beginReset {u : Nat} {s0 : State} (hs0 : s0.Shape) : (beginReset u s0).Shape := by
  unfold beginReset
  exact shape_ite (shape_ite (shape_cancelSpec hs0) hs0) (shape_mk rfl rfl (shape_ite (shape_cancelSpec hs0) hs0))

theorem shape_storm {u cls code : Nat} {s : State} (hs : s.Shape) : (storm u cls code s).Shape := by
  unfold storm
  exact shape_ite (shape_enterSafe (shape_mk rfl rfl (shape_put (calm_bits rfl) (shape_put (calm_bits rfl) (shape_pmEvent (shape_dayPush (shape_incSat (calm_fixed rfl)
    (shape_put (calm_bits rfl) (shape_mark (calm_bits rfl) hs))))))))) (shape_ite (shape_ite
    (shape_put (calm_bits rfl) (shape_cancelSpec (shape_put (calm_indexed rfl rfl) (shape_beginReset (shape_mk rfl rfl (shape_put (calm_bits rfl) (shape_put (calm_bits rfl)
      (shape_pmEvent (shape_dayPush (shape_incSat (calm_fixed rfl) (shape_put (calm_bits rfl)
    (shape_mark (calm_bits rfl) hs)))))))))))) (shape_put (calm_indexed rfl rfl) (shape_beginReset (shape_mk rfl rfl (shape_put (calm_bits rfl) (shape_put (calm_bits rfl)
      (shape_pmEvent (shape_dayPush (shape_incSat (calm_fixed rfl) (shape_put (calm_bits rfl) (shape_mark (calm_bits rfl) hs)))))))))))
    (shape_beginReset (shape_mk rfl rfl (shape_put (calm_bits rfl) (shape_put (calm_bits rfl) (shape_pmEvent (shape_dayPush (shape_incSat (calm_fixed rfl) (shape_put
      (calm_bits rfl) (shape_mark (calm_bits rfl) hs))))))))))

theorem shape_pmSecond {cls code data : Nat} {s : State} (hs : s.Shape) : (pmSecond cls code data s).Shape := by
  unfold pmSecond
  exact shape_ite hs (shape_enterSafe (shape_loadSlot hs))

theorem shape_raiseFault {u cls code data : Nat} {s : State} (hs : s.Shape) : (raiseFault u cls code data s).Shape := by
  unfold raiseFault
  exact shape_ite (shape_pmSecond hs) (shape_ite (shape_enterSafe (shape_ite (shape_loadSlot hs) (shape_ite (shape_loadSlot hs) (shape_storm hs)))) (shape_ite
    (shape_loadSlot hs) (shape_ite (shape_loadSlot hs) (shape_storm hs))))

theorem shape_recovering {s : State} (hs : s.Shape) : (recovering s).Shape := by
  unfold recovering
  exact shape_putB (calm_bits rfl) hs

theorem shape_openRecovery {k : Nat} {s : State} (hs : s.Shape) : (openRecovery k s).Shape := by
  unfold openRecovery
  exact shape_recovering (shape_ite hs (shape_mk rfl rfl hs))

theorem shape_closeRecovery {k : Nat} {s : State} (hs : s.Shape) : (closeRecovery k s).Shape := by
  unfold closeRecovery
  exact shape_recovering (shape_mk rfl rfl hs)

theorem shape_sendOn {n : Nat} {f : List Byte} {s : State} (hs : s.Shape) : (sendOn n f s).Shape := by
  unfold sendOn
  exact shape_ite (shape_modLink hs) hs

theorem shape_turnCell {f : Flip} {s : State} (hs : s.Shape) : (turnCell f s).Shape := by
  unfold turnCell
  exact shape_modLedg rfl hs

theorem shape_uncorrectable {a : Nat} {s : State} (hs : s.Shape) : (uncorrectable a s).Shape := by
  unfold uncorrectable
  exact shape_ite (shape_raiseFault (shape_ite (shape_incSat (calm_fixed rfl) hs) (shape_put (calm_fixed rfl) (shape_mark (calm_bits rfl) (shape_incSat (calm_fixed rfl) hs)))))
    (shape_raiseFault (shape_ite (shape_incSat (calm_fixed rfl) hs) (shape_put (calm_fixed rfl)
    (shape_mark (calm_bits rfl) (shape_incSat (calm_fixed rfl) hs)))))

theorem shape_noteCorrected {a : Nat} {s : State} (hs : s.Shape) : (noteCorrected a s).Shape := by
  unfold noteCorrected
  exact shape_mark (calm_bits rfl) (shape_put (calm_fixed rfl) (shape_incSat (calm_bits rfl) hs))

theorem shape_meetLine {a : Nat} {s : State} (hs : s.Shape) : (meetLine a s).Shape := by
  unfold meetLine
  exact shape_ite (shape_uncorrectable hs) (shape_ite hs (shape_noteCorrected hs))

theorem shape_restoreCells {o : OldLine} {s : State} (hs : s.Shape) : (restoreCells o s).Shape := by
  unfold restoreCells
  exact shape_modLedg rfl (shape_putBytes (shape_heal hs))

theorem shape_wearLine {p : Nat} {s : State} (hs : s.Shape) : (wearLine p s).Shape := by
  unfold wearLine
  exact shape_put (calm_bits rfl) (shape_modLedg rfl hs)

theorem shape_startMove {b p : Nat} {retired : Bool} {s : State} (hs : s.Shape) : (startMove b p retired s).Shape := by
  unfold startMove
  exact shape_modLedg rfl hs

theorem shape_wearLevel {b : Nat} {s : State} (hs : s.Shape) : (wearLevel b s).Shape := by
  unfold wearLevel
  refine shape_ite hs ?_
  split
  · exact hs
  · exact shape_ite (shape_startMove hs) hs

theorem shape_programLine {a : Nat} {s : State} (hs : s.Shape) : (programLine a s).Shape := by
  unfold programLine
  exact shape_wearLevel (shape_wearLine hs)

theorem shape_spareLess {s : State} (hs : s.Shape) : (spareLess s).Shape := by
  unfold spareLess
  exact shape_ite (shape_pmEvent (shape_mark (calm_bits rfl) (shape_put (calm_fixed rfl) hs))) (shape_ite (shape_mark (calm_bits rfl) (shape_put (calm_fixed rfl) hs))
    (shape_put (calm_fixed rfl) hs))

theorem shape_noSpare {a : Nat} {s : State} (hs : s.Shape) : (noSpare a s).Shape := by
  unfold noSpare
  exact shape_raiseFault (shape_mark (calm_bits rfl) hs)

theorem shape_retireBlock_p {a : Nat} {s : State} (hs : s.Shape) : (retireBlock a s).2.Shape := by
  unfold retireBlock
  dsimp only
  split
  · exact shape_ite hs (shape_spareLess (shape_modLedg rfl hs))
  · split
    · exact shape_spareLess (shape_startMove hs)
    · exact shape_noSpare hs

theorem shape_programAs_p {v : Verify} {a : Nat} {s : State} (hs : s.Shape) : (programAs v a s).2.Shape := by
  cases v with
  | good => exact shape_programLine hs
  | retried => exact shape_programLine (shape_programLine hs)
  | failed => exact shape_retireBlock_p (shape_programLine (shape_programLine hs))

theorem shape_programAs_t {v : Verify} {a : Nat} {s : State} {r0 : Bool} {t : State} (he : programAs v a s = (r0, t)) (hs : s.Shape) : t.Shape := by
  have k : State.Shape (programAs v a s).2 := shape_programAs_p (hs := hs)
  rw [he] at k; exact k

theorem shape_reportFailed {u : Nat} {s : State} (hs : s.Shape) : (reportFailed u s).Shape := by
  unfold reportFailed
  exact shape_modLedg rfl hs

theorem shape_programJournal_p {v : Verify} {e : JrnlEntry} {s : State} (hs : s.Shape) : (programJournal v e s).2.Shape := by
  unfold programJournal
  dsimp only
  exact shape_modLedg rfl (shape_ite (shape_heal (shape_programAs_p hs)) (shape_programAs_p hs))

theorem shape_programJournal_t {v : Verify} {e : JrnlEntry} {s : State} {r0 : Bool} {t : State} (he : programJournal v e s = (r0, t)) (hs : s.Shape) : t.Shape := by
  have k : State.Shape (programJournal v e s).2 := shape_programJournal_p (hs := hs)
  rw [he] at k; exact k

theorem shape_programJournals_t {vs : List Verify} {l : List JrnlEntry} {s t : State} {r : Bool} (e : programJournals vs l s = (r, t)) (hs : s.Shape) : t.Shape := by
  induction l generalizing vs s r with
  | nil => cases e; exact hs
  | cons x l ih =>
    unfold programJournals at e
    rcases h1 : programJournal (vs.headD .good) x s with ⟨b, s1⟩
    rw [h1] at e
    have k := shape_programJournal_t h1 hs
    dsimp only at e
    split at e
    · exact ih e k
    · cases e; exact k

theorem shape_programJournals_p {vs : List Verify} {l : List JrnlEntry} {s : State} (hs : s.Shape) : (programJournals vs l s).2.Shape := by
  exact shape_programJournals_t (r := (programJournals vs l s).1) rfl hs

theorem shape_programRecord_p {v : Verify} {i : Nat} {s : State} (hs : s.Shape) : (programRecord v i s).2.Shape := by
  unfold programRecord
  dsimp only
  exact shape_ite (shape_heal (shape_programAs_p hs)) (shape_programAs_p hs)

theorem shape_programRecord_t {v : Verify} {i : Nat} {s : State} {r0 : Bool} {t : State} (he : programRecord v i s = (r0, t)) (hs : s.Shape) : t.Shape := by
  have k : State.Shape (programRecord v i s).2 := shape_programRecord_p (hs := hs)
  rw [he] at k; exact k

theorem shape_storeMap_p {v : Verify} {s : State} (hs : s.Shape) : (storeMap v s).2.Shape := by
  unfold storeMap
  dsimp only
  split
  · exact shape_mk rfl rfl (shape_programRecord_p hs)
  · exact shape_reportFailed (shape_programRecord_p hs)

theorem shape_dropMove {m : Move} {s : State} (hs : s.Shape) : (dropMove m s).Shape := by
  unfold dropMove
  exact shape_ite (shape_put (calm_fixed rfl) (shape_modLedg rfl hs)) (shape_modLedg rfl hs)

theorem shape_copyFailed {m : Move} {q : List Move} {s : State} (hs : s.Shape) : (copyFailed m q s).Shape := by
  unfold copyFailed
  split
  · exact shape_spareLess (shape_modLedg rfl hs)
  · exact shape_ite (shape_noSpare (shape_modLedg rfl hs)) (shape_spareLess (shape_noSpare (shape_modLedg rfl hs)))

theorem shape_copiedCells {b : Nat} {s : State} (hs : s.Shape) : (copiedCells b s).Shape := by
  unfold copiedCells
  exact shape_modLedg rfl hs

theorem shape_moveStep {v : Verify} {s : State} (hs : s.Shape) : (moveStep v s).Shape := by
  unfold moveStep
  split
  · exact hs
  · split
    · exact shape_ite (shape_copyFailed (shape_ite (shape_forUpTo (fun _ _ h => shape_wearLine (shape_meetLine h)) hs) (shape_wearLine (shape_forUpTo
        (fun _ _ h => shape_wearLine (shape_meetLine h)) hs)))) (shape_modLedg rfl (shape_ite (shape_forUpTo (fun _ _ h => shape_wearLine (shape_meetLine h)) hs) (shape_wearLine
        (shape_forUpTo (fun _ _ h => shape_wearLine (shape_meetLine h)) hs))))
    · exact shape_ite (shape_copiedCells (shape_modLedg rfl (shape_programJournal_p hs))) (shape_dropMove (shape_programJournal_p hs))
    · exact shape_modLedg rfl (shape_storeMap_p hs)
    · exact shape_modLedg rfl (shape_programJournal_p hs)

theorem shape_freeVerify_p {s : State} (hs : s.Shape) : (State.freeVerify s).2.Shape := by
  unfold State.freeVerify
  dsimp only
  exact shape_free_p hs

theorem shape_finishSome {n : Nat} {s : State} (hs : s.Shape) : (finishSome n s).Shape := by
  induction n generalizing s with
  | zero => exact hs
  | succ n ih =>
    unfold finishSome
    split
    · exact hs
    · exact ih (shape_moveStep (shape_freeVerify_p hs))

theorem shape_finishMoves {s : State} (hs : s.Shape) : (finishMoves s).Shape := by
  unfold finishMoves
  exact shape_finishSome hs

theorem shape_dropBuf {b : Nat} {e : BufLine} {s : State} (hs : s.Shape) : (dropBuf b e s).Shape := by
  unfold dropBuf
  exact shape_modLedg rfl hs

theorem shape_lineDone {b : Nat} {v : Verify} {s : State} (hs : s.Shape) : (lineDone b v s).Shape := by
  unfold lineDone
  split
  · exact hs
  · exact shape_ite (shape_reportFailed (shape_restoreCells (shape_dropBuf (shape_programAs_p hs)))) (shape_ite (shape_programAs_p hs) (shape_dropBuf (shape_programAs_p hs)))

theorem shape_drainBank {m b n : Nat} {s : State} (hs : s.Shape) : (drainBank m b n s).Shape := by
  induction n generalizing s with
  | zero => exact hs
  | succ n ih =>
    unfold drainBank
    split
    · exact hs
    · refine ih ?_
      split
      · exact shape_finishMoves hs
      · exact shape_lineDone (shape_freeVerify_p hs)

theorem shape_recordTried {r : RecordKind} {u : Nat} {p : Bool × State} {f : Records → Records} (hp : p.2.Shape) : (recordTried r u p f).Shape := by
  unfold recordTried
  refine shape_ite ?_ (shape_reportFailed (shape_modLedg rfl hp))
  dsimp only
  exact shape_mk rfl rfl hp

theorem shape_recordDone {v : Verify} {s : State} (hs : s.Shape) : (recordDone v s).Shape := by
  unfold recordDone
  split
  · exact hs
  · split
    · exact hs
    · dsimp only
      split <;> exact shape_recordTried (shape_programRecord_p (shape_modLedg rfl hs))

theorem shape_storeRecord {r : RecordKind} {s : State} (hs : s.Shape) : (storeRecord r s).Shape := by
  unfold storeRecord
  exact shape_modLedg rfl hs

theorem shape_setTxnFlag {u : Nat} {f : TxnFlag} {s : State} (hs : s.Shape) : (setTxnFlag u f s).Shape := by
  unfold setTxnFlag
  split
  · exact shape_modCore hs fun k _ h => by cases f <;> exact h
  · split
    · exact shape_mark (by cases f <;> exact calm_bits rfl) hs
    · exact hs

/-- A change of the transactions one by one that makes none count as open that did not. -/
theorem openTxns_map_le {s : State} {f : Txn → Txn} (h : ∀ t, (f t).owner = t.owner ∧ ((f t).phase ≠ .committed → t.phase ≠ .committed)) :
    openTxns (s.modLedg (fun l => { l with txns := l.txns.map f })) ≤ openTxns s := by
  simp only [openTxns, State.modLedg, ← List.countP_eq_length_filter, List.countP_map]
  refine List.countP_mono_left fun t _ ht => ?_
  obtain ⟨owner, phase⟩ := h t
  simp only [Function.comp_apply, owner, Bool.and_eq_true, bne_iff_ne] at ht ⊢
  exact ⟨ht.1, phase ht.2⟩

theorem openTxns_filter_le {s : State} {p : Txn → Bool} : openTxns (s.modLedg (fun l => { l with txns := l.txns.filter p })) ≤ openTxns s := by
  simp only [openTxns, State.modLedg]
  exact (List.filter_sublist.filter _).length_le

theorem openTxns_append (s : State) (t : Txn) : openTxns (s.modLedg (fun l => { l with txns := l.txns ++ [t] })) =
    openTxns s + if !isPortUnit t.owner && t.phase != .committed then 1 else 0 := by
  simp only [openTxns, State.modLedg, List.filter_append, List.length_append, List.filter_singleton]
  cases !isPortUnit t.owner && t.phase != .committed <;> rfl

theorem shape_dropTxn {u : Nat} {s : State} (hs : s.Shape) : (dropTxn u s).Shape := shape_txns hs openTxns_filter_le

theorem shape_modTxn {u : Nat} {f : Txn → Txn} {s : State} (hs : s.Shape) (hf : ∀ t, (f t).owner = t.owner := by intro _; rfl) : (modTxn u f s).Shape := by
  refine shape_txns hs (openTxns_map_le fun t => ?_)
  split
  · next h => exact ⟨hf t, fun _ => by simp_all⟩
  · exact ⟨rfl, id⟩

theorem shape_txnOpen {u : Nat} {s : State} (hs : s.Shape) : (txnOpen u s).Shape := by
  unfold txnOpen
  split
  · exact hs
  · split
    · exact shape_setTxnFlag hs
    · next h =>
      have room : isPortUnit u = true ∨ openTxns s < 16 := by simpa [Classical.or_iff_not_imp_left] using h
      obtain ⟨cores, chains, ports, units, links, rooms, few, depths⟩ := hs
      refine ⟨cores, chains, ports, units, links, rooms, (openTxns_append s ⟨u, _, .opened, [], false, .none, []⟩).trans_le ?_, depths⟩
      rcases room with h | h
      · simpa [h] using few
      · split <;> omega

theorem shape_txnCommit {u : Nat} {s : State} (hs : s.Shape) : (txnCommit u s).Shape := by
  unfold txnCommit
  split
  · exact hs
  · refine shape_ite hs (shape_ite (shape_modLedg rfl hs) ?_)
    split
    · split
      · exact shape_setTxnFlag (shape_dropTxn hs)
      · exact shape_dropTxn hs
    · exact shape_modTxn hs

theorem shape_txnAbort {u : Nat} {s : State} (hs : s.Shape) : (txnAbort u s).Shape := by
  unfold txnAbort
  split
  · exact hs
  · exact shape_ite (shape_modLedg rfl (shape_dropTxn hs)) hs

theorem shape_placeLines {ls : List (Nat × List Byte)} {s : State} (hs : s.Shape) : (placeLines ls s).Shape := by
  unfold placeLines
  exact shape_foldl (fun _ _ h => shape_modLedg rfl (shape_putBytes (shape_heal h))) hs

theorem shape_makeRoom {k : Nat} {s : State} (hs : s.Shape) : (makeRoom k s).Shape := by
  unfold makeRoom
  exact shape_drainBank hs

theorem shape_bufferWrite {u a : Nat} {b : List Byte} {s : State} (hs : s.Shape) : (bufferWrite u a b s).Shape := by
  unfold bufferWrite
  exact shape_ite (shape_putBytes (shape_heal hs)) (shape_putBytes (shape_heal (shape_modLedg rfl (shape_makeRoom (shape_ite (shape_meetLine hs) hs)))))

theorem shape_doomOthers {u : Nat} {ls : List Nat} {s : State} (hs : s.Shape) : (doomOthers u ls s).Shape := by
  refine shape_txns hs (openTxns_map_le fun t => ?_)
  split <;> exact ⟨rfl, id⟩

theorem shape_holdWrite {u a : Nat} {b : List Byte} {n : Option Nat} {s : State} (hs : s.Shape) : (holdWrite u a b n s).Shape := by
  unfold holdWrite
  exact shape_modLedg rfl hs

theorem shape_directWrite {u a : Nat} {b : List Byte} {s : State} (hs : s.Shape) : (directWrite u a b s).Shape := by
  unfold directWrite
  exact shape_ite (shape_holdWrite hs) (shape_bufferWrite (shape_doomOthers hs))

theorem shape_txnWrite {u : Nat} {t : Txn} {a : Nat} {b : List Byte} {s : State} (hs : s.Shape) : (txnWrite u t a b s).Shape := by
  unfold txnWrite
  exact shape_ite (shape_holdWrite hs) (shape_ite (shape_modTxn hs) (shape_ite (shape_setTxnFlag (shape_dropTxn hs)) (shape_modTxn (shape_ite (shape_meetLine hs) hs))))

theorem shape_writeInLine {u a : Nat} {b : List Byte} {s : State} (hs : s.Shape) : (writeInLine u a b s).Shape := by
  unfold writeInLine
  refine shape_ite hs ?_
  split
  · exact shape_ite (shape_txnWrite hs) (shape_directWrite hs)
  · exact shape_directWrite hs

theorem shape_redoHeld {s : State} (hs : s.Shape) : (redoHeld s).Shape := by
  unfold redoHeld
  refine shape_foldl (fun _ _ h => ?_) (shape_modLedg rfl hs)
  split
  · exact shape_directWrite h
  · split
    · exact shape_ite (shape_txnWrite h) h
    · exact h
  · exact shape_txnCommit h

theorem shape_ledgerWrite {n u a : Nat} {b : List Byte} {s : State} (hs : s.Shape) : (ledgerWrite n u a b s).Shape := by
  induction n generalizing a b s with
  | zero => exact hs
  | succ n ih =>
    unfold ledgerWrite
    split
    · exact hs
    · exact ih (shape_writeInLine hs)

theorem shape_memWrite {u a : Nat} {b : List Byte} {s : State} (hs : s.Shape) : (memWrite u a b s).Shape := by
  unfold memWrite
  exact shape_ite (shape_ledgerWrite hs) (shape_ite (shape_pigeonWrite hs) hs)

theorem shape_commitLines_p {u : Nat} {vs : List Verify} {s : State} (hs : s.Shape) : (commitLines u vs s).2.Shape := by
  unfold commitLines
  split
  · exact hs
  · next t _ =>
    split
    · exact hs
    · have journalled := shape_programJournals_p (vs := vs) (l := t.lines.map (fun e => .image t.serial e.1 e.2) ++ [.commit t.serial u (t.lines.map (·.1))]) hs
      dsimp only
      split
      · exact shape_reportFailed (shape_dropTxn journalled)
      · exact shape_doomOthers (shape_txns (shape_dropTxn (shape_placeLines journalled)) ((openTxns_append _ _).trans (by simp)).le)

theorem shape_programHomes {u : Nat} {vs : List Verify} {l : List OldLine} {s : State} (hs : s.Shape) : (programHomes u vs l s).Shape := by
  induction l generalizing vs s with
  | nil => exact hs
  | cons x l ih =>
    unfold programHomes
    rcases h1 : programAs (vs.headD .good) x.line s with ⟨b, s1⟩
    have k := shape_programAs_t h1 hs
    dsimp only
    refine ih ?_
    split
    · exact k
    · exact shape_reportFailed (shape_restoreCells k)

theorem shape_retireTxn {u : Nat} {vs : List Verify} {s : State} (hs : s.Shape) : (retireTxn u vs s).Shape := by
  unfold retireTxn
  split
  · exact hs
  · refine shape_ite hs ?_
    extract_lets s1
    have homed : s1.Shape := shape_modLedg rfl (shape_programHomes hs)
    dsimp only
    split
    · exact shape_redoHeld (shape_txns (shape_programJournal_p homed) openTxns_filter_le)
    · exact shape_reportFailed (shape_programJournal_p homed)

theorem shape_losePower {s : State} (hs : s.Shape) : (losePower s).Shape := by
  unfold losePower
  extract_lets s1 s2 s3
  have h1 : s1.Shape := shape_foldl (fun _ _ hs => shape_foldl (fun _ _ hs => shape_restoreCells hs) hs) hs
  have h2 : s2.Shape := shape_foldl (fun _ _ hs => shape_foldl (fun _ _ hs => shape_restoreCells hs) hs) h1
  have h3 : s3.Shape := shape_foldl (fun _ _ hs => shape_dropMove hs) h2
  exact shape_txns h3 (Nat.zero_le _)

theorem shape_drainBuffers {s : State} (hs : s.Shape) : (drainBuffers s).Shape := by
  unfold drainBuffers
  exact shape_iter (fun _ h => shape_recordDone (shape_freeVerify_p (shape_finishMoves h))) (shape_forUpTo (fun _ _ h => shape_drainBank h) (shape_finishMoves hs))

theorem shape_ledgerCorrected {a w : Nat} {s : State} (hs : s.Shape) : (ledgerCorrected a w s).Shape := by
  unfold ledgerCorrected
  exact shape_ite (shape_bufferWrite (shape_noteCorrected hs)) (shape_noteCorrected hs)

theorem shape_pigeonCorrected {a : Nat} {s : State} (hs : s.Shape) : (pigeonCorrected a s).Shape := by
  unfold pigeonCorrected
  exact shape_heal (shape_mark (calm_bits rfl) (shape_incSat (calm_bits rfl) hs))

theorem shape_readEffect {a : Nat} {s : State} (hs : s.Shape) : (readEffect a s).Shape := by
  unfold readEffect
  exact shape_ite (shape_uncorrectable hs) (shape_ite hs (shape_ite (shape_ledgerCorrected hs) (shape_pigeonCorrected hs)))

theorem shape_readArea {a n : Nat} {s : State} (hs : s.Shape) : (readArea a n s).Shape := by
  unfold readArea
  exact shape_foldl (fun _ _ h => shape_readEffect h) hs

theorem shape_readAs {u a : Nat} {s : State} (hs : s.Shape) : (readAs u a s).Shape := by
  unfold readAs
  exact shape_ite hs (shape_readEffect hs)

theorem shape_readSpan {u a n : Nat} {s : State} (hs : s.Shape) : (readSpan u a n s).Shape := by
  unfold readSpan
  exact shape_foldl (fun _ _ h => shape_readAs h) hs

theorem shape_bytesAs_p {u n a : Nat} {s0 : State} (hs0 : s0.Shape) : (bytesAs u n a s0).2.Shape := by
  unfold bytesAs
  dsimp only
  split
  · refine shape_foldl_snd (fun _ _ h => ?_) (shape_readSpan hs0)
    split
    · exact shape_free_p h
    · exact h
  · exact shape_readSpan hs0

theorem shape_bytesAs_t {u n a : Nat} {s0 : State} {r0 : List Byte} {t : State} (he : bytesAs u n a s0 = (r0, t)) (hs0 : s0.Shape) : t.Shape := by
  have k : State.Shape (bytesAs u n a s0).2 := shape_bytesAs_p (hs0 := hs0)
  rw [he] at k; exact k

theorem shape_chargeCore {c n : Nat} {s : State} (hs : s.Shape) : (chargeCore c n s).Shape := by
  unfold chargeCore
  exact shape_ite (shape_modCore hs (fun _ _ h => h)) (shape_noteSteps (shape_modCore hs (fun _ _ h => h)))

theorem shape_trapEntry {c cause pc : Nat} {s : State} (hs : s.Shape) : (trapEntry c cause pc s).Shape := by
  unfold trapEntry
  exact shape_dayPush hs

theorem shape_coreThird {c code pc : Nat} {s : State} (hs : s.Shape) : (coreThird c code pc s).Shape := by
  unfold coreThird
  exact shape_ite (shape_pmSecond (shape_trapEntry (shape_modCore hs (fun _ _ h => h)))) (shape_storm (shape_modCore hs (fun _ _ h => h)))

theorem load_setPriv (k : Core) (a : Nat) (b : Byte) : (k.setPriv a b).load = k.load := rfl

/-- The entry into a vector leaves the event queue. -/
theorem load_enterVector {vec : Nat} {k k1 : Core} (h : enterVector vec k = some k1) : k1.load = k.load := by
  unfold enterVector at h
  dsimp only at h
  split at h
  · cases h
  · injection h with h
    subst h
    rfl

theorem shape_coreTrap {c cause : Nat} {s : State} (hs : s.Shape) : (coreTrap c cause s).Shape := by
  unfold coreTrap
  split
  · exact hs
  · next k hk =>
    extract_lets depth pc again s1
    split
    · exact shape_coreThird hs
    · next shallow =>
      split
      · exact shape_coreThird hs
      · next k1 hv =>
        extract_lets s2 s3 s4 s5
        have entered : s2.Shape := shape_modCore (shape_trapEntry hs) fun _ _ _ => (load_enterVector hv).trans_le (shape_core hs hk)
        have loaded : s3.Shape := shape_loadSlot entered
        have caused : s4.Shape := shape_ite (shape_put (calm_core rfl rfl) (shape_put (calm_bits rfl) loaded)) (shape_put (calm_core rfl rfl) (shape_put (calm_bits rfl) loaded))
        have deeper : s5.Shape := shape_chargeCore (shape_putDepth caused (by omega))
        exact shape_ite (shape_enterSafe deeper) deeper

theorem shape_budgetTrap {c : Nat} {s : State} (hs : s.Shape) : (budgetTrap c s).Shape := by
  unfold budgetTrap
  exact shape_coreTrap (shape_modCore hs (fun _ _ h => h))

theorem shape_eventEntry {c : Nat} {s : State} (hs : s.Shape) : (eventEntry c s).Shape := by
  unfold eventEntry
  split
  · exact hs
  · next k hk =>
    split
    · exact shape_coreThird hs
    · next k1 hv => exact shape_chargeCore (shape_modCore hs fun _ _ _ => (load_enterVector hv).trans_le (shape_core hs hk))

theorem shape_putDepth_pred {c : Nat} {s : State} (hs : s.Shape) : (s.put (F.SRT_STAT_TDEPTH c) (s.get (F.SRT_STAT_TDEPTH c) - 1)).Shape :=
  shape_putDepth hs (by have : s.get (F.SRT_STAT_TDEPTH c) < 2 ^ 2 := get_lt s _; omega)

theorem shape_endEntry {c : Nat} {s : State} (hs : s.Shape) : (endEntry c s).Shape := by
  unfold endEntry
  split
  · exact shape_clearSlot (shape_putDepth_pred (shape_modCore hs fun _ _ h => h))
  · exact shape_modCore hs fun _ _ h => h
  · exact hs

theorem shape_modArb {b : Nat} {f : Arb → Arb} {s : State} (hs : s.Shape) : (s.modArb b f).Shape := shape_mk rfl rfl hs

theorem shape_raiseReq {b u : Nat} {ahead : Bool} {p : BusPiece} {s : State} (hs : s.Shape) : (raiseReq b u ahead p s).Shape := by
  unfold raiseReq
  exact shape_modArb hs

theorem shape_bankRequest {u : Nat} {ahead : Bool} {a : Nat} {acc : BusAccess} {s : State} (hs : s.Shape) : (bankRequest u ahead a acc s).Shape := by
  unfold bankRequest
  exact shape_ite (shape_coreTrap (shape_foldl (fun _ _ h => shape_raiseReq h) hs)) (shape_foldl (fun _ _ h => shape_raiseReq h) hs)

theorem shape_grantWithdrawal {b : Nat} {s : State} (hs : s.Shape) : (grantWithdrawal b s).Shape := by
  unfold grantWithdrawal
  split
  · exact hs
  · exact shape_incWrap (calm_bits rfl) (shape_modArb hs)

theorem shape_modGate {s : State} {f : Gate → Gate} (hs : s.Shape) : (State.modGate s f).Shape := by
  unfold State.modGate
  exact shape_mk rfl rfl hs

theorem shape_ringPut {slot : Nat} {b : List Byte} {s : State} (hs : s.Shape) : (ringPut slot b s).Shape := by
  unfold ringPut
  refine shape_ite hs ?_
  split
  · exact hs
  · exact shape_pigeonWrite hs

theorem shape_dropFsum {u : Nat} {s : State} (hs : s.Shape) : (dropFsum u s).Shape := by
  unfold dropFsum
  exact shape_ite hs (shape_modGate hs)

theorem shape_closeOpen {l : OpenLetter} {s : State} (hs : s.Shape) : (closeOpen l s).Shape := by
  unfold closeOpen
  exact shape_dropFsum (shape_ringPut (shape_modGate hs))

theorem shape_closeSerial {serial : Nat} {s : State} (hs : s.Shape) : (closeSerial serial s).Shape := by
  unfold closeSerial
  split
  · exact hs
  · exact shape_closeOpen hs

theorem shape_redeliveryDone {s : State} (hs : s.Shape) : (redeliveryDone s).Shape := by
  unfold redeliveryDone
  exact shape_ite hs (shape_ite (shape_closeRecovery hs) (shape_closeRecovery (shape_closeRecovery hs)))

theorem shape_bellUpdate {fresh : Bool} {s : State} (hs : s.Shape) : (bellUpdate fresh s).Shape := by
  unfold bellUpdate
  exact shape_putB (calm_bits rfl) (shape_putB (calm_bits rfl) (shape_ite (shape_put (calm_bits rfl) hs) hs))

theorem shape_readLetters {is : List Nat} {s : State} (hs : s.Shape) : (readLetters is s).Shape := by
  unfold readLetters
  exact shape_foldl (fun _ _ h => shape_readSpan h) hs

theorem shape_obxWrite {b : List Byte} {s : State} (hs : s.Shape) : (obxWrite b s).Shape := by
  unfold obxWrite
  exact shape_ite hs (shape_bellUpdate (shape_put (calm_fixed rfl) (shape_pigeonWrite hs)))

theorem shape_obxReceive {b : List Byte} {s0 : State} (hs0 : s0.Shape) : (obxReceive b s0).Shape := by
  unfold obxReceive
  exact shape_ite (shape_mark (calm_bits rfl) (shape_incSat (calm_bits rfl) (shape_ite (shape_readLetters hs0) hs0))) (shape_obxWrite (shape_ite (shape_readLetters hs0) hs0))

theorem shape_upWrite {b : List Byte} {s : State} (hs : s.Shape) : (upWrite b s).Shape := by
  unfold upWrite
  refine shape_modGate ?_
  split
  · exact hs
  · exact shape_pigeonWrite hs

theorem shape_readCopy {slot : Nat} {s : State} (hs : s.Shape) : (readCopy slot s).Shape := by
  unfold readCopy
  split
  · exact hs
  · exact shape_readSpan hs

theorem shape_sendAck {d serial : Nat} {s : State} (hs : s.Shape) : (sendAck d serial s).Shape := by
  unfold sendAck
  exact shape_ite (shape_incSat (calm_indexed rfl rfl) hs) (shape_modLink hs)

theorem shape_consume {b : List Byte} {s : State} (hs : s.Shape) : (consume b s).Shape := by
  unfold consume
  exact shape_ite (shape_closeSerial (shape_put (calm_indexed rfl rfl) hs)) (shape_sendAck hs)

theorem shape_outboxPop {k : Nat} {s0 : State} (hs0 : s0.Shape) : (outboxPop k s0).Shape := by
  unfold outboxPop
  exact shape_ite hs0 (shape_ite (shape_mark (calm_bits rfl) hs0) (shape_redeliveryDone (shape_bellUpdate (shape_foldl (fun _ _ h => shape_consume h) (shape_put
    (calm_fixed rfl) (shape_readLetters hs0))))))

theorem shape_bellEnable {b : Bool} {s : State} (hs : s.Shape) : (bellEnable b s).Shape := by
  unfold bellEnable
  exact shape_bellUpdate (shape_putB (calm_bits rfl) hs)

theorem shape_storeSerial {s : State} (hs : s.Shape) : (storeSerial s).Shape := by
  unfold storeSerial
  exact shape_ite (shape_storeRecord hs) hs

theorem shape_answer {u reason serial : Nat} {franked : Bool} {s : State} (hs : s.Shape) : (answer u reason serial franked s).Shape := by
  unfold answer
  exact shape_ite (shape_modCore hs (fun _ _ h => h)) hs

theorem shape_frank {o : Offer} {dest cls : Nat} {s : State} (hs : s.Shape) : (frank o dest cls s).Shape := by
  unfold frank
  exact shape_answer (shape_ite (shape_incSat (calm_fixed rfl) (shape_ite (shape_upWrite (shape_modGate (shape_modGate (shape_incWrap (calm_fixed rfl) (shape_ringPut
    (shape_storeSerial (shape_put (calm_fixed rfl) hs)))))))
    (shape_obxWrite (shape_incSat (calm_indexed rfl rfl) (shape_modGate (shape_incWrap (calm_fixed rfl) (shape_ringPut (shape_storeSerial (shape_put
      (calm_fixed rfl) hs))))))))) (shape_ite (shape_upWrite (shape_modGate
    (shape_modGate (shape_incWrap (calm_fixed rfl) (shape_ringPut (shape_storeSerial (shape_put (calm_fixed rfl) hs))))))) (shape_obxWrite (shape_incSat (calm_indexed rfl rfl)
      (shape_modGate (shape_incWrap (calm_fixed rfl) (shape_ringPut
    (shape_storeSerial (shape_put (calm_fixed rfl) hs)))))))))

theorem shape_returnLetter {o : Offer} {reason : Nat} {s : State} (hs : s.Shape) : (returnLetter o reason s).Shape := by
  unfold returnLetter
  exact shape_answer (shape_ite (shape_incSat (calm_fixed rfl) (shape_mark (calm_bits rfl) (shape_incSat (calm_bits rfl) (shape_put (calm_fixed rfl) (shape_put (calm_fixed rfl)
    (shape_put (calm_bits rfl) hs)))))) (shape_mark (calm_bits rfl) (shape_incSat (calm_bits rfl) (shape_put (calm_fixed rfl) (shape_put (calm_fixed rfl)
    (shape_put (calm_bits rfl) hs))))))

theorem shape_offer {o : Offer} {s : State} (hs : s.Shape) : (offer o s).Shape := by
  unfold offer
  exact shape_modGate hs

theorem shape_pruneLog {s : State} (hs : s.Shape) : (pruneLog s).Shape := by
  unfold pruneLog
  exact shape_modGate hs

theorem shape_releaseOnLoss {s : State} (hs : s.Shape) : (releaseOnLoss s).Shape := by
  unfold releaseOnLoss
  exact shape_redeliveryDone (shape_modGate (shape_foldl (fun _ _ h => shape_dayPush (shape_mark (calm_bits rfl) (shape_incSat (calm_fixed rfl) (shape_closeOpen h)))) hs))

theorem shape_markDue {far : Bool} {s : State} (hs : s.Shape) : (markDue far s).Shape := by
  unfold markDue
  exact shape_modGate hs

theorem shape_clearDue {serial : Nat} {s : State} (hs : s.Shape) : (clearDue serial s).Shape := by
  unfold clearDue
  exact shape_modGate hs

theorem shape_redeliverOne {far : Bool} {c : Nat} {s : State} (hs : s.Shape) : (redeliverOne far c s).Shape := by
  unfold redeliverOne
  split
  · exact hs
  · exact shape_ite (shape_clearDue (shape_readCopy hs)) (shape_ite (shape_ite (shape_modGate (shape_upWrite (shape_incSat (calm_fixed rfl) (shape_clearDue
      (shape_readCopy hs))))) hs)
      (shape_ite (shape_obxReceive (shape_incSat (calm_fixed rfl) (shape_clearDue (shape_readCopy hs)))) (shape_obxReceive (shape_incSat (calm_indexed rfl rfl) (shape_incSat
        (calm_fixed rfl) (shape_clearDue (shape_readCopy hs)))))))

theorem shape_redeliverSeries {far : Bool} {c : Nat} {s : State} (hs : s.Shape) : (redeliverSeries far c s).Shape := by
  unfold redeliverSeries
  exact shape_redeliveryDone (shape_iter (fun _ h => shape_redeliverOne h) hs)

theorem shape_redeliver {s : State} (hs : s.Shape) : (redeliver s).Shape := by
  unfold redeliver
  exact shape_ite hs (shape_redeliverSeries (shape_redeliverSeries (shape_redeliverSeries (shape_redeliverSeries (shape_pruneLog hs)))))

theorem shape_classWindowOpen {c : Nat} {s : State} (hs : s.Shape) : (classWindowOpen c s).Shape := by
  unfold classWindowOpen
  exact shape_ite hs (shape_redeliverSeries (shape_pruneLog hs))

theorem shape_modSource {s : State} {x : Nat} {f : Source → Source} (hs : s.Shape) : (State.modSource s x f).Shape := by
  unfold State.modSource
  exact shape_mk rfl rfl hs

theorem shape_settle {i : Nat} {s : State} (hs : s.Shape) : (settle i s).Shape := by
  unfold settle
  exact shape_put (calm_bits rfl) hs

theorem shape_joinSource {x n : Nat} {s : State} (hs : s.Shape) : (joinSource x n s).Shape := by
  unfold joinSource
  exact shape_ite hs (shape_modSource hs)

theorem shape_chainBegin {i : Nat} {s : State} (hs : s.Shape) : (chainBegin i s).Shape := by
  unfold chainBegin
  exact shape_settle (shape_modChain (shape_joinSource hs))

theorem shape_chainHalt {i : Nat} {s : State} (hs : s.Shape) : (chainHalt i s).Shape := by
  unfold chainHalt
  exact shape_modChain hs

theorem shape_chainStop {i : Nat} {s : State} (hs : s.Shape) : (chainStop i s).Shape := by
  unfold chainStop
  exact shape_forUpTo (fun _ _ h => shape_ite (shape_cancelSpec h) h) (shape_chainHalt (shape_put (calm_bits rfl) hs))

theorem shape_chainDrop {i : Nat} {s : State} (hs : s.Shape) : (chainDrop i s).Shape := by
  unfold chainDrop
  exact shape_modChain (shape_mark (calm_indexed rfl rfl) (shape_incSat (calm_bits rfl) hs))

theorem shape_takeBits {x : Nat} {bs : List (Bool × Nat)} {s : State} (hs : s.Shape) : (takeBits x bs s).Shape := by
  unfold takeBits
  exact shape_modSource hs

theorem shape_feed {i : Nat} {c : Chain} {bs : List (Bool × Nat)} {s : State} (hs : s.Shape) : (feed i c bs s).Shape := by
  unfold feed
  exact shape_takeBits (shape_foldl_snd (fun _ _ h => shape_takeBits h) hs)

theorem shape_deliver {i : Nat} {c : Chain} {y : Int} {clip ovl : Bool} {s : State} (hs : s.Shape) : (deliver i c y clip ovl s).Shape := by
  unfold deliver
  exact shape_ite (shape_chainDrop (shape_modChain (shape_incWrap (calm_indexed rfl rfl) (shape_put (calm_bits rfl) (shape_put (calm_indexed rfl rfl) (shape_ite (shape_mark
    (calm_indexed rfl rfl) (shape_incSat (calm_indexed rfl rfl) (shape_put (calm_bits rfl) hs))) (shape_put (calm_bits rfl) hs)))))))
    (shape_modChain (shape_modChain (shape_incWrap (calm_indexed rfl rfl) (shape_put (calm_bits rfl) (shape_put (calm_indexed rfl rfl) (shape_ite (shape_mark
      (calm_indexed rfl rfl) (shape_incSat (calm_indexed rfl rfl) (shape_put (calm_bits rfl) hs))) (shape_put (calm_bits rfl) hs)))))))

theorem shape_chainOutput {i : Nat} {bs : List (Bool × Nat)} {s : State} (hs : s.Shape) : (chainOutput i bs s).Shape := by
  unfold chainOutput
  split
  · exact hs
  · exact shape_ite hs (shape_ite (shape_deliver (shape_feed hs)) (shape_feed hs))

theorem shape_sampleHandoff {i : Nat} {s : State} (hs : s.Shape) : (sampleHandoff i s).Shape := by
  unfold sampleHandoff
  split
  · exact hs
  · split
    · exact shape_ite (shape_enqueue (shape_modChain hs)) hs
    · exact hs

theorem shape_sourceOverload {x : Nat} {s : State} (hs : s.Shape) : (sourceOverload x s).Shape := by
  unfold sourceOverload
  exact shape_ite hs (shape_modSource hs)

theorem shape_overloadEnd {x : Nat} {s : State} (hs : s.Shape) : (overloadEnd x s).Shape := by
  unfold overloadEnd
  exact shape_ite hs (shape_foldl (fun _ _ h => shape_settle h) (shape_modSource hs))

theorem shape_gridStep {old : Nat} {s : State} (hs : s.Shape) : (gridStep old s).Shape := by
  unfold gridStep
  exact shape_forUpTo (fun _ _ h => shape_ite (shape_settle (shape_mark (calm_bits rfl) (shape_modChain h))) h) (shape_mk rfl rfl hs)

theorem shape_stepIdx {i : Nat} {s : State} (hs : s.Shape) : (stepIdx i s).Shape := by
  unfold stepIdx
  exact shape_put (calm_indexed rfl rfl) hs

theorem shape_setCoef {i : Nat} {res : Bool} {j v : Nat} {s : State} (hs : s.Shape) : (setCoef i res j v s).Shape := by
  unfold setCoef
  exact shape_modChain hs

theorem shape_coefWrite {i v : Nat} {s : State} (hs : s.Shape) : (coefWrite i v s).Shape := by
  unfold coefWrite
  exact shape_ite (shape_mark (calm_bits rfl) hs) (shape_stepIdx (shape_setCoef hs))

theorem shape_coefRead_p {i : Nat} {s : State} (hs : s.Shape) : (coefRead i s).2.Shape := by
  unfold coefRead
  dsimp only
  exact shape_stepIdx hs

theorem shape_lastOutputRead {i : Nat} {s : State} (hs : s.Shape) : (lastOutputRead i s).Shape := by
  unfold lastOutputRead
  split
  · exact hs
  · exact shape_put (calm_indexed rfl rfl) (shape_put (calm_indexed rfl rfl) hs)

theorem shape_modWrite {i : Nat} {v : Word} {s : State} (hs : s.Shape) : (modWrite i v s).Shape := by
  unfold modWrite
  exact shape_ite (shape_mark (calm_bits rfl) hs) (shape_foldl (fun _ _ h => shape_settle h) (shape_setReg (calmAt_indexed rfl rfl) hs))

theorem shape_srcWrite {i : Nat} {v : Word} {s : State} (hs : s.Shape) : (srcWrite i v s).Shape := by
  unfold srcWrite
  exact shape_ite (shape_settle (shape_ite (shape_setReg (calmAt_indexed rfl rfl) hs) (shape_modChain (shape_joinSource (shape_setReg (calmAt_indexed rfl rfl) hs)))))
    (shape_setReg (calmAt_indexed rfl rfl) hs)

theorem shape_modEst {s : State} {f : Estate → Estate} (hs : s.Shape) : (State.modEst s f).Shape := by
  unfold State.modEst
  exact shape_mk rfl rfl hs

theorem shape_sendDown {f : List Byte} {s : State} (hs : s.Shape) : (sendDown f s).Shape := by
  unfold sendDown
  exact shape_forUpTo (fun _ _ h => shape_ite (shape_sendOn h) h) hs

theorem shape_countDrop {n : Nat} {s : State} (hs : s.Shape) : (countDrop n s).Shape := by
  unfold countDrop
  exact shape_incSat (calm_indexed rfl rfl) hs

theorem shape_setRoute {id k : Nat} {s : State} (hs : s.Shape) : (setRoute id k s).Shape := by
  unfold setRoute
  exact shape_modEst hs

theorem shape_forwardDown {n : Nat} {f : List Byte} {s : State} (hs : s.Shape) : (forwardDown n f s).Shape := by
  unfold forwardDown
  split
  · exact shape_countDrop hs
  · exact shape_sendOn hs

theorem shape_scanIds {s : State} (hs : s.Shape) : (scanIds s).Shape := by
  unfold scanIds
  exact shape_foldl (fun _ _ h => shape_readAs h) hs

theorem shape_mirrorTo {dst : Nat} {l : List (Nat × IdEntry)} {s : State} (hs : s.Shape) : (mirrorTo dst l s).Shape := by
  unfold mirrorTo
  split
  · exact hs
  · exact shape_foldl (fun _ _ h => shape_sendOn h) hs

theorem shape_mirrorWrite {a n : Nat} {s0 s : State} (hs : s.Shape) : (mirrorWrite a n s0 s).Shape := by
  unfold mirrorWrite
  exact shape_ite hs (shape_foldl (fun _ _ h => shape_mirrorTo h) hs)

theorem shape_setIdEntry {id : Nat} {e : IdEntry} {s : State} (hs : s.Shape) : (setIdEntry id e s).Shape := by
  unfold setIdEntry
  exact shape_mirrorWrite (shape_memWrite hs)

theorem shape_markAbsent {ids : List Nat} {s : State} (hs : s.Shape) : (markAbsent ids s).Shape := by
  unfold markAbsent
  exact shape_foldl (fun _ _ h => shape_ite (shape_setIdEntry (shape_modEst (shape_readAs h))) (shape_modEst (shape_readAs h))) hs

theorem shape_raFinish {c result : Nat} {s : State} (hs : s.Shape) : (raFinish c result s).Shape := by
  unfold raFinish
  exact shape_modEst (shape_put (calm_bits rfl) (shape_put (calm_bits rfl) (shape_put (calm_indexed rfl rfl) hs)))

theorem shape_raPathLost {s : State} (hs : s.Shape) : (raPathLost s).Shape := by
  unfold raPathLost
  exact shape_forUpTo (fun _ _ h => shape_ite (shape_raFinish h) h) hs

theorem shape_pathEnd {s : State} (hs : s.Shape) : (pathEnd s).Shape := by
  unfold pathEnd
  exact shape_sendDown (shape_ite (shape_raPathLost (shape_releaseOnLoss (shape_put (calm_bits rfl) (shape_ite (shape_put (calm_bits rfl) (shape_modEst hs))
    (shape_modEst hs))))) (shape_ite (shape_put (calm_bits rfl)
    (shape_modEst hs)) (shape_modEst hs)))

theorem shape_clearRoutes {ids : List Nat} {s : State} (hs : s.Shape) : (clearRoutes ids s).Shape := by
  unfold clearRoutes
  exact shape_foldl (fun _ _ h => shape_setRoute h) hs

theorem shape_downPortLoss {k : Nat} {s : State} (hs : s.Shape) : (downPortLoss k s).Shape := by
  unfold downPortLoss
  exact shape_ite (shape_markAbsent (shape_clearRoutes (shape_put (calm_indexed rfl rfl) (shape_put (calm_bits rfl) hs)))) (shape_foldl (fun _ _ h => shape_sendOn h)
    (shape_clearRoutes (shape_put (calm_indexed rfl rfl) (shape_put (calm_bits rfl) hs))))

theorem shape_lossAt {n : Nat} {s : State} (hs : s.Shape) : (lossAt n s).Shape := by
  unfold lossAt
  exact shape_ite (shape_pathEnd (shape_modEst (shape_closeRecovery (shape_modLink (shape_mark (calm_bits rfl) hs))))) (shape_downPortLoss (shape_closeRecovery (shape_modLink
    (shape_mark (calm_bits rfl) hs))))

theorem shape_beginOutage {n : Nat} {s : State} (hs : s.Shape) : (beginOutage n s).Shape := by
  unfold beginOutage
  exact shape_ite hs (shape_ite (shape_modEst (shape_openRecovery (shape_modLink hs))) (shape_openRecovery (shape_modLink hs)))

theorem shape_freeTime {s : State} (hs : s.Shape) : (freeTime s).Shape := by
  unfold freeTime
  exact shape_ite hs (shape_modEst (shape_put (calm_fixed rfl) hs))

theorem shape_leaveActive {n st : Nat} {s : State} (hs : s.Shape) : (leaveActive n st s).Shape := by
  unfold leaveActive
  exact shape_ite (shape_freeTime (shape_modLink (shape_put (calm_bits rfl) (shape_ite (shape_beginOutage hs) hs)))) (shape_modLink (shape_put (calm_bits rfl) (shape_ite
    (shape_beginOutage hs) hs)))

theorem shape_shortEnd {n : Nat} {s : State} (hs : s.Shape) : (shortEnd n s).Shape := by
  unfold shortEnd
  exact shape_ite (shape_ite (shape_redeliveryDone (shape_markDue (shape_sendDown (shape_put (calm_bits rfl) (shape_modEst (shape_modLink (shape_mark
    (calm_indexed rfl rfl) hs))))))) (shape_closeRecovery
    (shape_modEst (shape_modLink (shape_mark (calm_indexed rfl rfl) hs))))) (shape_closeRecovery (shape_ite (shape_put (calm_bits rfl) (shape_modLink (shape_mark
      (calm_indexed rfl rfl) hs))) (shape_modLink (shape_mark (calm_indexed rfl rfl) hs))))

theorem shape_sendHello {s : State} (hs : s.Shape) : (sendHello s).Shape := by
  unfold sendHello
  exact shape_ite hs (shape_modEst (shape_sendOn hs))

theorem shape_pathBegins {s : State} (hs : s.Shape) : (pathBegins s).Shape := by
  unfold pathBegins
  exact shape_ite (shape_sendDown (shape_modGate (shape_put (calm_bits rfl) (shape_put (calm_bits rfl) hs)))) hs

theorem shape_welcomeAtVia {n : Nat} {f : List Byte} {s : State} (hs : s.Shape) : (welcomeAtVia n f s).Shape := by
  unfold welcomeAtVia
  extract_lets b uid id depth result
  split
  · exact shape_countDrop hs
  · extract_lets s0 s1 s2
    have routed : s1.Shape := shape_setRoute (shape_modLink hs)
    have enrolled : s2.Shape := shape_ite (shape_put (calm_bits rfl) (shape_put (calm_bits rfl) (shape_put (calm_indexed rfl rfl) routed))) routed
    exact shape_sendOn enrolled

theorem shape_welcomeHere {f : List Byte} {s : State} (hs : s.Shape) : (welcomeHere f s).Shape := by
  unfold welcomeHere
  exact shape_ite (shape_pathBegins (shape_storeRecord (shape_modEst (shape_forUpTo (fun _ _ h => shape_put (calm_bits rfl) (shape_put (calm_indexed rfl rfl) h)) (shape_put
    (calm_bits rfl) (shape_put (calm_bits rfl) (shape_put (calm_fixed rfl) (shape_put (calm_bits rfl)
    (shape_put (calm_fixed rfl) (shape_put (calm_bits rfl) (shape_modEst hs))))))))))) (shape_pathEnd (shape_put (calm_bits rfl) (shape_put (calm_fixed rfl) (shape_put
      (calm_bits rfl) (shape_modEst hs)))))

theorem shape_takeWelcome {n : Nat} {f : List Byte} {s : State} (hs : s.Shape) : (takeWelcome n f s).Shape := by
  unfold takeWelcome
  refine shape_ite (shape_ite hs (shape_welcomeHere hs)) ?_
  split
  · exact shape_welcomeAtVia hs
  · split
    · exact shape_countDrop hs
    · exact shape_sendOn (shape_setRoute hs)

theorem shape_takeEnrol {n : Nat} {f : List Byte} {s0 : State} (hs0 : s0.Shape) : (takeEnrol n f s0).Shape := by
  unfold takeEnrol
  refine shape_ite (shape_sendOn hs0) (shape_ite (shape_mirrorTo (shape_modEst (shape_ite (shape_welcomeAtVia (shape_ite (shape_setIdEntry (shape_incSat (calm_bits rfl)
    (shape_scanIds hs0)))
    (shape_incSat (calm_fixed rfl) (shape_scanIds hs0)))) ?_))) (shape_ite (shape_welcomeAtVia (shape_ite (shape_setIdEntry (shape_incSat (calm_bits rfl) (shape_scanIds hs0)))
      (shape_incSat (calm_fixed rfl)
    (shape_scanIds hs0)))) ?_))
  · split
    · exact shape_countDrop (shape_ite (shape_setIdEntry (shape_incSat (calm_bits rfl) (shape_scanIds hs0))) (shape_incSat (calm_fixed rfl) (shape_scanIds hs0)))
    · exact shape_sendOn (shape_setRoute (shape_ite (shape_setIdEntry (shape_incSat (calm_bits rfl) (shape_scanIds hs0))) (shape_incSat (calm_fixed rfl) (shape_scanIds hs0))))
  · split
    · exact shape_countDrop (shape_ite (shape_setIdEntry (shape_incSat (calm_bits rfl) (shape_scanIds hs0))) (shape_incSat (calm_fixed rfl) (shape_scanIds hs0)))
    · exact shape_sendOn (shape_setRoute (shape_ite (shape_setIdEntry (shape_incSat (calm_bits rfl) (shape_scanIds hs0))) (shape_incSat (calm_fixed rfl) (shape_scanIds hs0))))

theorem shape_takeHello {k : Nat} {f : List Byte} {s : State} (hs : s.Shape) : (takeHello k f s).Shape := by
  unfold takeHello
  exact shape_ite (shape_takeEnrol (shape_modLink hs)) (shape_sendOn (shape_ite (shape_mark (calm_bits rfl) (shape_incSat (calm_fixed rfl) (shape_modLink hs))) (shape_incSat
    (calm_fixed rfl) (shape_modLink hs))))

theorem shape_enrolTimeout {s : State} (hs : s.Shape) : (enrolTimeout s).Shape := by
  unfold enrolTimeout
  exact shape_ite (shape_pathEnd (shape_put (calm_bits rfl) (shape_modEst hs))) hs

theorem shape_enrolRetry {s : State} (hs : s.Shape) : (enrolRetry s).Shape := by
  unfold enrolRetry
  exact shape_ite (shape_sendHello hs) hs

theorem shape_takeLeave {f : List Byte} {s : State} (hs : s.Shape) : (takeLeave f s).Shape := by
  unfold takeLeave
  exact shape_ite (shape_markAbsent (shape_clearRoutes hs)) (shape_sendOn (shape_clearRoutes hs))

theorem shape_takeAck {n : Nat} {f : List Byte} {s : State} (hs : s.Shape) : (takeAck n f s).Shape := by
  unfold takeAck
  split
  · exact shape_redeliveryDone (shape_foldl (fun _ _ h => shape_ite (shape_closeSerial h) h) hs)
  · exact shape_forwardDown hs

theorem shape_takeLetter {k : Nat} {f : List Byte} {s : State} (hs : s.Shape) : (takeLetter k f s).Shape := by
  unfold takeLetter
  exact shape_ite (shape_countDrop hs) (shape_ite (shape_obxReceive hs) (shape_upWrite hs))

theorem shape_takePath {st : Nat} {s : State} (hs : s.Shape) : (takePath st s).Shape := by
  unfold takePath
  refine shape_ite hs ?_
  split
  · exact shape_pathEnd hs
  · exact shape_ite hs (shape_sendHello hs)
  · exact shape_ite (shape_redeliveryDone (shape_markDue (shape_sendDown hs))) hs
  · exact shape_ite hs (shape_sendHello hs)

theorem shape_stepTimebase {d : Int} {s : State} (hs : s.Shape) : (stepTimebase d s).Shape := by
  unfold stepTimebase
  exact shape_dayPush (shape_gridStep (shape_modEst (shape_mark (calm_bits rfl) (shape_mk rfl rfl hs))))

theorem shape_exchangeDone {t1 t2 t3 t4 : Nat} {s : State} (hs : s.Shape) : (exchangeDone t1 t2 t3 t4 s).Shape := by
  unfold exchangeDone
  exact shape_pathBegins (shape_ite (shape_stepTimebase (shape_modEst (shape_put (calm_bits rfl) (shape_put (calm_fixed rfl) hs)))) (shape_ite (shape_put (calm_fixed rfl)
    (shape_modEst (shape_put (calm_fixed rfl) (shape_modEst (shape_put (calm_bits rfl)
    (shape_put (calm_fixed rfl) hs)))))) (shape_ite (shape_put (calm_fixed rfl) (shape_modEst (shape_put (calm_fixed rfl) (shape_modEst (shape_put (calm_bits rfl) (shape_put
      (calm_fixed rfl) hs)))))) (shape_modEst (shape_put (calm_fixed rfl) (shape_modEst (shape_put (calm_bits rfl)
    (shape_put (calm_fixed rfl) hs))))))))

theorem shape_syncTimer {n : Nat} {s : State} (hs : s.Shape) : (syncTimer n s).Shape := by
  unfold syncTimer
  exact shape_ite hs (shape_ite (shape_ite hs (shape_sendOn hs)) (shape_sendOn hs))

theorem shape_takeSync {frac : Nat} {f : List Byte} {s : State} (hs : s.Shape) : (takeSync frac f s).Shape := by
  unfold takeSync
  exact shape_ite (shape_mark (calm_bits rfl) hs) (shape_ite (shape_shortEnd (shape_modEst hs)) (shape_ite (shape_sendHello (shape_modLink (shape_modEst hs))) (shape_modEst hs)))

theorem shape_takeDreq {k frac : Nat} {s : State} (hs : s.Shape) : (takeDreq k frac s).Shape := by
  unfold takeDreq
  exact shape_sendOn hs

theorem shape_takeDresp {f : List Byte} {s : State} (hs : s.Shape) : (takeDresp f s).Shape := by
  unfold takeDresp
  refine shape_ite hs ?_
  split
  · exact shape_exchangeDone hs
  · exact hs

theorem shape_resync {s : State} (hs : s.Shape) : (resync s).Shape := by
  unfold resync
  exact shape_ite hs (shape_modEst (shape_put (calm_fixed rfl) hs))

theorem shape_takeIdmir {n : Nat} {complete : Bool} {f : List Byte} {s : State} (hs : s.Shape) : (takeIdmir n complete f s).Shape := by
  unfold takeIdmir
  split
  · exact shape_modEst hs
  · exact shape_forwardDown hs

theorem shape_takeover {s : State} (hs : s.Shape) : (takeover s).Shape := by
  unfold takeover
  exact shape_sendDown (shape_dayPush (shape_modEst (shape_put (calm_fixed rfl) (shape_put (calm_fixed rfl) (shape_mark (calm_bits rfl) (shape_put (calm_bits rfl) (shape_put
    (calm_bits rfl) (shape_put (calm_bits rfl) (shape_put (calm_fixed rfl) (shape_foldl (fun _ _ h => shape_memWrite h)
    (shape_foldl (fun _ _ h => shape_memWrite h) hs)))))))))))

theorem shape_syncTimeout {s : State} (hs : s.Shape) : (syncTimeout s).Shape := by
  unfold syncTimeout
  exact shape_ite hs (shape_ite (shape_takeover (shape_ite (shape_lossAt (shape_ite (shape_beginOutage hs) hs)) (shape_ite (shape_beginOutage hs) hs))) (shape_ite
    (shape_beginOutage hs) hs))

theorem shape_beginTraining {n : Nat} {s : State} (hs : s.Shape) : (beginTraining n s).Shape := by
  unfold beginTraining
  exact shape_modLink (shape_put (calm_bits rfl) (shape_ite (shape_incSat (calm_bits rfl) hs) hs))

theorem shape_presenceDetected {n : Nat} {s : State} (hs : s.Shape) : (presenceDetected n s).Shape := by
  unfold presenceDetected
  exact shape_ite (shape_ite (shape_wakeRecognised (shape_mark (calm_bits rfl) hs)) (shape_mark (calm_bits rfl) hs)) (shape_ite (shape_beginTraining (shape_mark
    (calm_bits rfl) hs)) (shape_mark (calm_bits rfl) hs))

theorem shape_presenceLost {n : Nat} {s : State} (hs : s.Shape) : (presenceLost n s).Shape := by
  unfold presenceLost
  exact shape_ite (shape_lossAt (shape_leaveActive (shape_put (calm_bits rfl) hs))) (shape_leaveActive (shape_put (calm_bits rfl) hs))

theorem shape_linkTick {n : Nat} {s : State} (hs : s.Shape) : (linkTick n s).Shape := by
  unfold linkTick
  exact shape_ite (shape_beginTraining hs) hs

theorem shape_wordLockGained {n : Nat} {s : State} (hs : s.Shape) : (wordLockGained n s).Shape := by
  unfold wordLockGained
  exact shape_ite hs (shape_ite (shape_modLink (shape_ite (shape_beginTraining hs) hs)) (shape_ite (shape_beginTraining hs) hs))

theorem shape_wordLockLoss {n : Nat} {s : State} (hs : s.Shape) : (wordLockLoss n s).Shape := by
  unfold wordLockLoss
  exact shape_ite hs (shape_leaveActive hs)

theorem shape_trainingComplete {n uid : Nat} {s : State} (hs : s.Shape) : (trainingComplete n uid s).Shape := by
  unfold trainingComplete
  refine shape_ite hs ?_
  dsimp only
  split
  · exact shape_ite (shape_ite (shape_sendHello (shape_shortEnd (shape_ite (shape_modEst (shape_ite (shape_modEst (shape_put (calm_fixed rfl) (shape_modLink (shape_put
      (calm_bits rfl) hs)))) (shape_modLink
      (shape_put (calm_bits rfl) hs)))) (shape_ite (shape_modEst (shape_put (calm_fixed rfl) (shape_modLink (shape_put (calm_bits rfl) hs)))) (shape_modLink (shape_put
        (calm_bits rfl) hs)))))) (shape_shortEnd (shape_ite (shape_modEst
      (shape_ite (shape_modEst (shape_put (calm_fixed rfl) (shape_modLink (shape_put (calm_bits rfl) hs)))) (shape_modLink (shape_put (calm_bits rfl) hs)))) (shape_ite
        (shape_modEst (shape_put (calm_fixed rfl) (shape_modLink
      (shape_put (calm_bits rfl) hs)))) (shape_modLink (shape_put (calm_bits rfl) hs)))))) (shape_ite (shape_sendHello (shape_lossAt (shape_ite (shape_modEst (shape_ite
        (shape_modEst (shape_put (calm_fixed rfl)
      (shape_modLink (shape_put (calm_bits rfl) hs)))) (shape_modLink (shape_put (calm_bits rfl) hs)))) (shape_ite (shape_modEst (shape_put (calm_fixed rfl) (shape_modLink
        (shape_put (calm_bits rfl) hs)))) (shape_modLink
      (shape_put (calm_bits rfl) hs)))))) (shape_lossAt (shape_ite (shape_modEst (shape_ite (shape_modEst (shape_put (calm_fixed rfl) (shape_modLink (shape_put
        (calm_bits rfl) hs)))) (shape_modLink (shape_put (calm_bits rfl) hs))))
      (shape_ite (shape_modEst (shape_put (calm_fixed rfl) (shape_modLink (shape_put (calm_bits rfl) hs)))) (shape_modLink (shape_put (calm_bits rfl) hs))))))
  · exact shape_ite (shape_sendHello (shape_ite (shape_modEst (shape_ite (shape_modEst (shape_put (calm_fixed rfl) (shape_modLink (shape_put (calm_bits rfl) hs))))
      (shape_modLink (shape_put (calm_bits rfl) hs)))) (shape_ite
      (shape_modEst (shape_put (calm_fixed rfl) (shape_modLink (shape_put (calm_bits rfl) hs)))) (shape_modLink (shape_put (calm_bits rfl) hs))))) (shape_ite (shape_modEst
        (shape_ite (shape_modEst (shape_put (calm_fixed rfl) (shape_modLink
      (shape_put (calm_bits rfl) hs)))) (shape_modLink (shape_put (calm_bits rfl) hs)))) (shape_ite (shape_modEst (shape_put (calm_fixed rfl) (shape_modLink (shape_put
        (calm_bits rfl) hs)))) (shape_modLink (shape_put (calm_bits rfl) hs))))

theorem shape_trainingTimeout {n : Nat} {s : State} (hs : s.Shape) : (trainingTimeout n s).Shape := by
  unfold trainingTimeout
  exact shape_ite hs (shape_modLink hs)

theorem shape_trainingPauseEnd {n : Nat} {s : State} (hs : s.Shape) : (trainingPauseEnd n s).Shape := by
  unfold trainingPauseEnd
  exact shape_ite hs (shape_incSat (calm_bits rfl) (shape_modLink hs))

theorem shape_outageHoldExpiry {n : Nat} {s : State} (hs : s.Shape) : (outageHoldExpiry n s).Shape := by
  unfold outageHoldExpiry
  exact shape_ite hs (shape_lossAt (shape_ite (shape_modLink hs) hs))

theorem shape_linkDownWrite {n : Nat} {b : Bool} {s : State} (hs : s.Shape) : (linkDownWrite n b s).Shape := by
  unfold linkDownWrite
  exact shape_ite (shape_ite (shape_lossAt (shape_leaveActive (shape_putB (calm_bits rfl) hs))) (shape_leaveActive (shape_putB (calm_bits rfl) hs))) (shape_ite
    (shape_beginTraining (shape_putB (calm_bits rfl) hs))
    (shape_putB (calm_bits rfl) hs))

theorem shape_retrain {n : Nat} {s : State} (hs : s.Shape) : (retrain n s).Shape := by
  unfold retrain
  exact shape_ite (shape_incSat (calm_bits rfl) (shape_leaveActive hs)) hs

theorem shape_linkPowerDown {n : Nat} {s : State} (hs : s.Shape) : (linkPowerDown n s).Shape := by
  unfold linkPowerDown
  exact shape_leaveActive hs

theorem shape_receiveFrame {n typ : Nat} {f : RxFrame} {act : List Byte → State → State} {s : State} (hs : s.Shape) (hact : ∀ b s, s.Shape → (act b s).Shape) :
    (receiveFrame n typ f act s).Shape := by
  unfold receiveFrame
  exact shape_ite hs (shape_ite (shape_retrain (shape_incSat (calm_bits rfl) hs)) (shape_ite (shape_retrain (shape_incSat (calm_indexed rfl rfl) hs)) (shape_ite
    (shape_countDrop hs) (shape_ite (shape_countDrop hs)
    (shape_ite (hact _ _ hs) hs)))))

theorem shape_readUp_p {c : Nat} {b : List Byte} {s : State} (hs : s.Shape) : (readUp c b s).2.Shape := by
  unfold readUp
  split
  · exact hs
  · exact shape_readSpan hs

theorem shape_linkFrameBoundary {n frac : Nat} {s : State} (hs : s.Shape) : (linkFrameBoundary n frac s).Shape := by
  unfold linkFrameBoundary
  refine shape_ite hs ?_
  split
  · exact shape_redeliveryDone (shape_modLink (shape_modGate (shape_readUp_p hs)))
  · split
    · exact shape_modLink hs
    · exact shape_ite (shape_modEst (shape_modLink hs)) (shape_modLink hs)

theorem shape_modTrend {s : State} {f : Trend → Trend} (hs : s.Shape) : (State.modTrend s f).Shape := by
  unfold State.modTrend
  exact shape_mk rfl rfl hs

theorem shape_checkCurves {s : State} (hs : s.Shape) : (checkCurves s).Shape := by
  unfold checkCurves
  split
  · exact hs
  · exact shape_put (calm_fixed rfl) (shape_mark (calm_bits rfl) hs)

theorem shape_readBins {s : State} (hs : s.Shape) : (readBins s).Shape := by
  unfold readBins
  exact shape_foldl (fun _ _ h => shape_readAs h) (shape_modTrend hs)

theorem shape_reevaluate {s0 : State} (hs : s0.Shape) : (reevaluate s0).Shape := by
  unfold reevaluate
  dsimp only
  have judged := fun f => shape_modTrend (f := f) (shape_readBins hs)
  split
  · exact judged _
  · exact shape_ite (judged _) (shape_put (calm_bits rfl) (shape_put (calm_fixed rfl) (shape_mark (calm_bits rfl) (judged _))))

theorem shape_rebin {a n : Nat} {s : State} (hs : s.Shape) : (rebin a n s).Shape := by
  unfold rebin
  exact shape_ite (shape_reevaluate (shape_modTrend hs)) hs

theorem shape_meetBin {e : Nat} {s : State} (hs : s.Shape) : (meetBin e s).Shape := by
  unfold meetBin
  exact shape_ite (shape_reevaluate hs) hs

theorem shape_trendPoison {a : Nat} {s : State} (hs : s.Shape) : (trendPoison a s).Shape := by
  unfold trendPoison
  exact shape_mark (calm_bits rfl) (shape_incSat (calm_fixed rfl) (shape_readAs hs))

theorem shape_modBack {p : Nat} {f : WriteBack → WriteBack} {s : State} (hs : s.Shape) : (modBack p f s).Shape := by
  unfold modBack
  exact shape_modTrend hs

theorem shape_setLatch {e : Nat} {b : Bool} {s : State} (hs : s.Shape) : (setLatch e b s).Shape := by
  unfold setLatch
  exact shape_memWrite (shape_modTrend hs)

theorem shape_eventToSorter_p {b : Nat} {body : List Byte} {s : State} (hs : s.Shape) : (eventToSorter b body s).2.Shape := by
  unfold eventToSorter
  split
  · split
    · exact shape_incSat (calm_bits rfl) (shape_enqueue hs)
    · exact shape_incSat (calm_bits rfl) hs
  · exact shape_incSat (calm_bits rfl) hs

theorem shape_raiseEvents {ep : Option Nat} {clear : Bool} {evs : List TrendEv} {s : State} (hs : s.Shape) : (raiseEvents ep clear evs s).Shape := by
  unfold raiseEvents
  split
  next s1 ok letters he =>
  have told : s1.Shape := by
    rw [show s1 = (s1, ok, letters).1 from rfl, ← he]
    refine shape_foldl_fst (fun p ev hp => ?_) hs
    obtain ⟨s, ok, n⟩ := p
    dsimp only
    split
    · exact shape_eventToSorter_p hp
    · exact shape_offer hp
  split
  · exact shape_modTrend told
  · split
    · exact shape_ite (shape_setLatch told) told
    · exact told

theorem shape_trendDecided {accepted : Bool} {s : State} (hs : s.Shape) : (trendDecided accepted s).Shape := by
  unfold trendDecided
  split
  · exact hs
  · refine shape_ite (shape_modTrend hs) ?_
    dsimp only
    split
    · exact shape_ite (shape_setLatch (shape_modTrend hs)) (shape_modTrend hs)
    · exact shape_modTrend hs

theorem shape_commitRead {r : PendRead} {s : State} (hs : s.Shape) : (commitRead r s).Shape := by
  unfold commitRead
  exact shape_memWrite (shape_foldl (fun _ _ h => shape_readAs h) (shape_foldl (fun _ _ h => shape_trendPoison h) (shape_meetBin hs)))

theorem shape_noteIssued {p : Nat} {s : State} (hs : s.Shape) : (noteIssued p s).Shape := by
  unfold noteIssued
  split
  · exact hs
  · exact shape_ite (shape_incSat (calm_bits rfl) (shape_modBack hs)) (shape_modBack hs)

theorem shape_issueBack {p : Nat} {s : State} (hs : s.Shape) : (issueBack p s).Shape := by
  unfold issueBack
  exact shape_ite hs (shape_foldl (fun _ _ h => shape_raiseEvents h) (shape_incSat (calm_fixed rfl) (shape_foldl (fun _ _ h => shape_noteIssued h) (shape_foldl
    (fun _ _ h => shape_commitRead h) hs))))

theorem shape_endBack {p : Nat} {s : State} (hs : s.Shape) : (endBack p s).Shape := by
  unfold endBack
  exact shape_modBack (shape_issueBack hs)

theorem shape_cancelBack {p : Nat} {s : State} (hs : s.Shape) : (cancelBack p s).Shape := by
  unfold cancelBack
  exact shape_ite hs (shape_incSat (calm_fixed rfl) (shape_modBack hs))

theorem shape_acceptReading {p : Nat} {r : Reading} {s : State} (hs : s.Shape) : (acceptReading p r s).Shape := by
  unfold acceptReading
  refine shape_ite (shape_incSat (calm_bits rfl) hs) (shape_modBack ?_)
  split
  · exact hs
  · exact shape_ite hs (shape_issueBack hs)

theorem shape_fieldReport {r : Report} {s : State} (hs : s.Shape) : (fieldReport r s).Shape := by
  unfold fieldReport
  refine shape_ite (shape_incSat (calm_bits rfl) hs) ?_
  extract_lets s0
  have met : s0.Shape := shape_meetBin hs
  split
  extract_lets s1 body
  have read : s1.Shape := shape_ite (shape_readAs met) (shape_foldl (fun _ _ hs => shape_trendPoison hs) met)
  split
  · exact shape_raiseEvents read
  · exact shape_ite (shape_raiseEvents read) read

theorem shape_trendFlush {s : State} (hs : s.Shape) : (trendFlush s).Shape := by
  unfold trendFlush
  exact shape_modTrend (shape_modGate (shape_incSat (calm_fixed rfl) (shape_forUpTo (fun _ _ h => shape_cancelBack h) hs)))

theorem shape_issueRange {first n : Nat} {s : State} (hs : s.Shape) : (issueRange first n s).Shape := by
  unfold issueRange
  exact shape_forUpTo (fun _ _ h => shape_ite (shape_issueBack h) h) hs

theorem shape_readNode {p n : Nat} {s : State} (hs : s.Shape) : (readNode p n s).Shape := by
  unfold readNode
  exact shape_readAs hs

theorem shape_writeNode {p n : Nat} {r : NodeRec} {s : State} (hs : s.Shape) : (writeNode p n r s).Shape := by
  unfold writeNode
  exact shape_memWrite hs

theorem shape_scanDir {p : Nat} {s : State} (hs : s.Shape) : (scanDir p s).Shape := by
  unfold scanDir
  exact shape_foldl (fun _ _ h => shape_readAs h) hs

theorem shape_pruneChecks {p : Nat} {s : State} (hs : s.Shape) : (pruneChecks p s).Shape := by
  unfold pruneChecks
  exact shape_modPort hs

theorem calmAt_fence (p k : Nat) : CalmAt (A.FL_FENCE p k) := calmAt_indexed (Nat.add_assoc _ _ _) rfl

theorem shape_setFence_p {p lo hi reason : Nat} {s : State} (hs : s.Shape) : (setFence p lo hi reason s).2.Shape := by
  unfold setFence
  split
  · exact shape_mark (calm_bits rfl) hs
  · exact shape_pruneChecks (shape_setReg (calmAt_fence _ _) hs)

theorem shape_setFence_t {p lo hi reason : Nat} {s : State} {r0 : Option Nat} {t : State} (he : setFence p lo hi reason s = (r0, t)) (hs : s.Shape) : t.Shape := by
  have k : State.Shape (setFence p lo hi reason s).2 := shape_setFence_p (hs := hs)
  rw [he] at k; exact k

theorem shape_countClass {p : Nat} {c : RxClass} {s : State} (hs : s.Shape) : (countClass p c s).Shape := by
  unfold countClass
  split
  · exact shape_incSat (calm_bits rfl) hs
  · exact shape_incSat (calm_indexed rfl rfl) hs
  · exact shape_incSat (calm_bits rfl) hs
  · exact shape_incSat (calm_bits rfl) hs
  · exact shape_incSat (calm_indexed rfl rfl) hs
  · exact shape_incSat (calm_indexed rfl rfl) hs

theorem shape_tmrEvent {u cond : Nat} {s : State} (hs : s.Shape) : (tmrEvent u cond s).Shape := by
  unfold tmrEvent
  exact shape_ite hs (shape_ite (shape_pmEvent hs) (shape_mark (calm_bits rfl) hs))

theorem calm_tmrOut (u : Nat) (b : Bool) : Calm (tmrOut u b) := by cases b <;> exact .inr (calmAt_indexed rfl rfl)

theorem shape_latchAct {u : Nat} {b : Bool} {code : Nat} {s : State} (hs : s.Shape) : (latchAct u b code s).Shape := by
  unfold latchAct
  exact shape_ite (shape_put (calm_tmrOut u b) hs) (shape_ite (shape_put (calm_tmrOut u b) hs) (shape_ite (shape_put (calm_tmrOut u b) hs) hs))

theorem shape_tmrMatch {u : Nat} {b : Bool} {s : State} (hs : s.Shape) : (tmrMatch u b s).Shape := by
  unfold tmrMatch
  exact shape_tmrEvent (shape_mark (calm_bits rfl) (shape_ite (shape_latchAct hs) hs))

theorem shape_tmrWrap {u : Nat} {s : State} (hs : s.Shape) : (tmrWrap u s).Shape := by
  unfold tmrWrap
  exact shape_ite (shape_wakeRecognised (shape_tmrEvent (shape_ite (shape_wakeNoted (shape_ite (shape_latchAct (shape_ite (shape_latchAct (shape_mark (calm_bits rfl)
    (shape_modTimer hs)))
    (shape_mark (calm_bits rfl) (shape_modTimer hs)))) (shape_ite (shape_latchAct (shape_mark (calm_bits rfl) (shape_modTimer hs))) (shape_mark (calm_bits rfl)
      (shape_modTimer hs))))) (shape_ite (shape_latchAct (shape_ite
    (shape_latchAct (shape_mark (calm_bits rfl) (shape_modTimer hs))) (shape_mark (calm_bits rfl) (shape_modTimer hs)))) (shape_ite (shape_latchAct (shape_mark (calm_bits rfl)
      (shape_modTimer hs))) (shape_mark (calm_bits rfl)
    (shape_modTimer hs))))))) (shape_tmrEvent (shape_ite (shape_wakeNoted (shape_ite (shape_latchAct (shape_ite (shape_latchAct (shape_mark (calm_bits rfl)
      (shape_modTimer hs))) (shape_mark (calm_bits rfl)
    (shape_modTimer hs)))) (shape_ite (shape_latchAct (shape_mark (calm_bits rfl) (shape_modTimer hs))) (shape_mark (calm_bits rfl) (shape_modTimer hs))))) (shape_ite
      (shape_latchAct (shape_ite
    (shape_latchAct (shape_mark (calm_bits rfl) (shape_modTimer hs))) (shape_mark (calm_bits rfl) (shape_modTimer hs)))) (shape_ite (shape_latchAct (shape_mark (calm_bits rfl)
      (shape_modTimer hs))) (shape_mark (calm_bits rfl)
    (shape_modTimer hs))))))

theorem shape_bothCh {f : Bool → State → State} {s : State} (hs : s.Shape) (hf : ∀ b s, s.Shape → (f b s).Shape) : (bothCh f s).Shape := hf _ _ (hf _ _ hs)

theorem shape_tmrGain {u n : Nat} {s : State} (hs : s.Shape) : (tmrGain u n s).Shape := by
  unfold tmrGain
  exact shape_ite (shape_bothCh (shape_tmrWrap (shape_put (calm_indexed rfl rfl) (shape_bothCh hs (fun _ _ h => shape_ite (shape_tmrMatch h) h)))) (fun _ _ h => shape_ite
    (shape_tmrMatch h) h))
    (shape_put (calm_indexed rfl rfl) (shape_bothCh hs (fun _ _ h => shape_ite (shape_tmrMatch h) h)))

theorem shape_tmrStep {u d : Nat} {s : State} (hs : s.Shape) : (tmrStep u d s).Shape := by
  unfold tmrStep
  exact shape_ite (shape_modTimer hs) (shape_tmrGain (shape_modTimer hs))

theorem shape_timerMatch {u : Nat} {b : Bool} {s : State} (hs : s.Shape) : (timerMatch u b s).Shape := by
  unfold timerMatch
  exact shape_ite hs (shape_tmrGain (shape_modTimer hs))

theorem shape_timerWrap {u : Nat} {s : State} (hs : s.Shape) : (timerWrap u s).Shape := by
  unfold timerWrap
  exact shape_ite hs (shape_tmrGain (shape_modTimer hs))

theorem calm_tmrIn (u : Nat) (b : Bool) : Calm (tmrIn u b) := by cases b <;> exact .inr (calmAt_indexed rfl rfl)

theorem shape_levelMoves {u : Nat} {b rising : Bool} {s : State} (hs : s.Shape) : (levelMoves u b rising s).Shape := by
  unfold levelMoves
  have moved := fun f => shape_modTimer (u := u) (f := f) (shape_putB (f := tmrIn u b) (b := rising) (calm_tmrIn u b) hs)
  cases b
  all_goals
    refine shape_ite (moved _) (shape_ite (shape_tmrEvent (shape_mark (calm_bits rfl) ?_)) ?_)
    all_goals exact shape_tmrEvent (shape_mark (calm_bits rfl) (shape_put (calm_indexed rfl rfl) (moved _)))

theorem shape_captureEdge {u : Nat} {b rising : Bool} {s : State} (hs : s.Shape) : (captureEdge u b rising s).Shape := by
  unfold captureEdge
  exact shape_ite hs (shape_ite (shape_modTimer hs) (shape_levelMoves (shape_modTimer hs)))

theorem shape_samplePin {u : Nat} {b : Bool} {s : State} (hs : s.Shape) : (samplePin u b s).Shape := by
  unfold samplePin
  exact shape_ite hs (shape_ite (shape_modTimer hs) (shape_ite (shape_levelMoves hs) (shape_modTimer hs)))

theorem shape_tmrPeriod {u d : Nat} {s : State} (hs : s.Shape) : (tmrPeriod u d s).Shape := by
  unfold tmrPeriod
  exact shape_bothCh (shape_ite (shape_tmrStep hs) hs) (fun _ _ h => shape_samplePin h)

theorem shape_timersTick {s : State} (hs : s.Shape) : (timersTick s).Shape := by
  unfold timersTick
  exact shape_ite (shape_forUpTo (fun _ _ h => shape_tmrPeriod h) hs) (shape_forUpTo (fun _ _ h => shape_ite (shape_ite (shape_tmrPeriod h) h) (shape_tmrPeriod h))
    (shape_mk rfl rfl hs))

theorem shape_captureRead_p {u : Nat} {b : Bool} {s : State} (hs : s.Shape) : (captureRead u b s).2.Shape := by
  cases b <;> exact shape_put (calm_bits rfl) hs

theorem shape_preloadWrite {a : Nat} {v : Word} {s : State} (ha : CalmAt a) (hs : s.Shape) : (preloadWrite a v s).Shape := shape_setReg ha hs

theorem shape_cmpLoad {u : Nat} {b : Bool} {s : State} (hs : s.Shape) : (cmpLoad u b s).Shape := by
  unfold cmpLoad
  exact shape_ite (shape_tmrMatch (shape_modTimer hs)) (shape_modTimer hs)

theorem shape_outputForce {u : Nat} {b : Bool} {code : Nat} {s : State} (hs : s.Shape) : (outputForce u b code s).Shape := by
  unfold outputForce
  exact shape_ite (shape_put (calm_tmrOut u b) hs) (shape_ite (shape_put (calm_tmrOut u b) hs) hs)

theorem shape_timerStart {u : Nat} {s : State} (hs : s.Shape) : (timerStart u s).Shape := by
  unfold timerStart
  exact shape_mark (calm_bits rfl) (shape_modTimer hs)

theorem shape_timerStop {u : Nat} {s : State} (hs : s.Shape) : (timerStop u s).Shape := by
  unfold timerStop
  exact shape_put (calm_bits rfl) hs

theorem shape_timerCmd {u v : Nat} {s : State} (hs : s.Shape) : (timerCmd u v s).Shape := by
  unfold timerCmd
  exact shape_outputForce (shape_outputForce (shape_ite (shape_cmpLoad (shape_ite (shape_cmpLoad hs) hs)) (shape_ite (shape_cmpLoad hs) hs)))

theorem shape_trimResidue {u : Nat} {s : State} (hs : s.Shape) : (trimResidue u s).Shape := by
  unfold trimResidue
  exact shape_modTimer hs

theorem shape_sealRead {c n : Nat} {s : State} (hs : s.Shape) : (sealRead c n s).Shape := by
  unfold sealRead
  exact shape_forUpTo (fun _ _ h => shape_readEffect h) hs

theorem shape_refreshSealed {c : Nat} {s : State} (hs : s.Shape) : (refreshSealed c s).Shape := by
  unfold refreshSealed
  split
  · exact hs
  · exact shape_putB (calm_bits rfl) hs

theorem shape_voidSeal {c : Nat} {s : State} (hs : s.Shape) : (voidSeal c s).Shape := by
  unfold voidSeal
  exact shape_put (calm_bits rfl) (shape_directWrite hs)

theorem shape_discardSeal {c : Nat} {s : State} (hs : s.Shape) : (discardSeal c s).Shape := by
  unfold discardSeal
  dsimp only
  exact shape_mk rfl rfl (shape_voidSeal hs)

theorem load_freshRun (h : Header) (k : Core) : (freshRun h k).load = k.load := by simp [freshRun, Core.load, Nat.add_comm]

theorem load_restoreSeal (b : List Byte) (k : Core) : (restoreSeal b k).load = k.load := by
  have written (n : Nat) (f : Nat → Nat) (g : Nat → Byte) : (forUpTo n (fun i k => k.setPriv (f i) (g i)) k).load = k.load := by
    induction n with
    | zero => rfl
    | succ n ih => exact ih
  exact written _ _ _

theorem shape_startCore {c : Nat} {s : State} (hs : s.Shape) : (startCore c s).Shape := by
  unfold startCore
  split
  · exact hs
  · next k hk =>
    extract_lets h ok n b s1 k1 kr k2 s2 s3 s4 s5
    have fresh : k2.load = k.load := by
      dsimp only [k2]
      split
      · exact (load_restoreSeal b k1).trans (load_freshRun h k)
      · exact load_freshRun h k
    have begun : s2.Shape := shape_modCore (shape_sealRead hs) fun _ _ _ => fresh.trans_le (shape_core hs hk)
    have ready : s3.Shape := shape_put (calm_core rfl rfl) (shape_put (calm_bits rfl) (shape_putDepth (shape_putB (calm_bits rfl) begun) (Nat.zero_le 2)))
    have running : s5.Shape := shape_mark (calm_bits rfl) (shape_put (calm_bits rfl) ready)
    split
    · exact shape_mk rfl rfl (shape_mark (calm_bits rfl) running)
    · exact shape_mk rfl rfl running

theorem shape_coreStart {c : Nat} {s : State} (hs : s.Shape) : (coreStart c s).Shape := by
  unfold coreStart
  split
  · exact hs
  · exact shape_ite hs (shape_ite (shape_mark (calm_bits rfl) hs) (shape_ite (shape_mark (calm_bits rfl) hs) (shape_startCore hs)))

theorem shape_haltRun {c : Nat} {s : State} (hs : s.Shape) : (haltRun c s).Shape := by
  unfold haltRun
  exact shape_put (calm_bits rfl) (shape_cancelSpec hs)

theorem shape_settleStop {c : Nat} {s : State} (hs : s.Shape) : (settleStop c s).Shape := by
  unfold settleStop
  split
  · exact hs
  · exact shape_ite hs (shape_haltRun hs)

theorem shape_coreStop {c : Nat} {s : State} (hs : s.Shape) : (coreStop c s).Shape := by
  unfold coreStop
  exact shape_settleStop (shape_cancelSpec (shape_put (calm_bits rfl) hs))

theorem shape_coreFresh {c : Nat} {s : State} (hs : s.Shape) : (coreFresh c s).Shape := by
  unfold coreFresh
  exact shape_ite (shape_discardSeal hs) hs

theorem shape_coreReset {c : Nat} {s : State} (hs : s.Shape) : (coreReset c s).Shape := by
  unfold coreReset
  split
  · exact hs
  · exact shape_ite (shape_put (calm_bits rfl) (shape_modCore (shape_mk rfl rfl (shape_put (calm_bits rfl) (shape_dropTxn (shape_cancelSpec hs)))) (fun _ _ h => h))) (shape_ite
      (shape_startCore (shape_modCore
      (shape_mk rfl rfl (shape_put (calm_bits rfl) (shape_dropTxn (shape_cancelSpec hs)))) (fun _ _ h => h))) (shape_modCore (shape_mk rfl rfl (shape_put (calm_bits rfl)
        (shape_dropTxn (shape_cancelSpec hs))))
      (fun _ _ h => h)))

theorem shape_loadProgram {c : Nat} {b : List Byte} {s : State} (hs : s.Shape) : (loadProgram c b s).Shape := by
  unfold loadProgram
  exact shape_refreshSealed (shape_put (calm_core rfl rfl) (shape_modCore (shape_ite (shape_voidSeal hs) hs) (fun _ _ h => h)))

theorem shape_coreMemWrite {c : Nat} {v : Byte} {s : State} (hs : s.Shape) : (coreMemWrite c v s).Shape := by
  unfold coreMemWrite
  exact shape_ite (shape_mark (calm_bits rfl) hs) (shape_put (calm_core rfl rfl) (shape_modCore hs fun k _ h => (load_setPriv k _ v).trans_le h))

theorem shape_coreMemRead_p {c : Nat} {s : State} (hs : s.Shape) : (coreMemRead c s).2.Shape := by
  unfold coreMemRead
  dsimp only
  split
  · exact hs
  · exact shape_put (calm_core rfl rfl) hs

end Sys2Proof.Machine

/-!
PROOFS. The operations of the sequencer, the post bus, the rounds, the line, the links and the estate keep the shape of the machine (04, 11).
-/

namespace Sys2Proof.Machine

theorem shape_modSeq {s : State} {f : Sequencer → Sequencer} (hs : s.Shape) : (State.modSeq s f).Shape := by
  unfold State.modSeq
  exact shape_mk rfl rfl hs

theorem shape_modPass {s : State} {p : Nat} {f : Pass → Pass} (hs : s.Shape) : (State.modPass s p f).Shape := by
  unfold State.modPass
  exact shape_modSeq hs

theorem shape_setSlot {bank : Bool} {i v : Nat} {s : State} (hs : s.Shape) : (setSlot bank i v s).Shape := by
  unfold setSlot
  exact shape_modSeq hs

theorem shape_discardBuilt {p : Nat} {drop : Built → Bool} {s : State} (hs : s.Shape) : (discardBuilt p drop s).Shape := by
  unfold discardBuilt
  split
  · exact hs
  · exact shape_incSat (calm_indexed rfl rfl) (shape_modPort hs)

theorem shape_prebuild {p : Nat} {s : State} (hs : s.Shape) : (prebuild p s).Shape := by
  unfold prebuild
  split
  · exact hs
  · exact shape_ite hs (shape_ite hs (shape_modPort hs))

theorem shape_trimBuilt {p : Nat} {s : State} (hs : s.Shape) : (trimBuilt p s).Shape := by
  unfold trimBuilt
  split
  · exact hs
  · exact shape_incSat (calm_indexed rfl rfl) (shape_modPort hs)

theorem shape_loadFigures {p : Nat} {s : State} (hs : s.Shape) : (loadFigures p s).Shape := by
  unfold loadFigures
  exact shape_ite hs (shape_put (calm_indexed rfl rfl) (shape_put (calm_indexed rfl rfl) (shape_put (calm_indexed rfl rfl) (shape_put (calm_indexed rfl rfl) (shape_put
    (calm_indexed rfl rfl) hs)))))

theorem shape_fireSlot {p i v : Nat} {fill : Bool} {s : State} (hs : s.Shape) : (fireSlot p i v fill s).Shape := by
  unfold fireSlot
  split
  · exact hs
  · exact shape_ite (shape_modPass (shape_incSat (calm_indexed rfl rfl) (shape_mark (calm_bits rfl) (shape_put (calm_indexed rfl rfl) (shape_modPort hs))))) (shape_modPass
      (shape_mark (calm_bits rfl) (shape_put (calm_indexed rfl rfl) (shape_modPort hs))))

theorem shape_countWait {p : Nat} {s : State} (hs : s.Shape) : (countWait p s).Shape := by
  unfold countWait
  split
  · exact hs
  · exact shape_modPass (shape_modPort hs)

theorem shape_endWait {p : Nat} {s : State} (hs : s.Shape) : (endWait p s).Shape := by
  unfold endWait
  exact shape_modPort (shape_countWait hs)

theorem shape_beginPass {p : Nat} {s0 : State} (hs0 : s0.Shape) : (beginPass p s0).Shape := by
  unfold beginPass
  exact shape_modPass (shape_discardBuilt (shape_put (calm_bits rfl) (shape_ite (shape_incWrap (calm_indexed rfl rfl) (shape_loadFigures (shape_countWait hs0)))
    (shape_loadFigures (shape_countWait hs0)))))

theorem shape_advanceOne_p {p : Nat} {a : Bool × State} (ha : a.2.Shape) : (advanceOne p a).2.Shape := by
  unfold advanceOne
  dsimp only
  split
  · exact ha
  · split
    · split
      · exact shape_modPass (shape_mark (calm_bits rfl) ha)
      · split
        · exact shape_modPass (shape_incSat (calm_bits rfl) ha)
        · exact shape_fireSlot ha
    · split
      · exact shape_beginPass ha
      · split
        · exact shape_mark (calm_bits rfl) ha
        · split
          · exact shape_modPass (shape_mark (calm_bits rfl) ha)
          · exact shape_fireSlot (shape_modPass (shape_mark (calm_bits rfl) ha))

theorem shape_advanceN {n p : Nat} {s : State} (hs : s.Shape) : (advanceN n p s).Shape := by
  induction n generalizing s with
  | zero => exact hs
  | succ n ih =>
    have k : (advanceOne p (true, s)).2.Shape := shape_advanceOne_p hs
    unfold advanceN
    split
    · exact ih k
    · exact k

theorem shape_advance {p : Nat} {s : State} (hs : s.Shape) : (advance p s).Shape := by
  unfold advance
  exact shape_advanceN hs

theorem shape_advanceAll {s : State} (hs : s.Shape) : (advanceAll s).Shape := by
  unfold advanceAll
  exact shape_forUpTo (fun _ _ h => shape_advance h) hs

theorem shape_abandonPass {p : Nat} {s : State} (hs : s.Shape) : (abandonPass p s).Shape := by
  unfold abandonPass
  exact shape_modPass (shape_put (calm_bits rfl) hs)

theorem shape_portSwap {p : Nat} {s : State} (hs : s.Shape) : (portSwap p s).Shape := by
  unfold portSwap
  exact shape_ite hs (shape_ite (shape_dayPush (shape_put (calm_bits rfl) (shape_putB (calm_fixed rfl) (shape_modPass (shape_put (calm_fixed rfl) (shape_putB (calm_bits rfl)
    (shape_discardBuilt hs))))))) (shape_modPass (shape_put (calm_fixed rfl)
    (shape_putB (calm_bits rfl) (shape_discardBuilt hs)))))

theorem shape_startSwap {s : State} (hs : s.Shape) : (startSwap s).Shape := by
  unfold startSwap
  exact shape_advanceAll (shape_forUpTo (fun _ _ h => shape_ite h (shape_portSwap h)) (shape_put (calm_fixed rfl) (shape_mark (calm_bits rfl) hs)))

theorem shape_applyEdit {i v : Nat} {s : State} (hs : s.Shape) : (applyEdit i v s).Shape := by
  unfold applyEdit
  exact shape_modSeq (shape_put (calm_bits rfl) (shape_setSlot (shape_forUpTo (fun _ _ h => shape_discardBuilt h) hs)))

theorem shape_startEdit {i v : Nat} {s : State} (hs : s.Shape) : (startEdit i v s).Shape := by
  unfold startEdit
  exact shape_ite (shape_modSeq (shape_mark (calm_bits rfl) hs)) (shape_advanceAll (shape_applyEdit hs))

theorem shape_settleEdit {s : State} (hs : s.Shape) : (settleEdit s).Shape := by
  unfold settleEdit
  split
  · exact hs
  · exact shape_ite hs (shape_applyEdit hs)

theorem shape_slotWrite {writer : Nat} {hi : Word} {s : State} (hs : s.Shape) : (slotWrite writer hi s).Shape := by
  unfold slotWrite
  exact shape_ite (shape_refuse hs) (shape_ite (shape_mark (calm_bits rfl) hs) (shape_put (calm_fixed rfl) (shape_setSlot hs)))

theorem shape_pickSlot {s : State} (hs : s.Shape) : (pickSlot s).Shape := by
  unfold pickSlot
  exact shape_modSeq (shape_free_p hs)

theorem shape_slotRead_p {s : State} (hs : s.Shape) : (slotRead s).2.Shape := by
  unfold slotRead
  dsimp only
  exact shape_pickSlot (shape_put (calm_fixed rfl) hs)

theorem shape_ttCopy {s : State} (hs : s.Shape) : (ttCopy s).Shape := by
  unfold ttCopy
  exact shape_ite (shape_mark (calm_bits rfl) hs) (shape_pickSlot (shape_mark (calm_bits rfl) hs))

theorem shape_copyComplete {s : State} (hs : s.Shape) : (copyComplete s).Shape := by
  unfold copyComplete
  exact shape_ite hs (shape_put (calm_bits rfl) (shape_modSeq hs))

theorem shape_ttRunSet {s : State} (hs : s.Shape) : (ttRunSet s).Shape := by
  unfold ttRunSet
  exact shape_advanceAll (shape_mark (calm_bits rfl) hs)

theorem shape_ttRunClear {s : State} (hs : s.Shape) : (ttRunClear s).Shape := by
  unfold ttRunClear
  exact shape_forUpTo (fun _ _ h => shape_abandonPass (shape_discardBuilt h)) (shape_put (calm_bits rfl) hs)

theorem shape_gateAnew {s : State} (hs : s.Shape) : (gateAnew s).Shape := by
  unfold gateAnew
  exact shape_forUpTo (fun _ _ h => shape_modPass h) hs

theorem shape_gateWrite {s : State} (hs : s.Shape) : (gateWrite s).Shape := by
  unfold gateWrite
  exact shape_advanceAll (shape_gateAnew hs)

theorem shape_gateOpen {p : Nat} {s : State} (hs : s.Shape) : (gateOpen p s).Shape := by
  unfold gateOpen
  exact shape_ite hs (shape_advance (shape_modPass hs))

theorem shape_modXchg {s : State} {p : Nat} {f : Exchange → Exchange} (hs : s.Shape) : (State.modXchg s p f).Shape := by
  unfold State.modXchg
  exact shape_modPort hs

theorem shape_modRound {s : State} {p : Nat} {f : Round → Round} (hs : s.Shape) : (State.modRound s p f).Shape := by
  unfold State.modRound
  exact shape_modPort hs

theorem shape_nodeEvent {p kind node : Nat} {s : State} {ep : Nat} (hs : s.Shape) : (nodeEvent p kind node s ep).Shape := by
  unfold nodeEvent
  exact shape_pmEvent hs

theorem shape_stranger {p cls node data : Nat} {s : State} (hs : s.Shape) : (stranger p cls node data s).Shape := by
  unfold stranger
  exact shape_ite (shape_ite (shape_incSat (calm_bits rfl) hs) (shape_ite (shape_incSat (calm_indexed rfl rfl) hs) hs)) (shape_pmEvent (shape_dayPush (shape_put
    (calm_indexed rfl rfl) (shape_put (calm_indexed rfl rfl) (shape_put (calm_bits rfl) (shape_put (calm_bits rfl) (shape_ite
    (shape_incSat (calm_bits rfl) hs) (shape_ite (shape_incSat (calm_indexed rfl rfl) hs) hs))))))))

theorem shape_discardRound {p : Nat} {s : State} (hs : s.Shape) : (discardRound p s).Shape := by
  unfold discardRound
  split
  · exact hs
  · exact shape_modRound (shape_incSat (calm_indexed rfl rfl) hs)

theorem shape_rebuildRound {p : Nat} {n : Option Nat} {s : State} (hs : s.Shape) : (rebuildRound p n s).Shape := by
  unfold rebuildRound
  split
  · exact hs
  · dsimp only
    split
    · exact shape_modPort (shape_modRound (shape_discardRound hs))
    · exact shape_modRound (shape_discardRound hs)

theorem shape_dropUnicasts {p n : Nat} {s : State} (hs : s.Shape) : (dropUnicasts p n s).Shape := by
  unfold dropUnicasts
  exact shape_ite (shape_put (calm_bits rfl) (shape_modPort hs)) (shape_modPort hs)

theorem shape_quarantine {p n : Nat} {s : State} (hs : s.Shape) : (quarantine p n s).Shape := by
  unfold quarantine
  exact shape_ite (shape_incSat (calm_fixed rfl) (shape_modBack (shape_dropUnicasts (shape_pruneChecks (shape_rebuildRound (shape_discardBuilt (shape_writeNode hs)))))))
    (shape_dropUnicasts
    (shape_pruneChecks (shape_rebuildRound (shape_discardBuilt (shape_writeNode hs)))))

theorem shape_raiseCheck {p n : Nat} {dup restarted : Bool} {s : State} (hs : s.Shape) : (raiseCheck p n dup restarted s).Shape := by
  unfold raiseCheck
  exact shape_ite hs (shape_modPort hs)

theorem shape_followUp {p : Nat} {c : LineCmd} {s : State} (hs : s.Shape) : (followUp p c s).Shape := by
  unfold followUp
  exact shape_ite hs (shape_modPort hs)

theorem shape_unknownStranger {p n : Nat} {s : State} (hs : s.Shape) : (unknownStranger p n s).Shape := by
  unfold unknownStranger
  refine shape_ite (shape_stranger hs) ?_
  split
  · exact shape_followUp (shape_stranger hs)
  · exact shape_followUp (shape_stranger hs)
  · exact shape_stranger hs

theorem shape_impostor {p n data : Nat} {s : State} (hs : s.Shape) : (impostor p n data s).Shape := by
  unfold impostor
  exact shape_ite (shape_quarantine (shape_stranger hs)) (shape_ite (shape_followUp (shape_writeNode (shape_stranger hs))) (shape_stranger hs))

theorem shape_authStranger {p n : Nat} {s : State} (hs : s.Shape) : (authStranger p n s).Shape := by
  unfold authStranger
  exact shape_ite (shape_quarantine (shape_stranger (shape_writeNode hs))) (shape_stranger (shape_writeNode hs))

theorem shape_energyStranger {p : Nat} {s : State} (hs : s.Shape) : (energyStranger p s).Shape := by
  unfold energyStranger
  exact shape_stranger hs

theorem shape_fenceReturn {p n : Nat} {s : State} (hs : s.Shape) : (fenceReturn p n s).Shape := by
  unfold fenceReturn
  exact shape_foldl (fun _ _ h => shape_ite (shape_nodeEvent (shape_put (calm_bits rfl) h)) h) hs

theorem shape_goodFrom {p n : Nat} {s : State} (hs : s.Shape) : (goodFrom p n s).Shape := by
  unfold goodFrom
  exact shape_fenceReturn (shape_ite hs (shape_writeNode hs))

theorem shape_beginNode {p : Nat} {t : NodeTxn} {w : NodeTodo} {s : State} (hs : s.Shape) : (beginNode p t w s).Shape := by
  unfold beginNode
  extract_lets u s1 s2 s3
  have h1 : s1.Shape := shape_memWrite (shape_txnOpen hs)
  have h2 : s2.Shape := shape_ite h1 (shape_forUpTo (fun _ _ hs => shape_memWrite hs) h1)
  have h3 : s3.Shape := shape_modTxn h2
  exact shape_modPort (shape_txnCommit h3)

theorem shape_tryNode {p : Nat} {s : State} (hs : s.Shape) : (tryNode p s).Shape := by
  unfold tryNode
  split
  · exact hs
  · split
    · exact hs
    · exact shape_ite (shape_beginNode (shape_issueRange hs)) (shape_issueRange hs)

theorem shape_retryNodes {s : State} (hs : s.Shape) : (retryNodes s).Shape := by
  unfold retryNodes
  exact shape_forUpTo (fun _ _ h => shape_tryNode h) hs

theorem shape_nodeTxn {p n : Nat} {r : NodeRec} {edit : EntryEdit} {count : Nat} {event : Option Nat} {s : State} (hs : s.Shape) : (nodeTxn p n r edit count event s).Shape := by
  unfold nodeTxn
  exact shape_tryNode (shape_modPort hs)

theorem shape_nodeCommitted {p : Nat} {s : State} (hs : s.Shape) : (nodeCommitted p s).Shape := by
  unfold nodeCommitted
  split
  · exact hs
  · dsimp only
    split
    · exact shape_modPort hs
    · exact shape_nodeEvent (shape_ite (shape_dayPush (shape_modPort hs)) (shape_modPort hs))

theorem shape_enrolDone {p n typ ver points : Nat} {kept : Option (Nat × Nat)} {s : State} (hs : s.Shape) : (enrolDone p n typ ver points kept s).Shape := by
  unfold enrolDone
  exact shape_nodeTxn hs

theorem shape_setWait {p : Nat} {s : State} (hs : s.Shape) : (setWait p s).Shape := by
  unfold setWait
  exact shape_modPort hs

theorem shape_finishRound {p : Nat} {s : State} (hs : s.Shape) : (finishRound p s).Shape := by
  unfold finishRound
  split
  · exact shape_ite hs (shape_modRound hs)
  · exact hs

theorem shape_letterboxOver {p n total : Nat} {s : State} (hs : s.Shape) : (letterboxOver p n total s).Shape := by
  unfold letterboxOver
  exact shape_finishRound (shape_ite (shape_put (calm_bits rfl) (shape_put (calm_bits rfl) hs)) (shape_mark (calm_bits rfl) (shape_put (calm_bits rfl) hs)))

theorem shape_clearStacks {p : Nat} {s : State} (hs : s.Shape) : (clearStacks p s).Shape := by
  unfold clearStacks
  exact shape_modPort (shape_put (calm_bits rfl) hs)

theorem shape_maintStep {p : Nat} {r : Round} {s0 : State} (hs : s0.Shape) : (maintStep p r s0).Shape := by
  unfold maintStep
  extract_lets s
  have pruned : s.Shape := shape_pruneChecks hs
  clear_value s
  split
  · exact shape_ite (shape_modPort (shape_modRound pruned)) (shape_modRound pruned)
  · split
    · exact shape_ite (shape_modRound pruned) (shape_ite (shape_modPort (shape_readNode (shape_modRound pruned))) (shape_put (calm_bits rfl) (shape_readNode
        (shape_modRound pruned))))
    · split
      · extract_lets s1
        have scanned : s1.Shape := shape_scanDir (shape_modPort (shape_modRound pruned))
        split
        · exact shape_modPort scanned
        · exact scanned
      · exact shape_finishRound pruned

theorem shape_proceedOne {p : Nat} {s : State} (hs : s.Shape) : (proceedOne p s).Shape := by
  unfold proceedOne
  split
  · exact hs
  · split
    · exact hs
    · refine shape_ite hs ?_
      split
      · split
        · exact shape_finishRound hs
        · exact shape_modPort hs
      · split
        · exact shape_finishRound hs
        · exact shape_modPort hs
      · split
        · exact shape_letterboxOver hs
        · exact shape_ite (shape_letterboxOver hs) (shape_modPort hs)
      · split
        · exact shape_finishRound hs
        · exact shape_ite (shape_finishRound hs) (shape_modPort hs)
      · exact shape_maintStep hs

theorem shape_enrolStop {p : Nat} {s : State} (hs : s.Shape) : (enrolStop p s).Shape := by
  unfold enrolStop
  split
  · exact hs
  · split
    · exact hs
    · exact shape_ite (shape_finishRound (shape_modPort hs)) hs

theorem shape_proceed {p : Nat} {s : State} (hs : s.Shape) : (proceed p s).Shape := by
  unfold proceed
  exact shape_setWait (shape_iter (fun _ h => shape_proceedOne h) (shape_enrolStop hs))

theorem shape_beginRound {p : Nat} {k : RoundKind} {s : State} (hs : s.Shape) : (beginRound p k s).Shape := by
  unfold beginRound
  split
  · exact hs
  · split
    · exact hs
    · refine shape_ite hs (shape_proceed ?_)
      split
      · exact shape_ite (shape_modPort (shape_modRound hs)) (shape_modRound hs)
      · exact shape_ite (shape_modPort (shape_modRound hs)) (shape_modRound hs)
      · exact shape_modRound (shape_modRound hs)
      · exact shape_modRound hs

theorem shape_walkEnd {p : Nat} {s : State} (hs : s.Shape) : (walkEnd p s).Shape := by
  unfold walkEnd
  exact shape_advance (shape_proceed (shape_modPort (shape_put (calm_bits rfl) hs)))

theorem shape_walkStep {p n : Nat} {stage : WalkStage} {c : LineCmd} {s : State} (hs : s.Shape) : (walkStep p n stage c s).Shape := by
  unfold walkStep
  exact shape_setWait (shape_modPort hs)

theorem shape_walkFrom {p from_ : Nat} {s : State} (hs : s.Shape) : (walkFrom p from_ s).Shape := by
  unfold walkFrom
  split
  · exact shape_walkEnd hs
  · exact shape_ite (shape_walkEnd hs) (shape_advance (shape_walkStep (shape_mark (calm_bits rfl) hs)))

theorem shape_walkTo {p from_ : Nat} {s : State} (hs : s.Shape) : (walkTo p from_ s).Shape := by
  unfold walkTo
  exact shape_walkFrom (shape_scanDir hs)

theorem shape_walkOut {p : Nat} {s0 : State} (hs0 : s0.Shape) : (walkOut p s0).Shape := by
  unfold walkOut
  exact shape_ite (shape_advance (shape_proceed (shape_scanDir hs0))) (shape_walkFrom (shape_scanDir hs0))

theorem shape_walkPinged {p n : Nat} {good : Bool} {s : State} (hs : s.Shape) : (walkPinged p n good s).Shape := by
  unfold walkPinged
  exact shape_ite (shape_walkEnd (shape_setFence_p hs)) (shape_ite (shape_walkEnd hs) (shape_walkStep hs))

theorem shape_closeWaitExpiry {p : Nat} {s : State} (hs : s.Shape) : (closeWaitExpiry p s).Shape := by
  unfold closeWaitExpiry
  split
  · split
    · refine shape_ite (shape_walkEnd hs) ?_
      split
      · next he => exact shape_walkEnd (shape_setFence_t he hs)
      · next he => exact shape_modPort (shape_setFence_t he hs)
    · exact shape_walkTo hs
  · exact hs

theorem shape_frameSend {p : Nat} {s0 : State} (hs : s0.Shape) : (frameSend p s0).Shape := by
  unfold frameSend
  extract_lets s keyed fresh s1 s2
  have tried : s.Shape := shape_tryNode hs
  split
  · exact tried
  · split
    · exact tried
    · refine shape_ite tried ?_
      extract_lets x s3
      have h1 : s1.Shape := shape_put (calm_indexed rfl rfl) tried
      have stored : s2.Shape := shape_ite (shape_storeRecord h1) h1
      have begun : s3.Shape := by
        dsimp only [s3]
        split
        all_goals first | exact stored | exact shape_modRound stored
      exact shape_modPort (shape_put (calm_bits rfl) (shape_mark (calm_bits rfl) begun))

theorem shape_lineTick {p : Nat} {s : State} (hs : s.Shape) : (lineTick p s).Shape := by
  unfold lineTick
  split
  · exact hs
  · exact shape_ite hs (shape_ite (shape_modPort hs) (shape_modPort hs))

theorem shape_linesTick {s : State} (hs : s.Shape) : (linesTick s).Shape := by
  unfold linesTick
  exact shape_ite (shape_forUpTo (fun _ _ h => shape_lineTick h) hs) hs

theorem shape_lineStep {p : Nat} {from_ to_ : LineStage} {s : State} (hs : s.Shape) : (lineStep p from_ to_ s).Shape := by
  unfold lineStep
  split
  · exact hs
  · exact shape_ite (shape_modPort hs) hs

theorem shape_nodeMissing {p : Nat} {s : State} (hs : s.Shape) : (nodeMissing p s).Shape := by
  unfold nodeMissing
  split
  · exact shape_ite hs (shape_modXchg (shape_incSat (calm_indexed rfl rfl) hs))
  · exact hs

theorem shape_acceptReply {p k pf pn : Nat} {h : HeardReply} {pm : Nat} {s : State} (hs : s.Shape) : (acceptReply p k pf pn h pm s).Shape := by
  unfold acceptReply
  exact shape_ite (shape_ite (shape_incSat (calm_bits rfl) hs) (shape_ite (shape_raiseCheck hs) (shape_unknownStranger hs))) (shape_ite (shape_incSat (calm_indexed rfl rfl)
    (shape_raiseCheck hs)) (shape_ite
    (shape_incSat (calm_indexed rfl rfl) (shape_raiseCheck hs)) (shape_ite (shape_incSat (calm_bits rfl) hs) (shape_modPort hs))))

theorem shape_matchReply {p k : Nat} {x : Exchange} {cls : RxClass} {h : HeardReply} {pm : Nat} {s : State} (hs : s.Shape) : (matchReply p k x cls h pm s).Shape := by
  unfold matchReply
  dsimp only
  split
  · refine shape_ite (shape_ite (shape_raiseCheck (shape_goodFrom (shape_ite (shape_readNode hs) (shape_readNode (shape_readNode hs))))) (shape_ite (shape_incSat (calm_bits rfl)
      (shape_goodFrom (shape_ite (shape_readNode hs) (shape_readNode (shape_readNode hs))))) (shape_unknownStranger (shape_goodFrom (shape_ite (shape_readNode hs)
      (shape_readNode (shape_readNode hs))))))) ?_
    split
    · exact shape_acceptReply (shape_ite (shape_nodeEvent (shape_modPort (shape_goodFrom (shape_ite (shape_readNode hs) (shape_readNode (shape_readNode hs))))))
        (shape_goodFrom (shape_ite (shape_readNode hs) (shape_readNode (shape_readNode hs)))))
    · exact shape_modXchg (shape_ite (shape_nodeEvent (shape_modPort (shape_goodFrom (shape_ite (shape_readNode hs) (shape_readNode (shape_readNode hs)))))) (shape_goodFrom
        (shape_ite (shape_readNode hs) (shape_readNode (shape_readNode hs)))))
  · exact shape_ite (shape_authStranger (shape_readNode hs)) (shape_readNode hs)
  · exact shape_modXchg (shape_readNode hs)
  · exact shape_modXchg (shape_readNode hs)
  · exact shape_readNode hs

theorem shape_outOfWindow {p : Nat} {cls : RxClass} {n : Nat} {s : State} (hs : s.Shape) : (outOfWindow p cls n s).Shape := by
  unfold outOfWindow
  exact shape_ite (shape_fenceReturn (shape_incSat (calm_indexed rfl rfl) hs)) (shape_incSat (calm_indexed rfl rfl) hs)

theorem shape_burstInExchange {p : Nat} {x : Exchange} {cls : RxClass} {b : Heard} {pm : Nat} {s : State} (hs : s.Shape) : (burstInExchange p x cls b pm s).Shape := by
  unfold burstInExchange
  refine shape_ite ?_ ?_
  · dsimp only
    split
    · exact shape_ite (shape_authStranger (shape_readNode (shape_modXchg hs))) (shape_modXchg hs)
    · exact shape_ite (shape_goodFrom (shape_readNode (shape_modXchg hs))) (shape_modXchg hs)
    · exact shape_modXchg hs
  · split
    · exact hs
    · exact shape_ite (shape_matchReply (shape_modXchg hs)) (shape_outOfWindow hs)

theorem shape_takeBurst_p {p : Nat} {q : Port} {b : Heard} {s : State} (hs : s.Shape) : (takeBurst p q b s).2.Shape := by
  unfold takeBurst
  dsimp only
  split
  · exact shape_countClass hs
  · refine shape_ite (shape_proceed ?_) ?_
    · split
      · refine shape_burstInExchange ?_
        split
        · exact shape_ite (shape_mark (calm_bits rfl) (shape_energyStranger (shape_modRound (shape_countClass hs)))) (shape_energyStranger (shape_modRound (shape_countClass hs)))
        · exact shape_modPort (shape_stranger (shape_countClass hs))
        · exact shape_countClass hs
      · refine shape_ite (shape_outOfWindow ?_) ?_
        · split
          · exact shape_ite (shape_mark (calm_bits rfl) (shape_energyStranger (shape_modRound (shape_countClass hs)))) (shape_energyStranger (shape_modRound
              (shape_countClass hs)))
          · exact shape_modPort (shape_stranger (shape_countClass hs))
          · exact shape_countClass hs
        · split
          · exact shape_ite (shape_mark (calm_bits rfl) (shape_energyStranger (shape_modRound (shape_countClass hs)))) (shape_energyStranger (shape_modRound
              (shape_countClass hs)))
          · exact shape_modPort (shape_stranger (shape_countClass hs))
          · exact shape_countClass hs
    · split
      · refine shape_burstInExchange ?_
        split
        · exact shape_ite (shape_mark (calm_bits rfl) (shape_energyStranger (shape_modRound (shape_countClass hs)))) (shape_energyStranger (shape_modRound (shape_countClass hs)))
        · exact shape_modPort (shape_stranger (shape_countClass hs))
        · exact shape_countClass hs
      · refine shape_ite (shape_outOfWindow ?_) ?_
        · split
          · exact shape_ite (shape_mark (calm_bits rfl) (shape_energyStranger (shape_modRound (shape_countClass hs)))) (shape_energyStranger (shape_modRound
              (shape_countClass hs)))
          · exact shape_modPort (shape_stranger (shape_countClass hs))
          · exact shape_countClass hs
        · split
          · exact shape_ite (shape_mark (calm_bits rfl) (shape_energyStranger (shape_modRound (shape_countClass hs)))) (shape_energyStranger (shape_modRound
              (shape_countClass hs)))
          · exact shape_modPort (shape_stranger (shape_countClass hs))
          · exact shape_countClass hs

theorem shape_classPending_p {p : Nat} {s : State} (hs : s.Shape) : (classPending p s).2.Shape := by
  unfold classPending
  dsimp only
  split
  · exact hs
  · split
    · exact hs
    · split
      · exact hs
      · split
        · exact shape_modPort (shape_takeBurst_p hs)
        · split
          · exact shape_modPort (shape_put (calm_bits rfl) (shape_takeBurst_p hs))
          · exact shape_modPort (shape_takeBurst_p hs)

theorem shape_classPending_t {p : Nat} {s : State} {r0 : Bool} {t : State} (he : classPending p s = (r0, t)) (hs : s.Shape) : t.Shape := by
  have k : State.Shape (classPending p s).2 := shape_classPending_p (hs := hs)
  rw [he] at k; exact k

theorem shape_classBursts {f p : Nat} {s : State} (hs : s.Shape) : (classBursts f p s).Shape := by
  induction f generalizing s with
  | zero => exact hs
  | succ f ih =>
    unfold classBursts
    rcases h1 : classPending p s with ⟨b, s1⟩
    have k := shape_classPending_t h1 hs
    dsimp only
    split
    · exact ih k
    · exact k

theorem shape_burstReceived {p : Nat} {b : Burst} {s : State} (hs : s.Shape) : (burstReceived p b s).Shape := by
  unfold burstReceived
  split
  · exact hs
  · exact shape_ite hs (shape_ite hs (shape_classBursts (shape_modPort (shape_mark (calm_bits rfl) (shape_put (calm_bits rfl) hs)))))

theorem shape_quietEnds {p : Nat} {s : State} (hs : s.Shape) : (quietEnds p s).Shape := by
  unfold quietEnds
  split
  · exact hs
  · exact shape_classBursts (shape_modPort hs)

theorem shape_lineQuiet {p : Nat} {s0 : State} (hs0 : s0.Shape) : (lineQuiet p s0).Shape := by
  unfold lineQuiet
  refine shape_put (calm_bits rfl) (shape_mark (calm_bits rfl) (shape_modPort ?_))
  dsimp only
  split
  · exact shape_quietEnds hs0
  · split
    · exact shape_quietEnds hs0
    · exact shape_takeBurst_p (shape_quietEnds hs0)

theorem shape_reportOf_p {h : HeardReply} {s : State} (hs : s.Shape) : (reportOf h s).2.Shape := by
  unfold reportOf
  dsimp only
  exact shape_ite hs (shape_free_p hs)

theorem shape_takeReport {p : Nat} {h : HeardReply} {kind point v : Nat} {s0 : State} (hs0 : s0.Shape) : (takeReport p h kind point v s0).Shape := by
  unfold takeReport
  exact shape_ite (shape_ite (shape_readNode hs0) (shape_unknownStranger (shape_readNode hs0))) (shape_modPort (shape_ite (shape_readNode hs0) (shape_unknownStranger
    (shape_readNode hs0))))

theorem shape_letterboxEnd {p l pre : Nat} {o : Outcome} {s : State} (hs : s.Shape) : (letterboxEnd p l pre o s).Shape := by
  unfold letterboxEnd
  dsimp only
  split
  · exact shape_modPort (shape_modRound hs)
  · exact shape_modPort (shape_takeReport (shape_reportOf_p (shape_modPort (shape_modRound hs))))
  · exact shape_ite (shape_modPort (shape_modPort (shape_modRound hs))) (shape_raiseCheck (shape_readNode (shape_modPort (shape_modRound hs))))

theorem shape_cutReports {p : Nat} {s : State} (hs : s.Shape) : (cutReports p s).Shape := by
  unfold cutReports
  exact shape_modPort hs

theorem shape_ackEnd {p l pre n kind point v : Nat} {good : Bool} {s : State} (hs : s.Shape) : (ackEnd p l pre n kind point v good s).Shape := by
  unfold ackEnd
  exact shape_ite (shape_modPort (shape_modPort hs)) (shape_modPort hs)

theorem shape_enrolSingle {p l pre ser : Nat} {s : State} (hs : s.Shape) : (enrolSingle p l pre ser s).Shape := by
  unfold enrolSingle
  extract_lets s0
  have scanned : s0.Shape := shape_scanDir hs
  split
  · exact shape_finishRound (shape_modPort (shape_mark (calm_indexed rfl rfl) scanned))
  · exact shape_modPort (shape_writeNode scanned)

theorem shape_searchEnd {p l pre : Nat} {o : Outcome} {s : State} (hs : s.Shape) : (searchEnd p l pre o s).Shape := by
  unfold searchEnd
  dsimp only
  split
  · exact shape_modRound hs
  · exact shape_enrolSingle (shape_modRound hs)
  · exact shape_ite (shape_modPort (shape_modRound hs)) (shape_impostor (shape_modRound hs))

theorem shape_enrolEnd {p l pre ser : Nat} {assigned : Bool} {kept : Option (Nat × Nat)} {x : Exchange} {s : State} (hs : s.Shape) :
    (enrolEnd p l pre ser assigned kept x s).Shape := by
  unfold enrolEnd
  split
  · exact shape_ite (shape_ite (shape_modPort hs) hs) (shape_modPort hs)
  · refine shape_ite (shape_modPort ?_) ?_
    · split
      · exact hs
      · exact shape_ite hs (shape_ite (shape_impostor (shape_readNode hs)) (shape_ite (shape_enrolDone (shape_readNode hs)) hs))
    · split
      · exact hs
      · exact shape_ite hs (shape_ite (shape_impostor (shape_readNode hs)) (shape_ite (shape_enrolDone (shape_readNode hs)) hs))
  · exact hs

theorem shape_checkEnd {p n : Nat} {x : Exchange} {s : State} (hs : s.Shape) : (checkEnd p n x s).Shape := by
  unfold checkEnd
  extract_lets s1 c served r s2 s3 blocked
  have read : s1.Shape := shape_readNode hs
  have serves : ∀ t, t.Shape → (served t).Shape := fun t h => shape_modPort h
  clear_value s1
  split
  · refine shape_ite read (shape_ite (serves _ (shape_impostor read)) (shape_ite (serves _ (shape_enrolDone read)) (shape_ite ?_ (serves _ (shape_nodeTxn read)))))
    have followed : s3.Shape := shape_ite (shape_nodeEvent (shape_followUp (serves _ read))) (serves _ read)
    exact shape_ite (shape_followUp followed) followed
  · exact shape_ite (serves _ (shape_impostor read)) (shape_ite read (shape_incSat (calm_indexed rfl rfl) read))

theorem shape_boxEnd {p : Nat} {x : Exchange} {s : State} (hs : s.Shape) : (boxEnd p x s).Shape := by
  unfold boxEnd
  split
  · exact shape_put (calm_bits rfl) hs
  · exact shape_ite (shape_put (calm_bits rfl) (shape_nodeTxn (shape_readNode hs))) (shape_put (calm_bits rfl) hs)
  · exact shape_put (calm_bits rfl) hs

theorem shape_dupWatch {p : Nat} {x : Exchange} {s : State} (hs : s.Shape) : (dupWatch p x s).Shape := by
  unfold dupWatch
  dsimp only
  split
  · exact shape_ite (shape_raiseCheck (shape_readNode (shape_modPort (shape_modPort hs)))) (shape_modPort (shape_modPort hs))
  · exact shape_modPort hs

theorem shape_noteMissing {p : Nat} {x : Exchange} {s : State} (hs : s.Shape) : (noteMissing p x s).Shape := by
  unfold noteMissing
  exact shape_modPort (shape_modRound hs)

theorem shape_exchangeAfter {p : Nat} {x : Exchange} {cut : Bool} {s : State} (hs : s.Shape) : (exchangeAfter p x cut s).Shape := by
  unfold exchangeAfter
  split
  · exact shape_dupWatch (shape_noteMissing hs)
  · exact shape_letterboxEnd hs
  · exact shape_searchEnd hs
  · exact shape_ackEnd hs
  · exact shape_enrolEnd hs
  · exact shape_checkEnd hs
  · exact shape_boxEnd hs
  · exact shape_walkPinged hs
  · exact shape_modPort hs
  · exact hs

theorem shape_stopPort {p : Nat} {s : State} (hs : s.Shape) : (stopPort p s).Shape := by
  unfold stopPort
  exact shape_finishRound (shape_modPort (shape_clearStacks (shape_cutReports (shape_put (calm_bits rfl) hs))))

theorem shape_endExchange {p : Nat} {cut : Bool} {s : State} (hs : s.Shape) : (endExchange p cut s).Shape := by
  unfold endExchange
  split
  · exact shape_ite (shape_ite (shape_walkOut (shape_stopPort (shape_exchangeAfter (shape_ite (shape_incSat (calm_bits rfl) (shape_energyStranger (shape_modPort (shape_put
      (calm_bits rfl) hs))))
      (shape_modPort (shape_put (calm_bits rfl) hs)))))) (shape_stopPort (shape_exchangeAfter (shape_ite (shape_incSat (calm_bits rfl) (shape_energyStranger (shape_modPort
        (shape_put (calm_bits rfl) hs)))) (shape_modPort
      (shape_put (calm_bits rfl) hs)))))) (shape_advance (shape_proceed (shape_exchangeAfter (shape_ite (shape_incSat (calm_bits rfl) (shape_energyStranger (shape_modPort
        (shape_put (calm_bits rfl) hs)))) (shape_modPort
      (shape_put (calm_bits rfl) hs))))))
  · exact hs

theorem shape_exchangeEnd {p : Nat} {s : State} (hs : s.Shape) : (exchangeEnd p s).Shape := by
  unfold exchangeEnd
  split
  · exact shape_ite (shape_endExchange hs) hs
  · exact hs

theorem shape_exchangeCutOff {p : Nat} {s : State} (hs : s.Shape) : (exchangeCutOff p s).Shape := by
  unfold exchangeCutOff
  split
  · exact shape_ite (shape_endExchange hs) hs
  · exact hs

theorem shape_commandWaitEnd {p : Nat} {s : State} (hs : s.Shape) : (commandWaitEnd p s).Shape := by
  unfold commandWaitEnd
  exact shape_ite hs (shape_endWait hs)

theorem shape_abandonExchange {p : Nat} {s : State} (hs : s.Shape) : (abandonExchange p s).Shape := by
  unfold abandonExchange
  split
  · exact hs
  · refine shape_modPort (shape_clearStacks (shape_cutReports (shape_discardRound (shape_discardBuilt (shape_put (calm_bits rfl) (shape_put (calm_bits rfl) ?_))))))
    split
    · exact shape_ite (shape_put (calm_bits rfl) hs) hs
    · exact hs

theorem shape_lineFault {p : Nat} {s : State} (hs : s.Shape) : (lineFault p s).Shape := by
  unfold lineFault
  split
  · exact hs
  · dsimp only
    split
    · exact shape_walkPinged (shape_pmEvent (shape_modPort (shape_mark (calm_bits rfl) (shape_mark (calm_bits rfl) (shape_abandonExchange hs)))))
    · exact shape_modPort (shape_pmEvent (shape_modPort (shape_mark (calm_bits rfl) (shape_mark (calm_bits rfl) (shape_abandonExchange hs)))))
    · exact shape_pmEvent (shape_modPort (shape_mark (calm_bits rfl) (shape_mark (calm_bits rfl) (shape_abandonExchange hs))))
    · exact shape_finishRound (shape_mark (calm_bits rfl) (shape_pmEvent (shape_modPort (shape_mark (calm_bits rfl) (shape_mark (calm_bits rfl) (shape_abandonExchange hs))))))

theorem shape_releaseHeld {p : Nat} {s : State} (hs : s.Shape) : (releaseHeld p s).Shape := by
  unfold releaseHeld
  exact shape_ite (shape_walkOut (shape_modPort (shape_put (calm_bits rfl) hs))) (shape_modPort (shape_put (calm_bits rfl) hs))

theorem shape_lineFaultCleared {p : Nat} {s : State} (hs : s.Shape) : (lineFaultCleared p s).Shape := by
  unfold lineFaultCleared
  split
  · exact hs
  · dsimp only
    split
    · exact shape_walkTo (shape_modPort (shape_put (calm_bits rfl) hs))
    · exact shape_ite (shape_releaseHeld (shape_modPort (shape_put (calm_bits rfl) hs))) (shape_modPort (shape_put (calm_bits rfl) hs))

theorem shape_autoRestart {p : Nat} {s : State} (hs : s.Shape) : (autoRestart p s).Shape := by
  unfold autoRestart
  exact shape_ite (shape_releaseHeld hs) hs

theorem shape_portRestart {p : Nat} {s : State} (hs : s.Shape) : (portRestart p s).Shape := by
  unfold portRestart
  exact shape_ite hs (shape_ite (shape_releaseHeld hs) (shape_modPort hs))

theorem shape_portEnable {p : Nat} {s : State} (hs : s.Shape) : (portEnable p s).Shape := by
  unfold portEnable
  exact shape_ite (shape_ite (shape_ite hs (shape_mark (calm_bits rfl) hs)) (shape_mark (calm_bits rfl) (shape_ite hs (shape_mark (calm_bits rfl) hs)))) (shape_ite (shape_mark
    (calm_bits rfl) (shape_ite (shape_ite hs (shape_mark (calm_bits rfl) hs))
    (shape_mark (calm_bits rfl) (shape_ite hs (shape_mark (calm_bits rfl) hs))))) (shape_walkOut (shape_mark (calm_bits rfl) (shape_ite (shape_ite hs (shape_mark
      (calm_bits rfl) hs)) (shape_mark (calm_bits rfl) (shape_ite hs (shape_mark (calm_bits rfl) hs)))))))

theorem shape_portDisable {p : Nat} {s : State} (hs : s.Shape) : (portDisable p s).Shape := by
  unfold portDisable
  exact shape_ite (shape_modPort (shape_clearStacks (shape_abandonPass (shape_discardRound (shape_discardBuilt (shape_put (calm_bits rfl) hs)))))) (shape_stopPort
    (shape_abandonPass
    (shape_discardRound (shape_discardBuilt (shape_put (calm_bits rfl) hs)))))

theorem shape_fenceWrite {writer p k : Nat} {v : Word} {s : State} (hs : s.Shape) : (fenceWrite writer p k v s).Shape := by
  unfold fenceWrite
  exact shape_ite (shape_refuse hs) (shape_pruneChecks (shape_setReg (calmAt_fence p k) hs))

theorem shape_mailboxWrite {p : Nat} {v : Word} {s : State} (hs : s.Shape) : (mailboxWrite p v s).Shape := by
  unfold mailboxWrite
  exact shape_ite (shape_mark (calm_bits rfl) hs) (shape_setReg (calmAt_indexed rfl rfl) hs)

theorem shape_noteAbsent {p n : Nat} {s0 : State} (hs : s0.Shape) : (noteAbsent p n s0).Shape := by
  rw [noteAbsent]
  have read := shape_readNode (p := p) (n := n) hs
  generalize readNode p n s0 = s at read ⊢
  split
  · exact read
  · exact shape_ite (shape_modPort read) (shape_ite (shape_nodeEvent (shape_dayPush (shape_modPort (shape_mark (calm_bits rfl) (shape_modPort read))))) (shape_modPort read))

theorem shape_autoFence {p : Nat} {s0 : State} (hs : s0.Shape) : (autoFence p s0).Shape := by
  unfold autoFence
  refine shape_ite hs (shape_foldl (fun s r hs => shape_ite hs ?_) (shape_scanDir hs))
  split
  · next he => exact shape_pmEvent (shape_setFence_t he hs)
  · next he => exact shape_setFence_t he hs

theorem shape_roundBoundary {p : Nat} {s : State} (hs : s.Shape) : (roundBoundary p s).Shape := by
  unfold roundBoundary
  split
  · split
    · exact hs
    · exact shape_ite hs (shape_advanceAll (shape_portSwap (shape_settleEdit (shape_modPass (shape_modPort (shape_put (calm_bits rfl) (shape_incWrap (calm_bits rfl) (shape_ite
        (shape_put (calm_bits rfl) (shape_ite
        (shape_autoFence (shape_foldl (fun _ _ h => shape_noteAbsent h) (shape_retryNodes (shape_endBack hs)))) (shape_retryNodes (shape_endBack hs)))) (shape_ite
        (shape_autoFence (shape_foldl (fun _ _ h => shape_noteAbsent h) (shape_retryNodes (shape_endBack hs)))) (shape_retryNodes (shape_endBack hs)))))))))))
  · exact hs

theorem shape_trendReading {p : Nat} {s : State} (hs : s.Shape) : (trendReading p s).Shape := by
  unfold trendReading
  split
  · exact hs
  · split
    · exact hs
    · exact shape_ite hs (shape_retryNodes (shape_acceptReading (shape_modPort hs)))

theorem shape_trendReport {p : Nat} {s : State} (hs : s.Shape) : (trendReport p s).Shape := by
  unfold trendReport
  split
  · exact hs
  · split
    · exact hs
    · exact shape_ite hs (shape_fieldReport (shape_modPort hs))

theorem shape_chkWriter_p {writer : Nat} {s : State} (hs : s.Shape) : (chkWriter writer s).2.Shape := by
  unfold chkWriter
  dsimp only
  split
  · exact hs
  · exact shape_free_p hs

theorem shape_checkRefused {test writer addr : Nat} {s0 : State} (hs0 : s0.Shape) : (checkRefused test writer addr s0).Shape := by
  unfold checkRefused
  exact shape_dayPush (shape_put (calm_fixed rfl) (shape_put (calm_fixed rfl) (shape_put (calm_fixed rfl) (shape_mark (calm_bits rfl) (shape_chkWriter_p hs0)))))

theorem shape_checked {writer addr : Nat} {after : State} {commit refused : State → State} {s : State} (hs : s.Shape) (hcommit : (commit s).Shape)
    (hrefused : ∀ s, s.Shape → (refused s).Shape) : (checked writer addr after commit refused s).Shape := by
  unfold checked
  split
  · exact hcommit
  · exact hrefused _ (shape_checkRefused hs)

theorem shape_checkedWrite {writer addr : Nat} {v : Word} {s : State} (hs : s.Shape) (ha : CalmAt addr) : (checkedWrite writer addr v s).Shape :=
  shape_checked hs (shape_setReg ha hs) fun _ hs => hs

theorem shape_ttSwap {writer : Nat} {s : State} (hs : s.Shape) : (ttSwap writer s).Shape := by
  unfold ttSwap
  exact shape_ite (shape_mark (calm_bits rfl) hs) (shape_checked hs (shape_startSwap hs) (fun _ h => shape_mark (calm_bits rfl) h))

theorem shape_slotEdit {writer : Nat} {hi : Word} {s : State} (hs : s.Shape) : (slotEdit writer hi s).Shape := by
  unfold slotEdit
  exact shape_ite (shape_refuse hs) (shape_ite (shape_mark (calm_bits rfl) hs) (shape_checked hs (shape_startEdit hs) (fun _ h => shape_mark (calm_bits rfl) h)))

theorem shape_startRefused {i c : Nat} {s : State} (hs : s.Shape) : (startRefused i c s).Shape := by
  unfold startRefused
  exact shape_put (calm_bits rfl) (shape_mark (calm_bits rfl) hs)

theorem shape_chainRun {i : Nat} {s : State} (hs : s.Shape) : (chainRun i s).Shape := by
  unfold chainRun
  exact shape_ite (shape_mark (calm_bits rfl) hs) (shape_chainBegin (shape_mark (calm_bits rfl) hs))

theorem shape_chainStart {writer i : Nat} {s : State} (hs : s.Shape) : (chainStart writer i s).Shape := by
  unfold chainStart
  refine shape_ite hs ?_
  split
  · exact shape_startRefused hs
  · exact shape_checked hs (shape_chainRun hs) (fun _ h => shape_startRefused h)

theorem shape_applyParts {b : List Byte} {s : State} (hs : s.Shape) : (applyParts b s).Shape := by
  unfold applyParts
  exact shape_put (calm_fixed rfl) (shape_put (calm_fixed rfl) (shape_put (calm_fixed rfl) (shape_put (calm_fixed rfl) (shape_put (calm_fixed rfl) (shape_mk rfl rfl hs)))))

theorem calmAt_sub (k c : Nat) : CalmAt (A.CAS_SUB k c) := calmAt_indexed (Nat.add_assoc _ _ _) rfl

theorem shape_applyCascade {b : List Byte} {s : State} (hs : s.Shape) : (applyCascade b s).Shape := by
  unfold applyCascade
  extract_lets assign s1 s2 s3 est s4
  have h2 : s2.Shape := shape_put (calm_fixed rfl) (shape_put (calm_bits rfl) (shape_put (calm_fixed rfl) (shape_put (calm_bits rfl) hs)))
  have h3 : s3.Shape := shape_forUpTo (fun k _ hs => shape_forUpTo (fun c _ hs => shape_setReg (calmAt_sub k c) hs) hs) h2
  have h4 : s4.Shape := shape_mk rfl rfl h3
  exact shape_ite h4 (shape_put (calm_fixed rfl) h4)

theorem shape_applyArb {b : List Byte} {s : State} (hs : s.Shape) : (applyArb b s).Shape := by
  unfold applyArb
  exact shape_foldl (fun _ _ h => shape_put (calm_indexed rfl rfl) (shape_put (calm_indexed rfl rfl) (shape_put (calm_bits rfl) h))) hs

theorem shape_applyClass {b : List Byte} {s : State} (hs : s.Shape) : (applyClass b s).Shape := by
  unfold applyClass
  exact shape_forUpTo (fun _ _ h => shape_setReg (calmAt_indexed rfl rfl) h) (shape_put (calm_bits rfl) (shape_forUpTo (fun _ _ h => shape_put (calm_indexed rfl rfl)
    (shape_setReg (calmAt_indexed rfl rfl) h)) hs))

theorem shape_applyRoute {b : List Byte} {s : State} (hs : s.Shape) : (applyRoute b s).Shape := by
  unfold applyRoute
  dsimp only
  exact shape_mk rfl rfl hs

theorem shape_applyBins {dry : Bool} {b : List Byte} {s : State} (hs : s.Shape) : (applyBins dry b s).Shape := by
  unfold applyBins
  exact shape_reevaluate (shape_foldl (fun _ _ h => shape_ite h (shape_rebin (shape_ite (shape_putBytes (shape_heal h)) (shape_memWrite h)))) hs)

theorem shape_clearSlots {s : State} (hs : s.Shape) : (clearSlots s).Shape := by
  unfold clearSlots
  exact shape_modSeq (shape_forUpTo (fun _ _ h => shape_put (calm_bits rfl) h) (shape_put (calm_fixed rfl) (shape_put (calm_bits rfl) (shape_put (calm_fixed rfl) hs))))

theorem shape_applyTimetable {boot : Bool} {b : List Byte} {s : State} (hs : s.Shape) : (applyTimetable boot b s).Shape := by
  unfold applyTimetable
  exact shape_forUpTo (fun _ _ h => shape_trimBuilt h) (shape_gateAnew (shape_put (calm_fixed rfl) (shape_put (calm_fixed rfl) (shape_forUpTo (fun _ _ h => shape_setSlot h)
    (shape_ite (shape_clearSlots hs)
    (shape_modSeq hs))))))

theorem shape_applyFilter {i : Nat} {b : List Byte} {s : State} (hs : s.Shape) : (applyFilter i b s).Shape := by
  unfold applyFilter
  exact shape_ite (shape_forUpTo (fun _ _ h => shape_setCoef h) (shape_forUpTo (fun _ _ h => shape_setCoef h) (shape_modWrite (shape_setReg (calmAt_indexed rfl rfl)
    (shape_setReg (calmAt_indexed rfl rfl)
    (shape_setReg (calmAt_indexed rfl rfl) hs)))))) (shape_forUpTo (fun _ _ h => shape_setCoef h) (shape_modWrite (shape_setReg (calmAt_indexed rfl rfl) (shape_setReg
      (calmAt_indexed rfl rfl) (shape_setReg (calmAt_indexed rfl rfl) hs)))))

theorem shape_applyTimer {u : Nat} {b : List Byte} {s : State} (hs : s.Shape) : (applyTimer u b s).Shape := by
  unfold applyTimer
  exact shape_takeSafe (shape_trimResidue (shape_setReg (calmAt_indexed rfl rfl) (shape_setReg (calmAt_indexed rfl rfl) (shape_setReg (calmAt_indexed rfl rfl) (shape_setReg
    (calmAt_indexed rfl rfl) (shape_setReg (calmAt_indexed rfl rfl) (shape_setReg (calmAt_indexed rfl rfl) hs)))))))

theorem shape_applyKeys {p : Nat} {b : List Byte} {s : State} (hs : s.Shape) : (applyKeys p b s).Shape := by
  unfold applyKeys
  exact shape_mark (calm_bits rfl) (shape_modPort (shape_rebuildRound (shape_discardBuilt hs)))

theorem shape_applyRetain {b : List Byte} {s : State} (hs : s.Shape) : (applyRetain b s).Shape := by
  unfold applyRetain
  dsimp only
  exact shape_mk rfl rfl (shape_put (calm_fixed rfl) (shape_put (calm_bits rfl) (shape_put (calm_bits rfl) hs)))

theorem shape_applyPace {b : List Byte} {s : State} (hs : s.Shape) : (applyPace b s).Shape := by
  unfold applyPace
  exact shape_put (calm_fixed rfl) (shape_put (calm_bits rfl) (shape_put (calm_fixed rfl) (shape_put (calm_bits rfl) hs)))

theorem shape_applyWake {b : List Byte} {s : State} (hs : s.Shape) : (applyWake b s).Shape := by
  unfold applyWake
  exact shape_forUpTo (fun _ _ h => shape_setReg (calmAt_indexed rfl rfl) h) (shape_setReg (calmAt_fixed rfl) (shape_setReg (calmAt_fixed rfl) hs))

theorem shape_applyPins {b : List Byte} {s : State} (hs : s.Shape) : (applyPins b s).Shape := by
  unfold applyPins
  dsimp only
  exact shape_mk rfl rfl (shape_put (calm_fixed rfl) (shape_setReg (calmAt_fixed rfl) (shape_setReg (calmAt_fixed rfl) hs)))

theorem shape_applySection {boot dry : Bool} {x : Section} {s : State} (hs : s.Shape) : (applySection boot dry x s).Shape := by
  unfold applySection
  split
  · exact hs
  · exact shape_applyPins hs
  · exact shape_applyParts hs
  · exact shape_applyCascade hs
  · exact shape_mk rfl rfl hs
  · exact shape_loadProgram hs
  · exact shape_applyArb hs
  · exact shape_applyClass hs
  · exact shape_applyRoute hs
  · exact shape_applyBins hs
  · exact shape_applyTimetable hs
  · exact shape_loadProgram hs
  · exact shape_applyFilter hs
  · exact shape_applyTimer hs
  · exact shape_applyKeys hs
  · exact shape_applyRetain hs
  · exact shape_applyPace hs
  · exact shape_applyWake hs
  · exact hs

theorem shape_applySections {boot dry : Bool} {l : List Section} {s : State} (hs : s.Shape) : (applySections boot dry l s).Shape := by
  unfold applySections
  exact shape_foldl (fun _ _ h => shape_applySection h) hs

theorem shape_dropRegs {f : Nat → Bool} {s : State} (hs : s.Shape) : (dropRegs f s).Shape := shape_filterRegs (p := fun a => !f a) hs

theorem shape_unconfigure {l : List Section} {s : State} (hs : s.Shape) : (unconfigure l s).Shape := by
  unfold unconfigure
  exact shape_ite (shape_ite (shape_ite (shape_ite (shape_forUpTo (fun _ _ h => shape_ite h (shape_put (calm_bits rfl) (shape_modPort h))) (shape_forUpTo
    (fun _ _ h => shape_ite h
    (shape_modTimer (shape_dropRegs h))) (shape_forUpTo (fun _ _ h => shape_ite h (shape_modChain (shape_dropRegs h))) (shape_forUpTo (fun _ _ h => shape_ite h (shape_put
      (calm_bits rfl)
    (shape_haltRun h))) hs)))) (shape_clearSlots (shape_forUpTo (fun _ _ h => shape_ite h (shape_put (calm_bits rfl) (shape_modPort h))) (shape_forUpTo (fun _ _ h => shape_ite h
    (shape_modTimer (shape_dropRegs h))) (shape_forUpTo (fun _ _ h => shape_ite h (shape_modChain (shape_dropRegs h))) (shape_forUpTo (fun _ _ h => shape_ite h (shape_put
      (calm_bits rfl)
    (shape_haltRun h))) hs)))))) (shape_dropRegs (shape_mk rfl rfl (shape_ite (shape_forUpTo (fun _ _ h => shape_ite h (shape_put (calm_bits rfl) (shape_modPort h)))
      (shape_forUpTo
    (fun _ _ h => shape_ite h (shape_modTimer (shape_dropRegs h))) (shape_forUpTo (fun _ _ h => shape_ite h (shape_modChain (shape_dropRegs h))) (shape_forUpTo
    (fun _ _ h => shape_ite h (shape_put (calm_bits rfl) (shape_haltRun h))) hs)))) (shape_clearSlots (shape_forUpTo (fun _ _ h => shape_ite h (shape_put (calm_bits rfl)
      (shape_modPort h))) (shape_forUpTo
    (fun _ _ h => shape_ite h (shape_modTimer (shape_dropRegs h))) (shape_forUpTo (fun _ _ h => shape_ite h (shape_modChain (shape_dropRegs h))) (shape_forUpTo
    (fun _ _ h => shape_ite h (shape_put (calm_bits rfl) (shape_haltRun h))) hs))))))))) (shape_dropRegs (shape_ite (shape_ite (shape_forUpTo (fun _ _ h => shape_ite h
      (shape_put (calm_bits rfl)
    (shape_modPort h))) (shape_forUpTo (fun _ _ h => shape_ite h (shape_modTimer (shape_dropRegs h))) (shape_forUpTo (fun _ _ h => shape_ite h (shape_modChain
    (shape_dropRegs h))) (shape_forUpTo (fun _ _ h => shape_ite h (shape_put (calm_bits rfl) (shape_haltRun h))) hs)))) (shape_clearSlots (shape_forUpTo
      (fun _ _ h => shape_ite h (shape_put (calm_bits rfl)
    (shape_modPort h))) (shape_forUpTo (fun _ _ h => shape_ite h (shape_modTimer (shape_dropRegs h))) (shape_forUpTo (fun _ _ h => shape_ite h (shape_modChain
    (shape_dropRegs h))) (shape_forUpTo (fun _ _ h => shape_ite h (shape_put (calm_bits rfl) (shape_haltRun h))) hs)))))) (shape_dropRegs (shape_mk rfl rfl (shape_ite
      (shape_forUpTo
    (fun _ _ h => shape_ite h (shape_put (calm_bits rfl) (shape_modPort h))) (shape_forUpTo (fun _ _ h => shape_ite h (shape_modTimer (shape_dropRegs h))) (shape_forUpTo
    (fun _ _ h => shape_ite h (shape_modChain (shape_dropRegs h))) (shape_forUpTo (fun _ _ h => shape_ite h (shape_put (calm_bits rfl) (shape_haltRun h))) hs))))
      (shape_clearSlots
    (shape_forUpTo (fun _ _ h => shape_ite h (shape_put (calm_bits rfl) (shape_modPort h))) (shape_forUpTo (fun _ _ h => shape_ite h (shape_modTimer (shape_dropRegs h)))
      (shape_forUpTo
    (fun _ _ h => shape_ite h (shape_modChain (shape_dropRegs h))) (shape_forUpTo (fun _ _ h => shape_ite h (shape_put (calm_bits rfl) (shape_haltRun h))) hs)))))))))))
      (shape_dropRegs
    (shape_ite (shape_ite (shape_ite (shape_forUpTo (fun _ _ h => shape_ite h (shape_put (calm_bits rfl) (shape_modPort h))) (shape_forUpTo (fun _ _ h => shape_ite h
      (shape_modTimer
    (shape_dropRegs h))) (shape_forUpTo (fun _ _ h => shape_ite h (shape_modChain (shape_dropRegs h))) (shape_forUpTo (fun _ _ h => shape_ite h (shape_put (calm_bits rfl)
    (shape_haltRun h))) hs)))) (shape_clearSlots (shape_forUpTo (fun _ _ h => shape_ite h (shape_put (calm_bits rfl) (shape_modPort h))) (shape_forUpTo (fun _ _ h => shape_ite h
    (shape_modTimer (shape_dropRegs h))) (shape_forUpTo (fun _ _ h => shape_ite h (shape_modChain (shape_dropRegs h))) (shape_forUpTo (fun _ _ h => shape_ite h (shape_put
      (calm_bits rfl)
    (shape_haltRun h))) hs)))))) (shape_dropRegs (shape_mk rfl rfl (shape_ite (shape_forUpTo (fun _ _ h => shape_ite h (shape_put (calm_bits rfl) (shape_modPort h)))
      (shape_forUpTo
    (fun _ _ h => shape_ite h (shape_modTimer (shape_dropRegs h))) (shape_forUpTo (fun _ _ h => shape_ite h (shape_modChain (shape_dropRegs h))) (shape_forUpTo
    (fun _ _ h => shape_ite h (shape_put (calm_bits rfl) (shape_haltRun h))) hs)))) (shape_clearSlots (shape_forUpTo (fun _ _ h => shape_ite h (shape_put (calm_bits rfl)
      (shape_modPort h))) (shape_forUpTo
    (fun _ _ h => shape_ite h (shape_modTimer (shape_dropRegs h))) (shape_forUpTo (fun _ _ h => shape_ite h (shape_modChain (shape_dropRegs h))) (shape_forUpTo
    (fun _ _ h => shape_ite h (shape_put (calm_bits rfl) (shape_haltRun h))) hs))))))))) (shape_dropRegs (shape_ite (shape_ite (shape_forUpTo (fun _ _ h => shape_ite h
      (shape_put (calm_bits rfl)
    (shape_modPort h))) (shape_forUpTo (fun _ _ h => shape_ite h (shape_modTimer (shape_dropRegs h))) (shape_forUpTo (fun _ _ h => shape_ite h (shape_modChain
    (shape_dropRegs h))) (shape_forUpTo (fun _ _ h => shape_ite h (shape_put (calm_bits rfl) (shape_haltRun h))) hs)))) (shape_clearSlots (shape_forUpTo
      (fun _ _ h => shape_ite h (shape_put (calm_bits rfl)
    (shape_modPort h))) (shape_forUpTo (fun _ _ h => shape_ite h (shape_modTimer (shape_dropRegs h))) (shape_forUpTo (fun _ _ h => shape_ite h (shape_modChain
    (shape_dropRegs h))) (shape_forUpTo (fun _ _ h => shape_ite h (shape_put (calm_bits rfl) (shape_haltRun h))) hs)))))) (shape_dropRegs (shape_mk rfl rfl (shape_ite
      (shape_forUpTo
    (fun _ _ h => shape_ite h (shape_put (calm_bits rfl) (shape_modPort h))) (shape_forUpTo (fun _ _ h => shape_ite h (shape_modTimer (shape_dropRegs h))) (shape_forUpTo
    (fun _ _ h => shape_ite h (shape_modChain (shape_dropRegs h))) (shape_forUpTo (fun _ _ h => shape_ite h (shape_put (calm_bits rfl) (shape_haltRun h))) hs))))
      (shape_clearSlots
    (shape_forUpTo (fun _ _ h => shape_ite h (shape_put (calm_bits rfl) (shape_modPort h))) (shape_forUpTo (fun _ _ h => shape_ite h (shape_modTimer (shape_dropRegs h)))
      (shape_forUpTo
    (fun _ _ h => shape_ite h (shape_modChain (shape_dropRegs h))) (shape_forUpTo (fun _ _ h => shape_ite h (shape_put (calm_bits rfl) (shape_haltRun h))) hs))))))))))))

theorem shape_modRmap {s : State} {f : RMap → RMap} (hs : s.Shape) : (State.modRmap s f).Shape := by
  unfold State.modRmap
  exact shape_mk rfl rfl hs

theorem shape_loaderReads {a n : Nat} {s : State} (hs : s.Shape) : (loaderReads a n s).Shape := by
  unfold loaderReads
  exact shape_readArea hs

theorem shape_checksRead {e : EnvAt} {v : Verdict} {s : State} (hs : s.Shape) : (checksRead e v s).Shape := by
  unfold checksRead
  exact shape_loaderReads hs

theorem shape_rmapCommand {cmd writer : Nat} {s : State} (hs : s.Shape) : (rmapCommand cmd writer s).Shape := by
  unfold rmapCommand
  exact shape_ite hs (shape_ite (shape_mark (calm_bits rfl) hs) (shape_modRmap (shape_ite (shape_checkRefused (shape_mark (calm_bits rfl) (shape_ite hs (shape_checksRead hs))))
    (shape_mark (calm_bits rfl) (shape_ite hs
    (shape_checksRead hs))))))

theorem shape_startUnits {boot : Bool} {l : List Section} {s : State} (hs : s.Shape) : (startUnits boot l s).Shape := by
  unfold startUnits
  refine shape_ite (shape_ite (shape_ttRunSet (shape_foldl (fun _ _ h => shape_coreStart h) (shape_forUpTo (fun _ _ h => shape_ite (shape_beginTraining h) h) (shape_foldl
    (fun _ _ h => shape_timerStart h) (shape_foldl (fun _ _ h => ?_) hs))))) (shape_foldl (fun _ _ h => shape_coreStart h) (shape_forUpTo (fun _ _ h => shape_ite
    (shape_beginTraining h) h) (shape_foldl (fun _ _ h => shape_timerStart h) (shape_foldl (fun _ _ h => ?_) hs))))) (shape_foldl (fun _ _ h => shape_timerStart h)
    (shape_foldl (fun _ _ h => ?_) hs))
  · split
    · exact shape_startRefused h
    · exact shape_chainRun h
  · split
    · exact shape_startRefused h
    · exact shape_chainRun h
  · split
    · exact shape_startRefused h
    · exact shape_chainRun h

theorem shape_applyPoint {s : State} (hs : s.Shape) : (applyPoint s).Shape := by
  unfold applyPoint
  exact shape_ite hs (shape_ite (shape_startSwap (shape_startUnits (shape_applySections (shape_modRmap (shape_incWrap (calm_fixed rfl) (shape_put (calm_fixed rfl) (shape_put
    (calm_fixed rfl) hs))))))) (shape_startUnits
    (shape_applySections (shape_modRmap (shape_incWrap (calm_fixed rfl) (shape_put (calm_fixed rfl) (shape_put (calm_fixed rfl) hs)))))))

theorem shape_copyArea {src dst n : Nat} {s : State} (hs : s.Shape) : (copyArea src dst n s).Shape := shape_mk rfl rfl hs

theorem shape_ringFill {s : State} (hs : s.Shape) : (ringFill s).Shape := by
  unfold ringFill
  split
  · exact hs
  · exact shape_ite (shape_copyArea hs) (shape_mk rfl rfl hs)

theorem shape_startBook {s : State} (hs : s.Shape) : (startBook s).Shape := by
  unfold startBook
  split
  · exact hs
  · exact shape_mark (calm_bits rfl) (shape_dayWrite (shape_put (calm_fixed rfl) (shape_put (calm_fixed rfl) hs)))

theorem shape_bootImage {deep b : Bool} {s : State} (hs : s.Shape) : (bootImage deep b s).Shape := by
  unfold bootImage
  exact shape_startUnits (shape_ite (shape_setIdEntry (shape_put (calm_bits rfl) (shape_put (calm_fixed rfl) (shape_putB (calm_fixed rfl) (shape_put (calm_fixed rfl)
    (shape_startBook (shape_ringFill (shape_applySections (shape_ite hs
    (shape_unconfigure hs)))))))))) (shape_put (calm_bits rfl) (shape_put (calm_fixed rfl) (shape_putB (calm_fixed rfl) (shape_put (calm_fixed rfl) (shape_startBook
      (shape_ringFill (shape_applySections (shape_ite hs
    (shape_unconfigure hs))))))))))

/-- The ledger controller of another state. -/
theorem shape_withLedg {m : List (Nat × Byte)} {s t : State} (hs : s.Shape) (ht : t.Shape) : State.Shape { s with mem := m, ledg := t.ledg } := by
  obtain ⟨cores, chains, ports, units, links, rooms, -, depths⟩ := hs
  obtain ⟨-, -, -, -, -, -, few, -⟩ := ht
  exact ⟨cores, chains, ports, units, links, rooms, few, depths⟩

theorem shape_bootUndone {deep b : Bool} {a : Nat} {s : State} (hs : s.Shape) : (bootUndone deep b a s).Shape := by
  unfold bootUndone
  exact shape_rebin (shape_withLedg (shape_ite hs (shape_unconfigure hs)) (shape_applySections hs))

theorem shape_applyImage_p {deep b : Bool} {s : State} (hs : s.Shape) : (applyImage deep b s).2.Shape := by
  unfold applyImage
  dsimp only
  split
  · dsimp only
    exact shape_loaderReads (shape_bootUndone hs)
  · dsimp only
    exact shape_bootImage (shape_loaderReads hs)

theorem shape_rmapDone {s : State} (hs : s.Shape) : (rmapDone s).Shape := by
  have loaded (c : Prop) [Decidable c] (b : Bool) : (if c then applyImage false b s else (true, s)).2.Shape := by
    split
    · exact shape_applyImage_p hs
    · exact hs
  unfold rmapDone
  exact shape_ite hs (shape_dayPush (shape_modRmap (shape_put (calm_bits rfl) (shape_put (calm_bits rfl) (shape_mark (calm_bits rfl) (shape_put (calm_bits rfl) (loaded _ _)))))))

theorem shape_turnSlot {b : Bool} {s : State} (hs : s.Shape) : (turnSlot b s).Shape := by
  unfold turnSlot
  exact shape_foldl (fun _ _ h => shape_ite (shape_turnCell h) h) (shape_mk rfl rfl hs)

theorem calm_slotReason (b : Bool) : Calm (slotReason b) := by cases b <;> exact .inr (calmAt_fixed rfl)

theorem shape_trySlot_p {deep : Bool} {a : Bool × State} {b : Bool} (ha : a.2.Shape) : (trySlot deep a b).2.Shape := by
  unfold trySlot
  split
  · exact ha
  · extract_lets s v s1
    have read : s1.Shape := shape_put (calm_slotReason b) (shape_checksRead ha)
    split
    · exact read
    · have applied := shape_applyImage_p (deep := deep) (b := b) (shape_turnSlot (b := b) read)
      exact shape_ite applied (shape_put (calm_slotReason b) applied)

theorem shape_readVersions {s : State} (hs : s.Shape) : (readVersions s).Shape := by
  unfold readVersions
  exact shape_loaderReads (shape_loaderReads hs)

theorem shape_loadImage {deep : Bool} {s : State} (hs : s.Shape) : (loadImage deep s).Shape := by
  unfold loadImage
  exact shape_ite (shape_foldl_snd (fun _ _ h => shape_trySlot_p h) (shape_ite (shape_readVersions (shape_ite (shape_mark (calm_bits rfl) hs) hs)) (shape_ite (shape_mark
    (calm_bits rfl) hs) hs)))
    (shape_mark (calm_bits rfl) (shape_foldl_snd (fun _ _ h => shape_trySlot_p h) (shape_ite (shape_readVersions (shape_ite (shape_mark (calm_bits rfl) hs) hs)) (shape_ite
      (shape_mark (calm_bits rfl) hs) hs))))

theorem shape_windowEnd {count : Nat} {s : State} (hs : s.Shape) : (windowEnd count s).Shape := by
  unfold windowEnd
  refine shape_ite hs ?_
  dsimp only
  have set := fun now need eff sp held ramping => shape_putB (calm_bits rfl) (f := F.PACE_STAT_RAMPING) (b := ramping) (shape_putB (calm_bits rfl) (f := F.PACE_STAT_CAP_HELD)
    (b := held)
    (shape_put (calm_fixed rfl) (f := F.PACE_VCORE_SETPOINT) (v := sp) (shape_put (calm_fixed rfl) (f := F.PACE_VCORE_EFF_CAP) (v := eff)
    (shape_put (calm_bits rfl) (f := F.PACE_VCORE_NEED_CODE) (v := need) (shape_put (calm_fixed rfl) (f := F.PACE_NOW_NOW) (v := now) hs)))))
  refine shape_ite (shape_raiseFault (shape_mk rfl rfl ?_)) (shape_mk rfl rfl ?_)
  · exact shape_ite (shape_mark (calm_bits rfl) (set ..)) (set ..)
  · exact shape_ite (shape_mark (calm_bits rfl) (set ..)) (set ..)

theorem shape_crossed {code : Int} {s : State} (hs : s.Shape) : (crossed code s).Shape := by
  unfold crossed
  exact shape_ite (shape_pmEvent (shape_mark (calm_bits rfl) hs)) (shape_mark (calm_bits rfl) hs)

theorem shape_temperatureUpdate {t : Int} {s : State} (hs : s.Shape) : (temperatureUpdate t s).Shape := by
  unfold temperatureUpdate
  refine shape_ite hs (shape_ite (shape_raiseFault (shape_mark (calm_bits rfl) (shape_mk rfl rfl ?_))) (shape_mk rfl rfl ?_))
  · dsimp only
    exact shape_mk rfl rfl (shape_ite (shape_crossed (shape_put (calm_fixed rfl) hs)) (shape_put (calm_fixed rfl) hs))
  · dsimp only
    exact shape_mk rfl rfl (shape_ite (shape_crossed (shape_put (calm_fixed rfl) hs)) (shape_put (calm_fixed rfl) hs))

theorem shape_postmarkRead_p {s : State} (hs : s.Shape) : (postmarkRead s).2.Shape := by
  unfold postmarkRead
  dsimp only
  exact shape_setReg (calmAt_fixed rfl) hs

theorem shape_decided {u : Nat} {accepted : Bool} {s : State} (hs : s.Shape) : (decided u accepted s).Shape := by
  unfold decided
  exact shape_ite (shape_trendDecided hs) (shape_settleStop hs)

theorem shape_letterOffer {s : State} (hs : s.Shape) : (letterOffer s).Shape := by
  unfold letterOffer
  refine shape_ite hs ?_
  split
  · exact hs
  · refine shape_ite (shape_decided (shape_answer (shape_modGate (shape_pruneLog (shape_modGate hs))))) ?_
    split
    · exact shape_decided (shape_returnLetter (shape_pruneLog (shape_modGate hs)))
    · split
      · exact shape_decided (shape_frank (shape_pruneLog (shape_modGate hs)))
      · exact shape_pruneLog (shape_modGate hs)

end Sys2Proof.Machine

/-!
PROOFS. The operations of power, reset, register writes, the host port and the management port keep the shape of the machine (04, 11).
-/

namespace Sys2Proof.Machine

theorem shape_modPow {s : State} {f : Power → Power} (hs : s.Shape) : (State.modPow s f).Shape := by
  unfold State.modPow
  exact shape_mk rfl rfl hs

theorem shape_noteEntry {cause mode : Nat} {unit : Option Nat} {s : State} (hs : s.Shape) : (noteEntry cause mode unit s).Shape := by
  unfold noteEntry
  exact shape_dayPush (shape_setReg (calmAt_fixed rfl) hs)

theorem shape_flushThen {reason : Nat} {what : FlushThen} {finish : State → State} {s : State} (hs : s.Shape) (hfinish : ∀ x0, x0.Shape → (finish x0).Shape) :
    (flushThen reason what finish s).Shape := by
  unfold flushThen
  exact shape_ite (shape_modPow hs) (shape_ite (hfinish _ hs) (shape_freeze hs))

theorem shape_requestEntry_p {s : State} (hs : s.Shape) : (requestEntry s).2.Shape := by
  unfold requestEntry
  dsimp only
  split
  · with_reducible exact shape_noteEntry (shape_incSat (calm_bits rfl) hs)
  · split
    · with_reducible exact shape_noteEntry (shape_incSat (calm_bits rfl) hs)
    · split
      · dsimp only
        exact shape_noteEntry (shape_put (calm_fixed rfl) (shape_forUpTo (fun _ _ h => shape_cancelSpec h) hs))
      · dsimp only
        exact shape_freeze (shape_modPow (shape_mark (calm_bits rfl) (shape_forUpTo (fun _ _ h => shape_cancelSpec h) hs)))

theorem shape_unfreeze {s : State} (hs : s.Shape) : (unfreeze s).Shape := by
  unfold unfreeze
  exact shape_forUpTo (fun _ _ h => shape_ite h (shape_ringPut h)) (shape_modPow (shape_put (calm_bits rfl) (shape_put (calm_bits rfl) hs)))

theorem shape_resumeUnits {s : State} (hs : s.Shape) : (resumeUnits s).Shape := by
  unfold resumeUnits
  exact shape_advanceAll (shape_forUpTo (fun _ _ h => shape_ite (shape_beginTraining h) h) (shape_forUpTo (fun _ _ h => shape_ite (shape_chainBegin h) h) hs))

theorem shape_entryAbort {unit : Option Nat} {s : State} (hs : s.Shape) : (entryAbort unit s).Shape := by
  unfold entryAbort
  refine shape_ite hs (shape_ite (shape_wakePostmaster (shape_noteEntry (shape_incSat (calm_fixed rfl) (shape_resumeUnits (shape_unfreeze (shape_put (calm_bits rfl) hs)))))) ?_)
  split
  · exact shape_wakePostmaster (shape_noteEntry (shape_incSat (calm_fixed rfl) (shape_resumeUnits (shape_unfreeze (shape_put (calm_bits rfl) hs)))))
  · exact hs

theorem shape_keepWear {old s : State} (hs : s.Shape) : (keepWear old s).Shape := by
  unfold keepWear
  exact shape_put (calm_bits rfl) (shape_put (calm_fixed rfl) hs)

theorem shape_keepFlushes {old s : State} (hs : s.Shape) : (keepFlushes old s).Shape := by
  unfold keepFlushes
  exact shape_put (calm_bits rfl) hs

theorem shape_keepStraps {old s : State} (hs : s.Shape) : (keepStraps old s).Shape := by
  unfold keepStraps
  exact shape_put (calm_fixed rfl) (shape_put (calm_fixed rfl) (shape_put (calm_fixed rfl) (shape_put (calm_bits rfl) (shape_setReg (calmAt_fixed rfl) hs))))

theorem shape_reset : State.reset.Shape := by
  refine ⟨rfl, rfl, rfl, rfl, rfl, fun k hk => ?_, Nat.zero_le _, fun c hc => resetWord_depth c hc⟩
  obtain ⟨-, rfl⟩ := List.mem_replicate.mp hk
  exact Nat.zero_le _

theorem shape_resetTo {k : ResetKind} {s0 : State} (hs0 : s0.Shape) : (resetTo k s0).Shape := by
  unfold resetTo
  extract_lets s always first ledg flt rmap pow base s1 s2
  have lost : s.Shape := shape_losePower hs0
  have bare : base.Shape := by
    obtain ⟨cores, chains, ports, units, links, rooms, -, -⟩ := shape_reset
    have old := lost
    obtain ⟨-, -, -, kept, -, -, few, -⟩ := old
    refine ⟨cores, chains, ports, ?_, links, rooms, few, fun c hc => ?_⟩
    · dsimp only [base]
      split
      · exact kept
      · exact units
    · dsimp only [base]
      split
      · exact shape_depth (shape_filterRegs (p := alwaysOn) lost) hc
      · exact resetWord_depth c hc
  have h1 : s1.Shape := shape_recovering (shape_keepWear bare)
  have h2 : s2.Shape := shape_keepFlushes (shape_setReg (calmAt_fixed rfl) h1)
  exact shape_ite h1 (shape_ite (shape_keepStraps h2) (shape_put (calm_bits rfl) h2))

theorem shape_warmReset {s : State} (hs : s.Shape) : (warmReset s).Shape := by
  unfold warmReset
  exact shape_modPow (shape_resetTo hs)

theorem shape_doWarm {pin : Bool} {s : State} (hs : s.Shape) : (doWarm pin s).Shape := by
  unfold doWarm
  exact shape_warmReset (shape_ite (shape_mark (calm_bits rfl) hs) (shape_mark (calm_bits rfl) hs))

theorem shape_holdFail {s : State} (hs : s.Shape) : (holdFail s).Shape := by
  unfold holdFail
  exact shape_ite (shape_mark (calm_bits rfl) (shape_warmReset (shape_ite (shape_mark (calm_bits rfl) hs) hs))) (shape_mark (calm_bits rfl) (shape_warmReset (shape_ite
    (shape_mark (calm_bits rfl) hs) hs)))

theorem shape_warmRequest {pin : Bool} {s0 : State} (hs0 : s0.Shape) : (warmRequest pin s0).Shape := by
  unfold warmRequest
  refine shape_ite (shape_ite (shape_modPow hs0) hs0) (shape_ite (shape_ite (shape_mark (calm_bits rfl) (shape_ite (shape_modPow hs0) hs0)) (shape_ite (shape_modPow hs0) hs0))
    (shape_ite
    (shape_doWarm (shape_openRecovery (shape_ite (shape_modPow hs0) hs0))) ?_))
  split
  · exact shape_modPow (shape_ite (shape_openRecovery (shape_ite (shape_modPow hs0) hs0)) (shape_mark (calm_bits rfl) (shape_openRecovery (shape_ite (shape_modPow hs0) hs0))))
  · exact shape_openRecovery (shape_ite (shape_modPow hs0) hs0)
  · exact shape_flushThen (shape_put (calm_bits rfl) (shape_ite (shape_openRecovery (shape_ite (shape_modPow hs0) hs0)) (shape_trendFlush (shape_openRecovery (shape_ite
      (shape_modPow hs0) hs0))))) (fun _ h => shape_doWarm h)

theorem shape_resetPin {s : State} (hs : s.Shape) : (resetPin s).Shape := by
  unfold resetPin
  exact shape_warmRequest hs

theorem shape_softReset {s : State} (hs : s.Shape) : (softReset s).Shape := by
  unfold softReset
  exact shape_warmRequest hs

theorem shape_resetRelease {s : State} (hs : s.Shape) : (resetRelease s).Shape := by
  unfold resetRelease
  exact shape_ite (shape_modPow (shape_modPow hs)) (shape_modPow hs)

theorem shape_powerUp {s : State} (hs : s.Shape) : (powerUp s).Shape := by
  unfold powerUp
  exact shape_ite hs (shape_modPow hs)

theorem shape_powerFail {s0 : State} (hs0 : s0.Shape) : (powerFail s0).Shape := by
  unfold powerFail
  exact shape_ite hs0 (shape_ite (shape_modPow hs0) (shape_ite (shape_modPow (shape_mark (calm_bits rfl) hs0)) (shape_ite (shape_holdFail (shape_openRecovery (shape_modPow
    (shape_mark (calm_bits rfl) hs0)))) (shape_flushThen (shape_put (calm_bits rfl) (shape_forUpTo (fun _ _ h => shape_abandonExchange h) (shape_forUpTo
      (fun _ _ h => shape_cancelSpec h) (shape_ite
    (shape_openRecovery (shape_modPow (shape_mark (calm_bits rfl) hs0))) (shape_trendFlush (shape_openRecovery (shape_modPow (shape_mark (calm_bits rfl) hs0))))))))
      (fun _ h => shape_holdFail h)))))

theorem shape_powerRestored {s : State} (hs : s.Shape) : (powerRestored s).Shape := by
  unfold powerRestored
  exact shape_ite hs (shape_ite (shape_modPow (shape_mark (calm_bits rfl) (shape_put (calm_bits rfl) (shape_modPow hs)))) (shape_ite (shape_modPow hs) (shape_put
    (calm_bits rfl) (shape_modPow hs))))

theorem shape_tapReset {s : State} (hs : s.Shape) : (tapReset s).Shape := by
  unfold tapReset
  exact shape_mk rfl rfl hs

theorem shape_flushLine {ring : List Byte} {i : Nat} {v : Verify} {s0 : State} (hs0 : s0.Shape) : (flushLine ring i v s0).Shape := by
  unfold flushLine
  exact shape_ite (shape_putBytes (shape_heal (shape_programAs_p (shape_ite (shape_finishMoves hs0) hs0)))) (shape_reportFailed (shape_programAs_p (shape_ite
    (shape_finishMoves hs0) hs0)))

theorem shape_flushNoted {ring : List Byte} {s : State} (hs : s.Shape) : (flushNoted ring s).Shape := by
  unfold flushNoted
  exact shape_put (calm_fixed rfl) (shape_put (calm_fixed rfl) (shape_put (calm_fixed rfl) (shape_put (calm_fixed rfl) (shape_mk rfl rfl hs))))

theorem shape_flushRing {vs : List Verify} {s0 : State} (hs : s0.Shape) : (flushRing vs s0).Shape := by
  unfold flushRing
  split
  · exact hs
  split
  next he =>
  extract_lets s1
  have ended : s1.Shape := shape_finishMoves (shape_forUpTo (fun _ _ hs => shape_flushLine hs) (shape_bytesAs_t he hs))
  split
  next he =>
  have recorded := shape_programRecord_t he ended
  exact shape_ite (shape_flushNoted recorded) (shape_reportFailed recorded)

theorem shape_flushCut {s0 : State} (hs0 : s0.Shape) : (flushCut s0).Shape := by
  unfold flushCut
  split
  · exact hs0
  · exact shape_forUpTo (fun _ _ h => shape_ite (shape_flushLine h) h) (shape_free_p (shape_bytesAs_p (shape_drainBuffers hs0)))

theorem shape_powerOnReset {s : State} (hs : s.Shape) : (powerOnReset s).Shape := by
  unfold powerOnReset
  exact shape_ite (shape_resetTo hs) (shape_ite (shape_modPow hs) (shape_ite (shape_modPow (shape_free_p hs)) (shape_resetTo (shape_flushCut (shape_free_p hs)))))

theorem shape_comparatorTrip {n : Nat} {s : State} (hs : s.Shape) : (comparatorTrip n s).Shape := by
  unfold comparatorTrip
  exact shape_ite hs (shape_wakeRecognised (shape_ite (shape_pmEvent (shape_wakeNoted (shape_put (calm_bits rfl) (shape_put (calm_fixed rfl) hs)))) (shape_wakeNoted (shape_put
    (calm_bits rfl) (shape_put (calm_fixed rfl) hs)))))

theorem shape_comparatorLeft {n : Nat} {s : State} (hs : s.Shape) : (comparatorLeft n s).Shape := by
  unfold comparatorLeft
  exact shape_ite hs (shape_put (calm_fixed rfl) hs)

theorem shape_dropChecks {p : Nat} {s : State} (hs : s.Shape) : (dropChecks p s).Shape := by
  unfold dropChecks
  exact shape_modPort (shape_pruneChecks hs)

theorem shape_noteWrite {a n : Nat} {s0 s : State} (hs : s.Shape) : (noteWrite a n s0 s).Shape := by
  unfold noteWrite
  exact shape_ite (shape_rebin hs) (shape_mirrorWrite (shape_forUpTo (fun _ _ h => shape_ite (shape_dropChecks h) h) hs))

theorem shape_haltCore {c : Nat} {s : State} (hs : s.Shape) : (haltCore c s).Shape := by
  unfold haltCore
  exact shape_modCore (shape_put (calm_bits rfl) (shape_cancelSpec hs)) (fun _ _ h => h)

theorem shape_settleCore {c : Nat} {s : State} (hs : s.Shape) : (settleCore c s).Shape := by
  unfold settleCore
  dsimp only
  split
  · exact shape_settleStop hs
  · exact shape_ite (shape_haltCore (shape_settleStop hs)) (shape_settleStop hs)

theorem shape_sealCommitted {c : Nat} {s : State} (hs : s.Shape) : (sealCommitted c s).Shape := by
  unfold sealCommitted
  exact shape_modGate (shape_incWrap (calm_bits rfl) (shape_mark (calm_bits rfl) (shape_modCore (shape_modLedg rfl hs) fun k _ h => (Nat.le_add_right _ _).trans h)))

theorem shape_txnEnded {t : Txn} {how : TxnEnd} {s : State} (hs : s.Shape) : (txnEnded t how s).Shape := by
  unfold txnEnded
  split
  · exact shape_ite (shape_settleCore (shape_sealCommitted hs)) (shape_settleCore (shape_modCore hs (fun _ _ h => h)))
  · exact shape_ite (shape_nodeCommitted hs) (shape_modPort hs)
  · exact shape_ite (shape_settleCore (shape_modCore (shape_ite (shape_setTxnFlag hs) hs) (fun _ _ h => h))) (shape_ite (shape_setTxnFlag hs) hs)

theorem shape_commitPoint {u : Nat} {s : State} (hs : s.Shape) : (commitPoint u s).Shape := by
  unfold commitPoint
  split
  · exact hs
  · exact shape_ite hs (shape_ite (shape_txnEnded (shape_foldl (fun _ _ h => shape_noteWrite h) (shape_commitLines_p (shape_modLedg rfl hs)))) (shape_txnEnded
      (shape_commitLines_p (shape_modLedg rfl hs))))

theorem shape_heldReleased {s0 s : State} (hs : s.Shape) : (heldReleased s0 s).Shape := by
  unfold heldReleased
  refine shape_retryNodes (shape_foldl (fun _ _ h => ?_) hs)
  split
  · exact shape_noteWrite h
  · exact h
  · split
    · exact shape_ite h (shape_txnEnded h)
    · exact h

theorem shape_retireRecord {u : Nat} {s : State} (hs : s.Shape) : (retireRecord u s).Shape := by
  unfold retireRecord
  exact shape_ite hs (shape_heldReleased (shape_retireTxn hs))

theorem shape_moveDone {v : Verify} {s : State} (hs : s.Shape) : (moveDone v s).Shape := by
  unfold moveDone
  exact shape_ite (shape_moveStep hs) (shape_heldReleased (shape_redoHeld (shape_moveStep hs)))

theorem shape_failTxn {t : Txn} {s : State} (hs : s.Shape) : (failTxn t s).Shape := by
  unfold failTxn
  exact shape_txnEnded (shape_dropTxn hs)

theorem shape_slotClear {u : Nat} {sec : Bool} {s : State} (hs : s.Shape) : (slotClear u sec s).Shape := by
  unfold slotClear
  exact shape_ite hs (shape_ite (shape_mk rfl rfl (shape_clearSlot hs)) (shape_clearSlot hs))

theorem shape_unitRestart {u : Nat} {s : State} (hs : s.Shape) : (unitRestart u s).Shape := by
  unfold unitRestart
  exact shape_ite (shape_coreReset hs) (shape_ite (shape_ite (shape_modChain (shape_chainBegin hs)) hs) (shape_ite (shape_ite (shape_beginTraining hs) hs) (shape_ite
    (shape_advance hs) hs)))

theorem shape_unitRelease {u : Nat} {s : State} (hs : s.Shape) : (unitRelease u s).Shape := by
  unfold unitRelease
  exact shape_ite hs (shape_ite (shape_put (calm_indexed rfl rfl) hs) (shape_unitRestart (shape_put (calm_indexed rfl rfl) hs)))

theorem shape_regRead_p {reader a : Nat} {s : State} (hs : s.Shape) : (regRead reader a s).2.Shape := by
  unfold regRead
  dsimp only
  split
  · exact shape_postmarkRead_p hs
  · split
    · exact shape_slotRead_p hs
    · split
      · exact shape_coefRead_p hs
      · split
        · exact shape_lastOutputRead hs
        · split
          · exact shape_captureRead_p hs
          · split
            · exact shape_captureRead_p hs
            · split
              · exact shape_coreMemRead_p hs
              · exact hs

theorem shape_coreRegWrite {c off old w : Nat} {put : State → State} {s : State} (hs : s.Shape) (hput : ∀ x0, x0.Shape → (put x0).Shape) :
    (coreRegWrite c off old w put s).Shape := by
  unfold coreRegWrite
  split
  · exact shape_ite (shape_coreStart (shape_ite (shape_coreFresh (shape_put (calm_bits rfl) (hput _ hs))) (shape_put (calm_bits rfl) (hput _ hs)))) (shape_ite (shape_coreStop
      (shape_ite (shape_coreFresh
      (shape_put (calm_bits rfl) (hput _ hs))) (shape_put (calm_bits rfl) (hput _ hs)))) (shape_ite (shape_coreFresh (shape_put (calm_bits rfl) (hput _ hs))) (shape_put
        (calm_bits rfl) (hput _ hs))))
  · exact shape_coreMemWrite hs
  · exact hput _ hs

theorem shape_portRegWrite {writer p off a old w : Nat} {put : State → State} {s : State} (ha : CalmAt a) (hs : s.Shape) (hput : ∀ s, s.Shape → (put s).Shape) :
    (portRegWrite writer p off a old w put s).Shape := by
  unfold portRegWrite
  have enabled := fun v => shape_put (calm_bits rfl) (f := F.FL_CTRL_EN p) (v := v) (hput s hs)
  exact shape_ite (shape_ite (shape_portEnable (enabled _)) (shape_ite (shape_portDisable (enabled _)) (enabled _))) (shape_ite (shape_checkedWrite hs ha)
    (shape_ite (shape_enrolStop (hput s hs)) (shape_ite (shape_ite (shape_portRestart hs) hs) (shape_ite (shape_mailboxWrite hs) (shape_ite (shape_fenceWrite hs) (hput s hs))))))

theorem shape_chainRegWrite {writer i off old w : Nat} {put : State → State} {s : State} (hs : s.Shape) (hput : ∀ x0, x0.Shape → (put x0).Shape) :
    (chainRegWrite writer i off old w put s).Shape := by
  unfold chainRegWrite
  split
  · exact shape_ite (shape_chainStart (shape_put (calm_bits rfl) (hput _ hs))) (shape_ite (shape_chainStop (shape_put (calm_bits rfl) (hput _ hs))) (shape_put (calm_bits rfl)
      (hput _ hs)))
  · exact shape_srcWrite hs
  · exact shape_modWrite hs
  · exact shape_coefWrite hs
  · exact hput _ hs

theorem shape_gateRegWrite {writer off a old w : Nat} {put : State → State} {s : State} (ha : CalmAt a) (hs : s.Shape) (hput : ∀ s, s.Shape → (put s).Shape) :
    (gateRegWrite writer off a old w put s).Shape := by
  unfold gateRegWrite
  exact shape_ite (shape_checkedWrite hs ha) (shape_ite (shape_checkedWrite hs ha) (shape_ite (shape_bellEnable hs) (shape_ite (shape_outboxPop hs)
    (shape_ite (shape_checkedWrite hs ha) (hput s hs)))))

theorem shape_seqRegWrite {writer off old w : Nat} {put : State → State} {s : State} (hs : s.Shape) (hput : ∀ x0, x0.Shape → (put x0).Shape) :
    (seqRegWrite writer off old w put s).Shape := by
  unfold seqRegWrite
  split
  · exact shape_ite (shape_ttRunSet (shape_ite (shape_forUpTo (fun _ _ h => shape_trimBuilt h) (shape_put (calm_bits rfl) (hput _ hs))) (shape_put (calm_bits rfl)
      (hput _ hs)))) (shape_ite (shape_ttRunClear
      (shape_ite (shape_forUpTo (fun _ _ h => shape_trimBuilt h) (shape_put (calm_bits rfl) (hput _ hs))) (shape_put (calm_bits rfl) (hput _ hs)))) (shape_ite (shape_forUpTo
        (fun _ _ h => shape_trimBuilt h)
      (shape_put (calm_bits rfl) (hput _ hs))) (shape_put (calm_bits rfl) (hput _ hs))))
  · exact shape_ite (shape_ttSwap hs) (shape_ite (shape_ttCopy hs) hs)
  · exact shape_gateWrite (hput _ hs)
  · exact shape_slotWrite hs
  · exact shape_pickSlot (hput _ hs)
  · exact shape_slotEdit hs
  · exact hput _ hs

theorem shape_txnCmd {u cmd : Nat} {s : State} (hs : s.Shape) : (txnCmd u cmd s).Shape := by
  unfold txnCmd
  exact shape_ite (shape_txnOpen hs) (shape_ite (shape_txnCommit hs) (shape_ite (shape_txnAbort hs) hs))

theorem shape_timerRegWrite {u off old w : Nat} {put : State → State} {s : State} (hs : s.Shape) (hput : ∀ s, s.Shape → (put s).Shape) :
    (timerRegWrite u off old w put s).Shape := by
  unfold timerRegWrite
  split
  · have begun := fun v => shape_trimResidue (u := u) (shape_put (calm_bits rfl) (f := F.TMR_CTRL_RUN u) (v := v) (hput s hs))
    exact shape_ite (shape_timerStart (begun _)) (shape_ite (shape_timerStop (begun _)) (begun _))
  · exact shape_preloadWrite (calmAt_indexed rfl rfl) hs
  · exact shape_preloadWrite (calmAt_indexed rfl rfl) hs
  · exact shape_preloadWrite (calmAt_indexed rfl rfl) hs
  · exact shape_takeSafe (hput s hs)
  · exact shape_timerCmd hs
  · exact hput s hs

theorem shape_reenrol {s : State} (hs : s.Shape) : (reenrol s).Shape := by
  unfold reenrol
  exact shape_ite hs (shape_sendHello hs)

theorem shape_linkRegWrite {n off old w : Nat} {put : State → State} {s : State} (hs : s.Shape) (hput : ∀ x0, x0.Shape → (put x0).Shape) :
    (linkRegWrite n off old w put s).Shape := by
  unfold linkRegWrite
  exact shape_ite (shape_ite hs (shape_linkDownWrite hs)) (shape_ite (shape_ite (shape_reenrol hs) (shape_ite (shape_resync hs) hs)) (hput _ hs))

theorem shape_sysRegWrite {writer off a w : Nat} {put : State → State} {s : State} (ha : CalmAt a) (hs : s.Shape) (hput : ∀ s, s.Shape → (put s).Shape) :
    (sysRegWrite writer off a w put s).Shape := by
  unfold sysRegWrite
  refine shape_ite (shape_rmapCommand hs) (shape_ite (shape_ite (shape_softReset hs) hs) (shape_ite (shape_forUpTo (fun _ _ hs => shape_ite (shape_unitRelease hs) hs) hs)
    (shape_ite (shape_ite hs (shape_checkedWrite hs ha)) (shape_ite ?_ (hput s hs)))))
  exact shape_ite hs (shape_ite (shape_slotClear hs) (shape_ite (shape_slotClear hs) hs))

theorem shape_trendStatWrite {w : Nat} {put : State → State} {s : State} (hs : s.Shape) (hput : ∀ x0, x0.Shape → (put x0).Shape) : (trendStatWrite w put s).Shape := by
  unfold trendStatWrite
  exact shape_ite (shape_put (calm_fixed rfl) (shape_put (calm_bits rfl) (hput _ hs))) (hput _ hs)

/-- The registers of every unit but the cores lie above every trap depth. -/
theorem calmAt_of_blockOf {a : Nat} (h : 0x40 < blockOf a) : CalmAt a := fun c hc e => by
  subst e
  unfold blockOf A.SRT_STAT at h
  split at h <;> omega

theorem shape_regAct {writer a old w : Nat} {put : State → State} {s : State} (hs : s.Shape) (hput : ∀ s, s.Shape → (put s).Shape) : (regAct writer a old w put s).Shape := by
  unfold regAct
  dsimp only
  split
  · exact shape_sysRegWrite (calmAt_of_blockOf (by omega)) hs hput
  split
  · exact shape_coreRegWrite hs hput
  split
  · exact shape_portRegWrite (calmAt_of_blockOf (by omega)) hs hput
  split
  · exact shape_chainRegWrite hs hput
  split
  · exact shape_linkRegWrite hs hput
  split
  · exact shape_gateRegWrite (calmAt_of_blockOf (by omega)) hs hput
  split
  · exact shape_trendStatWrite hs hput
  split
  · exact shape_seqRegWrite hs hput
  exact shape_ite (shape_txnCmd (hput s hs)) (shape_ite (shape_timerRegWrite hs hput) (hput s hs))

theorem shape_raWhileBusy {b w : Nat} {s : State} (hb : CalmAt (b + 4)) (hs : s.Shape) : (raWhileBusy b w s).Shape := by
  unfold raWhileBusy
  exact shape_ite (shape_setReg hb hs) hs

/-- The register that shows a core's trap depth lets no write change it. -/
theorem depth_readOnly : ∀ c, c < 65 → (findReg (A.SRT_STAT c)).all (fun p => decide ((⟨8, 7, .ro, 0, .any⟩ : FieldDef) ∈ p.1.fields)) = true := by decide +kernel

theorem shape_setPlain {a b w : Nat} {d : RegDef} {i : Nat} {s : State} (hs : s.Shape) (hf : findReg a = some (d, i)) (hb : b = a ∨ CalmAt b) :
    (s.setReg b (BitVec.ofNat 32 (plainWord d (s.reg b).toNat w))).Shape := by
  rcases hb with rfl | hb
  · refine shape_regs hs fun c hc => ?_
    change (s.setReg b _).get (F.SRT_STAT_TDEPTH c) ≤ 2
    by_cases h : b = A.SRT_STAT c
    · subst h
      have shown := depth_readOnly c hc
      simp only [hf, Option.all_some, decide_eq_true_eq] at shown
      have kept := fieldsFollow_plainWord (rowTidy_of_mem_blockDefs (findReg_row hf).1) (s.reg (A.SRT_STAT c)) w _ shown
      exact (get_setReg_self s _ (F.SRT_STAT_TDEPTH c)).trans_le (kept.trans_le (shape_depth hs hc))
    · exact (get_setReg_ne s _ _ h).trans_le (shape_depth hs hc)
  · exact shape_setReg hb hs

/-- A bank's copy of a register lies above every trap depth (R425). -/
theorem calmAt_bankAddr {writer a b : Nat} (h : isBanked a = true) (hb : bankAddr writer a = some b) : CalmAt b ∧ CalmAt (b + 4) := by
  have above : 0x10070000 ≤ a := by
    simp only [isBanked, Bool.or_eq_true, beq_iff_eq, Bool.and_eq_true, decide_eq_true_eq, A.LEDG_TXN] at h
    omega
  have copy : 0x10070000 ≤ b := by
    unfold bankAddr at hb
    split at hb
    · split at hb
      · injection hb with hb
        rw [← hb, txnReg, A.LEDG_TXN]
        split <;> omega
      · cases hb
    · obtain ⟨c, -, rfl⟩ := Option.map_eq_some_iff.mp hb
      omega
  exact ⟨fun c hc => by unfold A.SRT_STAT; omega, fun c hc => by unfold A.SRT_STAT; omega⟩

theorem shape_regWriteBase {writer a : Nat} {w : Word} {s : State} (hs : s.Shape) : (regWriteBase writer a w s).Shape := by
  unfold regWriteBase
  refine shape_ite hs ?_
  split
  · exact shape_ite hs (shape_refuse hs)
  · refine shape_ite (shape_refuse hs) ?_
    split
    · exact hs
    · next d i hf =>
      dsimp only
      split
      · exact hs
      · next b hb =>
        have place : b = a ∨ CalmAt b ∧ CalmAt (b + 4) := by
          split at hb
          · next h => exact .inr (calmAt_bankAddr h hb)
          · exact .inl (Option.some.inj hb).symm
        split
        · next ra =>
          refine shape_raWhileBusy ?_ hs
          rcases place with rfl | place
          · exact ra ▸ calmAt_fixed rfl
          · exact place.2
        · exact shape_regAct hs fun s hs => shape_setPlain hs hf (place.imp_right And.left)

theorem shape_hostBytes_p {u a : Nat} {b : List Byte} {s : State} (hs : s.Shape) : (hostBytes u a b s).2.Shape := by
  have written : (memWrite u a b s).Shape := shape_memWrite hs
  unfold hostBytes
  split
  · split
    · split
      · exact shape_mark (calm_bits rfl) hs
      · exact written
    · split
      · exact shape_noteWrite written
      · exact shape_mark (calm_bits rfl) hs
  · split
    · split
      · exact shape_mark (calm_bits rfl) hs
      · exact written
    · exact shape_refuse hs

theorem shape_hostBytes_t {u a : Nat} {b : List Byte} {s : State} {r0 : Nat} {t : State} (he : hostBytes u a b s = (r0, t)) (hs : s.Shape) : t.Shape := by
  have k : State.Shape (hostBytes u a b s).2 := shape_hostBytes_p (hs := hs)
  rw [he] at k; exact k

theorem shape_hostWord_p {wr : Nat → Nat → Word → State → State} {u a : Nat} {w : Word} {s : State} (hs : s.Shape) (hwr : ∀ x0 x1 x2 x3, x3.Shape → (wr x0 x1 x2 x3).Shape) :
    (hostWord wr u a w s).2.Shape := by
  unfold hostWord
  dsimp only
  exact hwr _ _ _ _ hs

theorem shape_hostWord_t {wr : Nat → Nat → Word → State → State} {u a : Nat} {w : Word} {s : State} {r0 : Nat} {t : State} (he : hostWord wr u a w s = (r0, t)) (hs :
    s.Shape) (hwr : ∀ x0 x1 x2 x3, x3.Shape → (wr x0 x1 x2 x3).Shape) : t.Shape := by
  have k : State.Shape (hostWord wr u a w s).2 := shape_hostWord_p (hs := hs) (hwr := hwr)
  rw [he] at k; exact k

theorem shape_portBytes {u a : Nat} {b : List Byte} {s : State} (hs : s.Shape) : (portBytes u a b s).Shape := by
  unfold portBytes
  exact shape_ite (shape_mark (calm_bits rfl) hs) (shape_hostBytes_p hs)

theorem shape_portWord {wr : Nat → Nat → Word → State → State} {u a : Nat} {w : Word} {s : State} (hs : s.Shape) (hwr : ∀ x0 x1 x2 x3, x3.Shape → (wr x0 x1 x2 x3).Shape) :
    (portWord wr u a w s).Shape := by
  unfold portWord
  exact shape_ite (shape_mark (calm_bits rfl) hs) (hwr _ _ _ _ hs)

theorem shape_busWrite {u a : Nat} {b : List Byte} {s : State} (hs : s.Shape) : (busWrite u a b s).Shape := by
  unfold busWrite
  exact shape_ite (shape_portBytes hs) (shape_ite (shape_ite (shape_hostBytes_p hs) (shape_ite (shape_mark (calm_bits rfl) hs) hs)) (shape_ite (shape_hostBytes_p hs) (shape_ite
    (shape_mark (calm_bits rfl) hs) (shape_memWrite hs))))

theorem shape_hostReadByte_p {u a : Nat} {s : State} (hs : s.Shape) : (hostReadByte u a s).2.Shape := by
  unfold hostReadByte
  dsimp only
  split
  · exact shape_free_p hs
  · exact hs

theorem shape_hostReadByte_t {u a : Nat} {s : State} {r0 : Byte} {t : State} (he : hostReadByte u a s = (r0, t)) (hs : s.Shape) : t.Shape := by
  have k : State.Shape (hostReadByte u a s).2 := shape_hostReadByte_p (hs := hs)
  rw [he] at k; exact k

theorem shape_hostReadBytes_t {u n a : Nat} {s t : State} {r : List Byte} (e : hostReadBytes u n a s = (r, t)) (hs : s.Shape) : t.Shape := by
  induction n generalizing a s r with
  | zero => cases e; exact hs
  | succ n ih =>
    unfold hostReadBytes at e
    rcases h1 : hostReadByte u a s with ⟨b, s1⟩
    rw [h1] at e; dsimp only at e
    rcases h2 : hostReadBytes u n (a + 1) s1 with ⟨bs, s2⟩
    rw [h2] at e; cases e
    exact ih h2 (shape_hostReadByte_t h1 hs)

theorem shape_hostReadBytes_p {u n a : Nat} {s : State} (hs : s.Shape) : (hostReadBytes u n a s).2.Shape := by
  exact shape_hostReadBytes_t (r := (hostReadBytes u n a s).1) rfl hs

theorem shape_hostRead_p {u n a : Nat} {s : State} (hs : s.Shape) : (hostRead u n a s).2.Shape := shape_hostReadBytes_p (shape_ite (shape_readSpan hs) hs)

theorem shape_hostReadWord_p {u a : Nat} {s : State} (hs : s.Shape) : (hostReadWord u a s).2.Shape := by
  unfold hostReadWord
  dsimp only
  split
  · exact shape_regRead_p hs
  · exact shape_hostRead_p hs

theorem shape_hostReadWord_t {u a : Nat} {s : State} {r0 : Nat} {t : State} (he : hostReadWord u a s = (r0, t)) (hs : s.Shape) : t.Shape := by
  have k : State.Shape (hostReadWord u a s).2 := shape_hostReadWord_p (hs := hs)
  rw [he] at k; exact k

theorem shape_pieceDone {u : Nat} {ahead : Bool} {p : BusPiece} {s : State} (hs : s.Shape) : (pieceDone u ahead p s).Shape := by
  unfold pieceDone
  refine shape_ite hs ?_
  split
  · exact shape_readSpan hs
  · exact shape_busWrite hs

theorem shape_markSlow {u : Nat} {s : State} (hs : s.Shape) : (markSlow u s).Shape := by
  unfold markSlow
  exact shape_incSat (calm_core rfl rfl) (shape_mark (calm_bits rfl) hs)

theorem shape_noteWindowWait {g : Grant} {reqs : List BusReq} {s : State} (hs : s.Shape) : (noteWindowWait g reqs s).Shape := by
  unfold noteWindowWait
  exact shape_ite (shape_markSlow hs) hs

theorem shape_beginGrant {b : Nat} {g : Grant} {a : Arb} {s : State} (hs : s.Shape) : (beginGrant b g a s).Shape := by
  unfold beginGrant
  exact shape_foldl (fun _ _ h => shape_pieceDone h) (shape_ite (shape_modArb (shape_noteWindowWait hs)) (shape_incWrap (calm_indexed rfl rfl) (shape_modArb
    (shape_noteWindowWait hs))))

theorem shape_expelMasked {b : Nat} {s : State} (hs : s.Shape) : (expelMasked b s).Shape := by
  unfold expelMasked
  split
  · exact hs
  · exact shape_foldl (fun _ _ h => shape_coreTrap h) (shape_modArb hs)

theorem shape_nextGrant {b : Nat} {s : State} (hs : s.Shape) : (nextGrant b s).Shape := by
  unfold nextGrant
  split
  · exact hs
  · dsimp only
    split <;> exact shape_modArb hs

theorem shape_arbPhase {b : Nat} {s : State} (hs : s.Shape) : (arbPhase b s).Shape := by
  unfold arbPhase
  split
  · exact hs
  · refine shape_nextGrant (shape_expelMasked ?_)
    split
    · exact shape_modArb hs
    · exact shape_beginGrant hs

theorem shape_serveBus_t {u b f w : Nat} {ahead : Bool} {s t : State} {r : Nat} (e : serveBus u ahead b f w s = (r, t)) (hs : s.Shape) : t.Shape := by
  induction f generalizing w s with
  | zero => cases e; exact hs
  | succ f ih =>
    unfold serveBus at e
    split at e
    · cases e; exact hs
    · exact ih e (shape_arbPhase hs)

theorem shape_serveBus_p {u b f w : Nat} {ahead : Bool} {s : State} (hs : s.Shape) : (serveBus u ahead b f w s).2.Shape := by
  exact shape_serveBus_t (r := (serveBus u ahead b f w s).1) rfl hs

theorem shape_windowAccess {c : Nat} {ahead : Bool} {h : Nat} {data : Option (List Byte)} {s : State} (hs : s.Shape) : (windowAccess c ahead h data s).Shape := by
  unfold windowAccess
  with_reducible exact shape_ite (shape_markSlow (shape_serveBus_p (shape_raiseReq hs))) (shape_serveBus_p (shape_raiseReq hs))

theorem shape_patrolScrub {s : State} (hs : s.Shape) : (patrolScrub s).Shape := by
  unfold patrolScrub
  exact shape_ite hs (shape_modLedg rfl (shape_forUpTo (fun _ _ h => shape_raiseReq h) hs))

theorem shape_raWrites_t {u a : Nat} {l : List Word} {s t : State} {x r : Nat} (e : raWrites u a l (x, s) = (r, t)) (hs : s.Shape) : t.Shape := by
  induction l generalizing a s x with
  | nil => cases e; exact hs
  | cons w l ih =>
    unfold raWrites at e
    split at e
    next r1 s1 heq =>
      split at heq
      · exact ih e (shape_hostWord_t heq hs (fun _ _ _ _ h => shape_regWriteBase h))
      · exact ih e (shape_hostBytes_t heq hs)

theorem shape_raWrites_p {u a : Nat} {l : List Word} {x : Nat} {s : State} (hs : s.Shape) : (raWrites u a l (x, s)).2.Shape := by
  exact shape_raWrites_t (r := (raWrites u a l (x, s)).1) rfl hs

theorem shape_raReads_t {u n a : Nat} {s t : State} {r : List Nat} (e : raReads u n a s = (r, t)) (hs : s.Shape) : t.Shape := by
  induction n generalizing a s r with
  | zero => cases e; exact hs
  | succ n ih =>
    unfold raReads at e
    rcases h1 : hostReadWord u a s with ⟨b, s1⟩
    rw [h1] at e; dsimp only at e
    rcases h2 : raReads u n (a + 4) s1 with ⟨bs, s2⟩
    rw [h2] at e; cases e
    exact ih h2 (shape_hostReadWord_t h1 hs)

theorem shape_raReads_p {u n a : Nat} {s : State} (hs : s.Shape) : (raReads u n a s).2.Shape := by
  exact shape_raReads_t (r := (raReads u n a s).1) rfl hs

theorem shape_raAccess_p {u op words addr : Nat} {data : List Word} {s : State} (hs : s.Shape) : (raAccess u op words addr data s).2.2.Shape := by
  unfold raAccess
  dsimp only
  split
  · exact shape_raReads_p hs
  · exact shape_raWrites_p hs

theorem calmAt_raData (i c : Nat) : CalmAt (A.CAS_RA_DATA i + c * 2 ^ 32) := calmAt_indexed (Nat.add_assoc _ _ _) rfl

theorem shape_raDone {c result : Nat} {data : List Nat} {s : State} (hs : s.Shape) : (raDone c result data s).Shape :=
  shape_raFinish (shape_forUpTo (fun i _ hs => shape_setReg (calmAt_raData i c) hs) hs)

theorem shape_raRequest {c u w : Nat} {s : State} (hs : s.Shape) : (raRequest c u w s).Shape := by
  unfold raRequest
  extract_lets words op dst addr data s1
  have busy : s1.Shape := shape_put (calm_bits rfl) hs
  split
  · exact shape_raDone (shape_raAccess_p busy)
  · exact shape_raFinish busy
  · exact shape_ite (shape_raFinish busy) (shape_sendOn (shape_modEst busy))

theorem shape_regWrite {writer a : Nat} {w : Word} {s : State} (hs : s.Shape) : (regWrite writer a w s).Shape := by
  unfold regWrite
  split
  · exact shape_ite (shape_raRequest hs) (shape_regWriteBase hs)
  · exact shape_regWriteBase hs

theorem shape_raServe {n : Nat} {f : List Byte} {s : State} (hs : s.Shape) : (raServe n f s).Shape := by
  unfold raServe
  refine shape_ite (shape_countDrop hs) ?_
  dsimp only
  split
  · exact shape_sendOn (shape_raAccess_p hs)
  · exact shape_raAccess_p hs

theorem shape_takeRaReq {n : Nat} {f : List Byte} {s : State} (hs : s.Shape) : (takeRaReq n f s).Shape := by
  unfold takeRaReq
  split
  · exact shape_raServe hs
  · exact shape_sendOn hs
  · dsimp only
    split
    · exact shape_sendOn (shape_countDrop hs)
    · exact shape_countDrop hs

theorem shape_takeRaResp {n : Nat} {f : List Byte} {s : State} (hs : s.Shape) : (takeRaResp n f s).Shape := by
  unfold takeRaResp
  split
  · exact shape_sendOn hs
  · exact shape_countDrop hs
  · dsimp only
    split
    · exact hs
    · exact shape_raDone hs

theorem shape_raTimeout {c : Nat} {s : State} (hs : s.Shape) : (raTimeout c s).Shape := by
  unfold raTimeout
  exact shape_ite (shape_raFinish hs) hs

theorem shape_modHost {s : State} {f : HostPort → HostPort} (hs : s.Shape) : (State.modHost s f).Shape := by
  unfold State.modHost
  exact shape_mk rfl rfl hs

theorem shape_hostError {f : Fd} {addr : Option Nat} {s : State} (hs : s.Shape) (hf : Calm f := by with_unfolding_all exact .inr (calmAt_fixed rfl)) :
    (hostError f addr s).Shape := by
  unfold hostError
  extract_lets clear s1 s2
  have h1 : s1.Shape := by
    dsimp only [s1]
    split
    · exact shape_ite (shape_put (calm_fixed rfl) hs) hs
    · exact hs
  have h2 : s2.Shape := shape_ite h1 (shape_incSat (calm_fixed rfl) h1)
  exact shape_modHost (shape_mark hf h2)

theorem shape_hcsFall {s : State} (hs : s.Shape) : (hcsFall s).Shape := by
  unfold hcsFall
  exact shape_ite (shape_modHost hs) (shape_wakeRecognised (shape_modHost hs))

theorem shape_hcsRise {s : State} (hs : s.Shape) : (hcsRise s).Shape := by
  unfold hcsRise
  refine shape_modHost ?_
  split
  · exact shape_hostError hs
  · exact hs

theorem shape_hostCommand {one four : Bool} {act : State → State} {s : State} (hs : s.Shape) (hact : ∀ x0, x0.Shape → (act x0).Shape) : (hostCommand one four act s).Shape := by
  unfold hostCommand
  exact shape_ite hs (shape_ite (hact _ (shape_modHost (shape_incWrap (calm_bits rfl) hs))) (shape_hostError (shape_modHost (shape_incWrap (calm_bits rfl) hs))))

theorem shape_badCommand {s : State} (hs : s.Shape) : (badCommand s).Shape := shape_hostCommand hs fun _ hs => hs

theorem shape_sendOut {b : List Byte} {s : State} (hs : s.Shape) : (sendOut b s).Shape := by
  unfold sendOut
  exact shape_modHost hs

theorem shape_sendMore {m : HostMore} {s : State} (hs : s.Shape) : (sendMore m s).Shape := by
  unfold sendMore
  exact shape_modHost hs

theorem shape_rdsr {s : State} (hs : s.Shape) : (rdsr s).Shape := by
  unfold rdsr
  exact shape_hostCommand hs (fun _ h => shape_sendMore (shape_sendOut h))

theorem shape_readId {s : State} (hs : s.Shape) : (readId s).Shape := by
  unfold readId
  exact shape_hostCommand hs (fun _ h => shape_sendMore (shape_sendOut h))

theorem shape_applyOne {s : State} (hs : s.Shape) : (applyOne s).Shape := by
  unfold applyOne
  split
  · exact hs
  · dsimp only
    split
    · exact shape_portBytes (shape_modHost hs)
    · exact shape_portWord (shape_modHost hs) (fun _ _ _ _ h => shape_regWrite h)

theorem shape_settleWip {s : State} (hs : s.Shape) : (settleWip s).Shape := by
  unfold settleWip
  exact shape_putB (calm_bits rfl) hs

theorem shape_postedComplete {n : Nat} {s : State} (hs : s.Shape) : (postedComplete n s).Shape := by
  unfold postedComplete
  exact shape_ite hs (shape_settleWip (shape_iter (fun _ h => shape_applyOne h) hs))

theorem shape_postedAll {s : State} (hs : s.Shape) : (postedAll s).Shape := by
  unfold postedAll
  exact shape_postedComplete hs

theorem shape_postWrite {addr : Nat} {data : List Byte} {s : State} (hs : s.Shape) : (postWrite addr data s).Shape := by
  unfold postWrite
  refine shape_ite (shape_hostError hs) (shape_settleWip (shape_modHost (shape_ite (shape_hostError ?_) ?_)))
  · split
    · exact shape_hostError hs
    · exact hs
  · split
    · exact shape_hostError hs
    · exact hs

theorem shape_onFour {s : State} (hs : s.Shape) : (onFour s).Shape := by
  unfold onFour
  exact shape_modHost hs

theorem shape_hostWrite {addr : Nat} {data : List Byte} {s : State} (hs : s.Shape) : (hostWrite addr data s).Shape := by
  unfold hostWrite
  exact shape_hostCommand hs (fun _ h => shape_postWrite h)

theorem shape_hostWriteQ {addr : Nat} {data : List Byte} {s : State} (hs : s.Shape) : (hostWriteQ addr data s).Shape := by
  unfold hostWriteQ
  exact shape_hostCommand hs (fun _ h => shape_postWrite (shape_onFour h))

theorem shape_hostStream_p {n a : Nat} {first : Bool} {late : Option Nat} {latch : Nat} {s : State} (hs : s.Shape) : (hostStream n a first late latch s).2.2.Shape := by
  induction n generalizing a first late latch s with
  | zero => exact hs
  | succ n ih =>
    unfold hostStream
    dsimp only
    split
    · split
      · exact hs
      · refine ih (shape_hostReadByte_p ?_)
        exact shape_ite (shape_readAs hs) hs
    · refine ih ?_
      split
      · exact shape_regRead_p hs
      · exact hs

theorem shape_streamOut {addr n : Nat} {late : Option Nat} {s : State} (hs : s.Shape) : (streamOut addr n late s).Shape := by
  have streamed := shape_hostStream_p (n := n) (a := addr % 2 ^ 32) (first := true) (late := late) (latch := 0) (shape_postedAll hs)
  unfold streamOut
  dsimp only
  split
  · exact shape_modHost (shape_sendOut (shape_hostError streamed))
  · exact shape_modHost (shape_sendOut streamed)

theorem shape_hostReadCmd {addr n : Nat} {late : Option Nat} {s : State} (hs : s.Shape) : (hostReadCmd addr n late s).Shape := by
  unfold hostReadCmd
  exact shape_hostCommand hs (fun _ h => shape_streamOut h)

theorem shape_hostReadQ {addr n : Nat} {late : Option Nat} {s : State} (hs : s.Shape) : (hostReadQ addr n late s).Shape := by
  unfold hostReadQ
  exact shape_hostCommand hs (fun _ h => shape_streamOut (shape_onFour h))

theorem shape_enterQuad {s : State} (hs : s.Shape) : (enterQuad s).Shape := by
  unfold enterQuad
  exact shape_hostCommand hs (fun _ h => shape_mark (calm_fixed rfl) h)

theorem shape_exitQuad {s : State} (hs : s.Shape) : (exitQuad s).Shape := by
  unfold exitQuad
  exact shape_hostCommand hs (fun _ h => shape_put (calm_fixed rfl) h)

theorem shape_resetEn {s : State} (hs : s.Shape) : (resetEn s).Shape := by
  unfold resetEn
  exact shape_hostCommand hs (fun _ h => shape_modHost h)

theorem shape_hostReset {s : State} (hs : s.Shape) : (hostReset s).Shape := by
  unfold hostReset
  exact shape_ite (shape_hostCommand hs (fun _ h => shape_setReg (calmAt_fixed rfl) (shape_postedAll h))) (shape_badCommand hs)

theorem shape_hostCut {s : State} (hs : s.Shape) : (hostCut s).Shape := by
  unfold hostCut
  exact shape_modHost (shape_hcsRise hs)

theorem shape_modTwp {s : State} {f : Twp → Twp} (hs : s.Shape) : (State.modTwp s f).Shape := by
  unfold State.modTwp
  exact shape_mk rfl rfl hs

theorem shape_twpApply {s : State} (hs : s.Shape) : (twpApply s).Shape := by
  unfold twpApply
  split
  · exact hs
  · exact shape_portBytes (shape_modTwp hs)

theorem shape_twpLeave {s : State} (hs : s.Shape) : (twpLeave s).Shape := by
  unfold twpLeave
  split
  · exact hs
  · exact shape_ite hs (shape_twpApply hs)

theorem shape_twpBreak {a : Nat} {s : State} (hs : s.Shape) : (twpBreak a s).Shape := by
  unfold twpBreak
  split
  · exact hs
  · exact shape_ite hs (shape_twpApply hs)

theorem shape_twpDropWord {s : State} (hs : s.Shape) : (twpDropWord s).Shape := by
  unfold twpDropWord
  exact shape_ite hs (shape_modTwp (shape_mark (calm_bits rfl) hs))

theorem shape_twpWordByte {a : Nat} {b : Byte} {act : Nat → Word → State → State} {s : State} (hs : s.Shape) (hact : ∀ x0 x1 x2, x2.Shape → (act x0 x1 x2).Shape) :
    (twpWordByte a b act s).Shape := by
  unfold twpWordByte
  exact shape_ite (shape_modTwp (shape_twpDropWord hs)) (shape_ite (shape_ite (hact _ _ _ (shape_modTwp hs)) (shape_modTwp hs)) (shape_mark (calm_bits rfl)
    (shape_twpDropWord hs)))

theorem shape_windowWord {a : Nat} {w : Word} {s : State} (hs : s.Shape) : (windowWord a w s).Shape := by
  unfold windowWord
  exact shape_ite (shape_portWord hs (fun _ _ _ _ h => shape_regWrite h)) (shape_portBytes hs)

theorem shape_pageRefuse {s : State} (hs : s.Shape) : (pageRefuse s).Shape := by
  unfold pageRefuse
  exact shape_refuse hs

theorem shape_twpPutAt {p : Nat} {b : Byte} {s : State} (hs : s.Shape) : (twpPutAt p b s).Shape := by
  unfold twpPutAt
  exact shape_ite (shape_ite (shape_pageRefuse hs) (shape_put (calm_fixed rfl) hs)) (shape_ite (shape_ite hs (shape_pageRefuse hs)) (shape_ite (shape_ite (shape_twpWordByte hs
    (fun _ _ _ h => shape_regWrite h)) (shape_ite hs (shape_pageRefuse hs))) (shape_ite (shape_ite (shape_modTwp (shape_twpBreak hs)) (shape_twpWordByte hs
    (fun _ _ _ h => shape_windowWord h))) (shape_ite hs (shape_ite (shape_portWord hs (fun _ _ _ _ h => shape_regWrite h)) (shape_pageRefuse hs))))))

theorem shape_twpPut {b : Byte} {s : State} (hs : s.Shape) : (twpPut b s).Shape := by
  unfold twpPut
  exact shape_twpLeave (shape_modTwp (shape_twpPutAt (shape_twpLeave hs)))

theorem shape_twpByte {b : Byte} {s : State} (hs : s.Shape) : (twpByte b s).Shape := by
  unfold twpByte
  exact shape_ite (shape_modTwp hs) (shape_twpPut hs)

theorem shape_setWindow {base page : Nat} {s : State} (hs : s.Shape) : (setWindow base page s).Shape := by
  unfold setWindow
  exact shape_put (calm_fixed rfl) (shape_put (calm_fixed rfl) hs)

theorem shape_heldByte_p {p : (Nat × Nat) × State} {h : HeldByte} (hp : p.2.Shape) : (heldByte p h).2.Shape := by
  unfold heldByte
  dsimp only
  exact shape_twpByte (shape_setWindow hp)

theorem shape_heldBytes {l : List HeldByte} {s : State} (hs : s.Shape) : (heldBytes l s).Shape := by
  unfold heldBytes
  split
  · exact hs
  · exact shape_setWindow (shape_foldl_snd (fun _ _ hp => shape_heldByte_p hp) (shape_setWindow hs))

theorem shape_segmentEnd {again : Bool} {s : State} (hs : s.Shape) : (segmentEnd again s).Shape := by
  unfold segmentEnd
  exact shape_twpDropWord (shape_twpApply (shape_ite (shape_modTwp hs) (shape_ite (shape_heldBytes (shape_modTwp hs)) (shape_ite (shape_heldBytes (shape_modTwp hs))
    (shape_mark (calm_bits rfl) (shape_modTwp hs))))))

theorem shape_twpAbort {s : State} (hs : s.Shape) : (twpAbort s).Shape := by
  unfold twpAbort
  exact shape_twpDropWord (shape_twpApply (shape_modTwp (shape_ite (shape_mark (calm_bits rfl) hs) hs)))

theorem shape_fetchMemory_p {p : Nat} {s : State} (hs : s.Shape) : (fetchMemory p s).2.Shape := by
  unfold fetchMemory
  dsimp only
  exact shape_hostRead_p hs

theorem shape_outboxPage_p {s : State} (hs : s.Shape) : (outboxPage s).2.Shape := by
  unfold outboxPage
  dsimp only
  split
  · exact hs
  · exact shape_readSpan hs

theorem shape_twpFetch {s : State} (hs : s.Shape) : (twpFetch s).Shape := by
  unfold twpFetch
  with_reducible refine shape_ite (shape_ite hs (shape_modTwp (shape_fetchMemory_p hs))) (shape_ite hs (shape_modTwp ?_))
  split
  · exact shape_hostReadWord_p hs
  · split
    · exact shape_outboxPage_p hs
    · exact hs

theorem shape_twpRead_p {s : State} (hs : s.Shape) : (twpRead s).2.Shape := by
  unfold twpRead
  dsimp only
  exact shape_ite hs (shape_twpFetch hs)

theorem shape_twpAcked {ack : Bool} {s : State} (hs : s.Shape) : (twpAcked ack s).Shape := by
  unfold twpAcked
  exact shape_ite (shape_modTwp hs) (shape_ite hs (shape_twpFetch hs))

theorem shape_twpReadByte {ready ack : Bool} {s : State} (hs : s.Shape) : (twpReadByte ready ack s).Shape := by
  unfold twpReadByte
  with_reducible refine shape_ite hs (shape_ite (shape_twpAcked (shape_modTwp hs)) (shape_twpAcked (shape_modTwp ?_)))
  split
  · exact shape_twpRead_p hs
  · exact shape_mark (calm_bits rfl) hs

theorem shape_twpWriteByte {b : Byte} {s : State} (hs : s.Shape) : (twpWriteByte b s).Shape := by
  unfold twpWriteByte
  exact shape_ite hs (shape_ite (shape_modTwp (shape_modTwp hs)) (shape_twpByte (shape_modTwp hs)))

theorem shape_twpStart {misplaced : Bool} {s : State} (hs : s.Shape) : (twpStart misplaced s).Shape := by
  unfold twpStart
  exact shape_ite hs (shape_modTwp (shape_ite (shape_twpAbort (shape_mark (calm_bits rfl) hs)) (shape_ite (shape_segmentEnd hs) hs)))

theorem shape_countXfer {s : State} (hs : s.Shape) : (countXfer s).Shape := by
  unfold countXfer
  exact shape_ite hs (shape_modTwp (shape_incWrap (calm_bits rfl) hs))

theorem shape_twpAddress {b : Byte} {s : State} (hs : s.Shape) : (twpAddress b s).Shape := by
  unfold twpAddress
  exact shape_ite hs (shape_ite (shape_ite (shape_ite (shape_modTwp (shape_countXfer (shape_wakeRecognised (shape_modTwp hs)))) (shape_modTwp (shape_wakeRecognised
    (shape_modTwp hs)))) (shape_modTwp (shape_modTwp hs))) (shape_ite hs (shape_ite (shape_ite (shape_twpFetch (shape_modTwp (shape_countXfer (shape_wakeRecognised
    (shape_modTwp hs))))) (shape_modTwp (shape_countXfer (shape_wakeRecognised (shape_modTwp hs))))) (shape_ite (shape_modTwp hs) (shape_modTwp (shape_modTwp hs))))))

theorem shape_alertResponse {others : List (Byte × Byte)} {s : State} (hs : s.Shape) : (alertResponse others s).Shape := by
  unfold alertResponse
  exact shape_ite hs (shape_ite (shape_incSat (calm_fixed rfl) (shape_put (calm_bits rfl) (shape_mark (calm_bits rfl) (shape_modTwp hs)))) (shape_modTwp (shape_modTwp hs)))

theorem shape_twpStop {misplaced : Bool} {s : State} (hs : s.Shape) : (twpStop misplaced s).Shape := by
  unfold twpStop
  exact shape_ite hs (shape_modTwp (shape_ite (shape_twpAbort (shape_mark (calm_bits rfl) hs)) (shape_ite (shape_segmentEnd hs) hs)))

theorem shape_twpTimeout {s : State} (hs : s.Shape) : (twpTimeout s).Shape := by
  unfold twpTimeout
  exact shape_ite hs (shape_modTwp (shape_twpAbort (shape_mark (calm_bits rfl) hs)))

theorem shape_checkFault {u code : Nat} {s : State} (hs : s.Shape) : (checkFault u code s).Shape := by
  unfold checkFault
  exact shape_ite hs (shape_ite (shape_raiseFault hs) (shape_ite (shape_mk rfl rfl (shape_openRecovery (shape_beginReset (shape_raiseFault hs)))) (shape_openRecovery
    (shape_beginReset (shape_raiseFault hs)))))

theorem shape_portRecover {p : Nat} {s : State} (hs : s.Shape) : (portRecover p s).Shape := by
  unfold portRecover
  split
  · exact hs
  · refine shape_ite (shape_ite (shape_walkOut (shape_stopPort (shape_modPort (shape_abandonExchange hs)))) (shape_stopPort (shape_modPort (shape_abandonExchange hs)))) ?_
    split
    · exact shape_walkPinged (shape_modPort (shape_abandonExchange hs))
    · exact shape_modPort (shape_modPort (shape_abandonExchange hs))
    · exact shape_modPort (shape_abandonExchange hs)
    · exact shape_ite (shape_finishRound (shape_modPort (shape_abandonExchange hs))) (shape_advance (shape_modPort (shape_abandonExchange hs)))

theorem shape_chainRecover {i : Nat} {s : State} (hs : s.Shape) : (chainRecover i s).Shape := by
  unfold chainRecover
  exact shape_ite (shape_modChain (shape_chainBegin (shape_chainHalt hs))) (shape_chainHalt hs)

theorem shape_linkRecover {n : Nat} {s : State} (hs : s.Shape) : (linkRecover n s).Shape := by
  unfold linkRecover
  exact shape_ite (shape_leaveActive hs) (shape_ite (shape_retrain hs) (shape_ite (shape_beginTraining hs) hs))

theorem shape_ledgerRecover {s : State} (hs : s.Shape) : (ledgerRecover s).Shape := by
  unfold ledgerRecover
  exact shape_foldl (fun _ _ h => shape_retireRecord h) (shape_foldl (fun _ _ h => shape_failTxn h) (shape_heldReleased (shape_redoHeld (shape_drainBuffers
    (shape_modLedg rfl hs)))))

theorem shape_dayRecover {s : State} (hs : s.Shape) : (dayRecover s).Shape := by
  unfold dayRecover
  refine shape_ite hs ?_
  dsimp only
  exact shape_mk rfl rfl (shape_mark (calm_bits rfl) (shape_incSat (calm_bits rfl) hs))

theorem shape_unitRecover {u : Nat} {s : State} (hs : s.Shape) : (unitRecover u s).Shape := by
  unfold unitRecover
  refine shape_ite (shape_coreReset hs) (shape_ite (shape_portRecover hs) (shape_ite (shape_chainRecover hs) (shape_ite (shape_linkRecover hs) ?_)))
  split
  · exact shape_hostCut hs
  · exact shape_twpTimeout hs
  · exact shape_retryNodes (shape_forUpTo (fun _ _ h => shape_cancelBack h) hs)
  · exact shape_advanceAll hs
  · exact shape_ledgerRecover hs
  · exact shape_modLedg rfl hs
  · exact shape_put (calm_fixed rfl) hs
  · exact shape_dayRecover hs
  · exact hs

theorem shape_clearChecks {u : Nat} {s : State} (hs : s.Shape) : (clearChecks u s).Shape := by
  unfold clearChecks
  exact shape_ite (shape_clearSlot (shape_ite (shape_clearSlot hs) hs)) (shape_ite (shape_clearSlot hs) hs)

theorem shape_unitResetComplete {u : Nat} {s : State} (hs : s.Shape) : (unitResetComplete u s).Shape := by
  unfold unitResetComplete
  exact shape_ite hs (shape_closeRecovery (shape_clearChecks (shape_unitRecover (shape_mk rfl rfl hs))))

theorem shape_dayBookWrite {s : State} (hs : s.Shape) : (dayBookWrite s).Shape := by
  unfold dayBookWrite
  exact shape_ite hs (shape_dayNext hs)

end Sys2Proof.Machine

/-!
PROOFS. The cores' instructions, the test access port and the rows of the catalogue keep the shape of the machine (04, 11).
-/

namespace Sys2Proof.Machine

theorem shape_predict_p {i : Nat} {k : Core} {r : List Byte} {s : State} (hs : s.Shape) : (predict i k r s).2.Shape := by
  unfold predict
  dsimp only
  split
  · exact hs
  · exact shape_free_p hs

theorem shape_evNext_p {c : Nat} {mayAhead : Bool} {s : State} (hs : s.Shape) : (evNext c mayAhead s).2.2.Shape := by
  unfold evNext
  split
  · exact hs
  · next k hk =>
    split
    · next r rest hq =>
      have taken : (s.modCore c (fun k => takeRecord (s.flag (F.SRT_STAT_SEALED c)) r { k with queue := rest })).Shape := by
        refine shape_modCore hs fun k' hk' room => (load_takeRecord _ r _).trans ?_
        cases hk.symm.trans hk'
        simp only [Core.load, hq, List.length_cons] at room ⊢
        omega
      exact shape_ite (shape_mk rfl rfl taken) taken
    · split
      · exact hs
      · extract_lets i live
        split
        · exact shape_predict_p (i := i) hs
        · exact hs

theorem shape_ioRead_p {c : Nat} {mayAhead : Bool} {o : Nat} {s : State} (hs : s.Shape) : (ioRead c mayAhead o s).2.2.Shape := by
  unfold ioRead
  dsimp only
  split
  · exact hs
  · split
    · exact shape_evNext_p hs
    · split
      · exact shape_modCore hs (fun _ _ h => h)
      · split
        · exact shape_modCore hs (fun _ _ h => h)
        · split
          · exact shape_modCore hs (fun _ _ h => h)
          · split
            · exact shape_modCore (shape_regRead_p hs) (fun _ _ h => h)
            · split
              · exact hs
              · exact hs

theorem shape_ioRead_t {c : Nat} {mayAhead : Bool} {o : Nat} {s : State} {r0 : Nat} {r1 : Intake} {t : State} (he : ioRead c mayAhead o s = (r0, r1, t)) (hs : s.Shape) :
    t.Shape := by
  have k : State.Shape (ioRead c mayAhead o s).2.2 := shape_ioRead_p (hs := hs)
  rw [he] at k; exact k

theorem shape_ioRefuse {c o : Nat} {s : State} (hs : s.Shape) : (ioRefuse c o s).Shape := by
  unfold ioRefuse
  exact shape_refuse hs

theorem shape_startSeal {c : Nat} {s : State} (hs : s.Shape) : (startSeal c s).Shape := by
  unfold startSeal
  extract_lets flt s1 fail opened
  have begun : s1.Shape := shape_ite (shape_mk rfl rfl hs) hs
  clear_value s1
  split
  · exact begun
  · extract_lets ls go hold
    have fails : ∀ (b : Bool) (s : State), s.Shape → (fail b s).Shape := fun _ _ hs => shape_modCore hs fun _ _ h => h
    have goes : ∀ s : State, s.Shape → (go s).Shape := fun _ hs => shape_modCore (shape_modTxn hs) fun _ _ h => h
    have holds : ∀ s : State, s.Shape → (hold s).Shape := fun _ hs => shape_modCore (shape_modLedg rfl (shape_modTxn hs)) fun _ _ h => h
    split
    · exact shape_ite (fails _ _ (shape_dropTxn begun)) (shape_ite (fails _ _ (shape_dropTxn begun)) (shape_ite (holds _ begun) (goes _ begun)))
    · exact shape_ite (fails _ _ (shape_txnOpen begun)) (goes _ (shape_txnOpen begun))

theorem shape_coreTxnWrite {c cmd : Nat} {s : State} (hs : s.Shape) : (coreTxnWrite c cmd s).Shape := by
  unfold coreTxnWrite
  dsimp only
  split
  · exact shape_ite (shape_modCore (shape_txnCmd hs) fun _ _ h => h) (shape_txnCmd hs)
  · exact shape_txnCmd hs

theorem shape_coreOffer {c : Nat} {k : Core} {s : State} (hs : s.Shape) : (coreOffer c k s).Shape := by
  unfold coreOffer
  exact shape_offer (shape_modCore hs (fun _ _ h => h))

/-- What an option holds has the shape. -/
abbrev ShapeIn (o : Option State) : Prop := ∀ t ∈ o, t.Shape

theorem shapeIn_some {s : State} (hs : s.Shape) : ShapeIn (some s) := fun _ h => Option.some.inj h ▸ hs

theorem shapeIn_ite {p : Prop} [Decidable p] {o q : Option State} (ho : ShapeIn o) (hq : ShapeIn q) : ShapeIn (if p then o else q) := by
  split
  · exact ho
  · exact hq

theorem shape_ioWrite {c o : Nat} {b : Byte} {s : State} (hs : s.Shape) : ShapeIn (ioWrite c o b s) := by
  unfold ioWrite
  split
  · exact shapeIn_some hs
  · next k hk =>
    have changed : ∀ f : Core → Core, (∀ k, (f k).load = k.load) → ShapeIn (some (s.modCore c f)) := fun f hf => shapeIn_some (shape_modCore hs fun k _ h => (hf k).trans_le h)
    have answered : ∀ {p : Prop} [Decidable p] {t : State}, t.Shape → ShapeIn (some (if p then t else ioRefuse c o s)) := fun ht => shapeIn_some (shape_ite ht
      (shape_ioRefuse hs))
    refine shapeIn_ite (changed _ fun _ => rfl) (shapeIn_ite (changed _ fun _ => rfl) (shapeIn_ite ?_ (shapeIn_ite (answered (shape_coreTxnWrite hs)) (shapeIn_ite (answered
      (shape_startSeal hs))
      (shapeIn_ite (answered (shape_modCore hs fun _ _ h => h)) (shapeIn_ite (answered (shape_coreOffer hs)) (shapeIn_ite (changed _ fun _ => rfl) (shapeIn_ite
        (changed _ fun _ => rfl)
      (shapeIn_ite (changed _ fun _ => rfl) (shapeIn_ite ?_ (shapeIn_some hs)))))))))))
    · exact shapeIn_ite (shapeIn_some (shape_ioRefuse hs)) (shapeIn_ite (changed _ fun _ => rfl) fun _ h => nomatch h)
    · exact shapeIn_some (shape_regWrite (shape_modCore hs fun _ _ h => h))

theorem shape_coreWrite {c a : Nat} {b : Byte} {s : State} (hs : s.Shape) : ShapeIn (coreWrite c a b s) := by
  unfold coreWrite
  refine shapeIn_ite (shape_ioWrite hs) ?_
  split
  · exact shapeIn_some hs
  · exact shapeIn_some (shape_ite (shape_windowAccess hs) (shape_modCore hs fun k _ h => (load_setPriv k a b).trans_le h))

theorem shape_coreWrites {c : Nat} {l : List (Nat × Byte)} {s : State} (hs : s.Shape) : ShapeIn (coreWrites c l s) := by
  induction l generalizing s with
  | nil => exact shapeIn_some hs
  | cons x l ih =>
    intro t h
    obtain ⟨s1, h1, h2⟩ := Option.bind_eq_some_iff.mp h
    exact ih (shape_coreWrite hs s1 h1) t h2

theorem shape_specHold {c : Nat} {s : State} (hs : s.Shape) : (specHold c s).Shape := by
  unfold specHold
  exact shape_put (calm_bits rfl) hs

theorem shape_failCheck {c cause : Nat} {s : State} (hs : s.Shape) : (failCheck c cause s).Shape := by
  unfold failCheck
  exact shape_ite (shape_specHold hs) (shape_ite (shape_budgetTrap hs) (shape_coreTrap hs))

theorem shape_windowReads {c : Nat} {k : Core} {l : List Nat} {s : State} (hs : s.Shape) : (windowReads c k l s).Shape := by
  induction l generalizing s with
  | nil => exact hs
  | cons a l ih =>
    unfold windowReads
    dsimp only
    split
    · exact ih hs
    · split
      · exact shape_windowAccess hs
      · exact ih (shape_windowAccess hs)

theorem shape_readAll_t {c : Nat} {ahead : Bool} {k : Core} {s0 s t : State} {l : List Nat} {r1 : List Byte} {r2 : Intake} (e : readAll c ahead k s0 l s = (r1, r2, t)) (hs :
    s.Shape) : t.Shape := by
  induction l generalizing ahead s r1 r2 with
  | nil => cases e; exact hs
  | cons a l ih =>
    unfold readAll at e
    split at e
    · rcases h1 : ioRead c ahead (a - 0xC000) s with ⟨v, i, s1⟩
      rw [h1] at e; dsimp only at e
      rcases h2 : readAll c (ahead && i == .none) k s0 l s1 with ⟨vs, j, s2⟩
      rw [h2] at e; cases e
      exact ih h2 (shape_ioRead_t h1 hs)
    · rcases h2 : readAll c ahead k s0 l s with ⟨vs, j, s2⟩
      rw [h2] at e; cases e
      exact ih h2 hs

theorem shape_readAll_p {c : Nat} {ahead : Bool} {k : Core} {s0 s : State} {l : List Nat} (hs : s.Shape) : (readAll c ahead k s0 l s).2.2.Shape := by
  exact shape_readAll_t (r1 := (readAll c ahead k s0 l s).1) (r2 := (readAll c ahead k s0 l s).2.1) rfl hs

theorem shape_planReads_p {c : Nat} {ahead : Bool} {k : Core} {p : Plan} {s : State} (hs : s.Shape) : (planReads c ahead k p s).2.2.Shape := by
  unfold planReads
  dsimp only
  exact shape_readAll_p (shape_windowReads hs)

theorem shape_planReads_t {c : Nat} {ahead : Bool} {k : Core} {p : Plan} {s : State} {r0 : List Byte} {r1 : Intake} {t : State} (he :
    planReads c ahead k p s = (r0, r1, t)) (hs : s.Shape) : t.Shape := by
  have k : State.Shape (planReads c ahead k p s).2.2 := shape_planReads_p (hs := hs)
  rw [he] at k; exact k

theorem shape_perform {c : Nat} {ahead : Bool} {k : Core} {p : Plan} {ser : CoreRegs → Series} {after : State → State} {s : State} (hs : s.Shape)
    (hafter : ∀ s, s.Shape → (after s).Shape) : (perform c ahead k p ser after s).Shape := by
  unfold perform
  split
  next vals intake s1 hr =>
  have read : s1.Shape := shape_planReads_t hr hs
  split
  next r bs _ =>
  extract_lets s2 s3 s4
  have begun : s3.Shape := shape_modCore (shape_chargeCore read) fun _ _ h => h
  have taken : s4.Shape := by
    dsimp only [s4]
    split
    · exact begun
    · exact shape_modCore begun fun _ _ h => h
    · exact shape_modCore begun fun _ _ h => h
  split
  · exact shape_failCheck hs
  · next s5 hw =>
    extract_lets s6
    have written : s6.Shape := hafter _ (shape_modCore (shape_coreWrites taken s5 hw) fun _ _ h => h)
    split
    · exact shape_mark (calm_bits rfl) (shape_modCore written fun _ _ h => h)
    · exact written

theorem shape_runPlan {c : Nat} {ahead : Bool} {p : Plan} {ser : CoreRegs → Series} {stop : Bool} {after : State → State} {s : State} (hs : s.Shape) (hafter :
    ∀ x0, x0.Shape → (after x0).Shape) : (runPlan c ahead p ser stop after s).Shape := by
  unfold runPlan
  split
  · exact hs
  · refine shape_ite (shape_failCheck hs) (shape_ite (shape_failCheck hs) ?_)
    split
    · exact shape_failCheck hs
    · exact shape_ite (shape_specHold hs) (shape_coreTrap (shape_windowReads hs))
    · exact shape_ite (shape_failCheck hs) (shape_ite (shape_specHold hs) (shape_ite hs (shape_perform hs (fun _ h => hafter _ h))))

theorem shape_coreWait {c : Nat} {s0 : State} (hs : s0.Shape) : (coreWait c s0).Shape := by
  unfold coreWait
  extract_lets flt s restart wait
  have taken : s.Shape := shape_ite (shape_mk rfl rfl hs) hs
  have restarts : ∀ s, s.Shape → (restart s).Shape := fun _ hs => shape_modCore hs fun _ _ h => h
  have waits : ∀ s, s.Shape → (wait s).Shape := fun _ hs => shape_put (calm_bits rfl) hs
  clear_value s
  split
  · exact taken
  · refine shape_ite ?_ (shape_ite (waits _ taken) (restarts _ taken))
    dsimp only
    exact shape_ite (restarts _ (shape_requestEntry_p taken)) (waits _ (shape_requestEntry_p taken))

theorem shape_opAfter {c op : Nat} {s : State} (hs : s.Shape) : (opAfter c op s).Shape := by
  unfold opAfter
  exact shape_ite (shape_coreWait hs) (shape_ite (shape_endEntry hs) hs)

theorem shape_runOp {c : Nat} {ahead : Bool} {op : Nat} {plan : Nat → Ctx → Plan} {s : State} (hs : s.Shape) : (runOp c ahead op plan s).Shape := by
  unfold runOp
  split
  · exact hs
  · exact shape_ite (shape_failCheck hs) (shape_ite (shape_failCheck hs) (shape_ite (shape_failCheck hs) (shape_ite (shape_failCheck hs) (shape_runPlan hs
      (fun _ h => shape_opAfter h)))))

theorem shape_runUndefined {c : Nat} {s : State} (hs : s.Shape) : (runUndefined c s).Shape := by
  unfold runUndefined
  split
  · exact hs
  · exact shape_ite (shape_failCheck hs) (shape_failCheck hs)

theorem shape_rptRep {c : Nat} {ahead : Bool} {b : Byte} {s : State} (hs : s.Shape) : (rptRep c ahead b s).Shape := by
  unfold rptRep
  split
  · exact shape_runPlan hs fun _ hs => hs
  · exact hs

theorem shape_rptBegin {c : Nat} {s : State} (hs : s.Shape) : (rptBegin c s).Shape := by
  unfold rptBegin
  split
  · exact hs
  · have failed := fun cause => shape_failCheck (c := c) (cause := cause) hs
    refine shape_ite (failed 5) (shape_ite (failed 4) (shape_ite (failed 5) (shape_ite ?_ (shape_ite (failed 2) (shape_ite (failed 1) (shape_ite (failed 4) (shape_ite
      (failed 3) ?_)))))))
    · exact shape_ite (shape_specHold hs) (shape_coreTrap (shape_modCore hs fun _ _ h => h))
    · refine shape_modCore (shape_chargeCore hs) fun k _ h => ?_
      split <;> exact h

theorem shape_rptStep {c : Nat} {ahead : Bool} {s : State} (hs : s.Shape) : (rptStep c ahead s).Shape := by
  unfold rptStep
  split
  · exact hs
  · split
    · exact hs
    · exact shape_ite (shape_rptRep hs) hs

theorem shape_rptFirst {c : Nat} {ahead : Bool} {k : Core} {s : State} (hs : s.Shape) : (rptFirst c ahead k s).Shape := by
  unfold rptFirst
  dsimp only
  split
  · exact shape_rptStep (shape_rptBegin hs)
  · exact shape_ite (shape_rptStep (shape_rptBegin hs)) (shape_ite (shape_specHold hs) hs)

theorem shape_runRpt {c : Nat} {ahead : Bool} {n : Nat} {s : State} (hs : s.Shape) : (runRpt c ahead n s).Shape := by
  unfold runRpt
  split
  · exact hs
  · exact shape_ite (shape_iter (fun _ h => shape_rptStep h) (shape_rptFirst hs)) (shape_iter (fun _ h => shape_rptStep h) hs)

theorem shape_coreInstr {c : Nat} {row : IsaRow} {s : State} (hs : s.Shape) : (coreInstr c row s).Shape := by
  unfold coreInstr
  split
  · exact hs
  · exact shape_failCheck hs
  · exact shape_ite (shape_runOp hs) hs

theorem shape_coreRpt {c n : Nat} {s : State} (hs : s.Shape) : (coreRpt c n s).Shape := by
  unfold coreRpt
  split
  · exact hs
  · exact shape_failCheck hs
  · exact shape_ite (shape_runRpt hs) hs

theorem shape_coreUndefined {c : Nat} {s : State} (hs : s.Shape) : (coreUndefined c s).Shape := by
  unfold coreUndefined
  split
  · exact hs
  · exact shape_failCheck hs
  · exact shape_ite (shape_runUndefined hs) hs

theorem shape_eventInterrupt {c : Nat} {s : State} (hs : s.Shape) : (eventInterrupt c s).Shape := by
  unfold eventInterrupt
  split
  · exact hs
  · exact shape_ite (shape_eventEntry hs) hs

theorem shape_waitResume {c : Nat} {s : State} (hs : s.Shape) : (waitResume c s).Shape := by
  unfold waitResume
  split
  · exact hs
  · exact shape_ite (shape_modCore (shape_put (calm_bits rfl) hs) (fun _ _ h => h)) hs

theorem shape_eventArrival {c : Nat} {rec_ : List Byte} {s : State} (hs : s.Shape) : (eventArrival c rec_ s).Shape := by
  unfold eventArrival
  exact shape_enqueue hs

theorem shape_stepOnce {c : Nat} {s : State} (hs : s.Shape) : (stepOnce c s).Shape := by
  unfold stepOnce
  split
  · exact hs
  · refine shape_ite (shape_eventEntry hs) ?_
    split
    · exact hs
    · exact shape_failCheck hs
    · refine shape_ite (shape_runRpt hs) ?_
      split
      · exact shape_runOp hs
      · exact shape_runUndefined hs

theorem shape_coreHaltCmd {c : Nat} {s : State} (hs : s.Shape) : (coreHaltCmd c s).Shape := by
  unfold coreHaltCmd
  split
  · exact hs
  · exact shape_ite hs (shape_ite (shape_modCore hs (fun _ _ h => h)) (shape_haltCore hs))

theorem shape_coreResumeCmd {c : Nat} {s : State} (hs : s.Shape) : (coreResumeCmd c s).Shape := by
  unfold coreResumeCmd
  split
  · exact hs
  · exact shape_ite (shape_put (calm_bits rfl) (shape_modCore hs (fun _ _ h => h))) (shape_modCore hs (fun _ _ h => h))

theorem shape_coreStepCmd {c : Nat} {s : State} (hs : s.Shape) : (coreStepCmd c s).Shape := by
  unfold coreStepCmd
  split
  · exact hs
  · exact shape_ite hs (shape_ite (shape_stepOnce (shape_put (calm_bits rfl) (shape_ite (shape_modCore hs (fun _ _ h => h)) hs))) (shape_modCore (shape_put (calm_bits rfl)
      (shape_stepOnce (shape_put (calm_bits rfl)
      (shape_ite (shape_modCore hs (fun _ _ h => h)) hs)))) (fun _ _ h => h)))

theorem shape_coreRegsCmd {c : Nat} {w : Option (BitVec 128)} {s : State} (hs : s.Shape) : (coreRegsCmd c w s).Shape := by
  unfold coreRegsCmd
  split
  · exact hs
  · dsimp only
    split
    · exact shape_ite (shape_modCore (shape_mk rfl rfl hs) (fun _ _ h => h)) (shape_mk rfl rfl hs)
    · exact shape_mk rfl rfl hs

theorem shape_saveKeepBox {s : State} (hs : s.Shape) : (saveKeepBox s).Shape := by
  unfold saveKeepBox
  exact shape_modPow hs

theorem shape_entryFlushed {s : State} (hs : s.Shape) : (entryFlushed s).Shape := by
  unfold entryFlushed
  exact shape_ite (shape_entryAbort hs) (shape_modPow (shape_ite (shape_saveKeepBox hs) hs))

theorem shape_flushComplete {s : State} (hs : s.Shape) : (flushComplete s).Shape := by
  unfold flushComplete
  refine shape_ite hs ?_
  dsimp only
  split
  · exact shape_entryFlushed (shape_modPow (shape_put (calm_bits rfl) (shape_incSat (calm_bits rfl) (shape_flushRing (shape_drainBuffers (shape_modLedg rfl hs))))))
  · exact shape_doWarm (shape_modPow (shape_put (calm_bits rfl) (shape_incSat (calm_bits rfl) (shape_flushRing (shape_drainBuffers (shape_modLedg rfl hs))))))
  · exact shape_ite (shape_resetTo (shape_modPow (shape_put (calm_bits rfl) (shape_incSat (calm_bits rfl) (shape_flushRing (shape_drainBuffers (shape_modLedg rfl hs)))))))
      (shape_holdFail (shape_modPow
      (shape_put (calm_bits rfl) (shape_incSat (calm_bits rfl) (shape_flushRing (shape_drainBuffers (shape_modLedg rfl hs)))))))
  · exact shape_modPow (shape_put (calm_bits rfl) (shape_incSat (calm_bits rfl) (shape_flushRing (shape_drainBuffers (shape_modLedg rfl hs)))))
  · exact shape_modPow (shape_put (calm_bits rfl) (shape_incSat (calm_bits rfl) (shape_flushRing (shape_drainBuffers (shape_modLedg rfl hs)))))

theorem shape_powerDown {s : State} (hs : s.Shape) : (powerDown s).Shape := by
  unfold powerDown
  exact shape_ite hs (shape_ite (shape_beginExit (shape_ite (shape_modPow (shape_put (calm_fixed rfl) (shape_put (calm_bits rfl) (shape_resetTo (shape_modPow (shape_put
    (calm_fixed rfl) (shape_put (calm_bits rfl) (shape_put (calm_bits rfl) (shape_put (calm_fixed rfl)
    (shape_forUpTo (fun _ _ h => shape_linkPowerDown h) (shape_forUpTo (fun _ _ h => shape_chainHalt h) (shape_dayDrain (shape_noteEntry (shape_put (calm_fixed rfl)
    (shape_put (calm_bits rfl) hs))))))))))))))) (shape_modPow (shape_put (calm_fixed rfl) (shape_put (calm_bits rfl) (shape_put (calm_bits rfl) (shape_put (calm_fixed rfl)
      (shape_forUpTo (fun _ _ h => shape_linkPowerDown h) (shape_forUpTo
    (fun _ _ h => shape_chainHalt h) (shape_dayDrain (shape_noteEntry (shape_put (calm_fixed rfl) (shape_put (calm_bits rfl) hs))))))))))))) (shape_ite (shape_modPow (shape_put
      (calm_fixed rfl) (shape_put (calm_bits rfl) (shape_resetTo
    (shape_modPow (shape_put (calm_fixed rfl) (shape_put (calm_bits rfl) (shape_put (calm_bits rfl) (shape_put (calm_fixed rfl) (shape_forUpTo
      (fun _ _ h => shape_linkPowerDown h) (shape_forUpTo (fun _ _ h => shape_chainHalt h)
    (shape_dayDrain (shape_noteEntry (shape_put (calm_fixed rfl) (shape_put (calm_bits rfl) hs))))))))))))))) (shape_modPow (shape_put (calm_fixed rfl) (shape_put
      (calm_bits rfl) (shape_put (calm_bits rfl) (shape_put (calm_fixed rfl) (shape_forUpTo
    (fun _ _ h => shape_linkPowerDown h) (shape_forUpTo (fun _ _ h => shape_chainHalt h) (shape_dayDrain (shape_noteEntry (shape_put (calm_fixed rfl) (shape_put
      (calm_bits rfl) hs)))))))))))))

theorem shape_regulatorReady {s : State} (hs : s.Shape) : (regulatorReady s).Shape := by
  unfold regulatorReady
  exact shape_ite hs (shape_modPow (shape_put (calm_fixed rfl) (shape_mark (calm_bits rfl) hs)))

theorem shape_oscillatorReady {s : State} (hs : s.Shape) : (oscillatorReady s).Shape := by
  unfold oscillatorReady
  exact shape_ite hs (shape_modPow (shape_ite (shape_mk rfl rfl (shape_mark (calm_bits rfl) hs)) (shape_mark (calm_bits rfl) hs)))

theorem shape_takeRole {s : State} (hs : s.Shape) : (takeRole s).Shape := by
  unfold takeRole
  exact shape_ite (shape_put (calm_bits rfl) (shape_put (calm_fixed rfl) (shape_put (calm_fixed rfl) (shape_put (calm_bits rfl) hs)))) (shape_put (calm_bits rfl) hs)

theorem shape_strapSample {boot : Nat} {head standby : Bool} {adr0 adr1 adr2 : Nat} {s : State} (hs : s.Shape) : (strapSample boot head standby adr0 adr1 adr2 s).Shape := by
  unfold strapSample
  exact shape_ite hs (shape_modPow (shape_takeRole (shape_put (calm_fixed rfl) (shape_putB (calm_fixed rfl) (shape_put (calm_bits rfl) (shape_put (calm_bits rfl) (shape_put
    (calm_bits rfl) (shape_putB (calm_fixed rfl) (shape_putB (calm_bits rfl) (shape_put (calm_bits rfl) hs))))))))))

theorem shape_initBanks {kept : Nat} {s : State} (hs : s.Shape) : (initBanks kept s).Shape := by
  unfold initBanks
  dsimp only
  exact shape_mk rfl rfl hs

theorem shape_loadMap {s0 : State} (hs0 : s0.Shape) : (loadMap s0).Shape := by
  unfold loadMap
  dsimp only
  split
  · exact shape_modLedg rfl (shape_readEffect hs0)
  · exact shape_ite (shape_modLedg rfl (shape_readEffect hs0)) (shape_modLedg rfl (shape_readEffect hs0))

theorem shape_replayLine {e : Nat × List Byte} {s : State} (hs : s.Shape) : (replayLine e s).Shape := by
  unfold replayLine
  exact shape_ite (shape_putBytes (shape_heal (shape_programAs_p (shape_freeVerify_p hs)))) (shape_reportFailed (shape_programAs_p (shape_freeVerify_p hs)))

theorem shape_replayTxn {t : Nat × List (Nat × List Byte)} {s : State} (hs : s.Shape) : (replayTxn t s).Shape := by
  unfold replayTxn
  exact shape_programJournal_p (shape_freeVerify_p (shape_foldl (fun _ _ h => shape_replayLine h) hs))

theorem shape_replayMove {m : Nat × Nat} {s : State} (hs : s.Shape) : (replayMove m s).Shape := by
  unfold replayMove
  exact shape_ite (shape_programJournal_p (shape_freeVerify_p (shape_storeMap_p (shape_modLedg rfl (shape_freeVerify_p hs))))) (shape_storeMap_p (shape_modLedg rfl
    (shape_freeVerify_p hs)))

theorem shape_replay {s0 : State} (hs0 : s0.Shape) : (replay s0).Shape := by
  unfold replay
  exact shape_ite (shape_foldl (fun _ _ h => shape_replayMove h) (shape_foldl (fun _ _ h => shape_replayTxn h) (shape_foldl (fun _ _ h => shape_readEffect h)
    (shape_loadMap hs0)))) (shape_dayPush (shape_put (calm_bits rfl) (shape_mark (calm_bits rfl) (shape_foldl (fun _ _ h => shape_replayMove h) (shape_foldl
      (fun _ _ h => shape_replayTxn h) (shape_foldl
    (fun _ _ h => shape_readEffect h) (shape_loadMap hs0)))))))

theorem shape_readFlushRecord {s : State} (hs : s.Shape) : (readFlushRecord s).Shape := by
  unfold readFlushRecord
  dsimp only
  exact shape_mk rfl rfl (shape_readEffect hs)

theorem shape_noLetters {s : State} (hs : s.Shape) : (noLetters s).Shape := by
  unfold noLetters
  exact shape_modGate hs

theorem shape_reloadBad {s : State} (hs : s.Shape) : (reloadBad s).Shape := by
  unfold reloadBad
  exact shape_dayPush (shape_ringFill (shape_noLetters (shape_mark (calm_bits rfl) hs)))

theorem shape_reload {s0 : State} (hs0 : s0.Shape) : (reload s0).Shape := by
  unfold reload
  dsimp only
  split
  · exact shape_ite (shape_reloadBad (shape_put (calm_fixed rfl) (shape_put (calm_bits rfl) (shape_put (calm_bits rfl) (shape_put (calm_bits rfl)
      (shape_readFlushRecord hs0)))))) (shape_dayPush (shape_ringFill (shape_noLetters (shape_put (calm_fixed rfl)
      (shape_put (calm_bits rfl) (shape_put (calm_bits rfl) (shape_put (calm_bits rfl) (shape_readFlushRecord hs0))))))))
  · exact shape_ite (shape_dayPush (shape_ringFill (shape_put (calm_fixed rfl) (shape_mark (calm_bits rfl) (shape_mk rfl rfl (shape_modGate (shape_loaderReads (shape_put
      (calm_fixed rfl) (shape_put (calm_fixed rfl) (shape_put (calm_fixed rfl) (shape_put (calm_fixed rfl) (shape_put (calm_fixed rfl)
      (shape_put (calm_bits rfl) (shape_put (calm_bits rfl) (shape_put (calm_bits rfl) (shape_readFlushRecord hs0)))))))))))))))) (shape_reloadBad (shape_loaderReads (shape_put
        (calm_fixed rfl) (shape_put (calm_fixed rfl) (shape_put (calm_fixed rfl) (shape_put (calm_fixed rfl) (shape_put (calm_fixed rfl)
      (shape_put (calm_bits rfl) (shape_put (calm_bits rfl) (shape_put (calm_bits rfl) (shape_readFlushRecord hs0)))))))))))

theorem shape_memoryReady {s : State} (hs : s.Shape) : (memoryReady s).Shape := by
  unfold memoryReady
  exact shape_ite hs (shape_modPow (shape_ite (shape_takeRole (shape_ite (shape_reload (shape_mark (calm_bits rfl) (shape_mark (calm_bits rfl) (shape_mark (calm_bits rfl)
    (shape_ite (shape_initBanks hs) (shape_replay
    (shape_initBanks hs))))))) (shape_mark (calm_bits rfl) (shape_mark (calm_bits rfl) (shape_mark (calm_bits rfl) (shape_ite (shape_initBanks hs) (shape_replay
      (shape_initBanks hs)))))))) (shape_ite (shape_reload
    (shape_mark (calm_bits rfl) (shape_mark (calm_bits rfl) (shape_mark (calm_bits rfl) (shape_ite (shape_initBanks hs) (shape_replay (shape_initBanks hs))))))) (shape_mark
      (calm_bits rfl) (shape_mark (calm_bits rfl) (shape_mark (calm_bits rfl) (shape_ite
    (shape_initBanks hs) (shape_replay (shape_initBanks hs)))))))))

theorem shape_firstSerial {s0 : State} (hs0 : s0.Shape) : (firstSerial s0).Shape := by
  unfold firstSerial
  dsimp only
  split
  · exact shape_storeRecord (shape_put (calm_fixed rfl) (shape_readEffect hs0))
  · exact shape_storeRecord (shape_put (calm_fixed rfl) (shape_readEffect hs0))

theorem shape_firstFresh {p : Nat} {s0 : State} (hs0 : s0.Shape) : (firstFresh p s0).Shape := by
  unfold firstFresh
  exact shape_storeRecord (shape_put (calm_indexed rfl rfl) (shape_readEffect hs0))

theorem shape_recordsReady {s : State} (hs : s.Shape) : (recordsReady s).Shape := by
  unfold recordsReady
  refine shape_ite hs (shape_modPow (shape_ite (shape_reload ?_) ?_))
  · split
    · exact shape_readEffect (shape_forUpTo (fun _ _ h => shape_firstFresh h) (shape_firstSerial (shape_reevaluate (shape_checkCurves hs))))
    · exact shape_modEst (shape_ite (shape_readEffect (shape_forUpTo (fun _ _ h => shape_firstFresh h) (shape_firstSerial (shape_reevaluate (shape_checkCurves hs)))))
        (shape_put (calm_fixed rfl) (shape_readEffect (shape_forUpTo (fun _ _ h => shape_firstFresh h) (shape_firstSerial (shape_reevaluate (shape_checkCurves hs)))))))
  · split
    · exact shape_readEffect (shape_forUpTo (fun _ _ h => shape_firstFresh h) (shape_firstSerial (shape_reevaluate (shape_checkCurves hs))))
    · exact shape_modEst (shape_ite (shape_readEffect (shape_forUpTo (fun _ _ h => shape_firstFresh h) (shape_firstSerial (shape_reevaluate (shape_checkCurves hs)))))
        (shape_put (calm_fixed rfl) (shape_readEffect (shape_forUpTo (fun _ _ h => shape_firstFresh h) (shape_firstSerial (shape_reevaluate (shape_checkCurves hs)))))))

theorem shape_chainAgain {u : Nat} {s : State} (hs : s.Shape) : (chainAgain u s).Shape := by
  unfold chainAgain
  exact shape_ite (shape_chainBegin (shape_chainHalt hs)) hs

theorem shape_keepWrite {a v : Nat} {s : State} (hs : s.Shape) : (keepWrite a v s).Shape := by
  unfold keepWrite
  split
  · exact shape_refuse hs
  · next d i hf => exact shape_ite (shape_chainAgain (shape_regAct hs fun s hs => shape_setPlain hs hf (.inl rfl))) (shape_regWrite hs)

theorem shape_resumeHush {s : State} (hs : s.Shape) : (resumeHush s).Shape := by
  unfold resumeHush
  exact shape_advanceAll (shape_wakePostmaster (shape_modTwp (shape_bellUpdate (shape_forUpTo (fun _ _ h => shape_put (calm_indexed rfl rfl) h) (shape_put (calm_fixed rfl)
    (shape_put (calm_fixed rfl) (shape_forUpTo
    (fun _ _ h => shape_ite (shape_beginTraining h) h) (shape_forUpTo (fun _ _ h => shape_ite (shape_chainBegin h) h) (shape_ite (shape_startBook (shape_put
      (calm_bits rfl) hs)) hs)))))))))

theorem shape_logicReady {s : State} (hs : s.Shape) : (logicReady s).Shape := by
  unfold logicReady
  refine shape_ite hs ?_
  dsimp only
  split
  · exact shape_resumeHush (shape_modPow (shape_put (calm_fixed rfl) (shape_mark (calm_fixed rfl) hs)))
  · exact shape_foldl (fun _ _ h => shape_keepWrite h) (shape_loadImage (shape_mark (calm_bits rfl) (shape_modPow (shape_put (calm_fixed rfl) (shape_mark (calm_fixed rfl) hs)))))
  · exact shape_put (calm_fixed rfl) (shape_loadImage (shape_modPow (shape_put (calm_fixed rfl) (shape_mark (calm_fixed rfl) hs))))

theorem shape_stageTimeout {s : State} (hs : s.Shape) : (stageTimeout s).Shape := by
  unfold stageTimeout
  split
  · exact hs
  · exact shape_ite hs (shape_modPow (shape_raiseFault hs))

theorem shape_xloStable {s : State} (hs : s.Shape) : (xloStable s).Shape := by
  unfold xloStable
  exact shape_ite hs (shape_mark (calm_fixed rfl) hs)

theorem shape_modTap {s : State} {f : Tap → Tap} (hs : s.Shape) : (State.modTap s f).Shape := by
  unfold State.modTap
  exact shape_mk rfl rfl hs

theorem shape_tapLoad {ir : Nat} {dr : TapSel} {act : State → State} {s : State} (hs : s.Shape) (hact : ∀ x0, x0.Shape → (act x0).Shape) : (tapLoad ir dr act s).Shape := by
  unfold tapLoad
  exact shape_ite (hact _ (shape_modTap hs)) hs

theorem shape_boundaryScan {levels : List Bool} {load : Option (List Bool)} {s : State} (hs : s.Shape) : (boundaryScan levels load s).Shape := by
  unfold boundaryScan
  exact shape_modTap hs

theorem shape_tapBypass {s : State} (hs : s.Shape) : (tapBypass s).Shape := by
  unfold tapBypass
  exact shape_tapLoad hs (fun _ h => shape_modTap h)

theorem shape_tapIdcode {s : State} (hs : s.Shape) : (tapIdcode s).Shape := by
  unfold tapIdcode
  exact shape_tapLoad hs (fun _ h => shape_modTap h)

theorem shape_tapSample {levels : List Bool} {load : Option (List Bool)} {s : State} (hs : s.Shape) : (tapSample levels load s).Shape := by
  unfold tapSample
  exact shape_tapLoad hs (fun _ h => shape_boundaryScan h)

theorem shape_boardTest {act : State → State} {s : State} (hs : s.Shape) (hact : ∀ x0, x0.Shape → (act x0).Shape) : (boardTest act s).Shape := by
  unfold boardTest
  exact shape_ite (hact _ hs) (shape_tapBypass hs)

theorem shape_tapExtest {levels : List Bool} {load : Option (List Bool)} {s : State} (hs : s.Shape) : (tapExtest levels load s).Shape := by
  unfold tapExtest
  exact shape_boardTest hs (fun _ h => shape_tapLoad h (fun _ h => shape_boundaryScan h))

theorem shape_tapHighz {s : State} (hs : s.Shape) : (tapHighz s).Shape := by
  unfold tapHighz
  exact shape_boardTest hs (fun _ h => shape_tapLoad h (fun _ h => shape_modTap h))

theorem shape_tapClamp {s : State} (hs : s.Shape) : (tapClamp s).Shape := by
  unfold tapClamp
  exact shape_boardTest hs (fun _ h => shape_tapLoad h (fun _ h => shape_modTap h))

theorem shape_tapCoreSel {c : Nat} {s : State} (hs : s.Shape) : (tapCoreSel c s).Shape := by
  unfold tapCoreSel
  exact shape_tapLoad hs (fun _ h => shape_modTap h)

theorem shape_onSelected {act : Nat → State → State} {s : State} (hs : s.Shape) (hact : ∀ x0 x1, x1.Shape → (act x0 x1).Shape) : (onSelected act s).Shape := by
  unfold onSelected
  split
  · exact hact _ _ hs
  · exact hs

theorem shape_tapCoreHalt {s : State} (hs : s.Shape) : (tapCoreHalt s).Shape := by
  unfold tapCoreHalt
  exact shape_tapLoad hs (fun _ h => shape_onSelected h (fun _ _ h => shape_coreHaltCmd h))

theorem shape_tapCoreStep {s : State} (hs : s.Shape) : (tapCoreStep s).Shape := by
  unfold tapCoreStep
  exact shape_tapLoad hs (fun _ h => shape_onSelected h (fun _ _ h => shape_coreStepCmd h))

theorem shape_tapCoreResume {s : State} (hs : s.Shape) : (tapCoreResume s).Shape := by
  unfold tapCoreResume
  exact shape_tapLoad hs (fun _ h => shape_onSelected h (fun _ _ h => shape_coreResumeCmd h))

theorem shape_tapCoreRegs {w : Option (BitVec 128)} {s : State} (hs : s.Shape) : (tapCoreRegs w s).Shape := by
  unfold tapCoreRegs
  exact shape_tapLoad hs (fun _ h => shape_onSelected h (fun _ _ h => shape_coreRegsCmd h))

theorem shape_holdUpdate {mv vio33 : Nat} {s : State} (hs : s.Shape) : (holdUpdate mv vio33 s).Shape := by
  unfold holdUpdate
  exact shape_ite hs (shape_putB (calm_bits rfl) (shape_put (calm_fixed rfl) (shape_modPow hs)))

theorem shape_whenHeard {act : State → State} {s : State} (hs : s.Shape) (hact : ∀ x0, x0.Shape → (act x0).Shape) : (whenHeard act s).Shape := by
  unfold whenHeard
  exact shape_ite (hact _ hs) hs

theorem shape_whenPowered {act : State → State} {s : State} (hs : s.Shape) (hact : ∀ x0, x0.Shape → (act x0).Shape) : (whenPowered act s).Shape := by
  unfold whenPowered
  exact shape_ite (hact _ hs) hs

theorem shape_registerWrite {u a : Nat} {w : Word} {s : State} (hs : s.Shape) : (registerWrite u a w s).Shape := by
  unfold registerWrite
  exact shape_ite hs (shape_ite (shape_portWord hs (fun _ _ _ _ h => shape_regWrite h)) (shape_regWrite hs))

theorem shape_registerModify {u a lo w v : Nat} {s : State} (hs : s.Shape) : (registerModify u a lo w v s).Shape := by
  unfold registerModify
  exact shape_registerWrite hs

theorem shape_registerRead {u a : Nat} {s : State} (hs : s.Shape) : (registerRead u a s).Shape := by
  unfold registerRead
  exact shape_ite hs (shape_mk rfl rfl (shape_regRead_p hs))

theorem shape_twoWrites {u a : Nat} {w : Word} {u2 a2 : Nat} {w2 : Word} {s : State} (hs : s.Shape) : (twoWrites u a w u2 a2 w2 s).Shape := by
  unfold twoWrites
  exact shape_ite (shape_refuseColliding (shape_registerWrite (shape_registerWrite hs))) (shape_ite (shape_refuseColliding (shape_registerWrite (shape_registerWrite hs)))
    (shape_registerWrite (shape_registerWrite hs)))

theorem shape_registerWrites {u a : Nat} {w : Word} {other : Option (Nat × Nat × Word)} {s : State} (hs : s.Shape) : (registerWrites u a w other s).Shape := by
  unfold registerWrites
  split
  · exact shape_registerWrite hs
  · exact shape_ite (shape_twoWrites hs) (shape_twoWrites hs)

theorem shape_bankRow {u : Nat} {ahead : Bool} {a : Nat} {acc : BusAccess} {turned : List Flip} {s : State} (hs : s.Shape) : (bankRow u ahead a acc turned s).Shape := by
  unfold bankRow
  exact shape_whenPowered hs (fun _ h => shape_bankRequest (shape_foldl (fun _ _ h => shape_turnCell h) h))

theorem shape_patrolRow {turned : List Flip} {s : State} (hs : s.Shape) : (patrolRow turned s).Shape := by
  unfold patrolRow
  exact shape_whenPowered hs (fun _ h => shape_patrolScrub (shape_foldl (fun _ _ h => shape_turnCell h) h))

theorem shape_programDone {p : Program} {s : State} (hs : s.Shape) : (programDone p s).Shape := by
  unfold programDone
  split
  · exact shape_lineDone hs
  · exact shape_recordDone hs
  · exact shape_moveDone hs
  · exact shape_modLedg rfl hs

theorem shape_pathRow {n st : Nat} {f : RxFrame} {s : State} (hs : s.Shape) : (pathRow n st f s).Shape := by
  unfold pathRow
  exact shape_receiveFrame hs (fun _ _ h => shape_ite (shape_takePath h) h)

end Sys2Proof.Machine

/-!
PROOFS. A tick of the clock keeps the shape of the machine (04, 11).
-/

namespace Sys2Proof.Machine

theorem shape_tick {s : State} (hs : s.Shape) : (tick s).Shape := by
  unfold tick
  exact shape_ite (shape_ite (shape_timersTick (shape_mk rfl rfl hs)) (shape_forUpTo (fun _ _ h => shape_linkTick h) (shape_linesTick (shape_timersTick
    (shape_mk rfl rfl hs))))) hs

end Sys2Proof.Machine

/-!
PROOFS. Every step keeps the shape of the machine (04, 11; R69, R236, R244).
-/

namespace Sys2Proof.Machine

/-- The next state of an outcome has the shape. -/
abbrev ShapeOut (o : Host.Outcome State Fault Refusal) : Prop := ∀ t, o = .next t → t.Shape

theorem shapeOut_next {s : State} (hs : s.Shape) : ShapeOut (.next s) := fun _ h => by cases h; exact hs

/-- The meaning of every command keeps the shape. -/
theorem shape_exec (i : Instr) {s : State} (hs : s.Shape) : ShapeOut (exec i s) := by
  cases i with
  | registerWrite => exact shapeOut_next (shape_registerWrites hs)
  | rmapApply | rmapCheck | rmapCheckA | rmapCheckB | rmapLoadA | rmapLoadB | arbConfigWrite | txnOpen | txnCommit | txnAbort | portRestart | fenceWrite |
    mailboxWrite | slotWrite | timetableCopy | timetableSwap | slotEdit | coefWrite | sourceModWrite | chainSourceWrite | budgetWrite | outboxPop |
    coreMemoryWrite | reenrol | resync | raRead | raWrite | comparePreloadWrite | cmpLoad | outputForce | softReset | faultSlotClear | unitRelease =>
    exact shapeOut_next (shape_registerWrite hs)
  | applyPoint => exact shapeOut_next (shape_applyPoint hs)
  | rmapCommandDone => exact shapeOut_next (shape_rmapDone hs)
  | measurementWindowEnd => exact shapeOut_next (shape_windowEnd hs)
  | temperatureUpdate => exact shapeOut_next (shape_temperatureUpdate hs)
  | postmarkRead | slotRead | coefRead | lastOutputRead | coreMemoryRead | captureRead => exact shapeOut_next (shape_registerRead hs)
  | bankRequest => exact shapeOut_next (shape_bankRow hs)
  | arbitrationPhase => exact shapeOut_next (shape_arbPhase hs)
  | grantWithdrawal => exact shapeOut_next (shape_grantWithdrawal hs)
  | patrolScrub => exact shapeOut_next (shape_patrolRow hs)
  | lineProgramComplete => exact shapeOut_next (shape_programDone hs)
  | commitPoint => exact shapeOut_next (shape_commitPoint hs)
  | retireRecord => exact shapeOut_next (shape_retireRecord hs)
  | framePrebuild => exact shapeOut_next (shape_prebuild hs)
  | frameSend => exact shapeOut_next (shape_frameSend hs)
  | frameTxEnd | deLagExpiry | rxBlankExpiry => exact shapeOut_next (shape_lineStep hs)
  | portEnable | portDisable | ttRunSet | ttRunClear | ttAheadWrite | chainStart | chainStop | bellEnableWrite | coreStart | coreStop | coreFresh |
    linkDownWrite | timerStart | timerStop =>
    exact shapeOut_next (shape_registerModify hs)
  | burstReceived => exact shapeOut_next (shape_burstReceived hs)
  | lineQuiet => exact shapeOut_next (shape_whenHeard hs fun _ hs => shape_lineQuiet hs)
  | nodeMissing => exact shapeOut_next (shape_nodeMissing hs)
  | exchangeEnd => exact shapeOut_next (shape_exchangeEnd hs)
  | exchangeCutOff => exact shapeOut_next (shape_exchangeCutOff hs)
  | lineFault => exact shapeOut_next (shape_whenHeard hs fun _ hs => shape_lineFault hs)
  | lineFaultCleared => exact shapeOut_next (shape_whenHeard hs fun _ hs => shape_lineFaultCleared hs)
  | roundConvert | roundRead | roundLetterbox | roundEnrol | roundMaint => exact shapeOut_next (shape_beginRound hs)
  | roundBoundary => exact shapeOut_next (shape_roundBoundary hs)
  | commandWaitEnd => exact shapeOut_next (shape_commandWaitEnd hs)
  | autoRestartExpiry => exact shapeOut_next (shape_autoRestart hs)
  | closeWaitExpiry => exact shapeOut_next (shape_closeWaitExpiry hs)
  | passGateOpen => exact shapeOut_next (shape_gateOpen hs)
  | copyComplete => exact shapeOut_next (shape_copyComplete hs)
  | trendReading => exact shapeOut_next (shape_trendReading hs)
  | fieldReport => exact shapeOut_next (shape_trendReport hs)
  | chainOutput => exact shapeOut_next (shape_chainOutput hs)
  | sampleHandoff => exact shapeOut_next (shape_sampleHandoff hs)
  | sourceOverload => exact shapeOut_next (shape_whenHeard hs fun _ hs => shape_sourceOverload hs)
  | overloadEnd => exact shapeOut_next (shape_whenHeard hs fun _ hs => shape_overloadEnd hs)
  | letterOffer => exact shapeOut_next (shape_letterOffer hs)
  | redelivery => exact shapeOut_next (shape_redeliver hs)
  | nop | wait | ret | rti | setf | clrf | add | adc | sub | sbc | and | or | xor | cmp | lda | sta | ldx | stx | ldy | sty | tax | tay | tya | txy | tyx |
    inc | dec | shl | shr | sar | rol | ror | not | neg | mul | cpx | cpy | tst | incw | decw | ldp | ldq | stp | stq | addp | addq | xpq | ldsp | tsp | tps |
    txap | tpxa | ldc | txac | loop | tcxa | push | pull | cpp | cpq | branch | jmp | call | movb | fill | scan | cmpb | lodb | adcb | sbcb =>
    exact shapeOut_next (shape_coreInstr hs)
  | waitResume => exact shapeOut_next (shape_waitResume hs)
  | rpt => exact shapeOut_next (shape_coreRpt hs)
  | undefinedOpcode => exact shapeOut_next (shape_coreUndefined hs)
  | eventInterrupt => exact shapeOut_next (shape_eventInterrupt hs)
  | eventRecordArrival => exact shapeOut_next (shape_eventArrival hs)
  | coreSel => exact shapeOut_next (shape_tapCoreSel hs)
  | coreHalt => exact shapeOut_next (shape_tapCoreHalt hs)
  | coreStep => exact shapeOut_next (shape_tapCoreStep hs)
  | coreResume => exact shapeOut_next (shape_tapCoreResume hs)
  | coreRegs => exact shapeOut_next (shape_tapCoreRegs hs)
  | presenceDetected => exact shapeOut_next (shape_whenPowered hs fun _ hs => shape_presenceDetected hs)
  | presenceLost => exact shapeOut_next (shape_whenPowered hs fun _ hs => shape_presenceLost hs)
  | trainingComplete => exact shapeOut_next (shape_trainingComplete hs)
  | trainingTimeout => exact shapeOut_next (shape_trainingTimeout hs)
  | wordLockLoss => exact shapeOut_next (shape_wordLockLoss hs)
  | linkFrameBoundary => exact shapeOut_next (shape_linkFrameBoundary hs)
  | letter => exact shapeOut_next (shape_receiveFrame hs fun _ _ hs => shape_takeLetter hs)
  | ack => exact shapeOut_next (shape_receiveFrame hs fun _ _ hs => shape_takeAck hs)
  | hello => exact shapeOut_next (shape_receiveFrame hs fun _ _ hs => shape_takeHello hs)
  | enrol => exact shapeOut_next (shape_receiveFrame hs fun _ _ hs => shape_takeEnrol hs)
  | welcome => exact shapeOut_next (shape_receiveFrame hs fun _ _ hs => shape_takeWelcome hs)
  | leave => exact shapeOut_next (shape_receiveFrame hs fun _ _ hs => shape_takeLeave hs)
  | pathLost | pathStands | pathRestored | pathNewhead => exact shapeOut_next (shape_pathRow hs)
  | syncTimer => exact shapeOut_next (shape_syncTimer hs)
  | sync => exact shapeOut_next (shape_receiveFrame hs fun _ _ hs => shape_takeSync hs)
  | dreq => exact shapeOut_next (shape_receiveFrame hs fun _ _ hs => shape_takeDreq hs)
  | dresp => exact shapeOut_next (shape_receiveFrame hs fun _ _ hs => shape_takeDresp hs)
  | raReq => exact shapeOut_next (shape_receiveFrame hs fun _ _ hs => shape_takeRaReq hs)
  | raResp => exact shapeOut_next (shape_receiveFrame hs fun _ _ hs => shape_takeRaResp hs)
  | idmir => exact shapeOut_next (shape_receiveFrame hs fun _ _ hs => shape_takeIdmir hs)
  | syncTimeout => exact shapeOut_next (shape_syncTimeout hs)
  | outageHoldExpiry => exact shapeOut_next (shape_outageHoldExpiry hs)
  | enrolTimeout => exact shapeOut_next (shape_enrolTimeout hs)
  | enrolRetry => exact shapeOut_next (shape_enrolRetry hs)
  | raTimeout => exact shapeOut_next (shape_raTimeout hs)
  | rdsr => exact shapeOut_next (shape_rdsr hs)
  | readId => exact shapeOut_next (shape_readId hs)
  | read => exact shapeOut_next (shape_hostReadCmd hs)
  | readQ => exact shapeOut_next (shape_hostReadQ hs)
  | write => exact shapeOut_next (shape_hostWrite hs)
  | writeQ => exact shapeOut_next (shape_hostWriteQ hs)
  | enterQuad => exact shapeOut_next (shape_enterQuad hs)
  | exitQuad => exact shapeOut_next (shape_exitQuad hs)
  | resetEn => exact shapeOut_next (shape_resetEn hs)
  | reset => exact shapeOut_next (shape_hostReset hs)
  | badcmd => exact shapeOut_next (shape_badCommand hs)
  | hcsNRise => exact shapeOut_next (shape_hcsRise hs)
  | postedWriteComplete => exact shapeOut_next (shape_postedComplete hs)
  | twpStart => exact shapeOut_next (shape_twpStart hs)
  | twpAddress => exact shapeOut_next (shape_twpAddress hs)
  | alertResponse => exact shapeOut_next (shape_alertResponse hs)
  | twpWriteByte => exact shapeOut_next (shape_twpWriteByte hs)
  | twpReadByte => exact shapeOut_next (shape_twpReadByte hs)
  | twpStop => exact shapeOut_next (shape_twpStop hs)
  | twpTimeout => exact shapeOut_next (shape_twpTimeout hs)
  | timerMatch => exact shapeOut_next (shape_timerMatch hs)
  | timerWrap => exact shapeOut_next (shape_timerWrap hs)
  | captureEdge => exact shapeOut_next (shape_captureEdge hs)
  | entryAbort => exact shapeOut_next (shape_entryAbort hs)
  | powerDown => exact shapeOut_next (shape_powerDown hs)
  | comparatorTrip => exact shapeOut_next (shape_comparatorTrip hs)
  | powerOnReset => exact shapeOut_next (shape_powerOnReset hs)
  | powerUp => exact shapeOut_next (shape_powerUp hs)
  | resetPin => exact shapeOut_next (shape_resetPin hs)
  | resetRelease => exact shapeOut_next (shape_resetRelease hs)
  | tapReset => exact shapeOut_next (shape_tapReset hs)
  | regulatorReady => exact shapeOut_next (shape_regulatorReady hs)
  | oscillatorReady => exact shapeOut_next (shape_oscillatorReady hs)
  | strapSample => exact shapeOut_next (shape_strapSample hs)
  | memoryReady => exact shapeOut_next (shape_memoryReady hs)
  | systemRecordsReady => exact shapeOut_next (shape_recordsReady hs)
  | logicReady => exact shapeOut_next (shape_logicReady hs)
  | powerStageTimeout => exact shapeOut_next (shape_stageTimeout hs)
  | xloStable => exact shapeOut_next (shape_xloStable hs)
  | checkFault => exact shapeOut_next (shape_checkFault hs)
  | unitResetComplete => exact shapeOut_next (shape_unitResetComplete hs)
  | powerFail => exact shapeOut_next (shape_powerFail hs)
  | flushComplete => exact shapeOut_next (shape_flushComplete hs)
  | powerRestored => exact shapeOut_next (shape_powerRestored hs)
  | dayBookWrite => exact shapeOut_next (shape_dayBookWrite hs)
  | idcode => exact shapeOut_next (shape_tapIdcode hs)
  | samplePreload => exact shapeOut_next (shape_tapSample hs)
  | extest => exact shapeOut_next (shape_tapExtest hs)
  | highz => exact shapeOut_next (shape_tapHighz hs)
  | clamp => exact shapeOut_next (shape_tapClamp hs)
  | bypass => exact shapeOut_next (shape_tapBypass hs)
  | hcsNFall => exact shapeOut_next (shape_hcsFall hs)
  | trainingPauseEnd => exact shapeOut_next (shape_trainingPauseEnd hs)
  | wordLockGained => exact shapeOut_next (shape_wordLockGained hs)
  | classWindowOpen => exact shapeOut_next (shape_classWindowOpen hs)
  | comparatorWakeSideLeft => exact shapeOut_next (shape_comparatorLeft hs)
  | holdUpdate => exact shapeOut_next (shape_holdUpdate hs)

/-- Settles O59: a step is a tick of the clock or the meaning of a command, and each operation keeps the shape: a queue takes a record only where it has
room (R236), a transaction opens only below 16 (R69), and a trap is taken only below a depth of two (R244). -/
theorem everyStepKeepsTheShape : Obligations.EveryStepKeepsTheShape := by
  unfold Obligations.EveryStepKeepsTheShape
  intro s t hs h
  unfold step at h
  split at h
  · exact shapeOut_next (shape_tick hs) t h
  · exact shape_exec _ (shape_mk rfl rfl hs) t h

end Sys2Proof.Machine

/-!
PROOFS. Bank requests (R72, R75, R77) and withdrawn grants (R79) (04, 3).
-/

namespace Sys2Proof.Machine

theorem exec_grantWithdrawal (b : Fin 24) (s : State) : exec (.grantWithdrawal b) s = .next (grantWithdrawal b.val s) := rfl

theorem isOf_iff (r : BusReq) (u : Nat) (ahead : Bool) : r.isOf u ahead = true ↔ r.unit = u ∧ r.ahead = ahead := by
  simp only [BusReq.isOf, Bool.and_eq_true, beq_iff_eq]

theorem not_isOf (u : Nat) (ahead : Bool) : (fun r : BusReq => !r.isOf u ahead) = fun r => decide (r.unit ≠ u ∨ r.ahead ≠ ahead) := by
  funext r
  rw [Bool.eq_iff_iff, Bool.not_eq_true', ← Bool.not_eq_true, isOf_iff, decide_eq_true_iff]
  tauto

/-- One arbiter is written. -/
theorem arbs_modArb {s : State} {b : Nat} {a : Arb} (f : Arb → Arb) (h : s.arbs[b]? = some a) :
    (s.modArb b f).arbs[b]? = some (f a) ∧ ∀ c, c ≠ b → (s.modArb b f).arbs[c]? = s.arbs[c]? := by
  refine ⟨?_, fun c hc => upd_get_ne _ _ hc.symm⟩
  rw [State.modArb, upd_get, h, Option.map_some]

/-! Withdrawn grants. -/

theorem grantWithdrawal_free {b : Nat} {a : Arb} {s : State} (ha : s.arbs[b]? = some a) (h : a.granted = none) : grantWithdrawal b s = s := by
  simp only [grantWithdrawal, ha, Option.bind_some, h]

theorem grantWithdrawal_granted {b : Nat} {a : Arb} {g : Grant} {s : State} (ha : s.arbs[b]? = some a) (h : a.granted = some g) :
    grantWithdrawal b s = (s.modArb b (fun a => { a with granted := none, reqs := a.reqs.filter (fun r => r.unit ≠ g.unit ∨ r.ahead ≠ g.ahead) })).incWrap
      (F.ARB_BANK_STAT_DEAD b) := by
  simp only [grantWithdrawal, ha, Option.bind_some, h, not_isOf]

/-- Settles O10: the grant and its request leave the arbiter, and the count of dead cycles steps by one. -/
theorem grantWithdrawn : Obligations.GrantWithdrawn := by
  unfold Obligations.GrantWithdrawn
  refine fun b a s ha => ⟨fun h => ⟨s, by rw [exec_grantWithdrawal, grantWithdrawal_free ha h], rfl⟩, fun g h => ?_⟩
  refine ⟨_, by rw [exec_grantWithdrawal, grantWithdrawal_granted ha h], ?_⟩
  obtain ⟨own, others⟩ := arbs_modArb (fun a => { a with granted := none, reqs := a.reqs.filter (fun r => r.unit ≠ g.unit ∨ r.ahead ≠ g.ahead) }) ha
  exact ⟨own, get_incWrap_self _ (F.ARB_BANK_STAT_DEAD b) 1 (show 16 + 8 ≤ 32 by decide),
    get_incWrap_other _ (F.ARB_BANK_STAT_DEAD b) (F.ARB_BANK_STAT_GRANTS b) 1 (show 16 + 8 ≤ 32 by decide) (.inr (.inr (show 0 + 16 ≤ 16 by decide))),
    Untouched_incWrap (Untouched_same (Untouched_refl s _) rfl rfl) _ 1 (List.mem_singleton_self _), others, rfl⟩

/-! The pieces of a span. -/

theorem cutSpan_bounds {k : Nat} (hk : 0 < k) {f a n : Nat} {p : Nat × Nat} (h : p ∈ cutSpan k f a n) :
    0 < p.2 ∧ a ≤ p.1 ∧ p.1 + p.2 ≤ a + n ∧ p.1 % k + p.2 ≤ k := by
  induction f generalizing a n with
  | zero => cases h
  | succ f ih =>
    have room : a % k < k := Nat.mod_lt a hk
    unfold cutSpan at h
    split at h
    · cases h
    · rcases List.mem_cons.mp h with rfl | h
      · dsimp only
        omega
      · obtain ⟨some, above, within, fits⟩ := ih h
        omega

theorem cutSpan_ordered {k : Nat} (hk : 0 < k) (f a n : Nat) : (cutSpan k f a n).Pairwise (fun p q => p.1 + p.2 ≤ q.1) := by
  induction f generalizing a n with
  | zero => exact .nil
  | succ f ih =>
    unfold cutSpan
    split
    · exact .nil
    · exact List.pairwise_cons.mpr ⟨fun q hq => (cutSpan_bounds hk hq).2.1, ih _ _⟩

/-- With fuel for every block that the span touches, no byte is left out. -/
theorem cutSpan_covers {k : Nat} (hk : 0 < k) {f a n : Nat} (hf : n + a % k ≤ f * k) {x : Nat} (ha : a ≤ x) (hn : x < a + n) :
    ∃ p ∈ cutSpan k f a n, p.1 ≤ x ∧ x < p.1 + p.2 := by
  induction f generalizing a n with
  | zero => omega
  | succ f ih =>
    have room : a % k < k := Nat.mod_lt a hk
    unfold cutSpan
    rw [if_neg (by omega)]
    by_cases hx : x < a + min n (k - a % k)
    · exact ⟨_, List.mem_cons_self, ha, hx⟩
    have next : (a + min n (k - a % k)) % k = 0 := by
      have whole : a + min n (k - a % k) = k * (a / k + 1) := by
        have := Nat.div_add_mod a k
        rw [Nat.mul_add]
        omega
      rw [whole, Nat.mul_mod_right]
    rw [Nat.succ_mul] at hf
    obtain ⟨p, hp, below, above⟩ := ih (a := a + min n (k - a % k)) (n := n - min n (k - a % k)) (by omega) (by omega) (by omega)
    exact ⟨p, List.mem_cons_of_mem _ hp, below, above⟩

/-- A block of 64 bytes of the bus lies in one memory and in one bank. -/
theorem busBank_block {x y : Nat} (h : x / 64 = y / 64) : inLedger x = inLedger y ∧ inPigeon x = inPigeon y ∧ busBank x = busBank y := by
  have ledger : inLedger x = inLedger y := decide_eq_decide.mpr (by omega)
  refine ⟨ledger, ?_, ?_⟩
  · unfold inPigeon
    rw [Bool.eq_iff_iff, Bool.and_eq_true, Bool.and_eq_true]
    simp only [decide_eq_true_eq]
    omega
  · unfold busBank ledgBank
    rw [ledger, h, show x / 2 ^ 20 = y / 2 ^ 20 by omega]

/-- Bytes of one piece lie in one block. -/
theorem block_of_piece {k p l i : Nat} (hk : k ∣ 64) (hp : 0 < k) (fits : p % k + l ≤ k) (hi : i < l) : (p + i) / 64 = p / 64 := by
  have same : (p + i) / k = p / k := by
    have split : p + i = k * (p / k) + (p % k + i) := by
      have := Nat.div_add_mod p k
      omega
    rw [split, Nat.mul_add_div hp, Nat.div_eq_of_lt (show p % k + i < k by omega), Nat.add_zero]
  obtain ⟨m, hm⟩ := hk
  rw [hm, ← Nat.div_div_eq_div_mul, ← Nat.div_div_eq_div_mul, same]

/-- The length of the blocks that a span is cut at. -/
def blockLen (a : Nat) : Nat := if inLedger a then 64 else 16

theorem blockLen_cases (a : Nat) : blockLen a = 64 ∨ blockLen a = 16 := by
  unfold blockLen
  split
  · exact .inl rfl
  · exact .inr rfl

theorem blockLen_pos (a : Nat) : 0 < blockLen a := by rcases blockLen_cases a with h | h <;> omega

theorem blockLen_dvd (a : Nat) : blockLen a ∣ 64 := by
  rcases blockLen_cases a with h | h
  · exact ⟨1, by omega⟩
  · exact ⟨4, by omega⟩

theorem piecesOf_eq (a n : Nat) (d : Option (List Byte)) : piecesOf a n d =
    ((cutSpan (blockLen a) (n / 16 + 2) a n).filter (fun p => inLedger p.1 || inPigeon p.1)).map
      (fun p => ⟨p.1, p.2, d.map (fun l => (l.drop (p.1 - a)).take p.2), beatsOf p.1 p.2⟩) := rfl

theorem piece_bounds {a n : Nat} {d : Option (List Byte)} {p : BusPiece} (h : p ∈ piecesOf a n d) :
    0 < p.len ∧ a ≤ p.addr ∧ p.addr + p.len ≤ a + n ∧ p.beats * 16 = (p.addr + p.len + 15) / 16 * 16 - p.addr / 16 * 16 ∧
      (∀ i, i < p.len → busBank (p.addr + i) = busBank p.addr) ∧ p.data = d.map (fun l => (l.drop (p.addr - a)).take p.len) := by
  rw [piecesOf_eq] at h
  obtain ⟨c, hc, rfl⟩ := List.mem_map.mp h
  obtain ⟨some, above, within, fits⟩ := cutSpan_bounds (blockLen_pos a) (List.mem_of_mem_filter hc)
  refine ⟨some, above, within, ?_, fun i hi => (busBank_block (block_of_piece (blockLen_dvd a) (blockLen_pos a) fits hi)).2.2, rfl⟩
  dsimp only [beatsOf]
  omega

theorem pieces_ordered (a n : Nat) (d : Option (List Byte)) : (piecesOf a n d).Pairwise (fun p q => p.addr + p.len ≤ q.addr) := by
  rw [piecesOf_eq, List.pairwise_map]
  exact (cutSpan_ordered (blockLen_pos a) _ a n).filter _

theorem pieces_cover {a n : Nat} (d : Option (List Byte)) {x : Nat} (ha : a ≤ x) (hn : x < a + n) (hx : (inLedger x || inPigeon x) = true) :
    ∃ p ∈ piecesOf a n d, p.addr ≤ x ∧ x < p.addr + p.len := by
  have fuel : n + a % blockLen a ≤ (n / 16 + 2) * blockLen a := by
    rcases blockLen_cases a with h | h <;> rw [h] <;> omega
  obtain ⟨p, hp, below, above⟩ := cutSpan_covers (blockLen_pos a) fuel ha hn
  obtain ⟨-, -, -, fits⟩ := cutSpan_bounds (blockLen_pos a) hp
  have block := block_of_piece (blockLen_dvd a) (blockLen_pos a) fits (show x - p.1 < p.2 by omega)
  rw [Nat.add_sub_cancel' below] at block
  obtain ⟨ledger, pigeon, -⟩ := busBank_block block
  rw [piecesOf_eq]
  exact ⟨_, List.mem_map_of_mem (List.mem_filter.mpr ⟨hp, by rw [← ledger, ← pigeon]; exact hx⟩), below, above⟩

/-! What a request adds to an arbiter. -/

/-- A piece joins what the unit's request of that kind carries, or begins one (R77). -/
def joinPiece (u : Nat) (ahead : Bool) (tb : Nat) (q : Arb) (p : BusPiece) : Arb :=
  if q.reqs.any (·.isOf u ahead) then { q with reqs := q.reqs.map (fun r => if r.isOf u ahead then { r with pieces := r.pieces ++ [p] } else r) }
  else { q with reqs := q.reqs ++ [⟨u, ahead, [p], some tb⟩] }

/-- Pieces join what the unit's request of that kind carries. -/
def joinRequest (u : Nat) (ahead : Bool) (l : List BusPiece) (q : Arb) : Arb :=
  { q with reqs := q.reqs.map (fun r => if r.unit = u ∧ r.ahead = ahead then { r with pieces := r.pieces ++ l } else r) }

theorem raiseReq_eq (b u : Nat) (ahead : Bool) (p : BusPiece) (s : State) :
    raiseReq b u ahead p s = s.modArb b (fun q => joinPiece u ahead s.tb q p) := rfl

theorem any_isOf (reqs : List BusReq) (u : Nat) (ahead : Bool) :
    reqs.any (fun r => r.isOf u ahead) = reqs.any (fun r => r.unit == u && r.ahead == ahead) := rfl

theorem joinPiece_stands {u : Nat} {ahead : Bool} {q : Arb} (h : q.reqs.any (fun r => r.unit == u && r.ahead == ahead) = true) (tb : Nat) (p : BusPiece) :
    joinPiece u ahead tb q p = joinRequest u ahead [p] q := by
  unfold joinPiece joinRequest
  rw [any_isOf, if_pos h]
  simp only [isOf_iff]

theorem joinPiece_begins {u : Nat} {ahead : Bool} {q : Arb} (h : q.reqs.any (fun r => r.unit == u && r.ahead == ahead) = false) (tb : Nat) (p : BusPiece) :
    joinPiece u ahead tb q p = { q with reqs := q.reqs ++ [⟨u, ahead, [p], some tb⟩] } := by
  unfold joinPiece
  rw [any_isOf, if_neg (by rw [h]; exact Bool.false_ne_true)]

theorem joinRequest_stands {u : Nat} {ahead : Bool} {q : Arb} (h : q.reqs.any (fun r => r.unit == u && r.ahead == ahead) = true) (l : List BusPiece) :
    (joinRequest u ahead l q).reqs.any (fun r => r.unit == u && r.ahead == ahead) = true := by
  obtain ⟨r, hr, is⟩ := List.any_eq_true.mp h
  refine List.any_eq_true.mpr ⟨_, List.mem_map_of_mem hr, ?_⟩
  split <;> exact is

theorem joinRequest_joinRequest (u : Nat) (ahead : Bool) (l m : List BusPiece) (q : Arb) :
    joinRequest u ahead m (joinRequest u ahead l q) = joinRequest u ahead (l ++ m) q := by
  unfold joinRequest
  dsimp only
  rw [List.map_map]
  congr 1
  refine List.map_congr_left fun r _ => ?_
  by_cases h : r.unit = u ∧ r.ahead = ahead
  · simp only [Function.comp_apply, if_pos h, List.append_assoc]
  · simp only [Function.comp_apply, if_neg h]

theorem foldl_joinPiece_stands {u : Nat} {ahead : Bool} (tb : Nat) (l : List BusPiece) {q : Arb} (hl : l ≠ [])
    (h : q.reqs.any (fun r => r.unit == u && r.ahead == ahead) = true) : l.foldl (joinPiece u ahead tb) q = joinRequest u ahead l q := by
  induction l generalizing q with
  | nil => exact absurd rfl hl
  | cons p l ih =>
    rw [List.foldl_cons, joinPiece_stands h]
    by_cases hn : l = []
    · rw [hn, List.foldl_nil]
    · rw [ih hn (joinRequest_stands h [p]), joinRequest_joinRequest, List.singleton_append]

/-- The request that a span begins carries all its pieces. -/
theorem joinRequest_begun {u : Nat} {ahead : Bool} {q : Arb} (h : q.reqs.any (fun r => r.unit == u && r.ahead == ahead) = false) (p : BusPiece) (l : List BusPiece)
    (since : Option Nat) : joinRequest u ahead l { q with reqs := q.reqs ++ [⟨u, ahead, [p], since⟩] } = { q with reqs := q.reqs ++ [⟨u, ahead, p :: l, since⟩] } := by
  unfold joinRequest
  rw [List.map_append, List.map_singleton, if_pos ⟨rfl, rfl⟩, List.singleton_append]
  congr 2
  conv_rhs => rw [← List.map_id q.reqs]
  refine List.map_congr_left fun r hr => if_neg fun is => ?_
  exact List.any_eq_false.mp h r hr (by rw [is.1, is.2]; simp)

theorem foldl_joinPiece (u : Nat) (ahead : Bool) (tb : Nat) (l : List BusPiece) (q : Arb) : l.foldl (joinPiece u ahead tb) q =
    if l = [] then q else if q.reqs.any (fun r => r.unit == u && r.ahead == ahead) then joinRequest u ahead l q
    else { q with reqs := q.reqs ++ [⟨u, ahead, l, some tb⟩] } := by
  cases l with
  | nil => rfl
  | cons p l =>
    rw [if_neg (List.cons_ne_nil p l)]
    cases h : q.reqs.any (fun r => r.unit == u && r.ahead == ahead) with
    | true => exact foldl_joinPiece_stands tb _ (List.cons_ne_nil p l) h
    | false =>
      rw [List.foldl_cons, joinPiece_begins h, if_neg Bool.false_ne_true]
      by_cases hn : l = []
      · rw [hn, List.foldl_nil]
      · rw [foldl_joinPiece_stands tb l hn (by simp), joinRequest_begun h]

/-- The pieces of a span join the requests of their banks. -/
def raiseAll (u : Nat) (ahead : Bool) (l : List BusPiece) (s : State) : State := l.foldl (fun s p => raiseReq (busBank p.addr) u ahead p s) s

theorem raiseAll_frame (u : Nat) (ahead : Bool) (l : List BusPiece) (s : State) : raiseAll u ahead l s = { s with arbs := (raiseAll u ahead l s).arbs } := by
  induction l generalizing s with
  | nil => rfl
  | cons p l ih => exact ih _

theorem arbs_raiseAll (u : Nat) (ahead : Bool) (l : List BusPiece) (s : State) (b : Nat) :
    (raiseAll u ahead l s).arbs[b]? = (s.arbs[b]?).map (fun q => (l.filter (fun p => busBank p.addr == b)).foldl (joinPiece u ahead s.tb) q) := by
  induction l generalizing s with
  | nil => exact Option.map_id'.symm
  | cons p l ih =>
    refine (ih (raiseReq (busBank p.addr) u ahead p s)).trans ?_
    rw [raiseReq_eq, State.modArb_tb]
    by_cases h : busBank p.addr = b
    · rw [List.filter_cons_of_pos (by rw [h]; exact beq_self_eq_true b), State.modArb, h, upd_get, Option.map_map]
      rfl
    · rw [List.filter_cons_of_neg (by rwa [beq_iff_eq]), State.modArb, upd_get_ne _ _ h]

/-- The pieces that a request of a unit carries. -/
def accessPieces (a : Nat) : BusAccess → List BusPiece
  | .read n => piecesOf (a / 16 * 16) (16 * n) none
  | .write d => piecesOf a d.length (some d)

theorem bankRequest_eq (u : Nat) (ahead : Bool) (a : Nat) (x : BusAccess) (s : State) : bankRequest u ahead a x s =
    if (accessPieces a x).any (fun p => !maskOk s u (busBank p.addr)) && decide (u ≤ 0x40) && !ahead then
      coreTrap u 4 (raiseAll u ahead ((accessPieces a x).filter (fun p => maskOk s u (busBank p.addr))) s)
    else raiseAll u ahead ((accessPieces a x).filter (fun p => maskOk s u (busBank p.addr))) s := by
  cases x <;> rfl

theorem exec_bankRequest (u : Fin 128) (ahead : Bool) (a : Word) (x : BusAccess) (turned : List Flip) (s : State) :
    exec (.bankRequest u ahead a x turned) s = .next (bankRow u.val ahead a.toNat x turned s) := rfl

theorem bankRow_powered {s : State} (h : logicPowered s = true) (u : Nat) (ahead : Bool) (a : Nat) (x : BusAccess) : bankRow u ahead a x [] s = bankRequest u ahead a x s :=
  if_pos h

/-- A request whose pieces the mask enables, or that is none of a core's committed accesses, is raised. -/
theorem bankRequest_raised {u : Nat} {ahead : Bool} {a : Nat} {x : BusAccess} {s : State}
    (h : 0x40 < u ∨ ahead = true ∨ ∀ p ∈ accessPieces a x, maskOk s u (busBank p.addr) = true) :
    bankRequest u ahead a x s = raiseAll u ahead ((accessPieces a x).filter (fun p => maskOk s u (busBank p.addr))) s := by
  rw [bankRequest_eq, if_neg]
  rw [Bool.and_eq_true, Bool.and_eq_true, List.any_eq_true, decide_eq_true_iff, Bool.not_eq_true']
  rintro ⟨⟨⟨p, hp, barred⟩, core⟩, committed⟩
  rcases h with h | h | h
  · exact absurd core (by omega)
  · exact absurd (h.symm.trans committed) (by decide)
  · rw [h p hp] at barred
    exact absurd barred (by decide)

theorem arbs_bankRequest {u : Nat} {ahead : Bool} {a : Nat} {x : BusAccess} {s : State} {b : Nat} {q : Arb} (hq : s.arbs[b]? = some q) {mine : List BusPiece}
    (hm : mine = (accessPieces a x).filter (fun p => busBank p.addr == b && maskOk s u b)) :
    (raiseAll u ahead ((accessPieces a x).filter (fun p => maskOk s u (busBank p.addr))) s).arbs[b]? = some (if mine = [] then q
      else if q.reqs.any (fun r => r.unit == u && r.ahead == ahead) then joinRequest u ahead mine q
      else { q with reqs := q.reqs ++ [⟨u, ahead, mine, some s.tb⟩] }) := by
  have same : ((accessPieces a x).filter (fun p => maskOk s u (busBank p.addr))).filter (fun p => busBank p.addr == b) = mine := by
    rw [hm, List.filter_filter]
    refine List.filter_congr fun p _ => ?_
    by_cases h : busBank p.addr = b
    · rw [h]
    · rw [beq_eq_false_iff_ne.mpr h, Bool.false_and, Bool.false_and]
  rw [arbs_raiseAll, hq, Option.map_some, same, foldl_joinPiece]

/-! A core's committed access outside its mask (R56, R80). -/

theorem enterVector_room {k : Core} (vec : Nat) (h1 : (k.r.sp - 1).toNat < 0x8000) (h2 : (k.r.sp - 2).toNat < 0x8000) (h3 : (k.r.sp - 3).toNat < 0x8000) :
    ∃ k1, enterVector vec k = some k1 := by
  unfold enterVector
  exact ⟨_, if_neg (by omega)⟩

theorem get_noteSteps {c : Nat} {s : State} {f : Fd} (h : A.SRT_STEPS c ≠ f.addr) : (noteSteps c s).get f = s.get f := by
  unfold noteSteps
  split
  · rfl
  · split
    · exact get_congr f (reg_put_ne s (F.SRT_STEPS_MAX c) _ h)
    · rfl

theorem get_chargeCore {c n : Nat} {s : State} {f : Fd} (h : A.SRT_STEPS c ≠ f.addr) : (chargeCore c n s).get f = s.get f := by
  unfold chargeCore
  dsimp only
  split
  · rfl
  · exact get_noteSteps h

/-- A first trap shows its cause and a depth of one. -/
theorem coreTrap_first {c cause : Nat} {s : State} {k : Core} (hk : s.core c = some k) (hd : s.get (F.SRT_STAT_TDEPTH c) = 0) (hp : c = 0 → pmHandling s = false)
    (he : k.entries.length < 4) (h1 : (k.r.sp - 1).toNat < 0x8000) (h2 : (k.r.sp - 2).toNat < 0x8000) (h3 : (k.r.sp - 3).toNat < 0x8000) (hc : cause < 16) :
    (coreTrap c cause s).get (F.SRT_TRAP_CAUSE1 c) = cause ∧ (coreTrap c cause s).get (F.SRT_STAT_TDEPTH c) = 1 := by
  obtain ⟨k1, entered⟩ := enterVector_room (0xFF00 + 2 * (cause - 1)) h1 h2 h3
  have first : (decide (c = 0) && pmHandling s) = false := by
    by_cases h : c = 0
    · rw [hp h, Bool.and_false]
    · rw [decide_eq_false h, Bool.false_and]
  have trapped : ∃ r : State, coreTrap c cause s =
      chargeCore c 4 (((r.put (F.SRT_TRAP_CAUSE1 c) cause).put (F.SRT_TRAP_PC1 c) k.r.pc.toNat).put (F.SRT_STAT_TDEPTH c) 1) := by
    unfold coreTrap
    rw [hk]
    dsimp only
    rw [hd, if_neg (show ¬(2 ≤ 0 ∨ 4 ≤ k.entries.length) by omega), entered]
    dsimp only
    rw [first, if_neg Bool.false_ne_true, if_pos rfl]
    exact ⟨_, rfl⟩
  obtain ⟨r, e⟩ := trapped
  rw [e, get_chargeCore (show A.SRT_STEPS c ≠ A.SRT_TRAP c by simp [A.SRT_STEPS, A.SRT_TRAP]),
    get_chargeCore (show A.SRT_STEPS c ≠ A.SRT_STAT c by simp [A.SRT_STEPS, A.SRT_STAT])]
  refine ⟨?_, get_put_self _ (F.SRT_STAT_TDEPTH c) 1 (show 7 + 2 ≤ 32 by decide)⟩
  rw [get_put_other _ (F.SRT_STAT_TDEPTH c) (F.SRT_TRAP_CAUSE1 c) _ (show 7 + 2 ≤ 32 by decide) (.inl (show A.SRT_STAT c ≠ A.SRT_TRAP c by simp [A.SRT_STAT, A.SRT_TRAP])),
    get_put_other _ (F.SRT_TRAP_PC1 c) (F.SRT_TRAP_CAUSE1 c) _ (show 0 + 16 ≤ 32 by decide) (.inr (.inl (show 0 + 16 ≤ 28 by decide))),
    get_put_self _ (F.SRT_TRAP_CAUSE1 c) _ (show 28 + 4 ≤ 32 by decide)]
  exact Nat.mod_eq_of_lt hc

theorem bankRequest_barred {u a : Nat} {d : List Byte} {s : State} (hu : u ≤ 0x40)
    (h : ∃ p ∈ piecesOf a d.length (some d), maskOk s u (busBank p.addr) = false) :
    ∃ arbs, bankRequest u false a (.write d) s = coreTrap u 4 { s with arbs := arbs } := by
  obtain ⟨p, hp, barred⟩ := h
  rw [bankRequest_eq, if_pos, raiseAll_frame]
  · exact ⟨_, rfl⟩
  · rw [Bool.and_eq_true, Bool.and_eq_true, List.any_eq_true]
    exact ⟨⟨⟨p, hp, by rw [barred]; rfl⟩, decide_eq_true hu⟩, rfl⟩

/-- Cells that turn before a request are turned in the state that it meets. -/
theorem bankRow_turned {s : State} {f : Flip} (hf : f ∉ s.ledg.flips) (h : logicPowered s = true) (u : Nat) (ahead : Bool) (a : Nat) (x : BusAccess) :
    bankRow u ahead a x [f] s = bankRow u ahead a x [] { s with ledg := { s.ledg with flips := s.ledg.flips ++ [f] } } := by
  have turned : turnCell f s = { s with ledg := { s.ledg with flips := s.ledg.flips ++ [f] } } := by
    have new : (if s.ledg.flips.contains f then s.ledg.flips.filter (· != f) else s.ledg.flips ++ [f]) = s.ledg.flips ++ [f] :=
      if_neg (by rwa [List.contains_iff_mem])
    exact congrArg (fun l => { s with ledg := { s.ledg with flips := l } }) new
  rw [← turned]
  exact (if_pos h).trans (if_pos (c := logicPowered (turnCell f s) = true) h).symm

/-- Settles O8: each piece of the span joins the requests of its bank, one bank's pieces in their order. -/
theorem bankRequests : Obligations.BankRequests := by
  unfold Obligations.BankRequests
  refine ⟨fun a n d => ⟨fun p hp => piece_bounds hp, pieces_ordered a n d, fun x ha hn hx => pieces_cover d ha hn hx⟩, ?_, ?_, ?_⟩
  · intro u ahead a x s ps hl hps hmask
    have pieces : ps = accessPieces a.toNat x := by rw [hps]; cases x <;> rfl
    subst pieces
    refine ⟨_, by rw [exec_bankRequest, bankRow_powered hl, bankRequest_raised hmask], raiseAll_frame _ _ _ _, fun b q hq => ?_⟩
    exact arbs_bankRequest hq rfl
  · intro u a d s k hl hk _ hd hp h1 h2 h3 he hbarred
    obtain ⟨arbs, e⟩ := bankRequest_barred (by omega) hbarred
    exact ⟨_, by rw [exec_bankRequest, bankRow_powered hl, e], coreTrap_first (s := { s with arbs := arbs }) hk hd (fun h => hp h) he h1 h2 h3 (by decide)⟩
  · intro u ahead a x f s hl hf
    exact ⟨_, by rw [exec_bankRequest, bankRow_turned hf hl], rfl⟩

end Sys2Proof.Machine

/-!
PROOFS. An arbitration phase and a request of a unit that R8 does not number (04, 3; R76, R77, R84).
-/

namespace Sys2Proof.Machine

/-- A request of a unit 128, which R8 does not number: its ARB_CFG would lie where ARB_BANK_STAT of bank 0 lies. -/
def strayRequest : BusReq := ⟨128, false, [⟨0, 16, none, 1⟩], none⟩

/-- An arbiter at which the stray request stands while a grant of unit 0x77 has been delivered. -/
def strayArb : Arb := ⟨[strayRequest], [], none, some ⟨0x77, false, 1⟩⟩

/-- Bank 0 has counted 255 grants, and bank 1 one. -/
def strayState : State :=
  { ((State.reset.setReg (A.ARB_BANK_STAT 0) 0xFF#32).setReg (A.ARB_BANK_STAT 1) 1#32) with arbs := [strayArb] }

/-- The grant that begins is counted in the register that is read as the burst limit of unit 128. -/
theorem granted_stray : (arbPhase 0 strayState).arbs[0]?.map (fun q => (q.reqs, q.granted)) = some ([strayRequest], some ⟨128, false, 1⟩) := by decide +kernel

theorem burst_stray : strayState.get (F.ARB_CFG_BURST 128) = 0 := by decide +kernel

/-- Refutes O9: nothing bounds the unit of a request that stands, and where it is 128 the count of the grant that begins, 255 grants and one, changes what is read as the
burst limit of the request granted next. -/
theorem not_arbitrationGrants : ¬ Obligations.ArbitrationGrants := by
  unfold Obligations.ArbitrationGrants
  rintro ⟨-, -, phase, -⟩
  obtain ⟨t, ht, q, hq, -, -, next, -⟩ := phase 0 strayArb strayState rfl rfl
    (fun g hg => .inr fun r hr hu => by
      rw [List.mem_singleton.mp hr, ← Option.some.inj hg] at hu
      exact absurd hu (by decide))
    (fun r hr => .inr (.inl (by rw [List.mem_singleton.mp hr]; decide)))
  obtain rfl : arbPhase 0 strayState = t := Host.Outcome.next.inj ht
  have stands := granted_stray
  rw [show (arbPhase 0 strayState).arbs[0]? = some q from hq, Option.map_some] at stands
  obtain ⟨hreqs, hgranted⟩ := Prod.mk.inj (Option.some.inj stands)
  obtain ⟨-, r, hr, burst, -⟩ := next (by rw [hreqs]; exact List.cons_ne_nil _ _)
  rw [hreqs] at hr
  rw [List.mem_singleton.mp hr, hgranted] at burst
  have limit : 1 = strayState.get (F.ARB_CFG_BURST 128) := congrArg Grant.burst (Option.some.inj burst)
  rw [burst_stray] at limit
  exact absurd limit (by decide)

end Sys2Proof.Machine

/-!
PROOFS. The transaction commands of a port (04, 4; R69 to R71, Table 4.10).
-/

namespace Sys2Proof.Machine

/-! The word of a command. -/

/-- The row of LEDG_TXN. -/
def row_LEDG_TXN : RegDef := ⟨"LEDG_TXN", 0x1007a014, 1, 0x0, 1, 0, [⟨16, 16, .w1c, 0, .any⟩, ⟨15, 15, .w1c, 0, .any⟩, ⟨14, 14, .w1c, 0, .any⟩, ⟨9, 8, .ro, 0, .any⟩,
  ⟨7, 4, .ro, 0, .any⟩, ⟨1, 0, .wo, 0, .any⟩]⟩

theorem find_LEDG_TXN : findReg A.LEDG_TXN = some (row_LEDG_TXN, 0) ∧ isBanked A.LEDG_TXN = true := by decide +kernel

theorem setBits_bits (n lo w : Nat) : setBits n lo w (bits n lo w) = n := by
  refine Nat.eq_of_testBit_eq fun i => ?_
  rw [setBits_testBit, bits_testBit]
  split
  · next h => rw [decide_eq_true (by omega), Bool.true_and, Nat.sub_add_cancel h.1]
  · rfl

/-- A write of no one into a W1C field puts back what it holds. -/
theorem w1c_kept {old w lo : Nat} (h : bits w lo 1 = 0) : setBits old lo 1 (bits old lo 1 &&& (2 ^ 1 - 1 - bits w lo 1)) = old := by
  rw [h, Nat.sub_zero, Nat.and_two_pow_sub_one_of_lt_two_pow (bits_lt old lo 1), setBits_bits]

/-- A command sets no flag back and writes no other field. -/
theorem plainWord_command (old : Nat) {v : Word} (hv : v = 1 ∨ v = 2 ∨ v = 3) : plainWord row_LEDG_TXN old v.toNat = old := by
  have none : bits v.toNat 16 1 = 0 ∧ bits v.toNat 15 1 = 0 ∧ bits v.toNat 14 1 = 0 := by rcases hv with rfl | rfl | rfl <;> decide
  obtain ⟨conflict, overflow, refused⟩ := none
  change setBits (setBits (setBits old 16 1 (bits old 16 1 &&& (2 ^ 1 - 1 - bits v.toNat 16 1))) 15 1 (bits old 15 1 &&& (2 ^ 1 - 1 - bits v.toNat 15 1))) 14 1
    (bits old 14 1 &&& (2 ^ 1 - 1 - bits v.toNat 14 1)) = old
  rw [w1c_kept conflict, w1c_kept overflow, w1c_kept refused]

theorem accepts_command {u : Fin 256} {v : Word} {s : State} (h : Writes u A.LEDG_TXN s) (hv : v = 1 ∨ v = 2 ∨ v = 3) : Accepts u A.LEDG_TXN v s := by
  have sound : rowRefuses row_LEDG_TXN v.toNat = false := by rcases hv with rfl | rfl | rfl <;> decide
  have open_ : rwlBars row_LEDG_TXN (blockOf A.LEDG_TXN) (offOf A.LEDG_TXN) (s.reg A.LEDG_TXN).toNat v.toNat s = false := Bool.and_false _
  refine ⟨h, ?_⟩
  simp only [writeBarred, find_LEDG_TXN.1, sound, open_, Bool.false_or, Bool.or_false]
  rfl

/-- LEDG_TXN of a port, its word put back. -/
def txnWordKept (u : Nat) (s : State) : State := s.setReg (txnReg u) (s.reg (txnReg u))

theorem untouched_txnWordKept (u : Nat) (s : State) : Untouched s (txnWordKept u s) [] := Untouched_setReg_same s (txnReg u)

/-- A command's write is the command and leaves the word. -/
theorem registerWrite_command {u : Fin 256} {v : Word} {s : State} (hu : u.val = 0x75 ∨ u.val = 0x76) (h : Writes u A.LEDG_TXN s) (hv : v = 1 ∨ v = 2 ∨ v = 3) :
    registerWrite u.val A.LEDG_TXN v s = txnCmd u.val v.toNat (txnWordKept u.val s) := by
  have copy : bankAddr u.val A.LEDG_TXN = some (txnReg u) := by rw [bankAddr, if_pos rfl, if_pos hu]
  have code : bits v.toNat 0 2 = v.toNat := by rcases hv with rfl | rfl | rfl <;> decide
  have word : fieldsWritten row_LEDG_TXN (txnReg u) v s = txnWordKept u s := by
    rw [fieldsWritten, plainWord_command _ hv, BitVec.ofNat_toNat, BitVec.setWidth_eq, txnWordKept]
  have acts : regAct u.val A.LEDG_TXN (s.reg (txnReg u)).toNat v.toNat (fieldsWritten row_LEDG_TXN (txnReg u) v) s =
      txnCmd u.val (bits v.toNat 0 2) (fieldsWritten row_LEDG_TXN (txnReg u) v s) := rfl
  rw [registerWrite_banked_some (accepts_command h hv) find_LEDG_TXN.1 find_LEDG_TXN.2 (by decide) copy, acts, code, word]

/-! OPEN, COMMIT and ABORT (Table 4.10). -/

section commands
variable {u : Fin 256} {s : State} (hu : u.val = 0x75 ∨ u.val = 0x76) (hw : Writes u A.LEDG_TXN s)
include hu hw

theorem exec_txnOpen : exec (.txnOpen u) s = .next (txnOpen u.val (txnWordKept u.val s)) :=
  congrArg Host.Outcome.next (registerWrite_command hu hw (.inl rfl))

theorem exec_txnCommit : exec (.txnCommit u) s = .next (txnCommit u.val (txnWordKept u.val s)) :=
  congrArg Host.Outcome.next (registerWrite_command hu hw (.inr (.inl rfl)))

theorem exec_txnAbort : exec (.txnAbort u) s = .next (txnAbort u.val (txnWordKept u.val s)) :=
  congrArg Host.Outcome.next (registerWrite_command hu hw (.inr (.inr rfl)))

end commands

theorem mark_frame (s : State) (f : Fd) : s.mark f = { s with regs := (s.mark f).regs } := rfl

section txn
variable {u : Nat} {s : State} {x : Txn}

theorem setTxnFlag_refused (hu : u = 0x75 ∨ u = 0x76) (s : State) : setTxnFlag u .refused s = s.mark ⟨txnReg u, 14, 1⟩ :=
  (if_neg (by omega)).trans (if_pos hu)

theorem setTxnFlag_conflict (hu : u = 0x75 ∨ u = 0x76) (s : State) : setTxnFlag u .conflict s = s.mark ⟨txnReg u, 16, 1⟩ :=
  (if_neg (by omega)).trans (if_pos hu)

theorem txnOpen_open (h : txnOf s u ≠ none) : txnOpen u s = s := if_pos (Option.isSome_iff_ne_none.mpr h)

theorem txnOpen_opens (h : txnOf s u = none) (hn : openTxns s < 16) : txnOpen u s = s.modLedg (fun l => { l with
    txns := l.txns ++ [⟨u, l.nextTxn, .opened, [], false, .none, []⟩], nextTxn := (l.nextTxn + 1) % 2 ^ 32 }) := by
  unfold txnOpen
  rw [h, if_neg (by decide), if_neg]
  rw [Bool.and_eq_true, decide_eq_true_iff]
  omega

theorem txnOpen_refused (hu : u = 0x75 ∨ u = 0x76) (h : txnOf s u = none) (hn : 16 ≤ openTxns s) : txnOpen u s = s.mark ⟨txnReg u, 14, 1⟩ := by
  have port : isPortUnit u = false := by rcases hu with rfl | rfl <;> rfl
  unfold txnOpen
  rw [h, if_neg (by decide), port, if_pos (by rw [decide_eq_true hn]; rfl), setTxnFlag_refused hu]

/-- What a COMMIT does to an open transaction, by what it has met. -/
theorem txnCommit_opened (h : txnOf s u = some x) (hp : x.phase = .opened) (hc : .commit u ∉ s.ledg.held) : txnCommit u s =
    if heldIn s x then s.modLedg (fun l => { l with held := l.held ++ [.commit u] })
    else if x.conflict then (match x.act with | .none => setTxnFlag u .conflict (dropTxn u s) | _ => dropTxn u s)
    else modTxn u (fun t => { t with phase := .committing }) s := by
  unfold txnCommit
  rw [h]
  refine if_neg ?_
  rw [hp, Bool.or_eq_true, List.contains_iff_mem, decide_eq_true_iff]
  exact fun e => e.elim (fun e => e rfl) hc

theorem txnAbort_opened (h : txnOf s u = some x) (hp : x.phase = .opened) :
    txnAbort u s = (dropTxn u s).modLedg (fun l => { l with held := l.held.filter (· != .commit u) }) := by
  unfold txnAbort
  rw [h]
  exact if_pos hp

theorem dropTxn_eq (u : Nat) (s : State) : dropTxn u s = { s with ledg := { s.ledg with txns := s.ledg.txns.filter (fun y => y.owner ≠ u ∨ y.phase = .committed) } } := by
  have same : (fun y : Txn => y.owner != u || y.phase == .committed) = fun y => decide (y.owner ≠ u ∨ y.phase = .committed) := by
    funext y
    rw [Bool.eq_iff_iff, Bool.or_eq_true, bne_iff_ne, beq_iff_eq, decide_eq_true_iff]
  unfold dropTxn
  rw [same]
  rfl

theorem modTxn_eq (u : Nat) (f : Txn → Txn) (s : State) :
    modTxn u f s = { s with ledg := { s.ledg with txns := s.ledg.txns.map (fun y => if y.owner = u ∧ y.phase ≠ .committed then f y else y) } } := by
  have same : (fun y : Txn => if (y.owner == u && y.phase != .committed) = true then f y else y) = fun y => if y.owner = u ∧ y.phase ≠ .committed then f y else y := by
    funext y
    simp only [Bool.and_eq_true, beq_iff_eq, bne_iff_ne]
  unfold modTxn
  rw [same]
  rfl

end txn

/-- Settles O13: the word that the command is written in stays as it is, and the command finds the port's transaction as it stands. -/
theorem transactionCommands : Obligations.TransactionCommands := by
  unfold Obligations.TransactionCommands
  intro u s hu hw
  have kept := untouched_txnWordKept u.val s
  refine ⟨fun h hn => ?_, fun h hn => ?_, fun h => ?_, fun x h hp hc hh hn => ?_, fun x h hp hh hn => ?_, fun x h hp hc ha hh hn => ?_, fun x h hp => ?_⟩
  · exact ⟨_, (exec_txnOpen hu hw).trans (congrArg _ (txnOpen_opens (s := txnWordKept u s) h hn)), Untouched_same kept rfl rfl, rfl, rfl⟩
  · refine ⟨_, (exec_txnOpen hu hw).trans (congrArg _ (txnOpen_refused (s := txnWordKept u s) hu h hn)), flag_mark_self _ ⟨txnReg u, 14, 1⟩ (show 14 + 1 ≤ 32 by decide) (show 0 < 1 by decide), ?_, mark_frame _ _⟩
    exact Untouched_mark (Untouched_mono kept fun _ h => absurd h List.not_mem_nil) _ (List.mem_singleton_self _)
  · exact ⟨_, (exec_txnOpen hu hw).trans (congrArg _ (txnOpen_open (s := txnWordKept u s) h)), kept, rfl⟩
  · have begun := txnCommit_opened (s := txnWordKept u s) h hp hn
    rw [show heldIn (txnWordKept u s) x = false from hh, hc, if_neg Bool.false_ne_true, if_neg Bool.false_ne_true, modTxn_eq] at begun
    exact ⟨_, (exec_txnCommit hu hw).trans (congrArg _ begun), Untouched_same kept rfl rfl, rfl, rfl⟩
  · have waits := txnCommit_opened (s := txnWordKept u s) h hp hn
    rw [if_pos (show heldIn (txnWordKept u s) x = true from hh)] at waits
    exact ⟨_, (exec_txnCommit hu hw).trans (congrArg _ waits), Untouched_same kept rfl rfl, rfl⟩
  · have fails := txnCommit_opened (s := txnWordKept u s) h hp hn
    rw [show heldIn (txnWordKept u s) x = false from hh, if_neg Bool.false_ne_true, if_pos hc, ha] at fails
    dsimp only at fails
    rw [setTxnFlag_conflict hu, dropTxn_eq] at fails
    refine ⟨_, (exec_txnCommit hu hw).trans (congrArg _ fails), flag_mark_self _ ⟨txnReg u, 16, 1⟩ (show 16 + 1 ≤ 32 by decide) (show 0 < 1 by decide), ?_, mark_frame _ _⟩
    exact Untouched_mark (Untouched_same (Untouched_mono kept fun _ h => absurd h List.not_mem_nil) rfl rfl) _ (List.mem_singleton_self _)
  · have gone := txnAbort_opened (s := txnWordKept u s) h hp
    rw [dropTxn_eq] at gone
    exact ⟨_, (exec_txnAbort hu hw).trans (congrArg _ gone), Untouched_same kept rfl rfl, rfl⟩

end Sys2Proof.Machine

/-!
PROOFS. The conditions of Table 10.6 as exact rates (10; R45, R211, R217, R218, R288).
-/

namespace Sys2Proof.Machine

/-! Exact rates. -/

namespace Ratio

/-- The rate as a rational number. -/
def val (r : Ratio) : Rat := r.num / r.den

theorem val_zero : zero.val = 0 := by simp [val, zero]

theorem val_add {a b : Ratio} (ha : 0 < a.den) (hb : 0 < b.den) : (a.add b).val = a.val + b.val ∧ 0 < (a.add b).den := by
  have na : (a.den : Rat) ≠ 0 := by positivity
  have nb : (b.den : Rat) ≠ 0 := by positivity
  unfold add val
  split
  · next h => exact ⟨by rw [h, ← add_div]; push_cast; rfl, ha⟩
  · refine ⟨?_, Nat.mul_pos ha hb⟩
    push_cast
    field_simp

theorem val_sum_from {l : List Ratio} (h : ∀ r ∈ l, 0 < r.den) {a : Ratio} (ha : 0 < a.den) :
    (l.foldl add a).val = a.val + (l.map val).sum ∧ 0 < (l.foldl add a).den := by
  induction l generalizing a with
  | nil => exact ⟨by simp, ha⟩
  | cons r l ih =>
    obtain ⟨hr, hl⟩ := List.forall_mem_cons.mp h
    obtain ⟨added, pos⟩ := val_add ha hr
    obtain ⟨summed, den⟩ := ih hl pos
    refine ⟨?_, den⟩
    rw [List.foldl_cons, summed, added, List.map_cons, List.sum_cons, add_assoc]

theorem val_sum {l : List Ratio} (h : ∀ r ∈ l, 0 < r.den) : (sum l).val = (l.map val).sum ∧ 0 < (sum l).den := by
  obtain ⟨summed, den⟩ := val_sum_from h (show 0 < zero.den from Nat.one_pos)
  exact ⟨by rw [← zero_add (l.map val).sum, ← val_zero]; exact summed, den⟩

theorem den_mul {r : Ratio} (h : 0 < r.den) (n : Nat) : 0 < (r.mul n).den := h

theorem val_mul (r : Ratio) (n : Nat) : (r.mul n).val = r.val * n := by
  unfold mul val
  push_cast
  ring

theorem le_iff (a b : Ratio) : a.le b = true ↔ a.num * b.den ≤ b.num * a.den := decide_eq_true_iff

theorem le_one_iff (m n : Nat) : (⟨m, n⟩ : Ratio).le ⟨1, 1⟩ = true ↔ m ≤ n := by rw [le_iff, Nat.mul_one, Nat.one_mul]

/-- A utilisation of at most one, of a resource's rated throughput. -/
theorem per_le_one {r : Ratio} (hr : 0 < r.den) (n : Nat) : (r.per n).le ⟨1, 1⟩ = true ↔ r.val ≤ n := by
  have pos : (0 : Rat) < r.den := by positivity
  rw [le_iff, per, val, div_le_iff₀ pos, Nat.mul_one, Nat.one_mul, ← Nat.cast_mul, Nat.cast_le, Nat.mul_comm]

end Ratio

theorem bit_and (m n i : Nat) : bit (m &&& n) i = (bit m i && bit n i) := by
  have (x : Nat) : bit x i = x.testBit i := by
    unfold bit
    rw [Nat.testBit_eq_decide_div_mod_eq]
    exact beq_eq_decide ..
  rw [this, this, this, Nat.testBit_and]

/-! The load on the resources of Table 3.1 (R45, R218). -/

/-- Events per second of a running chain routed to a core (R185, R186). -/
def chainEvents (s : State) (u i : Nat) : Rat :=
  if s.flag (F.FC_CTRL_RUN i) && chainRoute s i == some u then
    (if s.flag (F.FC_CFG_MODE i) then (s.get (F.FC_RATE_INC i) : Rat) / 2 ^ 19 else (2 ^ 21 : Rat) / ((s.get (F.FC_CFG_RM1 i) + 1) * (s.get (F.FC_CFG_MM1 i) + 1) : Nat))
  else 0

/-- Events per second of a bin routed to a core (R218). -/
def binEvents (s : State) (u b : Nat) : Rat :=
  let both := fun k => bit (binEven s b) k && bit (binEvsort s b) k
  if binSorter s b == some u then
    ((binCables s b * binDepth s b * ((List.range 5).filter both).length * 10 : Nat) : Rat) / (max (s.get F.TT_GATE_MIN) 1 : Nat) +
    (if both 5 then ((List.range 32).map (fun p => if portCarries s b p then (10 * s.get (F.FL_LBCFG_KMAX p) : Rat) else 0)).sum else 0)
  else 0

theorem eventRate_eq (s : State) (u : Nat) : eventRate s u = ((List.range 16).map (chainEvents s u)).sum + (s.trend.valid.map (binEvents s u)).sum := rfl

theorem val_chainRate (s : State) (i : Nat) : (chainRate s i).val =
    (if s.flag (F.FC_CFG_MODE i) then (s.get (F.FC_RATE_INC i) : Rat) / 2 ^ 19 else (2 ^ 21 : Rat) / ((s.get (F.FC_CFG_RM1 i) + 1) * (s.get (F.FC_CFG_MM1 i) + 1) : Nat)) ∧
    0 < (chainRate s i).den := by
  unfold chainRate fcGrid
  split
  · exact ⟨by norm_num [Ratio.val, fcInc], Nat.two_pow_pos 19⟩
  · exact ⟨by norm_num [Ratio.val, fcP, fcR, fcM], Nat.mul_pos (Nat.succ_pos _) (Nat.succ_pos _)⟩

/-- A rate counted only where a condition holds. -/
theorem val_counted {c : Prop} [Decidable c] {r : Ratio} {v : Rat} (hv : r.val = v) (hd : 0 < r.den) :
    (if c then r else Ratio.zero).val = (if c then v else 0) ∧ 0 < (if c then r else Ratio.zero).den := by
  split
  · exact ⟨hv, hd⟩
  · exact ⟨Ratio.val_zero, Nat.one_pos⟩

theorem val_binRate (s : State) (b : Nat) : (binRate s b).val =
    ((binCables s b * binDepth s b * ((List.range 5).filter (fun k => bit (binEven s b) k && bit (binEvsort s b) k)).length * 10 : Nat) : Rat) /
      (max (s.get F.TT_GATE_MIN) 1 : Nat) +
    (if bit (binEven s b) 5 && bit (binEvsort s b) 5 then
      ((List.range 32).map (fun p => if portCarries s b p then (10 * s.get (F.FL_LBCFG_KMAX p) : Rat) else 0)).sum else 0) ∧ 0 < (binRate s b).den := by
  have base : (0 : Nat) < max (s.get F.TT_GATE_MIN) 1 := by omega
  have ports : (((List.range 32).map (fun p => if portCarries s b p then 10 * s.get (F.FL_LBCFG_KMAX p) else 0)).sum : Nat) =
      ((List.range 32).map (fun p => if portCarries s b p then (10 * s.get (F.FL_LBCFG_KMAX p) : Rat) else 0)).sum := by
    rw [Nat.cast_list_sum, List.map_map]
    refine congrArg List.sum (List.map_congr_left fun p _ => ?_)
    simp only [Function.comp_apply, Nat.cast_ite, Nat.cast_mul, Nat.cast_ofNat, Nat.cast_zero]
  unfold binRate popCount binSpan
  simp only [bit_and]
  split
  · obtain ⟨added, den⟩ := Ratio.val_add (a := ⟨_, _⟩) (b := ⟨((List.range 32).map (fun p => if portCarries s b p then 10 * s.get (F.FL_LBCFG_KMAX p) else 0)).sum, 1⟩) base Nat.one_pos
    exact ⟨by rw [added, ← ports]; simp only [Ratio.val, Nat.cast_one, div_one], den⟩
  · exact ⟨by rw [add_zero]; rfl, base⟩

/-- The events of a core's standing demand, in the terms of R218. -/
theorem val_coreEvents (s : State) (u : Nat) : (coreEvents s u).val = eventRate s u ∧ 0 < (coreEvents s u).den := by
  have chain (i : Nat) := val_counted (c := (s.flag (F.FC_CTRL_RUN i) && chainRoute s i == some u) = true) (val_chainRate s i).1 (val_chainRate s i).2
  have bin (b : Nat) := val_counted (c := (binSorter s b == some u) = true) (val_binRate s b).1 (val_binRate s b).2
  obtain ⟨chains, cden⟩ := Ratio.val_sum (l := (List.range 16).map (fun i => if s.flag (F.FC_CTRL_RUN i) && chainRoute s i == some u then chainRate s i else Ratio.zero))
    (List.forall_mem_map.mpr fun i _ => (chain i).2)
  obtain ⟨bins, bden⟩ := Ratio.val_sum (l := s.trend.valid.map (fun b => if binSorter s b == some u then binRate s b else Ratio.zero))
    (List.forall_mem_map.mpr fun b _ => (bin b).2)
  obtain ⟨added, den⟩ := Ratio.val_add cden bden
  refine ⟨added.trans ?_, den⟩
  rw [chains, bins, List.map_map, List.map_map, eventRate_eq]
  exact congrArg₂ (· + ·) (congrArg List.sum (List.map_congr_left fun i _ => (chain i).1)) (congrArg List.sum (List.map_congr_left fun b _ => (bin b).1))

theorem coreUse_fits (s : State) (u extra : Nat) : (coreUse s u extra).le ⟨1, 1⟩ = true ↔
    eventRate s u * s.get (F.SRT_BUDGET_BUDGET u) + 1000000 * (followOn s u + extra : Nat) ≤ 100000000 := by
  obtain ⟨events, den⟩ := val_coreEvents s u
  obtain ⟨added, pos⟩ := Ratio.val_add (a := (coreEvents s u).mul (s.get (F.SRT_BUDGET_BUDGET u))) (b := ⟨(followOn s u + extra) * 1000000, 1⟩) (Ratio.den_mul den _) Nat.one_pos
  have demand : (⟨(followOn s u + extra) * 1000000, 1⟩ : Ratio).val = 1000000 * (followOn s u + extra : Nat) := by
    simp only [Ratio.val, Nat.cast_one, div_one]
    push_cast
    ring
  unfold coreUse
  rw [Ratio.per_le_one pos, added, Ratio.val_mul, events, demand]
  norm_num

theorem trendUse_fits (s : State) : (trendUse s).le ⟨1, 1⟩ = true ↔ readPoints s * 10 ≤ 4000000 * max (s.get F.TT_GATE_MIN) 1 := by
  rw [trendUse, Ratio.le_one_iff, Nat.mul_comm 4000000]

theorem gateUse_fits (s : State) : (gateUse s).le ⟨1, 1⟩ = true ↔ 5000 * (sumShare s 1 + s.get (F.GATE_QUOTA_OBXQ (1 - 1))) +
    500 * (sumShare s 2 + s.get (F.GATE_QUOTA_OBXQ (2 - 1))) + 50 * (sumShare s 3 + s.get (F.GATE_QUOTA_OBXQ (3 - 1))) ≤ 2000000 := by
  rw [gateUse, Ratio.le_one_iff]
  dsimp only
  omega

theorem uses_eq (s : State) : uses s none 0 = trendUse s :: gateUse s :: (List.range 65).map (fun u => coreUse s u 0) := by
  refine congrArg (fun l => trendUse s :: gateUse s :: l) (List.map_congr_left fun u _ => ?_)
  rw [if_neg (Option.some_ne_none u).symm]

theorem loadOk_iff (s : State) : loadOk s none 0 = true ↔ LoadFits s none 0 := by
  rw [loadOk, uses_eq, List.all_cons, List.all_cons, List.all_map, Bool.and_eq_true, Bool.and_eq_true, List.all_eq_true, trendUse_fits, gateUse_fits]
  unfold LoadFits
  dsimp only
  refine and_congr_right fun _ => and_congr_right fun _ => forall_congr' fun u => ?_
  rw [List.mem_range, if_neg (Option.some_ne_none u).symm]
  refine imp_congr_right fun _ => ?_
  rw [Function.comp_apply]
  exact coreUse_fits s u 0

/-! The other conditions of Table 10.6. -/

theorem hopOk_iff (s : State) (c : Nat) : hopOk s c = true ↔ (s.isHead = false → bit (s.get F.CAS_CFG_PORTS) 0 = true →
    ((if c = 1 then sumShare s 1 else if c = 2 then 10 * sumShare s 1 + sumShare s 2 else 100 * sumShare s 1 + 10 * sumShare s 2 + sumShare s 3) + 1) * 12 + 80 ≤
      (if c = 1 then 1000 else if c = 2 then 10000 else 100000) ∧ (s.flag F.CAS_STAT_PATH = true → sumShare s c ≤ s.get (F.CAS_UPLIM_SHARE (c - 1)))) := by
  unfold hopOk pathStandsNow
  cases s.isHead <;> cases bit (s.get F.CAS_CFG_PORTS) 0 <;> cases s.flag F.CAS_STAT_PATH <;> simp

theorem busWait_eq (mask burst : Nat → Nat) (r b : Nat) :
    busWait mask burst r b = 2 * (((List.range 128).filter (fun q => q != r && bit (mask q) b)).map (fun q => burst q + 1)).sum := by
  unfold busWait
  rw [List.sum_eq_foldl, List.foldl_map]
  rfl

theorem bankOk_iff (s : State) (u : Nat) (p : Option Part) : bankOk s u p = true ↔ ∀ x ∈ p.toList, ∀ b ∈ partBanks x,
    4 * (2 * (((List.range 128).filter (fun q => q != u && bit (s.get (F.ARB_MASK_BANKS q)) b)).map (fun q => s.get (F.ARB_CFG_BURST q) + 1)).sum) + 8 ≤ 2000 := by
  cases p with
  | none => simp [bankOk]
  | some p =>
    simp only [bankOk, busWait_eq, List.all_eq_true, decide_eq_true_eq, Option.toList_some, List.mem_singleton, forall_eq, maskOf, burstOf, Nat.mul_comm 4]

theorem spaceAs_iff (s : State) : spaceAs s s.isHead = true ↔ Condition s 6 := by
  unfold spaceAs Condition obxqSum credSum subCredits pathStandsNow
  cases s.isHead <;> cases s.flag F.CAS_STAT_PATH <;> simp [and_assoc]

theorem letterboxOk_iff (s : State) (p : Nat) : letterboxOk s p = true ↔ (s.flag (F.GATE_FRB_EN p) = true → lbNeed s p ≤ s.get (F.FL_LBCFG_MAXEX p) ∧
    (letterInterval s p).isSome = true ∧ (letterInterval s p).getD 0 + roundBound s p ≤ s.get (F.GATE_FRB_MS p) * 1000000) := by
  unfold letterboxOk lbUnbound
  cases letterInterval s p <;> cases s.flag (F.GATE_FRB_EN p) <;> simp

/-- What the check evaluates for a TEST, in order. -/
def testHolds (s : State) : Nat → Bool
  | 1 => loadOk s none 0
  | 2 => hopOk s 1
  | 3 => hopOk s 2
  | 4 => hopOk s 3
  | 5 => bankOk s 0x77 (s.part 2) && [1, 2, 3].all (fun c => bankOk s 0x71 (upPart s c) && bankOk s 0x77 (upPart s c))
  | 6 => spaceAs s s.isHead
  | 7 => (List.range 32).all (letterboxOk s)
  | _ => true

theorem testHolds_iff (s : State) : ∀ k, testHolds s k = true ↔ Condition s k
  | 1 => loadOk_iff s
  | 2 => hopOk_iff s 1
  | 3 => hopOk_iff s 2
  | 4 => hopOk_iff s 3
  | 5 => by
    simp only [testHolds, Bool.and_eq_true, List.all_eq_true, bankOk_iff]
    unfold Condition
    simp
    tauto
  | 6 => spaceAs_iff s
  | 7 => by
    simp only [testHolds, List.all_eq_true, List.mem_range, letterboxOk_iff]
    rfl
  | 0 => iff_of_true rfl trivial
  | n + 8 => iff_of_true rfl trivial

theorem find?_cons_ite {α : Type} (p : α → Bool) (a : α) (l : List α) : (a :: l).find? p = if p a then some a else l.find? p := by
  rw [List.find?_cons]
  cases p a <;> rfl

theorem failingTest_eq (s : State) : failingTest s = (List.range' 1 7).find? (fun k => !testHolds s k) := by
  have space : (spaceAs s s.isHead && (!false || spaceAs s true)) = testHolds s 6 := by rw [Bool.not_false, Bool.true_or, Bool.and_true]; rfl
  rw [failingTest, firstFailing, space, show List.range' 1 7 = [1, 2, 3, 4, 5, 6, 7] from rfl]
  simp only [find?_cons_ite, List.find?_nil]
  rfl

theorem failingTest_none (s : State) : failingTest s = none ↔ ∀ k, 1 ≤ k → k ≤ 7 → Condition s k := by
  rw [failingTest_eq, List.find?_eq_none]
  simp only [Bool.not_eq_true', Bool.not_eq_false, testHolds_iff, List.mem_range'_1]
  exact ⟨fun h k lo hi => h k ⟨lo, by omega⟩, fun h k hk => h k hk.1 (by omega)⟩

theorem failingTest_some (s : State) (k : Nat) : failingTest s = some k ↔ 1 ≤ k ∧ k ≤ 7 ∧ ¬Condition s k ∧ ∀ j, 1 ≤ j → j < k → Condition s j := by
  rw [failingTest_eq, List.find?_range'_eq_some]
  simp only [Bool.not_eq_true', ← Bool.not_eq_true, Bool.not_not, testHolds_iff, List.mem_range'_1]
  constructor
  · rintro ⟨falls, ⟨lo, hi⟩, before⟩
    exact ⟨lo, by omega, falls, before⟩
  · rintro ⟨lo, hi, falls, before⟩
    exact ⟨falls, ⟨lo, by omega⟩, before⟩

end Sys2Proof.Machine

/-!
PROOFS. The configuration-write check of the arbiter registers and the budgets (10; R80, R83, R217, R219).
-/

namespace Sys2Proof.Machine

/-! A change under the check. -/

theorem checkedWrite_stands {u a : Nat} {v : Word} {s : State} (h : failingTest (s.setReg a v) = none) : checkedWrite u a v s = s.setReg a v := by
  rw [checkedWrite, checked, h]

theorem checkedWrite_refused {u a k : Nat} {v : Word} {s : State} (h : failingTest (s.setReg a v) = some k) : checkedWrite u a v s = checkRefused k u a s := by
  rw [checkedWrite, checked, h]
  rfl

/-- The writer shown is the unit itself, or for the test access port a free value of the IDs of R8; the state is left but for the free choice. -/
theorem chkWriter_shows (u : Nat) (s : State) : ∃ n c, chkWriter u s = (n, { s with freeCtr := c }) ∧ n < 0x80 ∧ (u < 0x80 → n = u) := by
  unfold chkWriter
  split
  · next h => exact ⟨u, s.freeCtr, rfl, h, fun _ => rfl⟩
  · next h => exact ⟨_, _, rfl, Nat.mod_lt _ (by decide), fun hu => absurd hu h⟩

/-- GATE_STAT and the GATE_CHK registers name the condition, the writer and the address. -/
def checkNoted (k n a : Nat) (s : State) : State :=
  (((s.mark F.GATE_STAT_CHK_REF).put F.GATE_CHK_TEST k).put F.GATE_CHK_WRITER n).put F.GATE_CHK_ADDR_ADDR a

theorem checkNoted_names {k n a : Nat} (s : State) (hk : k < 16) (hn : n < 0x80) (ha : a < 2 ^ 32) :
    (checkNoted k n a s).flag F.GATE_STAT_CHK_REF = true ∧ (checkNoted k n a s).get F.GATE_CHK_TEST = k ∧ (checkNoted k n a s).get F.GATE_CHK_WRITER = n ∧
      (checkNoted k n a s).get F.GATE_CHK_ADDR_ADDR = a := by
  refine ⟨?_, ?_, ?_, ?_⟩
  · rw [checkNoted, flag_put_other _ _ _ _ (by decide) (by decide), flag_put_other _ _ _ _ (by decide) (by decide), flag_put_other _ _ _ _ (by decide) (by decide),
      flag_mark_self _ _ (by decide) (by decide)]
  · rw [checkNoted, get_put_other _ _ _ _ (by decide) (by decide), get_put_other _ _ _ _ (by decide) (by decide), get_put_self _ _ _ (by decide)]
    exact Nat.mod_eq_of_lt hk
  · rw [checkNoted, get_put_other _ _ _ _ (by decide) (by decide), get_put_self _ _ _ (by decide)]
    exact Nat.mod_eq_of_lt (by change n < 2 ^ 8; omega)
  · rw [checkNoted, get_put_self _ _ _ (by decide)]
    exact Nat.mod_eq_of_lt ha

theorem untouched_checkNoted (k n a : Nat) (s : State) : Untouched s (checkNoted k n a s) [A.GATE_STAT, A.GATE_CHK, A.GATE_CHK_ADDR] :=
  Untouched_put (Untouched_put (Untouched_put (Untouched_mark (Untouched_refl s _) F.GATE_STAT_CHK_REF (by decide)) F.GATE_CHK_TEST k (by decide)) F.GATE_CHK_WRITER n
    (by decide)) F.GATE_CHK_ADDR_ADDR a (by decide)

/-- What a refused change leaves behind (R219). -/
def CheckRecorded (u a k : Nat) (s t : State) : Prop :=
  t.flag F.GATE_STAT_CHK_REF = true ∧ t.get F.GATE_CHK_TEST = k ∧ (u < 0x80 → t.get F.GATE_CHK_WRITER = u) ∧ t.get F.GATE_CHK_WRITER < 0x80 ∧
    t.get F.GATE_CHK_ADDR_ADDR = a ∧ t.flt.dayQ = s.flt.dayQ ++ [⟨s.pm, 0x77, 0x12, k, a⟩] ∧ Untouched s t [A.GATE_STAT, A.GATE_CHK, A.GATE_CHK_ADDR]

theorem checkRefused_eq {u k a n c : Nat} {s : State} (h : chkWriter u s = (n, { s with freeCtr := c })) :
    checkRefused k u a s = dayPush 0x77 0x12 k a (checkNoted k n a { s with freeCtr := c }) := by
  simp only [checkRefused, h, checkNoted]

/-- The entry in the day book adds nothing to what the registers show. -/
theorem checkRecorded_entry {u a k : Nat} {s r : State} (flag : r.flag F.GATE_STAT_CHK_REF = true) (test : r.get F.GATE_CHK_TEST = k)
    (own : u < 0x80 → r.get F.GATE_CHK_WRITER = u) (id : r.get F.GATE_CHK_WRITER < 0x80) (addr : r.get F.GATE_CHK_ADDR_ADDR = a) (hf : r.flt = s.flt) (hp : r.pm = s.pm)
    (kept : Untouched s r [A.GATE_STAT, A.GATE_CHK, A.GATE_CHK_ADDR]) (hq : s.flt.dayQ.length < 32) : CheckRecorded u a k s (dayPush 0x77 0x12 k a r) := by
  rw [dayPush_room (by rw [hf]; exact hq), hf, hp]
  exact ⟨flag, test, own, id, addr, rfl, Untouched_same kept rfl rfl⟩

theorem checkRefused_records (u : Nat) {a k : Nat} {s : State} (hk : k < 16) (ha : a < 2 ^ 32) (hq : s.flt.dayQ.length < 32) :
    CheckRecorded u a k s (checkRefused k u a s) := by
  obtain ⟨n, c, shown, hn, own⟩ := chkWriter_shows u s
  obtain ⟨flag, test, writer, addr⟩ := checkNoted_names (k := k) (n := n) (a := a) { s with freeCtr := c } hk hn ha
  have free : Untouched s { s with freeCtr := c } [A.GATE_STAT, A.GATE_CHK, A.GATE_CHK_ADDR] := Untouched_same (Untouched_refl s _) rfl rfl
  rw [checkRefused_eq shown]
  exact checkRecorded_entry flag test (fun hu => writer.trans (own hu)) (writer.trans_lt hn) addr rfl rfl (Untouched_trans free (untouched_checkNoted k n a _)) hq

/-- What a change under the check comes to: the word stands, or the first condition that fails is recorded. -/
def ChangeChecked (u a : Nat) (v : Word) (s t : State) : Prop :=
  (failingTest (s.setReg a v) = none → t = s.setReg a v) ∧ ∀ k, failingTest (s.setReg a v) = some k → s.flt.dayQ.length < 32 → CheckRecorded u a k s t

theorem checkedWrite_checked {u a : Nat} (ha : a < 2 ^ 32) (v : Word) (s : State) : ChangeChecked u a v s (checkedWrite u a v s) := by
  refine ⟨checkedWrite_stands, fun k h hq => ?_⟩
  obtain ⟨-, hi, -, -⟩ := (failingTest_some _ k).mp h
  rw [checkedWrite_refused h]
  exact checkRefused_records u (by omega) ha hq

/-! The registers under the check. -/

section writes
variable {u : Fin 256} {v : Word} {s : State}

/-- A write of a register of the arbiters. -/
theorem registerWrite_arb {a : Nat} {d : RegDef} {i : Nat} (h : Accepts u a v s) (hf : findReg a = some (d, i) ∧ mirrorOf a = none ∧ isBanked a = false)
    (lo : 0x10102000 ≤ a) (hi : a < 0x10102400) : registerWrite u.val a v s =
      if (a - 0x10102000) % 8 = 4 ∧ isFixedMask ((a - 0x10102000) / 8) then s else checkedWrite u a v s := by
  have block : blockOf a = 0x100 := by unfold blockOf; rw [if_neg (by omega)]
  have off : offOf a = a - 0x10100000 := by unfold offOf; rw [if_neg (by omega)]
  rw [registerWrite_act h hf.1 hf.2.1 hf.2.2 (by unfold A.CAS_RA_CMD; omega), regAct]
  rw [if_pos block, off, sysRegWrite, if_neg (by omega), if_neg (by omega), if_neg (by omega), if_pos (by omega), BitVec.ofNat_toNat, BitVec.setWidth_eq,
    show a - 0x10100000 - 0x2000 = a - 0x10102000 by omega, show (a - 0x10100000) % 8 = (a - 0x10102000) % 8 by omega]

/-- A write of a budget of the gatekeeper. -/
theorem registerWrite_budget {a : Nat} {d : RegDef} {i : Nat} (h : Accepts u a v s) (hf : findReg a = some (d, i) ∧ mirrorOf a = none ∧ isBanked a = false)
    (range : 0x10077010 ≤ a ∧ a < 0x10077028 ∨ 0x10077100 ≤ a ∧ a < 0x10077180) : registerWrite u.val a v s = checkedWrite u a v s := by
  have block : blockOf a = 0x77 := by unfold blockOf; rw [if_pos (by omega)]; omega
  have off : offOf a = a - 0x10077000 := by unfold offOf; rw [if_pos (by omega)]; omega
  rw [registerWrite_act h hf.1 hf.2.1 hf.2.2 (by unfold A.CAS_RA_CMD; omega), regAct]
  rw [block, off, if_neg (by decide), if_neg (by decide), if_neg (by decide), if_neg (by decide), if_neg (by decide), if_pos rfl, gateRegWrite, if_neg (by omega),
    BitVec.ofNat_toNat, BitVec.setWidth_eq]
  rcases range with ⟨lo, hi⟩ | ⟨lo, hi⟩
  · rw [if_pos (by omega)]
  · rw [if_neg (by omega), if_neg (by omega), if_neg (by omega), if_pos (by omega)]

/-- A write of GATE_OPEN changes LIMIT alone. -/
theorem registerWrite_open (h : Accepts u A.GATE_OPEN v s) :
    registerWrite u.val A.GATE_OPEN v s = checkedWrite u A.GATE_OPEN (BitVec.ofNat 32 (setBits (s.reg A.GATE_OPEN).toNat 16 12 (bits v.toNat 16 12))) s := by
  obtain ⟨hf, hm, hb⟩ := find_GATE_OPEN
  rw [registerWrite_act h hf hm hb (by decide), regAct, show blockOf A.GATE_OPEN = 0x77 by decide, show offOf A.GATE_OPEN = 8 by decide, if_neg (by decide), if_neg (by decide),
    if_neg (by decide), if_neg (by decide), if_neg (by decide), if_pos rfl, gateRegWrite, if_pos rfl]

end writes

/-- A command whose write is one change under the check. -/
theorem goes_checked {i : Instr} {u a : Nat} {v : Word} {s : State} (he : exec i s = .next (checkedWrite u a v s)) (ha : a < 2 ^ 32) :
    (failingTest (s.setReg a v) = none → Goes i s (fun t => t = s.setReg a v)) ∧
      ∀ k, failingTest (s.setReg a v) = some k → s.flt.dayQ.length < 32 → Goes i s (CheckRecorded u a k s) := by
  obtain ⟨stands, refused⟩ := checkedWrite_checked (u := u) ha v s
  exact ⟨fun h => ⟨_, he, stands h⟩, fun k h hq => ⟨_, he, refused k h hq⟩⟩

section commands
variable {u : Fin 256} {v : Word} {s : State}

theorem exec_arbConfigWrite {n : Fin 128} (h : Accepts u (A.ARB_CFG n) v s) :
    exec (.arbConfigWrite u n false v) s = .next (checkedWrite u (A.ARB_CFG n) v s) := by
  refine congrArg Host.Outcome.next ((registerWrite_arb h (find_ARB_CFG n) (by unfold A.ARB_CFG; omega) (by unfold A.ARB_CFG; omega)).trans (if_neg ?_))
  unfold A.ARB_CFG
  omega

theorem exec_arbMaskWrite {n : Fin 128} (h : Accepts u (A.ARB_MASK n) v s) :
    exec (.arbConfigWrite u n true v) s = .next (if isFixedMask n then s else checkedWrite u (A.ARB_MASK n) v s) := by
  refine congrArg Host.Outcome.next ((registerWrite_arb h (find_ARB_MASK n) (by unfold A.ARB_MASK; omega) (by unfold A.ARB_MASK; omega)).trans ?_)
  rw [show (A.ARB_MASK n - 0x10102000) / 8 = n.val by unfold A.ARB_MASK; omega, show (A.ARB_MASK n - 0x10102000) % 8 = 4 by unfold A.ARB_MASK; omega]
  simp only [true_and]

theorem exec_budgetWrite {b : Budget} (hb : b ≠ .openLimit) (h : Accepts u (budgetAddr b) v s) :
    exec (.budgetWrite u b v) s = .next (checkedWrite u (budgetAddr b) v s) := by
  refine congrArg Host.Outcome.next ?_
  cases b with
  | quota c => exact registerWrite_budget h (find_GATE_QUOTA c) (.inl (show 0x10077010 ≤ A.GATE_QUOTA c ∧ A.GATE_QUOTA c < 0x10077028 by unfold A.GATE_QUOTA; omega))
  | share c => exact registerWrite_budget h (find_GATE_SHARE c) (.inl (show 0x10077010 ≤ A.GATE_SHARE c ∧ A.GATE_SHARE c < 0x10077028 by unfold A.GATE_SHARE; omega))
  | openLimit => exact absurd rfl hb
  | rate p => exact registerWrite_budget h (find_GATE_FRB p) (.inr (show 0x10077100 ≤ A.GATE_FRB p ∧ A.GATE_FRB p < 0x10077180 by unfold A.GATE_FRB; omega))

theorem exec_openLimitWrite (h : Accepts u A.GATE_OPEN v s) (stands : failingTest (s.put F.GATE_OPEN_LIMIT (bits v.toNat 16 12)) = none) :
    exec (.budgetWrite u .openLimit v) s = .next (s.put F.GATE_OPEN_LIMIT (bits v.toNat 16 12)) :=
  congrArg Host.Outcome.next ((registerWrite_open h).trans (checkedWrite_stands stands))

end commands

theorem budgetAddr_lt (b : Budget) : budgetAddr b < 2 ^ 32 := by
  cases b with
  | quota c => change A.GATE_QUOTA c < _; unfold A.GATE_QUOTA; omega
  | share c => change A.GATE_SHARE c < _; unfold A.GATE_SHARE; omega
  | openLimit => decide
  | rate p => change A.GATE_FRB p < _; unfold A.GATE_FRB; omega

/-- Settles O11: each write is one change under the check, and the check tries the conditions of Table 10.6 in order. -/
theorem configurationWriteCheck : Obligations.ConfigurationWriteCheck := by
  unfold Obligations.ConfigurationWriteCheck
  refine ⟨fun u v s => ⟨fun n h => ?_, fun n hn h => ?_, fun b hb h => ?_⟩, fun u v s h stands => ?_, fun u n v s h fixed => ?_,
    fun s => ⟨failingTest_none s, failingTest_some s⟩⟩
  · exact goes_checked (exec_arbConfigWrite h) (by unfold A.ARB_CFG; omega)
  · exact goes_checked (by rw [exec_arbMaskWrite h, hn, if_neg Bool.false_ne_true]) (by unfold A.ARB_MASK; omega)
  · exact goes_checked (exec_budgetWrite hb h) (budgetAddr_lt b)
  · exact ⟨_, exec_openLimitWrite h stands, (get_put_self s _ _ (by decide)).trans (Nat.mod_eq_of_lt (bits_lt _ _ _)), rfl⟩
  · exact ⟨s, by rw [exec_arbMaskWrite h, if_pos fixed], rfl⟩

end Sys2Proof.Machine

/-!
PROOFS. The patrol scrubber (04; R65, R373): what a step asks of the pigeonhole banks, and the beat that is checked when its grant begins.
-/

namespace Sys2Proof.Machine

/-! A step of the patrol. -/

/-- The beat that the patrol asks a bank of the pigeonhole for. -/
def patrolPiece (b ptr : Nat) : BusPiece := ⟨0x08000000 + (b - 8) * 2 ^ 20 + 16 * ptr, 16, none, 1⟩

/-- The first `n` banks of the pigeonhole asked for their beat. -/
def patrolAsks (n : Nat) (s : State) : State :=
  forUpTo n (fun i s => raiseReq (8 + i) 0x7B true ⟨0x08000000 + i * 2 ^ 20 + 16 * s.ledg.scrubPtr, 16, none, 1⟩ s) s

theorem patrolAsks_succ (n : Nat) (s : State) :
    patrolAsks (n + 1) s = raiseReq (8 + n) 0x7B true (patrolPiece (8 + n) (patrolAsks n s).ledg.scrubPtr) (patrolAsks n s) := by
  rw [patrolPiece, Nat.add_sub_cancel_left]
  rfl

theorem patrolAsks_frame (n : Nat) (s : State) : ∃ arbs, patrolAsks n s = { s with arbs := arbs } := by
  induction n with
  | zero => exact ⟨s.arbs, rfl⟩
  | succ n ih =>
    obtain ⟨arbs, e⟩ := ih
    rw [patrolAsks_succ, e]
    exact ⟨_, rfl⟩

theorem arbs_patrolAsks (n : Nat) (s : State) (b : Nat) : (patrolAsks n s).arbs[b]? =
    if 8 ≤ b ∧ b < 8 + n then (s.arbs[b]?).map (fun q => joinPiece 0x7B true s.tb q (patrolPiece b s.ledg.scrubPtr)) else s.arbs[b]? := by
  induction n with
  | zero => exact (if_neg (by omega)).symm
  | succ n ih =>
    have kept : (patrolAsks n s).ledg.scrubPtr = s.ledg.scrubPtr ∧ (patrolAsks n s).tb = s.tb := by
      obtain ⟨arbs, e⟩ := patrolAsks_frame n s
      rw [e]
      exact ⟨rfl, rfl⟩
    obtain ⟨ptr, tb⟩ := kept
    rw [patrolAsks_succ, raiseReq_eq, ptr, tb, State.modArb]
    by_cases h : 8 + n = b
    · rw [← h, upd_get, h, ih, if_neg (by omega), if_pos (by omega)]
    · rw [upd_get_ne _ _ h, ih]
      exact if_congr (by omega) rfl rfl

theorem patrolScrub_off {s : State} (h : s.get F.PIGN_SCRUB_INTERVAL = 0) : patrolScrub s = s := if_pos (.inl h)

theorem patrolScrub_asks {s : State} (h : s.get F.PIGN_SCRUB_INTERVAL ≠ 0) (hr : s.flag F.PIGN_STAT_READY = true) :
    patrolScrub s = (patrolAsks 16 s).modLedg (fun g => { g with scrubPtr := (g.scrubPtr + 1) % 65536 }) :=
  if_neg (by rw [hr]; exact fun e => e.elim h (by decide))

theorem exec_patrolScrub {s : State} (h : logicPowered s = true) : exec (.patrolScrub []) s = .next (patrolScrub s) := congrArg Host.Outcome.next (if_pos h)

theorem goes_patrolAsks {s : State} (hl : logicPowered s = true) (h : s.get F.PIGN_SCRUB_INTERVAL ≠ 0) (hr : s.flag F.PIGN_STAT_READY = true) (i : Fin 16) :
    Goes (.patrolScrub []) s (fun t =>
      (∀ q, s.arbs[8 + i.val]? = some q → q.reqs.any (fun r => r.unit == 0x7B && r.ahead) = false →
        t.arbs[8 + i.val]? = some { q with reqs := q.reqs ++ [⟨0x7B, true, [⟨0x08000000 + i.val * 2 ^ 20 + 16 * s.ledg.scrubPtr, 16, none, 1⟩], some s.tb⟩] }) ∧
      (∀ b, b < 8 → t.arbs[b]? = s.arbs[b]?) ∧ t = { s with arbs := t.arbs, ledg := { s.ledg with scrubPtr := (s.ledg.scrubPtr + 1) % 65536 } }) := by
  refine ⟨_, by rw [exec_patrolScrub hl, patrolScrub_asks h hr], ?_⟩
  have asked := arbs_patrolAsks 16 s
  obtain ⟨arbs, e⟩ := patrolAsks_frame 16 s
  rw [e] at asked ⊢
  refine ⟨fun q hq new => ?_, fun b hb => (asked b).trans (if_neg (by omega)), rfl⟩
  have none : q.reqs.any (fun r => r.unit == 0x7B && r.ahead == true) = false := by simpa only [beq_true] using new
  refine (asked (8 + i.val)).trans ?_
  rw [if_pos (by omega), hq, Option.map_some, joinPiece_begins none, patrolPiece, Nat.add_sub_cancel_left]

/-! What a read of a pigeonhole word meets. -/

theorem checkUnit_pigeon {a : Nat} (h : inLedger a = false) : checkUnit a = a / 8 * 8 := if_neg (by rw [h]; exact Bool.false_ne_true)

theorem sortNat_singleton (n : Nat) : (sortNat [n]).length = 1 := rfl

section read
variable {s : State} {x : Nat}

/-- A word none of whose cells have turned is read as it stands. -/
theorem readEffect_clean (h : ∀ f ∈ s.ledg.flips, checkUnit f.addr ≠ checkUnit x) : readEffect x s = s := by
  have sound : poisonAt s x = false := by
    unfold poisonAt badKeys badFlips
    rw [List.contains_eq_mem, decide_eq_false_iff_not, List.mem_map]
    exact fun ⟨f, hf, e⟩ => h f (List.mem_of_mem_filter hf) e
  have none : flipsAt s x = [] := List.filter_eq_nil_iff.mpr fun f hf => by rw [beq_iff_eq]; exact h f hf
  rw [readEffect, sound, none]
  rfl

/-- One turned cell of a pigeonhole word is corrected. -/
theorem readEffect_corrected {f : Flip} (hf : s.ledg.flips = [f]) (hb : f.bit < 72) (hx : checkUnit f.addr = checkUnit x) (hp : inLedger x = false) :
    readEffect x s = pigeonCorrected x s := by
  have single : badFlips s = [] := by
    unfold badFlips wordFlips
    rw [hf]
    simp [hb]
  have sound : poisonAt s x = false := by rw [poisonAt, badKeys, single]; rfl
  have one : flipsAt s x = [f] := by rw [flipsAt, hf]; exact List.filter_cons_of_pos (by rw [hx]; exact beq_self_eq_true _)
  rw [readEffect, sound, if_neg Bool.false_ne_true, one]
  dsimp only
  rw [List.map_singleton, sortNat_singleton, if_neg Nat.one_ne_zero, hp, if_neg Bool.false_ne_true]

/-- Two turned cells of one word cannot be corrected. -/
theorem readEffect_uncorrectable {f g : Flip} (hf : s.ledg.flips = [f, g]) (same : f.addr = g.addr) (hb : f.bit < 72) (hg : g.bit < 72)
    (hx : checkUnit f.addr = checkUnit x) : readEffect x s = uncorrectable x s := by
  have double : f ∈ badFlips s := by
    unfold badFlips wordFlips
    rw [hf, List.mem_filter]
    exact ⟨List.mem_cons_self, by simp [same, hb, hg]⟩
  have poisoned : poisonAt s x = true := by
    unfold poisonAt badKeys
    rw [List.contains_eq_mem, decide_eq_true_iff, ← hx]
    exact List.mem_map_of_mem double
  rw [readEffect, poisoned, if_pos rfl]

/-- A unit whose mask enables the bank, and that holds no transaction, meets what the cells hold. -/
theorem readAs_enabled {u : Nat} (hm : maskOk s u (busBank x) = true) (ht : txnOf s u = none) : readAs u x s = readEffect x s := by
  have own : ownLine s u x = false := by rw [ownLine, ht]; rfl
  rw [readAs, hm, own]
  rfl

end read

theorem unitsOf_beat {a : Nat} (h : inLedger a = false) (ha : a % 16 = 0) : unitsOf a 16 = [a, a + 8] := by
  unfold unitsOf
  dsimp only
  rw [h, if_neg Bool.false_ne_true, show a % 8 = 0 by omega, show a / 8 * 8 = a by omega]
  rfl

/-! The phase in which the patrol's grant begins. -/

section phase
variable {b : Nat} {q : Arb} {s : State}

/-- A bank left without a request is left idle, and a phase does nothing more. -/
theorem arbPhase_idle {g : Grant} {r : State} {q' : Arb} (hq : s.arbs[b]? = some q) (hg : q.granted = some g) (hb : beginGrant b g q s = r)
    (hr : r.arbs[b]? = some q') (hn : q'.reqs = []) : ∃ arbs, arbPhase b s = { r with arbs := arbs } := by
  have expelled : ∃ arbs q'', arbs[b]? = some q'' ∧ q''.reqs = [] ∧ expelMasked b r = { r with arbs := arbs } := by
    unfold expelMasked
    rw [hr]
    dsimp only
    rw [hn]
    exact ⟨_, _, (arbs_modArb _ hr).1, by simp [hn], rfl⟩
  obtain ⟨arbs, q'', hq'', hn'', e⟩ := expelled
  have begun : arbPhase b s = nextGrant b (expelMasked b r) := by
    unfold arbPhase
    rw [hq]
    dsimp only
    rw [hg]
    dsimp only
    rw [hb]
  rw [begun, e, nextGrant_frame]
  exact ⟨_, rfl⟩

/-- The arbiter once a grant has begun (R77, R84). -/
def grantBegun (g : Grant) (a : Arb) : Arb :=
  { a with
    owner := some g.unit
    granted := none
    reqs := (a.reqs.map (fun r => if r.isOf g.unit g.ahead then { r with pieces := (carry g.burst r.pieces).2, since := none } else r)).filter
      (fun r => !r.pieces.isEmpty) }

theorem grantBegun_patrol {n : Nat} {p : BusPiece} {m : Option Nat} (hp : p.beats = 1) (hr : q.reqs = [⟨0x7B, true, [p], m⟩]) :
    grantBegun ⟨0x7B, true, n + 1⟩ q = { q with owner := some 0x7B, granted := none, reqs := [] } := by
  have carried : carry (n + 1) [p] = ([p], []) := carry_all _ _ (by simp [hp])
  simp [grantBegun, hr, BusReq.isOf, carried]

/-- What the request of a grant carries. -/
def grantPieces (g : Grant) (q : Arb) : List BusPiece := ((q.reqs.find? (·.isOf g.unit g.ahead)).map (·.pieces)).getD []

theorem beginGrant_eq (g : Grant) : beginGrant b g q s = (carry g.burst (grantPieces g q)).1.foldl (fun s p => pieceDone g.unit g.ahead p s)
    (if g.ahead && g.unit != 0x7B then (noteWindowWait g q.reqs s).modArb b (grantBegun g)
      else ((noteWindowWait g q.reqs s).modArb b (grantBegun g)).incWrap (F.ARB_BANK_STAT_GRANTS b)) := rfl

/-- The patrol's beat is read when its grant begins, and the grant is counted. -/
theorem beginGrant_patrol {a n : Nat} {m : Option Nat} (hr : q.reqs = [⟨0x7B, true, [⟨a, 16, none, 1⟩], m⟩]) :
    beginGrant b ⟨0x7B, true, n + 1⟩ q s = readSpan 0x7B a 16 ((s.modArb b (grantBegun ⟨0x7B, true, n + 1⟩)).incWrap (F.ARB_BANK_STAT_GRANTS b)) := by
  have pieces : grantPieces ⟨0x7B, true, n + 1⟩ q = [⟨a, 16, none, 1⟩] := by rw [grantPieces, hr]; rfl
  have carried : carry (n + 1) [(⟨a, 16, none, 1⟩ : BusPiece)] = ([⟨a, 16, none, 1⟩], []) := carry_all _ _ (by simp)
  rw [beginGrant_eq, pieces, carried]
  rfl

end phase

/-! What the patrol's read leaves. -/

/-- The beat that the patrol reads of a bank. -/
structure PatrolBeat (i : Fin 16) (a : Nat) : Prop where
  whole : a % 16 = 0
  low : 0x08000000 ≤ a
  high : a < 0x09000000
  bank : a / 2 ^ 20 % 16 = i.val

theorem patrolBeat {i : Fin 16} {a ptr : Nat} (ha : a = 0x08000000 + i.val * 2 ^ 20 + 16 * ptr) (hp : ptr < 65536) : PatrolBeat i a := by
  constructor <;> omega

namespace PatrolBeat
variable {i : Fin 16} {a w : Nat}

/-- A word of the beat lies in its bank, at an address of its own. -/
theorem word (h : PatrolBeat i a) (hw : w = a ∨ w = a + 8) :
    inLedger w = false ∧ busBank w = 8 + i.val ∧ checkUnit w = w ∧ w / 2 ^ 20 % 16 = i.val ∧ w / 8 * 8 = w ∧ w < 2 ^ 32 := by
  obtain ⟨whole, low, high, bank⟩ := h
  have pigeon : inLedger w = false := decide_eq_false (by omega)
  refine ⟨pigeon, ?_, ?_, by omega, by omega, by omega⟩
  · rw [busBank, pigeon, if_neg Bool.false_ne_true]
    omega
  · rw [checkUnit_pigeon pigeon]
    omega

end PatrolBeat

section read
variable {i : Fin 16} {a w : Nat} {c r : State}

/-- The patrol may read its bank. -/
def Patrols (i : Fin 16) (s : State) : Prop := maskOk s 0x7B (8 + i.val) = true ∧ txnOf s 0x7B = none

theorem patrols_congr {s t : State} (h : Patrols i s) (hr : t.reg (A.ARB_MASK 0x7B) = s.reg (A.ARB_MASK 0x7B)) (ht : t.ledg.txns = s.ledg.txns) : Patrols i t := by
  unfold Patrols maskOk txnOf
  rw [get_congr (F.ARB_MASK_BANKS 0x7B) hr, ht]
  exact h

theorem readAs_patrol (ha : PatrolBeat i a) (hw : w = a ∨ w = a + 8) (h : Patrols i c) : readAs 0x7B w c = readEffect w c := by
  obtain ⟨-, bank, -⟩ := ha.word hw
  exact readAs_enabled (by rw [bank]; exact h.1) h.2

theorem readSpan_patrol (ha : PatrolBeat i a) (c : State) : readSpan 0x7B a 16 c = readAs 0x7B (a + 8) (readAs 0x7B a c) := by
  obtain ⟨pigeon, -⟩ := ha.word (.inl rfl)
  rw [readSpan, unitsOf_beat pigeon ha.whole]
  rfl

/-- Where one word alone has turned cells, the read of the beat is the read of that word. -/
theorem readSpan_one (ha : PatrolBeat i a) (hw : w = a ∨ w = a + 8) (he : readEffect w c = r) (hc : Patrols i c) (hr : Patrols i r)
    (cells : ∀ f ∈ c.ledg.flips, f.addr = w) (left : ∀ f ∈ r.ledg.flips, f.addr = w) : readSpan 0x7B a 16 c = r := by
  have apart : checkUnit a ≠ checkUnit (a + 8) := by
    obtain ⟨-, -, first, -⟩ := ha.word (.inl rfl)
    obtain ⟨-, -, second, -⟩ := ha.word (.inr rfl)
    omega
  rw [readSpan_patrol ha, readAs_patrol ha (.inl rfl) hc]
  rcases hw with rfl | rfl
  · rw [he, readAs_patrol ha (.inr rfl) hr, readEffect_clean fun f hf => by rw [left f hf]; exact apart]
  · rw [readEffect_clean fun f hf => by rw [cells f hf]; exact apart.symm, readAs_patrol ha (.inr rfl) hc, he]

/-- A beat without a turned cell is read as it stands. -/
theorem readSpan_sound (ha : PatrolBeat i a) (hc : Patrols i c) (cells : c.ledg.flips = []) : readSpan 0x7B a 16 c = c :=
  readSpan_one ha (.inl rfl) (readEffect_clean (by simp [cells])) hc hc (by simp [cells]) (by simp [cells])

/-- The word is counted and marked corrected. -/
def correctedNoted (s : State) : State := (s.incSat F.PIGN_ECC_CE_COUNT).mark F.PIGN_STAT_CE

theorem untouched_correctedNoted (s : State) : Untouched s (correctedNoted s) [A.PIGN_ECC, A.PIGN_STAT] :=
  Untouched_mark (Untouched_incSat (Untouched_refl s _) _ 1 (by decide)) _ (by decide)

/-- The word is counted and marked corrected, and its cells hold it again. -/
theorem pigeonCorrected_eq {f : Flip} (hu : checkUnit f.addr = checkUnit w) (hf : c.ledg.flips = [f]) :
    pigeonCorrected w c = { correctedNoted c with ledg := { c.ledg with flips := [] } } := by
  have healed : c.ledg.flips.filter (fun f => checkUnit f.addr != checkUnit w) = [] := by
    rw [hf]
    exact List.filter_cons_of_neg (by rw [hu, bne_self_eq_false]; exact Bool.false_ne_true)
  rw [← healed]
  rfl

theorem readSpan_corrected {f : Flip} (ha : PatrolBeat i a) (hw : w = a ∨ w = a + 8) (hc : Patrols i c) (hf : c.ledg.flips = [f]) (hb : f.bit < 72) (at_ : f.addr = w) :
    readSpan 0x7B a 16 c = { correctedNoted c with ledg := { c.ledg with flips := [] } } := by
  obtain ⟨pigeon, -⟩ := ha.word hw
  have same : checkUnit f.addr = checkUnit w := by rw [at_]
  have mask : (correctedNoted c).reg (A.ARB_MASK 0x7B) = c.reg (A.ARB_MASK 0x7B) := (untouched_correctedNoted c).1 _ (by decide)
  refine readSpan_one ha hw ((readEffect_corrected hf hb same pigeon).trans (pigeonCorrected_eq same hf)) hc (patrols_congr hc mask rfl) ?_ ?_
  · rw [hf]
    exact fun g hg => by rw [List.mem_singleton.mp hg, at_]
  · exact fun g hg => absurd hg List.not_mem_nil

end read

end Sys2Proof.Machine

/-!
PROOFS. The three outcomes of a patrol's beat (04; R65, R373).
-/

namespace Sys2Proof.Machine

/-! The state in which the beat is read. -/

section beat
variable {i : Fin 16} {a w n : Nat} {q : Arb} {s : State}

/-- The patrol's grant on a bank of the pigeonhole has begun and is counted. -/
def patrolGranted (i : Fin 16) (n : Nat) (s : State) : State :=
  (s.modArb (8 + i.val) (grantBegun ⟨0x7B, true, n + 1⟩)).incWrap (F.ARB_BANK_STAT_GRANTS (8 + i.val))

theorem untouched_patrolGranted (i : Fin 16) (n : Nat) (s : State) : Untouched s (patrolGranted i n s) [A.ARB_BANK_STAT (8 + i.val)] :=
  Untouched_incWrap (t := s.modArb (8 + i.val) (grantBegun ⟨0x7B, true, n + 1⟩)) (Untouched_same (Untouched_refl s _) rfl rfl) _ 1 List.mem_cons_self

/-- The count of a bank's grants lies apart from the registers that a beat can change. -/
theorem bankStat_apart (i : Fin 16) {x : Nat} (h : x < 0x10102400 ∨ 0x10103000 ≤ x) : x ∉ [A.ARB_BANK_STAT (8 + i.val)] := by
  rw [List.mem_singleton]
  unfold A.ARB_BANK_STAT
  omega

theorem reg_patrolGranted (i : Fin 16) (n : Nat) (s : State) {x : Nat} (h : x < 0x10102400 ∨ 0x10103000 ≤ x) : (patrolGranted i n s).reg x = s.reg x :=
  (untouched_patrolGranted i n s).1 x (bankStat_apart i h)

theorem patrols_patrolGranted (hm : maskOk s 0x7B (8 + i.val) = true) (ht : txnOf s 0x7B = none) : Patrols i (patrolGranted i n s) :=
  patrols_congr ⟨hm, ht⟩ (reg_patrolGranted i n s (.inl (by decide))) rfl

/-- The phase in which the patrol's beat is granted reads it and does nothing more. -/
theorem goes_patrolBeat {r : State} {m : Option Nat} (hq : s.arbs[8 + i.val]? = some q) (hg : q.granted = some ⟨0x7B, true, n + 1⟩)
    (hr : q.reqs = [⟨0x7B, true, [⟨a, 16, none, 1⟩], m⟩]) (hread : readSpan 0x7B a 16 (patrolGranted i n s) = r) (harbs : r.arbs = (patrolGranted i n s).arbs)
    {P : State → Prop} (hP : ∀ arbs, P { r with arbs := arbs }) : Goes (.arbitrationPhase ⟨8 + i.val, by omega⟩) s P := by
  have begun : beginGrant (8 + i.val) ⟨0x7B, true, n + 1⟩ q s = r := (beginGrant_patrol hr).trans hread
  have left : r.arbs[8 + i.val]? = some { q with owner := some 0x7B, granted := none, reqs := [] } := by
    rw [harbs, ← grantBegun_patrol (q := q) (n := n) rfl hr]
    exact (arbs_modArb _ hq).1
  obtain ⟨arbs, e⟩ := arbPhase_idle hq hg begun left rfl
  exact ⟨_, congrArg Host.Outcome.next e, hP arbs⟩

/-! A word that cannot be corrected. -/

/-- The word is counted, marked uncorrectable and its address kept. -/
def uncorrectableNoted (w : Nat) (s : State) : State := ((s.incSat F.PIGN_ECC_UE_COUNT).mark F.PIGN_STAT_UE).put F.PIGN_UE_ADDR_ADDR w

theorem untouched_uncorrectableNoted (w : Nat) (s : State) : Untouched s (uncorrectableNoted w s) [A.PIGN_ECC, A.PIGN_STAT, A.PIGN_UE_ADDR] :=
  Untouched_put (Untouched_mark (Untouched_incSat (Untouched_refl s _) _ 1 (by decide)) _ (by decide)) _ w (by decide)

theorem fields_uncorrectableNoted (hw : w < 2 ^ 32) : (uncorrectableNoted w s).get F.PIGN_ECC_UE_COUNT = satTo 0xFFFF (s.get F.PIGN_ECC_UE_COUNT + 1) ∧
    (uncorrectableNoted w s).flag F.PIGN_STAT_UE = true ∧ (uncorrectableNoted w s).get F.PIGN_UE_ADDR_ADDR = w := by
  unfold uncorrectableNoted
  refine ⟨?_, ?_, ?_⟩
  · rw [get_put_other _ _ _ w (by decide) (.inl (by decide)), get_mark_other _ _ _ (by decide) (.inl (by decide)), get_incSat_self _ _ 1 (by decide)]
    rfl
  · rw [flag_put_other _ _ _ w (by decide) (.inl (by decide)), flag_mark_self _ _ (by decide) (by decide)]
  · exact (get_put_self _ _ w (by decide)).trans (Nat.mod_eq_of_lt hw)

/-- A fault of the pigeonhole's that finds its primary slot free (R365). -/
theorem raiseFault_pigeon (h : priValid s 0x7B = false) {cls : Nat} (hc : cls ≠ 5) (code data : Nat) :
    raiseFault 0x7B cls code data s = loadSlot 0x7B false cls code data s := by
  unfold raiseFault
  rw [if_neg (by simp), h]
  simp [hc]

theorem uncorrectable_pigeon (hp : inLedger w = false) (h8 : w / 8 * 8 = w) (hbank : w / 2 ^ 20 % 16 = i.val) (hu : s.flag F.PIGN_STAT_UE = false)
    (hv : priValid s 0x7B = false) : uncorrectable w s = loadSlot 0x7B false 1 2 i (uncorrectableNoted w s) := by
  have fresh : (s.incSat F.PIGN_ECC_UE_COUNT).flag F.PIGN_STAT_UE = false := (flag_incSat_other _ _ _ 1 (by decide) (.inl (by decide))).trans hu
  have free : priValid (uncorrectableNoted w s) 0x7B = false :=
    (flag_congr (F.SYS_FLT_PRI_VALID 0x7B) ((untouched_uncorrectableNoted w s).1 _ (by decide))).trans hv
  unfold uncorrectable
  dsimp only
  rw [hp, if_neg Bool.false_ne_true, fresh, if_neg Bool.false_ne_true, h8, hbank]
  exact raiseFault_pigeon free (by decide) 2 i.val

theorem slotEntered_frame (s : State) (a b : Nat) (w v : Word) (f : Faults) (g : Core → Core) :
    (({ ((s.setReg a w).setReg b v) with flt := f } : State).modCore 0 g).ledg = s.ledg ∧
      (({ ((s.setReg a w).setReg b v) with flt := f } : State).modCore 0 g).arbs = s.arbs := ⟨rfl, rfl⟩

theorem loadSlot_frame {k : Core} (h : Listens s k) (hq : s.flt.dayQ.length < 32) (u : Nat) {cls : Nat} (code data : Nat) (hc : cls ≠ 2) :
    (loadSlot u false cls code data s).ledg = s.ledg ∧ (loadSlot u false cls code data s).arbs = s.arbs := by
  rw [loadSlot_listens h hq u cls code data hc false]
  exact slotEntered_frame s _ _ _ _ _ _

/-- What the noted state of a granted beat shares with the state before. -/
structure PatrolNotes (i : Fin 16) (w n : Nat) (s t : State) : Prop where
  rest : ∃ regs arbs, t = { s with regs := regs, arbs := arbs }
  untouched : Untouched s t [A.PIGN_ECC, A.PIGN_STAT, A.PIGN_UE_ADDR, A.ARB_BANK_STAT (8 + i.val)]
  arbs : t.arbs = (patrolGranted i n s).arbs

theorem patrolNotes (i : Fin 16) (w n : Nat) (s : State) : PatrolNotes i w n s (uncorrectableNoted w (patrolGranted i n s)) where
  rest := ⟨_, _, rfl⟩
  untouched := Untouched_trans (Untouched_mono (untouched_patrolGranted i n s) (by simp)) (Untouched_mono (untouched_uncorrectableNoted w _) (by simp))
  arbs := rfl

namespace PatrolNotes
variable {t : State}

theorem reg (h : PatrolNotes i w n s t) {x : Nat} (hx : x < 0x1007B000 ∨ 0x1007B008 < x) (hb : x < 0x10102400 ∨ 0x10103000 ≤ x) : t.reg x = s.reg x := by
  refine h.untouched.1 x ?_
  simp only [List.mem_cons, List.not_mem_nil, or_false]
  unfold A.ARB_BANK_STAT A.PIGN_ECC A.PIGN_STAT A.PIGN_UE_ADDR
  omega

theorem listens {k : Core} (h : PatrolNotes i w n s t) (hk : Listens s k) : Listens t k := by
  obtain ⟨regs, arbs, e⟩ := h.rest
  refine hk.congr ?_ ?_ (get_congr F.PWR_STAT_STATE (h.reg (.inr (by decide)) (.inl (by decide))))
    (flag_congr F.PWR_STAT_ENTERING (h.reg (.inr (by decide)) (.inl (by decide)))) (get_congr (F.SYS_FHELD_HELD 0) (h.reg (.inr (by decide)) (.inl (by decide))))
  · rw [e]
  · rw [e]

theorem kept (h : PatrolNotes i w n s t) : t.pm = s.pm ∧ t.devId = s.devId ∧ t.cores = s.cores ∧ t.flt = s.flt ∧ t.ledg = s.ledg := by
  have device : t.devId = s.devId := get_congr F.CAS_ID_ID (h.reg (.inl (by decide)) (.inl (by decide)))
  obtain ⟨regs, arbs, e⟩ := h.rest
  subst e
  exact ⟨rfl, device, rfl, rfl, rfl⟩

end PatrolNotes

end beat

end Sys2Proof.Machine

/-!
PROOFS. The patrol's beat in the obligation's words (04; R65, R373).
-/

namespace Sys2Proof.Machine

section beat
variable {i : Fin 16} {a w n : Nat} {s : State}

theorem fields_correctedNoted (s : State) : (correctedNoted s).get F.PIGN_ECC_CE_COUNT = satTo 0xFFFF (s.get F.PIGN_ECC_CE_COUNT + 1) ∧
    (correctedNoted s).flag F.PIGN_STAT_CE = true ∧ (correctedNoted s).get F.PIGN_ECC_UE_COUNT = s.get F.PIGN_ECC_UE_COUNT := by
  unfold correctedNoted
  refine ⟨?_, flag_mark_self _ _ (by decide) (by decide), ?_⟩
  · rw [get_mark_other _ _ _ (by decide) (.inl (by decide)), get_incSat_self _ _ 1 (by decide)]
    rfl
  · rw [get_mark_other _ _ _ (by decide) (.inl (by decide)), get_incSat_other _ _ _ 1 (by decide) (.inr (.inr (by decide)))]

/-- One turned cell: the granted beat is counted and corrected. -/
theorem corrected_granted (i : Fin 16) (n : Nat) (s : State) (arbs : List Arb) {t : State}
    (ht : t = { ({ correctedNoted (patrolGranted i n s) with ledg := { (patrolGranted i n s).ledg with flips := [] } } : State) with arbs := arbs }) :
    t.get F.PIGN_ECC_CE_COUNT = satTo 0xFFFF (s.get F.PIGN_ECC_CE_COUNT + 1) ∧ t.flag F.PIGN_STAT_CE = true ∧
      t.get F.PIGN_ECC_UE_COUNT = s.get F.PIGN_ECC_UE_COUNT ∧ t.ledg = { s.ledg with flips := [] } ∧
      Untouched s t [A.PIGN_ECC, A.PIGN_STAT, A.ARB_BANK_STAT (8 + i.val)] := by
  obtain ⟨ce, flag, ue⟩ := fields_correctedNoted (patrolGranted i n s)
  have counted : ∀ f : Fd, f.addr = A.PIGN_ECC → (patrolGranted i n s).get f = s.get f := fun f hf =>
    get_congr f (reg_patrolGranted i n s (by rw [hf]; exact .inl (by decide)))
  rw [counted _ rfl] at ce ue
  have untouched := Untouched_trans (Untouched_mono (l' := [A.PIGN_ECC, A.PIGN_STAT, A.ARB_BANK_STAT (8 + i.val)]) (untouched_patrolGranted i n s) (by simp))
    (Untouched_mono (untouched_correctedNoted _) (by simp))
  have ledg : (patrolGranted i n s).ledg = s.ledg := rfl
  rw [ledg] at ht
  generalize correctedNoted (patrolGranted i n s) = c at ht ce flag ue untouched
  subst ht
  exact ⟨ce, flag, ue, rfl, Untouched_same untouched rfl rfl⟩

/-- Two turned cells of a word: the granted beat is counted, its address kept, and the fault told. -/
theorem uncorrectable_granted {c : State} {k : Core} (hc : PatrolNotes i w n s c) (hk : Listens s k) (hq : s.flt.dayQ.length < 32) {arbs : List Arb} {t : State}
    (ht : t = { loadSlot 0x7B false 1 2 i.val c with arbs := arbs }) :
    t.reg (A.SYS_FLT_PRI 0x7B) = BitVec.ofNat 32 (0x81020000 + i.val) ∧ t.ledg = s.ledg ∧
      Told s t (mkRecord s.pm s.devId 0x7FFFFF 0x30 0 0x0102 0 0x7B 0) ∧ Untouched c t [A.SYS_FLT_PRI 0x7B, A.SYS_FLT_PRIPM 0x7B] := by
  obtain ⟨pm, device, cores, flt, ledg⟩ := hc.kept
  have room : c.flt.dayQ.length < 32 := by rwa [flt]
  obtain ⟨pri, -, -, told, -⟩ := slotTold_loadSlot (hc.listens hk) 0x7B (cls := 1) 2 i.val (by decide)
  obtain ⟨-, untouched⟩ := loadSlot_room (hc.listens hk) room 0x7B (cls := 1) 2 i.val (by decide)
  obtain ⟨book, -⟩ := loadSlot_frame (hc.listens hk) room 0x7B (cls := 1) 2 i.val (by decide)
  rw [pm, device] at told
  generalize loadSlot 0x7B false 1 2 i.val c = r at ht pri told untouched book
  subst ht
  refine ⟨pri, book.trans ledg, ?_, Untouched_same untouched rfl rfl⟩
  unfold Told at told ⊢
  rw [← cores]
  exact told

end beat

/-- Settles O15: the patrol's requests are followed bank by bank, and the granted beat is read as the one word whose cells have turned. -/
theorem patrolChecksOneBeat : Obligations.PatrolChecksOneBeat := by
  intro s i a ha logic
  refine ⟨fun off => ⟨_, exec_patrolScrub logic, patrolScrub_off off⟩, fun on ready => ?_, ?_⟩
  · rw [ha]
    exact goes_patrolAsks logic on ready i
  intro q n w m f g hq hg hr ptr mask txn hw fw fb gw gb
  dsimp only
  have beat := patrolBeat ha ptr
  obtain ⟨pigeon, -, key, bank, whole, word⟩ := beat.word hw
  have patrols := patrols_patrolGranted (n := n) mask txn
  refine ⟨fun sound => ?_, fun single => ?_, fun k hk room slot fresh double apart => ?_⟩
  · exact goes_patrolBeat hq hg hr (readSpan_sound beat patrols sound) rfl fun arbs =>
      ⟨Untouched_same (untouched_patrolGranted i n s) rfl rfl, rfl⟩
  · exact goes_patrolBeat hq hg hr (readSpan_corrected beat hw patrols single fb fw) rfl fun arbs => corrected_granted i n s arbs rfl
  · have notes := patrolNotes i w n s
    have kept : ∀ x, x < 0x10102400 ∨ 0x10103000 ≤ x → (patrolGranted i n s).reg x = s.reg x := fun x => reg_patrolGranted i n s
    have counted : readEffect w (patrolGranted i n s) = loadSlot 0x7B false 1 2 i.val (uncorrectableNoted w (patrolGranted i n s)) :=
      (readEffect_uncorrectable (s := patrolGranted i n s) double (fw.trans gw.symm) fb gb (by rw [fw])).trans
        (uncorrectable_pigeon pigeon whole bank ((flag_congr F.PIGN_STAT_UE (kept _ (.inl (by decide)))).trans fresh)
          ((flag_congr (F.SYS_FLT_PRI_VALID 0x7B) (kept _ (.inr (by decide)))).trans slot))
    obtain ⟨ue, flag, addr⟩ := fields_uncorrectableNoted (s := patrolGranted i n s) word
    rw [get_congr F.PIGN_ECC_UE_COUNT (kept _ (.inl (by decide)))] at ue
    have hroom : (uncorrectableNoted w (patrolGranted i n s)).flt.dayQ.length < 32 := room
    generalize hc : uncorrectableNoted w (patrolGranted i n s) = c at notes counted ue flag addr hroom
    obtain ⟨ledg, same⟩ := loadSlot_frame (notes.listens hk) hroom 0x7B (cls := 1) 2 i.val (by decide)
    obtain ⟨-, -, -, -, cells⟩ := notes.kept
    have left : ∀ x ∈ s.ledg.flips, x.addr = w := by
      rw [double]
      simp [fw, gw]
    obtain ⟨-, slotRegs⟩ := loadSlot_room (notes.listens hk) hroom 0x7B (cls := 1) 2 i.val (by decide)
    have still : Patrols i (loadSlot 0x7B false 1 2 i.val c) := patrols_congr ⟨mask, txn⟩
      ((slotRegs.1 _ (by decide)).trans (notes.reg (.inr (by decide)) (.inl (by decide)))) (by rw [ledg, cells])
    refine goes_patrolBeat hq hg hr (readSpan_one beat hw counted patrols still left (by rwa [ledg, cells])) (same.trans notes.arbs) fun arbs => ?_
    obtain ⟨pri, book, told, written⟩ := uncorrectable_granted notes hk room (arbs := arbs) rfl
    generalize ({ loadSlot 0x7B false 1 2 i.val c with arbs := arbs } : State) = t at pri book told written
    refine ⟨(get_congr _ (written.1 _ (by decide))).trans ue, (flag_congr _ (written.1 _ (by decide))).trans flag, (get_congr _ (written.1 _ (by decide))).trans addr,
      pri, book, told, Untouched_trans (Untouched_mono notes.untouched ?_) (Untouched_mono written ?_)⟩
    · simp
    · simp

end Sys2Proof.Machine

/-!
PROOFS. A held write and a cell that has turned meanwhile (04; R62, R63, R71).
-/

namespace Sys2Proof.Machine

/-- A committed transaction of the application port, with one line. -/
def committedTxn : Txn := ⟨0x75, 0, .committed, [(0x1000, List.replicate 64 0#8)], false, .none, [⟨0x1000, List.replicate 64 0#8, []⟩]⟩

/-- The device is up; a write of one byte into the line is held behind the transaction, and one cell of the line has turned since the commit point. -/
def turnedState : State :=
  { State.reset with
    pow := { State.reset.pow with phase := .up }
    ledg := { State.reset.ledg with txns := [committedTxn], held := [.write 0x78 0x1010 [1#8] none], flips := [⟨0x1000, 0⟩] } }

/-- The write, which goes on at the retire record, reads the rest of its line, whose turned cell is corrected and counted. -/
theorem count_turned : turnedState.get F.LEDG_ECC_CE_COUNT = 0 ∧ (retireRecord 0x75 turnedState).get F.LEDG_ECC_CE_COUNT = 1 := by decide +kernel

/-- Refutes O14: nothing keeps the cells of the line from having turned since the commit point; a held write of part of the line then meets the turned cell when it
goes on, and LEDG_ECC counts it, though the statement allows a change of LEDG_WEAR alone. -/
theorem not_commitIsAtomic : ¬ Obligations.CommitIsAtomic := by
  unfold Obligations.CommitIsAtomic
  rintro ⟨-, -, retire⟩
  obtain ⟨-, -, released⟩ := retire 0x75 committedTxn turnedState (by decide +kernel) (by decide +kernel) (by decide +kernel) (by decide +kernel)
  obtain ⟨t, ht, -, kept, -⟩ := released 0x78 0x1010 [1#8] (by decide +kernel) rfl (by decide +kernel) rfl (by decide) (by decide) (by decide +kernel)
  obtain rfl : retireRecord 0x75 turnedState = t := Host.Outcome.next.inj ht
  obtain ⟨before, after⟩ := count_turned
  have same := get_congr F.LEDG_ECC_CE_COUNT (kept A.LEDG_ECC (by decide))
  rw [before, after] at same
  exact absurd same (by decide)

end Sys2Proof.Machine

/-!
PROOFS. A program that finds no spare, and the safe hold that its fault can enter (04, 18; R68, R367, R370).
-/

namespace Sys2Proof.Machine

/-- A line that waits in the write buffer of bank 0. -/
def waitingLine : BufLine := ⟨⟨0, List.replicate 64 0#8, []⟩, 0x75⟩

/-- Both fault slots of the ledger controller are taken; the day book is ready, may write every bank, and lies in bank 8. -/
def slotsTaken : State :=
  (((State.reset.mark (F.SYS_FLT_PRI_VALID 0x7A)).mark (F.SYS_FLT_SEC_VALID 0x7A)).mark F.DAYB_STAT_READY).put (F.ARB_MASK_BANKS 0x7E) 0xFFFFFF

/-- A storm of the ledger controller has just been recorded, and no block is free. -/
def stormState : State :=
  { slotsTaken with
    ledg := { State.reset.ledg with bufs := [waitingLine] :: List.replicate 7 [], spares := [] }
    flt := { State.reset.flt with stormAt := [(0x7A, 0)] }
    parts := [⟨4, 0, 0x08000000, 2 ^ 20, 0⟩] }

/-- The day book, which safe hold freezes, is written up: its first entry, the storm's, names the ledger controller. -/
theorem entry_storm : stormState.byte 0x08000008 = 0#8 ∧ (programDone (.line 0 .failed) stormState).byte 0x08000008 = 0x7A#8 := by decide +kernel

/-- Refutes O12: a line that finds no spare raises a fault of the ledger controller; where both slots are taken and a storm has just been recorded, the fault enters safe
hold, which writes the waiting entries of the day book into the pigeonhole, and the statement lets no byte outside the line change. -/
theorem not_programsComplete : ¬ Obligations.ProgramsComplete := by
  unfold Obligations.ProgramsComplete
  rintro ⟨-, -, failed, -⟩
  obtain ⟨t, ht, -, -, kept, -⟩ := failed 0 waitingLine [] stormState rfl rfl rfl (by simp [waitingLine])
  obtain rfl : programDone (.line 0 .failed) stormState = t := Host.Outcome.next.inj ht
  obtain ⟨before, after⟩ := entry_storm
  have same := kept 0x08000008 (.inr (by decide))
  rw [before, after] at same
  exact absurd same (by decide)

end Sys2Proof.Machine

/-!
PROOFS. A port of a field line at rest (05, 06): what the operations of a port engine do where no round, walk-out, node transaction or turned cell gives them
further work.
-/

namespace Sys2Proof.Machine

/-! Fields of one port's registers. -/

section fields
variable {a lo w a' lo' w' : Nat}

/-- Two fields of a port that share no bit. -/
def portApart (a lo w a' lo' w' : Nat) : Bool := decide (lo + w ≤ 32) && (decide (a ≠ a') || decide (lo + w ≤ lo') || decide (lo' + w' ≤ lo))

theorem get_put_port (s : State) (p v : Nat) (h : portApart a lo w a' lo' w' = true) :
    (s.put ⟨a + 0x1000 * p, lo, w⟩ v).get ⟨a' + 0x1000 * p, lo', w'⟩ = s.get ⟨a' + 0x1000 * p, lo', w'⟩ := by
  simp only [portApart, Bool.and_eq_true, Bool.or_eq_true, decide_eq_true_iff] at h
  obtain ⟨fits, (h | h) | h⟩ := h
  · exact get_put_other s _ _ v fits (.inl (show a + 0x1000 * p ≠ a' + 0x1000 * p by omega))
  · exact get_put_other s _ _ v fits (.inr (.inl h))
  · exact get_put_other s _ _ v fits (.inr (.inr h))

theorem flag_put_port (s : State) (p v : Nat) (h : portApart a lo w a' lo' w' = true) :
    (s.put ⟨a + 0x1000 * p, lo, w⟩ v).flag ⟨a' + 0x1000 * p, lo', w'⟩ = s.flag ⟨a' + 0x1000 * p, lo', w'⟩ := by
  unfold State.flag
  rw [get_put_port s p v h]

end fields

/-! States that differ in registers alone. -/

/-- From `s` to `t` only the registers `l` have been written. -/
structure Wrote (l : List Nat) (s t : State) : Prop where
  untouched : Untouched s t l
  frame     : t = { s with regs := t.regs }

namespace Wrote
variable {l : List Nat} {s t : State}

theorem refl (l : List Nat) (s : State) : Wrote l s s := ⟨Untouched_refl s l, rfl⟩

theorem setReg (h : Wrote l s t) {a : Nat} (v : Word) (ha : a ∈ l) : Wrote l s (t.setReg a v) :=
  ⟨Untouched_setReg h.untouched v ha, congrArg (fun x => { x with regs := (t.setReg a v).regs }) h.frame⟩

theorem put (h : Wrote l s t) (f : Fd) (v : Nat) (ha : f.addr ∈ l) : Wrote l s (t.put f v) := h.setReg _ ha
theorem mark (h : Wrote l s t) (f : Fd) (ha : f.addr ∈ l) : Wrote l s (t.mark f) := h.put f 1 ha
theorem incSat (h : Wrote l s t) (f : Fd) (n : Nat) (ha : f.addr ∈ l) : Wrote l s (t.incSat f n) := h.put f _ ha

theorem mono {m : List Nat} (h : Wrote l s t) (hl : ∀ a ∈ l, a ∈ m) : Wrote m s t := ⟨Untouched_mono h.untouched hl, h.frame⟩

theorem trans {r : State} (h : Wrote l s t) (h2 : Wrote l t r) : Wrote l s r :=
  ⟨Untouched_trans h.untouched h2.untouched, h2.frame.trans (congrArg (fun x => { x with regs := r.regs }) h.frame)⟩

theorem reg (h : Wrote l s t) {a : Nat} (ha : a ∉ l) : t.reg a = s.reg a := h.untouched.1 a ha
theorem get (h : Wrote l s t) (f : Fd) (ha : f.addr ∉ l) : t.get f = s.get f := get_congr f (h.reg ha)
theorem flag (h : Wrote l s t) (f : Fd) (ha : f.addr ∉ l) : t.flag f = s.flag f := flag_congr f (h.reg ha)

/-- What is no register is as before. -/
theorem same {α : Type} (h : Wrote l s t) (f : State → α) (hf : f { s with regs := t.regs } = f s) : f t = f s := (congrArg f h.frame).trans hf

theorem port (h : Wrote l s t) (p : Nat) : t.port p = s.port p := h.same (·.port p) rfl
theorem ports (h : Wrote l s t) : t.ports = s.ports := h.same (·.ports) rfl

theorem pm (h : Wrote l s t) : t.pm = s.pm := by
  unfold State.pm
  rw [h.same (·.tb) rfl]

/-- A port of such a state is changed. -/
theorem modPort_frame (h : Wrote l s t) (p : Nat) (f : Port → Port) : t.modPort p f = { s with regs := t.regs, ports := upd s.ports p f } :=
  congrArg (State.modPort · p f) h.frame

theorem modPort_untouched (h : Wrote l s t) (p : Nat) (f : Port → Port) : Untouched s (t.modPort p f) l := Untouched_same h.untouched rfl rfl

theorem modPort_kept (h : Wrote l s t) (p : Nat) (f : Port → Port) : t.modPort p f = { s with regs := (t.modPort p f).regs, ports := (t.modPort p f).ports } :=
  congrArg (fun x => { x with ports := (t.modPort p f).ports }) h.frame

/-- Writes of a port's registers leave the postmaster listening. -/
theorem listens {k : Core} (h : Wrote l s t) (hk : Listens s k) (power : A.PWR_STAT ∉ l) (held : A.SYS_FHELD 0 ∉ l) : Listens t k :=
  hk.congr (h.same (·.cores) rfl) (h.same (·.pow) rfl) (h.get F.PWR_STAT_STATE power) (h.flag F.PWR_STAT_ENTERING power) (h.get (F.SYS_FHELD_HELD 0) held)

end Wrote

/-! The registers in which a port engine shows and counts what happens on its line. -/

/-- The addresses of port 0's. -/
def statusBases : List Nat := [0x1004100c, 0x10041010, 0x10041014, 0x10041018, 0x1004101c, 0x10041020, 0x10041040, 0x10041048, 0x1004106c, 0x10041078, 0x10041080]

/-- FL_STAT, FL_FRESH, the FL_CNT registers of bursts, FL_RCNT, FL_LBSTAT, FL_CNT_DROP, FL_RSTAT and FL_MBOX of port `p`. -/
def lineStatus (p : Nat) : List Nat := statusBases.map (· + 0x1000 * p)

theorem mem_lineStatus {b : Nat} (p : Nat) (h : b ∈ statusBases) : b + 0x1000 * p ∈ lineStatus p := List.mem_map_of_mem h

theorem not_mem_lineStatus {b : Nat} (p : Nat) (h : b ∉ statusBases) : b + 0x1000 * p ∉ lineStatus p := by
  intro hm
  obtain ⟨c, hc, e⟩ := List.mem_map.mp hm
  exact h (by rwa [show b = c by omega])

/-- Registers of other blocks. -/
theorem far_lineStatus {p a : Nat} (hp : p < 32) (h : a < 0x10041000 ∨ 0x10061000 ≤ a) : a ∉ lineStatus p := by
  intro hm
  obtain ⟨c, hc, e⟩ := List.mem_map.mp hm
  have range : ∀ c ∈ statusBases, 0x10041000 ≤ c ∧ c < 0x10042000 := by decide
  have := range c hc
  omega

theorem fence_lineStatus (p k : Nat) : A.FL_FENCE p k ∉ lineStatus p := by
  intro hm
  obtain ⟨c, hc, e⟩ := List.mem_map.mp hm
  have below : ∀ c ∈ statusBases, c < 0x100410a0 := by decide
  have := below c hc
  unfold A.FL_FENCE at e
  omega

section port
variable {p : Nat} {q : Port} {s : State}

/-! The port itself. -/

theorem modPort_comp (s : State) (p : Nat) (f g : Port → Port) : (s.modPort p f).modPort p g = s.modPort p (g ∘ f) := modPort_modPort s p f g

theorem modPort_put (s : State) (p : Nat) (f : Port → Port) (g : Fd) (v : Nat) : (s.modPort p f).put g v = (s.put g v).modPort p f := rfl

theorem modPort_mark (s : State) (p : Nat) (f : Port → Port) (g : Fd) : (s.modPort p f).mark g = (s.mark g).modPort p f := rfl

theorem modPort_incSat (s : State) (p : Nat) (f : Port → Port) (g : Fd) (n : Nat) : (s.modPort p f).incSat g n = (s.incSat g n).modPort p f := rfl

theorem modPort_same (h : s.port p = some q) {f g : Port → Port} (hf : f q = g q) : s.modPort p f = s.modPort p g :=
  modPort_congr s p f g fun r hr => by obtain rfl : q = r := Option.some.inj (h.symm.trans hr); exact hf

theorem modPort_stays (h : s.port p = some q) {f : Port → Port} (hf : f q = q) : s.modPort p f = s :=
  modPort_id s p f fun r hr => by obtain rfl : q = r := Option.some.inj (h.symm.trans hr); exact hf

theorem round_eq (h : s.port p = some q) : s.round p = q.round := by rw [State.round, h]; rfl

theorem xchg_eq (h : s.port p = some q) : s.xchg p = q.xchg := by rw [State.xchg, h]; rfl

/-! Without a round in progress. -/

section noRound
variable (h : s.port p = some q) (hr : q.round = none)
include h hr

theorem modRound_none (f : Round → Round) : s.modRound p f = s := modPort_stays h (by rw [hr, Option.map_none, ← hr])

theorem discardRound_none : discardRound p s = s := by
  unfold discardRound
  rw [round_eq h, hr]

theorem finishRound_none : finishRound p s = s := by
  unfold finishRound
  rw [round_eq h, hr]

theorem enrolStop_none : enrolStop p s = s := by
  unfold enrolStop
  rw [h]
  dsimp only
  rw [hr]

theorem proceedOne_none : proceedOne p s = s := by
  unfold proceedOne
  rw [h]
  dsimp only
  rw [hr]

/-- A port that wants nothing and owes no yield goes on with nothing. -/
theorem proceed_atRest (hw : q.want = []) (hy : q.yieldDue = false) : proceed p s = s := by
  unfold proceed
  rw [enrolStop_none h hr, iter_rest _ _ _ (proceedOne_none h hr), setWait_none s p q h hy (.inr hw)]

end noRound

/-! Frames built ahead, node transactions and the sequencer. -/

/-- A port with no frames built ahead. -/
def Port.unbuilt (q : Port) : Port := { q with built := [] }

/-- Every frame built ahead is discarded and counted (R118). -/
theorem discardBuilt_all (h : s.port p = some q) :
    discardBuilt p (fun _ => true) s = (s.incSat (F.FL_RCNT_DISCARD p) (q.built.map (·.frames.length)).sum).modPort p Port.unbuilt := by
  have all : q.built.filter (fun _ => true) = q.built := List.filter_eq_self.mpr fun _ _ => rfl
  have none : q.built.filter (fun b => !(fun _ => true) b) = [] := by simp
  unfold discardBuilt
  rw [h]
  dsimp only
  rw [all, modPort_same h (g := Port.unbuilt) (by rw [Port.unbuilt, none]), modPort_incSat]

theorem discard_noRound (h : s.port p = some q) (hr : q.round = none) :
    discardRound p (discardBuilt p (fun _ => true) s) = (s.incSat (F.FL_RCNT_DISCARD p) (q.built.map (·.frames.length)).sum).modPort p Port.unbuilt := by
  rw [discardBuilt_all h]
  exact discardRound_none (q := q.unbuilt) (by rw [port_modPort, port_incSat, h]; rfl) hr

theorem tryNode_none (h : s.port p = some q) (ht : q.txn = none) : tryNode p s = s := by
  unfold tryNode
  rw [h, Option.bind_some, ht]

/-- A sequencer that does not run fires nothing. -/
theorem advance_stopped (h : s.flag F.TT_CTRL_RUN = false) (p : Nat) : advance p s = s := by
  have rests : advanceOne p (true, s) = (false, s) := if_pos (by simp [seqRuns, h])
  unfold advance advanceN
  rw [rests]
  rfl

/-! The directory. -/

theorem scanDir_sound (h : s.ledg.flips = []) (p : Nat) : scanDir p s = s := by
  unfold scanDir
  rw [h]
  rfl

/-- A port with no enrolled switch node starts without a walk-out. -/
theorem walkOut_noSwitch (hf : s.ledg.flips = []) (hs : switchNodes s p = []) : walkOut p s = advance p (proceed p s) := by
  unfold walkOut
  rw [scanDir_sound hf]
  exact if_pos (by rw [hs]; rfl)

end port

/-- The directory of port `p`, and what its reads meet, are in `t` as in `s`. -/
structure SameDirectory (p : Nat) (s t : State) : Prop where
  mem  : t.mem = s.mem
  ledg : t.ledg = s.ledg
  mask : t.reg (A.ARB_MASK (portUnit p)) = s.reg (A.ARB_MASK (portUnit p))
  base : t.reg (A.FL_NDIR p) = s.reg (A.FL_NDIR p)

namespace SameDirectory
variable {p : Nat} {s t : State}

/-- Registers beside the mask and the base, and what is no memory, do not count. -/
theorem of_untouched {l : List Nat} (hm : t.mem = s.mem) (hl : t.ledg = s.ledg) (h : Untouched s t l) (mask : A.ARB_MASK (portUnit p) ∉ l) (base : A.FL_NDIR p ∉ l) :
    SameDirectory p s t := ⟨hm, hl, h.1 _ mask, h.1 _ base⟩

theorem poisonFor (h : SameDirectory p s t) (a : Nat) : poisonFor t (portUnit p) a = poisonFor s (portUnit p) a := by
  have mask : ∀ b, maskOk t (portUnit p) b = maskOk s (portUnit p) b := fun b => congrArg (bit · b) (get_congr (F.ARB_MASK_BANKS (portUnit p)) h.mask)
  unfold Machine.poisonFor cellsBad poisonAt badKeys badFlips ownLine txnOf
  rw [mask, h.ledg]

theorem viewByte (h : SameDirectory p s t) (a : Nat) : viewByte t (portUnit p) a = viewByte s (portUnit p) a := by
  unfold Machine.viewByte txnOf State.byte
  rw [h.ledg, h.mem]

theorem dirBase (h : SameDirectory p s t) : dirBase t p = dirBase s p := by
  unfold Machine.dirBase
  rw [get_congr (F.FL_NDIR_BASE p) h.base]

theorem nodeRec (h : SameDirectory p s t) (n : Nat) : nodeRec t p n = nodeRec s p n := by
  unfold Machine.nodeRec nodeAddr
  rw [h.dirBase, h.poisonFor]
  simp only [h.viewByte]

theorem switchNodes (h : SameDirectory p s t) : switchNodes t p = switchNodes s p := by
  unfold Machine.switchNodes enrolledNodes nodesIn dirNodes
  rw [h.dirBase, h.mem]
  simp only [h.nodeRec]

end SameDirectory

/-- A fence's word tells whom it covers. -/
theorem fenceHas_congr {p k : Nat} {s t : State} (h : t.reg (A.FL_FENCE p k) = s.reg (A.FL_FENCE p k)) (n : Nat) : fenceHas t p k n = fenceHas s p k n := by
  unfold fenceHas
  rw [flag_congr (F.FL_FENCE_EN p k) h, get_congr (F.FL_FENCE_LO p k) h, get_congr (F.FL_FENCE_HI p k) h]

/-- A command of a unit that listens in RUN and DOZE. -/
theorem whenHeard_awake {s : State} (up : s.pow.phase = .up) (awake : s.pwr ≤ 1) (act : State → State) : whenHeard act s = act s :=
  if_pos (by rw [up, decide_eq_true awake]; rfl)

/-! Release and fences. -/

def Port.released (q : Port) : Port := { q with restart := false }

/-- HELD clears, and a port that is not enabled starts nothing (R137). -/
theorem releaseHeld_disabled {p : Nat} {s : State} (off : s.flag (F.FL_CTRL_EN p) = false) :
    releaseHeld p s = (s.put (F.FL_RSTAT_HELD p) 0).modPort p Port.released :=
  if_neg (ne_true_of_eq_false ((flag_put_port s p 0 rfl).trans off))

/-- A port that queues no identity check drops none. -/
theorem pruneChecks_none {p : Nat} {q : Port} {s : State} (h : s.port p = some q) (hc : q.checks = []) : pruneChecks p s = s := by
  unfold pruneChecks
  exact modPort_stays h (by rw [hc, List.filter_nil, ← hc])

/-- The word of a fence that a port engine sets (R135). -/
def fenceWord (lo hi reason : Nat) : Word := BitVec.ofNat 32 (2 ^ 31 + reason * 2 ^ 29 + hi * 2 ^ 14 + lo)

theorem setFence_free {p f : Nat} {q : Port} {s : State} (h : s.port p = some q) (hc : q.checks = []) (hf : f < 8) (free : s.flag (F.FL_FENCE_EN p f) = false)
    (taken : ∀ g < f, s.flag (F.FL_FENCE_EN p g) = true) (lo hi reason : Nat) :
    setFence p lo hi reason s = (some f, s.setReg (A.FL_FENCE p f) (fenceWord lo hi reason)) := by
  have first : (List.range 8).find? (fun k => !s.flag (F.FL_FENCE_EN p k)) = some f := by
    rw [List.find?_range_eq_some]
    exact ⟨by rw [free]; rfl, List.mem_range.mpr hf, fun g hg => by rw [taken g hg]; rfl⟩
  unfold setFence
  rw [first]
  exact congrArg (Prod.mk (some f)) (pruneChecks_none (q := q) (by rw [port_setReg, h]) hc)

theorem fields_fenceWord {lo hi reason : Nat} (hl : lo < 2 ^ 14) (hh : hi < 2 ^ 14) (hr : reason < 4) :
    bits (fenceWord lo hi reason).toNat 31 1 = 1 ∧ bits (fenceWord lo hi reason).toNat 0 14 = lo ∧ bits (fenceWord lo hi reason).toNat 14 14 = hi ∧
      bits (fenceWord lo hi reason).toNat 29 2 = reason := by
  unfold fenceWord bits
  rw [BitVec.toNat_ofNat]
  omega

/-! Event records of a port engine. -/

/-- The record `r` has joined the postmaster's event queue. -/
def State.told (s : State) (r : List Byte) : State := s.modCore 0 (fun k => { k with queue := k.queue ++ [r] })

theorem Listens.modPort {s : State} {k : Core} (h : Listens s k) (p : Nat) (f : Port → Port) : Listens (s.modPort p f) k := h

theorem nodeEvent_listens {s : State} {k : Core} (hk : Listens s k) (p kind node : Nat) :
    nodeEvent p kind node s = s.told (mkRecord s.pm s.devId 0x7FFFFF kind 0 node 0 (0x41 + p) 0) := pmEvent_listens hk kind node 0 0 (portUnit p) 0x7FFFFF

end Sys2Proof.Machine

/-!
PROOFS. Line faults, their clearing, the automatic restart and the end of a walk-out's close wait (05, 06; R113, R126, R137, R138).
-/

namespace Sys2Proof.Machine

section fault
variable {p : Nat} {q : Port} {s : State}

/-- The mailbox once the exchange in progress is given up: a command of its own has failed (R140). -/
def boxGivenUp (p : Nat) (q : Port) (s : State) : State := if q.xchg.any (fun x => x.use == .mailbox) then s.put (F.FL_MBOX_STATE p) 3 else s

theorem boxGivenUp_cases (p : Nat) (q : Port) (s : State) :
    q.xchg.any (fun x => x.use == .mailbox) = true ∧ boxGivenUp p q s = s.put (F.FL_MBOX_STATE p) 3 ∨
      q.xchg.any (fun x => x.use == .mailbox) = false ∧ boxGivenUp p q s = s := by
  unfold boxGivenUp
  cases q.xchg.any (fun x => x.use == .mailbox)
  · exact .inr ⟨rfl, rfl⟩
  · exact .inl ⟨rfl, rfl⟩

/-- The registers of a port whose exchange and frames are given up. -/
def abandonedRegs (p : Nat) (q : Port) (s : State) : State :=
  ((((boxGivenUp p q s).put (F.FL_STAT_ACTIVE p) 0).put (F.FL_STAT_RX p) 0).incSat (F.FL_RCNT_DISCARD p) (q.built.map (·.frames.length)).sum).put (F.FL_LBSTAT_CARRY p) 0

/-- The port itself then; a report whose acknowledgement is cut short is remembered (R126). -/
def Port.abandoned (q : Port) : Port :=
  { q with xchg := none, stage := .idle, want := [], lbStack := [], enStack := [], built := [], rx := none, deaf := false, stop := false
           repeats := (cutAcks q).foldl (fun l e => addRepeat e l) q.repeats }

theorem abandonExchange_eq (h : s.port p = some q) : abandonExchange p s =
    (clearStacks p (cutReports p (discardRound p (discardBuilt p (fun _ => true) (((boxGivenUp p q s).put (F.FL_STAT_ACTIVE p) 0).put (F.FL_STAT_RX p) 0))))).modPort p
      (fun q => { q with xchg := none, stage := .idle, want := [], rx := none, deaf := false, stop := false }) := by
  unfold abandonExchange boxGivenUp
  rw [h]
  dsimp only
  cases q.xchg with
  | none => rfl
  | some x =>
    by_cases hu : x.use = .mailbox
    · simp [hu]
    · simp [hu]

theorem port_boxGivenUp (h : s.port p = some q) : (boxGivenUp p q s).port p = some q := by
  rcases boxGivenUp_cases p q s with ⟨-, e⟩ | ⟨-, e⟩
  · rw [e, port_put, h]
  · rw [e, h]

theorem abandonExchange_noRound (h : s.port p = some q) (hr : q.round = none) : abandonExchange p s = (abandonedRegs p q s).modPort p Port.abandoned := by
  have same : (((boxGivenUp p q s).put (F.FL_STAT_ACTIVE p) 0).put (F.FL_STAT_RX p) 0).port p = some q := by
    rw [port_put, port_put]
    exact port_boxGivenUp h
  rw [abandonExchange_eq h, discard_noRound same hr, cutReports, clearStacks, modPort_comp, modPort_put, modPort_comp, modPort_put, modPort_comp]
  rfl

/-- The registers of a port at a line fault. -/
def latchedRegs (p : Nat) (q : Port) (s : State) : State := ((abandonedRegs p q s).mark (F.FL_STAT_FLT p)).mark (F.FL_STAT_FLT_LATCH p)

/-- They, once the port is held. -/
def faultedRegs (p : Nat) (q : Port) (s : State) : State := (latchedRegs p q s).mark (F.FL_RSTAT_HELD p)

def Port.faulted (q : Port) : Port := { q.abandoned with fltClear := false }

theorem wrote_boxGivenUp {l : List Nat} (q : Port) (s : State) (hl : A.FL_MBOX p ∈ l) : Wrote l s (boxGivenUp p q s) := by
  rcases boxGivenUp_cases p q s with ⟨-, e⟩ | ⟨-, e⟩
  · rw [e]
    exact (Wrote.refl l s).put _ _ hl
  · rw [e]
    exact Wrote.refl l s

/-- The registers of a port that a line fault writes. -/
abbrev faultWrites (p : Nat) : List Nat := [A.FL_STAT p, A.FL_RCNT p, A.FL_RSTAT p, A.FL_MBOX p, A.FL_LBSTAT p]

theorem wrote_latchedRegs (p : Nat) (q : Port) (s : State) : Wrote (faultWrites p) s (latchedRegs p q s) := by
  have stat : A.FL_STAT p ∈ faultWrites p := .head _
  have boxed := ((wrote_boxGivenUp (p := p) (l := faultWrites p) q s (by simp)).put (F.FL_STAT_ACTIVE p) 0 stat).put (F.FL_STAT_RX p) 0 stat
  have cleared := (boxed.incSat (F.FL_RCNT_DISCARD p) (q.built.map (·.frames.length)).sum (.tail _ (.head _))).put (F.FL_LBSTAT_CARRY p) 0
    (.tail _ (.tail _ (.tail _ (.tail _ (.head _)))))
  exact (cleared.mark (F.FL_STAT_FLT p) stat).mark (F.FL_STAT_FLT_LATCH p) stat

theorem wrote_faultedRegs (p : Nat) (q : Port) (s : State) : Wrote (faultWrites p) s (faultedRegs p q s) :=
  (wrote_latchedRegs p q s).mark (F.FL_RSTAT_HELD p) (.tail _ (.tail _ (.head _)))

/-- What the registers of a port show at a line fault (R113, R137). -/
theorem fields_faultedRegs (p : Nat) (q : Port) (s : State) :
    (faultedRegs p q s).flag (F.FL_STAT_FLT p) = true ∧ (faultedRegs p q s).flag (F.FL_STAT_FLT_LATCH p) = true ∧ (faultedRegs p q s).flag (F.FL_RSTAT_HELD p) = true ∧
    (faultedRegs p q s).flag (F.FL_STAT_ACTIVE p) = false ∧ (faultedRegs p q s).flag (F.FL_STAT_RX p) = false ∧
    (faultedRegs p q s).get (F.FL_RCNT_DISCARD p) = satTo 0xFFFF (s.get (F.FL_RCNT_DISCARD p) + (q.built.map (·.frames.length)).sum) ∧
    (faultedRegs p q s).get (F.FL_MBOX_STATE p) = (if q.xchg.any (fun x => x.use == .mailbox) then 3 else s.get (F.FL_MBOX_STATE p)) ∧
    (faultedRegs p q s).get (F.FL_LBSTAT_CARRY p) = 0 ∧ (faultedRegs p q s).get (F.FL_LBSTAT_LAST p) = s.get (F.FL_LBSTAT_LAST p) := by
  refine ⟨?_, ?_, ?_, ?_, ?_, ?_, ?_, ?_, ?_⟩
  · iterate 2 refine (flag_put_port _ p _ rfl).trans ?_
    exact flag_mark_self _ (F.FL_STAT_FLT p) (show 3 + 1 ≤ 32 by decide) Nat.one_pos
  · refine (flag_put_port _ p _ rfl).trans ?_
    exact flag_mark_self _ (F.FL_STAT_FLT_LATCH p) (show 4 + 1 ≤ 32 by decide) Nat.one_pos
  · exact flag_mark_self _ (F.FL_RSTAT_HELD p) (show 0 + 1 ≤ 32 by decide) Nat.one_pos
  · iterate 6 refine (flag_put_port _ p _ rfl).trans ?_
    exact flag_put_zero _ (F.FL_STAT_ACTIVE p) (show 0 + 1 ≤ 32 by decide)
  · iterate 5 refine (flag_put_port _ p _ rfl).trans ?_
    exact flag_put_zero _ (F.FL_STAT_RX p) (show 1 + 1 ≤ 32 by decide)
  · iterate 4 refine (get_put_port _ p _ rfl).trans ?_
    refine (get_incSat_self _ (F.FL_RCNT_DISCARD p) _ (show 0 + 16 ≤ 32 by decide)).trans ?_
    have before : (((boxGivenUp p q s).put (F.FL_STAT_ACTIVE p) 0).put (F.FL_STAT_RX p) 0).get (F.FL_RCNT_DISCARD p) = s.get (F.FL_RCNT_DISCARD p) := by
      iterate 2 refine (get_put_port _ p _ rfl).trans ?_
      exact (wrote_boxGivenUp (l := [A.FL_MBOX p]) q s (.head _)).get (F.FL_RCNT_DISCARD p) (by simp [F.FL_RCNT_DISCARD])
    rw [before]
    rfl
  · iterate 7 refine (get_put_port _ p _ rfl).trans ?_
    rcases boxGivenUp_cases p q s with ⟨any, e⟩ | ⟨any, e⟩
    · rw [any, e]
      exact get_put_self s (F.FL_MBOX_STATE p) 3 (show 30 + 2 ≤ 32 by decide)
    · rw [any, e]
      rfl
  · iterate 3 refine (get_put_port _ p _ rfl).trans ?_
    exact get_put_self _ (F.FL_LBSTAT_CARRY p) 0 (show 0 + 6 ≤ 32 by decide)
  · iterate 7 refine (get_put_port _ p _ rfl).trans ?_
    exact (wrote_boxGivenUp (l := [A.FL_MBOX p]) q s (.head _)).get (F.FL_LBSTAT_LAST p) (by simp [F.FL_LBSTAT_LAST])

theorem faultWrites_status (p : Nat) : ∀ a ∈ faultWrites p, a ∈ lineStatus p := by
  intro a ha
  simp only [faultWrites, List.mem_cons, List.not_mem_nil, or_false] at ha
  rcases ha with rfl | rfl | rfl | rfl | rfl <;> exact mem_lineStatus p (by decide)

/-- A line fault with no walk-out and no round in progress. -/
theorem lineFault_noWalk {k : Core} (hp : p < 32) (h : s.port p = some q) (hk : Listens s k) (hw : q.walk = none) (hr : q.round = none) : lineFault p s =
    ((faultedRegs p q s).modPort p Port.faulted).told (mkRecord s.pm s.devId 0x7FFFFF 0x32 0 0 0 (0x41 + p) 0) := by
  have wrote := (wrote_latchedRegs p q s).mono (faultWrites_status p)
  have meaning : lineFault p s = finishRound p ((nodeEvent p 0x32 0 ((latchedRegs p q s).modPort p Port.faulted)).mark (F.FL_RSTAT_HELD p)) := by
    unfold lineFault
    rw [h]
    dsimp only
    rw [hw, abandonExchange_noRound h hr, modPort_mark, modPort_mark, modPort_comp]
    rfl
  rw [meaning]
  unfold faultedRegs
  generalize latchedRegs p q s = r at *
  have same : (r.modPort p Port.faulted).port p = some q.faulted := by rw [port_modPort, wrote.port, h]; rfl
  rw [nodeEvent_listens ((wrote.listens hk (far_lineStatus hp (by decide)) (far_lineStatus hp (by decide))).modPort p Port.faulted) p 0x32 0]
  have time : (r.modPort p Port.faulted).pm = s.pm := wrote.same (·.pm) rfl
  have dev : (r.modPort p Port.faulted).devId = s.devId := wrote.get F.CAS_ID_ID (far_lineStatus hp (by decide))
  rw [time, dev]
  exact finishRound_none (q := q.faulted) same hr

/-- FLT has gone low (R137). -/
def faultCleared (p : Nat) (s : State) : State := (s.put (F.FL_STAT_FLT p) 0).modPort p (fun q => { q with fltClear := true })

theorem flag_faultCleared (p : Nat) (s : State) : (faultCleared p s).flag (F.FL_STAT_FLT p) = false := flag_put_zero s (F.FL_STAT_FLT p) (show 3 + 1 ≤ 32 by decide)

/-- The clearing of a line fault, with no walk-out. -/
theorem lineFaultCleared_noWalk (h : s.port p = some q) (hw : q.walk = none) : lineFaultCleared p s =
    if s.flag (F.FL_RSTAT_HELD p) && q.restart then releaseHeld p (faultCleared p s) else faultCleared p s := by
  have held : (faultCleared p s).flag (F.FL_RSTAT_HELD p) = s.flag (F.FL_RSTAT_HELD p) := flag_put_port s p 0 rfl
  unfold lineFaultCleared
  rw [h]
  dsimp only
  rw [hw, ← held]
  rfl

theorem closeWaitExpiry_else (h : s.port p = some q) (hw : ∀ n, q.walk ≠ some ⟨n, .wait⟩) : closeWaitExpiry p s = s := by
  unfold closeWaitExpiry
  rw [h, Option.bind_some]
  split
  · next n e => exact absurd e (hw n)
  · rfl

/-- A line fault at the end of a close wait: what lies beyond the switch is fenced (R138). -/
theorem closeWaitExpiry_shorted {n f : Nat} (h : s.port p = some q) (hw : q.walk = some ⟨n, .wait⟩) (flt : s.flag (F.FL_STAT_FLT p) = true) (hn : n < 0x3FFF)
    (hc : q.checks = []) (hf : f < 8) (free : s.flag (F.FL_FENCE_EN p f) = false) (taken : ∀ g < f, s.flag (F.FL_FENCE_EN p g) = true) : closeWaitExpiry p s =
      (s.setReg (A.FL_FENCE p f) (fenceWord (n + 1) 0x3FFF 1)).modPort p (fun q => { q with walk := some ⟨n, .shorted⟩ }) := by
  unfold closeWaitExpiry
  rw [h, Option.bind_some, hw]
  dsimp only
  rw [if_pos flt, if_neg (Nat.ne_of_lt hn), setFence_free h hc hf free taken]

end fault

/-- Settles O22: each command is the write of a few registers of the port and a change of the port itself, and the fault tells the postmaster beside it. -/
theorem lineFaultsAndWalks : Obligations.LineFaultsAndWalks := by
  unfold Obligations.LineFaultsAndWalks
  intro p q s h
  refine ⟨fun k hk hw hr => ?_, fun up awake hw ha => ?_, fun up awake hw ha held off => ?_, fun stays => ?_, fun held auto clear off => ?_, fun none => ?_,
    fun n f hw flt hn hc hf free taken => ?_⟩
  · have wrote := wrote_faultedRegs p q s
    obtain ⟨flt, latch, held, active, rx, discard, box, carry, last⟩ := fields_faultedRegs p q s
    have meaning := (whenHeard_awake hk.up (hk.run ▸ Nat.zero_le 1) (lineFault p)).trans (lineFault_noWalk p.isLt h hk hw hr)
    generalize faultedRegs p q s = r at *
    exact ⟨_, congrArg Host.Outcome.next meaning, flt, latch, held, active, rx, discard, box, congrArg (upd · p.val Port.faulted) wrote.ports,
      told_of_cores (t := r.modPort p Port.faulted) rfl (wrote.same (·.cores) rfl), carry, last, Untouched_same wrote.untouched rfl rfl⟩
  · have wrote := (Wrote.refl [A.FL_STAT p] s).put (F.FL_STAT_FLT p) 0 (.head _)
    have meaning := (whenHeard_awake up awake (lineFaultCleared p)).trans (lineFaultCleared_noWalk h hw)
    rw [ha, Bool.and_false, if_neg Bool.false_ne_true] at meaning
    exact ⟨_, congrArg Host.Outcome.next meaning, flag_faultCleared p s, wrote.modPort_untouched p _, wrote.modPort_frame p _⟩
  · have wrote := ((Wrote.refl [A.FL_STAT p, A.FL_RSTAT p] s).put (F.FL_STAT_FLT p) 0 (.head _)).put (F.FL_RSTAT_HELD p) 0 (.tail _ (.head _))
    have meaning := (whenHeard_awake up awake (lineFaultCleared p)).trans (lineFaultCleared_noWalk h hw)
    have disabled : (faultCleared p s).flag (F.FL_CTRL_EN p) = false := (flag_put_port s p 0 rfl).trans off
    rw [ha, held, Bool.and_true, if_pos rfl, releaseHeld_disabled disabled, faultCleared, modPort_put, modPort_comp] at meaning
    exact ⟨_, congrArg Host.Outcome.next meaning, (flag_modPort _ _ _ _).trans ((flag_put_port _ p 0 rfl).trans (flag_put_zero s (F.FL_STAT_FLT p) (show 3 + 1 ≤ 32 by decide))),
      flag_put_zero _ (F.FL_RSTAT_HELD p) (show 0 + 1 ≤ 32 by decide), wrote.modPort_untouched p _, wrote.modPort_frame p _⟩
  · refine ⟨s, congrArg Host.Outcome.next (if_neg ?_), rfl⟩
    rw [h]
    rcases stays with e | e | e <;> simp [e]
  · have wrote := (Wrote.refl [A.FL_RSTAT p] s).put (F.FL_RSTAT_HELD p) 0 (.head _)
    have meaning : autoRestart p s = releaseHeld p s := if_pos (by rw [held, auto, h, Option.map_some, clear]; rfl)
    exact ⟨_, congrArg Host.Outcome.next (meaning.trans (releaseHeld_disabled off)), flag_put_zero _ (F.FL_RSTAT_HELD p) (show 0 + 1 ≤ 32 by decide),
      wrote.modPort_untouched p _, wrote.modPort_frame p _⟩
  · exact ⟨s, congrArg Host.Outcome.next (closeWaitExpiry_else h none), rfl⟩
  · have wrote := (Wrote.refl [A.FL_FENCE p f] s).setReg (fenceWord (n + 1) 0x3FFF 1) (.head _)
    obtain ⟨en, lo, hi, reason⟩ := fields_fenceWord (lo := n + 1) (hi := 0x3FFF) (reason := 1) (by omega) (by decide) (by decide)
    have fields := get_setReg_self s (fenceWord (n + 1) 0x3FFF 1)
    exact ⟨_, congrArg Host.Outcome.next (closeWaitExpiry_shorted h hw flt hn hc hf free taken),
      congrArg (· != 0) ((fields (F.FL_FENCE_EN p f)).trans en), (fields (F.FL_FENCE_LO p f)).trans lo, (fields (F.FL_FENCE_HI p f)).trans hi,
      (fields (F.FL_FENCE_REASON p f)).trans reason, wrote.modPort_untouched p _, wrote.modPort_frame p _⟩

end Sys2Proof.Machine

/-!
PROOFS. The frames of a field port: FLnn_TXD, the stages of the transmit sequence, FRAME_SEND and FRAME_PREBUILD (05, 06, 07; R88 to R104, R118, R148).
-/

namespace Sys2Proof.Machine

/-! The half-bits of a frame (R92, R93). -/

/-- The level of half-bit `h` of a frame with the bytes `l`: preamble, SD, the bytes least significant bit first, ED. -/
def halfBitLevel (l : List Byte) (h : Nat) : Bool :=
  if h < 80 then bit 0x55 (h / 2 % 8) == (h % 2 == 1) else if h < 84 then decide (h < 82)
  else if h < 84 + 16 * l.length then (l.getD ((h - 84) / 16) 0#8).getLsbD ((h - 84) / 2 % 8) == (h % 2 == 1)
  else decide (86 + 16 * l.length ≤ h ∧ h < 88 + 16 * l.length)

theorem byteLevels_eq (b : Byte) : byteLevels b = (List.range 16).map (fun i => b.getLsbD (i / 2 % 8) == (i % 2 == 1)) := by
  simp [byteLevels, bitLevels, List.range, List.range.loop]

theorem length_byteLevels (b : Byte) : (byteLevels b).length = 16 := by rw [byteLevels_eq, List.length_map, List.length_range]

theorem byteLevels_getD (b : Byte) {i : Nat} (h : i < 16) : (byteLevels b).getD i false = (b.getLsbD (i / 2 % 8) == (i % 2 == 1)) := by
  rw [byteLevels_eq, List.getD_eq_getElem?_getD, List.getElem?_map, List.getElem?_range h]
  rfl

theorem length_bytesLevels (l : List Byte) : (l.flatMap byteLevels).length = 16 * l.length := by
  induction l with
  | nil => rfl
  | cons b l ih =>
    rw [List.flatMap_cons, List.length_append, length_byteLevels, ih, List.length_cons]
    omega

theorem bytesLevels_getD (l : List Byte) {i : Nat} (h : i < 16 * l.length) :
    (l.flatMap byteLevels).getD i false = ((l.getD (i / 16) 0#8).getLsbD (i / 2 % 8) == (i % 2 == 1)) := by
  induction l generalizing i with
  | nil => simp at h
  | cons b l ih =>
    rw [List.length_cons] at h
    rw [List.flatMap_cons]
    by_cases hi : i < 16
    · rw [List.getD_append _ _ _ _ (by rw [length_byteLevels]; exact hi), byteLevels_getD b hi, Nat.div_eq_of_lt hi]
      rfl
    · rw [List.getD_append_right _ _ _ _ (by rw [length_byteLevels]; omega), length_byteLevels, ih (by omega),
        show i / 16 = (i - 16) / 16 + 1 by omega, List.getD_cons_succ, show (i - 16) / 2 % 8 = i / 2 % 8 by omega, show (i - 16) % 2 = i % 2 by omega]

theorem edLevels_getD (i : Nat) : edLevels.getD i false = decide (2 ≤ i ∧ i < 4) := by
  match i with
  | 0 | 1 | 2 | 3 => rfl
  | _ + 4 => exact (decide_eq_false (by omega)).symm

theorem getLsbD_bit (b : Byte) (i : Nat) : b.getLsbD i = bit b.toNat i := by
  rw [bit, BitVec.getLsbD, Nat.testBit_eq_decide_div_mod_eq]
  rfl

/-- The half-bits of a command frame, in their order. -/
theorem frameLevels_getD (l : List Byte) (h : Nat) : (frameLevels 5 l).getD h false = halfBitLevel l h := by
  have pre : ((List.replicate 5 0x55#8).flatMap byteLevels).length = 80 := length_bytesLevels _
  have body := length_bytesLevels l
  unfold frameLevels halfBitLevel
  rw [List.append_assoc, List.append_assoc]
  by_cases h1 : h < 80
  · rw [List.getD_append _ _ _ _ (by rw [pre]; exact h1), bytesLevels_getD _ h1, if_pos h1, List.getD_eq_getElem?_getD,
      List.getElem?_replicate_of_lt (show h / 16 < 5 by omega)]
    exact congrArg (· == (h % 2 == 1)) (getLsbD_bit 0x55#8 (h / 2 % 8))
  rw [List.getD_append_right _ _ _ _ (by rw [pre]; omega), pre, if_neg h1]
  by_cases h2 : h < 84
  · rw [List.getD_append _ _ _ _ (show h - 80 < 4 by omega), if_pos h2]
    interval_cases h <;> rfl
  rw [List.getD_append_right _ _ _ _ (show 4 ≤ h - 80 by omega), if_neg h2, show h - 80 - sdLevels.length = h - 84 from Nat.sub_sub h 80 4]
  by_cases h3 : h < 84 + 16 * l.length
  · rw [List.getD_append _ _ _ _ (by rw [body]; omega), bytesLevels_getD l (by omega), if_pos h3, show (h - 84) % 2 = h % 2 by omega]
  rw [List.getD_append_right _ _ _ _ (by rw [body]; omega), body, if_neg h3]
  obtain ⟨i, rfl⟩ : ∃ i, h = 84 + 16 * l.length + i := ⟨h - (84 + 16 * l.length), by omega⟩
  rw [show 84 + 16 * l.length + i - 84 - 16 * l.length = i by omega, edLevels_getD]
  exact decide_eq_decide.mpr (by omega)


section send
variable {p : Nat} {q : Port} {s : State}

/-! FLnn_TXD and the stages of the transmit sequence. -/

theorem txdHigh_silent (h : s.port p = some q) (hs : q.stage ≠ .sending) : txdHigh s p = false := by
  unfold txdHigh
  rw [h]
  simp [hs]

/-- While a frame is sent and DE_LEAD has passed, its half-bits stand on the line. -/
theorem txdHigh_sending {x : Exchange} (h : s.port p = some q) (hs : q.stage = .sending) (hx : q.xchg = some x)
    (lead : s.get (F.FL_CPL_DE_LEAD p) * 2 ^ 24 ≤ q.lead * 10 ^ 6) : txdHigh s p = halfBitLevel x.frame q.half := by
  have past : leadPast s p q.lead = true := decide_eq_true lead
  unfold txdHigh
  rw [h]
  dsimp only
  rw [hs, past, hx, ← frameLevels_getD]
  rfl

theorem lineStep_at {a b : LineStage} (h : s.port p = some q) (hs : q.stage = a) : lineStep p a b s = s.modPort p (fun q => { q with stage := b }) := by
  unfold lineStep
  rw [h]
  exact if_pos hs

theorem lineStep_else {a b : LineStage} (h : s.port p = some q) (hs : q.stage ≠ a) : lineStep p a b s = s := by
  unfold lineStep
  rw [h]
  exact if_neg hs

/-! FRAME_SEND. -/

/-- The port once the command in `x` is sent. -/
def Port.sends (use : LineUse) (rest : List (LineCmd × LineUse)) (x : Exchange) (q : Port) : Port :=
  { q with want := rest, stage := .sending, lead := 0, acc := 0, half := 0, rx := none, round := sentRound use q.round, xchg := some x }

/-- FRESH of the next frame: counted on a keyed port (R104). -/
def nextFresh (s : State) (p : Nat) : Nat := if portKeyed s p then (s.get (F.FL_FRESH_FRESH p) + 1) % 2 ^ 32 else s.get (F.FL_FRESH_FRESH p)

/-- FRESH in its register, and stored each time its low half reaches 0 (R104). -/
def freshTaken (p : Nat) (s : State) : State :=
  if portKeyed s p && nextFresh s p % 2 ^ 16 == 0 then storeRecord (.fresh p (nextFresh s p)) (s.put (F.FL_FRESH_FRESH p) (nextFresh s p))
  else s.put (F.FL_FRESH_FRESH p) (nextFresh s p)

/-- The exchange of the command `c`. -/
def sentExchange (s : State) (p : Nat) (c : LineCmd) (use : LineUse) : Exchange :=
  ⟨c, use, cmdFrame s p c (nextFresh s p), nextFresh s p, portKeyed s p, 0, 0, false, 0, 0, none, none, false, []⟩

/-- The flags of a port whose command goes out. -/
theorem flags_sends (p : Nat) (r : State) : ((r.mark (F.FL_STAT_ACTIVE p)).put (F.FL_STAT_RX p) 0).flag (F.FL_STAT_ACTIVE p) = true ∧
    ((r.mark (F.FL_STAT_ACTIVE p)).put (F.FL_STAT_RX p) 0).flag (F.FL_STAT_RX p) = false :=
  ⟨(flag_put_port _ p 0 rfl).trans (flag_mark_self r (F.FL_STAT_ACTIVE p) (show 0 + 1 ≤ 32 by decide) Nat.one_pos),
    flag_put_zero _ (F.FL_STAT_RX p) (show 1 + 1 ≤ 32 by decide)⟩

theorem frameSend_sends {c : LineCmd} {use : LineUse} {rest : List (LineCmd × LineUse)} (h : s.port p = some q) (ht : q.txn = none) (hw : q.want = (c, use) :: rest)
    (may : maySend s p q c = true) :
    frameSend p s = (((freshTaken p s).mark (F.FL_STAT_ACTIVE p)).put (F.FL_STAT_RX p) 0).modPort p (Port.sends use rest (sentExchange s p c use)) := by
  unfold frameSend
  rw [tryNode_none h ht]
  dsimp only
  rw [h]
  dsimp only
  rw [hw]
  dsimp only
  rw [may, Bool.not_true, if_neg Bool.false_ne_true]
  cases use with
  | round | check | mailbox | probe => exact modPort_comp (((freshTaken p s).mark (F.FL_STAT_ACTIVE p)).put (F.FL_STAT_RX p) 0) p _ _
  | _ => rfl

/-- A command that may not be sent waits on. -/
theorem frameSend_waits {c : LineCmd} {use : LineUse} {rest : List (LineCmd × LineUse)} (h : s.port p = some q) (ht : q.txn = none) (hw : q.want = (c, use) :: rest)
    (may : maySend s p q c = false) : frameSend p s = s := by
  unfold frameSend
  rw [tryNode_none h ht]
  dsimp only
  rw [h]
  dsimp only
  rw [hw]
  dsimp only
  rw [may, Bool.not_false, if_pos rfl]

/-- The conditions of FRAME_SEND, beside an enrolment's durable record (R79, R104, R113, R137). -/
theorem maySend_ready {c : LineCmd} (works : portWorks s p = true) (safe : s.safe = false) (hx : q.xchg = none) (hw : q.wait = none) (ht : q.txn = none)
    (flt : s.flag (F.FL_STAT_FLT p) = false) (held : s.flag (F.FL_RSTAT_HELD p) = false) (en : s.flag (F.FL_CTRL_EN p) = true) (hc : ∀ m n, c ≠ .assign m n)
    (stored : portKeyed s p = false ∨ s.ledg.recPend = []) : maySend s p q c = true := by
  have kept : ∀ f : RecordKind → Bool, (portKeyed s p && s.ledg.recPend.any f) = false := by
    intro f
    rcases stored with e | e
    · rw [e, Bool.false_and]
    · rw [e, List.any_nil, Bool.and_false]
  unfold maySend
  rw [kept, works, safe, hx, hw, ht, flt, held, en]
  cases c with
  | assign m n => exact absurd rfl (hc m n)
  | _ => rfl

/-- What keeps every command waiting. -/
theorem maySend_stays (c : LineCmd) (stays : q.xchg ≠ none ∨ q.wait ≠ none ∨ s.flag (F.FL_RSTAT_HELD p) = true ∨ s.flag (F.FL_STAT_FLT p) = true ∨ s.flag (F.FL_CTRL_EN p) = false) :
    maySend s p q c = false := by
  unfold maySend
  rcases stays with e | e | e | e | e <;> simp [e]

theorem Wrote.put_own (s : State) (f : Fd) : Wrote [] s (s.put f (s.get f)) := by
  have own : s.put f (s.get f) = s.setReg f.addr (s.reg f.addr) := by
    unfold State.put State.get
    rw [setBits_bits, BitVec.ofNat_toNat, BitVec.setWidth_eq]
  rw [own]
  exact ⟨Untouched_setReg_same s f.addr, rfl⟩

theorem freshTaken_unkeyed (hk : portKeyed s p = false) : freshTaken p s = s.put (F.FL_FRESH_FRESH p) (s.get (F.FL_FRESH_FRESH p)) := by
  unfold freshTaken nextFresh
  rw [hk]
  rfl

theorem nextFresh_unkeyed (hk : portKeyed s p = false) : nextFresh s p = s.get (F.FL_FRESH_FRESH p) := if_neg (ne_true_of_eq_false hk)

theorem nextFresh_keyed (hk : portKeyed s p = true) : nextFresh s p = (s.get (F.FL_FRESH_FRESH p) + 1) % 2 ^ 32 := if_pos hk

/-- On a keyed port FRESH counts, and is stored each time its low half reaches 0 (R104). -/
theorem freshTaken_keyed (hk : portKeyed s p = true) (hrec : s.ledg.recPend = []) :
    (freshTaken p s).get (F.FL_FRESH_FRESH p) = nextFresh s p ∧ Untouched s (freshTaken p s) [A.FL_FRESH p] ∧
      (freshTaken p s).ledg.recPend = (if nextFresh s p % 2 ^ 16 = 0 then [.fresh p (nextFresh s p)] else []) ∧ (freshTaken p s).ports = s.ports := by
  have put := (Wrote.refl [A.FL_FRESH p] s).put (F.FL_FRESH_FRESH p) (nextFresh s p) (.head _)
  have shown : (s.put (F.FL_FRESH_FRESH p) (nextFresh s p)).get (F.FL_FRESH_FRESH p) = nextFresh s p := by
    refine (get_put_self s (F.FL_FRESH_FRESH p) (nextFresh s p) (show 0 + 32 ≤ 32 by decide)).trans (Nat.mod_eq_of_lt ?_)
    rw [nextFresh_keyed hk]
    exact Nat.mod_lt _ (Nat.two_pow_pos 32)
  unfold freshTaken
  rw [hk]
  by_cases low : nextFresh s p % 2 ^ 16 = 0
  · rw [if_pos (by rw [low]; rfl), if_pos low]
    exact ⟨shown, Untouched_same put.untouched rfl rfl, congrArg (· ++ [_]) hrec, rfl⟩
  · rw [if_neg (by rw [Bool.true_and, beq_iff_eq]; exact low), if_neg low]
    exact ⟨shown, put.untouched, hrec, rfl⟩

/-- A command without FRESH and MAC: CTRL, address, code, length, payload and CRC (R97, R98). -/
theorem cmdFrame_unkeyed (hk : (s.port p).bind (·.key) = none) (c : LineCmd) (fresh : Nat) : cmdFrame s p c fresh =
    ([0xA0] ++ leBytes 2 (cmdParts c).1 ++ leBytes 1 (cmdParts c).2.1 ++ leBytes 1 (cmdParts c).2.2.length ++ (cmdParts c).2.2) ++
      leBytes 2 (crc16 ([0xA0] ++ leBytes 2 (cmdParts c).1 ++ leBytes 1 (cmdParts c).2.1 ++ leBytes 1 (cmdParts c).2.2.length ++ (cmdParts c).2.2)) := by
  have plain : portKeyed s p = false := by unfold portKeyed; rw [hk]; rfl
  have noMac : (unicastTo c).filter (nodeKeyed s p) = none := by
    rw [Option.filter_eq_none_iff]
    intro n _
    unfold nodeKeyed
    rw [hk]
    exact Bool.false_ne_true
  have ctrl : leBytes 1 (0xA0 + 4 * b2n false + 2 * b2n (none : Option Nat).isSome) = [0xA0] := rfl
  unfold cmdFrame
  dsimp only
  rw [plain, noMac, ctrl, if_neg Bool.false_ne_true, List.append_nil]

/-! FRAME_PREBUILD. -/

/-- A port with nothing built ahead builds the coming slots (R118, R148). -/
theorem prebuild_none (h : s.port p = some q) (hb : q.built = []) (works : portWorks s p = true) (safe : s.safe = false) (en : s.flag (F.FL_CTRL_EN p) = true)
    (run : s.flag F.TT_CTRL_RUN = true) (skips : portSkips s p = false) :
    prebuild p s = { s with ports := upd s.ports p (fun q => { q with
      built := (comingSlots s p (s.get F.TT_CTRL_AHEAD)).map (fun e => ⟨runBank s p, e.1, e.2.2, slotFrames s p e.2.1⟩) }) } := by
  unfold prebuild
  rw [h]
  dsimp only
  rw [works, safe, en, run, skips, hb]
  exact modPort_same h (by rw [hb]; rfl)

end send

/-- Settles O16: the half-bits of a frame are read off its list of levels, and a command that may be sent becomes the port's exchange. -/
theorem framesAreSentAndBuilt : Obligations.FramesAreSentAndBuilt := by
  unfold Obligations.FramesAreSentAndBuilt
  refine ⟨fun p q s h => ⟨txdHigh_silent h, fun x hs hx lead => ?_, fun c hc => ?_⟩, fun p q c use rest s h hw => ⟨fun ht stays => ?_, ?_⟩,
    fun p q s h hb works safe en run skips => ?_⟩
  · exact txdHigh_sending h hs hx lead
  · simp only [List.mem_cons, List.not_mem_nil, or_false] at hc
    rcases hc with rfl | rfl | rfl <;>
      exact ⟨fun hs => ⟨_, congrArg Host.Outcome.next (lineStep_at h hs), rfl⟩, fun hs => ⟨s, congrArg Host.Outcome.next (lineStep_else h hs), rfl⟩⟩
  · exact ⟨s, congrArg Host.Outcome.next (frameSend_waits h ht hw (maySend_stays c stays)), rfl⟩
  · intro works safe hx hwait ht flt held en hc
    refine ⟨fun body hkey hbody => ?_, fun n hkey hrec hn => ?_⟩
    · have plain : portKeyed s p = false := by unfold portKeyed; rw [h, Option.bind_some, hkey]; rfl
      have frame := cmdFrame_unkeyed (s := s) (p := p) (by rw [h, Option.bind_some, hkey]) c (nextFresh s p)
      have meaning := frameSend_sends h ht hw (maySend_ready works safe hx hwait ht flt held en hc (.inl plain))
      have wrote := ((Wrote.put_own s (F.FL_FRESH_FRESH p)).mono (m := [A.FL_STAT p]) (List.forall_mem_nil _)).mark (F.FL_STAT_ACTIVE p) (.head _)
      rw [sentExchange, frame, ← hbody, plain, nextFresh_unkeyed plain, freshTaken_unkeyed plain] at meaning
      generalize s.put (F.FL_FRESH_FRESH p) (s.get (F.FL_FRESH_FRESH p)) = r at *
      have all := wrote.put (F.FL_STAT_RX p) 0 (.head _)
      obtain ⟨active, rx⟩ := flags_sends p r
      generalize (r.mark (F.FL_STAT_ACTIVE p)).put (F.FL_STAT_RX p) 0 = r1 at *
      exact ⟨_, congrArg Host.Outcome.next meaning, active, rx, all.modPort_untouched p _, all.modPort_kept p _, congrArg (upd · p.val _) all.ports⟩
    · have keyed : portKeyed s p = true := by unfold portKeyed; rw [h, Option.bind_some]; exact Option.isSome_iff_ne_none.mpr hkey
      have meaning := frameSend_sends h ht hw (maySend_ready works safe hx hwait ht flt held en hc (.inr hrec))
      obtain ⟨shown, untouched, stored, ports⟩ := freshTaken_keyed keyed hrec
      have fresh : nextFresh s p = n := (nextFresh_keyed keyed).trans hn.symm
      rw [fresh] at shown stored
      rw [sentExchange, keyed, fresh] at meaning
      generalize freshTaken p s = r at *
      have all := ((Wrote.refl [A.FL_STAT p] r).mark (F.FL_STAT_ACTIVE p) (.head _)).put (F.FL_STAT_RX p) 0 (.head _)
      obtain ⟨active, -⟩ := flags_sends p r
      have kept := all.get (F.FL_FRESH_FRESH p) (by simp [F.FL_FRESH_FRESH])
      generalize (r.mark (F.FL_STAT_ACTIVE p)).put (F.FL_STAT_RX p) 0 = r1 at *
      exact ⟨_, congrArg Host.Outcome.next meaning, active, kept.trans shown,
        Untouched_same (Untouched_trans (Untouched_mono untouched (by simp)) (Untouched_mono all.untouched (by simp))) rfl rfl,
        (all.same (·.ledg.recPend) rfl).trans stored, congrArg (upd · p.val _) (all.ports.trans ports)⟩
  · exact ⟨_, congrArg Host.Outcome.next (prebuild_none h hb works safe en run skips), _, by rw [List.length_map]; exact List.length_take_le _ _, rfl, rfl⟩

end Sys2Proof.Machine

/-!
PROOFS. The commands of a field port's registers: enabling and disabling, the fences, the mailbox and RESTART (05, 06; R91, R118, R128, R135, R137, R140, R149).
-/

namespace Sys2Proof.Machine

/-! Writes of a port's registers. -/

section writes
variable {u : Fin 256} {p : Fin 32} {v : Word} {s : State}

/-- An accepted write of register `off` of a port. -/
theorem registerWrite_port {a off : Nat} {d : RegDef} {i : Nat} (h : Accepts u a v s) (hf : findReg a = some (d, i) ∧ mirrorOf a = none ∧ isBanked a = false)
    (ha : a = 0x10041000 + 0x1000 * p.val + off) (ho : off < 0x1000) :
    registerWrite u.val a v s = portRegWrite u.val p.val off a (s.reg a).toNat v.toNat (fieldsWritten d a v) s := by
  obtain ⟨hf, hm, hb⟩ := hf
  have hp := p.isLt
  have block : blockOf a = 0x41 + p.val := by unfold blockOf; rw [if_pos (by omega)]; omega
  have place : offOf a = off := by unfold offOf; rw [if_pos (by omega)]; omega
  rw [registerWrite_act h hf hm hb (by unfold A.CAS_RA_CMD; omega), regAct]
  rw [block, place, if_neg (by omega), if_neg (by omega), if_pos (by omega), Nat.add_sub_cancel_left]
  rfl

theorem registerWrite_mailbox (h : Accepts u (A.FL_MBOX p) v s) : registerWrite u.val (A.FL_MBOX p) v s = mailboxWrite p v s := by
  rw [registerWrite_port h (find_FL_MBOX p) (p := p) (off := 0x080) (by unfold A.FL_MBOX; omega) (by decide)]
  unfold portRegWrite
  rw [if_neg (by decide), if_neg (by decide), if_neg (by decide), if_neg (by decide), if_pos rfl, BitVec.ofNat_toNat, BitVec.setWidth_eq]

theorem registerWrite_fence {k : Fin 8} (h : Accepts u (A.FL_FENCE p k) v s) : registerWrite u.val (A.FL_FENCE p k) v s = fenceWrite u p k v s := by
  have hk := k.isLt
  rw [registerWrite_port h (find_FL_FENCE p k) (p := p) (off := 0x0A0 + 4 * k.val) (by unfold A.FL_FENCE; omega) (by omega)]
  unfold portRegWrite
  rw [if_neg (by omega), if_neg (by omega), if_neg (by omega), if_neg (by omega), if_neg (by omega), if_pos (by omega), BitVec.ofNat_toNat, BitVec.setWidth_eq,
    Nat.add_sub_cancel_left, Nat.mul_div_cancel_left k.val (by decide)]

/-- RESTART is always accepted. -/
theorem accepts_restart (h : Writes u (A.FL_RCTRL p) s) : Accepts u (A.FL_RCTRL p) 1 s := by
  have block : blockOf (A.FL_RCTRL p) = 0x41 + p.val := by unfold blockOf A.FL_RCTRL; rw [if_pos (by omega)]; omega
  have place : offOf (A.FL_RCTRL p) = 0x07C := by unfold offOf A.FL_RCTRL; rw [if_pos (by omega)]; omega
  have unit : isPortUnit (0x41 + p.val) = true := by unfold isPortUnit; simp; omega
  have unreserved : alsoReserved (0x41 + p.val) 0x07C (1 : Word).toNat s = false := by
    unfold alsoReserved
    rw [if_neg (by omega), if_pos unit]
    rfl
  refine ⟨h, ?_⟩
  unfold writeBarred
  rw [(find_FL_RCTRL p).1, block, place]
  dsimp only
  rw [unreserved]
  unfold rwlBars
  rw [show rowRefuses row_FL_RCTRL (1 : Word).toNat = false by decide]
  exact Bool.and_false _

theorem registerWrite_restart (h : Writes u (A.FL_RCTRL p) s) : registerWrite u.val (A.FL_RCTRL p) 1 s = portRestart p s := by
  rw [registerWrite_port (accepts_restart h) (find_FL_RCTRL p) (p := p) (off := 0x07C) (by unfold A.FL_RCTRL; omega) (by decide)]
  unfold portRegWrite
  rw [if_neg (by decide), if_neg (by decide), if_neg (by decide), if_pos rfl]
  exact if_pos rfl

/-! A write of EN that keeps the other fields. -/

/-- FL_CTRL with EN put to `b` (0 or 1). -/
def ctrlWord (s : State) (p b : Nat) : Word := BitVec.ofNat 32 (setBits (s.reg (A.FL_CTRL p)).toNat 0 1 b)

theorem toNat_ctrlWord (s : State) (p b : Nat) : (ctrlWord s p b).toNat = setBits (s.reg (A.FL_CTRL p)).toNat 0 1 b := by
  rw [ctrlWord, BitVec.toNat_ofNat, Nat.mod_eq_of_lt (setBits_lt _ 0 1 b 32 (by decide) (s.reg (A.FL_CTRL p)).isLt)]

theorem regView_ctrl (u : Nat) (p : Fin 32) (s : State) : regView u (A.FL_CTRL p) s = (s.reg (A.FL_CTRL p)).toNat := by
  have hp := p.isLt
  obtain ⟨hf, hm, hb⟩ := find_FL_CTRL p
  have block : blockOf (A.FL_CTRL p) = 0x41 + p.val := by unfold blockOf A.FL_CTRL; rw [if_pos (by omega)]; omega
  have place : offOf (A.FL_CTRL p) = 0 := by unfold offOf A.FL_CTRL; rw [if_pos (by omega)]; omega
  unfold regView
  rw [if_neg (by unfold A.FL_CTRL; omega), hm]
  dsimp only
  rw [hf]
  dsimp only
  rw [hb, if_neg Bool.false_ne_true]
  unfold viewWord
  rw [block, place, if_neg (by omega), if_neg (by omega), if_pos (by omega), if_neg (by decide)]

/-- FL_CTRL is as it was once EN is put back. -/
theorem ctrl_putBack (s : State) (p b : Nat) :
    Wrote [] s ((fieldsWritten row_FL_CTRL (A.FL_CTRL p) (ctrlWord s p b) s).put (F.FL_CTRL_EN p) ((s.reg (A.FL_CTRL p)).toNat % 2)) := by
  have rate : bits (ctrlWord s p b).toNat 4 3 = bits (s.reg (A.FL_CTRL p)).toNat 4 3 := by rw [toNat_ctrlWord, bits_setBits_disjoint _ _ _ _ _ _ (.inl (by decide))]
  have written : plainWord row_FL_CTRL (s.reg (A.FL_CTRL p)).toNat (ctrlWord s p b).toNat = setBits (s.reg (A.FL_CTRL p)).toNat 0 1 (bits (ctrlWord s p b).toNat 0 1) := by
    refine (congrArg (fun n => setBits (setBits (s.reg (A.FL_CTRL p)).toNat 4 3 n) 0 1 (bits (ctrlWord s p b).toNat 0 1)) rate).trans ?_
    rw [setBits_bits]
  have old : ∀ n v, setBits (setBits n 0 1 v) 0 1 (n % 2) = n := by
    intro n v
    unfold setBits bits
    omega
  refine ⟨⟨fun a _ => ?_, fun _ => rfl⟩, rfl⟩
  by_cases e : A.FL_CTRL p = a
  · subst e
    refine (reg_setReg_self _ _ _).trans ?_
    change BitVec.ofNat 32 (setBits ((fieldsWritten row_FL_CTRL (A.FL_CTRL p) (ctrlWord s p b) s).reg (A.FL_CTRL p)).toNat 0 1 _) = _
    rw [fieldsWritten, reg_setReg_self, written, BitVec.toNat_ofNat, Nat.mod_eq_of_lt (setBits_lt _ 0 1 _ 32 (by decide) (s.reg (A.FL_CTRL p)).isLt)]
    refine (congrArg (BitVec.ofNat 32) (old _ _)).trans ?_
    rw [BitVec.ofNat_toNat, BitVec.setWidth_eq]
  · exact (reg_put_ne _ _ _ e).trans (reg_setReg_ne s _ e)

/-- A bit is a field of width one. -/
theorem bit_eq_bits (n i : Nat) : bit n i = (bits n i 1 != 0) := by
  unfold bit bits
  rcases Nat.mod_two_eq_zero_or_one (n / 2 ^ i) with e | e <;> simp [e]

theorem bit_ctrlWord (s : State) (p b : Nat) : bit (ctrlWord s p b).toNat 0 = (b % 2 != 0) := by
  rw [bit_eq_bits, toNat_ctrlWord, bits_setBits_self, Nat.pow_one]

theorem bit_ctrl (s : State) (p : Nat) : bit (s.reg (A.FL_CTRL p)).toNat 0 = s.flag (F.FL_CTRL_EN p) := bit_eq_bits _ 0

/-- EN that rises enables the port, with the other fields as they were. -/
theorem registerModify_enable (h : Accepts u (A.FL_CTRL p) (ctrlWord s p 1) s) (off : s.flag (F.FL_CTRL_EN p) = false) :
    ∃ r, Wrote [] s r ∧ registerModify u (A.FL_CTRL p) 0 1 1 s = portEnable p r := by
  have up : rises (s.reg (A.FL_CTRL p)).toNat (ctrlWord s p 1).toNat 0 = true := by unfold rises; rw [bit_ctrl, bit_ctrlWord, off]; rfl
  refine ⟨_, ctrl_putBack s p 1, ?_⟩
  rw [registerModify, regView_ctrl, ← ctrlWord, registerWrite_port h (find_FL_CTRL p) (p := p) (off := 0x000) rfl (by decide), portRegWrite, if_pos rfl]
  dsimp only
  rw [if_pos up]

/-- EN that falls disables it. -/
theorem registerModify_disable (h : Accepts u (A.FL_CTRL p) (ctrlWord s p 0) s) (on : s.flag (F.FL_CTRL_EN p) = true) :
    ∃ r, Wrote [] s r ∧ registerModify u (A.FL_CTRL p) 0 1 0 s = portDisable p r := by
  have up : ¬ rises (s.reg (A.FL_CTRL p)).toNat (ctrlWord s p 0).toNat 0 = true := by unfold rises; rw [bit_ctrl, on]; exact Bool.false_ne_true
  have down : falls (s.reg (A.FL_CTRL p)).toNat (ctrlWord s p 0).toNat 0 = true := by unfold falls; rw [bit_ctrl, bit_ctrlWord, on]; rfl
  refine ⟨_, ctrl_putBack s p 0, ?_⟩
  rw [registerModify, regView_ctrl, ← ctrlWord, registerWrite_port h (find_FL_CTRL p) (p := p) (off := 0x000) rfl (by decide), portRegWrite, if_pos rfl]
  dsimp only
  rw [if_neg up, if_pos down]

end writes

/-! PORT_ENABLE (R91, R128). -/

section enable
variable {p : Nat} {q : Port} {s : State}

/-- A flag that marks a check that failed. -/
def State.markUnless (s : State) (ok : Bool) (f : Fd) : State := if ok then s else s.mark f

theorem flag_markUnless (s : State) (ok : Bool) (f : Fd) (h : f.lo + f.w ≤ 32) (hw : 0 < f.w) : (s.markUnless ok f).flag f = (s.flag f || !ok) := by
  cases ok
  · rw [Bool.not_false, Bool.or_true]
    exact flag_mark_self s f h hw
  · exact (Bool.or_false _).symm

theorem Wrote.markUnless {l : List Nat} {t : State} (h : Wrote l s t) (ok : Bool) (f : Fd) (ha : f.addr ∈ l) : Wrote l s (t.markUnless ok f) := by
  cases ok
  · exact h.mark f ha
  · exact h

/-- The marks of the two checks of an enabling. -/
def enableMarks (p : Nat) (s : State) : State := (s.markUnless (couplerOk s p) (F.FL_STAT_CPL_BAD p)).markUnless (dirOk s p) (F.FL_RSTAT_NDIR_BAD p)

theorem portEnable_fails (h : couplerOk s p = false ∨ dirOk s p = false) : portEnable p s = enableMarks p s := by
  unfold portEnable
  exact if_pos (by rcases h with h | h <;> simp [h])

theorem wrote_enableMarks (p : Nat) (s : State) : Wrote [A.FL_STAT p, A.FL_RSTAT p] s (enableMarks p s) :=
  ((Wrote.refl _ s).markUnless _ (F.FL_STAT_CPL_BAD p) (.head _)).markUnless _ (F.FL_RSTAT_NDIR_BAD p) (.tail _ (.head _))

theorem flags_enableMarks (p : Nat) (s : State) : (enableMarks p s).flag (F.FL_STAT_CPL_BAD p) = (s.flag (F.FL_STAT_CPL_BAD p) || !couplerOk s p) ∧
    (enableMarks p s).flag (F.FL_RSTAT_NDIR_BAD p) = (s.flag (F.FL_RSTAT_NDIR_BAD p) || !dirOk s p) := by
  have first := (Wrote.refl [A.FL_STAT p] s).markUnless (couplerOk s p) (F.FL_STAT_CPL_BAD p) (.head _)
  have second := (Wrote.refl [A.FL_RSTAT p] (s.markUnless (couplerOk s p) (F.FL_STAT_CPL_BAD p))).markUnless (dirOk s p) (F.FL_RSTAT_NDIR_BAD p) (.head _)
  refine ⟨(second.flag (F.FL_STAT_CPL_BAD p) (by simp [F.FL_STAT_CPL_BAD])).trans (flag_markUnless s _ (F.FL_STAT_CPL_BAD p) (show 5 + 1 ≤ 32 by decide) Nat.one_pos), ?_⟩
  refine (flag_markUnless _ _ (F.FL_RSTAT_NDIR_BAD p) (show 6 + 1 ≤ 32 by decide) Nat.one_pos).trans ?_
  rw [first.flag (F.FL_RSTAT_NDIR_BAD p) (by simp [F.FL_RSTAT_NDIR_BAD])]

/-- A check that passes leaves its register. -/
theorem regs_enableMarks (p : Nat) (s : State) : (couplerOk s p = true → (enableMarks p s).reg (A.FL_STAT p) = s.reg (A.FL_STAT p)) ∧
    (dirOk s p = true → (enableMarks p s).reg (A.FL_RSTAT p) = s.reg (A.FL_RSTAT p)) := by
  have first := (Wrote.refl [A.FL_STAT p] s).markUnless (couplerOk s p) (F.FL_STAT_CPL_BAD p) (.head _)
  have second := (Wrote.refl [A.FL_RSTAT p] (s.markUnless (couplerOk s p) (F.FL_STAT_CPL_BAD p))).markUnless (dirOk s p) (F.FL_RSTAT_NDIR_BAD p) (.head _)
  refine ⟨fun ok => (second.reg (by simp)).trans ?_, fun ok => ?_⟩
  · rw [ok]
    rfl
  · unfold enableMarks
    rw [ok]
    exact first.reg (by simp)

/-- Both checks read registers and partitions alone. -/
theorem Wrote.enableChecks {t : State} (h : Wrote [] s t) (p : Nat) : couplerOk t p = couplerOk s p ∧ dirOk t p = dirOk s p := by
  have none : ∀ f : Fd, f.addr ∉ ([] : List Nat) := fun _ => List.not_mem_nil
  refine ⟨?_, ?_⟩
  · unfold couplerOk
    rw [h.get _ (none _), h.get _ (none _), h.get _ (none _), h.get _ (none _)]
  · unfold dirOk dirBase
    rw [h.flag _ (none _), h.get _ (none _), h.same (·.parts) rfl]

/-- A start with no switch node, on a port that nothing waits on, does nothing. -/
theorem walkOut_atRest (h : s.port p = some q) (hs : switchNodes s p = []) (hf : s.ledg.flips = []) (hr : q.round = none) (hw : q.want = []) (hy : q.yieldDue = false)
    (run : s.flag F.TT_CTRL_RUN = false) : walkOut p s = s := by
  rw [walkOut_noSwitch hf hs, proceed_atRest h hr hw hy, advance_stopped run]

/-- A port whose checks pass, and that nothing waits on, is enabled and no more. -/
theorem portEnable_atRest (h : s.port p = some q) (coupler : couplerOk s p = true) (dir : dirOk s p = true) (hs : switchNodes s p = []) (hf : s.ledg.flips = [])
    (hr : q.round = none) (hw : q.want = []) (hy : q.yieldDue = false) (stop : q.stop = false) (run : s.flag F.TT_CTRL_RUN = false) (hp : p < 32) :
    portEnable p s = s.mark (F.FL_CTRL_EN p) := by
  have wrote := (Wrote.refl [A.FL_CTRL p] s).mark (F.FL_CTRL_EN p) (.head _)
  have mask : A.ARB_MASK (portUnit p) ∉ [A.FL_CTRL p] := by rw [List.mem_singleton]; unfold A.ARB_MASK A.FL_CTRL portUnit; omega
  have base : A.FL_NDIR p ∉ [A.FL_CTRL p] := by rw [List.mem_singleton]; unfold A.FL_NDIR A.FL_CTRL; omega
  have seq : F.TT_CTRL_RUN.addr ∉ [A.FL_CTRL p] := by rw [List.mem_singleton]; unfold F.TT_CTRL_RUN A.TT_CTRL A.FL_CTRL; dsimp only; omega
  have dirs : SameDirectory p s (s.mark (F.FL_CTRL_EN p)) := .of_untouched rfl rfl wrote.untouched mask base
  have meaning : portEnable p s = walkOut p (s.mark (F.FL_CTRL_EN p)) := by
    unfold portEnable
    rw [coupler, dir, h, Option.map_some, stop]
    rfl
  exact meaning.trans (walkOut_atRest ((wrote.port p).trans h) (dirs.switchNodes.trans hs) ((congrArg (·.flips) dirs.ledg).trans hf) hr hw hy ((wrote.flag _ seq).trans run))

end enable

/-! PORT_DISABLE (R118, R149). -/

section disable
variable {p : Nat} {q : Port} {s : State}

/-- The registers of a port whose pass and frames are given up. -/
def haltedRegs (p : Nat) (q : Port) (s : State) : State :=
  (((s.put (F.FL_CTRL_EN p) 0).incSat (F.FL_RCNT_DISCARD p) (q.built.map (·.frames.length)).sum).put (F.TTP_POS_GATE p) 0)

/-- A pass that is given up. -/
def Pass.dropped (w : Pass) : Pass := { w with mode := .idle, report := false, fillPos := none }

/-- A disabled port whose exchange in progress runs to its end. -/
def Port.stopping (q : Port) : Port :=
  { q with want := [], lbStack := [], enStack := [], stop := true, repeats := (cutAcks { q with xchg := none }).foldl (fun l e => addRepeat e l) q.repeats }

/-- A disabled port without one. -/
def Port.stopped (q : Port) : Port :=
  { q with want := [], lbStack := [], enStack := [], walk := none, stop := false, repeats := (cutAcks q).foldl (fun l e => addRepeat e l) q.repeats }

theorem stopPort_noRound (h : s.port p = some q) (hr : q.round = none) : stopPort p s = ((s.put (F.FL_RSTAT_WALKING p) 0).put (F.FL_LBSTAT_CARRY p) 0).modPort p Port.stopped := by
  have meaning : stopPort p s = finishRound p (((s.put (F.FL_RSTAT_WALKING p) 0).put (F.FL_LBSTAT_CARRY p) 0).modPort p Port.stopped) := by
    unfold stopPort
    rw [clearStacks, cutReports, modPort_put, modPort_comp, modPort_comp]
    rfl
  have same : (((s.put (F.FL_RSTAT_WALKING p) 0).put (F.FL_LBSTAT_CARRY p) 0).modPort p Port.stopped).port p = some q.stopped := by
    rw [port_modPort, port_put, port_put, h]
    rfl
  rw [meaning, finishRound_none same hr]

/-- What is given up in a port when EN falls. -/
theorem abandonPass_discard (h : s.port p = some q) (hr : q.round = none) : abandonPass p (discardRound p (discardBuilt p (fun _ => true) (s.put (F.FL_CTRL_EN p) 0))) =
    ((haltedRegs p q s).modPort p Port.unbuilt).modPass p Pass.dropped := by
  rw [discard_noRound (q := q) (by rw [port_put, h]) hr, abandonPass, modPort_put]
  rfl

theorem port_modPass (s : State) (p o : Nat) (f : Pass → Pass) : (s.modPass p f).port o = s.port o := rfl

theorem modPass_put (s : State) (p : Nat) (f : Pass → Pass) (g : Fd) (v : Nat) : (s.modPass p f).put g v = (s.put g v).modPass p f := rfl

theorem modPass_modPort (s : State) (p o : Nat) (f : Pass → Pass) (g : Port → Port) : (s.modPass p f).modPort o g = (s.modPort o g).modPass p f := rfl

theorem port_halted (h : s.port p = some q) : (((haltedRegs p q s).modPort p Port.unbuilt).modPass p Pass.dropped).port p = some q.unbuilt := by
  have same : (haltedRegs p q s).port p = some q := by rw [haltedRegs, port_put, port_incSat, port_put, h]
  generalize haltedRegs p q s = r at *
  rw [port_modPass, port_modPort, same]
  rfl

theorem portDisable_busy (h : s.port p = some q) (hr : q.round = none) (hx : q.xchg.isSome = true) :
    portDisable p s = (((haltedRegs p q s).put (F.FL_LBSTAT_CARRY p) 0).modPort p (Port.stopping ∘ Port.unbuilt)).modPass p Pass.dropped := by
  have same := port_halted h
  unfold portDisable
  rw [abandonPass_discard h hr, ← modPort_comp]
  generalize haltedRegs p q s = r at *
  dsimp only
  rw [xchg_eq same, if_pos (show q.unbuilt.xchg.isSome = true from hx), clearStacks, modPass_put, modPort_put, modPass_modPort, modPass_modPort, modPort_comp _ p _ (fun _ => _)]
  rfl

theorem portDisable_free (h : s.port p = some q) (hr : q.round = none) (hx : q.xchg.isSome = false) :
    portDisable p s = ((((haltedRegs p q s).put (F.FL_RSTAT_WALKING p) 0).put (F.FL_LBSTAT_CARRY p) 0).modPort p (Port.stopped ∘ Port.unbuilt)).modPass p Pass.dropped := by
  have same := port_halted h
  unfold portDisable
  rw [abandonPass_discard h hr, ← modPort_comp]
  generalize haltedRegs p q s = r at *
  dsimp only
  rw [xchg_eq same, if_neg (show ¬ q.unbuilt.xchg.isSome = true from ne_true_of_eq_false hx), stopPort_noRound same hr, modPass_put, modPass_put, modPort_put, modPort_put, modPass_modPort]

/-- The registers that a disabling writes. -/
abbrev disableWrites (p : Nat) : List Nat := [A.FL_CTRL p, A.FL_RCNT p, A.TTP_POS p, A.FL_RSTAT p, A.FL_LBSTAT p]

theorem wrote_haltedRegs (p : Nat) (q : Port) (s : State) : Wrote (disableWrites p) s (haltedRegs p q s) :=
  (((Wrote.refl _ s).put (F.FL_CTRL_EN p) 0 (.head _)).incSat (F.FL_RCNT_DISCARD p) _ (.tail _ (.head _))).put (F.TTP_POS_GATE p) 0 (.tail _ (.tail _ (.head _)))

theorem fields_haltedRegs (p : Nat) (q : Port) (s : State) :
    (haltedRegs p q s).flag (F.FL_CTRL_EN p) = false ∧ (haltedRegs p q s).flag (F.TTP_POS_GATE p) = false ∧
      (haltedRegs p q s).get (F.FL_RCNT_DISCARD p) = satTo 0xFFFF (s.get (F.FL_RCNT_DISCARD p) + (q.built.map (·.frames.length)).sum) ∧
      (haltedRegs p q s).get (F.FL_LBSTAT_LAST p) = s.get (F.FL_LBSTAT_LAST p) := by
  have gate := (Wrote.refl [A.TTP_POS p] ((s.put (F.FL_CTRL_EN p) 0).incSat (F.FL_RCNT_DISCARD p) (q.built.map (·.frames.length)).sum)).put (F.TTP_POS_GATE p) 0 (.head _)
  have ctrl : A.FL_CTRL p ∉ [A.TTP_POS p] := by rw [List.mem_singleton]; unfold A.FL_CTRL A.TTP_POS; omega
  have count : A.FL_RCNT p ∉ [A.TTP_POS p] := by rw [List.mem_singleton]; unfold A.FL_RCNT A.TTP_POS; omega
  have box : A.FL_LBSTAT p ∉ [A.TTP_POS p] := by rw [List.mem_singleton]; unfold A.FL_LBSTAT A.TTP_POS; omega
  refine ⟨?_, flag_put_zero _ (F.TTP_POS_GATE p) (show 30 + 1 ≤ 32 by decide), ?_, ?_⟩
  · exact (gate.flag _ ctrl).trans ((flag_put_port _ p _ rfl).trans (flag_put_zero s (F.FL_CTRL_EN p) (show 0 + 1 ≤ 32 by decide)))
  · refine (gate.get _ count).trans ((get_incSat_self _ (F.FL_RCNT_DISCARD p) _ (show 0 + 16 ≤ 32 by decide)).trans ?_)
    rw [show (s.put (F.FL_CTRL_EN p) 0).get (F.FL_RCNT_DISCARD p) = s.get (F.FL_RCNT_DISCARD p) from get_put_port s p 0 rfl]
    rfl
  · exact (gate.get _ box).trans ((get_put_port _ p _ rfl).trans (get_put_port s p 0 rfl))

/-- What the registers of a disabled port show; a walk-out that ends changes FL_RSTAT alone. -/
theorem fields_disabled {r : State} (h : Wrote [A.FL_RSTAT p] (haltedRegs p q s) r) :
    (r.put (F.FL_LBSTAT_CARRY p) 0).flag (F.FL_CTRL_EN p) = false ∧ (r.put (F.FL_LBSTAT_CARRY p) 0).flag (F.TTP_POS_GATE p) = false ∧
      (r.put (F.FL_LBSTAT_CARRY p) 0).get (F.FL_RCNT_DISCARD p) = satTo 0xFFFF (s.get (F.FL_RCNT_DISCARD p) + (q.built.map (·.frames.length)).sum) ∧
      (r.put (F.FL_LBSTAT_CARRY p) 0).get (F.FL_LBSTAT_CARRY p) = 0 ∧ (r.put (F.FL_LBSTAT_CARRY p) 0).get (F.FL_LBSTAT_LAST p) = s.get (F.FL_LBSTAT_LAST p) ∧
      Wrote (disableWrites p) s (r.put (F.FL_LBSTAT_CARRY p) 0) := by
  obtain ⟨en, gate, count, last⟩ := fields_haltedRegs p q s
  have before := wrote_haltedRegs p q s
  generalize haltedRegs p q s = b at *
  have carried := (Wrote.refl [A.FL_LBSTAT p] r).put (F.FL_LBSTAT_CARRY p) 0 (.head _)
  have stat : A.TTP_POS p ∉ [A.FL_RSTAT p] := by rw [List.mem_singleton]; unfold A.FL_RSTAT A.TTP_POS; omega
  have box : A.TTP_POS p ∉ [A.FL_LBSTAT p] := by rw [List.mem_singleton]; unfold A.FL_LBSTAT A.TTP_POS; omega
  refine ⟨?_, ?_, ?_, get_put_self r (F.FL_LBSTAT_CARRY p) 0 (show 0 + 6 ≤ 32 by decide), ?_, ?_⟩
  · exact (flag_put_port r p 0 rfl).trans ((h.flag (F.FL_CTRL_EN p) (by simp [F.FL_CTRL_EN])).trans en)
  · exact (carried.flag (F.TTP_POS_GATE p) box).trans ((h.flag (F.TTP_POS_GATE p) stat).trans gate)
  · exact (get_put_port r p 0 rfl).trans ((h.get (F.FL_RCNT_DISCARD p) (by simp [F.FL_RCNT_DISCARD])).trans count)
  · exact (get_put_port r p 0 rfl).trans ((h.get (F.FL_LBSTAT_LAST p) (by simp [F.FL_LBSTAT_LAST])).trans last)
  · exact before.trans ((h.mono (by simp)).trans (carried.mono (by simp)))

/-- What a disabling leaves, from a state `s` that is `s0` but for registers written with what they held. -/
theorem facts_disabled {s0 r t : State} {f : Port → Port} (same : Wrote [] s0 s) (h : s.port p = some q) (hr : Wrote [A.FL_RSTAT p] (haltedRegs p q s) r)
    (ht : t = ((r.put (F.FL_LBSTAT_CARRY p) 0).modPort p f).modPass p Pass.dropped) :
    t.flag (F.FL_CTRL_EN p) = false ∧ t.flag (F.TTP_POS_GATE p) = false ∧
      t.get (F.FL_RCNT_DISCARD p) = satTo 0xFFFF (s0.get (F.FL_RCNT_DISCARD p) + (q.built.map (·.frames.length)).sum) ∧ t.port p = some (f q) ∧
      t.get (F.FL_LBSTAT_CARRY p) = 0 ∧ t.get (F.FL_LBSTAT_LAST p) = s0.get (F.FL_LBSTAT_LAST p) ∧ (∀ o, o ≠ p → t.port o = s0.port o) ∧ Untouched s0 t (disableWrites p) := by
  have none : ∀ a, a ∉ ([] : List Nat) := fun _ => List.not_mem_nil
  obtain ⟨en, gate, count, carry, last, wrote⟩ := fields_disabled hr
  rw [same.get _ (none _)] at count last
  have all := (same.mono (List.forall_mem_nil _)).trans wrote
  generalize r.put (F.FL_LBSTAT_CARRY p) 0 = r at *
  subst ht
  refine ⟨en, gate, count, ?_, carry, last, fun o ho => ?_, Untouched_same (all.modPort_untouched p f) rfl rfl⟩
  · rw [port_modPass, port_modPort, wrote.port, h]
    rfl
  · rw [port_modPass, port_modPort_ne r f ho.symm, all.port]

end disable

/-! The fences, the mailbox and RESTART (R135, R137, R140). -/

section commands
variable {p : Nat} {s : State}

theorem fenceWrite_refused {k u : Nat} {v : Word} (en : bit v.toNat 31 = true) (order : bits v.toNat 14 14 < bits v.toNat 0 14) :
    fenceWrite u p k v s = refuse u (A.FL_FENCE p k) s := by
  unfold fenceWrite
  exact if_pos (by rw [en, decide_eq_true order]; rfl)

/-- A port whose queued checks of fenced and quarantined nodes are dropped (R122, R135). -/
def Port.pruned (s : State) (p : Nat) (q : Port) : Port := { q with checks := q.checks.filter (fun c => !fenced s p c.node && (nodeRec s p c.node).state != nsQuarantined) }

theorem pruneChecks_eq (p : Nat) (s : State) : pruneChecks p s = s.modPort p (Port.pruned s p) := rfl

/-- Fences and directory are no part of the ports. -/
theorem pruned_modPort (s : State) (p : Nat) (f : Port → Port) : Port.pruned (s.modPort p f) p = Port.pruned s p := by
  have dirs : SameDirectory p s (s.modPort p f) := ⟨rfl, rfl, rfl, rfl⟩
  have fences : ∀ n, fenced (s.modPort p f) p n = fenced s p n := fun n => List.any_congr rfl fun k => fenceHas_congr rfl n
  funext q
  unfold Port.pruned
  simp only [fences, dirs.nodeRec]

/-- A fence takes the word with REASON 0; the checks that it covers are dropped. -/
theorem fenceWrite_taken {k u : Nat} {v : Word} (ok : bit v.toNat 31 = false ∨ bits v.toNat 0 14 ≤ bits v.toNat 14 14) :
    fenceWrite u p k v s = pruneChecks p (s.setReg (A.FL_FENCE p k) (BitVec.ofNat 32 (setBits v.toNat 29 2 0))) := by
  unfold fenceWrite
  refine if_neg ?_
  rcases ok with e | e
  · rw [e]
    exact Bool.false_ne_true
  · rw [decide_eq_false (Nat.not_lt.mpr e), Bool.and_false]
    exact Bool.false_ne_true

theorem mailboxWrite_lost (h : s.get (F.FL_MBOX_STATE p) = 1) (v : Word) : mailboxWrite p v s = s.mark (F.FL_RSTAT_MBOX_LOST p) := if_pos h

theorem mailboxWrite_taken (h : s.get (F.FL_MBOX_STATE p) ≠ 1) (v : Word) : mailboxWrite p v s = s.setReg (A.FL_MBOX p) (BitVec.ofNat 32 (setBits v.toNat 30 2 1)) := if_neg h

theorem portRestart_free (h : s.flag (F.FL_RSTAT_HELD p) = false) : portRestart p s = s := if_pos (by rw [h]; rfl)

theorem portRestart_held {q : Port} (h : s.port p = some q) (held : s.flag (F.FL_RSTAT_HELD p) = true) :
    portRestart p s = if q.fltClear then releaseHeld p s else s.modPort p (fun q => { q with restart := true }) := by
  unfold portRestart
  rw [held, h]
  rfl

end commands

/-- Settles O21: an enabling and a disabling write EN through the port's engine, and each other command is one change of a register or of the port. -/
theorem portCommands : Obligations.PortCommands := by
  unfold Obligations.PortCommands
  refine ⟨fun u p q s _ h => ⟨fun acc off => ⟨fun bad => ?_, fun coupler dir hs hf hr hw hy stop run => ?_⟩, fun acc on hr => ?_⟩,
    fun u p v s => ⟨fun k acc => ⟨fun en order => ?_, fun ok => ?_⟩, fun acc => ⟨fun one => ?_, fun other => ?_⟩, fun w q h => ⟨fun free => ?_, fun held clear => ?_, fun held clear off => ?_⟩⟩⟩
  · obtain ⟨r, same, meaning⟩ := registerModify_enable acc off
    obtain ⟨c, d⟩ := same.enableChecks p
    have none : ∀ a, a ∉ ([] : List Nat) := fun _ => List.not_mem_nil
    have wrote := (same.mono (List.forall_mem_nil _)).trans (wrote_enableMarks p r)
    obtain ⟨cpl, ndir⟩ := flags_enableMarks p r
    obtain ⟨stat, rstat⟩ := regs_enableMarks p r
    rw [portEnable_fails (by rw [c, d]; exact bad)] at meaning
    rw [c, same.flag _ (none _)] at cpl
    rw [d, same.flag _ (none _)] at ndir
    rw [c, same.reg (none _)] at stat
    rw [d, same.reg (none _)] at rstat
    exact ⟨_, congrArg Host.Outcome.next meaning, cpl, ndir, stat, rstat, wrote.untouched, wrote.frame⟩
  · obtain ⟨r, same, meaning⟩ := registerModify_enable acc off
    obtain ⟨c, d⟩ := same.enableChecks p
    have none : ∀ a, a ∉ ([] : List Nat) := fun _ => List.not_mem_nil
    have ledg : r.ledg = s.ledg := same.same (·.ledg) rfl
    have dirs : SameDirectory p s r := .of_untouched (same.same (·.mem) rfl) ledg same.untouched (none _) (none _)
    have wrote := (same.mono (m := [A.FL_CTRL p]) (List.forall_mem_nil _)).mark (F.FL_CTRL_EN p) (.head _)
    rw [portEnable_atRest ((same.port p).trans h) (c.trans coupler) (d.trans dir) (dirs.switchNodes.trans hs) (by rw [ledg]; exact hf) hr hw hy stop
      ((same.flag _ (none _)).trans run) p.isLt] at meaning
    exact ⟨_, congrArg Host.Outcome.next meaning, flag_mark_self r (F.FL_CTRL_EN p) (show 0 + 1 ≤ 32 by decide) Nat.one_pos,
      (get_put_port r p 1 rfl).trans (same.get _ (none _)), wrote.untouched, wrote.frame⟩
  · obtain ⟨r, same, meaning⟩ := registerModify_disable acc on
    have port := (same.port p).trans h
    cases hx : q.xchg.isSome with
    | true =>
      exact ⟨_, congrArg Host.Outcome.next meaning, facts_disabled same port (.refl _ _) (portDisable_busy port hr hx)⟩
    | false =>
      exact ⟨_, congrArg Host.Outcome.next meaning,
        facts_disabled same port ((Wrote.refl _ _).put (F.FL_RSTAT_WALKING p) 0 (.head _)) (portDisable_free port hr hx)⟩
  · have addr : A.FL_FENCE p k < 2 ^ 32 := by unfold A.FL_FENCE; omega
    exact ⟨_, congrArg Host.Outcome.next ((registerWrite_fence acc).trans (fenceWrite_refused en order)), flag_refuse_self u.isLt addr, untouched_refuse u _ s, refuse_regs u _ s⟩
  · have wrote := (Wrote.refl [A.FL_FENCE p k] s).setReg (BitVec.ofNat 32 (setBits v.toNat 29 2 0)) (.head _)
    have meaning := (registerWrite_fence acc).trans (fenceWrite_taken ok)
    have set := reg_setReg_self s (A.FL_FENCE p k) (BitVec.ofNat 32 (setBits v.toNat 29 2 0))
    generalize s.setReg (A.FL_FENCE p k) (BitVec.ofNat 32 (setBits v.toNat 29 2 0)) = r at *
    rw [pruneChecks_eq] at meaning
    have pruned : (r.modPort p (Port.pruned r p)).ports = upd s.ports p (Port.pruned (r.modPort p (Port.pruned r p)) p) := by
      rw [pruned_modPort]
      exact congrArg (upd · p.val _) wrote.ports
    exact ⟨_, congrArg Host.Outcome.next meaning, (State.modPort_reg _ _ _ _).trans set, wrote.modPort_untouched p _, wrote.modPort_kept p _, pruned⟩
  · have wrote := (Wrote.refl [A.FL_RSTAT p] s).mark (F.FL_RSTAT_MBOX_LOST p) (.head _)
    exact ⟨_, congrArg Host.Outcome.next ((registerWrite_mailbox acc).trans (mailboxWrite_lost one v)),
      flag_mark_self s (F.FL_RSTAT_MBOX_LOST p) (show 5 + 1 ≤ 32 by decide) Nat.one_pos, wrote.untouched, wrote.frame⟩
  · have wrote := (Wrote.refl [A.FL_MBOX p] s).setReg (BitVec.ofNat 32 (setBits v.toNat 30 2 1)) (.head _)
    have state := get_setReg_self s (BitVec.ofNat 32 (setBits v.toNat 30 2 1)) (F.FL_MBOX_STATE p)
    rw [BitVec.toNat_ofNat, Nat.mod_eq_of_lt (setBits_lt _ 30 2 1 32 (by decide) v.isLt)] at state
    exact ⟨_, congrArg Host.Outcome.next ((registerWrite_mailbox acc).trans (mailboxWrite_taken other v)), reg_setReg_self s _ _,
      state.trans (bits_setBits_self v.toNat 30 2 1), wrote.untouched, wrote.frame⟩
  · exact ⟨s, congrArg Host.Outcome.next ((registerWrite_restart w).trans (portRestart_free free)), rfl⟩
  · refine ⟨_, congrArg Host.Outcome.next ((registerWrite_restart w).trans ((portRestart_held h held).trans (if_neg (ne_true_of_eq_false clear)))), rfl⟩
  · have wrote := (Wrote.refl [A.FL_RSTAT p] s).put (F.FL_RSTAT_HELD p) 0 (.head _)
    have meaning := ((registerWrite_restart w).trans ((portRestart_held h held).trans (if_pos clear))).trans (releaseHeld_disabled off)
    exact ⟨_, congrArg Host.Outcome.next meaning, flag_put_zero s (F.FL_RSTAT_HELD p) (show 0 + 1 ≤ 32 by decide), wrote.modPort_untouched p _,
      wrote.modPort_frame p _⟩

end Sys2Proof.Machine

/-!
PROOFS. Bursts on a field line: their classes, LOST fences, replies that become readings, empty windows and the quiet line (05, 06; R96, R107, R110, R111, R120, R135).
-/

namespace Sys2Proof.Machine

/-! A burst that can be classed. -/

theorem sd_of_decided {d : Heard} (h : d.decided = true) : d.sd.isSome = true := (Bool.and_eq_true_iff.mp h).1

/-- Where no edge passes the glitch filter there is no SD. -/
theorem edges_of_sd {g r : Nat} {b : Burst} (h : (decodeBurst g r b).sd.isSome = true) : (edges g b.runs).2 ≠ [] := by
  intro empty
  have silent : (decodeBurst g r b).sd = none := by
    unfold decodeBurst
    generalize edges g b.runs = e at empty
    obtain ⟨lead, runs⟩ := e
    obtain rfl : runs = [] := empty
    rfl
  rw [silent] at h
  exact Bool.false_ne_true h

/-- What a receiver makes of samples is in `t` as in `s`: the closedPorts rate, glitch filter, key and directory. -/
structure HeardAlike (p : Nat) (s t : State) : Prop where
  cpl  : t.reg (A.FL_CPL p) = s.reg (A.FL_CPL p)
  ctrl : t.reg (A.FL_CTRL p) = s.reg (A.FL_CTRL p)
  dirs : SameDirectory p s t
  key  : (t.port p).bind (·.key) = (s.port p).bind (·.key)

namespace HeardAlike
variable {p : Nat} {s t : State}

theorem glitchLen (h : HeardAlike p s t) : glitchLen t p = glitchLen s p := by
  unfold Machine.glitchLen
  rw [get_congr (F.FL_CPL_GLITCH p) h.cpl]

theorem rateNum (h : HeardAlike p s t) : rateNum t p = rateNum s p := by
  unfold Machine.rateNum
  rw [get_congr (F.FL_CTRL_RATE p) h.ctrl]

theorem heardBy (h : HeardAlike p s t) (b : Burst) : heardBy t p b = heardBy s p b := by
  unfold Machine.heardBy
  rw [h.glitchLen, h.rateNum]

theorem endsThere (h : HeardAlike p s t) {d : Heard} (ends : endsThere s p d) : endsThere t p d := by
  unfold Machine.endsThere
  rw [h.glitchLen]
  exact ends

theorem nodeKeyed (h : HeardAlike p s t) (n : Nat) : nodeKeyed t p n = nodeKeyed s p n := by
  unfold Machine.nodeKeyed
  rw [h.key]

theorem nodeKey (h : HeardAlike p s t) (n : Nat) : nodeKey t p n = nodeKey s p n := by
  unfold Machine.nodeKey
  rw [h.key, h.dirs.nodeRec]

theorem classOf (h : HeardAlike p s t) (fresh : Nat) (search : Bool) (d : Heard) : classOf t p fresh search d = classOf s p fresh search d := by
  unfold Machine.classOf
  simp only [h.nodeKeyed, h.nodeKey]

theorem inNodeWindow (h : HeardAlike p s t) (x : Exchange) (sd : Nat) : inNodeWindow t p x sd = inNodeWindow s p x sd := by
  unfold Machine.inNodeWindow bitsLe
  rw [get_congr (F.FL_CTRL_RATE p) h.ctrl]

/-- Registers that show and count what happens on the line, and what the port is besides its key, do not count. -/
theorem of_wrote {r : State} {q : Port} {f : Port → Port} (hp : p < 32) (h : s.port p = some q) (hw : Wrote (lineStatus p) s r) (hf : (f q).key = q.key) :
    HeardAlike p s (r.modPort p f) := by
  refine ⟨hw.reg (not_mem_lineStatus p (by decide)), hw.reg (not_mem_lineStatus p (by decide)), ?_, ?_⟩
  · exact .of_untouched (hw.same (·.mem) rfl) (hw.same (·.ledg) rfl) (hw.modPort_untouched p f)
      (far_lineStatus hp (.inr (by unfold A.ARB_MASK; omega))) (not_mem_lineStatus p (by decide))
  · rw [port_modPort, hw.port, h]
    exact hf

end HeardAlike

section burst
variable {p : Nat} {q : Port} {s : State}

/-! The class of the burst in hand. -/

/-- A receiver whose burst has ended (R107). -/
def Port.heardOut (q : Port) : Port := { q with rx := none }
/-- A receiver deaf until the line is quiet: a FOREIGN or MALFORMED burst goes on (R107). -/
def Port.deafened (q : Port) : Port := { q with rx := none, deaf := true }
/-- A receiver with the burst `b` in hand. -/
def Port.hearing (b : Burst) (q : Port) : Port := { q with rx := some b }

/-- The receiver once the last burst in hand has taken its class. -/
def classedLast (p : Nat) (c : RxClass) (s : State) : State :=
  if c = .foreign ∨ c = .malformed then s.modPort p Port.deafened else (s.put (F.FL_STAT_RX p) 0).modPort p Port.heardOut

/-- A burst that can be classed, with no edge after it, takes its class. -/
theorem classBursts_last {b : Burst} {c : RxClass} {t : State} (h : s.port p = some q) (rx : q.rx = some b) (dec : (heardBy s p b).decided = true)
    (ends : endsThere s p (heardBy s p b)) (take : takeBurst p q (heardBy s p b) s = (c, t)) (n : Nat) : classBursts (n + 1) p s = classedLast p c t := by
  have pending : classPending p s = (false, classedLast p c t) := by
    unfold classPending
    rw [h]
    dsimp only
    rw [rx]
    dsimp only
    rw [← heardBy, dec, take, if_neg (show ¬ (!true) = true from Bool.false_ne_true), classedLast]
    dsimp only
    by_cases hc : c = .foreign ∨ c = .malformed
    · rw [if_pos hc, if_pos hc]
      rfl
    · rw [if_neg hc, if_neg hc, if_pos (by rw [ends]; rfl)]
      rfl
  unfold classBursts
  rw [pending, if_neg Bool.false_ne_true]

/-- A burst that cannot be classed yet stays in hand. -/
theorem classBursts_undecided {b : Burst} (h : s.port p = some q) (rx : q.rx = some b) (dec : (heardBy s p b).decided = false) (n : Nat) : classBursts (n + 1) p s = s := by
  have pending : classPending p s = (false, s) := by
    unfold classPending
    rw [h]
    dsimp only
    rw [rx]
    dsimp only
    rw [← heardBy, dec, if_pos (show (!false) = true from rfl)]
  unfold classBursts
  rw [pending, if_neg Bool.false_ne_true]

/-- Samples that begin a burst (R96, R107). -/
theorem burstReceived_begins {b : Burst} (h : s.port p = some q) (stage : q.stage = .idle ∨ q.stage = .listening) (rx : q.rx = none) (deaf : q.deaf = false)
    (works : portWorks s p = true) (edge : (edges (glitchLen s p) b.runs).2 ≠ []) :
    burstReceived p b s = classBursts (b.runs.length + 1) p (((s.put (F.FL_STAT_QUIET p) 0).mark (F.FL_STAT_RX p)).modPort p (Port.hearing b)) := by
  have heardEdge : (edges (glitchLen s p) b.runs).2.isEmpty = false := by rw [List.isEmpty_eq_false_iff]; exact edge
  have hears : (!portWorks s p || !(decide (q.stage = .idle) || decide (q.stage = .listening)) || q.deaf) = false := by
    rw [works, deaf]
    rcases stage with e | e <;> rw [e] <;> rfl
  unfold burstReceived
  rw [h]
  dsimp only
  rw [hears, rx, if_neg Bool.false_ne_true]
  dsimp only
  rw [heardEdge, if_neg Bool.false_ne_true]
  rfl

/-- Samples that a receiver ignores (R107). -/
theorem burstReceived_ignored {b : Burst} (h : s.port p = some q) (stage : q.stage = .sending ∨ q.stage = .lag ∨ q.stage = .blank ∨ q.deaf = true) : burstReceived p b s = s := by
  unfold burstReceived
  rw [h]
  refine if_pos ?_
  rcases stage with e | e | e | e <;> simp [e]

/-! A burst in no window (R119, R135). -/

/-- The counter of a class (R107). -/
def classField (p : Nat) : RxClass → Fd
  | .noise => F.FL_CNT_LINE_NOISE p
  | .foreign => F.FL_CNT_CLS_FOREIGN p
  | .malformed => F.FL_CNT_CLS_MALFORMED p
  | .crcBad => F.FL_CNT_ERR_CRC_BAD p
  | .macBad => F.FL_CNT_ERR_MAC_BAD p
  | .good => F.FL_CNT_GOOD_GOOD p

theorem countClass_eq (p : Nat) (c : RxClass) (s : State) : countClass p c s = s.incSat (classField p c) := by cases c <;> rfl

/-- A burst without an exchange on an enabled port: counted, out of every window, and the port goes on. -/
theorem takeBurst_stray {d : Heard} {c : RxClass} (hx : q.xchg = none) (en : s.flag (F.FL_CTRL_EN p) = true) (sd : d.sd.isSome = true)
    (cls : classOf s p (s.get (F.FL_FRESH_FRESH p)) false d = c) (noise : c ≠ .noise) (foreign : c ≠ .foreign) :
    takeBurst p q d s = (c, proceed p (outOfWindow p c (burstReply d s.pm).node (s.incSat (classField p c)))) := by
  unfold takeBurst
  rw [hx]
  dsimp only [Option.map_none, Option.getD_none, Option.isNone_none]
  rw [cls, en, countClass_eq, sd, if_neg (show ¬ (true && !true) = true by decide), if_pos rfl, if_pos rfl]
  cases c with
  | noise => exact absurd rfl noise
  | foreign => exact absurd rfl foreign
  | _ => rfl

/-- A burst out of every window: its class and LATE counted. -/
def counted (p : Nat) (c : RxClass) (s : State) : State := (s.incSat (classField p c)).incSat (F.FL_CNT_DROP_LATE p)

theorem outOfWindow_counted (p : Nat) (c : RxClass) (n : Nat) (s : State) :
    outOfWindow p c n (s.incSat (classField p c)) = if c = .good then fenceReturn p n (counted p c s) else counted p c s := rfl

theorem counted_modPort (p : Nat) (c : RxClass) (s : State) (f : Port → Port) : counted p c (s.modPort p f) = (counted p c s).modPort p f := by
  unfold counted
  rw [modPort_incSat, modPort_incSat]

/-- The counter of a class lies apart from FL_STAT and FL_CNT_DROP. -/
theorem classField_place (p : Nat) (c : RxClass) : (classField p c).lo + (classField p c).w ≤ 32 ∧ (classField p c).addr ∈ lineStatus p ∧
    (classField p c).addr ≠ A.FL_STAT p ∧ (classField p c).addr ≠ A.FL_CNT_DROP p := by
  cases c <;> exact ⟨by simp [classField, F.FL_CNT_LINE_NOISE, F.FL_CNT_CLS_FOREIGN, F.FL_CNT_CLS_MALFORMED, F.FL_CNT_ERR_CRC_BAD, F.FL_CNT_ERR_MAC_BAD, F.FL_CNT_GOOD_GOOD],
    mem_lineStatus p (by decide), fun e => absurd (Nat.add_right_cancel e) (by decide), fun e => absurd (Nat.add_right_cancel e) (by decide)⟩

theorem fields_counted (p : Nat) (c : RxClass) (s : State) :
    (counted p c s).get (classField p c) = satTo (2 ^ (classField p c).w - 1) (s.get (classField p c) + 1) ∧
      (counted p c s).get (F.FL_CNT_DROP_LATE p) = satTo 0xFFFF (s.get (F.FL_CNT_DROP_LATE p) + 1) ∧ Wrote [(classField p c).addr, A.FL_CNT_DROP p] s (counted p c s) := by
  obtain ⟨fits, -, -, drop⟩ := classField_place p c
  have late : (F.FL_CNT_DROP_LATE p).lo + (F.FL_CNT_DROP_LATE p).w ≤ 32 := by simp [F.FL_CNT_DROP_LATE]
  refine ⟨(get_incSat_other _ _ _ _ late (.inl drop.symm)).trans (get_incSat_self s _ 1 fits), (get_incSat_self _ _ 1 late).trans ?_, ?_⟩
  · rw [get_incSat_other s _ _ _ fits (.inl drop)]
    rfl
  · exact ((Wrote.refl _ s).incSat _ _ (.head _)).incSat (F.FL_CNT_DROP_LATE p) _ (.tail _ (.head _))

theorem foldl_stays {α β : Type} {f : β → α → β} {b : β} {l : List α} (h : ∀ a ∈ l, f b a = b) : l.foldl f b = b := by
  induction l with
  | nil => rfl
  | cons a l ih => rw [List.foldl_cons, h a (.head _), ih fun x hx => h x (.tail _ hx)]

/-- One element of a list moves the fold, before which and after which all others leave it. -/
theorem foldl_once {α β : Type} {f : β → α → β} {b c : β} {l : List α} {x : α} (hl : l.Nodup) (hx : x ∈ l) (before : ∀ a ∈ l, a ≠ x → f b a = b) (move : f b x = c)
    (after : ∀ a ∈ l, a ≠ x → f c a = c) : l.foldl f b = c := by
  induction l with
  | nil => cases hx
  | cons a l ih =>
    obtain ⟨fresh, nodup⟩ := List.nodup_cons.mp hl
    by_cases e : a = x
    · subst e
      rw [List.foldl_cons, move]
      exact foldl_stays fun y hy => after y (.tail _ hy) (by rintro rfl; exact fresh hy)
    · rw [List.foldl_cons, before a (.head _) e]
      exact ih nodup ((List.mem_cons.mp hx).resolve_left (Ne.symm e)) (fun y hy => before y (.tail _ hy)) (fun y hy => after y (.tail _ hy))

theorem told_modPort (s : State) (p : Nat) (f : Port → Port) (r : List Byte) : (s.modPort p f).told r = (s.told r).modPort p f := rfl
theorem told_put (s : State) (r : List Byte) (g : Fd) (v : Nat) : (s.told r).put g v = (s.put g v).told r := rfl
theorem get_toldPort (s : State) (r : List Byte) (p : Nat) (f : Port → Port) (g : Fd) : ((s.told r).modPort p f).get g = s.get g := rfl
theorem flag_toldPort (s : State) (r : List Byte) (p : Nat) (f : Port → Port) (g : Fd) : ((s.told r).modPort p f).flag g = s.flag g := rfl
theorem untouched_toldPort {s t : State} {l : List Nat} (h : Untouched s t l) (r : List Byte) (p : Nat) (f : Port → Port) : Untouched s ((t.told r).modPort p f) l := h
theorem told_toldPort {s t : State} (h : t.cores = s.cores) (r : List Byte) (p : Nat) (f : Port → Port) : Told s ((t.told r).modPort p f) r :=
  congrArg (fun l => upd l 0 (fun k : Core => { k with queue := k.queue ++ [r] })) h
theorem ports_told (s : State) (r : List Byte) : (s.told r).ports = s.ports := rfl
theorem reg_told (s : State) (r : List Byte) (a : Nat) : (s.told r).reg a = s.reg a := rfl

/-- FENCE `k` is a LOST fence before node `n` (R135). -/
def lostBefore (s : State) (p n k : Nat) : Bool := fenceHas s p k n && s.get (F.FL_FENCE_REASON p k) == 3

theorem lostBefore_congr {t : State} {k : Nat} (h : t.reg (A.FL_FENCE p k) = s.reg (A.FL_FENCE p k)) (n : Nat) : lostBefore t p n k = lostBefore s p n k := by
  unfold lostBefore
  rw [fenceHas_congr h, get_congr (F.FL_FENCE_REASON p k) h]

/-- What a GOOD burst from node `n` does to FENCE `k`. -/
def fenceStep (p n : Nat) (s : State) (k : Nat) : State := if lostBefore s p n k then nodeEvent p 0x35 n (s.put (F.FL_FENCE_EN p k) 0) else s

theorem fenceReturn_eq (p n : Nat) (s : State) : fenceReturn p n s = (List.range 8).foldl (fenceStep p n) s := rfl

theorem fenceStep_stays {n k : Nat} (h : lostBefore s p n k = false) : fenceStep p n s k = s := if_neg (ne_true_of_eq_false h)

theorem fenceStep_lost {n k : Nat} (h : lostBefore s p n k = true) : fenceStep p n s k = nodeEvent p 0x35 n (s.put (F.FL_FENCE_EN p k) 0) := if_pos h

theorem fenceReturn_none {n : Nat} (h : ∀ k, k < 8 → lostBefore s p n k = false) : fenceReturn p n s = s :=
  (fenceReturn_eq p n s).trans (foldl_stays fun k hk => fenceStep_stays (h k (List.mem_range.mp hk)))

/-- The one LOST fence before a node is disabled, and the postmaster told (R135). -/
theorem fenceReturn_one {n f : Nat} {k : Core} (hp : p < 32) (hk : Listens s k) (hf : f < 8) (h : ∀ g, g < 8 → (lostBefore s p n g = true ↔ g = f)) :
    fenceReturn p n s = (s.put (F.FL_FENCE_EN p f) 0).told (mkRecord s.pm s.devId 0x7FFFFF 0x35 0 n 0 (0x41 + p) 0) := by
  have wrote := (Wrote.refl [A.FL_FENCE p f] s).put (F.FL_FENCE_EN p f) 0 (.head _)
  have others : ∀ g, g < 8 → g ≠ f → lostBefore s p n g = false := fun g hg hne => Bool.eq_false_iff.mpr fun e => hne ((h g hg).mp e)
  have far : ∀ a, a < 0x10041000 ∨ 0x10061000 ≤ a → a ∉ [A.FL_FENCE p f] := by
    intro a ha
    rw [List.mem_singleton]
    unfold A.FL_FENCE
    omega
  have listens := wrote.listens hk (far _ (by decide)) (far _ (by decide))
  have after : ∀ g, g ≠ f → (s.put (F.FL_FENCE_EN p f) 0).reg (A.FL_FENCE p g) = s.reg (A.FL_FENCE p g) := by
    intro g hne
    refine wrote.reg ?_
    rw [List.mem_singleton]
    unfold A.FL_FENCE
    omega
  have step := fenceStep_lost ((h f hf).mpr rfl)
  generalize s.put (F.FL_FENCE_EN p f) 0 = r at *
  have time := wrote.pm
  have dev : r.devId = s.devId := wrote.get F.CAS_ID_ID (far _ (by decide))
  rw [nodeEvent_listens listens, time, dev] at step
  rw [fenceReturn_eq]
  refine foldl_once List.nodup_range (List.mem_range.mpr hf) (fun g hg hne => ?_) step (fun g hg hne => ?_)
  · exact fenceStep_stays (others g (List.mem_range.mp hg) hne)
  · exact fenceStep_stays ((lostBefore_congr ((reg_told _ _ _).trans (after g hne)) n).trans (others g (List.mem_range.mp hg) hne))

/-! The receiver at the end of such a burst. -/

/-- FL_STAT.RX stays while a FOREIGN or MALFORMED burst goes on. -/
def closeRx (p : Nat) (c : RxClass) (s : State) : State := if c = .foreign ∨ c = .malformed then s else s.put (F.FL_STAT_RX p) 0

/-- So does the receiver's deafness. -/
def Port.closed (c : RxClass) (q : Port) : Port := if c = .foreign ∨ c = .malformed then q.deafened else q.heardOut

theorem classedLast_modPort (p : Nat) (c : RxClass) (s : State) (f : Port → Port) : classedLast p c (s.modPort p f) = (closeRx p c s).modPort p (Port.closed c ∘ f) := by
  have port : Port.closed c = if c = .foreign ∨ c = .malformed then Port.deafened else Port.heardOut := by
    funext q
    unfold Port.closed
    split <;> rfl
  unfold classedLast closeRx
  rw [port]
  by_cases hc : c = .foreign ∨ c = .malformed
  · rw [if_pos hc, if_pos hc, if_pos hc, modPort_comp]
  · rw [if_neg hc, if_neg hc, if_neg hc, modPort_put, modPort_comp]

theorem Wrote.closeRx {l : List Nat} {t : State} (h : Wrote l s t) (c : RxClass) (ha : A.FL_STAT p ∈ l) : Wrote l s (closeRx p c t) := by
  unfold Machine.closeRx
  split
  · exact h
  · exact h.put (F.FL_STAT_RX p) 0 ha

/-- A receiver that has heard a burst to its end is as before, but deaf while a MALFORMED one goes on. -/
theorem closed_hearing {c : RxClass} (rx : q.rx = none) (deaf : q.deaf = false) (foreign : c ≠ .foreign) (b : Burst) :
    (Port.closed c ∘ Port.hearing b) q = { q with deaf := decide (c = .malformed) } := by
  unfold Function.comp Port.closed
  by_cases hc : c = .malformed
  · rw [if_pos (.inr hc), decide_eq_true hc, rx]
    rfl
  · rw [if_neg (by rintro (e | e); exacts [foreign e, hc e]), decide_eq_false hc, rx, ← deaf]
    rfl

/-! Its taking. -/

/-- The port goes on with nothing. -/
theorem proceed_hearing (h : s.port p = some q) (hr : q.round = none) (hw : q.want = []) (hy : q.yieldDue = false) {x : State} (same : x.ports = s.ports) (b : Burst) : proceed p (x.modPort p (Port.hearing b)) = x.modPort p (Port.hearing b) := by
  have port : (x.modPort p (Port.hearing b)).port p = some (q.hearing b) := by
    rw [port_modPort, State.port, same, ← State.port, h]
    rfl
  exact proceed_atRest port hr hw hy

theorem wrote_strayed {r : State} (wrote : Wrote [A.FL_STAT p] s r) (c : RxClass) : Wrote (lineStatus p) s (counted p c r) := by
  obtain ⟨-, place, -, -⟩ := classField_place p c
  refine (wrote.mono fun a ha => ?_).trans ((fields_counted p c r).2.2.mono fun a ha => ?_)
  · rw [List.mem_singleton.mp ha]
    exact mem_lineStatus p (by decide)
  · rcases List.mem_cons.mp ha with rfl | ha
    · exact place
    · rw [List.mem_singleton.mp ha]
      exact mem_lineStatus p (by decide)

section stray
variable {c : RxClass} {d : Heard} {r : State} (hp : p < 32) (h : s.port p = some q) (hx : q.xchg = none) (hr : q.round = none) (hw : q.want = []) (hy : q.yieldDue = false)
  (en : s.flag (F.FL_CTRL_EN p) = true) (sd : d.sd.isSome = true) (cls : classOf s p (s.get (F.FL_FRESH_FRESH p)) false d = c) (noise : c ≠ .noise) (foreign : c ≠ .foreign)
  (wrote : Wrote [A.FL_STAT p] s r)
include hp h hx en sd cls noise foreign wrote

theorem takeBurst_hearing (b : Burst) : takeBurst p (q.hearing b) d (r.modPort p (Port.hearing b)) =
    (c, proceed p (if c = .good then fenceReturn p (burstReply d s.pm).node ((counted p c r).modPort p (Port.hearing b)) else (counted p c r).modPort p (Port.hearing b))) := by
  have alike := HeardAlike.of_wrote (f := Port.hearing b) hp h (wrote.mono (fun a ha => by rw [List.mem_singleton.mp ha]; exact mem_lineStatus p (by decide))) rfl
  have fresh : (r.modPort p (Port.hearing b)).get (F.FL_FRESH_FRESH p) = s.get (F.FL_FRESH_FRESH p) := wrote.get (F.FL_FRESH_FRESH p) (by simp [F.FL_FRESH_FRESH])
  have on : (r.modPort p (Port.hearing b)).flag (F.FL_CTRL_EN p) = true := (wrote.flag (F.FL_CTRL_EN p) (by simp [F.FL_CTRL_EN])).trans en
  have same : classOf (r.modPort p (Port.hearing b)) p ((r.modPort p (Port.hearing b)).get (F.FL_FRESH_FRESH p)) false d = c := by
    rw [fresh, alike.classOf, cls]
  have pm : (r.modPort p (Port.hearing b)).pm = s.pm := wrote.pm
  rw [takeBurst_stray (q := q.hearing b) hx on sd same noise foreign, pm, outOfWindow_counted, counted_modPort]

include hr hw hy

/-- A burst with no LOST fence before its node. -/
theorem takeBurst_counted (lost : c = .good → ∀ k, k < 8 → lostBefore s p (burstReply d s.pm).node k = false) (b : Burst) :
    takeBurst p (q.hearing b) d (r.modPort p (Port.hearing b)) = (c, (counted p c r).modPort p (Port.hearing b)) := by
  have strayed := wrote_strayed wrote c
  have rests := takeBurst_hearing hp h hx en sd cls noise foreign wrote b
  generalize counted p c r = x at *
  have stays : (if c = .good then fenceReturn p (burstReply d s.pm).node (x.modPort p (Port.hearing b)) else x.modPort p (Port.hearing b)) = x.modPort p (Port.hearing b) := by
    split
    · next good => exact fenceReturn_none fun k hk => (lostBefore_congr (strayed.reg (fence_lineStatus p k)) _).trans (lost good k hk)
    · rfl
  rw [rests, stays, proceed_hearing h hr hw hy strayed.ports b]

/-- A GOOD burst with one LOST fence before its node. -/
theorem takeBurst_returned {f : Nat} {k : Core} (good : c = .good) (hk : Listens s k) (hf : f < 8)
    (one : ∀ g, g < 8 → (lostBefore s p (burstReply d s.pm).node g = true ↔ g = f)) (b : Burst) : takeBurst p (q.hearing b) d (r.modPort p (Port.hearing b)) =
      (c, ((((counted p c r).put (F.FL_FENCE_EN p f) 0).told
        (mkRecord s.pm s.devId 0x7FFFFF 0x35 0 (burstReply d s.pm).node 0 (0x41 + p) 0)).modPort p (Port.hearing b))) := by
  have strayed := wrote_strayed wrote c
  have rests := takeBurst_hearing hp h hx en sd cls noise foreign wrote b
  generalize counted p c r = x at *
  have listens := (strayed.listens hk (far_lineStatus hp (by decide)) (far_lineStatus hp (by decide))).modPort p (Port.hearing b)
  have lost : ∀ g, g < 8 → (lostBefore (x.modPort p (Port.hearing b)) p (burstReply d s.pm).node g = true ↔ g = f) := by
    intro g hg
    exact (lostBefore_congr (t := x.modPort p (Port.hearing b)) (strayed.reg (fence_lineStatus p g)) (burstReply d s.pm).node) ▸ one g hg
  have returns := fenceReturn_one hp listens hf lost
  have time : (x.modPort p (Port.hearing b)).pm = s.pm := strayed.pm
  have dev : (x.modPort p (Port.hearing b)).devId = s.devId := strayed.get F.CAS_ID_ID (far_lineStatus hp (by decide))
  rw [time, dev, modPort_put, told_modPort] at returns
  have fence := (Wrote.refl [A.FL_FENCE p f] x).put (F.FL_FENCE_EN p f) 0 (.head _)
  rw [rests, if_pos good, returns, proceed_hearing h hr hw hy ((ports_told (x.put (F.FL_FENCE_EN p f) 0) _).trans (fence.ports.trans strayed.ports)) b]

end stray

/-! Its counters, once the receiver closes. -/

/-- The registers written by a burst in no window. -/
abbrev strayWrites (p : Nat) (c : RxClass) : List Nat := [(classField p c).addr, A.FL_CNT_DROP p, A.FL_STAT p]

theorem fields_closed (c : RxClass) {r : State} (wrote : Wrote [A.FL_STAT p] s r) :
    (closeRx p c (counted p c r)).get (classField p c) = satTo (2 ^ (classField p c).w - 1) (s.get (classField p c) + 1) ∧
      (closeRx p c (counted p c r)).get (F.FL_CNT_DROP_LATE p) = satTo 0xFFFF (s.get (F.FL_CNT_DROP_LATE p) + 1) ∧
      (closeRx p c (counted p c r)).flag (F.FL_STAT_QUIET p) = r.flag (F.FL_STAT_QUIET p) ∧
      (closeRx p c (counted p c r)).flag (F.FL_STAT_RX p) = (decide (c = .foreign ∨ c = .malformed) && r.flag (F.FL_STAT_RX p)) ∧
      Wrote (strayWrites p c) s (closeRx p c (counted p c r)) := by
  obtain ⟨-, -, stat, -⟩ := classField_place p c
  obtain ⟨own, late, counts⟩ := fields_counted p c r
  have statKept : A.FL_STAT p ∉ [(classField p c).addr, A.FL_CNT_DROP p] := by simp [stat.symm]
  have quiet := counts.flag (F.FL_STAT_QUIET p) statKept
  have rx := counts.flag (F.FL_STAT_RX p) statKept
  rw [wrote.get (classField p c) (by simp [stat])] at own
  rw [wrote.get (F.FL_CNT_DROP_LATE p) (by simp [F.FL_CNT_DROP_LATE])] at late
  have all := (wrote.mono (m := strayWrites p c) (by simp)).trans (counts.mono (by simp))
  generalize counted p c r = x at *
  have shut := (Wrote.refl [A.FL_STAT p] x).closeRx (p := p) c (.head _)
  refine ⟨(shut.get _ (by simp [stat])).trans own, (shut.get _ (by simp [F.FL_CNT_DROP_LATE])).trans late, ?_, ?_, all.closeRx c (by simp)⟩
  · unfold closeRx
    split
    · exact quiet
    · exact (flag_put_port x p 0 rfl).trans quiet
  · unfold closeRx
    split
    · next hc => rw [decide_eq_true hc, rx, Bool.true_and]
    · next hc => rw [decide_eq_false hc, Bool.false_and, flag_put_zero x (F.FL_STAT_RX p) (show 1 + 1 ≤ 32 by decide)]

/-- FL_STAT once a burst begins. -/
def begunRegs (p : Nat) (s : State) : State := (s.put (F.FL_STAT_QUIET p) 0).mark (F.FL_STAT_RX p)

theorem wrote_begunRegs (p : Nat) (s : State) : Wrote [A.FL_STAT p] s (begunRegs p s) := ((Wrote.refl _ s).put (F.FL_STAT_QUIET p) 0 (.head _)).mark (F.FL_STAT_RX p) (.head _)

theorem flags_begunRegs (p : Nat) (s : State) : (begunRegs p s).flag (F.FL_STAT_QUIET p) = false ∧ (begunRegs p s).flag (F.FL_STAT_RX p) = true :=
  ⟨(flag_put_port _ p _ rfl).trans (flag_put_zero s (F.FL_STAT_QUIET p) (show 2 + 1 ≤ 32 by decide)), flag_mark_self _ (F.FL_STAT_RX p) (show 1 + 1 ≤ 32 by decide) Nat.one_pos⟩

/-- The registers once the LOST fence `f` is disabled (R135). -/
theorem fields_returned {r : State} (wrote : Wrote [A.FL_STAT p] s r) (f : Nat) :
    let t := ((counted p .good r).put (F.FL_FENCE_EN p f) 0).put (F.FL_STAT_RX p) 0
    t.flag (F.FL_FENCE_EN p f) = false ∧ t.get (F.FL_FENCE_LO p f) = s.get (F.FL_FENCE_LO p f) ∧ t.get (F.FL_FENCE_HI p f) = s.get (F.FL_FENCE_HI p f) ∧
      Wrote [A.FL_FENCE p f, A.FL_CNT_GOOD p, A.FL_CNT_DROP p, A.FL_STAT p] s t := by
  have strayed := wrote_strayed wrote .good
  have fence := fence_lineStatus p f
  have lo := strayed.get (F.FL_FENCE_LO p f) fence
  have hi := strayed.get (F.FL_FENCE_HI p f) fence
  have stat : A.FL_FENCE p f ∉ [A.FL_STAT p] := fun hm => fence (List.mem_singleton.mp hm ▸ mem_lineStatus p (by decide))
  have counts := (wrote.mono (m := [A.FL_FENCE p f, A.FL_CNT_GOOD p, A.FL_CNT_DROP p, A.FL_STAT p]) (by simp)).trans
    ((fields_counted p .good r).2.2.mono (by simp [classField, F.FL_CNT_GOOD_GOOD]))
  generalize counted p .good r = x at *
  have off := flag_put_zero x (F.FL_FENCE_EN p f) (show 31 + 1 ≤ 32 by decide)
  have low := get_put_other x (F.FL_FENCE_EN p f) (F.FL_FENCE_LO p f) 0 (show 31 + 1 ≤ 32 by decide) (.inr (.inr (show 0 + 14 ≤ 31 by decide)))
  have high := get_put_other x (F.FL_FENCE_EN p f) (F.FL_FENCE_HI p f) 0 (show 31 + 1 ≤ 32 by decide) (.inr (.inr (show 14 + 14 ≤ 31 by decide)))
  have all := counts.put (F.FL_FENCE_EN p f) 0 (.head _)
  generalize x.put (F.FL_FENCE_EN p f) 0 = y at *
  have shut := (Wrote.refl [A.FL_STAT p] y).put (F.FL_STAT_RX p) 0 (.head _)
  exact ⟨(shut.flag (F.FL_FENCE_EN p f) stat).trans off, (shut.get (F.FL_FENCE_LO p f) stat).trans (low.trans lo), (shut.get (F.FL_FENCE_HI p f) stat).trans (high.trans hi),
    all.trans (shut.mono (by simp))⟩

/-- Samples that begin a burst which can be classed and ends with them. -/
theorem burstReceived_takes {b : Burst} {c : RxClass} {t : State} (hp : p < 32) (h : s.port p = some q) (stage : q.stage = .idle ∨ q.stage = .listening) (rx : q.rx = none)
    (deaf : q.deaf = false) (works : portWorks s p = true) (dec : (heardBy s p b).decided = true) (ends : endsThere s p (heardBy s p b))
    (take : takeBurst p (q.hearing b) (heardBy s p b) ((begunRegs p s).modPort p (Port.hearing b)) = (c, t)) : burstReceived p b s = classedLast p c t := by
  have wrote := wrote_begunRegs p s
  have alike := HeardAlike.of_wrote (f := Port.hearing b) hp h (wrote.mono (fun a ha => by rw [List.mem_singleton.mp ha]; exact mem_lineStatus p (by decide))) rfl
  have begins := burstReceived_begins h stage rx deaf works (edges_of_sd (sd_of_decided dec))
  rw [← begunRegs] at begins
  have port : ((begunRegs p s).modPort p (Port.hearing b)).port p = some (q.hearing b) := by
    rw [port_modPort, wrote.port, h]
    rfl
  generalize (begunRegs p s).modPort p (Port.hearing b) = x at *
  rw [← alike.heardBy] at dec take
  exact begins.trans (classBursts_last port rfl dec (alike.heardBy b ▸ alike.endsThere ends) take b.runs.length)

/-! The quiet line (R96, R107). -/

/-- A receiver that looks for the next preamble. -/
def Port.freed (q : Port) : Port := { q with rx := none, deaf := false }

/-- FL_STAT on a quiet line. -/
def quietRegs (p : Nat) (s : State) : State := (s.mark (F.FL_STAT_QUIET p)).put (F.FL_STAT_RX p) 0

theorem wrote_quietRegs (p : Nat) (s : State) : Wrote [A.FL_STAT p] s (quietRegs p s) := ((Wrote.refl _ s).mark (F.FL_STAT_QUIET p) (.head _)).put (F.FL_STAT_RX p) 0 (.head _)

theorem flags_quietRegs (p : Nat) (s : State) : (quietRegs p s).flag (F.FL_STAT_QUIET p) = true ∧ (quietRegs p s).flag (F.FL_STAT_RX p) = false :=
  ⟨(flag_put_port _ p _ rfl).trans (flag_mark_self s (F.FL_STAT_QUIET p) (show 2 + 1 ≤ 32 by decide) Nat.one_pos), flag_put_zero _ (F.FL_STAT_RX p) (show 1 + 1 ≤ 32 by decide)⟩

/-- A burst that is broken off. -/
def Heard.broken (d : Heard) : Heard := { d with fin := .broken }

/-- What is left in hand is broken off where the line falls quiet. -/
def quietTaken (p : Nat) (s : State) : State :=
  match s.port p with
  | none => s
  | some q => match q.rx with
    | none => s
    | some b => (takeBurst p q (heardBy s p b).broken s).2

theorem lineQuiet_eq (p : Nat) (s : State) : lineQuiet p s = (quietRegs p (quietTaken p (quietEnds p s))).modPort p Port.freed := rfl

theorem quietTaken_none (h : s.port p = some q) (rx : q.rx = none) : quietTaken p s = s := by
  unfold quietTaken
  rw [h]
  dsimp only
  rw [rx]

theorem quietTaken_some {b : Burst} (h : s.port p = some q) (rx : q.rx = some b) : quietTaken p s = (takeBurst p q (heardBy s p b).broken s).2 := by
  unfold quietTaken
  rw [h]
  dsimp only
  rw [rx]

theorem quietEnds_none (h : s.port p = some q) (rx : q.rx = none) : quietEnds p s = s := by
  unfold quietEnds
  rw [h, Option.bind_some, rx]

/-- The burst `b` as the quiet line ends it. -/
def quietBurst (s : State) (p : Nat) (b : Burst) : Burst := { b with runs := quietRuns (rateNum s p) b.runs }

theorem quietEnds_some {b : Burst} (h : s.port p = some q) (rx : q.rx = some b) :
    quietEnds p s = classBursts (b.runs.length + 1 + 1) p (s.modPort p (Port.hearing (quietBurst s p b))) := by
  unfold quietEnds
  rw [h, Option.bind_some, rx]
  rfl

/-- A stranger of a class that is pending is told of no more (R131). -/
theorem stranger_pending {c : Nat} (h1 : c ≠ 1) (h3 : c ≠ 3) (pend : bit (s.get (F.FL_STR_PEND_PEND p)) (c - 1) = true) (node data : Nat) : stranger p c node data s = s := by
  unfold stranger
  rw [if_neg h1, if_neg h3]
  exact if_pos pend

/-- A burst without an SD is NOISE: counted, and ENERGY told of before (R131, R134). -/
theorem takeBurst_noise {d : Heard} (h : s.port p = some q) (hx : q.xchg = none) (hr : q.round = none) (hw : q.want = []) (hy : q.yieldDue = false)
    (en : s.flag (F.FL_CTRL_EN p) = true) (sd : d.sd = none) (pend : bit (s.get (F.FL_STR_PEND_PEND p)) 4 = true) (lim : 0 < s.get (F.FL_STRCFG_NOISE_LIM p)) :
    takeBurst p q d s = (.noise, s.incSat (F.FL_CNT_LINE_NOISE p)) := by
  have cls : ∀ fresh search, classOf s p fresh search d = .noise := fun _ _ => by unfold classOf; rw [sd]
  have port : (s.incSat (F.FL_CNT_LINE_NOISE p)).port p = some q := by rw [port_incSat, h]
  have told : bit ((s.incSat (F.FL_CNT_LINE_NOISE p)).get (F.FL_STR_PEND_PEND p)) 4 = true := by
    rw [show (s.incSat (F.FL_CNT_LINE_NOISE p)).get (F.FL_STR_PEND_PEND p) = s.get (F.FL_STR_PEND_PEND p) from get_put_port s p _ rfl, pend]
  unfold takeBurst
  rw [hx]
  dsimp only [Option.map_none, Option.getD_none, Option.isNone_none]
  rw [cls, en, countClass_eq, classField, sd]
  generalize s.incSat (F.FL_CNT_LINE_NOISE p) = x at *
  have energy : energyStranger p x = x := stranger_pending (by decide) (by decide) told _ _
  dsimp only
  rw [modRound_none port hr, energy, round_eq port, hr, Option.map_none, Option.getD_none, if_neg (show ¬ (true && !true) = true by decide), if_neg (Nat.not_le.mpr lim)]
  exact congrArg (Prod.mk RxClass.noise) (proceed_atRest port hr hw hy)

theorem quietRegs_modPort (p : Nat) (s : State) (f : Port → Port) : quietRegs p (s.modPort p f) = (quietRegs p s).modPort p f := by
  unfold quietRegs
  rw [modPort_mark, modPort_put]

theorem lineQuiet_silent (h : s.port p = some q) (rx : q.rx = none) : lineQuiet p s = (quietRegs p s).modPort p Port.freed := by
  rw [lineQuiet_eq, quietEnds_none h rx, quietTaken_none h rx]

section ended
variable {b : Burst} (hp : p < 32) (h : s.port p = some q) (rx : q.rx = some b) (hx : q.xchg = none) (hr : q.round = none) (hw : q.want = []) (hy : q.yieldDue = false)
  (en : s.flag (F.FL_CTRL_EN p) = true)
include hp h rx hx hr hw hy en

/-- The quiet line makes NOISE of a burst without an SD. -/
theorem lineQuiet_noise (sd : (heardBy s p (quietBurst s p b)).sd = none) (pend : bit (s.get (F.FL_STR_PEND_PEND p)) 4 = true) (lim : 0 < s.get (F.FL_STRCFG_NOISE_LIM p)) :
    lineQuiet p s = (quietRegs p (s.incSat (F.FL_CNT_LINE_NOISE p))).modPort p Port.freed := by
  have alike := HeardAlike.of_wrote (f := Port.hearing (quietBurst s p b)) hp h (.refl _ s) rfl
  have port : (s.modPort p (Port.hearing (quietBurst s p b))).port p = some (q.hearing (quietBurst s p b)) := by
    rw [port_modPort, h]
    rfl
  have silent := sd
  rw [← alike.heardBy] at silent
  have undecided : (heardBy (s.modPort p (Port.hearing (quietBurst s p b))) p (quietBurst s p b)).decided = false := by
    unfold Heard.decided
    rw [silent]
    rfl
  rw [lineQuiet_eq, quietEnds_some h rx, classBursts_undecided port rfl undecided, quietTaken_some port rfl,
    takeBurst_noise (q := q.hearing (quietBurst s p b)) (d := (heardBy _ p (quietBurst s p b)).broken) port hx hr hw hy en silent pend lim, modPort_incSat, quietRegs_modPort, modPort_comp]
  rfl

/-- The quiet line ends a burst that can be classed, in no window. -/
theorem lineQuiet_classed {c : RxClass} (dec : (heardBy s p (quietBurst s p b)).decided = true) (ends : endsThere s p (heardBy s p (quietBurst s p b)))
    (cls : classOf s p (s.get (F.FL_FRESH_FRESH p)) false (heardBy s p (quietBurst s p b)) = c) (noise : c ≠ .noise) (foreign : c ≠ .foreign) (good : c ≠ .good) :
    lineQuiet p s = (quietRegs p (closeRx p c (counted p c s))).modPort p Port.freed := by
  have alike := HeardAlike.of_wrote (f := Port.hearing (quietBurst s p b)) hp h (.refl _ s) rfl
  have port : (s.modPort p (Port.hearing (quietBurst s p b))).port p = some (q.hearing (quietBurst s p b)) := by
    rw [port_modPort, h]
    rfl
  have take := takeBurst_counted hp h hx hr hw hy en (sd_of_decided dec) cls noise foreign (.refl _ s) (fun e => absurd e good) (quietBurst s p b)
  have same := alike.heardBy (quietBurst s p b)
  have wrote := wrote_strayed (.refl _ s) (p := p) c |>.trans ((Wrote.refl (lineStatus p) _).closeRx c (mem_lineStatus p (by decide)))
  rw [lineQuiet_eq, quietEnds_some h rx, classBursts_last port rfl (by rw [same]; exact dec) (by rw [same]; exact alike.endsThere ends) (same ▸ take),
    classedLast_modPort]
  generalize closeRx p c (counted p c s) = x at *
  have closedPort : (x.modPort p (Port.closed c ∘ Port.hearing (quietBurst s p b))).port p = some ((q.hearing (quietBurst s p b)).closed c) := by
    rw [port_modPort, wrote.port, h]
    rfl
  have freed : ∀ o : Port, (o.closed c).rx = none ∧ (o.closed c).freed = o.freed := by
    intro o
    unfold Port.closed
    split <;> exact ⟨rfl, rfl⟩
  rw [quietTaken_none closedPort (freed _).1, quietRegs_modPort, modPort_comp]
  exact modPort_congr _ p _ _ fun o _ => ((freed _).2.trans rfl)

end ended

/-! Replies that become readings (R110, R120), and windows that pass empty (R111). -/

/-- The readings of a reply whose node's endpoints begin at `base`. -/
def readingsOf (base n : Nat) (h : HeardReply) : List Reading := (List.range n).map (fun i => ⟨base + i, recNum h.payload (2 * i) 2, h.pm⟩)

/-- Readings that join the port's. -/
def Port.reads (l : List Reading) (q : Port) : Port := { q with readings := q.readings ++ l }

/-- The exchange goes on to the next node's window. -/
def Exchange.answered (k : Nat) (x : Exchange) : Exchange := { x with next := x.next + 1, base := x.next + 1, heard := true, windows := x.windows ++ [(k, .good)] }

/-- So does the port. -/
def Port.answered (k : Nat) (q : Port) : Port := { q with xchg := q.xchg.map (Exchange.answered k) }

/-- A good reply of an enrolled node with endpoints (R120). -/
theorem acceptReply_reads {k pf pn pm : Nat} {h : HeardReply} (state : (nodeRec s p k).state = nsEnrolled) (ident : bit h.status 4 = false)
    (len : h.payload.length = 2 * pointsExpected (nodeRec s p k) pf pn) (ep : (nodeRec s p k).epbase ≠ noEp) (time : h.pm = pm) :
    acceptReply p k pf pn h pm s = s.modPort p (Port.reads (readingsOf ((nodeRec s p k).epbase + pf) (pointsExpected (nodeRec s p k) pf pn) h)) := by
  subst time
  unfold acceptReply
  dsimp only
  rw [if_neg (not_not.mpr state), if_neg (ne_true_of_eq_false ident), if_neg (not_not.mpr len), if_neg ep]
  rfl

/-- A GOOD reply of the node whose window it is, unfenced and without strikes. -/
theorem matchReply_reads {x : Exchange} {f n k pf pn pm : Nat} {h : HeardReply} (hs : s.port p = some q) (cmd : x.cmd = .readChain f n pf pn) (sound : s.ledg.flips = [])
    (node : h.node = k) (strikes : (nodeRec s p k).strikes = 0) (fences : ∀ i, i < 8 → fenceHas s p i k = false) (absent : k ∉ q.absent) :
    matchReply p k x .good h pm s = acceptReply p k pf pn h pm s := by
  have read : readNode p k s = s := readAs_noFlips sound _ _
  have returns : fenceReturn p k s = s := fenceReturn_none fun i hi => by rw [lostBefore, fences i hi, Bool.false_and]
  have unchanged : goodFrom p k s = s := by
    unfold goodFrom
    dsimp only
    rw [if_pos strikes, returns]
  have present : q.absent.contains k = false := by rw [List.contains_eq_mem]; exact decide_eq_false absent
  unfold matchReply
  dsimp only
  rw [read, node, if_pos rfl, unchanged, if_neg (not_not.mpr rfl), hs, Option.map_some, present, Option.getD_some, if_neg Bool.false_ne_true, cmd]

/-- A GOOD burst in the window of a node of a READ_CHAIN exchange is matched with the node (R110). -/
theorem burstInExchange_window {x : Exchange} {d : Heard} {f n pf pn sd : Nat} (cmd : x.cmd = .readChain f n pf pn) (hsd : d.sd = some sd) (window : inNodeWindow s p x sd = true)
    (pm : Nat) : burstInExchange p x .good d pm s = matchReply p (f + x.next) x .good (burstReply d pm) pm (s.modPort p (Port.answered (f + x.next))) := by
  have search : isSearch x.cmd = false := by rw [cmd]; rfl
  have letterbox : isLetterbox x.cmd = false := by rw [cmd]; rfl
  have first : (cmdNodes x.cmd).1 = f := by rw [cmd]; rfl
  unfold burstInExchange
  dsimp only
  rw [search, letterbox, Bool.or_false, if_neg Bool.false_ne_true, hsd]
  dsimp only
  rw [if_pos window, first]
  rfl

theorem takeBurst_window {x : Exchange} {d : Heard} {f n pf pn : Nat} (hx : q.xchg = some x) (cmd : x.cmd = .readChain f n pf pn)
    (cls : classOf s p x.fresh false d = .good) :
    takeBurst p q d s = (.good, burstInExchange p x .good d ((s.pm + 2 ^ 64 - glitchLen s p) % 2 ^ 64) (s.incSat (F.FL_CNT_GOOD_GOOD p))) := by
  have search : isSearch x.cmd = false := by rw [cmd]; rfl
  unfold takeBurst
  rw [hx]
  dsimp only [Option.map_some, Option.getD_some, Option.isNone_some]
  rw [search, cls, countClass_eq, classField, if_neg (show ¬ (false && !s.flag (F.FL_CTRL_EN p)) = true from Bool.false_ne_true), if_neg Bool.false_ne_true]

/-- The registers once a GOOD reply is counted. -/
def repliedRegs (p : Nat) (s : State) : State := (begunRegs p s).incSat (F.FL_CNT_GOOD_GOOD p)

theorem wrote_repliedRegs (p : Nat) (s : State) : Wrote [A.FL_CNT_GOOD p, A.FL_STAT p] s (repliedRegs p s) :=
  ((wrote_begunRegs p s).mono (by simp)).incSat (F.FL_CNT_GOOD_GOOD p) 1 (.head _)

theorem get_repliedRegs (p : Nat) (s : State) : (repliedRegs p s).get (F.FL_CNT_GOOD_GOOD p) = satTo 0xFFFFFFFF (s.get (F.FL_CNT_GOOD_GOOD p) + 1) := by
  have kept := (wrote_begunRegs p s).get (F.FL_CNT_GOOD_GOOD p) (by simp [F.FL_CNT_GOOD_GOOD])
  exact (get_incSat_self _ (F.FL_CNT_GOOD_GOOD p) 1 (show 0 + 32 ≤ 32 by decide)).trans (by rw [kept]; rfl)

/-- The port after a reply with readings. -/
def Port.replied (x : Exchange) (k : Nat) (l : List Reading) (q : Port) : Port := { q with xchg := some (x.answered k), readings := q.readings ++ l }

theorem closed_reading {x : Exchange} (rx : q.rx = none) (hx : q.xchg = some x) (k : Nat) (l : List Reading) (b : Burst) :
    (Port.closed .good ∘ (Port.reads l ∘ Port.answered k ∘ Port.hearing b)) q = q.replied x k l := by
  unfold Function.comp Port.closed
  rw [if_neg (by decide)]
  unfold Port.heardOut Port.reads Port.answered Port.hearing Port.replied
  rw [hx, rx]
  rfl

/-- A GOOD reply in its node's window becomes readings of the node's endpoints (R110, R120). -/
theorem takeBurst_reads {x : Exchange} {d : Heard} {h : HeardReply} {f n k pf pn sd : Nat} (hp : p < 32) (hs : s.port p = some q) (hx : q.xchg = some x)
    (cmd : x.cmd = .readChain f n pf pn) (sound : s.ledg.flips = []) (hsd : d.sd = some sd) (window : inNodeWindow s p x sd = true) (cls : classOf s p x.fresh false d = .good)
    (hk : k = f + x.next) (hh : h = burstReply d ((s.pm + 2 ^ 64 - glitchLen s p) % 2 ^ 64)) (node : h.node = k) (state : (nodeRec s p k).state = nsEnrolled)
    (strikes : (nodeRec s p k).strikes = 0) (ep : (nodeRec s p k).epbase ≠ noEp) (fences : ∀ i, i < 8 → fenceHas s p i k = false) (absent : k ∉ q.absent)
    (ident : bit h.status 4 = false) (len : h.payload.length = 2 * pointsExpected (nodeRec s p k) pf pn) (b : Burst) :
    takeBurst p (q.hearing b) d ((begunRegs p s).modPort p (Port.hearing b)) = (.good, (repliedRegs p s).modPort p
      (Port.reads (readingsOf ((nodeRec s p k).epbase + pf) (pointsExpected (nodeRec s p k) pf pn) h) ∘ Port.answered k ∘ Port.hearing b)) := by
  have status : ∀ a ∈ [A.FL_CNT_GOOD p, A.FL_STAT p], a ∈ lineStatus p := by
    intro a ha
    rcases List.mem_cons.mp ha with rfl | ha
    · exact mem_lineStatus p (by decide)
    · exact List.mem_singleton.mp ha ▸ mem_lineStatus p (by decide)
  have wrote := (wrote_repliedRegs p s).mono status
  have begun := HeardAlike.of_wrote (f := Port.hearing b) hp hs ((wrote_begunRegs p s).mono fun a ha => status a (.tail _ ha)) rfl
  have heard := HeardAlike.of_wrote (f := Port.hearing b) hp hs wrote rfl
  have answered := HeardAlike.of_wrote (f := Port.answered k ∘ Port.hearing b) hp hs wrote rfl
  have pm : ((begunRegs p s).modPort p (Port.hearing b)).pm = s.pm := (wrote_begunRegs p s).pm
  have counts : ((begunRegs p s).modPort p (Port.hearing b)).incSat (F.FL_CNT_GOOD_GOOD p) = (repliedRegs p s).modPort p (Port.hearing b) := modPort_incSat _ _ _ _ _
  rw [takeBurst_window (q := q.hearing b) hx cmd ((begun.classOf _ _ _).trans cls), pm, begun.glitchLen, counts,
    burstInExchange_window cmd hsd ((heard.inNodeWindow x sd).trans window), ← hh, ← hk, modPort_comp]
  generalize repliedRegs p s = r at *
  have port : (r.modPort p (Port.answered k ∘ Port.hearing b)).port p = some ((q.hearing b).answered k) := by
    rw [port_modPort, wrote.port, hs]
    rfl
  have record := answered.dirs.nodeRec k
  have clear : ∀ i, i < 8 → fenceHas (r.modPort p (Port.answered k ∘ Port.hearing b)) p i k = false := fun i hi =>
    (fenceHas_congr (t := r.modPort p (Port.answered k ∘ Port.hearing b)) (wrote.reg (fence_lineStatus p i)) k).trans (fences i hi)
  have whole : (r.modPort p (Port.answered k ∘ Port.hearing b)).ledg.flips = [] := (congrArg (·.flips) answered.dirs.ledg).trans sound
  rw [← record] at state strikes ep len
  rw [matchReply_reads port cmd whole node strikes clear absent, acceptReply_reads state ident len ep (by rw [hh]; rfl), record, modPort_comp]

/-- The missed window of a node is counted (R111). -/
theorem nodeMissing_counts {x : Exchange} (h : s.port p = some q) (hx : q.xchg = some x) (stage : q.stage = .listening) (left : x.next < (cmdNodes x.cmd).2) :
    nodeMissing p s = (s.incSat (F.FL_CNT_LINE_MISSING p)).modPort p (fun q => { q with xchg := some { x with next := x.next + 1 } }) := by
  have go : (decide (q.stage ≠ .listening) || decide ((cmdNodes x.cmd).2 ≤ x.next)) = false := by
    rw [stage, decide_eq_false (Nat.not_le.mpr left)]
    rfl
  unfold nodeMissing
  rw [h, xchg_eq h, hx]
  dsimp only
  rw [go, if_neg Bool.false_ne_true, State.modXchg]
  exact modPort_same (q := q) (by rw [port_incSat, h]) (by rw [hx]; rfl)

theorem nodeMissing_else {x : Exchange} (h : s.port p = some q) (hx : q.xchg = some x) (stays : q.stage ≠ .listening ∨ (cmdNodes x.cmd).2 ≤ x.next) : nodeMissing p s = s := by
  unfold nodeMissing
  rw [h, xchg_eq h, hx]
  dsimp only
  refine if_pos ?_
  rcases stays with e | e <;> simp [e]

end burst

/-- Settles O17: a burst that begins and ends is taken once; what it counts, the LOST fence it ends and the readings it brings are each one change. -/
theorem burstsAndReplies : Obligations.BurstsAndReplies := by
  unfold Obligations.BurstsAndReplies
  refine ⟨fun p q b s h stage => ?_, ?_, ?_, ?_, fun p q x s h hx => ⟨fun stage left => ?_, fun stays => ?_⟩,
    fun p q s h up awake => ⟨fun rx => ?_, fun b d rx hd hx hr hw hy en => ⟨fun sd pend lim => ?_, fun dec ends c hc cls => ?_⟩⟩⟩
  · exact ⟨s, congrArg Host.Outcome.next (burstReceived_ignored h stage), rfl⟩
  · intro p q b s h stage hx hr hw hy rx deaf works en dec ends fences c hc cls
    obtain ⟨field, noise, foreign⟩ : c.2 = classField p c.1 ∧ c.1 ≠ .noise ∧ c.1 ≠ .foreign := by
      simp only [List.mem_cons, List.not_mem_nil, or_false] at hc
      rcases hc with rfl | rfl | rfl | rfl <;> exact ⟨rfl, nofun, nofun⟩
    have lost : ∀ k, k < 8 → lostBefore s p (burstReply (heardBy s p b) s.pm).node k = false := by
      intro k hk
      unfold lostBefore
      cases has : fenceHas s p k (burstReply (heardBy s p b) s.pm).node with
      | false => rfl
      | true => exact beq_eq_false_iff_ne.mpr (fences k hk has)
    have take := takeBurst_counted p.isLt h hx hr hw hy en (sd_of_decided dec) cls noise foreign (wrote_begunRegs p s) (fun _ => lost) b
    have meaning := burstReceived_takes p.isLt h (.inl stage) rx deaf works dec ends take
    rw [classedLast_modPort] at meaning
    obtain ⟨own, late, quiet, high, wrote⟩ := fields_closed c.1 (wrote_begunRegs p s)
    obtain ⟨low, begun⟩ := flags_begunRegs p s
    rw [low] at quiet
    rw [begun, Bool.and_true] at high
    have deafOnly : decide (c.1 = .foreign ∨ c.1 = .malformed) = decide (c.1 = .malformed) := decide_eq_decide.mpr (or_iff_right foreign)
    generalize closeRx p c.1 (counted p c.1 (begunRegs p s)) = r at *
    rw [modPort_same (g := fun q => { q with deaf := decide (c.1 = .malformed) }) ((wrote.port p).trans h) (closed_hearing rx deaf foreign b)] at meaning
    rw [field]
    exact ⟨_, congrArg Host.Outcome.next meaning, own, late, quiet, high.trans deafOnly, wrote.modPort_untouched p _, wrote.modPort_frame p _⟩
  · intro p q b f k s h stage hx hr hw hy rx deaf works en dec ends cls hk hf node one
    have lost : ∀ g, g < 8 → (lostBefore s p (burstReply (heardBy s p b) s.pm).node g = true ↔ g = f) := by
      intro g hg
      rw [lostBefore, Bool.and_eq_true, beq_iff_eq]
      exact one g hg
    have take := takeBurst_returned p.isLt h hx hr hw hy en (sd_of_decided dec) cls nofun nofun (wrote_begunRegs p s) rfl hk hf lost b
    have meaning := burstReceived_takes p.isLt h (.inl stage) rx deaf works dec ends take
    rw [classedLast_modPort, closeRx, if_neg (by decide), told_put] at meaning
    obtain ⟨en0, lo, hi, wrote⟩ := fields_returned (wrote_begunRegs p s) f
    generalize (((counted p .good (begunRegs p s)).put (F.FL_FENCE_EN p f) 0).put (F.FL_STAT_RX p) 0) = r at *
    exact ⟨_, congrArg Host.Outcome.next meaning, (flag_toldPort _ _ _ _ _).trans en0, (get_toldPort _ _ _ _ _).trans lo, (get_toldPort _ _ _ _ _).trans hi,
      told_toldPort (wrote.same (·.cores) rfl) _ _ _, untouched_toldPort wrote.untouched _ _ _⟩
  · intro p q x b d h f n pf pn sd k r s hs stage rx deaf works hx cmd sound hd dec ends hsd window cls hk hh node poison record state strikes ep fences absent ident len
    subst hd record
    have take := takeBurst_reads p.isLt hs hx cmd sound hsd window cls hk hh node state strikes ep fences absent ident len b
    have meaning := burstReceived_takes p.isLt hs (.inr stage) rx deaf works dec ends take
    rw [classedLast_modPort, closeRx, if_neg (by decide)] at meaning
    have wrote := (wrote_repliedRegs p s).put (F.FL_STAT_RX p) 0 (.tail _ (.head _))
    have good := get_repliedRegs p s
    generalize repliedRegs p s = y at *
    have kept : (y.put (F.FL_STAT_RX p) 0).get (F.FL_CNT_GOOD_GOOD p) = y.get (F.FL_CNT_GOOD_GOOD p) := get_put_port y p 0 rfl
    have low := flag_put_zero y (F.FL_STAT_RX p) (show 1 + 1 ≤ 32 by decide)
    generalize y.put (F.FL_STAT_RX p) 0 = r at *
    rw [modPort_same (g := Port.replied x k (readingsOf ((nodeRec s p k).epbase + pf) (pointsExpected (nodeRec s p k) pf pn) h)) ((wrote.port p).trans hs)
      (closed_reading rx hx _ _ b)] at meaning
    exact ⟨_, congrArg Host.Outcome.next meaning, congrArg (upd · p.val _) wrote.ports, (State.modPort_get _ _ _ _).trans (kept.trans good), (flag_modPort _ _ _ _).trans low,
      wrote.modPort_untouched p _, wrote.modPort_kept p _⟩
  · have wrote := (Wrote.refl [A.FL_CNT_LINE p] s).incSat (F.FL_CNT_LINE_MISSING p) 1 (.head _)
    have one := get_incSat_self s (F.FL_CNT_LINE_MISSING p) 1 (show 0 + 16 ≤ 32 by decide)
    have other : (s.incSat (F.FL_CNT_LINE_MISSING p)).get (F.FL_CNT_LINE_NOISE p) = s.get (F.FL_CNT_LINE_NOISE p) := get_put_port s p _ rfl
    have meaning := nodeMissing_counts h hx stage left
    generalize s.incSat (F.FL_CNT_LINE_MISSING p) = r at *
    exact ⟨_, congrArg Host.Outcome.next meaning, one, other, wrote.modPort_untouched p _, wrote.modPort_frame p _⟩
  · exact ⟨s, congrArg Host.Outcome.next (nodeMissing_else h hx stays), rfl⟩
  · have wrote := wrote_quietRegs p s
    obtain ⟨quiet, rxLow⟩ := flags_quietRegs p s
    have meaning := (whenHeard_awake up awake (lineQuiet p)).trans (lineQuiet_silent h rx)
    generalize quietRegs p s = r at *
    rw [modPort_same (g := fun q => { q with deaf := false }) ((wrote.port p).trans h) (by rw [Port.freed, ← rx])] at meaning
    exact ⟨_, congrArg Host.Outcome.next meaning, quiet, rxLow, wrote.modPort_untouched p _, wrote.modPort_frame p _⟩
  · subst hd
    have counts := (Wrote.refl [A.FL_CNT_LINE p, A.FL_STAT p] s).incSat (F.FL_CNT_LINE_NOISE p) 1 (.head _)
    have one := get_incSat_self s (F.FL_CNT_LINE_NOISE p) 1 (show 16 + 16 ≤ 32 by decide)
    have meaning := (whenHeard_awake up awake (lineQuiet p)).trans (lineQuiet_noise p.isLt h rx hx hr hw hy en sd pend lim)
    generalize s.incSat (F.FL_CNT_LINE_NOISE p) = x at *
    have shut := wrote_quietRegs p x
    obtain ⟨quiet, rxLow⟩ := flags_quietRegs p x
    generalize quietRegs p x = r at *
    have wrote := counts.trans (shut.mono (by simp))
    exact ⟨_, congrArg Host.Outcome.next meaning, (State.modPort_get _ _ _ _).trans ((shut.get (F.FL_CNT_LINE_NOISE p) (by simp [F.FL_CNT_LINE_NOISE])).trans one),
      (flag_modPort _ _ _ _).trans quiet, (flag_modPort _ _ _ _).trans rxLow, wrote.modPort_untouched p _,
      wrote.modPort_frame p _⟩
  · subst hd
    obtain ⟨field, noise, foreign, good⟩ : c.2 = classField p c.1 ∧ c.1 ≠ .noise ∧ c.1 ≠ .foreign ∧ c.1 ≠ .good := by
      simp only [List.mem_cons, List.not_mem_nil, or_false] at hc
      rcases hc with rfl | rfl | rfl <;> exact ⟨rfl, nofun, nofun, nofun⟩
    have meaning := (whenHeard_awake up awake (lineQuiet p)).trans (lineQuiet_classed p.isLt h rx hx hr hw hy en dec ends cls noise foreign good)
    obtain ⟨own, late, -, -, counts⟩ := fields_closed c.1 (Wrote.refl [A.FL_STAT p] s)
    obtain ⟨-, -, stat, -⟩ := classField_place p c.1
    generalize closeRx p c.1 (counted p c.1 s) = x at *
    have shut := wrote_quietRegs p x
    obtain ⟨quiet, rxLow⟩ := flags_quietRegs p x
    generalize quietRegs p x = r at *
    have wrote := counts.trans (shut.mono (by simp))
    rw [field]
    exact ⟨_, congrArg Host.Outcome.next meaning, (shut.get _ (by simp [stat])).trans own, (shut.get (F.FL_CNT_DROP_LATE p) (by simp [F.FL_CNT_DROP_LATE])).trans late,
      quiet, rxLow, wrote.modPort_untouched p _, wrote.modPort_frame p _⟩

end Sys2Proof.Machine

/-!
PROOFS. An exchange that ends between rounds while the sequencer runs (06, 07; R111, R145).
-/

namespace Sys2Proof.Machine

/-- A PING that an action asked for, whose reply has been heard. -/
def followPing : Exchange := ⟨.ping 5, .follow, [], 0, false, 1, 1, false, 0, 0, none, none, false, []⟩

/-- The port's timetable: slot 0 of bank A, a CONVERT round of port 3 in every pass. -/
def convertSlot : Nat := 0x32

/-- Port 3 listens to the end of the PING while its pass runs and no round is in progress. -/
def passState : State :=
  { ((State.reset.mark (F.FL_CTRL_EN 3)).mark F.TT_CTRL_RUN) with
    pow := { State.reset.pow with phase := .up }
    ports := upd State.reset.ports 3 (fun q => { q with stage := .listening, xchg := some followPing })
    seq := { State.reset.seq with slots := [(0, convertSlot)], passes := upd State.reset.seq.passes 3 (fun w => { w with mode := .pass }) } }

/-- The slot that comes next is fired as the exchange ends (R145). -/
theorem round_fired : ((exchangeEnd 3 passState).round 3).map (·.kind) = some .convert := by decide +kernel

/-- Refutes O18: nothing keeps the sequencer from running; a slot that waited for the end of an exchange between rounds is then fired at once, though the statement lets
only the exchange go. -/
theorem not_letterboxResolution : ¬ Obligations.LetterboxResolution := by
  unfold Obligations.LetterboxResolution
  intro h
  obtain ⟨follow, -⟩ := h 3 { idlePort with stage := .listening, xchg := some followPing } followPing passState (by decide +kernel) rfl rfl rfl rfl rfl rfl
    (by decide +kernel) (by decide +kernel)
  obtain ⟨t, ht, -, -, frame⟩ := follow rfl rfl (by decide)
  obtain rfl : exchangeEnd 3 passState = t := Host.Outcome.next.inj ht
  have fired := round_fired
  rw [frame] at fired
  exact absurd fired (by decide +kernel)

end Sys2Proof.Machine

/-!
PROOFS. The round boundary and the end of a yield or back-off wait (06, 07; R117, R134, R156).
-/

namespace Sys2Proof.Machine

section boundary
variable {p : Nat} {q : Port} {s : State} {r : Round}

/-! The round boundary (R117). -/

/-- A round that had fewer NOISE bursts than NOISE_LIM clears BACKOFF (R134). -/
def backoffRegs (p : Nat) (r : Round) (s : State) : State := if r.noise < s.get (F.FL_STRCFG_NOISE_LIM p) then s.put (F.FL_RSTAT_BACKOFF p) 0 else s

/-- The registers of a port past a round's boundary. -/
def boundaryRegs (p : Nat) (r : Round) (s : State) : State := ((backoffRegs p r s).incWrap (F.FL_RCNT_ROUNDS p)).put (F.TTP_POS_ROUND p) 0

/-- The registers that a round boundary writes. -/
abbrev boundaryWrites (p : Nat) : List Nat := [A.FL_RCNT p, A.TTP_POS p, A.FL_RSTAT p]

def Port.roundOver (q : Port) : Port := { q with round := none }

/-- A port's round over, and no line counts as written in it (R178). -/
def WriteBack.roundOver (w : WriteBack) : WriteBack := { w with done := [] }

/-- The figures of a pass count the hold after a round that ended at `d` (R156). -/
def Pass.held (now d : Nat) (fill : Bool) (w : Pass) : Pass :=
  if w.mode = .idle then w else { w with holdT := w.holdT + pmDiff now d, last := if fill then w.last else now }

/-- The round of a port is over, and its pass changed by `f`. -/
def State.roundOver (s : State) (p : Nat) (f : Pass → Pass) : State := ((modBack p WriteBack.roundOver s).modPort p Port.roundOver).modPass p f

theorem reg_roundOver (s : State) (p : Nat) (f : Pass → Pass) (a : Nat) : (s.roundOver p f).reg a = s.reg a := rfl
theorem byte_roundOver (s : State) (p : Nat) (f : Pass → Pass) (a : Nat) : (s.roundOver p f).byte a = s.byte a := rfl
theorem edit_roundOver (s : State) (p : Nat) (f : Pass → Pass) : (s.roundOver p f).seq.edit = s.seq.edit := rfl
theorem ports_roundOver (s : State) (p : Nat) (f : Pass → Pass) : (s.roundOver p f).ports = upd s.ports p Port.roundOver := rfl
theorem passes_roundOver (s : State) (p : Nat) (f : Pass → Pass) : (s.roundOver p f).seq.passes = upd s.seq.passes p f := rfl

theorem wrote_backoffRegs (p : Nat) (r : Round) (s : State) : Wrote (boundaryWrites p) s (backoffRegs p r s) := by
  unfold backoffRegs
  split
  · exact (Wrote.refl _ s).put (F.FL_RSTAT_BACKOFF p) 0 (.tail _ (.tail _ (.head _)))
  · exact Wrote.refl _ s

theorem wrote_boundaryRegs (p : Nat) (r : Round) (s : State) : Wrote (boundaryWrites p) s (boundaryRegs p r s) :=
  ((wrote_backoffRegs p r s).put (F.FL_RCNT_ROUNDS p) _ (.head _)).put (F.TTP_POS_ROUND p) 0 (.tail _ (.head _))

/-- TTP_POS lies past the registers of the port engines. -/
theorem get_put_pos (hp : p < 32) (s : State) (v a lo w : Nat) (ha : a < 0x10042000) :
    (s.put (F.TTP_POS_ROUND p) v).get ⟨a + 0x1000 * p, lo, w⟩ = s.get ⟨a + 0x1000 * p, lo, w⟩ :=
  get_put_other s _ _ v (show 29 + 1 ≤ 32 by decide) (.inl (show 0x10079100 + 0x20 * p ≠ a + 0x1000 * p by omega))

theorem modBack_put (p : Nat) (s : State) (f : WriteBack → WriteBack) (g : Fd) (v : Nat) : (modBack p f s).put g v = modBack p f (s.put g v) := rfl

theorem boundaryRegs_modBack (p : Nat) (r : Round) (s : State) (f : WriteBack → WriteBack) : boundaryRegs p r (modBack p f s) = modBack p f (boundaryRegs p r s) := by
  have backoff : backoffRegs p r (modBack p f s) = modBack p f (backoffRegs p r s) :=
    (apply_ite (modBack p f) (r.noise < s.get (F.FL_STRCFG_NOISE_LIM p)) (s.put (F.FL_RSTAT_BACKOFF p) 0) s).symm
  unfold boundaryRegs
  rw [backoff, State.incWrap, modBack_put, modBack_put]
  rfl

theorem backoff_backoffRegs (p : Nat) (r : Round) (s : State) :
    (backoffRegs p r s).flag (F.FL_RSTAT_BACKOFF p) = (s.flag (F.FL_RSTAT_BACKOFF p) && decide (s.get (F.FL_STRCFG_NOISE_LIM p) ≤ r.noise)) := by
  unfold backoffRegs
  split
  · next quiet => rw [flag_put_zero s (F.FL_RSTAT_BACKOFF p) (show 1 + 1 ≤ 32 by decide), decide_eq_false (Nat.not_le.mpr quiet), Bool.and_false]
  · next noisy => rw [decide_eq_true (Nat.not_lt.mp noisy), Bool.and_true]

/-- What the registers of a port show past the boundary. -/
theorem fields_boundaryRegs (hp : p < 32) (r : Round) (s : State) :
    (boundaryRegs p r s).get (F.FL_RCNT_ROUNDS p) = (s.get (F.FL_RCNT_ROUNDS p) + 1) % 65536 ∧ (boundaryRegs p r s).flag (F.TTP_POS_ROUND p) = false ∧
      (boundaryRegs p r s).flag (F.FL_RSTAT_BACKOFF p) = (s.flag (F.FL_RSTAT_BACKOFF p) && decide (s.get (F.FL_STRCFG_NOISE_LIM p) ≤ r.noise)) := by
  refine ⟨?_, flag_put_zero _ (F.TTP_POS_ROUND p) (show 29 + 1 ≤ 32 by decide), ?_⟩
  · have before : (backoffRegs p r s).get (F.FL_RCNT_ROUNDS p) = s.get (F.FL_RCNT_ROUNDS p) := by
      unfold backoffRegs
      split
      · exact get_put_port s p 0 rfl
      · rfl
    rw [← before]
    exact (get_put_pos hp _ 0 0x10041040 16 16 (by decide)).trans (get_incWrap_self _ (F.FL_RCNT_ROUNDS p) 1 (show 16 + 16 ≤ 32 by decide))
  · rw [← backoff_backoffRegs]
    have kept := (get_put_pos hp ((backoffRegs p r s).incWrap (F.FL_RCNT_ROUNDS p)) 0 0x10041078 1 1 (by decide)).trans
      (get_put_port (backoffRegs p r s) p _ rfl)
    exact congrArg (· != 0) kept

theorem advanceAll_stopped (h : s.flag F.TT_CTRL_RUN = false) : advanceAll s = s := forUpTo_id (advance_stopped h) 32

theorem portSwap_none (h : bit (s.get F.TT_SWAPPEND_PORTS) p = false) : portSwap p s = s := if_pos (by rw [h]; rfl)

theorem settleEdit_none (h : s.seq.edit = none) : settleEdit s = s := by
  unfold settleEdit
  rw [h]

/-- A port with no line to write back only forgets the lines written in its round (R178). -/
theorem endBack_empty (h : (backOf s p).reads = []) : endBack p s = modBack p WriteBack.roundOver s := by
  have issues : issueBack p s = s := if_pos (by rw [h, List.isEmpty_nil, Bool.or_true])
  unfold endBack
  rw [issues]
  rfl

theorem roundBoundary_waits (h : s.port p = some q) (hr : q.round = some r) (hd : r.done = none) : roundBoundary p s = s := by
  unfold roundBoundary
  rw [round_eq h, h, hr]
  dsimp only
  rw [hd]

/-- The boundary of a round that is no READ round (R117). -/
theorem roundBoundary_eq {d : Nat} (h : s.port p = some q) (hr : q.round = some r) (hd : r.done = some d) (hk : r.kind ≠ .read) (hq : q.readings = []) : roundBoundary p s =
    advanceAll (portSwap p (settleEdit (((boundaryRegs p r (retryNodes (endBack p s))).modPort p Port.roundOver).modPass p (Pass.held s.pm d r.fill)))) := by
  unfold roundBoundary
  rw [round_eq h, h, hr]
  dsimp only
  rw [hd]
  dsimp only
  rw [hq, if_neg (show ¬ (!([] : List Reading).isEmpty) = true from Bool.false_ne_true), if_neg hk]
  generalize retryNodes (endBack p s) = x
  rw [← backoffRegs, ← boundaryRegs]
  rfl

/-- The boundary with nothing to write back, while no swap or edit waits and the sequencer does not run. -/
theorem roundBoundary_over {d : Nat} (hp : p < 32) (h : s.port p = some q) (idle : NoNodeWaits s) (hr : q.round = some r) (hd : r.done = some d) (hk : r.kind ≠ .read)
    (hq : q.readings = []) (hb : (backOf s p).reads = []) (swap : bit (s.get F.TT_SWAPPEND_PORTS) p = false) (edit : s.seq.edit = none) (run : s.flag F.TT_CTRL_RUN = false) :
    roundBoundary p s = (boundaryRegs p r s).roundOver p (Pass.held s.pm d r.fill) := by
  have wrote := wrote_boundaryRegs p r s
  have far : ∀ a, 0x10061000 ≤ a → a < 0x10079100 → a ∉ boundaryWrites p := by
    intro a lo hi
    simp only [boundaryWrites, List.mem_cons, List.not_mem_nil, or_false, A.FL_RCNT, A.TTP_POS, A.FL_RSTAT]
    omega
  have pend := wrote.get F.TT_SWAPPEND_PORTS (far _ (by decide) (by decide))
  have stopped := wrote.flag F.TT_CTRL_RUN (far _ (by decide) (by decide))
  rw [roundBoundary_eq h hr hd hk hq, endBack_empty hb, retryNodes_noNodeWaits (s := modBack p _ s) idle, boundaryRegs_modBack]
  generalize boundaryRegs p r s = b at *
  rw [← State.roundOver, settleEdit_none ((edit_roundOver _ _ _).trans ((wrote.same (·.seq.edit) rfl).trans edit)),
    portSwap_none (by rw [get_congr F.TT_SWAPPEND_PORTS (reg_roundOver _ _ _ _), pend, swap]),
    advanceAll_stopped ((flag_congr F.TT_CTRL_RUN (reg_roundOver _ _ _ _)).trans (stopped.trans run))]

/-! The end of a wait (R134, R156). -/

def Port.waited (q : Port) : Port := { q with wait := none, yieldDue := false }

theorem commandWaitEnd_none (h : s.port p = some q) (hw : q.wait = none) : commandWaitEnd p s = s := if_pos (by rw [h, Option.bind_some, hw]; rfl)

theorem commandWaitEnd_waited {w : Nat} (h : s.port p = some q) (hw : q.wait = some w) :
    commandWaitEnd p s = (s.modPort p Port.waited).modPass p (fun x => { x with yieldT := x.yieldT + pmDiff s.pm w }) := by
  have waits : (s.port p).bind (·.wait) = some w := by rw [h, Option.bind_some, hw]
  unfold commandWaitEnd endWait countWait
  rw [waits, if_neg (show ¬ (some w).isNone = true from Bool.false_ne_true)]
  dsimp only
  rw [modPass_modPort, modPort_comp]
  rfl

end boundary

/-- Settles O20: a boundary writes three registers of its port and takes the round out, and the end of a wait is one change of the port and of its pass. -/
theorem roundBoundaryAndWaits : Obligations.RoundBoundaryAndWaits := by
  unfold Obligations.RoundBoundaryAndWaits
  intro p q s h idle
  refine ⟨fun r hr hd => ?_, fun r d hr hd hk hq hb swap edit run => ?_, fun hw => ?_, fun w hw => ?_⟩
  · exact ⟨s, congrArg Host.Outcome.next (roundBoundary_waits h hr hd), rfl⟩
  · have wrote := wrote_boundaryRegs p r s
    obtain ⟨rounds, round, backoff⟩ := fields_boundaryRegs p.isLt r s
    have meaning := roundBoundary_over p.isLt h idle hr hd hk hq hb swap edit run
    generalize boundaryRegs p r s = b at *
    have reg := reg_roundOver b p (Pass.held s.pm d r.fill)
    refine ⟨_, congrArg Host.Outcome.next meaning, (get_congr _ (reg _)).trans rounds, (flag_congr _ (reg _)).trans round, (flag_congr _ (reg _)).trans backoff,
      (ports_roundOver b p _).trans ?_, (passes_roundOver b p _).trans ?_, fun a ha => (reg a).trans (wrote.reg ha), fun a => (byte_roundOver b p _ a).trans (wrote.untouched.2 a)⟩
    · rw [wrote.ports]
      rfl
    · rw [wrote.same (·.seq.passes) rfl]
      rfl
  · exact ⟨s, congrArg Host.Outcome.next (commandWaitEnd_none h hw), rfl⟩
  · exact ⟨_, congrArg Host.Outcome.next (commandWaitEnd_waited h hw), rfl⟩

end Sys2Proof.Machine

/-!
PROOFS. The first exchange of each kind of round (06; R116, R122, R123, R129, R139, R140, Table 6.1).
-/

namespace Sys2Proof.Machine

section choose
variable {p : Nat} {q : Port} {r : Round} {s : State}

/-! A port as a value. -/

/-- Port `p` becomes `q`. -/
def State.setPort (s : State) (p : Nat) (q : Port) : State := s.modPort p (fun _ => q)

theorem port_setPort (h : s.port p = some q) (o : Port) : (s.setPort p o).port p = some o := by
  rw [State.setPort, port_modPort, h]
  rfl

theorem modPort_setPort (s : State) (p : Nat) (o : Port) (f : Port → Port) : (s.setPort p o).modPort p f = s.setPort p (f o) := modPort_comp s p _ f

theorem modRound_setPort (s : State) (p : Nat) (o : Port) (f : Round → Round) : (s.setPort p o).modRound p f = s.setPort p { o with round := o.round.map f } :=
  modPort_setPort s p o _

theorem modPort_value (h : s.port p = some q) {f : Port → Port} {o : Port} (ho : f q = o) : s.modPort p f = s.setPort p o := modPort_same h ho

theorem pruned_setPort (s : State) (p : Nat) (o : Port) : Port.pruned (s.setPort p o) p = Port.pruned s p := pruned_modPort s p _

theorem get_setPort (s : State) (p : Nat) (o : Port) (g : Fd) : (s.setPort p o).get g = s.get g := rfl

theorem flag_setPort (s : State) (p : Nat) (o : Port) (g : Fd) : (s.setPort p o).flag g = s.flag g := rfl

theorem setPort_put (s : State) (p : Nat) (o : Port) (g : Fd) (v : Nat) : (s.setPort p o).put g v = (s.put g v).setPort p o := rfl

/-! What a port does next (R116). -/

/-- A round that is begun and goes on, while nothing is wanted, in progress or walked out. -/
structure Chooses (q : Port) (r : Round) : Prop where
  round : q.round = some r
  want  : q.want = []
  xchg  : q.xchg = none
  walk  : q.walk = none
  begun : r.begun = true
  done  : r.done = none

theorem Chooses.goesOn (c : Chooses q r) : ¬ (!q.want.isEmpty || q.xchg.isSome || q.walk.isSome || !r.begun || r.done.isSome) = true := by
  obtain ⟨-, want, xchg, walk, begun, done⟩ := c
  rw [want, xchg, walk, begun, done]
  exact Bool.false_ne_true

/-- Nothing is left to choose: an exchange is wanted, or the round's exchanges are over. -/
theorem proceedOne_rests (h : s.port p = some q) (hr : q.round = some r) (rests : q.want ≠ [] ∨ r.done ≠ none) : proceedOne p s = s := by
  simp only [proceedOne, h, hr]
  refine if_pos ?_
  rcases rests with e | e
  · rw [List.isEmpty_eq_false_iff.mpr e]
    rfl
  · rw [Option.isSome_iff_ne_none.mpr e, Bool.or_true]

/-- A CONVERT or READ round sends its frames one after another. -/
theorem proceedOne_frame {f : LineCmd} {rest : List LineCmd} (h : s.port p = some q) (c : Chooses q r) (hk : r.kind = .convert ∨ r.kind = .read) (hf : r.frames = f :: rest) :
    proceedOne p s = s.modPort p (fun q => { q with want := [(f, .round)] }) := by
  rcases hk with hk | hk <;> simp only [proceedOne, h, c.round, if_neg c.goesOn, hk, hf]

/-- A LETTERBOX round asks for the top of its stack (R123). -/
theorem proceedOne_letterbox {l pre : Nat} {rest : List (Nat × Nat)} (h : s.port p = some q) (c : Chooses q r) (hk : r.kind = .letterbox) (hs : q.lbStack = (l, pre) :: rest)
    (ex : r.ex < s.get (F.FL_LBCFG_MAXEX p)) : proceedOne p s = s.modPort p (fun q => { q with lbStack := rest, want := [(.letterbox l pre, .round)] }) := by
  simp only [proceedOne, h, c.round, if_neg c.goesOn, hk, hs, if_neg (Nat.not_le.mpr ex)]

/-- An ENROL round asks for the top of its stack (R129). -/
theorem proceedOne_enrol {l pre : Nat} {rest : List (Nat × Nat)} (h : s.port p = some q) (c : Chooses q r) (hk : r.kind = .enrol) (hs : q.enStack = (l, pre) :: rest)
    (ex : r.ex < s.get (F.FL_ENRLIM_MAXEX p)) : proceedOne p s = s.modPort p (fun q => { q with enStack := rest, want := [(.search l pre, .round)] }) := by
  simp only [proceedOne, h, c.round, if_neg c.goesOn, hk, hs, if_neg (Nat.not_le.mpr ex)]

theorem proceedOne_maint (h : s.port p = some q) (c : Chooses q r) (hk : r.kind = .maint) : proceedOne p s = maintStep p r s := by
  simp only [proceedOne, h, c.round, if_neg c.goesOn, hk]

theorem finishRound_open (h : s.port p = some q) (hr : q.round = some r) (hd : r.done = none) :
    finishRound p s = s.setPort p { q with round := some { r with done := some s.pm } } := by
  unfold finishRound
  rw [round_eq h, hr]
  dsimp only
  rw [hd]
  exact modPort_value h (by rw [hr]; rfl)

/-- Only an ENROL round with ENR.EN 0 is stopped (Table 6.1). -/
theorem enrolStop_stays (h : s.port p = some q) (hr : q.round = some r) (stays : r.kind ≠ .enrol ∨ s.flag (F.FL_ENR_EN p) = true) : enrolStop p s = s := by
  simp only [enrolStop, h, hr]
  refine if_neg ?_
  rcases stays with e | e <;> simp [e]

theorem enrolStop_ends (h : s.port p = some q) (c : Chooses q r) (hk : r.kind = .enrol) (off : s.flag (F.FL_ENR_EN p) = false) :
    enrolStop p s = s.setPort p { q with round := some { r with done := some s.pm } } := by
  have unfinished : r.done.isNone = true := by rw [c.done]; rfl
  simp only [enrolStop, h, c.round]
  rw [if_pos ⟨hk, c.begun, unfinished, by rw [c.xchg]; rfl, by rw [off]; rfl⟩, modPort_stays h, finishRound_open h c.round c.done]
  rw [c.want, List.flatMap_nil, List.nil_append, List.filter_nil, ← c.want]

/-- A port that owes no yield, and is not in back-off, has come to rest. -/
theorem proceed_once {a b : State} {o : Port} (stop : enrolStop p s = a) (step : proceedOne p a = b) (h : b.port p = some o) (hr : o.round = some r)
    (rests : o.want ≠ [] ∨ r.done ≠ none) (yield : o.yieldDue = false) (backoff : b.flag (F.FL_RSTAT_BACKOFF p) = false) : proceed p s = b := by
  unfold proceed
  rw [stop, iter_once _ 23 a b step (proceedOne_rests h hr rests), setWait_none b p o h yield (.inl backoff)]

theorem proceed_twice {a b c : State} {o : Port} (stop : enrolStop p s = a) (step : proceedOne p a = b) (next : proceedOne p b = c) (h : c.port p = some o) (hr : o.round = some r)
    (rests : o.want ≠ [] ∨ r.done ≠ none) (yield : o.yieldDue = false) (backoff : c.flag (F.FL_RSTAT_BACKOFF p) = false) : proceed p s = c := by
  unfold proceed
  rw [stop, iter_twice _ 22 a b c step next (proceedOne_rests h hr rests), setWait_none c p o h yield (.inl backoff)]

end choose

/-! The beginning of a round (R116). -/

section fired
variable {p : Nat} {q : Port} {r : Round} {s : State}

/-- The round `r` has been fired at port `p`, which is free to begin it. -/
structure Fired (s : State) (p : Nat) (q : Port) (r : Round) : Prop where
  port    : s.port p = some q
  round   : q.round = some r
  works   : portWorks s p = true
  begun   : r.begun = false
  done    : r.done = none
  want    : q.want = []
  xchg    : q.xchg = none
  walk    : q.walk = none
  yield   : q.yieldDue = false
  backoff : s.flag (F.FL_RSTAT_BACKOFF p) = false

def Round.started (r : Round) : Round := { r with begun := true }

/-- The port as its round of the kind of `r` begins: the stacks of the exchanges to come, the checks and the probes (R122, R123, R129, R139). -/
def Port.begins (s : State) (p : Nat) (r : Round) (q : Port) : Port :=
  match r.kind with
  | .letterbox => if q.lbStack.isEmpty then { q with round := some r.started, lbStack := [(0, 0)], lbTotal := 0 } else { q with round := some r.started }
  | .enrol => if q.enStack.isEmpty && s.flag (F.FL_ENR_EN p) then { q with round := some r.started, enStack := [(0, 0)] } else { q with round := some r.started }
  | .maint => { q with round := some { r.started with checks := (q.checks.take 4).map (·.node), probes := lostFences s p q.probeAt } }
  | _ => { q with round := some r.started }

theorem beginRound_else {k : RoundKind} (h : s.port p = some q) (hr : q.round = some r) (stays : r.kind ≠ k ∨ r.begun = true) : beginRound p k s = s := by
  simp only [beginRound, h, hr]
  refine if_pos ?_
  rcases stays with e | e <;> simp [e]

theorem beginRound_fired {k : RoundKind} (f : Fired s p q r) (hk : r.kind = k) : beginRound p k s = proceed p (s.setPort p (q.begins s p r)) := by
  subst hk
  have goesOn : ¬ (decide (r.kind ≠ r.kind) || r.begun || r.done.isSome || !portWorks s p || q.walk.isSome) = true := by
    rw [f.begun, f.done, f.works, f.walk]
    simp
  have started : s.modRound p (fun r => { r with begun := true }) = s.setPort p { q with round := some r.started } := modPort_value f.port (by rw [f.round]; rfl)
  simp only [beginRound, f.port, f.round]
  rw [if_neg goesOn, started]
  unfold Port.begins
  cases r.kind with
  | letterbox =>
    dsimp only
    split
    · exact congrArg (proceed p) (modPort_setPort _ _ _ _)
    · rfl
  | enrol =>
    dsimp only
    split
    · exact congrArg (proceed p) (modPort_setPort _ _ _ _)
    · rfl
  | maint => exact congrArg (proceed p) (modRound_setPort _ _ _ _)
  | convert | read => rfl

/-- One choice, after which an exchange is wanted or the round's exchanges are over. -/
theorem Fired.proceeds (f : Fired s p q r) {o o' : Port} {r' : Round} (stop : enrolStop p (s.setPort p o) = s.setPort p o) (step : proceedOne p (s.setPort p o) = s.setPort p o')
    (hr : o'.round = some r') (rests : o'.want ≠ [] ∨ r'.done ≠ none) (yield : o'.yieldDue = false) : proceed p (s.setPort p o) = s.setPort p o' :=
  proceed_once stop step (port_setPort f.port o') hr rests yield f.backoff

theorem beginRound_frame {k : RoundKind} (f : Fired s p q r) (hk : r.kind = k) (plain : k = .convert ∨ k = .read) {c : LineCmd} {rest : List LineCmd} (hf : r.frames = c :: rest) :
    beginRound p k s = s.setPort p { q with want := [(c, .round)], round := some r.started } := by
  rw [← hk] at plain
  have begins : q.begins s p r = { q with round := some r.started } := by
    unfold Port.begins
    rcases plain with e | e <;> rw [e]
  have other : r.started.kind ≠ .enrol := by rcases plain with e | e <;> simp [Round.started, e]
  have port := port_setPort f.port { q with round := some r.started }
  rw [beginRound_fired f hk, begins]
  exact f.proceeds (enrolStop_stays port rfl (.inl other)) ((proceedOne_frame port ⟨rfl, f.want, f.xchg, f.walk, rfl, f.done⟩ plain hf).trans (modPort_setPort ..)) rfl
    (.inl (List.cons_ne_nil _ _)) f.yield

theorem beginRound_letterbox (f : Fired s p q r) (hk : r.kind = .letterbox) (hs : q.lbStack = []) (ex : r.ex < s.get (F.FL_LBCFG_MAXEX p)) :
    beginRound p .letterbox s = s.setPort p { q with want := [(.letterbox 0 0, .round)], lbTotal := 0, round := some r.started } := by
  have begins : q.begins s p r = { q with round := some r.started, lbStack := [(0, 0)], lbTotal := 0 } := by
    unfold Port.begins
    rw [hk, hs]
    rfl
  have port := port_setPort f.port { q with round := some r.started, lbStack := [(0, 0)], lbTotal := 0 }
  rw [beginRound_fired f hk, begins]
  refine f.proceeds (enrolStop_stays port rfl (.inl fun e => by simp [Round.started, hk] at e))
    ((proceedOne_letterbox port ⟨rfl, f.want, f.xchg, f.walk, rfl, f.done⟩ hk rfl ex).trans ((modPort_setPort ..).trans ?_)) rfl (.inl (List.cons_ne_nil _ _)) f.yield
  rw [← hs]

theorem beginRound_enrol (f : Fired s p q r) (hk : r.kind = .enrol) (hs : q.enStack = []) (en : s.flag (F.FL_ENR_EN p) = true) (ex : r.ex < s.get (F.FL_ENRLIM_MAXEX p)) :
    beginRound p .enrol s = s.setPort p { q with want := [(.search 0 0, .round)], round := some r.started } := by
  have begins : q.begins s p r = { q with round := some r.started, enStack := [(0, 0)] } := by
    unfold Port.begins
    rw [hk, hs, en]
    rfl
  have port := port_setPort f.port { q with round := some r.started, enStack := [(0, 0)] }
  rw [beginRound_fired f hk, begins]
  refine f.proceeds (enrolStop_stays port rfl (.inr en))
    ((proceedOne_enrol port ⟨rfl, f.want, f.xchg, f.walk, rfl, f.done⟩ hk rfl ex).trans ((modPort_setPort ..).trans ?_)) rfl (.inl (List.cons_ne_nil _ _)) f.yield
  rw [← hs]

/-- With ENR.EN 0 an ENROL round has no exchange. -/
theorem beginRound_enrolOff (f : Fired s p q r) (hk : r.kind = .enrol) (off : s.flag (F.FL_ENR_EN p) = false) :
    beginRound p .enrol s = s.setPort p { q with round := some { r.started with done := some s.pm } } := by
  have begins : q.begins s p r = { q with round := some r.started } := by
    unfold Port.begins
    rw [hk, off, Bool.and_false]
    rfl
  have port := port_setPort f.port { q with round := some r.started }
  have stop := enrolStop_ends port ⟨rfl, f.want, f.xchg, f.walk, rfl, f.done⟩ hk off
  have ended := port_setPort f.port { q with round := some { r.started with done := some s.pm } }
  rw [beginRound_fired f hk, begins]
  exact proceed_once (stop.trans (modPort_setPort ..)) (proceedOne_rests ended rfl (.inr (Option.some_ne_none _))) ended rfl (.inr (Option.some_ne_none _)) f.yield f.backoff

end fired

/-! MAINT rounds: the checks, the mailbox's command, the probes (R122, R139, R140). -/

section maint
variable {p : Nat} {q : Port} {r : Round} {s : State}

theorem readNode_sound (h : s.ledg.flips = []) (p n : Nat) : readNode p n s = s := readAs_noFlips h _ _

theorem maintStep_check {n : Nat} {rest : List Nat} (prune : pruneChecks p s = s) (hc : r.checks = n :: rest) (h : s.port p = some q)
    (queued : q.checks.any (fun c => c.node == n) = true) :
    maintStep p r s = (s.modRound p (fun r => { r with checks := rest })).modPort p (fun q => { q with want := [(.identify n, .check)] }) := by
  simp only [maintStep, prune, hc, h, Option.map_some, queued]
  rfl

theorem maintStep_noCommand (prune : pruneChecks p s = s) (hc : r.checks = []) (hb : r.boxed = false) (box : s.get (F.FL_MBOX_STATE p) ≠ 1) :
    maintStep p r s = s.modRound p (fun r => { r with boxed := true }) := by
  simp only [maintStep, prune, hc, hb, if_pos box]
  rfl

/-- The turn of the mailbox's command, where no turned cell lies in the directory. -/
theorem maintStep_command (prune : pruneChecks p s = s) (hc : r.checks = []) (hb : r.boxed = false) (box : s.get (F.FL_MBOX_STATE p) = 1) (sound : s.ledg.flips = []) :
    maintStep p r s = if boxSends s p then (s.modRound p (fun r => { r with boxed := true })).modPort p (fun q => { q with want := [(boxCmd s p, .mailbox)] })
      else (s.modRound p (fun r => { r with boxed := true })).put (F.FL_MBOX_STATE p) 3 := by
  have read : readNode p (s.get (F.FL_MBOX_NODE p)) (s.modRound p (fun r => { r with boxed := true })) = s.modRound p (fun r => { r with boxed := true }) :=
    readNode_sound (s := s.modRound p _) sound p _
  have sends : boxSends (s.modRound p (fun r => { r with boxed := true })) p = boxSends s p := rfl
  have cmd : boxCmd (s.modRound p (fun r => { r with boxed := true })) p = boxCmd s p := rfl
  simp only [maintStep, prune, hc, hb, box, read, sends, cmd]
  rfl

theorem maintStep_probe {k n : Nat} {rest : List Nat} (prune : pruneChecks p s = s) (hc : r.checks = []) (hb : r.boxed = true) (hp : r.probes = k :: rest)
    (sound : s.ledg.flips = []) (node : probeNode s p k = some n) :
    maintStep p r s = ((s.modRound p (fun r => { r with probes := rest })).modPort p (fun q => { q with probeAt := (k + 1) % 8 })).modPort p
      (fun q => { q with want := [(.ping n, .probe k)] }) := by
  have scan := scanDir_sound (s := (s.modRound p (fun r => { r with probes := rest })).modPort p (fun q => { q with probeAt := (k + 1) % 8 })) sound p
  have same : probeNode ((s.modRound p (fun r => { r with probes := rest })).modPort p (fun q => { q with probeAt := (k + 1) % 8 })) p k = some n := node
  simp only [maintStep, prune, hc, hb, hp, scan, same]
  rfl

theorem maintStep_over (prune : pruneChecks p s = s) (hc : r.checks = []) (hb : r.boxed = true) (hp : r.probes = []) : maintStep p r s = finishRound p s := by
  simp only [maintStep, prune, hc, hb, hp]
  rfl

/-- The round `r` in progress as a MAINT round with these checks and probes to come. -/
def Round.maint (r : Round) (checks : List Nat) (boxed : Bool) (probes : List Nat) (done : Option Nat) : Round :=
  { r with begun := true, checks := checks, boxed := boxed, probes := probes, done := done }

/-- A port whose last probe went before fence `last`, which wants `want` in its round `r`. -/
def Port.inMaint (q : Port) (last : Nat) (want : List (LineCmd × LineUse)) (r : Round) : Port := { q with want := want, probeAt := last, round := some r }

theorem beginRound_maint (f : Fired s p q r) (hk : r.kind = .maint) (hb : r.boxed = false) : beginRound p .maint s =
    proceed p (s.setPort p (q.inMaint q.probeAt [] (r.maint ((q.checks.take 4).map (·.node)) false (lostFences s p q.probeAt) none))) := by
  have begins : q.begins s p r = q.inMaint q.probeAt [] (r.maint ((q.checks.take 4).map (·.node)) false (lostFences s p q.probeAt) none) := by
    unfold Port.begins Port.inMaint Round.maint Round.started
    rw [hk]
    simp [f.want, f.done, hb]
  rw [beginRound_fired f hk, begins]

/-- Where no queued check is of a fenced or quarantined node, none is dropped (R122). -/
theorem pruneChecks_clean (clean : ∀ c ∈ q.checks, fenced s p c.node = false ∧ (nodeRec s p c.node).state ≠ nsQuarantined) (a : Nat) (want : List (LineCmd × LineUse)) (o : Round) :
    pruneChecks p (s.setPort p (q.inMaint a want o)) = s.setPort p (q.inMaint a want o) := by
  have kept : q.checks.filter (fun c => !fenced s p c.node && (nodeRec s p c.node).state != nsQuarantined) = q.checks := by
    rw [List.filter_eq_self]
    intro c hc
    obtain ⟨free, sane⟩ := clean c hc
    rw [free, bne_iff_ne.mpr sane]
    rfl
  rw [pruneChecks_eq, modPort_setPort, pruned_setPort]
  exact congrArg (fun l => s.setPort p { q.inMaint a want o with checks := l }) kept

/-- The port `q`, between two exchanges of its MAINT round. -/
structure InMaint (s : State) (p : Nat) (q : Port) (r : Round) : Prop where
  port    : s.port p = some q
  kind    : r.kind = .maint
  xchg    : q.xchg = none
  walk    : q.walk = none
  sound   : s.ledg.flips = []

variable (m : InMaint s p q r) {a : Nat} {probes : List Nat}
include m

theorem InMaint.step (checks : List Nat) (boxed : Bool) : proceedOne p (s.setPort p (q.inMaint a [] (r.maint checks boxed probes none))) =
    maintStep p (r.maint checks boxed probes none) (s.setPort p (q.inMaint a [] (r.maint checks boxed probes none))) :=
  proceedOne_maint (port_setPort m.port _) ⟨rfl, rfl, m.xchg, m.walk, rfl, rfl⟩ m.kind

theorem InMaint.noStop (want : List (LineCmd × LineUse)) (checks : List Nat) (boxed : Bool) (done : Option Nat) :
    enrolStop p (s.setPort p (q.inMaint a want (r.maint checks boxed probes done))) = s.setPort p (q.inMaint a want (r.maint checks boxed probes done)) :=
  enrolStop_stays (port_setPort m.port _) rfl (.inl (by simp [Round.maint, m.kind]))

theorem InMaint.put (f : Fd) (v : Nat) : InMaint (s.put f v) p q r := ⟨m.port, m.kind, m.xchg, m.walk, m.sound⟩

theorem InMaint.prune_none (hc : q.checks = []) (want : List (LineCmd × LineUse)) (o : Round) : pruneChecks p (s.setPort p (q.inMaint a want o)) = s.setPort p (q.inMaint a want o) :=
  pruneChecks_none (port_setPort m.port _) hc

theorem InMaint.check {c : IdCheck} {rest : List IdCheck} (hc : q.checks = c :: rest)
    (clean : ∀ c ∈ q.checks, fenced s p c.node = false ∧ (nodeRec s p c.node).state ≠ nsQuarantined) :
    proceedOne p (s.setPort p (q.inMaint a [] (r.maint ((q.checks.take 4).map (·.node)) false probes none))) =
      s.setPort p (q.inMaint a [(.identify c.node, .check)] (r.maint ((rest.take 3).map (·.node)) false probes none)) := by
  have queued : q.checks.any (fun x => x.node == c.node) = true := by rw [hc, List.any_cons, beq_self_eq_true, Bool.true_or]
  rw [m.step, maintStep_check (n := c.node) (rest := (rest.take 3).map (·.node)) (pruneChecks_clean clean _ _ _) (by rw [hc]; rfl) (port_setPort m.port _) queued, modRound_setPort, modPort_setPort]
  rfl

variable (hc : q.checks = [])
include hc

theorem InMaint.noCommand (box : s.get (F.FL_MBOX_STATE p) ≠ 1) : proceedOne p (s.setPort p (q.inMaint a [] (r.maint [] false probes none))) =
    s.setPort p (q.inMaint a [] (r.maint [] true probes none)) := by
  rw [m.step, maintStep_noCommand (m.prune_none hc _ _) rfl rfl box, modRound_setPort]
  rfl

theorem InMaint.command (box : s.get (F.FL_MBOX_STATE p) = 1) (sends : boxSends s p = true) : proceedOne p (s.setPort p (q.inMaint a [] (r.maint [] false probes none))) =
    s.setPort p (q.inMaint a [(boxCmd s p, .mailbox)] (r.maint [] true probes none)) := by
  rw [m.step, maintStep_command (m.prune_none hc _ _) rfl rfl box m.sound, if_pos (show boxSends (s.setPort p _) p = true from sends), modRound_setPort, modPort_setPort]
  rfl

/-- A command that is not sent fails (R140). -/
theorem InMaint.commandFails (box : s.get (F.FL_MBOX_STATE p) = 1) (sends : boxSends s p = false) : proceedOne p (s.setPort p (q.inMaint a [] (r.maint [] false probes none))) =
    (s.put (F.FL_MBOX_STATE p) 3).setPort p (q.inMaint a [] (r.maint [] true probes none)) := by
  rw [m.step, maintStep_command (m.prune_none hc _ _) rfl rfl box m.sound, if_neg (show ¬ boxSends (s.setPort p _) p = true from ne_true_of_eq_false sends), modRound_setPort, setPort_put]
  rfl

theorem InMaint.probe {k n : Nat} (node : probeNode s p k = some n) : proceedOne p (s.setPort p (q.inMaint a [] (r.maint [] true (k :: probes) none))) =
    s.setPort p (q.inMaint ((k + 1) % 8) [(.ping n, .probe k)] (r.maint [] true probes none)) := by
  rw [m.step, maintStep_probe (m.prune_none hc _ _) rfl rfl rfl m.sound node, modRound_setPort, modPort_setPort, modPort_setPort]
  rfl

theorem InMaint.finishes : proceedOne p (s.setPort p (q.inMaint a [] (r.maint [] true [] none))) = s.setPort p (q.inMaint a [] (r.maint [] true [] (some s.pm))) := by
  rw [m.step, maintStep_over (m.prune_none hc _ _) rfl rfl rfl, finishRound_open (port_setPort m.port _) rfl rfl]
  exact modPort_setPort ..

end maint

/-- A port that has become `f` of itself. -/
theorem setPort_frame {s : State} {p : Nat} {q o : Port} {f : Port → Port} (h : s.port p = some q) (ho : f q = o) : s.setPort p o = { s with ports := upd s.ports p f } :=
  (modPort_value h ho).symm

/-- The same, beside writes of registers. -/
theorem Wrote.setPort_frame {l : List Nat} {s t : State} (w : Wrote l s t) {p : Nat} {q o : Port} {f : Port → Port} (h : s.port p = some q) (ho : f q = o) :
    t.setPort p o = { s with regs := (t.setPort p o).regs, ports := upd s.ports p f } := by
  rw [← modPort_value ((w.port p).trans h) ho]
  exact w.modPort_frame p f

theorem Wrote.setPort_untouched {l : List Nat} {s t : State} (w : Wrote l s t) (p : Nat) (o : Port) : Untouched s (t.setPort p o) l := w.modPort_untouched p _

/-- Settles O19: what each kind of round begins with is one or two choices of `proceedOne`, after which an exchange is wanted or the round's exchanges are over. -/
theorem roundsBegin : Obligations.RoundsBegin := by
  unfold Obligations.RoundsBegin
  intro p q r s h hr
  refine ⟨fun c hc stays => ?_, fun works begun done want xchg walk yield backoff => ?_⟩
  · simp only [List.mem_cons, List.not_mem_nil, or_false] at hc
    rcases hc with rfl | rfl | rfl | rfl | rfl <;> exact ⟨s, congrArg Host.Outcome.next (beginRound_else h hr stays), rfl⟩
  have fired : Fired s p q r := ⟨h, hr, works, begun, done, want, xchg, walk, yield, backoff⟩
  refine ⟨fun c hc f rest hk hf => ?_, fun hk hs ex => ?_, fun hk hs en ex => ?_, fun hk off => ?_, fun hk hb sound clean => ?_⟩
  · simp only [List.mem_cons, List.not_mem_nil, or_false] at hc
    rcases hc with rfl | rfl
    · exact ⟨_, congrArg Host.Outcome.next (beginRound_frame fired hk (.inl rfl) hf), setPort_frame h rfl⟩
    · exact ⟨_, congrArg Host.Outcome.next (beginRound_frame fired hk (.inr rfl) hf), setPort_frame h rfl⟩
  · exact ⟨_, congrArg Host.Outcome.next (beginRound_letterbox fired hk hs ex), setPort_frame h rfl⟩
  · exact ⟨_, congrArg Host.Outcome.next (beginRound_enrol fired hk hs en ex), setPort_frame h rfl⟩
  · exact ⟨_, congrArg Host.Outcome.next (beginRound_enrolOff fired hk off), setPort_frame h rfl⟩
  have m : InMaint s p q r := ⟨h, hk, xchg, walk, sound⟩
  have begins := beginRound_maint fired hk hb
  have same := Wrote.refl [] s
  have port : ∀ o, (s.setPort p o).port p = some o := port_setPort h
  have sent : ∀ c : LineCmd × LineUse, [c] ≠ [] := fun c => List.cons_ne_nil c []
  have ended : some s.pm ≠ none := Option.some_ne_none _
  refine ⟨fun c rest hc => ?_, fun hc box sends => ?_, fun hc box sends lost => ?_, fun k ks n hc box lost node => ?_, fun hc box lost => ?_⟩
  · have meaning := begins.trans (proceed_once (m.noStop _ _ _ _) (m.check hc clean) (port _) rfl (.inl (sent _)) yield backoff)
    exact ⟨_, congrArg Host.Outcome.next meaning, same.setPort_untouched p _, same.setPort_frame h rfl⟩
  all_goals rw [hc, List.take_nil, List.map_nil] at begins
  · have meaning := begins.trans (proceed_once (m.noStop _ _ _ _) (m.command hc box sends) (port _) rfl (.inl (sent _)) yield backoff)
    exact ⟨_, congrArg Host.Outcome.next meaning, same.setPort_untouched p _, same.setPort_frame h rfl⟩
  · rw [lost] at begins
    have wrote := (Wrote.refl [A.FL_MBOX p] s).put (F.FL_MBOX_STATE p) 3 (.head _)
    have shown : (s.put (F.FL_MBOX_STATE p) 3).get (F.FL_MBOX_STATE p) = 3 := get_put_self s (F.FL_MBOX_STATE p) 3 (show 30 + 2 ≤ 32 by decide)
    have kept : (s.put (F.FL_MBOX_STATE p) 3).flag (F.FL_RSTAT_BACKOFF p) = false := (flag_put_port s p 3 rfl).trans backoff
    have fails := m.commandFails (a := q.probeAt) (probes := []) hc box sends
    have after := m.put (F.FL_MBOX_STATE p) 3
    generalize s.put (F.FL_MBOX_STATE p) 3 = y at *
    have meaning := begins.trans (proceed_twice (m.noStop _ _ _ _) fails (after.finishes hc) (port_setPort after.port _) rfl (.inr (Option.some_ne_none _)) yield
      ((flag_setPort y p _ _).trans kept))
    rw [wrote.pm] at meaning
    exact ⟨_, congrArg Host.Outcome.next meaning, (get_setPort y p _ _).trans shown, wrote.setPort_untouched p _, wrote.setPort_frame h rfl⟩
  · rw [lost] at begins
    have meaning := begins.trans (proceed_twice (m.noStop _ _ _ _) (m.noCommand hc box) (m.probe hc node) (port _) rfl (.inl (sent _)) yield backoff)
    exact ⟨_, congrArg Host.Outcome.next meaning, same.setPort_untouched p _, same.setPort_frame h rfl⟩
  · rw [lost] at begins
    have meaning := begins.trans (proceed_twice (m.noStop _ _ _ _) (m.noCommand hc box) (m.finishes hc) (port _) rfl (.inr ended) yield backoff)
    exact ⟨_, congrArg Host.Outcome.next meaning, same.setPort_untouched p _, same.setPort_frame h rfl⟩

end Sys2Proof.Machine
